-- ==== Sys2Proof/Word.lean ====
section
/-! DEFINITION. The word types of the EX4 register interface, and the plainest arithmetic on field values.
Every register is 32 bits wide and little-endian (R4). A field value is kept as its raw bits in a `Nat`. -/

namespace Sys2Proof

/-- One 32-bit register word (R4). -/
abbrev Word := BitVec 32

/-- One byte of the page store, of a flash slot or of a link word. -/
abbrev Byte := BitVec 8

/-- The `w` bits of `n` from bit `lsb` upward. -/
def bitField (n lsb w : Nat) : Nat := n / 2 ^ lsb % 2 ^ w

/-- Raw field bits read as two's complement of width `w`. -/
def toSigned (w n : Nat) : Int :=
  if n % 2 ^ w < 2 ^ (w - 1) then (n % 2 ^ w : Int) else (n % 2 ^ w : Int) - 2 ^ w

/-- The raw bits, `w` wide, of an integer taken modulo 2^w. -/
def ofSigned (w : Nat) (z : Int) : Nat := (z % (2 ^ w : Int)).toNat

/-- An integer held within [lo, hi]; `lo` wins where the two cross. -/
def clampInt (z lo hi : Int) : Int := max lo (min z hi)

/-- A counter of width `w` that saturates at all ones. -/
def satInc (w n : Nat) : Nat := if n + 1 < 2 ^ w then n + 1 else 2 ^ w - 1

/-- One bit from a Bool. -/
def bit (b : Bool) : Nat := if b then 1 else 0

end Sys2Proof
end

