-- ==== Sys2Proof/Syntax.lean ====
section
/-! DEFINITION. The commands of the EX4: one constructor of `Instr` per row of spec/opcode_table.json, and the
operand types they carry. A command is what reaches the block from outside (a bus write or read, a received link word, an
edge on a pin) or an instant that the block's own timing reaches (a tick, a timeout); its operands are what the
outside supplies at that instant. -/

namespace Sys2Proof

/-- A locally clocked island that a handshake watchdog can isolate (R14); each video island is one station's. -/
inductive Island where
  | seq | host | mem | cmp | mot | ctl | csl
  | vid (k : Nat)
  deriving DecidableEq, Repr

/-- The two lockstep core pairs (R18). -/
inductive CorePair where
  | a | b
  deriving DecidableEq, Repr

/-- A Scejo port (R306). -/
inductive Port where
  | a | b
  deriving DecidableEq, Repr

/-- An error that has arisen in one 64-byte burst of the page store (R70). -/
inductive EccError where
  | single | double | tag
  deriving DecidableEq, Repr

/-- Burst `burst` of the usable space (usable address / 64) met the error `err` since the last access. -/
structure Upset where
  burst : Nat
  err : EccError
  deriving DecidableEq, Repr

/-- The two rails of a source in a reporter's word (R345). -/
inductive Rails where
  | r00 | r01 | r10 | r11
  deriving DecidableEq, Repr

/-- Edge of a heater gate inside one half-cycle (R266, R267). -/
inductive GateEdge where
  | rise | fall
  deriving DecidableEq, Repr

/-- The two over-temperature comparators of a heater gate (R269). -/
inductive Comparator where
  | a | b
  deriving DecidableEq, Repr

/-- Which edge of a sheet a sensor window waits for (R288). -/
inductive SheetEdge where
  | leading | trailing
  deriving DecidableEq, Repr

/-- A unit behind its own wrapper, as FLT_UNITCMD names them (R358, R362). -/
inductive UnitId where
  | engine (n : Nat) | axis (n : Nat) | slot (n : Nat) | station (n : Nat)
  deriving DecidableEq, Repr

/-- A rail or step that the supervisor watches (R378, R383). -/
inductive RailId where
  | rail (r : Nat)
  | extStep
  deriving DecidableEq, Repr

/-- What RAIL_WINDOW_CHANGE watches: an on-module rail or an external monitor (R391). -/
inductive WindowId where
  | rail (r : Nat)
  | monitor (m : Nat)
  deriving DecidableEq, Repr

/-- The wiring flags of EIO_STAT that are conditions (R449). -/
inductive WireFlag where
  | lo | hi | openF | pair
  deriving DecidableEq, Repr

/-- The three BARs that a write can hit (R421). -/
inductive Bar where
  | bar0 | bar2 | bar4
  deriving DecidableEq, Repr

/-- A change of MSI-X gating (R427): MSI-X Enable, the function mask, or the mask bit of one vector. -/
inductive MsixOp where
  | enable (on : Bool) | functionMask (masked : Bool) | vectorMask (v : Nat) (masked : Bool)
  deriving DecidableEq, Repr

/-- A sheet event that the master broadcasts (R319). A feed and a spoil name the sheet by its tag (R315). -/
inductive SheetEvent where
  | feed (tag : Word) | origin (m : Int) | commit | boundary | outputDecision (d : Nat) | spoil (tag : Word) | w0 (w : Int)
  deriving DecidableEq, Repr

/-- What a slave reports to the master about the cascaded sheet or the web (R319, R320). A drain report carries the path line
G_k + 1 + STNPOS_k that R300 needs of the station. -/
inductive SlaveReport where
  | spoiled (tag : Word)
  | stalled
  | drained (station : Nat) (line : Nat) (busy : Bool)
  deriving DecidableEq, Repr

/-- The commands of the EX4, in the order of the opcode table. -/
inductive Instr where
  | registerWrite (addr : Nat) (v : Word)
  | misalignedBar0Access (addr bytes : Nat) (write : Bool)
  | pairLowWrite (addr : Nat) (v : Word)
  | pairHighWrite (addr : Nat) (v : Word)
  | pairLowRead (addr : Nat)
  | handshakeWatchdogExpiry (isl : Island)
  | pairMismatch (p : CorePair)
  | pairWatchdogExpiry (p : CorePair)
  | serviceCoreFault
  | heartbeatWrite (v : Word)
  | heartbeatExpiry
  | expertKeyWrite (v : Word)
  | loadRequest (v : Word)
  | autoLoad
  | imageVerifyComplete (readOk : Bool)
  | applyComplete
  | commit (v : Word)
  | commitComplete (ok : Bool)
  | arm (v : Word)
  | disarm (v : Word)
  | disarmComplete
  | programKey (v : Word)
  | revoke (v : Word)
  | advanceSecver (v : Word)
  | lockTestPort (v : Word)
  | fuseCommandDone (verified : Bool)
  | clrExpert (v : Word)
  | scrubTick (ups : List Upset)
  | bandVerified (rec : Nat)
  | loamDeadlockTimeout (ch : Nat)
  | openCtx (c : Nat)
  | close (c : Nat)
  | cancel (c : Nat)
  | release (c : Nat)
  | bandReclaimDone
  | admissionGateEvaluate
  | bar2Read (x len : Nat) (ups : List Upset)
  | bar2Write (x : Nat) (data : List Byte) (ups : List Upset)
  | imagingReadUe (k band off : Nat)
  | imagingDecodeError (k band : Nat) (bus : Bool)
  | jobStart (n : Nat) (v : Word)
  | jobResume (n : Nat) (v : Word)
  | jobStop (n : Nat) (units : Nat)
  | jobAbort (n : Nat)
  | jobOutFull (n : Nat)
  | jobNeedInput (n : Nat)
  | jobDone (n : Nat)
  | jobError (n : Nat) (bus : Bool)
  | scanStart (k sos fine mark decoded : Nat)
  | sosWindowMiss (k mark decoded : Nat)
  | indexPulse (k : Nat)
  | facetSignatureEval (k : Nat)
  | synLockLoss (k : Nat)
  | timingSetSend (k : Nat)
  | hpresQualified (k hid : Nat)
  | hpresLoss (k : Nat)
  | linkRxLocked (k : Nat)
  | rxLockLoss (k : Nat)
  | linkTrainTimeout (k : Nat)
  | identTimeout (k : Nat)
  | statusTimeout (k : Nat)
  | rxIdent (k : Nat) (w : List Byte)
  | rxEchoResp (k : Nat) (w : List Byte) (roundTrip : Nat)
  | rxStatus (k : Nat) (w : List Byte)
  | rxApcResp (k : Nat) (w : List Byte)
  | initialApcEnd (k : Nat)
  | linkRestart (k : Nat) (v : Word)
  | ldRequest (k : Nat) (v : Word)
  | ldenFall (k : Nat)
  | ilkLoopClose (k : Nat)
  | beamOut (k b : Nat)
  | beamReturn (k b : Nat)
  | tempTripClear (k : Nat) (v : Word)
  | plannerTick (overrun : Option Nat)
  | move (a : Nat)
  | jog (a : Nat)
  | stop (a : Nat)
  | qstop (a : Nat)
  | halt (a : Nat)
  | home (a : Nat)
  | setpos (a : Nat)
  | enable (a : Nat)
  | disable (a : Nat)
  | gear (a : Nat)
  | axisClear (a : Nat)
  | segmentPush (a : Nat) (v : Word)
  | latchArm (a : Nat) (v : Word)
  | latchEdge (a i : Nat)
  | encoderError (a : Nat)
  | limitActive (a : Nat) (positive : Bool)
  | homeRawEdge (a : Nat) (active : Bool)
  | homeQualified (a : Nat)
  | indexEdge (a : Nat)
  | slotExecution (n : Nat) (ain : Nat)
  | fallbackTimeout (n : Nat)
  | slotOff (n : Nat)
  | slotManual (n : Nat)
  | slotAuto (n : Nat)
  | slotPreset (n : Nat)
  | slotCommit (n : Nat)
  | slotResume (n : Nat)
  | slotClear (n : Nat)
  | injStart (n : Nat)
  | injStop (n : Nat)
  | slotStay (n : Nat)
  | slotStop (n : Nat)
  | captureArm (v : Word)
  | captureForce (v : Word)
  | captureAbort (v : Word)
  | zeroCrossing (t : Nat) (vrms : Option Nat)
  | zeroCrossingMiss
  | heaterGateFire (g : Nat) (e : GateEdge)
  | otcTrip (g : Nat) (c : Comparator) (code : Int)
  | otcClear (g : Nat) (v : Word) (codeA codeB : Int)
  | thermistorConversion (i rt : Nat)
  | thermopileConversion (i : Nat) (code : Int)
  | hvFrame (fb : List Nat)
  | hvLeadEnd (c : Nat)
  | fbhiClear (c : Nat) (v : Word)
  | overspeedDetect
  | feedPoint
  | sensorRawEdge (i : Nat) (present : Bool)
  | sensorQualified (i : Nat)
  | sensorWindowExpiry (i c : Nat) (e : SheetEdge)
  | feedWindowExpiry
  | t0Issue (c k : Nat)
  | sheetCommit (c : Nat)
  | diverterDecision (c : Nat)
  | diverterRelease (c : Nat)
  | sheetDelivered (c : Nat)
  | sheetBoundary (c : Nat)
  | refeed
  | webBackup
  | webHold
  | webStop
  | dispAnswer (v : Word)
  | webRunStart
  | frameDeadline
  | webDrainDone
  | webDecelAtRest
  | webBackupAtRest
  | webResume
  | webAtSpeed
  | webBreak (i : Nat)
  | beaconTx
  | beaconRx (p : Port) (hop master version : Nat)
  | syncTx
  | syncRx (p : Port) (ts : Nat) (correction : Nat) (arrival : Nat)
  | syncTimeout
  | cascadeGateQuery (tag : Word)
  | cascadeGateReply (pos : Nat) (armed passes : Bool)
  | cascadeGateTimeout
  | positionBroadcast
  | positionRx (mpos : Int) (lrate : Nat) (t : Nat)
  | positionTimeout
  | sheetEventRx (e : SheetEvent)
  | cascadeDisarmRx
  | portDown (p : Port) (unreachable : List Nat)
  | partitionClear
  | powerGoRx
  | dmaStart (n : Nat) (v : Word)
  | dmaStop (n : Nat) (v : Word)
  | dmaReset (n : Nat) (v : Word)
  | dmaTailWrite (n : Nat) (v : Word)
  | descriptorFetch (n : Nat) (d : Option (List Byte))
  | laneAcceptBand (lane : Nat)
  | burstIssue (data : List Byte) (ups : List Upset)
  | burstError (n : Nat) (hostSide : Bool)
  | descriptorComplete (n : Nat)
  | periphRequest (psel : Nat)
  | periphWithdraw (n real : Nat)
  | faultReportWord (r : Nat) (word : List (Nat × Rails))
  | reporterTimeout (r : Nat)
  | reactionComplete (r : Nat)
  | fltClear (v : Word)
  | fltAnswer (v : Word)
  | isolate (v : Word)
  | returnUnit (v : Word)
  | unitResetRelease (u : UnitId)
  | unitCheckDone (u : UnitId) (ok : Bool)
  | calStepDone (ok : Bool) (failUnit : Nat) (temps : List Int)
  | mayflySweep
  | mayflyRequest (v : Word)
  | mayflyConversionDone (temp : Option Int)
  | recal (v : Word)
  | snap (v : Word)
  | restore (v : Word)
  | recalStart (k : Nat)
  | recalDone (k : Nat) (ok : Bool)
  | vinQualified
  | pwrOnChange (high : Bool)
  | railQualified (r : RailId)
  | railTimeout (r : RailId)
  | extStepEnable
  | railFallen (r : RailId)
  | fallLateTimeout (r : RailId)
  | pwrOff (v : Word)
  | extOn (v : Word)
  | extOff (v : Word)
  | step (v : Word)
  | offWaitTimeout
  | counterCopyDone
  | supplyFault (r : Nat)
  | inputCollapse (mv : Nat)
  | logCommit (committed : Bool)
  | resetSourceAssert (src : Nat)
  | resetSourceDeassert (src : Nat)
  | domainRelease
  | referenceLoss
  | referenceRestored
  | cmdDomain (v : Word)
  | cmdDie (v : Word)
  | cold (v : Word)
  | obWrite (v : Word)
  | obWriteDone (ok : Bool)
  | tapExtest (boundary : List (Nat × Bool))
  | isolatedAccess (addr : Nat) (write : Bool)
  | poisonedWrite (bar : Bar) (addr : Nat)
  | pcieLinkDown
  | d3hotEntry
  | msixUnmask (op : MsixOp)
  | mbxPost (i : Nat)
  | mbxPop (p : Nat)
  | mbxAnswer (p : Nat) (v : Word)
  | wiringFault (pin : Nat) (f : WireFlag)
  | overloadTrip (pin : Nat)
  | overloadClear (pin : Nat) (v : Word)
  | motionClock
  | encoderEdge (a : Nat) (forward : Bool)
  | sosGlitch (k : Nat)
  | zcGlitch
  | synLockGain (k : Nat)
  | limitInactive (a : Nat) (positive : Bool)
  | pcieLinkUp (speed width : Nat)
  | portUp (p : Port) (delay : Nat)
  | slaveReportRx (pos : Nat) (rep : SlaveReport)
  | railWindowChange (w : WindowId) (good : Bool)
  | wiringFaultEnd (pin : Nat) (f : WireFlag)
  deriving DecidableEq, Repr

end Sys2Proof
end

