-- ==== Sys2Proof/Machine/Crc.lean ====
section
/-! DEFINITION. CRC-32C (R104): polynomial 0x1EDC6F41, reflected, initial value and final exclusive-or all ones. -/

namespace Sys2Proof.Machine

/-- One bit of the reflected CRC register. -/
def crcBit (c : Nat) : Nat := if c % 2 = 1 then Nat.xor (c / 2) 0x82F63B78 else c / 2

/-- `k` bits. -/
def crcBits : Nat → Nat → Nat
  | 0, c => c
  | k + 1, c => crcBits k (crcBit c)

/-- One byte. -/
def crcByte (c : Nat) (b : Byte) : Nat := crcBits 8 (Nat.xor c b.toNat)

/-- Continue a CRC register over bytes. -/
def crcFold (c : Nat) (l : List Byte) : Nat := l.foldl crcByte c

/-- CRC-32C of a byte sequence. -/
def crc32c (l : List Byte) : Nat := Nat.xor (crcFold 0xFFFFFFFF l) 0xFFFFFFFF

end Sys2Proof.Machine
end

