-- ==== Sys2Proof/Machine/Loess.lean ====
section
/-! DEFINITION. The Loess codec of chapter "Loess compression and decompression", to the bit: alphabets and canonical codes,
the compressor's match finder and adaptive tables, its output units, and the decompressor with every check of R123 in the
stream order of R476. -/

namespace Sys2Proof.Machine

open Sys2Proof

/-! ### Alphabets (R113 to R115) -/

/-- Extra bits of a main symbol. -/
def mainExtra (s : Nat) : Nat :=
  if s < 8 then 0 else if s < 15 then s - 5 else if s = 15 then 16 else if s < 32 then 0
  else if s < 36 then 2 else if s < 40 then 3 else if s < 44 then 4 else if s < 48 then 5 else if s < 52 then 6 else 7

/-- The run or match length that a main symbol with extra value 0 stands for. -/
def mainBase (s : Nat) : Nat :=
  if s < 8 then s + 1 else if s < 15 then 2 ^ (s - 5) + 1 else if s = 15 then 1025 else if s < 32 then s - 12
  else if s < 36 then 20 + 4 * (s - 32) else if s < 40 then 36 + 8 * (s - 36) else if s < 44 then 68 + 16 * (s - 40)
  else if s < 48 then 132 + 32 * (s - 44) else if s < 52 then 260 + 64 * (s - 48) else 516 + 128 * (s - 52)

/-- Extra bits of a distance symbol (R114). -/
def distExtra (s : Nat) : Nat := if s < 4 then 0 else (s - 2) / 2

/-- The distance that a distance symbol with extra value 0 stands for (R114). -/
def distBase (s : Nat) : Nat :=
  if s < 4 then s + 1 else let e := (s - 2) / 2; 2 ^ (e + 1) + 1 + (s % 2) * 2 ^ e

/-- The last symbol in `lo, lo+1, …` (`n` of them) whose base does not exceed `v`. -/
def symUpTo (base : Nat → Nat) (v : Nat) (lo : Nat) : Nat → Nat
  | 0 => lo
  | n + 1 => if base (lo + n) ≤ v then lo + n else symUpTo base v lo n

/-- The run symbol of a literal run of `n` bytes, the match symbol of a length, the symbol of a distance. -/
def runSym (n : Nat) : Nat := symUpTo mainBase n 0 16
def lenSym (n : Nat) : Nat := symUpTo mainBase n 16 40
def distSym (d : Nat) : Nat := symUpTo distBase d 0 32

/-! ### Canonical codes (R117) -/

/-- The default main code lengths (R118). -/
def defaultMain : List Nat :=
  [4, 5, 6, 6, 6, 6, 6, 6] ++ List.replicate 8 7 ++ List.replicate 16 5 ++ List.replicate 16 7 ++ List.replicate 8 6

/-- Main, literal and distance code lengths of a block. -/
structure Tables where
  main : List Nat
  lit : List Nat
  dist : List Nat
  deriving DecidableEq, Repr

/-- The default tables (R118). -/
def defaultTables : Tables := ⟨defaultMain, List.replicate 256 8, List.replicate 32 5⟩

/-- Symbols of a given length, in ascending order. -/
def symsOf (lens : List Nat) (n : Nat) : List Nat := (List.range lens.length).filter fun s => lens.getD s 0 == n

/-- For lengths `n, n+1, …` (`k` of them): the first code and the symbols, by the recurrence of R117. -/
def codeRows (lens : List Nat) (first : Nat) (n : Nat) : Nat → List (Nat × List Nat)
  | 0 => []
  | k + 1 =>
    let syms := symsOf lens n
    (first, syms) :: codeRows lens ((first + syms.length) * 2) (n + 1) k

/-- The code table of an alphabet: rows for lengths 1 to 15. -/
def codeTable (lens : List Nat) : List (Nat × List Nat) := codeRows lens 0 1 15

/-- The bits of a number, most significant first. -/
def msbBits (v : Nat) : Nat → List Bool
  | 0 => []
  | n + 1 => (v / 2 ^ n % 2 == 1) :: msbBits v n

/-- The bits of a number, least significant first. -/
def lsbBits (v : Nat) : Nat → List Bool
  | 0 => []
  | n + 1 => (v % 2 == 1) :: lsbBits (v / 2) n

/-- The code of a symbol, first bit first. -/
def codeBits (lens : List Nat) (s : Nat) : List Bool :=
  let n := lens.getD s 0
  let row := (codeTable lens).getD (n - 1) (0, [])
  msbBits (row.1 + row.2.idxOf s) n

/-- The sum of 2^(15 - length) is 32,768: the code is complete (R108). -/
def complete (lens : List Nat) : Bool := (lens.map fun n => 2 ^ (15 - n)).sum == 32768

/-! ### Adaptive tables (R119) -/

/-- A node of the tree under construction: weight, order and the leaves under it. -/
structure HNode where
  weight : Nat
  order : Nat
  leaves : List Nat
  deriving DecidableEq, Repr

/-- Insert by (weight, order). -/
def hInsert (x : HNode) : List HNode → List HNode
  | [] => [x]
  | y :: t => if x.weight < y.weight ∨ (x.weight = y.weight ∧ x.order < y.order) then x :: y :: t else y :: hInsert x t

/-- Merge the two lowest nodes until one is left; every merge adds 1 to the depth of the leaves below it. -/
def hMerge : Nat → Nat → List HNode → List Nat → List Nat
  | 0, _, _, depths => depths
  | fuel + 1, ord, nodes, depths =>
    match nodes with
    | a :: b :: t =>
      let l := a.leaves ++ b.leaves
      let depths := l.foldl (fun d s => d.modify s (· + 1)) depths
      hMerge fuel (ord + 1) (hInsert ⟨a.weight + b.weight, ord, l⟩ t) depths
    | _ => depths

/-- Depths of the leaves for given weights. -/
def hDepths (w : List Nat) : List Nat :=
  let nodes := (List.range w.length).foldl (fun ns s => hInsert ⟨w.getD s 0, s, [s]⟩ ns) []
  hMerge w.length w.length nodes (List.replicate w.length 0)

/-- Halve the weights until no code is longer than 15. -/
def hLimit : Nat → List Nat → List Nat
  | 0, w => hDepths w
  | fuel + 1, w =>
    let d := hDepths w
    if d.all (· ≤ 15) then d else hLimit fuel (w.map fun x => (x + 1) / 2)

/-- The lengths built from symbol counts (R119). -/
def buildLens (count : List Nat) : List Nat := hLimit 32 (count.map (· + 1))

/-! ### The match finder (R121, R122) -/

/-- A token of a coded payload (R112). -/
inductive Token where
  | lits (l : List Byte)
  | copy (len dist : Nat)
  deriving DecidableEq, Repr

/-- A table of positions by 15-bit hash: a binary tree, so that it is plain data. -/
inductive Heads where
  | nil
  | node (here : List Nat) (zero one : Heads)

/-- Look a hash up. -/
def headsGet : Nat → Nat → Heads → List Nat
  | _, _, .nil => []
  | 0, _, .node l _ _ => l
  | d + 1, h, .node _ z o => if h % 2 = 0 then headsGet d (h / 2) z else headsGet d (h / 2) o

/-- Put a position in front of its chain; a chain keeps the 8 that can be looked at. -/
def headsPut : Nat → Nat → Nat → Heads → Heads
  | 0, _, p, .nil => .node [p] .nil .nil
  | 0, _, p, .node l z o => .node ((p :: l).take 8) z o
  | d + 1, h, p, .nil => if h % 2 = 0 then .node [] (headsPut d (h / 2) p .nil) .nil else .node [] .nil (headsPut d (h / 2) p .nil)
  | d + 1, h, p, .node l z o =>
    if h % 2 = 0 then .node l (headsPut d (h / 2) p z) o else .node l z (headsPut d (h / 2) p o)

/-- The byte at a position of the band. -/
def byteAt (b : Array Byte) (i : Nat) : Nat := (b.getD i 0).toNat

/-- The hash of a position (R121). -/
def hashAt (b : Array Byte) (p : Nat) : Nat :=
  ((byteAt b p + 256 * byteAt b (p + 1) + 65536 * byteAt b (p + 2) + 16777216 * byteAt b (p + 3)) * 0x9E3779B1
    % 2 ^ 32) / 2 ^ 17

/-- Enter positions q, q+1, … (`n` of them) into the table, those that have a hash. -/
def insertFrom (b : Array Byte) (q : Nat) : Nat → Heads → Heads
  | 0, h => h
  | n + 1, h => insertFrom b (q + 1) n (if q + 4 ≤ b.size then headsPut 15 (hashAt b q) q h else h)

/-- How many bytes agree from `c` and `p`, at most `n`. -/
def agree (b : Array Byte) (c p : Nat) : Nat → Nat
  | 0 => 0
  | n + 1 => if byteAt b c = byteAt b p then agree b (c + 1) (p + 1) n + 1 else 0

/-- The longest candidate, the nearest one on a tie: (length, distance). -/
def bestOf (b : Array Byte) (p lim : Nat) : List Nat → Nat × Nat → Nat × Nat
  | [], best => best
  | c :: t, best =>
    if 65536 < p - c then best
    else
      let l := agree b c p lim
      bestOf b p lim t (if best.1 < l then (l, p - c) else best)

/-- Tokenise one block, greedily; `run` holds the literals of the run in progress, newest first. -/
def tokBlock (b : Array Byte) (stop : Nat) : Nat → Nat → List Byte → Heads → List Token × Heads
  | 0, _, run, h => (if run.isEmpty then [] else [.lits run.reverse], h)
  | fuel + 1, p, run, h =>
    if p < stop then
      let best := if 4 ≤ stop - p then bestOf b p (min 1027 (stop - p)) (headsGet 15 (hashAt b p) h) (0, 0) else (0, 0)
      if 4 ≤ best.1 then
        let r := tokBlock b stop fuel (p + best.1) [] (insertFrom b p best.1 h)
        ((if run.isEmpty then [] else [.lits run.reverse]) ++ .copy best.1 best.2 :: r.1, r.2)
      else tokBlock b stop fuel (p + 1) (b.getD p 0 :: run) (insertFrom b p 1 h)
    else (if run.isEmpty then [] else [.lits run.reverse], h)

/-- Split a literal run at the longest run a symbol can carry, 66,560 bytes: a block holds at most 65,536, so one token. -/
def tokSyms : Token → List Nat × List Nat × List Nat
  | .lits l => ([runSym l.length], l.map (·.toNat), [])
  | .copy n d => ([lenSym n], [], [distSym d])

/-- Count symbols into a list of counts. -/
def tally (n : Nat) (l : List Nat) : List Nat := l.foldl (fun c s => c.modify s (· + 1)) (List.replicate n 0)

/-- The tables for the block that follows one with these tokens. -/
def nextTables (ts : List Token) : Tables :=
  ⟨buildLens (tally 56 (ts.flatMap fun t => (tokSyms t).1)), buildLens (tally 256 (ts.flatMap fun t => (tokSyms t).2.1)),
   buildLens (tally 32 (ts.flatMap fun t => (tokSyms t).2.2))⟩

/-! ### Output units (R103, R107 to R109, R126) -/

/-- An output unit: its bits, the input bytes it stands for, and whether zero padding to a byte follows it. -/
structure OUnit where
  bits : List Bool
  eats : Nat := 0
  pad : Bool := false
  deriving DecidableEq, Repr

/-- A byte as a unit. -/
def byteUnit (n : Nat) : OUnit := { bits := lsbBits n 8 }

/-- The units of a little-endian number of `k` bytes. -/
def leUnits (n : Nat) : Nat → List OUnit
  | 0 => []
  | k + 1 => byteUnit (n % 256) :: leUnits (n / 256) k

/-- The units of one token. -/
def tokUnits (t : Tables) : Token → List OUnit
  | .lits l =>
    let s := runSym l.length
    { bits := codeBits t.main s ++ lsbBits (l.length - mainBase s) (mainExtra s) } ::
      l.map fun b => { bits := codeBits t.lit b.toNat, eats := 1 }
  | .copy n d =>
    let s := lenSym n
    let ds := distSym d
    [{ bits := codeBits t.main s ++ lsbBits (n - mainBase s) (mainExtra s) ++ codeBits t.dist ds ++
          lsbBits (d - distBase ds) (distExtra ds), eats := n }]

/-- Mark the last unit of a payload. -/
def padLast : List OUnit → List OUnit
  | [] => []
  | [u] => [{ u with pad := true }]
  | u :: t => u :: padLast t

/-- The units of block `k` (R107 to R109, R120). -/
def blockUnits (b : Array Byte) (k start stop : Nat) (last : Bool) (t : Tables) (ts : List Token) : List OUnit :=
  let raw := stop - start
  let coded := padLast (ts.flatMap (tokUnits t))
  let bits := (coded.map fun u => u.bits.length).sum
  let p := (bits + 7) / 8
  let tlen := if k = 0 then 0 else 172
  if raw ≤ tlen + p then
    leUnits 2 1 ++ leUnits (bit last) 1 ++ leUnits (raw - 1) 2 ++ leUnits raw 4 ++
      (List.range raw).map fun i => { bits := lsbBits (byteAt b (start + i)) 8, eats := 1 }
  else
    leUnits (if k = 0 then 0 else 1) 1 ++ leUnits (bit last) 1 ++ leUnits (raw - 1) 2 ++ leUnits p 4 ++
      (if k = 0 then []
       else
        let l := t.main ++ t.lit ++ t.dist
        (List.range 172).map fun i => byteUnit (l.getD (2 * i) 0 + 16 * l.getD (2 * i + 1) 0)) ++ coded

/-- The units of blocks `k, k+1, …`, at most `n` of them. -/
def blocksUnits (b : Array Byte) (rawLen : Nat) : Nat → Nat → Tables → Heads → List OUnit
  | 0, _, _, _ => []
  | n + 1, k, t, h =>
    let start := 65536 * k
    if rawLen ≤ start then []
    else
      let stop := min (start + 65536) rawLen
      let r := tokBlock b stop (stop - start) start [] h
      blockUnits b k start stop (stop == rawLen) t r.1 ++ blocksUnits b rawLen n (k + 1) (nextTables r.1) r.2

/-- The band header (R106). -/
def bandHeader (lineBytes lines band rawLen : Nat) : List OUnit :=
  leUnits 0x53454F4C 4 ++ leUnits 1 1 ++ leUnits 0 1 ++ leUnits lineBytes 2 ++ leUnits lines 2 ++ leUnits band 2 ++
    leUnits rawLen 4

/-- The units a compressor can write once `input` has come in: every block that is complete, and the trailer at the end. -/
def encUnits (lineBytes lines band : Nat) (input : List Byte) : List OUnit :=
  let rawLen := lineBytes * lines
  let got := input.take rawLen
  let b := got.toArray
  let all := got.length == rawLen
  let blocks := if all then (rawLen + 65535) / 65536 else got.length / 65536
  bandHeader lineBytes lines band rawLen ++ blocksUnits b rawLen blocks 0 defaultTables .nil ++
    if all then leUnits rawLen 4 ++ leUnits (crc32c got) 4 else []

/-- All bits of a list of units, with padding. -/
def unitBits (us : List OUnit) : List Bool :=
  us.foldr (fun u acc => u.bits ++ acc) []

/-- The end position in bits of each unit, padding included. -/
def unitEnds : Nat → List OUnit → List Nat
  | _, [] => []
  | p, u :: t =>
    let e := p + u.bits.length
    let e := if u.pad then (e + 7) / 8 * 8 else e
    e :: unitEnds e t

/-- Pack bits into bytes, the first bit lowest; a rest shorter than a byte is filled with zeros. -/
def packBits : Nat → List Bool → List Byte
  | 0, _ => []
  | n + 1, l =>
    if l.isEmpty then [] else
      (BitVec.ofNat 8 (((l.take 8).zipIdx.map fun x => if x.1 then 2 ^ x.2 else 0).sum)) :: packBits n (l.drop 8)

/-- The bytes of units, each padded payload filled to a byte. -/
def unitsBytes (us : List OUnit) : List Byte :=
  let rec go (pos : Nat) : List OUnit → List Bool
    | [] => []
    | u :: t =>
      let e := pos + u.bits.length
      let padN := if u.pad then (8 - e % 8) % 8 else 0
      u.bits ++ List.replicate padN false ++ go (e + padN) t
  let bits := go 0 us
  packBits ((bits.length + 7) / 8) bits

/-- The module's stream of a raw band. -/
def encode (lineBytes lines band : Nat) (raw : List Byte) : List Byte := unitsBytes (encUnits lineBytes lines band raw)

/-- Where a compressor stands after writing `w` bytes with the first `g` units generated: input bytes of committed units,
and the unwritten bits (R126). -/
def compStand (us : List OUnit) (w g : Nat) : Nat × List Bool :=
  let ends := unitEnds 0 us
  let eaten := ((us.zip ends).map fun x => if x.2 ≤ 8 * w then x.1.eats else 0).sum
  let gen := us.take g
  let endG := (ends.getD (g - 1) 0)
  let last := gen.getLast?
  let real := match last with
    | some u => if u.pad then (ends.getD (g - 2) 0) * (if g ≤ 1 then 0 else 1) + u.bits.length else endG
    | none => 0
  let bits := (unitsBytes gen).flatMap fun b => lsbBits b.toNat 8
  (eaten, (bits.take real).drop (8 * w))

/-- How many units have been generated when the byte behind `w` written ones is complete and has no room. -/
def genAtFull (us : List OUnit) (w : Nat) : Nat :=
  let ends := unitEnds 0 us
  (ends.takeWhile fun e => e < 8 * (w + 1)).length + 1

/-! ### The decompressor (R123, R124, R476) -/

/-- A piece of output: where it lies, what produced it, the first bit of its token, the bit behind what has been read. -/
structure Mark where
  s : Nat
  e : Nat
  kind : Nat
  dist : Nat
  tok : Nat
  pos : Nat
  runEnd : Nat
  deriving DecidableEq, Repr

/-- Where a decompressor stands: next input bit, output, pieces of output (newest first). -/
structure DState where
  p : Nat := 0
  out : Array Byte := #[]
  marks : List Mark := []

/-- Why decoding ended. -/
inductive DEnd where
  /-- A matching trailer; the stream is this long. -/
  | done (len : Nat)
  /-- An error code of R123 and its place in the stream. -/
  | err (code pos : Nat)
  /-- Input ran out inside the item that starts at this bit; the rest of a piece of output in progress: kind and length. -/
  | need (item kind remain : Nat)
  deriving DecidableEq, Repr

/-- The result of a step of decoding. -/
abbrev DRes := Except (DEnd × DState)

/-- What a decompressor expects in the band header (R124). -/
structure Expect where
  lineBytes : Nat
  lines : Nat
  band : Nat
  deriving DecidableEq, Repr

/-- Input bit `p`. -/
def inBit (inp : Array Byte) (p : Nat) : Nat := byteAt inp (p / 8) / 2 ^ (p % 8) % 2

/-- A little-endian field of `n` bytes at byte `q`. -/
def field (inp : Array Byte) (q : Nat) : Nat → Nat
  | 0 => 0
  | n + 1 => byteAt inp q + 256 * field inp (q + 1) n

/-- Check a field of the stream once its bytes are there. -/
def checkField (inp : Array Byte) (d : DState) (q n : Nat) (bad : Bool) (code pos : Nat) : DRes Unit :=
  if inp.size < q + n then .error (.need (8 * q) 0 0, d) else if bad then .error (.err code pos, d) else .ok ()

/-- Read `k` extra bits, least significant first, inside a payload that ends at bit `pe`. -/
def readExtra (inp : Array Byte) (d : DState) (pe tok p k kind remain : Nat) : DRes (Nat × Nat) :=
  if pe < p + k then .error (.err 8 (tok / 8), d)
  else if 8 * inp.size < p + k then .error (.need p kind remain, d)
  else .ok (((List.range k).map fun i => inBit inp (p + i) * 2 ^ i).sum, p + k)

/-- Read one prefix code by the rows of its table. -/
def readCode (inp : Array Byte) (d : DState) (pe tok start kind remain : Nat) :
    List (Nat × List Nat) → Nat → Nat → DRes (Nat × Nat)
  | [], _, _ => .error (.err 8 (tok / 8), d)
  | (first, syms) :: t, p, code =>
    if pe ≤ p then .error (.err 8 (tok / 8), d)
    else if 8 * inp.size ≤ p then .error (.need start kind remain, d)
    else
      let c := 2 * code + inBit inp p
      if c < first + syms.length then .ok (syms.getD (c - first) 0, p + 1)
      else readCode inp d pe tok start kind remain t (p + 1) c

/-- Copy `n` bytes from `dist` back (R116). -/
def copyBack (out : Array Byte) (dist : Nat) : Nat → Array Byte
  | 0 => out
  | n + 1 => copyBack (out.push (out.getD (out.size - dist) 0)) dist n

/-- Read the literals of a run. -/
def readLits (inp : Array Byte) (lit : List (Nat × List Nat)) (pe tok runEnd : Nat) : Nat → DState → DRes DState
  | 0, d => .ok d
  | n + 1, d =>
    match readCode inp d pe tok d.p 2 (n + 1) lit d.p 0 with
    | .error e => .error e
    | .ok (v, p) =>
      readLits inp lit pe tok runEnd n
        { p := p, out := d.out.push (BitVec.ofNat 8 v)
          marks := ⟨d.out.size, d.out.size + 1, 2, 0, tok, d.p, runEnd⟩ :: d.marks }

/-- Read the tokens of a block until its raw length is produced; `stop` is the output length at the block's end. R476 places a
token at its first byte and does not order the checks of one token: its length is judged (OVERRUN, GUARD) before its distance
code is read (PAYLOAD, DISTANCE), which is the order of the bits (log 137). -/
def readTokens (inp : Array Byte) (main lit dist : List (Nat × List Nat)) (pe stop : Nat) (last : Bool) :
    Nat → DState → DRes DState
  | 0, d => .ok d
  | fuel + 1, d =>
    if stop ≤ d.out.size then .ok d
    else
      let tok := d.p
      match readCode inp d pe tok d.p 0 0 main d.p 0 with
      | .error e => .error e
      | .ok (s, p) =>
        match readExtra inp d pe tok p (mainExtra s) 0 0 with
        | .error e => .error e
        | .ok (x, p) =>
          let n := mainBase s + x
          if stop < d.out.size + n then .error (.err (if last then 7 else 5) (tok / 8), d)
          else if s < 16 then
            match readLits inp lit pe tok (d.out.size + n) n { d with p := p } with
            | .error e => .error e
            | .ok d => readTokens inp main lit dist pe stop last fuel d
          else
            match readCode inp d pe tok p 1 n dist p 0 with
            | .error e => .error e
            | .ok (ds, p) =>
              match readExtra inp d pe tok p (distExtra ds) 1 n with
              | .error e => .error e
              | .ok (x, p) =>
                let far := distBase ds + x
                if d.out.size < far then .error (.err 6 (tok / 8), d)
                else
                  readTokens inp main lit dist pe stop last fuel
                    { p := p, out := copyBack d.out far n
                      marks := ⟨d.out.size, d.out.size + n, 1, far, tok, p, d.out.size + n⟩ :: d.marks }

/-- Read a stored payload byte by byte. -/
def readStored (inp : Array Byte) (runEnd : Nat) : Nat → DState → DRes DState
  | 0, d => .ok d
  | n + 1, d =>
    let q := d.p / 8
    if inp.size ≤ q then .error (.need d.p 3 (n + 1), d)
    else
      readStored inp runEnd n
        { p := d.p + 8, out := d.out.push (inp.getD q 0)
          marks := ⟨d.out.size, d.out.size + 1, 3, 0, d.p, d.p, runEnd⟩ :: d.marks }

/-- The explicit code lengths at byte `q` (R108): `n` lengths. -/
def lensAt (inp : Array Byte) (q n : Nat) : List Nat :=
  (List.range n).map fun i => byteAt inp (q + i / 2) / (if i % 2 = 0 then 1 else 16) % 16

/-- Check one alphabet's lengths, byte by byte, then that the code is complete (code 4). R476 does not say which byte fails where an
alphabet is not complete: the one that holds its last length (log 137). -/
def checkLens (inp : Array Byte) (d : DState) (q n : Nat) : DRes (List Nat) :=
  let l := lensAt inp q n
  match (List.range (n / 2)).find? fun i => inp.size ≤ q + i || l.getD (2 * i) 0 == 0 || l.getD (2 * i + 1) 0 == 0 with
  | some i => if inp.size ≤ q + i then .error (.need (8 * (q + i)) 0 0, d) else .error (.err 4 (q + i), d)
  | none => if complete l then .ok l else .error (.err 4 (q + n / 2 - 1), d)

/-- Decode the blocks `k, k+1, …` (`n` left). -/
def readBlocks (inp : Array Byte) (rawLen blocks : Nat) : Nat → Nat → DState → DRes DState
  | 0, _, d => .ok d
  | n + 1, k, d => do
    let q := d.p / 8
    let last := k + 1 == blocks
    let rest := rawLen - d.out.size
    let ty := byteAt inp q
    checkField inp d q 1 (decide (2 < ty)) 3 q
    let fl := byteAt inp (q + 1)
    checkField inp d (q + 1) 1 (decide (1 < fl) || (fl % 2 == 1) != last) 3 (q + 1)
    let raw := field inp (q + 2) 2 + 1
    checkField inp d (q + 2) 2 (if last then decide (raw < rest) else raw != 65536) 3 (q + 2)
    let pl := field inp (q + 4) 4
    checkField inp d (q + 4) 4 (if ty = 2 then pl != raw else decide (131072 < pl)) 3 (q + 4)
    if rest < raw then throw (.err 7 q, d)
    let stop := d.out.size + raw
    if ty = 2 then
      let d ← readStored inp stop raw { d with p := 8 * (q + 8) }
      readBlocks inp rawLen blocks n (k + 1) d
    else
      let t ← if ty = 0 then pure defaultTables else do
        let m ← checkLens inp d (q + 8) 56
        let l ← checkLens inp d (q + 36) 256
        let ds ← checkLens inp d (q + 164) 32
        pure (Tables.mk m l ds)
      let ps := q + 8 + (if ty = 0 then 0 else 172)
      let pe := 8 * (ps + pl)
      let d ← readTokens inp (codeTable t.main) (codeTable t.lit) (codeTable t.dist) pe stop last (raw + 1) { d with p := 8 * ps }
      let pad := (8 - d.p % 8) % 8
      if 8 * inp.size < d.p + pad then throw (.need d.p 0 0, d)
      if ((List.range pad).any fun i => inBit inp (d.p + i) == 1) then throw (.err 8 (d.p / 8), d)
      let q' := (d.p + 7) / 8
      if 8 * q' < pe then throw (.err 8 q', d)
      readBlocks inp rawLen blocks n (k + 1) { d with p := 8 * q' }

/-- Decode a whole stream. -/
def readStream (inp : Array Byte) (x : Expect) : DRes (Nat × DState) := do
  let d : DState := {}
  checkField inp d 0 4 (field inp 0 4 != 0x53454F4C) 1 0
  checkField inp d 4 1 (byteAt inp 4 != 1) 1 4
  checkField inp d 5 1 (byteAt inp 5 != 0) 2 5
  let lb := field inp 6 2
  checkField inp d 6 2 (lb == 0 || decide (6656 < lb) || lb != x.lineBytes) 2 6
  let ln := field inp 8 2
  checkField inp d 8 2 (ln == 0 || decide (256 < ln) || ln != x.lines) 2 8
  let bd := field inp 10 2
  checkField inp d 10 2 (decide (4095 < bd) || bd != x.band) 2 10
  let rawLen := field inp 12 4
  checkField inp d 12 4 (rawLen != lb * ln) 2 12
  let blocks := (rawLen + 65535) / 65536
  let d ← readBlocks inp rawLen blocks blocks 0 { d with p := 128 }
  let q := d.p / 8
  checkField inp d q 4 (field inp q 4 != rawLen) 9 q
  checkField inp d (q + 4) 4 (field inp (q + 4) 4 != crc32c d.out.toList) 10 (q + 4)
  pure (q + 8, d)

/-- Decode: how it ends, and what was produced. -/
def decodeRun (inp : List Byte) (x : Expect) : DEnd × DState :=
  match readStream inp.toArray x with
  | .ok (n, d) => (.done n, d)
  | .error (e, d) => (e, d)

/-- The first index at which two sequences differ. -/
def firstDiff : Nat → List Byte → List Byte → Option Nat
  | i, a :: s, b :: t => if a = b then firstDiff (i + 1) s t else some i
  | _, _, _ => none

/-- Band mode: `inp` is what can be read of a stored stream of `len` bytes. The stream must end exactly at its trailer (code 11);
where the bytes that can be read end first, the burst behind them met an error (code 14, R476). The error code and its place; 0
none. -/
def bandDecode (inp : List Byte) (len : Nat) (x : Expect) : (Nat × Nat) × DState :=
  match decodeRun inp x with
  | (.done n, d) => (if n < len then (11, n) else (0, 0), d)
  | (.err c p, d) => ((c, p), d)
  | (.need _ _ _, d) => (if inp.length < len then (14, inp.length) else (11, len), d)

/-- The verify decompressor: decode, and compare with the raw input where there is one (R135, R136). A difference precedes whatever
fails behind it in the stream (R476). -/
def verifyDecode (inp : List Byte) (len : Nat) (x : Expect) (raw : Option (List Byte)) : (Nat × Nat) × DState :=
  let r := bandDecode inp len x
  match raw with
  | none => r
  | some b =>
    match firstDiff 0 r.2.out.toList b with
    | none => r
    | some i =>
      match r.2.marks.find? fun m => decide (m.s ≤ i) && decide (i < m.e) with
      | some m => ((12, m.tok / 8), r.2)
      | none => ((12, 0), r.2)

end Sys2Proof.Machine
end

