-- ==== Sys2Proof/Config.lean ====
section
/-! DEFINITION. What spec/ leaves open. Each constant below has no body: nothing can be proved about its value, so a claim
that mentions one holds for every value. -/

namespace Sys2Proof

/-- A fresh open value: the step applies it to the counter `State.free` and advances the counter (log 2). -/
opaque Config.freeValue : Nat → Nat

/-- Whether a firmware payload's own Aedvor signature verifies (R35): the key and the format are not in spec/ (log 5). -/
opaque Config.payloadOk : List Byte → Bool

/-- The version word MAJOR, MINOR, BUILD that a firmware payload carries; its place in the payload is not in spec/ (R35, log 5). -/
opaque Config.payloadVersion : List Byte → Nat

/-- The bit, 0 to 7, of a raw byte that carries pixel i mod 8 of a line: spec/ does not say (log 6). -/
opaque Config.pixelBit : Nat → Nat


/-- Word `i` of the calibration results set after its `n`-th change: the layout and the measured values are not in spec/ (R374,
log 32). -/
opaque Config.calWord : Nat → Nat → Nat

/-- The station whose recalibration measures word `i` of the results set; 8 or more for a shared word (R374, log 32). -/
opaque Config.calStation : Nat → Nat

/-- Whether a restored value of word `i` lies inside its guard band around the measured value: the bands are not in spec/ (R374,
log 32). -/
opaque Config.calGuard : (i measured restored : Nat) → Bool

/-- T_cal of sensor `i` that a results set carries, as 16 bits in 0.1 °C: its place in the set is not in spec/ (R374, log 32). -/
opaque Config.calTemp : (i : Nat) → (words : List Nat) → Nat

end Sys2Proof
end

