-- ==== Sys2Proof/Machine/Fields.lean ====
section
/-! DEFINITION. The register fields of the EX4, one constructor per field of the register tables of spec/, block by
block (R439). A pair of registers that holds one quantity (R9) is one field. Write-only command fields are commands, not fields.
Fields that only show structured state (band records, sheet contexts, fault records, mailbox posts, the clamp report) are
read from that state and are no constructor here. -/

namespace Sys2Proof

/-- The fields of the GLB block (R431). -/
inductive GlbF where
  | vector | irqLoad | irqCommit | irqArm | irqAccess | accessDenied | isoAccess | expert | armed | hbExpired
  | hbPeriod | pcieSpeed | pcieWidth
  deriving DecidableEq, Repr

/-- The fields of the LDR block (R65). -/
inductive LdrF where
  | src | fallback | commitSlot | state | unsecured | reject | source | fellback | clamped | loadDone | loadFail
  | ignored | commitBusy | commitFail | armRefuse | hostlen | serial | fmtMinor | fmtMajor | fwBuild | fwMinor
  | fwMajor | imgSecver | repLoaded | repLost | loadtime | digest | fuseBusy | fuseErr | fusedata
  deriving DecidableEq, Repr

/-- The fields of the RSTC block (R418). -/
inductive RstcF where
  | obBad | obSlot | obBusy | obFail | cmdErr | refOk | lastReach | lastDoms | lastSrc | nowSrc | count | fused | set
  | effective | domain | ob | obw
  deriving DecidableEq, Repr

/-- The fields of the PWR block (R395). -/
inductive PwrF where
  | nsteps | extAuto | mode | istate | irail | estate | estep | allQual | onLatch | seqFault | fallLate | pwrOn
  | offPend | cntBad | logValid | cmdErr | offWait | vin | railOk | monOk | railv | stepEn | stepMon | onThr | offThr
  | monEn | whi | tmo | delay | rcnt
  deriving DecidableEq, Repr

/-- The fields of the FLT block (R361). -/
inductive FltF where
  | vector | overflow | clrRefused | ansRefused | unitRefused | queueLost | unitsel | sev | uact | mode | srccnt
  deriving DecidableEq, Repr

/-- The fields of the CAL block (R376). -/
inductive CalF where
  | mode | sweepEn | sweepPer | driftT | puDone | puBad | puStep | calFail | cmdErr | need | busy | pend | failStep
  | failUnit | mbusy | restRej | restored | stnt | riseLim | rwin | temp | dead | riseEv | conv | mrate | result
  | snapshot
  deriving DecidableEq, Repr

/-- The fields of the DMA block (R343). -/
inductive DmaF where
  | prio | burst | kinds | vector | state | descEv | badEv | shortEv | fetchErr | cmdErr | lastCause | wait | ring
  | ringLog | tail | head | cntDone | cntBad | withdraw
  deriving DecidableEq, Repr

/-- The fields of the CMP block (R138). -/
inductive CmpF where
  | mode | chmap | vfail | jState | jErr | resBits | holding | cmdIgnored | doneEv | errEv | stopEv | emode
  | jLineBytes | jLinesM1 | inAddr | inLen | outAddr | outLen | inConsumed | outProduced | residue | crc | bandRec
  | bandRecValid | errpos | remain | holdKind | holddist | jBand
  deriving DecidableEq, Repr

/-- The fields of the PGS block (R97). -/
inductive PgsF where
  | admMode | decMargin | scrubEn | admRefuse | cmdErr | cmdCause | deadlock | apDenied | apRange | ueEvent
  | ctxEvent | planes | res1200 | lineBytes | linesM1 | openTag | admLinerate | loamBudget | decState | decAssign
  | reservedBw | lowspace | eccCe | eccUe | eccAddr | apbase | bandsel | disp
  deriving DecidableEq, Repr

/-- The fields of the BTU block (R165). -/
inductive BtuF where
  | mode | rev | rotEn | runMerge | trackEn | indexSrc | flock | flockArb | ready | synLock | sosLost | lockAmbig
  | trackClamp | freqClamp | underrun | phaseEv | facets | win | fly | designPix | scanFrac | snom | trackLim
  | phaseLim | sosfix | margin | coloff | ew | seglen8 | maxline | o | resid | firstCtx | scanphase | pixnow | sos
  | fine | facet | bridged | revper | cntGlitch | cntMiss | scancnt | siltfill | foff | fscale | fref | fper | shift
  | pmod | boff
  deriving DecidableEq, Repr

/-- The fields of the BLK block (R203). -/
inductive BlkF where
  | ldReq | apcMode | tkoMode | tkoEn | lstate | lden | ilkClosed | hpres | tempWarn | tempTrip | ilkEv | lostScan
  | tkoEv | uncovered | setLate | cableMismatch | cmdErr | fcause | hid | discards | cable | cableMeas | model
  | chkPos | chkSerial | expSerial | tgt | ka | tol | dstep | hr | halfLim | warn | trip | headtemp | halflines
  | apcskip | apcstart | ident | tkoen | headroom | beamState | beamCause | driveN | driveF | hdriveN | hdriveF
  | measN | measF
  deriving DecidableEq, Repr

/-- The fields of the MOT block (R230). -/
inductive MotF where
  | planOvr | axtype | stepmode | dirInv | encEn | mode | noOvershoot | slimEn | homeReq | state | homed | enOut
  | pendLim | atTarget | dirOut | limP | limN | homeSw | cmdErr | overshoot | limEv | devWarnEv | devEv | stallEv
  | dirErr | encErr | segClamp | segEmpty | moveDone | cmdCause | stepw | dirset | target | jogvel | creep | vmax
  | amax | dmax | jmax | qdec | limdec | slimp | slimn | cmdpos | actpos | vel | acc | vest | dev | encMode | encFilt
  | encInv | hyst | estWin | num | den | devWarn | devLim | stallV | stallT | dirchk | method | hdir | hedge | hvel
  | hvel2 | hoffset | hpos | hmaxdist | hqual | lqual | hstate | hcause | hedges | hchatter | hlatch | hlatcha
  | latchSrc | latchEdge | latchActual | latchValid | latchPos | setpos | master | gratio | held | encErrCnt
  deriving DecidableEq, Repr

/-- The fields of the CLE block (R257). -/
inductive CleF where
  | ovrAny | schedLoad | tslot | trigSrc | pre | cstate | capCount | capDoneEv | trigidx | captime | capSlot
  | capSignal | capEn | period | notchPos | notchTrack | fbEn | fbMode | trimEn | slotEn | spsrc | ffaxis | trimSlot
  | ffEn | state | resumePend | injAct | sat | plausible | ovr | pfailEv | fbEv | fbtoEv | satEv | notchAlias
  | presetClamp | cmdErr | cmdCause | fcause | initPend | srcKind | srcIndex | staleN | outKind | outIndex | pwmPer
  | ingain | inofs | sp | sprate | kp | ki | kd | df | kv | kaff | ubias | umin | umax | urate | usafe | uman
  | preset | nw | harm | nstn | notchc | mk | ma | mb | ml | plim | pn | satN | fbTmax | fbkp | injType | injPoint
  | injDuration | injamp | injper | yOut | rOut | eOut | uOut | iOut | ymOut | residOut | cntOvr | cntSuspect
  | schedPhase | schedPos | fbtime
  deriving DecidableEq, Repr

/-- The fields of the FHV block (R276). -/
inductive FhvF where
  | mainsOk | mainsLost | zcGlitch | vnom | zcOfs | mainsFf | vrms | freq | halfper | zc | hMode | dcBal | phsel
  | gateEnd | gateLead | gate | hoff | otcA | otcB | hduty | otcaSel | otcaThr | otcbSel | otcbThr | tTable | tCode
  | tOpen | tShort | tval | pCode | pOpen | lin | vramp | fbHi | fbT | vstate | hven | fbhiTrip | vref | vfb
  deriving DecidableEq, Repr

/-- The fields of the PTH block (R304). -/
inductive PthF where
  | mode | psrc | webMode | dispMode | procAxis | pathIncomplete | feedHold | overspeed | jam | misfeed | skewEv
  | lenEv | stray | webBreak | deadline | bkShort | dispLate | boundaryEv | cmdErr | pnum | pden | ppos | mpos
  | lrate | ovs | regGate | regSensor | pitch | feedLead | feedWin | retry | top | bottom | lenTol | skewLim | t0Lead
  | dlLead | boundary | bkextra | wstate | stopCause | axmask | w0 | bkdist | skipcnt | stnpos | stnlast | outPos
  | exitSensor | exitEn | divPos | divLead | role | pol | routes | pair | pairEn | squal | spos | leWin | teWin
  | sLevel | sEdges
  deriving DecidableEq, Repr

/-- The fields of the EIO block (R468). -/
inductive EioF where
  | func | unit | inv | term | openChk | filt | idxmax | level | lo | hi | openFlag | pair | overload
  deriving DecidableEq, Repr

/-- The fields of the CSL block (R324). -/
inductive CslF where
  | pos | nmod | pwrWait | role | roleStrap | tstate | linkaUp | linkbUp | upstream | ringDegraded | partition
  | masterConflict | posErr | verErr | tagErr | alignLost | powerGoSeen | offset | delay | skewtrim | peersPresent
  | peersArmed | peersGate | linkerr
  deriving DecidableEq, Repr

/-- The fields of the MBX block (R437). -/
inductive MbxF where
  | route | vector | irq | popRefused | ansRefused | lost
  deriving DecidableEq, Repr

/-- A register field of any block. -/
inductive Fld where
  | glb (f : GlbF)
  | ldr (f : LdrF)
  | rstc (f : RstcF)
  | pwr (f : PwrF)
  | flt (f : FltF)
  | cal (f : CalF)
  | dma (f : DmaF)
  | cmp (f : CmpF)
  | pgs (f : PgsF)
  | btu (f : BtuF)
  | blk (f : BlkF)
  | mot (f : MotF)
  | cle (f : CleF)
  | fhv (f : FhvF)
  | pth (f : PthF)
  | eio (f : EioF)
  | csl (f : CslF)
  | mbx (f : MbxF)
  deriving DecidableEq, Repr

/-- The register blocks of the summary map (R439). -/
inductive Block where
  | glb | ldr | rstc | pwr | flt | cal | dma | cmp | pgs | btu | blk | mot | cle | fhv | pth | eio | csl | mbx
  deriving DecidableEq, Repr

end Sys2Proof
end

