-- ==== Sys2Proof/Machine/Rows.lean ====
section
/-! DEFINITION. The field table of the register map: for every field its place, width, access code (R6), reset value and
hardware range (R36, R56), and how its instances are laid out. Taken block by block from the register tables of spec/. -/

namespace Sys2Proof

/-- The access codes of R6. A write-only field is a command and has no row. -/
inductive Access where
  | rw | ro | w1c | rwl | rwx
  deriving DecidableEq, Repr

/-- The kind and hardware range of a field in the loader's limit table (R36, R56, R57). -/
inductive Kind where
  | u (lo hi : Nat)
  | s (lo hi : Int)
  | e (set : List Nat)
  | m (mask : Nat)
  | none
  deriving DecidableEq, Repr

/-- When a written value comes into force: at once, at the station's boundary (R17, R163), or at the slot's next COMMIT. -/
inductive Latch where
  | direct | boundary | shadow
  deriving DecidableEq, Repr

/-- One field. Instance `(o, m, b)` stands at `off + s1*o + s2*m`, its lowest bit at `lsb + b3*b`; its index is
`(o*n2 + m)*n3 + b`. A field wider than 32 bits is a pair, its upper register 4 above (R9). -/
structure Row where
  off : Nat
  lsb : Nat
  width : Nat
  acc : Access
  reset : Nat := 0
  kind : Kind := .none
  n1 : Nat := 1
  s1 : Nat := 0
  n2 : Nat := 1
  s2 : Nat := 0
  n3 : Nat := 1
  b3 : Nat := 0
  latch : Latch := .direct
  deriving DecidableEq, Repr

/-- The reset domains (R397). -/
inductive Dom where
  | aon | seq | host | mem | cmp | vid | mot | ctl | csl
  deriving DecidableEq, Repr

/-- The field table of the GLB block (R431): place, access code, reset value and hardware range. -/
def GlbF.row : GlbF → Row
  | .vector => { off := 0x8, lsb := 0, width := 8, acc := .rwl, kind := .u 0 255 }
  | .irqLoad => { off := 0x8, lsb := 8, width := 1, acc := .rw, reset := 1, kind := .u 0 1 }
  | .irqCommit => { off := 0x8, lsb := 9, width := 1, acc := .rw, reset := 1, kind := .u 0 1 }
  | .irqArm => { off := 0x8, lsb := 10, width := 1, acc := .rw, reset := 1, kind := .u 0 1 }
  | .irqAccess => { off := 0x8, lsb := 11, width := 1, acc := .rw, reset := 1, kind := .u 0 1 }
  | .accessDenied => { off := 0xC, lsb := 0, width := 1, acc := .w1c }
  | .isoAccess => { off := 0xC, lsb := 1, width := 1, acc := .w1c }
  | .expert => { off := 0xC, lsb := 2, width := 1, acc := .ro }
  | .armed => { off := 0xC, lsb := 3, width := 1, acc := .ro }
  | .hbExpired => { off := 0xC, lsb := 4, width := 1, acc := .ro }
  | .hbPeriod => { off := 0x18, lsb := 0, width := 10, acc := .rwl, reset := 50, kind := .u 1 1000 }
  | .pcieSpeed => { off := 0x3C, lsb := 0, width := 3, acc := .ro }
  | .pcieWidth => { off := 0x3C, lsb := 4, width := 6, acc := .ro }

/-- Every field of the GLB block, in table order. -/
def GlbF.all : List GlbF := [
  .vector, .irqLoad, .irqCommit, .irqArm, .irqAccess, .accessDenied, .isoAccess, .expert, .armed, .hbExpired,
  .hbPeriod, .pcieSpeed, .pcieWidth]

/-- The field table of the LDR block (R65): place, access code, reset value and hardware range. -/
def LdrF.row : LdrF → Row
  | .src => { off := 0x10000, lsb := 1, width := 2, acc := .rw, kind := .u 0 3 }
  | .fallback => { off := 0x10000, lsb := 3, width := 1, acc := .rw, reset := 1, kind := .u 0 1 }
  | .commitSlot => { off := 0x10000, lsb := 5, width := 1, acc := .rw, kind := .u 0 1 }
  | .state => { off := 0x10004, lsb := 0, width := 3, acc := .ro }
  | .unsecured => { off := 0x10004, lsb := 3, width := 1, acc := .ro }
  | .reject => { off := 0x10004, lsb := 4, width := 4, acc := .ro }
  | .source => { off := 0x10004, lsb := 8, width := 2, acc := .ro }
  | .fellback => { off := 0x10004, lsb := 10, width := 1, acc := .ro }
  | .clamped => { off := 0x10004, lsb := 11, width := 1, acc := .ro }
  | .loadDone => { off := 0x10004, lsb := 12, width := 1, acc := .w1c }
  | .loadFail => { off := 0x10004, lsb := 13, width := 1, acc := .w1c }
  | .ignored => { off := 0x10004, lsb := 14, width := 1, acc := .w1c }
  | .commitBusy => { off := 0x10004, lsb := 15, width := 1, acc := .ro }
  | .commitFail => { off := 0x10004, lsb := 16, width := 1, acc := .w1c }
  | .armRefuse => { off := 0x10004, lsb := 17, width := 3, acc := .ro }
  | .hostlen => { off := 0x10008, lsb := 0, width := 32, acc := .rw, kind := .u 0 4294967295 }
  | .serial => { off := 0x10010, lsb := 0, width := 32, acc := .ro }
  | .fmtMinor => { off := 0x10014, lsb := 0, width := 16, acc := .ro }
  | .fmtMajor => { off := 0x10014, lsb := 16, width := 16, acc := .ro }
  | .fwBuild => { off := 0x10018, lsb := 0, width := 16, acc := .ro }
  | .fwMinor => { off := 0x10018, lsb := 16, width := 8, acc := .ro }
  | .fwMajor => { off := 0x10018, lsb := 24, width := 8, acc := .ro }
  | .imgSecver => { off := 0x1001C, lsb := 0, width := 6, acc := .ro }
  | .repLoaded => { off := 0x10020, lsb := 0, width := 11, acc := .ro }
  | .repLost => { off := 0x10020, lsb := 22, width := 10, acc := .ro }
  | .loadtime => { off := 0x10028, lsb := 0, width := 32, acc := .ro }
  | .digest => { off := 0x10040, lsb := 0, width := 32, acc := .ro, n2 := 8, s2 := 4 }
  | .fuseBusy => { off := 0x10064, lsb := 8, width := 1, acc := .ro }
  | .fuseErr => { off := 0x10064, lsb := 9, width := 1, acc := .w1c }
  | .fusedata => { off := 0x10080, lsb := 0, width := 32, acc := .rw, kind := .u 0 4294967295, n2 := 8, s2 := 4 }

/-- Every field of the LDR block, in table order. -/
def LdrF.all : List LdrF := [
  .src, .fallback, .commitSlot, .state, .unsecured, .reject, .source, .fellback, .clamped, .loadDone, .loadFail,
  .ignored, .commitBusy, .commitFail, .armRefuse, .hostlen, .serial, .fmtMinor, .fmtMajor, .fwBuild, .fwMinor,
  .fwMajor, .imgSecver, .repLoaded, .repLost, .loadtime, .digest, .fuseBusy, .fuseErr, .fusedata]

/-- The field table of the RSTC block (R418): place, access code, reset value and hardware range. -/
def RstcF.row : RstcF → Row
  | .obBad => { off := 0x20004, lsb := 0, width := 1, acc := .ro }
  | .obSlot => { off := 0x20004, lsb := 1, width := 1, acc := .ro }
  | .obBusy => { off := 0x20004, lsb := 2, width := 1, acc := .ro }
  | .obFail => { off := 0x20004, lsb := 3, width := 1, acc := .w1c }
  | .cmdErr => { off := 0x20004, lsb := 4, width := 1, acc := .w1c }
  | .refOk => { off := 0x20004, lsb := 5, width := 1, acc := .ro }
  | .lastReach => { off := 0x20004, lsb := 6, width := 2, acc := .ro, reset := 3 }
  | .lastDoms => { off := 0x20004, lsb := 8, width := 9, acc := .ro, reset := 511 }
  | .lastSrc => { off := 0x20008, lsb := 0, width := 12, acc := .ro }
  | .nowSrc => { off := 0x20008, lsb := 16, width := 12, acc := .ro }
  | .count => { off := 0x2000C, lsb := 0, width := 16, acc := .ro }
  | .fused => { off := 0x20040, lsb := 0, width := 2, acc := .ro, n2 := 12, s2 := 4 }
  | .set => { off := 0x20040, lsb := 4, width := 2, acc := .ro, n2 := 12, s2 := 4 }
  | .effective => { off := 0x20040, lsb := 8, width := 2, acc := .ro, n2 := 12, s2 := 4 }
  | .domain => { off := 0x20040, lsb := 12, width := 4, acc := .ro, n2 := 12, s2 := 4 }
  | .ob => { off := 0x20080, lsb := 0, width := 32, acc := .ro, n2 := 16, s2 := 4 }
  | .obw => { off := 0x200C0, lsb := 0, width := 32, acc := .rw, kind := .u 0 4294967295, n2 := 16, s2 := 4 }

/-- Every field of the RSTC block, in table order. -/
def RstcF.all : List RstcF := [
  .obBad, .obSlot, .obBusy, .obFail, .cmdErr, .refOk, .lastReach, .lastDoms, .lastSrc, .nowSrc, .count, .fused, .set,
  .effective, .domain, .ob, .obw]

/-- The field table of the PWR block (R395): place, access code, reset value and hardware range. -/
def PwrF.row : PwrF → Row
  | .nsteps => { off := 0x30000, lsb := 0, width := 5, acc := .rwl, kind := .u 0 16 }
  | .extAuto => { off := 0x30000, lsb := 5, width := 1, acc := .rwl, reset := 1, kind := .u 0 1 }
  | .mode => { off := 0x30000, lsb := 6, width := 1, acc := .rwl, kind := .u 0 1 }
  | .istate => { off := 0x30004, lsb := 0, width := 3, acc := .ro }
  | .irail => { off := 0x30004, lsb := 3, width := 4, acc := .ro }
  | .estate => { off := 0x30004, lsb := 7, width := 3, acc := .ro }
  | .estep => { off := 0x30004, lsb := 10, width := 5, acc := .ro }
  | .allQual => { off := 0x30004, lsb := 15, width := 1, acc := .ro }
  | .onLatch => { off := 0x30004, lsb := 16, width := 1, acc := .ro }
  | .seqFault => { off := 0x30004, lsb := 17, width := 1, acc := .w1c }
  | .fallLate => { off := 0x30004, lsb := 18, width := 1, acc := .w1c }
  | .pwrOn => { off := 0x30004, lsb := 19, width := 1, acc := .ro }
  | .offPend => { off := 0x30004, lsb := 20, width := 1, acc := .ro }
  | .cntBad => { off := 0x30004, lsb := 21, width := 1, acc := .ro }
  | .logValid => { off := 0x30004, lsb := 22, width := 1, acc := .ro }
  | .cmdErr => { off := 0x30004, lsb := 23, width := 1, acc := .w1c }
  | .offWait => { off := 0x3000C, lsb := 0, width := 14, acc := .rwx, reset := 2000, kind := .u 0 10000 }
  | .vin => { off := 0x30010, lsb := 0, width := 12, acc := .ro }
  | .railOk => { off := 0x30014, lsb := 0, width := 12, acc := .ro }
  | .monOk => { off := 0x30014, lsb := 16, width := 16, acc := .ro }
  | .railv => { off := 0x30040, lsb := 0, width := 16, acc := .ro, n2 := 12, s2 := 4 }
  | .stepEn => { off := 0x30080, lsb := 0, width := 8, acc := .rwl, kind := .m 0xFF, n2 := 16, s2 := 4 }
  | .stepMon => { off := 0x30080, lsb := 8, width := 16, acc := .rwl, kind := .m 0xFFFF, n2 := 16, s2 := 4 }
  | .onThr => { off := 0x300C0, lsb := 0, width := 12, acc := .rwl, kind := .u 0 4095, n2 := 16, s2 := 4 }
  | .offThr => { off := 0x300C0, lsb := 16, width := 12, acc := .rwl, kind := .u 0 4095, n2 := 16, s2 := 4 }
  | .monEn => { off := 0x300C0, lsb := 31, width := 1, acc := .rwl, kind := .u 0 1, n2 := 16, s2 := 4 }
  | .whi => { off := 0x30100, lsb := 0, width := 12, acc := .rwl, kind := .u 0 4095, n2 := 16, s2 := 4 }
  | .tmo => { off := 0x30180, lsb := 0, width := 10, acc := .rwx, reset := 20, kind := .u 1 1000, n2 := 16, s2 := 4 }
  | .delay => { off := 0x30180, lsb := 16, width := 16, acc := .rwl, kind := .u 0 65535, n2 := 16, s2 := 4 }
  | .rcnt => { off := 0x301C0, lsb := 0, width := 16, acc := .ro, n2 := 28, s2 := 4 }

/-- Every field of the PWR block, in table order. -/
def PwrF.all : List PwrF := [
  .nsteps, .extAuto, .mode, .istate, .irail, .estate, .estep, .allQual, .onLatch, .seqFault, .fallLate, .pwrOn,
  .offPend, .cntBad, .logValid, .cmdErr, .offWait, .vin, .railOk, .monOk, .railv, .stepEn, .stepMon, .onThr, .offThr,
  .monEn, .whi, .tmo, .delay, .rcnt]

/-- The field table of the FLT block (R361): place, access code, reset value and hardware range. -/
def FltF.row : FltF → Row
  | .vector => { off := 0x40000, lsb := 0, width := 8, acc := .rwl, kind := .u 0 255 }
  | .overflow => { off := 0x40004, lsb := 14, width := 1, acc := .w1c }
  | .clrRefused => { off := 0x40004, lsb := 15, width := 1, acc := .w1c }
  | .ansRefused => { off := 0x40004, lsb := 16, width := 1, acc := .w1c }
  | .unitRefused => { off := 0x40004, lsb := 17, width := 1, acc := .w1c }
  | .queueLost => { off := 0x40004, lsb := 18, width := 1, acc := .w1c }
  | .unitsel => { off := 0x40014, lsb := 0, width := 8, acc := .rw, kind := .u 0 255 }
  | .sev => { off := 0x40400, lsb := 0, width := 3, acc := .rwx, kind := .u 0 7, n2 := 192, s2 := 4 }
  | .uact => { off := 0x40400, lsb := 4, width := 3, acc := .rwx, kind := .e [0, 1, 2, 3, 4, 5], n2 := 192, s2 := 4 }
  | .mode => { off := 0x40400, lsb := 7, width := 1, acc := .rwl, kind := .u 0 1, n2 := 192, s2 := 4 }
  | .srccnt => { off := 0x40800, lsb := 0, width := 32, acc := .ro, n2 := 192, s2 := 4 }

/-- Every field of the FLT block, in table order. -/
def FltF.all : List FltF := [
  .vector, .overflow, .clrRefused, .ansRefused, .unitRefused, .queueLost, .unitsel, .sev, .uact, .mode, .srccnt]

/-- The field table of the CAL block (R376): place, access code, reset value and hardware range. -/
def CalF.row : CalF → Row
  | .mode => { off := 0x50000, lsb := 0, width := 1, acc := .rwl, kind := .u 0 1 }
  | .sweepEn => { off := 0x50000, lsb := 1, width := 1, acc := .rwx, reset := 1, kind := .u 0 1 }
  | .sweepPer => { off := 0x50000, lsb := 8, width := 8, acc := .rwx, reset := 10, kind := .u 1 255 }
  | .driftT => { off := 0x50000, lsb := 16, width := 10, acc := .rwx, reset := 100, kind := .u 0 1000 }
  | .puDone => { off := 0x50004, lsb := 0, width := 1, acc := .ro }
  | .puBad => { off := 0x50004, lsb := 1, width := 1, acc := .ro }
  | .puStep => { off := 0x50004, lsb := 2, width := 4, acc := .ro }
  | .calFail => { off := 0x50004, lsb := 6, width := 1, acc := .w1c }
  | .cmdErr => { off := 0x50004, lsb := 7, width := 1, acc := .w1c }
  | .need => { off := 0x50004, lsb := 8, width := 1, acc := .ro, n3 := 8, b3 := 1 }
  | .busy => { off := 0x50004, lsb := 16, width := 1, acc := .ro, n3 := 8, b3 := 1 }
  | .pend => { off := 0x50004, lsb := 24, width := 1, acc := .ro, n3 := 8, b3 := 1 }
  | .failStep => { off := 0x5000C, lsb := 0, width := 4, acc := .ro }
  | .failUnit => { off := 0x5000C, lsb := 4, width := 8, acc := .ro }
  | .mbusy => { off := 0x50014, lsb := 0, width := 1, acc := .ro, n3 := 16, b3 := 1 }
  | .restRej => { off := 0x50018, lsb := 0, width := 10, acc := .ro }
  | .restored => { off := 0x50018, lsb := 31, width := 1, acc := .ro }
  | .stnt => { off := 0x50020, lsb := 0, width := 16, acc := .ro, kind := .s (-32768) 32767, n2 := 8, s2 := 4 }
  | .riseLim => { off := 0x50100, lsb := 0, width := 12, acc := .rwx, reset := 50, kind := .u 0 4095, n2 := 16, s2 := 16 }
  | .rwin => { off := 0x50100, lsb := 16, width := 12, acc := .rwx, reset := 1000, kind := .u 10 4095, n2 := 16, s2 := 16 }
  | .temp => { off := 0x50104, lsb := 0, width := 16, acc := .ro, kind := .s (-32768) 32767, n2 := 16, s2 := 16 }
  | .dead => { off := 0x50104, lsb := 16, width := 1, acc := .ro, n2 := 16, s2 := 16 }
  | .riseEv => { off := 0x50108, lsb := 0, width := 1, acc := .w1c, n2 := 16, s2 := 16 }
  | .conv => { off := 0x50108, lsb := 16, width := 16, acc := .ro, n2 := 16, s2 := 16 }
  | .mrate => { off := 0x5010C, lsb := 0, width := 16, acc := .ro, kind := .s (-32768) 32767, n2 := 16, s2 := 16 }
  | .result => { off := 0x51000, lsb := 0, width := 32, acc := .ro, n2 := 512, s2 := 4 }
  | .snapshot => { off := 0x51800, lsb := 0, width := 32, acc := .rwx, kind := .u 0 4294967295, n2 := 512, s2 := 4 }

/-- Every field of the CAL block, in table order. -/
def CalF.all : List CalF := [
  .mode, .sweepEn, .sweepPer, .driftT, .puDone, .puBad, .puStep, .calFail, .cmdErr, .need, .busy, .pend, .failStep,
  .failUnit, .mbusy, .restRej, .restored, .stnt, .riseLim, .rwin, .temp, .dead, .riseEv, .conv, .mrate, .result,
  .snapshot]

/-- The field table of the DMA block (R343): place, access code, reset value and hardware range. -/
def DmaF.row : DmaF → Row
  | .prio => { off := 0x100000, lsb := 3, width := 1, acc := .rwl, kind := .u 0 1, n1 := 32, s1 := 0x100 }
  | .burst => { off := 0x100000, lsb := 4, width := 2, acc := .rwl, reset := 2, kind := .e [0, 1, 2], n1 := 32, s1 := 0x100 }
  | .kinds => { off := 0x100000, lsb := 8, width := 5, acc := .rwl, kind := .m 0x1F, n1 := 32, s1 := 0x100 }
  | .vector => { off := 0x100000, lsb := 16, width := 8, acc := .rwl, kind := .u 0 255, n1 := 32, s1 := 0x100 }
  | .state => { off := 0x100004, lsb := 0, width := 3, acc := .ro, n1 := 32, s1 := 0x100 }
  | .descEv => { off := 0x100004, lsb := 3, width := 1, acc := .w1c, n1 := 32, s1 := 0x100 }
  | .badEv => { off := 0x100004, lsb := 4, width := 1, acc := .w1c, n1 := 32, s1 := 0x100 }
  | .shortEv => { off := 0x100004, lsb := 5, width := 1, acc := .w1c, n1 := 32, s1 := 0x100 }
  | .fetchErr => { off := 0x100004, lsb := 6, width := 1, acc := .w1c, n1 := 32, s1 := 0x100 }
  | .cmdErr => { off := 0x100004, lsb := 7, width := 1, acc := .w1c, n1 := 32, s1 := 0x100 }
  | .lastCause => { off := 0x100004, lsb := 8, width := 4, acc := .ro, n1 := 32, s1 := 0x100 }
  | .wait => { off := 0x100004, lsb := 12, width := 3, acc := .ro, n1 := 32, s1 := 0x100 }
  | .ring => { off := 0x100008, lsb := 0, width := 64, acc := .rw, kind := .u 0 18446744073709551615, n1 := 32, s1 := 0x100 }
  | .ringLog => { off := 0x100010, lsb := 0, width := 5, acc := .rw, reset := 4, kind := .u 4 16, n1 := 32, s1 := 0x100 }
  | .tail => { off := 0x100014, lsb := 0, width := 16, acc := .rw, kind := .u 0 65535, n1 := 32, s1 := 0x100 }
  | .head => { off := 0x100018, lsb := 0, width := 16, acc := .ro, n1 := 32, s1 := 0x100 }
  | .cntDone => { off := 0x10001C, lsb := 0, width := 16, acc := .ro, n1 := 32, s1 := 0x100 }
  | .cntBad => { off := 0x10001C, lsb := 16, width := 16, acc := .ro, n1 := 32, s1 := 0x100 }
  | .withdraw => { off := 0x100020, lsb := 0, width := 16, acc := .ro, n1 := 32, s1 := 0x100 }

/-- Every field of the DMA block, in table order. -/
def DmaF.all : List DmaF := [
  .prio, .burst, .kinds, .vector, .state, .descEv, .badEv, .shortEv, .fetchErr, .cmdErr, .lastCause, .wait, .ring,
  .ringLog, .tail, .head, .cntDone, .cntBad, .withdraw]

/-- The field table of the CMP block (R138): place, access code, reset value and hardware range. -/
def CmpF.row : CmpF → Row
  | .mode => { off := 0x208000, lsb := 0, width := 1, acc := .rwl, kind := .u 0 1 }
  | .chmap => { off := 0x208010, lsb := 0, width := 4, acc := .rwl, reset := 15, kind := .e [0, 1, 2, 3, 4, 5, 6, 7, 15], n2 := 4, s2 := 4, n3 := 8, b3 := 4 }
  | .vfail => { off := 0x208020, lsb := 0, width := 32, acc := .ro }
  | .jState => { off := 0x200004, lsb := 0, width := 3, acc := .ro, n1 := 24, s1 := 0x400 }
  | .jErr => { off := 0x200004, lsb := 3, width := 4, acc := .ro, n1 := 24, s1 := 0x400 }
  | .resBits => { off := 0x200004, lsb := 7, width := 6, acc := .ro, n1 := 24, s1 := 0x400 }
  | .holding => { off := 0x200004, lsb := 13, width := 1, acc := .ro, n1 := 24, s1 := 0x400 }
  | .cmdIgnored => { off := 0x200004, lsb := 14, width := 1, acc := .w1c, n1 := 24, s1 := 0x400 }
  | .doneEv => { off := 0x200004, lsb := 15, width := 1, acc := .w1c, n1 := 24, s1 := 0x400 }
  | .errEv => { off := 0x200004, lsb := 16, width := 1, acc := .w1c, n1 := 24, s1 := 0x400 }
  | .stopEv => { off := 0x200004, lsb := 17, width := 1, acc := .w1c, n1 := 24, s1 := 0x400 }
  | .emode => { off := 0x200008, lsb := 0, width := 2, acc := .rwl, kind := .e [0, 1, 2], n1 := 24, s1 := 0x400 }
  | .jLineBytes => { off := 0x20000C, lsb := 0, width := 13, acc := .rw, kind := .u 1 6656, n1 := 24, s1 := 0x400 }
  | .jLinesM1 => { off := 0x20000C, lsb := 16, width := 8, acc := .rw, kind := .u 0 255, n1 := 24, s1 := 0x400 }
  | .inAddr => { off := 0x200010, lsb := 0, width := 35, acc := .rw, kind := .u 0 34359738367, n1 := 24, s1 := 0x400 }
  | .inLen => { off := 0x200018, lsb := 0, width := 32, acc := .rw, kind := .u 0 4294967295, n1 := 24, s1 := 0x400 }
  | .outAddr => { off := 0x20001C, lsb := 0, width := 35, acc := .rw, kind := .u 0 34359738367, n1 := 24, s1 := 0x400 }
  | .outLen => { off := 0x200024, lsb := 0, width := 32, acc := .rw, kind := .u 0 4294967295, n1 := 24, s1 := 0x400 }
  | .inConsumed => { off := 0x200028, lsb := 0, width := 32, acc := .ro, n1 := 24, s1 := 0x400 }
  | .outProduced => { off := 0x20002C, lsb := 0, width := 32, acc := .ro, n1 := 24, s1 := 0x400 }
  | .residue => { off := 0x200030, lsb := 0, width := 64, acc := .ro, n1 := 24, s1 := 0x400 }
  | .crc => { off := 0x200038, lsb := 0, width := 32, acc := .ro, n1 := 24, s1 := 0x400 }
  | .bandRec => { off := 0x20003C, lsb := 0, width := 17, acc := .ro, n1 := 24, s1 := 0x400 }
  | .bandRecValid => { off := 0x20003C, lsb := 31, width := 1, acc := .ro, n1 := 24, s1 := 0x400 }
  | .errpos => { off := 0x200040, lsb := 0, width := 32, acc := .ro, n1 := 24, s1 := 0x400 }
  | .remain => { off := 0x200044, lsb := 0, width := 17, acc := .ro, n1 := 24, s1 := 0x400 }
  | .holdKind => { off := 0x200044, lsb := 17, width := 2, acc := .ro, n1 := 24, s1 := 0x400 }
  | .holddist => { off := 0x200048, lsb := 0, width := 17, acc := .ro, n1 := 24, s1 := 0x400 }
  | .jBand => { off := 0x20004C, lsb := 0, width := 12, acc := .rw, kind := .u 0 4095, n1 := 24, s1 := 0x400 }

/-- Every field of the CMP block, in table order. -/
def CmpF.all : List CmpF := [
  .mode, .chmap, .vfail, .jState, .jErr, .resBits, .holding, .cmdIgnored, .doneEv, .errEv, .stopEv, .emode,
  .jLineBytes, .jLinesM1, .inAddr, .inLen, .outAddr, .outLen, .inConsumed, .outProduced, .residue, .crc, .bandRec,
  .bandRecValid, .errpos, .remain, .holdKind, .holddist, .jBand]

/-- The field table of the PGS block (R97): place, access code, reset value and hardware range. -/
def PgsF.row : PgsF → Row
  | .admMode => { off := 0x300000, lsb := 0, width := 1, acc := .rwl, kind := .u 0 1 }
  | .decMargin => { off := 0x300000, lsb := 1, width := 7, acc := .rwx, reset := 10, kind := .u 0 50 }
  | .scrubEn => { off := 0x300000, lsb := 8, width := 1, acc := .rwx, reset := 1, kind := .u 0 1 }
  | .admRefuse => { off := 0x300004, lsb := 0, width := 3, acc := .ro }
  | .cmdErr => { off := 0x300004, lsb := 12, width := 1, acc := .w1c }
  | .cmdCause => { off := 0x300004, lsb := 13, width := 3, acc := .ro }
  | .deadlock => { off := 0x300004, lsb := 17, width := 1, acc := .w1c }
  | .apDenied => { off := 0x300004, lsb := 18, width := 1, acc := .w1c }
  | .apRange => { off := 0x300004, lsb := 19, width := 1, acc := .w1c }
  | .ueEvent => { off := 0x300004, lsb := 20, width := 1, acc := .w1c }
  | .ctxEvent => { off := 0x300004, lsb := 21, width := 1, acc := .w1c }
  | .planes => { off := 0x30000C, lsb := 0, width := 8, acc := .rw, kind := .u 0 255 }
  | .res1200 => { off := 0x30000C, lsb := 8, width := 1, acc := .rw, kind := .u 0 1 }
  | .lineBytes => { off := 0x30000C, lsb := 16, width := 13, acc := .rw, kind := .u 1 6656 }
  | .linesM1 => { off := 0x300010, lsb := 0, width := 20, acc := .rw, kind := .u 0 1048575 }
  | .openTag => { off := 0x300014, lsb := 0, width := 32, acc := .rw, kind := .u 0 4294967295 }
  | .admLinerate => { off := 0x300018, lsb := 0, width := 19, acc := .rwx, reset := 300000, kind := .u 1000 300000 }
  | .loamBudget => { off := 0x30001C, lsb := 0, width := 17, acc := .rwx, reset := 48000, kind := .u 1000 102400 }
  | .decState => { off := 0x300020, lsb := 0, width := 1, acc := .ro, reset := 1, n3 := 8, b3 := 1 }
  | .decAssign => { off := 0x300024, lsb := 0, width := 4, acc := .ro, reset := 15, n3 := 8, b3 := 4 }
  | .reservedBw => { off := 0x300028, lsb := 0, width := 32, acc := .ro }
  | .lowspace => { off := 0x300034, lsb := 0, width := 32, acc := .rw, reset := 4096, kind := .u 0 4294967295 }
  | .eccCe => { off := 0x300038, lsb := 0, width := 32, acc := .ro }
  | .eccUe => { off := 0x30003C, lsb := 0, width := 32, acc := .ro }
  | .eccAddr => { off := 0x300040, lsb := 0, width := 64, acc := .ro }
  | .apbase => { off := 0x300048, lsb := 0, width := 18, acc := .rw, kind := .u 0 262143 }
  | .bandsel => { off := 0x300050, lsb := 0, width := 17, acc := .rw, kind := .u 0 131071 }
  | .disp => { off := 0x308000, lsb := 8, width := 2, acc := .rwx, reset := 1, kind := .e [0, 1, 2], n2 := 256, s2 := 64 }

/-- Every field of the PGS block, in table order. -/
def PgsF.all : List PgsF := [
  .admMode, .decMargin, .scrubEn, .admRefuse, .cmdErr, .cmdCause, .deadlock, .apDenied, .apRange, .ueEvent,
  .ctxEvent, .planes, .res1200, .lineBytes, .linesM1, .openTag, .admLinerate, .loamBudget, .decState, .decAssign,
  .reservedBw, .lowspace, .eccCe, .eccUe, .eccAddr, .apbase, .bandsel, .disp]

/-- The field table of the BTU block (R165): place, access code, reset value and hardware range. -/
def BtuF.row : BtuF → Row
  | .mode => { off := 0x400000, lsb := 0, width := 1, acc := .rwl, kind := .u 0 1, n1 := 8, s1 := 0x10000 }
  | .rev => { off := 0x400000, lsb := 1, width := 1, acc := .rwl, kind := .u 0 1, n1 := 8, s1 := 0x10000 }
  | .rotEn => { off := 0x400000, lsb := 2, width := 1, acc := .rwl, reset := 1, kind := .u 0 1, n1 := 8, s1 := 0x10000 }
  | .runMerge => { off := 0x400000, lsb := 3, width := 1, acc := .rwx, kind := .u 0 1, n1 := 8, s1 := 0x10000, latch := .boundary }
  | .trackEn => { off := 0x400000, lsb := 4, width := 1, acc := .rwx, reset := 1, kind := .u 0 1, n1 := 8, s1 := 0x10000 }
  | .indexSrc => { off := 0x400000, lsb := 5, width := 1, acc := .rwl, kind := .u 0 1, n1 := 8, s1 := 0x10000 }
  | .flock => { off := 0x400004, lsb := 0, width := 1, acc := .ro, n1 := 8, s1 := 0x10000 }
  | .flockArb => { off := 0x400004, lsb := 1, width := 1, acc := .ro, n1 := 8, s1 := 0x10000 }
  | .ready => { off := 0x400004, lsb := 2, width := 1, acc := .ro, n1 := 8, s1 := 0x10000 }
  | .synLock => { off := 0x400004, lsb := 5, width := 1, acc := .ro, n1 := 8, s1 := 0x10000 }
  | .sosLost => { off := 0x400004, lsb := 8, width := 1, acc := .w1c, n1 := 8, s1 := 0x10000 }
  | .lockAmbig => { off := 0x400004, lsb := 9, width := 1, acc := .w1c, n1 := 8, s1 := 0x10000 }
  | .trackClamp => { off := 0x400004, lsb := 10, width := 1, acc := .w1c, n1 := 8, s1 := 0x10000 }
  | .freqClamp => { off := 0x400004, lsb := 11, width := 1, acc := .w1c, n1 := 8, s1 := 0x10000 }
  | .underrun => { off := 0x400004, lsb := 12, width := 1, acc := .w1c, n1 := 8, s1 := 0x10000 }
  | .phaseEv => { off := 0x400004, lsb := 13, width := 1, acc := .w1c, n1 := 8, s1 := 0x10000 }
  | .facets => { off := 0x400008, lsb := 0, width := 5, acc := .rwl, reset := 8, kind := .u 1 16, n1 := 8, s1 := 0x10000 }
  | .win => { off := 0x400008, lsb := 5, width := 8, acc := .rwx, reset := 8, kind := .u 1 255, n1 := 8, s1 := 0x10000 }
  | .fly => { off := 0x400008, lsb := 13, width := 3, acc := .rwx, reset := 2, kind := .u 0 4, n1 := 8, s1 := 0x10000 }
  | .designPix => { off := 0x40000C, lsb := 0, width := 16, acc := .rwl, reset := 53248, kind := .u 8 53248, n1 := 8, s1 := 0x10000 }
  | .scanFrac => { off := 0x40000C, lsb := 16, width := 16, acc := .rwl, reset := 45056, kind := .u 32768 65535, n1 := 8, s1 := 0x10000 }
  | .snom => { off := 0x400010, lsb := 0, width := 23, acc := .rw, reset := 4800000, kind := .u 1024 4812800, n1 := 8, s1 := 0x10000, latch := .boundary }
  | .trackLim => { off := 0x400014, lsb := 0, width := 5, acc := .rwx, reset := 10, kind := .u 1 30, n1 := 8, s1 := 0x10000 }
  | .phaseLim => { off := 0x400014, lsb := 8, width := 8, acc := .rwx, reset := 32, kind := .u 1 255, n1 := 8, s1 := 0x10000 }
  | .sosfix => { off := 0x400018, lsb := 0, width := 16, acc := .rwx, kind := .s (-32768) 32767, n1 := 8, s1 := 0x10000, latch := .boundary }
  | .margin => { off := 0x40001C, lsb := 0, width := 22, acc := .rw, reset := 102400, kind := .u 102400 4194303, n1 := 8, s1 := 0x10000, latch := .boundary }
  | .coloff => { off := 0x400020, lsb := 0, width := 12, acc := .rwx, kind := .s (-2048) 2047, n1 := 8, s1 := 0x10000, latch := .boundary }
  | .ew => { off := 0x400024, lsb := 0, width := 7, acc := .rw, reset := 64, kind := .u 1 64, n1 := 8, s1 := 0x10000, latch := .boundary }
  | .seglen8 => { off := 0x400028, lsb := 0, width := 8, acc := .rwl, reset := 104, kind := .u 1 128, n1 := 8, s1 := 0x10000 }
  | .maxline => { off := 0x40002C, lsb := 0, width := 13, acc := .rwl, reset := 6656, kind := .u 1 6656, n1 := 8, s1 := 0x10000 }
  | .o => { off := 0x400034, lsb := 0, width := 7, acc := .ro, n1 := 8, s1 := 0x10000 }
  | .resid => { off := 0x400034, lsb := 8, width := 8, acc := .ro, kind := .s (-128) 127, n1 := 8, s1 := 0x10000 }
  | .firstCtx => { off := 0x400034, lsb := 16, width := 8, acc := .ro, n1 := 8, s1 := 0x10000 }
  | .scanphase => { off := 0x400038, lsb := 0, width := 16, acc := .ro, kind := .s (-32768) 32767, n1 := 8, s1 := 0x10000 }
  | .pixnow => { off := 0x40003C, lsb := 0, width := 29, acc := .ro, n1 := 8, s1 := 0x10000 }
  | .sos => { off := 0x400040, lsb := 0, width := 64, acc := .ro, n1 := 8, s1 := 0x10000 }
  | .fine => { off := 0x400048, lsb := 0, width := 9, acc := .ro, n1 := 8, s1 := 0x10000 }
  | .facet => { off := 0x400048, lsb := 16, width := 4, acc := .ro, n1 := 8, s1 := 0x10000 }
  | .bridged => { off := 0x400048, lsb := 24, width := 1, acc := .ro, n1 := 8, s1 := 0x10000 }
  | .revper => { off := 0x40004C, lsb := 0, width := 32, acc := .ro, n1 := 8, s1 := 0x10000 }
  | .cntGlitch => { off := 0x400050, lsb := 0, width := 32, acc := .ro, n1 := 8, s1 := 0x10000 }
  | .cntMiss => { off := 0x400054, lsb := 0, width := 32, acc := .ro, n1 := 8, s1 := 0x10000 }
  | .scancnt => { off := 0x400058, lsb := 0, width := 32, acc := .ro, n1 := 8, s1 := 0x10000 }
  | .siltfill => { off := 0x40005C, lsb := 0, width := 15, acc := .ro, n1 := 8, s1 := 0x10000 }
  | .foff => { off := 0x400100, lsb := 0, width := 12, acc := .rwx, kind := .s (-2048) 2047, n1 := 8, s1 := 0x10000, n2 := 16, s2 := 4, latch := .boundary }
  | .fscale => { off := 0x400100, lsb := 16, width := 12, acc := .rwx, kind := .s (-2048) 2047, n1 := 8, s1 := 0x10000, n2 := 16, s2 := 4, latch := .boundary }
  | .fref => { off := 0x400140, lsb := 0, width := 16, acc := .rwx, kind := .s (-32768) 32767, n1 := 8, s1 := 0x10000, n2 := 16, s2 := 4 }
  | .fper => { off := 0x400180, lsb := 0, width := 32, acc := .ro, n1 := 8, s1 := 0x10000, n2 := 16, s2 := 4 }
  | .shift => { off := 0x400200, lsb := 0, width := 6, acc := .rwx, kind := .s (-31) 31, n1 := 8, s1 := 0x10000, n2 := 64, s2 := 4, latch := .boundary }
  | .pmod => { off := 0x400200, lsb := 16, width := 12, acc := .rwx, kind := .s (-2048) 2047, n1 := 8, s1 := 0x10000, n2 := 64, s2 := 4, latch := .boundary }
  | .boff => { off := 0x400300, lsb := 0, width := 8, acc := .rwx, kind := .s (-127) 127, n1 := 8, s1 := 0x10000, n2 := 32, s2 := 4, n3 := 4, b3 := 8, latch := .boundary }

/-- Every field of the BTU block, in table order. -/
def BtuF.all : List BtuF := [
  .mode, .rev, .rotEn, .runMerge, .trackEn, .indexSrc, .flock, .flockArb, .ready, .synLock, .sosLost, .lockAmbig,
  .trackClamp, .freqClamp, .underrun, .phaseEv, .facets, .win, .fly, .designPix, .scanFrac, .snom, .trackLim,
  .phaseLim, .sosfix, .margin, .coloff, .ew, .seglen8, .maxline, .o, .resid, .firstCtx, .scanphase, .pixnow, .sos,
  .fine, .facet, .bridged, .revper, .cntGlitch, .cntMiss, .scancnt, .siltfill, .foff, .fscale, .fref, .fper, .shift,
  .pmod, .boff]

/-- The field table of the BLK block (R203): place, access code, reset value and hardware range. -/
def BlkF.row : BlkF → Row
  | .ldReq => { off := 0x500000, lsb := 0, width := 1, acc := .rw, kind := .u 0 1, n1 := 8, s1 := 0x10000 }
  | .apcMode => { off := 0x500000, lsb := 1, width := 1, acc := .rwl, kind := .u 0 1, n1 := 8, s1 := 0x10000 }
  | .tkoMode => { off := 0x500000, lsb := 2, width := 1, acc := .rwl, kind := .u 0 1, n1 := 8, s1 := 0x10000 }
  | .tkoEn => { off := 0x500000, lsb := 3, width := 1, acc := .rwl, reset := 1, kind := .u 0 1, n1 := 8, s1 := 0x10000 }
  | .lstate => { off := 0x500004, lsb := 0, width := 4, acc := .ro, n1 := 8, s1 := 0x10000 }
  | .lden => { off := 0x500004, lsb := 5, width := 1, acc := .ro, n1 := 8, s1 := 0x10000 }
  | .ilkClosed => { off := 0x500004, lsb := 6, width := 1, acc := .ro, n1 := 8, s1 := 0x10000 }
  | .hpres => { off := 0x500004, lsb := 7, width := 1, acc := .ro, n1 := 8, s1 := 0x10000 }
  | .tempWarn => { off := 0x500004, lsb := 8, width := 1, acc := .ro, n1 := 8, s1 := 0x10000 }
  | .tempTrip => { off := 0x500004, lsb := 9, width := 1, acc := .w1c, n1 := 8, s1 := 0x10000 }
  | .ilkEv => { off := 0x500004, lsb := 10, width := 1, acc := .w1c, n1 := 8, s1 := 0x10000 }
  | .lostScan => { off := 0x500004, lsb := 11, width := 1, acc := .w1c, n1 := 8, s1 := 0x10000 }
  | .tkoEv => { off := 0x500004, lsb := 12, width := 1, acc := .w1c, n1 := 8, s1 := 0x10000 }
  | .uncovered => { off := 0x500004, lsb := 13, width := 1, acc := .w1c, n1 := 8, s1 := 0x10000 }
  | .setLate => { off := 0x500004, lsb := 14, width := 1, acc := .w1c, n1 := 8, s1 := 0x10000 }
  | .cableMismatch => { off := 0x500004, lsb := 15, width := 1, acc := .w1c, n1 := 8, s1 := 0x10000 }
  | .cmdErr => { off := 0x500004, lsb := 16, width := 1, acc := .w1c, n1 := 8, s1 := 0x10000 }
  | .fcause => { off := 0x500004, lsb := 17, width := 4, acc := .ro, n1 := 8, s1 := 0x10000 }
  | .hid => { off := 0x500008, lsb := 0, width := 4, acc := .ro, n1 := 8, s1 := 0x10000 }
  | .discards => { off := 0x500008, lsb := 16, width := 16, acc := .ro, n1 := 8, s1 := 0x10000 }
  | .cable => { off := 0x50000C, lsb := 0, width := 16, acc := .rwl, kind := .u 0 65535, n1 := 8, s1 := 0x10000 }
  | .cableMeas => { off := 0x50000C, lsb := 16, width := 16, acc := .ro, n1 := 8, s1 := 0x10000 }
  | .model => { off := 0x500010, lsb := 0, width := 16, acc := .rwl, kind := .u 0 65535, n1 := 8, s1 := 0x10000 }
  | .chkPos => { off := 0x500010, lsb := 16, width := 1, acc := .rwl, reset := 1, kind := .u 0 1, n1 := 8, s1 := 0x10000 }
  | .chkSerial => { off := 0x500010, lsb := 17, width := 1, acc := .rwl, kind := .u 0 1, n1 := 8, s1 := 0x10000 }
  | .expSerial => { off := 0x500014, lsb := 0, width := 32, acc := .rwl, kind := .u 0 4294967295, n1 := 8, s1 := 0x10000 }
  | .tgt => { off := 0x500018, lsb := 0, width := 16, acc := .rw, reset := 16384, kind := .u 1 32768, n1 := 8, s1 := 0x10000, latch := .boundary }
  | .ka => { off := 0x500018, lsb := 16, width := 8, acc := .rwx, reset := 64, kind := .u 1 255, n1 := 8, s1 := 0x10000 }
  | .tol => { off := 0x500018, lsb := 24, width := 8, acc := .rwx, reset := 13, kind := .u 1 64, n1 := 8, s1 := 0x10000 }
  | .dstep => { off := 0x50001C, lsb := 0, width := 16, acc := .rwx, reset := 256, kind := .u 1 65535, n1 := 8, s1 := 0x10000 }
  | .hr => { off := 0x50001C, lsb := 16, width := 8, acc := .rwx, reset := 240, kind := .u 128 255, n1 := 8, s1 := 0x10000 }
  | .halfLim => { off := 0x50001C, lsb := 24, width := 8, acc := .rwx, reset := 255, kind := .u 0 255, n1 := 8, s1 := 0x10000 }
  | .warn => { off := 0x500020, lsb := 0, width := 16, acc := .rwx, reset := 960, kind := .s (-32768) 32767, n1 := 8, s1 := 0x10000 }
  | .trip => { off := 0x500020, lsb := 16, width := 16, acc := .rwx, reset := 1120, kind := .s (-32768) 32767, n1 := 8, s1 := 0x10000 }
  | .headtemp => { off := 0x500024, lsb := 0, width := 16, acc := .ro, kind := .s (-32768) 32767, n1 := 8, s1 := 0x10000 }
  | .halflines => { off := 0x50002C, lsb := 0, width := 32, acc := .ro, n1 := 8, s1 := 0x10000 }
  | .apcskip => { off := 0x500030, lsb := 0, width := 32, acc := .ro, n1 := 8, s1 := 0x10000 }
  | .apcstart => { off := 0x500034, lsb := 0, width := 22, acc := .rwl, kind := .u 0 4194303, n1 := 8, s1 := 0x10000 }
  | .ident => { off := 0x500040, lsb := 0, width := 32, acc := .ro, n1 := 8, s1 := 0x10000, n2 := 4, s2 := 4 }
  | .tkoen => { off := 0x500050, lsb := 0, width := 32, acc := .rwx, reset := 4294967295, kind := .m 4294967295, n1 := 8, s1 := 0x10000, n2 := 4, s2 := 4 }
  | .headroom => { off := 0x500060, lsb := 0, width := 1, acc := .ro, n1 := 8, s1 := 0x10000, n2 := 4, s2 := 4, n3 := 32, b3 := 1 }
  | .beamState => { off := 0x500080, lsb := 0, width := 2, acc := .ro, n1 := 8, s1 := 0x10000, n2 := 16, s2 := 4, n3 := 8, b3 := 4 }
  | .beamCause => { off := 0x500080, lsb := 2, width := 2, acc := .ro, n1 := 8, s1 := 0x10000, n2 := 16, s2 := 4, n3 := 8, b3 := 4 }
  | .driveN => { off := 0x500400, lsb := 0, width := 16, acc := .ro, n1 := 8, s1 := 0x10000, n2 := 128, s2 := 4 }
  | .driveF => { off := 0x500400, lsb := 16, width := 16, acc := .ro, n1 := 8, s1 := 0x10000, n2 := 128, s2 := 4 }
  | .hdriveN => { off := 0x500600, lsb := 0, width := 16, acc := .rw, kind := .u 0 65535, n1 := 8, s1 := 0x10000, n2 := 128, s2 := 4 }
  | .hdriveF => { off := 0x500600, lsb := 16, width := 16, acc := .rw, kind := .u 0 65535, n1 := 8, s1 := 0x10000, n2 := 128, s2 := 4 }
  | .measN => { off := 0x500800, lsb := 0, width := 16, acc := .ro, n1 := 8, s1 := 0x10000, n2 := 128, s2 := 4 }
  | .measF => { off := 0x500800, lsb := 16, width := 16, acc := .ro, n1 := 8, s1 := 0x10000, n2 := 128, s2 := 4 }

/-- Every field of the BLK block, in table order. -/
def BlkF.all : List BlkF := [
  .ldReq, .apcMode, .tkoMode, .tkoEn, .lstate, .lden, .ilkClosed, .hpres, .tempWarn, .tempTrip, .ilkEv, .lostScan,
  .tkoEv, .uncovered, .setLate, .cableMismatch, .cmdErr, .fcause, .hid, .discards, .cable, .cableMeas, .model,
  .chkPos, .chkSerial, .expSerial, .tgt, .ka, .tol, .dstep, .hr, .halfLim, .warn, .trip, .headtemp, .halflines,
  .apcskip, .apcstart, .ident, .tkoen, .headroom, .beamState, .beamCause, .driveN, .driveF, .hdriveN, .hdriveF,
  .measN, .measF]

/-- The field table of the MOT block (R230): place, access code, reset value and hardware range. -/
def MotF.row : MotF → Row
  | .planOvr => { off := 0x608000, lsb := 0, width := 1, acc := .w1c }
  | .axtype => { off := 0x600000, lsb := 0, width := 2, acc := .rwl, reset := 3, kind := .e [0, 1, 2, 3], n1 := 48, s1 := 0x200 }
  | .stepmode => { off := 0x600000, lsb := 2, width := 2, acc := .rwl, kind := .e [0, 1, 2], n1 := 48, s1 := 0x200 }
  | .dirInv => { off := 0x600000, lsb := 4, width := 1, acc := .rwl, kind := .u 0 1, n1 := 48, s1 := 0x200 }
  | .encEn => { off := 0x600000, lsb := 5, width := 1, acc := .rwl, kind := .u 0 1, n1 := 48, s1 := 0x200 }
  | .mode => { off := 0x600000, lsb := 6, width := 1, acc := .rwl, kind := .u 0 1, n1 := 48, s1 := 0x200 }
  | .noOvershoot => { off := 0x600000, lsb := 7, width := 1, acc := .rwx, kind := .u 0 1, n1 := 48, s1 := 0x200 }
  | .slimEn => { off := 0x600000, lsb := 8, width := 1, acc := .rwx, kind := .u 0 1, n1 := 48, s1 := 0x200 }
  | .homeReq => { off := 0x600000, lsb := 9, width := 1, acc := .rwl, reset := 1, kind := .u 0 1, n1 := 48, s1 := 0x200 }
  | .state => { off := 0x600008, lsb := 0, width := 3, acc := .ro, n1 := 48, s1 := 0x200 }
  | .homed => { off := 0x600008, lsb := 3, width := 1, acc := .ro, n1 := 48, s1 := 0x200 }
  | .enOut => { off := 0x600008, lsb := 4, width := 1, acc := .ro, n1 := 48, s1 := 0x200 }
  | .pendLim => { off := 0x600008, lsb := 5, width := 1, acc := .ro, n1 := 48, s1 := 0x200 }
  | .atTarget => { off := 0x600008, lsb := 6, width := 1, acc := .ro, n1 := 48, s1 := 0x200 }
  | .dirOut => { off := 0x600008, lsb := 7, width := 1, acc := .ro, n1 := 48, s1 := 0x200 }
  | .limP => { off := 0x600008, lsb := 8, width := 1, acc := .ro, n1 := 48, s1 := 0x200 }
  | .limN => { off := 0x600008, lsb := 9, width := 1, acc := .ro, n1 := 48, s1 := 0x200 }
  | .homeSw => { off := 0x600008, lsb := 10, width := 1, acc := .ro, n1 := 48, s1 := 0x200 }
  | .cmdErr => { off := 0x600008, lsb := 11, width := 1, acc := .w1c, n1 := 48, s1 := 0x200 }
  | .overshoot => { off := 0x600008, lsb := 12, width := 1, acc := .w1c, n1 := 48, s1 := 0x200 }
  | .limEv => { off := 0x600008, lsb := 13, width := 1, acc := .w1c, n1 := 48, s1 := 0x200 }
  | .devWarnEv => { off := 0x600008, lsb := 14, width := 1, acc := .w1c, n1 := 48, s1 := 0x200 }
  | .devEv => { off := 0x600008, lsb := 15, width := 1, acc := .w1c, n1 := 48, s1 := 0x200 }
  | .stallEv => { off := 0x600008, lsb := 16, width := 1, acc := .w1c, n1 := 48, s1 := 0x200 }
  | .dirErr => { off := 0x600008, lsb := 17, width := 1, acc := .w1c, n1 := 48, s1 := 0x200 }
  | .encErr => { off := 0x600008, lsb := 18, width := 1, acc := .w1c, n1 := 48, s1 := 0x200 }
  | .segClamp => { off := 0x600008, lsb := 19, width := 1, acc := .w1c, n1 := 48, s1 := 0x200 }
  | .segEmpty => { off := 0x600008, lsb := 20, width := 1, acc := .w1c, n1 := 48, s1 := 0x200 }
  | .moveDone => { off := 0x600008, lsb := 21, width := 1, acc := .w1c, n1 := 48, s1 := 0x200 }
  | .cmdCause => { off := 0x600008, lsb := 22, width := 3, acc := .ro, n1 := 48, s1 := 0x200 }
  | .stepw => { off := 0x60000C, lsb := 0, width := 8, acc := .rwl, reset := 2, kind := .u 2 50, n1 := 48, s1 := 0x200 }
  | .dirset => { off := 0x60000C, lsb := 8, width := 8, acc := .rwl, reset := 10, kind := .u 1 255, n1 := 48, s1 := 0x200 }
  | .target => { off := 0x600010, lsb := 0, width := 48, acc := .rw, kind := .s (-140737488355328) 140737488355327, n1 := 48, s1 := 0x200 }
  | .jogvel => { off := 0x600018, lsb := 0, width := 32, acc := .rw, kind := .s (-429496729) 429496729, n1 := 48, s1 := 0x200 }
  | .creep => { off := 0x60001C, lsb := 0, width := 32, acc := .rwx, reset := 1048576, kind := .u 1 429496729, n1 := 48, s1 := 0x200 }
  | .vmax => { off := 0x600020, lsb := 0, width := 32, acc := .rwx, kind := .u 0 6553, n1 := 48, s1 := 0x200 }
  | .amax => { off := 0x600024, lsb := 0, width := 32, acc := .rwx, kind := .u 0 4294967295, n1 := 48, s1 := 0x200 }
  | .dmax => { off := 0x600028, lsb := 0, width := 32, acc := .rwx, kind := .u 0 4294967295, n1 := 48, s1 := 0x200 }
  | .jmax => { off := 0x60002C, lsb := 0, width := 32, acc := .rwx, kind := .u 0 4294967295, n1 := 48, s1 := 0x200 }
  | .qdec => { off := 0x600030, lsb := 0, width := 32, acc := .rwx, kind := .u 0 4294967295, n1 := 48, s1 := 0x200 }
  | .limdec => { off := 0x600034, lsb := 0, width := 32, acc := .rwx, kind := .u 0 4294967295, n1 := 48, s1 := 0x200 }
  | .slimp => { off := 0x600038, lsb := 0, width := 48, acc := .rwx, kind := .s (-140737488355328) 140737488355327, n1 := 48, s1 := 0x200 }
  | .slimn => { off := 0x600040, lsb := 0, width := 48, acc := .rwx, kind := .s (-140737488355328) 140737488355327, n1 := 48, s1 := 0x200 }
  | .cmdpos => { off := 0x600048, lsb := 0, width := 48, acc := .ro, kind := .s (-140737488355328) 140737488355327, n1 := 48, s1 := 0x200 }
  | .actpos => { off := 0x600050, lsb := 0, width := 48, acc := .ro, kind := .s (-140737488355328) 140737488355327, n1 := 48, s1 := 0x200 }
  | .vel => { off := 0x600058, lsb := 0, width := 32, acc := .ro, kind := .s (-2147483648) 2147483647, n1 := 48, s1 := 0x200 }
  | .acc => { off := 0x60005C, lsb := 0, width := 32, acc := .ro, kind := .s (-2147483648) 2147483647, n1 := 48, s1 := 0x200 }
  | .vest => { off := 0x600060, lsb := 0, width := 32, acc := .ro, kind := .s (-2147483648) 2147483647, n1 := 48, s1 := 0x200 }
  | .dev => { off := 0x600064, lsb := 0, width := 32, acc := .ro, kind := .s (-2147483648) 2147483647, n1 := 48, s1 := 0x200 }
  | .encMode => { off := 0x600068, lsb := 0, width := 2, acc := .rwl, kind := .e [0, 1, 2], n1 := 48, s1 := 0x200 }
  | .encFilt => { off := 0x600068, lsb := 2, width := 3, acc := .rwx, reset := 2, kind := .u 0 7, n1 := 48, s1 := 0x200 }
  | .encInv => { off := 0x600068, lsb := 5, width := 1, acc := .rwl, kind := .u 0 1, n1 := 48, s1 := 0x200 }
  | .hyst => { off := 0x600068, lsb := 8, width := 6, acc := .rwx, reset := 2, kind := .u 0 63, n1 := 48, s1 := 0x200 }
  | .estWin => { off := 0x600068, lsb := 16, width := 8, acc := .rwx, reset := 10, kind := .u 1 255, n1 := 48, s1 := 0x200 }
  | .num => { off := 0x60006C, lsb := 0, width := 16, acc := .rwl, reset := 1, kind := .s (-32768) 32767, n1 := 48, s1 := 0x200 }
  | .den => { off := 0x60006C, lsb := 16, width := 16, acc := .rwl, reset := 1, kind := .u 1 65535, n1 := 48, s1 := 0x200 }
  | .devWarn => { off := 0x600070, lsb := 0, width := 16, acc := .rwx, kind := .u 0 65535, n1 := 48, s1 := 0x200 }
  | .devLim => { off := 0x600070, lsb := 16, width := 16, acc := .rwx, kind := .u 0 65535, n1 := 48, s1 := 0x200 }
  | .stallV => { off := 0x600074, lsb := 0, width := 16, acc := .rwx, kind := .u 0 65535, n1 := 48, s1 := 0x200 }
  | .stallT => { off := 0x600074, lsb := 16, width := 16, acc := .rwx, kind := .u 0 65535, n1 := 48, s1 := 0x200 }
  | .dirchk => { off := 0x600078, lsb := 0, width := 16, acc := .rwx, reset := 64, kind := .u 0 65535, n1 := 48, s1 := 0x200 }
  | .method => { off := 0x60007C, lsb := 0, width := 3, acc := .rwl, kind := .e [0, 1, 2, 3, 4, 5, 6], n1 := 48, s1 := 0x200 }
  | .hdir => { off := 0x60007C, lsb := 3, width := 1, acc := .rwl, kind := .u 0 1, n1 := 48, s1 := 0x200 }
  | .hedge => { off := 0x60007C, lsb := 4, width := 1, acc := .rwl, kind := .u 0 1, n1 := 48, s1 := 0x200 }
  | .hvel => { off := 0x600080, lsb := 0, width := 32, acc := .rwx, kind := .u 0 4294967295, n1 := 48, s1 := 0x200 }
  | .hvel2 => { off := 0x600084, lsb := 0, width := 32, acc := .rwx, kind := .u 0 4294967295, n1 := 48, s1 := 0x200 }
  | .hoffset => { off := 0x600088, lsb := 0, width := 48, acc := .rwx, kind := .s (-140737488355328) 140737488355327, n1 := 48, s1 := 0x200 }
  | .hpos => { off := 0x600090, lsb := 0, width := 48, acc := .rwx, kind := .s (-140737488355328) 140737488355327, n1 := 48, s1 := 0x200 }
  | .hmaxdist => { off := 0x600098, lsb := 0, width := 32, acc := .rwx, kind := .u 0 4294967295, n1 := 48, s1 := 0x200 }
  | .hqual => { off := 0x60009C, lsb := 0, width := 16, acc := .rwx, reset := 200, kind := .u 0 65535, n1 := 48, s1 := 0x200 }
  | .lqual => { off := 0x60009C, lsb := 16, width := 16, acc := .rwx, reset := 10, kind := .u 0 65535, n1 := 48, s1 := 0x200 }
  | .hstate => { off := 0x6000A0, lsb := 0, width := 4, acc := .ro, n1 := 48, s1 := 0x200 }
  | .hcause => { off := 0x6000A0, lsb := 4, width := 4, acc := .ro, n1 := 48, s1 := 0x200 }
  | .hedges => { off := 0x6000A0, lsb := 16, width := 8, acc := .ro, n1 := 48, s1 := 0x200 }
  | .hchatter => { off := 0x6000A0, lsb := 24, width := 8, acc := .ro, n1 := 48, s1 := 0x200 }
  | .hlatch => { off := 0x6000A8, lsb := 0, width := 48, acc := .ro, kind := .s (-140737488355328) 140737488355327, n1 := 48, s1 := 0x200 }
  | .hlatcha => { off := 0x6000B0, lsb := 0, width := 48, acc := .ro, kind := .s (-140737488355328) 140737488355327, n1 := 48, s1 := 0x200 }
  | .latchSrc => { off := 0x6000B8, lsb := 0, width := 2, acc := .rw, kind := .e [0, 1, 2], n1 := 48, s1 := 0x200, n3 := 2, b3 := 8 }
  | .latchEdge => { off := 0x6000B8, lsb := 2, width := 1, acc := .rw, kind := .u 0 1, n1 := 48, s1 := 0x200, n3 := 2, b3 := 8 }
  | .latchActual => { off := 0x6000B8, lsb := 3, width := 1, acc := .rw, kind := .u 0 1, n1 := 48, s1 := 0x200, n3 := 2, b3 := 8 }
  | .latchValid => { off := 0x6000B8, lsb := 5, width := 1, acc := .ro, n1 := 48, s1 := 0x200, n3 := 2, b3 := 8 }
  | .latchPos => { off := 0x6000C0, lsb := 0, width := 48, acc := .ro, kind := .s (-140737488355328) 140737488355327, n1 := 48, s1 := 0x200, n2 := 2, s2 := 8 }
  | .setpos => { off := 0x6000D0, lsb := 0, width := 48, acc := .rw, kind := .s (-140737488355328) 140737488355327, n1 := 48, s1 := 0x200 }
  | .master => { off := 0x6000D8, lsb := 0, width := 6, acc := .rwl, kind := .u 0 47, n1 := 48, s1 := 0x200 }
  | .gratio => { off := 0x6000DC, lsb := 0, width := 32, acc := .rwx, kind := .s (-2147483648) 2147483647, n1 := 48, s1 := 0x200 }
  | .held => { off := 0x6000EC, lsb := 0, width := 16, acc := .ro, n1 := 48, s1 := 0x200 }
  | .encErrCnt => { off := 0x6000EC, lsb := 16, width := 16, acc := .ro, n1 := 48, s1 := 0x200 }

/-- Every field of the MOT block, in table order. -/
def MotF.all : List MotF := [
  .planOvr, .axtype, .stepmode, .dirInv, .encEn, .mode, .noOvershoot, .slimEn, .homeReq, .state, .homed, .enOut,
  .pendLim, .atTarget, .dirOut, .limP, .limN, .homeSw, .cmdErr, .overshoot, .limEv, .devWarnEv, .devEv, .stallEv,
  .dirErr, .encErr, .segClamp, .segEmpty, .moveDone, .cmdCause, .stepw, .dirset, .target, .jogvel, .creep, .vmax,
  .amax, .dmax, .jmax, .qdec, .limdec, .slimp, .slimn, .cmdpos, .actpos, .vel, .acc, .vest, .dev, .encMode, .encFilt,
  .encInv, .hyst, .estWin, .num, .den, .devWarn, .devLim, .stallV, .stallT, .dirchk, .method, .hdir, .hedge, .hvel,
  .hvel2, .hoffset, .hpos, .hmaxdist, .hqual, .lqual, .hstate, .hcause, .hedges, .hchatter, .hlatch, .hlatcha,
  .latchSrc, .latchEdge, .latchActual, .latchValid, .latchPos, .setpos, .master, .gratio, .held, .encErrCnt]

/-- The field table of the CLE block (R257): place, access code, reset value and hardware range. -/
def CleF.row : CleF → Row
  | .ovrAny => { off := 0x708000, lsb := 0, width := 1, acc := .w1c }
  | .schedLoad => { off := 0x708000, lsb := 8, width := 6, acc := .ro }
  | .tslot => { off := 0x708020, lsb := 3, width := 7, acc := .rw, kind := .u 0 127 }
  | .trigSrc => { off := 0x708020, lsb := 10, width := 3, acc := .rw, kind := .e [0, 1, 2, 3] }
  | .pre => { off := 0x708020, lsb := 16, width := 14, acc := .rw, kind := .u 0 16383 }
  | .cstate => { off := 0x708024, lsb := 0, width := 2, acc := .ro }
  | .capCount => { off := 0x708024, lsb := 2, width := 15, acc := .ro }
  | .capDoneEv => { off := 0x708024, lsb := 17, width := 1, acc := .w1c }
  | .trigidx => { off := 0x708024, lsb := 18, width := 14, acc := .ro }
  | .captime => { off := 0x708028, lsb := 0, width := 64, acc := .ro }
  | .capSlot => { off := 0x708030, lsb := 0, width := 7, acc := .rwl, kind := .u 0 127, n2 := 4, s2 := 4 }
  | .capSignal => { off := 0x708030, lsb := 8, width := 3, acc := .rwl, kind := .u 0 7, n2 := 4, s2 := 4 }
  | .capEn => { off := 0x708030, lsb := 31, width := 1, acc := .rwl, kind := .u 0 1, n2 := 4, s2 := 4 }
  | .period => { off := 0x700000, lsb := 0, width := 4, acc := .rwl, reset := 9, kind := .e [0, 1, 2, 3, 4, 5, 6, 7, 8, 9], n1 := 128, s1 := 0x100 }
  | .notchPos => { off := 0x700000, lsb := 4, width := 2, acc := .rwx, kind := .e [0, 1, 2], n1 := 128, s1 := 0x100, latch := .shadow }
  | .notchTrack => { off := 0x700000, lsb := 6, width := 1, acc := .rwx, kind := .u 0 1, n1 := 128, s1 := 0x100, latch := .shadow }
  | .fbEn => { off := 0x700000, lsb := 7, width := 1, acc := .rwl, kind := .u 0 1, n1 := 128, s1 := 0x100 }
  | .fbMode => { off := 0x700000, lsb := 8, width := 1, acc := .rwl, kind := .u 0 1, n1 := 128, s1 := 0x100 }
  | .trimEn => { off := 0x700000, lsb := 9, width := 1, acc := .rwl, kind := .u 0 1, n1 := 128, s1 := 0x100 }
  | .slotEn => { off := 0x700000, lsb := 10, width := 1, acc := .rwl, kind := .u 0 1, n1 := 128, s1 := 0x100 }
  | .spsrc => { off := 0x700000, lsb := 11, width := 2, acc := .rwl, kind := .e [0, 1, 2], n1 := 128, s1 := 0x100 }
  | .ffaxis => { off := 0x700000, lsb := 13, width := 6, acc := .rwl, kind := .u 0 47, n1 := 128, s1 := 0x100 }
  | .trimSlot => { off := 0x700000, lsb := 19, width := 7, acc := .rwl, kind := .u 0 127, n1 := 128, s1 := 0x100 }
  | .ffEn => { off := 0x700000, lsb := 26, width := 1, acc := .rwl, kind := .u 0 1, n1 := 128, s1 := 0x100 }
  | .state => { off := 0x700008, lsb := 0, width := 3, acc := .ro, n1 := 128, s1 := 0x100 }
  | .resumePend => { off := 0x700008, lsb := 4, width := 1, acc := .ro, n1 := 128, s1 := 0x100 }
  | .injAct => { off := 0x700008, lsb := 5, width := 1, acc := .ro, n1 := 128, s1 := 0x100 }
  | .sat => { off := 0x700008, lsb := 6, width := 1, acc := .ro, n1 := 128, s1 := 0x100 }
  | .plausible => { off := 0x700008, lsb := 7, width := 1, acc := .ro, n1 := 128, s1 := 0x100 }
  | .ovr => { off := 0x700008, lsb := 8, width := 1, acc := .w1c, n1 := 128, s1 := 0x100 }
  | .pfailEv => { off := 0x700008, lsb := 9, width := 1, acc := .w1c, n1 := 128, s1 := 0x100 }
  | .fbEv => { off := 0x700008, lsb := 10, width := 1, acc := .w1c, n1 := 128, s1 := 0x100 }
  | .fbtoEv => { off := 0x700008, lsb := 11, width := 1, acc := .w1c, n1 := 128, s1 := 0x100 }
  | .satEv => { off := 0x700008, lsb := 12, width := 1, acc := .w1c, n1 := 128, s1 := 0x100 }
  | .notchAlias => { off := 0x700008, lsb := 13, width := 1, acc := .w1c, n1 := 128, s1 := 0x100 }
  | .presetClamp => { off := 0x700008, lsb := 14, width := 1, acc := .w1c, n1 := 128, s1 := 0x100 }
  | .cmdErr => { off := 0x700008, lsb := 15, width := 1, acc := .w1c, n1 := 128, s1 := 0x100 }
  | .cmdCause => { off := 0x700008, lsb := 16, width := 3, acc := .ro, n1 := 128, s1 := 0x100 }
  | .fcause => { off := 0x700008, lsb := 19, width := 3, acc := .ro, n1 := 128, s1 := 0x100 }
  | .initPend => { off := 0x700008, lsb := 22, width := 1, acc := .ro, n1 := 128, s1 := 0x100 }
  | .srcKind => { off := 0x70000C, lsb := 0, width := 4, acc := .rwl, kind := .e [0, 1, 2, 3, 4, 5, 6, 7, 8, 9], n1 := 128, s1 := 0x100 }
  | .srcIndex => { off := 0x70000C, lsb := 4, width := 7, acc := .rwl, kind := .u 0 127, n1 := 128, s1 := 0x100 }
  | .staleN => { off := 0x70000C, lsb := 16, width := 8, acc := .rwx, reset := 4, kind := .u 0 255, n1 := 128, s1 := 0x100 }
  | .outKind => { off := 0x700010, lsb := 0, width := 2, acc := .rwl, kind := .e [0, 1, 2, 3], n1 := 128, s1 := 0x100 }
  | .outIndex => { off := 0x700010, lsb := 2, width := 8, acc := .rwl, kind := .u 0 255, n1 := 128, s1 := 0x100 }
  | .pwmPer => { off := 0x700010, lsb := 16, width := 16, acc := .rwl, reset := 199, kind := .u 199 65535, n1 := 128, s1 := 0x100 }
  | .ingain => { off := 0x700014, lsb := 0, width := 32, acc := .rwx, reset := 16777216, kind := .s (-2147483648) 2147483647, n1 := 128, s1 := 0x100, latch := .shadow }
  | .inofs => { off := 0x700018, lsb := 0, width := 32, acc := .rwx, kind := .s (-2147483648) 2147483647, n1 := 128, s1 := 0x100, latch := .shadow }
  | .sp => { off := 0x70001C, lsb := 0, width := 32, acc := .rw, kind := .s (-2147483648) 2147483647, n1 := 128, s1 := 0x100 }
  | .sprate => { off := 0x700020, lsb := 0, width := 32, acc := .rwx, kind := .s (-2147483648) 2147483647, n1 := 128, s1 := 0x100, latch := .shadow }
  | .kp => { off := 0x700024, lsb := 0, width := 32, acc := .rwx, kind := .s (-2147483648) 2147483647, n1 := 128, s1 := 0x100, latch := .shadow }
  | .ki => { off := 0x700028, lsb := 0, width := 32, acc := .rwx, kind := .s (-2147483648) 2147483647, n1 := 128, s1 := 0x100, latch := .shadow }
  | .kd => { off := 0x70002C, lsb := 0, width := 32, acc := .rwx, kind := .s (-2147483648) 2147483647, n1 := 128, s1 := 0x100, latch := .shadow }
  | .df => { off := 0x700030, lsb := 0, width := 32, acc := .rwx, reset := 1073741824, kind := .s (1) 0x40000000, n1 := 128, s1 := 0x100, latch := .shadow }
  | .kv => { off := 0x700034, lsb := 0, width := 32, acc := .rwx, kind := .s (-2147483648) 2147483647, n1 := 128, s1 := 0x100, latch := .shadow }
  | .kaff => { off := 0x700038, lsb := 0, width := 32, acc := .rwx, kind := .s (-2147483648) 2147483647, n1 := 128, s1 := 0x100, latch := .shadow }
  | .ubias => { off := 0x70003C, lsb := 0, width := 32, acc := .rwx, kind := .s (-2147483648) 2147483647, n1 := 128, s1 := 0x100, latch := .shadow }
  | .umin => { off := 0x700040, lsb := 0, width := 32, acc := .rwx, kind := .s (-2147483648) 2147483647, n1 := 128, s1 := 0x100, latch := .shadow }
  | .umax => { off := 0x700044, lsb := 0, width := 32, acc := .rwx, reset := 1073741824, kind := .s (-2147483648) 2147483647, n1 := 128, s1 := 0x100, latch := .shadow }
  | .urate => { off := 0x700048, lsb := 0, width := 32, acc := .rwx, kind := .s (-2147483648) 2147483647, n1 := 128, s1 := 0x100, latch := .shadow }
  | .usafe => { off := 0x70004C, lsb := 0, width := 32, acc := .rwl, kind := .s (-2147483648) 2147483647, n1 := 128, s1 := 0x100 }
  | .uman => { off := 0x700050, lsb := 0, width := 32, acc := .rw, kind := .s (-2147483648) 2147483647, n1 := 128, s1 := 0x100 }
  | .preset => { off := 0x700054, lsb := 0, width := 32, acc := .rw, kind := .s (-2147483648) 2147483647, n1 := 128, s1 := 0x100 }
  | .nw => { off := 0x700058, lsb := 0, width := 16, acc := .rwx, kind := .u 0 65535, n1 := 128, s1 := 0x100, latch := .shadow }
  | .harm => { off := 0x700058, lsb := 16, width := 3, acc := .rwx, reset := 1, kind := .u 1 4, n1 := 128, s1 := 0x100, latch := .shadow }
  | .nstn => { off := 0x700058, lsb := 20, width := 3, acc := .rwx, kind := .u 0 7, n1 := 128, s1 := 0x100, latch := .shadow }
  | .notchc => { off := 0x70005C, lsb := 0, width := 32, acc := .rwx, kind := .s (-0x40000000) 0x40000000, n1 := 128, s1 := 0x100, latch := .shadow }
  | .mk => { off := 0x700060, lsb := 0, width := 32, acc := .rwx, kind := .s (-2147483648) 2147483647, n1 := 128, s1 := 0x100, latch := .shadow }
  | .ma => { off := 0x700064, lsb := 0, width := 32, acc := .rwx, kind := .s (0) 0x40000000, n1 := 128, s1 := 0x100, latch := .shadow }
  | .mb => { off := 0x700068, lsb := 0, width := 32, acc := .rwx, kind := .s (-2147483648) 2147483647, n1 := 128, s1 := 0x100, latch := .shadow }
  | .ml => { off := 0x70006C, lsb := 0, width := 32, acc := .rwx, kind := .s (0) 0x40000000, n1 := 128, s1 := 0x100, latch := .shadow }
  | .plim => { off := 0x700070, lsb := 0, width := 16, acc := .rwx, kind := .u 0 65535, n1 := 128, s1 := 0x100 }
  | .pn => { off := 0x700070, lsb := 16, width := 8, acc := .rwx, reset := 3, kind := .u 1 255, n1 := 128, s1 := 0x100 }
  | .satN => { off := 0x700070, lsb := 24, width := 8, acc := .rwx, kind := .u 0 255, n1 := 128, s1 := 0x100 }
  | .fbTmax => { off := 0x700074, lsb := 0, width := 16, acc := .rwx, reset := 2000, kind := .u 10 60000, n1 := 128, s1 := 0x100 }
  | .fbkp => { off := 0x700078, lsb := 0, width := 32, acc := .rwx, kind := .s (-2147483648) 2147483647, n1 := 128, s1 := 0x100, latch := .shadow }
  | .injType => { off := 0x700080, lsb := 0, width := 2, acc := .rw, kind := .u 0 3, n1 := 128, s1 := 0x100 }
  | .injPoint => { off := 0x700080, lsb := 2, width := 1, acc := .rw, kind := .u 0 1, n1 := 128, s1 := 0x100 }
  | .injDuration => { off := 0x700080, lsb := 16, width := 16, acc := .rw, kind := .u 0 65535, n1 := 128, s1 := 0x100 }
  | .injamp => { off := 0x700084, lsb := 0, width := 32, acc := .rw, kind := .s (0) 0x40000000, n1 := 128, s1 := 0x100 }
  | .injper => { off := 0x700088, lsb := 0, width := 16, acc := .rw, kind := .u 1 65535, n1 := 128, s1 := 0x100 }
  | .yOut => { off := 0x700090, lsb := 0, width := 32, acc := .ro, kind := .s (-2147483648) 2147483647, n1 := 128, s1 := 0x100 }
  | .rOut => { off := 0x700094, lsb := 0, width := 32, acc := .ro, kind := .s (-2147483648) 2147483647, n1 := 128, s1 := 0x100 }
  | .eOut => { off := 0x700098, lsb := 0, width := 32, acc := .ro, kind := .s (-2147483648) 2147483647, n1 := 128, s1 := 0x100 }
  | .uOut => { off := 0x70009C, lsb := 0, width := 32, acc := .ro, kind := .s (-2147483648) 2147483647, n1 := 128, s1 := 0x100 }
  | .iOut => { off := 0x7000A0, lsb := 0, width := 48, acc := .ro, kind := .s (-140737488355328) 140737488355327, n1 := 128, s1 := 0x100 }
  | .ymOut => { off := 0x7000A8, lsb := 0, width := 32, acc := .ro, kind := .s (-2147483648) 2147483647, n1 := 128, s1 := 0x100 }
  | .residOut => { off := 0x7000AC, lsb := 0, width := 32, acc := .ro, kind := .s (-2147483648) 2147483647, n1 := 128, s1 := 0x100 }
  | .cntOvr => { off := 0x7000B0, lsb := 0, width := 16, acc := .ro, n1 := 128, s1 := 0x100 }
  | .cntSuspect => { off := 0x7000B0, lsb := 16, width := 16, acc := .ro, n1 := 128, s1 := 0x100 }
  | .schedPhase => { off := 0x7000B4, lsb := 0, width := 10, acc := .ro, n1 := 128, s1 := 0x100 }
  | .schedPos => { off := 0x7000B4, lsb := 10, width := 6, acc := .ro, n1 := 128, s1 := 0x100 }
  | .fbtime => { off := 0x7000B8, lsb := 0, width := 32, acc := .ro, n1 := 128, s1 := 0x100 }

/-- Every field of the CLE block, in table order. -/
def CleF.all : List CleF := [
  .ovrAny, .schedLoad, .tslot, .trigSrc, .pre, .cstate, .capCount, .capDoneEv, .trigidx, .captime, .capSlot,
  .capSignal, .capEn, .period, .notchPos, .notchTrack, .fbEn, .fbMode, .trimEn, .slotEn, .spsrc, .ffaxis, .trimSlot,
  .ffEn, .state, .resumePend, .injAct, .sat, .plausible, .ovr, .pfailEv, .fbEv, .fbtoEv, .satEv, .notchAlias,
  .presetClamp, .cmdErr, .cmdCause, .fcause, .initPend, .srcKind, .srcIndex, .staleN, .outKind, .outIndex, .pwmPer,
  .ingain, .inofs, .sp, .sprate, .kp, .ki, .kd, .df, .kv, .kaff, .ubias, .umin, .umax, .urate, .usafe, .uman,
  .preset, .nw, .harm, .nstn, .notchc, .mk, .ma, .mb, .ml, .plim, .pn, .satN, .fbTmax, .fbkp, .injType, .injPoint,
  .injDuration, .injamp, .injper, .yOut, .rOut, .eOut, .uOut, .iOut, .ymOut, .residOut, .cntOvr, .cntSuspect,
  .schedPhase, .schedPos, .fbtime]

/-- The field table of the FHV block (R276): place, access code, reset value and hardware range. -/
def FhvF.row : FhvF → Row
  | .mainsOk => { off := 0x800000, lsb := 0, width := 1, acc := .ro }
  | .mainsLost => { off := 0x800000, lsb := 1, width := 1, acc := .w1c }
  | .zcGlitch => { off := 0x800000, lsb := 16, width := 16, acc := .ro }
  | .vnom => { off := 0x800004, lsb := 0, width := 12, acc := .rwl, reset := 2300, kind := .u 850 2650 }
  | .zcOfs => { off := 0x800004, lsb := 12, width := 12, acc := .rwl, kind := .s (-2048) 2047 }
  | .mainsFf => { off := 0x800004, lsb := 24, width := 1, acc := .rwl, kind := .u 0 1 }
  | .vrms => { off := 0x800008, lsb := 0, width := 12, acc := .ro }
  | .freq => { off := 0x800008, lsb := 16, width := 12, acc := .ro }
  | .halfper => { off := 0x80000C, lsb := 0, width := 24, acc := .ro }
  | .zc => { off := 0x800010, lsb := 0, width := 64, acc := .ro }
  | .hMode => { off := 0x800100, lsb := 0, width := 1, acc := .rwl, kind := .u 0 1, n2 := 8, s2 := 32 }
  | .dcBal => { off := 0x800100, lsb := 1, width := 1, acc := .rwl, reset := 1, kind := .u 0 1, n2 := 8, s2 := 32 }
  | .phsel => { off := 0x800100, lsb := 2, width := 2, acc := .rwl, kind := .e [0, 1, 2], n2 := 8, s2 := 32 }
  | .gateEnd => { off := 0x800100, lsb := 4, width := 10, acc := .rwx, reset := 300, kind := .u 50 1000, n2 := 8, s2 := 32 }
  | .gateLead => { off := 0x800100, lsb := 14, width := 10, acc := .rwx, reset := 200, kind := .u 50 1000, n2 := 8, s2 := 32 }
  | .gate => { off := 0x800104, lsb := 0, width := 1, acc := .ro, n2 := 8, s2 := 32 }
  | .hoff => { off := 0x800104, lsb := 1, width := 1, acc := .ro, reset := 1, n2 := 8, s2 := 32 }
  | .otcA => { off := 0x800104, lsb := 2, width := 1, acc := .w1c, n2 := 8, s2 := 32 }
  | .otcB => { off := 0x800104, lsb := 3, width := 1, acc := .w1c, n2 := 8, s2 := 32 }
  | .hduty => { off := 0x800108, lsb := 0, width := 17, acc := .ro, n2 := 8, s2 := 32 }
  | .otcaSel => { off := 0x80010C, lsb := 0, width := 5, acc := .rwl, kind := .e [0, 1, 2, 3, 4, 5, 6, 7, 8, 9, 10, 11, 12, 13, 14, 15, 16, 17, 18, 19, 20, 21, 22, 23, 24], n2 := 8, s2 := 32 }
  | .otcaThr => { off := 0x80010C, lsb := 16, width := 12, acc := .rwl, kind := .u 0 4095, n2 := 8, s2 := 32 }
  | .otcbSel => { off := 0x800110, lsb := 0, width := 5, acc := .rwl, kind := .e [0, 1, 2, 3, 4, 5, 6, 7, 8, 9, 10, 11, 12, 13, 14, 15, 16, 17, 18, 19, 20, 21, 22, 23, 24], n2 := 8, s2 := 32 }
  | .otcbThr => { off := 0x800110, lsb := 16, width := 12, acc := .rwl, kind := .u 0 4095, n2 := 8, s2 := 32 }
  | .tTable => { off := 0x800400, lsb := 0, width := 2, acc := .rwl, kind := .u 0 3, n2 := 16, s2 := 16 }
  | .tCode => { off := 0x800404, lsb := 0, width := 16, acc := .ro, n2 := 16, s2 := 16 }
  | .tOpen => { off := 0x800404, lsb := 16, width := 1, acc := .ro, n2 := 16, s2 := 16 }
  | .tShort => { off := 0x800404, lsb := 17, width := 1, acc := .ro, n2 := 16, s2 := 16 }
  | .tval => { off := 0x800408, lsb := 0, width := 16, acc := .ro, kind := .s (-32768) 32767, n2 := 16, s2 := 16 }
  | .pCode => { off := 0x800600, lsb := 0, width := 16, acc := .ro, kind := .s (-32768) 32767, n2 := 8, s2 := 16 }
  | .pOpen => { off := 0x800600, lsb := 16, width := 1, acc := .ro, n2 := 8, s2 := 16 }
  | .lin => { off := 0x800800, lsb := 0, width := 16, acc := .rwl, kind := .s (-32768) 32767, n1 := 4, s1 := 0x100, n2 := 33, s2 := 4 }
  | .vramp => { off := 0x801000, lsb := 0, width := 12, acc := .rwx, reset := 4, kind := .u 1 4095, n2 := 48, s2 := 32 }
  | .fbHi => { off := 0x801000, lsb := 12, width := 12, acc := .rwl, kind := .u 0 4095, n2 := 48, s2 := 32 }
  | .fbT => { off := 0x801000, lsb := 24, width := 6, acc := .rwx, reset := 10, kind := .u 1 63, n2 := 48, s2 := 32 }
  | .vstate => { off := 0x801004, lsb := 0, width := 2, acc := .ro, n2 := 48, s2 := 32 }
  | .hven => { off := 0x801004, lsb := 2, width := 1, acc := .ro, n2 := 48, s2 := 32 }
  | .fbhiTrip => { off := 0x801004, lsb := 3, width := 1, acc := .w1c, n2 := 48, s2 := 32 }
  | .vref => { off := 0x801008, lsb := 0, width := 12, acc := .ro, n2 := 48, s2 := 32 }
  | .vfb => { off := 0x80100C, lsb := 0, width := 12, acc := .ro, n2 := 48, s2 := 32 }

/-- Every field of the FHV block, in table order. -/
def FhvF.all : List FhvF := [
  .mainsOk, .mainsLost, .zcGlitch, .vnom, .zcOfs, .mainsFf, .vrms, .freq, .halfper, .zc, .hMode, .dcBal, .phsel,
  .gateEnd, .gateLead, .gate, .hoff, .otcA, .otcB, .hduty, .otcaSel, .otcaThr, .otcbSel, .otcbThr, .tTable, .tCode,
  .tOpen, .tShort, .tval, .pCode, .pOpen, .lin, .vramp, .fbHi, .fbT, .vstate, .hven, .fbhiTrip, .vref, .vfb]

/-- The field table of the PTH block (R304): place, access code, reset value and hardware range. -/
def PthF.row : PthF → Row
  | .mode => { off := 0x900000, lsb := 0, width := 1, acc := .rwl, kind := .u 0 1 }
  | .psrc => { off := 0x900000, lsb := 1, width := 1, acc := .rwl, kind := .u 0 1 }
  | .webMode => { off := 0x900000, lsb := 2, width := 1, acc := .rwl, kind := .u 0 1 }
  | .dispMode => { off := 0x900000, lsb := 3, width := 1, acc := .rwl, kind := .u 0 1 }
  | .procAxis => { off := 0x900000, lsb := 4, width := 6, acc := .rwl, kind := .u 0 47 }
  | .pathIncomplete => { off := 0x900004, lsb := 0, width := 1, acc := .ro, reset := 1 }
  | .feedHold => { off := 0x900004, lsb := 1, width := 1, acc := .ro }
  | .overspeed => { off := 0x900004, lsb := 2, width := 1, acc := .w1c }
  | .jam => { off := 0x900004, lsb := 3, width := 1, acc := .w1c }
  | .misfeed => { off := 0x900004, lsb := 4, width := 1, acc := .w1c }
  | .skewEv => { off := 0x900004, lsb := 5, width := 1, acc := .w1c }
  | .lenEv => { off := 0x900004, lsb := 6, width := 1, acc := .w1c }
  | .stray => { off := 0x900004, lsb := 7, width := 1, acc := .w1c }
  | .webBreak => { off := 0x900004, lsb := 8, width := 1, acc := .w1c }
  | .deadline => { off := 0x900004, lsb := 9, width := 1, acc := .w1c }
  | .bkShort => { off := 0x900004, lsb := 10, width := 1, acc := .w1c }
  | .dispLate => { off := 0x900004, lsb := 11, width := 1, acc := .w1c }
  | .boundaryEv => { off := 0x900004, lsb := 12, width := 1, acc := .w1c }
  | .cmdErr => { off := 0x900004, lsb := 13, width := 1, acc := .w1c }
  | .pnum => { off := 0x90000C, lsb := 0, width := 16, acc := .rwl, reset := 1, kind := .s (-32768) 32767 }
  | .pden => { off := 0x90000C, lsb := 16, width := 16, acc := .rwl, reset := 1, kind := .u 1 65535 }
  | .ppos => { off := 0x900010, lsb := 0, width := 48, acc := .ro, kind := .s (-140737488355328) 140737488355327 }
  | .mpos => { off := 0x900018, lsb := 0, width := 48, acc := .ro, kind := .s (-140737488355328) 140737488355327 }
  | .lrate => { off := 0x900020, lsb := 0, width := 19, acc := .ro }
  | .ovs => { off := 0x900024, lsb := 0, width := 8, acc := .rwx, reset := 20, kind := .u 0 100 }
  | .regGate => { off := 0x900028, lsb := 0, width := 20, acc := .rwl, kind := .u 0 1048575 }
  | .regSensor => { off := 0x900028, lsb := 20, width := 5, acc := .rwl, kind := .u 0 31 }
  | .pitch => { off := 0x90002C, lsb := 0, width := 20, acc := .rwx, reset := 1024, kind := .u 1024 1048575 }
  | .feedLead => { off := 0x900030, lsb := 0, width := 20, acc := .rwl, kind := .u 0 1048575 }
  | .feedWin => { off := 0x900034, lsb := 0, width := 16, acc := .rwx, reset := 2400, kind := .u 0 65535 }
  | .retry => { off := 0x900034, lsb := 16, width := 3, acc := .rwx, reset := 1, kind := .u 0 7 }
  | .top => { off := 0x900038, lsb := 0, width := 12, acc := .rwx, kind := .u 0 4095 }
  | .bottom => { off := 0x900038, lsb := 12, width := 12, acc := .rwx, kind := .u 0 4095 }
  | .lenTol => { off := 0x90003C, lsb := 0, width := 12, acc := .rwx, reset := 240, kind := .u 0 4095 }
  | .skewLim => { off := 0x90003C, lsb := 16, width := 8, acc := .rwx, reset := 48, kind := .u 0 255 }
  | .t0Lead => { off := 0x900040, lsb := 0, width := 16, acc := .rwx, reset := 1024, kind := .u 256 65279 }
  | .dlLead => { off := 0x900040, lsb := 16, width := 16, acc := .rwx, reset := 2048, kind := .u 512 65535 }
  | .boundary => { off := 0x900044, lsb := 0, width := 20, acc := .rwl, kind := .u 0 1048575 }
  | .bkextra => { off := 0x900048, lsb := 0, width := 20, acc := .rwx, reset := 512, kind := .u 0 1048575 }
  | .wstate => { off := 0x90004C, lsb := 0, width := 4, acc := .ro }
  | .stopCause => { off := 0x90004C, lsb := 4, width := 3, acc := .ro }
  | .axmask => { off := 0x900050, lsb := 0, width := 32, acc := .rwl, kind := .m 0xFFFFFFFF, n2 := 2, s2 := 4 }
  | .w0 => { off := 0x900058, lsb := 0, width := 48, acc := .ro, kind := .s (-140737488355328) 140737488355327 }
  | .bkdist => { off := 0x900060, lsb := 0, width := 24, acc := .ro }
  | .skipcnt => { off := 0x900064, lsb := 0, width := 32, acc := .ro }
  | .stnpos => { off := 0x900080, lsb := 0, width := 20, acc := .rwl, kind := .u 0 1048575, n2 := 8, s2 := 4 }
  | .stnlast => { off := 0x9000A0, lsb := 0, width := 32, acc := .ro, n2 := 8, s2 := 4 }
  | .outPos => { off := 0x9000C0, lsb := 0, width := 20, acc := .rwl, kind := .u 0 1048575, n2 := 3, s2 := 4 }
  | .exitSensor => { off := 0x9000C0, lsb := 20, width := 5, acc := .rwl, kind := .u 0 31, n2 := 3, s2 := 4 }
  | .exitEn => { off := 0x9000C0, lsb := 25, width := 1, acc := .rwl, kind := .u 0 1, n2 := 3, s2 := 4 }
  | .divPos => { off := 0x9000D4, lsb := 0, width := 20, acc := .rwl, kind := .u 0 1048575, n2 := 2, s2 := 4 }
  | .divLead => { off := 0x9000D4, lsb := 20, width := 12, acc := .rwl, kind := .u 0 4095, n2 := 2, s2 := 4 }
  | .role => { off := 0x900100, lsb := 0, width := 3, acc := .rwl, kind := .e [0, 1, 2, 3, 4], n2 := 32, s2 := 16 }
  | .pol => { off := 0x900100, lsb := 3, width := 1, acc := .rwl, kind := .u 0 1, n2 := 32, s2 := 16 }
  | .routes => { off := 0x900100, lsb := 4, width := 3, acc := .rwl, reset := 7, kind := .m 7, n2 := 32, s2 := 16 }
  | .pair => { off := 0x900100, lsb := 8, width := 5, acc := .rwl, kind := .u 0 31, n2 := 32, s2 := 16 }
  | .pairEn => { off := 0x900100, lsb := 13, width := 1, acc := .rwl, kind := .u 0 1, n2 := 32, s2 := 16 }
  | .squal => { off := 0x900100, lsb := 16, width := 8, acc := .rwx, reset := 5, kind := .u 1 255, n2 := 32, s2 := 16 }
  | .spos => { off := 0x900104, lsb := 0, width := 20, acc := .rwl, kind := .u 0 1048575, n2 := 32, s2 := 16 }
  | .leWin => { off := 0x900108, lsb := 0, width := 16, acc := .rwx, kind := .u 0 65535, n2 := 32, s2 := 16 }
  | .teWin => { off := 0x900108, lsb := 16, width := 16, acc := .rwx, kind := .u 0 65535, n2 := 32, s2 := 16 }
  | .sLevel => { off := 0x90010C, lsb := 0, width := 1, acc := .ro, n2 := 32, s2 := 16 }
  | .sEdges => { off := 0x90010C, lsb := 16, width := 16, acc := .ro, n2 := 32, s2 := 16 }

/-- Every field of the PTH block, in table order. -/
def PthF.all : List PthF := [
  .mode, .psrc, .webMode, .dispMode, .procAxis, .pathIncomplete, .feedHold, .overspeed, .jam, .misfeed, .skewEv,
  .lenEv, .stray, .webBreak, .deadline, .bkShort, .dispLate, .boundaryEv, .cmdErr, .pnum, .pden, .ppos, .mpos,
  .lrate, .ovs, .regGate, .regSensor, .pitch, .feedLead, .feedWin, .retry, .top, .bottom, .lenTol, .skewLim, .t0Lead,
  .dlLead, .boundary, .bkextra, .wstate, .stopCause, .axmask, .w0, .bkdist, .skipcnt, .stnpos, .stnlast, .outPos,
  .exitSensor, .exitEn, .divPos, .divLead, .role, .pol, .routes, .pair, .pairEn, .squal, .spos, .leWin, .teWin,
  .sLevel, .sEdges]

/-- The field table of the EIO block (R468): place, access code, reset value and hardware range. -/
def EioF.row : EioF → Row
  | .func => { off := 0xA00000, lsb := 0, width := 8, acc := .rwl, kind := .e [], n1 := 256, s1 := 0x10 }
  | .unit => { off := 0xA00000, lsb := 8, width := 8, acc := .rwl, kind := .u 0 255, n1 := 256, s1 := 0x10 }
  | .inv => { off := 0xA00004, lsb := 0, width := 1, acc := .rwl, kind := .u 0 1, n1 := 256, s1 := 0x10 }
  | .term => { off := 0xA00004, lsb := 1, width := 1, acc := .rwl, reset := 1, kind := .u 0 1, n1 := 256, s1 := 0x10 }
  | .openChk => { off := 0xA00004, lsb := 2, width := 1, acc := .rwl, kind := .u 0 1, n1 := 256, s1 := 0x10 }
  | .filt => { off := 0xA00004, lsb := 3, width := 4, acc := .rwx, reset := 2, kind := .u 0 15, n1 := 256, s1 := 0x10 }
  | .idxmax => { off := 0xA00004, lsb := 8, width := 8, acc := .rwx, reset := 64, kind := .u 1 255, n1 := 256, s1 := 0x10 }
  | .level => { off := 0xA00008, lsb := 0, width := 1, acc := .ro, n1 := 256, s1 := 0x10 }
  | .lo => { off := 0xA00008, lsb := 1, width := 1, acc := .ro, n1 := 256, s1 := 0x10 }
  | .hi => { off := 0xA00008, lsb := 2, width := 1, acc := .ro, n1 := 256, s1 := 0x10 }
  | .openFlag => { off := 0xA00008, lsb := 3, width := 1, acc := .ro, n1 := 256, s1 := 0x10 }
  | .pair => { off := 0xA00008, lsb := 4, width := 1, acc := .ro, n1 := 256, s1 := 0x10 }
  | .overload => { off := 0xA00008, lsb := 5, width := 1, acc := .w1c, n1 := 256, s1 := 0x10 }

/-- Every field of the EIO block, in table order. -/
def EioF.all : List EioF := [
  .func, .unit, .inv, .term, .openChk, .filt, .idxmax, .level, .lo, .hi, .openFlag, .pair, .overload]

/-- The field table of the CSL block (R324): place, access code, reset value and hardware range. -/
def CslF.row : CslF → Row
  | .pos => { off := 0xB00000, lsb := 0, width := 2, acc := .rwl, kind := .u 0 3 }
  | .nmod => { off := 0xB00000, lsb := 2, width := 2, acc := .rwl, kind := .u 0 3 }
  | .pwrWait => { off := 0xB00000, lsb := 4, width := 1, acc := .rwl, kind := .u 0 1 }
  | .role => { off := 0xB00004, lsb := 0, width := 2, acc := .ro }
  | .roleStrap => { off := 0xB00004, lsb := 2, width := 1, acc := .ro }
  | .tstate => { off := 0xB00004, lsb := 3, width := 2, acc := .ro }
  | .linkaUp => { off := 0xB00004, lsb := 5, width := 1, acc := .ro }
  | .linkbUp => { off := 0xB00004, lsb := 6, width := 1, acc := .ro }
  | .upstream => { off := 0xB00004, lsb := 7, width := 1, acc := .ro }
  | .ringDegraded => { off := 0xB00004, lsb := 8, width := 1, acc := .ro }
  | .partition => { off := 0xB00004, lsb := 9, width := 1, acc := .ro }
  | .masterConflict => { off := 0xB00004, lsb := 10, width := 1, acc := .ro }
  | .posErr => { off := 0xB00004, lsb := 11, width := 1, acc := .ro }
  | .verErr => { off := 0xB00004, lsb := 12, width := 1, acc := .ro }
  | .tagErr => { off := 0xB00004, lsb := 13, width := 1, acc := .w1c }
  | .alignLost => { off := 0xB00004, lsb := 14, width := 1, acc := .w1c }
  | .powerGoSeen => { off := 0xB00004, lsb := 15, width := 1, acc := .ro }
  | .offset => { off := 0xB00008, lsb := 0, width := 24, acc := .ro, kind := .s (-8388608) 8388607 }
  | .delay => { off := 0xB0000C, lsb := 0, width := 16, acc := .ro, n3 := 2, b3 := 16 }
  | .skewtrim => { off := 0xB00010, lsb := 0, width := 16, acc := .rwx, kind := .s (-32768) 32767 }
  | .peersPresent => { off := 0xB00014, lsb := 0, width := 1, acc := .ro, n3 := 4, b3 := 1 }
  | .peersArmed => { off := 0xB00014, lsb := 4, width := 1, acc := .ro, n3 := 4, b3 := 1 }
  | .peersGate => { off := 0xB00014, lsb := 8, width := 1, acc := .ro, n3 := 4, b3 := 1 }
  | .linkerr => { off := 0xB00018, lsb := 0, width := 16, acc := .ro, n3 := 2, b3 := 16 }

/-- Every field of the CSL block, in table order. -/
def CslF.all : List CslF := [
  .pos, .nmod, .pwrWait, .role, .roleStrap, .tstate, .linkaUp, .linkbUp, .upstream, .ringDegraded, .partition,
  .masterConflict, .posErr, .verErr, .tagErr, .alignLost, .powerGoSeen, .offset, .delay, .skewtrim, .peersPresent,
  .peersArmed, .peersGate, .linkerr]

/-- The field table of the MBX block (R437): place, access code, reset value and hardware range. -/
def MbxF.row : MbxF → Row
  | .route => { off := 0xC08000, lsb := 0, width := 4, acc := .rwl, reset := 15, kind := .u 0 15, n2 := 2, s2 := 4, n3 := 8, b3 := 4 }
  | .vector => { off := 0xC00000, lsb := 0, width := 8, acc := .rwl, kind := .u 0 255, n1 := 16, s1 := 0x100 }
  | .irq => { off := 0xC00000, lsb := 8, width := 1, acc := .rwl, kind := .u 0 1, n1 := 16, s1 := 0x100 }
  | .popRefused => { off := 0xC00004, lsb := 7, width := 1, acc := .w1c, n1 := 16, s1 := 0x100 }
  | .ansRefused => { off := 0xC00004, lsb := 8, width := 1, acc := .w1c, n1 := 16, s1 := 0x100 }
  | .lost => { off := 0xC00004, lsb := 16, width := 16, acc := .ro, n1 := 16, s1 := 0x100 }

/-- Every field of the MBX block, in table order. -/
def MbxF.all : List MbxF := [
  .route, .vector, .irq, .popRefused, .ansRefused, .lost]

/-- The row of a field. -/
def Fld.row : Fld → Row
  | .glb f => f.row | .ldr f => f.row | .rstc f => f.row | .pwr f => f.row | .flt f => f.row | .cal f => f.row
  | .dma f => f.row | .cmp f => f.row | .pgs f => f.row | .btu f => f.row | .blk f => f.row | .mot f => f.row
  | .cle f => f.row | .fhv f => f.row | .pth f => f.row | .eio f => f.row | .csl f => f.row | .mbx f => f.row

/-- The block a field belongs to. -/
def Fld.block : Fld → Block
  | .glb _ => .glb | .ldr _ => .ldr | .rstc _ => .rstc | .pwr _ => .pwr | .flt _ => .flt | .cal _ => .cal
  | .dma _ => .dma | .cmp _ => .cmp | .pgs _ => .pgs | .btu _ => .btu | .blk _ => .blk | .mot _ => .mot
  | .cle _ => .cle | .fhv _ => .fhv | .pth _ => .pth | .eio _ => .eio | .csl _ => .csl | .mbx _ => .mbx

/-- The fields of a block, in table order. -/
def Block.fields : Block → List Fld
  | .glb => GlbF.all.map .glb | .ldr => LdrF.all.map .ldr | .rstc => RstcF.all.map .rstc | .pwr => PwrF.all.map .pwr
  | .flt => FltF.all.map .flt | .cal => CalF.all.map .cal | .dma => DmaF.all.map .dma | .cmp => CmpF.all.map .cmp
  | .pgs => PgsF.all.map .pgs | .btu => BtuF.all.map .btu | .blk => BlkF.all.map .blk | .mot => MotF.all.map .mot
  | .cle => CleF.all.map .cle | .fhv => FhvF.all.map .fhv | .pth => PthF.all.map .pth | .eio => EioF.all.map .eio
  | .csl => CslF.all.map .csl | .mbx => MbxF.all.map .mbx

/-- The block whose address range holds a BAR0 offset (R439). -/
def blockAt (addr : Nat) : Option Block :=
  if addr < 0x10000 then some .glb
  else if addr < 0x20000 then some .ldr
  else if addr < 0x30000 then some .rstc
  else if addr < 0x40000 then some .pwr
  else if addr < 0x50000 then some .flt
  else if addr < 0x60000 then some .cal
  else if addr < 0x100000 then none
  else if addr < 0x110000 then some .dma
  else if addr < 0x200000 then none
  else if addr < 0x210000 then some .cmp
  else if addr < 0x300000 then none
  else if addr < 0x310000 then some .pgs
  else if addr < 0x400000 then none
  else if addr < 0x480000 then some .btu
  else if addr < 0x500000 then none
  else if addr < 0x580000 then some .blk
  else if addr < 0x600000 then none
  else if addr < 0x610000 then some .mot
  else if addr < 0x700000 then none
  else if addr < 0x780000 then some .cle
  else if addr < 0x800000 then none
  else if addr < 0x810000 then some .fhv
  else if addr < 0x900000 then none
  else if addr < 0x910000 then some .pth
  else if addr < 0xA00000 then none
  else if addr < 0xA10000 then some .eio
  else if addr < 0xB00000 then none
  else if addr < 0xB10000 then some .csl
  else if addr < 0xC00000 then none
  else if addr < 0xC10000 then some .mbx
  else none

/-- The reset domain of a block. The heartbeat period of GLB is kept apart: it is held in SEQ (R21). -/
def Block.dom : Block → Dom
  | .glb => .host | .ldr => .seq | .rstc => .aon | .pwr => .aon | .flt => .ctl | .cal => .ctl | .dma => .host
  | .cmp => .cmp | .pgs => .mem | .btu => .vid | .blk => .vid | .mot => .mot | .cle => .ctl | .fhv => .ctl
  | .pth => .mot | .eio => .mot | .csl => .csl | .mbx => .host

/-- The reset domain of a field (R21 for GLB_HBPER). -/
def Fld.dom (f : Fld) : Dom :=
  match f with
  | .glb .hbPeriod => .seq
  | f => f.block.dom

/-- The instances of a register row that stand at a BAR0 offset: the register index `o*n2 + m`. -/
def Row.locate (r : Row) (addr : Nat) : Option Nat :=
  if addr < r.off then none
  else
    let d := addr - r.off
    let o := if r.n1 = 1 then 0 else d / r.s1
    let m := if r.n2 = 1 then 0 else (if r.n1 = 1 then d else d % r.s1) / r.s2
    if o < r.n1 ∧ m < r.n2 ∧ r.s1 * o + r.s2 * m = d then some (o * r.n2 + m) else none

/-- One field instance inside the register at an offset: the field, its instance index and its lowest bit. -/
structure Slice where
  fld : Fld
  idx : Nat
  lsb : Nat
  deriving DecidableEq, Repr

/-- The slices of one field in the register at `addr`; a pair answers at its lower offset only. -/
def Fld.slicesAt (f : Fld) (addr : Nat) : List Slice :=
  match f.row.locate addr with
  | none => []
  | some k => (List.range f.row.n3).map fun b => ⟨f, k * f.row.n3 + b, f.row.lsb + f.row.b3 * b⟩

/-- All field instances in the register at a BAR0 offset. -/
def slicesAt (addr : Nat) : List Slice :=
  match blockAt addr with
  | none => []
  | some b => b.fields.flatMap fun f => f.slicesAt addr

/-- The pair whose lower register stands at `addr`, with its instance. -/
def pairAt (addr : Nat) : Option (Fld × Nat) :=
  ((slicesAt addr).find? fun sl => decide (32 < sl.fld.row.width)).map fun sl => (sl.fld, sl.idx)

/-- How many instances a field has. -/
def Fld.count (f : Fld) : Nat := f.row.n1 * f.row.n2 * f.row.n3

/-- The BAR0 offset of the (lower) register of an instance. -/
def Fld.addr (f : Fld) (i : Nat) : Nat :=
  let r := f.row
  let k := i / r.n3
  r.off + r.s1 * (k / r.n2) + r.s2 * (k % r.n2)

/-- The lowest bit of an instance in its register. -/
def Fld.lsbOf (f : Fld) (i : Nat) : Nat := f.row.lsb + f.row.b3 * (i % f.row.n3)

/-- The block instance (station, axis, slot, engine, channel, pin) that an instance of a field belongs to. -/
def Fld.outer (f : Fld) (i : Nat) : Nat := i / (f.row.n2 * f.row.n3)

end Sys2Proof
end

