-- ==== Sys2Proof/Machine/Store.lean ====
section
/-! DEFINITION. Sparse tables as plain data: a list of key and value pairs in which a key that is not listed stands at a
default. Writing the default removes the entry. `Store.set` keeps the list sorted by a code of the key, so that equal
tables are equal lists. -/

namespace Sys2Proof

/-- A sparse table. -/
abbrev Store (κ ν : Type) := List (κ × ν)

/-- The value at a key; `d` where the key is not listed. -/
def Store.get {κ ν : Type} [DecidableEq κ] (d : ν) (k : κ) : Store κ ν → ν
  | [] => d
  | (k', v) :: t => if k' = k then v else Store.get d k t

/-- Put a pair in front of the first entry whose code is larger. -/
def Store.insert {κ ν : Type} (code : κ → Nat) (k : κ) (v : ν) : Store κ ν → Store κ ν
  | [] => [(k, v)]
  | (k', v') :: t => if code k < code k' then (k, v) :: (k', v') :: t else (k', v') :: Store.insert code k v t

/-- Remove a key. -/
def Store.erase {κ ν : Type} [DecidableEq κ] (k : κ) : Store κ ν → Store κ ν
  | [] => []
  | (k', v') :: t => if k' = k then Store.erase k t else (k', v') :: Store.erase k t

/-- Set the value at a key; the default `d` leaves no entry. -/
def Store.set {κ ν : Type} [DecidableEq κ] [DecidableEq ν] (code : κ → Nat) (d : ν) (k : κ) (v : ν)
    (t : Store κ ν) : Store κ ν :=
  if v = d then Store.erase k t else Store.insert code k v (Store.erase k t)

end Sys2Proof
end

