-- ==== Sys2Proof/Machine/State.lean ====
section
/-! DEFINITION. The state of an EX4 module: every register field, every buffer, queue, counter, mode and pin that spec/
gives it, and the queue of commands that are waiting. Plain data throughout. `State.reset` is the module at the release of
the AON domain (power-good of the standby rail): every later step of a start is a command. -/

namespace Sys2Proof.Machine

/-! ### Identity, fuses and straps -/

/-- A key fuse slot (R44). -/
inductive KeySlot where
  | blank
  | programmed (hash : Nat)
  | revoked (hash : Nat)
  deriving DecidableEq, Repr

/-- The fuses that commands can change (R44, R45, R68). -/
structure Fuses where
  slots : List KeySlot
  seccount : Nat
  testLocked : Bool
  deriving DecidableEq, Repr

/-- A fuse command in progress (R68). -/
inductive FuseCmd where
  | programKey (slot : Nat) (hash : Nat)
  | revoke (slot : Nat)
  | advance (target : Nat)
  | lockTest
  deriving DecidableEq, Repr

/-- How the MSEL pin is tied: to VIO33, to ground, or open (R308). -/
inductive Strap where
  | high | low | nc
  deriving DecidableEq, Repr

/-- What is fixed when a module is made and fitted: variant, identity, straps. No command changes it. -/
structure Hardware where
  /-- `true` on an EX4-L, `false` on an EX4-S (R1). -/
  exL : Bool
  /-- GLB_SERIAL (R431). -/
  serial : Nat
  /-- MODULE_REV of GLB_REV (R431). -/
  moduleRev : Nat
  /-- The MSEL strap on J4 (R308). -/
  msel : Strap
  deriving DecidableEq, Repr

/-! ### What leaves the module -/

/-- One thing the module has put out, newest first in `State.out`: bus replies, interrupt messages, words on links, pulses
and levels on pins. The list is the model's own record of outputs. -/
inductive Out where
  /-- An MSI-X message (R427). -/
  | msix (vector : Nat)
  /-- A PCIe completion with Unsupported Request status (R5, R421). -/
  | unsupported
  /-- The value a BAR0 read returned. -/
  | readData (v : Nat)
  /-- The bytes a BAR2 read returned, and whether the completion is poisoned (R96). -/
  | bar2Data (bytes : List Byte) (poisoned : Bool)
  /-- A dropped poisoned write logged under AER (R424). -/
  | aerPoisoned (addr : Nat)
  /-- A correctable or uncorrectable link event logged under AER. -/
  | aer (code : Nat)
  /-- A control beat to the head of a station (R170): the payload bytes of its eight blocks, lane 0 first. -/
  | linkWord (station : Nat) (blocks : List Nat)
  /-- One data beat of a scan (R171): 512 bits, as a number, bit 64 m + i being payload bit i of lane m. -/
  | beat (station : Nat) (bits : Nat)
  /-- A word on the Scejo ports (R309 and after): a kind and its payload. -/
  | scejo (port : Port) (kind : Nat) (payload : List Int)
  /-- A STEP pulse of an axis, of `width` clocks, with the level of DIR (R211, STEPMODE 0). -/
  | stepPulse (axis : Nat) (dir : Bool) (width : Nat)
  /-- A pulse of `width` clocks on the CW output of an axis, or on its CCW output (R211, STEPMODE 1). -/
  | turnPulse (axis : Nat) (ccw : Bool) (width : Nat)
  /-- The two quadrature outputs of an axis after a step (R211, STEPMODE 2). -/
  | quadrature (axis : Nat) (a b : Bool)
  /-- Bytes written to host memory at a PCIe address (R326, R333). -/
  | hostWrite (addr : Nat) (bytes : List Byte)
  /-- A pin level set by a fixed-function output. -/
  | pin (name : Nat) (level : Bool)
  /-- The duty of a slot's PWM output on a pin, in 2^-30, and its period in clocks of 5 ns (R241). -/
  | pwm (pin : Nat) (duty : Int) (period : Nat)
  /-- A HV reference frame (R272): the 12-bit references. -/
  | hvRef (refs : List Nat)
  deriving DecidableEq, Repr

/-! ### The loader (chapter "The Torvul image") -/

/-- An entry of the clamp report (R59). -/
structure Entry where
  cause : Nat
  origin : Nat
  sect : Nat
  feature : Nat
  target : Nat
  lsb : Nat
  width : Nat
  cls : Nat
  requested : Nat
  applied : Nat
  limit : Nat
  winSection : Nat := 0xFFFF
  winFeature : Nat := 0xFFFF
  deriving DecidableEq, Repr

/-- A granted claim of the loaded image (R37, R41). -/
structure Grant where
  cls : Nat
  first : Nat
  cnt : Nat
  sect : Nat
  feature : Nat
  deriving DecidableEq, Repr

/-- A section that the loaded image applied: its type, instance and whether its feature 0 is enabled. -/
structure Applied where
  ty : Nat
  inst : Nat
  feature0 : Bool
  deriving DecidableEq, Repr

/-- The load and arming state machine (R50). -/
inductive LdrState where
  | empty | verifying | applying | loaded | armed | disarming
  deriving DecidableEq, Repr

/-- A commit in progress (R54): the image copied before it began and the flash slot it goes to. -/
structure CommitJob where
  slot : Nat
  image : List Byte
  deriving DecidableEq, Repr

/-- The loader's running state. -/
structure Loader where
  st : LdrState := .empty
  /-- The state before VERIFYING, to which a rejection returns (R50). -/
  prev : LdrState := .empty
  /-- The source being read, coded as SRC 1 to 3. -/
  source : Nat := 0
  /-- Whether the other flash slot may still be tried (R47). -/
  mayFallBack : Bool := false
  /-- Whether the source being read is the second one tried. -/
  second : Bool := false
  /-- The image that passed the checks and is being applied, or was applied last. -/
  image : List Byte := []
  /-- Its source, coded as SRC 1 to 3, and whether it came from the second slot tried. -/
  imageSource : Nat := 0
  imageSecond : Bool := false
  /-- The image most recently loaded from the host staging area (R54). -/
  staged : Option (List Byte) := none
  /-- The files in flash slots 0 and 1; bytes behind the stored ones read 0xFF. -/
  flash0 : List Byte := []
  flash1 : List Byte := []
  /-- A commit to slot 0 or slot 1 runs or was cut short: the image there fails its CRC or signature (R55). -/
  cut0 : Bool := false
  cut1 : Bool := false
  commit : Option CommitJob := none
  /-- The clamp report, in order (R59). -/
  report : List Entry := []
  /-- How many of its entries the last load wrote. -/
  loadEntries : Nat := 0
  /-- STRICT_ARM of the loaded image (R61). -/
  strictArm : Bool := false
  /-- Applying ranges of the fields that the loaded image set (R56): field instance, half (0 whole, 1 lower, 2 upper half of a pair). -/
  ranges : Store ((Fld × Nat) × Nat) (Option Kind) := []
  /-- Values the loaded image gave to fields, restored after a reset of reach 0 or 1 (R408). -/
  written : Store (Fld × Nat) (Option Nat) := []
  grants : List Grant := []
  sections : List Applied := []
  fuseCmd : Option FuseCmd := none
  /-- Engine time at which the load in progress started. -/
  started : Nat := 0
  deriving DecidableEq, Repr

/-! ### Page store, sheet contexts and admission; lanes and jobs; DMA -/

/-- A stored ECC error in one 64-byte burst (R70). `bad` is a double-bit error or a tag mismatch. -/
inductive EccMark where
  | none | single | bad
  deriving DecidableEq, Repr

/-- The band states (R76). -/
inductive BandState where
  | free | filling | checking | verified | failed | incomplete | reclaiming
  deriving DecidableEq, Repr

/-- A band record (R74, R98), with the data the checks of R77 still need. -/
structure Band where
  st : BandState := .free
  ctx : Nat := 0
  plane : Nat := 0
  band : Nat := 0
  hostcomp : Bool := false
  repaired : Bool := false
  storedLen : Nat := 0
  extents : List Nat := []
  rawLen : Nat := 0
  crc : Nat := 0
  /-- CHECK of the descriptor and the CRC-32C of the bytes received. -/
  check : Nat := 0
  crcIn : Nat := 0
  /-- The raw bytes in the lane's compare buffer (EX4-L, R135), until the checks end. -/
  raw : List Byte := []
  /-- The lane that took the band in. -/
  lane : Nat := 0
  /-- A host stream longer than 2,097,151 bytes was cut off (R111). -/
  cut : Bool := false
  deriving DecidableEq, Repr

/-- The sheet context states (R82). -/
inductive CtxState where
  | free | opened | closed | ready | blocked | admitted | imaging | exposed | spoiled | stalled | delivered
  deriving DecidableEq, Repr

/-- The progress of one plane of an admitted context on its station. -/
structure Plane where
  /-- The lines of the plane that have been exposed or passed blank, from the first. -/
  next : Nat := 0
  /-- A line has been exposed. -/
  started : Bool := false
  /-- The plane is finished on its station: its last line exposed or blanked (R85). -/
  done : Bool := false
  /-- The plane is blank from this line on (R92), if it is. -/
  blankFrom : Option Nat := none
  /-- Lines, from the first, that the imaging decompressor has written to Silt (R159). -/
  silt : Nat := 0
  deriving DecidableEq, Repr

/-- A sheet context (R80 to R98). DISP is a register field. -/
structure Ctx where
  st : CtxState := .free
  cause : Nat := 0
  planes : Nat := 0
  res1200 : Bool := false
  lineBytes : Nat := 0
  linesM1 : Nat := 0
  tag : Nat := 0
  verified : List Nat := [0, 0, 0, 0, 0, 0, 0, 0]
  peak : Nat := 0
  seq : Nat := 0
  /-- The context joined the admission queue at its CLOSE and has not left it (R83). -/
  queued : Bool := false
  admitTime : Nat := 0
  lastLine : Nat := 0
  faultBand : Nat := 0
  faultPlane : Nat := 0
  /-- FAULTBAND holds the first failed band: later ones do not replace it (R97). -/
  faulted : Bool := false
  /-- PGS_CTX_PATH (R305): stage, cause, pending spoil. POS is computed from the path when it is read. -/
  stage : Nat := 0
  pcause : Nat := 0
  spoilPend : Bool := false
  /-- The output at which the sheet arrived (R292); `none` until DELIVERED. -/
  output : Option Nat := none
  /-- Spoiled by a reaction of severity 5 or more: it counts as done for R63 (R349). -/
  excused : Bool := false
  /-- CANCEL was given and FILLING bands still run to their end (R82). -/
  cancelled : Bool := false
  /-- In STALLED: whether a line had been exposed when it stalled. -/
  stalledImaging : Bool := false
  prog : List Plane := [{}, {}, {}, {}, {}, {}, {}, {}]
  deriving DecidableEq, Repr

/-- Loam: stored bytes, errors, band index, contexts, queue. -/
structure Loam where
  /-- Stored bytes by usable address, rising, without zeros; an unlisted byte reads 0 (DESIGN CHOICE, log 3). -/
  bytes : List Host.Cell := []
  ecc : Store Nat EccMark := []
  /-- The group the scrub reads next (R71). -/
  scrub : Nat := 0
  bands : Store Nat Band := []
  /-- Band records whose extents are being returned, in order (R84). -/
  reclaim : List Nat := []
  ctxs : Store Nat Ctx := []
  /-- SEQ of the next CLOSE (R83). -/
  nextSeq : Nat := 0
  /-- The path tracker's feed or frame request is pending (R85). -/
  request : Bool := false
  /-- The head was withheld and is not posted again until the next request (R90). -/
  withheld : Bool := false
  /-- The head that the host has admitted while the cascade still has to confirm (R90, R316). -/
  hostOk : Option Nat := none
  /-- DMA channels held for extents or records, oldest first (R79). -/
  held : List Nat := []
  deriving DecidableEq, Repr

/-- A parsed DMA descriptor (R327). -/
structure Desc where
  kind : Nat
  swap : Nat
  irq : Bool
  repair : Bool
  length : Nat
  hostAddr : Nat
  arg0 : Nat
  arg1 : Nat
  check : Nat
  deriving DecidableEq, Repr

/-- How a descriptor ends (R326, R337). -/
structure Ending where
  bad : Bool := false
  cause : Nat := 0
  short : Bool := false
  discard : Bool := false
  deriving DecidableEq, Repr

/-- A DMA channel (R325 to R341). Its registers are fields of the register map. -/
structure Chan where
  base : Nat := 0
  log : Nat := 4
  desc : Option Desc := none
  begun : Bool := false
  /-- The descriptor has ended and waits for its write-back. -/
  ended : Option Ending := none
  /-- Bytes delivered, in address order. -/
  moved : Nat := 0
  /-- The band's bytes received so far, after SWAP. -/
  data : List Byte := []
  recNo : Option Nat := none
  /-- The band's context was cancelled: bytes are read and discarded (R332). -/
  discard : Bool := false
  /-- A peripheral has raised its request (R335). -/
  request : Bool := false
  deriving DecidableEq, Repr

/-- The DMA engine. -/
structure Dma where
  chans : Store Nat Chan := []
  /-- The channel served last, for the round-robin (R334). -/
  last : Nat := 31
  deriving DecidableEq, Repr

/-- One compression lane (R100). -/
structure Lane where
  /-- Channels whose band descriptors wait for the lane, in order of arrival. -/
  queue : List Nat := []
  /-- The channel whose band the lane has taken. -/
  cur : Option Nat := none
  deriving DecidableEq, Repr

/-- A buffer job (R131 to R134). All input read since START is kept, so that a resumed run is the uninterrupted one (R129). -/
structure Job where
  lineBytes : Nat := 0
  lines : Nat := 0
  band : Nat := 0
  input : List Byte := []
  inAddr : Nat := 0
  inLen : Nat := 0
  /-- How many input bytes came before the present region. -/
  inBase : Nat := 0
  outAddr : Nat := 0
  outLen : Nat := 0
  /-- OUT_PRODUCED when the present output region was loaded. -/
  outBase : Nat := 0
  produced : Nat := 0
  /-- Units that the compressor had generated when it last stopped (R126). -/
  gen : Nat := 0
  /-- The input ends at this stream byte because the burst that holds it, named second, is uncorrectable (R70, R123). -/
  bad : Option (Nat × Nat) := none
  deriving DecidableEq, Repr

/-- Compressors and decompressors. -/
structure Cmp where
  lanes : Store Nat Lane := []
  jobs : Store Nat Job := []
  /-- Engines that return to service at the next boundary (R91, R359). -/
  rejoin : List Nat := []
  deriving DecidableEq, Repr

/-! ### Stations: scan timing and beam link -/

/-- A context that a station has to expose (R141 to R143). -/
structure Imaging where
  ctx : Nat
  /-- Engine time in ns at which line 0 reaches beam 0's exposure line, once the path tracker has given it (R142). -/
  t0 : Option Nat := none
  /-- The context's first scan and its line offset, once placed. -/
  j0 : Option Nat := none
  o : Nat := 0
  /-- Web: continue the line numbering of the frame before (R143). -/
  follows : Bool := false
  /-- The context's line that a placement takes as line 0: 0, or the line after the last one fully exposed (R301). -/
  base : Nat := 0
  /-- Process position at t_j0, in 1/256 line (R162). -/
  pos0 : Int := 0
  /-- PHASE_EV was set for this context. -/
  phased : Bool := false
  /-- The context is the one whose half-exposed lines BLK_HALFLINES counts, or was (R193). -/
  half : Bool := false
  deriving DecidableEq, Repr

/-- The running state of a station's beam timing unit. Times are in 20 ps units. -/
structure Stn where
  /-- Number of the next scan (R140). -/
  j : Nat := 0
  /-- Time of the last accepted or bridged SOS; `none` before the first. -/
  sos : Option Nat := none
  /-- Consecutive bridged scans. -/
  misses : Nat := 0
  /-- Facet of the last SOS. -/
  facet : Nat := 0
  /-- Accepted or bridged facet periods, newest first, at most 256. -/
  periods : List Nat := []
  /-- How many periods have been accepted since lock (R475). -/
  sinceLock : Nat := 0
  /-- Facet periods recorded for the signature (R150), oldest first. -/
  record : List Nat := []
  /-- An index pulse has come: the next SOS is facet 0. -/
  index : Bool := false
  queue : List Imaging := []
  /-- P × j0 + o + LINES of the frame placed last, from which the next frame follows (R143). -/
  lastEnd : Option Nat := none
  /-- Drain of the web stop (R299): 0 not begun, 1 the second-pass scan has been sent, 2 BLANK scans. -/
  drain : Nat := 0
  /-- Starts of scan accepted or bridged, for loop slots that read the station (R237). -/
  given : Nat := 0
  /-- The station is being recalibrated (R372). -/
  recal : Bool := false
  /-- SYN_LOCK has been 1 since the last VID reset (R348). -/
  synSeen : Bool := false
  /-- The clamped S_rev, numerator and denominator, kept for the rest of the context that met TRACK_CLAMP (R164). -/
  clamp : Option (Nat × Nat) := none
  deriving DecidableEq, Repr

/-- One beam of a head (R186 to R197). STATE, CAUSE, drives and headroom are register fields. -/
structure Beam where
  /-- Consecutive measurements within TOL at normal and at full level. -/
  okN : Nat := 0
  okF : Nat := 0
  /-- Consecutive weak measurements at DMAX. -/
  weak : Nat := 0
  /-- The head reports a driver fault for the beam. -/
  drv : Bool := false
  /-- The cause R189 gives for the last measurement, or for having none (R187): 2 no emission, 3 weak. -/
  cause : Nat := 2
  /-- OUT is commanded for the next boundary (R196). -/
  outPend : Bool := false
  /-- RETURN measurements are complete; the beam returns at the next boundary (R197). -/
  returnReady : Bool := false
  /-- The row is uncovered (R194) or treated so on the host's answer (R195). -/
  uncovered : Bool := false
  /-- The host answered SPOIL: uncovered from the next boundary. -/
  spoilPend : Bool := false
  deriving DecidableEq, Repr

/-- The running state of a station's beam link port. -/
structure Lnk where
  /-- Timing sets computed at boundary writes and not sent yet, oldest first: the six pages of each (R176). -/
  sets : List (List (List Nat)) := []
  /-- GEN of the newest set sent, of the set the head reports complete, and of the set in use. -/
  gen : Nat := 0
  have_ : Nat := 0
  used : Nat := 0
  /-- GEN of the last SCAN word, or of the first set of a new head. -/
  scanGen : Nat := 0
  /-- The set that the present scans must use is not reported by the head yet (R176). -/
  late : Bool := false
  /-- The die requests LDEN (R199). -/
  request : Bool := false
  /-- A Carabid unit action holds LREADY at 0 (R350). -/
  held : Bool := false
  dmax : Nat := 0
  /-- TURN of the head in ns, and the round trip of the last ECHO in 10 ps, once known (R185). -/
  turn : Option Nat := none
  roundTrip : Option Nat := none
  /-- The beams enabled in the last SCAN words of the context in progress, newest first, at most 17 (R193). -/
  recent : List (List Nat) := []
  /-- SCAN words sent since the last STATUS. -/
  unseen : Nat := 0
  /-- J of the last SCAN word, while its STATUS is awaited, and the contexts it exposed lines of. -/
  lastJ : Option Nat := none
  exposed : List Nat := []
  /-- Scans of the initial APC that have run (R187); `none` when it is not running. -/
  apc : Option Nat := none
  /-- The initial APC has ended since the link last entered STANDBY. -/
  apcDone : Bool := false
  /-- Drive values to send before the next SCAN word: beam, level, value (R177). -/
  drives : List (Nat × Nat × Nat) := []
  /-- The measurement asked for in the last APC_CMD: beam and level. -/
  asked : List (Nat × Nat) := []
  echoTag : Nat := 0
  /-- TEMP of the last STATUS counts as at or above WARN (R198). -/
  hot : Bool := false
  beams : Store Nat Beam := []
  deriving DecidableEq, Repr

/-! ### Mailboxes -/

/-- A post in a mailbox pair (R434). -/
structure Post where
  kind : Nat
  ans : Bool
  unit : Nat
  token : Nat
  etime : Nat
  data : List Nat
  deriving DecidableEq, Repr

/-- A decision that waits for the host (R436). -/
structure Decision where
  pair : Nat
  token : Nat
  kind : Nat
  unit : Nat
  data : List Nat
  deriving DecidableEq, Repr

/-- A post that waits in its function for room or a route (R433, R435). -/
structure Waiting where
  kind : Nat
  unit : Nat
  data : List Nat
  deriving DecidableEq, Repr

/-- The mailboxes (R433 to R436). -/
structure Mbx where
  queues : Store Nat (List Post) := []
  tokens : Store Nat Nat := []
  waiting : List Waiting := []
  decisions : List Decision := []
  deriving DecidableEq, Repr

/-! ### Host interface -/

/-- The PCIe endpoint and MSI-X gating (R420 to R427). -/
structure Pcie where
  linkUp : Bool := false
  d3hot : Bool := false
  msixEnable : Bool := false
  functionMask : Bool := false
  /-- Vectors whose mask bit is clear; every mask bit is set after a reset. -/
  unmasked : List Nat := []
  /-- Vectors whose pending bit is set. -/
  pendingBits : List Nat := []
  /-- A fatal PCIe error is recorded (R425). -/
  fatal : Bool := false
  /-- Max_Payload_Size and Max_Read_Request_Size, which the host sets in configuration space (R420, R333, log 150). -/
  maxPayload : Nat := 256
  maxRead : Nat := 512
  deriving DecidableEq, Repr

/-! ### Motion axes -/

/-- What an axis's planner is doing (R208, R217, R222, R224, R226). -/
inductive Plan where
  | rest | move | jog | gear | stop | quick | limit | seek | seg
  deriving DecidableEq, Repr

/-- The running state of an axis (R207 to R224). Velocity, acceleration and jerk are in 2^-64 step per clock to their power. -/
structure Axis where
  j : Int := 0
  a : Int := 0
  v : Int := 0
  /-- The 48-bit phase accumulator, in 2^-32 step. -/
  phase : Nat := 0
  plan : Plan := .rest
  /-- Target of a position move, in steps. -/
  goal : Int := 0
  /-- The velocity the planner aims at in this tick. -/
  vgoal : Int := 0
  /-- Side of the target the axis comes from: 1 below, -1 above. -/
  side : Int := 0
  /-- The residue of a move is covered at MOT_CREEP (R209). -/
  creeping : Bool := false
  /-- The soft limit that a velocity motion has approached and comes to rest at (R218). -/
  soft : Option Int := none
  /-- The last motion was in the negative direction. -/
  dirNeg : Bool := false
  /-- State of the quadrature outputs (R211), and the edges since the last count of a ×1 encoder (R213). -/
  gray : Nat := 0
  encSub : Nat := 0
  /-- Clocks left of DIRSET, and steps held meanwhile (R212). -/
  hold : Nat := 0
  due : Int := 0
  /-- Host-assisted segments queued, the one running (jerk and ticks left), and the jerk last written (R224). -/
  segs : List (Int × Nat) := []
  seg : Option (Int × Nat) := none
  segj : Int := 0
  /-- Direction state and extremum of R214, and the extremum at the last 255 ticks, newest first. -/
  encRev : Bool := false
  ext : Int := 0
  exts : List Int := []
  /-- Actual position at the last reversal of the command (R215). -/
  revAct : Int := 0
  stallTicks : Nat := 0
  /-- A stop at a hard limit sets LIM_EV when the axis is at rest (R217). -/
  limStop : Bool := false
  /-- Raw levels of the home input and of the limit that method 4 homes on, the candidate positions of the reference, and whether
  this homing has committed one (R220). -/
  homeRaw : Bool := false
  limRaw : Bool := false
  cand : Option (Int × Int) := none
  committed : Bool := false
  /-- Commanded position at HOME, and at the switch latch (R222). -/
  homeFrom : Int := 0
  switchAt : Int := 0
  /-- General latches that are armed (R219). -/
  armed : List Nat := []
  deriving DecidableEq, Repr

/-! ### Loop slots and capture -/

/-- A command that waits in a slot (R245, R253, R256). -/
inductive SlotReq where
  | none | auto | manual
  deriving DecidableEq, Repr

/-- The running state of a slot (R242 to R254). Signals are in 2^-30. STATE, values of the last execution and events are register
fields; the integrator is CLE_I. -/
structure Slot where
  yf : Int := 0
  ym : Int := 0
  /-- Output of the last execution. -/
  last : Int := 0
  /-- Last valid y, before the notch, and the setpoint after its ramp. -/
  yHeld : Int := 0
  ramp : Int := 0
  /-- Executions since the source's last new value, and the source's count of values then. -/
  age : Nat := 0
  seen : Nat := 0
  /-- Consecutive suspect executions, and consecutive executions with a valid input. -/
  suspects : Nat := 0
  good : Nat := 0
  /-- The notch's two state elements (R243), and whether they are to be preset. -/
  n1 : Int := 0
  n2 : Int := 0
  notchNew : Bool := true
  /-- COMMIT and PRESET wait for the next execution. -/
  commit : Bool := false
  preset : Bool := false
  /-- AUTO or MANUAL waits (R253, R256); the slot has come back from isolation; a boundary has passed since. -/
  req : SlotReq := .none
  returned : Bool := false
  bound : Bool := false
  /-- In FAULT after a hold reaction: u is held (R245). -/
  held : Bool := false
  /-- Engine time of the entry into FALLBACK; FBTO_EV was set in this entry. -/
  fbSince : Nat := 0
  fbTold : Bool := false
  /-- Executions in a row at a limit; SAT_EV was set in this episode. -/
  satRun : Nat := 0
  /-- Executions of the running injection, and its shift register. -/
  injK : Nat := 0
  lfsr : Nat := 32767
  inj : Int := 0
  /-- Executions of the slot (for readers of its output), and its output while it last ran (R256). -/
  runs : Nat := 0
  trim : Int := 0
  deriving DecidableEq, Repr

/-- The capture buffer (R255). CSTATE, COUNT, TRIGIDX and CAPTIME are register fields. -/
structure Capture where
  /-- The ring: four samples at each index, raw 32-bit values. -/
  ring : Store Nat (List Nat) := []
  /-- Samples taken since ARM. -/
  taken : Nat := 0
  /-- Samples taken since the trigger sample, it included; `none` before the trigger. -/
  after : Option Nat := none
  /-- The next sample is the trigger sample (FORCE). -/
  force : Bool := false
  /-- Bytes that a DMA channel has taken over. -/
  handed : Nat := 0
  deriving DecidableEq, Repr

/-! ### Fuser and high voltage -/

/-- A heater gate (R265 to R268). -/
structure Heater where
  /-- Burst accumulator in 2^-16, and half-cycles counted with positive and negative sign. -/
  acc : Nat := 0
  pos : Nat := 0
  neg : Nat := 0
  /-- The gate's own next zero crossing, engine time and sign of its half-cycle, while the channel has not met it (R264, R265). -/
  cross : Option (Nat × Bool) := none
  /-- Burst: the half-cycle at hand is on, and the decision for the one to come, once it is made (R267). -/
  on : Bool := false
  next : Option Bool := none
  /-- Sign of the half-cycle at hand. -/
  positive : Bool := false
  /-- Engine times at which the gate is to rise and to fall next (R266, R267). -/
  rise : Option Nat := none
  fall : Option Nat := none
  deriving DecidableEq, Repr

/-- The mains sense, heater gates, temperature inputs and high-voltage channels. -/
structure Fhv where
  /-- The last zero crossing, the last 8 half-periods (newest first) and half-cycles bridged in a row. -/
  zc : Option Nat := none
  halves : List Nat := []
  bridged : Nat := 0
  /-- Crossings accepted in a row with VRMS in range, and complete cycles with VRMS out of range. -/
  good : Nat := 0
  badV : Nat := 0
  /-- Gates may fire: a zero crossing has come since MAINS_OK (R263). -/
  ready : Bool := false
  /-- The present half-cycle is positive. -/
  positive : Bool := false
  heaters : Store Nat Heater := []
  /-- Values delivered by thermistors and thermopiles, and conversions of each thermopile. -/
  tGiven : Store Nat Nat := []
  pGiven : Store Nat Nat := []
  pConv : Store Nat Nat := []
  /-- Consecutive frames at or above FB_HI. -/
  high : Store Nat Nat := []
  deriving DecidableEq, Repr

/-! ### Sheet and web tracking -/

/-- One tracked sheet (R284 to R292). Positions are PTH_MPOS values in 1/256 line. -/
structure Track where
  ctx : Nat
  fedAt : Int := 0
  /-- Feeds that did not register (R289). -/
  misses : Nat := 0
  /-- Position of the registered leading edge, m_r (R285). -/
  origin : Option Int := none
  /-- Measured length in lines. -/
  measured : Option Nat := none
  /-- Output fixed by the diverter decision (R291). -/
  output : Option Nat := none
  diverter : Bool := false
  /-- Stations that have been given t0 (R286). -/
  t0s : List Nat := []
  /-- Qualified leading edges by sensor, with their candidate positions, and sensors with a qualified trailing edge. -/
  leads : List (Nat × Int) := []
  trails : List Nat := []
  /-- The trailing edge has passed PTH_BOUNDARY (R294). -/
  bounded : Bool := false
  /-- The sheet has failed a check; a later failure changes nothing (R289). -/
  failed : Bool := false
  deriving DecidableEq, Repr

/-- A path sensor (R285): its qualified level, and the candidate edge with its position. -/
structure Sensor where
  active : Bool := false
  cand : Option (Bool × Int) := none
  deriving DecidableEq, Repr

/-- One frame on the web (R296): its context and its first web line F_c, negative for a frame from before the last start. -/
structure Frame where
  ctx : Nat
  first : Int
  /-- Its first line has passed PTH_BOUNDARY (R294). -/
  bounded : Bool := false
  deriving DecidableEq, Repr

/-- The path tracker. -/
structure Pth where
  tracks : List Track := []
  sensors : Store Nat Sensor := []
  /-- PTH_MPOS of the last feed point on the grid that starts with the first one after arming (R284). -/
  feedBase : Option Int := none
  /-- Ticks in a row with LRATE over the limit, at most 3; 4 once the episode is reported (R283). -/
  fast : Nat := 0
  /-- PTH_MPOS at the last 100 planner ticks, newest first (LRATE, R282). -/
  history : List Int := []
  /-- A host-commanded REFEED is due at the next feed point (R289). -/
  refeed : Bool := false
  /-- Admitted frames of the web, oldest first, and the web line of the next frame. -/
  frames : List Frame := []
  nextLine : Int := 0
  /-- W0 has been set since the web started. -/
  w0Set : Bool := false
  /-- MOT_JOGVEL saved at the stop trigger (R298). -/
  vsave : Int := 0
  /-- The web sequence was started by a disarm or by WEB_STOP, and ends in IDLE (R298). -/
  toIdle : Bool := false
  /-- A stop trigger that came in ACCEL, for the entry into RUN (R297, R298). -/
  stopNext : Option Nat := none
  /-- Engine time at which the FEED pulse ends (R284). -/
  feedEnd : Option Nat := none
  /-- Path axes that left service and have not rejoined the traffic yet (R227, R295). -/
  axesOut : List Nat := []
  /-- Units of the path event sources, cleared with their event bit: source and sensor. -/
  units : List (Nat × Nat) := []
  deriving DecidableEq, Repr

/-! ### Cascade (R306 to R323) -/

/-- A beacon as a port sees it: hop count and the master it names. -/
structure Beacon where
  hop : Nat
  master : Nat
  deriving DecidableEq, Repr

/-- The cascade's running state. Role, alignment state and flags are register fields. -/
structure Csl where
  /-- The latest beacon at port A and at port B. -/
  beaconA : Option Beacon := none
  beaconB : Option Beacon := none
  /-- Half the measured round trip of port A and port B less the turnaround, in 20 ps, before SKEWTRIM (R312). -/
  roundA : Nat := 0
  roundB : Nat := 0
  /-- Sub-nanosecond part of the reference phase, in 20 ps. -/
  phase : Int := 0
  /-- Consecutive SYNCs within 2 ns, and consecutive SYNCs beyond 10 ns (R313). -/
  near : Nat := 0
  far : Nat := 0
  /-- Engine time of the last valid SYNC. -/
  synced : Nat := 0
  /-- On the master: the context whose admission the slaves are asked about, and the positions that have agreed; on a slave: the
  head for which its gate has passed (R316). -/
  query : Option Nat := none
  agreed : List Nat := []
  /-- Engine time of the question. -/
  asked : Nat := 0
  /-- Positions that the master cannot reach (R321). -/
  unreachable : List Nat := []
  /-- On a slave: the last position word, its rate and its engine time (R318). -/
  position : Option (Int × Nat × Nat) := none
  /-- Drain lines of the slaves since the web stop began: position, station, G_k + 1 + STNPOS_k and whether the station is
  busy (R320). -/
  drained : List (Nat × Nat × Nat × Bool) := []
  deriving DecidableEq, Repr

/-! ### Carabid -/

/-- A fault record (R352, R353, R361). `st`: 0 FREE, 1 REACTING, 2 AWAIT, 3 COMPLETE. -/
structure FltRec where
  st : Nat := 0
  sev : Nat := 0
  first : Nat := 0
  cnt : Nat := 0
  seq : Nat := 0
  tFirst : Nat := 0
  tDone : Nat := 0
  /-- The sources of SRCMAP. -/
  srcs : List Nat := []
  ansSev : Nat := 0
  ansUact : Nat := 0
  answered : Bool := false
  clamped : Bool := false
  deriving DecidableEq, Repr

/-- Carabid's running state. -/
structure Flt where
  /-- Active sources. -/
  active : List Nat := []
  /-- Unit mask of each source: the units that raised it (R348, R357). -/
  units : Store Nat (List Nat) := []
  records : Store Nat FltRec := []
  /-- The fault record queue of DMA peripheral 0x10, at most 64 (R353). -/
  queue : List FltRec := []
  /-- Bytes of its first record that DMA has taken over (R335). -/
  handed : Nat := 0
  /-- Records opened since the last CTL reset. -/
  opened : Nat := 0
  isolated : List UnitId := []
  retpend : List UnitId := []
  /-- Units in their single-block reset, and units whose own check runs (R359, R410). -/
  resetting : List UnitId := []
  checking : List UnitId := []
  aonTakeover : Bool := false
  /-- Reporters that are silent or send invalid rails (R345, R346). -/
  badReporters : List Nat := []
  deriving DecidableEq, Repr

/-! ### Calibration and Mayfly -/

/-- The calibration engine's running state (R363 to R375). -/
structure Cal where
  /-- The station measured next in step 8 of power-up calibration. -/
  station : Nat := 0
  /-- Reference reading of each sensor and its engine time (R369). -/
  refs : Store Nat (Option (Int × Nat)) := []
  /-- T_cal of the Scejo converters: sensor 10 at their calibration (R370). -/
  scejoT : Option Int := none
  /-- Stations whose last calibration failed (R364). -/
  bad : List Nat := []
  /-- How many measurements have changed the results set, and words that a RESTORE put in their place (R374). -/
  gen : Nat := 0
  restored : Store Nat (Option Nat) := []
  deriving DecidableEq, Repr

/-! ### Power -/

/-- A slot of the first-failure log (R390): its 64 bytes; `torn` while its body is not known (a write was abandoned). -/
structure LogSlot where
  bytes : List Nat := []
  torn : Bool := true
  deriving DecidableEq, Repr

/-- The FRAM (R390, R392, R411): it survives every reset and the loss of the input. An empty list is a copy that is not
valid. -/
structure Fram where
  counters : List Nat := []
  log0 : LogSlot := {}
  log1 : LogSlot := {}
  ob0 : List Nat := []
  ob1 : List Nat := []
  deriving DecidableEq, Repr

/-- The always-on supervisor's running state (R378 to R394). -/
structure Pwr where
  /-- The input has been at or above VIN_ON for 10 ms and has not collapsed since. -/
  vinOk : Bool := false
  /-- A fault power-down has left the sequence off until an on request (R388). -/
  fault : Bool := false
  /-- On-module rails that have qualified and not fallen. -/
  qualified : List Nat := []
  /-- How many external steps have their enables raised. -/
  raised : Nat := 0
  /-- Monitors that have qualified with their step (R392). -/
  monitors : List Nat := []
  /-- On requests latched for the on-module and the external sequence (R387). -/
  onLatch : Bool := false
  extLatch : Bool := false
  /-- A COLD, or RESET_N or TAP at reach 3, waits for the rails to fall (R403). -/
  cold : Bool := false
  /-- That power-down was asked for by an RSTC_CMD COLD: source 1 asserts when AON is reset (R401). -/
  coldCmd : Bool := false
  /-- The master has sent POWER_GO in this power-up (R322). -/
  goSent : Bool := false
  /-- The first-failure log has been written in this episode; the write that runs: slot and bytes. -/
  logDone : Bool := false
  log : Option (Nat × List Nat) := none
  /-- The counters are being copied to FRAM (R385). -/
  copying : Bool := false
  deriving DecidableEq, Repr

/-! ### Reset -/

/-- The reset controller (R397 to R413). -/
structure Rst where
  /-- An episode is running: from the first assertion until the last domain is released. -/
  episode : Bool := true
  /-- Sources asserted now, and all that have asserted in the running or last episode. -/
  asserted : List Nat := [2]
  last : List Nat := [0, 2]
  /-- Greatest reach of the episode, its domains, and those that are still to be released. -/
  reach : Nat := 3
  doms : List Dom := [.ctl, .seq, .mem, .host, .cmp, .mot, .csl, .vid]
  release : List Dom := []
  /-- The domain that an RSTC_CMD DOMAIN names. -/
  named : Dom := .ctl
  /-- The option bytes have been read since the last reset that reached AON (R411). -/
  obRead : Bool := false
  /-- The option byte write that runs: copy and bytes (R413). -/
  obWrite : Option (Nat × List Nat) := none
  deriving DecidableEq, Repr

/-! ### Engine I/O -/

/-- The pin logic (R350, R416, R452). -/
structure Eio where
  /-- Pins that a unit action has released to high impedance. -/
  off : List Nat := []
  /-- The pins that an EXTEST instruction drives, with their levels. -/
  boundary : List (Nat × Bool) := []
  deriving DecidableEq, Repr

/-! ### The whole state -/

/-- Core pairs, service core and heartbeat (R18, R20, R21). -/
structure Cores where
  haltedA : Bool := false
  haltedB : Bool := false
  service : Bool := false
  heartbeat : Bool := false
  deriving DecidableEq, Repr

/-- The state of an EX4 module. -/
structure State where
  hw : Hardware := { exL := true, serial := 0, moduleRev := 1, msel := .high }
  fuses : Fuses := { slots := [.blank, .blank, .blank, .blank], seccount := 0, testLocked := false }
  /-- Commands that wait, first in, first out. -/
  pending : List Instr := []
  /-- What the module has put out, newest first. -/
  out : List Out := []
  /-- How many open values have been taken (the model's own field, log 2). -/
  free : Nat := 0
  /-- Engine time in ns (R15, R16). -/
  etime : Nat := 0
  /-- Register fields that differ from their reset value. -/
  regs : Store (Fld × Nat) Nat := []
  /-- Values in force that differ from the value shown: boundary and shadow fields, latched ring bases (R17, R163). -/
  live : Store (Fld × Nat) (Option Nat) := []
  /-- Lower halves accepted and not yet moved (R9). -/
  hold : Store (Fld × Nat) (Option Nat) := []
  /-- Upper registers latched by a read of the lower one, by BAR0 offset (R9). -/
  latch : Store Nat (Option Nat) := []
  /-- Reset domains held in reset. -/
  inReset : List Dom := [.seq, .host, .mem, .cmp, .vid, .mot, .ctl, .csl]
  /-- Islands isolated by a handshake watchdog (R14). -/
  isolated : List Island := []
  cores : Cores := {}
  ldr : Loader := {}
  loam : Loam := {}
  dma : Dma := {}
  cmp : Cmp := {}
  stns : Store Nat Stn := []
  lnks : Store Nat Lnk := []
  axes : Store Nat Axis := []
  mbx : Mbx := {}
  pcie : Pcie := {}
  pth : Pth := {}
  slots : Store Nat Slot := []
  fhv : Fhv := {}
  capture : Capture := {}
  flt : Flt := {}
  csl : Csl := {}
  cal : Cal := {}
  pwr : Pwr := {}
  fram : Fram := {}
  rst : Rst := {}
  eio : Eio := {}
  deriving DecidableEq, Repr

/-- The module at the release of the AON domain. -/
def State.reset : State := {}

/-- Faults: none. No command of the EX4 stops the module; what the spec calls a fault is an effect on the state (a Carabid
source, an event bit, an isolated island). The type has no constructor. -/
inductive Fault where
  deriving DecidableEq, Repr

/-- Refusals. -/
inductive Refusal where
  /-- Raised by `exec` for an instruction that has no meaning yet. Safe. -/
  | notModelled (mnemonic : String)
  /-- Raised by a meaning whose operand names an instance, an address or a length that does not exist on the die: no such
  command can reach the module (R10). Safe. -/
  | illFormed
  deriving DecidableEq, Repr

end Sys2Proof.Machine
end

