-- ==== Sys2Proof/Machine/Tables.lean ====
section
/-! DEFINITION. Reset values and ranges that differ from instance to instance: the fault sources of R348, R350 and R354. -/

namespace Sys2Proof

/-- Default severity, default unit action and the range of severities of a fault source (R348). -/
structure SrcRow where
  sev : Nat
  uact : Nat
  lo : Nat
  hi : Nat
  deriving DecidableEq, Repr

/-- The global source table, sources 0 to 51 (R348). -/
def globalSources : List SrcRow := [
  ⟨4, 0, 3, 7⟩, ⟨4, 0, 3, 7⟩, ⟨1, 0, 0, 2⟩, ⟨3, 0, 1, 7⟩, ⟨5, 0, 3, 7⟩, ⟨5, 0, 3, 7⟩, ⟨5, 0, 3, 7⟩, ⟨5, 0, 3, 7⟩,
  ⟨5, 0, 3, 7⟩, ⟨7, 0, 7, 7⟩, ⟨5, 0, 3, 7⟩, ⟨7, 0, 7, 7⟩, ⟨6, 0, 4, 7⟩, ⟨4, 0, 1, 7⟩, ⟨3, 0, 1, 7⟩, ⟨1, 0, 0, 7⟩,
  ⟨1, 0, 0, 7⟩, ⟨1, 0, 0, 7⟩, ⟨1, 0, 0, 7⟩, ⟨1, 0, 0, 7⟩, ⟨1, 0, 0, 7⟩, ⟨1, 0, 0, 7⟩, ⟨1, 0, 0, 7⟩, ⟨5, 3, 1, 7⟩,
  ⟨5, 3, 1, 7⟩, ⟨6, 4, 3, 7⟩, ⟨1, 0, 0, 7⟩, ⟨3, 0, 1, 7⟩, ⟨4, 0, 1, 7⟩, ⟨4, 0, 1, 7⟩, ⟨1, 0, 0, 7⟩, ⟨3, 0, 1, 7⟩,
  ⟨6, 2, 4, 7⟩, ⟨5, 2, 3, 7⟩, ⟨6, 0, 3, 7⟩, ⟨3, 0, 1, 7⟩, ⟨1, 0, 0, 7⟩, ⟨1, 0, 0, 7⟩, ⟨1, 0, 0, 7⟩, ⟨3, 0, 1, 7⟩,
  ⟨6, 0, 3, 7⟩, ⟨1, 0, 0, 7⟩, ⟨2, 0, 2, 7⟩, ⟨2, 0, 2, 7⟩, ⟨1, 0, 0, 7⟩, ⟨5, 0, 3, 7⟩, ⟨3, 2, 1, 7⟩, ⟨3, 2, 1, 7⟩,
  ⟨1, 0, 0, 7⟩, ⟨1, 0, 0, 7⟩, ⟨5, 0, 3, 7⟩, ⟨3, 0, 1, 7⟩]

/-- The station source table, offsets 0 to 10 (R348). -/
def stationSources : List SrcRow := [
  ⟨3, 0, 1, 7⟩, ⟨1, 0, 0, 7⟩, ⟨1, 0, 0, 7⟩, ⟨1, 0, 0, 7⟩, ⟨1, 0, 0, 7⟩, ⟨3, 0, 1, 7⟩, ⟨1, 0, 0, 7⟩, ⟨1, 0, 0, 7⟩,
  ⟨3, 0, 3, 7⟩, ⟨5, 0, 3, 7⟩, ⟨3, 0, 3, 7⟩]

/-- The row of a fault source; a reserved source is never active and stands at severity 0. -/
def srcRow (n : Nat) : SrcRow :=
  if n < 64 then globalSources.getD n ⟨0, 0, 0, 0⟩ else stationSources.getD ((n - 64) % 16) ⟨0, 0, 0, 0⟩

/-- What kind of unit a source acts on (R350). -/
inductive UnitKind where
  | none | axis | slot | station | engine | gate | hv | dma | pin
  deriving DecidableEq, Repr

/-- The unit kind of a source that unit actions reach (R348, R350). -/
def srcUnitKind (n : Nat) : UnitKind :=
  if 64 ≤ n then (if (n - 64) % 16 ≤ 10 then .station else .none)
  else if 22 ≤ n ∧ n ≤ 27 then .axis
  else if 28 ≤ n ∧ n ≤ 30 then .slot
  else if 18 ≤ n ∧ n ≤ 20 then .engine
  else if n = 32 then .gate
  else if n = 33 then .hv
  else if n = 21 then .dma
  else if n = 46 ∨ n = 47 then .pin
  else .none

/-- The unit actions that are in the set of a unit kind (R350). -/
def uactSet : UnitKind → List Nat
  | .none => [0]
  | .axis => [0, 1, 2, 3, 4, 5]
  | .slot => [0, 1, 2, 3, 4, 5]
  | .station => [0, 1, 2, 3, 4, 5]
  | .engine => [0, 2, 3, 4, 5]
  | .gate => [0, 2, 3, 4]
  | .hv => [0, 2, 3, 4]
  | .dma => [0, 2]
  | .pin => [0, 2, 3, 4]

/-- Class of an engine I/O pin as EIO_SEL codes it: 0 A, 1 B, 2 D, 3 N, 4 O (R445, R469). -/
def pinClass (n : Nat) : Nat :=
  let m := n % 64
  if m < 24 then 3 else if m < 40 then 2 else if m < 48 then 0 else if m < 56 then 1 else 4

/-- The function codes that a pin's class admits (R447). -/
def funcSet (n : Nat) : List Nat :=
  match pinClass n with
  | 0 => [0x00, 0x10, 0x11, 0x12, 0x13, 0x14, 0x15, 0x16, 0x17, 0x18, 0x19, 0x20, 0x30, 0x31, 0x32, 0x41, 0x50] ++
      if n % 2 = 0 then [0x40] else [0x01]
  | 1 => [0x00, 0x13, 0x14, 0x15, 0x16, 0x17, 0x18, 0x19, 0x30]
  | 2 => [0x00, 0x10, 0x11, 0x13, 0x14, 0x15, 0x19, 0x20, 0x50] ++ if n % 2 = 0 then [0x40] else [0x01]
  | 3 => [0x00, 0x42, 0x50, 0x60]
  | _ => [0x00, 0x12, 0x31, 0x32, 0x41, 0x50]

/-- Sources that are hardware-only: their MODE reads 0 (R354). -/
def srcFixed (n : Nat) : Bool :=
  if n < 64 then n == 0 || n == 1 || n == 3 || (4 ≤ n && n ≤ 11) || n == 32 || n == 50 || n == 51
  else let i := (n - 64) % 16; i == 8 || i == 9 || i == 10

end Sys2Proof
end

