-- ==== Sys2Proof/Machine/Ops.lean ====
section
/-! DEFINITION. The named operations every meaning is built from: reading and writing register fields, sparse tables of
running state, reset domains and isolation, outputs, interrupt messages and mailbox posts. -/

namespace Sys2Proof.Machine

open Sys2Proof

/-! ### What is on the die, and what is populated (R1, R2) -/

/-- Instances of each resource that this module populates (R1). -/
def Hardware.stations (h : Hardware) : Nat := if h.exL then 8 else 4
def Hardware.axes (h : Hardware) : Nat := if h.exL then 48 else 24
def Hardware.slots (h : Hardware) : Nat := if h.exL then 128 else 64
def Hardware.hvs (h : Hardware) : Nat := if h.exL then 48 else 24
def Hardware.pins (h : Hardware) : Nat := if h.exL then 256 else 128
def Hardware.sources (h : Hardware) : Nat := if h.exL then 192 else 128
def Hardware.ains (h : Hardware) : Nat := if h.exL then 96 else 48
def Hardware.lanes (h : Hardware) : Nat := if h.exL then 8 else 4
/-- Extents of usable space and its size in bytes (R69). -/
def Hardware.extents (h : Hardware) : Nat := if h.exL then 262144 else 131072
def Hardware.usable (h : Hardware) : Nat := h.extents * 63488

/-- Engine n of R138 is populated: compressors 0 to 7, imaging decompressors 8 to 15, verify decompressors 16 to 23. -/
def Hardware.engine (h : Hardware) (n : Nat) : Bool :=
  if h.exL then decide (n < 24) else decide (n < 12) && decide (n % 8 < 4)

/-- Whether an instance of a field is populated on this module; the fields of one that is not read as zero (R2). -/
def populated (h : Hardware) (f : Fld) (i : Nat) : Bool :=
  match f with
  | .btu _ => decide (f.outer i < h.stations)
  | .blk _ => decide (f.outer i < h.stations)
  | .mot .planOvr => true
  | .mot _ => decide (f.outer i < h.axes)
  | .cle _ => if f.row.n1 = 1 then true else decide (f.outer i < h.slots)
  | .cmp .mode => true
  | .cmp .chmap => true
  | .cmp .vfail => true
  | .cmp .emode => h.engine i && decide (i < 16)
  | .cmp _ => h.engine (f.outer i)
  | .pgs .decState => decide (i < h.lanes)
  | .pgs .decAssign => decide (i < h.stations)
  | .pth .stnpos => decide (i < h.stations)
  | .cal .need => decide (i < h.stations)
  | .cal .busy => decide (i < h.stations)
  | .cal .pend => decide (i < h.stations)
  | .cal .stnt => decide (i < h.stations)
  | .flt .sev => decide (i < h.sources)
  | .flt .uact => decide (i < h.sources)
  | .flt .mode => decide (i < h.sources)
  | .flt .srccnt => decide (i < h.sources)
  | .eio _ => decide (f.outer i < h.pins)
  | .fhv .vramp => decide (i < h.hvs)
  | .fhv .fbHi => decide (i < h.hvs)
  | .fhv .fbT => decide (i < h.hvs)
  | .fhv .vstate => decide (i < h.hvs)
  | .fhv .hven => decide (i < h.hvs)
  | .fhv .fbhiTrip => decide (i < h.hvs)
  | .fhv .vref => decide (i < h.hvs)
  | .fhv .vfb => decide (i < h.hvs)
  | _ => true

/-- The reset value of an instance of a field. -/
def resetVal (f : Fld) (i : Nat) : Nat :=
  match f with
  | .flt .sev => (srcRow i).sev
  | .flt .uact => (srcRow i).uact
  | f => f.row.reset

/-- The kind and hardware range of an instance of a field on a module (R56); axes that are not populated have no bit in PTH_AXMASK
(R2). -/
def kindOf (h : Hardware) (f : Fld) (i : Nat) : Kind :=
  match f with
  | .flt .sev => .u (srcRow i).lo (srcRow i).hi
  | .flt .uact => .e (uactSet (srcUnitKind i))
  | .flt .mode => if srcFixed i then .u 0 0 else .u 0 1
  | .pth .axmask => .m (if i = 0 then (2 ^ h.axes - 1) % 2 ^ 32 else (2 ^ h.axes - 1) / 2 ^ 32)
  | .eio .func => .e (funcSet i)
  | f => f.row.kind

/-- A code that orders field instances by address, then bit. -/
def fldCode (k : Fld × Nat) : Nat := k.1.addr k.2 * 32 + k.1.lsbOf k.2

/-! ### Register fields -/

/-- The value a field shows. -/
def State.rd (s : State) (f : Fld) (i : Nat := 0) : Nat :=
  if populated s.hw f i then Store.get (resetVal f i) (f, i) s.regs else 0

/-- A signed field, as an integer. -/
def State.rdS (s : State) (f : Fld) (i : Nat := 0) : Int := toSigned f.row.width (s.rd f i)

/-- The value in force: the earlier one while a boundary or shadow write is pending (R17, R163). -/
def State.lv (s : State) (f : Fld) (i : Nat := 0) : Nat :=
  match Store.get none (f, i) s.live with
  | some v => v
  | none => s.rd f i

/-- The signed value in force. -/
def State.lvS (s : State) (f : Fld) (i : Nat := 0) : Int := toSigned f.row.width (s.lv f i)

/-- Set a field's value. A value is held in the field's width; an instance that is not populated takes nothing. -/
def State.wr (s : State) (f : Fld) (i : Nat) (v : Nat) : State :=
  if populated s.hw f i then
    { s with regs := Store.set fldCode (resetVal f i) (f, i) (v % 2 ^ f.row.width) s.regs }
  else s

/-- Set a signed field. -/
def State.wrS (s : State) (f : Fld) (i : Nat) (z : Int) : State := s.wr f i (ofSigned f.row.width z)

/-- Set an event or status bit. -/
def State.ev (s : State) (f : Fld) (i : Nat := 0) : State := s.wr f i 1

/-- Clear a bit or a field. -/
def State.clr (s : State) (f : Fld) (i : Nat := 0) : State := s.wr f i 0

/-- Set a one-bit field from a Bool. -/
def State.wrB (s : State) (f : Fld) (i : Nat) (b : Bool) : State := s.wr f i (bit b)

/-- A one-bit field as a Bool. -/
def State.on (s : State) (f : Fld) (i : Nat := 0) : Bool := s.rd f i != 0

/-- Count one event in a saturating counter field. -/
def State.count (s : State) (f : Fld) (i : Nat := 0) : State := s.wr f i (satInc f.row.width (s.rd f i))

/-- Add to a saturating counter field. -/
def State.countBy (s : State) (f : Fld) (i n : Nat) : State :=
  s.wr f i (min (2 ^ f.row.width - 1) (s.rd f i + n))

/-- Take a written value: a boundary or shadow field keeps the value in force until it is released. -/
def State.take (s : State) (f : Fld) (i v : Nat) : State :=
  match f.row.latch with
  | .direct => s.wr f i v
  | _ => { s with live := Store.set fldCode none (f, i) (some (s.lv f i)) s.live }.wr f i v

/-- Release pending values of the fields that satisfy `p`: the value shown comes into force. -/
def State.release (s : State) (p : Fld → Nat → Bool) : State :=
  { s with live := s.live.filter fun e => !p e.1.1 e.1.2 }

/-- Return the fields that satisfy `p` to their reset values, with what is held or pending for them (R9, R49). -/
def State.resetFields (s : State) (p : Fld → Nat → Bool) : State :=
  { s with
    regs := s.regs.filter fun e => !p e.1.1 e.1.2
    live := s.live.filter fun e => !p e.1.1 e.1.2
    hold := s.hold.filter fun e => !p e.1.1 e.1.2 }

/-- Signed saturation to Q2.30 (R233) and other signed widths. -/
def sat (w : Nat) (z : Int) : Int := clampInt z (-(2 ^ (w - 1) : Int)) (2 ^ (w - 1) - 1)

/-! ### The image state as the blocks see it -/

/-- The image state that registers and blocks act on: in VERIFYING they behave as before the load request, and the image in force
stays so (R50, R52). -/
def State.imageSt (s : State) : LdrState := if s.ldr.st = .verifying then s.ldr.prev else s.ldr.st

/-- An image is in force (R81). -/
def State.imageLoaded (s : State) : Bool := s.imageSt == .loaded || s.imageSt == .armed || s.imageSt == .disarming

/-- The image state is LOADED or ARMED, and not DISARMING. -/
def State.imageRuns (s : State) : Bool := s.imageSt == .loaded || s.imageSt == .armed

/-! ### Cascade role and calibration progress -/

/-- The role that MSEL and the option bytes in force give: `true` master (R308, R411). -/
def State.masterStrap (s : State) : Bool :=
  match s.hw.msel with
  | .high => true
  | .low => false
  | .nc => bitField (s.rd (.rstc .ob) 0) 26 1 == 1

/-- Cascade role: 0 standalone, 1 master, 2 slave. Without a CASCADE section, or with NMOD at 0, a module runs standalone
(R308). -/
def State.cslRole (s : State) : Nat :=
  if s.rd (.csl .nmod) = 0 || !(s.ldr.sections.any fun x => x.ty == 14) then 0 else if s.masterStrap then 1 else 2

/-- The module is the master of a ring, or a slave (R308). -/
def State.isMaster (s : State) : Bool := s.cslRole == 1
def State.isSlave (s : State) : Bool := s.cslRole == 2

/-- The other port. -/
def otherPort : Port → Port
  | .a => .b
  | .b => .a

/-- The upstream port (R311). -/
def State.upstream (s : State) : Port := if s.on (.csl .upstream) then .b else .a

/-- Step `n` of power-up calibration has ended (R363, R365). -/
def State.calPast (s : State) (n : Nat) : Bool := s.on (.cal .puDone) || decide (n < s.rd (.cal .puStep))

/-- Division that rounds toward zero. -/
def tdiv (a b : Int) : Int := Int.tdiv a b

/-- TEMP of a sensor; of a dead one, the mean of the living die sensors, if there is one (R370). -/
def State.sensorTemp (s : State) (i : Nat) : Option Int :=
  if !s.on (.cal .dead) i then some (s.rdS (.cal .temp) i)
  else
    let l := ((List.range 12).filter fun j => !s.on (.cal .dead) j).map fun j => s.rdS (.cal .temp) j
    if l.isEmpty then none else some (tdiv (l.foldl (· + ·) 0) l.length)

/-- A converter reading of `fine` × 20 ps into the reference cycle at the calibrated tap delay, compensated for ΔT = `dT` × 0.1 °C
(R370): taps × 500 / N with N = N_cal / (1 + 0.0010 × ΔT), rounded to nearest; it stays inside the cycle. -/
def tapsAt (fine : Nat) (dT : Int) : Nat := min 499 (((fine : Int) * (10000 + dT) * 2 + 10000) / 20000).toNat

/-- ΔT of an item whose sensor is `i` (R370); 0 where no sensor lives. -/
def State.deltaT (s : State) (i : Nat) (tCal : Int) : Int := (s.sensorTemp i).getD tCal - tCal

/-- FINE of an SOS edge at station `k` (R148, R370). -/
def State.sosFine (s : State) (k fine : Nat) : Nat := tapsAt fine (s.deltaT k (s.rdS (.cal .stnt) k))

/-! ### Domains and islands -/

/-- The domain of an island. -/
def islandDom : Island → Dom
  | .seq => .seq | .host => .host | .mem => .mem | .cmp => .cmp | .mot => .mot | .ctl => .ctl | .csl => .csl | .vid _ => .vid

/-- A domain is out of reset and its island answers. -/
def State.up (s : State) (d : Dom) : Bool :=
  !s.inReset.contains d && !(s.isolated.any fun i => islandDom i == d && d != .vid)

/-- A station's video island is out of reset and not isolated. -/
def State.vidUp (s : State) (k : Nat) : Bool :=
  decide (k < s.hw.stations) && !s.inReset.contains .vid && !s.isolated.contains (.vid k)

/-! ### Running state of numbered units -/

def State.chan (s : State) (n : Nat) : Chan := Store.get {} n s.dma.chans
def State.setChan (s : State) (n : Nat) (c : Chan) : State :=
  { s with dma := { s.dma with chans := Store.set id {} n c s.dma.chans } }
def State.ctx (s : State) (c : Nat) : Ctx := Store.get {} c s.loam.ctxs
def State.setCtx (s : State) (c : Nat) (x : Ctx) : State :=
  { s with loam := { s.loam with ctxs := Store.set id {} c x s.loam.ctxs } }
def State.band (s : State) (r : Nat) : Band := Store.get {} r s.loam.bands
def State.setBand (s : State) (r : Nat) (b : Band) : State :=
  { s with loam := { s.loam with bands := Store.set id {} r b s.loam.bands } }
def State.lane (s : State) (n : Nat) : Lane := Store.get {} n s.cmp.lanes
def State.setLane (s : State) (n : Nat) (l : Lane) : State :=
  { s with cmp := { s.cmp with lanes := Store.set id {} n l s.cmp.lanes } }
def State.job (s : State) (n : Nat) : Job := Store.get {} n s.cmp.jobs
def State.setJob (s : State) (n : Nat) (j : Job) : State :=
  { s with cmp := { s.cmp with jobs := Store.set id {} n j s.cmp.jobs } }
def State.axis (s : State) (k : Nat) : Axis := Store.get {} k s.axes
def State.setAxis (s : State) (k : Nat) (x : Axis) : State := { s with axes := Store.set id {} k x s.axes }
def State.slot (s : State) (n : Nat) : Slot := Store.get {} n s.slots
def State.setSlot (s : State) (n : Nat) (x : Slot) : State := { s with slots := Store.set id {} n x s.slots }
def State.heater (s : State) (g : Nat) : Heater := Store.get {} g s.fhv.heaters
def State.setHeater (s : State) (g : Nat) (x : Heater) : State :=
  { s with fhv := { s.fhv with heaters := Store.set id {} g x s.fhv.heaters } }
def State.stn (s : State) (k : Nat) : Stn := Store.get {} k s.stns
def State.setStn (s : State) (k : Nat) (x : Stn) : State := { s with stns := Store.set id {} k x s.stns }
def State.lnk (s : State) (k : Nat) : Lnk := Store.get {} k s.lnks
def State.setLnk (s : State) (k : Nat) (x : Lnk) : State := { s with lnks := Store.set id {} k x s.lnks }

/-! ### Outputs -/

/-- Put something out. -/
def State.emit (s : State) (o : Out) : State := { s with out := o :: s.out }

/-- Send a word to the slaves, out of both ports, if this module is the master (R309, R319). -/
def State.broadcast (s : State) (kind : Nat) (data : List Int) : State :=
  if s.isMaster then (s.emit (.scejo .a kind data)).emit (.scejo .b kind data) else s

/-- Send a word towards the master: this slave's own, or one of a slave farther down the ring (R307, R319). -/
def State.upward (s : State) (kind : Nat) (data : List Int) : State := s.emit (.scejo s.upstream kind data)

/-- A slave passes a word of the master on, out of its other port (R307). -/
def State.relay (s : State) (kind : Nat) (data : List Int) : State := s.emit (.scejo (otherPort s.upstream) kind data)

/-- Take a fresh open value below 2^w (log 2). -/
def State.fresh (s : State) (w : Nat) : Nat × State :=
  (Config.freeValue s.free % 2 ^ w, { s with free := s.free + 1 })

/-- Take a fresh open value only where one is needed; else 0. -/
def State.freshIf (s : State) (need : Bool) (w : Nat) : Nat × State := if need then s.fresh w else (0, s)

/-- Send an MSI-X message, or set its pending bit while it is masked; while HOST is in reset it is lost (R427). -/
def State.msix (s : State) (v : Nat) : State :=
  if !s.up .host then s
  else if s.pcie.msixEnable && !s.pcie.functionMask && s.pcie.unmasked.contains v then s.emit (.msix v)
  else if s.pcie.pendingBits.contains v then s
  else { s with pcie := { s.pcie with pendingBits := v :: s.pcie.pendingBits } }

/-- Send the global message if the event's enable bit is set (R426). -/
def State.globalIrq (s : State) (en : GlbF) : State :=
  if s.on (.glb en) then s.msix (s.rd (.glb .vector)) else s

/-! ### Bytes of a number -/

/-- Little-endian bytes of a number. -/
def leBytes (n : Nat) : Nat → List Nat
  | 0 => []
  | k + 1 => n % 256 :: leBytes (n / 256) k

/-- The number that little-endian bytes spell. -/
def leNat : List Byte → Nat
  | [] => 0
  | b :: t => b.toNat + 256 * leNat t

/-- `n` bytes from offset `i`, as a little-endian number; bytes behind the end read 0. -/
def leAt (l : List Byte) (i n : Nat) : Nat := leNat ((l.drop i).take n)

/-! ### Mailbox posts -/

/-- Whether a kind of post is a decision that the host answers (R433). -/
def kindAnswered (k : Nat) : Bool := k == 1 || k == 2 || k == 4 || k == 5 || k == 6 || k == 7 || k == 9

/-- The pair a kind is routed to; `none` at 0xF (R437) and while HOST is in reset. -/
def State.routeOf (s : State) (kind : Nat) : Option Nat :=
  if s.up .host && decide (1 ≤ kind) && decide (kind ≤ 9) && decide (s.rd (.mbx .route) kind < 15) then some (s.rd (.mbx .route) kind) else none

/-- The posts queued in a pair. -/
def State.posts (s : State) (p : Nat) : List Post := Store.get [] p s.mbx.queues

/-- A decision concerns (kind, unit); a takeover is told from the station's other ones by the failed beam, its first byte of DATA. -/
def Decision.about (d : Decision) (kind unit : Nat) (data : List Nat) : Bool :=
  d.kind == kind && d.unit == unit && (kind != 2 || d.data.head? == data.head?)

/-- Put a post into a pair's queue with the pair's next TOKEN (R434, R435). -/
def State.enqueue (s : State) (p kind unit : Nat) (data : List Nat) : State :=
  let tok := Store.get 0 p s.mbx.tokens
  let post : Post := { kind := kind, ans := kind == 1 || kind == 2, unit := unit, token := tok, etime := s.etime, data := data }
  let m := s.mbx
  let m := { m with
    queues := Store.set id [] p (s.posts p ++ [post]) m.queues
    tokens := Store.set id 0 p ((tok + 1) % 65536) m.tokens
    decisions := if kindAnswered kind then
        m.decisions.filter (fun d => !d.about kind unit data) ++ [{ pair := p, token := tok, kind := kind, unit := unit, data := data }]
      else m.decisions }
  let s := { s with mbx := m }
  if s.on (.mbx .irq) p then s.msix (s.rd (.mbx .vector) p) else s

/-- Post to the host: into the routed pair, or waiting for room or a route; kind 3 is dropped instead (R433, R435). -/
def State.post (s : State) (kind unit : Nat) (data : List Nat) : State :=
  let wait : State := { s with mbx := { s.mbx with waiting := s.mbx.waiting ++ [{ kind := kind, unit := unit, data := data }] } }
  match s.routeOf kind with
  | none => if kind = 3 then s else wait
  | some p =>
    if (s.posts p).length < 32 then s.enqueue p kind unit data
    else if kind = 3 then s.count (.mbx .lost) p else wait

/-- A decision on (kind, unit) is posted and open, or waits to be posted. -/
def State.decisionOpen (s : State) (kind unit : Nat) : Bool :=
  (s.mbx.decisions.any fun d => d.kind == kind && d.unit == unit) ||
    s.mbx.waiting.any fun w => w.kind == kind && w.unit == unit

/-- A decision on (kind, unit) is posted and open. -/
def State.decisionPosted (s : State) (kind unit : Nat) : Bool := s.mbx.decisions.any fun d => d.kind == kind && d.unit == unit

/-- Close a decision (R436): it is answered, or what it concerns has ended. -/
def State.closeDecision (s : State) (kind unit : Nat) : State :=
  { s with mbx := { s.mbx with
      decisions := s.mbx.decisions.filter fun d => !(d.kind == kind && d.unit == unit)
      waiting := s.mbx.waiting.filter fun w => !(w.kind == kind && w.unit == unit) } }

/-- A failed beam is back in service: the decision on its takeover closes (R202, R436). -/
def State.closeTakeover (s : State) (k b : Nat) : State :=
  { s with mbx := { s.mbx with
      decisions := s.mbx.decisions.filter fun d => !d.about 2 k [b]
      waiting := s.mbx.waiting.filter fun w => !(w.kind == 2 && w.unit == k && w.data.head? == some b) } }

/-- Move waiting posts whose pair now has room, oldest first (R435): one pass. -/
def State.drainWaiting (s : State) : State :=
  s.mbx.waiting.foldl (fun t w =>
    match t.routeOf w.kind with
    | none => t
    | some p =>
      if (t.posts p).length < 32 then
        ({ t with mbx := { t.mbx with waiting := t.mbx.waiting.erase w } }).enqueue p w.kind w.unit w.data
      else t) s

/-! ### Carabid's records (R353) -/

/-- Some record that is not FREE has SEV at least `n`: fault state at 2, admission hold at 3 (R353). -/
def State.recordAt (s : State) (n : Nat) : Bool := s.flt.records.any fun e => e.2.st != 0 && decide (n ≤ e.2.sev)

/-! ### Clamp report (R59) -/

/-- Add an entry, or count it as lost when the report is full. -/
def State.report (s : State) (e : Entry) : State :=
  if s.ldr.report.length < 1024 then { s with ldr := { s.ldr with report := s.ldr.report ++ [e] } }
  else s.count (.ldr .repLost)

/-! ### Host register writes (R7, R52, R423) -/

/-- The module answers BAR accesses: the link is up, HOST is out of reset and the function is in D0 (R420, R425). -/
def State.barUp (s : State) : Bool := s.pcie.linkUp && !s.pcie.d3hot && s.up .host

/-- The island that holds a block's register answers; `k` is the station of a BTU or BLK register (R423). -/
def State.blockUp (s : State) (b : Block) (k : Nat) : Bool :=
  match b with
  | .btu => !s.inReset.contains .vid && !s.isolated.contains (.vid k)
  | .blk => !s.inReset.contains .vid && !s.isolated.contains (.vid k)
  | b => s.up b.dom

/-- Blocks that the host may write during APPLYING (R52). -/
def applyingBlock (b : Block) : Bool := b == .glb || b == .ldr || b == .mbx

/-- A refused write (R7, R426). -/
def State.deny (s : State) : State := (s.ev (.glb .accessDenied)).globalIrq .irqAccess

/-- An access to an island in reset or isolated (R423, R426). -/
def State.isoAccess (s : State) : State := (s.ev (.glb .isoAccess)).globalIrq .irqAccess

/-- A host write to a register of a block: dropped where nothing answers; without effect and denied outside GLB, LDR and MBX during
APPLYING (R52); dropped with ISO_ACCESS where the island is in reset or isolated (R423); else it has its effect. -/
def State.hostWrite (s : State) (b : Block) (k : Nat) (f : State → State) : State :=
  if !s.barUp then s
  else
    let shut := s.ldr.st == .applying && !applyingBlock b
    let s := if shut then s.deny else s
    if !s.blockUp b k then s.isoAccess else if shut then s else f s

/-! ### Engine time -/

/-- One reference cycle (R15): engine time advances by 10 while SEQ is out of reset and the reference is present; the isolation of
the SEQ island does not hold it. -/
def State.referenceCycle (s : State) : State :=
  if !s.inReset.contains .seq && s.on (.rstc .refOk) then { s with etime := (s.etime + 10) % 2 ^ 64 } else s

/-! ### Outcomes -/

/-- The outcome of every command: a next state. -/
abbrev Res := Host.Outcome State Fault Refusal

/-- Run an effect when the operands name things on the die, else refuse. -/
def guardWF (wf : Bool) (t : State) : Res := if wf then .next t else .refused .illFormed

end Sys2Proof.Machine
end

