-- ==== Sys2Proof/Machine/Sheets.lean ====
section
/-! DEFINITION. Sheet contexts as every block acts on them: states and events (R82), stations that are busy (R85, R159), the
decompressor assignment and the reservation (R86, R87), spoiling and blanking (R17, R92, R161, R290), reclaiming (R84). -/

namespace Sys2Proof.Machine

open Sys2Proof

/-- Lines of a context on the 2400 dpi grid (R144). -/
def Ctx.lines (x : Ctx) : Nat := (x.linesM1 + 1) * if x.res1200 then 2 else 1

/-- Bands in each plane (R75). -/
def Ctx.bandCount (x : Ctx) : Nat := (x.linesM1 + 1 + 255) / 256

/-- Plane `p` is in the context's mask. -/
def Ctx.has (x : Ctx) (p : Nat) : Bool := x.planes / 2 ^ p % 2 == 1

/-- The planes in the mask, ascending. -/
def Ctx.planeList (x : Ctx) : List Nat := (List.range 8).filter x.has

/-- Every band of every plane is VERIFIED. -/
def Ctx.complete (x : Ctx) : Bool := x.planeList.all fun p => x.verified.getD p 0 == x.bandCount

/-- Lines in band `b` of a plane. -/
def Ctx.bandLines (x : Ctx) (b : Nat) : Nat := min 256 (x.linesM1 + 1 - 256 * b)

/-- The progress of a plane. -/
def Ctx.plane (x : Ctx) (p : Nat) : Plane := x.prog.getD p {}

/-- Change the progress of a plane. -/
def Ctx.setPlane (x : Ctx) (p : Nat) (q : Plane) : Ctx := { x with prog := x.prog.set p q }

/-- Every plane in the mask is finished on its station. -/
def Ctx.allDone (x : Ctx) : Bool := x.planeList.all fun p => (x.plane p).done

/-- The context has been admitted and may still keep stations busy. -/
def Ctx.live (x : Ctx) : Bool :=
  match x.st with
  | .admitted => true | .imaging => true | .stalled => true | .spoiled => true
  | .free => false | .opened => false | .closed => false | .ready => false | .blocked => false | .exposed => false
  | .delivered => false

/-- Station `k` is kept busy by this context (R85). -/
def Ctx.busyOn (x : Ctx) (k : Nat) : Bool := x.live && x.has k && !(x.plane k).done

/-- Station `k` is busy (R85, R159). -/
def State.busy (s : State) (k : Nat) : Bool := s.loam.ctxs.any fun e => e.2.busyOn k

/-- Band records of a context, ascending. -/
def State.bandsOf (s : State) (c : Nat) : List Nat :=
  (s.loam.bands.filter fun e => e.2.ctx == c && e.2.st != .free && e.2.st != .reclaiming).map (·.1)

/-- The record of band `b` of plane `p` of context `c`, if one exists (R75). -/
def State.findBand (s : State) (c p b : Nat) : Option Nat :=
  (s.loam.bands.find? fun e =>
    e.2.ctx == c && e.2.plane == p && e.2.band == b && e.2.st != .free && e.2.st != .reclaiming).map (·.1)

/-- Extents that band records hold, those being returned included (R84). -/
def State.heldExtents (s : State) : List Nat := s.loam.bands.flatMap fun e => e.2.extents

/-- PGS_FREE_EXT (R79, R84). -/
def State.freeExtents (s : State) : Nat := s.hw.extents - s.heldExtents.length

/-- A band leaves CHECKING: its verify decompressor is idle again (R134, R138). -/
def State.verifyIdle (s : State) (b : Band) : State :=
  if b.st == .checking && s.rd (.cmp .jState) (16 + b.lane) == 1 then
    (s.clr (.cmp .bandRecValid) (16 + b.lane)).wr (.cmp .jState) (16 + b.lane) 0
  else s

/-- Ask for records to be reclaimed, in the order given (R84). -/
def State.reclaim (s : State) (rs : List Nat) : State :=
  rs.foldl (fun t r =>
    let t := (t.verifyIdle (t.band r)).setBand r { t.band r with st := .reclaiming, raw := [] }
    { t with loam := { t.loam with reclaim := t.loam.reclaim ++ [r] } }) s

/-- A DMA transfer still feeds band record `r`. -/
def State.fed (s : State) (r : Nat) : Bool := s.dma.chans.any fun e => e.2.recNo == some r && e.2.ended.isNone

/-- Reclaim the bands of a context, but for those whose transfers still run: each of these follows when its transfer ends (R84). -/
def State.reclaimCtx (s : State) (c : Nat) : State := s.reclaim ((s.bandsOf c).filter fun r => !s.fed r)

/-- The line rate of a context (R85): R, or R / 2 at 1200 dpi; doubled so that it stays exact. -/
def State.rate2 (s : State) (x : Ctx) : Nat := s.rd (.pgs .admLinerate) * if x.res1200 then 1 else 2

/-- The largest of a list. -/
def listMax (l : List Nat) : Nat := l.foldl max 0

/-- The contexts that keep station `k` busy. -/
def State.demand (s : State) (k : Nat) : List Ctx := (s.loam.ctxs.filter fun e => e.2.busyOn k).map (·.2)

/-- Twice the raw demand d_k of R86 over a demand set. -/
def State.demand2 (s : State) (xs : List Ctx) : Nat := listMax (xs.map fun x => s.rate2 x * x.lineBytes)

/-- 512 times ρ_k of R87 over a demand set. -/
def State.peak512 (s : State) (xs : List Ctx) : Nat := listMax (xs.map fun x => x.peak * s.rate2 x)

/-- 512 times the sum of ρ_k over all stations, with `head` added to the stations in its mask (R87). -/
def State.memDemand512 (s : State) (head : Option Ctx) : Nat :=
  ((List.range 8).map fun k =>
    s.peak512 (s.demand k ++ match head with
      | some x => if x.has k then [x] else []
      | none => [])).sum

/-- Recompute the reservation (R87), and free the decompressor of every station that is not busy (R86). -/
def State.settleGate (s : State) : State :=
  let s := (List.range 8).foldl (fun t k => if t.busy k then t else t.wr (.pgs .decAssign) k 15) s
  s.wr (.pgs .reservedBw) 0 ((s.memDemand512 none + 511999999) / 512000000)

/-- The states whose entry sets CTX_EVENT (R82). -/
def CtxState.event (x : CtxState) : Bool :=
  x == .ready || x == .blocked || x == .spoiled || x == .stalled || x == .delivered

/-- Change a context's state. -/
def State.toState (s : State) (c : Nat) (st : CtxState) : State :=
  let s := s.setCtx c { s.ctx c with st := st }
  if st.event then s.ev (.pgs .ctxEvent) else s

/-- Block a context that is not admitted yet, and record the cause (R82). -/
def State.block (s : State) (c cause : Nat) : State :=
  (s.setCtx c { s.ctx c with cause := cause }).toState c .blocked

/-- A plane of an admitted context may have finished: a station that is busy no more gives up its decompressor and its share of the
reservation (R86, R87). When every plane is finished, IMAGING becomes EXPOSED; EXPOSED and SPOILED give their bands back
(R82). -/
def State.settleCtx (s : State) (c : Nat) : State :=
  let x := s.ctx c
  if x.allDone then
    match x.st with
    | .imaging => ((s.toState c .exposed).reclaimCtx c).settleGate
    | .spoiled => (s.reclaimCtx c).settleGate
    | _ => s.settleGate
  else s.settleGate

/-- Nothing more of a context is exposed: its planes count as finished on every station. -/
def State.finishAll (s : State) (c : Nat) : State :=
  let x := s.ctx c
  let s := s.setCtx c { x with prog := x.prog.map fun q => { q with done := true } }
  let s := (List.range 8).foldl (fun t k =>
    t.setStn k { t.stn k with queue := (t.stn k).queue.filter fun im => im.ctx != c }) s
  s.settleCtx c

/-- Make an admitted context SPOILED with a cause (R82, R92, R290): DISP_LATE if its output is fixed already (R291); in
host-assisted mode its disposition is posted, and is purge until the answer (R293). -/
def State.spoilHere (s : State) (c cause : Nat) : State :=
  let x := s.ctx c
  let s := (s.setCtx c { x with cause := cause }).toState c .spoiled
  let s := s.closeDecision 1 c
  let s := if s.pth.tracks.any fun t => t.ctx == c && t.output.isSome then s.ev (.pth .dispLate) else s
  let s := if s.on (.pth .dispMode) && !s.on (.pth .mode) then (s.wr (.pgs .disp) c 1).post 7 c [cause, x.pcause] else s
  s.settleCtx c

/-- A context that can become SPOILED (R82). -/
def Ctx.spoilable (x : Ctx) : Bool := x.st == .admitted || x.st == .imaging || x.st == .exposed || x.st == .stalled

/-- Spoil a context; in a cascade the master broadcasts it and a slave reports it (R319). -/
def State.spoil (s : State) (c cause : Nat) : State :=
  if (s.ctx c).spoilable then
    let s := s.spoilHere c cause
    match s.cslRole with
    | 0 => s
    | 1 => s.broadcast 11 [(s.ctx c).tag]
    | _ => s.upward 15 [s.rd (.csl .pos), (s.ctx c).tag]
  else s

/-- Dark from line `n` of plane `p` of context `c` on. -/
def State.darken (s : State) (c p n : Nat) : State :=
  let x := s.ctx c
  let q := x.plane p
  s.setCtx c (x.setPlane p { q with blankFrom := some (match q.blankFrom with
    | some m => min m n
    | none => n) })

/-- The contexts that station `k` is imaging: admitted contexts in its queue. -/
def State.imagingOn (s : State) (k : Nat) : List Nat := (s.stn k).queue.map (·.ctx)

/-- Blank station `k` from its next scan: no line of its present contexts is exposed from then on (R161, R290). -/
def State.blankStation (s : State) (k : Nat) : State := (s.imagingOn k).foldl (fun t c => t.darken c k 0) s

/-- Blank station `k` and spoil every context it is imaging. -/
def State.spoilStation (s : State) (k cause : Nat) : State :=
  (s.imagingOn k).foldl (fun t c => t.spoil c cause) (s.blankStation k)

/-- Station `k` starts no further scan: its planes count as finished by blanking. -/
def State.endStation (s : State) (k : Nat) : State :=
  let cs := s.imagingOn k
  let s := cs.foldl (fun t c => let x := t.ctx c; t.setCtx c (x.setPlane k { x.plane k with done := true })) s
  let s := s.setStn k { s.stn k with queue := [] }
  cs.foldl (fun t c => t.settleCtx c) s

/-- Web mode (PTH_CTL.MODE). -/
def State.web (s : State) : Bool := s.on (.pth .mode)

/-- A trigger of the web stop sequence (R297, R298): from RUN to DRAIN, saving the jog velocity. STOP_CAUSE keeps the trigger that
started the sequence: a later one changes nothing up to HOLD (R303), and one in ACCEL waits for RUN (log 147). -/
def State.webStop (s : State) (cause : Nat) : State :=
  match s.rd (.pth .wstate) with
  | 1 =>
    let s := (s.wr (.pth .stopCause) 0 cause).wr (.pth .wstate) 0 2
    { s with
      pth := { s.pth with vsave := s.rdS (.mot .jogvel) (s.rd (.pth .procAxis)), toIdle := cause == 3, stopNext := none }
      csl := { s.csl with drained := [] } }
  | 7 => { s with pth := { s.pth with stopNext := some (s.pth.stopNext.getD cause) } }
  | _ => s

/-- Make an admitted frame STALLED and start the web stop (R82, R92). -/
def State.stall (s : State) (c : Nat) : State :=
  let x := s.ctx c
  if x.st == .admitted || x.st == .imaging then
    let s := (s.setCtx c { x with stalledImaging := x.st == .imaging }).toState c .stalled
    (if s.isSlave then s.upward 16 [s.rd (.csl .pos)] else s).webStop 1
  else s.webStop 1

/-- A context takes note of a band that failed: FAULTBAND keeps the first one (R97). -/
def Ctx.fault (x : Ctx) (b p : Nat) : Ctx :=
  if x.faulted then x else { x with faultBand := b, faultPlane := p, faulted := true }

/-- Take a band out of VERIFIED into FAILED; its context takes note of it. -/
def State.failRecord (s : State) (r : Nat) : State :=
  let b := s.band r
  let x := s.ctx b.ctx
  let x := if b.st == .verified then { x with verified := x.verified.modify b.plane (· - 1) } else x
  (s.setCtx b.ctx (x.fault b.band b.plane)).setBand r { b with st := .failed, raw := [] }

/-- Every plane of a context is dark from the next scan on (R161, R290). -/
def State.darkenAll (s : State) (c : Nat) : State := (s.ctx c).planeList.foldl (fun t p => t.darken c p 0) s

/-- The path spoils a sheet or frame with a PCAUSE (R289, R290): at once, or when it enters IMAGING. -/
def State.pathSpoil (s : State) (c pcause : Nat) : State :=
  let x := s.ctx c
  match x.st with
  | .admitted => s.setCtx c { x with pcause := pcause, spoilPend := true }
  | .imaging | .exposed | .stalled => ((s.setCtx c { x with pcause := pcause }).darkenAll c).spoil c 7
  | .spoiled => s.setCtx c { x with pcause := pcause }
  | _ => s

/-- The three ways in which late data is handled (R92). -/
inductive Late where
  | readError | decodeError | trailer
  deriving DecidableEq, Repr

/-- Late data on plane `p` of context `c`, in band record `r`; lines from `n` on are not in Silt (R92). A web stops for a frame
that is still good; a frame that is SPOILED already only goes dark. -/
def State.late (s : State) (w : Late) (c p r n : Nat) : State :=
  let cause := match w with
    | .readError => 5 | .decodeError => 6 | .trailer => 4
  let s := s.darken c p n
  if s.web && w != .trailer then
    let x := s.ctx c
    if x.st == .admitted || x.st == .imaging || x.st == .stalled then
      let s := s.failRecord r
      (s.setCtx c { s.ctx c with cause := cause }).stall c
    else s
  else s.spoil c cause

/-- A band becomes FAILED or INCOMPLETE before admission: its context is BLOCKED (R82). -/
def State.bandBad (s : State) (r : Nat) (st : BandState) (cause : Nat) : State :=
  let b := s.band r
  let s := ((s.verifyIdle b).failRecord r).setBand r { b with st := st, raw := [] }
  match (s.ctx b.ctx).st with
  | .opened => s.block b.ctx cause
  | .closed => s.block b.ctx cause
  | .ready => s.block b.ctx cause
  | _ => s

end Sys2Proof.Machine
end

