-- ==== Sys2Proof/Machine/Loam.lean ====
section
/-! DEFINITION. Loam: stored bytes and their ECC (R69 to R71), band checks (R77), context commands (R80 to R84), the BAR2
aperture (R96), and late data found while imaging (R92, R125). -/

namespace Sys2Proof.Machine

open Sys2Proof

/-! ### Stored bytes -/

/-- The canonical form of the stored bytes: addresses strictly rising, no entry equal to what an unlisted address reads as. -/
abbrev Memory.wf (m : List Host.Cell) : Prop := m.Pairwise (fun c d => c.1 < d.1) ∧ ∀ c ∈ m, c.2 ≠ 0

/-- One stored byte; an unlisted byte reads 0 (log 3). -/
def Memory.byte (m : List Host.Cell) (a : Nat) : Byte := Store.get 0 a m

/-- Replace the bytes from `a` on. -/
def Memory.write (m : List Host.Cell) (a : Nat) (l : List Byte) : List Host.Cell :=
  m.filter (fun c => decide (c.1 < a)) ++
    (l.zipIdx.filterMap fun x => if x.1 = 0 then none else some (a + x.2, x.1)) ++
    m.filter fun c => decide (a + l.length ≤ c.1)

/-- `n` bytes from `a` on. -/
def Memory.read (m : List Host.Cell) (a n : Nat) : List Byte :=
  let near := m.filter fun c => decide (a ≤ c.1) && decide (c.1 < a + n)
  (List.range n).map fun i => Memory.byte near (a + i)

/-- One byte of the usable space. -/
def State.byte (s : State) (a : Nat) : Byte := Memory.byte s.loam.bytes a

/-- Bytes of the usable space, without touching ECC. -/
def State.bytes (s : State) (a n : Nat) : List Byte := Memory.read s.loam.bytes a n

/-- Replace bytes of the usable space. -/
def State.setBytes (s : State) (a : Nat) (l : List Byte) : State :=
  { s with loam := { s.loam with bytes := Memory.write s.loam.bytes a l } }

/-! ### ECC (R70, R471) -/

/-- The stored error of a 64-byte burst. -/
def State.ecc (s : State) (b : Nat) : EccMark := Store.get .none b s.loam.ecc

/-- Set a burst's stored error. -/
def State.setEcc (s : State) (b : Nat) (e : EccMark) : State :=
  { s with loam := { s.loam with ecc := Store.set id .none b e s.loam.ecc } }

/-- Errors that have arisen in bursts since the last access; a second single-bit error makes a burst uncorrectable. -/
def State.upset (s : State) (ups : List Upset) : State :=
  ups.foldl (fun t u =>
    match u.err, t.ecc u.burst with
    | .single, .none => t.setEcc u.burst .single
    | _, _ => t.setEcc u.burst .bad) s

/-- An uncorrectable error is counted, recorded and signalled (R70). -/
def State.ueHit (s : State) (b : Nat) : State :=
  ((s.count (.pgs .eccUe)).wr (.pgs .eccAddr) 0 (64 * b)).ev (.pgs .ueEvent)

/-- The bursts with a stored error that an access to `n` bytes from `a` touches, ascending. -/
def State.hitBursts (s : State) (a n : Nat) : List Nat :=
  (s.loam.ecc.filter fun e => decide (64 * e.1 < a + n) && decide (a < 64 * e.1 + 64)).map (·.1)

/-- A read of `n` bytes from `a`: errors are counted; `true` if one was uncorrectable (R70). -/
def State.readEcc (s : State) (a n : Nat) : Bool × State :=
  (s.hitBursts a n).foldl (fun r b =>
    match r.2.ecc b with
    | .none => r
    | .single => (r.1, r.2.count (.pgs .eccCe))
    | .bad => (true, r.2.ueHit b)) (false, s)

/-- A write inside one burst: a whole burst gets fresh check bits, a part of one is read, modified and written (R70). -/
def State.writeBurst (s : State) (a : Nat) (l : List Byte) : State :=
  let b := a / 64
  let s := s.setBytes a l
  if l.length = 64 then s.setEcc b .none
  else
    match s.ecc b with
    | .none => s
    | .single => (s.count (.pgs .eccCe)).setEcc b .none
    | .bad => s.ueHit b

/-- Cut a write into its bursts. -/
def splitBursts : Nat → Nat → List Byte → List (Nat × List Byte)
  | 0, _, _ => []
  | fuel + 1, a, l =>
    if l.isEmpty then [] else
      let n := 64 - a % 64
      (a, l.take n) :: splitBursts fuel (a + n) (l.drop n)

/-- The bursts of a write. -/
def burstsOf (a : Nat) (l : List Byte) : List (Nat × List Byte) := splitBursts (l.length / 64 + 2) a l

/-- Write bytes, burst by burst. -/
def State.writeLoam (s : State) (a : Nat) (l : List Byte) : State :=
  (burstsOf a l).foldl (fun t x => t.writeBurst x.1 x.2) s

/-- The extent of a usable address (R69). -/
def extentOf (a : Nat) : Nat := a / 63488

/-- A region touches an extent held by a band record. -/
def State.touchesBand (s : State) (a n : Nat) : Bool :=
  s.heldExtents.any fun e => decide (63488 * e < a + n) && decide (a < 63488 * e + 63488)

/-- The stored stream of a band: its extents in order. -/
def State.stored (s : State) (b : Band) : List Byte :=
  (b.extents.zipIdx.flatMap fun x => s.bytes (63488 * x.1) (min 63488 (b.storedLen - 63488 * x.2)))

/-- The pieces of usable space a stored stream occupies. -/
def Band.pieces (b : Band) : List (Nat × Nat) :=
  b.extents.zipIdx.map fun x => (63488 * x.1, min 63488 (b.storedLen - 63488 * x.2))

/-- The stored errors that a read of the first `n` bytes of a band's stream meets: the stream byte at which the burst starts, and its
mark. Extents and bursts divide the stream alike (R69). -/
def State.streamErrs (s : State) (b : Band) (n : Nat) : List (Nat × EccMark) :=
  s.loam.ecc.filterMap fun e =>
    match b.extents.idxOf? (e.1 / 992) with
    | some i => if 63488 * i + 64 * (e.1 % 992) < n then some (63488 * i + 64 * (e.1 % 992), e.2) else none
    | none => none

/-- The first stream byte of the first uncorrectable burst of a band's stream. -/
def State.firstBad (s : State) (b : Band) : Option Nat :=
  (((s.streamErrs b b.storedLen).filter fun e => e.2 == .bad).map (·.1)).min?

/-- The burst of usable space that holds stream byte `o` of a band. -/
def Band.burst (b : Band) (o : Nat) : Nat := 992 * b.extents.getD (o / 63488) 0 + o % 63488 / 64

/-- A read of the first `n` bytes of a band's stream counts the errors that it corrects (R70). -/
def State.countSingles (s : State) (b : Band) (n : Nat) : State :=
  s.countBy (.pgs .eccCe) 0 ((s.streamErrs b n).filter fun e => e.2 == .single).length

/-- What can be read of a stored stream: the bytes before its first uncorrectable burst. -/
def State.readable (s : State) (b : Band) : List Byte :=
  match s.firstBad b with
  | some o => (s.stored b).take o
  | none => s.stored b

/-! ### Scrub (R71) -/

/-- An uncorrectable error found by the scrub in an extent of a band makes the band FAILED (R71, R82, R92). Of an admitted sheet the
plane goes dark from the band's first line and the sheet is SPOILED; in a web the band is met when the video path reaches it. A
band that has failed already, or whose extents are being returned, stays as it is (log 138). -/
def State.scrubBand (s : State) (burst : Nat) : State :=
  match s.loam.bands.find? fun e => e.2.extents.contains (extentOf (64 * burst)) with
  | none => s
  | some (r, b) =>
    if b.st == .filling || b.st == .checking || b.st == .verified then
      let x := s.ctx b.ctx
      if x.live then
        let s := (s.verifyIdle b).failRecord r
        if s.web then s else (s.darken b.ctx b.plane (256 * b.band * if x.res1200 then 2 else 1)).spoil b.ctx 5
      else s.bandBad r .failed 5
    else s

/-- One burst under the scrub. -/
def State.scrubBurst (s : State) (b : Nat) : State :=
  match s.ecc b with
  | .none => s
  | .single => (s.countBy (.pgs .eccCe) 0 2).setEcc b .none
  | .bad => (s.ueHit b).scrubBand b

/-- SCRUB_TICK (R71): one ECC group of 31 bursts. -/
def scrubTick (ups : List Upset) (s : State) : State :=
  if s.up .mem && s.on (.pgs .scrubEn) then
    let g := s.loam.scrub
    let s := s.upset ups
    let s := (List.range 31).foldl (fun t i => t.scrubBurst (31 * g + i)) s
    { s with loam := { s.loam with scrub := if g + 1 = s.hw.extents * 32 then 0 else g + 1 } }
  else s

/-- Upsets name bursts of the usable space. -/
def Hardware.upsOk (h : Hardware) (ups : List Upset) : Bool := ups.all fun u => decide (64 * u.burst < h.usable)

def execScrubTick (ups : List Upset) (s : State) : Res := guardWF (s.hw.upsOk ups) (scrubTick ups s)

/-! ### Band checks (R77, R135, R136) -/

/-- What the verify decompressor or an imaging decompressor expects of a band (R124). -/
def State.expect (s : State) (b : Band) : Expect :=
  let x := s.ctx b.ctx
  ⟨x.lineBytes, x.bandLines b.band, b.band⟩

/-- The CAUSE of a band whose verify decompressor reports an error (R125). -/
def verifyCause (code : Nat) : Nat :=
  if code = 0 then 0 else if code = 12 then 3 else if code = 14 then 5 else if 9 ≤ code ∧ code ≤ 11 then 4 else 6

/-- Show an error of engine `n` in band mode (R123, R138). -/
def State.engineError (s : State) (n code pos : Nat) : State :=
  (((s.wr (.cmp .jErr) n code).wr (.cmp .errpos) n pos).ev (.cmp .errEv) n).wr (.cmp .jState) n 6

/-- A band has passed every check: it counts in its context (R76, R82). A repaired one takes its frame out of STALLED, whatever other
band of the frame has failed: that one is met when the video path reaches it (R92, R93). CAUSE then reads 0 and FAULTBAND is free for
the next failure: spec/ is silent on both (log 138). -/
def State.bandGood (s : State) (r : Nat) (crc : Nat) : State :=
  let b := s.band r
  let s := s.setBand r { b with st := .verified, crc := crc, raw := [] }
  let x := s.ctx b.ctx
  let x := { x with verified := x.verified.modify b.plane (· + 1) }
  let s := s.setCtx b.ctx x
  if x.st == .closed && x.complete then s.toState b.ctx .ready
  else if x.st == .stalled && b.repaired then
    let s := s.setCtx b.ctx { x with cause := 0, faulted := false, prog := x.prog.map fun q => { q with blankFrom := none } }
    s.toState b.ctx (if x.stalledImaging then .imaging else .admitted)
  else s

/-- The verify decompressor of a band's lane reads the whole stored stream back, up to the first check that fails (R135, R136): the
error code, 0 if none, and the state behind it. -/
def State.verifyBand (s : State) (b : Band) : Nat × State :=
  let n := 16 + b.lane
  let v := verifyDecode (s.readable b) b.storedLen (s.expect b) (if b.hostcomp then none else some b.raw)
  let s := s.countSingles b (if v.1.1 = 0 then b.storedLen else v.1.2)
  let s := if v.1.1 = 14 then s.ueHit (b.burst v.1.2) else s
  let s := (s.clr (.cmp .bandRecValid) n).wr (.cmp .crc) n (crc32c v.2.out.toList)
  (v.1.1, if v.1.1 = 0 then s.wr (.cmp .jState) n 5 else (s.engineError n v.1.1 v.1.2).count (.cmp .vfail))

/-- BAND_VERIFIED (R77, R111, R135): the checks of a band in CHECKING end. Where several fail, CHECK gives the CAUSE, then a stream
that was cut off, then the verify decompressor's error (log 138). -/
def bandVerified (r : Nat) (s : State) : State :=
  let b := s.band r
  if s.up .mem && b.st == .checking then
    let v := if s.hw.exL then s.verifyBand b else (0, s)
    let cause := if b.crcIn ≠ b.check then 2 else if b.cut then 4 else verifyCause v.1
    if cause = 0 then v.2.bandGood r (leAt (s.stored b) (b.storedLen - 4) 4) else v.2.bandBad r .failed cause
  else s

def execBandVerified (r : Nat) (s : State) : Res := guardWF (decide (r < 131072)) (bandVerified r s)

/-- LOAM_DEADLOCK_TIMEOUT (R79): a transfer has waited 10 ms and no extent can be freed. -/
def loamDeadlock (ch : Nat) (s : State) : State :=
  if s.up .mem && s.loam.held.contains ch && !(s.loam.ctxs.any fun e => e.2.live) then s.ev (.pgs .deadlock) else s

def execLoamDeadlockTimeout (ch : Nat) (s : State) : Res := guardWF (decide (ch < 32)) (loamDeadlock ch s)

/-! ### Context commands (R80 to R82) -/

/-- Refuse a context command with a cause (R81). -/
def State.pgsRefuse (s : State) (cause : Nat) : State := (s.ev (.pgs .cmdErr)).wr (.pgs .cmdCause) 0 cause

/-- Station `k` is configured by a STATION section (R81). -/
def State.stationConfigured (s : State) (k : Nat) : Bool :=
  decide (k < s.hw.stations) && s.ldr.sections.any fun x => x.ty == 9 && x.inst == k && x.feature0

/-- The image state accepts context commands: LOADED, ARMED or DISARMING, and not VERIFYING (R81). -/
def State.ctxCmdState (s : State) : Bool := s.ldr.st == .loaded || s.ldr.st == .armed || s.ldr.st == .disarming

/-- The staged geometry is in range (R80, R81, R144, R158). -/
def State.openGeomOk (s : State) : Bool :=
  let lb := s.rd (.pgs .lineBytes)
  let planes := s.rd (.pgs .planes)
  decide (1 ≤ lb) && decide (lb ≤ 6656) && (!s.on (.pgs .res1200) || decide (lb ≤ 3328)) &&
    (List.range 8).all fun k =>
      planes / 2 ^ k % 2 == 0 || (s.stationConfigured k && decide (lb ≤ s.rd (.btu .maxline) k))

/-- A load from the host staging area is in progress. -/
def State.stagingLoad (s : State) : Bool :=
  (s.ldr.st == .verifying && s.ldr.source == 3) || (s.ldr.st == .applying && s.ldr.imageSource == 3)

/-- OPEN (R80 to R82). -/
def openCtx (c : Nat) (s : State) : State :=
  if !s.up .mem then s
  else if s.stagingLoad then s.pgsRefuse 2
  else if !s.ctxCmdState then s.pgsRefuse 4
  else if (s.ctx c).st ≠ .free then s.pgsRefuse 1
  else if !s.openGeomOk then s.pgsRefuse 3
  else
    s.setCtx c { st := .opened, planes := s.rd (.pgs .planes), res1200 := s.on (.pgs .res1200),
                 lineBytes := s.rd (.pgs .lineBytes), linesM1 := s.rd (.pgs .linesM1), tag := s.rd (.pgs .openTag) }

def execOpen (c : Nat) (s : State) : Res := guardWF (decide (c < 256)) (s.hostWrite .pgs 0 fun s =>
    openCtx c s)

/-- CLOSE (R82, R83). -/
def closeCtx (c : Nat) (s : State) : State :=
  if !s.up .mem then s
  else if !s.ctxCmdState then s.pgsRefuse 4
  else if (s.ctx c).st ≠ .opened then s.pgsRefuse 1
  else
    let x := { s.ctx c with seq := s.loam.nextSeq, queued := true }
    let s := { s with loam := { s.loam with nextSeq := (s.loam.nextSeq + 1) % 65536 } }
    (s.setCtx c x).toState c (if x.complete then .ready else .closed)

def execClose (c : Nat) (s : State) : Res := guardWF (decide (c < 256)) (s.hostWrite .pgs 0 fun s =>
    closeCtx c s)

/-- An admission that the host has given for context `c` stands no more (R90). -/
def State.dropHostOk (s : State) (c : Nat) : State :=
  if s.loam.hostOk = some c then { s with loam := { s.loam with hostOk := none } } else s

/-- A context becomes FREE; its registers return to reset. -/
def State.freeCtx (s : State) (c : Nat) : State := ((s.setCtx c {}).dropHostOk c).wr (.pgs .disp) c 1

/-- RELEASE (R82). -/
def releaseCtx (c : Nat) (s : State) : State :=
  if !s.up .mem then s
  else if !s.ctxCmdState then s.pgsRefuse 4
  else if (s.ctx c).st ≠ .delivered then s.pgsRefuse 1
  else s.freeCtx c

def execRelease (c : Nat) (s : State) : Res := guardWF (decide (c < 256)) (s.hostWrite .pgs 0 fun s =>
    releaseCtx c s)

/-! ### The BAR2 aperture (R96) -/

/-- BAR2_READ (R96). While MEM does not answer, the error response completes poisoned with zeros (R13). -/
def bar2Read (x len : Nat) (ups : List Upset) (s : State) : State :=
  if !s.barUp then s
  else if !s.up .mem then s.emit (.bar2Data (List.replicate len 0) true)
  else
    let a := 65536 * s.rd (.pgs .apbase) + x
    let n := min len (s.hw.usable - a)
    let s := s.upset ups
    let q := s.readEcc a n
    let s := if n < len then q.2.ev (.pgs .apRange) else q.2
    s.emit (.bar2Data (s.bytes a n ++ List.replicate (len - n) 0) q.1)

def execBar2Read (x len : Nat) (ups : List Upset) (s : State) : Res :=
  guardWF (decide (1 ≤ len) && decide (x + len ≤ 4294967296) && s.hw.upsOk ups) (bar2Read x len ups s)

/-- BAR2_WRITE (R96): bursts in extents of band records and behind the usable space are dropped. -/
def bar2Write (x : Nat) (data : List Byte) (ups : List Upset) (s : State) : State :=
  if !s.barUp then s
  else if s.ldr.st = .applying then s.deny
  else if !s.up .mem then s
  else
    let a := 65536 * s.rd (.pgs .apbase) + x
    let s := s.upset ups
    (burstsOf a data).foldl (fun t b =>
      if s.hw.usable ≤ b.1 then t.ev (.pgs .apRange)
      else if t.touchesBand b.1 1 then t.ev (.pgs .apDenied)
      else t.writeBurst b.1 b.2) s

def execBar2Write (x : Nat) (data : List Byte) (ups : List Upset) (s : State) : Res :=
  guardWF (decide (1 ≤ data.length) && decide (x + data.length ≤ 4294967296) && s.hw.upsOk ups) (bar2Write x data ups s)

/-! ### Imaging reads (R92, R125) -/

/-- The context whose band number `band` the imaging decompressor of station `k` is reading: the first in the station's
queue that has such a band. -/
def State.readingCtx (s : State) (k band : Nat) : Option (Nat × Nat) :=
  (s.imagingOn k).findSome? fun c =>
    if decide ((s.ctx c).plane k |>.done) then none else (s.findBand c k band).map fun r => (c, r)

/-- Grid lines to a stored line (R144). -/
def Ctx.grid (x : Ctx) : Nat := if x.res1200 then 2 else 1

/-- Lines of a band that came out of the decompressor before it stopped. -/
def linesBefore (x : Ctx) (produced : Nat) : Nat := if x.lineBytes = 0 then 0 else produced / x.lineBytes

/-- The stream of band record `r` ends on the imaging decompressor of station `k` with an error at stream byte `pos`, after `produced`
bytes of output: it is shown, and the data is late (R92, R125). Lines that Silt holds already are exposed (R164). -/
def State.imagingStop (s : State) (k c r code pos produced : Nat) : State :=
  let x := s.ctx c
  let b := s.band r
  let w := if code = 14 then Late.readError
    else if code = 9 ∨ code = 10 ∨ (code = 11 ∧ pos < b.storedLen) then Late.trailer else Late.decodeError
  (s.engineError (8 + s.rd (.pgs .decAssign) k) code pos).late w c k r
    (max (x.plane k).silt ((256 * b.band + linesBefore x produced) * x.grid))

/-- How an imaging decompressor's read of band record `r` ends: it reads up to stream byte `o` or to the first uncorrectable burst, where
an access meets an error, and stops there or at the first check that fails before (R476). -/
def State.imagingEnd (s : State) (r o : Nat) : (Nat × Nat) × DState :=
  let b := s.band r
  let o := min o ((s.firstBad b).getD o)
  bandDecode ((s.stored b).take o) b.storedLen (s.expect b)

/-- Station `k`'s imaging decompressor reads the stream of band record `r` up to stream byte `o` at most. An error response of an island
that does not answer is no error of the store (R13). -/
def State.imagingRead (s : State) (k c r o : Nat) : State :=
  let b := s.band r
  let d := s.imagingEnd r o
  if d.1.1 = 0 then s
  else
    let s := s.countSingles b d.1.2
    let s := if d.1.1 = 14 ∧ s.up .mem ∧ s.ecc (b.burst d.1.2) = .bad then s.ueHit (b.burst d.1.2) else s
    s.imagingStop k c r d.1.1 d.1.2 d.2.out.size

/-- IMAGING_READ_UE (R92): an uncorrectable error at stream byte `off` of the band; the burst keeps it (R70). -/
def imagingReadUe (k band off : Nat) (s : State) : State :=
  if !(s.up .cmp && s.vidUp k) then s
  else
    match s.readingCtx k band with
    | none => s
    | some (c, r) =>
      let b := s.band r
      if b.storedLen ≤ off then s
      else
        let s := if s.up .mem then s.setEcc (b.burst off) .bad else s
        s.imagingRead k c r (off / 64 * 64)

def execImagingReadUe (k band off : Nat) (s : State) : Res :=
  guardWF (decide (k < 8) && decide (band < 4096) && decide (off < 2097151)) (imagingReadUe k band off s)

/-- IMAGING_DECODE_ERROR (R125): the decompressor stops on an error response, or on the first failing check of the stored stream.
Which burst meets the error response is open: a free value (log 2). -/
def imagingDecodeError (k band : Nat) (bus : Bool) (s : State) : State :=
  if !(s.up .cmp && s.vidUp k) then s
  else
    match s.readingCtx k band with
    | none => s
    | some (c, r) =>
      let n := (s.band r).storedLen
      if bus then
        let q := s.fresh 15
        q.2.imagingRead k c r (64 * (q.1 % ((n + 63) / 64)))
      else s.imagingRead k c r n

def execImagingDecodeError (k band : Nat) (bus : Bool) (s : State) : Res :=
  guardWF (decide (k < 8) && decide (band < 4096)) (imagingDecodeError k band bus s)

/-- The decompressor of station `k` gets no data: it is isolated or in reset, or the page store does not answer (R13, R137). -/
def State.imagerDead (s : State) (k : Nat) : Bool :=
  !s.up .mem || !s.up .cmp || s.rd (.cmp .jState) (8 + s.rd (.pgs .decAssign) k) == 7

/-- The video path of station `k`, with `avail` lines of context `c` decoded, comes to band `i` of its plane: a band that has FAILED,
or that cannot be read, is late data at its first line (R92); errors corrected on the way are counted (R70), and a stream that does
not yield a line that is said to be decoded stops at its error (R125). -/
def State.siltBand (s : State) (k c avail i : Nat) : State :=
  let x := s.ctx c
  let q := x.plane k
  let first := 256 * i * x.grid
  let stop := min x.lines (first + 256 * x.grid)
  let dark := match q.blankFrom with
    | some m => decide (m ≤ first)
    | none => false
  if dark || decide (avail < first) || decide (stop ≤ q.silt) then s
  else
    match s.findBand c k i with
    | none => s
    | some r =>
      let b := s.band r
      if b.st == .failed then s.late .readError c k r (max q.silt first)
      else if s.imagerDead k then (if q.silt ≤ first then s.imagingStop k c r 14 0 0 else s)
      else if avail ≤ q.silt then s
      else
        let d := bandDecode (s.readable b) b.storedLen (s.expect b)
        if d.1.1 = 0 then (if stop ≤ avail then s.countSingles b b.storedLen else s)
        else if first + linesBefore x d.2.out.size * x.grid ≤ avail then s.imagingRead k c r b.storedLen
        else s

/-- Station `k`'s decompressor has written lines of context `c` to Silt, `avail` in all (R159). -/
def State.siltAdvance (s : State) (k c avail : Nat) : State :=
  let x := s.ctx c
  let per := 256 * x.grid
  let from_ := (x.plane k).silt / per
  let s := (List.range (min avail (x.lines - 1) / per + 1 - from_)).foldl (fun t i => t.siltBand k c avail (from_ + i)) s
  let x := s.ctx c
  let q := x.plane k
  let top := match q.blankFrom with
    | some m => min m x.lines
    | none => x.lines
  s.setCtx c (x.setPlane k { q with silt := max q.silt (min avail top) })

/-- The context and band record that the imaging decompressor of station `k` is decoding (R101, R138). -/
def State.streamOf (s : State) (k : Nat) : Option (Nat × Nat) :=
  (s.imagingOn k).findSome? fun c =>
    let x := s.ctx c
    let q := x.plane k
    let dark := match q.blankFrom with
      | some m => decide (m ≤ q.silt)
      | none => false
    if dark || q.done || decide (x.lines ≤ q.silt) then none
    else (s.findBand c k (q.silt / (256 * x.grid))).map fun r => (c, r)

end Sys2Proof.Machine
end

