-- ==== Sys2Proof/Machine/Gate.lean ====
section
/-! DEFINITION. The admission gate (R83 to R91): the head of the queue, the decompressor and memory checks, the host's decision
(R90) and the cascade's agreement (R316). -/

namespace Sys2Proof.Machine

open Sys2Proof

/-- `a` comes before `b` in the queue: the signed 16-bit difference is negative (R83). -/
def seqBefore (a b : Nat) : Bool := decide (toSigned 16 ((a + 65536 - b) % 65536) < 0)

/-- The head of the admission queue: the queued CLOSED, READY or BLOCKED context with the lowest SEQ (R83). -/
def State.head (s : State) : Option Nat :=
  let q := s.loam.ctxs.filter fun e => e.2.queued && (e.2.st == .closed || e.2.st == .ready || e.2.st == .blocked)
  (q.foldl (fun (b : Option (Nat × Ctx)) e =>
    match b with
    | none => some e
    | some h => if seqBefore e.2.seq h.2.seq then some e else b) none).map (·.1)

/-- A unit is isolated, in its reset, in its own check, or waits for its boundary (R358, R359). -/
def State.unitOut (s : State) (u : UnitId) : Bool :=
  s.flt.isolated.contains u || s.flt.resetting.contains u || s.flt.checking.contains u || s.flt.retpend.contains u

/-- Imaging decompressor `j` is in service: populated, in band mode, CMP up, and not out of service or waiting for the boundary at
which it rejoins (R86, R91, R131). -/
def State.decInService (s : State) (j : Nat) : Bool :=
  s.hw.engine (8 + j) && decide (j < 8) && s.up .cmp && s.rd (.cmp .emode) (8 + j) == 0 &&
    !s.cmp.rejoin.contains (8 + j) && !s.unitOut (.engine (8 + j))

/-- A decompressor's load: twice the raw demand of its streams, and how many streams. -/
abbrev Loads := List (Nat × Nat)

/-- A load fits: 2 × load ≤ 2 × C, with C = 2.5 GB/s × (100 - DEC_MARGIN) / 100 (R86). -/
def fits (margin load2 : Nat) : Bool := decide (100 * load2 ≤ 5000000000 * (100 - margin))

/-- Add a stream to a decompressor. -/
def addLoad (l : Loads) (j d : Nat) : Loads := l.modify j fun x => (x.1 + d, x.2 + 1)

/-- The demand set of station `k`, with the head in its own mask (R85). -/
def State.demandWith (s : State) (h : Ctx) (k : Nat) : List Ctx := s.demand k ++ if h.has k then [h] else []

/-- The assignment of R86 with the head admitted: the decompressor of each station not busy that needs one, or `none`. -/
def State.decPlan (s : State) (h : Ctx) : Option (List (Nat × Nat)) :=
  let margin := s.rd (.pgs .decMargin)
  let ks := (List.range 8).filter fun k => !(s.demandWith h k).isEmpty
  let d (k : Nat) : Nat := s.demand2 (s.demandWith h k)
  let pinned := ks.filter s.busy
  let l0 : Loads := pinned.foldl (fun l k => addLoad l (s.rd (.pgs .decAssign) k) (d k)) (List.replicate 8 (0, 0))
  if !(l0.all fun x => fits margin x.1) then none
  else
    (ks.filter fun k => !s.busy k).foldl (fun (r : Option (Loads × List (Nat × Nat))) k =>
      r.bind fun r =>
        ((List.range 8).find? fun j =>
          s.decInService j && decide ((r.1.getD j (0, 0)).2 < 2) && fits margin ((r.1.getD j (0, 0)).1 + d k)).map fun j =>
            (addLoad r.1 j (d k), r.2 ++ [(k, j)])) (some (l0, [])) |>.map (·.2)

/-- The memory check of R87. -/
def State.memFits (s : State) (h : Ctx) : Bool :=
  decide (s.memDemand512 (some h) ≤ s.rd (.pgs .loamBudget) * 512000000)

/-- The first condition of R85 that fails, as ADM_REFUSE; 0 when the gate passes. Severity 3 counts as not armed
(R349), and so does a halted core pair (R19). -/
def State.gateRefusal (s : State) : Nat :=
  if s.ldr.st != .armed || s.recordAt 3 || s.cores.haltedA || s.cores.haltedB then 1
  else
    match s.head with
    | none => 6
    | some c =>
      let x := s.ctx c
      if x.st != .ready then 5
      else if (s.decPlan x).isNone then 2
      else if !s.memFits x then 3
      else 0

/-- Show why the gate refuses (R85). -/
def State.refuse (s : State) (code : Nat) : State := s.wr (.pgs .admRefuse) 0 code

/-- Admit a context (R82, R86 to R88): it is imaged on every station of its mask. A context without planes has nothing to
expose and is EXPOSED at once (log 22). -/
def State.admitCtx (s : State) (c : Nat) : State :=
  let x := s.ctx c
  let plan := (s.decPlan x).getD []
  let s := plan.foldl (fun t e => t.wr (.pgs .decAssign) e.1 e.2) s
  let s := (s.setCtx c { x with queued := false, admitTime := s.etime }).toState c .admitted
  let s := x.planeList.foldl (fun t k =>
    t.setStn k { t.stn k with queue := (t.stn k).queue ++ [{ ctx := c, t0 := none, j0 := none, follows := t.web }] }) s
  let s := { s with loam := { s.loam with request := false, withheld := false, hostOk := none } }
  let s := (s.refuse 0).closeDecision 1 c
  let s := if s.web then
      { s with pth := { s.pth with
          frames := s.pth.frames ++ [{ ctx := c, first := s.pth.nextLine }]
          nextLine := s.pth.nextLine + x.lines } }
    else s
  let s := if x.planeList.isEmpty then s.toState c .exposed else s
  s.settleGate

/-- The DATA of an ADMIT post (R434). -/
def Ctx.admitData (x : Ctx) : List Nat :=
  leBytes x.seq 2 ++ [x.planes, bit x.res1200] ++ leBytes x.lineBytes 2 ++ leBytes x.linesM1 4 ++ leBytes x.peak 4 ++
    leBytes x.tag 4

/-- The gate has passed: the head is admitted, or on a cascade master ask the slaves first (R316). -/
def State.passGate (s : State) (c : Nat) : State :=
  if s.cslRole = 1 then
    match s.csl.query with
    | some _ => s
    | none => { s with csl := { s.csl with query := some c, agreed := [] } }.broadcast 4 [(s.ctx c).tag]
  else s.admitCtx c

/-- Evaluate a pending request (R85, R88, R90). -/
def State.gate (s : State) : State :=
  if !s.loam.request then s
  else
    let r := s.gateRefusal
    if r ≠ 0 then s.refuse r
    else
      match s.head with
      | none => s
      | some c =>
        if s.on (.pgs .admMode) && s.loam.hostOk != some c then
          if s.loam.withheld || s.decisionOpen 1 c then s else s.post 1 c (s.ctx c).admitData
        else s.passGate c

/-- The path tracker makes a feed or frame request; a withheld head may be posted again (R85, R90). -/
def State.requestGate (s : State) : State :=
  { s with loam := { s.loam with request := true, withheld := false } }.gate

/-- ADMISSION_GATE_EVALUATE (R88). In web mode the request stands, so this is also the next request after a withhold (log 23). -/
def admissionGateEvaluate (s : State) : State :=
  if !s.up .mem then s
  else if s.web && s.loam.request then { s with loam := { s.loam with withheld := false } }.gate
  else s.gate

def execAdmissionGateEvaluate (s : State) : Res := guardWF true (admissionGateEvaluate s)

/-- The host's answer to an ADMIT post (R90): 1 admits, 2 withholds. On a cascade slave the head is then ready for the master's feed
(R316). -/
def State.admitAnswer (s : State) (c code : Nat) : State :=
  if code = 2 then { s with loam := { s.loam with withheld := true } }.refuse 4
  else
    let r := s.gateRefusal
    if r ≠ 0 then s.refuse r
    else if s.head = some c then
      let s := { s with loam := { s.loam with hostOk := some c } }
      if s.isSlave then s else s.passGate c
    else s

end Sys2Proof.Machine
end

