-- ==== Sys2Proof/Machine/Motion.lean ====
section
/-! DEFINITION. Motion axes (chapter "Motion axes"): the interpolator (R207, R212), the planner (R208 to R210, R224, R225),
encoders (R213 to R215), limits (R217, R218), latches (R219), homing (R220 to R223) and the axis commands (R226). What the
planner's words leave open is fixed as log 24 to 26 say. -/

namespace Sys2Proof.Machine

open Sys2Proof

/-! ### Units (R206) -/

/-- Sign as -1, 0 or 1. -/
def sgn (z : Int) : Int := if z < 0 then -1 else if 0 < z then 1 else 0

/-- VMAX in 2^-64 step per clock. -/
def State.axV (s : State) (k : Nat) : Int := (s.lv (.mot .vmax) k : Int) * 2 ^ 48

/-- AMAX, DMAX, QDEC and LIMDEC in 2^-64 step per clock², JMAX in 2^-64 step per clock³. -/
def State.axA (s : State) (k : Nat) : Int := (s.lv (.mot .amax) k : Int) * 65536
def State.axD (s : State) (k : Nat) : Int := (s.lv (.mot .dmax) k : Int) * 65536
def State.axQ (s : State) (k : Nat) : Int := (s.lv (.mot .qdec) k : Int) * 65536
def State.axL (s : State) (k : Nat) : Int := (s.lv (.mot .limdec) k : Int) * 65536
def State.axJ (s : State) (k : Nat) : Int := s.lv (.mot .jmax) k

/-- The axis has a planner: kind step or reference (R205). -/
def State.planned (s : State) (k : Nat) : Bool := decide (k < s.hw.axes) && decide (s.rd (.mot .axtype) k < 2)

/-- MOT is out of reset and the axis is populated. -/
def State.axUp (s : State) (k : Nat) : Bool := s.up .mot && decide (k < s.hw.axes)

/-- Axis state of R226: 0 DISABLED, 1 STANDSTILL, 2 MOVING, 3 HOMING, 4 STOPPING, 5 FAULT. -/
def State.axSt (s : State) (k : Nat) : Nat := s.rd (.mot .state) k
def State.setAxSt (s : State) (k st : Nat) : State := s.wr (.mot .state) k st

/-- Refuse an axis command (R226). -/
def State.axRefuse (s : State) (k cause : Nat) : State := (s.ev (.mot .cmdErr) k).wr (.mot .cmdCause) k cause

/-- The axis is at rest. -/
def Axis.still (x : Axis) : Bool := x.v == 0 && x.a == 0

/-! ### The planner's arithmetic (R208) -/

/-- Whether a stop from speed `v0 > 0` with a = 0 takes at least the distance `r`: the two closed forms of R208. -/
def stopFrom (v0 r d j : Rat) : Bool :=
  if r ≤ 0 then true
  else if d * d ≤ v0 * j then decide (r ≤ v0 * v0 / (2 * d) + v0 * d / (2 * j))
  else decide (r * r * j ≤ v0 * v0 * v0)

/-- Whether the stopping distance from (v, a) under DMAX and JMAX is at least `dist`, for v > 0 (R208; log 24 for a ≠ 0). -/
def stopAtLeast (v a d j dist : Int) : Bool :=
  if d ≤ 0 ∨ j ≤ 0 then true
  else
    let v : Rat := v
    let a : Rat := a
    let d : Rat := d
    let j : Rat := j
    let r : Rat := dist
    if 0 ≤ a then stopFrom (v + a * a / (2 * j)) (r - (v * a / j + a * a * a / (3 * j * j))) d j
    else if v < a * a / (2 * j) then decide (r ≤ v * v / (2 * -a))
    else
      let v0 := v + a * a / (2 * j)
      stopFrom v0 (r + (v0 * -a / j - -a * a * a / (6 * j * j))) d j

/-- The acceleration to aim at for a velocity target `vt` (R208): AMAX while speeding up, DMAX while slowing down, easing to 0
so that a reaches 0 as v reaches vt (log 24). -/
def aimFor (v a vt amax dmax jmax : Int) : Int :=
  let e := vt - v
  if e = 0 then 0
  else if sgn a = sgn e ∧ 2 * jmax * e.natAbs ≤ a * a then 0
  else sgn e * (if 0 ≤ sgn e * sgn v then amax else dmax)

/-- The jerk that moves `a` toward its aim, reaching it within the tick without passing it; what is left of `a` below the
resolution of one tick is taken at once (R208). -/
def jerkFor (a aim jmax : Int) : Int × Int :=
  let d := aim - a
  if d.natAbs < 1000 then (0, if 0 < jmax then aim else a) else (clampInt (tdiv d 1000) (-jmax) jmax, a)

/-- Plan toward a velocity target. -/
def Axis.toward (x : Axis) (vt amax dmax jmax : Int) : Axis :=
  let q := jerkFor x.a (aimFor x.v x.a vt amax dmax jmax) jmax
  { x with j := q.1, a := q.2, vgoal := vt }

/-- The velocity target of a position move with distance `d` steps left and velocity limit `vmax` (R208). -/
def moveTarget (v a d vmax dmax jmax : Int) : Int :=
  let opposes := decide (v * d < 0) || (d == 0 && v != 0)
  let near := if 0 < v then stopAtLeast v a dmax jmax (d * 2 ^ 64)
    else if v < 0 then stopAtLeast (-v) (-a) dmax jmax (-d * 2 ^ 64) else false
  if opposes || near then 0 else sgn d * vmax

/-- Stop without a jerk limit at `dec` (R217, R226). -/
def Axis.brake (x : Axis) (dec : Int) : Axis := { x with j := 0, a := -(sgn x.v * dec), vgoal := 0 }

/-- Everything at rest; a held step is dropped (R226). -/
def Axis.halted (x : Axis) : Axis :=
  { x with j := 0, a := 0, v := 0, vgoal := 0, plan := .rest, creeping := false, segs := [], seg := none, due := 0, limStop := false }

/-! ### Positions and encoders (R213 to R215) -/

def State.cmdpos (s : State) (k : Nat) : Int := s.rdS (.mot .cmdpos) k
def State.actpos (s : State) (k : Nat) : Int := s.rdS (.mot .actpos) k

/-- The reversal hysteresis of R214, for one new position. -/
def Axis.track (x : Axis) (pos hyst : Int) : Axis :=
  if x.encRev then
    if pos < x.ext then { x with ext := pos } else if x.ext + hyst < pos then { x with encRev := false, ext := pos } else x
  else if x.ext < pos then { x with ext := pos } else if pos < x.ext - hyst then { x with encRev := true, ext := pos } else x

/-- The actual position changes; the estimator follows (R214, R474). -/
def State.setActpos (s : State) (k : Nat) (p : Int) : State :=
  let s := s.wrS (.mot .actpos) k p
  s.setAxis k ((s.axis k).track (s.actpos k) (s.rd (.mot .hyst) k))

/-- cmdpos × NUM / DEN in counts, rounded toward zero (R215). -/
def State.cmdCounts (s : State) (k : Nat) : Int :=
  tdiv (s.cmdpos k * s.rdS (.mot .num) k) (max 1 (s.rd (.mot .den) k) : Nat)

/-- MOT_DEV (R215). -/
def State.deviation (s : State) (k : Nat) : Int :=
  tdiv (s.cmdpos k * s.rdS (.mot .num) k - s.actpos k * (max 1 (s.rd (.mot .den) k) : Nat)) (max 1 (s.rd (.mot .den) k) : Nat)

/-- Set the commanded position and align the actual one (R215). -/
def State.setPosition (s : State) (k : Nat) (p : Int) : State :=
  let was := s.actpos k
  let s := s.wrS (.mot .cmdpos) k p
  let s := s.setActpos k (s.cmdCounts k)
  let x := s.axis k
  let s := s.setAxis k { x with revAct := x.revAct + (s.actpos k - was) }
  s.wrS (.mot .dev) k 0

/-- What one filtered edge of the encoder counts, and the edges seen since the last count (R213): one in quadrature ×4 and in count
and direction, and one in four edges, at the same phase in both directions, in quadrature ×1 (log 143). -/
def encoderStep (mode sub : Nat) (forward : Bool) : Int × Nat :=
  if mode ≠ 2 then (if forward then 1 else -1, sub)
  else if forward then (if sub = 3 then (1, 0) else (0, sub + 1))
  else if sub = 0 then (-1, 3) else (0, sub - 1)

/-- The axis has an encoder that counts: fitted, on an axis that is not off (R205, R213). -/
def State.counts (s : State) (k : Nat) : Bool := s.axUp k && s.on (.mot .encEn) k && decide (s.rd (.mot .axtype) k < 3)

/-- ENCODER_EDGE (R213, R214): a filtered edge of a fitted encoder. -/
def encoderCount (k : Nat) (forward : Bool) (s : State) : State :=
  if s.counts k then
    let x := s.axis k
    let q := encoderStep (s.rd (.mot .encMode) k) x.encSub (forward != s.on (.mot .encInv) k)
    let s := s.setAxis k { x with encSub := q.2 }
    if q.1 = 0 then s else s.setActpos k (s.actpos k + q.1)
  else s

/-- ENCODER_ERROR (R213): both quadrature channels have changed at once. -/
def encoderError (k : Nat) (s : State) : State :=
  if s.counts k && s.rd (.mot .encMode) k != 1 then (s.ev (.mot .encErr) k).count (.mot .encErrCnt) k else s

def execEncoderError (k : Nat) (s : State) : Res := guardWF (decide (k < 48)) (encoderError k s)

/-! ### The interpolator (R207, R211, R212) -/

/-- Level of the direction output: the sign of v, DIR_INV applied (R211). -/
def State.dirLevel (s : State) (k : Nat) : Bool := (s.axis k).dirNeg != s.on (.mot .dirInv) k

/-- Put out one step of a step axis in the form that STEPMODE selects (R211; log 143). -/
def State.putStep (s : State) (k : Nat) (up : Bool) : State :=
  let back := !up != s.on (.mot .dirInv) k
  let w := s.rd (.mot .stepw) k
  match s.rd (.mot .stepmode) k with
  | 1 => s.emit (.turnPulse k back w)
  | 2 =>
    let x := s.axis k
    let g := (x.gray + if back then 3 else 1) % 4
    (s.setAxis k { x with gray := g }).emit (.quadrature k (g == 1 || g == 2) (decide (2 ≤ g)))
  | _ => s.emit (.stepPulse k (s.dirLevel k) w)

/-- Emit one step: cmdpos counts it, and a step axis puts it out. A move that passes its target sets OVERSHOOT (R210). -/
def State.emitStep (s : State) (k : Nat) (up : Bool) : State :=
  let s := s.wrS (.mot .cmdpos) k (s.cmdpos k + if up then 1 else -1)
  let s := if s.rd (.mot .axtype) k = 0 then s.putStep k up else s
  let x := s.axis k
  let d := sgn (x.goal - s.cmdpos k)
  if x.plan == .move && !x.creeping && d != 0 && d != x.side then
    (s.ev (.mot .overshoot) k).setAxis k { x with side := d }
  else s

/-- The velocity reaches its aim inside a clock: the axis stays there. A stop ends at rest; a ramp's small rest of `a` ends. -/
def Axis.settle (x : Axis) (v0 : Int) (jmax : Int) : Axis :=
  let crossed := decide ((v0 - x.vgoal) * (x.v - x.vgoal) ≤ 0) && v0 != x.vgoal
  if crossed ∧ (x.plan = .quick ∨ x.plan = .limit ∨ x.a.natAbs ≤ 1000 * jmax) then { x with v := x.vgoal, a := 0, j := 0 } else x

/-- The limits of R208 hold in every clock: |a| within AMAX while speeding up and DMAX while slowing down, and |v| within VMAX, or
not growing where VMAX has been lowered below it (R210). `v0` is the velocity before the clock. -/
def Axis.bounded (x : Axis) (v0 vmax amax dmax : Int) : Axis :=
  let lim := if 0 ≤ sgn x.a * sgn v0 then amax else dmax
  let a := clampInt x.a (-lim) lim
  let v1 := if a = x.a then x.v else v0 + a
  let cap := max vmax v0.natAbs
  let v := clampInt v1 (-cap) cap
  { x with a := if v = v1 then a else v - v0, v := v }

/-- The interpolator's clamp of a segment (R224): |a| and |v| are held within the limits. -/
def Axis.segBounded (x : Axis) (v0 vmax amax dmax : Int) : Axis :=
  let lim := if 0 ≤ sgn x.a * sgn v0 then amax else dmax
  let a := clampInt x.a (-lim) lim
  { x with a := a, v := clampInt (if a = x.a then x.v else v0 + a) (-vmax) vmax }

/-- a and v after one clock, before any clamp (R207). -/
def Axis.ramp (x : Axis) (jmax : Int) : Axis :=
  ({ x with a := x.a + x.j, v := x.v + (x.a + x.j) } : Axis).settle x.v jmax

/-- a and v after one clock (R207, R208, R224). Stops at QDEC or LIMDEC and creeping have rates of their own. -/
def Axis.advance (x : Axis) (vmax amax dmax jmax : Int) : Axis :=
  let y := x.ramp jmax
  match x.plan with
  | .quick => y
  | .limit => y
  | .seg => y.segBounded x.v vmax amax dmax
  | _ => if x.creeping then y else y.bounded x.v vmax amax dmax

/-- One clock of one axis (R207). -/
def clockAxis (k : Nat) (s : State) : State :=
  let x := s.axis k
  if !s.planned k || s.unitOut (.axis k) || (x.j == 0 && x.still && x.due == 0 && x.hold == 0) then s
  else
    let y := x.ramp (s.axJ k)
    let x := x.advance (s.axV k) (s.axA k) (s.axD k) (s.axJ k)
    let s := if x.plan = .seg ∧ (x.a ≠ y.a ∨ x.v ≠ y.v) then s.ev (.mot .segClamp) k else s
    let turn := x.v != 0 && (decide (x.v < 0) != x.dirNeg)
    let x := if turn then { x with dirNeg := !x.dirNeg, hold := s.rd (.mot .dirset) k, revAct := s.actpos k } else x
    let p : Int := (x.phase : Int) + tdiv x.v (2 ^ 32)
    let moved : Int := p / 2 ^ 32 - (x.phase : Int) / 2 ^ 32
    let x := { x with phase := (p % 2 ^ 48).toNat }
    let held := moved != 0 && (x.hold != 0 || x.due != 0)
    let s := if held then s.count (.mot .held) k else s
    let x := if held then { x with due := x.due + moved } else x
    let ready := x.hold == 0
    let x := { x with hold := x.hold - 1 }
    let go : Int := if moved ≠ 0 ∧ ¬held then moved else if ready ∧ x.due ≠ 0 then sgn x.due else 0
    let x := if ready ∧ x.due ≠ 0 ∧ (held ∨ moved = 0) then { x with due := x.due - sgn x.due } else x
    let s := s.setAxis k x
    let s := if go = 0 then s else s.emitStep k (decide (0 < go))
    let x := s.axis k
    let s := if x.creeping && s.cmdpos k == x.goal then s.setAxis k { x with v := 0, a := 0, j := 0, vgoal := 0 } else s
    let x := s.axis k
    (s.wrS (.mot .vel) k (tdiv x.v (2 ^ 48))).wrS (.mot .acc) k (tdiv x.a (2 ^ 16))

/-- One clock of all axes. -/
def clockAxes (s : State) : State := (List.range s.hw.axes).foldl (fun t k => clockAxis k t) s

/-! ### Homing (R220 to R223) -/

/-- HSTATE: 0 IDLE, 1 CLEAR, 2 SEEK, 3 INDEX, 4 DECEL, 5 OFFSET, 6 DONE, 7 FAILED. -/
def State.hst (s : State) (k : Nat) : Nat := s.rd (.mot .hstate) k

/-- Direction of the search: 1 or -1. -/
def State.hdir (s : State) (k : Nat) : Int := if s.on (.mot .hdir) k then -1 else 1

/-- Homing is between CLEAR and OFFSET. -/
def State.homingNow (s : State) (k : Nat) : Bool := s.axSt k == 3 && decide (1 ≤ s.hst k) && decide (s.hst k ≤ 5)

/-- Homing fails with an HCAUSE (R222). -/
def State.homeFail (s : State) (k cause : Nat) : State := (s.wr (.mot .hstate) k 7).wr (.mot .hcause) k cause

/-- Latch the homing positions (R220, R221). -/
def State.homeLatch (s : State) (k : Nat) (c a : Int) : State := (s.wrS (.mot .hlatch) k c).wrS (.mot .hlatcha) k a

/-- Move to a position as part of homing. -/
def State.planMove (s : State) (k : Nat) (goal : Int) : State :=
  let x := s.axis k
  s.setAxis k { x with plan := .move, goal := goal, side := sgn (goal - s.cmdpos k), creeping := false }

/-- Give an axis a plan. -/
def State.setPlan (s : State) (k : Nat) (p : Plan) : State := s.setAxis k { s.axis k with plan := p, creeping := false, soft := none }

/-- The reference is a hard limit, in a homing by method 4 (R221). -/
def State.refLimit (s : State) (k : Nat) : Bool := s.homingNow k && s.rd (.mot .method) k == 4

/-- Raw level of the homing reference (R220). -/
def State.refRaw (s : State) (k : Nat) : Bool := if s.refLimit k then (s.axis k).limRaw else (s.axis k).homeRaw

/-- Start the homing of R222 from IDLE. -/
def State.homeStart (s : State) (k : Nat) : State :=
  let s := (((s.clr (.mot .hcause) k).clr (.mot .hedges) k).clr (.mot .hchatter) k).clr (.mot .homed) k
  let x := s.axis k
  let lim := s.on (.mot (if s.on (.mot .hdir) k then .limN else .limP)) k
  let s := s.setAxis k { x with cand := none, committed := false, homeFrom := s.cmdpos k, limRaw := lim }
  let m := s.rd (.mot .method) k
  if m = 6 then
    let s := s.homeLatch k (s.cmdpos k) (s.actpos k)
    ((s.setPosition k (s.rdS (.mot .hpos) k)).ev (.mot .homed) k).wr (.mot .hstate) k 6
  else
    let active := if m = 4 then lim else s.on (.mot .homeSw) k
    let s := s.setAxSt k 3
    (s.wr (.mot .hstate) k (if (m = 1 ∨ m = 2 ∨ m = 4) ∧ active then 1 else 2)).setPlan k .seek

/-- The reference is the hard limit in direction HDIR, which then does not act as a limit (R223). -/
def State.limitIsHome (s : State) (k : Nat) (positive : Bool) : Bool :=
  s.homingNow k && s.rd (.mot .method) k == 4 && (s.hst k == 1 || s.hst k == 2) && positive != s.on (.mot .hdir) k

/-- A stop of a moving or homing axis (R226): a homing fails with HOME_STOPPED (R222). -/
def State.axStop (s : State) (k : Nat) (p : Plan) : State :=
  let s := if s.homingNow k then s.homeFail k 3 else s
  let s := s.setAxSt k 4
  s.setAxis k { s.axis k with plan := p, creeping := false, segs := [], seg := none }

/-- HALT (R226): steps cease in the next clock. -/
def State.axHalt (s : State) (k : Nat) : State :=
  let s := if s.homingNow k then s.homeFail k 3 else s
  let s := if (s.axis k).limStop then s.ev (.mot .limEv) k else s
  let s := s.setAxis k (s.axis k).halted
  (s.clr (.mot .vel) k).clr (.mot .acc) k

/-- HOME_RAW_EDGE (R220). -/
def homeRawEdge (k : Nat) (active : Bool) (s : State) : State :=
  if !s.axUp k then s
  else
    let x := s.axis k
    if s.refRaw k == active then s
    else
      let x := if s.refLimit k then { x with limRaw := active } else { x with homeRaw := active }
      let s' := s.setAxis k x
      if s.homingNow k && x.committed then s'.count (.mot .hedges) k
      else if s.homingNow k && s.hst k == 2 && s.rd (.mot .method) k != 3 && s.rd (.mot .method) k != 5 then
        if active != s.on (.mot .hedge) k then s'.setAxis k { x with cand := some (s.cmdpos k, s.actpos k) }
        else if x.cand.isSome then (s'.setAxis k { x with cand := none }).count (.mot .hchatter) k
        else s'
      else s'

/-- HOME_QUALIFIED (R220): the reference has held its level for HQUAL ticks. -/
def homeQualified (k : Nat) (s : State) : State :=
  if !s.axUp k then s
  else
    let x := s.axis k
    let raw := s.refRaw k
    let s := if s.refLimit k then s else s.wrB (.mot .homeSw) k raw
    if !s.homingNow k then s
    else if s.hst k = 1 ∧ !raw then (s.wr (.mot .hstate) k 2).setPlan k .seek
    else
      match x.cand with
      | some (c, a) =>
        if s.hst k = 2 then
          let s := (s.homeLatch k c a).setAxis k { x with cand := none, committed := true, switchAt := s.cmdpos k }
          if s.rd (.mot .method) k = 2 then s.wr (.mot .hstate) k 3 else (s.wr (.mot .hstate) k 4).setPlan k .stop
        else s
      | none => s

/-- The input that a latch watches is the encoder index, the home input or the latch pin; INDEX_EDGE serves homing (R222). -/
def indexEdge (k : Nat) (s : State) : State :=
  if s.axUp k && s.on (.mot .encEn) k && s.homingNow k &&
      (s.hst k == 3 || (s.hst k == 2 && s.rd (.mot .method) k == 3)) then
    (((s.homeLatch k (s.cmdpos k) (s.actpos k)).setAxis k { s.axis k with committed := true }).wr (.mot .hstate) k 4).setPlan k .stop
  else s

def execHomeRawEdge (k : Nat) (active : Bool) (s : State) : Res := guardWF (decide (k < 48)) (homeRawEdge k active s)
def execHomeQualified (k : Nat) (s : State) : Res := guardWF (decide (k < 48)) (homeQualified k s)
def execIndexEdge (k : Nat) (s : State) : Res := guardWF (decide (k < 48)) (indexEdge k s)

/-! ### Limits (R217) -/

/-- LIMIT_ACTIVE (R217, R222, R223). -/
def limitActive (k : Nat) (positive : Bool) (s : State) : State :=
  if !s.axUp k then s
  else
    let s := s.wr (.mot (if positive then .limP else .limN)) k 1
    let x := s.axis k
    let into := if positive then decide (0 < x.v) else decide (x.v < 0)
    if s.limitIsHome k positive then s
    else
      let homing := s.homingNow k
      let s := if homing then (s.homeFail k 1).setAxSt k 4 else s
      if into ∧ s.planned k then
        let s := if s.axSt k = 2 ∨ s.axSt k = 3 then s.setAxSt k 4 else s
        let s := if x.plan = .seg then s.ev (.mot .segClamp) k else s
        s.setAxis k { x with plan := .limit, limStop := true, creeping := false, segs := [], seg := none }
      else if homing then s.setPlan k .limit
      else s

def execLimitActive (k : Nat) (positive : Bool) (s : State) : Res := guardWF (decide (k < 48)) (limitActive k positive s)

/-- LIMIT_INACTIVE (R217). -/
def execLimitInactive (k : Nat) (positive : Bool) (s : State) : Res :=
  guardWF (decide (k < 48)) (if s.axUp k then s.clr (.mot (if positive then .limP else .limN)) k else s)

/-! ### One tick of one axis -/

/-- The velocity cap of the present motion: HVEL or HVEL2 in homing, else VMAX (R222). -/
def State.axCap (s : State) (k : Nat) : Int :=
  if s.axSt k = 3 then
    min (s.axV k) ((s.rd (.mot (if s.hst k = 3 then .hvel2 else .hvel)) k : Int) * 2 ^ 32)
  else s.axV k

/-- The soft limit that a velocity target approaches, if soft limits act (R218). -/
def State.softLimit (s : State) (k : Nat) (vt : Int) : Option Int :=
  if s.on (.mot .slimEn) k && s.on (.mot .homed) k then
    if 0 < vt then some (s.rdS (.mot .slimp) k) else if vt < 0 then some (s.rdS (.mot .slimn) k) else none
  else none

/-- Cover the residue of a stop at MOT_CREEP, capped at VMAX, without a jerk limit (R209). -/
def State.creep (s : State) (k : Nat) (d : Int) : Axis :=
  let v := min ((s.rd (.mot .creep) k : Int) * 2 ^ 32) (s.axV k)
  { s.axis k with v := sgn d * v, a := 0, j := 0, vgoal := sgn d * v, creeping := true }

/-- Plan a velocity target. A soft limit that the motion approaches is planned for as the target of a position move would be: rest
exactly there, a residue covered by creeping (R208, R209, R218). Outside the limits, further out is no motion (log 143). -/
def State.planVelocity (s : State) (k : Nat) (vt : Int) : Axis :=
  let x := s.axis k
  let vt := clampInt vt (-(s.axV k)) (s.axV k)
  let free := { x with creeping := false, soft := none }
  match s.softLimit k vt with
  | none => free.toward vt (s.axA k) (s.axD k) (s.axJ k)
  | some lim =>
    let d := lim - s.cmdpos k
    if x.soft ≠ some lim ∧ d * sgn vt ≤ 0 then free.toward 0 (s.axA k) (s.axD k) (s.axJ k)
    else if x.creeping ∧ x.soft = some lim ∧ d ≠ 0 then x
    else
      let held := { x with creeping := false, soft := some lim }
      if x.still ∧ d ≠ 0 ∧ d.natAbs ≤ 2 then { s.creep k d with goal := lim, soft := some lim }
      else held.toward (moveTarget x.v x.a d vt.natAbs (s.axD k) (s.axJ k)) (s.axA k) (s.axD k) (s.axJ k)

/-- The velocity target of a geared axis: the master's v × GRATIO / 65,536 (R225). -/
def State.gearTarget (s : State) (k : Nat) : Int :=
  tdiv ((s.axis (s.rd (.mot .master) k)).v * s.rdS (.mot .gratio) k) 65536

/-- The direction in which an axis in segment mode moves or is about to move. -/
def Axis.heading (x : Axis) : Int :=
  if x.v ≠ 0 then sgn x.v
  else if x.a ≠ 0 then sgn x.a
  else
    match x.seg, x.segs with
    | some (j, _ + 1), _ => sgn j
    | _, (j, _) :: _ => sgn j
    | _, [] => 0

/-- The segment that runs, or at rest the one that would run next, is cut short at a limit (R224; log 25). -/
def Axis.cutSegment (x : Axis) : Axis :=
  match x.seg with
  | some (_, _ + 1) => { x with seg := none }
  | _ => { x with seg := none, segs := if x.still then x.segs.tail else x.segs }

/-- A stop in the tick: at rest the state machine goes on (R217, R222, R226). -/
def State.planStop (s : State) (k : Nat) (dec : Option Int) : State :=
  let x := s.axis k
  if x.still then
    let s := if x.limStop then s.ev (.mot .limEv) k else s
    let s := s.setAxis k { x with plan := .rest, limStop := false, j := 0 }
    if s.axSt k = 4 then s.setAxSt k 1
    else if s.axSt k = 3 ∧ s.hst k = 4 then
      (s.wr (.mot .hstate) k 5).planMove k (s.rdS (.mot .hlatch) k + s.rdS (.mot .hoffset) k)
    else s
  else
    match dec with
    | none => s.setAxis k (x.toward 0 (s.axA k) (s.axD k) (s.axJ k))
    | some q => s.setAxis k (x.brake q)

/-- Take the next segment, or stop under DMAX and JMAX when the FIFO is empty at the end of one (R224). -/
def State.planSegment (s : State) (k : Nat) : State :=
  let x := s.axis k
  let dir := x.heading
  let blocked := (s.on (.mot .limP) k && decide (0 < dir)) || (s.on (.mot .limN) k && decide (dir < 0)) ||
    match s.softLimit k dir with
    | some lim => decide (0 ≤ dir * (s.cmdpos k - lim)) ||
        (if 0 < dir then stopAtLeast x.v x.a (s.axD k) (s.axJ k) ((lim - s.cmdpos k) * 2 ^ 64)
         else stopAtLeast (-x.v) (-x.a) (s.axD k) (s.axJ k) ((s.cmdpos k - lim) * 2 ^ 64))
    | none => false
  if blocked then
    (s.ev (.mot .segClamp) k).setAxis k (x.cutSegment.toward 0 (s.axA k) (s.axD k) (s.axJ k))
  else
    match x.seg, x.segs with
    | some (j, n + 1), _ => s.setAxis k { x with j := j, seg := some (j, n) }
    | _, (j, n) :: t => s.setAxis k { x with j := j, seg := some (j, n - 1), segs := t }
    | _, [] => (((s.ev (.mot .segEmpty) k).setAxSt k 4).setAxis k { x with seg := none, plan := .stop }).planStop k none

/-- A position move in the tick: done, creeping, or planned on (R208, R209). -/
def State.planPosition (s : State) (k : Nat) : State :=
  let x := s.axis k
  let d := x.goal - s.cmdpos k
  if x.still ∧ d = 0 ∧ x.due = 0 then
    let s := s.setAxis k { x with plan := .rest, creeping := false, j := 0 }
    if s.axSt k = 3 then
      let s := s.setPosition k (s.rdS (.mot .hpos) k)
      ((s.ev (.mot .homed) k).wr (.mot .hstate) k 6).setAxSt k 1
    else ((s.ev (.mot .moveDone) k).wr (.mot .atTarget) k 1).setAxSt k 1
  else if x.creeping then s
  else if x.still ∧ d ≠ 0 ∧ d.natAbs ≤ 2 then s.setAxis k (s.creep k d)
  else s.setAxis k (x.toward (moveTarget x.v x.a d (s.axCap k) (s.axD k) (s.axJ k)) (s.axA k) (s.axD k) (s.axJ k))

/-- The axis is being stopped: STOP, QSTOP, a limit or the end of the segments. -/
def Plan.stops : Plan → Bool
  | .stop => true
  | .quick => true
  | .limit => true
  | _ => false

/-- Plan one axis for the next 1,000 clocks (R208). A limit change that pends applies when the ramp has ended, under a stop when the
axis is at rest (R210, R229). -/
def planAxis (k : Nat) (s : State) : State :=
  let s := if s.on (.mot .pendLim) k && (s.axis k).a == 0 && (!(s.axis k).plan.stops || (s.axis k).still) then
      (s.release fun f i => (f == .mot .amax || f == .mot .dmax || f == .mot .jmax) && i == k).clr (.mot .pendLim) k
    else s
  let x := s.axis k
  match x.plan with
  | .rest => s.setAxis k { x with j := 0 }
  | .move => s.planPosition k
  | .jog => s.setAxis k (s.planVelocity k (s.rdS (.mot .jogvel) k * 2 ^ 32))
  | .gear => s.setAxis k (s.planVelocity k (s.gearTarget k))
  | .stop => s.planStop k none
  | .quick => s.planStop k (some (s.axQ k))
  | .limit => s.planStop k (some (s.axL k))
  | .seek =>
    let dir := if s.hst k = 1 then -(s.hdir k) else s.hdir k
    s.setAxis k (x.toward (dir * s.axCap k) (s.axA k) (s.axD k) (s.axJ k))
  | .seg => s.planSegment k

/-- An axis the planner did not reach in time keeps its jerk, clamped; the interpolator holds the other limits of R208 (R228). -/
def keepJerk (k : Nat) (s : State) : State :=
  let x := s.axis k
  s.setAxis k { x with j := clampInt x.j (-(s.axJ k)) (s.axJ k) }

/-- Velocity estimate (R214). -/
def estimateAxis (k : Nat) (s : State) : State :=
  if s.on (.mot .encEn) k then
    let x := (s.axis k).track (s.actpos k) (s.rd (.mot .hyst) k)
    let w := max 1 (s.rd (.mot .estWin) k)
    let old := x.exts.getD (w - 1) (x.exts.getLastD x.ext)
    (s.setAxis k { x with exts := (x.ext :: x.exts).take 255 }).wrS (.mot .vest) k
      (tdiv ((x.ext - old) * 65536) ((1000 * w : Nat) : Int))
  else s

/-- The checks of R215, and what they mean for a homing (R221, R222). -/
def checkAxis (k : Nat) (s : State) : State :=
  if s.on (.mot .encEn) k && s.planned k then
    let d := s.deviation k
    let s := s.wrS (.mot .dev) k (clampInt d (-2147483648) 2147483647)
    let warn := s.rd (.mot .devWarn) k
    let lim := s.rd (.mot .devLim) k
    let w := warn != 0 && decide (warn < d.natAbs)
    let l := lim != 0 && decide (lim < d.natAbs)
    let s := if w then s.ev (.mot .devWarnEv) k else s
    let s := if l then s.ev (.mot .devEv) k else s
    let x := s.axis k
    let sv := s.rd (.mot .stallV) k
    let slow := decide (sv ≤ (s.rdS (.mot .vel) k).natAbs) &&
      decide (4 * (s.rdS (.mot .vest) k).natAbs * s.rd (.mot .den) k < sv * (s.rdS (.mot .num) k).natAbs)
    let n := if slow then x.stallTicks + 1 else 0
    let x := { x with stallTicks := n }
    let s := s.setAxis k x
    let st := s.rd (.mot .stallT) k != 0 && sv != 0 && decide (s.rd (.mot .stallT) k ≤ n)
    let s := if st then s.ev (.mot .stallEv) k else s
    let dc := s.rd (.mot .dirchk) k
    let dir : Int := (if x.dirNeg then -1 else 1) * sgn (s.rdS (.mot .num) k)
    let s := if dc ≠ 0 ∧ dc ≤ (x.revAct - s.actpos k) * dir then s.ev (.mot .dirErr) k else s
    let m := s.rd (.mot .method) k
    if s.homingNow k && s.hst k == 2 && m == 5 then
      if w then
        let s := s.homeLatch k (s.cmdpos k) (s.actpos k)
        let s := s.setAxis k { (s.axis k).halted with committed := true }
        (s.wr (.mot .hstate) k 5).planMove k (s.rdS (.mot .hlatch) k + s.rdS (.mot .hoffset) k)
      else s
    else if s.homingNow k && (l || st) then ((s.homeFail k 4).setAxSt k 4).setPlan k .stop
    else s
  else s

/-- The distance limits of homing (R222). -/
def homeReach (k : Nat) (s : State) : State :=
  let m := s.rd (.mot .hmaxdist) k
  let x := s.axis k
  if !s.homingNow k || m == 0 then s
  else if (s.hst k = 1 ∨ s.hst k = 2) ∧ m ≤ (s.cmdpos k - x.homeFrom).natAbs then
    ((s.homeFail k 2).setAxSt k 4).setPlan k .stop
  else if s.hst k = 3 ∧ m ≤ (s.cmdpos k - x.switchAt).natAbs then ((s.homeFail k 5).setAxSt k 4).setPlan k .stop
  else s

/-- One planner tick over all axes, ascending (R208); `overrun` is the first axis left unplanned (R228). -/
def tickAxes (overrun : Option Nat) (s : State) : State :=
  let s := match overrun with
    | some _ => s.ev (.mot .planOvr)
    | none => s
  (List.range s.hw.axes).foldl (fun t k =>
    if t.rd (.mot .axtype) k = 3 then t
    else
      let t := estimateAxis k t
      let t := homeReach k (checkAxis k t)
      if !t.planned k then t
      else
        match overrun with
        | some n => if n ≤ k then keepJerk k t else planAxis k t
        | none => planAxis k t) s

/-! ### The process axis in web mode (R298) -/

/-- `k` is the web's process axis while the web sequence is neither IDLE nor RUN (R298). -/
def State.webHolds (s : State) (k : Nat) : Bool :=
  s.web && s.rd (.pth .procAxis) == k && decide (2 ≤ s.rd (.pth .wstate))

/-- The web sequence in IDLE: frames not begun wait for a new web start, W0 and triggers are forgotten (R296, R298). -/
def State.webForget (s : State) : State :=
  let s := (List.range 8).foldl (fun t k =>
    t.setStn k { t.stn k with lastEnd := none, queue := (t.stn k).queue.map fun im => { im with j0 := none, t0 := none } }) s
  { s with pth := { s.pth with w0Set := false, toIdle := false, stopNext := none } }

/-- QSTOP, HALT, DISABLE or a Carabid stop of the process axis ends the web sequence: IDLE, stations blank, frames that expose are
spoiled with PCAUSE 8, and ADMITTED ones have SPOIL_PEND (R298). -/
def State.webAxisStopped (s : State) (k : Nat) : State :=
  if s.web && s.rd (.pth .procAxis) == k && s.rd (.pth .wstate) != 0 then
    let s := (s.wr (.pth .wstate) 0 0).wr (.pth .stopCause) 0 5
    let cs := (s.loam.ctxs.filter fun e => e.2.st == .imaging || e.2.st == .stalled || e.2.st == .admitted).map (·.1)
    let s := cs.foldl (fun t c => t.pathSpoil c 8) s
    let s := ((s.loam.ctxs.filter fun e => e.2.st == .spoiled && !e.2.allDone).map (·.1)).foldl State.finishAll s
    s.webForget
  else s

/-! ### Commands (R222, R226) -/

/-- A motion into an active hard limit. -/
def State.intoLimit (s : State) (k : Nat) (dir : Int) : Bool :=
  (decide (0 < dir) && s.on (.mot .limP) k) || (decide (dir < 0) && s.on (.mot .limN) k)

/-- A command reaches an axis that is not off (R226; log 26); `pass` commands reach the process axis in every web state (R298). -/
def State.axCommand (s : State) (k : Nat) (pass : Bool) (f : State → State) : State :=
  if !s.axUp k then s
  else if s.rd (.mot .axtype) k == 3 || s.unitOut (.axis k) || (!pass && s.webHolds k) then s.axRefuse k 1
  else f s

/-- MOVE, JOG and GEAR share the planner, states, the image state and the hardware mode (R205, R224, R226). -/
def State.canMove (s : State) (k : Nat) (needImage : Bool) : Bool :=
  s.planned k && (s.axSt k == 1 || s.axSt k == 2) && !s.on (.mot .mode) k &&
    (!needImage || s.imageRuns)

/-- Start a position move within the module (R226, R300). -/
def State.startMove (s : State) (k : Nat) (goal : Int) : State :=
  ((s.clr (.mot .atTarget) k).planMove k goal).setAxSt k 2

/-- MOVE (R218, R226). -/
def moveCmd (k : Nat) (s : State) : State := s.axCommand k false fun s =>
  let g := s.rdS (.mot .target) k
  if !s.canMove k true then s.axRefuse k 1
  else if s.intoLimit k (g - s.cmdpos k) then s.axRefuse k 2
  else if s.on (.mot .homeReq) k && !s.on (.mot .homed) k then s.axRefuse k 3
  else if s.on (.mot .slimEn) k && s.on (.mot .homed) k &&
      (decide (g < s.rdS (.mot .slimn) k) || decide (s.rdS (.mot .slimp) k < g)) then s.axRefuse k 4
  else s.startMove k g

/-- Start a velocity motion. -/
def State.startVelocity (s : State) (k : Nat) (p : Plan) : State := ((s.clr (.mot .atTarget) k).setPlan k p).setAxSt k 2

/-- JOG (R226). -/
def jogCmd (k : Nat) (s : State) : State := s.axCommand k false fun s =>
  if !s.canMove k true then s.axRefuse k 1
  else if s.intoLimit k (s.rdS (.mot .jogvel) k) then s.axRefuse k 2
  else s.startVelocity k .jog

/-- GEAR (R225, R226). -/
def gearCmd (k : Nat) (s : State) : State := s.axCommand k false fun s =>
  if !s.canMove k false then s.axRefuse k 1
  else if s.intoLimit k (s.gearTarget k) then s.axRefuse k 2
  else s.startVelocity k .gear

/-- STOP (R226). -/
def stopCmd (k : Nat) (s : State) : State := s.axCommand k false fun s =>
  if s.axSt k = 2 ∨ s.axSt k = 3 then s.axStop k .stop else s.axRefuse k 1

/-- QSTOP (R226). -/
def qstopCmd (k : Nat) (s : State) : State := s.axCommand k true fun s =>
  if s.axSt k = 2 ∨ s.axSt k = 3 then (s.axStop k .quick).webAxisStopped k else s.axRefuse k 1

/-- HALT (R226): in every enabled state, FAULT among them (log 26). -/
def haltCmd (k : Nat) (s : State) : State := s.axCommand k true fun s =>
  if s.axSt k ≠ 0 then ((s.axHalt k).setAxSt k 1).webAxisStopped k else s.axRefuse k 1

/-- HOME (R221, R222). -/
def homeCmd (k : Nat) (s : State) : State := s.axCommand k false fun s =>
  let m := s.rd (.mot .method) k
  if s.axSt k ≠ 1 ∨ (m ≠ 6 ∧ !s.planned k) then s.axRefuse k 1
  else if m = 0 ∨ ((m = 2 ∨ m = 3 ∨ m = 5) ∧ !s.on (.mot .encEn) k) then s.axRefuse k 5
  else s.homeStart k

/-- SETPOS (R226). -/
def setposCmd (k : Nat) (s : State) : State := s.axCommand k false fun s =>
  if s.axSt k = 1 then (s.setPosition k (s.rdS (.mot .setpos) k)).ev (.mot .homed) k else s.axRefuse k 1

/-- ENABLE (R226). -/
def enableCmd (k : Nat) (s : State) : State := s.axCommand k false fun s =>
  if s.axSt k = 0 then (s.ev (.mot .enOut) k).setAxSt k 1 else s.axRefuse k 1

/-- DISABLE (R226). -/
def disableCmd (k : Nat) (s : State) : State := s.axCommand k true fun s =>
  if s.axSt k = 0 then s.axRefuse k 1
  else (((s.axHalt k).clr (.mot .enOut) k).setAxSt k 0).webAxisStopped k

/-- Event bits of an axis that are sources (R347). -/
def axisEvents : List MotF := [.limEv, .devWarnEv, .devEv, .stallEv, .dirErr, .encErr]

/-- CLEAR (R226). -/
def clearCmd (k : Nat) (s : State) : State := s.axCommand k false fun s =>
  if s.axSt k = 5 ∧ !(axisEvents.any fun f => s.on (.mot f) k) then s.setAxSt k 1 else s.axRefuse k 1

/-- SEGMENT_PUSH (R224): the length is `v`'s low half, the jerk the one last written. -/
def segmentPush (k : Nat) (v : Word) (s : State) : State := s.axCommand k false fun s =>
  let x := s.axis k
  let n := v.toNat % 65536
  if !s.planned k ∨ !s.on (.mot .mode) k ∨ (s.axSt k ≠ 1 ∧ s.axSt k ≠ 2) ∨ 16 ≤ x.segs.length then s.axRefuse k 1
  else if n = 0 then s
  else
    let s := s.setAxis k { x with segs := x.segs ++ [(x.segj, n)], plan := .seg }
    s.setAxSt k 2

def execMove (k : Nat) (s : State) : Res := guardWF (decide (k < 48)) (s.hostWrite .mot 0 fun s =>
    moveCmd k s)
def execJog (k : Nat) (s : State) : Res := guardWF (decide (k < 48)) (s.hostWrite .mot 0 fun s =>
    jogCmd k s)
def execGear (k : Nat) (s : State) : Res := guardWF (decide (k < 48)) (s.hostWrite .mot 0 fun s =>
    gearCmd k s)
def execStop (k : Nat) (s : State) : Res := guardWF (decide (k < 48)) (s.hostWrite .mot 0 fun s =>
    stopCmd k s)
def execQstop (k : Nat) (s : State) : Res := guardWF (decide (k < 48)) (s.hostWrite .mot 0 fun s =>
    qstopCmd k s)
def execHalt (k : Nat) (s : State) : Res := guardWF (decide (k < 48)) (s.hostWrite .mot 0 fun s =>
    haltCmd k s)
def execHome (k : Nat) (s : State) : Res := guardWF (decide (k < 48)) (s.hostWrite .mot 0 fun s =>
    homeCmd k s)
def execSetpos (k : Nat) (s : State) : Res := guardWF (decide (k < 48)) (s.hostWrite .mot 0 fun s =>
    setposCmd k s)
def execEnable (k : Nat) (s : State) : Res := guardWF (decide (k < 48)) (s.hostWrite .mot 0 fun s =>
    enableCmd k s)
def execDisable (k : Nat) (s : State) : Res := guardWF (decide (k < 48)) (s.hostWrite .mot 0 fun s =>
    disableCmd k s)
def execAxisClear (k : Nat) (s : State) : Res := guardWF (decide (k < 48)) (s.hostWrite .mot 0 fun s =>
    clearCmd k s)
def execSegmentPush (k : Nat) (v : Word) (s : State) : Res := guardWF (decide (k < 48)) (s.hostWrite .mot 0 fun s =>
    segmentPush k v s)

/-- A Carabid reaction stops an axis and puts it in FAULT (R216, R226); `stop`: 0 STOP, 1 QSTOP, 2 HALT. -/
def State.axisFault (s : State) (k stop : Nat) : State :=
  if s.axSt k = 0 then s
  else if !s.planned k then s.setAxSt k 5
  else
    let s := if s.homingNow k then s.homeFail k 3 else s
    let s := if stop = 2 then s.axHalt k
      else s.setAxis k { s.axis k with plan := if stop = 1 then .quick else .stop, creeping := false, segs := [], seg := none }
    (s.setAxSt k 5).webAxisStopped k

/-- An isolated axis: no steps, enable output low; it comes back DISABLED and unhomed (R227). -/
def State.axisOut (s : State) (k : Nat) : State :=
  ((((s.axHalt k).clr (.mot .enOut) k).clr (.mot .homed) k).setAxSt k 0).webAxisStopped k

/-! ### General latches (R219) -/

/-- LATCH_ARM: a write of MOT_LATCHCFG with ARM bits; the other bits are written first. -/
def latchArm (k : Nat) (v : Word) (s : State) : State :=
  if !s.axUp k then s
  else
    (List.range 2).foldl (fun t i =>
      let b := v.toNat / 2 ^ (8 * i)
      let t := t.wr (.mot .latchSrc) (2 * k + i) (b % 4)
      let t := (t.wr (.mot .latchEdge) (2 * k + i) (b / 4 % 2)).wr (.mot .latchActual) (2 * k + i) (b / 8 % 2)
      if b / 16 % 2 = 1 then
        let x := t.axis k
        (t.clr (.mot .latchValid) (2 * k + i)).setAxis k { x with armed := i :: x.armed.filter (· != i) }
      else t) s

def execLatchArm (k : Nat) (v : Word) (s : State) : Res := guardWF (decide (k < 48) && (v.getLsbD 4 || v.getLsbD 12)) (s.hostWrite .mot 0 fun s =>
    latchArm k v s)

/-- LATCH_EDGE: the first edge of the configured source and sense after arming. -/
def latchEdge (k i : Nat) (s : State) : State :=
  let x := s.axis k
  if s.axUp k && x.armed.contains i then
    let p := if s.on (.mot .latchActual) (2 * k + i) then s.actpos k else s.cmdpos k
    let s := s.setAxis k { x with armed := x.armed.filter (· != i) }
    (s.wrS (.mot .latchPos) (2 * k + i) p).wr (.mot .latchValid) (2 * k + i) 1
  else s

def execLatchEdge (k i : Nat) (s : State) : Res := guardWF (decide (k < 48) && decide (i < 2)) (latchEdge k i s)

end Sys2Proof.Machine
end

