-- ==== Sys2Proof/Machine/Link.lean ====
section
/-! DEFINITION. The beam link of a station: words to and from the head (R172 to R180), the link state machine (R182), laser power
control (R186 to R191), beam failure and takeover (R189 to R197), head temperature (R198) and the interlock (R199 to R201). -/

namespace Sys2Proof.Machine

open Sys2Proof

/-! ### Words -/

/-- The 56-byte word of a TYPE whose bytes from 1 on are `l`: zeros up to byte 51, then the CRC-32C of bytes 0 to 51 (R170). -/
def linkBytes (ty : Nat) (l : List Nat) : List Nat :=
  let w := (ty :: l ++ List.replicate (51 - l.length) 0).take 52
  w ++ leBytes (crc32c (w.map (BitVec.ofNat 8))) 4

/-- The eight blocks of a control beat: 0x78 and seven bytes of the word in each (R170). -/
def controlBeat (w : List Nat) : List Nat := (List.range 8).flatMap fun m => 0x78 :: (w.drop (7 * m)).take 7

/-- Send a word of the given TYPE; the payload is word bytes 1 to 51. -/
def State.send (s : State) (k ty : Nat) (l : List Nat) : State := s.emit (.linkWord k (controlBeat (linkBytes ty l)))

/-- Send IDLE with a link state: 0 SAFE, 1 STANDBY, 2 ACTIVE (R178). -/
def State.idle (s : State) (k st : Nat) : State := s.send k 0x01 [st]

/-- A received word: 56 bytes, its TYPE, its CRC (R170, R179). -/
def wordOk (w : List Byte) (ty : Nat) : Bool :=
  w.length == 56 && (w.getD 0 0).toNat == ty && leAt w 52 4 == crc32c (w.take 52)

/-- One byte of a received word. -/
def wb (w : List Byte) (i : Nat) : Nat := (w.getD i 0).toNat

/-- A change of a beam's running state. -/
def Lnk.beam (l : Lnk) (b : Nat) : Beam := Store.get {} b l.beams
def Lnk.setBeam (l : Lnk) (b : Nat) (x : Beam) : Lnk := { l with beams := Store.set id {} b x l.beams }
def State.setBeam (s : State) (k b : Nat) (x : Beam) : State := s.setLnk k ((s.lnk k).setBeam b x)

/-- Instance index of a per-beam field of station `k`. -/
def bix (k b : Nat) : Nat := 128 * k + b

/-- BLK_BEAMST state of a beam: 0 IN, 1 COVER, 2 OUT, 3 RETURNING. -/
def State.beamSt (s : State) (k b : Nat) : Nat := s.rd (.blk .beamState) (bix k b)
def State.setBeamSt (s : State) (k b st cause : Nat) : State :=
  (s.wr (.blk .beamState) (bix k b) st).wr (.blk .beamCause) (bix k b) cause

/-- The partner beam (R140). -/
def partner (b : Nat) : Nat := (b + 64) % 128

/-- Shingle mode. -/
def State.shingle (s : State) (k : Nat) : Bool := s.rd (.btu .mode) k == 0

/-- DRIVE words of up to 12 entries, each a beam, a level and a value (R177). -/
def driveWords : Nat → List (Nat × Nat × Nat) → List (List Nat)
  | 0, _ => []
  | n + 1, l =>
    if l.isEmpty then [] else
      let h := l.take 12
      ((h.length :: 0 :: 0 :: h.flatMap fun e => [e.1, e.2.1] ++ leBytes e.2.2 2)) :: driveWords n (l.drop 12)

/-- Send drive values, at most 264. -/
def State.sendDriveList (s : State) (k : Nat) (l : List (Nat × Nat × Nat)) : State :=
  (driveWords 22 l).foldl (fun t w => t.send k 0x05 w) s

/-! ### Timing sets (R176) -/

/-- Two's complement bytes. -/
def sByte (z : Int) : Nat := ofSigned 8 z

/-- Pack 12-bit fields, the first lowest. -/
def pack12 (l : List Nat) : Nat := (l.zipIdx.map fun x => x.1 % 4096 * 2 ^ (12 * x.2)).sum

/-- The six SETUP pages for the values shown, byte 3 and after. -/
def State.setupPages (s : State) (k : Nat) : List (List Nat) :=
  let col := leBytes (ofSigned 16 (s.rdS (.btu .coloff) k)) 2
  [ [0, s.rd (.btu .ew) k, s.rd (.btu .runMerge) k + 2 * s.rd (.btu .rotEn) k + 4 * s.rd (.btu .mode) k] ++ col ++
      [s.rd (.btu .seglen8) k, 6] ] ++
  ((List.range 3).map fun p => 0 :: (List.range 48).map fun i =>
    if 48 * p + i < 128 then s.rd (.btu .boff) (128 * k + 48 * p + i) else 0) ++
  ((List.range 2).map fun p =>
    0 :: leBytes (pack12 ((List.range 32).map fun i => s.rd (.btu .pmod) (64 * k + 32 * p + i))) 48)

/-- Send a timing set under the next GEN. -/
def State.sendSet (s : State) (k : Nat) (pages : List (List Nat)) : State :=
  let l := s.lnk k
  let g := (l.gen + 1) % 256
  let s := s.setLnk k { l with gen := g }
  pages.zipIdx.foldl (fun t x => t.send k 0x03 (x.2 :: g :: x.1)) s

/-- A boundary register of the station was written: a new set is due once the head is known (R176). -/
def State.queueSet (s : State) (k : Nat) : State :=
  let st := s.rd (.blk .lstate) k
  if 3 ≤ st ∧ st ≤ 7 then let l := s.lnk k; s.setLnk k { l with sets := l.sets ++ [s.setupPages k] } else s

/-- TIMING_SET_SEND (R176). -/
def timingSetSend (k : Nat) (s : State) : State :=
  let l := s.lnk k
  match l.sets with
  | [] => s
  | p :: t => if s.vidUp k then (s.setLnk k { l with sets := t }).sendSet k p else s

def execTimingSetSend (k : Nat) (s : State) : Res := guardWF (decide (k < 8)) (timingSetSend k s)

/-! ### Link states (R182) -/

/-- Leave for a state; leaving ACTIVE spoils the contexts being imaged. -/
def State.toLink (s : State) (k st : Nat) : State :=
  let was := s.rd (.blk .lstate) k
  let s := s.wr (.blk .lstate) k st
  if was = 5 ∧ st ≠ 5 then s.spoilStation k 7 else s

/-- FAULT with a cause; SAFE is sent. -/
def State.linkFault (s : State) (k cause : Nat) : State := ((s.toLink k 8).wr (.blk .fcause) k cause).idle k 0

/-- The drive values of a station that are not 0, as entries that make them so (R187). -/
def State.zeroDrives (s : State) (k : Nat) : List (Nat × Nat × Nat) :=
  (List.range 128).flatMap fun b =>
    (if s.on (.blk .driveN) (bix k b) then [(b, 0, 0)] else []) ++ if s.on (.blk .driveF) (bix k b) then [(b, 1, 0)] else []

/-- Enter STANDBY; the initial APC starts with every drive value at 0 (R187). While LDEN is low STANDBY becomes INTERLOCKED at
once (R182). -/
def State.linkStandby (s : State) (k : Nat) : State :=
  let s := (s.toLink k 4).idle k 1
  let s := s.setLnk k { s.lnk k with apc := some 0, apcDone := false, drives := s.zeroDrives k, recent := [] }
  let s := (List.range 128).foldl (fun t b =>
    let t := (t.wr (.blk .driveN) (bix k b) 0).wr (.blk .driveF) (bix k b) 0
    t.setBeam k b { t.lnk k |>.beam b with okN := 0, okF := 0, weak := 0, cause := 2 }) s
  if s.on (.blk .lden) k then s else (s.wr (.blk .lstate) k 6).idle k 0

/-- STANDBY becomes ACTIVE once facet lock, LDEN and the end of the initial APC have come together. -/
def State.tryActive (s : State) (k : Nat) : State :=
  if s.rd (.blk .lstate) k = 4 ∧ s.on (.btu .flock) k ∧ s.on (.blk .lden) k ∧ (s.lnk k).apcDone then
    (s.wr (.blk .lstate) k 5).idle k 2
  else s

/-- HPRES_QUALIFIED (R182, R183). -/
def hpresQualified (k hid : Nat) (s : State) : State :=
  if !s.vidUp k then s
  else
    let s := (s.wr (.blk .hpres) k 1).wr (.blk .hid) k hid
    if s.rd (.blk .lstate) k = 0 ∧ s.stationConfigured k then
      let s := (s.wr (.blk .lstate) k 1).idle k 0
      if hid = 0 ∨ hid = 15 then s.linkFault k 2 else s
    else s

def execHpresQualified (k hid : Nat) (s : State) : Res := guardWF (decide (k < 8) && decide (hid < 16)) (hpresQualified k hid s)

/-- An event that sends every state but OFF to FAULT (R182). -/
def State.linkDrop (s : State) (k cause : Nat) : State :=
  if s.vidUp k && s.rd (.blk .lstate) k != 0 then s.linkFault k cause else s

def execHpresLoss (k : Nat) (s : State) : Res :=
  guardWF (decide (k < 8)) (if s.vidUp k then (s.clr (.blk .hpres) k).linkDrop k 8 else s)
def execRxLockLoss (k : Nat) (s : State) : Res := guardWF (decide (k < 8)) (s.linkDrop k 9)
def execStatusTimeout (k : Nat) (s : State) : Res := guardWF (decide (k < 8)) (s.linkDrop k 7)

/-- LINK_TRAIN_TIMEOUT and IDENT_TIMEOUT (R182). -/
def execLinkTrainTimeout (k : Nat) (s : State) : Res :=
  guardWF (decide (k < 8)) (if s.vidUp k && s.rd (.blk .lstate) k == 1 then s.linkFault k 1 else s)
def execIdentTimeout (k : Nat) (s : State) : Res :=
  guardWF (decide (k < 8)) (if s.vidUp k && s.rd (.blk .lstate) k == 2 then s.linkFault k 7 else s)

/-- LINK_RX_LOCKED (R182): ECHO and ID_REQ are sent. -/
def linkRxLocked (k : Nat) (s : State) : State :=
  if s.vidUp k && s.rd (.blk .lstate) k == 1 then
    let l := s.lnk k
    let tag := (l.echoTag + 1) % 65536
    let s := (s.setLnk k { l with echoTag := tag, turn := none, roundTrip := none }).wr (.blk .lstate) k 2
    (s.send k 0x06 (leBytes tag 2)).send k 0x07 []
  else s

def execLinkRxLocked (k : Nat) (s : State) : Res := guardWF (decide (k < 8)) (linkRxLocked k s)

/-- The first failing check of IDENT, as FCAUSE; 0 if all pass (R184). -/
def State.identCheck (s : State) (k : Nat) (w : List Byte) : Nat :=
  if wb w 12 ≠ 128 then 10
  else if wb w 13 ≠ s.rd (.blk .hid) k then 3
  else if s.on (.blk .chkPos) k ∧ wb w 11 ≠ 0xFF ∧ wb w 11 ≠ k then 4
  else if s.rd (.blk .model) k ≠ 0 ∧ leAt w 4 2 ≠ s.rd (.blk .model) k then 5
  else if s.on (.blk .chkSerial) k ∧ leAt w 6 4 ≠ s.rd (.blk .expSerial) k then 6
  else 0

/-- CABLE_MEAS, once the round trip and the head's TURN are both known, and its comparison with CABLE (R185). -/
def State.cableShow (s : State) (k : Nat) : State :=
  match (s.lnk k).roundTrip, (s.lnk k).turn with
  | some rt, some turn =>
    let m := min 65535 ((rt - 100 * turn) / 2)
    let c := s.rd (.blk .cable) k
    let s := s.wr (.blk .cableMeas) k m
    if c + 20 < m ∨ m + 20 < c then s.ev (.blk .cableMismatch) k else s
  | _, _ => s

/-- RX_IDENT (R184): on success the timing set and the initial drives, all 0, go out. -/
def rxIdent (k : Nat) (w : List Byte) (s : State) : State :=
  if !(s.vidUp k && s.rd (.blk .lstate) k == 2 && wordOk w 0x83) then s
  else
    let s := (List.range 4).foldl (fun t i => t.wr (.blk .ident) (4 * k + i) (leAt w (2 + 4 * i) 4)) s
    let s := s.setLnk k { s.lnk k with dmax := leAt w 16 2, turn := some (leAt w 18 2), sets := [] }
    let s := s.cableShow k
    let c := s.identCheck k w
    if c ≠ 0 then s.linkFault k c
    else
      let s := s.wr (.blk .lstate) k 3
      let s := s.sendSet k (s.setupPages k)
      let s := s.setLnk k { s.lnk k with used := (s.lnk k).gen, scanGen := (s.lnk k).gen }
      let s := (List.range 128).foldl (fun t b => (t.wr (.blk .driveN) (bix k b) 0).wr (.blk .driveF) (bix k b) 0) s
      s.sendDriveList k ((List.range 256).map fun i => (i / 2, i % 2, 0))

def execRxIdent (k : Nat) (w : List Byte) (s : State) : Res := guardWF (decide (k < 8) && w.length == 56) (rxIdent k w s)

/-- RX_ECHO_RESP (R185); the round trip is in units of 10 ps. -/
def rxEchoResp (k : Nat) (w : List Byte) (rt : Nat) (s : State) : State :=
  let l := s.lnk k
  if s.vidUp k && wordOk w 0x84 && leAt w 1 2 == l.echoTag && s.rd (.blk .lstate) k != 0 then
    (s.setLnk k { l with roundTrip := some rt }).cableShow k
  else s

def execRxEchoResp (k : Nat) (w : List Byte) (rt : Nat) (s : State) : Res :=
  guardWF (decide (k < 8) && w.length == 56) (rxEchoResp k w rt s)

/-! ### Beams (R189 to R197) -/

/-- A beam can take over its partner's lines: shingle mode, IN with headroom (R190, R192, R194). -/
def State.canCover (s : State) (k b : Nat) : Bool := s.shingle k && s.beamSt k b == 0 && s.on (.blk .headroom) (bix k b)

/-- The row is uncovered (R194): the contexts are spoiled and go on being exposed. -/
def State.uncover (s : State) (k b : Nat) : State :=
  let s := (s.setBeam k b { (s.lnk k).beam b with uncovered := true }).ev (.blk .uncovered) k
  (s.imagingOn k).foldl (fun t c => t.spoil c 7) s

/-- The context in progress on a station, 0xFF for none. -/
def State.ctxNow (s : State) (k : Nat) : Nat := (s.imagingOn k).headD 0xFF

/-- Spoil the contexts of a list. -/
def State.spoilList (s : State) (cs : List Nat) : State := cs.foldl (fun t c => t.spoil c 7) s

/-- The lines of the context in progress that a failed beam left half-exposed (R193, log 141): those it should have exposed since
it was last known good (the scan before the last STATUS for a driver fault, else 17 scans) and, in column 0, the line its partner
has already exposed. -/
def Lnk.lostLines (l : Lnk) (b cause : Nat) : Nat :=
  ((l.recent.take (if cause = 1 then l.unseen + 1 else 17)).filter (·.contains b)).length +
    bit (decide (b < 64) && (l.recent.headD []).contains (partner b))

/-- Count a failed beam's half-exposed lines (R193). Beyond HALF_LIM the context is spoiled; 255 never spoils. -/
def State.halfLines (s : State) (k b cause : Nat) : State :=
  if s.busy k then
    let s := s.countBy (.blk .halflines) k ((s.lnk k).lostLines b cause)
    let lim := s.rd (.blk .halfLim) k
    if lim ≠ 255 ∧ lim < s.rd (.blk .halflines) k then State.spoilList s ((s.imagingOn k).take 1) else s
  else s

/-- A beam's bit of BLK_TKOEN (R195, R203). -/
def State.tkoBeam (s : State) (k b : Nat) : Bool := s.rd (.blk .tkoen) (4 * k + b / 32) / 2 ^ (b % 32) % 2 == 1

/-- Decide about a beam that has just gone OUT (R192, R194, R195): takeover by the partner, or uncovered. -/
def State.coverOrNot (s : State) (k b cause : Nat) (wasCover : Bool) : State :=
  let p := partner b
  if !wasCover && s.on (.blk .tkoEn) k && s.tkoBeam k b && s.canCover k p then
    let s := ((s.setBeamSt k p 1 0).ev (.blk .tkoEv) k).halfLines k b cause
    if s.on (.blk .tkoMode) k then s.post 2 k [b, p, cause, s.ctxNow k] else s
  else if wasCover then (s.uncover k b).uncover k p
  else s.uncover k b

/-- Beams fail together (R189, R202): all go OUT first, then each is decided. -/
def State.failBeams (s : State) (k : Nat) (l : List (Nat × Nat)) : State :=
  let was := l.map fun x => (x.1, x.2, s.beamSt k x.1 == 1)
  let s := l.foldl (fun t x =>
    (t.setBeamSt k x.1 2 x.2).setBeam k x.1 { (t.lnk k).beam x.1 with outPend := false, returnReady := false, weak := 0 }) s
  was.foldl (fun t x => t.coverOrNot k x.1 x.2.1 x.2.2) s

/-- Mark a beam uncovered for LREADY (R195, R196). -/
def State.markUncovered (s : State) (k b : Nat) : State := s.setBeam k b { (s.lnk k).beam b with uncovered := true }

/-- An OUT command takes effect (R196): the beam goes OUT, its partner covers it if it can, and a beam left uncovered, the one that
was covered among them, holds LREADY at 0. -/
def State.beamTakeOut (s : State) (k b : Nat) : State :=
  let was := s.beamSt k b
  let s := s.setBeam k b { (s.lnk k).beam b with outPend := false, returnReady := false }
  if was = 2 then s
  else
    let p := partner b
    let s := s.setBeamSt k b 2 0
    if was = 1 then (s.markUncovered k b).markUncovered k p
    else if was = 3 ∧ s.beamSt k p = 1 then s
    else if s.canCover k p then s.setBeamSt k p 1 0
    else s.markUncovered k b

/-- What a station's boundary does to one beam (R163, R195 to R197): an OUT command, a SPOIL answer, a return. -/
def State.boundaryBeam (s : State) (k b : Nat) : State :=
  let p := partner b
  let t := if ((s.lnk k).beam b).outPend then s.beamTakeOut k b else s
  let t := if ((t.lnk k).beam b).spoilPend && 2 ≤ t.beamSt k b then
      t.setBeam k b { (t.lnk k).beam b with uncovered := true, spoilPend := false } else t
  if ((t.lnk k).beam b).returnReady && t.beamSt k b == 3 then
    let t := (t.setBeamSt k b 0 0).setBeam k b {}
    let t := if t.beamSt k p == 1 then t.setBeamSt k p 0 0 else t
    t.closeTakeover k b
  else t

/-- What a station's boundary does to its beams. -/
def State.beamBoundary (s : State) (k : Nat) : State :=
  (s.lnk k).beams.foldl (fun t e => t.boundaryBeam k e.1) s

/-- BEAM_OUT (R196). -/
def beamOut (k b : Nat) (s : State) : State :=
  if !s.vidUp k then s
  else if s.busy k && !s.canCover k (partner b) then s.ev (.blk .cmdErr) k
  else s.setBeam k b { (s.lnk k).beam b with outPend := true }

/-- BEAM_RETURN (R197). -/
def beamReturn (k b : Nat) (s : State) : State :=
  if !s.vidUp k then s
  else if s.beamSt k b ≠ 2 ∨ ((s.lnk k).beam b).drv then s.ev (.blk .cmdErr) k
  else (s.setBeamSt k b 3 0).setBeam k b { (s.lnk k).beam b with okN := 0, okF := 0, weak := 0, returnReady := false }

def execBeamOut (k b : Nat) (s : State) : Res := guardWF (decide (k < 8) && decide (b < 128)) (s.hostWrite .blk k fun s => beamOut k b s)
def execBeamReturn (k b : Nat) (s : State) : Res := guardWF (decide (k < 8) && decide (b < 128)) (s.hostWrite .blk k fun s => beamReturn k b s)

/-! ### STATUS (R181, R182, R189, R198) -/

/-- Compare the head's temperature, in 1/16 degree (R198). -/
def State.headTemp (s : State) (k raw : Nat) (fault : Bool) : State :=
  let t := toSigned 16 raw
  let bad := fault || raw == 0x8000
  let warn := s.rdS (.blk .warn) k
  let trip := s.rdS (.blk .trip) k
  let s := s.wr (.blk .headtemp) k raw
  let s := s.setLnk k { s.lnk k with hot := bad || decide (warn ≤ t) }
  let s := if bad ∨ warn ≤ t then s.wr (.blk .tempWarn) k 1 else if t ≤ warn - 32 then s.clr (.blk .tempWarn) k else s
  if bad ∨ trip ≤ t then
    let s := s.ev (.blk .tempTrip) k
    let st := s.rd (.blk .lstate) k
    if st = 4 ∨ st = 5 then
      let s := s.spoilStation k 7
      (s.toLink k 7).idle k 0
    else s
  else s

/-- The head's account of the last scan: LOST_SCAN where it lost the scan or names another one, and the sheets it exposed are
spoiled. -/
def State.statusScan (s : State) (k : Nat) (l : Lnk) (w : List Byte) : State :=
  match l.lastJ with
  | some j => if wb w 2 / 2 % 2 == 1 || leAt w 4 2 != j % 65536 then (s.ev (.blk .lostScan) k).spoilList l.exposed else s
  | none => s

/-- RX_STATUS (R181). -/
def rxStatus (k : Nat) (w : List Byte) (s : State) : State :=
  if !(s.vidUp k && wordOk w 0x81 && s.rd (.blk .lstate) k != 0) then s
  else
    let flags := wb w 2
    let l := s.lnk k
    let s := s.wr (.blk .discards) k (leAt w 8 2)
    let s := s.setLnk k { l with have_ := wb w 3, lastJ := none }
    let s := s.statusScan k l w
    let s := if s.rd (.blk .lstate) k = 3 ∧ wb w 3 = l.gen then s.linkStandby k else s
    let mask := leAt w 12 16
    let s := (List.range 128).foldl (fun t b => t.setBeam k b { (t.lnk k).beam b with drv := mask / 2 ^ b % 2 == 1 }) s
    let dead := (List.range 128).filter fun b => mask / 2 ^ b % 2 == 1 && (s.beamSt k b == 0 || s.beamSt k b == 1)
    let s := s.failBeams k (dead.map fun b => (b, 1))
    let s := s.setLnk k { s.lnk k with unseen := 0 }
    let back := (List.range 128).filter fun b => mask / 2 ^ b % 2 == 1 && s.beamSt k b == 3
    let s := back.foldl (fun t b => (t.setBeamSt k b 2 1).setBeam k b { (t.lnk k).beam b with returnReady := false }) s
    s.headTemp k (leAt w 6 2) (flags / 4 % 2 == 1)

def execRxStatus (k : Nat) (w : List Byte) (s : State) : Res := guardWF (decide (k < 8) && w.length == 56) (rxStatus k w s)

/-! ### Laser power (R186 to R191) -/

/-- One measurement: beam, level (1 full), no pulse, power. -/
structure Meas where
  beam : Nat
  full : Bool
  none_ : Bool
  m : Nat
  deriving DecidableEq, Repr

/-- The entries of an APC_RESP word that answer what was asked (R179). -/
def apcEntries (asked : List (Nat × Nat)) (w : List Byte) : List Meas :=
  ((List.range (min 8 (wb w 1))).map fun i =>
    let q := 4 + 4 * i
    (⟨wb w q % 128, wb w (q + 1) % 2 == 1, wb w (q + 1) / 4 % 2 == 1, leAt w (q + 2) 2⟩ : Meas)).filter fun x =>
      asked.contains (x.beam, bit x.full)

/-- The target of a measurement (R188). -/
def State.apcTarget (s : State) (k : Nat) (full : Bool) : Nat := s.lv (.blk .tgt) k * if full then 2 else 1

/-- |m - t| ≤ t × TOL / 256. -/
def inTol (m t tol : Nat) : Bool := decide (256 * (m - t) ≤ t * tol) && decide (256 * (t - m) ≤ t * tol)

/-- Regulate one drive value (R188); in the initial APC the step is not limited (R187). -/
def State.regulate (s : State) (k : Nat) (x : Meas) : State :=
  let f : BlkF := if x.full then .driveF else .driveN
  let t := s.apcTarget k x.full
  let d := s.rd (.blk f) (bix k x.beam)
  let raw : Int := (s.rd (.blk .ka) k : Int) * ((t : Int) - x.m) / 256
  let ds : Int := s.rd (.blk .dstep) k
  let step := if (s.lnk k).apc.isSome then raw else clampInt raw (-ds) ds
  let d' := (clampInt ((d : Int) + step) 0 (s.lnk k).dmax).toNat
  let s := s.wr (.blk f) (bix k x.beam) d'
  s.setLnk k { s.lnk k with drives := (s.lnk k).drives ++ [(x.beam, bit x.full, d')] }

/-- Take one measurement: regulate, note tolerance, headroom and return; answer the cause if the beam fails (R189 to R191). -/
def State.measure (s : State) (k : Nat) (probe : Bool) (x : Meas) : State × Option Nat :=
  let t := s.apcTarget k x.full
  let tol := s.rd (.blk .tol) k
  let i := bix k x.beam
  let s := s.wr (.blk (if x.full then .measF else .measN)) i x.m
  let s := if s.on (.blk .apcMode) k then s else s.regulate k x
  let bm := (s.lnk k).beam x.beam
  let st := s.beamSt k x.beam
  let ok := inTol x.m t tol && !x.none_
  let bm := if x.full then { bm with okF := if ok then bm.okF + 1 else 0 } else { bm with okN := if ok then bm.okN + 1 else 0 }
  let init := (s.lnk k).apc.isSome
  let level := if st = 1 then x.full else !x.full
  let dark := x.none_ || decide (8 * x.m < t)
  let bm := { bm with cause := if dark then 2 else 3 }
  let drive := s.rd (.blk (if x.full then .driveF else .driveN)) i
  let isWeak := decide ((s.lnk k).dmax ≤ drive) && decide (256 * x.m < t * (256 - tol))
  let bm := if level then { bm with weak := if isWeak then bm.weak + 1 else 0 } else bm
  let head := decide (256 * x.m ≥ t * (256 - tol)) && decide (256 * s.rd (.blk .driveF) i ≤ (s.lnk k).dmax * s.rd (.blk .hr) k)
  let s := if x.full && (probe || init) && s.shingle k then s.wrB (.blk .headroom) i head else s
  let fails : Option Nat :=
    if x.none_ ∨ (level ∧ 8 * x.m < t) then some 2 else if level ∧ 2 ≤ bm.weak then some 3 else none
  let bm := { bm with returnReady := fails.isNone &&
    (bm.returnReady || (st == 3 && decide (2 ≤ bm.okN) && (!s.shingle k || decide (2 ≤ bm.okF)))) }
  let s := s.setBeam k x.beam bm
  if init then (s, none)
  else match st, fails with
    | 3, some c => (s.setBeamSt k x.beam 2 c, none)
    | 0, _ => (s, fails)
    | 1, _ => (s, fails)
    | _, _ => (s, none)

/-- RX_APC_RESP (R188 to R191). Entries that report no pulse while LDEN is low are discarded (R202). -/
def rxApcResp (k : Nat) (w : List Byte) (s : State) : State :=
  if !(s.vidUp k && wordOk w 0x82) then s
  else
    let j := leAt w 2 2
    let es := apcEntries (s.lnk k).asked w
    let es := es.filter fun x => s.on (.blk .lden) k || !x.none_
    let r := es.foldl (fun (r : State × List (Nat × Nat)) x =>
      let q := r.1.measure k (j / 16 % 16 == 15) x
      (q.1, match q.2 with
        | some c => r.2 ++ [(x.beam, c)]
        | none => r.2)) (s, [])
    let s := r.1.failBeams k r.2
    let s := s.setLnk k { s.lnk k with asked := [] }
    if s.on (.blk .apcMode) k then s.post 3 k (((w.drop 1).take 35).map (·.toNat)) else s

def execRxApcResp (k : Nat) (w : List Byte) (s : State) : Res := guardWF (decide (k < 8) && w.length == 56) (rxApcResp k w s)

/-- INITIAL_APC_END (R187): every beam that did not end good is handled as one that has just failed. -/
def initialApcEnd (k : Nat) (s : State) : State :=
  match (s.lnk k).apc with
  | some n =>
    if s.vidUp k && decide (128 ≤ n) && s.rd (.blk .lstate) k == 4 then
      let s := s.setLnk k { s.lnk k with apc := none, apcDone := true }
      let good (b : Nat) : Bool :=
        let bm := (s.lnk k).beam b
        decide (2 ≤ bm.okN) && (!s.shingle k || decide (2 ≤ bm.okF)) && !bm.drv
      let bad := (List.range 128).filter fun b => !good b
      let cause (b : Nat) : Nat := let bm := (s.lnk k).beam b; if bm.drv then 1 else bm.cause
      let s := (List.range 128).foldl (fun t b =>
        let t := t.setBeamSt k b 0 0
        if good b then (t.setBeam k b { outPend := ((t.lnk k).beam b).outPend }).closeTakeover k b else t) s
      let s := s.failBeams k (bad.map fun b => (b, cause b))
      s.tryActive k
    else s
  | none => s

def execInitialApcEnd (k : Nat) (s : State) : Res := guardWF (decide (k < 8)) (initialApcEnd k s)

/-! ### Interlock (R199 to R201) -/

/-- LDEN falls (R200). -/
def State.ldenLow (s : State) (k : Nat) : State :=
  let s := s.setLnk k { s.lnk k with request := false }
  let s := s.clr (.blk .ldReq) k
  if s.on (.blk .lden) k then
    let s := ((s.clr (.blk .lden) k).ev (.blk .ilkEv) k).spoilStation k 7
    let st := s.rd (.blk .lstate) k
    if st = 4 ∨ st = 5 then (s.wr (.blk .lstate) k 6).idle k 0 else s
  else s

/-- LDEN rises (R199): INTERLOCKED becomes STANDBY with the initial APC again. -/
def State.ldenHigh (s : State) (k : Nat) : State :=
  let s := s.wr (.blk .lden) k 1
  let s := if s.rd (.blk .lstate) k = 6 then s.linkStandby k else s
  s.tryActive k

/-- LDEN_FALL (R200): the interlock loop opens. -/
def execLdenFall (k : Nat) (s : State) : Res :=
  guardWF (decide (k < 8)) (if s.vidUp k then (s.clr (.blk .ilkClosed) k).ldenLow k else s)

/-- ILK_LOOP_CLOSE (R199). -/
def execIlkLoopClose (k : Nat) (s : State) : Res :=
  guardWF (decide (k < 8)) (if s.vidUp k then
    let s := s.wr (.blk .ilkClosed) k 1
    if (s.lnk k).request then s.ldenHigh k else s
  else s)

/-- The LD_REQ bit of a BLK_CTL write (R199): `was` is the bit before the write. -/
def State.ldReq (s : State) (k : Nat) (was now : Bool) : State :=
  if now && !was && s.imageRuns then
    let s := s.setLnk k { s.lnk k with request := true }
    if s.on (.blk .ilkClosed) k then s.ldenHigh k else s
  else if !now && was then s.ldenLow k
  else s

/-- LREADY (R201, R350). -/
def State.lready (s : State) (k : Nat) : Bool :=
  s.rd (.blk .lstate) k == 5 && s.on (.blk .lden) k && !s.on (.blk .tempWarn) k && !s.on (.blk .tempTrip) k &&
    !((s.lnk k).beams.any fun e => e.2.uncovered && s.beamSt k e.1 != 0) && !(s.lnk k).late && !(s.lnk k).held

/-- The RESTART bit of BLK_CTL (R182). -/
def State.linkRestart (s : State) (k : Nat) : State :=
  if s.rd (.blk .lstate) k = 8 then
    let s := s.setLnk k { s.lnk k with apc := none, apcDone := false }
    ((s.wr (.blk .lstate) k 0).clr (.blk .fcause) k).idle k 0
  else s

/-- The TEMP_TRIP bit of a BLK_STATUS write (R198): refused while TEMP is at or above WARN; TRIPPED becomes STANDBY. -/
def State.clearTrip (s : State) (k : Nat) : State :=
  if (s.lnk k).hot then s
  else
    let s := s.clr (.blk .tempTrip) k
    if s.rd (.blk .lstate) k = 7 then s.linkStandby k else s

end Sys2Proof.Machine
end

