-- ==== Sys2Proof/Machine/Scan.lean ====
section
/-! DEFINITION. Scan timing and exposure (chapter "Scan timing and exposure"): start of scan, facet lock and bridging (R148 to
R151), the pixel clock (R146), placing edges and lines (R141 to R143, R152 to R157), Silt (R159, R160), a scan's words (R173 to
R177, R186), and the events of a station's polygon and synthesiser (R161). Times of a station are in units of 20 ps. -/

namespace Sys2Proof.Machine

open Sys2Proof

/-! ### Modes, edges, stagger -/

/-- P, the lines per scan (R141). -/
def State.linesPerScan (s : State) (k : Nat) : Nat := if s.shingle k then 64 else 128

/-- Q (R141). -/
def State.lineQ (s : State) (k : Nat) : Nat := if s.shingle k then 64 else 0

/-- The switch-on slot of group `g` in scan `j` (R153). -/
def slotOf (rot : Bool) (g j : Nat) : Nat :=
  if g < 8 then (if rot then (g + j) % 8 else g)
  else if rot then 15 - (g - 8 + j + 1) % 8 else 15 - (g - 8)

/-- The stagger of beam `b` in scan `j`, in 1/64 pixel (R153). -/
def stagger (rot : Bool) (b j : Nat) : Int := 4 * (slotOf rot (b / 8) j : Int) - 30

/-- The segment of a pixel in scan order (R156). -/
def segOf (seglen8 x : Nat) : Nat := min 63 (x / (8 * max 1 seglen8))

/-- a(x) of R152 in units of 2^-12 of a sixty-fourth of a pixel: pixels before x, each with its segment's trim. -/
def accTrim (pmod : Nat → Int) (seglen8 x : Nat) : Int :=
  ((List.range x).map fun i => (262144 : Int) + pmod (segOf seglen8 i)).sum

/-- The edge e of R152, in 1/64 pixel after t_j, from `base` in 1/64 pixel; ties round up. -/
def edgeOf (base : Int) (pmod : Nat → Int) (seglen8 ew x : Nat) : Int :=
  (base * 4096 + accTrim pmod seglen8 x + 2048) / 4096 + (64 - (ew : Int)) / 2

/-- The base of R152 for beam `b` of station `k` in scan `j` of facet `f`, from the values in force. -/
def State.edgeBase (s : State) (k b j f : Nat) : Int :=
  (s.lv (.btu .margin) k : Int) + s.lvS (.btu .foff) (16 * k + f) + s.lvS (.btu .boff) (128 * k + b) +
    (if b < 64 then 0 else s.lvS (.btu .coloff) k) + stagger (s.on (.btu .rotEn) k) b j

/-- The edge at which beam `b` of station `k` switches on for pixel `x` in scan `j` of facet `f` (R152). -/
def State.edge (s : State) (k b j f x : Nat) : Int :=
  edgeOf (s.edgeBase k b j f) (fun g => s.lvS (.btu .pmod) (64 * k + g)) (s.rd (.btu .seglen8) k) (s.lv (.btu .ew) k) x

/-! ### The pixel clock (R146) -/

/-- A pixel clock: num / den hertz, and the two clamps. -/
structure Clock where
  num : Nat
  den : Nat
  track : Bool := false
  freq : Bool := false
  deriving DecidableEq, Repr

/-- FACETS. -/
def State.facets (s : State) (k : Nat) : Nat := max 1 (s.rd (.btu .facets) k)

/-- S_rev held inside the tracking window around SNOM / 1024: numerator, denominator, clamped (R146). -/
def trackRate (num den snom lim : Nat) : Nat × Nat × Bool :=
  if snom * (1000 + lim) * den < num * 1024000 then (snom * (1000 + lim), 1024000, true)
  else if num * 1024000 < snom * (1000 - lim) * den then (snom * (1000 - lim), 1024000, true)
  else (num, den, false)

/-- S_rev, or the nominal rate, as numerator, denominator and whether it was clamped (R146). With fewer than FACETS periods measured
the nominal rate stands in (log 20). -/
def State.scanRate (s : State) (k : Nat) : Nat × Nat × Bool :=
  let n := s.facets k
  let snom := s.lv (.btu .snom) k
  let ps := (s.stn k).periods.take n
  if s.on (.btu .trackEn) k ∧ ps.length = n ∧ 0 < ps.sum then
    trackRate (n * 50000000000) ps.sum snom (s.rd (.btu .trackLim) k)
  else (snom, 1024, false)

/-- f_j for facet `f` (R146); a context that met TRACK_CLAMP keeps the clamped rate (R164). -/
def State.clock (s : State) (k f : Nat) : Clock :=
  let r := s.scanRate k
  let rate := (s.stn k).clamp.getD (r.1, r.2.1)
  let trim := (1048576 + s.lvS (.btu .fscale) (16 * k + f)).toNat
  let num := s.rd (.btu .designPix) k * rate.1 * 65536 * trim
  let den := rate.2 * max 1 (s.rd (.btu .scanFrac) k) * 1048576
  if 400000000 * den < num then ⟨400000000, 1, r.2.2, true⟩ else ⟨num, den, r.2.2, false⟩

/-- Round a ratio of naturals to the nearest natural, ties up. -/
def roundDiv (n d : Nat) : Nat := (2 * n + d) / (2 * d)

/-- Round a ratio to the nearest integer, ties up. -/
def roundDivInt (n : Int) (d : Nat) : Int := (2 * n + d) / (2 * (d : Int))

/-- `e` sixty-fourths of a pixel, in ps, exact numerator over `64 * num`. -/
def Clock.psNum (c : Clock) (e : Int) : Int := e * c.den * 1000000000000

/-- `ps0` plus `e` sixty-fourths of a pixel, rounded to the nearest ps. -/
def Clock.at (c : Clock) (ps0 e : Int) : Int := roundDivInt (ps0 * (64 * c.num : Nat) + c.psNum e) (64 * c.num)

/-! ### Facet periods (R150, R151) -/

/-- The facet that swept before facet `f`. -/
def prevFacet (n f : Nat) : Nat := (f + n - 1) % n

/-- Mean period of facet `f` over the last 16 revolutions, in 1/16 ns; `old` is the facet of the newest period (R151). -/
def meanPeriod (n old f : Nat) (ps : List Nat) : Nat :=
  let own := (List.range 16).filterMap fun r => ps[(old + n - f) % n + n * r]?
  if own.isEmpty then 0 else own.sum * 8 / (25 * own.length)

/-- Write FPER of every facet. -/
def State.writeFper (s : State) (k : Nat) : State :=
  let n := s.facets k
  let x := s.stn k
  (List.range n).foldl (fun t f => t.wr (.btu .fper) (16 * k + f) (meanPeriod n (prevFacet n x.facet) f x.periods)) s

/-- REVPER: the sum of the FACETS latest periods in 1/16 ns; 0 until FACETS periods have been accepted after lock (R151, R475). -/
def State.writeRevper (s : State) (k : Nat) : State :=
  let n := s.facets k
  let x := s.stn k
  s.wr (.btu .revper) k (if s.on (.btu .flock) k ∧ n ≤ x.sinceLock then (x.periods.take n).sum * 8 / 25 else 0)

/-- READY: lock held, synthesiser locked, not recalibrating, the last calibration passed (R167, R364, R372). -/
def State.settleReady (s : State) (k : Nat) : State :=
  s.wrB (.btu .ready) k (s.on (.btu .flock) k && s.on (.btu .synLock) k && !(s.stn k).recal && !s.cal.bad.contains k)

/-- Facet lock is acquired: scans are numbered from here (R140, R150). -/
def State.lockFacet (s : State) (k : Nat) (arb : Bool) : State :=
  let s := s.setStn k { s.stn k with j := 0, sinceLock := 0, record := [], misses := 0 }
  let s := (s.wr (.btu .flock) k 1).wrB (.btu .flockArb) k arb
  let s := (s.wr (.btu .scancnt) k 0).writeFper k
  (s.settleReady k).tryActive k

/-- Every FREF is 0, or FACETS is 1 (R150). -/
def State.noSignature (s : State) (k : Nat) : Bool :=
  s.facets k == 1 || (List.range 16).all fun f => s.rd (.btu .fref) (16 * k + f) == 0

/-- Facet lock ends and the station starts no further scan (R161, R182). -/
def State.loseLock (s : State) (k : Nat) : State :=
  let s := ((s.clr (.btu .flock) k).clr (.btu .flockArb) k).clr (.btu .ready) k
  let s := s.wr (.btu .revper) k 0
  let s := s.spoilStation k 7
  let s := s.endStation k
  let s := s.setStn k { s.stn k with sos := none, misses := 0, periods := [], sinceLock := 0, record := [], lastEnd := none }
  if s.rd (.blk .lstate) k = 5 then s.linkStandby k else s

/-! ### Lines of a scan (R141 to R144, R157) -/

/-- Lines of an imaging's context on the 2400 dpi grid. -/
def State.imLines (s : State) (im : Imaging) : Nat := (s.ctx im.ctx).lines

/-- The line of beam 0 in scan `j` (R141), for a placed context. -/
def State.lineLo (s : State) (k j : Nat) (im : Imaging) : Int :=
  match im.j0 with
  | some a => (s.linesPerScan k : Int) * ((j : Int) - a) - s.lineQ k - im.o + im.base
  | none => 0

/-- The context's last scan is before scan `j`. -/
def State.imOver (s : State) (k j : Nat) (im : Imaging) : Bool :=
  im.j0.isSome && decide ((s.imLines im : Int) ≤ s.lineLo k j im)

/-- The context has been placed at a scan before `j`. -/
def imGoing (j : Nat) (im : Imaging) : Bool :=
  match im.j0 with
  | some a => decide (a < j)
  | none => false

/-- The context exposes some line in scan `j`. -/
def State.imActive (s : State) (k j : Nat) (im : Imaging) : Bool :=
  match im.j0 with
  | some a => decide (a ≤ j) && !s.imOver k j im && decide ((im.base : Int) ≤ s.lineLo k j im + 127)
  | none => false

/-- Line `n` of a station's plane carries data: it exists and is not blanked (R157). -/
def State.lineOpen (s : State) (k : Nat) (im : Imaging) (n : Int) : Bool :=
  let x := s.ctx im.ctx
  decide (0 ≤ n) && decide (n < x.lines) &&
    match (x.plane k).blankFrom with
    | some m => decide (n < m)
    | none => true

/-- SHIFT of a segment, in force. -/
def State.shift (s : State) (k g : Nat) : Int := s.lvS (.btu .shift) (64 * k + g)

/-- Segments that a line of `w` pixels uses. -/
def State.segsUsed (s : State) (k w : Nat) : List Nat := List.range (segOf (s.rd (.btu .seglen8) k) (w - 1) + 1)

/-- Exposed width of a context (R144). -/
def Ctx.width (x : Ctx) : Nat := x.lineBytes * if x.res1200 then 16 else 8

/-- Lowest and highest shift a context's lines meet. -/
def State.shiftSpan (s : State) (k w : Nat) : Int × Int :=
  let l := (s.segsUsed k w).map (s.shift k)
  (l.foldl min (l.headD 0), l.foldl max (l.headD 0))

/-- A beam exposes at line position `n` (R141): the context has the position, it is not below the resume line, and some shift in use
meets a line that carries data. -/
def State.posOpen (s : State) (k : Nat) (im : Imaging) (n : Int) : Bool :=
  let x := s.ctx im.ctx
  decide ((im.base : Int) ≤ n) && decide (n < x.lines) &&
    match (x.plane k).blankFrom with
    | some m => decide (n + (s.shiftSpan k x.width).1 < m)
    | none => true

/-- The beams that scan `j` drives for a context, each with its line position: in service (neither OUT nor RETURNING) and, in the
drain scan, not in column 1 (R193, R299). -/
def State.beamsOf (s : State) (k j : Nat) (drain : Bool) (im : Imaging) : List (Nat × Int) :=
  if s.imActive k j im then
    (List.range 128).filterMap fun (b : Nat) =>
      let n := s.lineLo k j im + (b : Nat)
      if s.beamSt k b ≤ 1 ∧ (¬drain ∨ b < 64) ∧ s.posOpen k im n then some (b, n) else none
  else []

/-! ### Placement (R142, R143) -/

/-- u_j = (t0 - window start) × L as a fraction, numerator and denominator; `tj` in 20 ps units (R142, R152). -/
def placeU (c : Clock) (t0 : Nat) (tj : Int) (margin lrate : Nat) : Int × Nat :=
  ((((t0 * 50 : Nat) : Int) - tj) * 20 * (64 * c.num : Nat) * lrate - c.psNum margin * lrate, 64 * c.num * 1000000000000)

/-- Try to place one context in scan `j`: its j0, o and RESID (R142). -/
def placeAt (c : Clock) (t0 : Nat) (tj : Int) (margin lrate p q : Nat) : Option (Nat × Int) :=
  let u := placeU c t0 tj margin lrate
  let d : Int := u.2
  if (2 * (q : Int) - 1) * d ≤ 2 * u.1 ∧ 2 * u.1 < (2 * (q : Int) + 2 * p - 1) * d then
    let r := roundDivInt u.1 u.2
    some ((r - q).toNat, clampInt (roundDivInt (256 * (u.1 - r * d)) u.2) (-128) 127)
  else none

/-- Place every context of the station's queue that can be placed by scan `j`, in order. -/
def State.placeAll (s : State) (k j : Nat) (c : Clock) (tj : Int) : State :=
  let p := s.linesPerScan k
  let r := (s.stn k).queue.foldl (fun (r : State × List Imaging) im =>
    let t := r.1
    let last := (t.stn k).lastEnd
    let show_ (t : State) (o : Nat) (res : Option Int) : State :=
      let t := (t.wr (.btu .o) k o).wr (.btu .firstCtx) k im.ctx
      match res with
      | some z => t.wrS (.btu .resid) k z
      | none => t
    if im.j0.isSome then (t, r.2 ++ [im])
    else
      match im.follows, last, im.t0 with
      | true, some e, _ =>
        let t := t.setStn k { t.stn k with lastEnd := some (e + t.imLines im - im.base) }
        (show_ t (e % p) none, r.2 ++ [{ im with j0 := some (e / p), o := e % p }])
      | _, _, some t0 =>
        match placeAt c t0 tj (t.lv (.btu .margin) k) (t.rd (.pth .lrate)) p (t.lineQ k) with
        | some (o, res) =>
          let t := t.setStn k { t.stn k with lastEnd := some (p * j + o + t.imLines im - im.base) }
          (show_ t o (some res), r.2 ++ [{ im with j0 := some j, o := o }])
        | none => (t, r.2 ++ [im])
      | _, _, none => (t, r.2 ++ [im])) (s, [])
  r.1.setStn k { r.1.stn k with queue := r.2 }

/-- Note the process position at t_j0 of the contexts whose first scan is `j` (R162). -/
def State.markPos (s : State) (k j : Nat) : State :=
  let x := s.stn k
  s.setStn k { x with queue := x.queue.map fun im => if im.j0 = some j then { im with pos0 := s.rdS (.pth .mpos) } else im }

/-! ### Silt (R158 to R160) -/

/-- Slots of a station's Silt (R158). -/
def siltSlots (maxline : Nat) : Nat := 1048576 / ((max 1 maxline + 63) / 64 * 64)

/-- SPAN of R158; `none` where two scans do not fit. -/
def siltSpan (maxline : Nat) (single : Bool) : Option Nat :=
  let need := if single then 256 else 128
  if siltSlots maxline < need then none else some (min 62 (siltSlots maxline - need))

/-- The first line of the context that scan `j` needs and Silt does not hold, given `avail` decoded lines of its plane (R160): a line
that a beam in service reads, shifts counted. -/
def State.missingLine (s : State) (k j : Nat) (drain : Bool) (im : Imaging) (avail : Nat) : Option Nat :=
  let shifts := ((s.segsUsed k (s.ctx im.ctx).width).map (s.shift k)).eraseDups
  let need := (s.beamsOf k j drain im).flatMap fun e =>
    shifts.filterMap fun d => if (avail : Int) ≤ e.2 + d ∧ s.lineOpen k im (e.2 + d) then some (e.2 + d).toNat else none
  need.min?

/-- A Silt underrun (R160): the band that holds the first missing line becomes FAILED, and late data is handled. -/
def State.siltMiss (s : State) (k : Nat) (im : Imaging) (n : Nat) : State :=
  let x := s.ctx im.ctx
  let band := n / (if x.res1200 then 2 else 1) / 256
  let s := s.ev (.btu .underrun) k
  match s.findBand im.ctx k band with
  | some r => (s.failRecord r).late .decodeError im.ctx k r n
  | none => (s.darken im.ctx k n).spoil im.ctx 6

/-- Fill and check every context of the queue before scan `j`: `decoded` counts grid lines over the queue, in order. -/
def State.siltCheck (s : State) (k j : Nat) (drain : Bool) (decoded : Nat) : State :=
  ((s.stn k).queue.foldl (fun (r : State × Nat) im =>
    let t := r.1.siltAdvance k im.ctx r.2
    let t := match t.missingLine k j drain im r.2 with
      | some n => t.siltMiss k im n
      | none => t
    (t, r.2 - t.imLines im)) (s, decoded)).1

/-- The lowest line of the first context that a scan from `j` on can still read, shifts counted (R159). -/
def State.siltLow (s : State) (k j : Nat) : Nat :=
  match (s.stn k).queue with
  | [] => 0
  | im :: _ =>
    let base : Int := (im.base : Nat)
    let pos := if im.j0.isSome then max base (s.lineLo k j im) else base
    (pos + (s.shiftSpan k (s.ctx im.ctx).width).1).toNat

/-- Lines decoded that Silt has had a slot for (R101, R159). -/
def State.siltRoom (s : State) (k j decoded : Nat) : Nat :=
  min decoded (s.siltLow k j + siltSlots (s.rd (.btu .maxline) k))

/-- SILTFILL: decoded lines that a scan from `j` on can still read. -/
def State.siltFill (s : State) (k j decoded : Nat) : Nat := s.siltRoom k j decoded - s.siltLow k j

/-! ### Pixels (R144, R155 to R157, R171) -/

/-- The decoded bands of station `k`'s plane that lines `a` to `b` (grid) of a context touch. -/
def State.bandData (s : State) (k c : Nat) (a b : Int) : List (Nat × Array Byte) :=
  let x := s.ctx c
  let two := if x.res1200 then 2 else 1
  (List.range x.bandCount).filterMap fun i =>
    if ((256 * i * two : Nat) : Int) ≤ b ∧ a < ((256 * (i + 1) * two : Nat) : Int) then
      (s.findBand c k i).map fun r =>
        let bd := s.band r
        (i, (decodeRun (s.stored bd) (s.expect bd)).2.out)
    else none

/-- Whether line `n` of the context is on at its own pixel `i`, both on the grid (R144). -/
def pixelOn (x : Ctx) (data : List (Nat × Array Byte)) (n i : Nat) : Bool :=
  if x.res1200 ∧ n % 2 = 1 then false
  else
    let m := if x.res1200 then n / 2 else n
    let i := if x.res1200 then i / 2 else i
    match data.find? (fun e => e.1 == m / 256) with
    | some e => byteAt e.2 (m % 256 * x.lineBytes + i / 8) / 2 ^ (Config.pixelBit (i % 8) % 8) % 2 == 1
    | none => false

/-- Beam `b`'s bit for scan pixel `px`, line position `n` (R155, R157). -/
def State.beamPixel (s : State) (k : Nat) (im : Imaging) (data : List (Nat × Array Byte)) (n : Int) (px : Nat) : Bool :=
  let x := s.ctx im.ctx
  let m := n + s.shift k (segOf (s.rd (.btu .seglen8) k) px)
  decide (px < x.width) && s.lineOpen k im m &&
    pixelOn x data m.toNat (if s.on (.btu .rev) k then x.width - 1 - px else px)

/-- The beams a scan enables, each with its context and line position. -/
def State.enabled (s : State) (k j : Nat) (drain : Bool) : List (Nat × Imaging × Int) :=
  (s.stn k).queue.flatMap fun im => (s.beamsOf k j drain im).map fun e => (e.1, im, e.2)

/-- A mask of 16 bytes over 128 beams. -/
def beamMask (bs : List Nat) : List Nat := leBytes ((bs.map fun b => 2 ^ b).sum) 16

/-- The data beats of a scan of `w` pixels (R171). -/
def State.beats (s : State) (k j w : Nat) (en : List (Nat × Imaging × Int)) : List Nat :=
  let data := (s.stn k).queue.map fun im =>
    (im.ctx, if s.imActive k j im then
        let sp := s.shiftSpan k (s.ctx im.ctx).width
        s.bandData k im.ctx (s.lineLo k j im + sp.1) (s.lineLo k j im + 127 + sp.2)
      else [])
  (List.range (w / 4)).map fun g =>
    (en.map fun e =>
      let d := ((data.find? fun y => y.1 == e.2.1.ctx).map (·.2)).getD []
      ((List.range 4).map fun i => if s.beamPixel k e.2.1 d e.2.2 (4 * g + i) then 2 ^ (4 * e.1 + i) else 0).sum).sum

/-! ### APC commands and drives (R177, R186, R187, R191) -/

/-- The level at which a beam is measured in scan `j`: 1 full (R186, R187). -/
def State.apcLevel (s : State) (k b j : Nat) : Nat :=
  if !s.shingle k then 0
  else
    match (s.lnk k).apc with
    | some n => n / 16 % 2
    | none =>
      let probe := j / 16 % 16 == 15
      let st := s.beamSt k b
      if st == 1 then bit (!probe) else bit (probe || (st == 3 && j / 16 % 2 == 1))

/-- The post-scan window leaves 12 µs of pulses that end 2 µs before the SOS window opens (R186); times in ps after the SOS. -/
def State.apcFits (s : State) (k f : Nat) (c : Clock) : Bool :=
  let fper := s.rd (.btu .fper) (16 * k + f)
  let opens : Int := fper * 125 * (1024 - s.rd (.btu .win) k) / 2048
  fper != 0 && decide (c.at (s.lvS (.btu .sosfix) k * 20) (s.rd (.blk .apcstart) k) + 14000000 ≤ opens)

/-- One drive value of the host, held to DMAX, that differs from the one in use (R191). -/
def State.hostDrive (t : State) (k b : Nat) (h d : BlkF) (lv : Nat) : State :=
  let v := min (t.lnk k).dmax (t.rd (.blk h) (bix k b))
  if v = t.rd (.blk d) (bix k b) then t
  else (t.wr (.blk d) (bix k b) v).setLnk k { t.lnk k with drives := (t.lnk k).drives ++ [(b, lv, v)] }

/-- The drive values to send before the next SCAN word; in host-assisted mode those that differ from BLK_HDRIVE (R191). -/
def State.hostDrives (s : State) (k : Nat) : State :=
  if s.on (.blk .apcMode) k then
    (List.range 128).foldl (fun t b =>
      (t.hostDrive k b .hdriveN .driveN 0).hostDrive k b .hdriveF .driveF 1) s
  else s

/-- Send the drive values that wait. -/
def State.sendDrives (s : State) (k : Nat) : State :=
  let s := s.hostDrives k
  (s.setLnk k { s.lnk k with drives := [] }).sendDriveList k (s.lnk k).drives

/-- The APC command of scan `j` (R186, R187), or a skip; an APC scan is counted. -/
def State.apcCommand (s : State) (k j f : Nat) (c : Clock) (skip : Bool) : State × Bool :=
  let l := s.lnk k
  let s' := match l.apc with
    | some n => s.setLnk k { l with apc := some (n + 1) }
    | none => s
  if skip then (s', false)
  else if !s.apcFits k f c then (s'.count (.blk .apcskip) k, false)
  else
    let es := (List.range 8).map fun i => let b := 8 * (j % 16) + i; (b, s.apcLevel k b j)
    (s'.setLnk k { s'.lnk k with asked := es }, true)

/-! ### One scan -/

/-- Step the drain of the web stop (R299): 0 scanning, 1 the scan of second passes, 2 BLANK. Entering 2, what is left of every
context waits for a new placement behind its last fully exposed line (R301). -/
def State.drainStep (s : State) (k : Nat) : State :=
  let x := s.stn k
  let w := s.rd (.pth .wstate)
  let next := if !s.web ∨ w ≤ 1 then 0
    else if w = 2 ∧ x.drain = 0 ∧ s.shingle k ∧ s.busy k then 1
    else 2
  if next = 2 ∧ x.drain ≠ 2 then
    s.setStn k { x with drain := 2, lastEnd := none, queue := x.queue.map fun im =>
      { im with j0 := none, t0 := none, base := ((s.ctx im.ctx).plane k).next } }
  else s.setStn k { x with drain := next }

/-- Contexts whose last scan has ended are finished on the station (R82, R159). -/
def State.finishContexts (s : State) (k j : Nat) : State :=
  let x := s.stn k
  let ended := x.queue.filter (s.imOver k j)
  let s := s.setStn k { x with queue := x.queue.filter fun im => !s.imOver k j im }
  ended.foldl (fun t im =>
    let c := t.ctx im.ctx
    (t.setCtx im.ctx (c.setPlane k { c.plane k with done := true })).settleCtx im.ctx) s

/-- Scan `j` exposes no line of an earlier context (R163): none is between its first and its last scan, a web frame that is stopped
in its middle included (R17). -/
def State.atBoundary (s : State) (k j : Nat) : Bool :=
  !(s.stn k).queue.any fun im => imGoing j im || ((s.ctx im.ctx).plane k).started

/-- The station's boundary (R163): values shown come into force, beam commands take effect (R195 to R197). -/
def State.stationBoundary (s : State) (k : Nat) : State :=
  let s := s.release fun f i => match f with
    | .btu _ => f.outer i == k
    | .blk _ => f.outer i == k
    | _ => false
  let s := s.beamBoundary k
  let l := s.lnk k
  let s := s.setLnk k { l with used := (l.gen + l.sets.length) % 256 }
  s.setStn k { s.stn k with clamp := none }

/-- The set in use is not reported by the head yet (R176). -/
def Lnk.setMissing (l : Lnk) : Bool := decide (128 ≤ (l.have_ + 256 - l.used) % 256)

/-- A context's first line: ADMITTED becomes IMAGING, and a spoil held back until then happens (R82, R290). -/
def State.startImaging (s : State) (c : Nat) : State :=
  let x := s.ctx c
  if x.st == .admitted then
    let s := s.toState c .imaging
    if x.spoilPend then ((s.setCtx c { s.ctx c with spoilPend := false }).darkenAll c).spoil c 7 else s
  else s

/-- Record what the scan has exposed fully (R98, R299); LASTLINE counts stored lines. -/
def State.noteLines (s : State) (k j : Nat) (im : Imaging) : State :=
  let x := s.ctx im.ctx
  let q := x.plane k
  let full := s.lineLo k j im + (if s.shingle k then 64 else 128)
  let top := match q.blankFrom with
    | some m => min m x.lines
    | none => x.lines
  let q := { q with next := max q.next (min full.toNat top), started := true }
  let x := x.setPlane k q
  let least := (x.planeList.map fun p => (x.plane p).next).foldl min x.lines
  s.setCtx im.ctx { x with lastLine := (least + x.grid - 1) / x.grid - 1 }

/-- The scan phase (R162). -/
def State.scanPhase (s : State) (k j : Nat) : State :=
  match (s.stn k).queue.find? (s.imActive k j) with
  | none => s
  | some im =>
    let e := s.rdS (.pth .mpos) - im.pos0 - 256 * (s.linesPerScan k : Int) * ((j : Int) - (im.j0.getD j : Nat))
    let s := s.wrS (.btu .scanphase) k (clampInt e (-32768) 32767)
    if 16 * (s.rd (.btu .phaseLim) k : Int) < e.natAbs ∧ !im.phased then
      let x := s.stn k
      (s.ev (.btu .phaseEv) k).setStn k { x with queue := x.queue.map fun y => if y.ctx = im.ctx then { y with phased := true } else y }
    else s

/-- The SCAN word (R173). -/
def scanWord (blank apc : Bool) (f gen j w freq : Nat) (a at_ : Int) (en full : List Nat) : List Nat :=
  [bit blank + 2 * bit apc, f, gen] ++ leBytes (j % 65536) 2 ++ leBytes w 2 ++ leBytes freq 4 ++
    leBytes (ofSigned 32 a) 4 ++ leBytes (ofSigned 32 at_) 4 ++ beamMask en ++ beamMask full

/-- The clock of scan `j` is shown; a clamp sets its event, and a busy station keeps the clamped rate (R146, R164). -/
def State.setClock (s : State) (k : Nat) (c : Clock) : State :=
  let s := s.wr (.btu .pixnow) k (roundDiv c.num c.den)
  let s := if c.track then
      let r := s.scanRate k
      let x := s.stn k
      (s.ev (.btu .trackClamp) k).setStn k { x with clamp := if s.busy k then some (x.clamp.getD (r.1, r.2.1)) else none }
    else s
  if c.freq then s.ev (.btu .freqClamp) k else s

/-- The station sends SCAN words (R175): its link has reached STANDBY, and a FAULT since then does not end them (R178, log 142). -/
def State.scansSent (s : State) (k : Nat) : Bool :=
  let st := s.rd (.blk .lstate) k
  decide (4 ≤ st) && (decide (st ≤ 7) || (s.lnk k).apc.isSome || (s.lnk k).apcDone)

/-- BLK_HALFLINES starts anew with the context that is first on the station now (R193, R203). -/
def State.halfStart (s : State) (k : Nat) : State :=
  let x := s.stn k
  match x.queue with
  | im :: rest =>
    if im.half then s
    else
      let s := s.setStn k { x with queue := { im with half := true } :: rest }
      (s.wr (.blk .halflines) k 0).setLnk k { s.lnk k with recent := [] }
  | [] => s

/-- What a scan sends (R175): DRIVE words, the SCAN word, the data beats and the APC command. `start` is the scan's origin before the
cable, in ps, `en` the enabled beams and `seen` the contexts that they expose. -/
def State.sendScan (s : State) (k j f : Nat) (c : Clock) (start : Int) (skip : Bool) (gen : Nat) (en : List (Nat × Imaging × Int))
    (seen : List Imaging) : State :=
  let s := s.sendDrives k
  let lit := s.rd (.blk .lstate) k == 4 || s.rd (.blk .lstate) k == 5
  let w := if en.isEmpty then 0 else listMax (seen.map fun im => (s.ctx im.ctx).width)
  let origin : Int := start - 10 * (s.rd (.blk .cable) k : Nat)
  let q := if lit then s.apcCommand k j f c skip else (s, false)
  let full := (en.filter fun e => s.beamSt k e.1 == 1).map (·.1)
  let s := q.1
  let s := s.send k 0x02 (scanWord en.isEmpty q.2 f gen j w (roundDiv c.num c.den)
    (c.at origin ((s.lv (.btu .margin) k : Int) + s.lvS (.btu .foff) (16 * k + f)))
    (c.at origin (s.rd (.blk .apcstart) k)) (en.map (·.1)) full)
  let s := (s.beats k j w en).foldl (fun t b => t.emit (.beat k b)) s
  let s := if q.2 then
      s.send k 0x04 (8 :: leBytes (j % 65536) 2 ++ ((s.lnk k).asked.flatMap fun e => [e.1, e.2]))
    else s
  let l := s.lnk k
  s.setLnk k { l with
    lastJ := some j, exposed := seen.map (·.ctx), scanGen := gen, unseen := l.unseen + 1
    recent := (en.map (·.1) :: l.recent).take 17 }

/-- A scan whose timing set the head has not reported yet: SET_LATE, and the contexts that the scan would expose are spoiled (R176). -/
def State.lateScan (s : State) (k : Nat) (act : List Imaging) : State :=
  act.foldl (fun (t : State) im => (t.darken im.ctx k ((t.ctx im.ctx).plane k).next).spoil im.ctx 7) (s.ev (.blk .setLate) k)

/-- Run scan `j` of a locked station from SOS time `T` (R175): `mark` is M_j in ps after the SOS. -/
def State.performScan (s : State) (k T mark decoded : Nat) (bridged : Bool) : State :=
  let j := (s.stn k).j
  let f := (s.stn k).facet
  let s := s.drainStep k
  let ended := (s.stn k).queue.any (s.imOver k j)
  let s := s.finishContexts k j
  let s := if ended || s.atBoundary k j then s.stationBoundary k else s
  let s := s.halfStart k
  let c := s.clock k f
  let s := s.setClock k c
  let fix := s.lvS (.btu .sosfix) k
  let s := if (s.stn k).drain = 2 then s else s.placeAll k j c ((T : Int) + fix)
  let s := s.markPos k j
  let drain := (s.stn k).drain == 1
  let decoded := s.siltRoom k j decoded
  let s := s.siltCheck k j drain decoded
  let act := (s.stn k).queue.filter (s.imActive k j)
  let late := (s.lnk k).setMissing
  let gen := if late then (s.lnk k).scanGen else (s.lnk k).used
  let s := s.setLnk k { s.lnk k with late := late }
  let s := if late then s.lateScan k act else s
  let live := s.rd (.blk .lstate) k == 5 && s.on (.blk .lden) k && !late && !(s.stn k).recal
  let en := if live then s.enabled k j drain else []
  let seen := act.filter fun im => en.any fun e => e.2.1.ctx == im.ctx
  let s := seen.foldl (fun t im => (t.startImaging im.ctx).noteLines k j im) s
  let s := s.scanPhase k j
  let s := s.wr (.btu .siltfill) k (s.siltFill k j decoded)
  let s := if s.scansSent k then s.sendScan k j f c (fix * 20 - mark) (bridged || late) gen en seen else s
  (s.setStn k { s.stn k with j := j + 1 }).wr (.btu .scancnt) k (j + 1)

/-! ### Start of scan (R148, R149) -/

/-- The edge at `T` lies inside the window around the expected time; before a period is known there is no window (log 21). -/
def State.inWindow (s : State) (k last T : Nat) : Bool :=
  let x := s.stn k
  let fper := s.rd (.btu .fper) (16 * k + x.facet)
  let d : Int := 8 * (T : Int) - 8 * last - 25 * fper
  fper == 0 || decide (d.natAbs * 1024 ≤ s.rd (.btu .win) k * 25 * fper)

/-- The start of scan at hand is the first one after an index pulse, which numbers its facet 0 (R150). -/
def State.indexSos (s : State) (k : Nat) : Bool := (s.stn k).index && !s.busy k && s.on (.btu .indexSrc) k

/-- Take over a start of scan, accepted or bridged: the facet advances and the period is recorded. An index pulse is used up. -/
def State.takeSos (s : State) (k T : Nat) : State :=
  let x := s.stn k
  let n := s.facets k
  let locked := s.on (.btu .flock) k
  let facet := if s.indexSos k ∨ x.sos.isNone then 0 else (x.facet + 1) % n
  let x' := match x.sos with
    | none => { x with sos := some T, facet := facet, index := false, given := x.given + 1 }
    | some last =>
      let p := T - last
      { x with
        sos := some T
        facet := facet
        index := false
        given := x.given + 1
        periods := (p :: x.periods).take 256
        sinceLock := if locked then x.sinceLock + 1 else 0
        record := if locked ∨ 16 * n ≤ x.record.length ∨ (x.record.isEmpty ∧ x.facet ≠ 0) then x.record else x.record ++ [p] }
  s.setStn k x'

/-- The SOS instant in 20 ps: an edge in the reference cycle at `sos` ns, its converter reading `fine`. A station that recalibrates
sees it to 10 ns only (R372). -/
def State.sosTime (s : State) (k sos fine : Nat) : Nat := if (s.stn k).recal then 50 * sos else 50 * sos + s.sosFine k fine

/-- SCAN_START (R149, R150, R175): an SOS edge in the reference cycle at engine time `sos` ns, whose converter reads `fine` × 20 ps
into it, before compensation (R370). A station
that recalibrates sees it to 10 ns only and does not record it (R372). -/
def scanStart (k sos fine mark decoded : Nat) (s : State) : State :=
  if !s.vidUp k then s
  else
    let x := s.stn k
    let T := s.sosTime k sos fine
    let fineNow := s.sosFine k fine
    let locked := s.on (.btu .flock) k
    let glitch := match x.sos with
      | none => false
      | some last => decide (T < last + 10640000) || (locked && !s.inWindow k last T)
    if glitch then s.count (.btu .cntGlitch) k
    else
      let byIndex := s.indexSos k
      let s := s.takeSos k T
      let s := if x.recal then s else (s.wr (.btu .sos) k sos).wr (.btu .fine) k fineNow
      let s := s.clr (.btu .bridged) k
      let s := s.setStn k { s.stn k with misses := 0 }
      let s := if locked || s.busy k then s
        else if byIndex then s.lockFacet k false
        else if !s.on (.btu .indexSrc) k && s.noSignature k then s.lockFacet k true
        else s
      let s := s.wr (.btu .facet) k (s.stn k).facet
      let s := (s.writeFper k).writeRevper k
      if s.on (.btu .flock) k && s.on (.btu .synLock) k then s.performScan k T mark decoded false else s

def execScanStart (k sos fine mark decoded : Nat) (s : State) : Res :=
  guardWF (decide (k < 8) && decide (fine < 500)) (scanStart k sos fine mark decoded s)

/-- SOS_WINDOW_MISS (R149, R161): bridge the scan, or SOS loss. -/
def sosWindowMiss (k mark decoded : Nat) (s : State) : State :=
  let x := s.stn k
  match x.sos with
  | some last =>
    if !(s.vidUp k && s.on (.btu .flock) k) then s
    else if x.misses < s.rd (.btu .fly) k then
      let T := last + (25 * s.rd (.btu .fper) (16 * k + x.facet) + 4) / 8
      let s := s.takeSos k T
      let s := s.setStn k { s.stn k with misses := x.misses + 1, sinceLock := x.sinceLock }
      let s := (s.wr (.btu .bridged) k 1).count (.btu .cntMiss) k
      let s := (s.writeFper k).writeRevper k
      if s.on (.btu .synLock) k then s.performScan k T mark decoded true else s
    else (s.ev (.btu .sosLost) k).loseLock k
  | none => s

def execSosWindowMiss (k mark decoded : Nat) (s : State) : Res := guardWF (decide (k < 8)) (sosWindowMiss k mark decoded s)

/-- SOS_GLITCH (R149). -/
def execSosGlitch (k : Nat) (s : State) : Res :=
  guardWF (decide (k < 8)) (if s.vidUp k then s.count (.btu .cntGlitch) k else s)

/-- INDEX_PULSE (R150, R164): ignored while the station is busy. -/
def execIndexPulse (k : Nat) (s : State) : Res :=
  guardWF (decide (k < 8)) (if s.vidUp k && s.on (.btu .indexSrc) k && !s.busy k then s.setStn k { s.stn k with index := true } else s)

/-! ### The facet signature (R150) -/

/-- 16 × FACETS × the mean period deviation of each facet, from 16 recorded revolutions. -/
def deviations (n : Nat) (rec_ : List Nat) : List Int :=
  let total : Int := (rec_.sum : Nat)
  (List.range n).map fun i =>
    (n : Int) * (((List.range 16).map fun r => rec_.getD (n * r + i) 0).sum : Nat) - total

/-- E(r) of R150, in the same scale. -/
def rotationError (n : Nat) (d : List Int) (fref : Nat → Int) (r : Nat) : Nat :=
  ((List.range n).map fun i => (d.getD ((i + r) % n) 0 - 16 * n * fref i).natAbs).sum

/-- The rotation with the smallest E, if E is at most half the next smallest. -/
def bestRotation (n : Nat) (e : Nat → Nat) : Option Nat :=
  let rs := List.range n
  let best := rs.foldl (fun b r => if e r < e b then r else b) 0
  if rs.all fun r => r == best || decide (2 * e best ≤ e r) then some best else none

/-- FACET_SIGNATURE_EVAL (R150). -/
def facetSignatureEval (k : Nat) (s : State) : State :=
  let n := s.facets k
  let x := s.stn k
  if s.vidUp k && !s.on (.btu .flock) k && !s.on (.btu .indexSrc) k && !s.busy k && decide (16 * n ≤ x.record.length) then
    match bestRotation n (rotationError n (deviations n x.record) fun i => s.rdS (.btu .fref) (16 * k + i)) with
    | some r => (s.setStn k { x with facet := (x.facet + n - r) % n }).lockFacet k false
    | none => (s.ev (.btu .lockAmbig) k).setStn k { x with record := [] }
  else s

def execFacetSignatureEval (k : Nat) (s : State) : Res := guardWF (decide (k < 8)) (facetSignatureEval k s)

/-! ### The pixel clock synthesiser (R161) -/

/-- SYN_LOCK_LOSS (R161). -/
def execSynLockLoss (k : Nat) (s : State) : Res :=
  guardWF (decide (k < 8)) (if s.vidUp k then (s.clr (.btu .synLock) k).loseLock k else s)

/-- SYN_LOCK_GAIN (R161). -/
def execSynLockGain (k : Nat) (s : State) : Res :=
  guardWF (decide (k < 8)) (if s.vidUp k then
    let s := s.setStn k { s.stn k with synSeen := true }
    (s.wr (.btu .synLock) k 1).settleReady k
  else s)

end Sys2Proof.Machine
end

