-- ==== Sys2Proof/Machine/Trig.lean ====
section
/-! DEFINITION. The trigonometric tables that the rules define: the quarter-wave cosine table of the tracking notch (R244) and the
inverse table of the firing angle (R266). What their entries leave open, the last digit, is log 7. -/

namespace Sys2Proof.Machine

open Sys2Proof

/-- A ratio rounded to nearest, ties away from zero (R233). -/
def rnd (n : Int) (d : Nat) : Int := if 0 ≤ n then (2 * n + d) / (2 * (d : Int)) else -((2 * -n + d) / (2 * (d : Int)))

/-- π in 2^-90. -/
def pi90 : Int := 3889103333003610706726905384

/-- sin(2πk/P) in 2^-60, by a Taylor sum on the first quarter turn. -/
def sin60 (k p : Nat) : Int :=
  let k := k % p
  let neg := decide (p < 2 * k)
  let k := if neg then p - k else k
  let k2 := if p < 4 * k then p - 2 * k else 2 * k
  -- the angle is π * k2 / p, at most π/2
  let t : Int := pi90 * k2 / p / 2 ^ 10
  let sq := t * t / 2 ^ 80
  let sum := (List.range 14).foldl (fun (r : Int × Int) i =>
    let term := -(r.2 * sq / 2 ^ 80) / (((2 * i + 2) * (2 * i + 3) : Nat) : Int)
    (r.1 + term, term)) (t, t)
  (if neg then -1 else 1) * (sum.1 / 2 ^ 20)

/-- Entry `k` of the quarter-wave cosine table, in 2^-30: the cosine of k/1,024 of a quarter turn (R244, log 7). -/
def cosEntry (k : Nat) : Int := rnd (sin60 (1024 - k) 4096) (2 ^ 30)

/-- The fraction of full-wave power from the angle π × x / 2^30 on, in 2^-60: 1 − α/π + sin(2α)/(2π) (R266). -/
def powerFrom (x : Nat) : Int := 2 ^ 60 - (x : Int) * 2 ^ 30 + sin60 x (2 ^ 30) * 2 ^ 90 / (2 * pi90)

/-- Entry `k` of the 257-point inverse table, α/π in 2^-30 at duty k/256: the largest angle that leaves the load that power (R266,
log 7). -/
def alphaEntry (k : Nat) : Nat :=
  if k = 0 then 2 ^ 30
  else if 256 ≤ k then 0
  else (List.range 30).foldl (fun x i =>
    let y := x + 2 ^ (29 - i)
    if (k : Int) * 2 ^ 52 ≤ powerFrom y then y else x) 0

end Sys2Proof.Machine
end

