-- ==== Sys2Proof/Machine/Fuser.lean ====
section
/-! DEFINITION. Fuser and high-voltage channels (chapter "Fuser and high-voltage channels"): mains sense (R262, R263), heater gates
(R264 to R268), over-temperature comparators (R269), temperature inputs (R270, R271), high-voltage references (R272 to R274). -/

namespace Sys2Proof.Machine

open Sys2Proof

/-! ### Which slot drives a channel (R261) -/

/-- The slot whose output is bound to instance `i` of output kind `kind` (R241). -/
def State.driver (s : State) (kind i : Nat) : Option Nat :=
  (List.range s.hw.slots).find? fun n =>
    s.on (.cle .slotEn) n && s.rd (.cle .outKind) n == kind && s.rd (.cle .outIndex) n == i

/-- The slot is in MANUAL, AUTO or FALLBACK, or in FAULT with u held: its channel applies u (R261). -/
def State.slotApplies (s : State) (n : Nat) : Bool :=
  let st := s.rd (.cle .state) n
  st == 1 || st == 2 || st == 3 || (st == 4 && (s.slot n).held)

/-- The output that a channel applies, in 2^-30, clamped to 0 to 1.0; `none` when it applies none. -/
def State.applied (s : State) (kind i : Nat) : Option Nat :=
  match s.driver kind i with
  | some n => if s.slotApplies n then some (clampInt (s.rdS (.cle .uOut) n) 0 1073741824).toNat else none
  | none => none

/-! ### Heater gates -/

/-- A heater channel has a comparator that selects an input; without one its feature is disabled (R260). -/
def State.heaterOn (s : State) (g : Nat) : Bool := s.rd (.fhv .otcaSel) g != 0 || s.rd (.fhv .otcbSel) g != 0

/-- HOFF: a condition of R268 holds. -/
def State.heaterBlocked (s : State) (g : Nat) : Bool :=
  !s.heaterOn g || s.on (.fhv .otcA) g || s.on (.fhv .otcB) g || !s.on (.fhv .mainsOk) || (s.applied 2 g).isNone || !s.up .ctl

/-- Put a gate at a level. -/
def State.setGate (s : State) (g : Nat) (high : Bool) : State :=
  if s.on (.fhv .gate) g == high then s else (s.wrB (.fhv .gate) g high).emit (.pin (16 + g) high)

/-- Gates whose channel is blocked go low, and their burst counts start over (R267, R268). -/
def State.settleHeaters (s : State) : State :=
  (List.range 8).foldl (fun t g => if t.heaterBlocked g then (t.setGate g false).setHeater g {} else t) s

/-- The duty of a half-cycle in 2^-16 (R265). -/
def dutyOf (u vnom vrms : Nat) (ff : Bool) : Nat :=
  if !ff then min 65536 ((2 * u + 16384) / 32768)
  else
    let n := vnom * vnom
    let d := vrms * vrms
    let q := if 2 * d ≤ n then (2, 1) else if 2 * n ≤ d then (1, 2) else (n, d)
    min 65536 ((2 * u * q.1 + 16384 * q.2) / (32768 * q.2))

/-- Delay from the zero crossing to the firing instant in ns, from the inverse table with linear interpolation (R266). -/
def alphaDelay (h d : Nat) : Nat :=
  let a : Int := alphaEntry (d / 256)
  let b : Int := alphaEntry (d / 256 + 1)
  (((h : Int) * (a * 256 + (b - a) * (d % 256 : Nat))) / 2 ^ 38).toNat

/-- When a phase-angle gate fires in this half-cycle, in ns after its zero crossing, which was detected `detect` ns after it; `none` when
it does not (R266). -/
def fireAt (h d gateEnd : Nat) (detect : Nat) : Option Nat :=
  if d < 256 then none
  else
    let t := max (max 100000 detect) (if 65280 ≤ d then 100000 else alphaDelay h d)
    if h < t + 1000 * gateEnd then none else some t

/-- The decision of a burst channel for one half-cycle (R267): the new accumulator and counts, and whether it is on. -/
def burst (x : Heater) (d : Nat) (dcBal positive : Bool) : Heater × Bool :=
  let acc := min (x.acc + d) 131072
  let step : Int := if positive then 1 else -1
  let on := decide (65536 ≤ acc) && !(dcBal && decide (1 < ((x.pos : Int) - x.neg + step).natAbs))
  if on then
    ({ x with acc := acc - 65536, pos := x.pos + bit positive, neg := x.neg + bit (!positive) }, true)
  else ({ x with acc := acc }, false)

/-- A burst channel decides for its next half-cycle, once, under the duty in force (R267, log 81). -/
def State.burstNext (s : State) (g : Nat) : State :=
  let x := s.heater g
  match x.next with
  | some _ => s
  | none =>
    let r := burst x (s.rd (.fhv .hduty) g) (s.on (.fhv .dcBal) g) (!x.positive)
    s.setHeater g { r.1 with next := some r.2 }

/-- A gate's channel takes its duty at its zero crossing `z`, or `late` ns after it where that is detected later, and knows when its
gate acts in this half-cycle (R265 to R267). A burst channel that has not decided for the half-cycle yet decides now. -/
def State.takeDuty (s : State) (g z late : Nat) (positive : Bool) : State :=
  let s := s.setHeater g { s.heater g with cross := none, rise := none, fall := none, on := false, positive := positive }
  match s.applied 2 g with
  | none => s
  | some u =>
    if s.heaterBlocked g then s
    else
      let d := dutyOf u (s.rd (.fhv .vnom)) (s.rd (.fhv .vrms)) (s.on (.fhv .mainsFf))
      let s := s.wr (.fhv .hduty) g d
      let x := s.heater g
      let h := s.rd (.fhv .halfper)
      let fall := z + h - 1000 * s.rd (.fhv .gateEnd) g
      if s.on (.fhv .hMode) g then
        let r := match x.next with
          | some b => (x, b)
          | none => burst x d (s.on (.fhv .dcBal) g) positive
        let s := s.setHeater g { r.1 with
          on := r.2, next := none, rise := some (z + h - 1000 * s.rd (.fhv .gateLead) g), fall := some fall }
        s.setGate g r.2
      else
        let s := s.setGate g false
        let t := fireAt h d (s.rd (.fhv .gateEnd) g) late
        s.setHeater g { x with next := none, rise := t.map (z + ·), fall := t.map fun _ => fall }

/-- The gate's channel meets a zero crossing that has passed by engine time `now` (R265). -/
def State.heaterDue (s : State) (now g : Nat) : State :=
  match (s.heater g).cross with
  | some (z, positive) => if z ≤ now then s.takeDuty g z 0 positive else s
  | none => s

/-- Every gate's channel meets a zero crossing of its own that engine time has reached (R264, R265). -/
def State.heatersDue (s : State) : State :=
  if s.up .ctl then (List.range 8).foldl (fun t g => t.heaterDue t.etime g) s else s

/-- The zero crossing `z`, detected at `now`, with the sign of its half-cycle: a gate's own crossing lies (PHSEL × 2H / 3) mod H behind
(R264). A channel takes its duty at its own crossing, or now if that has passed. -/
def State.gateCrossing (s : State) (z now : Nat) (positive : Bool) (g : Nat) : State :=
  let s := match (s.heater g).cross with
    | some (w, p) => s.takeDuty g w 0 p
    | none => s
  let h := s.rd (.fhv .halfper)
  let p := s.rd (.fhv .phsel) g
  let own := z + (if h = 0 then 0 else p * 2 * h / 3 % h)
  let sign := positive != (p == 2)
  if own ≤ now then s.takeDuty g own (now - own) sign else s.setHeater g { s.heater g with cross := some (own, sign) }

/-- The mains is lost (R263): every gate low, the mains source raised. -/
def State.mainsLost (s : State) : State :=
  let s := if s.on (.fhv .mainsOk) then (s.clr (.fhv .mainsOk)).ev (.fhv .mainsLost) else s
  let s := { s with fhv := { s.fhv with zc := none, halves := [], bridged := 0, good := 0, badV := 0, ready := false } }
  s.settleHeaters

/-- VRMS in 0.1 V is inside 85 V to 265 V. -/
def vrmsOk (v : Nat) : Bool := decide (850 ≤ v) && decide (v ≤ 2650)

/-- A zero crossing at `z`, accepted or bridged, and known at `now`. -/
def State.crossing (s : State) (z now : Nat) : State :=
  let s := s.wr (.fhv .zc) 0 z
  let s := { s with fhv := { s.fhv with zc := some z, positive := !s.fhv.positive, ready := s.on (.fhv .mainsOk) } }
  if s.fhv.ready then (List.range 8).foldl (fun t g => t.gateCrossing z now t.fhv.positive g) s else s

/-- ZERO_CROSSING (R262, R263): the sense edge at engine time `t`; `vrms` at the end of a complete cycle. -/
def zeroCrossing (t : Nat) (vrms : Option Nat) (s : State) : State :=
  if !s.up .ctl then s
  else
    let z := ((t : Int) + s.rdS (.fhv .zcOfs) * 1000).toNat
    let h := s.rd (.fhv .halfper)
    let inWin := match s.fhv.zc, s.fhv.halves with
      | some last, _ :: _ => decide (10 * (((z : Int) - last) - h).natAbs ≤ h)
      | _, _ => true
    if !inWin then s.count (.fhv .zcGlitch)
    else
      let halves := match s.fhv.zc with
        | some last => ((z - last) :: s.fhv.halves).take 8
        | none => s.fhv.halves
      let h := if halves.isEmpty then 0 else halves.sum / halves.length
      let s := if halves.isEmpty then s else
          (s.wr (.fhv .halfper) 0 h).wr (.fhv .freq) 0 (if h = 0 then 0 else (2 * 5000000000 + h) / (2 * h))
      let s := match vrms with
        | some v => s.wr (.fhv .vrms) 0 v
        | none => s
      let ok := vrmsOk (s.rd (.fhv .vrms))
      let badV := match vrms with
        | some v => if vrmsOk v then 0 else s.fhv.badV + 1
        | none => s.fhv.badV
      let good := if ok then s.fhv.good + 1 else 0
      let s := { s with fhv := { s.fhv with halves := halves, bridged := 0, badV := badV, good := good } }
      let hBad := !halves.isEmpty && (decide (h * 130 < 1000000000) || decide (1000000000 < h * 90))
      if hBad ∨ 4 ≤ badV then s.mainsLost
      else
        let s := s.crossing z t
        if 16 ≤ good ∧ !s.on (.fhv .mainsOk) then s.wr (.fhv .mainsOk) 0 1 else s

def execZeroCrossing (t : Nat) (vrms : Option Nat) (s : State) : Res :=
  guardWF (match vrms with
    | some v => decide (v < 4096)
    | none => true) (zeroCrossing t vrms s)

/-- ZERO_CROSSING_MISS (R262, R263). -/
def zeroCrossingMiss (s : State) : State :=
  match s.fhv.zc with
  | some last =>
    if !s.up .ctl then s
    else if 2 ≤ s.fhv.bridged then s.mainsLost
    else
      let s := { s with fhv := { s.fhv with bridged := s.fhv.bridged + 1, good := 0 } }
      let h := s.rd (.fhv .halfper)
      s.crossing (last + h) (last + h + h / 10)
  | none => s

def execZeroCrossingMiss (s : State) : Res := guardWF true (zeroCrossingMiss s)

/-- ZC_GLITCH (R262). -/
def execZcGlitch (s : State) : Res := guardWF true (if s.up .ctl then s.count (.fhv .zcGlitch) else s)

/-- HEATER_GATE_FIRE (R266, R267): the computed instant at which a gate rises or falls has come, so a crossing of its own that precedes
it has passed. The rise of a burst gate, GATE_LEAD before a half-cycle, and its fall, GATE_END before, are judged by the decision
for the half-cycle to come: consecutive on half-cycles keep the gate high. -/
def heaterGateFire (g : Nat) (e : GateEdge) (s : State) : State :=
  if !s.up .ctl then s
  else
    let s := match (s.heater g).cross with
      | some (z, p) => s.takeDuty g z 0 p
      | none => s
    let burstNow := s.on (.fhv .hMode) g
    let free := !s.heaterBlocked g && s.fhv.ready
    let s := if burstNow ∧ free ∧ (s.heater g).rise.isSome then s.burstNext g else s
    let x := s.heater g
    match e with
    | .fall => if burstNow ∧ free ∧ x.next = some true then s else s.setGate g false
    | .rise => if free && (if burstNow then x.next == some true else x.rise.isSome) then s.setGate g true else s

def execHeaterGateFire (g : Nat) (e : GateEdge) (s : State) : Res := guardWF (decide (g < 8)) (heaterGateFire g e s)

/-! ### Comparators (R269) -/

/-- A comparator's condition for a selection, threshold and code equivalent. -/
def State.otcCond (s : State) (sel thr : Nat) (code : Int) : Bool :=
  if sel = 0 then false
  else if sel ≤ 16 then decide (code ≤ 16 * thr) || decide (64880 ≤ code)
  else decide (16 * toSigned 12 thr ≤ code) || s.on (.fhv .pOpen) (sel - 17)

/-- The condition of comparator A or B of a gate. -/
def State.otcNow (s : State) (g : Nat) (c : Comparator) (code : Int) : Bool :=
  match c with
  | .a => s.otcCond (s.rd (.fhv .otcaSel) g) (s.rd (.fhv .otcaThr) g) code
  | .b => s.otcCond (s.rd (.fhv .otcbSel) g) (s.rd (.fhv .otcbThr) g) code

/-- OTC_TRIP: the condition has held for 64 µs. -/
def otcTrip (g : Nat) (c : Comparator) (code : Int) (s : State) : State :=
  if s.up .ctl && s.otcNow g c code then
    (s.ev (.fhv (match c with
      | .a => .otcA
      | .b => .otcB)) g).settleHeaters
  else s

def execOtcTrip (g : Nat) (c : Comparator) (code : Int) (s : State) : Res := guardWF (decide (g < 8)) (otcTrip g c code s)

/-- OTC_CLEAR: the W1C bits of an FHV_HSTAT write; a latch whose condition holds stays. -/
def otcClear (g : Nat) (v : Word) (codeA codeB : Int) (s : State) : State :=
  if !s.up .ctl then s
  else
    let s := if v.toNat / 4 % 2 = 1 ∧ !s.otcNow g .a codeA then s.clr (.fhv .otcA) g else s
    if v.toNat / 8 % 2 = 1 ∧ !s.otcNow g .b codeB then s.clr (.fhv .otcB) g else s

def execOtcClear (g : Nat) (v : Word) (codeA codeB : Int) (s : State) : Res :=
  guardWF (decide (g < 8)) (s.hostWrite .fhv 0 fun s =>
    otcClear g v codeA codeB s)

/-! ### Temperature inputs -/

/-- The thermistor code for a resistance in ohms (R270). -/
def thermCode (rt : Nat) : Nat := min 65535 ((2 * 65536 * rt + (rt + 10000)) / (2 * (rt + 10000)))

/-- The temperature at a code, interpolated in table `t`, in 1/16 °C (R270). -/
def State.linearise (s : State) (t code : Nat) : Int :=
  let k := code / 2048
  let a := s.rdS (.fhv .lin) (33 * t + k)
  let b := s.rdS (.fhv .lin) (33 * t + min 32 (k + 1))
  (2 * (a * 2048 + (b - a) * (code % 2048 : Nat)) + 2048) / 4096

/-- THERMISTOR_CONVERSION (R270). The inputs deliver no value until they are calibrated (R365). -/
def thermistorConversion (i rt : Nat) (s : State) : State :=
  if !s.up .ctl || !s.calPast 5 then s
  else
    let c := thermCode rt
    let s := s.wr (.fhv .tCode) i c
    let s := (s.wrB (.fhv .tOpen) i (decide (64880 ≤ c))).wrB (.fhv .tShort) i (decide (c ≤ 64))
    let s := s.wrS (.fhv .tval) i (s.linearise (s.rd (.fhv .tTable) i) c)
    { s with fhv := { s.fhv with tGiven := Store.set id 0 i (Store.get 0 i s.fhv.tGiven + 1) s.fhv.tGiven } }

def execThermistorConversion (i rt : Nat) (s : State) : Res := guardWF (decide (i < 16)) (thermistorConversion i rt s)

/-- THERMOPILE_CONVERSION (R271): every 64th conversion of an input is its open-circuit test. -/
def thermopileConversion (i : Nat) (code : Int) (s : State) : State :=
  if !s.up .ctl || !s.calPast 5 then s
  else
    let n := Store.get 0 i s.fhv.pConv + 1
    let s := { s with fhv := { s.fhv with pConv := Store.set id 0 i (n % 64) s.fhv.pConv } }
    if n = 64 then s.wrB (.fhv .pOpen) i (decide (32767 ≤ code))
    else
      let s := s.wrS (.fhv .pCode) i code
      { s with fhv := { s.fhv with pGiven := Store.set id 0 i (Store.get 0 i s.fhv.pGiven + 1) s.fhv.pGiven } }

def execThermopileConversion (i : Nat) (code : Int) (s : State) : Res :=
  guardWF (decide (i < 8) && decide (-32768 ≤ code) && decide (code ≤ 32767)) (thermopileConversion i code s)

/-! ### High-voltage channels (R272 to R274) -/

/-- Hard off: HVEN low and REF 0 at once (R273). -/
def State.hvHardOff (s : State) (c : Nat) : State :=
  ((s.wr (.fhv .vstate) c 0).wr (.fhv .hven) c 0).wr (.fhv .vref) c 0

/-- REF moves toward a target by at most VRAMP (R272). -/
def rampRef (ref target step : Nat) : Nat := if ref < target then min target (ref + step) else max target (ref - step)

/-- The reference a channel's slot asks for (R272). -/
def refTarget (u : Nat) : Nat := min 4095 ((2 * u * 4096 + 1073741824) / 2147483648)

/-- One frame of one channel. Until step 6 of power-up calibration ends there is no feedback, and REF stays at 0 (R365). -/
def hvChannel (c fb : Nat) (s : State) : State :=
  let cal := s.calPast 6
  let s := if cal then s.wr (.fhv .vfb) c (min 4095 fb) else s
  let lim := s.rd (.fhv .fbHi) c
  let n := if cal ∧ lim ≠ 0 ∧ lim ≤ min 4095 fb then Store.get 0 c s.fhv.high + 1 else 0
  let s := { s with fhv := { s.fhv with high := Store.set id 0 c n s.fhv.high } }
  if n ≠ 0 ∧ s.rd (.fhv .fbT) c ≤ n then (s.ev (.fhv .fbhiTrip) c).hvHardOff c
  else if s.on (.fhv .fbhiTrip) c then s
  else
    let u := (s.applied 1 c).map fun v => if cal then v else 0
    let step := s.rd (.fhv .vramp) c
    let ref := s.rd (.fhv .vref) c
    match s.rd (.fhv .vstate) c, u with
    | 0, some _ => ((s.wr (.fhv .vstate) c 1).wr (.fhv .hven) c 1).wr (.fhv .vref) c 0
    | 1, none => s.wr (.fhv .vstate) c 3
    | 2, some v => s.wr (.fhv .vref) c (rampRef ref (refTarget v) step)
    | 2, none => (s.wr (.fhv .vstate) c 3).wr (.fhv .vref) c (rampRef ref 0 step)
    | 3, some v => (s.wr (.fhv .vstate) c 2).wr (.fhv .vref) c (rampRef ref (refTarget v) step)
    | 3, none =>
      let r := rampRef ref 0 step
      let s := s.wr (.fhv .vref) c r
      if r = 0 then s.hvHardOff c else s
    | _, _ => s

/-- HV_FRAME: feedback conversions of every channel. -/
def hvFrame (fb : List Nat) (s : State) : State :=
  if !s.up .ctl then s
  else
    let refs (t : State) : List Nat := (List.range t.hw.hvs).map fun c => t.rd (.fhv .vref) c
    let t := (List.range s.hw.hvs).foldl (fun t c => hvChannel c (fb.getD c 0) t) s
    if refs t == refs s then t else t.emit (.hvRef (refs t))

def execHvFrame (fb : List Nat) (s : State) : Res :=
  guardWF (decide (fb.length ≤ 48) && fb.all fun x => decide (x < 4096)) (hvFrame fb s)

/-- HV_LEAD_END: 100 µs in LEAD (R273). -/
def execHvLeadEnd (c : Nat) (s : State) : Res :=
  guardWF (decide (c < 48)) (if s.up .ctl && s.rd (.fhv .vstate) c == 1 then s.wr (.fhv .vstate) c 2 else s)

/-- FBHI_CLEAR (R274). -/
def execFbhiClear (c : Nat) (v : Word) (s : State) : Res :=
  guardWF (decide (c < 48)) (s.hostWrite .fhv 0 fun s =>
    if s.up .ctl && v.toNat / 8 % 2 == 1 && !(s.rd (.fhv .fbHi) c != 0 && decide (s.rd (.fhv .fbHi) c ≤ s.rd (.fhv .vfb) c)) then
      s.clr (.fhv .fbhiTrip) c
    else s)

end Sys2Proof.Machine
end

