-- ==== Sys2Proof/Machine/Slots.lean ====
section
/-! DEFINITION. Closed-loop slots (chapter "Closed-loop control engine"): arithmetic (R233), inputs (R237, R239), the law and its
update order (R242), the notch (R243, R244, R475), states and commands (R245 to R253), test signals (R254) and capture (R255).
Readings of open wording: log 27 to 30. -/

namespace Sys2Proof.Machine

open Sys2Proof

/-! ### Arithmetic (R233) -/

/-- Saturate to Q2.30, and to the integrator's Q18.30. -/
def q30 (z : Int) : Int := sat 32 z
def q48 (z : Int) : Int := sat 48 z

/-- A Q2.30 number times a Q8.24 gain, into Q2.30 and into the integrator's Q18.30, and times a Q2.30 number. -/
def mulG (a g : Int) : Int := q30 (rnd (a * g) 16777216)
def mulI (a g : Int) : Int := q48 (rnd (a * g) 16777216)
def mulQ (a b : Int) : Int := q30 (rnd (a * b) 1073741824)

/-- 1.0. -/
def one30 : Int := 1073741824

/-! ### Inputs (R237, R239) -/

/-- The pin of analogue input `i` (R446). -/
def ainPin (i : Nat) : Nat := 64 * (i / 24) + i % 24

/-- What a slot finds at its source: the raw value as a fraction, the count of values delivered (`none`: new at every
execution), whether the source itself says that the value is old (R475), and the input fault as FCAUSE codes it (R239). -/
structure RawIn where
  num : Int
  den : Nat := 1
  given : Option Nat := none
  old : Bool := false
  fault : Nat := 0
  deriving DecidableEq, Repr

/-- Read a slot's source (R237). Inputs that are not calibrated yet deliver no value (R365). -/
def State.slotRaw (s : State) (n ain : Nat) : RawIn :=
  let i := s.rd (.cle .srcIndex) n
  match s.rd (.cle .srcKind) n with
  | 1 =>
    let p := ainPin i
    let bad := s.on (.eio .lo) p || s.on (.eio .hi) p || s.on (.eio .openFlag) p || s.on (.eio .pair) p || s.on (.eio .overload) p
    { num := ain, given := if s.calPast 4 then none else some 0, fault := if bad then 3 else 0 }
  | 2 => { num := s.rdS (.fhv .tval) i, given := some (Store.get 0 i s.fhv.tGiven),
           fault := if s.on (.fhv .tOpen) i || s.on (.fhv .tShort) i then 3 else 0 }
  | 3 => { num := s.rdS (.fhv .pCode) i, given := some (Store.get 0 i s.fhv.pGiven),
           fault := if s.on (.fhv .pOpen) i then 3 else 0 }
  | 4 => { num := s.rd (.fhv .vfb) i, given := if s.calPast 6 then none else some 0 }
  | 5 => { num := s.rdS (.mot .vest) i, fault := if s.on (.mot .encErr) i then 3 else 0 }
  | 6 => { num := s.rdS (.mot .dev) i, fault := if s.on (.mot .encErr) i then 3 else 0 }
  | 7 =>
    let per := s.rd (.btu .revper) i
    if per = 0 then { num := 0, given := some 0, old := true, fault := if s.on (.btu .flock) i then 0 else 4 }
    else { num := ((s.rd (.btu .facets) i * 16384000000000 : Nat) : Int), den := per, given := some ((s.stn i).given + 1),
           fault := if s.on (.btu .flock) i then 0 else 4 }
  | 8 => { num := s.rdS (.btu .scanphase) i, given := some (s.stn i).given, fault := if s.on (.btu .flock) i then 0 else 4 }
  | 9 =>
    let st := s.rd (.cle .state) i
    { num := s.rdS (.cle .uOut) i, den := 1073741824, given := some (s.slot i).runs,
      fault := if st == 1 || st == 2 || st == 3 then 0 else 5 }
  | _ => { num := 0 }

/-- y = ((raw - INOFS) × INGAIN) in Q2.30; a slot output's offset is in its own units, Q2.30 (R237). -/
def State.scaleIn (s : State) (n : Nat) (num : Int) (den : Nat) : Int :=
  let g := s.lvS (.cle .ingain) n
  let ofs := s.lvS (.cle .inofs) n
  if s.rd (.cle .srcKind) n = 9 then q30 (rnd ((num - ofs) * g) 16777216)
  else q30 (rnd ((num - ofs * den) * g * 64) den)

/-! ### Feed-forward (R240) -/

/-- Velocity and acceleration of FFAXIS over VMAX and AMAX, in Q2.30; 0 where the divisor is 0. -/
def State.axisNorm (s : State) (n : Nat) : Int × Int :=
  let k := s.rd (.cle .ffaxis) n
  let x := s.axis k
  let v := s.axV k
  let a := s.axA k
  (if v = 0 then 0 else q30 (rnd (x.v * one30) v.toNat), if a = 0 then 0 else q30 (rnd (x.a * one30) a.toNat))

/-- v_ff and a_ff: 0 when FF_EN is 0. -/
def State.feedForward (s : State) (n : Nat) : Int × Int := if s.on (.cle .ffEn) n then s.axisNorm n else (0, 0)

/-! ### The notch (R243, R244, R475) -/

/-- The cosine of `num/den` of a turn (below half a turn) by the quarter-wave table with linear interpolation. -/
def tableCos (num den : Nat) : Int :=
  let t := 4096 * num
  let half := decide (1024 * den < t)
  let t := if half then 2048 * den - t else t
  let k := t / den
  let a := cosEntry k
  let v := rnd (a * den + (cosEntry (k + 1) - a) * (t % den : Nat)) den
  if half then -v else v

/-- Frames per sample (R234). -/
def periodFrames (code : Nat) : Nat := [1, 2, 5, 10, 20, 50, 100, 200, 500, 1000].getD code 1000

/-- What the notch does at this execution: its c, or why it has none. -/
inductive NotchC where
  | c (v : Int)
  | aliased
  | zero
  deriving DecidableEq, Repr

/-- The c of a slot's notch. -/
def State.notchCof (s : State) (n : Nat) : NotchC :=
  if s.lv (.cle .notchTrack) n = 0 then .c (s.lvS (.cle .notchc) n)
  else
    let per := s.rd (.btu .revper) (s.lv (.cle .nstn) n)
    if per = 0 then .zero
    else
      let num := s.lv (.cle .harm) n * 16000000000 * periodFrames (s.rd (.cle .period) n)
      let den := per * 100000
      if den ≤ 2 * num then .aliased else .c (tableCos num den)

/-- One step of the notch in direct form II: the output and the new elements. `preset`: the elements are first set so that a
constant input passes unchanged (R243). -/
def notchStep (c : Int) (nw : Nat) (preset : Bool) (x n1 n2 : Int) : Int × Int × Int :=
  let r : Int := 65536 - nw
  -- 1 - 2ρc + ρ² and 2 - 2c, both scaled by 2^62
  let a : Int := 2 ^ 62 - 2 * r * c * 2 ^ 16 + r * r * 2 ^ 30
  let b : Int := (2 ^ 31 - 2 * c) * 2 ^ 32
  let w0 := if preset ∧ 0 < a then rnd (x * 2 ^ 62) a.toNat else 0
  let n1 := if preset then w0 else n1
  let n2 := if preset then w0 else n2
  let w := x + rnd (2 * r * c * 2 ^ 16 * n1 - r * r * 2 ^ 30 * n2) (2 ^ 62)
  let y := if b ≤ 0 then x else q30 (rnd (a * (2 ^ 30 * w - 2 * c * n1 + 2 ^ 30 * n2)) (b * 2 ^ 30).toNat)
  (y, w, n1)

/-- Apply a slot's notch to a signal. -/
def State.notch (s : State) (n : Nat) (x : Int) : Int × State :=
  match s.notchCof n with
  | .zero => (0, s)
  | .aliased => (x, s.ev (.cle .notchAlias) n)
  | .c v =>
    let sl := s.slot n
    let r := notchStep v (s.lv (.cle .nw) n) sl.notchNew x sl.n1 sl.n2
    (r.1, s.setSlot n { sl with n1 := r.2.1, n2 := r.2.2, notchNew := false })

/-- The notch where it stands at this place of the chain; else the signal passes. -/
def State.notchIf (s : State) (here : Bool) (n : Nat) (x : Int) : Int × State := if here then s.notch n x else (x, s)

/-! ### Test signals (R254) -/


/-- The test signal at its execution `k` (R254). -/
def injectValue (ty : Nat) (a : Int) (p k lfsr : Nat) : Int :=
  match ty with
  | 0 => a
  | 1 => if k / max 1 p % 2 = 0 then a else -a
  | 2 => if lfsr / 16384 % 2 = 1 then a else -a
  | _ => rnd (a * sin60 k (max 1 p)) (2 ^ 60)

/-- Step the shift register x^15 + x^14 + 1. -/
def lfsrStep (v : Nat) : Nat := (2 * v + (v / 16384 + v / 8192) % 2) % 32768

/-! ### Slot states -/

/-- STATE: 0 OFF, 1 MANUAL, 2 AUTO, 3 FALLBACK, 4 FAULT, 5 ISOLATED. -/
def State.slotSt (s : State) (n : Nat) : Nat := s.rd (.cle .state) n

/-- Enter a state: an injection ends outside AUTO and MANUAL, a fall-back decision outside FALLBACK, and channels that the slot
no longer drives go off. -/
def State.setSlotSt (s : State) (n st : Nat) : State :=
  let s := s.wr (.cle .state) n st
  let s := if st = 1 ∨ st = 2 then s else s.clr (.cle .injAct) n
  let s := if st = 3 then s else (s.clr (.cle .resumePend) n).closeDecision 4 n
  s.settleHeaters

/-- A context is ADMITTED, IMAGING or STALLED; while none is, every moment is a boundary (R245). -/
def State.pageActive (s : State) : Bool :=
  s.loam.ctxs.any fun e => e.2.st == .admitted || e.2.st == .imaging || e.2.st == .stalled

/-- The shadowed fields of R247. -/
def isShadow (f : Fld) : Bool := f.row.latch == .shadow

/-- The DATA of a FALLBACK post (R434). -/
def fallbackData (fcause : Nat) (y ym r u : Int) : List Nat :=
  [fcause, 0, 0, 0] ++ leBytes (ofSigned 32 y) 4 ++ leBytes (ofSigned 32 ym) 4 ++ leBytes (ofSigned 32 r) 4 ++
    leBytes (ofSigned 32 u) 4

/-! ### Capture (R255) -/

/-- A signal of a slot as its last execution left it. -/
def State.captureSignal (s : State) (n sig : Nat) : Nat :=
  match sig with
  | 0 => s.rd (.cle .yOut) n
  | 1 => s.rd (.cle .rOut) n
  | 2 => s.rd (.cle .eOut) n
  | 3 => s.rd (.cle .uOut) n
  | 4 => ofSigned 32 (q30 (s.rdS (.cle .iOut) n))
  | 5 => s.rd (.cle .ymOut) n
  | 6 => s.rd (.cle .residOut) n
  | _ => ofSigned 32 (s.slot n).inj

/-- The capture ends. -/
def State.captureDone (s : State) : State := (s.wr (.cle .cstate) 0 3).ev (.cle .capDoneEv)

/-- Take a sample; `trig`: the trigger's event came in this execution. -/
def State.captureStep (s : State) (trig : Bool) : State :=
  let st := s.rd (.cle .cstate)
  if st = 1 ∨ st = 2 then
    let c := s.capture
    let row := (List.range 4).map fun i =>
      if s.on (.cle .capEn) i then s.captureSignal (s.rd (.cle .capSlot) i) (s.rd (.cle .capSignal) i) else 0
    let idx := c.taken % 16384
    let now := c.after.isNone && (trig || c.force)
    let after := match c.after with
      | some k => some (k + 1)
      | none => if now then some 1 else none
    let c := { c with ring := Store.set id [0, 0, 0, 0] idx row c.ring, taken := c.taken + 1, after := after, force := false }
    let s := { s with capture := c }
    let s := if now then ((s.wr (.cle .cstate) 0 2).wr (.cle .trigidx) 0 idx).wr (.cle .captime) 0 s.etime else s
    let pre := s.rd (.cle .pre)
    match after with
    | some k =>
      let s := s.wr (.cle .capCount) 0 (min pre (c.taken - k) + k)
      if 16384 - pre ≤ k then s.captureDone else s
    | none => s.wr (.cle .capCount) 0 (min 16384 c.taken)
  else s

/-! ### PWM outputs (R241) -/

/-- The pin that slot `n` drives with a PWM output (R232, R241). -/
def State.pwmPin (s : State) (n : Nat) : Option Nat :=
  if s.on (.cle .slotEn) n && s.rd (.cle .outKind) n == 3 then some (s.rd (.cle .outIndex) n) else none

/-- Put a duty out on a pin, with the slot's period of PWM_PER + 1 clocks. -/
def State.emitPwm (s : State) (n pin : Nat) (duty : Int) : State := s.emit (.pwm pin duty (s.rd (.cle .pwmPer) n + 1))

/-- Drive the slot's pin, where it has one. -/
def State.pwmDrive (s : State) (n : Nat) (duty : Int) : State :=
  match s.pwmPin n with
  | some p => s.emitPwm n p duty
  | none => s

/-- After a write, a pin that the slot drove before and does not drive now falls (R232, R253). -/
def State.pwmLeave (s : State) (n : Nat) (was : Option Nat) : State :=
  match was with
  | some p => if s.pwmPin n = some p then s else s.emitPwm n p 0
  | none => s

/-! ### One execution (R242) -/

/-- The integrator preset of R246: i such that the law gives `target` with the other terms `rest`. -/
def State.presetI (s : State) (n : Nat) (target rest : Int) : State :=
  let want := target - rest
  let i := clampInt want (s.lvS (.cle .umin) n) (s.lvS (.cle .umax) n)
  let s := s.wrS (.cle .iOut) n i
  if i = want then s else s.ev (.cle .presetClamp) n

/-- Whether a slot takes its waiting AUTO, MANUAL or RESUME at this execution. -/
def State.boundaryNow (s : State) (x : Slot) : Bool := x.bound || !s.pageActive

/-- What a slot's input gives at one execution: a shadow commit takes effect, the value is valid or not, the cause of a fault, the
scaled input or its held value, and y behind the notch. -/
structure SlotRead where
  com : Bool
  valid : Bool
  stale : Bool
  fault : Nat
  y0 : Int
  y : Int

/-- Take the input (R237, R239, R243, R247); `ain` is the analogue input's conversion code. -/
def State.slotInput (s : State) (n ain : Nat) : SlotRead × State :=
  let com := (s.slot n).commit
  let s := if com then
      (s.release fun f i => isShadow f && i == n).setSlot n { s.slot n with notchNew := true }
    else s
  let raw := s.slotRaw n ain
  let x := s.slot n
  let age := match raw.given with
    | none => 0
    | some g => if g = x.seen then x.age + 1 else 0
  let stale := raw.old || decide (s.rd (.cle .staleN) n < age)
  let valid := !stale && raw.fault == 0
  let s := if stale then ((s.ev (.cle .ovr) n).count (.cle .cntOvr) n).ev (.cle .ovrAny) else s
  let y0 := if valid then s.scaleIn n raw.num raw.den else x.yHeld
  let s := s.setSlot n { x with age := age, seen := raw.given.getD 0, yHeld := y0, good := if valid then x.good + 1 else 0 }
  let q := s.notchIf (decide (s.lv (.cle .notchPos) n = 1)) n y0
  ({ com := com, valid := valid, stale := stale, fault := raw.fault, y0 := y0, y := q.1 }, q.2)

/-- The signals of one execution before its law: setpoint, feed-forward, injection, residual; suspect, plausibility just lost and
why; an injection runs; a waiting AUTO may enter. -/
structure SlotAim where
  r : Int
  ff : Int
  inj : Int
  resid : Int
  suspect : Bool
  lost : Bool
  cause : Nat
  running : Bool
  entering : Bool

/-- The injection runs at this execution (R254): only in AUTO or MANUAL, and not beyond its duration. Arming ends it. -/
def State.injRuns (s : State) (n : Nat) : Bool :=
  let dur := s.rd (.cle .injDuration) n
  s.on (.cle .injAct) n && (s.slotSt n == 1 || s.slotSt n == 2) && !(dur != 0 && decide (dur ≤ (s.slot n).injK))

/-- The setpoint before its ramp: the source's value plus the trim of another slot (R240). -/
def State.slotGoal (s : State) (n : Nat) : Int :=
  let base := match s.rd (.cle .spsrc) n with
    | 0 => s.rdS (.cle .sp) n
    | 1 => (s.axisNorm n).1
    | _ => s.scaleIn n (s.rd (.btu .snom) (s.rd (.cle .srcIndex) n) : Int) 1
  q30 (base + if s.on (.cle .trimEn) n then (s.slot (s.rd (.cle .trimSlot) n)).trim else 0)

/-- A waiting AUTO enters at this execution unless the value is suspect (R245, R253). -/
def State.slotEnters (s : State) (n : Nat) : Bool :=
  let x := s.slot n
  x.req == .auto && (s.slotSt n == 0 || s.slotSt n == 1) &&
    (!s.on (.cle .initPend) n || (s.boundaryNow x && decide (2 * s.rd (.cle .pn) n ≤ x.good)))

/-- A RESUME that waits is due at this execution, if its input is valid (R245). -/
def State.slotResumes (s : State) (n : Nat) : Bool :=
  s.slotSt n == 3 && s.on (.cle .resumePend) n && s.boundaryNow (s.slot n)

/-- Setpoint, injection and plausibility (R239, R240, R248, R254). A negative SPRATE leaves the ramp open (R240). Where ym starts anew
from y, at an entry from OFF and at a resume, there is no residual to judge. -/
def State.slotAim (s : State) (n : Nat) (q : SlotRead) : SlotAim × State :=
  let st := s.slotSt n
  let dur := s.rd (.cle .injDuration) n
  let running := s.injRuns n
  let inj0 := if running then
      injectValue (s.rd (.cle .injType) n) (s.rdS (.cle .injamp) n) (s.rd (.cle .injper) n) (s.slot n).injK (s.slot n).lfsr
    else 0
  let ff2 := s.feedForward n
  let goal := s.slotGoal n
  let x := s.slot n
  let rate : Int := s.lvS (.cle .sprate) n
  let o := s.freshIf (decide (rate < 0)) 32
  let s := o.2
  let ramp := if rate = 0 then goal else if rate < 0 then toSigned 32 o.1 else x.ramp + clampInt (goal - x.ramp) (-rate) rate
  let r := q30 (ramp + if s.rd (.cle .injPoint) n = 0 then inj0 else 0)
  let ff := q30 (s.lvS (.cle .ubias) n + mulG ff2.1 (s.lvS (.cle .kv) n) + mulG ff2.2 (s.lvS (.cle .kaff) n))
  let resid := q30 (q.y - x.ym)
  let plim := s.rd (.cle .plim) n
  let beyond := plim != 0 && decide ((plim * 32768 : Nat) < resid.natAbs)
  let entering := s.slotEnters n
  let suspect := !q.valid || (beyond && !(entering && st == 0) && !s.slotResumes n)
  let suspects := if suspect then x.suspects + 1 else 0
  let s := if suspect then s.count (.cle .cntSuspect) n else s
  let s := s.wrB (.cle .plausible) n (!suspect)
  let s := s.wrB (.cle .injAct) n (running && !suspect && (dur == 0 || decide (x.injK + 1 < dur)))
  let inj := if suspect then 0 else inj0
  let p := max 1 (s.rd (.cle .injper) n)
  let s := s.setSlot n { x with
    ramp := ramp, suspects := suspects, inj := inj
    injK := if running then x.injK + 1 else x.injK
    lfsr := if running ∧ (x.injK + 1) % p = 0 then lfsrStep x.lfsr else x.lfsr }
  ({ r := r, ff := ff, inj := inj, resid := resid, suspect := suspect
     lost := suspect && (suspects == s.rd (.cle .pn) n || (st == 2 && decide (s.rd (.cle .pn) n < suspects)))
     cause := if q.fault ≠ 0 then q.fault else if q.stale then 2 else 1, running := running, entering := entering }, s)

/-- How an execution changes the slot's state: it enters AUTO with `target`, it falls out of AUTO; and y, which passes the notch
unchanged at an entry to AUTO (R243). -/
structure SlotTurn where
  enter : Bool
  target : Int
  fell : Bool
  y : Int

/-- Waiting commands and the loss of plausibility (R245 to R251). -/
def State.slotTurn (s : State) (n : Nat) (q : SlotRead) (a : SlotAim) : SlotTurn × State :=
  let x := s.slot n
  let s := if s.slotSt n == 3 && s.on (.cle .resumePend) n && !q.valid then s.clr (.cle .resumePend) n else s
  let back := s.slotResumes n && q.valid
  let enter := (a.entering && !a.suspect) || back
  let target := if back || s.slotSt n == 1 then x.last else s.rdS (.cle .usafe) n
  let fromOff := s.slotSt n == 0 || back
  let s := if enter then s.setSlot n { s.slot n with notchNew := true } else s
  let p := if enter then s.notchIf (decide (s.lv (.cle .notchPos) n = 1)) n q.y0 else (q.y, s)
  let y := p.1
  let s := p.2
  let s := if enter then
      let usafe := s.rdS (.cle .usafe) n
      let off := s.slotSt n == 0
      let s := (s.clr (.cle .initPend) n).setSlotSt n 2
      s.setSlot n { s.slot n with req := .none, yf := y, ym := if fromOff then y else x.ym, returned := false, suspects := 0,
                                  last := if off then usafe else x.last }
    else s
  let s := if x.req == .manual && (s.boundaryNow x && decide (2 * s.rd (.cle .pn) n ≤ x.good)) then
      let s := (s.clr (.cle .initPend) n).setSlotSt n 1
      s.setSlot n { s.slot n with req := .none, returned := false, suspects := 0 }
    else s
  let s := if a.lost && s.slotSt n == 1 then (s.ev (.cle .pfailEv) n).wr (.cle .fcause) n a.cause else s
  let fell := a.lost && s.slotSt n == 2
  let s := if fell then
      let s := (s.ev (.cle .pfailEv) n).wr (.cle .fcause) n a.cause
      if s.on (.cle .fbEn) n then
        let s := (s.ev (.cle .fbEv) n).setSlotSt n 3
        s.setSlot n { s.slot n with fbSince := s.etime, fbTold := false }
      else
        let s := s.setSlotSt n 4
        s.setSlot n { s.slot n with held := false }
    else s
  ({ enter := enter, target := target, fell := fell, y := y }, s)

/-- What the law gives: the error, the filtered value, the output u; the slot is idle; a PRESET was taken. -/
structure SlotLaw where
  e : Int
  yf : Int
  u : Int
  idle : Bool
  pre : Bool

/-- The law and its output (R242, R246 to R248). A negative URATE leaves the output's ramp open (R242). -/
def State.slotLaw (s : State) (n : Nat) (q : SlotRead) (a : SlotAim) (w : SlotTurn) : SlotLaw × State :=
  let x := s.slot n
  let st := s.slotSt n
  let umin := s.lvS (.cle .umin) n
  let umax := s.lvS (.cle .umax) n
  let e := q30 (a.r - w.y)
  let law := st == 2 && !a.suspect
  let yfNew := q30 (x.yf + mulQ (s.lvS (.cle .df) n) (q30 (w.y - x.yf)))
  let yf := if law then yfNew else x.yf
  let rest := mulG e (s.lvS (.cle .kp) n) + mulG (q30 (x.yf - yfNew)) (s.lvS (.cle .kd) n) + a.ff
  let fbRest := a.ff + mulG (q30 (a.r - x.ym)) (s.lvS (.cle .fbkp) n)
  let byFb := (st == 2 || st == 3) && !law && s.on (.cle .fbEn) n
  let pre := x.preset && law
  let s :=
    if w.enter && law then s.presetI n w.target rest
    else if q.com && byFb then s.presetI n x.last fbRest
    else if q.com && st == 2 then s.presetI n x.last rest
    else if pre then s.presetI n (s.rdS (.cle .preset) n) rest
    else if law then
      let i := s.rdS (.cle .iOut) n
      let v := rest + i
      if (decide (umax < v) && decide (0 < e)) || (decide (v < umin) && decide (e < 0)) then s
      else s.wrS (.cle .iOut) n (clampInt (q48 (i + mulI e (s.lvS (.cle .ki) n))) umin umax)
    else s
  let i := s.rdS (.cle .iOut) n
  let idle := st == 0 || st == 4 || st == 5
  let u0 := if law then q30 (rest + i) else if byFb then q30 (i + fbRest) else if st == 2 || st == 3 then x.last
    else s.rdS (.cle .uman) n
  let p := s.notchIf (decide (s.lv (.cle .notchPos) n = 2) && !idle) n u0
  let s := p.2
  let u1 := q30 (p.1 + if s.rd (.cle .injPoint) n = 1 then a.inj else 0)
  let ur : Int := s.lvS (.cle .urate) n
  let o := s.freshIf (decide (ur < 0)) 32
  let s := o.2
  let u2 := if ur = 0 then u1 else if ur < 0 then toSigned 32 o.1 else x.last + clampInt (u1 - x.last) (-ur) ur
  let u := if idle then (if x.held then x.last else s.rdS (.cle .usafe) n)
    else if q.com then x.last else clampInt u2 umin umax
  ({ e := e, yf := yf, u := u, idle := idle, pre := pre }, s)

/-- The model's next output (R248). -/
def State.slotModel (s : State) (n : Nat) (q : SlotRead) (a : SlotAim) (y u : Int) : Int :=
  let x := s.slot n
  let ym := q30 (x.ym + mulQ (s.lvS (.cle .ma) n) (q30 (mulG u (s.lvS (.cle .mk) n) + s.lvS (.cle .mb) n - x.ym)))
  if s.slotSt n ≠ 3 ∧ !a.suspect ∧ q.valid then q30 (ym + mulQ (s.lvS (.cle .ml) n) (q30 (y - ym))) else ym

/-- Saturation, the model, the registers and the output of one execution (R242, R248, R252, R255). -/
def State.slotFinish (s : State) (n : Nat) (q : SlotRead) (a : SlotAim) (w : SlotTurn) (l : SlotLaw) : State :=
  let st := s.slotSt n
  let ym := s.slotModel n q a w.y l.u
  let atLim := l.u == s.lvS (.cle .umin) n || l.u == s.lvS (.cle .umax) n
  let run := if atLim then (s.slot n).satRun + 1 else 0
  let satNow := s.rd (.cle .satN) n != 0 && run == s.rd (.cle .satN) n
  let s := if satNow then s.ev (.cle .satEv) n else s
  let s := s.wrB (.cle .sat) n atLim
  let x := s.slot n
  let s := s.setSlot n { x with
    yf := l.yf, ym := ym, last := l.u, satRun := run, commit := false, preset := x.preset && !l.pre && st == 2, bound := false
    runs := x.runs + 1, trim := if st == 4 then x.trim else l.u }
  let s := ((((s.wrS (.cle .yOut) n w.y).wrS (.cle .rOut) n a.r).wrS (.cle .eOut) n l.e).wrS (.cle .uOut) n l.u)
  let s := (s.wrS (.cle .ymOut) n ym).wrS (.cle .residOut) n a.resid
  let s := if w.fell && s.on (.cle .fbEn) n && s.on (.cle .fbMode) n then s.post 4 n (fallbackData a.cause w.y ym a.r l.u) else s
  let s := if s.slotSt n == 3 then s.wr (.cle .fbtime) n (min 4294967295 ((s.etime - x.fbSince) / 1000000)) else s
  let s := s.pwmDrive n (clampInt l.u 0 one30)
  if s.rd (.cle .tslot) = n then
    s.captureStep (match s.rd (.cle .trigSrc) with
      | 1 => a.running && x.injK == 1
      | 2 => a.lost && (st == 1 || w.fell)
      | 3 => satNow
      | _ => false)
  else s

/-- A slot's own execution; `ain` is its analogue input's conversion code. -/
def slotRun (n ain : Nat) (s : State) : State :=
  let q := s.slotInput n ain
  let a := q.2.slotAim n q.1
  let w := a.2.slotTurn n q.1 a.1
  let l := w.2.slotLaw n q.1 a.1 w.1
  l.2.slotFinish n q.1 a.1 w.1 l.1

/-- SLOT_EXECUTION (R232, R242). -/
def slotExecution (n ain : Nat) (s : State) : State :=
  if s.up .ctl && s.on (.cle .slotEn) n && s.slotSt n != 5 && !s.unitOut (.slot n) then slotRun n ain s else s

def execSlotExecution (n ain : Nat) (s : State) : Res :=
  guardWF (decide (n < 128) && decide (ain < 16384)) (slotExecution n ain s)

/-- FALLBACK_TIMEOUT (R245): once per entry. -/
def fallbackTimeout (n : Nat) (s : State) : State :=
  let x := s.slot n
  if s.up .ctl && s.slotSt n == 3 && !x.fbTold then (s.ev (.cle .fbtoEv) n).setSlot n { x with fbTold := true } else s

def execFallbackTimeout (n : Nat) (s : State) : Res := guardWF (decide (n < 128)) (fallbackTimeout n s)

/-! ### Commands (R245 to R254) -/

/-- Refuse a slot command. -/
def State.slotRefuse (s : State) (n cause : Nat) : State := (s.ev (.cle .cmdErr) n).wr (.cle .cmdCause) n cause

/-- The checks every slot command passes: SLOT_EN (R232), then the image state. -/
def State.slotCommand (s : State) (n : Nat) (f : State → State) : State :=
  if !s.up .ctl then s
  else if !s.on (.cle .slotEn) n then s.slotRefuse n 2
  else if !s.imageRuns then s.slotRefuse n 5
  else f s

/-- OFF (R245). -/
def slotOff (n : Nat) (s : State) : State := s.slotCommand n fun s =>
  if s.slotSt n ≤ 3 then
    ((s.setSlotSt n 0).clr (.cle .initPend) n).setSlot n
      { s.slot n with req := .none, preset := false, held := false, last := s.rdS (.cle .usafe) n }
  else s.slotRefuse n 1

/-- A command right after a return from isolation waits for a boundary while a page is active (R253). -/
def State.initWaits (s : State) (n : Nat) : Bool := (s.slot n).returned && s.pageActive

/-- MANUAL (R245). -/
def slotManual (n : Nat) (s : State) : State := s.slotCommand n fun s =>
  match s.slotSt n with
  | 0 =>
    if s.initWaits n then (s.ev (.cle .initPend) n).setSlot n { s.slot n with req := .manual, bound := false }
    else (s.setSlotSt n 1).setSlot n { s.slot n with req := .none, returned := false, suspects := 0, last := s.rdS (.cle .usafe) n }
  | 2 => ((s.wrS (.cle .uman) n (s.slot n).last).setSlotSt n 1).setSlot n { s.slot n with preset := false }
  | _ => s.slotRefuse n 1

/-- AUTO (R245): taken at the next execution that is not suspect (R256). -/
def slotAuto (n : Nat) (s : State) : State := s.slotCommand n fun s =>
  if s.slotSt n = 0 ∨ s.slotSt n = 1 then
    let s := if s.slotSt n = 0 ∧ s.initWaits n then s.ev (.cle .initPend) n else s
    s.setSlot n { s.slot n with req := .auto, bound := false }
  else s.slotRefuse n 1

/-- PRESET (R246). -/
def slotPreset (n : Nat) (s : State) : State := s.slotCommand n fun s =>
  if s.slotSt n = 2 then s.setSlot n { s.slot n with preset := true } else s.slotRefuse n 1

/-- COMMIT (R247). -/
def slotCommit (n : Nat) (s : State) : State := s.slotCommand n fun s =>
  if s.slotSt n = 5 then s.slotRefuse n 1
  else if s.rdS (.cle .umax) n < s.rdS (.cle .umin) n then s.slotRefuse n 6
  else s.setSlot n { s.slot n with commit := true }

/-- RESUME (R251). -/
def slotResume (n : Nat) (s : State) : State := s.slotCommand n fun s =>
  if s.slotSt n ≠ 3 then s.slotRefuse n 1
  else if 2 * s.rd (.cle .pn) n ≤ (s.slot n).good ∧
      (s.rdS (.cle .yOut) n - s.rdS (.cle .ymOut) n).natAbs ≤ 4 * s.rd (.cle .plim) n * 32768 then
    (s.ev (.cle .resumePend) n).setSlot n { s.slot n with bound := false }
  else s.slotRefuse n 4

/-- CLEAR (R245). -/
def slotClear (n : Nat) (s : State) : State := s.slotCommand n fun s =>
  if s.slotSt n = 4 ∧ !s.on (.cle .pfailEv) n ∧ !s.on (.cle .fbtoEv) n ∧ !s.on (.cle .satEv) n then
    (s.setSlotSt n 0).setSlot n { s.slot n with held := false }
  else s.slotRefuse n 1

/-- INJ_START (R254). -/
def injStart (n : Nat) (s : State) : State := s.slotCommand n fun s =>
  if s.ldr.st = .armed then s.slotRefuse n 3
  else if s.slotSt n = 2 ∨ (s.slotSt n = 1 ∧ s.rd (.cle .injPoint) n = 1) then
    (s.ev (.cle .injAct) n).setSlot n { s.slot n with injK := 0, lfsr := 32767 }
  else s.slotRefuse n 1

/-- INJ_STOP (R254). -/
def injStop (n : Nat) (s : State) : State := s.slotCommand n fun s => s.clr (.cle .injAct) n

/-- STAY and STOP answer a posted fall-back decision (R250); one that still waits for room in its mailbox is not posted. -/
def slotStay (n : Nat) (s : State) : State := s.slotCommand n fun s =>
  if s.decisionPosted 4 n then s.closeDecision 4 n else s.slotRefuse n 1
def slotStop (n : Nat) (s : State) : State := s.slotCommand n fun s =>
  if s.decisionPosted 4 n then (s.setSlotSt n 4).setSlot n { s.slot n with held := false } else s.slotRefuse n 1

def execSlotOff (n : Nat) (s : State) : Res := guardWF (decide (n < 128)) (s.hostWrite .cle 0 fun s =>
    slotOff n s)
def execSlotManual (n : Nat) (s : State) : Res := guardWF (decide (n < 128)) (s.hostWrite .cle 0 fun s =>
    slotManual n s)
def execSlotAuto (n : Nat) (s : State) : Res := guardWF (decide (n < 128)) (s.hostWrite .cle 0 fun s =>
    slotAuto n s)
def execSlotPreset (n : Nat) (s : State) : Res := guardWF (decide (n < 128)) (s.hostWrite .cle 0 fun s =>
    slotPreset n s)
def execSlotCommit (n : Nat) (s : State) : Res := guardWF (decide (n < 128)) (s.hostWrite .cle 0 fun s =>
    slotCommit n s)
def execSlotResume (n : Nat) (s : State) : Res := guardWF (decide (n < 128)) (s.hostWrite .cle 0 fun s =>
    slotResume n s)
def execSlotClear (n : Nat) (s : State) : Res := guardWF (decide (n < 128)) (s.hostWrite .cle 0 fun s =>
    slotClear n s)
def execInjStart (n : Nat) (s : State) : Res := guardWF (decide (n < 128)) (s.hostWrite .cle 0 fun s =>
    injStart n s)
def execInjStop (n : Nat) (s : State) : Res := guardWF (decide (n < 128)) (s.hostWrite .cle 0 fun s =>
    injStop n s)
def execSlotStay (n : Nat) (s : State) : Res := guardWF (decide (n < 128)) (s.hostWrite .cle 0 fun s =>
    slotStay n s)
def execSlotStop (n : Nat) (s : State) : Res := guardWF (decide (n < 128)) (s.hostWrite .cle 0 fun s =>
    slotStop n s)

/-! ### Reactions and isolation -/

/-- A Carabid reaction puts a running slot in FAULT; a hold reaction keeps u (R245). -/
def State.slotFault (s : State) (n : Nat) (hold : Bool) : State :=
  if 1 ≤ s.slotSt n ∧ s.slotSt n ≤ 3 then
    let s := s.setSlot n { s.slot n with held := hold, req := .none, preset := false }
    s.setSlotSt n 4
  else s

/-- Isolation of a slot (R253, R256): its channels go off, a capture it times stops. -/
def State.slotIsolate (s : State) (n : Nat) : State :=
  let k := s.rd (.cle .outKind) n
  let i := s.rd (.cle .outIndex) n
  let s := s.pwmDrive n 0
  let s := s.setSlot n { s.slot n with held := false, req := .none, preset := false, commit := false }
  let s := (s.clr (.cle .initPend) n).setSlotSt n 5
  let s := if k = 1 then s.hvHardOff i else s
  if s.rd (.cle .tslot) = n ∧ (s.rd (.cle .cstate) = 1 ∨ s.rd (.cle .cstate) = 2) then s.captureDone else s

/-- A slot comes back in OFF (R253). -/
def State.slotReturn (s : State) (n : Nat) : State :=
  (s.setSlotSt n 0).setSlot n { s.slot n with returned := true, good := 0, suspects := 0, last := s.rdS (.cle .usafe) n }

/-- A sheet or frame boundary for all slots (R245, R253). -/
def State.slotBoundary (s : State) : State :=
  (List.range s.hw.slots).foldl (fun t n =>
    if t.on (.cle .resumePend) n || (t.slot n).req != .none then t.setSlot n { t.slot n with bound := true } else t) s

/-! ### Capture commands (R255) -/

/-- The configuration bits of a CLE_CAPCTL write. -/
def State.capConfig (s : State) (v : Word) : State :=
  let b := v.toNat
  let s := s.wr (.cle .tslot) 0 (b / 8)
  let s := s.wr (.cle .trigSrc) 0 (b / 1024)
  s.wr (.cle .pre) 0 (b / 65536)

/-- CAPTURE_ARM. -/
def captureArm (v : Word) (s : State) : State :=
  if !s.up .ctl then s
  else
    let s := s.capConfig v
    if v.toNat % 2 = 1 then
      { ((s.wr (.cle .cstate) 0 1).clr (.cle .capCount)).clr (.cle .trigidx) with capture := {} }
    else s

/-- CAPTURE_FORCE: the next sample is the trigger sample. -/
def captureForce (v : Word) (s : State) : State :=
  if !s.up .ctl then s
  else
    let s := s.capConfig v
    if v.toNat / 2 % 2 = 1 ∧ s.rd (.cle .cstate) = 1 then { s with capture := { s.capture with force := true } } else s

/-- CAPTURE_ABORT. -/
def captureAbort (v : Word) (s : State) : State :=
  if !s.up .ctl then s
  else
    let s := s.capConfig v
    if v.toNat / 4 % 2 = 1 then
      { ((s.wr (.cle .cstate) 0 0).clr (.cle .capCount)).clr (.cle .trigidx) with capture := {} }
    else s

def execCaptureArm (v : Word) (s : State) : Res := guardWF (v.getLsbD 0) (s.hostWrite .cle 0 fun s =>
    captureArm v s)
def execCaptureForce (v : Word) (s : State) : Res := guardWF (v.getLsbD 1 && !v.getLsbD 0) (s.hostWrite .cle 0 fun s =>
    captureForce v s)
def execCaptureAbort (v : Word) (s : State) : Res := guardWF (v.getLsbD 2 && !v.getLsbD 1 && !v.getLsbD 0) (s.hostWrite .cle 0 fun s =>
    captureAbort v s)

end Sys2Proof.Machine
end

