-- ==== Sys2Proof/Machine/Path.lean ====
section
/-! DEFINITION. Sheet and web tracking (R278 to R305): the process position, feed points, sensors, outputs, boundaries and
the web sequence. On a cascade slave (R318, R319) the position and the sheet events come from the master. -/

namespace Sys2Proof.Machine

open Sys2Proof

/-! ### Process position (R281, R282) -/

/-- PTH_MPOS, in 1/256 line. -/
def State.mpos (s : State) : Int := s.rdS (.pth .mpos)

/-- The process axis. -/
def State.procAxis (s : State) : Nat := s.rd (.pth .procAxis)

/-- On a slave, the master's position advanced at its rate to the present engine time (R318). -/
def State.farPosition (s : State) : Option Int :=
  s.csl.position.map fun p => p.1 + (256 * p.2.1 * (s.etime - p.2.2) / 1000000000 : Nat)

/-- Bring PTH_PPOS and PTH_MPOS up to date (R281, R282). -/
def State.trackPosition (s : State) : State :=
  let k := s.procAxis
  let pos := if s.on (.pth .psrc) then s.cmdpos k else s.actpos k
  let s := s.wrS (.pth .ppos) 0 (tdiv (pos * s.rdS (.pth .pnum)) (s.rd (.pth .pden)))
  let new := if s.isSlave then s.farPosition.getD s.mpos else s.rdS (.pth .ppos)
  if s.web && s.rd (.pth .wstate) == 5 then s.wrS (.pth .mpos) 0 new else s.wrS (.pth .mpos) 0 (max s.mpos new)

/-- MOTION_CLOCK (R207, R281, R282). -/
def motionClock (s : State) : State := if s.up .mot then (clockAxes s).trackPosition else s

def execMotionClock (s : State) : Res := guardWF true (motionClock s)

/-- ENCODER_EDGE (R213, R281, R282). -/
def execEncoderEdge (k : Nat) (forward : Bool) (s : State) : Res :=
  guardWF (decide (k < 48)) (if s.axUp k then (encoderCount k forward s).trackPosition else s)

/-- PTH_LRATE: the advance of PTH_MPOS over the last 100 ticks, in lines/s; on a slave the master's rate (R282, R318). -/
def State.trackRate (s : State) : State :=
  let h := s.pth.history
  let adv := s.mpos - h.getD 99 (h.getLastD s.mpos)
  let own := (adv * 1000 / 256).toNat
  let rate := if s.isSlave then (s.csl.position.map fun p => p.2.1).getD 0 else own
  ({ s with pth := { s.pth with history := (s.mpos :: h).take 100 } }).wr (.pth .lrate) 0 (min 524287 rate)

/-- LRATE exceeds the limit of R283. -/
def State.tooFast (s : State) : Bool :=
  decide (s.rd (.pgs .admLinerate) * (1000 + s.rd (.pth .ovs)) < s.rd (.pth .lrate) * 1000)

/-- Count the ticks of an overspeed episode. -/
def State.countFast (s : State) : State :=
  let n := if s.tooFast then (if s.pth.fast < 3 then s.pth.fast + 1 else s.pth.fast) else 0
  { s with pth := { s.pth with fast := n } }

/-- OVERSPEED_DETECT (R283): once per episode. -/
def overspeedDetect (s : State) : State :=
  if s.up .mot && s.pth.fast == 3 then ({ s with pth := { s.pth with fast := 4 } }).ev (.pth .overspeed) else s

def execOverspeedDetect (s : State) : Res := guardWF true (overspeedDetect s)

/-! ### Tracked sheets -/

/-- The track of a context. -/
def State.track (s : State) (c : Nat) : Option Track := s.pth.tracks.find? fun t => t.ctx == c

/-- Change the track of a context. -/
def State.setTrack (s : State) (t : Track) : State :=
  { s with pth := { s.pth with tracks := s.pth.tracks.map fun u => if u.ctx = t.ctx then t else u } }

/-- Forget the track of a context. -/
def State.dropTrack (s : State) (c : Nat) : State :=
  { s with pth := { s.pth with tracks := s.pth.tracks.filter fun t => t.ctx != c } }

/-- Set STAGE of PGS_CTX_PATH (R305). -/
def State.setStage (s : State) (c st : Nat) : State := s.setCtx c { s.ctx c with stage := st }

/-- Sheets tracked: fed and not yet at their output (TRACKS, R305). -/
def State.tracked (s : State) : Nat :=
  (s.pth.tracks.filter fun t => decide (1 ≤ (s.ctx t.ctx).stage) && decide ((s.ctx t.ctx).stage ≤ 4)).length

/-- Path position of the registration sensor (R285). -/
def State.regSpos (s : State) : Nat := s.rd (.pth .spos) (s.rd (.pth .regSensor))

/-- Expected length of a sheet in lines (R284). -/
def State.expected (s : State) (c : Nat) : Nat := s.rd (.pth .top) + (s.ctx c).lines + s.rd (.pth .bottom)

/-- The leading edge's path position in 1/256 line, at a process position (R285). -/
def State.leadAt (s : State) (m0 p : Int) : Int := 256 * (s.regSpos : Int) + p - m0

/-- A sheet's length in lines: measured, or expected before it is measured. -/
def State.lengthOf (s : State) (t : Track) : Nat := t.measured.getD (s.expected t.ctx)

/-- The present trailing edge's path position in 1/256 line, once the sheet is registered. -/
def State.trailOf (s : State) (t : Track) : Option Int :=
  t.origin.map fun m => s.leadAt m s.mpos - 256 * (s.lengthOf t : Int)

/-- The frame of a context on the web. -/
def State.frameOf (s : State) (c : Nat) : Option Frame := s.pth.frames.find? fun f => f.ctx == c

/-- POS of PGS_CTX_PATH (R305): leading edge or a frame's first line, in whole path lines, saturating. -/
def State.pathPos (s : State) (c : Nat) : Nat :=
  let at_ (z : Int) : Nat := min 1048575 (z / 256).toNat
  if s.web then
    match s.frameOf c with
    | some f => if s.pth.w0Set then at_ (s.mpos - s.rdS (.pth .w0) - 256 * f.first) else 0
    | none => 0
  else
    match s.track c with
    | some t => match t.origin with
      | some m => at_ (s.leadAt m s.mpos)
      | none => 0
    | none => 0

/-! ### Feeding (R284, R295) -/

/-- A path axis counts toward the feed conditions: in STANDSTILL or MOVING, homed if required, and back in the traffic after
an isolation (R227, R284, R295). -/
def State.axisServes (s : State) (k : Nat) : Bool :=
  (s.axSt k == 1 || s.axSt k == 2) && (!s.on (.mot .homeReq) k || s.on (.mot .homed) k) && !s.unitOut (.axis k) &&
    (!s.pth.axesOut.contains k || (!s.pageActive && (s.rd (.mot .method) k == 0 || s.on (.mot .homed) k)))

/-- The axes in PTH_AXMASK. -/
def State.pathAxes (s : State) : List Nat :=
  (List.range 48).filter fun k => s.rd (.pth .axmask) (k / 32) / 2 ^ (k % 32) % 2 == 1

/-- The conditions of R284 that feeds and frame requests share; on a master also those of R317 and R321. -/
def State.pathReady (s : State) : Bool :=
  !s.on (.pth .pathIncomplete) && !s.on (.pth .jam) && !s.on (.pth .misfeed) && !s.on (.pth .webBreak) &&
    (match s.head with
      | some c => (s.ctx c).planeList.all fun k => s.on (.btu .ready) k && s.lready k
      | none => true) &&
    s.pathAxes.all s.axisServes &&
    (!s.isMaster || (s.on (.csl .linkaUp) && s.on (.csl .linkbUp) && !s.on (.csl .partition) &&
      (List.range (s.rd (.csl .nmod))).all fun i => s.on (.csl .peersArmed) (i + 1)))

/-- The feed conditions of R284, step 2. -/
def State.feedReady (s : State) : Bool :=
  s.pathReady && decide (s.tracked < 32) &&
    match s.head with
    | some c => decide (s.expected c + 128 ≤ s.rd (.pth .pitch))
    | none => true

/-- The admitted context that has not been fed, lowest SEQ first. -/
def State.unfed (s : State) : Option Nat :=
  ((s.loam.ctxs.filter fun e => e.2.st == .admitted && (e.2.stage == 0 || e.2.stage == 6)).foldl
    (fun (b : Option (Nat × Ctx)) e =>
      match b with
      | none => some e
      | some h => if seqBefore e.2.seq h.2.seq then some e else b) none).map (·.1)

/-- Length of the FEED pulse in ns (R284). -/
def feedPulse : Nat := 1000000

/-- The FEED pulse ends once engine time has reached its end (R284). -/
def State.feedPulseDue (s : State) : State :=
  match s.pth.feedEnd with
  | some t => if t ≤ s.etime then ({ s with pth := { s.pth with feedEnd := none } }).emit (.pin 0 false) else s
  | none => s

/-- Feed a context: pulse FEED for 1 ms and track the sheet (R284). -/
def State.feed (s : State) (c : Nat) : State :=
  let s := s.setStage c 1
  let s := ({ s with pth := { s.pth with feedEnd := some (s.etime + feedPulse) } }).emit (.pin 0 true)
  let s := match s.track c with
    | some t => s.setTrack { t with fedAt := s.mpos, origin := none }
    | none => { s with pth := { s.pth with tracks := s.pth.tracks ++ [({ ctx := c, fedAt := s.mpos } : Track)] } }
  s.broadcast 6 [(s.ctx c).tag]

/-- An idle reference cycle: engine time passes (R15), gates meet their own zero crossings (R264), the FEED pulse ends (R284). -/
def State.idleCycle (s : State) : State := s.referenceCycle.heatersDue.feedPulseDue

/-- The context's misfeeds are over RETRY: only a REFEED feeds it (R289). -/
def State.exhausted (s : State) (c : Nat) : Bool :=
  (s.ctx c).stage == 6 && match s.track c with
    | some t => decide (s.rd (.pth .retry) < t.misses)
    | none => false

/-- Skip a feed point (R284). -/
def State.skipFeed (s : State) : State := s.count (.pth .skipcnt)

/-- Act at a feed point (R284, R289). -/
def State.feedAct (s : State) : State :=
  match s.unfed with
  | some c =>
    if s.exhausted c then
      if s.pth.refeed then ({ s with pth := { s.pth with refeed := false } }).feed c else s.skipFeed
    else s.feed c
  | none =>
    let ok := s.feedReady
    let s := s.wrB (.pth .feedHold) 0 (!ok)
    if ok then
      let s := s.requestGate
      match s.unfed with
      | some c => s.feed c
      | none => if s.csl.query.isSome then s else s.skipFeed
    else s.skipFeed

/-- A feed point is due: PITCH lines have passed since the last one; the first one after arming starts the grid. -/
def State.feedDue (s : State) : Option Int :=
  match s.pth.feedBase with
  | none => some s.mpos
  | some b =>
    let p : Int := 256 * (s.rd (.pth .pitch) : Int)
    if b + p ≤ s.mpos then some (b + p * ((s.mpos - b) / p)) else none

/-- FEED_POINT (R284). -/
def feedPoint (s : State) : State :=
  if !s.up .mot || s.web || s.isSlave || !(s.ldr.st == .armed || s.ldr.st == .disarming) then s
  else
    match s.feedDue with
    | none => s
    | some b => ({ s with pth := { s.pth with feedBase := some b } }).feedAct

def execFeedPoint (s : State) : Res := guardWF true (feedPoint s)

/-- Refuse a path command (R305). -/
def State.pthRefuse (s : State) : State := s.ev (.pth .cmdErr)

/-- REFEED (R289): allowed while a context waits for it; it is fed at the next feed point. -/
def refeed (s : State) : State :=
  if !s.up .mot then s
  else
    match s.unfed with
    | some c =>
      if !s.web && !s.isSlave && s.exhausted c then { s with pth := { s.pth with refeed := true } } else s.pthRefuse
    | none => s.pthRefuse

def execRefeed (s : State) : Res := guardWF true (s.hostWrite .pth 0 fun s =>
    refeed s)

/-! ### Failed sheets (R289, R290) -/

/-- Add a unit to a path source (R348). -/
def State.pathUnit (s : State) (src i : Nat) : State :=
  if s.pth.units.contains (src, i) then s else { s with pth := { s.pth with units := s.pth.units ++ [(src, i)] } }

/-- A sheet fails a check for the first time (R289): event bit, source and unit, PCAUSE, and the spoil. -/
def State.sheetFail (s : State) (t : Track) (pcause : Nat) (bit_ : PthF) (src i : Nat) : State :=
  if t.failed then s
  else (((s.setTrack { t with failed := true }).ev (.pth bit_)).pathUnit src i).pathSpoil t.ctx pcause

/-- An edge that belongs to no sheet (R288). -/
def State.strayEdge (s : State) (i : Nat) : State := (s.ev (.pth .stray)).pathUnit 38 i

/-! ### Delivery (R292, R298) -/

/-- The context is DELIVERED at an output (R82, R292). -/
def State.deliver (s : State) (c d : Nat) : State :=
  let s := (if (s.ctx c).allDone then s else s.finishAll c).closeDecision 7 c
  let s := s.setCtx c { s.ctx c with output := some d, stage := 5 }
  (s.toState c .delivered).settleGate

/-- EXPOSED or SPOILED: a context that can be delivered (R82). -/
def State.deliverable (s : State) (c : Nat) : Bool := (s.ctx c).st == CtxState.exposed || (s.ctx c).st == CtxState.spoiled

/-- The sheet has reached its output: its trailing edge has passed the exit sensor, or OUT_POS where there is none. -/
def State.arrived (s : State) (t : Track) : Bool :=
  let d := t.output.getD 0
  if s.on (.pth .exitEn) d then t.trails.contains (s.rd (.pth .exitSensor) d)
  else match s.trailOf t with
    | some z => decide (256 * (s.rd (.pth .outPos) d : Int) ≤ z)
    | none => false

/-- The last line of a frame has passed OUT_POS of output 0 (R298). -/
def State.frameArrived (s : State) (f : Frame) : Bool :=
  s.pth.w0Set && decide (s.rdS (.pth .w0) +
    256 * (f.first + (s.ctx f.ctx).lines - 1 + s.rd (.pth .outPos) 0) ≤ s.mpos)

/-- SHEET_DELIVERED (R292, R95). -/
def sheetDelivered (c : Nat) (s : State) : State :=
  if !s.up .mot || !s.deliverable c then s
  else if s.web then
    match s.frameOf c with
    | some f =>
      if s.frameArrived f then
        let left := s.pth.frames.filter fun g => g.ctx != c
        let d := if (s.ctx c).st == CtxState.spoiled then s.rd (.pgs .disp) c else 0
        ({ s with pth := { s.pth with frames := left } }).deliver c d
      else s
    | none => s
  else
    match s.track c with
    | some t => if s.arrived t then (s.dropTrack c).deliver c (t.output.getD 0) else s
    | none => s

def execSheetDelivered (c : Nat) (s : State) : Res := guardWF (decide (c < 256)) (sheetDelivered c s)

/-! ### Sensors (R285, R288) -/

def State.sensor (s : State) (i : Nat) : Sensor := Store.get {} i s.pth.sensors
def State.setSensor (s : State) (i : Nat) (x : Sensor) : State :=
  { s with pth := { s.pth with sensors := Store.set id {} i x s.pth.sensors } }

/-- SENSOR_RAW_EDGE (R285, R220): away from the qualified level a candidate is captured; back to it, discarded. -/
def sensorRawEdge (i : Nat) (present : Bool) (s : State) : State :=
  if !s.up .mot || s.rd (.pth .role) i == 0 then s
  else
    let x := s.sensor i
    if present != x.active then s.setSensor i { x with cand := some (present, s.mpos) }
    else s.setSensor i { x with cand := none }

def execSensorRawEdge (i : Nat) (present : Bool) (s : State) : Res := guardWF (decide (i < 32)) (sensorRawEdge i present s)

/-- Compare a sheet's leading edges at a sensor and its skew partner (R288). -/
def State.checkSkew (s : State) (c i : Nat) : State :=
  match s.track c with
  | some t =>
    match t.leads.find? (fun e => e.1 == i), t.leads.find? (fun e => e.1 == s.rd (.pth .pair) i) with
    | some a, some b =>
      if s.on (.pth .pairEn) i && s.rd (.pth .skewLim) != 0 && decide (256 * s.rd (.pth .skewLim) < (a.2 - b.2).natAbs) then
        s.sheetFail t 4 .skewEv 36 i
      else s
    | _, _ => s
  | none => s

/-- Record a leading edge of a sheet at a sensor, and run the skew checks it completes. -/
def State.noteLead (s : State) (t : Track) (i : Nat) (p : Int) : State :=
  let s := s.setTrack { t with leads := t.leads ++ [(i, p)] }
  (List.range 32).foldl (fun u j => if j == i || u.rd (.pth .pair) j == i then u.checkSkew t.ctx j else u) s

/-- The distance from the feed to the leading edge lies in FEED_LEAD ± FEED_WIN (R285). -/
def State.inFeedWindow (s : State) (t : Track) (p : Int) : Bool :=
  decide ((p - t.fedAt - 256 * (s.rd (.pth .feedLead) : Int)).natAbs ≤ 256 * s.rd (.pth .feedWin))

/-- A qualified edge of the registration sensor, captured at `p` (R285). -/
def State.registration (s : State) (i : Nat) (present : Bool) (p : Int) : State :=
  if present then
    match s.pth.tracks.find? fun t => (s.ctx t.ctx).stage == 1 && t.origin.isNone && s.inFeedWindow t p with
    | some t => (((s.noteLead { t with origin := some p } i p).setStage t.ctx 2)).broadcast 7 [p]
    | none => s.strayEdge i
  else
    match s.pth.tracks.find? fun t => t.measured.isNone && (match t.origin with
        | some m => decide (m ≤ p)
        | none => false) with
    | some t =>
      let len := p - t.origin.getD p
      let t := { t with measured := some (len / 256).toNat }
      let s := s.setTrack t
      if 256 * s.rd (.pth .lenTol) < (len - 256 * (s.expected t.ctx : Int)).natAbs then s.sheetFail t 5 .lenEv 37 i else s
    | none => s.strayEdge i

/-- The sheet's route passes the sensor: output 0 until its diverter decision (R288). -/
def State.onRoute (s : State) (t : Track) (i : Nat) : Bool := s.rd (.pth .routes) i / 2 ^ t.output.getD 0 % 2 == 1

/-- Distance of a sheet's leading edge past a sensor, in 1/256 line, at process position `p`. -/
def State.past (s : State) (t : Track) (i : Nat) (p : Int) : Option Int :=
  t.origin.map fun m => s.leadAt m p - 256 * (s.rd (.pth .spos) i : Int)

/-- A registered sheet on the sensor's route whose leading edge has not been seen there. -/
def State.awaitsLead (s : State) (t : Track) (i : Nat) : Bool :=
  t.origin.isSome && s.onRoute t i && !(t.leads.any fun e => e.1 == i)

/-- A qualified leading edge at a window or exit sensor (R288): of the sheet whose window is open, else early for the next
sheet, else late for the one that has passed, else stray. -/
def State.windowLead (s : State) (i : Nat) (p : Int) : State :=
  let w : Int := 256 * (s.rd (.pth .leWin) i : Int)
  let waiting := s.pth.tracks.filter fun t => s.awaitsLead t i
  let off (t : Track) : Int := (s.past t i p).getD 0
  match waiting.find? fun t => decide ((off t).natAbs ≤ w.toNat) with
  | some t => s.noteLead t i p
  | none =>
    match waiting.find? fun t => decide (off t < -w) with
    | some t =>
      let s := s.noteLead t i p
      match s.track t.ctx with
      | some t => s.sheetFail t 6 .jam 34 i
      | none => s
    | none =>
      match waiting with
      | t :: _ =>
        let s := s.noteLead t i p
        match s.track t.ctx with
        | some t => s.sheetFail t 2 .jam 34 i
        | none => s
      | [] => s.strayEdge i

/-- A qualified trailing edge at a window or exit sensor; at its output's exit sensor the sheet has arrived (R288, R292). -/
def State.windowTrail (s : State) (i : Nat) : State :=
  match s.pth.tracks.find? fun t => s.onRoute t i && (t.leads.any fun e => e.1 == i) && !t.trails.contains i with
  | some t => sheetDelivered t.ctx (s.setTrack { t with trails := i :: t.trails })
  | none => s.strayEdge i

/-- WEB_BREAK (R302): a presence sensor inactive for SQUAL ticks. -/
def webBreak (i : Nat) (s : State) : State :=
  if s.up .mot && s.web && s.rd (.pth .role) i == 4 then
    let s := (((s.setSensor i { active := false, cand := none }).clr (.pth .sLevel) i).ev (.pth .webBreak)).pathUnit 40 i
    let cs := (s.loam.ctxs.filter fun e => e.2.st == .imaging || e.2.st == .exposed).map (·.1)
    cs.foldl (fun t c => t.pathSpoil c 7) s
  else s

def execWebBreak (i : Nat) (s : State) : Res := guardWF (decide (i < 32)) (webBreak i s)

/-- SENSOR_QUALIFIED (R285, R288, R302): the candidate's level has held for SQUAL ticks. -/
def sensorQualified (i : Nat) (s : State) : State :=
  if !s.up .mot then s
  else
    match (s.sensor i).cand with
    | none => s
    | some (present, p) =>
      let s := s.setSensor i { active := present, cand := none }
      let s := (s.wrB (.pth .sLevel) i present).count (.pth .sEdges) i
      if s.web then (if present then s else webBreak i s)
      else if s.isSlave then s
      else
        match s.rd (.pth .role) i with
        | 1 => if s.rd (.pth .regSensor) == i then s.registration i present p else s
        | 2 => if present then s.windowLead i p else s.windowTrail i
        | 3 => if present then s.windowLead i p else s.windowTrail i
        | _ => s

def execSensorQualified (i : Nat) (s : State) : Res := guardWF (decide (i < 32)) (sensorQualified i s)

/-- SENSOR_WINDOW_EXPIRY (R288): no edge by the end of the sensor's window. -/
def sensorWindowExpiry (i c : Nat) (e : SheetEdge) (s : State) : State :=
  if !s.up .mot || s.web || !(s.rd (.pth .role) i == 2 || s.rd (.pth .role) i == 3) then s
  else
    match s.track c with
    | none => s
    | some t =>
      match s.past t i s.mpos with
      | none => s
      | some x =>
        if !s.onRoute t i then s
        else
          match e with
          | .leading =>
            if s.awaitsLead t i && decide (256 * (s.rd (.pth .leWin) i : Int) ≤ x) then s.sheetFail t 2 .jam 34 i else s
          | .trailing =>
            if !t.trails.contains i && decide (256 * ((s.lengthOf t : Int) + s.rd (.pth .teWin) i) ≤ x) then
              s.sheetFail t 3 .jam 34 i
            else s

def execSensorWindowExpiry (i c : Nat) (e : SheetEdge) (s : State) : Res :=
  guardWF (decide (i < 32) && decide (c < 256)) (sensorWindowExpiry i c e s)

/-- The registration sensor holds a leading edge inside a sheet's feed window that is not qualified yet. -/
def State.edgePending (s : State) (t : Track) : Bool :=
  match (s.sensor (s.rd (.pth .regSensor))).cand with
  | some (true, p) => s.inFeedWindow t p
  | _ => false

/-- A fed sheet has not registered inside its window (R289). -/
def State.misfeed (s : State) (t : Track) : State :=
  let s := s.setCtx t.ctx { s.ctx t.ctx with stage := 6, pcause := 1 }
  let s := s.setTrack { t with misses := t.misses + 1 }
  if s.rd (.pth .retry) < t.misses + 1 then s.ev (.pth .misfeed) else s

/-- FEED_WINDOW_EXPIRY (R289). -/
def feedWindowExpiry (s : State) : State :=
  if !s.up .mot || s.web || s.isSlave then s
  else
    (s.pth.tracks.filter fun t => (s.ctx t.ctx).stage == 1 && t.origin.isNone && !s.edgePending t &&
      decide (t.fedAt + 256 * ((s.rd (.pth .feedLead) : Int) + s.rd (.pth .feedWin)) < s.mpos)).foldl State.misfeed s

def execFeedWindowExpiry (s : State) : Res := guardWF true (feedWindowExpiry s)

/-! ### Time of line 0 at a station (R286, R301) -/

/-- PTH_MPOS at which the line that a placement takes as line 0 reaches station `k`: line 0 of a sheet, the first line of the
first frame, or the line behind the last one fully exposed. -/
def State.arrival (s : State) (c k base : Nat) : Option Int :=
  let p : Int := s.rd (.pth .stnpos) k
  if s.web then
    match s.frameOf c with
    | some f =>
      if s.pth.w0Set && s.rd (.pth .wstate) == 1 then some (s.rdS (.pth .w0) + 256 * (f.first + base + p)) else none
    | none => none
  else
    match s.track c with
    | some t => t.origin.map fun m => m + 256 * (p - s.regSpos + s.rd (.pth .top))
    | none => none

/-- Only the first context of a web station waits for t0; the ones behind it follow (R143, R296). -/
def State.awaitsT0 (s : State) (c k : Nat) : Option Imaging :=
  let q := (s.stn k).queue
  if s.web then
    match q with
    | im :: _ => if im.ctx = c && im.j0.isNone && im.t0.isNone && (s.stn k).lastEnd.isNone then some im else none
    | [] => none
  else q.find? fun im => im.ctx == c && im.j0.isNone && im.t0.isNone

/-- T0_ISSUE (R286): give station `k` the engine time at which line 0 of the context reaches it. -/
def t0Issue (c k : Nat) (s : State) : State :=
  if !s.up .mot || !s.vidUp k then s
  else
    match s.awaitsT0 c k with
    | none => s
    | some im =>
      match s.arrival c k im.base with
      | none => s
      | some m =>
        let d := m - s.mpos
        let r := s.rd (.pth .lrate)
        if d ≤ 256 * (s.rd (.pth .t0Lead) : Int) ∧ r ≠ 0 then
          let t0 := ((s.etime : Int) + d * 1000000000 / (256 * r : Nat)).toNat
          let x := s.stn k
          let s := s.setStn k { x with queue := x.queue.map fun y => if y.ctx = c then { y with t0 := some t0 } else y }
          match s.track c with
          | some t => s.setTrack { t with t0s := k :: t.t0s }
          | none => s
        else s

def execT0Issue (c k : Nat) (s : State) : Res := guardWF (decide (c < 256) && decide (k < 8)) (t0Issue c k s)

/-! ### Commit and outputs (R287, R291, R293) -/

/-- The leading edge has reached a path position, in lines. -/
def State.leadReached (s : State) (t : Track) (line : Int) : Bool :=
  match t.origin with
  | some m => decide (256 * line ≤ s.leadAt m s.mpos)
  | none => false

/-- SHEET_COMMIT (R287). -/
def sheetCommit (c : Nat) (s : State) : State :=
  if !s.up .mot || s.web || s.isSlave then s
  else
    match s.track c with
    | some t =>
      if (s.ctx c).stage = 2 ∧ s.leadReached t (s.rd (.pth .regGate)) then (s.setStage c 3).broadcast 8 [] else s
    | none => s

def execSheetCommit (c : Nat) (s : State) : Res := guardWF (decide (c < 256)) (sheetCommit c s)

/-- DIV_POS − DIV_LEAD of the first diverter on the path: the lowest DIV_POS of outputs 1 and 2 that is set. -/
def State.firstDiverter (s : State) : Option Int :=
  let one (d : Nat) : Option (Nat × Nat) :=
    if s.rd (.pth .divPos) (d - 1) = 0 then none else some (s.rd (.pth .divPos) (d - 1), s.rd (.pth .divLead) (d - 1))
  match one 1, one 2 with
  | none, none => none
  | some a, none => some ((a.1 : Int) - a.2)
  | none, some b => some ((b.1 : Int) - b.2)
  | some a, some b => if b.1 < a.1 then some ((b.1 : Int) - b.2) else some ((a.1 : Int) - a.2)

/-- Fix a sheet's output and raise its diverter (R291). -/
def State.fixOutput (s : State) (t : Track) (d : Nat) : State :=
  let s := s.setTrack { t with output := some d, diverter := d == 1 || d == 2 }
  let s := s.setStage t.ctx 4
  if d = 1 ∨ d = 2 then s.emit (.pin d true) else s

/-- DIVERTER_DECISION (R291): a sheet that is SPOILED goes to DISP, every other to output 0. -/
def diverterDecision (c : Nat) (s : State) : State :=
  if !s.up .mot || s.web || s.isSlave then s
  else
    match s.track c, s.firstDiverter with
    | some t, some line =>
      if t.output.isNone ∧ 2 ≤ (s.ctx c).stage ∧ (s.ctx c).stage ≤ 3 ∧ s.leadReached t line then
        let d := if (s.ctx c).st == .spoiled then s.rd (.pgs .disp) c else 0
        (s.fixOutput t d).broadcast 10 [(d : Int)]
      else s
    | _, _ => s

def execDiverterDecision (c : Nat) (s : State) : Res := guardWF (decide (c < 256)) (diverterDecision c s)

/-- Another sheet than `c` holds diverter `d` up (R291). -/
def State.diverterHeld (s : State) (c d : Nat) : Bool :=
  s.pth.tracks.any fun t => t.ctx != c && t.diverter && t.output == some d

/-- DIVERTER_RELEASE (R291): the diverter stays high while a sheet behind needs it. -/
def diverterRelease (c : Nat) (s : State) : State :=
  if !s.up .mot then s
  else
    match s.track c with
    | some t =>
      match t.output, s.trailOf t with
      | some d, some z =>
        if t.diverter ∧ 256 * (s.rd (.pth .divPos) (d - 1) : Int) ≤ z then
          let s := s.setTrack { t with diverter := false }
          if s.diverterHeld c d then s else s.emit (.pin d false)
        else s
      | _, _ => s
    | none => s

def execDiverterRelease (c : Nat) (s : State) : Res := guardWF (decide (c < 256)) (diverterRelease c s)

/-- The context is a sheet that was posted for its disposition: it is SPOILED, or DELIVERED after it was (R293). -/
def State.dispAsked (s : State) (c : Nat) : Bool :=
  let x := s.ctx c
  s.on (.pth .dispMode) && !s.web && (x.st == .spoiled || (x.st == .delivered && x.cause != 0))

/-- Take a disposition from the host (R293): ignored, with DISP_LATE, once the output is fixed. -/
def State.takeDisp (s : State) (c d : Nat) : State :=
  if s.dispAsked c && decide (4 ≤ (s.ctx c).stage) && decide ((s.ctx c).stage ≤ 5) then (s.ev (.pth .dispLate)).closeDecision 7 c
  else if s.decisionOpen 7 c && decide (d ≤ 2) then (s.wr (.pgs .disp) c d).closeDecision 7 c
  else s

/-- DISP_ANSWER (R293): a write of PTH_DISPANS. -/
def execDispAnswer (v : Word) (s : State) : Res :=
  guardWF true (s.hostWrite .pth 0 fun s =>
    if s.up .mot then s.takeDisp (v.toNat % 256) (v.toNat / 256 % 4) else s)

/-! ### Boundaries (R91, R294, R295, R359) -/

/-- A unit that waited for the boundary is in service again (R359). -/
def State.unitService (s : State) (u : UnitId) : State :=
  let f := s.flt
  let s := { s with flt := { f with isolated := f.isolated.erase u, retpend := f.retpend.erase u } }
  match u with
  | .engine n =>
    let s := if s.rd (.cmp .jState) n = 7 then s.wr (.cmp .jState) n 0 else s
    { s with cmp := { s.cmp with rejoin := s.cmp.rejoin.erase n } }
  | .axis _ => s
  | .slot n => s.slotReturn n
  | .station k => s.settleReady k

/-- Path axes that are homed again, or need no homing, rejoin the traffic (R227, R295). -/
def State.axesRejoin (s : State) : State :=
  let out := s.pth.axesOut.filter fun k => s.unitOut (.axis k) || !(s.rd (.mot .method) k == 0 || s.on (.mot .homed) k)
  { s with pth := { s.pth with axesOut := out } }

/-- A sheet or frame boundary (R294) and everything in the module that waits for one. -/
def State.boundary (s : State) : State :=
  let s := (s.ev (.pth .boundaryEv)).slotBoundary
  let s := s.flt.retpend.foldl State.unitService s
  (if s.up .cmp then { s with cmp := { s.cmp with rejoin := [] } } else s).axesRejoin

/-- SHEET_BOUNDARY (R294): a sheet's trailing edge, or a frame's first line, passes PTH_BOUNDARY. -/
def sheetBoundary (c : Nat) (s : State) : State :=
  let b : Int := s.rd (.pth .boundary)
  if !s.up .mot || s.isSlave then s
  else if s.web then
    match s.frameOf c with
    | some f =>
      if !f.bounded && s.pth.w0Set && decide (s.rdS (.pth .w0) + 256 * (f.first + b) ≤ s.mpos) then
        let fs := s.pth.frames.map fun (g : Frame) => if g.ctx = c then { g with bounded := true } else g
        (({ s with pth := { s.pth with frames := fs } }).boundary).broadcast 9 []
      else s
    | none => s
  else
    match s.track c with
    | some t =>
      match s.trailOf t with
      | some z => if !t.bounded && decide (256 * b ≤ z) then ((s.setTrack { t with bounded := true }).boundary).broadcast 9 [] else s
      | none => s
    | none => s

def execSheetBoundary (c : Nat) (s : State) : Res := guardWF (decide (c < 256)) (sheetBoundary c s)

/-! ### The web sequence (R296 to R302) -/

/-- STNPOS_min: the lowest position of a configured station (R296). -/
def State.stnposMin (s : State) : Int :=
  let l := ((List.range 8).filter s.stationConfigured).map fun k => (s.rd (.pth .stnpos) k : Int)
  l.foldl min (l.headD 0)

/-- The direction of the process axis in which PTH_PPOS rises: 1 or -1. -/
def State.forwardDir (s : State) : Int :=
  let k := s.procAxis
  sgn (s.rdS (.pth .pnum)) * (if s.on (.pth .psrc) || !s.on (.mot .encEn) k then 1 else sgn (s.rdS (.mot .num) k))

/-- The first frame of a web start: the oldest one that is ADMITTED. -/
def State.firstFrame (s : State) : Option Frame := s.pth.frames.find? fun f => (s.ctx f.ctx).st == CtxState.admitted

/-- The web runs with W0: web lines count from the first line of the first frame (R296). -/
def State.webRuns (s : State) (w : Int) : State :=
  let from_ : Int := match s.firstFrame with
    | some f => f.first
    | none => s.pth.nextLine
  let s := ((s.wrS (.pth .w0) 0 w).wr (.pth .wstate) 0 1).wr (.pth .stopCause) 0 0
  let p := s.pth
  let fs := p.frames.map fun (g : Frame) => { g with first := g.first - from_ }
  { s with pth := { p with w0Set := true, toIdle := false, nextLine := p.nextLine - from_, frames := fs } }

/-- WEB_RUN_START (R296, R298): the first frame is admitted and the process axis moves forward with a = 0. -/
def webRunStart (s : State) : State :=
  let x := s.axis s.procAxis
  if s.up .mot && s.web && !s.isSlave && s.rd (.pth .wstate) == 0 && s.firstFrame.isSome &&
      decide (0 < x.v * s.forwardDir) && x.a == 0 then
    let w := s.mpos + 256 * ((s.rd (.pth .dlLead) : Int) - s.stnposMin)
    (s.webRuns w).broadcast 12 [w]
  else s

def execWebRunStart (s : State) : Res := guardWF true (webRunStart s)

/-- FRAME_DEADLINE (R297): the next frame is late; outside RUN that is recorded (R303). While disarming, no further frame is due. -/
def frameDeadline (s : State) : State :=
  if s.up .mot && s.web && !s.isSlave && s.rd (.pth .wstate) != 0 && s.pth.w0Set && s.ldr.st != .disarming &&
      decide (s.rdS (.pth .w0) + 256 * (s.pth.nextLine + s.stnposMin - s.rd (.pth .dlLead)) ≤ s.mpos) then
    (s.ev (.pth .deadline)).webStop 2
  else s

def execFrameDeadline (s : State) : Res := guardWF true (frameDeadline s)

/-- WEB_STOP (R297): a trigger in RUN, recorded later in the sequence, refused in IDLE. -/
def webStopCmd (s : State) : State :=
  if !s.up .mot then s
  else if s.web && !s.isSlave && s.rd (.pth .wstate) != 0 then s.webStop 3 else s.pthRefuse

def execWebStop (s : State) : Res := guardWF true (s.hostWrite .pth 0 fun s =>
    webStopCmd s)

/-- G_k + 1: the web line behind the last one that station `k` exposed fully (R299). -/
def State.resumeLine (s : State) (k : Nat) : Option Nat :=
  match (s.stn k).queue with
  | im :: _ => (s.frameOf im.ctx).map fun f => (f.first + (((s.ctx im.ctx).plane k).next : Int)).toNat
  | [] => none

/-- Show G_k of every busy station (R299). -/
def State.showLast (s : State) : State :=
  (List.range 8).foldl (fun t k =>
    match t.resumeLine k with
    | some g => t.wr (.pth .stnlast) k (g + 2 ^ 32 - 1)
    | none => t) s

/-- The busy stations have ended their drain scans, and on a master those of every slave that can be reached (R299, R320). -/
def State.drainEnded (s : State) : Bool :=
  ((List.range 8).all fun k => !s.busy k || (s.stn k).drain == 2) &&
    (!s.isMaster || (List.range (s.rd (.csl .nmod))).all fun i =>
      s.csl.unreachable.contains (i + 1) || s.csl.drained.any fun e => e.1 == i + 1)

/-- A slave's drain reports (R320). -/
def State.reportDrain (s : State) : State :=
  (List.range 8).foldl (fun t k =>
    match t.resumeLine k with
    | some g => t.upward 17 [t.rd (.csl .pos), k, g + t.rd (.pth .stnpos) k, 1]
    | none => t.upward 17 [t.rd (.csl .pos), k, 0, 0]) s

/-- WEB_DRAIN_DONE (R299, R320). On a slave the master's stop arrives with the first of these: it starts the drain (log 41). -/
def webDrainDone (s : State) : State :=
  if !s.up .mot || !s.web then s
  else if s.isSlave then
    match s.rd (.pth .wstate) with
    | 1 => s.wr (.pth .wstate) 0 2
    | 2 => if s.drainEnded then (s.showLast.reportDrain).wr (.pth .wstate) 0 5 else s
    | _ => s
  else if s.rd (.pth .wstate) = 2 ∧ s.drainEnded then (s.showLast.wr (.pth .wstate) 0 3).axStop s.procAxis .stop
  else s

def execWebDrainDone (s : State) : Res := guardWF true (webDrainDone s)

/-- The process axis is at rest (R298). -/
def State.webAtRest (s : State) : Bool := (s.axis s.procAxis).still && s.axSt s.procAxis == 1

/-- The integer square root, from bit `n` down. -/
def isqrt (n x : Nat) : Nat :=
  (List.range n).foldr (fun i r => if (r + 2 ^ i) * (r + 2 ^ i) ≤ x then r + 2 ^ i else r) 0

/-- Steps from rest to velocity `v` under acceleration `a` and jerk `j`, all in 2^-64 step per clock, rounded up (R208). -/
def rampSteps (v a j : Nat) : Nat :=
  let a := max 1 a
  let j := max 1 j
  let d := if a * a ≤ v * j then (v * v * j + v * a * a + 2 * a * j - 1) / (2 * a * j) else isqrt 192 (v * v * v / j) + 1
  (d + 2 ^ 64 - 1) / 2 ^ 64

/-- 1/256 lines that `n` steps of the process axis make, as a fraction (R281). -/
def State.lineRatio (s : State) : Nat × Nat :=
  let k := s.procAxis
  let a := (s.rdS (.pth .pnum)).natAbs
  let b := s.rd (.pth .pden)
  if s.on (.pth .psrc) || !s.on (.mot .encEn) k then (a, max 1 b)
  else (a * (s.rdS (.mot .num) k).natAbs, max 1 (b * s.rd (.mot .den) k))

/-- Division rounded up. -/
def ceilDiv (a b : Nat) : Nat := (a + b - 1) / b

/-- The largest o_k over the busy stations of the module and, on a master, of the ring, in 1/256 line (R300, R320). -/
def State.farthest (s : State) : Int :=
  let w := s.rdS (.pth .w0)
  let own := ((List.range 8).filter s.busy).filterMap fun k =>
    (s.resumeLine k).map fun g => s.mpos - (w + 256 * ((g : Int) + s.rd (.pth .stnpos) k))
  let far := (s.csl.drained.filter fun e => e.2.2.2).map fun e => s.mpos - (w + 256 * (e.2.2.1 : Int))
  let l := own ++ far
  l.foldl max (l.headD 0)

/-- The backup distance D_b in lines, each term rounded up to whole lines (R300). -/
def State.backupDistance (s : State) : Nat :=
  let k := s.procAxis
  let r := s.lineRatio
  let sa := ceilDiv (rampSteps ((s.pth.vsave.natAbs) * 2 ^ 32) (s.axA k).toNat (s.axJ k).toNat * r.1) (256 * r.2)
  ((s.farthest + 255) / 256 + sa + s.rd (.pth .t0Lead) + s.rd (.pth .bkextra)).toNat

/-- Move the web back by D_b (R298, R300). -/
def State.startBackup (s : State) : State :=
  let k := s.procAxis
  let d := s.backupDistance
  let r := s.lineRatio
  let steps := if r.1 = 0 then 0 else ceilDiv (256 * d * r.2) r.1
  (((s.wr (.pth .bkdist) 0 (min (2 ^ 24 - 1) d)).wr (.pth .wstate) 0 5).startMove k (s.cmdpos k - s.forwardDir * steps)).closeDecision 6 0xFFFF

/-- The web sequence ends in IDLE (R298). -/
def State.webIdle (s : State) : State := (s.wr (.pth .wstate) 0 0).webForget

/-- WEB_DECEL_AT_REST (R298). -/
def webDecelAtRest (s : State) : State :=
  if !(s.up .mot && s.web && !s.isSlave && s.rd (.pth .wstate) == 3 && s.webAtRest) then s
  else if s.pth.toIdle || s.rd (.pth .stopCause) == 4 then s.webIdle
  else if s.on (.pth .webMode) then
    let d := s.backupDistance
    let s := (s.wr (.pth .bkdist) 0 (min (2 ^ 24 - 1) d)).wr (.pth .wstate) 0 4
    s.post 6 0xFFFF ([s.rd (.pth .stopCause), 0, 0, 0] ++ leBytes d 4)
  else s.startBackup

def execWebDecelAtRest (s : State) : Res := guardWF true (webDecelAtRest s)

/-- WEB_BACKUP (R298): in DECIDE and STOPPED. -/
def webBackup (s : State) : State :=
  if !s.up .mot then s
  else if s.web && (s.rd (.pth .wstate) == 4 || s.rd (.pth .wstate) == 8) then s.startBackup else s.pthRefuse

def execWebBackup (s : State) : Res := guardWF true (s.hostWrite .pth 0 fun s =>
    webBackup s)

/-- WEB_HOLD (R298): in DECIDE. -/
def webHold (s : State) : State :=
  if !s.up .mot then s
  else if s.web && s.rd (.pth .wstate) == 4 then (s.wr (.pth .wstate) 0 8).closeDecision 6 0xFFFF else s.pthRefuse

def execWebHold (s : State) : Res := guardWF true (s.hostWrite .pth 0 fun s =>
    webHold s)

/-- WEB_BACKUP_AT_REST (R298). -/
def webBackupAtRest (s : State) : State :=
  if s.up .mot && s.web && !s.isSlave && s.rd (.pth .wstate) == 5 && s.webAtRest then s.wr (.pth .wstate) 0 6 else s

def execWebBackupAtRest (s : State) : Res := guardWF true (webBackupAtRest s)

/-- The resume condition of R301. -/
def State.mayResume (s : State) : Bool :=
  !(s.loam.ctxs.any fun e => e.2.st == .stalled) && (!s.loam.request || s.ldr.st == .disarming) && s.pathReady

/-- WEB_RESUME (R298, R301): the process axis jogs at VSAVE. -/
def webResume (s : State) : State :=
  if s.up .mot && s.web && !s.isSlave && s.rd (.pth .wstate) == 6 && s.mayResume then
    let k := s.procAxis
    ((s.wrS (.mot .jogvel) k s.pth.vsave).startVelocity k .jog).wr (.pth .wstate) 0 7
  else s

def execWebResume (s : State) : Res := guardWF true (webResume s)

/-- Every resume line is at least T0_LEAD lines away (R298). -/
def State.resumeFar (s : State) : Bool := decide (s.farthest ≤ -256 * (s.rd (.pth .t0Lead) : Int)) || !(List.range 8).any s.busy

/-- The web enters RUN; a trigger that came in ACCEL and still stands stops it again (R297, R298, log 147). -/
def State.webRunAgain (s : State) : State :=
  let s := s.wr (.pth .wstate) 0 1
  match s.pth.stopNext with
  | some c =>
    let s := { s with pth := { s.pth with stopNext := none } }
    if c = 1 ∧ !(s.loam.ctxs.any fun e => e.2.st == .stalled) then s else s.webStop c
  | none => s

/-- WEB_AT_SPEED (R298): RUN, or BK_SHORT and another drain. A slave follows its master into RUN (log 41). -/
def webAtSpeed (s : State) : State :=
  let x := s.axis s.procAxis
  if !(s.up .mot && s.web) then s
  else if s.isSlave then (if s.rd (.pth .wstate) = 5 then s.wr (.pth .wstate) 0 1 else s)
  else if s.rd (.pth .wstate) = 7 ∧ x.a = 0 ∧ x.v = s.pth.vsave * 2 ^ 32 then
    if s.resumeFar then s.webRunAgain else (s.ev (.pth .bkShort)).wr (.pth .wstate) 0 2
  else s

def execWebAtSpeed (s : State) : Res := guardWF true (webAtSpeed s)

/-- In web mode a standing frame request is made while the conditions hold (R296). -/
def State.webRequest (s : State) : State :=
  if s.web && !s.isSlave && s.ldr.st == .armed then
    let ok := s.pathReady
    let s := s.wrB (.pth .feedHold) 0 (!ok)
    if ok && !s.loam.request then s.requestGate else s
  else s

/-- RUN ends when the engine disarms and the last admitted frame is exposed on every station (R298). -/
def State.webDisarmed (s : State) : State :=
  if s.web && !s.isSlave && s.rd (.pth .wstate) == 1 && s.ldr.st == .disarming && !s.pageActive && !(List.range 8).any s.busy then
    let s := (s.wr (.pth .stopCause) 0 4).wr (.pth .wstate) 0 3
    ({ s with pth := { s.pth with toIdle := true } }).axStop s.procAxis .stop
  else s

/-- PLANNER_TICK (R208, R282, R283, R296, R298). -/
def plannerTick (overrun : Option Nat) (s : State) : State :=
  if s.up .mot then (((tickAxes overrun s).trackRate).countFast).webRequest.webDisarmed else s

end Sys2Proof.Machine
end

