-- ==== Sys2Proof/Machine/Arming.lean ====
section
/-! DEFINITION. The image state as the engine acts on it: arming and disarming (R50, R60 to R63). -/

namespace Sys2Proof.Machine

open Sys2Proof

/-- LDR_STATUS.STATE (R50, R66). -/
def LdrState.code : LdrState → Nat
  | .empty => 0
  | .verifying => 1
  | .applying => 2
  | .loaded => 3
  | .armed => 4
  | .disarming => 5

/-- ENGINE_ARMED is high in ARMED and DISARMING (R21, R50). -/
def State.engineArmed (s : State) : Bool := s.ldr.st == .armed || s.ldr.st == .disarming

/-- Go to an image state. A change of ENGINE_ARMED sends the global message (R426). -/
def State.setLdr (s : State) (st : LdrState) : State :=
  let t : State := { s with ldr := { s.ldr with st := st } }
  if t.engineArmed != s.engineArmed then t.globalIrq .irqArm else t

/-- A disarm request, or a Carabid reaction that disarms (R63); a master passes it to the slaves (R317). -/
def State.disarmNow (s : State) : State :=
  if s.ldr.st = .armed then (s.setLdr .disarming).broadcast 13 [] else s

/-- A context that still counts as an admitted sheet or frame for R63: in web mode a frame is done once it is exposed (R298);
a context that a severity 5 reaction has spoiled is done at once (R349). -/
def State.remains (s : State) (x : Ctx) : Bool :=
  match x.st with
  | .admitted => true
  | .imaging => true
  | .stalled => true
  | .exposed => !s.web
  | .spoiled => !x.excused && (!s.web || !x.allDone)
  | _ => false

/-- No admitted sheet or frame remains (R63). -/
def State.noneRemain (s : State) : Bool := !(s.loam.ctxs.any fun e => s.remains e.2)

/-- DISARMING ends in LOADED (R50). -/
def State.disarmEnd (s : State) : State := if s.ldr.st = .disarming then s.setLdr .loaded else s

end Sys2Proof.Machine
end

