-- ==== Sys2Proof/Machine/Calib.lean ====
section
/-! DEFINITION. Power-up calibration, Mayfly sensors, station recalibration and the results set (R363 to R377). -/

namespace Sys2Proof.Machine

open Sys2Proof

/-! ### Mayfly sensors (R366 to R369) -/

/-- The temperature range of a living sensor in 0.1 °C (R368). -/
def livingRange (t : Int) : Bool := decide (-550 ≤ t) && decide (t ≤ 1500)

/-- Insert into an ascending list. -/
def insertInt (x : Int) : List Int → List Int
  | [] => [x]
  | y :: t => if x ≤ y then x :: y :: t else y :: insertInt x t

/-- Twice the median of a list: of an even count, the two middle values together (log 33). -/
def median2 (l : List Int) : Int :=
  let a := l.foldr insertInt []
  let n := a.length
  if n % 2 = 1 then 2 * a.getD (n / 2) 0 else a.getD (n / 2 - 1) 0 + a.getD (n / 2) 0

/-- A sensor is found dead (R368, R369): TEMP 2,000, DEAD, and RISE_EV at once. -/
def State.sensorDies (s : State) (i : Nat) : State :=
  ((s.wrS (.cal .temp) i 2000).ev (.cal .dead) i).ev (.cal .riseEv) i

/-- The reference reading of a sensor. -/
def State.setRef (s : State) (i : Nat) (t : Int) : State :=
  { s with cal := { s.cal with refs := Store.set id none i (some (t, s.etime)) s.cal.refs } }


/-- The rate of rise between two readings (R369): CAL_MRATE and RISE_EV. -/
def State.rateCheck (s : State) (i : Nat) (t : Int) : State :=
  match Store.get none i s.cal.refs with
  | none => s.setRef i t
  | some (r, t0) =>
    let dt := s.etime - t0
    if dt < 1000000 * s.rd (.cal .rwin) i ∨ dt = 0 then s
    else
      let s := s.wrS (.cal .mrate) i (clampInt (tdiv ((t - r) * 1000000000) dt) (-32768) 32767)
      let lim := s.rd (.cal .riseLim) i
      let s := if lim ≠ 0 ∧ ((lim * dt : Nat) : Int) < (t - r) * 1000000000 then s.ev (.cal .riseEv) i else s
      s.setRef i t

/-! ### Station recalibration (R371 to R373) -/

/-- A recalibration of a station begins (R372). -/
def State.recalBegin (s : State) (k : Nat) : State :=
  let s := (s.clr (.cal .pend) k).ev (.cal .busy) k
  (s.setStn k { s.stn k with recal := true }).settleReady k

/-- The refusals of R373. -/
def State.recalRefused (s : State) (k : Nat) : Bool :=
  s.rd (.cal .puStep) != 0 || !s.stationConfigured k || s.on (.cal .busy) k || s.on (.cal .pend) k

/-- A request for a recalibration (R359, R371, R373): at once, or when the station is no longer busy. -/
def State.recalRequest (s : State) (k : Nat) : State :=
  if s.recalRefused k then s else if s.busy k then s.ev (.cal .pend) k else s.recalBegin k

/-- A station's measurements are taken over (R364, R370, R372): CAL_STNT, NEED, and the words it owns in the results set. -/
def State.stationPass (s : State) (k : Nat) : State :=
  let s := match s.sensorTemp k with
    | some t => s.wrS (.cal .stnt) k t
    | none => s
  let s := s.clr (.cal .need) k
  let c := s.cal
  let kept := c.restored.filter fun e => Config.calStation e.1 != k
  { s with cal := { c with bad := c.bad.filter (· != k), gen := c.gen + 1, restored := kept } }

/-- Record a failed step (R364). -/
def State.calFailure (s : State) (step unit_ : Nat) : State :=
  ((s.wr (.cal .failStep) 0 step).wr (.cal .failUnit) 0 unit_).ev (.cal .calFail)

/-- A station's measurement fails: READY stays 0 until a requested recalibration passes (R364). -/
def State.stationFail (s : State) (k : Nat) : State :=
  let s := s.calFailure 8 k
  { s with cal := { s.cal with bad := k :: s.cal.bad.filter (· != k) } }

/-- The drift check of station `k` (R371). -/
def State.driftCheck (s : State) (k : Nat) : State :=
  match s.sensorTemp k with
  | none => s
  | some t =>
    let lim := s.rd (.cal .driftT)
    if k < s.hw.stations ∧ lim ≠ 0 ∧ lim < (t - s.rdS (.cal .stnt) k).natAbs ∧ !s.on (.cal .need) k then
      let s := s.ev (.cal .need) k
      if s.on (.cal .mode) then s.post 8 k (leBytes (ofSigned 16 t) 2 ++ leBytes (s.rd (.cal .stnt) k) 2) else s.recalRequest k
    else s

/-! ### Power-up calibration (R363, R364) -/

/-- Power-up calibration starts with step 1 (R363). -/
def State.calStart (s : State) : State :=
  let s := (((s.wr (.cal .puStep) 0 1).clr (.cal .puDone)).clr (.cal .puBad))
  { s with cal := { s.cal with station := 0, bad := [], restored := [] } }

/-- Step 1: every sensor is converted; one too far from the median of its group is dead (R368). -/
def State.calSensors (s : State) (temps : List Int) : State :=
  let t (i : Nat) : Int := temps.getD i 2000
  let group (i : Nat) : List Nat := if i < 12 then List.range 12 else [12, 13, 14, 15]
  let med (i : Nat) : Int := median2 (((group i).map t).filter livingRange)
  (List.range 16).foldl (fun u i =>
    let u := (u.count (.cal .conv) i).clr (.cal .dead) i
    if !livingRange (t i) || decide (300 < (2 * t i - med i).natAbs) then u.sensorDies i
    else (u.wrS (.cal .temp) i (t i)).setRef i (t i)) s

/-- A step other than step 8 has failed: PU_BAD (R364). -/
def State.calBad (s : State) (step unit_ : Nat) : State := (s.calFailure step unit_).ev (.cal .puBad)

/-- CAL_STEP_DONE (R363 to R365): the running step, or in step 8 the present station, ends. -/
def calStepDone (ok : Bool) (failUnit : Nat) (temps : List Int) (s : State) : State :=
  if !s.up .ctl then s
  else
    match s.rd (.cal .puStep) with
    | 0 => s
    | 1 =>
      let s := s.calSensors temps
      let s := if (List.range 12).all fun i => s.on (.cal .dead) i then s.calBad 1 0 else s
      s.wr (.cal .puStep) 0 2
    | 8 =>
      let k := s.cal.station
      let s := if s.hw.stations ≤ k then s else if ok then s.stationPass k else s.stationFail k
      let s := if k < s.hw.stations then s.settleReady k else s
      if k < 7 then { s with cal := { s.cal with station := k + 1 } } else s.wr (.cal .puStep) 0 9
    | 9 =>
      let s := if ok then s else s.calBad 9 failUnit
      let s := { s with cal := { s.cal with gen := s.cal.gen + 1 } }
      (s.wr (.cal .puStep) 0 0).ev (.cal .puDone)
    | n =>
      let s := if ok then s else s.calBad n failUnit
      let s := if n = 7 then { s with cal := { s.cal with scejoT := s.sensorTemp 10 } } else s
      s.wr (.cal .puStep) 0 (n + 1)

def execCalStepDone (ok : Bool) (failUnit : Nat) (temps : List Int) (s : State) : Res := guardWF true (calStepDone ok failUnit temps s)

/-! ### Conversions (R367 to R371) -/

/-- MAYFLY_SWEEP (R367). -/
def execMayflySweep (s : State) : Res :=
  guardWF true (if s.up .ctl && s.on (.cal .sweepEn) then (List.range 16).foldl (fun t i => t.ev (.cal .mbusy) i) s else s)

/-- MAYFLY_REQUEST (R367): a CAL_MREQ write. -/
def execMayflyRequest (v : Word) (s : State) : Res :=
  guardWF true (s.hostWrite .cal 0 fun s =>
    if s.up .ctl then
    (List.range 16).foldl (fun t i => if v.toNat / 2 ^ i % 2 = 1 then t.ev (.cal .mbusy) i else t) s
  else s)

/-- MAYFLY_CONVERSION_DONE (R368 to R371): of the lowest pending sensor; `none` is a count outside the living range. -/
def mayflyConversionDone (temp : Option Int) (s : State) : State :=
  if !s.up .ctl then s
  else
    match (List.range 16).find? fun i => s.on (.cal .mbusy) i with
    | none => s
    | some i =>
      let s := (s.clr (.cal .mbusy) i).count (.cal .conv) i
      let s := if s.on (.cal .dead) i then s
        else
          match temp with
          | some t => if livingRange t then (s.wrS (.cal .temp) i t).rateCheck i t else s.sensorDies i
          | none => s.sensorDies i
      if i < 8 then s.driftCheck i else s

def execMayflyConversionDone (temp : Option Int) (s : State) : Res := guardWF true (mayflyConversionDone temp s)

/-! ### Commands -/

/-- Refuse a calibration command. -/
def State.calRefuse (s : State) : State := s.ev (.cal .cmdErr)

/-- OP and STATION of a CAL_CMD write (R376). -/
def calOp (v : Word) : Nat := v.toNat % 4
def calStation (v : Word) : Nat := v.toNat / 16 % 8

/-- RECAL (R373). -/
def execRecal (v : Word) (s : State) : Res :=
  guardWF (calOp v == 1) (s.hostWrite .cal 0 fun s =>
    if !s.up .ctl then s
    else if s.recalRefused (calStation v) then s.calRefuse else s.recalRequest (calStation v))

/-- RECAL_START (R373): a pending recalibration, once the station is not busy. -/
def execRecalStart (k : Nat) (s : State) : Res :=
  guardWF (decide (k < 8)) (if s.up .ctl && s.on (.cal .pend) k && !s.busy k then s.recalBegin k else s)

/-- RECAL_DONE (R364, R372). -/
def recalDone (k : Nat) (ok : Bool) (s : State) : State :=
  if s.up .ctl && s.on (.cal .busy) k then
    let s := s.clr (.cal .busy) k
    let s := s.setStn k { s.stn k with recal := false }
    (if ok then s.stationPass k else s.stationFail k).settleReady k
  else s

def execRecalDone (k : Nat) (ok : Bool) (s : State) : Res := guardWF (decide (k < 8)) (recalDone k ok s)

/-- A recalibration that runs is abandoned; NEED is set (R375). -/
def State.recalAbandon (s : State) (k : Nat) : State :=
  if s.on (.cal .busy) k then
    ((s.clr (.cal .busy) k).ev (.cal .need) k).setStn k { s.stn k with recal := false }
  else s

/-- LDR_FWVER (R35). -/
def State.fwVersion (s : State) : Nat :=
  s.rd (.ldr .fwBuild) + 2 ^ 16 * s.rd (.ldr .fwMinor) + 2 ^ 24 * s.rd (.ldr .fwMajor)

/-- The bytes of 32-bit words. -/
def wordBytes (ws : List Nat) : List Byte := (ws.flatMap fun w => leBytes w 4).map fun b => BitVec.ofNat 8 b

/-- Words 2 to 511 of the results set: measured, or restored (R374). Their layout is not published (log 32). -/
def State.resultBody (s : State) : List Nat :=
  (List.range 510).map fun i =>
    match Store.get none (i + 2) s.cal.restored with
    | some w => w
    | none => Config.calWord s.cal.gen (i + 2) % 2 ^ 32

/-- CAL_RESULT: word 0 the firmware version, word 1 the CRC-32C of the rest (R374). -/
def State.results (s : State) : List Nat :=
  let body := s.resultBody
  s.fwVersion :: crc32c (wordBytes body) :: body

/-- SNAP (R374): copy CAL_RESULT into CAL_SNAPSHOT. -/
def execSnap (v : Word) (s : State) : Res :=
  guardWF (calOp v == 2) (s.hostWrite .cal 0 fun s =>
    if s.up .ctl then
    s.results.zipIdx.foldl (fun t e => t.wr (.cal .snapshot) e.2 e.1) s
  else s)

/-- RESTORE is accepted (R374, R375). -/
def State.restoreOk (s : State) : Bool :=
  let w (i : Nat) := s.rd (.cal .snapshot) i
  s.on (.glb .expert) && (s.imageSt == .empty || s.imageSt == .loaded) &&
    (List.range 8).all (fun k => !s.on (.cal .busy) k && !s.on (.cal .pend) k) &&
    w 0 == s.fwVersion && w 1 == crc32c (wordBytes ((List.range 510).map fun i => w (i + 2)))

/-- The T_cal values that the results set carries are in force (R370, R374): the stations' sensors and that of the Scejo converters. -/
def State.restoreTemps (s : State) : State :=
  let body := s.resultBody
  let t (i : Nat) : Nat := Config.calTemp i body % 2 ^ 16
  let s := (List.range s.hw.stations).foldl (fun u k => u.wr (.cal .stnt) k (t k)) s
  { s with cal := { s.cal with scejoT := some (toSigned 16 (t 10)) } }

/-- RESTORE (R374): words outside their guard band keep the measured value and are counted. -/
def execRestore (v : Word) (s : State) : Res :=
  guardWF (calOp v == 3) (s.hostWrite .cal 0 fun s =>
    if !s.up .ctl then s
    else if !s.restoreOk then s.calRefuse
    else
      let body := s.resultBody
      let keep (i : Nat) : Bool := !Config.calGuard (i + 2) (body.getD i 0) (s.rd (.cal .snapshot) (i + 2))
      let words := (List.range 510).filterMap fun i =>
        if keep i then none else some (i + 2, some (s.rd (.cal .snapshot) (i + 2)))
      let s' := { s with cal := { s.cal with restored := words } }.restoreTemps
      (s'.wr (.cal .restRej) 0 ((List.range 510).filter keep).length).ev (.cal .restored))

end Sys2Proof.Machine
end

