-- ==== Sys2Proof/Machine/Dma.lean ====
section
/-! DEFINITION. DMA channels (chapter "DMA channels"): rings, descriptors, band ingest through the lanes, bursts and
arbitration, peripherals, errors and write-back. Host memory lies outside: descriptor bytes and burst data are operands. -/

namespace Sys2Proof.Machine

open Sys2Proof

/-- The status word of a descriptor that has ended (R327). -/
def statusWord (valid : Nat) (e : Ending) : Nat :=
  valid + 2 ^ 24 * e.cause + 2 ^ 28 * bit e.short + 2 ^ 29 * bit e.discard + 2 ^ 30 * bit e.bad + 2 ^ 31

/-- Parse the 32 bytes of a descriptor (R327, R328). -/
def parseDesc (l : List Byte) : Desc :=
  let ctrl := leAt l 0 4
  { kind := ctrl % 8, swap := bitField ctrl 4 2, irq := bitField ctrl 8 1 == 1, repair := bitField ctrl 9 1 == 1,
    length := leAt l 4 4 % 2 ^ 24, hostAddr := leAt l 8 8, arg0 := leAt l 16 4, arg1 := leAt l 20 4, check := leAt l 24 4 }

/-- Reorder groups of four bytes (R329). -/
def swapBytes : Nat → List Byte → List Byte
  | m, a :: b :: c :: d :: t =>
    (match m with
      | 1 => [b, a, d, c]
      | 2 => [c, d, a, b]
      | 3 => [d, c, b, a]
      | _ => [a, b, c, d]) ++ swapBytes m t
  | _, l => l

/-- The entry index behind `i` in a ring of 2^log entries (R325). -/
def ringNext (log i : Nat) : Nat := (i + 1) % 2 ^ log

/-- The latched LOG of a ring, held within 4 to 16. -/
def clampLog (n : Nat) : Nat := max 4 (min 16 n)

/-- DMA_STATUS.STATE codes (R341). -/
def State.chanState (s : State) (n : Nat) : Nat := s.rd (.dma .state) n

/-- A channel's transfer waits for space no more (R79). -/
def State.unhold (s : State) (n : Nat) : State := { s with loam := { s.loam with held := s.loam.held.filter (· != n) } }

/-! ### Channel commands (R341) -/

/-- The writable fields of DMA_CTL are judged as any register write; done by the caller. START (R341). -/
def dmaStart (n : Nat) (s : State) : State :=
  let st := s.chanState n
  let c := s.chan n
  let base := s.rd (.dma .ring) n / 32 * 32
  let log := clampLog (s.rd (.dma .ringLog) n)
  if s.rd (.dma .kinds) n = 0 then s.ev (.dma .cmdErr) n
  else if st = 0 then
    ((s.setChan n { base := base, log := log }).wr (.dma .head) n 0).wr (.dma .state) n 1
  else if st = 3 then (s.setChan n { c with base := base, log := log }).wr (.dma .state) n 1
  else if st = 4 then s.wr (.dma .state) n 1
  else s.ev (.dma .cmdErr) n

/-- STOP (R341, R342): at a descriptor boundary at once, else when the descriptor ends. -/
def dmaStop (n : Nat) (s : State) : State :=
  if s.chanState n = 1 then
    let c := s.chan n
    if c.begun || c.ended.isSome then s.wr (.dma .state) n 2
    else
      let s := s.cmp.lanes.foldl (fun t e => t.setLane e.1 { e.2 with queue := e.2.queue.filter (· != n) }) s
      (((s.unhold n).setChan n { base := c.base, log := c.log }).wr (.dma .wait) n 0).wr (.dma .state) n 3
  else s.ev (.dma .cmdErr) n

/-- RESET (R341). -/
def dmaReset (n : Nat) (s : State) : State :=
  let st := s.chanState n
  if st = 3 ∨ st = 4 then
    (((s.setChan n {}).wr (.dma .head) n 0).wr (.dma .tail) n 0).wr (.dma .state) n 0
  else s.ev (.dma .cmdErr) n

/-! ### Ending a descriptor -/

/-- Note how the descriptor ends; DESCRIPTOR_COMPLETE writes it back. -/
def State.endDesc (s : State) (n : Nat) (e : Ending) : State :=
  ((s.unhold n).setChan n { s.chan n with ended := some e }).wr (.dma .wait) n 0

/-- A compressor in band mode has no band any more (R134, R138). -/
def State.compressorIdle (s : State) (l : Nat) : State :=
  let s := s.clr (.cmp .bandRecValid) l
  if s.rd (.cmp .emode) l = 0 ∧ (s.rd (.cmp .jState) l = 1 ∨ s.rd (.cmp .jState) l = 2) then s.wr (.cmp .jState) l 0 else s

/-- A channel's band leaves its lane. -/
def State.leaveLane (s : State) (n : Nat) : State :=
  s.cmp.lanes.foldl (fun t e =>
    let t := if e.2.cur = some n then t.compressorIdle e.1 else t
    t.setLane e.1 { queue := e.2.queue.filter (· != n), cur := if e.2.cur = some n then none else e.2.cur }) s

/-- The band a channel was feeding is abandoned: INCOMPLETE, its context BLOCKED; a cancelled one is given back (R82, R84, R338). -/
def State.abandonBand (s : State) (n : Nat) : State :=
  let c := s.chan n
  let s := (s.leaveLane n).unhold n
  match c.recNo with
  | none => s
  | some r =>
    let b := s.band r
    if b.st == .filling then s.bandBad r .incomplete 1
    else if b.st == .incomplete && c.discard then
      let s := s.reclaim [r]
      let x := s.ctx b.ctx
      if x.cancelled && (s.bandsOf b.ctx).isEmpty then s.freeCtx b.ctx else s
    else s

/-- DESCRIPTOR_COMPLETE (R326): write STATUS, advance HEAD, send the message if due; a STOP takes effect (R341). -/
def descriptorComplete (n : Nat) (s : State) : State :=
  if !s.up .host then s
  else
    let c := s.chan n
    match c.ended, c.desc with
    | some e, some d =>
      let head := s.rd (.dma .head) n
      let s := s.emit (.hostWrite (c.base + 32 * head + 0x1C) ((leBytes (statusWord c.moved e) 4).map (BitVec.ofNat 8)))
      let s := s.wr (.dma .head) n (ringNext c.log head)
      let s := if e.bad then ((s.count (.dma .cntBad) n).ev (.dma .badEv) n).wr (.dma .lastCause) n e.cause
        else s.count (.dma .cntDone) n
      let s := if e.short then s.ev (.dma .shortEv) n else s
      let s := if d.irq then s.ev (.dma .descEv) n else s
      let s := s.setChan n { base := c.base, log := c.log }
      let s := if s.chanState n = 2 then s.wr (.dma .state) n 3 else s
      if d.irq || e.bad || e.short then s.msix (s.rd (.dma .vector) n) else s
    | _, _ => s

def execDescriptorComplete (n : Nat) (s : State) : Res := guardWF (decide (n < 32)) (descriptorComplete n s)

/-! ### Fetching and checking (R326, R328, R330) -/

/-- The operands of a band descriptor. -/
def Desc.ctx (d : Desc) : Nat := d.arg0 % 256
def Desc.plane (d : Desc) : Nat := bitField d.arg0 8 3
def Desc.bandNo (d : Desc) : Nat := bitField d.arg0 16 12
def Desc.rawLen (d : Desc) : Nat := d.arg1 % 2 ^ 21
/-- The usable address of a copy. -/
def Desc.loamAddr (d : Desc) : Nat := d.arg0 + 2 ^ 32 * (d.arg1 % 8)
/-- A band kind. -/
def Desc.isBand (d : Desc) : Bool := d.kind == 2 || d.kind == 3
/-- A kind that reads host memory. -/
def Desc.inbound (d : Desc) : Bool := d.kind == 0 || d.isBand

/-- Loam accepts the band (R75); with REPAIR, only for a FAILED band of a STALLED context (R93). -/
def State.bandAccept (s : State) (d : Desc) : Bool :=
  let x := s.ctx d.ctx
  let old := s.findBand d.ctx d.plane d.bandNo
  let geom := x.has d.plane && decide (d.bandNo < x.bandCount) && d.rawLen == x.lineBytes * x.bandLines d.bandNo
  if d.repair then
    x.st == .stalled && geom && (match old with
      | some r => (s.band r).st == .failed
      | none => false)
  else (x.st == .opened || x.st == .closed) && geom && old.isNone

/-- The lane of a channel; `none` when it is bound to none or to one that is not populated (R100, R131). -/
def State.laneOf (s : State) (n : Nat) : Option Nat :=
  let l := s.rd (.cmp .chmap) n
  if l < s.hw.lanes then some l else none

/-- The cause with which a descriptor ends BAD before data moves; `none` if it may run (R328 to R330, R335, R435). -/
def State.descCheck (s : State) (n : Nat) (d : Desc) : Option Nat :=
  if d.kind ≥ 5 ∨ s.rd (.dma .kinds) n / 2 ^ d.kind % 2 = 0 then some 5
  else if d.length = 0 then some 5
  else if d.swap ≠ 0 ∧ (d.hostAddr % 4 ≠ 0 ∨ d.length % 4 ≠ 0) then some 5
  else if d.kind = 2 ∧ d.length ≠ d.rawLen then some 5
  else if d.kind = 4 ∧ 0x11 < d.arg0 % 64 then some 5
  else if d.kind = 4 ∧ d.arg0 % 64 < 16 ∧ d.length % 64 ≠ 0 then some 5
  else if d.kind = 0 ∧ (s.hw.usable < d.loamAddr + d.length ∨ s.touchesBand d.loamAddr d.length) then some 7
  else if d.kind = 1 ∧ s.hw.usable < d.loamAddr + d.length then some 7
  else if d.isBand ∧ ¬ s.bandAccept d then some 1
  else if d.isBand ∧ (s.laneOf n).isNone then some 2
  else none

/-- DESCRIPTOR_FETCH (R326, R330, R339): `none` is a host-side error on the read. -/
def descriptorFetch (n : Nat) (bytes : Option (List Byte)) (s : State) : State :=
  let c := s.chan n
  if !(s.up .host && s.chanState n == 1 && c.desc.isNone && s.rd (.dma .head) n != s.rd (.dma .tail) n % 2 ^ c.log) then s
  else
    match bytes with
    | none => (s.ev (.dma .fetchErr) n).wr (.dma .state) n 4
    | some l =>
      let d := parseDesc l
      let s := s.setChan n { base := c.base, log := c.log, desc := some d }
      match s.descCheck n d with
      | some cause => s.endDesc n { bad := true, cause := cause }
      | none =>
        if d.isBand then
          match s.laneOf n with
          | some l => (s.setLane l { s.lane l with queue := (s.lane l).queue ++ [n] }).wr (.dma .wait) n 1
          | none => s
        else if d.kind = 4 then s.wr (.dma .wait) n 3
        else s

def execDescriptorFetch (n : Nat) (d : Option (List Byte)) (s : State) : Res :=
  guardWF (decide (n < 32) && (match d with
    | some l => l.length == 32
    | none => true)) (descriptorFetch n d s)

/-! ### Lanes (R100, R330) -/

/-- A band on lane `l` goes on: its compressor in band mode and not isolated, CMP and MEM up (R137). -/
def State.laneRuns (s : State) (l : Nat) : Bool :=
  decide (l < s.hw.lanes) && s.up .cmp && s.up .mem && s.rd (.cmp .emode) l == 0 && s.rd (.cmp .jState) l != 7

/-- The verify decompressor of lane `l` is isolated (EX4-L). -/
def State.verifierOut (s : State) (l : Nat) : Bool := s.hw.exL && s.rd (.cmp .jState) (16 + l) == 7

/-- Lane `l` is in service: it runs, and on EX4-L its verify decompressor is not isolated (R100, R137). -/
def State.laneInService (s : State) (l : Nat) : Bool := s.laneRuns l && !s.verifierOut l

/-- The verify decompressor of a lane takes up band record `r` (R135, R138); while it is isolated, the band becomes FAILED, CAUSE 6
(R137). -/
def State.verifyStart (s : State) (l r : Nat) : State :=
  if s.verifierOut l then s.bandBad r .failed 6
  else if s.hw.exL then
    ((s.wr (.cmp .bandRec) (16 + l) r).wr (.cmp .bandRecValid) (16 + l) 1).wr (.cmp .jState) (16 + l) 1
  else s

/-- The lowest free band record (R74). -/
def lowestFree (bs : Store Nat Band) : Nat → Nat → Option Nat
  | 0, _ => none
  | fuel + 1, r => if (Store.get ({} : Band) r bs).st = .free then some r else lowestFree bs fuel (r + 1)

/-- The free band records. -/
def State.freeRecord (s : State) : Option Nat := lowestFree s.loam.bands 131072 0

/-- Hold a transfer for space (R79): WAIT shows 2. -/
def State.holdFor (s : State) (n : Nat) : State :=
  let s := s.wr (.dma .wait) n 2
  if s.loam.held.contains n then s else { s with loam := { s.loam with held := s.loam.held ++ [n] } }

/-- No channel feeds record `r` any more: a band that failed while it was FILLING is replaced (R93). -/
def State.detach (s : State) (r : Nat) : State :=
  { s with dma := { s.dma with chans := s.dma.chans.map fun e => if e.2.recNo = some r then (e.1, { e.2 with recNo := none }) else e } }

/-- LANE_ACCEPT_BAND (R330): the lane takes the first waiting channel, Loam takes the record, the band is FILLING. -/
def laneAcceptBand (l : Nat) (s : State) : State :=
  let ln := s.lane l
  match ln.cur, ln.queue with
  | none, n :: rest =>
    if !(s.laneInService l && s.up .host) then s
    else
      let c := s.chan n
      match c.desc with
      | none => s.setLane l { ln with queue := rest }
      | some d =>
        if !s.bandAccept d then (s.setLane l { ln with queue := rest }).endDesc n { bad := true, cause := 1 }
        else
          match s.freeRecord with
          | none => s.holdFor n
          | some r =>
            let old := s.findBand d.ctx d.plane d.bandNo
            let s := match old with
              | some o => (s.reclaim [o]).detach o
              | none => s
            let s := s.setBand r { st := .filling, ctx := d.ctx, plane := d.plane, band := d.bandNo,
                                   hostcomp := d.kind == 3, repaired := old.isSome, rawLen := d.rawLen,
                                   check := d.check, lane := l }
            let s := s.setLane l { queue := rest, cur := some n }
            let s := (((s.unhold n).wr (.cmp .bandRec) l r).wr (.cmp .bandRecValid) l 1).wr (.cmp .jState) l 1
            (s.setChan n { c with recNo := some r, begun := true }).wr (.dma .wait) n 0
  | _, _ => s

def execLaneAcceptBand (l : Nat) (s : State) : Res := guardWF (decide (l < 8)) (laneAcceptBand l s)

/-! ### Storing a band (R72, R79, R111) -/

/-- A buffer job on an engine keeps its regions out of allocation while it is not IDLE, DONE or ERROR (R132). -/
def State.jobHolds (s : State) (e : Nat) : Bool :=
  s.cmp.jobs.any fun j =>
    let st := s.rd (.cmp .jState) j.1
    s.rd (.cmp .emode) j.1 == 1 && st != 0 && st != 5 && st != 6 &&
      ((decide (63488 * e < j.2.inAddr + j.2.inLen) && decide (j.2.inAddr < 63488 * e + 63488)) ||
       (decide (63488 * e < j.2.outAddr + j.2.outLen) && decide (j.2.outAddr < 63488 * e + 63488)))

/-- The `need` highest free extents below `e` (R72). -/
def pickExtents (busy : Nat → Bool) : Nat → Nat → List Nat
  | 0, _ => []
  | _, 0 => []
  | need + 1, e + 1 => if busy e then pickExtents busy (need + 1) e else e :: pickExtents busy need e

/-- Up to `need` free extents, the highest first (R72): not held by a band, nor inside a region of a held buffer job (R132). -/
def State.allocate (s : State) (need : Nat) : List Nat :=
  let held := s.heldExtents
  pickExtents (fun e => held.contains e || s.jobHolds e) need s.hw.extents

/-- Write bytes into a band's extents from stream byte `o` on. -/
def State.writeStream (s : State) (es : List Nat) (o : Nat) (l : List Byte) : State :=
  es.zipIdx.foldl (fun t x =>
    let lo := max o (63488 * x.2)
    let hi := min (o + l.length) (63488 * x.2 + 63488)
    if lo < hi then t.writeLoam (63488 * x.1 + (lo - 63488 * x.2)) ((l.drop (lo - o)).take (hi - lo)) else t) s

/-- What a lane has made of the bytes of a band that it has received: a host stream passes unchanged (R100), a raw band is compressed
as far as its blocks are complete. -/
def State.bandStream (s : State) (b : Band) (data : List Byte) : List Byte :=
  let x := s.ctx b.ctx
  if b.hostcomp then data else encode x.lineBytes (x.bandLines b.band) b.band data

/-- All data of a band is stored: the checks begin, and the descriptor ends DONE (R76, R77, R111, R331). -/
def State.closeBand (s : State) (n r : Nat) (data : List Byte) (cut : Bool) : State :=
  let b := s.band r
  let s := s.setBand r { b with st := .checking, crcIn := crc32c data, raw := if s.hw.exL && !b.hostcomp then data else [],
                                cut := cut }
  let x := s.ctx b.ctx
  let s := s.setCtx b.ctx { x with peak := max x.peak b.storedLen }
  (((s.leaveLane n).wr (.cmp .jState) b.lane 5).verifyStart b.lane r).endDesc n {}

/-- The lane of channel `n` goes on with its band: what it has produced is written to Loam burst by burst, extents are taken as they
are needed, and while none is free the compressor waits in OUT_FULL and the transfer is held (R72, R76, R79, R111, R130). The
input of a cancelled band is taken in and discarded (R332), as is that of one that has failed under the scrub (log 138). A held band
whose compressor has left band mode goes on with the error response that it would have met (log 138). -/
def State.fillBand (s : State) (n : Nat) : State :=
  let c := s.chan n
  match c.recNo, c.desc with
  | some r, some d =>
    let b := s.band r
    let all := c.moved == d.length
    if c.discard then (if all then (s.endDesc n { discard := true }).abandonBand n else s)
    else if b.st != .filling then (if all then (s.leaveLane n).endDesc n {} else s)
    else if !s.laneRuns b.lane then (s.endDesc n { bad := true, cause := 4 }).abandonBand n
    else
      let full := s.bandStream b c.data
      let stream := full.take 2097151
      let ready := if all then stream else stream.take (stream.length / 64 * 64)
      let es := b.extents ++ s.allocate ((ready.length + 63487) / 63488 - b.extents.length)
      let fits := ready.take (63488 * es.length)
      let s := s.setBand r { b with storedLen := fits.length, extents := es }
      let s := (s.writeStream es b.storedLen (fits.drop b.storedLen)).wr (.cmp .crc) b.lane (crc32c c.data)
      if fits.length < ready.length then (s.holdFor n).wr (.cmp .jState) b.lane 2
      else
        let s := ((s.unhold n).wr (.dma .wait) n 0).wr (.cmp .jState) b.lane 1
        if all then s.closeBand n r c.data (decide (2097151 < full.length)) else s
  | none, some d => if c.begun && c.moved == d.length then (s.leaveLane n).endDesc n {} else s
  | _, none => s

/-- Transfers held for space try again, oldest first (R79). -/
def State.retryHeld (s : State) : State :=
  s.loam.held.foldl (fun t n => if (t.chan n).recNo.isSome then t.fillBand n else t) s

/-- BAND_RECLAIM_DONE (R84): the first record of the queue becomes FREE, and transfers that wait for space try again. -/
def bandReclaimDone (s : State) : State :=
  if !s.up .mem then s
  else
    match s.loam.reclaim with
    | [] => s
    | r :: t => (({ s with loam := { s.loam with reclaim := t } }).setBand r {}).retryHeld

def execBandReclaimDone (s : State) : Res := .next (bandReclaimDone s)

/-! ### CANCEL (R82, R84, R137, R332) -/

/-- The bands of a context that transfers still feed are abandoned: INCOMPLETE, the rest of their input is taken in and discarded. A
transfer that was held runs on. -/
def State.abandonFed (s : State) (c : Nat) : State :=
  let rs := (s.bandsOf c).filter s.fed
  let s := rs.foldl (fun t r => t.setBand r { t.band r with st := .incomplete, raw := [] }) s
  let ns := (s.dma.chans.filter fun e => e.2.ended.isNone && rs.any fun r => e.2.recNo == some r).map (·.1)
  ns.foldl (fun t n =>
    let t := ((t.setChan n { t.chan n with discard := true }).unhold n).wr (.dma .wait) n 0
    t.fillBand n) s

/-- CANCEL (R82): an unadmitted context is blocked, its bands are reclaimed, and those that transfers still feed follow when these end;
a STALLED frame is SPOILED. -/
def cancelCtx (c : Nat) (s : State) : State :=
  if !s.up .mem then s
  else if !s.ctxCmdState then s.pgsRefuse 4
  else
    let x := s.ctx c
    match x.st with
    | .stalled => ((s.abandonFed c).darkenAll c).spoil c 8
    | .opened | .closed | .ready | .blocked =>
      if x.cancelled then s.pgsRefuse 1
      else
        let s := (((s.setCtx c { x with cause := 8, cancelled := true, queued := false }).toState c .blocked).closeDecision 1 c).dropHostOk c
        let s := (s.reclaimCtx c).abandonFed c
        if (s.bandsOf c).isEmpty then s.freeCtx c else s
    | _ => s.pgsRefuse 1

def execCancel (c : Nat) (s : State) : Res := guardWF (decide (c < 256)) (s.hostWrite .pgs 0 fun s =>
    cancelCtx c s)

/-! ### Bursts (R333 to R337) -/

/-- The burst size that BURST selects. -/
def burstBytes (n : Nat) : Nat := if n = 0 then 64 else if n = 1 then 128 else 256

/-- The 64 bytes of a fault record (R361). -/
def FltRec.bytes (r : FltRec) : List Byte :=
  let map (i : Nat) : Nat := (r.srcs.map fun n => if n / 32 = i then 2 ^ (n % 32) else 0).sum
  let l := leBytes (r.st + 4 * r.sev + 256 * r.first + 65536 * min 65535 r.cnt) 4 ++ leBytes r.seq 4 ++
    leBytes r.tFirst 8 ++ leBytes r.tDone 8 ++ (List.range 6).flatMap (fun i => leBytes (map i) 4) ++
    leBytes (r.ansSev + 16 * r.ansUact + 128 * bit r.answered + 256 * bit r.clamped) 4
  (l ++ List.replicate (64 - l.length) 0).map (BitVec.ofNat 8)

/-- Bytes on the fault record queue that have not been handed over (R353). -/
def State.recordFill (s : State) : Nat := 64 * s.flt.queue.length - s.flt.handed

/-- Take the next `m` bytes from the fault record queue; a record leaves it with its last byte, and emptying it ends a record. -/
def State.recordTake (s : State) (m : Nat) : List Byte × Bool × State :=
  let n := s.flt.handed + m
  (((s.flt.queue.flatMap FltRec.bytes).drop s.flt.handed).take m, decide (s.recordFill ≤ m),
   { s with flt := { s.flt with queue := s.flt.queue.drop (n / 64), handed := n % 64 } })

/-- Bytes of the finished capture that have not been taken over (R335). -/
def State.captureFill (s : State) : Nat :=
  if s.rd (.cle .cstate) = 3 then 16 * s.rd (.cle .capCount) - s.capture.handed else 0

/-- The ring index of the first sample of the record (R255); a record that ended without a trigger begins with the first sample still
held (R256). -/
def State.captureStart (s : State) : Nat :=
  let n := s.capture.taken
  match s.capture.after with
  | some k => (s.rd (.cle .trigidx) + 16384 - min (s.rd (.cle .pre)) (n - k)) % 16384
  | none => (n - min 16384 n) % 16384

/-- The 16 bytes of sample `i` of the record, from its first sample. -/
def State.captureSample (s : State) (i : Nat) : List Byte :=
  let v := Store.get [0, 0, 0, 0] ((s.captureStart + i) % 16384) s.capture.ring
  ((List.range 4).flatMap fun c => leBytes (v.getD c 0) 4).map (BitVec.ofNat 8)

/-- Take `m` bytes of the capture; the last byte ends the record. -/
def State.captureTake (s : State) (m : Nat) : List Byte × Bool × State :=
  let h := s.capture.handed
  let all := (List.range (m / 16 + 2)).flatMap fun i => s.captureSample (h / 16 + i)
  ((all.drop (h % 16)).take m, decide (s.captureFill ≤ m), { s with capture := { s.capture with handed := h + m } })

/-- The fill that a peripheral presents, and whether a burst of `n` bytes ends a record (R335, R435). -/
def State.periphFill (s : State) (psel : Nat) : Nat :=
  if psel < 16 then 64 * (s.posts psel).length else if psel = 0x10 then s.recordFill else s.captureFill

/-- A burst from a peripheral: a mailbox pair gives whole posts only, one at least where a page boundary would cut it (R435, log
104). -/
def periphBurst (psel lim most : Nat) : Nat :=
  if psel < 16 ∧ 64 ≤ most then max 64 (min lim most / 64 * 64) else min lim most

/-- Bytes of the next burst of channel `n`; 0 if none is ready (R333, R335). -/
def State.nextBurst (s : State) (n : Nat) : Nat :=
  let c := s.chan n
  match c.desc with
  | none => 0
  | some d =>
    if c.ended.isSome || s.loam.held.contains n then 0
    else
      let st := s.chanState n
      if st ≠ 1 ∧ st ≠ 2 then 0
      else
        let left := d.length - c.moved
        let page := 4096 - (d.hostAddr + c.moved) % 4096
        let link := if d.inbound then s.pcie.maxRead else s.pcie.maxPayload
        let lim := min (min (min (burstBytes (s.rd (.dma .burst) n)) left) page) link
        if d.isBand then (if c.begun then lim else 0)
        else if d.kind = 4 then
          (if c.request then periphBurst (d.arg0 % 64) lim (min left (s.periphFill (d.arg0 % 64))) else 0)
        else lim

/-- The channel the arbiter picks (R334): PRIO 1 before PRIO 0, round-robin behind the one served last. -/
def State.arbitrate (s : State) : Option Nat :=
  let order := (List.range 32).map fun i => (s.dma.last + 1 + i) % 32
  let ready := order.filter fun n => decide (0 < s.nextBurst n)
  match ready.find? fun n => s.on (.dma .prio) n with
  | some n => some n
  | none => ready.head?

/-- Take the first `m` posts out of a pair's queue. -/
def State.popPosts (s : State) (p m : Nat) : State :=
  ({ s with mbx := { s.mbx with queues := Store.set id [] p ((s.posts p).drop m) s.mbx.queues } }).drainWaiting

/-- The 64 bytes of a post (R434). -/
def Post.bytes (p : Post) : List Byte :=
  let l := leBytes p.kind 1 ++ leBytes (bit p.ans) 1 ++ leBytes p.unit 2 ++ leBytes p.token 2 ++ leBytes 0 2 ++
    leBytes p.etime 8 ++ p.data
  (l ++ List.replicate (64 - l.length) 0).map (BitVec.ofNat 8)

/-- Hand over `m` bytes from a peripheral: the bytes, whether they end a record, and the state behind it (R335, R435). -/
def State.periphTake (s : State) (psel m : Nat) : List Byte × Bool × State :=
  if psel < 16 then
    (((s.posts psel).take (m / 64)).flatMap Post.bytes, decide ((s.posts psel).length ≤ m / 64), s.popPosts psel (m / 64))
  else if psel = 0x10 then s.recordTake m
  else s.captureTake m

/-- The lane that has taken channel `n`'s band: its binding may have changed since (R100). -/
def State.curLane (s : State) (n : Nat) : Nat := ((s.cmp.lanes.find? fun e => e.2.cur == some n).map (·.1)).getD 8

/-- BURST_ISSUE (R333 to R336). A band whose compressor leaves band mode by a write of EMODE meets an error response at its next burst,
as one whose compressor is isolated: its descriptor ends BAD with CAUSE 4 (log 138). The arbiter's channel moves its next burst. `data` is what the host returns on a read. -/
def burstIssue (data : List Byte) (ups : List Upset) (s : State) : State :=
  if !s.up .host then s
  else
    match s.arbitrate with
    | none => s
    | some n =>
      let c := s.chan n
      match c.desc with
      | none => s
      | some d =>
        let m := s.nextBurst n
        let s := { s with dma := { s.dma with last := n } }
        if d.inbound && decide (data.length < m) then s
        else
          let bytes := swapBytes d.swap (data.take m)
          let host := d.hostAddr + c.moved
          if d.isBand then
            if !s.laneRuns (s.curLane n) then
              (s.endDesc n { bad := true, cause := 4 }).abandonBand n
            else
              (s.setChan n { c with moved := c.moved + m, data := c.data ++ bytes }).fillBand n
          else if d.kind = 0 then
            if !s.up .mem then s.endDesc n { bad := true, cause := 4 }
            else
              let s := (s.upset ups).writeLoam (d.loamAddr + c.moved) bytes
              let s := s.setChan n { c with moved := c.moved + m, begun := true }
              if c.moved + m = d.length then s.endDesc n {} else s
          else if d.kind = 1 then
            if !s.up .mem then s.endDesc n { bad := true, cause := 4 }
            else
              let q := (s.upset ups).readEcc (d.loamAddr + c.moved) m
              let s := q.2.setChan n { c with begun := true }
              if q.1 then s.endDesc n { bad := true, cause := 4 }
              else
                let s := s.emit (.hostWrite host (swapBytes d.swap (s.bytes (d.loamAddr + c.moved) m)))
                let s := s.setChan n { c with moved := c.moved + m, begun := true }
                if c.moved + m = d.length then s.endDesc n {} else s
          else
            let q := s.periphTake (d.arg0 % 64) m
            let s := q.2.2.emit (.hostWrite host (swapBytes d.swap q.1))
            let s := s.setChan n { c with moved := c.moved + m, begun := true, request := false }
            if q.2.1 then s.endDesc n { short := true }
            else if c.moved + m = d.length then s.endDesc n {}
            else s.wr (.dma .wait) n 3

/-- BURST_ERROR (R337, R338): the descriptor of channel `n` ends BAD. -/
def burstError (n : Nat) (hostSide : Bool) (s : State) : State :=
  let c := s.chan n
  if s.up .host && c.desc.isSome && c.ended.isNone && decide (0 < s.nextBurst n) then
    (s.endDesc n { bad := true, cause := if hostSide then 3 else 4 }).abandonBand n
  else s

def execBurstIssue (data : List Byte) (ups : List Upset) (s : State) : Res := guardWF (s.hw.upsOk ups) (burstIssue data ups s)
def execBurstError (n : Nat) (hostSide : Bool) (s : State) : Res := guardWF (decide (n < 32)) (burstError n hostSide s)

/-- PERIPH_REQUEST (R335): a peripheral raises its request to the channels that wait for it. -/
def periphRequest (psel : Nat) (s : State) : State :=
  let fill := s.periphFill psel
  if !s.up .host then s
  else
    (List.range 32).foldl (fun t n =>
      let c := t.chan n
      match c.desc with
      | some d =>
        if d.kind = 4 ∧ d.arg0 % 64 = psel ∧ c.ended.isNone ∧ 0 < fill ∧
            (psel ≤ 0x10 ∨ min (burstBytes (t.rd (.dma .burst) n)) (d.length - c.moved) ≤ fill)
        then (t.setChan n { c with request := true }).wr (.dma .wait) n 0
        else t
      | none => t) s

/-- PERIPH_WITHDRAW (R336): the burst issued runs as issued, `real` bytes of it real, and the descriptor ends SHORT. -/
def periphWithdraw (n real : Nat) (s : State) : State :=
  let c := s.chan n
  match c.desc with
  | some d =>
    let m := s.nextBurst n
    if s.up .host && d.kind == 4 && c.request && c.ended.isNone && decide (real ≤ m) then
      let q := s.periphTake (d.arg0 % 64) real
      let pad := q.1.take real ++ List.replicate (m - (q.1.take real).length) 0
      let s := q.2.2.emit (.hostWrite (d.hostAddr + c.moved) (swapBytes d.swap pad))
      let s := (s.setChan n { c with moved := c.moved + real, begun := true }).count (.dma .withdraw) n
      s.endDesc n { short := true }
    else s
  | none => s

def execPeriphRequest (psel : Nat) (s : State) : Res := guardWF (decide (psel ≤ 0x11)) (periphRequest psel s)
def execPeriphWithdraw (n real : Nat) (s : State) : Res :=
  guardWF (decide (n < 32) && decide (real ≤ 256)) (periphWithdraw n real s)

/-- A reset or isolation of HOST, or APPLYING: every channel returns to IDLE and its band is abandoned (R340, R478). -/
def State.idleChannels (s : State) : State :=
  (List.range 32).foldl (fun t n =>
    (((t.abandonBand n).setChan n {}).wr (.dma .state) n 0).wr (.dma .wait) n 0) s

end Sys2Proof.Machine
end

