-- ==== Sys2Proof/Machine/Eio.lean ====
section
/-! DEFINITION. Engine I/O pins: wiring checks, overload latches and pin levels (R445 to R453, R467, R468), and EXTEST (R416). -/

namespace Sys2Proof.Machine

open Sys2Proof

/-- Number of an engine I/O pin in `Out.pin`. -/
def eioOut (n : Nat) : Nat := 1000 + n

/-- Functions that drive a pin (R447). -/
def drives (func : Nat) : Bool :=
  func == 0x01 || func == 0x10 || func == 0x11 || func == 0x12 || func == 0x31 || func == 0x32 || func == 0x40 || func == 0x41 ||
    func == 0x50

/-- The functions whose outputs lie in CTL: high-voltage reference, HVEN and PWM (R414). -/
def ctlDrives (func : Nat) : Bool := func == 0x40 || func == 0x41 || func == 0x50

/-- The pins whose function satisfies `p` fall to their pull-downs. -/
def State.releaseWhere (p : Nat → Bool) (s : State) : State :=
  (List.range s.hw.pins).foldl (fun t n => if p (t.rd (.eio .func) n) then t.emit (.pin (eioOut n) false) else t) s

/-- Every engine I/O pin that its function drives falls to its pull-down (R388, R389, R414, R478). -/
def State.releasePins (s : State) : State := s.releaseWhere drives

/-- The pin is checked: it has a function and the image is LOADED or ARMED (R449). -/
def State.pinChecked (s : State) (n : Nat) : Bool :=
  decide (n < s.hw.pins) && s.rd (.eio .func) n != 0 && s.imageRuns

/-- A pin is released to high impedance: OVERLOAD, a unit action, or no image in force (R350, R414, R450). -/
def State.pinReleased (s : State) (n : Nat) : Bool :=
  s.on (.eio .overload) n || s.eio.off.contains n || !s.imageLoaded

/-- The wiring flags that the checks of R449 can set on a pin with a function: an output that is released drives no level to compare. -/
def State.flagApplies (s : State) (n : Nat) (f : WireFlag) : Bool :=
  let func := s.rd (.eio .func) n
  let chk := s.on (.eio .openChk) n
  let driven := drives func && !s.pinReleased n
  match pinClass n, f with
  | 0, .lo => driven
  | 0, .hi => driven || !drives func
  | 1, .openF => chk
  | 2, .lo => driven || !drives func
  | 2, .hi => driven || !drives func
  | 2, .openF => !drives func
  | 2, .pair => func == 0x15
  | 3, .lo => true
  | 3, .hi => true
  | 4, .openF => chk
  | _, _ => false

/-- The field of a wiring flag. -/
def flagField : WireFlag → EioF
  | .lo => .lo
  | .hi => .hi
  | .openF => .openFlag
  | .pair => .pair

/-- WIRING_FAULT (R449, R453). -/
def wiringFault (n : Nat) (f : WireFlag) (s : State) : State :=
  if s.up .mot && s.pinChecked n && s.flagApplies n f then s.ev (.eio (flagField f)) n else s

def execWiringFault (n : Nat) (f : WireFlag) (s : State) : Res := guardWF (decide (n < 256)) (wiringFault n f s)

/-- WIRING_FAULT_END (R449): the flags are conditions. -/
def execWiringFaultEnd (n : Nat) (f : WireFlag) (s : State) : Res :=
  guardWF (decide (n < 256)) (if s.up .mot then s.clr (.eio (flagField f)) n else s)

/-- OVERLOAD_TRIP (R449, R450): a class O output latches off. -/
def overloadTrip (n : Nat) (s : State) : State :=
  if s.up .mot && s.pinChecked n && pinClass n == 4 && !s.on (.eio .overload) n then
    (s.ev (.eio .overload) n).emit (.pin (eioOut n) false)
  else s

def execOverloadTrip (n : Nat) (s : State) : Res := guardWF (decide (n < 256)) (overloadTrip n s)

/-- OVERLOAD_CLEAR (R450): bit 5 of an EIO_STAT write. -/
def execOverloadClear (n : Nat) (v : Word) (s : State) : Res :=
  guardWF (decide (n < 256)) (s.hostWrite .eio 0 fun s =>
    if s.up .mot && v.toNat / 32 % 2 == 1 then s.clr (.eio .overload) n else s)

/-- The level that a pin's own function gives it, before INV, where the module knows it (R447): the N leg of a pair is its partner's. -/
def State.ownLevel (s : State) (n : Nat) : Option Bool :=
  let u := s.rd (.eio .unit) n
  match s.rd (.eio .func) n with
    | 0x10 => if s.rd (.mot .stepmode) u = 2 then some ((s.axis u).gray == 1 || (s.axis u).gray == 2) else none
    | 0x11 =>
      match s.rd (.mot .stepmode) u with
      | 0 => some (s.dirLevel u)
      | 2 => some (decide (2 ≤ (s.axis u).gray))
      | _ => none
    | 0x31 => some s.pth.feedEnd.isSome
    | 0x40 => if s.rd (.fhv .vref) u = 0 then some false else none
    | 0x12 => some (s.on (.mot .enOut) u)
    | 0x16 => some (s.axis u).homeRaw
    | 0x17 => some (s.on (.mot .limP) u)
    | 0x18 => some (s.on (.mot .limN) u)
    | 0x30 =>
      let x := s.sensor u
      let here := match x.cand with
        | some c => c.1
        | none => x.active
      some (here != s.on (.pth .pol) u)
    | 0x32 => some (s.pth.tracks.any fun t => t.diverter && t.output == some u)
    | 0x41 => some (s.on (.fhv .hven) u)
    | _ => none

/-- The level of a pin after INV, where the module knows it (R447, R469): a released pin lies at its pull-down, and the N leg of a
pair opposite to its P leg. -/
def State.funcLevel (s : State) (n : Nat) : Option Bool :=
  let func := s.rd (.eio .func) n
  if drives func && s.pinReleased n then some (s.on (.eio .inv) n)
  else if func = 0x01 then (s.ownLevel (n - 1)).map (!·)
  else s.ownLevel n

/-- EIO_STAT.LEVEL of a pin: the boundary register's level under EXTEST, else the function's, else an open level (log 2). -/
def State.pinLevel (s : State) (n : Nat) : Nat × State :=
  match s.eio.boundary.find? fun e => e.1 == n with
  | some e => (bit e.2, s)
  | none =>
    match s.funcLevel n with
    | some b => (bit b, s)
    | none => s.fresh 1

/-- TAP_EXTEST (R416): while J25 is unlocked, every boundary-scan pin follows the boundary register. -/
def tapExtest (b : List (Nat × Bool)) (s : State) : State :=
  if s.fuses.testLocked then s
  else b.foldl (fun t e => t.emit (.pin (eioOut e.1) e.2)) { s with eio := { s.eio with boundary := b } }

def execTapExtest (b : List (Nat × Bool)) (s : State) : Res := guardWF true (tapExtest b s)

end Sys2Proof.Machine
end

