-- ==== Sys2Proof/Machine/Jobs.lean ====
section
/-! DEFINITION. Buffer jobs of the Loess engines (R131 to R134): regions, the job state machine, and what an engine holds when
it stops (R126 to R129). A job keeps all the input read since START, so that a resumed run is by construction the
uninterrupted run (R129). -/

namespace Sys2Proof.Machine

open Sys2Proof

/-- An engine runs buffer jobs: populated, not a verify decompressor, EMODE 1, CMP up (R131). -/
def State.buffers (s : State) (n : Nat) : Bool :=
  decide (n < 16) && s.hw.engine n && s.up .cmp && s.rd (.cmp .emode) n == 1

/-- A region is refused if it lies beyond the usable space or touches a band's extent (R132). -/
def State.regionOk (s : State) (a n : Nat) : Bool := decide (a + n ≤ s.hw.usable) && !s.touchesBand a n

/-- Where a run of an engine comes to a halt. -/
inductive Halt where
  | done | full | need
  | err (code pos : Nat)
  deriving DecidableEq, Repr

/-- What an engine shows when it halts (R126, R128). -/
structure Stand where
  halt : Halt
  out : List Byte
  produced : Nat
  consumed : Nat
  residue : List Bool := []
  kind : Nat := 0
  remain : Nat := 0
  dist : Nat := 0
  crc : Nat := 0
  /-- Units that a compressor has generated. -/
  gen : Nat := 0
  deriving DecidableEq, Repr

/-- The number that bits spell, the first lowest. -/
def bitsNat (l : List Bool) : Nat := (l.zipIdx.map fun x => if x.1 then 2 ^ x.2 else 0).sum

/-- Where a run halts when its input ends: at the burst that met an error, else for want of input. -/
def Job.dry (j : Job) : Halt :=
  match j.bad with
  | some p => .err 14 p.1
  | none => .need

/-- A compressor's run with the input it has and room for `room` bytes in all. R123 gives HEADER to decompressors only; a compressor
job with LINE_BYTES 0 or above 6,656 has no band, and ends with that code at place 0 (log 139). -/
def compressRun (j : Job) (room : Nat) : Stand :=
  let us := encUnits j.lineBytes j.lines j.band j.input
  let out := unitsBytes us
  let crc := crc32c (j.input.take (j.lineBytes * j.lines))
  if j.lineBytes = 0 ∨ 6656 < j.lineBytes then { halt := .err 2 0, out := [], produced := 0, consumed := 0 }
  else if room < out.length then
    let g := genAtFull us room
    let st := compStand us room g
    { halt := .full, out := out.take room, produced := room, consumed := st.1, residue := st.2, crc := crc, gen := g }
  else
    let st := compStand us out.length us.length
    { halt := if j.lineBytes * j.lines ≤ j.input.length then .done else j.dry, out := out, produced := out.length,
      consumed := st.1, crc := crc, gen := us.length }

/-- A decompressor standing before output byte `w`: what it holds (R128). -/
def decodeStand (h : Halt) (d : DState) (w : Nat) : Stand :=
  match d.marks.find? fun m => decide (m.s ≤ w) && decide (w < m.e) with
  | some m =>
    { halt := h, out := d.out.toList.take w, produced := w, consumed := m.pos / 8, kind := m.kind,
      remain := m.runEnd - w, dist := m.dist, crc := crc32c (d.out.toList.take w) }
  | none =>
    { halt := h, out := d.out.toList.take w, produced := w, consumed := d.p / 8, crc := crc32c (d.out.toList.take w) }

/-- A decompressor's run with the input it has and room for `room` bytes in all. -/
def decompressRun (j : Job) (room : Nat) : Stand :=
  let r := decodeRun j.input ⟨j.lineBytes, j.lines, j.band⟩
  let d := r.2
  let crc := crc32c d.out.toList
  if room < d.out.size then decodeStand .full d room
  else
    match r.1 with
    | .done n => { halt := .done, out := d.out.toList, produced := d.out.size, consumed := n, crc := crc }
    | .err c p => { halt := .err c p, out := d.out.toList, produced := d.out.size, consumed := p, crc := crc }
    | .need item kind remain =>
      { halt := j.dry, out := d.out.toList, produced := d.out.size, consumed := j.input.length,
        residue := (List.range (8 * j.input.length - item)).map (fun i => inBit j.input.toArray (item + i) == 1),
        kind := kind, remain := remain, crc := crc }

/-- The run of the job on engine `n`. -/
def State.jobRun (s : State) (n : Nat) : Stand :=
  let j := s.job n
  if n < 8 then compressRun j (j.outBase + j.outLen) else decompressRun j (j.outBase + j.outLen)

/-- Store what a run has newly produced and show where the engine stands, in job state `st`. CMP_HOLD is valid while an item of a
decompressor is held (R128, R139). -/
def State.jobShow (s : State) (n st : Nat) (x : Stand) : State :=
  let j := s.job n
  let s := s.writeLoam (j.outAddr + (j.produced - j.outBase)) (x.out.drop j.produced)
  let s := s.setJob n { j with produced := x.produced, gen := x.gen }
  let s := (s.wr (.cmp .outProduced) n x.produced).wr (.cmp .inConsumed) n x.consumed
  let s := (s.wr (.cmp .residue) n (bitsNat x.residue)).wr (.cmp .resBits) n x.residue.length
  let s := ((s.wr (.cmp .remain) n x.remain).wr (.cmp .holdKind) n x.kind).wr (.cmp .holddist) n x.dist
  let s := (s.wrB (.cmp .holding) n (x.kind != 0)).wr (.cmp .crc) n x.crc
  s.wr (.cmp .jState) n st

/-- A command that the table does not allow (R134). -/
def State.jobIgnored (s : State) (n : Nat) : State := s.ev (.cmp .cmdIgnored) n

/-- ERROR with a code and a place (R123, R134); its regions are free for allocation again (R132, R479). -/
def State.jobError (s : State) (n code pos : Nat) : State := (s.engineError n code pos).retryHeld

/-- What an engine holds of a stopped job is discarded (R134). -/
def State.jobClear (s : State) (n : Nat) : State :=
  let s := (((s.clr (.cmp .residue) n).clr (.cmp .resBits) n).clr (.cmp .holding) n).clr (.cmp .remain) n
  (s.clr (.cmp .holdKind) n).clr (.cmp .holddist) n

/-- The engine reads its input region (R70, R127): the bytes before the first uncorrectable burst, the region's first byte in that
burst if there is one, and the state after the errors that were corrected on the way. The engine reads ahead of what it consumes,
here the whole region at once (log 112). -/
def State.regionRead (s : State) (a n : Nat) : List Byte × Option (Nat × Nat) × State :=
  let hits := s.hitBursts a n
  let bad := hits.find? fun b => s.ecc b == .bad
  let got := match bad with
    | some b => 64 * b - a
    | none => n
  let ones := (hits.filter fun b => s.ecc b == .single && decide (64 * b < a + got)).length
  if s.up .mem then (s.bytes a got, bad.map fun b => (got, b), s.countBy (.pgs .eccCe) 0 ones) else ([], none, s)

/-- START (R133, R134). -/
def State.jobBegin (s : State) (n : Nat) : State :=
  let st := s.rd (.cmp .jState) n
  if !s.buffers n || st == 1 || st == 7 then s.jobIgnored n
  else
    let ia := s.rd (.cmp .inAddr) n
    let il := s.rd (.cmp .inLen) n
    let oa := s.rd (.cmp .outAddr) n
    let ol := s.rd (.cmp .outLen) n
    if s.regionOk ia il && s.regionOk oa ol then
      let q := s.regionRead ia il
      let t := q.2.2.setJob n { lineBytes := s.rd (.cmp .jLineBytes) n, lines := s.rd (.cmp .jLinesM1) n + 1,
                                band := s.rd (.cmp .jBand) n, input := q.1, bad := q.2.1, inAddr := ia, inLen := il,
                                outAddr := oa, outLen := ol }
      let t := ((t.clr (.cmp .inConsumed) n).clr (.cmp .outProduced) n).jobClear n
      let t := ((t.clr (.cmp .jErr) n).clr (.cmp .crc) n).wr (.cmp .jState) n 1
      if s.up .mem then t.retryHeld else t.jobError n 14 0
    else ((s.setJob n {}).jobClear n).jobError n 13 0

/-- RESUME (R133, R134). R127 has each new input region continue behind the end of the one before: a region given by NEW_IN follows
all of the bytes read before, also while some of these are not consumed (log 139). -/
def State.jobAgain (s : State) (n : Nat) (newIn newOut : Bool) : State :=
  let st := s.rd (.cmp .jState) n
  if !s.buffers n || !(st == 2 || st == 3 || st == 4) then s.jobIgnored n
  else
    let ia := s.rd (.cmp .inAddr) n
    let il := s.rd (.cmp .inLen) n
    let oa := s.rd (.cmp .outAddr) n
    let ol := s.rd (.cmp .outLen) n
    if (newIn && !s.regionOk ia il) || (newOut && !s.regionOk oa ol) then s.jobError n 13 0
    else
      let j := s.job n
      let q := if newIn && j.bad.isNone then s.regionRead ia il else ([], none, s)
      let j := if newIn then
          { j with input := j.input ++ q.1, inBase := j.inBase + j.inLen, inAddr := ia, inLen := il,
                   bad := j.bad.or (q.2.1.map fun p => (j.inBase + j.inLen + p.1, p.2)) } else j
      let j := if newOut then { j with outAddr := oa, outLen := ol, outBase := j.produced } else j
      let t := (q.2.2.setJob n j).wr (.cmp .jState) n 1
      if s.up .mem then t.retryHeld else t.jobError n 14 (s.rd (.cmp .inConsumed) n)

/-- A compressor standing behind its first `g` output units: the bytes that are complete are written, the rest is held (R126). -/
def compAt (us : List OUnit) (x : Stand) (g : Nat) : Stand :=
  let w := if g = 0 then 0 else (unitEnds 0 us).getD (g - 1) 0 / 8
  let st := compStand us w g
  { x with out := x.out.take w, produced := w, consumed := st.1, residue := st.2, gen := g }

/-- The unit boundary at which a compressor stops: behind `units` output units, or the nearest one that it has not passed yet and that
its output region lets it reach; `none` where the region ends first. -/
def stopUnits (us : List OUnit) (j : Job) (room units : Nat) : Option Nat :=
  let ok := (List.range (us.length + 1)).filter fun g =>
    let w := if g = 0 then 0 else (unitEnds 0 us).getD (g - 1) 0 / 8
    decide (j.gen ≤ g) && decide (j.produced ≤ w) && decide (w ≤ room)
  match ok.find? fun g => decide (units ≤ g) with
  | some g => some g
  | none => ok.getLast?

/-- The unit boundary at which a decompressor stops, as a count of output bytes: behind a literal, a stored byte or a whole match
(R126, R134). -/
def stopBytes (d : DState) (j : Job) (room units : Nat) : Option Nat :=
  let ok := (0 :: (d.marks.map (·.e)).reverse).filter fun w => decide (j.produced ≤ w) && decide (w ≤ room)
  match ok.find? fun w => decide (units ≤ w) with
  | some w => some w
  | none => ok.getLast?

/-- A decompressor standing between two units behind `w` output bytes: no match is held, but the rest of a literal run or of a stored
payload is. -/
def decodeBetween (h : Halt) (d : DState) (w : Nat) : Stand :=
  match d.marks.find? fun m => decide (m.s = w) && m.kind == 1 with
  | some m =>
    { halt := h, out := d.out.toList.take w, produced := w, consumed := m.tok / 8, crc := crc32c (d.out.toList.take w) }
  | none => decodeStand h d w

/-- STOP (R134): at the next unit boundary. `units` says how far the engine has come: output units of a compressor, output bytes of a
decompressor. Where the output region ends before a boundary, the job reaches OUT_FULL. -/
def State.jobHalt (s : State) (n units : Nat) : State :=
  if !s.buffers n || s.rd (.cmp .jState) n != 1 then s.jobIgnored n
  else
    let j := s.job n
    let x := s.jobRun n
    let y :=
      if n < 8 then
        let us := encUnits j.lineBytes j.lines j.band j.input
        (stopUnits us j x.produced units).map (compAt us x)
      else
        let d := (decodeRun j.input ⟨j.lineBytes, j.lines, j.band⟩).2
        (stopBytes d j x.produced units).map (decodeBetween x.halt d)
    match y with
    | some y => (s.jobShow n 4 y).ev (.cmp .stopEv) n
    | none => (s.jobShow n 2 x).ev (.cmp .stopEv) n

/-- ABORT (R134). -/
def State.jobDrop (s : State) (n : Nat) : State :=
  if !s.buffers n || s.rd (.cmp .jState) n == 7 then s.jobIgnored n
  else (((s.setJob n {}).jobClear n).wr (.cmp .jState) n 0).retryHeld

/-- Several command bits in one write are taken in the order ABORT, START, RESUME, STOP. -/
def State.jctl (s : State) (n v : Nat) : State :=
  let b (i : Nat) : Bool := v / 2 ^ i % 2 == 1
  let s := if b 3 then s.jobDrop n else s
  let s := if b 0 then s.jobBegin n else s
  let s := if b 1 then s.jobAgain n (b 4) (b 5) else s
  if b 2 then s.jobHalt n 0 else s

/-- The engine answers a write of its registers: populated and CMP up. -/
def State.engineUp (s : State) (n : Nat) : Bool := s.hw.engine n && s.up .cmp

def execJobStart (n : Nat) (v : Word) (s : State) : Res :=
  guardWF (decide (n < 24) && v.getLsbD 0) (s.hostWrite .cmp 0 fun s =>
    if s.engineUp n then s.jctl n v.toNat else s)
def execJobResume (n : Nat) (v : Word) (s : State) : Res :=
  guardWF (decide (n < 24) && v.getLsbD 1 && !v.getLsbD 0) (s.hostWrite .cmp 0 fun s =>
    if s.engineUp n then s.jctl n v.toNat else s)
def execJobStop (n units : Nat) (s : State) : Res :=
  guardWF (decide (n < 24)) (s.hostWrite .cmp 0 fun s =>
    if s.engineUp n then s.jobHalt n units else s)
def execJobAbort (n : Nat) (s : State) : Res := guardWF (decide (n < 24)) (s.hostWrite .cmp 0 fun s =>
    if s.engineUp n then s.jobDrop n else s)

/-- A running job whose run reaches `h` halts there. -/
def State.jobReach (s : State) (n st : Nat) (h : Halt) (f : CmpF) : State :=
  if s.buffers n && s.up .mem && s.rd (.cmp .jState) n == 1 then
    let x := s.jobRun n
    if x.halt = h then (s.jobShow n st x).ev (.cmp f) n else s
  else s

def execJobOutFull (n : Nat) (s : State) : Res := guardWF (decide (n < 24)) (s.jobReach n 2 .full .stopEv)
def execJobNeedInput (n : Nat) (s : State) : Res := guardWF (decide (n < 24)) (s.jobReach n 3 .need .stopEv)
def execJobDone (n : Nat) (s : State) : Res := guardWF (decide (n < 24)) ((s.jobReach n 5 .done .doneEv).retryHeld)

/-- A job's run ends with an error: output produced before it is stored and stays (R125); an uncorrectable burst is counted (R70). -/
def State.jobStopAt (s : State) (n : Nat) (x : Stand) : State :=
  let j := s.job n
  match x.halt with
  | .err c p =>
    let s := match j.bad with
      | some b => if c = 14 then s.ueHit b.2 else s
      | none => s
    (if j.produced ≤ x.produced then s.jobShow n 6 x else s).jobError n c p
  | _ => s

/-- JOB_ERROR (R134): an error response on the input, or the first failing check of the run. Which burst meets an error response that
the store does not explain is open: a free value, not before what the job has consumed (log 2). -/
def jobFails (n : Nat) (bus : Bool) (s : State) : State :=
  if s.buffers n && s.rd (.cmp .jState) n == 1 then
    let j := s.job n
    if bus && j.bad.isNone then
      let q := s.fresh 32
      let a := j.inAddr / 64 * 64 + 64 * (q.1 % ((j.inLen + 63) / 64))
      let p := max (j.inBase + (a - j.inAddr)) (s.rd (.cmp .inConsumed) n)
      let s := q.2.setJob n { j with input := j.input.take p }
      let x := s.jobRun n
      s.jobStopAt n (match x.halt with
        | .err _ _ => x
        | _ => { x with halt := .err 14 p })
    else s.jobStopAt n (s.jobRun n)
  else s

def execJobError (n : Nat) (bus : Bool) (s : State) : Res := guardWF (decide (n < 24)) (jobFails n bus s)

/-- Discard an engine's job without a trace: a reset, isolation or APPLYING (R134, R478). -/
def State.jobForget (s : State) (n st : Nat) : State := ((s.setJob n {}).jobClear n).wr (.cmp .jState) n st

end Sys2Proof.Machine
end

