-- ==== Sys2Proof/Machine/Domains.lean ====
section
/-! DEFINITION. What a reset does inside its reach (R397 to R408, R414, R415), what the isolation of an engine, an axis, a slot or
a station does (R91, R137, R227, R253, R350), and the restore of configuration fields from the image (R408). -/

namespace Sys2Proof.Machine

open Sys2Proof

/-- The code of a domain, its position in the release order (R397). -/
def domCode : Dom → Nat
  | .aon => 0 | .ctl => 1 | .seq => 2 | .mem => 3 | .host => 4 | .cmp => 5 | .mot => 6 | .csl => 7 | .vid => 8

/-- Domains 1 to 8 in release order (R397). -/
def mainDoms : List Dom := [.ctl, .seq, .mem, .host, .cmp, .mot, .csl, .vid]

/-- The domain of a unit behind a wrapper. -/
def unitDom : UnitId → Dom
  | .engine _ => .cmp
  | .axis _ => .mot
  | .slot _ => .ctl
  | .station _ => .vid

/-- Bit `n` of a field that holds a mask. -/
def State.bitOn (s : State) (f : Fld) (n : Nat) : Bool := s.rd f / 2 ^ n % 2 == 1

/-- Set or clear bit `n` of a mask. -/
def State.setBit (s : State) (f : Fld) (n : Nat) (b : Bool) : State :=
  s.wr f 0 (s.rd f - (s.rd f / 2 ^ n % 2) * 2 ^ n + bit b * 2 ^ n)

/-! ### Units that leave service -/

/-- The channel that feeds a band to compressor `l` meets an error response: BAD CAUSE 4, the band INCOMPLETE (R137, R337). -/
def State.compressorLost (s : State) (l : Nat) : State :=
  match (s.lane l).cur with
  | some n => if (s.chan n).ended.isNone then (s.endDesc n { bad := true, cause := 4 }).abandonBand n else s
  | none => s

/-- Bands of a lane in CHECKING become FAILED, CAUSE 6 (R137). -/
def State.verifierLost (s : State) (l : Nat) : State :=
  (s.loam.bands.filter fun e => e.2.st == .checking && e.2.lane == l).foldl (fun t e => t.bandBad e.1 .failed 6) s

/-- The streams of imaging decompressor `j` end with code 14 (R125, R137). Which burst of its band each was reading is open: a free
value (log 2). -/
def State.imagerLost (s : State) (j : Nat) : State :=
  (List.range 8).foldl (fun t k =>
    if t.busy k && t.rd (.pgs .decAssign) k == j then
      match t.streamOf k with
      | none => t
      | some (c, r) =>
        let b := t.band r
        let q := t.fresh 15
        let o := 64 * (q.1 % ((b.storedLen + 63) / 64))
        q.2.imagingStop k c r 14 o (decodeRun ((t.stored b).take o) (t.expect b)).2.out.size
    else t) s

/-- A buffer job's access meets an error response of the page store (R13, R479). Which burst it was is open: a free value, not before
what the job has consumed (log 2). -/
def State.jobCut (s : State) (n : Nat) : State :=
  if s.rd (.cmp .emode) n = 1 ∧ s.rd (.cmp .jState) n = 1 then
    let q := s.fresh 15
    q.2.jobError n 14 (max (64 * q.1) (s.rd (.cmp .inConsumed) n))
  else s

/-- The work of engine `n` ends with an error response (R137); a buffer job is discarded. -/
def State.engineLost (s : State) (n st : Nat) : State :=
  let s := if n < 8 then s.compressorLost n else if n < 16 then s.imagerLost (n - 8) else s.verifierLost (n - 16)
  s.jobForget n st

/-- Isolation of an engine (R137): it leaves its lane or the gate's set until the boundary after its return (R91). -/
def State.engineIsolate (s : State) (n : Nat) : State :=
  let s := s.engineLost n 7
  { s with cmp := { s.cmp with rejoin := n :: s.cmp.rejoin.erase n } }

/-- Isolation of an axis (R227): the path takes it back only at a boundary and homed. -/
def State.axisIsolate (s : State) (k : Nat) : State :=
  let s := s.axisOut k
  { s with pth := { s.pth with axesOut := k :: s.pth.axesOut.erase k } }

/-- Isolation of a station's video path (R350): its pages are spoiled, no further scan starts, the link goes to SAFE; a running
recalibration is abandoned (R375). -/
def State.stationIsolate (s : State) (k : Nat) : State :=
  let s := ((s.recalAbandon k).spoilStation k 7).endStation k
  let s := (((s.clr (.btu .flock) k).clr (.btu .flockArb) k).clr (.btu .ready) k)
  let s := s.setStn k { s.stn k with sos := none, misses := 0, periods := [], sinceLock := 0, record := [], lastEnd := none }
  (s.wr (.blk .lstate) k 0).idle k 0

/-- Isolate a unit: it is recorded as isolated and its work ends (R358). -/
def State.isolateUnit (s : State) (u : UnitId) : State :=
  let f := s.flt
  let s := { s with flt := { f with
    isolated := u :: f.isolated.erase u
    retpend := f.retpend.erase u
    resetting := f.resetting.erase u
    checking := f.checking.erase u } }
  match u with
  | .engine n => s.engineIsolate n
  | .axis k => s.axisIsolate k
  | .slot n => s.slotIsolate n
  | .station k => s.stationIsolate k

/-! ### Restoring configuration (R408) -/

/-- Give every field that the image set, and that satisfies `p`, the value it applied. -/
def State.restoreFields (s : State) (p : Fld → Nat → Bool) : State :=
  s.ldr.written.foldl (fun t e =>
    match e.2 with
    | some v => if p e.1.1 e.1.2 then t.wr e.1.1 e.1.2 v else t
    | none => t) s

/-- Reset the fields that satisfy `p` at reach 0 or 1: reset values, and the image's values where one is loaded (R25, R408). -/
def State.resetRestore (s : State) (p : Fld → Nat → Bool) : State :=
  let t := s.resetFields p
  if s.imageLoaded then t.restoreFields p else t

/-- The fields of a unit behind a wrapper. -/
def unitField (u : UnitId) (f : Fld) (i : Nat) : Bool :=
  match u, f with
  | .engine n, .cmp g => (Fld.cmp g).row.n1 != 1 && f.outer i == n
  | .axis k, .mot g => (Fld.mot g).row.n1 != 1 && f.outer i == k
  | .slot n, .cle g => (Fld.cle g).row.n1 != 1 && f.outer i == n
  | .station k, .btu _ => f.outer i == k
  | .station k, .blk _ => f.outer i == k
  | _, _ => false

/-- The single-block reset of a unit (R408, R410), with its running state. -/
def State.unitReset (s : State) (u : UnitId) : State :=
  let s := match u with
    | .engine n => s.setJob n {}
    | .axis k => s.setAxis k {}
    | .slot n => s.setSlot n {}
    | .station k => (s.setStn k {}).setLnk k {}
  let s := s.resetFields (unitField u)
  match u with
  | .engine n => s.wr (.cmp .jState) n 7
  | .slot n => s.wr (.cle .state) n 5
  | _ => s

/-- A unit's configuration comes back from the image (R408). -/
def State.unitRestore (s : State) (u : UnitId) : State := if s.imageLoaded then s.restoreFields (unitField u) else s

/-! ### Domains -/

/-- R415: pages in flight end at once, in the middle of a line. -/
def State.endPages (s : State) : State :=
  (s.loam.ctxs.filter fun e => e.2.st == .admitted || e.2.st == .imaging || e.2.st == .stalled).foldl (fun t e =>
    let t := t.darkenAll e.1
    (t.spoil e.1 7).finishAll e.1) s

/-- Every open decision of the kinds listed closes. -/
def State.closeKinds (s : State) (ks : List Nat) : State :=
  { s with mbx := { s.mbx with
      decisions := s.mbx.decisions.filter fun d => !ks.contains d.kind
      waiting := s.mbx.waiting.filter fun w => !ks.contains w.kind } }

/-- The units of a domain leave Carabid's lists (R407, R408). -/
def State.freeUnits (s : State) (d : Dom) : State :=
  let keep (l : List UnitId) : List UnitId := l.filter fun u => unitDom u != d
  let f := s.flt
  { s with flt := { f with
      isolated := keep f.isolated, retpend := keep f.retpend, resetting := keep f.resetting, checking := keep f.checking } }

/-- Running state that a reset of CTL ends; AON_TAKEOVER and the isolations of other domains stay (R351, R408). -/
def State.resetCtl (s : State) : State :=
  let s := (s.endPages.closeKinds [4, 5]).releaseWhere ctlDrives
  let s := (List.range 8).foldl (fun t g => t.setGate g false) s
  let s := (List.range 8).foldl (fun t k =>
    (t.setStn k { t.stn k with recal := false }).setLnk k { t.lnk k with held := false }) s
  let f := s.flt
  { s with
    flt := { isolated := f.isolated, retpend := f.retpend, resetting := f.resetting, checking := f.checking,
             aonTakeover := f.aonTakeover }
    slots := [], capture := {}, fhv := {}, cal := {}, eio := { s.eio with off := [] } }

/-- Running state that a reset of SEQ ends: the image, a commit, a fuse command, core halts, post counters (R18, R50, R434). -/
def State.resetSeq (s : State) : State :=
  let l := s.ldr
  { s with
    ldr := { flash0 := l.flash0, flash1 := l.flash1, cut0 := l.cut0, cut1 := l.cut1 }
    cores := {}, etime := 0
    mbx := { s.mbx with tokens := [], decisions := [], waiting := [] } }

/-- Running state that a reset of MEM ends (R82, R479): contexts and band records; a band in transfer meets an error response. -/
def State.resetMem (s : State) : State :=
  let s := (List.range 8).foldl (fun t l => t.compressorLost l) s
  let s := s.loam.bands.foldl (fun t e => t.verifyIdle e.2) s
  let s := (List.range 24).foldl State.jobCut s
  let s := (List.range 8).foldl (fun t k => t.setStn k { t.stn k with queue := [], lastEnd := none }) (s.closeKinds [1, 7])
  { s with
    loam := { bytes := s.loam.bytes, ecc := s.loam.ecc }
    csl := { s.csl with query := none, agreed := [] }
    pth := { s.pth with tracks := [], frames := [] } }

/-- Running state that a reset of HOST ends (R340, R427, R429, R436): channels go IDLE, queues empty; open decisions wait to be
posted again. -/
def State.resetHost (s : State) : State :=
  let s := s.idleChannels
  let m := s.mbx
  let again := m.decisions.map fun d => ({ kind := d.kind, unit := d.unit, data := d.data } : Waiting)
  { s with
    dma := {}
    pcie := {}
    mbx := { m with queues := [], decisions := [], waiting := again ++ m.waiting.filter fun w => kindAnswered w.kind } }

/-- Running state that a reset of CMP ends (R137). Every imaging decompressor has left the gate's set, and rejoins it at the boundary
after the reset (R91). -/
def State.resetCmp (s : State) : State :=
  let s := (List.range 24).foldl (fun t n => t.engineLost n 0) s
  { s with cmp := { lanes := s.cmp.lanes.map fun e => (e.1, { e.2 with cur := none }), rejoin := (List.range 8).map (8 + ·) } }

/-- Running state that a reset of MOT ends; the engine I/O pins fall to their pull-downs (R414). -/
def State.resetMot (s : State) : State :=
  let s := s.releasePins.closeKinds [6]
  { s with axes := [], pth := {}, eio := { s.eio with off := [] }, loam := { s.loam with request := false } }

/-- Running state that a reset of VID ends (R415). -/
def State.resetVid (s : State) : State :=
  let s := s.endPages.closeKinds [2, 3]
  let s := (List.range 8).foldl (fun t k => t.recalAbandon k) s
  let s := { s with stns := [], lnks := [] }
  (List.range s.hw.stations).foldl (fun t k => t.idle k 0) s

/-- The running state of a domain at its reset. -/
def State.resetRunning (s : State) (d : Dom) : State :=
  match d with
  | .aon => s
  | .ctl => s.resetCtl
  | .seq => s.resetSeq
  | .mem => s.resetMem
  | .host => s.resetHost
  | .cmp => s.resetCmp
  | .mot => s.resetMot
  | .csl => { s with csl := {} }
  | .vid => s.resetVid

/-- A reset of a domain (R407, R408): running state, fields and unit isolations; the domain is held in reset until its release. An
island that its watchdog isolated stays isolated until the reset ends (R14). -/
def State.domainReset (s : State) (d : Dom) (reach : Nat) : State :=
  let s := (s.resetRunning d).freeUnits d
  let mine (f : Fld) (_ : Nat) : Bool := f.dom == d
  let s := if reach ≤ 1 then s.resetRestore mine else s.resetFields mine
  { s with
    latch := s.latch.filter fun e => (blockAt e.1).map Block.dom != some d
    inReset := d :: s.inReset.erase d }

/-- A reset of all main domains (R404): Loam's contents survive a reach of at most 2 (R479, log 3). -/
def State.dieReset (s : State) (reach : Nat) : State :=
  let s := mainDoms.foldl (fun t d => t.domainReset d 2) s
  if reach = 3 then { s with loam := {} } else s

/-- A domain leaves reset: its islands are isolated no more (R14); engine time starts at 0 with SEQ (R16); posts that waited for
HOST go out (R436); with no page active every moment is a boundary, at which imaging decompressors rejoin (R91). -/
def State.domainOut (s : State) (d : Dom) : State :=
  let s := { s with
    isolated := s.isolated.filter fun i => islandDom i != d
    inReset := s.inReset.erase d }
  match d with
  | .seq => { s with etime := 0 }
  | .host => s.drainWaiting
  | .cmp => if s.pageActive then s else { s with cmp := { s.cmp with rejoin := [] } }
  | _ => s

/-! ### Sources and episodes (R401 to R406) -/

/-- The fused reach of a reset source (R401). -/
def fusedReach (src : Nat) : Nat := [3, 3, 2, 2, 1, 1, 2, 1, 2, 1, 2, 0].getD src 0

/-- Byte `n` of the option bytes in force (R411, R418). -/
def State.obByte (s : State) (n : Nat) : Nat := bitField (s.rd (.rstc .ob) (n / 4)) (8 * (n % 4)) 8

/-- What the option bytes ask of a source; a source without an option byte shows its fused reach (R401). -/
def State.setReach (s : State) (src : Nat) : Nat :=
  match src with
  | 3 => s.obByte 4
  | 4 => s.obByte 5
  | 5 => s.obByte 6
  | 8 => s.obByte 7
  | n => fusedReach n

/-- The reach in force: the option bytes can raise the fused one to the one value that their row allows (R401, R412). -/
def State.effReach (s : State) (src : Nat) : Nat :=
  if s.setReach src = fusedReach src + 1 then s.setReach src else fusedReach src

/-- The domain that a source of reach 1 names (R401). -/
def State.namedDom (s : State) (src : Nat) : Dom :=
  match src with
  | 7 => .ctl
  | 9 => s.rst.named
  | _ => .host

/-- Show the running or last episode in RSTC_STATUS and RSTC_LASTSRC (R406, R418, R419). -/
def State.showReset (s : State) : State :=
  let r := s.rst
  let mask (l : List Nat) : Nat := ((List.range 12).map fun i => if l.contains i then 2 ^ i else 0).sum
  let doms := (r.doms.map fun d => 2 ^ domCode d).sum + if r.reach = 3 then 1 else 0
  (((s.wr (.rstc .lastReach) 0 r.reach).wr (.rstc .lastDoms) 0 doms).wr (.rstc .lastSrc) 0 (mask r.last)).wr (.rstc .nowSrc) 0
    (mask r.asserted)

/-- A reset source asserts (R404, R405): it begins or joins an episode and resets the domains that it covers. -/
def State.sourceAssert (s : State) (src : Nat) : State :=
  let eff := s.effReach src
  let cover := if 2 ≤ eff then mainDoms else if eff = 1 then [s.namedDom src] else []
  let r := s.rst
  let fresh := !r.episode
  let reach := if fresh then eff else max eff r.reach
  let doms := if 2 ≤ reach then mainDoms else if fresh then cover else mainDoms.filter fun d => r.doms.contains d || cover.contains d
  let last := if fresh then [src] else src :: r.last.erase src
  let s := { s with rst := { r with
    episode := true, asserted := src :: r.asserted.erase src, last := last, reach := reach, doms := doms, release := [] } }
  let s := if fresh then s.count (.rstc .count) else s
  (if 2 ≤ eff then s.dieReset eff else cover.foldl (fun t d => t.domainReset d 1) s).showReset

/-- An episode ends: after a reset of CTL, power-up calibration starts (R363). -/
def State.episodeEnd (s : State) : State :=
  let s := { s with rst := { s.rst with episode := false } }
  if s.rst.doms.contains .ctl then s.calStart else s

/-- A reset source deasserts (R404): the last one starts the release, in ascending code. -/
def State.sourceDeassert (s : State) (src : Nat) : State :=
  let r := s.rst
  if !r.asserted.contains src then s
  else
    let left := r.asserted.erase src
    let list := if left.isEmpty then mainDoms.filter fun d => r.doms.contains d && s.inReset.contains d else []
    let s := ({ s with rst := { r with asserted := left, release := list } }).showReset
    if left.isEmpty && list.isEmpty then s.episodeEnd else s

/-- DOMAIN_RELEASE (R398, R405): while REF_OK is 1 and no source is asserted, the next domain of the episode leaves reset. -/
def domainRelease (s : State) : State :=
  match s.rst.release with
  | d :: rest =>
    if s.on (.rstc .refOk) && s.rst.asserted.isEmpty then
      let s := ({ s with rst := { s.rst with release := rest } }).domainOut d
      if rest.isEmpty then s.episodeEnd else s
    else s
  | [] => s

def execDomainRelease (s : State) : Res := guardWF true (domainRelease s)

end Sys2Proof.Machine
end

