-- ==== Sys2Proof/Machine/Rails.lean ====
section
/-! DEFINITION. The external sequence as other chapters use it: its start, its power-down and the orderly off that waits for it
(R383, R385 to R387). -/

namespace Sys2Proof.Machine

open Sys2Proof

/-- Sequencer states (R396). -/
def State.istate (s : State) : Nat := s.rd (.pwr .istate)
def State.estate (s : State) : Nat := s.rd (.pwr .estate)

/-- Change the supervisor's running state. -/
def State.setPwr (s : State) (p : Pwr) : State := { s with pwr := p }

/-- ALL_QUAL: both sequences are ON (R383). -/
def State.showQual (s : State) : State := s.wrB (.pwr .allQual) 0 (s.istate == 2 && s.estate == 4)

/-- ON_LATCH shows a latched on request (R387). -/
def State.showLatch (s : State) : State := s.wrB (.pwr .onLatch) 0 (s.pwr.onLatch || s.pwr.extLatch)

/-- Change a sequencer state. -/
def State.toI (s : State) (n : Nat) : State := (s.wr (.pwr .istate) 0 n).showQual
def State.toE (s : State) (n : Nat) : State := (s.wr (.pwr .estate) 0 n).showQual

/-- Put the enables of external step `i` at a level (R380). -/
def State.driveStep (s : State) (i : Nat) (high : Bool) : State :=
  (List.range 8).foldl (fun t e =>
    if t.rd (.pwr .stepEn) i / 2 ^ e % 2 = 1 then t.emit (.pin (64 + e) high) else t) s

/-- The external sequence is ON; the master sends POWER_GO once per power-up (R322, R383). -/
def State.extOn (s : State) : State :=
  let s := s.toE 4
  if s.isMaster && !s.pwr.goSent then (s.setPwr { s.pwr with goSent := true }).broadcast 14 [] else s

/-- Start the external sequence (R383, R322); an EXT_ON that was latched is acted on (R387). -/
def State.extStart (s : State) : State :=
  let s := ((s.setPwr { s.pwr with raised := 0, monitors := [], extLatch := false }).showLatch).wr (.pwr .estep) 0 0
  if s.rd (.pwr .nsteps) = 0 then s.extOn
  else if s.isSlave && s.on (.csl .pwrWait) && !s.on (.csl .powerGoSeen) then s.toE 1
  else s.toE 2

/-- Copy the counters to FRAM (R385). -/
def State.startCopy (s : State) : State := s.setPwr { s.pwr with copying := true }

/-- The external sequence is OFF: the orderly off goes on (R385), or a latched EXT_ON acts (R387); while an image is applied it waits
for the new image (R393). -/
def State.extOffNow (s : State) : State :=
  let s := ((s.toE 0).wr (.pwr .estep) 0 0).closeKinds [9]
  let s := s.setPwr { s.pwr with raised := 0, monitors := [] }
  if s.istate = 3 then (if s.on (.pwr .offPend) then s else s.startCopy)
  else if s.istate = 2 ∧ s.pwr.extLatch ∧ s.ldr.st ≠ .applying then s.extStart
  else s

/-- The monitors of external step `i`. -/
def State.stepMonitors (s : State) (i : Nat) : List Nat := (List.range 16).filter fun m => s.rd (.pwr .stepMon) i / 2 ^ m % 2 == 1

/-- Lower the enables of the top step that is raised, or end in OFF (R386); a monitor that no step below watches counts no more
exits (R392). -/
def State.extLower (s : State) : State :=
  match s.pwr.raised with
  | 0 => s.extOffNow
  | n + 1 =>
    let below := (List.range n).flatMap s.stepMonitors
    let p := s.pwr
    (((s.driveStep n false).setPwr { p with raised := n, monitors := p.monitors.filter below.contains }).wr (.pwr .estep) 0 n).toE 5

/-- Power the external sequence down in reverse (R386). -/
def State.extDown (s : State) : State :=
  if s.estate = 0 then s.extOffNow else if s.estate = 5 then s else (s.closeKinds [9]).extLower

/-- Steps 2 to 4 of R385. -/
def State.offProceed (s : State) : State := (s.clr (.pwr .offPend)).extDown

/-- OFF_PEND ends with DISARMING, however that ends (R385). -/
def State.offWaited (s : State) : State := if s.on (.pwr .offPend) && !s.engineArmed then s.offProceed else s

end Sys2Proof.Machine
end

