-- ==== Sys2Proof/Machine/Faults.lean ====
section
/-! DEFINITION. Carabid: reporters and sources (R345 to R348), severities and unit actions (R349 to R351), records (R352 to R357),
isolation and return of units (R358, R359, R410), and the guards that raise sources: handshake watchdogs, core pairs, heartbeat. -/

namespace Sys2Proof.Machine

open Sys2Proof

/-! ### Sources and their units (R345 to R348) -/

/-- The reporter that carries a source: the island whose block raises it. The watchdog, reference and rail sources, and Carabid's
own, come with the control island's word. -/
def reporterOf (src : Nat) : Nat :=
  if 64 ≤ src then (if (src - 64) % 16 = 10 then 5 else 8 + (src - 64) / 16)
  else if src ≤ 3 then 0
  else if src = 21 ∨ src = 51 then 1
  else if src = 16 ∨ src = 17 then 2
  else if 18 ≤ src ∧ src ≤ 20 then 3
  else if (22 ≤ src ∧ src ≤ 27) ∨ (34 ≤ src ∧ src ≤ 41) ∨ src = 46 ∨ src = 47 then 4
  else if 42 ≤ src ∧ src ≤ 45 then 6
  else 5

/-- Indices below `n` at which a bit is set. -/
def onIdx (n : Nat) (p : Nat → Bool) : List Nat := (List.range n).filter p

/-- A pin's wiring flags, PAIR apart (R449, R451). -/
def State.pinFlag (s : State) (n : Nat) : Bool :=
  s.on (.eio .lo) n || s.on (.eio .hi) n || s.on (.eio .openFlag) n || s.on (.eio .overload) n

/-- A monitor whose MON_EN is set lies outside its good range while the external sequence is ON (R391). -/
def State.monBad (s : State) (m : Nat) : Bool := s.on (.pwr .monEn) m && !s.bitOn (.pwr .monOk) m && s.rd (.pwr .estate) == 4

/-- The island of a watchdog source (R14, R348). -/
def watchdogIsland (src : Nat) : Island := [.seq, .host, .mem, .cmp, .mot, .ctl, .csl].getD (src - 4) .seq

/-- Whether a source's condition holds or its event bit is set, with the units that raise it (R347, R348). -/
def State.sourceNow (s : State) (src : Nat) : Bool × List Nat :=
  let flag (b : Bool) : Bool × List Nat := (b, [])
  let units (l : List Nat) : Bool × List Nat := (!l.isEmpty, l)
  if 64 ≤ src then
    let k := (src - 64) / 16
    let b := match (src - 64) % 16 with
      | 0 => s.on (.btu .sosLost) k || ((s.stn k).synSeen && !s.on (.btu .synLock) k)
      | 1 => s.on (.btu .trackClamp) k || s.on (.btu .freqClamp) k
      | 2 => s.on (.btu .phaseEv) k
      | 3 => s.on (.btu .underrun) k
      | 4 => s.on (.blk .lostScan) k || s.on (.blk .cableMismatch) k
      | 5 => s.rd (.blk .lstate) k == 8
      | 6 => s.on (.blk .uncovered) k
      | 7 => s.on (.blk .tempWarn) k
      | 8 => s.on (.blk .tempTrip) k
      | 9 => s.on (.blk .ilkEv) k
      | 10 => s.isolated.contains (.vid k)
      | _ => false
    (b, if b then [k] else [])
  else
    match src with
    | 0 => flag s.cores.haltedA
    | 1 => flag s.cores.haltedB
    | 2 => flag s.cores.service
    | 3 => flag s.cores.heartbeat
    | 11 => flag (!s.on (.rstc .refOk))
    | 12 => units (s.pwr.qualified.filter fun r => !s.bitOn (.pwr .railOk) r)
    | 13 =>
      let l := onIdx 16 s.monBad
      (s.on (.pwr .seqFault) || s.on (.pwr .fallLate) || !l.isEmpty, l)
    | 14 => units (onIdx 16 fun i => s.on (.cal .riseEv) i)
    | 15 => flag (s.on (.cal .calFail))
    | 16 => flag (s.on (.pgs .ueEvent))
    | 17 => flag (s.on (.pgs .deadlock))
    | 18 => units (onIdx 8 fun n => s.on (.cmp .errEv) n)
    | 19 => units ((onIdx 8 fun n => s.on (.cmp .errEv) (8 + n)).map (8 + ·))
    | 20 => units ((onIdx 8 fun n => s.on (.cmp .errEv) (16 + n)).map (16 + ·))
    | 21 => units (onIdx 32 fun n => s.on (.dma .badEv) n || s.on (.dma .fetchErr) n)
    | 22 => units (onIdx 48 fun n => s.on (.mot .devWarnEv) n)
    | 23 => units (onIdx 48 fun n => s.on (.mot .devEv) n)
    | 24 => units (onIdx 48 fun n => s.on (.mot .stallEv) n)
    | 25 => units (onIdx 48 fun n => s.on (.mot .dirErr) n)
    | 26 => units (onIdx 48 fun n => s.on (.mot .encErr) n)
    | 27 => units (onIdx 48 fun n => s.on (.mot .limEv) n)
    | 28 => units (onIdx 128 fun n => s.on (.cle .pfailEv) n)
    | 29 => units (onIdx 128 fun n => s.on (.cle .fbtoEv) n)
    | 30 => units (onIdx 128 fun n => s.on (.cle .satEv) n)
    | 31 => flag (s.on (.fhv .mainsLost))
    | 32 => units (onIdx 8 fun g => s.on (.fhv .otcA) g || s.on (.fhv .otcB) g)
    | 33 => units (onIdx 48 fun c => s.on (.fhv .fbhiTrip) c)
    | 35 => flag (s.on (.pth .misfeed))
    | 39 => flag (s.on (.pth .overspeed))
    | 41 => flag (s.on (.pth .deadline))
    | 42 => flag (s.cslRole != 0 && (s.on (.csl .verErr) || s.on (.csl .posErr) || s.on (.csl .masterConflict) || s.on (.csl .tagErr)))
    | 43 => flag (s.isSlave && s.rd (.csl .tstate) != 3)
    | 44 =>
      let b := s.cslRole != 0 && s.on (.csl .ringDegraded)
      (b, if b then (if s.on (.csl .linkaUp) then [] else [0]) ++ (if s.on (.csl .linkbUp) then [] else [1]) else [])
    | 45 => flag (s.cslRole != 0 && s.on (.csl .partition))
    | 46 => units (onIdx 256 fun n => s.rd (.eio .func) n != 0x60 && s.pinFlag n)
    | 47 => units (onIdx 256 fun n => s.on (.eio .pair) n)
    | 48 => units ((onIdx 256 fun n => s.rd (.eio .func) n == 0x60 && s.pinFlag n).map fun n => n / 64 * 24 + n % 64)
    | 49 => units ((onIdx 16 fun i => s.on (.fhv .tOpen) i || s.on (.fhv .tShort) i) ++
        (onIdx 8 fun i => s.on (.fhv .pOpen) i).map (16 + ·))
    | 50 => (!s.flt.badReporters.isEmpty, s.flt.badReporters)
    | 51 => flag (!s.pcie.linkUp || s.pcie.fatal)
    | n =>
      if 4 ≤ n ∧ n ≤ 10 then flag (s.isolated.contains (watchdogIsland n))
      else
        let b := match n with
          | 34 => s.on (.pth .jam)
          | 36 => s.on (.pth .skewEv)
          | 37 => s.on (.pth .lenEv)
          | 38 => s.on (.pth .stray)
          | 40 => s.on (.pth .webBreak)
          | _ => false
        (b, if b then (s.pth.units.filter fun e => e.1 == n).map (·.2) else [])

/-! ### Severity reactions (R349) -/

/-- Planned axes. -/
def State.plannedAxes (s : State) : List Nat := (List.range s.hw.axes).filter s.planned

/-- Every axis is at rest. -/
def State.axesRest (s : State) : Bool := s.plannedAxes.all fun k => (s.axis k).still

/-- Every slot in MANUAL, AUTO or FALLBACK goes to FAULT. -/
def State.slotsFault (s : State) : State := (List.range s.hw.slots).foldl (fun t n => t.slotFault n false) s

/-- No slot is in MANUAL, AUTO or FALLBACK. -/
def State.slotsDone (s : State) : Bool :=
  (List.range s.hw.slots).all fun n => !(decide (1 ≤ s.slotSt n) && decide (s.slotSt n ≤ 3))

/-- Stop an axis: under DMAX and JMAX, or a quick stop, also while it is in FAULT. A stop of the process axis ends a web sequence,
also where the axis rests or stops already (R298). -/
def State.stopAxis (s : State) (k : Nat) (p : Plan) : State :=
  match s.axSt k with
  | 0 => s
  | 1 => s.webAxisStopped k
  | 5 => if (s.axis k).still || p == .stop then s else s.setAxis k { s.axis k with plan := p }
  | 4 => if p == .stop then s.webAxisStopped k else (s.axStop k p).webAxisStopped k
  | _ => (s.axStop k p).webAxisStopped k

/-- A slot stops with USAFE, also when it was held (R350, R360). -/
def State.slotStopped (s : State) (n : Nat) : State :=
  if s.slotSt n = 4 then (s.setSlot n { s.slot n with held := false }).settleHeaters else s.slotFault n false

/-- The actions that severity `n` adds to those below it (R349). Severity 6 turns the heaters and the high voltage off, also where a
slot was held in FAULT. -/
def State.sevStep (s : State) (n : Nat) : State :=
  match n with
  | 4 => s.disarmNow
  | 5 =>
    let s := (List.range 8).foldl State.blankStation s
    let cs := (s.loam.ctxs.filter fun e => e.2.st == .admitted || e.2.st == .imaging || e.2.st == .stalled).map (·.1)
    let s := cs.foldl (fun t c =>
      let t := t.darkenAll c
      (t.setCtx c { t.ctx c with excused := true }).spoil c 7) s
    if s.web then s.stopAxis s.procAxis .stop else s
  | 6 =>
    let s := s.plannedAxes.foldl (fun t k => t.stopAxis k .quick) s
    let s := (List.range s.hw.slots).foldl State.slotStopped s
    (List.range s.hw.hvs).foldl State.hvHardOff s
  | 7 =>
    let s := (List.range s.hw.axes).foldl (fun t k =>
      if t.axSt k = 0 then t else (((t.axHalt k).clr (.mot .enOut) k).setAxSt k 0).webAxisStopped k) s
    ((List.range 8).foldl (fun t k => t.ldenLow k) s).disarmEnd.offWaited
  | _ => s

/-- The severity rises from `old` to `new` (R349, R352). -/
def State.sevRise (s : State) (old new : Nat) : State :=
  ([4, 5, 6, 7].filter fun n => decide (old < n) && decide (n ≤ new)).foldl State.sevStep s

/-- A committed sheet is still on its way to its output (R349). -/
def State.committedLeft (s : State) : Bool :=
  s.pth.tracks.any fun t => decide (3 ≤ (s.ctx t.ctx).stage) && decide ((s.ctx t.ctx).stage ≤ 4)

/-- Every axis that moves STOPs. -/
def State.stopAll (s : State) : State := s.plannedAxes.foldl (fun t k => t.stopAxis k .stop) s

/-- Slots go to FAULT once every axis is at rest. -/
def State.restThenFault (s : State) : State := if s.axesRest then s.slotsFault else s

/-- The record in REACTING or AWAIT (R362). -/
def State.curRec (s : State) : Option (Nat × FltRec) := s.flt.records.find? fun e => e.2.st == 1 || e.2.st == 2

/-- The later actions of a running reaction, as their moments come (R349). -/
def State.reactOn (s : State) : State :=
  match s.curRec with
  | none => s
  | some e =>
    match e.2.sev with
    | 4 => if s.engineArmed then s else s.stopAll.restThenFault
    | 5 =>
      if s.web then (if (s.axis s.procAxis).still then s.stopAll.restThenFault else s)
      else if s.committedLeft then s
      else s.stopAll.restThenFault
    | _ => s

/-- The reaction of severity `sev` is complete (R349). -/
def State.reactDone (s : State) (sev : Nat) : Bool :=
  match sev with
  | 4 => !s.engineArmed && s.axesRest && s.slotsDone
  | 5 => (s.web || !s.committedLeft) && s.axesRest && s.slotsDone
  | 6 => s.axesRest
  | _ => true

/-- PLANNER_TICK (R208, R282, R283, R296, R298), with the running reaction (R349). -/
def execPlannerTick (overrun : Option Nat) (s : State) : Res := guardWF true (plannerTick overrun s).reactOn

/-! ### Unit actions (R350) -/

/-- One unit action on one unit; a unit that is isolated already is not affected (R350, R360). The flags of a driven pin end with the
drive (R467). -/
def State.unitAction (s : State) (kind : UnitKind) (u act : Nat) : State :=
  match kind, act with
  | _, 0 => s
  | .axis, a =>
    if s.flt.isolated.contains (.axis u) then s
    else
      match a with
      | 3 => s.axisFault u 1
      | 4 => s.axisFault u 2
      | 5 => s.isolateUnit (.axis u)
      | _ => s.axisFault u 0
  | .slot, a =>
    if s.flt.isolated.contains (.slot u) then s
    else
      match a with
      | 1 => s.slotFault u true
      | 5 => s.isolateUnit (.slot u)
      | _ => s.slotStopped u
  | .station, a =>
    if s.flt.isolated.contains (.station u) then s
    else
      match a with
      | 1 => s.setLnk u { s.lnk u with held := true }
      | 5 => s.isolateUnit (.station u)
      | _ => s.spoilStation u 7
  | .engine, a => if a = 1 ∨ s.flt.isolated.contains (.engine u) then s else s.isolateUnit (.engine u)
  | .gate, a => if a = 1 then s else s.setGate u false
  | .hv, a => if a = 1 then s else s.hvHardOff u
  | .dma, a => if a = 2 then dmaStop u s else s
  | .pin, a =>
    if a = 1 ∨ s.eio.off.contains u then s
    else
      let s := if drives (s.rd (.eio .func) u) then (s.clr (.eio .lo) u).clr (.eio .hi) u else s
      ({ s with eio := { s.eio with off := u :: s.eio.off } }).emit (.pin (eioOut u) false)
  | .none, _ => s

/-- The unit of a source as a wrapper knows it. -/
def wrapperUnit (kind : UnitKind) (u : Nat) : Option UnitId :=
  match kind with
  | .axis => some (.axis u)
  | .slot => some (.slot u)
  | .station => some (.station u)
  | .engine => some (.engine u)
  | _ => none

/-- A new raise that names a unit ends its return (R360). -/
def State.returnCancelled (s : State) (kind : UnitKind) (u : Nat) : State :=
  match wrapperUnit kind u with
  | some w =>
    let f := s.flt
    { s with flt := { f with retpend := f.retpend.erase w, resetting := f.resetting.erase w, checking := f.checking.erase w } }
  | none => s

/-- A source's unit mask. -/
def State.unitMask (s : State) (src : Nat) : List Nat := Store.get [] src s.flt.units

/-- Set a source's unit mask. -/
def State.setMask (s : State) (src : Nat) (l : List Nat) : State :=
  { s with flt := { s.flt with units := Store.set id [] src l s.flt.units } }

/-- A source's severity, unit action and mode, as configured. -/
def State.srcSev (s : State) (n : Nat) : Nat := s.rd (.flt .sev) n
def State.srcAct (s : State) (n : Nat) : Nat := s.rd (.flt .uact) n
def State.srcHost (s : State) (n : Nat) : Bool := s.on (.flt .mode) n

/-- A source's configured unit action on units. -/
def State.actOn (s : State) (src act : Nat) (us : List Nat) : State :=
  us.foldl (fun t u => t.unitAction (srcUnitKind src) u act) s

/-- A record that is not FREE holds a source. -/
def State.heldByRecord (s : State) (src : Nat) : Bool := s.flt.records.any fun e => e.2.st != 0 && e.2.srcs.contains src

/-- Masks of inactive sources that no record holds are emptied; pins and stations they held are let go (R350, R357, R452). -/
def State.trimMasks (s : State) : State :=
  let keep := s.flt.units.filter fun e => s.flt.active.contains e.1 || s.heldByRecord e.1
  let s := { s with flt := { s.flt with units := keep } }
  let off := s.eio.off.filter fun n => (s.unitMask 46).contains n || (s.unitMask 47).contains n
  let s := { s with eio := { s.eio with off := off } }
  (List.range 8).foldl (fun t k =>
    if (t.lnk k).held && (List.range 11).all fun i => (t.unitMask (64 + 16 * k + i)).isEmpty then
      t.setLnk k { t.lnk k with held := false }
    else t) s

/-! ### Activations and records (R352, R353) -/

/-- Record `r`. -/
def State.fltRec (s : State) (r : Nat) : FltRec := Store.get {} r s.flt.records

/-- Change record `r`. -/
def State.setRec (s : State) (r : Nat) (x : FltRec) : State :=
  { s with flt := { s.flt with records := Store.set id {} r x s.flt.records } }

/-- Carabid's message (R351, R353). -/
def State.fltMessage (s : State) : State := s.msix (s.rd (.flt .vector))

/-- Post an AWAIT record (R353, R434). -/
def State.postRecord (s : State) (r : Nat) : State :=
  let x := s.fltRec r
  let map (i : Nat) : Nat := (x.srcs.map fun n => if n / 32 = i then 2 ^ (n % 32) else 0).sum
  s.post 5 r ([x.first, x.sev] ++ leBytes (min 65535 x.cnt) 2 ++ (List.range 6).flatMap fun i => leBytes (map i) 4)

/-- The lowest FREE record, if one is (R352). -/
def State.freeRec (s : State) : Option Nat := (List.range 32).find? fun r => (s.fltRec r).st == 0

/-- The newest record: the highest FLT_REC_SEQ. -/
def State.newestRec (s : State) : Nat :=
  (s.flt.records.foldl (fun (b : Nat × Nat) e => if b.2 < e.2.seq then (e.1, e.2.seq) else b) (0, 0)).1

/-- Insert into an ascending list without repeats. -/
def addSrc (n : Nat) : List Nat → List Nat
  | [] => [n]
  | m :: t => if n < m then n :: m :: t else if n = m then m :: t else m :: addSrc n t

/-- Merge an activation into record `r` (R352). -/
def State.mergeRec (s : State) (r sev : Nat) (srcs : List Nat) : State :=
  let x := s.fltRec r
  let s := s.setRec r { x with
    cnt := min 65535 (x.cnt + 1)
    srcs := srcs.foldl (fun l n => addSrc n l) x.srcs
    sev := max x.sev sev }
  s.sevRise x.sev (max x.sev sev)

/-- Open record `r` with an activation (R352, R353). -/
def State.openRec (s : State) (r sev : Nat) (await : Bool) (srcs : List Nat) : State :=
  let n := s.flt.opened + 1
  let s := { s with flt := { s.flt with opened := n } }
  let srcs := srcs.foldl (fun l n => addSrc n l) []
  let s := s.setRec r { st := if await then 2 else 1, sev := sev, first := srcs.headD 0, cnt := 1, seq := n,
                        tFirst := s.etime, srcs := srcs }
  let s := s.sevRise 0 sev
  if await then s.postRecord r else s

/-- The severity at which a host-assisted source is held until the answer: 3 (R353, R354), but never one that stops admission for a
fault of the service core (R20, log 149). -/
def heldSev (n : Nat) : Nat := min 3 (srcRow n).hi

/-- An activation: the sources that became active together (R352 to R354). -/
def State.activation (s : State) (srcs : List Nat) : State :=
  let s := srcs.foldl (fun t n => t.count (.flt .srccnt) n) s
  let live := srcs.filter fun n => s.srcSev n != 0
  if live.isEmpty then s
  else
    let host := live.filter s.srcHost
    let hw := live.filter fun n => !s.srcHost n
    let sev := listMax (hw.map s.srcSev ++ host.map heldSev)
    let s := match s.curRec with
      | some e => s.mergeRec e.1 sev live
      | none =>
        match s.freeRec with
        | some r => s.openRec r sev (!host.isEmpty) live
        | none =>
          let r := s.newestRec
          let x := s.fltRec r
          let s := (s.ev (.flt .overflow)).setRec r { x with st := 1, tDone := 0 }
          s.mergeRec r sev live
    let s := hw.foldl (fun t n => t.actOn n (t.srcAct n) (t.unitMask n)) s
    s.fltMessage.reactOn

/-- New units of a source that is active already: they join its mask and meet its unit action (R357). -/
def State.furtherUnits (s : State) (src : Nat) (us : List Nat) : State :=
  let new := us.filter fun u => !(s.unitMask src).contains u
  if new.isEmpty then s
  else
    let s := s.setMask src (s.unitMask src ++ new)
    let s := new.foldl (fun t u => t.returnCancelled (srcUnitKind src) u) s
    let waits := s.srcHost src && s.flt.records.any fun e => e.2.st == 2 && e.2.srcs.contains src
    if waits || s.srcSev src == 0 then s else s.actOn src (s.srcAct src) new

/-- Carabid evaluates reported sources: number, state, units (R352, R357). -/
def State.evaluate (s : State) (l : List (Nat × Bool × List Nat)) : State :=
  let was := s.flt.active
  let started := (l.filter fun e => e.2.1 && !was.contains e.1)
  let s := (l.filter fun e => e.2.1 && was.contains e.1).foldl (fun t e => t.furtherUnits e.1 e.2.2) s
  let ended := (l.filter fun e => !e.2.1).map (·.1)
  let active := started.foldl (fun a e => addSrc e.1 a) (s.flt.active.filter fun n => !ended.contains n)
  let s := { s with flt := { s.flt with active := active } }
  let s := started.foldl (fun t e =>
    let t := t.setMask e.1 ((t.unitMask e.1) ++ e.2.2.filter fun u => !(t.unitMask e.1).contains u)
    e.2.2.foldl (fun t u => t.returnCancelled (srcUnitKind e.1) u) t) s
  (if started.isEmpty then s else s.activation (started.map (·.1))).trimMasks

/-! ### Reporters (R345, R346) -/

/-- The sources that exist on this module (R348). -/
def State.sourceList (s : State) : List Nat :=
  (List.range 52) ++ (List.range (s.hw.sources - 64)).filterMap fun i => if i % 16 ≤ 10 then some (64 + i) else none

/-- The island of a reporter. -/
def reporterIsland (r : Nat) : Island :=
  if 8 ≤ r then .vid (r - 8) else [.seq, .host, .mem, .cmp, .mot, .ctl, .csl].getD r .seq

/-- The reporter's island is neither in reset nor isolated (R346). -/
def State.reports (s : State) (r : Nat) : Bool :=
  if 8 ≤ r then s.vidUp (r - 8) else r != 7 && s.up (islandDom (reporterIsland r))

/-- What FLT_WIRE shows (R346). -/
def State.wireSource (s : State) : Nat × Bool × List Nat := (50, (s.sourceNow 50))

/-- FAULT_REPORT_WORD (R345, R346): a word of reporter `r`. The pairs listed are as given, every other source of the reporter
as its condition or event bit stands. -/
def faultReportWord (r : Nat) (word : List (Nat × Rails)) (s : State) : State :=
  if !s.up .ctl || !s.reports r then s
  else
    let pairs := word.filter fun e => reporterOf e.1 == r
    let bad := pairs.any fun e => e.2 == .r00 || e.2 == .r11
    let f := s.flt
    let bads := if bad then addSrc r f.badReporters else f.badReporters.erase r
    let s := { s with flt := { f with badReporters := bads } }
    let l := (s.sourceList.filter fun n => reporterOf n == r && n != 50).map fun n =>
      let now := s.sourceNow n
      match pairs.find? fun e => e.1 == n with
      | some e => (n, e.2 != .r01, now.2)
      | none => (n, now)
    s.evaluate (l ++ [s.wireSource])

def execFaultReportWord (r : Nat) (word : List (Nat × Rails)) (s : State) : Res :=
  guardWF (decide (r < 16) && r != 7) (faultReportWord r word s)

/-- REPORTER_TIMEOUT (R346): every source of a silent reporter counts as active. -/
def reporterTimeout (r : Nat) (s : State) : State :=
  if !s.up .ctl || !s.reports r then s
  else
    let s := { s with flt := { s.flt with badReporters := addSrc r s.flt.badReporters } }
    let l := (s.sourceList.filter fun n => reporterOf n == r && n != 50).map fun n => (n, true, (s.sourceNow n).2)
    s.evaluate (l ++ [s.wireSource])

def execReporterTimeout (r : Nat) (s : State) : Res := guardWF (decide (r < 16) && r != 7) (reporterTimeout r s)

/-- REACTION_COMPLETE (R353): the record becomes COMPLETE, is queued and sends its message. -/
def reactionComplete (r : Nat) (s : State) : State :=
  let s := if s.up .ctl then s.reactOn else s
  let x := s.fltRec r
  if s.up .ctl && x.st == 1 && s.reactDone x.sev then
    let x := { x with st := 3, tDone := s.etime }
    let s := s.setRec r x
    let s := if s.flt.queue.length < 64 then { s with flt := { s.flt with queue := s.flt.queue ++ [x] } } else s.ev (.flt .queueLost)
    s.fltMessage
  else s

def execReactionComplete (r : Nat) (s : State) : Res := guardWF (decide (r < 32)) (reactionComplete r s)

/-! ### Host commands (R355, R356, R358, R359) -/

/-- FLT_CLEAR (R356). -/
def fltClear (v : Word) (s : State) : State :=
  let r := v.toNat % 32
  let x := s.fltRec r
  if !s.up .ctl then s
  else if x.st == 3 && !(x.srcs.any fun n => s.flt.active.contains n) then (s.setRec r {}).trimMasks
  else s.ev (.flt .clrRefused)

def execFltClear (v : Word) (s : State) : Res := guardWF true (s.hostWrite .flt 0 fun s =>
    fltClear v s)

/-- An answer to record `r` (R355); for the service core alone it does not go above that source's range (R20, log 149). -/
def State.answerRecord (s : State) (r sev act : Nat) : State :=
  let x := s.fltRec r
  if x.st = 2 then
    let floor := listMax (x.srcs.map fun n => if s.srcHost n then (srcRow n).lo else s.srcSev n)
    let cap := listMax ((x.srcs.filter s.srcHost).map fun n => (srcRow n).hi)
    let applied := max (min sev cap) floor
    let s := (s.setRec r { x with
      st := 1, sev := applied, ansSev := sev, ansUact := act, answered := true, clamped := decide (sev < applied) }).closeDecision 5 r
    let s := s.sevRise x.sev applied
    let s := (x.srcs.filter s.srcHost).foldl (fun t n =>
      if (uactSet (srcUnitKind n)).contains act then t.actOn n act (t.unitMask n) else t) s
    s.reactOn
  else s.ev (.flt .ansRefused)

/-- FLT_ANSWER (R355). -/
def execFltAnswer (v : Word) (s : State) : Res :=
  guardWF true (s.hostWrite .flt 0 fun s =>
    if s.up .ctl then s.answerRecord (v.toNat % 32) (bitField v.toNat 8 3) (bitField v.toNat 12 3) else s)

/-- The unit that an FLT_UNITCMD write names (R362). -/
def unitOf (v : Word) : Option UnitId :=
  let n := bitField v.toNat 8 7
  match v.toNat % 8 with
  | 1 => some (.engine n)
  | 2 => some (.axis n)
  | 3 => some (.slot n)
  | 4 => some (.station n)
  | _ => none

/-- The unit is populated (R2). -/
def Hardware.hasUnit (h : Hardware) : UnitId → Bool
  | .engine n => h.engine n
  | .axis n => decide (n < h.axes)
  | .slot n => decide (n < h.slots)
  | .station n => decide (n < h.stations)

/-- Refuse a unit command. -/
def State.unitRefuse (s : State) : State := s.ev (.flt .unitRefused)

/-- ISOLATE (R358). -/
def isolateCmd (v : Word) (s : State) : State :=
  match unitOf v with
  | none => s
  | some u =>
    if !s.up .ctl then s
    else if !s.on (.glb .expert) || !s.hw.hasUnit u then s.unitRefuse
    else if s.flt.isolated.contains u then
      let f := s.flt
      { s with flt := { f with retpend := f.retpend.erase u } }
    else s.isolateUnit u

def execIsolate (v : Word) (s : State) : Res := guardWF (bitField v.toNat 16 2 == 1) (s.hostWrite .flt 0 fun s =>
    isolateCmd v s)

/-- The unit number inside its kind, and the kind of its sources. -/
def unitKey : UnitId → UnitKind × Nat
  | .engine n => (.engine, n)
  | .axis n => (.axis, n)
  | .slot n => (.slot, n)
  | .station n => (.station, n)

/-- A source whose unit mask holds the unit is active (R359). -/
def State.unitBlamed (s : State) (u : UnitId) : Bool :=
  s.flt.active.any fun n => srcUnitKind n == (unitKey u).1 && (s.unitMask n).contains (unitKey u).2


/-- RETURN (R359, R410): the single-block reset begins, anew where a return is under way (log 117). -/
def returnCmd (v : Word) (s : State) : State :=
  match unitOf v with
  | none => s
  | some u =>
    if !s.up .ctl then s
    else if !s.flt.isolated.contains u || s.unitBlamed u then s.unitRefuse
    else
      let f := s.flt
      let s := { s with flt := { f with
        resetting := u :: f.resetting.erase u, checking := f.checking.erase u, retpend := f.retpend.erase u } }
      (s.unitReset u).sourceAssert 11

def execReturnUnit (v : Word) (s : State) : Res := guardWF (bitField v.toNat 16 2 == 2) (s.hostWrite .flt 0 fun s =>
    returnCmd v s)

/-- RETPEND is set; with no page active every moment is a boundary. -/
def State.returnPending (s : State) (u : UnitId) : State :=
  let f := s.flt
  let s := { s with flt := { f with retpend := f.retpend.erase u ++ [u] } }
  if s.pageActive then s else s.unitService u

/-- UNIT_RESET_RELEASE (R408, R410): the configuration is restored and the unit's own check begins; an axis and a slot have
none. -/
def unitResetRelease (u : UnitId) (s : State) : State :=
  if s.up .ctl && s.flt.resetting.contains u then
    let f := s.flt
    let s := { s with flt := { f with resetting := f.resetting.erase u } }
    let s := if s.flt.resetting.isEmpty then s.sourceDeassert 11 else s
    let s := s.unitRestore u
    match u with
    | .engine _ => { s with flt := { s.flt with checking := u :: s.flt.checking } }
    | .station k => ({ s with flt := { s.flt with checking := u :: s.flt.checking } }).recalRequest k
    | _ => s.returnPending u
  else s

def unitOk : UnitId → Bool
  | .engine n => decide (n < 24)
  | .axis n => decide (n < 48)
  | .slot n => decide (n < 128)
  | .station n => decide (n < 8)

def execUnitResetRelease (u : UnitId) (s : State) : Res := guardWF (unitOk u) (unitResetRelease u s)

/-- UNIT_CHECK_DONE (R359): RETPEND, or the unit stays isolated and its source is raised. -/
def unitCheckDone (u : UnitId) (ok : Bool) (s : State) : State :=
  if s.up .ctl && s.flt.checking.contains u then
    let f := s.flt
    let s := { s with flt := { f with checking := f.checking.erase u } }
    match u with
    | .engine n => if ok then s.returnPending u else s.ev (.cmp .errEv) n
    | .station k =>
      let s := recalDone k ok s
      if ok then s.returnPending u else s
    | _ => s.returnPending u
  else s

def execUnitCheckDone (u : UnitId) (ok : Bool) (s : State) : Res := guardWF (unitOk u) (unitCheckDone u ok s)

/-! ### Guards (R14, R18 to R21) -/

/-- What an island's isolation does to work in progress (R13, R14, R340). -/
def State.islandLost (s : State) (i : Island) : State :=
  match i with
  | .host => s.idleChannels
  | .cmp => (List.range 24).foldl (fun t n => t.engineLost n 7) s
  | .mem =>
    let s := (List.range 8).foldl (fun t l => (t.compressorLost l).imagerLost l) s
    (List.range 24).foldl State.jobCut s
  | .vid k => s.stationIsolate k
  | _ => s

/-- HANDSHAKE_WATCHDOG_EXPIRY (R14): the silent island is isolated. For the control island the supervisor takes over (R351): it
applies severity 7, keeps AON_TAKEOVER and asserts reset source 7. -/
def handshakeWatchdog (i : Island) (s : State) : State :=
  if s.inReset.contains (islandDom i) || s.isolated.contains i then s
  else
    let s := s.islandLost i
    let s := { s with isolated := i :: s.isolated }
    match i with
    | .ctl =>
      let s := [4, 5, 6, 7].foldl State.sevStep s
      ({ s with flt := { s.flt with aonTakeover := true } }).sourceAssert 7
    | _ => s

def islandOk (h : Hardware) : Island → Bool
  | .vid k => decide (k < h.stations)
  | _ => true

def execHandshakeWatchdogExpiry (i : Island) (s : State) : Res := guardWF (islandOk s.hw i) (handshakeWatchdog i s)

/-- A core pair halts (R18). -/
def State.haltPair (s : State) (p : CorePair) : State :=
  if !s.up .seq then s
  else
    match p with
    | .a => { s with cores := { s.cores with haltedA := true } }
    | .b => { s with cores := { s.cores with haltedB := true } }

/-- PAIR_MISMATCH and PAIR_WATCHDOG_EXPIRY (R18). -/
def execPairMismatch (p : CorePair) (s : State) : Res := guardWF true (s.haltPair p)
def execPairWatchdogExpiry (p : CorePair) (s : State) : Res := guardWF true (s.haltPair p)

/-- SERVICE_CORE_FAULT (R20). -/
def execServiceCoreFault (s : State) : Res :=
  guardWF true (if s.up .seq then { s with cores := { s.cores with service := true } } else s)

/-- HEARTBEAT_EXPIRY (R21): while ENGINE_ARMED is high, HOST_LOST becomes active. -/
def execHeartbeatExpiry (s : State) : Res :=
  guardWF true (if s.up .seq && s.engineArmed then { s with cores := { s.cores with heartbeat := true } } else s)

end Sys2Proof.Machine
end

