-- ==== Sys2Proof/Machine/Power.lean ====
section
/-! DEFINITION. The always-on supervisor: the on-module sequence and the steps of the external one (R378 to R388), input collapse and the
first-failure log (R389, R390), window changes and counters (R391, R392), and the reset of AON (R400, R403). -/

namespace Sys2Proof.Machine

open Sys2Proof

/-! ### Order and counters -/

/-- The switched on-module rails in step order (R378). -/
def railOrder : List Nat := [9, 8, 4, 1, 2, 3, 5, 6, 7, 10, 11]

/-- The rail after `r` in a list. -/
def railAfter (r : Nat) : List Nat → Option Nat
  | [] => none
  | [_] => none
  | a :: b :: t => if a = r then some b else railAfter r (b :: t)

/-- The rail of the next step, and of the one before (R378). -/
def nextRail (r : Nat) : Option Nat := railAfter r railOrder
def prevRail (r : Nat) : Option Nat := railAfter r railOrder.reverse

/-- Step number of a rail. -/
def railStep (r : Nat) : Nat := railOrder.idxOf r + 1

/-- Count in PWR_RCNT (R392). -/
def State.rcount (s : State) (n : Nat) : State := s.count (.pwr .rcnt) n

/-! ### First-failure log (R390) -/

/-- SEQNO of a log slot; `none` if it is not valid. -/
def LogSlot.seqno (x : LogSlot) : Option Nat :=
  if x.torn then none else some (leNat ((x.bytes.take 4).map fun b => BitVec.ofNat 8 b))

/-- The larger of two optional sequence numbers; 0 when neither is there. -/
def seqMax (a b : Option Nat) : Nat := max (a.getD 0) (b.getD 0)

/-- The slot or copy to write: the one that does not hold the valid entry with the higher number; 0 where neither is valid. -/
def otherSlot (a b : Option Nat) : Nat :=
  match a, b with
  | some x, some y => if y ≤ x then 1 else 0
  | some _, none => 1
  | none, _ => 0

/-- The external monitors and the enables that are raised, as the log shows them. -/
def State.extWord (s : State) : Nat :=
  let en := (List.range 8).filter fun e => (List.range s.pwr.raised).any fun i => s.rd (.pwr .stepEn) i / 2 ^ e % 2 == 1
  s.rd (.pwr .monOk) + (en.map fun e => 2 ^ (16 + e)).sum

/-- `n` fresh open bytes (log 2). -/
def State.freshBytes (s : State) : Nat → List Nat × State
  | 0 => ([], s)
  | n + 1 =>
    let q := s.fresh 8
    let r := q.2.freshBytes n
    (q.1 :: r.1, r.2)

/-- The input voltage in 10 mV, where the event carries it. -/
def State.vinBytes (s : State) : Option Nat → List Nat × State
  | some mv => (leBytes (mv / 10 % 65536) 2, s)
  | none => s.freshBytes 2

/-- The body of a log entry, 56 bytes (R390). Measured voltages and the seconds since the episode began are open values. -/
def State.logBody (s : State) (cause rail : Nat) (vin : Option Nat) : List Nat × State :=
  let seqno := seqMax s.fram.log0.seqno s.fram.log1.seqno + 1
  let step := (railStep (s.rd (.pwr .irail))) % 16 + 16 * (s.rd (.pwr .estep) % 16)
  let states := s.istate + 8 * s.estate
  let et := if s.inReset.contains .seq then 0 else s.etime
  let v := s.vinBytes vin
  let r := v.2.freshBytes 24
  let u := r.2.freshBytes 4
  (leBytes (seqno % 2 ^ 32) 4 ++ [cause, rail, step, states] ++ leBytes et 8 ++ v.1 ++ [0, 0] ++ r.1 ++
    leBytes s.extWord 4 ++ u.1 ++ leBytes (s.rd (.cal .temp) 13) 2 ++ [0, 0], u.2)

/-- Start the log write of this episode, if it is the first event (R390). -/
def State.logFail (s : State) (cause rail : Nat) (vin : Option Nat) : State :=
  if s.pwr.logDone then s
  else
    let slot := otherSlot s.fram.log0.seqno s.fram.log1.seqno
    let q := s.logBody cause rail vin
    let s := q.2
    let bytes := q.1 ++ leBytes (crc32c (q.1.map fun b => BitVec.ofNat 8 b)) 4 ++ leBytes 0xA5C3 4
    let f := s.fram
    let f := if slot = 0 then { f with log0 := {} } else { f with log1 := {} }
    { s with fram := f, pwr := { s.pwr with logDone := true, log := some (slot, bytes) } }

/-- LOG_COMMIT (R390): the slot is committed, or the write is abandoned. -/
def logCommit (committed : Bool) (s : State) : State :=
  match s.pwr.log with
  | none => s
  | some (slot, bytes) =>
    let x : LogSlot := { bytes := bytes, torn := false }
    let f := s.fram
    let f := if !committed then f else if slot = 0 then { f with log0 := x } else { f with log1 := x }
    { s with fram := f, pwr := { s.pwr with log := none } }

def execLogCommit (committed : Bool) (s : State) : Res := guardWF true (logCommit committed s)

/-! ### External sequence (R383, R384) -/

/-- Raise the enables of the present step. -/
def State.extRaise (s : State) : State :=
  let i := s.rd (.pwr .estep)
  ((s.driveStep i true).setPwr { s.pwr with raised := i + 1 }).toE 2

/-- EXT_STEP_ENABLE (R383, R384). -/
def extStepEnable (s : State) : State :=
  let i := s.rd (.pwr .estep)
  if s.estate = 2 ∧ s.pwr.raised = i ∧ i < s.rd (.pwr .nsteps) then
    if s.on (.pwr .mode) then (s.toE 3).post 9 i (s.rd (.pwr .stepEn) i :: leBytes (s.rd (.pwr .stepMon) i) 2)
    else s.extRaise
  else s

def execExtStepEnable (s : State) : Res := guardWF true (extStepEnable s)

/-- The present external step qualifies (R383). -/
def State.extQualified (s : State) : State :=
  let i := s.rd (.pwr .estep)
  if s.estate = 2 ∧ s.pwr.raised = i + 1 then
    let ms := s.stepMonitors i
    let s := ms.foldl (fun t m => t.setBit (.pwr .monOk) m true) s
    let s := s.setPwr { s.pwr with monitors := ms ++ s.pwr.monitors.filter fun m => !ms.contains m }
    let s := s.wr (.pwr .estep) 0 (i + 1)
    if s.rd (.pwr .nsteps) ≤ i + 1 then s.extOn else s
  else s

/-! ### On-module sequence (R382, R385 to R388) -/

/-- The conditions of R382 hold: the first rail is enabled; a new power episode begins (R390). -/
def State.powerStart (s : State) : State :=
  if s.istate = 0 ∧ s.pwr.vinOk ∧ s.on (.pwr .pwrOn) ∧ !s.pwr.fault then
    let p := s.pwr
    let s := s.setPwr { p with onLatch := false, extLatch := false, logDone := false, log := none, goSent := false }
    ((s.wr (.pwr .irail) 0 9).toI 1).showLatch
  else s

/-- Rail `r` is switched off (R386): it is no qualified rail from then on (R388, R391). -/
def State.railOff (s : State) (r : Nat) : State :=
  (s.setPwr { s.pwr with qualified := s.pwr.qualified.erase r }).wr (.pwr .irail) 0 r

/-- The rails power down in reverse from the present one; domains 1 to 8 are in reset and Loam loses its contents (R385, R401). -/
def State.railsDown (s : State) : State :=
  let s := s.setPwr { s.pwr with copying := false }
  let s := s.railOff (if s.istate = 1 then s.rd (.pwr .irail) else 11)
  let s := (s.clr (.pwr .offPend)).toI 4
  let s := if s.rst.asserted.contains 2 then s else s.sourceAssert 2
  { s with loam := {} }

/-- An orderly off from ON (R385). -/
def State.orderlyOff (s : State) : State :=
  let s := (s.toI 3).disarmNow
  if s.engineArmed then s.ev (.pwr .offPend) else s.offProceed

/-- An off request: orderly from ON, at once while powering up (R385, R387). -/
def State.offRequest (s : State) : State :=
  match s.istate with
  | 1 => s.railsDown
  | 2 => s.orderlyOff
  | _ => s

/-- An on request (R387, R388): it starts the sequence, or is latched during power-down. -/
def State.onRequest (s : State) : State :=
  let s := s.setPwr { s.pwr with fault := false }
  if s.istate = 3 ∨ s.istate = 4 then (s.setPwr { s.pwr with onLatch := true }).showLatch else s.powerStart

/-- VIN_QUALIFIED (R382). -/
def execVinQualified (s : State) : Res := guardWF true (s.setPwr { s.pwr with vinOk := true, fault := false }).powerStart

/-- PWR_ON_CHANGE (R382, R385, R387). -/
def execPwrOnChange (high : Bool) (s : State) : Res :=
  let t := s.wrB (.pwr .pwrOn) 0 high
  guardWF true (if high then t.onRequest else t.offRequest)

/-! ### Option bytes and counters (R392, R411) -/

/-- SEQNO of an option byte copy; `none` if it is not valid (R411). -/
def obSeqno (l : List Nat) : Option Nat :=
  let b := l.map fun n => BitVec.ofNat 8 n
  if l.length = 64 ∧ l.take 3 = [0x4F, 0x50, 1] ∧ leNat ((b.drop 60).take 4) = crc32c (b.take 60) then
    some (leNat ((b.drop 56).take 4))
  else none

/-- The default option bytes (R411). -/
def obDefault : List Nat := [0x4F, 0x50, 1, 0x0D, 2, 1, 1, 2] ++ List.replicate 56 0

/-- The reader of R411. -/
def State.readOptions (s : State) : State :=
  let a := obSeqno s.fram.ob0
  let b := obSeqno s.fram.ob1
  let slot : Option Nat := match a, b with
    | none, none => none
    | some _, none => some 0
    | none, some _ => some 1
    | some x, some y => some (if x < y then 1 else 0)
  let bytes := match slot with
    | some 0 => s.fram.ob0
    | some _ => s.fram.ob1
    | none => obDefault
  let s := (List.range 16).foldl (fun t w =>
    t.wr (.rstc .ob) w (leNat (((bytes.drop (4 * w)).take 4).map fun n => BitVec.ofNat 8 n))) s
  let s := (s.wrB (.rstc .obBad) 0 slot.isNone).wr (.rstc .obSlot) 0 (slot.getD 0)
  { s with rst := { s.rst with obRead := true } }

/-- VIO33 has qualified: the counters are loaded, and after a reset that reached AON the option bytes are read (R382, R411). -/
def State.vio33Up (s : State) : State :=
  let c := s.fram.counters
  let s := (List.range 28).foldl (fun t n => t.wr (.pwr .rcnt) n (c.getD n 0)) s
  let s := s.wrB (.pwr .cntBad) 0 (c.length != 28)
  if s.rst.obRead then s else s.readOptions

/-- The present rail qualifies: the next one is enabled, or the sequence is ON and source 2 ends (R382, R401). -/
def State.railQualified (s : State) (r : Nat) : State :=
  if s.istate = 1 ∧ s.rd (.pwr .irail) = r then
    let s := s.setPwr { s.pwr with qualified := r :: s.pwr.qualified.erase r }
    let s := s.setBit (.pwr .railOk) r true
    let s := if r = 9 then s.vio33Up else s
    match nextRail r with
    | some n => s.wr (.pwr .irail) 0 n
    | none => (s.toI 2).sourceDeassert 2
  else s

/-- RAIL_QUALIFIED (R381 to R383). -/
def execRailQualified (r : RailId) (s : State) : Res :=
  match r with
  | .rail n => guardWF (railOrder.contains n) (s.railQualified n)
  | .extStep => guardWF true s.extQualified

/-- The unit of a log entry for an external step with the failing monitors `ms`: the lowest of them (R390, log 152). -/
def monitorUnit : List Nat → Nat
  | m :: _ => 16 + m
  | [] => 0xFF

/-- The monitors of external step `i` to which a timeout is charged (R392): those outside their good range. Where all of them lie in
it, which one has not kept it for 200 µs is open: a free value (log 2, log 152). -/
def State.lateMonitors (s : State) (i : Nat) : List Nat × State :=
  let all := s.stepMonitors i
  match all.filter fun m => !s.bitOn (.pwr .monOk) m with
  | [] =>
    let q := s.fresh 4
    ((all[q.1 % all.length]?).toList, q.2)
  | l => (l, s)

/-- A sequencing fault (R388). -/
def railTimeout (r : RailId) (s : State) : State :=
  match r with
  | .rail n =>
    if s.istate = 1 ∧ s.rd (.pwr .irail) = n then
      let s := (s.rcount n).logFail 2 n none
      (s.setPwr { s.pwr with fault := true }).railsDown
    else s
  | .extStep =>
    let i := s.rd (.pwr .estep)
    if s.estate = 2 ∧ s.pwr.raised = i + 1 then
      let q := s.lateMonitors i
      let s := (q.1.foldl (fun t m => t.rcount (12 + m)) q.2).logFail 3 (monitorUnit q.1) none
      (s.ev (.pwr .seqFault)).extDown
    else s

def railIdOk : RailId → Bool
  | .rail n => railOrder.contains n
  | .extStep => true

def execRailTimeout (r : RailId) (s : State) : Res := guardWF (railIdOk r) (railTimeout r s)

/-! ### Power-down -/

/-- The reset of AON (R400, R403): everything but what is fixed, fused or held in flash and FRAM returns to its reset state.
Sources that are still asserted stay so; `por`: the supervisor itself lost its supply. -/
def State.aonReset (s : State) (por : Bool) : State :=
  let keep : List Nat := s.rst.asserted.filter fun n => 3 ≤ n
  let src : List Nat := if por then [0] else if s.pwr.coldCmd then [1] else []
  let last := if por then [0, 2] else src ++ [2] ++ (s.rst.last.filter fun n => 3 ≤ n)
  let t : State := { State.reset with
    hw := s.hw
    fuses := s.fuses
    pending := s.pending
    out := s.out
    free := s.free
    ldr := { flash0 := s.ldr.flash0, flash1 := s.ldr.flash1 }
    pwr := { vinOk := !por && s.pwr.vinOk }
    fram := s.fram
    rst := { asserted := src ++ [2] ++ keep, last := last }
    eio := { boundary := s.eio.boundary } }
  (t.wrB (.pwr .pwrOn) 0 (!por && s.on (.pwr .pwrOn))).showReset

/-- The last rail has fallen: OFF; a reset of reach 3 takes AON, and a latched on request starts the sequence (R387, R403). -/
def State.moduleOff (s : State) : State :=
  let latch := s.pwr.onLatch
  let s := s.toI 0
  let s := if s.pwr.cold then s.aonReset false else s
  let s := (s.setPwr { s.pwr with onLatch := false }).showLatch
  if latch then s.powerStart else s

/-- The present rail or step is below its off threshold (R386). -/
def railFallen (r : RailId) (s : State) : State :=
  match r with
  | .rail n =>
    if s.istate = 4 ∧ s.rd (.pwr .irail) = n then
      let s := s.setBit (.pwr .railOk) n false
      match prevRail n with
      | some m => s.railOff m
      | none => s.moduleOff
    else s
  | .extStep => if s.estate = 5 then s.extLower else s

def execRailFallen (r : RailId) (s : State) : Res := guardWF (railIdOk r) (railFallen r s)

/-- FALL_LATE_TIMEOUT (R386). Which monitor of an external step has not fallen is open: a free value (log 2, log 152). -/
def fallLate (r : RailId) (s : State) : State :=
  match r with
  | .rail n => if s.istate = 4 ∧ s.rd (.pwr .irail) = n then (s.ev (.pwr .fallLate)).logFail 5 n none else s
  | .extStep =>
    if s.estate = 5 then
      let all := s.stepMonitors (s.rd (.pwr .estep))
      let q := s.fresh 4
      ((q.2.ev (.pwr .fallLate))).logFail 5 (monitorUnit (all[q.1 % all.length]?).toList) none
    else s

def execFallLateTimeout (r : RailId) (s : State) : Res := guardWF (railIdOk r) (fallLate r s)

/-- OFF_WAIT_TIMEOUT (R385). -/
def execOffWaitTimeout (s : State) : Res := guardWF true (if s.on (.pwr .offPend) then s.offProceed else s)

/-- DISARM_COMPLETE (R50, R63, R385): the last admitted sheet or frame is done. -/
def disarmComplete (s : State) : State :=
  if s.ldr.st == .disarming && s.noneRemain then
    let s := s.disarmEnd
    s.offWaited.reactOn
  else s

def execDisarmComplete (s : State) : Res := guardWF true (disarmComplete s)

/-- COUNTER_COPY_DONE (R385, R392). -/
def counterCopyDone (s : State) : State :=
  if s.pwr.copying then
    let c := (List.range 28).map fun n => s.rd (.pwr .rcnt) n
    ({ s with fram := { s.fram with counters := c } }).railsDown
  else s

def execCounterCopyDone (s : State) : Res := guardWF true (counterCopyDone s)

/-- Every engine I/O pin and external enable is released to its pull-down (R388, R389). -/
def State.releaseOutputs (s : State) : State :=
  let s := (List.range s.pwr.raised).foldl (fun t i => t.driveStep i false) s
  s.releasePins

/-- SUPPLY_FAULT (R388): in STOPPING and DOWN the power-down goes on unchanged (R394). -/
def supplyFault (r : Nat) (s : State) : State :=
  if !s.pwr.qualified.contains r then s
  else
    let s := s.logFail 1 r none
    if s.istate = 1 ∨ s.istate = 2 then
      let s := (s.releaseOutputs).extDown
      (s.setPwr { s.pwr with fault := true }).railsDown
    else s.releaseOutputs

def execSupplyFault (r : Nat) (s : State) : Res := guardWF (railOrder.contains r) (supplyFault r s)

/-- INPUT_COLLAPSE (R389): `mv` is the input in mV. -/
def inputCollapse (mv : Nat) (s : State) : State :=
  let s := s.setPwr { s.pwr with vinOk := false }
  if s.istate = 0 then s
  else
    let s := s.logFail 4 0xFF (some mv)
    let s := (List.range 8).foldl (fun t g => t.setGate g false) s.releaseOutputs
    let s := ((List.range 8).foldl (fun t k => t.ldenLow k) s).closeKinds [9]
    let p := s.pwr
    let s := s.setPwr { p with raised := 0, monitors := [], qualified := p.qualified.filter (· == 9) }
    let s := s.wr (.pwr .railOk) 0 (s.rd (.pwr .railOk) % 2 + (s.rd (.pwr .railOk) / 512 % 2) * 512)
    let s := ({ s with rst := { s.rst with obWrite := none } }).clr (.rstc .obBusy)
    let s := (s.toE 0).railsDown
    (s.wr (.pwr .estep) 0 0).railOff 9

def execInputCollapse (mv : Nat) (s : State) : Res := guardWF true (inputCollapse mv s)

/-! ### Windows (R391, R392) -/

/-- RAIL_WINDOW_CHANGE: the good signal of a rail or a monitor; an exit after qualification is counted. -/
def railWindowChange (w : WindowId) (good : Bool) (s : State) : State :=
  match w with
  | .rail r =>
    let left := s.pwr.qualified.contains r && s.bitOn (.pwr .railOk) r && !good
    let s := s.setBit (.pwr .railOk) r good
    if left then s.rcount r else s
  | .monitor m =>
    let left := s.pwr.monitors.contains m && s.bitOn (.pwr .monOk) m && !good
    let s := s.setBit (.pwr .monOk) m good
    if left then s.rcount (12 + m) else s

def windowOk : WindowId → Bool
  | .rail r => decide (r < 12)
  | .monitor m => decide (m < 16)

def execRailWindowChange (w : WindowId) (good : Bool) (s : State) : Res := guardWF (windowOk w) (railWindowChange w good s)

/-! ### Commands (R385, R394, R396) -/

/-- OP of a PWR_CMD write. -/
def pwrOp (v : Word) : Nat := v.toNat % 8

/-- Refuse a power command. -/
def State.pwrRefuse (s : State) : State := s.ev (.pwr .cmdErr)

/-- PWR_OFF: with its key, while the on-module sequence is ON. -/
def execPwrOff (v : Word) (s : State) : Res :=
  guardWF (pwrOp v == 1) (s.hostWrite .pwr 0 fun s =>
    if v.toNat / 65536 ≠ 0x5D0F then s else if s.istate = 2 then s.orderlyOff else s.pwrRefuse)

/-- EXT_ON: starts the sequence, or is latched while it powers down. -/
def execExtOn (v : Word) (s : State) : Res :=
  guardWF (pwrOp v == 2) (s.hostWrite .pwr 0 fun s =>
    if s.estate = 5 then (s.setPwr { s.pwr with extLatch := true }).showLatch
    else if s.estate = 0 ∧ s.istate = 2 then s.extStart
    else s.pwrRefuse)

/-- EXT_OFF: refused while the engine is ARMED. -/
def execExtOff (v : Word) (s : State) : Res :=
  guardWF (pwrOp v == 3) (s.hostWrite .pwr 0 fun s =>
    if s.ldr.st == .armed || s.estate == 0 || s.estate == 5 then s.pwrRefuse else s.extDown)

/-- A STEP command on the paused step; it also closes the posted decision. -/
def State.stepNow (s : State) : State :=
  if s.estate = 3 then (s.closeDecision 9 (s.rd (.pwr .estep))).extRaise else s.pwrRefuse

def execStep (v : Word) (s : State) : Res := guardWF (pwrOp v == 4) (s.hostWrite .pwr 0 fun s =>
    s.stepNow)

end Sys2Proof.Machine
end

