-- ==== Sys2Proof/Machine/Cascade.lean ====
section
/-! DEFINITION. Cascading over the Scejo link (R306 to R323): beacons, engine time alignment, joint admission, the master's position
and sheet events, links and partition. -/

namespace Sys2Proof.Machine

open Sys2Proof

/-! ### Ring (R309, R311, R321) -/

/-- Instance number of a port in CSL_DELAY and CSL_LINKERR. -/
def portIdx : Port → Nat
  | .a => 0
  | .b => 1

/-- A port is up. -/
def State.portUp? (s : State) (p : Port) : Bool :=
  match p with
  | .a => s.on (.csl .linkaUp)
  | .b => s.on (.csl .linkbUp)

/-- The latest beacon at a port. -/
def State.beaconAt (s : State) (p : Port) : Option Beacon :=
  match p with
  | .a => s.csl.beaconA
  | .b => s.csl.beaconB

/-- Set or forget the beacon at a port. -/
def State.setBeacon (s : State) (p : Port) (b : Option Beacon) : State :=
  match p with
  | .a => { s with csl := { s.csl with beaconA := b } }
  | .b => { s with csl := { s.csl with beaconB := b } }

/-- The upstream port: the shorter hop count among the ports that are up, A when equal (R311). -/
def State.settleUpstream (s : State) : State :=
  let hop (p : Port) : Option Nat := if s.portUp? p then (s.beaconAt p).map Beacon.hop else none
  match hop .a, hop .b with
  | some x, some y => s.wr (.csl .upstream) 0 (if y < x then 1 else 0)
  | some _, none => s.wr (.csl .upstream) 0 0
  | none, some _ => s.wr (.csl .upstream) 0 1
  | none, none => s

/-- The delay of the link on a port, in 20 ps: half the round trip measured when the port came up, and SKEWTRIM (R312). -/
def State.linkDelay (s : State) (p : Port) : Nat :=
  let half := match p with
    | .a => s.csl.roundA
    | .b => s.csl.roundB
  (clampInt ((half : Int) + s.rdS (.csl .skewtrim)) 0 65535).toNat

/-- The module takes part in a ring and its ports work. -/
def State.inRing (s : State) : Bool := s.up .csl && s.cslRole != 0

/-- BEACON_TX (R309). -/
def execBeaconTx (s : State) : Res :=
  guardWF true (if s.inRing && s.isMaster then s.broadcast 1 [1] else s)

/-- BEACON_RX (R306, R309). -/
def beaconRx (p : Port) (hop master version : Nat) (s : State) : State :=
  if !s.inRing then s
  else
    let s := if version = s.rd (.ldr .fwMajor) then s else s.ev (.csl .verErr)
    if s.isMaster then (if master = s.hw.serial then s else s.ev (.csl .masterConflict))
    else
      let other (q : Port) : Bool := match s.beaconAt q with
        | some b => b.master != master
        | none => false
      let s := if other .a || other .b then s.ev (.csl .masterConflict) else s
      let pos := s.rd (.csl .pos)
      let want := match p with
        | .a => pos
        | .b => s.rd (.csl .nmod) + 1 - pos
      let s := if hop = want ∨ !s.portUp? p then s else s.ev (.csl .posErr)
      ((s.setBeacon p (some { hop := hop, master := master })).settleUpstream).emit (.scejo (otherPort p) 1 [(hop : Int) + 1])

def execBeaconRx (p : Port) (hop master version : Nat) (s : State) : Res := guardWF true (beaconRx p hop master version s)

/-! ### Engine time (R312, R313) -/

/-- SYNC_TX (R312). -/
def execSyncTx (s : State) : Res :=
  guardWF true (if s.inRing && s.isMaster then s.broadcast 2 [(s.etime : Int)] else s)

/-- Move engine time by `z`, in 20 ps. -/
def State.shiftTime (s : State) (z : Int) : State :=
  let t := max 0 ((s.etime : Int) * 50 + s.csl.phase + z)
  { s with etime := (t / 50).toNat, csl := { s.csl with phase := t % 50 } }

/-- Enter an alignment state, counting from the start. -/
def State.toT (s : State) (n : Nat) : State := { s with csl := { s.csl with near := 0 } }.wr (.csl .tstate) 0 n

/-- Slew engine time against an offset, by at most 20 ns for each ms since the last SYNC (R313). -/
def State.slew (s : State) (offset : Int) (elapsed : Nat) : State :=
  let lim : Int := elapsed / 1000
  s.shiftTime (-(clampInt offset (-lim) lim))

/-- SYNC_RX on the upstream port of a slave (R312, R313): `ts` in ns, `arrival` and `correction` in 20 ps. -/
def State.align (s : State) (offset : Int) (elapsed : Nat) : State :=
  let far := decide (500 < offset.natAbs)
  let close := decide (offset.natAbs ≤ 100)
  let st := s.rd (.csl .tstate)
  let farN := if far && (st == 3 || s.csl.far != 0) then s.csl.far + 1 else 0
  let s := { s with csl := { s.csl with far := farN } }
  let s := if farN = 4 then s.ev (.csl .alignLost) else s
  match st with
  | 0 => if s.engineArmed then s.toT 2 else (s.toT 1).shiftTime (-offset)
  | 3 => if close then s else (s.toT 2).slew offset elapsed
  | n =>
    if n = 2 ∧ far ∧ !s.engineArmed then (s.toT 1).shiftTime (-offset)
    else if close then
      if 15 ≤ s.csl.near then s.toT 3 else { s with csl := { s.csl with near := s.csl.near + 1 } }
    else (s.toT 2).slew offset elapsed

/-- SYNC_RX (R312, R313); the arrival converter is compensated like that of an SOS (R370). The copy is passed on with the port's delay and the module's own residence time, which is open. -/
def syncRx (p : Port) (ts correction arrival : Nat) (s : State) : State :=
  if !(s.inRing && s.isSlave && s.portUp? p) then s
  else
    let d := s.linkDelay p
    let arrival := arrival / 500 * 500 + tapsAt (arrival % 500) (s.deltaT 10 (s.cal.scejoT.getD ((s.sensorTemp 10).getD 0)))
    let q := s.fresh 16
    let s := q.2.emit (.scejo (otherPort p) 2 [(ts : Int), (correction + d + q.1 : Nat)])
    if p != s.upstream then s
    else
      let offset : Int := (arrival : Int) - ((ts * 50 + correction + d : Nat) : Int)
      let elapsed := s.etime - s.csl.synced
      let s := s.wrS (.csl .offset) 0 (clampInt offset (-8388608) 8388607)
      let s := s.align offset elapsed
      { s with csl := { s.csl with synced := s.etime } }

def execSyncRx (p : Port) (ts correction arrival : Nat) (s : State) : Res := guardWF true (syncRx p ts correction arrival s)

/-- SYNC_TIMEOUT (R313). -/
def execSyncTimeout (s : State) : Res :=
  guardWF true (if s.inRing && s.isSlave && s.rd (.csl .tstate) != 0 then
    { (s.toT 0).ev (.csl .alignLost) with csl := { s.csl with near := 0, far := 0 } }
  else s)

/-! ### Joint admission (R315, R316) -/

/-- A peer has been heard. -/
def State.heard (s : State) (pos : Nat) : State := if pos < 4 then s.ev (.csl .peersPresent) pos else s

/-- CASCADE_GATE_QUERY on a slave (R316): its own gate, its tag and its state go back to the master. -/
def cascadeGateQuery (tag : Word) (s : State) : State :=
  if !(s.inRing && s.isSlave) then s
  else
    let s := s.relay 4 [(tag.toNat : Int)]
    let armed := s.ldr.st == .armed
    let r := s.gateRefusal
    let same := match s.head with
      | some c => (s.ctx c).tag == tag.toNat
      | none => true
    let s := if same then s else s.ev (.csl .tagErr)
    let ask := s.on (.pgs .admMode) && s.loam.hostOk != s.head
    let s := match s.head with
      | some c => if ask && r == 0 && same && !s.loam.withheld && !s.decisionOpen 1 c then s.post 1 c (s.ctx c).admitData else s
      | none => s
    let passes := r == 0 && same && armed && !ask
    let s := if r = 0 then s else s.refuse r
    let s := { s with csl := { s.csl with query := if passes then s.head else none, asked := s.etime } }
    s.upward 5 [(s.rd (.csl .pos) : Int), bit armed, bit passes]

def execCascadeGateQuery (tag : Word) (s : State) : Res := guardWF true (cascadeGateQuery tag s)

/-- The joint admission fails: ADM_REFUSE 7, and the feed point is skipped (R316). The host's answer is spent: the head is posted again
when the gate next passes for it (R90). -/
def State.jointRefuse (s : State) : State :=
  let s := { s with
    csl := { s.csl with query := none, agreed := [] }
    loam := { s.loam with hostOk := none } }.refuse 7
  if s.web then s else s.skipFeed

/-- Every slave has agreed: the master admits its head and feeds it (R316). -/
def State.jointAdmit (s : State) (c : Nat) : State :=
  let s := { s with csl := { s.csl with query := none, agreed := [] } }
  if s.gateRefusal = 0 ∧ s.head = some c then
    let s := s.admitCtx c
    if s.web then s.broadcast 6 [((s.ctx c).tag : Int)] else s.feed c
  else s.jointRefuse

/-- CASCADE_GATE_REPLY on the master (R316, R317); a slave passes it on (R307). -/
def cascadeGateReply (pos : Nat) (armed passes : Bool) (s : State) : State :=
  if s.inRing && s.isSlave then s.upward 5 [(pos : Int), bit armed, bit passes]
  else if !s.inRing then s
  else
    let s := ((s.heard pos).wrB (.csl .peersArmed) pos armed).wrB (.csl .peersGate) pos passes
    match s.csl.query with
    | none => s
    | some c =>
      if !(armed && passes) then s.jointRefuse
      else
        let agreed := pos :: s.csl.agreed.erase pos
        let s := { s with csl := { s.csl with agreed := agreed } }
        if (List.range (s.rd (.csl .nmod))).all fun i => agreed.contains (i + 1) then s.jointAdmit c else s

def execCascadeGateReply (pos : Nat) (armed passes : Bool) (s : State) : Res :=
  guardWF (decide (1 ≤ pos) && decide (pos < 4)) (cascadeGateReply pos armed passes s)

/-- CASCADE_GATE_TIMEOUT (R316): 20 µs without every answer. -/
def execCascadeGateTimeout (s : State) : Res :=
  guardWF true (if s.inRing && s.isMaster && s.csl.query.isSome then s.jointRefuse else s)

/-! ### Position and sheet events (R318, R319) -/

/-- POSITION_BROADCAST (R318). -/
def execPositionBroadcast (s : State) : Res :=
  guardWF true (if s.inRing && s.isMaster then s.broadcast 3 [s.mpos, (s.rd (.pth .lrate) : Int), (s.etime : Int)] else s)

/-- POSITION_RX (R318). -/
def execPositionRx (mpos : Int) (lrate t : Nat) (s : State) : Res :=
  guardWF true (if s.inRing && s.isSlave then
    let s := { s with csl := { s.csl with position := some (mpos, lrate, t) } }
    let s := s.relay 3 [mpos, (lrate : Int), (t : Int)]
    if s.up .mot then s.trackPosition else s
  else s)

/-- POSITION_TIMEOUT (R321): the slave is cut off; busy stations blank and what is being imaged is spoiled. -/
def positionTimeout (s : State) : State :=
  if s.inRing && s.isSlave then
    (List.range 8).foldl (fun t k => if t.busy k then t.spoilStation k 7 else t)
      { s with csl := { s.csl with position := none } }
  else s

def execPositionTimeout (s : State) : Res := guardWF true (positionTimeout s)

/-- The oldest tracked context in one of the given stages that satisfies `p`. -/
def State.oldest (s : State) (p : Track → Nat → Bool) : Option Track := s.pth.tracks.find? fun t => p t (s.ctx t.ctx).stage

/-- A feed on a slave: its head, for which its gate has passed within the last 30 µs, is admitted and tracked (R316, log 43); without
one it is a second feed of the sheet that has not registered. -/
def State.slaveFeed (s : State) : State :=
  let fresh := decide (s.etime ≤ s.csl.asked + 30000)
  match s.csl.query with
  | some c =>
    let s := { s with csl := { s.csl with query := none } }
    if fresh && s.gateRefusal == 0 && s.head == some c then
      let s := s.admitCtx c
      if s.web then s
      else
        let s := s.setStage c 1
        { s with pth := { s.pth with tracks := s.pth.tracks ++ [({ ctx := c, fedAt := s.mpos } : Track)] } }
    else s
  | none =>
    match s.oldest fun t st => st == 1 && t.origin.isNone with
    | some t => s.setTrack { t with fedAt := s.mpos }
    | none => s

/-- The oldest context with a tag that can be spoiled. -/
def State.byTag (s : State) (tag : Word) : Option Nat :=
  (s.loam.ctxs.find? fun e => e.2.spoilable && e.2.tag == tag.toNat).map (·.1)

/-- A slave passes a sheet event of the master on (R307, R319). -/
def State.relayEvent (s : State) (e : SheetEvent) : State :=
  match e with
  | .feed tag => s.relay 6 [(tag.toNat : Int)]
  | .origin m => s.relay 7 [m]
  | .commit => s.relay 8 []
  | .boundary => s.relay 9 []
  | .outputDecision d => s.relay 10 [(d : Int)]
  | .spoil tag => s.relay 11 [(tag.toNat : Int)]
  | .w0 w => s.relay 12 [w]

/-- SHEET_EVENT_RX on a slave (R319), which passes it on (R307). -/
def sheetEventRx (e : SheetEvent) (s : State) : State :=
  if !(s.inRing && s.isSlave) then s
  else if !s.up .mot then s.relayEvent e
  else
    let s := s.relayEvent e
    match e with
    | .feed _ => s.slaveFeed
    | .origin m =>
      match s.oldest fun t st => st == 1 && t.origin.isNone with
      | some t => (s.setTrack { t with origin := some m }).setStage t.ctx 2
      | none => s
    | .commit =>
      match s.oldest fun _ st => st == 2 with
      | some t => s.setStage t.ctx 3
      | none => s
    | .boundary => s.boundary
    | .outputDecision d =>
      match s.oldest fun t st => t.output.isNone && decide (2 ≤ st) && decide (st ≤ 3) with
      | some t => (s.setTrack { t with output := some d }).setStage t.ctx 4
      | none => s
    | .spoil tag =>
      match s.byTag tag with
      | some c => s.spoilHere c 7
      | none => s
    | .w0 w => s.webRuns w

def execSheetEventRx (e : SheetEvent) (s : State) : Res := guardWF true (sheetEventRx e s)

/-- A slave passes another slave's report on (R307). -/
def State.relayReport (s : State) (pos : Nat) (rep : SlaveReport) : State :=
  match rep with
  | .spoiled tag => s.upward 15 [(pos : Int), (tag.toNat : Int)]
  | .stalled => s.upward 16 [(pos : Int)]
  | .drained k line busy => s.upward 17 [(pos : Int), (k : Int), (line : Int), bit busy]

/-- SLAVE_REPORT_RX on the master (R319, R320); a slave passes it on (R307). -/
def slaveReportRx (pos : Nat) (rep : SlaveReport) (s : State) : State :=
  if s.inRing && s.isSlave then s.relayReport pos rep
  else if !s.inRing then s
  else
    let s := s.heard pos
    match rep with
    | .spoiled tag =>
      match s.byTag tag with
      | some c => s.spoil c 7
      | none => s
    | .stalled => if s.web then s.webStop 1 else s
    | .drained k line busy =>
      { s with csl := { s.csl with
          drained := (pos, k, line, busy) :: s.csl.drained.filter fun e => !(e.1 == pos && e.2.1 == k) } }

def execSlaveReportRx (pos : Nat) (rep : SlaveReport) (s : State) : Res :=
  guardWF (decide (1 ≤ pos) && decide (pos < 4)) (slaveReportRx pos rep s)

/-- CASCADE_DISARM_RX on a slave (R317), which passes it on (R307). -/
def execCascadeDisarmRx (s : State) : Res := guardWF true (if s.inRing && s.isSlave then (s.relay 13 []).disarmNow else s)

/-! ### Links and partition (R321, R322) -/

/-- Set a port's LINK_UP bit. -/
def State.setPort (s : State) (p : Port) (up : Bool) : State :=
  match p with
  | .a => s.wrB (.csl .linkaUp) 0 up
  | .b => s.wrB (.csl .linkbUp) 0 up

/-- RING_DEGRADED: a link is down (R321). -/
def State.showRing (s : State) : State :=
  s.wrB (.csl .ringDegraded) 0 (!(s.on (.csl .linkaUp) && s.on (.csl .linkbUp)))

/-- PARTITION on the master in cut-sheet mode: committed sheets are spoiled and go to purge (R321). -/
def State.partitionSheets (s : State) : State :=
  if s.isMaster && !s.web then
    (s.pth.tracks.filter fun t => decide (3 ≤ (s.ctx t.ctx).stage) && decide ((s.ctx t.ctx).stage ≤ 4)).foldl
      (fun u t => u.spoil t.ctx 7) s
  else s

/-- PORT_DOWN (R321): the port has no block lock or no valid words; `lost` are the positions cut off. -/
def portDown (p : Port) (lost : List Nat) (s : State) : State :=
  if !s.inRing then s
  else
    let s := (((s.setPort p false).setBeacon p none).showRing).settleUpstream
    if lost.isEmpty then s
    else
      let s := { s with csl := { s.csl with unreachable := lost } }
      let s := lost.foldl (fun t n => if n < 4 then
        ((t.clr (.csl .peersPresent) n).clr (.csl .peersArmed) n).clr (.csl .peersGate) n else t) s
      (s.ev (.csl .partition)).partitionSheets

def execPortDown (p : Port) (lost : List Nat) (s : State) : Res := guardWF true (portDown p lost s)

/-- PORT_UP (R312, R321): `delay` is (round trip - 64 ns) / 2 in 20 ps, before SKEWTRIM. -/
def portUpNow (p : Port) (delay : Nat) (s : State) : State :=
  if !s.inRing then s
  else
    let c := s.csl
    let s := { s with csl := match p with
      | .a => { c with roundA := delay }
      | .b => { c with roundB := delay } }
    ((s.setPort p true).showRing).settleUpstream

def execPortUp (p : Port) (delay : Nat) (s : State) : Res := guardWF true (portUpNow p delay s)

/-- PARTITION_CLEAR (R321): every module has been reachable for 10 ms and every slave is ALIGNED, this one included. -/
def execPartitionClear (s : State) : Res :=
  guardWF true (if s.inRing && (s.on (.csl .linkaUp) || s.on (.csl .linkbUp)) && (s.isMaster || s.rd (.csl .tstate) == 3) then
    { s.clr (.csl .partition) with csl := { s.csl with unreachable := [] } } else s)

/-- POWER_GO_RX (R322, R323): latched, and a sequence that waits starts. -/
def execPowerGoRx (s : State) : Res :=
  guardWF true (if s.inRing && s.isSlave then
    let s := (s.relay 14 []).ev (.csl .powerGoSeen)
    if s.estate = 1 then s.toE 2 else s
  else s)

end Sys2Proof.Machine
end

