-- ==== Sys2Proof/Machine/Crypto.lean ====
section
/-! DEFINITION. SHA-256 and ECDSA over P-256, as published in FIPS 180 and FIPS 186, which R43 and R44 name. -/

namespace Sys2Proof.Machine

open Sys2Proof

/-! ### SHA-256 -/

/-- The largest number whose `e`-th power is at most `n`, one bit at a time from bit `k - 1` down. -/
def rootFrom (e n : Nat) : (k r : Nat) → Nat
  | 0, r => r
  | k + 1, r => rootFrom e n k (if (r + 2 ^ k) ^ e ≤ n then r + 2 ^ k else r)

/-- The first 32 bits behind the binary point of the `e`-th root of `p`, for a root below 32. -/
def rootFraction (e p : Nat) : Word := BitVec.ofNat 32 (rootFrom e (p * 2 ^ (32 * e)) 37 0)

/-- The first 64 primes. -/
def shaPrimes : List Nat := (List.range 312).filter fun n => decide (2 ≤ n) && (List.range n).all fun d => decide (d < 2) || n % d != 0

/-- The round constants, which FIPS 180 derives from the cube roots of the first 64 primes. -/
def shaK : List Word := shaPrimes.map (rootFraction 3)

/-- The initial hash words, which FIPS 180 derives from the square roots of the first 8 primes. -/
def shaInit : List Word := (shaPrimes.take 8).map (rootFraction 2)

/-- Rotate a word right. -/
def rotr (x : Word) (n : Nat) : Word := (x >>> n) ||| (x <<< (32 - n))

/-- The message schedule, newest word first: `n` words are added to `w`. -/
def shaSchedule : Nat → List Word → List Word
  | 0, w => w
  | n + 1, w =>
    let x := w.getD 1 0
    let y := w.getD 14 0
    let s1 := rotr x 17 ^^^ rotr x 19 ^^^ (x >>> 10)
    let s0 := rotr y 7 ^^^ rotr y 18 ^^^ (y >>> 3)
    shaSchedule n ((s1 + w.getD 6 0 + s0 + w.getD 15 0) :: w)

/-- The eight working words. -/
structure Sha where
  a : Word
  b : Word
  c : Word
  d : Word
  e : Word
  f : Word
  g : Word
  h : Word
  deriving DecidableEq, Repr

/-- One round. -/
def shaRound (x : Sha) (k w : Word) : Sha :=
  let s1 := rotr x.e 6 ^^^ rotr x.e 11 ^^^ rotr x.e 25
  let ch := (x.e &&& x.f) ^^^ (~~~x.e &&& x.g)
  let t1 := x.h + s1 + ch + k + w
  let s0 := rotr x.a 2 ^^^ rotr x.a 13 ^^^ rotr x.a 22
  let maj := (x.a &&& x.b) ^^^ (x.a &&& x.c) ^^^ (x.b &&& x.c)
  ⟨t1 + (s0 + maj), x.a, x.b, x.c, x.d + t1, x.e, x.f, x.g⟩

/-- Big-endian number of bytes. -/
def beNat (l : List Byte) : Nat := l.foldl (fun n b => 256 * n + b.toNat) 0

/-- The big-endian 32-bit words of a byte list. -/
def beWords : Nat → List Byte → List Word
  | 0, _ => []
  | n + 1, l => BitVec.ofNat 32 (beNat (l.take 4)) :: beWords n (l.drop 4)

/-- One 64-byte block. -/
def shaBlock (x : Sha) (l : List Byte) : Sha :=
  let w := (shaSchedule 48 (beWords 16 l).reverse).reverse
  let y := (shaK.zip w).foldl (fun t e => shaRound t e.1 e.2) x
  ⟨x.a + y.a, x.b + y.b, x.c + y.c, x.d + y.d, x.e + y.e, x.f + y.f, x.g + y.g, x.h + y.h⟩

/-- All blocks of a padded message. -/
def shaBlocks : Nat → Sha → List Byte → Sha
  | 0, x, _ => x
  | n + 1, x, l => shaBlocks n (shaBlock x (l.take 64)) (l.drop 64)

/-- The `n` big-endian bytes of a number. -/
def beBytes (n v : Nat) : List Byte := ((leBytes v n).map fun b => BitVec.ofNat 8 b).reverse

/-- SHA-256 as a big-endian number. -/
def sha256 (l : List Byte) : Nat :=
  let pad := (119 - l.length % 64) % 64
  let m := l ++ [0x80] ++ List.replicate pad 0 ++ beBytes 8 (8 * l.length)
  let h (i : Nat) : Word := shaInit.getD i 0
  let x := shaBlocks (m.length / 64) ⟨h 0, h 1, h 2, h 3, h 4, h 5, h 6, h 7⟩ m
  [x.a, x.b, x.c, x.d, x.e, x.f, x.g, x.h].foldl (fun n w => 2 ^ 32 * n + w.toNat) 0

/-! ### P-256 -/

/-- The field prime, the curve coefficient b, and the group order. -/
def p256 : Nat := 0xffffffff00000001000000000000000000000000ffffffffffffffffffffffff
def b256 : Nat := 0x5ac635d8aa3a93e7b3ebbd55769886bc651d06b0cc53b0f63bce3c3e27d2604b
def n256 : Nat := 0xffffffff00000000ffffffffffffffffbce6faada7179e84f3b9cac2fc632551

/-- A point: `none` is the point at infinity. -/
abbrev Point := Option (Nat × Nat)

/-- The base point. -/
def g256 : Point :=
  some (0x6b17d1f2e12c4247f8bce6e563a440f277037d812deb33a0f4a13945d898c296,
    0x4fe342e2fe1a7f9b8ee7eb4a7c0f9e162bce33576b315ececbb6406837bf51f5)

/-- b to the power e modulo m; the first argument bounds the bits of e. -/
def powMod : (bits b e m : Nat) → Nat
  | 0, _, _, m => 1 % m
  | k + 1, b, e, m =>
    let r := powMod k b (e / 2) m
    let q := r * r % m
    if e % 2 = 1 then q * b % m else q

/-- The inverse modulo a prime. -/
def invMod (a m : Nat) : Nat := powMod 256 a (m - 2) m

/-- The point with slope `l` through (x1, y1) and x2. -/
def chord (l x1 y1 x2 : Nat) : Point :=
  let x := (l * l + 2 * p256 - x1 - x2) % p256
  some (x, (l * (x1 + p256 - x) + p256 - y1) % p256)

/-- Addition on the curve y² = x³ − 3x + b. -/
def addPoint : Point → Point → Point
  | none, q => q
  | q, none => q
  | some (x1, y1), some (x2, y2) =>
    if x1 = x2 then
      if y1 = y2 ∧ y1 ≠ 0 then chord ((3 * x1 * x1 + p256 - 3) * invMod (2 * y1) p256 % p256) x1 y1 x1 else none
    else chord ((y2 + p256 - y1) * invMod (x2 + p256 - x1) p256 % p256) x1 y1 x2

/-- A multiple of a point; the first argument bounds the bits of the factor. -/
def mulPoint : (bits k : Nat) → Point → Point
  | 0, _, _ => none
  | b + 1, k, q =>
    let r := mulPoint b (k / 2) q
    let d := addPoint r r
    if k % 2 = 1 then addPoint d q else d

/-- The coordinates are those of a point of the curve. -/
def onCurve (x y : Nat) : Bool :=
  decide (x < p256) && decide (y < p256) && y * y % p256 == (x * x * x + 3 * (p256 - x) + b256) % p256

/-- ECDSA verification of a hash (R43); s may lie in either half of its range. -/
def ecdsaOk (hash qx qy r s : Nat) : Bool :=
  if r = 0 ∨ n256 ≤ r ∨ s = 0 ∨ n256 ≤ s ∨ !onCurve qx qy then false
  else
    let w := invMod s n256
    match addPoint (mulPoint 256 (hash * w % n256) g256) (mulPoint 256 (r * w % n256) (some (qx, qy))) with
    | none => false
    | some (x, _) => x % n256 == r

end Sys2Proof.Machine
end

