-- ==== Sys2Proof/Machine/Image.lean ====
section
/-! DEFINITION. A Torvul image as a file: its header, section table, sections, descriptors and claims (R27 to R37), and the
checks of R48. -/

namespace Sys2Proof.Machine

open Sys2Proof

/-! ### The parts of an image -/

/-- The image header (R28). -/
structure Header where
  magic : Nat
  fmtMajor : Nat
  fmtMinor : Nat
  length : Nat
  count : Nat
  flags : Nat
  variant : Nat
  minRev : Nat
  secver : Nat
  serial : Nat
  keySlot : Nat
  tableOffset : Nat
  deriving DecidableEq, Repr

/-- Read the header from the first 64 bytes. -/
def parseHeader (l : List Byte) : Header :=
  { magic := leAt l 0x00 4, fmtMajor := leAt l 0x04 2, fmtMinor := leAt l 0x06 2, length := leAt l 0x08 4, count := leAt l 0x0C 2,
    flags := leAt l 0x0E 2, variant := leAt l 0x10 1, minRev := leAt l 0x11 1, secver := leAt l 0x12 2, serial := leAt l 0x14 4,
    keySlot := leAt l 0x24 1, tableOffset := leAt l 0x28 4 }

/-- REQUIRE_VARIANT and STRICT_ARM (R28). -/
def Header.requireVariant (h : Header) : Bool := h.flags % 2 == 1
def Header.strictArm (h : Header) : Bool := h.flags / 2 % 2 == 1

/-- A field descriptor (R36). -/
structure ImgDesc where
  target : Nat
  lsb : Nat
  width : Nat
  kind : Nat
  ranged : Bool
  strict : Bool
  value : Nat
  dmin : Nat
  dmax : Nat
  feature : Nat
  deriving DecidableEq, Repr

/-- Read a descriptor from its 24 bytes. -/
def parseImgDesc (l : List Byte) : ImgDesc :=
  { target := leAt l 0x00 4, lsb := leAt l 0x04 1, width := leAt l 0x05 1, kind := leAt l 0x06 1,
    ranged := leAt l 0x07 1 % 2 == 1, strict := leAt l 0x07 1 / 2 % 2 == 1, value := leAt l 0x08 4, dmin := leAt l 0x0C 4,
    dmax := leAt l 0x10 4, feature := leAt l 0x14 2 }

/-- A claim record (R37). -/
structure ImgClaim where
  cls : Nat
  feature : Nat
  first : Nat
  cnt : Nat
  deriving DecidableEq, Repr

/-- Read a claim record from its 16 bytes. -/
def parseClaim (l : List Byte) : ImgClaim :=
  { cls := leAt l 0x0 1, feature := leAt l 0x2 2, first := leAt l 0x4 4, cnt := leAt l 0x8 4 }

/-- A section: its table entry (R30), its header (R34) and its records. `bad` says that R34 skips it. -/
structure Sect where
  index : Nat
  ty : Nat
  off : Nat
  len : Nat
  crc : Nat
  inst : Nat := 0xFFFF
  features : Nat := 0
  bad : Bool := false
  descs : List ImgDesc := []
  claims : List ImgClaim := []
  deriving DecidableEq, Repr

/-- `n` records of `size` bytes each. -/
def records (size : Nat) : Nat → List Byte → List (List Byte)
  | 0, _ => []
  | n + 1, l => l.take size :: records size n (l.drop size)

/-- A section type that has no section header (R34). -/
def headless (ty : Nat) : Bool := ty == 0x0001 || ty == 0x00F0

/-- The section types of R32. -/
def knownType (ty : Nat) : Bool := (decide (1 ≤ ty) && decide (ty ≤ 0x000F)) || ty == 0x00F0

/-- Read entry `i` of the section table (R30). -/
def parseEntry (img : List Byte) (i : Nat) : Sect :=
  let e := (img.drop (64 + 16 * i)).take 16
  { index := i, ty := leAt e 0x0 2, off := leAt e 0x4 4, len := leAt e 0x8 4, crc := leAt e 0xC 4 }

/-- The body of a section. -/
def Sect.body (x : Sect) (img : List Byte) : List Byte := (img.drop x.off).take x.len

/-- Read a section's header and records (R34). -/
def Sect.load (x : Sect) (img : List Byte) : Sect :=
  if headless x.ty || !knownType x.ty then x
  else
    let b := x.body img
    let d := leAt b 0x8 2
    let c := leAt b 0xA 2
    let fc := leAt b 0x6 2
    let x := { x with inst := leAt b 0x4 2, features := fc }
    if x.len ≠ (16 + 24 * d + 16 * c + 15) / 16 * 16 ∨ leAt b 0x0 2 ≠ x.ty ∨ leAt b 0x2 1 ≠ 1 ∨ fc = 0 ∨ 256 < fc then
      { x with bad := true }
    else
      let ds := (records 24 d (b.drop 16)).map parseImgDesc
      let cs := (records 16 c (b.drop (16 + 24 * d))).map parseClaim
      if (ds.any fun q => decide (fc ≤ q.feature)) || cs.any fun q => decide (fc ≤ q.feature) then { x with bad := true }
      else { x with descs := ds, claims := cs }

/-- The section table of an image. -/
def parseTable (img : List Byte) : List Sect := (List.range (parseHeader img).count).map (parseEntry img)

/-- The sections of an image, with their records. -/
def parseImage (img : List Byte) : List Sect := (parseTable img).map fun x => x.load img

/-! ### The checks of R48 -/

/-- The header fields that give cause 1. -/
def headerOk (h : Header) : Bool :=
  h.magic == 0x46495654 && decide (2 ≤ h.count) && decide (h.count ≤ 512) && decide (h.secver ≤ 63) && decide (h.keySlot ≤ 3) &&
    h.tableOffset == 64

/-- The file length, which gives cause 3, for a source of `room` bytes. -/
def lengthOk (h : Header) (room : Nat) : Bool :=
  h.length % 16 == 0 && decide (4096 ≤ h.length) && decide (h.length ≤ 33554432) && decide (h.length ≤ room)

/-- Two bodies share a byte. -/
def Sect.meets (x y : Sect) : Bool := decide (max x.off y.off < min (x.off + x.len) (y.off + y.len))

/-- The section table obeys R30. -/
def tableOk (t : List Sect) (len : Nat) : Bool :=
  (t.all fun x => x.off % 16 == 0 && decide (64 + 16 * t.length ≤ x.off) && decide (x.off + x.len ≤ len - 128)) &&
    t.all fun x => t.all fun y => x.index == y.index || !x.meets y

/-- The bodies' CRCs match. -/
def bodiesOk (t : List Sect) (img : List Byte) : Bool := t.all fun x => crc32c (x.body img) == x.crc

/-- The FIRMWARE and GLOBAL rules of R32 and R34: the first two entries, and no GLOBAL section anywhere that R34 skips. -/
def firstTwoOk (t : List Sect) (img : List Byte) : Bool :=
  match t with
  | f :: g :: _ => f.ty == 1 && g.ty == 2 && t.all fun x => x.ty != 2 || !(x.load img).bad
  | _ => false

/-- The signed message and the four numbers of the signature block (R43). -/
def signedPart (img : List Byte) : List Byte := img.take (img.length - 128)
def sigWord (img : List Byte) (i : Nat) : Nat := beNat ((img.drop (img.length - 128 + 32 * i)).take 32)

/-- The image signature (R43). -/
def signatureOk (img : List Byte) : Bool :=
  ecdsaOk (sha256 (signedPart img)) (sigWord img 0) (sigWord img 1) (sigWord img 2) (sigWord img 3)

/-- Every key slot is blank (R44). -/
def Fuses.allBlank (f : Fuses) : Bool := f.slots.all fun x => x == .blank

/-- The hash of an image's public key (R44). -/
def keyHash (img : List Byte) : Nat := sha256 ((img.drop (img.length - 128)).take 64)

/-- The key slot rule (R44). -/
def keyOk (f : Fuses) (slot : Nat) (img : List Byte) : Bool :=
  f.allBlank || f.slots.getD slot .blank == .programmed (keyHash img)

/-- GLB_REV.REV of the modelled silicon (R3, R431). -/
def siliconRev : Nat := 0xA1

/-- The code of the module in VARIANT (R29). -/
def Hardware.variantCode (h : Hardware) : Nat := if h.exL then 1 else 2

/-- VARIANT under R29. -/
def variantOk (hw : Hardware) (h : Header) : Bool := !h.requireVariant || h.variant == 0 || h.variant == hw.variantCode

/-- The firmware payload: the body of the first section (R35). -/
def payload (img : List Byte) : List Byte := (parseEntry img 0).body img

/-! ### Sources (R46) -/

/-- The first `n` bytes of a source; bytes of a flash slot behind the stored file read as erased (log 50). -/
def State.sourceBytes (s : State) (src n : Nat) : List Byte :=
  let flash (f : List Byte) : List Byte := f.take n ++ List.replicate (n - f.length) 0xFF
  match src with
  | 1 => flash s.ldr.flash0
  | 2 => flash s.ldr.flash1
  | _ => s.bytes 0 n

/-- A flash slot that a commit was cut short in: its image fails its CRC or its signature (R55). -/
def State.sourceCut (s : State) (src : Nat) : Bool :=
  match src with
  | 1 => s.ldr.cut0
  | 2 => s.ldr.cut1
  | _ => false

/-- The size of a source (R48). -/
def State.sourceRoom (s : State) (src : Nat) : Nat := if src = 3 then s.rd (.ldr .hostlen) else 33554432

/-- The read of the staged bytes fails: an uncorrectable error stands in them (R70, log 51), or MEM answers with an error (R13). -/
def State.sourceBad (s : State) (src n : Nat) : Bool :=
  src == 3 && (!s.up .mem || s.loam.ecc.any fun e => e.2 == .bad && decide (64 * e.1 < n))

/-- A sheet context is open (R46). -/
def State.anyOpen (s : State) : Bool := s.loam.ctxs.any fun e => e.2.st != .free

/-- The first check that fails, coded as REJECT; 0 when all pass (R48). Whether an image that a commit left cut short fails its CRC
or its signature is open (R55, log 62). -/
def State.imageFault (s : State) (src : Nat) (readOk : Bool) : Nat :=
  let h := parseHeader (s.sourceBytes src 64)
  if src = 3 ∧ s.anyOpen then 14
  else if src = 3 ∧ !s.up .mem then 13
  else if !headerOk h then 1
  else if h.fmtMajor ≠ 1 then 2
  else if !lengthOk h (s.sourceRoom src) then 3
  else if !readOk || s.sourceBad src h.length then 13
  else
    let img := s.sourceBytes src h.length
    let t := parseTable img
    if !tableOk t h.length then 4
    else if s.sourceCut src then (if Config.freeValue s.free % 2 = 0 then 5 else 7)
    else if !bodiesOk t img then 5
    else if !firstTwoOk t img then 6
    else if !signatureOk img then 7
    else if !keyOk s.fuses h.keySlot img then 8
    else if h.secver < s.fuses.seccount then 9
    else if siliconRev < h.minRev then 10
    else if !variantOk s.hw h then 11
    else if !Config.payloadOk (payload img) then 12
    else 0

end Sys2Proof.Machine
end

