-- ==== Sys2Proof/Machine/Passes.lean ====
section
/-! DEFINITION. The three passes that apply an image (R49): claims (R37 to R42), descriptors and their ranges (R33, R36, R39, R56 to
R58), the cross-field rules of pass 3, and the slot schedule (R235). -/

namespace Sys2Proof.Machine

open Sys2Proof

/-- A configuration field: the limit table lists it as RW, RWL or RWX (R36, R478). -/
def isConfig (f : Fld) (i : Nat) : Bool :=
  f.row.kind != .none && (f.row.acc == .rw || f.row.acc == .rwl || f.row.acc == .rwx) &&
    match f with
    | .mbx .route => decide (1 ≤ i) && decide (i ≤ 9)
    | .cmp .emode => decide (i < 16)
    | _ => true

/-- A field as a descriptor names it: an instance, and which half of a pair (0 whole, 1 lower, 2 upper). -/
abbrev FKey := (Fld × Nat) × Nat

/-- A feature: section index and feature number. -/
abbrev Feat := Nat × Nat

/-- Place, lowest bit and width of a field as a descriptor names it. -/
def FKey.place (k : FKey) : Nat × Nat × Nat :=
  let a := k.1.1.addr k.1.2
  match k.2 with
  | 0 => (a, k.1.1.lsbOf k.1.2, k.1.1.row.width)
  | 1 => (a, 0, 32)
  | _ => (a + 4, 0, k.1.1.row.width - 32)

/-- The kind and hardware range of a field as a descriptor names it; the halves of a pair have their full ranges. -/
def FKey.kind (h : Hardware) (k : FKey) : Kind :=
  match k.2 with
  | 0 => kindOf h k.1.1 k.1.2
  | 1 => .u 0 4294967295
  | _ =>
    let w := k.1.1.row.width - 32
    match k.1.1.row.kind with
    | .s _ _ => .s (-(2 ^ (w - 1) : Int)) (2 ^ (w - 1) - 1)
    | _ => .u 0 (2 ^ w - 1)

/-- Put raw bits into a field or into one half of a pair. -/
def State.putKey (s : State) (k : FKey) (v : Nat) : State :=
  let old := s.rd k.1.1 k.1.2
  match k.2 with
  | 0 => s.wr k.1.1 k.1.2 v
  | 1 => s.wr k.1.1 k.1.2 (old / 2 ^ 32 * 2 ^ 32 + v % 2 ^ 32)
  | _ => s.wr k.1.1 k.1.2 (old % 2 ^ 32 + v * 2 ^ 32)

/-- The configuration field that matches a descriptor's TARGET, LSB and WIDTH exactly (R36). -/
def findField (target lsb width : Nat) : Option FKey :=
  let whole := (slicesAt target).find? fun sl => sl.lsb == lsb && sl.fld.row.width == width && decide (width ≤ 32) && isConfig sl.fld sl.idx
  let low := (slicesAt target).find? fun sl => decide (32 < sl.fld.row.width) && lsb == 0 && width == 32 && isConfig sl.fld sl.idx
  let high := (slicesAt (target - 4)).find? fun sl =>
    decide (4 ≤ target) && decide (32 < sl.fld.row.width) && lsb == 0 && width + 32 == sl.fld.row.width && isConfig sl.fld sl.idx
  match whole, low, high with
  | some sl, _, _ => some ((sl.fld, sl.idx), 0)
  | none, some sl, _ => some ((sl.fld, sl.idx), 1)
  | none, none, some sl => some ((sl.fld, sl.idx), 2)
  | none, none, none => none

/-! ### The running passes -/

/-- What the passes have built so far. -/
structure Pass where
  st : State
  img : List Sect
  /-- Disabled features. -/
  dis : List Feat := []
  /-- Skipped sections (R32, R34, R39). -/
  skip : List Nat := []
  /-- Requirements: the requiring feature and its class 0x00 record. -/
  reqs : List (Feat × ImgClaim) := []
  /-- Claims that stand, in image order. -/
  claims : List Grant := []
  /-- Fields written, newest first, with the feature that wrote them. -/
  own : List (FKey × Feat) := []
  deriving DecidableEq, Repr

/-- The feature that a class 0x00 record requires (R37). -/
def ImgClaim.required (c : ImgClaim) : Feat := (c.first % 65536, c.first / 65536)

/-- WIDTH of a report entry for a claim (R59). -/
def ImgClaim.width (c : ImgClaim) : Nat := if c.cnt < 256 then c.cnt else 0

/-- A feature that counts as disabled for R42: disabled, in a skipped section, or no feature of its section at all. -/
def Pass.off (p : Pass) (f : Feat) : Bool :=
  p.dis.contains f || p.skip.contains f.1 ||
    match p.img[f.1]? with
    | some x => decide (x.features ≤ f.2)
    | none => true

/-- An entry with nothing but its cause, pass, section and feature. -/
def plainEntry (cause origin sect feature : Nat) : Entry :=
  { cause := cause, origin := origin, sect := sect, feature := feature, target := 0, lsb := 0, width := 0, cls := 0xFF,
    requested := 0, applied := 0, limit := 0 }

/-- The entry of a claim: a claim requests no value, and REQUESTED reads 0 (R59, log 134). -/
def claimEntry (cause origin : Nat) (f : Feat) (c : ImgClaim) : Entry :=
  { plainEntry cause origin f.1 f.2 with target := c.first, width := c.width, cls := c.cls }

/-- The entry of a field. -/
def fieldEntry (cause origin sect feature : Nat) (k : FKey) (requested applied limit : Nat) : Entry :=
  let q := k.place
  { plainEntry cause origin sect feature with
    target := q.1, lsb := q.2.1, width := q.2.2, requested := requested, applied := applied, limit := limit }

/-- Disable a feature: one entry (R59). In pass 1 its claims no longer stand (R41). -/
def Pass.disable (p : Pass) (f : Feat) (e : Entry) : Pass :=
  if p.dis.contains f then p
  else
    { p with
      dis := f :: p.dis
      st := p.st.report e
      claims := if e.origin = 0 then p.claims.filter fun g => !(g.sect == f.1 && g.feature == f.2) else p.claims }

/-- Report something that disables nothing. -/
def Pass.note (p : Pass) (e : Entry) : Pass := { p with st := p.st.report e }

/-- One look at every requirement, in image order (R42). -/
def Pass.requireOnce (p : Pass) (origin : Nat) : Pass :=
  p.reqs.foldl (fun q r =>
    if !q.dis.contains r.1 && q.off r.2.required then q.disable r.1 (claimEntry 0x12 origin r.1 r.2) else q) p

/-- Requirements are propagated down every chain (R42). -/
def Pass.propagate (p : Pass) (origin : Nat) : Pass := Nat.iterate (fun q => q.requireOnce origin) (p.reqs.length + 1) p

/-! ### Pass 1 -/

/-- Resource class of a section's instance (R39). -/
def instClass (ty : Nat) : Option Nat := if ty = 9 then some 2 else if ty = 10 then some 3 else if ty = 11 then some 4 else none

/-- Instances of a class on the die, and those populated (R38); no instances for a class that R38 does not list. -/
def dieCount (cls : Nat) : Nat :=
  [0, 256, 8, 48, 128, 8, 8, 32, 256, 96, 48, 8, 16, 8, 4, 64, 16].getD cls 0
def Hardware.classCount (h : Hardware) (cls : Nat) : Nat :=
  match cls with
  | 1 => h.pins
  | 2 => h.stations
  | 3 => h.axes
  | 4 => h.slots
  | 5 => h.lanes
  | 6 => h.lanes
  | 9 => h.ains
  | 10 => h.hvs
  | n => dieCount n

/-- Sections that are skipped as a whole, with their entries (R32, R34, R39); all stand at the start of pass 1 (log 52). A section that
meets several of these rules shows SECTION_SKIPPED, else the cause of R39, else DUPLICATE (log 133). -/
def Pass.skipSections (p : Pass) : Pass :=
  (p.img.foldl (fun (a : Pass × List (Nat × Nat)) x =>
    let q := a.1
    let skip (e : Entry) : Pass × List (Nat × Nat) := ({ q with skip := x.index :: q.skip, st := q.st.report e }, a.2)
    let key := (x.ty, if (instClass x.ty).isSome then x.inst else 0)
    let bad (c cause : Nat) : Entry := { plainEntry cause 0 x.index 0xFFFF with target := x.inst, cls := c }
    if !knownType x.ty || x.bad then skip (plainEntry 0x32 0 x.index 0xFFFF)
    else
      match instClass x.ty with
      | some c =>
        if dieCount c ≤ x.inst then skip (bad c 0x14)
        else if q.st.hw.classCount c ≤ x.inst then skip (bad c 0x11)
        else if a.2.contains key then skip (plainEntry 0x21 0 x.index 0xFFFF)
        else (q, key :: a.2)
      | none => if a.2.contains key then skip (plainEntry 0x21 0 x.index 0xFFFF) else (q, key :: a.2)) (p, [])).1

/-- The sections of a type that stand, in image order. -/
def Pass.sects (p : Pass) (ty : Nat) : List Sect := p.img.filter fun x => x.ty == ty && !p.skip.contains x.index

/-- Two runs of instances overlap. -/
def runsMeet (a n b m : Nat) : Bool := decide (a < b + m) && decide (b < a + n)

/-- Two claims conflict (R41); an analogue input and its pin are one resource (R446). -/
def Grant.meets (x y : Grant) : Bool :=
  let ain (p q : Grant) : Bool := (List.range p.cnt).any fun i => runsMeet (ainPin (p.first + i)) 1 q.first q.cnt
  if x.cls = y.cls then runsMeet x.first x.cnt y.first y.cnt
  else if x.cls = 9 ∧ y.cls = 1 then ain x y
  else if x.cls = 1 ∧ y.cls = 9 then ain y x
  else false

/-- A class 0x00 record (R42): the required feature lies in an earlier section, or in the same section with a descriptor, or with a
claim record before this one. -/
def Pass.require (p : Pass) (x : Sect) (i : Nat) (c : ImgClaim) : Pass :=
  let f : Feat := (x.index, c.feature)
  let r := c.required
  let earlier := decide (r.1 < x.index) || (r.1 == x.index &&
    ((x.descs.any fun d => d.feature == r.2) || (x.claims.take i).any fun d => d.feature == r.2))
  if !earlier then p.disable f (claimEntry 0x13 0 f c)
  else
    let p := { p with reqs := p.reqs ++ [(f, c)] }
    if p.off r then p.disable f (claimEntry 0x12 0 f c) else p

/-- A claim of a resource (R38, R41). -/
def Pass.claim (p : Pass) (x : Sect) (c : ImgClaim) : Pass :=
  let f : Feat := (x.index, c.feature)
  let g : Grant := { cls := c.cls, first := c.first, cnt := c.cnt, sect := x.index, feature := c.feature }
  if c.cnt = 0 ∨ dieCount c.cls < c.first + c.cnt then p.disable f (claimEntry 0x14 0 f c)
  else if p.st.hw.classCount c.cls < c.first + c.cnt then p.disable f (claimEntry 0x11 0 f c)
  else
    match p.claims.find? fun w => w.meets g with
    | some w => p.disable f { claimEntry 0x10 0 f c with winSection := w.sect, winFeature := w.feature }
    | none => { p with claims := p.claims ++ [g] }

/-- Pass 1 (R49). -/
def Pass.one (p : Pass) : Pass :=
  let p := p.skipSections
  let p := p.img.foldl (fun q x =>
    if q.skip.contains x.index then q
    else x.claims.zipIdx.foldl (fun q c =>
      if q.dis.contains (x.index, c.1.feature) then q
      else if c.1.cls = 0 then q.require x c.2 c.1 else q.claim x c.1) q) p
  p.propagate 0

/-! ### Pass 2 -/

/-- A section may write a field: its own blocks and its own instance (R32), or the function select of a pin that the same feature
claims (R33, R447). -/
def Pass.mayWrite (p : Pass) (x : Sect) (feature : Nat) (k : Fld × Nat) : Bool :=
  let own := k.1.row.n1 != 1 && k.1.outer k.2 == x.inst
  let pin := (p.claims.any fun g => g.sect == x.index && g.feature == feature &&
    g.meets { cls := 1, first := k.1.outer k.2, cnt := 1, sect := 0, feature := 0 })
  match x.ty, k.1 with
  | 2, .glb _ => true
  | 3, .pwr _ => true
  | 4, .flt _ => true
  | 5, .cal _ => true
  | 6, .dma _ => true
  | 6, .mbx _ => true
  | 7, .pgs _ => true
  | 8, .cmp _ => true
  | 9, .btu _ => own
  | 9, .blk _ => own
  | 10, .mot _ => own
  | 11, .cle _ => own
  | 12, .fhv _ => true
  | 13, .pth _ => true
  | 14, .csl _ => true
  | 15, .eio .inv => true
  | 15, .eio .term => true
  | 15, .eio .openChk => true
  | 15, .eio .filt => true
  | 15, .eio .idxmax => true
  | _, .eio .func => pin
  | _, .eio .unit => pin
  | _, _ => false

/-- A ratio's numerator: 0 is outside its range and has no nearest legal value (R57). -/
def isRatio : Fld → Bool
  | .mot .num => true
  | .pth .pnum => true
  | _ => false

/-- What the range rules make of a value: the value to write, or the cause that disables the feature; whether the declared range
was empty; the clamp's cause and limit; the applying range. -/
structure Verdict where
  value : Option Int
  cause : Nat := 0
  empty : Bool := false
  clamp : Option (Nat × Int) := none
  range : Kind
  deriving DecidableEq, Repr

/-- Clamp an integer into a range, or disable the feature under STRICT (R57). -/
def clampVerdict (z lo hi : Int) (strict ratio empty : Bool) (range : Kind) : Verdict :=
  let w := clampInt z lo hi
  if ratio ∧ z = 0 then { value := none, cause := 0x03, empty := empty, range := range }
  else if z = w then { value := some z, empty := empty, range := range }
  else if strict then { value := none, cause := 0x06, empty := empty, range := range }
  else { value := some w, empty := empty, clamp := some (if z < w then 0x02 else 0x01, w), range := range }

/-- The applying range and the verdict on a descriptor (R56, R57). The range of a ratio's numerator holds no 0. A signed VALUE, DMIN or DMAX is read in the field's width; a
declared range narrows an enumerated set and does not touch a bit mask (log 53). -/
def judge (kind : Kind) (d : ImgDesc) (ratio : Bool) : Verdict :=
  match kind with
  | .u lo hi =>
    let a := max lo d.dmin
    let b := min hi d.dmax
    let empty := d.ranged && decide (b < a)
    let lo := if d.ranged && !empty then a else lo
    let hi := if d.ranged && !empty then b else hi
    clampVerdict d.value lo hi d.strict ratio empty (.u lo hi)
  | .s lo hi =>
    let a := max lo (toSigned d.width d.dmin)
    let b := min hi (toSigned d.width d.dmax)
    let empty := d.ranged && (decide (b < a) || (ratio && a == 0 && b == 0))
    let lo := if d.ranged && !empty then a else lo
    let hi := if d.ranged && !empty then b else hi
    let lo := if ratio && lo == 0 then 1 else lo
    let hi := if ratio && hi == 0 then -1 else hi
    clampVerdict (toSigned d.width d.value) lo hi d.strict ratio empty (.s lo hi)
  | .e set =>
    let near := set.filter fun v => decide (d.dmin ≤ v) && decide (v ≤ d.dmax)
    let empty := d.ranged && near.isEmpty
    let set := if d.ranged && !empty then near else set
    if set.contains d.value then { value := some d.value, empty := empty, range := .e set }
    else { value := none, cause := 0x03, empty := empty, range := .e set }
  | .m mask =>
    let w := Nat.land d.value mask
    { value := some w, clamp := if w = d.value then none else some (0x04, mask), range := .m mask }
  | .none => { value := none, range := .none }

/-- KIND of a descriptor that a kind of the limit table asks for (R36). -/
def kindCode : Kind → Nat
  | .u _ _ => 0
  | .s _ _ => 1
  | .e _ => 2
  | .m _ => 3
  | .none => 4

/-- A value as a report entry shows it: 32 bits, two's complement. -/
def entryWord (z : Int) : Nat := ofSigned 32 z

/-- Write a field for a feature, and keep what was written (R56, R408). -/
def Pass.put (p : Pass) (f : Feat) (k : FKey) (z : Int) (range : Kind) : Pass :=
  let s := p.st.putKey k (ofSigned k.place.2.2 z)
  let l := s.ldr
  let l := { l with
    written := Store.set fldCode none k.1 (some (s.rd k.1.1 k.1.2)) l.written
    ranges := Store.set (fun q => 4 * fldCode q.1 + q.2) none k (some range) l.ranges }
  { p with st := { s with ldr := l }, own := (k, f) :: p.own }

/-- One descriptor (R33, R36, R39, R56 to R58). -/
def Pass.descriptor (p : Pass) (x : Sect) (d : ImgDesc) : Pass :=
  let f : Feat := (x.index, d.feature)
  let entry (cause applied limit : Nat) : Entry :=
    { plainEntry cause 1 x.index d.feature with
      target := d.target, lsb := d.lsb, width := d.width, requested := d.value, applied := applied, limit := limit }
  match findField d.target d.lsb d.width with
  | none => p.note (entry 0x20 0 0)
  | some k =>
    if kindCode (k.kind p.st.hw) ≠ d.kind then p.note (entry 0x20 0 0)
    else if !p.mayWrite x d.feature k.1 then p.note (entry 0x22 0 0)
    else if !populated p.st.hw k.1.1 k.1.2 then p.disable f (entry 0x11 0 0)
    else if p.own.any fun e => e.1 == k then p.note (entry 0x21 0 0)
    else
      let v := judge (k.kind p.st.hw) d (isRatio k.1.1)
      let shown := match v.value with
        | some z => entryWord z
        | none => 0
      let p := if v.empty then p.note (entry 0x05 shown 0) else p
      match v.value with
      | none => p.disable f (entry v.cause 0 0)
      | some z =>
        let p := match v.clamp with
          | some (c, lim) => p.note (entry c shown (entryWord lim))
          | none => p
        p.put f k z v.range

/-- Pass 2 (R49). -/
def Pass.two (p : Pass) : Pass :=
  p.img.foldl (fun q x =>
    if q.skip.contains x.index then q
    else x.descs.foldl (fun q d => if q.dis.contains (x.index, d.feature) then q else q.descriptor x d) q) p

/-! ### Pass 3: the cross-field rules -/

/-- The feature that wrote a field. -/
def Pass.owner (p : Pass) (f : Fld) (i : Nat) : Option Feat := (p.own.find? fun e => e.1.1 == (f, i)).map (·.2)

/-- The feature that wrote a field is disabled: the field returns to its reset value (R49). -/
def Pass.dead (p : Pass) (f : Fld) (i : Nat) : Bool :=
  match p.owner f i with
  | some q => p.off q
  | none => false

/-- A field's value as the rules judge it: its reset value where its feature is disabled (log 54). -/
def Pass.get (p : Pass) (f : Fld) (i : Nat := 0) : Nat := if p.dead f i then resetVal f i else p.st.rd f i
def Pass.getS (p : Pass) (f : Fld) (i : Nat := 0) : Int := toSigned f.row.width (p.get f i)

/-- Clamp a field to agree with an earlier one, and report CONSISTENCY (R59). `sect` is the section over which the rule runs. -/
def Pass.fix (p : Pass) (sect : Nat) (f : Fld) (i : Nat) (z : Int) : Pass :=
  let old := if kindCode f.row.kind = 1 then p.getS f i else (p.get f i : Int)
  if p.dead f i || old == z then p
  else
    let feat := (p.owner f i).getD (sect, 0xFFFF)
    let s := p.st.wr f i (ofSigned f.row.width z)
    let l := s.ldr
    let s := { s with ldr := { l with written := Store.set fldCode none (f, i) (some (s.rd f i)) l.written } }
    { p with st := s.report (fieldEntry 0x30 2 feat.1 feat.2 ((f, i), 0) (entryWord old) (entryWord z) 0) }

/-- Disable a feature with CONSISTENCY over a field. -/
def Pass.kill (p : Pass) (q : Feat) (f : Fld) (i : Nat) : Pass :=
  if p.off q then p else p.disable q (fieldEntry 0x30 2 q.1 q.2 ((f, i), 0) (p.get f i) 0 0)

/-- R131: entries of CMP_CHMAP name lanes that are populated and in band mode. -/
def Pass.r131 (p : Pass) : Pass :=
  (p.sects 8).foldl (fun q x => (List.range 32).foldl (fun q i =>
    let lane := q.get (.cmp .chmap) i
    if lane = 15 ∨ (lane < q.st.hw.lanes ∧ q.get (.cmp .emode) lane = 0) then q else q.fix x.index (.cmp .chmap) i 15) q) p

/-- The SHIFT entries of a station, each clamped into the window of those before it (R158). -/
def Pass.shifts (p : Pass) (sect k : Nat) (span : Int) : Pass :=
  ((List.range 64).foldl (fun (a : Pass × Option (Int × Int)) g =>
    let v := a.1.getS (.btu .shift) (64 * k + g)
    match a.2 with
    | none => (a.1, some (v, v))
    | some (lo, hi) =>
      let w := clampInt v (hi - span) (lo + span)
      (a.1.fix sect (.btu .shift) (64 * k + g) w, some (min lo w, max hi w))) (p, none)).1

/-- R158: MAXLINE, two scans in Silt, and the span of the shifts (log 55). -/
def Pass.r158 (p : Pass) : Pass :=
  (p.sects 9).foldl (fun q x =>
    let k := x.inst
    let top := q.get (.btu .designPix) k / 8
    let q := if top < q.get (.btu .maxline) k then q.fix x.index (.btu .maxline) k top else q
    let single := q.get (.btu .mode) k == 1
    let ml := q.get (.btu .maxline) k
    match siltSpan ml single with
    | none => (List.range x.features).foldl (fun q f => q.kill (x.index, f) (.btu .maxline) k) q
    | some span => q.shifts x.index k span) p

/-- R211: VMAX against STEPW. -/
def Pass.r211 (p : Pass) : Pass :=
  (p.sects 10).foldl (fun q x =>
    let top := 65536 / (2 * q.get (.mot .stepw) x.inst)
    if top < q.get (.mot .vmax) x.inst then q.fix x.index (.mot .vmax) x.inst top else q) p

/-- R225: a gear's master is a lower-numbered axis. -/
def Pass.r225 (p : Pass) : Pass :=
  (p.sects 10).foldl (fun q x =>
    let gear := match q.owner (.mot .master) x.inst with
      | some f => some f
      | none => q.owner (.mot .gratio) x.inst
    match gear with
    | some f => if x.inst ≤ q.get (.mot .master) x.inst then q.kill f (.mot .master) x.inst else q
    | none => q) p

/-- R247: UMAX is not below UMIN. -/
def Pass.r247 (p : Pass) : Pass :=
  (p.sects 11).foldl (fun q x =>
    let lo := q.getS (.cle .umin) x.inst
    if q.getS (.cle .umax) x.inst < lo then q.fix x.index (.cle .umax) x.inst lo else q) p

/-- The registers of heater channel `g`. -/
def heaterField (g : Nat) : Fld × Nat → Bool
  | (.fhv f, i) => (f == .hMode || f == .dcBal || f == .phsel || f == .gateEnd || f == .gateLead || f == .otcaSel || f == .otcaThr ||
      f == .otcbSel || f == .otcbThr) && i == g
  | _ => false

/-- R260: a heater channel with no comparator input is disabled: the features of the section that write its registers (log 56). -/
def Pass.r260 (p : Pass) : Pass :=
  (p.sects 12).foldl (fun q x => (List.range 8).foldl (fun q g =>
    if q.get (.fhv .otcaSel) g = 0 ∧ q.get (.fhv .otcbSel) g = 0 then
      q.own.reverse.foldl (fun q e =>
        if heaterField g e.1.1 && e.2.1 == x.index then q.kill e.2 (.fhv .otcaSel) g else q) q
    else q) q) p

/-- R270: a thermistor table reads no warmer at a higher code. -/
def Pass.r270 (p : Pass) : Pass :=
  (p.sects 12).foldl (fun q x => (List.range 4).foldl (fun q t => (List.range 32).foldl (fun q k =>
    let a := q.getS (.fhv .lin) (33 * t + k)
    if a < q.getS (.fhv .lin) (33 * t + k + 1) then q.fix x.index (.fhv .lin) (33 * t + k + 1) a else q) q) q) p

/-- R279: station positions and DL_LEAD. -/
def Pass.r279 (p : Pass) : Pass :=
  (p.sects 13).foldl (fun q x =>
    let gate := q.get (.pth .regGate)
    let q := (List.range q.st.hw.stations).foldl (fun q k =>
      if q.get (.pth .stnpos) k < gate then q.fix x.index (.pth .stnpos) k gate else q) q
    let lead := q.get (.pth .t0Lead) + 256
    if q.get (.pth .dlLead) < lead then q.fix x.index (.pth .dlLead) 0 lead else q) p

/-- The post kind whose mode field a field is (R433). -/
def modeKind : Fld → Option Nat
  | .pgs .admMode => some 1
  | .blk .tkoMode => some 2
  | .blk .apcMode => some 3
  | .cle .fbMode => some 4
  | .flt .mode => some 5
  | .pth .webMode => some 6
  | .pth .dispMode => some 7
  | .cal .mode => some 8
  | .pwr .mode => some 9
  | _ => none

/-- A kind is routed to a pair whose feature is not disabled (R433); a pair that no feature claims counts as routed (log 57). -/
def Pass.routed (p : Pass) (kind : Nat) : Bool :=
  let q := p.get (.mbx .route) kind
  let mine (cls first cnt : Nat) : Bool := cls == 0x10 && decide (first ≤ q) && decide (q < first + cnt)
  decide (q < 15) &&
    match p.claims.find? fun g => mine g.cls g.first g.cnt with
    | some g => !p.off (g.sect, g.feature)
    | none => !(p.img.any fun x => x.claims.any fun c => mine c.cls c.first c.cnt && p.off (x.index, c.feature))

/-- R433: a host-assisted mode needs a route. -/
def Pass.r433 (p : Pass) : Pass :=
  p.img.foldl (fun q x => q.own.reverse.foldl (fun q e =>
    match modeKind e.1.1.1 with
    | some kind => if e.2.1 = x.index ∧ q.get e.1.1.1 e.1.1.2 = 1 ∧ !q.routed kind then q.fix x.index e.1.1.1 e.1.1.2 0 else q
    | none => q) q) p

/-- The pin of the pair of pins n, n + 1 at which a rule of R448 is broken. -/
def pairFault (cls even odd : Nat) : Option Nat :=
  if cls = 2 ∧ even ≠ 0 ∧ odd ≠ 1 then some 0
  else if cls = 0 ∧ even = 0x40 ∧ odd ≠ 1 then some 0
  else if cls = 0 ∧ odd = 1 ∧ even ≠ 0x40 then some 1
  else none

/-- R448: the pins of a pair. -/
def Pass.r448 (p : Pass) : Pass :=
  p.img.foldl (fun q x => (List.range (q.st.hw.pins / 2)).foldl (fun q h =>
    let n := 2 * h
    match pairFault (pinClass n) (q.get (.eio .func) n) (q.get (.eio .func) (n + 1)) with
    | some b =>
      match q.owner (.eio .func) (n + b) with
      | some f => if f.1 = x.index then q.kill f (.eio .func) (n + b) else q
      | none => q
    | none => q) q) p

/-- R477: TGT of a shingle station. -/
def Pass.r477 (p : Pass) : Pass :=
  (p.sects 9).foldl (fun q x =>
    if q.get (.btu .mode) x.inst = 0 ∧ 16384 < q.get (.blk .tgt) x.inst then q.fix x.index (.blk .tgt) x.inst 16384 else q) p

/-! ### Pass 3: the slot schedule (R235) -/

/-- A slot's place in the schedule: slot, phase, frames per sample. -/
structure Place where
  slot : Nat
  phase : Nat
  frames : Nat
  deriving DecidableEq, Repr

/-- Executions in frame `f`. -/
def loadOf (l : List Place) (f : Nat) : Nat := l.countP fun x => f % x.frames == x.phase

/-- The fullest frame of the 10 ms cycle. -/
def fullest (l : List Place) : Nat := listMax ((List.range 1000).map (loadOf l))

/-- The fullest frame of the cycle if one more execution falls on phase `ph` of `n`, given the loads of the frames. -/
def withPhase (loads : List Nat) (n ph : Nat) : Nat :=
  listMax (loads.zipIdx.map fun x => if x.2 % n = ph then x.1 + 1 else x.1)

/-- The phase with the smallest fullest frame, the lowest on a tie, and that number. -/
def bestPhase (loads : List Nat) (n : Nat) : Nat × Nat :=
  (List.range n).foldl (fun (b : Nat × Nat) ph =>
    let m := withPhase loads n ph
    if m < b.2 then (ph, m) else b) (0, withPhase loads n 0)

/-- A value that the loader computes: it counts as written by the load (R408). -/
def State.assign (s : State) (f : Fld) (i v : Nat) : State :=
  let s := s.wr f i v
  let d := s.ldr
  { s with ldr := { d with written := Store.set fldCode none (f, i) (some v) d.written } }

/-- Assign the phases, over the enabled slots in ascending number; slots that no longer fit are disabled. -/
def Pass.schedule (p : Pass) : Pass :=
  let a := (List.range p.st.hw.slots).foldl (fun (a : Pass × List Place) n =>
    if a.1.get (.cle .slotEn) n = 0 then a
    else
      let fr := periodFrames (a.1.get (.cle .period) n)
      let b := bestPhase ((List.range 1000).map (loadOf a.2)) fr
      if 40 < b.2 then
        match a.1.owner (.cle .slotEn) n with
        | some f => (a.1.kill f (.cle .slotEn) n, a.2)
        | none => a
      else (a.1, a.2 ++ [{ slot := n, phase := b.1, frames := fr }])) (p, [])
  let q := a.1.propagate 2
  let l := a.2.filter fun x => q.get (.cle .slotEn) x.slot == 1
  let s := l.foldl (fun t x =>
    let pos := l.countP fun y => decide (y.slot < x.slot) && x.phase % y.frames == y.phase
    (t.assign (.cle .schedPhase) x.slot x.phase).assign (.cle .schedPos) x.slot pos) q.st
  { q with st := s.assign (.cle .schedLoad) 0 (fullest l) }

/-- Step 4 of pass 3: the fields of disabled features return to reset values. -/
def Pass.resetDisabled (p : Pass) : Pass :=
  let s := p.own.foldl (fun t e =>
    if p.off e.2 then
      let k := e.1
      let w := k.place.2.2
      let raw := if k.2 = 2 then resetVal k.1.1 k.1.2 / 2 ^ 32 else resetVal k.1.1 k.1.2
      let t := t.putKey k (raw % 2 ^ w)
      let l := t.ldr
      let v := if k.2 = 0 then none else some (t.rd k.1.1 k.1.2)
      { t with ldr := { l with
          written := Store.set fldCode none k.1 v l.written
          ranges := Store.set (fun q => 4 * fldCode q.1 + q.2) none k none l.ranges } }
    else t) p.st
  { p with st := s }

/-- Pass 3 (R49). -/
def Pass.three (p : Pass) : Pass :=
  let rules : List (Pass → Pass) :=
    [Pass.r131, Pass.r158, Pass.r211, Pass.r225, Pass.r247, Pass.r260, Pass.r270, Pass.r279, Pass.r433, Pass.r448, Pass.r477]
  let p := rules.foldl (fun q f => (f q).propagate 2) (p.propagate 2)
  p.schedule.resetDisabled

/-- All three passes over a parsed image. -/
def runPasses (s : State) (img : List Sect) : Pass := (({ st := s, img := img } : Pass).one.two).three

end Sys2Proof.Machine
end

