-- ==== Sys2Proof/Machine/Reset.lean ====
section
/-! DEFINITION. Reset sources, the reference, RSTC commands and option byte writes (R401 to R404, R409, R413). -/

namespace Sys2Proof.Machine

open Sys2Proof

/-- RESET_N or TAP at reach 3 (R403): power-down without the disarm wait, an on request latched, AON reset when VIO33 has fallen. -/
def State.coldSource (s : State) (src : Nat) : State :=
  let s := ((s.setPwr { s.pwr with cold := true, onLatch := true }).showLatch).sourceAssert src
  match s.istate with
  | 0 => s.moduleOff
  | 1 => s.railsDown
  | 2 => (s.toI 3).offProceed
  | 3 => if s.on (.pwr .offPend) then s.offProceed else s
  | _ => s

/-- Whether a source can assert now: COLD asserts by itself when AON is reset; POWER only while the on-module sequence is not ON;
REF_LOSS only while the reference is lost; TAP never while J25 is locked (R401). -/
def State.sourceCan (s : State) (src : Nat) : Bool :=
  match src with
  | 1 => false
  | 2 => s.istate != 2
  | 6 => !s.on (.rstc .refOk)
  | 8 => !s.fuses.testLocked
  | _ => true

/-- RESET_SOURCE_ASSERT (R404). -/
def resetSourceAssert (src : Nat) (s : State) : State :=
  if !s.sourceCan src then s
  else if src = 0 then s.aonReset true
  else if (src = 3 ∨ src = 8) ∧ s.effReach src = 3 then s.coldSource src
  else (s.sourceAssert src).offWaited

def execResetSourceAssert (src : Nat) (s : State) : Res := guardWF (decide (src < 12)) (resetSourceAssert src s)

/-- Whether a source can deassert now (R401). -/
def State.sourceMayEnd (s : State) (src : Nat) : Bool :=
  match src with
  | 2 => s.istate == 2
  | 6 => s.on (.rstc .refOk)
  | 11 => s.flt.resetting.isEmpty
  | _ => true

/-- RESET_SOURCE_DEASSERT (R404). -/
def execResetSourceDeassert (src : Nat) (s : State) : Res :=
  guardWF (decide (src < 12)) (if s.sourceMayEnd src then s.sourceDeassert src else s)

/-- REFERENCE_LOSS (R402): REF_OK falls; source 11 of Carabid follows with the next report. -/
def execReferenceLoss (s : State) : Res := guardWF true (s.clr (.rstc .refOk))

/-- REFERENCE_RESTORED (R402). -/
def execReferenceRestored (s : State) : Res := guardWF true ((s.ev (.rstc .refOk)).sourceDeassert 6)

/-- OP of an RSTC_CMD write; its key is right. -/
def rstcOp (v : Word) : Nat := v.toNat % 8
def rstcKey (v : Word) : Bool := v.toNat / 65536 == 0x2E57

/-- Refuse a reset command. -/
def State.rstcRefuse (s : State) : State := s.ev (.rstc .cmdErr)

/-- A DIE command (R409). -/
def State.dieCmd (s : State) : State := if s.engineArmed then s.rstcRefuse else s.sourceAssert 10

/-- A DOMAIN command (R409). -/
def State.domainCmd (s : State) (d : Nat) : State :=
  if s.engineArmed || d == 0 || decide (8 < d) then s.rstcRefuse
  else if d = 2 then s.sourceAssert 10
  else ({ s with rst := { s.rst with named := mainDoms.getD (d - 1) .ctl } }).sourceAssert 9

def execCmdDomain (v : Word) (s : State) : Res :=
  guardWF (rstcOp v == 1) (s.hostWrite .rstc 0 fun s =>
    if rstcKey v then s.domainCmd (bitField v.toNat 4 4) else s)

def execCmdDie (v : Word) (s : State) : Res := guardWF (rstcOp v == 2) (s.hostWrite .rstc 0 fun s =>
    if rstcKey v then s.dieCmd else s)

/-- COLD (R403, R409): R385 in full, with an on request latched. -/
def State.coldCommand (s : State) : State :=
  (s.setPwr { s.pwr with cold := true, coldCmd := true, onLatch := true }).showLatch.offRequest

def execCold (v : Word) (s : State) : Res := guardWF (rstcOp v == 3) (s.hostWrite .rstc 0 fun s =>
    if rstcKey v then s.coldCommand else s)

/-- The 64 bytes staged in RSTC_OBW with SEQNO and CRC replaced (R413). -/
def State.obStaged (s : State) (seqno : Nat) : List Nat :=
  let l := ((List.range 16).flatMap fun w => leBytes (s.rd (.rstc .obw) w) 4).take 56 ++ leBytes (seqno % 2 ^ 32) 4
  l ++ leBytes (crc32c (l.map fun b => BitVec.ofNat 8 b)) 4

/-- OB_WRITE (R413): the copy that does not hold the valid entry with the higher SEQNO is written; a write that runs already
refuses another one. -/
def State.obWriteNow (s : State) : State :=
  if s.on (.rstc .obBusy) then s.rstcRefuse
  else
    let a := obSeqno s.fram.ob0
    let b := obSeqno s.fram.ob1
    let copy := otherSlot a b
    let bytes := s.obStaged (seqMax a b + 1)
    let f := s.fram
    let f := if copy = 0 then { f with ob0 := [] } else { f with ob1 := [] }
    { s.ev (.rstc .obBusy) with fram := f, rst := { s.rst with obWrite := some (copy, bytes) } }

def execObWrite (v : Word) (s : State) : Res := guardWF (rstcOp v == 4) (s.hostWrite .rstc 0 fun s =>
    if rstcKey v then s.obWriteNow else s)

/-- OB_WRITE_DONE (R413). -/
def obWriteDone (ok : Bool) (s : State) : State :=
  match s.rst.obWrite with
  | none => s
  | some (copy, bytes) =>
    let f := s.fram
    let f := if !ok then f else if copy = 0 then { f with ob0 := bytes } else { f with ob1 := bytes }
    let s := { s.clr (.rstc .obBusy) with fram := f, rst := { s.rst with obWrite := none } }
    if ok then s else s.ev (.rstc .obFail)

def execObWriteDone (ok : Bool) (s : State) : Res := guardWF true (obWriteDone ok s)

end Sys2Proof.Machine
end

