-- ==== Sys2Proof/Machine/Loader.lean ====
section
/-! DEFINITION. Loading, committing, arming and fuse commands (R46 to R68, R478). -/

namespace Sys2Proof.Machine

open Sys2Proof

/-- Change the loader's running state. -/
def State.setLoader (s : State) (l : Loader) : State := { s with ldr := l }

/-! ### Load requests (R46, R47, R50, R51) -/

/-- A rejection: REJECT and LOAD_FAIL; the other flash slot is tried where R47 applies, else the previous state returns. -/
def State.loadRejected (s : State) (cause : Nat) : State :=
  let s := ((s.wr (.ldr .reject) 0 cause).ev (.ldr .loadFail)).globalIrq .irqLoad
  let l := s.ldr
  if l.mayFallBack && !l.second && s.on (.ldr .fallback) then
    s.setLoader { l with source := 3 - l.source, second := true }
  else s.setLoader { l with st := l.prev, source := 0, mayFallBack := false, second := false }

/-- Start reading a source. -/
def State.loadStart (s : State) (src : Nat) (mayFallBack : Bool) : State :=
  let l := s.ldr
  s.setLoader { l with
    prev := l.st, st := .verifying, source := src, mayFallBack := mayFallBack, second := false, started := s.etime }

/-- FIRST_SLOT of the option bytes, as a source (R47, R411). -/
def State.firstSlot (s : State) : Nat := 1 + s.obByte 3 / 2 % 2

/-- A load request (R50, R51). Only SRC 0 and automatic loading try the other slot (log 58); a request for the staging area while a
context is open fails at once (R46). -/
def State.loadRequest (s : State) : State :=
  if s.ldr.st = .empty ∨ s.ldr.st = .loaded then
    match s.rd (.ldr .src) with
    | 0 => s.loadStart s.firstSlot true
    | 3 => if s.anyOpen then (s.loadStart 3 false).loadRejected 14 else s.loadStart 3 false
    | n => s.loadStart n false
  else s.ev (.ldr .ignored)

/-- COMMIT (R54): without a staged image COMMIT_FAIL is set at once (log 59). Until the commit has ended the slot holds an image that
fails its CRC or signature (R55, log 62). -/
def State.commitRequest (s : State) : State :=
  if s.on (.ldr .commitBusy) then s.ev (.ldr .ignored)
  else
    match s.ldr.staged with
    | none => (s.ev (.ldr .commitFail)).globalIrq .irqCommit
    | some img =>
      let l := s.ldr
      let slot := s.rd (.ldr .commitSlot)
      let l := if slot = 0 then { l with flash0 := img, cut0 := true } else { l with flash1 := img, cut1 := true }
      (s.ev (.ldr .commitBusy)).setLoader { l with commit := some { slot := slot, image := img } }

/-- A write to LDR_CTL (R66): SRC, FALLBACK and COMMIT_SLOT take their values, then LOAD and COMMIT act. -/
def State.ldrCtl (s : State) (v : Word) : State :=
  let n := v.toNat
  let s := ((s.wr (.ldr .src) 0 (bitField n 1 2)).wr (.ldr .fallback) 0 (bitField n 3 1)).wr (.ldr .commitSlot) 0 (bitField n 5 1)
  let s := if v.getLsbD 0 then s.loadRequest else s
  if v.getLsbD 4 then s.commitRequest else s

def execLoadRequest (v : Word) (s : State) : Res := guardWF (v.getLsbD 0) (s.hostWrite .ldr 0 fun s => s.ldrCtl v)
def execCommit (v : Word) (s : State) : Res := guardWF (v.getLsbD 4) (s.hostWrite .ldr 0 fun s => s.ldrCtl v)

/-- AUTO_LOAD (R47): after SEQ is released, while the state is EMPTY and AUTOLOAD is set. -/
def autoLoad (s : State) : State :=
  if s.up .seq && s.ldr.st == .empty && s.obByte 3 % 2 == 1 then s.loadStart s.firstSlot true else s

def execAutoLoad (s : State) : Res := guardWF true (autoLoad s)

/-! ### The start of APPLYING (R414, R429, R478) -/

/-- Axes that move are stopped, as by STOP. -/
def State.applyStops (s : State) : State :=
  (List.range s.hw.axes).foldl (fun t k => if t.axSt k = 2 ∨ t.axSt k = 3 then t.axStop k .stop else t) s

/-- PGS: admitted contexts become SPOILED with CAUSE 7, their bands are reclaimed, and they pass at once to DELIVERED; STAGE stays. -/
def State.applyContexts (s : State) : State :=
  let s := (s.loam.ctxs.filter fun e => e.2.spoilable).foldl (fun t e =>
    let c := e.1
    let t := ((t.setCtx c { t.ctx c with cause := 7 }).toState c .spoiled).closeDecision 1 c
    ((t.closeDecision 7 c).finishAll c).toState c .delivered) s
  let s := (s.loam.ctxs.filter fun e => e.2.st == .spoiled).foldl (fun t e =>
    ((t.closeDecision 7 e.1).finishAll e.1).toState e.1 .delivered) s
  { s with loam := { s.loam with request := false, withheld := false, hostOk := none } }

/-- The status fields and event bits of a block whose running state returns to reset (R478, log 60). -/
def applyClears (f : Fld) : Bool :=
  (f.row.acc == .ro || f.row.acc == .w1c) &&
    match f with
    | .cmp .vfail => false
    | .cmp _ => true
    | .btu _ => true
    | .blk _ => true
    | .mot .cmdpos => false
    | .mot .actpos => false
    | .mot _ => true
    | .cle _ => true
    | .fhv .mainsOk => false
    | .fhv .mainsLost => false
    | .fhv .zcGlitch => false
    | .fhv .vrms => false
    | .fhv .freq => false
    | .fhv .halfper => false
    | .fhv .zc => false
    | .fhv .otcA => false
    | .fhv .otcB => false
    | .fhv .fbhiTrip => false
    | .fhv .tCode => false
    | .fhv .tOpen => false
    | .fhv .tShort => false
    | .fhv .tval => false
    | .fhv .pCode => false
    | .fhv .pOpen => false
    | .fhv _ => true
    | .pth .ppos => false
    | .pth .mpos => false
    | .pth .lrate => false
    | .pth .sLevel => false
    | .pth .sEdges => false
    | .pth _ => true
    | _ => false

/-- Motion keeps its status while it comes to rest. -/
def isMot : Fld → Bool
  | .mot _ => true
  | _ => false

/-- Engines and slots that are isolated show it (R137, R245). -/
def State.showIsolated (s : State) : State :=
  s.flt.isolated.foldl (fun t u =>
    match u with
    | .engine n => t.wr (.cmp .jState) n 7
    | .slot n => t.wr (.cle .state) n 5
    | _ => t) s

/-- What applying an image does to running state at the start of APPLYING (R478). -/
def State.applyRunning (s : State) : State :=
  let s := s.releasePins.applyStops.applyContexts.idleChannels
  let s := (List.range 24).foldl (fun t n => t.jobForget n 0) s
  let s := (List.range 8).foldl (fun t k => t.recalAbandon k) s
  let s := (List.range 8).foldl (fun t g => t.setGate g false) s
  let s := (s.closeKinds [2, 3, 4, 6, 7]).resetFields fun f _ => applyClears f && !isMot f
  let s := s.showIsolated
  let f := s.fhv
  let p := s.pth
  let m := s.mbx
  let s : State := { s with
    stns := [], lnks := [], slots := [], capture := {}
    fhv := { f with heaters := [], high := [] }
    pth := { sensors := p.sensors, fast := p.fast, history := p.history }
    mbx := { m with queues := [], waiting := m.waiting.filter fun w => kindAnswered w.kind }
    cores := { s.cores with service := false } }
  let s := (List.range s.hw.stations).foldl (fun t k => (t.clr (.blk .ldReq) k).idle k 0) s
  if s.estate = 0 then s else s.extDown

/-- All checks have passed: APPLYING begins (R50, R59, R429). -/
def State.applyStart (s : State) : State :=
  let l := s.ldr
  let img := s.sourceBytes l.source (parseHeader (s.sourceBytes l.source 64)).length
  let s := s.setLoader { l with
    st := .applying, image := img, imageSource := l.source, imageSecond := l.second, report := [], mayFallBack := false, second := false,
    source := 0 }
  let s := (((s.clr (.ldr .clamped)).clr (.ldr .repLoaded)).clr (.ldr .repLost)).clr (.glb .expert)
  (s.wrB (.ldr .unsecured) 0 s.fuses.allBlank).applyRunning

/-- The loader's read of a staged image goes through Loam's error correction (R70): corrected errors are counted, and an
uncorrectable one is recorded. It is not read when an earlier check has failed (R48). -/
def State.readStaged (s : State) (readOk : Bool) : State :=
  let h := parseHeader (s.sourceBytes s.ldr.source 64)
  if s.ldr.source = 3 ∧ readOk ∧ !s.anyOpen ∧ s.up .mem ∧ headerOk h ∧ h.fmtMajor = 1 ∧ lengthOk h (s.sourceRoom 3) then
    (s.readEcc 0 h.length).2
  else s

/-- IMAGE_VERIFY_COMPLETE (R48, R50). -/
def imageVerifyComplete (readOk : Bool) (s : State) : State :=
  if s.ldr.st = .verifying then
    let c := s.imageFault s.ldr.source readOk
    let s := s.readStaged readOk
    let s := (s.freshIf (s.sourceCut s.ldr.source) 1).2
    if c = 0 then s.applyStart else s.loadRejected c
  else s

def execImageVerifyComplete (readOk : Bool) (s : State) : Res := guardWF true (imageVerifyComplete readOk s)

/-! ### The end of APPLYING (R49, R50, R280, R478) -/

/-- Configuration fields that R49 returns to reset values: all but the ring registers (R478) and the contexts' DISP. -/
def applyResets (f : Fld) (i : Nat) : Bool :=
  isConfig f i &&
    match f with
    | .ldr _ => false
    | .rstc _ => false
    | .dma .ring => false
    | .dma .ringLog => false
    | .dma .tail => false
    | .pgs .disp => false
    | _ => true

/-- A pin is bound to path sensor `i` (R447, R285). -/
def State.sensorBound (s : State) (i : Nat) : Bool :=
  (List.range s.hw.pins).any fun n => s.rd (.eio .func) n == 0x30 && s.rd (.eio .unit) n == i

/-- A PATH feature that would set up the exit sensor of output 0 is disabled (R280). -/
def Pass.exitOff (p : Pass) : Bool :=
  p.img.any fun x => x.ty == 13 && x.descs.any fun d => p.dis.contains (x.index, d.feature) &&
    match findField d.target d.lsb d.width with
    | some k => k.1 == (.pth .exitEn, 0) || k.1 == (.pth .exitSensor, 0)
    | none => false

/-- PATH_INCOMPLETE after a load (R280, R318, log 61); `exitOff`: the exit sensor feature of output 0 is disabled. -/
def State.pathLacks (s : State) (exitOff : Bool) : Bool :=
  !(s.ldr.sections.any fun x => x.ty == 13 && x.feature0) ||
    (!s.web && !s.isSlave &&
      (!s.sensorBound (s.rd (.pth .regSensor)) || exitOff ||
        (s.on (.pth .exitEn) 0 && !s.sensorBound (s.rd (.pth .exitSensor) 0))))

/-- An AWAIT record whose sources are all in hardware mode now reacts with their severities and unit actions (R354, R478). -/
def State.recordHardware (s : State) (r : Nat) : State :=
  let x := s.fltRec r
  if x.st = 2 then
    let sev := max x.sev (listMax (x.srcs.map s.srcSev))
    let s := (s.setRec r { x with st := 1, sev := sev }).sevRise x.sev sev
    (x.srcs.foldl (fun t n => t.actOn n (t.srcAct n) (t.unitMask n)) s).reactOn
  else s

/-- The function of an open decision is host-assisted under the new image (R478). -/
def State.decisionHosted (s : State) (kind unit : Nat) : Bool :=
  match kind with
  | 1 => s.on (.pgs .admMode)
  | 5 => (s.fltRec unit).srcs.any s.srcHost
  | _ => false

/-- Each open decision is posted again, or taken in hardware mode (R478). -/
def State.repost (s : State) : State :=
  let m := s.mbx
  let open_ : List Waiting := m.decisions.map (fun d => { kind := d.kind, unit := d.unit, data := d.data }) ++ m.waiting
  open_.foldl (fun t d =>
    let t := t.closeDecision d.kind d.unit
    if t.decisionHosted d.kind d.unit && (t.routeOf d.kind).isSome then t.post d.kind d.unit d.data
    else if d.kind = 5 then t.recordHardware d.unit
    else t) s

/-- LDR_DIGEST: byte 0 of the hash in bits 7 to 0 of word 0. -/
def State.showDigest (s : State) (img : List Byte) : State :=
  let b := beBytes 32 (sha256 (signedPart img))
  (List.range 8).foldl (fun t i => t.wr (.ldr .digest) i (leAt b (4 * i) 4)) s

/-- The loader's own fields at LOADED (R65, R66). -/
def State.showLoaded (s : State) : State :=
  let l := s.ldr
  let h := parseHeader l.image
  let s := (s.wr (.ldr .source) 0 l.imageSource).wrB (.ldr .fellback) 0 l.imageSecond
  let s := (s.wrB (.ldr .clamped) 0 (!l.report.isEmpty)).wr (.ldr .repLoaded) 0 l.report.length
  let s := ((s.wr (.ldr .serial) 0 h.serial).wr (.ldr .fmtMajor) 0 h.fmtMajor).wr (.ldr .fmtMinor) 0 h.fmtMinor
  let v := Config.payloadVersion (payload l.image)
  let s := ((s.wr (.ldr .fwMajor) 0 (bitField v 24 8)).wr (.ldr .fwMinor) 0 (bitField v 16 8)).wr (.ldr .fwBuild) 0 (bitField v 0 16)
  let s := ((s.wr (.ldr .imgSecver) 0 h.secver).wr (.ldr .loadtime) 0 ((s.etime - l.started) / 1000)).showDigest l.image
  ((s.ev (.ldr .loadDone)).globalIrq .irqLoad)

/-- The sections that stand, and whether their feature 0 is enabled. -/
def Pass.applied (p : Pass) : List Applied :=
  (p.img.filter fun x => !p.skip.contains x.index).map fun x =>
    { ty := x.ty, inst := x.inst, feature0 := !p.off (x.index, 0) }

/-- Pass 3 has ended: LOADED (R50). -/
def State.loaded (s : State) : State :=
  let s := s.resetFields applyResets
  let s := { s.resetFields (fun f _ => applyClears f && isMot f) with axes := [] }
  let l := s.ldr
  let s := s.setLoader { l with written := [], ranges := [], sections := [], grants := [] }
  let s := { s with hold := [] }
  let p := runPasses s (parseImage l.image)
  let s := p.st
  let d := s.ldr
  let s := s.setLoader { d with
    sections := p.applied, grants := p.claims.filter fun g => !p.off (g.sect, g.feature)
    loadEntries := d.report.length, strictArm := (parseHeader d.image).strictArm
    staged := if d.imageSource = 3 then some d.image else d.staged }
  let s := s.wrB (.pth .pathIncomplete) 0 (s.pathLacks p.exitOff)
  let s := (s.setLdr .loaded).showLoaded.repost.drainWaiting.settleGate
  if (s.on (.pwr .extAuto) || s.pwr.extLatch) ∧ s.istate = 2 then s.extStart else s

/-- APPLY_COMPLETE (R49, R393, R478): once every axis is at rest and the external sequence is OFF. -/
def applyComplete (s : State) : State :=
  if s.ldr.st = .applying ∧ s.estate = 0 ∧ (List.range s.hw.axes).all (fun k => (s.axis k).still) then s.loaded else s

def execApplyComplete (s : State) : Res := guardWF true (applyComplete s)

/-! ### Commit (R54, R55) -/

/-- COMMIT_COMPLETE: the slot holds the image when programming and read-back succeeded; otherwise the image there goes on failing its
CRC or signature (log 62). -/
def commitComplete (ok : Bool) (s : State) : State :=
  match s.ldr.commit with
  | none => s
  | some j =>
    let l := s.ldr
    let l := if j.slot = 0 then { l with cut0 := !ok } else { l with cut1 := !ok }
    let s := (s.clr (.ldr .commitBusy)).setLoader { l with commit := none }
    (if ok then s else s.ev (.ldr .commitFail)).globalIrq .irqCommit

def execCommitComplete (ok : Bool) (s : State) : Res := guardWF true (commitComplete ok s)

/-! ### Arming (R60 to R63) -/

/-- Record a refusal. -/
def State.armRefuse (s : State) (n : Nat) : State := s.wr (.ldr .armRefuse) 0 n

/-- The first condition of R61 that is not met, coded as ARM_REFUSE; 0 when all hold. -/
def State.armFault (s : State) : Nat :=
  if s.ldr.st = .disarming then 6
  else if s.ldr.st ≠ .loaded then 1
  else if !s.on (.cal .puDone) || s.on (.cal .puBad) then 2
  else if !s.on (.pwr .allQual) then 3
  else if s.recordAt 2 then 4
  else if s.ldr.strictArm ∧ s.ldr.loadEntries ≠ 0 then 7
  else 0

/-- Arm, or record the refusal (R61, R62); running injections end (R254), and the feed grid starts with the next feed point (R284). -/
def State.armNow (s : State) : State :=
  match s.armFault with
  | 0 =>
    let s := (List.range s.hw.slots).foldl (fun t n => t.clr (.cle .injAct) n) s
    { s.setLdr .armed with pth := { s.pth with feedBase := none } }
  | n => s.armRefuse n

/-- LDR_ARM writes (R60). -/
def armKey (v : Word) : Bool := v.toNat % 65536 == 0xA4E5

def execArm (v : Word) (s : State) : Res :=
  guardWF (!v.getLsbD 31) (s.hostWrite .ldr 0 fun s => if armKey v then s.armNow else s.armRefuse 5)
def execDisarm (v : Word) (s : State) : Res :=
  guardWF (v.getLsbD 31) (s.hostWrite .ldr 0 fun s => if armKey v then s.disarmNow else s)

/-! ### The clamp report (R67) -/

/-- CLR_EXPERT: expert entries go, LOST is cleared. -/
def State.clrExpert (s : State) : State :=
  let l := s.ldr
  (s.clr (.ldr .repLost)).setLoader { l with report := l.report.filter fun e => e.origin != 3 }

def execClrExpert (v : Word) (s : State) : Res := guardWF (v.getLsbD 0) (s.hostWrite .ldr 0 fun s => s.clrExpert)

/-! ### Fuses (R44, R45, R68) -/

def fuseOp (v : Word) : Nat := v.toNat % 8
def fuseSlot (v : Word) : Nat := v.toNat / 8 % 4

/-- The staged key hash as a number: byte 0 in bits 7 to 0 of LDR_FUSEDATA0. -/
def State.stagedHash (s : State) : Nat :=
  beNat (((List.range 8).flatMap fun i => leBytes (s.rd (.ldr .fusedata) i) 4).map fun b => BitVec.ofNat 8 b)

/-- A key slot is programmed and not revoked. -/
def KeySlot.usable : KeySlot → Bool
  | .programmed _ => true
  | _ => false

/-- The slots after a revocation of slot `i`: a blank slot may be revoked too (log 63). -/
def revokeSlot (l : List KeySlot) (i : Nat) : List KeySlot :=
  l.set i (match l.getD i .blank with
    | .programmed h => .revoked h
    | .revoked h => .revoked h
    | .blank => .revoked 0)

/-- What a fuse command would do, if its own conditions hold (R68). -/
def State.fuseJob (s : State) (op slot : Nat) : Option FuseCmd :=
  match op with
  | 1 => if s.fuses.slots.getD slot .blank = .blank then some (.programKey slot s.stagedHash) else none
  | 2 => if (revokeSlot s.fuses.slots slot).any KeySlot.usable then some (.revoke slot) else none
  | 3 => if s.ldr.st = .loaded then some (.advance (s.rd (.ldr .imgSecver))) else none
  | 4 => some .lockTest
  | _ => none

/-- A fuse command (R68): carried out in EMPTY or LOADED, with the key, and with no other one running; else FUSE_ERR. -/
def State.fuseCommand (s : State) (v : Word) : State :=
  if (s.ldr.st = .empty ∨ s.ldr.st = .loaded) ∧ !s.on (.ldr .fuseBusy) ∧ v.toNat / 65536 = 0xF05E then
    match s.fuseJob (fuseOp v) (fuseSlot v) with
    | some j =>
      let l := s.ldr
      (s.ev (.ldr .fuseBusy)).setLoader { l with fuseCmd := some j }
    | none => s.ev (.ldr .fuseErr)
  else s.ev (.ldr .fuseErr)

def execProgramKey (v : Word) (s : State) : Res := guardWF (fuseOp v == 1) (s.hostWrite .ldr 0 fun s => s.fuseCommand v)
def execRevoke (v : Word) (s : State) : Res := guardWF (fuseOp v == 2) (s.hostWrite .ldr 0 fun s => s.fuseCommand v)
def execAdvanceSecver (v : Word) (s : State) : Res := guardWF (fuseOp v == 3) (s.hostWrite .ldr 0 fun s => s.fuseCommand v)
def execLockTestPort (v : Word) (s : State) : Res := guardWF (fuseOp v == 4) (s.hostWrite .ldr 0 fun s => s.fuseCommand v)

/-- The fuses after a command. -/
def Fuses.burn (f : Fuses) : FuseCmd → Fuses
  | .programKey i h => { f with slots := f.slots.set i (.programmed h) }
  | .revoke i => { f with slots := revokeSlot f.slots i }
  | .advance n => { f with seccount := max f.seccount n }
  | .lockTest => { f with testLocked := true }

/-- FUSE_COMMAND_DONE (R68): FUSE_ERR if the fuses do not verify; they then stay as they were (log 64). A command that succeeds leaves
FUSE_ERR to the host's W1C (log 135). A locked test port drives no pin any more (R416, R444). -/
def fuseCommandDone (verified : Bool) (s : State) : State :=
  match s.ldr.fuseCmd with
  | none => s
  | some j =>
    let l := s.ldr
    let s := (s.clr (.ldr .fuseBusy)).setLoader { l with fuseCmd := none }
    if verified then
      { s with
        fuses := s.fuses.burn j
        eio := { s.eio with boundary := if j = .lockTest then [] else s.eio.boundary } }
    else s.ev (.ldr .fuseErr)

def execFuseCommandDone (verified : Bool) (s : State) : Res := guardWF true (fuseCommandDone verified s)

end Sys2Proof.Machine
end

