-- ==== Sys2Proof/Machine/Host.lean ====
section
/-! DEFINITION. The host interface: register writes judged field by field (R6 to R9, R26), the commands of mixed registers, BAR0
accesses that meet nothing (R5, R423, R424), the PCIe link (R420, R425), MSI-X gating (R427) and the mailboxes (R433 to R436).
A write of a register that holds plain fields only is REGISTER_WRITE; command registers have rows of their own. -/

namespace Sys2Proof.Machine

open Sys2Proof

/-! ### One field of a write (R7, R26) -/

/-- The access code lets the write through, in the arming and expert state of the moment it arrives (R6, R7). -/
def State.permits (s : State) (a : Access) : Bool :=
  match a with
  | .rw => true
  | .rwl => !s.engineArmed
  | .rwx => s.on (.glb .expert)
  | .ro => false
  | .w1c => false

/-- Instances of writable fields that read a constant: routes of kinds that do not exist (R437), and MODE of a hardware-only source
(R354). A write of one takes nothing and is no refusal: ACCESS_DENIED stays (log 136). -/
def fixedField (f : Fld) (i : Nat) : Bool :=
  match f with
  | .mbx .route => decide (i < 1) || decide (9 < i)
  | .flt .mode => srcFixed i
  | _ => false

/-- The range that bounds an expert write: the applying range of the loaded image, or the hardware range (R26, R56); for a SHIFT
entry also the window of the other 63 entries (R158). -/
def State.expertRange (s : State) (k : FKey) : Kind :=
  let r := match Store.get none k s.ldr.ranges with
    | some r => r
    | none => k.kind s.hw
  match k.1.1, r with
  | .btu .shift, .s lo hi =>
    let st := k.1.2 / 64
    let others := ((List.range 64).filter fun g => 64 * st + g != k.1.2).map fun g => s.rdS (.btu .shift) (64 * st + g)
    match siltSpan (s.rd (.btu .maxline) st) (s.rd (.btu .mode) st == 1) with
    | none => r
    | some span => .s (max lo (others.foldl max (-31) - span)) (min hi (others.foldl min 31 + span))
  | _, r => r

/-- What an expert write of raw bits leaves to write; `none` where an enumerated set turns it away (R26, R57). -/
def expertVerdict (range : Kind) (w raw : Nat) : Verdict :=
  match range with
  | .u lo hi => clampVerdict raw lo hi false false false range
  | .s lo hi => clampVerdict (toSigned w raw) lo hi false false false range
  | .e set => if set.contains raw then { value := some raw, range := range } else { value := none, cause := 0x03, range := range }
  | .m mask =>
    let v := Nat.land raw mask
    { value := some v, clamp := if v = raw then none else some (0x04, mask), range := range }
  | .none => { value := some raw, range := range }

/-- The raw bits that an accepted write of a field takes, and the report entry an expert write makes (R26, R59). -/
def State.limited (s : State) (k : FKey) (raw : Nat) : Option Nat × State :=
  if k.1.1.row.acc != .rwx then (some raw, s)
  else
    let w := k.place.2.2
    let range := s.expertRange k
    let v := expertVerdict range w raw
    let req := match range with
      | .s _ _ => entryWord (toSigned w raw)
      | _ => raw
    match v.value, v.clamp with
    | some z, none => (some (ofSigned w z), s)
    | some z, some (cause, lim) => (some (ofSigned w z), s.report (fieldEntry cause 3 0xFFFF 0xFFFF k req (entryWord z) (entryWord lim)))
    | none, _ => (none, s.report (fieldEntry v.cause 3 0xFFFF 0xFFFF k req 0 0))

/-- A limit of a ramp that NO_OVERSHOOT holds until the ramp ends (R210). -/
def State.takeRampLimit (s : State) (f : Fld) (a v : Nat) : State :=
  if s.on (.mot .noOvershoot) a && (s.axis a).a != 0 then
    ({ s with live := Store.set fldCode none (f, a) (some (s.lv f a)) s.live }.ev (.mot .pendLim) a).wr f a v
  else s.wr f a v

/-- Write a field that accepts the write, with the values that spec/ takes otherwise than written. -/
def State.accept (s : State) (f : Fld) (i v : Nat) : State :=
  match f with
  | .btu .margin => s.take f i (max 102400 v)
  | .btu .ew => s.take f i (max 1 (min 64 v))
  | .btu .mode =>
    let s := s.wr f i v
    if v = 0 ∧ 16384 < s.rd (.blk .tgt) i then s.take (.blk .tgt) i 16384 else s
  | .blk .tgt => s.take f i (max 1 (min (if s.shingle i then 16384 else 32768) v))
  | .mot .num => if v = 0 then s else s.wr f i v
  | .mot .den => if v = 0 then s else s.wr f i v
  | .pth .pnum => if v = 0 then s else s.wr f i v
  | .pth .pden => if v = 0 then s else s.wr f i v
  | .mot .amax => s.takeRampLimit f i v
  | .mot .dmax => s.takeRampLimit f i v
  | .mot .jmax => s.takeRampLimit f i v
  | .pth .axmask => s.wr f i (match kindOf s.hw f i with
      | .m mask => Nat.land v mask
      | _ => v)
  | .dma .ring => s.wr f i (v / 32 * 32)
  | .mbx .route => (s.wr f i v).drainWaiting
  | .cmp .emode =>
    let was := s.rd f i
    let s := s.wr f i v
    if was = 1 ∧ v ≠ 1 ∧ s.rd (.cmp .jState) i ≠ 7 then s.jobForget i 0 else s
  | .cle .slotEn => ((s.take f i v).pwmLeave i (s.pwmPin i)).settleHeaters
  | .cle .outKind => ((s.take f i v).pwmLeave i (s.pwmPin i)).settleHeaters
  | .cle .outIndex => ((s.take f i v).pwmLeave i (s.pwmPin i)).settleHeaters
  | f => s.take f i v

/-- The units of a path event source go with its event bit (R348). -/
def State.dropUnits (s : State) (src : Nat) : State := { s with pth := { s.pth with units := s.pth.units.filter fun e => e.1 != src } }

/-- What clearing an event bit ends besides the bit: the units of a path event (R348). -/
def State.clearEvent (s : State) (f : Fld) (i : Nat) : State :=
  let s := s.clr f i
  match f with
  | .pth .jam => s.dropUnits 34
  | .pth .skewEv => s.dropUnits 36
  | .pth .lenEv => s.dropUnits 37
  | .pth .stray => s.dropUnits 38
  | .pth .webBreak => s.dropUnits 40
  | _ => s

/-- Judge one field of a written word (R6, R7): the state after it, and whether the write of it was refused. -/
def State.judgeField (s : State) (sl : Slice) (word : Nat) : State × Bool :=
  let f := sl.fld
  let i := sl.idx
  let v := bitField word sl.lsb f.row.width
  if !populated s.hw f i || fixedField f i then (s, false)
  else
    match f.row.acc with
    | .ro => (s, false)
    | .w1c => (if v = 1 ∧ f ≠ .blk .tempTrip then s.clearEvent f i else s, false)
    | a =>
      if s.permits a then
        let r := s.limited ((f, i), 0) v
        match r.1 with
        | some w => (r.2.accept f i w, false)
        | none => (r.2, false)
      else (s, v != s.rd f i)

/-- A boundary register of a station takes a write: a new timing set is due (R163, R176). -/
def Slice.boundary (s : State) (sl : Slice) : Bool :=
  sl.fld.row.latch == .boundary && populated s.hw sl.fld sl.idx && s.permits sl.fld.row.acc

/-- Judge every field of the register at an offset (R7); one refused field that would change sets ACCESS_DENIED. -/
def State.judgeWord (s : State) (addr word : Nat) : State :=
  let sls := (slicesAt addr).filter fun sl => decide (sl.fld.row.width ≤ 32)
  let r := sls.foldl (fun (a : State × Bool) sl =>
    let b := a.1.judgeField sl word
    (b.1, a.2 || b.2)) (s, false)
  let t := match sls.find? (Slice.boundary s) with
    | some sl => r.1.queueSet (sl.fld.outer sl.idx)
    | none => r.1
  if r.2 then t.deny else t

/-! ### Writable pairs (R9) -/

/-- The writable pair that has a half at an offset: field, instance, and whether it is the upper half. -/
def writablePair (addr : Nat) : Option (Fld × Nat × Bool) :=
  let w (x : Option (Fld × Nat)) : Option (Fld × Nat) := x.filter fun p => p.1.row.acc != .ro && p.1.row.acc != .w1c
  match w (pairAt addr) with
  | some p => some (p.1, p.2, false)
  | none => if addr < 4 then none else (w (pairAt (addr - 4))).map fun p => (p.1, p.2, true)

/-- The lower half in force. -/
def State.lowHalf (s : State) (f : Fld) (i : Nat) : Nat := s.rd f i % 2 ^ 32

/-- The upper half in force. -/
def State.highHalf (s : State) (f : Fld) (i : Nat) : Nat := s.rd f i / 2 ^ 32

/-- PAIR_LOW_WRITE: an accepted half goes into the holding register; a refused one that differs is denied. -/
def State.pairLow (s : State) (f : Fld) (i word : Nat) : State :=
  if !populated s.hw f i then s
  else if s.permits f.row.acc then
    let r := s.limited ((f, i), 1) word
    match r.1 with
    | some w => { r.2 with hold := Store.set fldCode none (f, i) (some w) r.2.hold }
    | none => r.2
  else if word ≠ s.lowHalf f i then s.deny else s

/-- The lower half that an upper write moves: the one held, or the one in force. -/
def State.heldLow (s : State) (f : Fld) (i : Nat) : Nat :=
  match Store.get none (f, i) s.hold with
  | some w => w
  | none => s.lowHalf f i

/-- PAIR_HIGH_WRITE: both halves move in one step; the holding register then holds the lower half in force. -/
def State.pairHigh (s : State) (f : Fld) (i word : Nat) : State :=
  let v := word % 2 ^ (f.row.width - 32)
  if !populated s.hw f i then s
  else if s.permits f.row.acc then
    let r := s.limited ((f, i), 2) v
    match r.1 with
    | some w =>
      let t := r.2.accept f i (2 ^ 32 * w + r.2.heldLow f i)
      { t with hold := Store.erase (f, i) t.hold }
    | none => r.2
  else if v ≠ s.highHalf f i then s.deny else s

/-! ### Registers that mix fields and commands -/

/-- The station of a BTU or BLK offset; 0 for the other blocks. -/
def stationAt (addr : Nat) : Nat := if addr < 0x400000 ∨ 0x580000 ≤ addr then 0 else addr / 0x10000 % 16

/-- A write of BLK_CTL: its fields, then RESTART (R182) and a change of LD_REQ (R199). -/
def State.blkCtl (s : State) (k word : Nat) : State :=
  let was := s.on (.blk .ldReq) k
  let s := s.judgeWord ((Fld.blk .ldReq).addr k) word
  if decide (s.hw.stations ≤ k) then s
  else
    let s := if bitField word 4 1 = 1 then s.linkRestart k else s
    s.ldReq k was (bitField word 0 1 == 1)

/-- A write of BLK_STATUS: events, then TEMP_TRIP (R198). -/
def State.blkStatus (s : State) (k word : Nat) : State :=
  let s := s.judgeWord ((Fld.blk .lstate).addr k) word
  if bitField word 9 1 = 1 ∧ s.on (.blk .tempTrip) k then s.clearTrip k else s

/-- A write of DMA_CTL: its fields, then the first of START, STOP and RESET (R341, log 66). -/
def State.dmaCtl (s : State) (n word : Nat) : State :=
  let s := s.judgeWord ((Fld.dma .prio).addr n) word
  if bitField word 0 1 = 1 then Machine.dmaStart n s
  else if bitField word 1 1 = 1 then Machine.dmaStop n s
  else if bitField word 2 1 = 1 then Machine.dmaReset n s
  else s

/-- The effect of a word on a register without a command of its own in it. MOT_SEGJ holds the jerk of the next segment (R224). -/
def State.writeWord (s : State) (addr word : Nat) : State :=
  let k := stationAt addr
  if addr = (Fld.blk .ldReq).addr k then s.blkCtl k word
  else if addr = (Fld.blk .lstate).addr k then s.blkStatus k word
  else if 0x600000 ≤ addr ∧ addr < 0x606000 ∧ addr % 0x200 = 0xE0 then
    let a := (addr - 0x600000) / 0x200
    if a < s.hw.axes then s.setAxis a { s.axis a with segj := toSigned 32 word } else s
  else s.judgeWord addr word

/-- The word at this offset is a command with a row of its own, or half of a writable pair. -/
def ownRow (addr word : Nat) : Bool :=
  let op (lsb w lo hi : Nat) : Bool := decide (lo ≤ bitField word lsb w) && decide (bitField word lsb w ≤ hi)
  let any (l : List Nat) : Bool := l.any fun b => bitField word b 1 == 1
  (writablePair addr).isSome ||
  match blockAt addr with
  | some .glb => addr == 0x10 || addr == 0x14
  | some .ldr => (addr == 0x10000 && any [0, 4]) || addr == 0x1000C || (addr == 0x10024 && any [0]) || (addr == 0x10060 && op 0 3 1 4)
  | some .rstc => addr == 0x20000 && op 0 3 1 4
  | some .pwr => addr == 0x30008 && op 0 3 1 4
  | some .flt => addr == 0x40008 || addr == 0x4000C || (addr == 0x40010 && op 16 2 1 2)
  | some .cal => (addr == 0x50008 && op 0 2 1 3) || addr == 0x50010
  | some .dma => (addr % 0x100 == 0 && any [0, 1, 2]) || addr % 0x100 == 0x14
  | some .cmp => decide (addr < 0x206000) && addr % 0x400 == 0 && any [0, 1, 2, 3]
  | some .pgs => addr == 0x300008 && op 0 3 1 4
  | some .blk => (addr % 0x10000 == 0 && any [4]) || (addr % 0x10000 == 4 && any [9]) || (addr % 0x10000 == 0x28 && op 8 2 1 2)
  | some .mot => decide (addr < 0x606000) &&
      ((addr % 0x200 == 4 && op 0 4 1 11) || addr % 0x200 == 0xE4 || (addr % 0x200 == 0xB8 && any [4, 12]))
  | some .cle => (decide (addr < 0x708000) && addr % 0x100 == 4 && op 0 4 1 11) || (addr == 0x708020 && any [0, 1, 2])
  | some .fhv =>
      (decide (0x800100 ≤ addr) && decide (addr < 0x800200) && addr % 32 == 4 && any [2, 3]) ||
      (decide (0x801000 ≤ addr) && decide (addr < 0x801600) && addr % 32 == 4 && any [3])
  | some .pth => (addr == 0x900008 && op 0 3 1 4) || addr == 0x90006C
  | some .eio => decide (addr < 0xA01000) && addr % 16 == 8 && any [5]
  | some .mbx => decide (addr < 0xC01000) && (addr % 0x100 == 8 || addr % 0x100 == 0xC)
  | _ => false

/-- A BAR0 offset that an aligned 32-bit access can name (R5, R421). -/
def bar0Offset (addr : Nat) : Bool := addr % 4 == 0 && decide (addr < 0x4000000)

/-- REGISTER_WRITE (R7): an offset of no block drops the write (R422), and in APPLYING such a write is denied like every other (R52). -/
def registerWrite (addr word : Nat) (s : State) : State :=
  match blockAt addr with
  | none => if s.barUp && s.ldr.st == .applying then s.deny else s
  | some b => s.hostWrite b (stationAt addr) fun s => s.writeWord addr word

def execRegisterWrite (addr : Nat) (v : Word) (s : State) : Res :=
  guardWF (bar0Offset addr && !ownRow addr v.toNat) (registerWrite addr v.toNat s)

/-- MISALIGNED_BAR0_ACCESS (R5): Unsupported Request, and nothing changes. -/
def execMisalignedBar0Access (addr bytes : Nat) (write : Bool) (s : State) : Res :=
  guardWF (decide (addr < 0x4000000) && (addr % 4 != 0 || bytes != 4) && (write || !write)) (if s.barUp then s.emit .unsupported else s)

/-- A write of one half of a pair. -/
def State.pairWrite (s : State) (addr : Nat) (g : Fld → Nat → State → State) : State :=
  match writablePair addr with
  | some (f, i, _) => s.hostWrite f.block (stationAt addr) (g f i)
  | none => s

def execPairLowWrite (addr : Nat) (v : Word) (s : State) : Res :=
  guardWF (bar0Offset addr && ((writablePair addr).map (·.2.2)) == some false) (s.pairWrite addr fun f i s => s.pairLow f i v.toNat)

def execPairHighWrite (addr : Nat) (v : Word) (s : State) : Res :=
  guardWF (bar0Offset addr && ((writablePair addr).map (·.2.2)) == some true) (s.pairWrite addr fun f i s => s.pairHigh f i v.toNat)

/-! ### BLK_CTL, BLK_STATUS, DMA_CTL and DMA_TAIL -/

/-- LINK_RESTART (R182). -/
def execLinkRestart (k : Nat) (v : Word) (s : State) : Res :=
  guardWF (decide (k < 8) && v.getLsbD 4) (s.hostWrite .blk k fun s => s.blkCtl k v.toNat)

/-- LD_REQUEST (R199). -/
def execLdRequest (k : Nat) (v : Word) (s : State) : Res :=
  guardWF (decide (k < 8) && v.getLsbD 0) (s.hostWrite .blk k fun s => s.blkCtl k v.toNat)

/-- TEMP_TRIP_CLEAR (R198). -/
def execTempTripClear (k : Nat) (v : Word) (s : State) : Res :=
  guardWF (decide (k < 8) && v.getLsbD 9) (s.hostWrite .blk k fun s => s.blkStatus k v.toNat)

/-- DMA_START (R341). -/
def execDmaStart (n : Nat) (v : Word) (s : State) : Res :=
  guardWF (decide (n < 32) && v.getLsbD 0) (s.hostWrite .dma 0 fun s => s.dmaCtl n v.toNat)

/-- DMA_STOP (R341). -/
def execDmaStop (n : Nat) (v : Word) (s : State) : Res :=
  guardWF (decide (n < 32) && v.getLsbD 1 && !v.getLsbD 0) (s.hostWrite .dma 0 fun s => s.dmaCtl n v.toNat)

/-- DMA_RESET (R341). -/
def execDmaReset (n : Nat) (v : Word) (s : State) : Res :=
  guardWF (decide (n < 32) && v.getLsbD 2 && !v.getLsbD 1 && !v.getLsbD 0) (s.hostWrite .dma 0 fun s => s.dmaCtl n v.toNat)

/-- DMA_TAIL_WRITE (R325): descriptors from HEAD to TAIL are pending; DESCRIPTOR_FETCH takes them. -/
def execDmaTailWrite (n : Nat) (v : Word) (s : State) : Res :=
  guardWF (decide (n < 32)) (s.hostWrite .dma 0 fun s => s.wr (.dma .tail) n v.toNat)

/-! ### Heartbeat and expert level -/

/-- HEARTBEAT_WRITE (R21): HOST_LOST ends; the period's own running is HEARTBEAT_EXPIRY's. -/
def execHeartbeatWrite (_v : Word) (s : State) : Res :=
  guardWF true (s.hostWrite .glb 0 fun s => if s.up .seq then { s with cores := { s.cores with heartbeat := false } } else s)

/-- EXPERT_KEY_WRITE (R429). -/
def execExpertKeyWrite (v : Word) (s : State) : Res :=
  guardWF true (s.hostWrite .glb 0 fun s => s.wrB (.glb .expert) 0 (v.toNat % 65536 == 0xE4A7))

/-! ### Accesses that meet nothing -/

/-- ISOLATED_ACCESS (R423): a read of an island in reset or isolation returns all ones, a write is dropped; both set ISO_ACCESS. Where
the island answers, the access is not this one. -/
def isolatedAccess (addr : Nat) (write : Bool) (s : State) : State :=
  match blockAt addr with
  | none => s
  | some b =>
    if !s.barUp || s.blockUp b (stationAt addr) then s
    else if write then s.isoAccess
    else s.isoAccess.emit (.readData 0xFFFFFFFF)

def execIsolatedAccess (addr : Nat) (write : Bool) (s : State) : Res := guardWF (bar0Offset addr) (isolatedAccess addr write s)

/-- Bytes that a BAR spans (R421). -/
def barSize : Bar → Nat
  | .bar0 => 0x4000000
  | .bar2 => 0x100000000
  | .bar4 => 0x4000

/-- POISONED_WRITE (R424). -/
def execPoisonedWrite (bar : Bar) (addr : Nat) (s : State) : Res :=
  guardWF (decide (addr < barSize bar)) (if s.barUp then s.emit (.aerPoisoned addr) else s)

/-! ### The PCIe link and MSI-X -/

/-- PCIE_LINK_DOWN (R425): the link leaves DL_Active, and reset source 5 asserts. -/
def pcieLinkDown (s : State) : State :=
  if s.pcie.linkUp then (({ s with pcie := { s.pcie with linkUp := false } }).sourceAssert 5).offWaited else s

def execPcieLinkDown (s : State) : Res := guardWF true (pcieLinkDown s)

/-- PCIE_LINK_UP (R425, R431): the endpoint trains once HOST is out of reset. -/
def pcieLinkUp (speed width : Nat) (s : State) : State :=
  if s.up .host then
    (({ s with pcie := { s.pcie with linkUp := true } }).wr (.glb .pcieSpeed) 0 speed).wr (.glb .pcieWidth) 0 width
  else s

def execPcieLinkUp (speed width : Nat) (s : State) : Res :=
  guardWF (decide (1 ≤ speed) && decide (speed ≤ 5) && [1, 2, 4, 8].contains width) (pcieLinkUp speed width s)

/-- D3HOT_ENTRY (R420): the BARs stop responding. -/
def execD3hotEntry (s : State) : Res :=
  guardWF true (if s.pcie.linkUp && s.up .host then { s with pcie := { s.pcie with d3hot := true } } else s)

/-- Pending vectors that may now be sent go out, one message each (R427). -/
def State.sendPending (s : State) : State :=
  if s.pcie.msixEnable && !s.pcie.functionMask then
    let go := (List.range 256).filter fun v => s.pcie.pendingBits.contains v && s.pcie.unmasked.contains v
    let p := s.pcie
    let s := { s with pcie := { p with pendingBits := p.pendingBits.filter fun v => !go.contains v } }
    go.foldl (fun t v => t.emit (.msix v)) s
  else s

/-- MSIX_UNMASK (R427): a change of MSI-X Enable, the function mask or a vector's mask bit. -/
def msixUnmask (op : MsixOp) (s : State) : State :=
  if !(s.pcie.linkUp && s.up .host) then s
  else
    let p := s.pcie
    let p := match op with
      | .enable b => { p with msixEnable := b }
      | .functionMask b => { p with functionMask := b }
      | .vectorMask v b => { p with unmasked := (p.unmasked.filter (· != v)) ++ if b then [] else [v] }
    ({ s with pcie := p }).sendPending

def execMsixUnmask (op : MsixOp) (s : State) : Res :=
  guardWF (match op with
    | .vectorMask v _ => decide (v < 256)
    | _ => true) (msixUnmask op s)

/-! ### Mailboxes (R433 to R436) -/

/-- MBX_POST (R435): the `i`-th post that waits enters its routed pair if there is room, and waits on otherwise. -/
def mbxPost (i : Nat) (s : State) : State :=
  match s.mbx.waiting[i]? with
  | none => s
  | some w =>
    match s.routeOf w.kind with
    | none => s
    | some p =>
      if (s.posts p).length < 32 then
        ({ s with mbx := { s.mbx with waiting := s.mbx.waiting.eraseIdx i } }).enqueue p w.kind w.unit w.data
      else s

def execMbxPost (i : Nat) (s : State) : Res := guardWF true (mbxPost i s)

/-- A DMA channel has begun a PERIPH descriptor on a pair. -/
def State.pairTaken (s : State) (p : Nat) : Bool :=
  s.dma.chans.any fun e => e.2.begun && match e.2.desc with
    | some d => d.kind == 4 && d.arg0 % 64 == p
    | none => false

/-- MBX_POP (R435). -/
def mbxPop (p : Nat) (s : State) : State := if s.pairTaken p then s.ev (.mbx .popRefused) p else s.popPosts p 1

def execMbxPop (p : Nat) (s : State) : Res := guardWF (decide (p < 16)) (s.hostWrite .mbx 0 fun s => mbxPop p s)

/-- The open decision that an MBX_ANSWER names, with a code its kind allows (R433, R436). -/
def State.answered (s : State) (p token code : Nat) : Option Decision :=
  s.mbx.decisions.find? fun d =>
    d.pair == p && d.token == token && (d.kind == 1 || d.kind == 2) && (code == 1 || code == 2)

/-- An accepted answer on a takeover (R195): KEEP changes nothing; SPOIL uncovers the row from the next boundary. -/
def State.takeoverAnswer (s : State) (k b code : Nat) : State :=
  if code = 2 then s.setBeam k b { (s.lnk k).beam b with spoilPend := true } else s

/-- MBX_ANSWER (R436). -/
def mbxAnswer (p : Nat) (v : Word) (s : State) : State :=
  let code := bitField v.toNat 16 8
  match s.answered p (v.toNat % 65536) code with
  | none => s.ev (.mbx .ansRefused) p
  | some d =>
    let s := { s with mbx := { s.mbx with decisions := s.mbx.decisions.erase d } }
    if d.kind = 1 then s.admitAnswer d.unit code else s.takeoverAnswer d.unit (d.data.headD 0) code

def execMbxAnswer (p : Nat) (v : Word) (s : State) : Res := guardWF (decide (p < 16)) (s.hostWrite .mbx 0 fun s => mbxAnswer p v s)

end Sys2Proof.Machine
end

