-- ==== Sys2Proof/Machine/View.lean ====
section
/-! DEFINITION. What a BAR0 read returns: the register fields that the state holds, and the fields and windows that are computed
from the running state when they are read. PAIR_LOW_READ (R9) is the one read with a row of its own: the others change nothing. -/

namespace Sys2Proof.Machine

open Sys2Proof

/-- A number whose bit `i` is `p i`, for `i` below `n`. -/
def maskOf (n : Nat) (p : Nat → Bool) : Nat := ((List.range n).map fun i => if p i then 2 ^ i else 0).sum

/-- A word of a byte list. -/
def wordOf (l : List Nat) (w : Nat) : Nat := l.getD (4 * w) 0 + 2 ^ 8 * l.getD (4 * w + 1) 0 + 2 ^ 16 * l.getD (4 * w + 2) 0 +
  2 ^ 24 * l.getD (4 * w + 3) 0

/-- Context states as PGS_CTX_STATE codes them (R82). -/
def CtxState.code : CtxState → Nat
  | .free => 0 | .opened => 1 | .closed => 2 | .ready => 3 | .blocked => 4 | .admitted => 5 | .imaging => 6 | .exposed => 7
  | .spoiled => 8 | .stalled => 9 | .delivered => 10

/-- Band states as PGS_BANDREC0 codes them (R76). -/
def BandState.code : BandState → Nat
  | .free => 0 | .filling => 1 | .checking => 2 | .verified => 3 | .failed => 4 | .incomplete => 5 | .reclaiming => 6

/-- A clamp report entry as its 32 bytes (R59). -/
def Entry.bytes (e : Entry) (n : Nat) : List Nat :=
  leBytes n 2 ++ [e.cause, e.origin] ++ leBytes e.sect 2 ++ leBytes e.feature 2 ++ leBytes e.target 4 ++ [e.lsb, e.width, e.cls, 0] ++
    leBytes e.requested 4 ++ leBytes e.applied 4 ++ leBytes e.limit 4 ++ leBytes e.winSection 2 ++ leBytes e.winFeature 2

/-- GLB registers with no stored field (R431). -/
def State.readGlb (s : State) (a : Nat) : Nat :=
  let h := s.hw
  let idecs := if h.exL then 8 else 4
  match a with
  | 0x00 => 0xAED0 + 2 ^ 16 * 0x04
  | 0x04 => (if h.exL then 1 else 2) + 2 ^ 8 * 0xA1 + 2 ^ 16 * (h.moduleRev % 256)
  | 0x0C => 2 ^ 3 * bit s.engineArmed + 2 ^ 4 * bit s.cores.heartbeat
  | 0x20 => s.etime % 2 ^ 32
  | 0x24 => s.etime / 2 ^ 32 % 2 ^ 32
  | 0x28 => h.serial % 2 ^ 32
  | 0x2C => h.serial / 2 ^ 32 % 2 ^ 32
  | 0x30 => h.stations + 2 ^ 4 * h.lanes + 2 ^ 8 * idecs + 2 ^ 12 * (if h.exL then 8 else 0) + 2 ^ 16 * h.axes
  | 0x34 => h.slots + 2 ^ 8 * h.hvs + 2 ^ 16 * h.ains + 2 ^ 24 * (if h.exL then 16 else 8)
  | 0x38 => h.pins + 2 ^ 16 * h.sources
  | _ => 0

/-- LDR: state, counts, fuses and the report window (R59, R66). -/
def State.readLdr (s : State) (a : Nat) : Nat :=
  let slot : KeySlot → Nat
    | .blank => 0
    | .programmed _ => 1
    | .revoked _ => 2
  if 0x18000 ≤ a then
    let n := (a - 0x18000) / 32
    match s.ldr.report[n]? with
    | some e => wordOf (e.bytes n) (a % 32 / 4)
    | none => 0
  else
    match a with
    | 0x10004 => s.ldr.st.code
    | 0x1001C => 2 ^ 16 * s.fuses.seccount
    | 0x10020 => 2 ^ 11 * s.ldr.report.length
    | 0x10064 => (s.fuses.slots.zipIdx.map fun e => slot e.1 * 4 ^ e.2).sum + 2 ^ 10 * bit s.fuses.testLocked + 2 ^ 16 * s.fuses.seccount
    | _ => 0

/-- RSTC_SRC (R401, R418): DOMAIN reads 0 for a source that names no domain (log 114). -/
def State.readRstc (s : State) (a : Nat) : Nat :=
  if 0x20040 ≤ a ∧ a < 0x20070 then
    let n := (a - 0x20040) / 4
    fusedReach n + 2 ^ 4 * s.setReach n + 2 ^ 8 * s.effReach n + (if fusedReach n = 1 then 2 ^ 12 * domCode (s.namedDom n) else 0)
  else 0

/-- PWR: measured voltages, which spec/ leaves to the hardware (open values), and the first-failure log (R390, R395). -/
def State.readPwr (s : State) (a : Nat) : Nat :=
  let slot (l : LogSlot) (w : Nat) : Nat := wordOf l.bytes w
  if a = 0x30010 then (s.fresh 12).1
  else if 0x30040 ≤ a ∧ a < 0x30070 then (s.fresh 16).1
  else if a = 0x30004 then 2 ^ 22 * bit (!s.fram.log0.torn || !s.fram.log1.torn)
  else if 0x30300 ≤ a ∧ a < 0x30340 then slot s.fram.log0 ((a - 0x30300) / 4)
  else if 0x30340 ≤ a ∧ a < 0x30380 then slot s.fram.log1 ((a - 0x30340) / 4)
  else 0

/-- A unit set in the layout of FLT_ISO (R361). -/
def unitWord (l : List UnitId) (i : Nat) : Nat :=
  if i < 2 then maskOf 32 fun m => l.contains (.axis (32 * i + m))
  else if i < 6 then maskOf 32 fun m => l.contains (.slot (32 * (i - 2) + m))
  else if i = 6 then maskOf 24 fun m => l.contains (.engine m)
  else maskOf 8 fun m => l.contains (.station m)

/-- FLT: status, active sources, unit sets, source configuration bits and records (R361, R362). -/
def State.readFlt (s : State) (a : Nat) : Nat :=
  let opened := s.flt.records.filter fun e => e.2.st != 0
  if a = 0x40004 then
    bit (s.recordAt 2) + 2 * bit (s.recordAt 3) + 2 ^ 2 * bit s.curRec.isSome + 2 ^ 3 * ((s.curRec.map (·.1)).getD 0) +
      2 ^ 8 * opened.length + 2 ^ 19 * bit s.flt.aonTakeover
  else if 0x40020 ≤ a ∧ a < 0x40038 then maskOf 32 fun m => s.flt.active.contains (32 * ((a - 0x40020) / 4) + m)
  else if 0x40040 ≤ a ∧ a < 0x40060 then unitWord s.flt.isolated ((a - 0x40040) / 4)
  else if 0x40060 ≤ a ∧ a < 0x40080 then unitWord s.flt.retpend ((a - 0x40060) / 4)
  else if 0x40080 ≤ a ∧ a < 0x400A0 then
    maskOf 32 fun m => (s.unitMask (s.rd (.flt .unitsel))).contains (32 * ((a - 0x40080) / 4) + m)
  else if 0x40400 ≤ a ∧ a < 0x40700 then
    let n := (a - 0x40400) / 4
    if n < s.hw.sources then
      2 ^ 8 * (srcRow n).lo + 2 ^ 12 * (srcRow n).hi + 2 ^ 16 * bit (s.flt.active.contains n) + 2 ^ 17 * bit (srcFixed n)
    else 0
  else if 0x42000 ≤ a ∧ a < 0x42800 then
    wordOf ((s.fltRec ((a - 0x42000) / 64)).bytes.map BitVec.toNat) (a % 64 / 4)
  else 0

/-- PGS: gate status, space, band records and contexts (R97, R98, R305). -/
def State.readPgs (s : State) (a : Nat) : Nat :=
  if a = 0x300004 then
    2 ^ 3 * s.head.getD 0 + 2 ^ 11 * bit s.head.isSome + 2 ^ 16 * bit (decide (s.freeExtents < s.rd (.pgs .lowspace)))
  else if a = 0x30002C then s.freeExtents
  else if a = 0x300030 then 131072 - (s.loam.bands.filter fun e => e.2.st != .free).length
  else if 0x300054 ≤ a ∧ a < 0x300064 then
    let b := s.band (s.rd (.pgs .bandsel))
    match (a - 0x300054) / 4 with
    | 0 => b.st.code + 2 ^ 3 * b.plane + 2 ^ 6 * bit b.hostcomp + 2 ^ 7 * bit b.repaired + 2 ^ 8 * b.ctx + 2 ^ 16 * b.band
    | 1 => b.storedLen + 2 ^ 21 * b.extents.length
    | 2 => b.rawLen
    | _ => b.crc
  else if 0x308000 ≤ a ∧ a < 0x30C000 then
    let c := (a - 0x308000) / 64
    let x := s.ctx c
    match a % 64 / 4 with
    | 0 => x.st.code + 2 ^ 4 * x.cause
    | 1 => x.planes + 2 ^ 8 * bit x.res1200 + 2 ^ 16 * x.lineBytes
    | 2 => x.linesM1
    | 3 => x.tag
    | 4 => x.verified.getD 0 0 + 2 ^ 16 * x.verified.getD 1 0
    | 5 => x.verified.getD 2 0 + 2 ^ 16 * x.verified.getD 3 0
    | 6 => x.verified.getD 4 0 + 2 ^ 16 * x.verified.getD 5 0
    | 7 => x.verified.getD 6 0 + 2 ^ 16 * x.verified.getD 7 0
    | 8 => x.peak
    | 9 => x.seq
    | 10 => x.admitTime % 2 ^ 32
    | 11 => x.admitTime / 2 ^ 32 % 2 ^ 32
    | 12 => x.lastLine
    | 13 => x.faultBand + 2 ^ 24 * x.faultPlane
    | 14 => s.pathPos c + 2 ^ 20 * x.stage + 2 ^ 24 * x.pcause + 2 ^ 28 * bit x.spoilPend
    | _ => 0
  else 0

/-- A boundary write of the station is pending (R163). -/
def State.boundaryPend (s : State) (k : Nat) : Bool :=
  s.live.any fun e => e.1.1.row.latch == .boundary && e.1.1.outer e.1.2 == k

/-- BTU: BUSY, PEND and the Silt partition (R158, R159, R163). -/
def State.readBtu (s : State) (a : Nat) : Nat :=
  let k := stationAt a
  if s.hw.stations ≤ k then 0
  else
    match a % 0x10000 with
    | 0x4 => 2 ^ 3 * bit (s.busy k) + 2 ^ 4 * bit (s.boundaryPend k)
    | 0x30 =>
      let ml := s.rd (.btu .maxline) k
      siltSlots ml + 2 ^ 16 * (siltSpan ml (!s.shingle k)).getD 0
    | _ => 0

/-- BLK: LREADY (R201). -/
def State.readBlk (s : State) (a : Nat) : Nat :=
  let k := stationAt a
  if a % 0x10000 = 4 ∧ k < s.hw.stations then 2 ^ 4 * bit (s.lready k) else 0

/-- MOT: the segments that wait (R224), and the axes that are neither DISABLED nor off (R230). -/
def State.readMot (s : State) (a : Nat) : Nat :=
  if a < 0x606000 ∧ a % 0x200 = 0xE8 then (s.axis ((a - 0x600000) / 0x200)).segs.length
  else if a = 0x608004 ∨ a = 0x608008 then maskOf 32 fun m =>
      let k := 32 * ((a - 0x608004) / 4) + m
      s.axSt k != 0 && s.rd (.mot .axtype) k != 3
  else 0

/-- CLE: running slots, a pending shadow set, and the capture window (R255, R257). -/
def State.readCle (s : State) (a : Nat) : Nat :=
  if 0x708004 ≤ a ∧ a < 0x708014 then
    maskOf 32 fun m => let st := s.slotSt (32 * ((a - 0x708004) / 4) + m); decide (1 ≤ st) && decide (st ≤ 3)
  else if a < 0x708000 ∧ a % 0x100 = 8 then 2 ^ 3 * bit (s.live.any fun e =>
      isShadow e.1.1 && e.1.2 == (a - 0x700000) / 0x100 && e.2 != some (s.rd e.1.1 e.1.2))
  else if 0x740000 ≤ a ∧ a < 0x780000 then
    let n := (a - 0x740000) / 16
    if n < s.rd (.cle .capCount) then wordOf ((s.captureSample n).map BitVec.toNat) (a % 16 / 4) else 0
  else 0

/-- FHV: HOFF (R268). -/
def State.readFhv (s : State) (a : Nat) : Nat :=
  if 0x800100 ≤ a ∧ a < 0x800200 ∧ a % 32 = 4 then 2 * bit (s.heaterBlocked ((a - 0x800100) / 32)) else 0

/-- EIO: CLASS, LEVEL and the pins that have a flag set (R445, R449, R468). -/
def State.readEio (s : State) (a : Nat) : Nat :=
  let n := (a - 0xA00000) / 16
  if a < 0xA01000 then
    if s.hw.pins ≤ n then 0
    else if a % 16 = 0 then 2 ^ 16 * pinClass n
    else if a % 16 = 8 then (s.pinLevel n).1
    else 0
  else if 0xA08000 ≤ a ∧ a < 0xA08020 then
    maskOf 32 fun m =>
      let n := 32 * ((a - 0xA08000) / 4) + m
      s.pinFlag n || s.on (.eio .pair) n
  else 0

/-- MBX: queue state and head window (R437). -/
def State.readMbx (s : State) (a : Nat) : Nat :=
  let p := (a - 0xC00000) / 256
  if a < 0xC01000 then
    let r := a % 256
    if r = 4 then (s.posts p).length + 2 ^ 6 * bit (s.mbx.waiting.any fun w => s.routeOf w.kind == some p)
    else if 0x40 ≤ r ∧ r < 0x80 then
      match s.posts p with
      | x :: _ => wordOf (x.bytes.map BitVec.toNat) ((r - 0x40) / 4)
      | [] => 0
    else 0
  else 0

/-- DMA: the channels that have BAD_EV set (R343). -/
def State.readDma (s : State) (a : Nat) : Nat := if a = 0x108000 then maskOf 32 fun n => s.on (.dma .badEv) n else 0

/-- An engine of R138 is in service: a compressor and its verify decompressor with their lane, an imaging decompressor with the gate
(R91, R137). -/
def State.engineInService (s : State) (n : Nat) : Bool :=
  if n < 8 then s.laneInService n
  else if n < 16 then s.up .cmp && s.decInService (n - 8)
  else s.hw.engine n && s.up .cmp && s.rd (.cmp .jState) n != 7

/-- CMP: the engines in service (R138). -/
def State.readCmp (s : State) (a : Nat) : Nat := if a = 0x208004 then maskOf 24 s.engineInService else 0

/-- The computed part of a register. -/
def State.readComputed (s : State) (b : Block) (a : Nat) : Nat :=
  match b with
  | .glb => s.readGlb a | .ldr => s.readLdr a | .rstc => s.readRstc a | .pwr => s.readPwr a | .flt => s.readFlt a
  | .cal => if 0x51000 ≤ a ∧ a < 0x51800 then s.results.getD ((a - 0x51000) / 4) 0 else 0
  | .dma => s.readDma a | .cmp => s.readCmp a | .pgs => s.readPgs a | .btu => s.readBtu a | .blk => s.readBlk a | .mot => s.readMot a | .cle => s.readCle a
  | .fhv => s.readFhv a
  | .pth => if a = 0x900004 then 2 ^ 16 * s.tracked else 0
  | .eio => s.readEio a
  | .csl => if a = 0xB00004 then s.cslRole + 2 ^ 2 * bit (s.hw.msel != .nc) else 0
  | .mbx => s.readMbx a

/-- The imaging decompressor that is engine `n` of R138, at work for a station: the station and the band record in its stream; the
lowest station comes first (R101). -/
def State.imagingEngine (s : State) (n : Nat) : Option (Nat × Nat) :=
  if 8 ≤ n ∧ n < 16 ∧ s.rd (.cmp .jState) n = 0 then
    (List.range 8).findSome? fun k =>
      if s.rd (.pgs .decAssign) k = n - 8 then (s.streamOf k).map fun e => (k, e.2) else none
  else none

/-- The output of the band in an imaging decompressor's stream that Silt has taken (R128). -/
def State.imagingOut (s : State) (k r : Nat) : List Byte :=
  let b := s.band r
  let x := s.ctx b.ctx
  let lines := ((x.plane k).silt - 256 * b.band * x.grid) / x.grid
  ((bandDecode (s.readable b) b.storedLen (s.expect b)).2.out.toList).take (lines * x.lineBytes)

/-- What a stored field shows; a few are computed in place of their stored value: decompressors in service (R91), HOFF, the headroom
mask in single mode (R190), the link delays (R312), and what an imaging decompressor has in work (R134, R138): a station whose Silt is full holds it in
OUT_FULL. -/
def State.shown (s : State) (f : Fld) (i : Nat) : Nat :=
  match f with
  | .pgs .decState => bit (s.decInService i)
  | .fhv .hoff => 0
  | .mot .dirOut => bit (s.dirLevel i)
  | .csl .delay => s.linkDelay (if i = 0 then .a else .b)
  | .blk .headroom => if s.shingle (i / 128) then s.rd f i else 0
  | .cmp .jState => match s.imagingEngine i with
    | some (k, _) => if siltSlots (s.rd (.btu .maxline) k) ≤ s.rd (.btu .siltfill) k then 2 else 1
    | none => s.rd f i
  | .cmp .bandRec => ((s.imagingEngine i).map (·.2)).getD (s.rd f i)
  | .cmp .bandRecValid => if (s.imagingEngine i).isSome then 1 else s.rd f i
  | .cmp .crc => match s.imagingEngine i with
    | some (k, r) => crc32c (s.imagingOut k r)
    | none => s.rd f i
  | f => s.rd f i

/-- The value of the register at an offset, in force, without latches (R6, R8, R9). -/
def State.readReg (s : State) (a : Nat) : Nat :=
  match blockAt a with
  | none => 0
  | some b =>
    let low (sl : Slice) : Nat := 2 ^ sl.lsb * (s.shown sl.fld sl.idx % 2 ^ 32)
    let stored := ((slicesAt a).map low).sum
    let upper := if a < 4 then none else pairAt (a - 4)
    let high := match upper with
      | some p => s.rd p.1 p.2 / 2 ^ 32
      | none => 0
    (stored + high + s.readComputed b a) % 2 ^ 32

/-! ### PAIR_LOW_READ (R9) -/

/-- The offset is the lower register of a two-register quantity. -/
def pairLower (a : Nat) : Bool :=
  (pairAt a).isSome || a == 0x20 || a == 0x28 ||
    (decide (0x308000 ≤ a) && decide (a < 0x30C000) && a % 64 == 0x28) ||
    (decide (0x42000 ≤ a) && decide (a < 0x42800) && (a % 64 == 8 || a % 64 == 0x10))

/-- The offset is the upper register of a two-register quantity. -/
def pairUpper (a : Nat) : Bool := decide (4 ≤ a) && pairLower (a - 4)

/-- What a read of an upper register returns: the half that the last read of the lower one latched, or the half in force. -/
def State.latched (s : State) (a : Nat) : Nat := (Store.get none a s.latch).getD (s.readReg a)

/-- PAIR_LOW_READ: a read of the lower register returns it and latches the upper one for the next read of it; that read returns the
latched half and uses it up. Where the island does not answer, all ones (R423). -/
def pairLowRead (a : Nat) (s : State) : State :=
  match blockAt a with
  | none => s
  | some b =>
    if !s.barUp then s
    else if !s.blockUp b (stationAt a) then s.isoAccess.emit (.readData 0xFFFFFFFF)
    else if pairLower a then
      { s with latch := Store.set id none (a + 4) (some (s.readReg (a + 4))) s.latch }.emit (.readData (s.readReg a))
    else { s with latch := Store.set id none a none s.latch }.emit (.readData (s.latched a))

/-- A read of either register of a two-register quantity: the table has no row for the read of the upper register that uses up the
latch, so this row carries it (R9, log 15). -/
def execPairLowRead (a : Nat) (s : State) : Res := guardWF (bar0Offset a && (pairLower a || pairUpper a)) (pairLowRead a s)

end Sys2Proof.Machine
end

