-- ==== Sys2Proof/Machine/Dispatch.lean ====
section
/-! DEFINITION. One arm for each command: a direct call of its meaning. -/

namespace Sys2Proof.Machine

open Sys2Proof

/-- The effect of a command on everything but the queue. -/
def exec (i : Instr) (s : State) : Host.Outcome State Fault Refusal :=
  match i with
  | .registerWrite addr v => Sys2Proof.Machine.execRegisterWrite addr v s
  | .misalignedBar0Access addr bytes write => Sys2Proof.Machine.execMisalignedBar0Access addr bytes write s
  | .pairLowWrite addr v => Sys2Proof.Machine.execPairLowWrite addr v s
  | .pairHighWrite addr v => Sys2Proof.Machine.execPairHighWrite addr v s
  | .pairLowRead addr => Sys2Proof.Machine.execPairLowRead addr s
  | .handshakeWatchdogExpiry isl => Sys2Proof.Machine.execHandshakeWatchdogExpiry isl s
  | .pairMismatch p => Sys2Proof.Machine.execPairMismatch p s
  | .pairWatchdogExpiry p => Sys2Proof.Machine.execPairWatchdogExpiry p s
  | .serviceCoreFault => Sys2Proof.Machine.execServiceCoreFault s
  | .heartbeatWrite v => Sys2Proof.Machine.execHeartbeatWrite v s
  | .heartbeatExpiry => Sys2Proof.Machine.execHeartbeatExpiry s
  | .expertKeyWrite v => Sys2Proof.Machine.execExpertKeyWrite v s
  | .loadRequest v => Sys2Proof.Machine.execLoadRequest v s
  | .autoLoad => Sys2Proof.Machine.execAutoLoad s
  | .imageVerifyComplete readOk => Sys2Proof.Machine.execImageVerifyComplete readOk s
  | .applyComplete => Sys2Proof.Machine.execApplyComplete s
  | .commit v => Sys2Proof.Machine.execCommit v s
  | .commitComplete ok => Sys2Proof.Machine.execCommitComplete ok s
  | .arm v => Sys2Proof.Machine.execArm v s
  | .disarm v => Sys2Proof.Machine.execDisarm v s
  | .disarmComplete => Sys2Proof.Machine.execDisarmComplete s
  | .programKey v => Sys2Proof.Machine.execProgramKey v s
  | .revoke v => Sys2Proof.Machine.execRevoke v s
  | .advanceSecver v => Sys2Proof.Machine.execAdvanceSecver v s
  | .lockTestPort v => Sys2Proof.Machine.execLockTestPort v s
  | .fuseCommandDone verified => Sys2Proof.Machine.execFuseCommandDone verified s
  | .clrExpert v => Sys2Proof.Machine.execClrExpert v s
  | .scrubTick ups => Sys2Proof.Machine.execScrubTick ups s
  | .bandVerified rec => Sys2Proof.Machine.execBandVerified rec s
  | .loamDeadlockTimeout ch => Sys2Proof.Machine.execLoamDeadlockTimeout ch s
  | .openCtx c => Sys2Proof.Machine.execOpen c s
  | .close c => Sys2Proof.Machine.execClose c s
  | .cancel c => Sys2Proof.Machine.execCancel c s
  | .release c => Sys2Proof.Machine.execRelease c s
  | .bandReclaimDone => Sys2Proof.Machine.execBandReclaimDone s
  | .admissionGateEvaluate => Sys2Proof.Machine.execAdmissionGateEvaluate s
  | .bar2Read x len ups => Sys2Proof.Machine.execBar2Read x len ups s
  | .bar2Write x data ups => Sys2Proof.Machine.execBar2Write x data ups s
  | .imagingReadUe k band off => Sys2Proof.Machine.execImagingReadUe k band off s
  | .imagingDecodeError k band bus => Sys2Proof.Machine.execImagingDecodeError k band bus s
  | .jobStart n v => Sys2Proof.Machine.execJobStart n v s
  | .jobResume n v => Sys2Proof.Machine.execJobResume n v s
  | .jobStop n units => Sys2Proof.Machine.execJobStop n units s
  | .jobAbort n => Sys2Proof.Machine.execJobAbort n s
  | .jobOutFull n => Sys2Proof.Machine.execJobOutFull n s
  | .jobNeedInput n => Sys2Proof.Machine.execJobNeedInput n s
  | .jobDone n => Sys2Proof.Machine.execJobDone n s
  | .jobError n bus => Sys2Proof.Machine.execJobError n bus s
  | .scanStart k sos fine mark decoded => Sys2Proof.Machine.execScanStart k sos fine mark decoded s
  | .sosWindowMiss k mark decoded => Sys2Proof.Machine.execSosWindowMiss k mark decoded s
  | .indexPulse k => Sys2Proof.Machine.execIndexPulse k s
  | .facetSignatureEval k => Sys2Proof.Machine.execFacetSignatureEval k s
  | .synLockLoss k => Sys2Proof.Machine.execSynLockLoss k s
  | .timingSetSend k => Sys2Proof.Machine.execTimingSetSend k s
  | .hpresQualified k hid => Sys2Proof.Machine.execHpresQualified k hid s
  | .hpresLoss k => Sys2Proof.Machine.execHpresLoss k s
  | .linkRxLocked k => Sys2Proof.Machine.execLinkRxLocked k s
  | .rxLockLoss k => Sys2Proof.Machine.execRxLockLoss k s
  | .linkTrainTimeout k => Sys2Proof.Machine.execLinkTrainTimeout k s
  | .identTimeout k => Sys2Proof.Machine.execIdentTimeout k s
  | .statusTimeout k => Sys2Proof.Machine.execStatusTimeout k s
  | .rxIdent k w => Sys2Proof.Machine.execRxIdent k w s
  | .rxEchoResp k w roundTrip => Sys2Proof.Machine.execRxEchoResp k w roundTrip s
  | .rxStatus k w => Sys2Proof.Machine.execRxStatus k w s
  | .rxApcResp k w => Sys2Proof.Machine.execRxApcResp k w s
  | .initialApcEnd k => Sys2Proof.Machine.execInitialApcEnd k s
  | .linkRestart k v => Sys2Proof.Machine.execLinkRestart k v s
  | .ldRequest k v => Sys2Proof.Machine.execLdRequest k v s
  | .ldenFall k => Sys2Proof.Machine.execLdenFall k s
  | .ilkLoopClose k => Sys2Proof.Machine.execIlkLoopClose k s
  | .beamOut k b => Sys2Proof.Machine.execBeamOut k b s
  | .beamReturn k b => Sys2Proof.Machine.execBeamReturn k b s
  | .tempTripClear k v => Sys2Proof.Machine.execTempTripClear k v s
  | .plannerTick overrun => Sys2Proof.Machine.execPlannerTick overrun s
  | .move a => Sys2Proof.Machine.execMove a s
  | .jog a => Sys2Proof.Machine.execJog a s
  | .stop a => Sys2Proof.Machine.execStop a s
  | .qstop a => Sys2Proof.Machine.execQstop a s
  | .halt a => Sys2Proof.Machine.execHalt a s
  | .home a => Sys2Proof.Machine.execHome a s
  | .setpos a => Sys2Proof.Machine.execSetpos a s
  | .enable a => Sys2Proof.Machine.execEnable a s
  | .disable a => Sys2Proof.Machine.execDisable a s
  | .gear a => Sys2Proof.Machine.execGear a s
  | .axisClear a => Sys2Proof.Machine.execAxisClear a s
  | .segmentPush a v => Sys2Proof.Machine.execSegmentPush a v s
  | .latchArm a v => Sys2Proof.Machine.execLatchArm a v s
  | .latchEdge a j => Sys2Proof.Machine.execLatchEdge a j s
  | .encoderError a => Sys2Proof.Machine.execEncoderError a s
  | .limitActive a positive => Sys2Proof.Machine.execLimitActive a positive s
  | .homeRawEdge a active => Sys2Proof.Machine.execHomeRawEdge a active s
  | .homeQualified a => Sys2Proof.Machine.execHomeQualified a s
  | .indexEdge a => Sys2Proof.Machine.execIndexEdge a s
  | .slotExecution n ain => Sys2Proof.Machine.execSlotExecution n ain s
  | .fallbackTimeout n => Sys2Proof.Machine.execFallbackTimeout n s
  | .slotOff n => Sys2Proof.Machine.execSlotOff n s
  | .slotManual n => Sys2Proof.Machine.execSlotManual n s
  | .slotAuto n => Sys2Proof.Machine.execSlotAuto n s
  | .slotPreset n => Sys2Proof.Machine.execSlotPreset n s
  | .slotCommit n => Sys2Proof.Machine.execSlotCommit n s
  | .slotResume n => Sys2Proof.Machine.execSlotResume n s
  | .slotClear n => Sys2Proof.Machine.execSlotClear n s
  | .injStart n => Sys2Proof.Machine.execInjStart n s
  | .injStop n => Sys2Proof.Machine.execInjStop n s
  | .slotStay n => Sys2Proof.Machine.execSlotStay n s
  | .slotStop n => Sys2Proof.Machine.execSlotStop n s
  | .captureArm v => Sys2Proof.Machine.execCaptureArm v s
  | .captureForce v => Sys2Proof.Machine.execCaptureForce v s
  | .captureAbort v => Sys2Proof.Machine.execCaptureAbort v s
  | .zeroCrossing t vrms => Sys2Proof.Machine.execZeroCrossing t vrms s
  | .zeroCrossingMiss => Sys2Proof.Machine.execZeroCrossingMiss s
  | .heaterGateFire g e => Sys2Proof.Machine.execHeaterGateFire g e s
  | .otcTrip g c code => Sys2Proof.Machine.execOtcTrip g c code s
  | .otcClear g v codeA codeB => Sys2Proof.Machine.execOtcClear g v codeA codeB s
  | .thermistorConversion j rt => Sys2Proof.Machine.execThermistorConversion j rt s
  | .thermopileConversion j code => Sys2Proof.Machine.execThermopileConversion j code s
  | .hvFrame fb => Sys2Proof.Machine.execHvFrame fb s
  | .hvLeadEnd c => Sys2Proof.Machine.execHvLeadEnd c s
  | .fbhiClear c v => Sys2Proof.Machine.execFbhiClear c v s
  | .overspeedDetect => Sys2Proof.Machine.execOverspeedDetect s
  | .feedPoint => Sys2Proof.Machine.execFeedPoint s
  | .sensorRawEdge j present => Sys2Proof.Machine.execSensorRawEdge j present s
  | .sensorQualified j => Sys2Proof.Machine.execSensorQualified j s
  | .sensorWindowExpiry j c e => Sys2Proof.Machine.execSensorWindowExpiry j c e s
  | .feedWindowExpiry => Sys2Proof.Machine.execFeedWindowExpiry s
  | .t0Issue c k => Sys2Proof.Machine.execT0Issue c k s
  | .sheetCommit c => Sys2Proof.Machine.execSheetCommit c s
  | .diverterDecision c => Sys2Proof.Machine.execDiverterDecision c s
  | .diverterRelease c => Sys2Proof.Machine.execDiverterRelease c s
  | .sheetDelivered c => Sys2Proof.Machine.execSheetDelivered c s
  | .sheetBoundary c => Sys2Proof.Machine.execSheetBoundary c s
  | .refeed => Sys2Proof.Machine.execRefeed s
  | .webBackup => Sys2Proof.Machine.execWebBackup s
  | .webHold => Sys2Proof.Machine.execWebHold s
  | .webStop => Sys2Proof.Machine.execWebStop s
  | .dispAnswer v => Sys2Proof.Machine.execDispAnswer v s
  | .webRunStart => Sys2Proof.Machine.execWebRunStart s
  | .frameDeadline => Sys2Proof.Machine.execFrameDeadline s
  | .webDrainDone => Sys2Proof.Machine.execWebDrainDone s
  | .webDecelAtRest => Sys2Proof.Machine.execWebDecelAtRest s
  | .webBackupAtRest => Sys2Proof.Machine.execWebBackupAtRest s
  | .webResume => Sys2Proof.Machine.execWebResume s
  | .webAtSpeed => Sys2Proof.Machine.execWebAtSpeed s
  | .webBreak j => Sys2Proof.Machine.execWebBreak j s
  | .beaconTx => Sys2Proof.Machine.execBeaconTx s
  | .beaconRx p hop master version => Sys2Proof.Machine.execBeaconRx p hop master version s
  | .syncTx => Sys2Proof.Machine.execSyncTx s
  | .syncRx p ts correction arrival => Sys2Proof.Machine.execSyncRx p ts correction arrival s
  | .syncTimeout => Sys2Proof.Machine.execSyncTimeout s
  | .cascadeGateQuery tag => Sys2Proof.Machine.execCascadeGateQuery tag s
  | .cascadeGateReply pos armed passes => Sys2Proof.Machine.execCascadeGateReply pos armed passes s
  | .cascadeGateTimeout => Sys2Proof.Machine.execCascadeGateTimeout s
  | .positionBroadcast => Sys2Proof.Machine.execPositionBroadcast s
  | .positionRx mpos lrate t => Sys2Proof.Machine.execPositionRx mpos lrate t s
  | .positionTimeout => Sys2Proof.Machine.execPositionTimeout s
  | .sheetEventRx e => Sys2Proof.Machine.execSheetEventRx e s
  | .cascadeDisarmRx => Sys2Proof.Machine.execCascadeDisarmRx s
  | .portDown p unreachable => Sys2Proof.Machine.execPortDown p unreachable s
  | .partitionClear => Sys2Proof.Machine.execPartitionClear s
  | .powerGoRx => Sys2Proof.Machine.execPowerGoRx s
  | .dmaStart n v => Sys2Proof.Machine.execDmaStart n v s
  | .dmaStop n v => Sys2Proof.Machine.execDmaStop n v s
  | .dmaReset n v => Sys2Proof.Machine.execDmaReset n v s
  | .dmaTailWrite n v => Sys2Proof.Machine.execDmaTailWrite n v s
  | .descriptorFetch n d => Sys2Proof.Machine.execDescriptorFetch n d s
  | .laneAcceptBand lane => Sys2Proof.Machine.execLaneAcceptBand lane s
  | .burstIssue data ups => Sys2Proof.Machine.execBurstIssue data ups s
  | .burstError n hostSide => Sys2Proof.Machine.execBurstError n hostSide s
  | .descriptorComplete n => Sys2Proof.Machine.execDescriptorComplete n s
  | .periphRequest psel => Sys2Proof.Machine.execPeriphRequest psel s
  | .periphWithdraw n real => Sys2Proof.Machine.execPeriphWithdraw n real s
  | .faultReportWord r word => Sys2Proof.Machine.execFaultReportWord r word s
  | .reporterTimeout r => Sys2Proof.Machine.execReporterTimeout r s
  | .reactionComplete r => Sys2Proof.Machine.execReactionComplete r s
  | .fltClear v => Sys2Proof.Machine.execFltClear v s
  | .fltAnswer v => Sys2Proof.Machine.execFltAnswer v s
  | .isolate v => Sys2Proof.Machine.execIsolate v s
  | .returnUnit v => Sys2Proof.Machine.execReturnUnit v s
  | .unitResetRelease u => Sys2Proof.Machine.execUnitResetRelease u s
  | .unitCheckDone u ok => Sys2Proof.Machine.execUnitCheckDone u ok s
  | .calStepDone ok failUnit temps => Sys2Proof.Machine.execCalStepDone ok failUnit temps s
  | .mayflySweep => Sys2Proof.Machine.execMayflySweep s
  | .mayflyRequest v => Sys2Proof.Machine.execMayflyRequest v s
  | .mayflyConversionDone temp => Sys2Proof.Machine.execMayflyConversionDone temp s
  | .recal v => Sys2Proof.Machine.execRecal v s
  | .snap v => Sys2Proof.Machine.execSnap v s
  | .restore v => Sys2Proof.Machine.execRestore v s
  | .recalStart k => Sys2Proof.Machine.execRecalStart k s
  | .recalDone k ok => Sys2Proof.Machine.execRecalDone k ok s
  | .vinQualified => Sys2Proof.Machine.execVinQualified s
  | .pwrOnChange high => Sys2Proof.Machine.execPwrOnChange high s
  | .railQualified r => Sys2Proof.Machine.execRailQualified r s
  | .railTimeout r => Sys2Proof.Machine.execRailTimeout r s
  | .extStepEnable => Sys2Proof.Machine.execExtStepEnable s
  | .railFallen r => Sys2Proof.Machine.execRailFallen r s
  | .fallLateTimeout r => Sys2Proof.Machine.execFallLateTimeout r s
  | .pwrOff v => Sys2Proof.Machine.execPwrOff v s
  | .extOn v => Sys2Proof.Machine.execExtOn v s
  | .extOff v => Sys2Proof.Machine.execExtOff v s
  | .step v => Sys2Proof.Machine.execStep v s
  | .offWaitTimeout => Sys2Proof.Machine.execOffWaitTimeout s
  | .counterCopyDone => Sys2Proof.Machine.execCounterCopyDone s
  | .supplyFault r => Sys2Proof.Machine.execSupplyFault r s
  | .inputCollapse mv => Sys2Proof.Machine.execInputCollapse mv s
  | .logCommit committed => Sys2Proof.Machine.execLogCommit committed s
  | .resetSourceAssert src => Sys2Proof.Machine.execResetSourceAssert src s
  | .resetSourceDeassert src => Sys2Proof.Machine.execResetSourceDeassert src s
  | .domainRelease => Sys2Proof.Machine.execDomainRelease s
  | .referenceLoss => Sys2Proof.Machine.execReferenceLoss s
  | .referenceRestored => Sys2Proof.Machine.execReferenceRestored s
  | .cmdDomain v => Sys2Proof.Machine.execCmdDomain v s
  | .cmdDie v => Sys2Proof.Machine.execCmdDie v s
  | .cold v => Sys2Proof.Machine.execCold v s
  | .obWrite v => Sys2Proof.Machine.execObWrite v s
  | .obWriteDone ok => Sys2Proof.Machine.execObWriteDone ok s
  | .tapExtest boundary => Sys2Proof.Machine.execTapExtest boundary s
  | .isolatedAccess addr write => Sys2Proof.Machine.execIsolatedAccess addr write s
  | .poisonedWrite bar addr => Sys2Proof.Machine.execPoisonedWrite bar addr s
  | .pcieLinkDown => Sys2Proof.Machine.execPcieLinkDown s
  | .d3hotEntry => Sys2Proof.Machine.execD3hotEntry s
  | .msixUnmask op => Sys2Proof.Machine.execMsixUnmask op s
  | .mbxPost j => Sys2Proof.Machine.execMbxPost j s
  | .mbxPop p => Sys2Proof.Machine.execMbxPop p s
  | .mbxAnswer p v => Sys2Proof.Machine.execMbxAnswer p v s
  | .wiringFault pin f => Sys2Proof.Machine.execWiringFault pin f s
  | .overloadTrip pin => Sys2Proof.Machine.execOverloadTrip pin s
  | .overloadClear pin v => Sys2Proof.Machine.execOverloadClear pin v s
  | .motionClock => Sys2Proof.Machine.execMotionClock s
  | .encoderEdge a forward => Sys2Proof.Machine.execEncoderEdge a forward s
  | .sosGlitch k => Sys2Proof.Machine.execSosGlitch k s
  | .zcGlitch => Sys2Proof.Machine.execZcGlitch s
  | .synLockGain k => Sys2Proof.Machine.execSynLockGain k s
  | .limitInactive a positive => Sys2Proof.Machine.execLimitInactive a positive s
  | .pcieLinkUp speed width => Sys2Proof.Machine.execPcieLinkUp speed width s
  | .portUp p delay => Sys2Proof.Machine.execPortUp p delay s
  | .slaveReportRx pos rep => Sys2Proof.Machine.execSlaveReportRx pos rep s
  | .railWindowChange w good => Sys2Proof.Machine.execRailWindowChange w good s
  | .wiringFaultEnd pin f => Sys2Proof.Machine.execWiringFaultEnd pin f s

end Sys2Proof.Machine
end

