-- ==== Sys2Proof/Safety.lean ====
section
/-! DEFINITION. What a safe run of the module is, in the terms claims use: the invariants that every state of it has, and what
one command may do to the parts of the state that outlive every command. -/

namespace Sys2Proof.Machine

open Sys2Proof

/-- The register fields in canonical form: no field instance twice, each on a unit that is populated (R2), each value within its
field's width, none listed at its reset value. -/
abbrev Regs.wf (h : Hardware) (r : Store (Fld × Nat) Nat) : Prop :=
  (r.map Prod.fst).Nodup ∧
    ∀ e ∈ r, populated h e.1.1 e.1.2 = true ∧ e.2 < 2 ^ e.1.1.row.width ∧ e.2 ≠ resetVal e.1.1 e.1.2

/-- A sound state: the page store's bytes and the register fields are in canonical form, no mailbox queue holds more than 32 posts
(R433), the clamp report no more than 1024 entries (R59). -/
structure State.Sound (s : State) : Prop where
  bytes : Memory.wf s.loam.bytes
  regs : Regs.wf s.hw s.regs
  posts : ∀ q ∈ s.mbx.queues, q.2.length ≤ 32
  report : s.ldr.report.length ≤ 1024

/-- What a command does to the parts of a state that no command takes back: the hardware, the fuses and the queue of waiting
commands are as before, outputs are only added, open values are only used up, and a sound state stays sound. FUSE_COMMAND_DONE alone
changes the fuses (R68). With `m` every byte of the page store is as before. -/
structure Keeps (m : Bool) (a s : State) : Prop where
  hw : s.hw = a.hw
  fuses : s.fuses = a.fuses
  pending : s.pending = a.pending
  out : a.out <:+ s.out
  free : a.free ≤ s.free
  sound : a.Sound → s.Sound
  bytes : m = true → s.loam.bytes = a.loam.bytes

/-- The commands that can change the page store's bytes: a host or engine write, a band that is stored (a CANCEL lets a held one go
on), and what can end in a reset that takes Loam's power or MEM's domain with it. -/
def writesStore : Instr → Bool
  | .handshakeWatchdogExpiry _ => true
  | .cancel _ => true
  | .bandReclaimDone => true
  | .bar2Write _ _ _ => true
  | .jobStart _ _ => true
  | .jobResume _ _ => true
  | .jobStop _ _ => true
  | .jobAbort _ => true
  | .jobOutFull _ => true
  | .jobNeedInput _ => true
  | .jobDone _ => true
  | .jobError _ _ => true
  | .burstIssue _ _ => true
  | .returnUnit _ => true
  | .pwrOnChange _ => true
  | .railTimeout _ => true
  | .railFallen _ => true
  | .counterCopyDone => true
  | .supplyFault _ => true
  | .inputCollapse _ => true
  | .resetSourceAssert _ => true
  | .cmdDomain _ => true
  | .cmdDie _ => true
  | .cold _ => true
  | .pcieLinkDown => true
  | _ => false

/-- A host write of a register of block `b` (of station `k` in BTU and BLK) reaches the block: the link is up and HOST answers, the
block's island is out of reset and not isolated (R423), and APPLYING does not shut the block (R52). -/
structure State.Reaches (s : State) (b : Block) (k : Nat) : Prop where
  bar : s.barUp = true
  block : s.blockUp b k = true
  applying : s.ldr.st = .applying → applyingBlock b = true

/-- A command to axis `k` is open to it: the write reaches MOT, the axis is populated and planned (R205), in service, and the web
sequence does not hold it (R298). -/
structure State.AxisOpen (s : State) (k : Nat) : Prop where
  reaches : s.Reaches .mot 0
  axis : k < s.hw.axes
  planned : s.planned k = true
  service : s.unitOut (.axis k) = false
  web : s.webHolds k = false

/-- A command to slot `n` is open to it: the write reaches CLE, the slot is populated and enabled, and the image is LOADED or ARMED
(R232). -/
structure State.SlotOpen (s : State) (n : Nat) : Prop where
  reaches : s.Reaches .cle 0
  slot : n < s.hw.slots
  enabled : s.on (.cle .slotEn) n = true
  image : s.imageRuns = true

end Sys2Proof.Machine
end

