-- ==== Sys2Proof/WellFormed.lean ====
section
/-! DEFINITION. Which commands can reach a module at all: every number names something on the die (R10), every word carries the
operation code of its command, every offset lies in its BAR. `exec` refuses a command that is not well-formed, and nothing else. -/

namespace Sys2Proof

open Sys2Proof.Machine

/-- A vector of the MSI-X table (R420). -/
def MsixOp.wf : MsixOp → Bool
  | .vectorMask v _ => decide (v < 256)
  | .enable _ => true
  | .functionMask _ => true

/-- The command can reach a module with hardware `h`. -/
def Instr.wf (h : Hardware) : Instr → Bool
  | .registerWrite addr v => bar0Offset addr && !ownRow addr v.toNat
  | .misalignedBar0Access addr bytes _ => decide (addr < 0x4000000) && (addr % 4 != 0 || bytes != 4)
  | .pairLowWrite addr _ => bar0Offset addr && ((writablePair addr).map (·.2.2)) == some false
  | .pairHighWrite addr _ => bar0Offset addr && ((writablePair addr).map (·.2.2)) == some true
  | .pairLowRead a => bar0Offset a && (pairLower a || pairUpper a)
  | .handshakeWatchdogExpiry i => islandOk h i
  | .pairMismatch _ => true
  | .pairWatchdogExpiry _ => true
  | .serviceCoreFault => true
  | .heartbeatWrite _ => true
  | .heartbeatExpiry => true
  | .expertKeyWrite _ => true
  | .loadRequest v => v.getLsbD 0
  | .autoLoad => true
  | .imageVerifyComplete _ => true
  | .applyComplete => true
  | .commit v => v.getLsbD 4
  | .commitComplete _ => true
  | .arm v => !v.getLsbD 31
  | .disarm v => v.getLsbD 31
  | .disarmComplete => true
  | .programKey v => fuseOp v == 1
  | .revoke v => fuseOp v == 2
  | .advanceSecver v => fuseOp v == 3
  | .lockTestPort v => fuseOp v == 4
  | .fuseCommandDone _ => true
  | .clrExpert v => v.getLsbD 0
  | .scrubTick ups => h.upsOk ups
  | .bandVerified r => decide (r < 131072)
  | .loamDeadlockTimeout ch => decide (ch < 32)
  | .openCtx c => decide (c < 256)
  | .close c => decide (c < 256)
  | .cancel c => decide (c < 256)
  | .release c => decide (c < 256)
  | .bandReclaimDone => true
  | .admissionGateEvaluate => true
  | .bar2Read x len ups => decide (1 ≤ len) && decide (x + len ≤ 4294967296) && h.upsOk ups
  | .bar2Write x data ups => decide (1 ≤ data.length) && decide (x + data.length ≤ 4294967296) && h.upsOk ups
  | .imagingReadUe k band off => decide (k < 8) && decide (band < 4096) && decide (off < 2097151)
  | .imagingDecodeError k band _ => decide (k < 8) && decide (band < 4096)
  | .jobStart n v => decide (n < 24) && v.getLsbD 0
  | .jobResume n v => decide (n < 24) && v.getLsbD 1 && !v.getLsbD 0
  | .jobStop n _ => decide (n < 24)
  | .jobAbort n => decide (n < 24)
  | .jobOutFull n => decide (n < 24)
  | .jobNeedInput n => decide (n < 24)
  | .jobDone n => decide (n < 24)
  | .jobError n _ => decide (n < 24)
  | .scanStart k _ fine _ _ => decide (k < 8) && decide (fine < 500)
  | .sosWindowMiss k _ _ => decide (k < 8)
  | .indexPulse k => decide (k < 8)
  | .facetSignatureEval k => decide (k < 8)
  | .synLockLoss k => decide (k < 8)
  | .timingSetSend k => decide (k < 8)
  | .hpresQualified k hid => decide (k < 8) && decide (hid < 16)
  | .hpresLoss k => decide (k < 8)
  | .linkRxLocked k => decide (k < 8)
  | .rxLockLoss k => decide (k < 8)
  | .linkTrainTimeout k => decide (k < 8)
  | .identTimeout k => decide (k < 8)
  | .statusTimeout k => decide (k < 8)
  | .rxIdent k w => decide (k < 8) && w.length == 56
  | .rxEchoResp k w _ => decide (k < 8) && w.length == 56
  | .rxStatus k w => decide (k < 8) && w.length == 56
  | .rxApcResp k w => decide (k < 8) && w.length == 56
  | .initialApcEnd k => decide (k < 8)
  | .linkRestart k v => decide (k < 8) && v.getLsbD 4
  | .ldRequest k v => decide (k < 8) && v.getLsbD 0
  | .ldenFall k => decide (k < 8)
  | .ilkLoopClose k => decide (k < 8)
  | .beamOut k b => decide (k < 8) && decide (b < 128)
  | .beamReturn k b => decide (k < 8) && decide (b < 128)
  | .tempTripClear k v => decide (k < 8) && v.getLsbD 9
  | .plannerTick _ => true
  | .move k => decide (k < 48)
  | .jog k => decide (k < 48)
  | .stop k => decide (k < 48)
  | .qstop k => decide (k < 48)
  | .halt k => decide (k < 48)
  | .home k => decide (k < 48)
  | .setpos k => decide (k < 48)
  | .enable k => decide (k < 48)
  | .disable k => decide (k < 48)
  | .gear k => decide (k < 48)
  | .axisClear k => decide (k < 48)
  | .segmentPush k _ => decide (k < 48)
  | .latchArm k v => decide (k < 48) && (v.getLsbD 4 || v.getLsbD 12)
  | .latchEdge k i => decide (k < 48) && decide (i < 2)
  | .encoderError k => decide (k < 48)
  | .limitActive k _ => decide (k < 48)
  | .homeRawEdge k _ => decide (k < 48)
  | .homeQualified k => decide (k < 48)
  | .indexEdge k => decide (k < 48)
  | .slotExecution n ain => decide (n < 128) && decide (ain < 16384)
  | .fallbackTimeout n => decide (n < 128)
  | .slotOff n => decide (n < 128)
  | .slotManual n => decide (n < 128)
  | .slotAuto n => decide (n < 128)
  | .slotPreset n => decide (n < 128)
  | .slotCommit n => decide (n < 128)
  | .slotResume n => decide (n < 128)
  | .slotClear n => decide (n < 128)
  | .injStart n => decide (n < 128)
  | .injStop n => decide (n < 128)
  | .slotStay n => decide (n < 128)
  | .slotStop n => decide (n < 128)
  | .captureArm v => v.getLsbD 0
  | .captureForce v => v.getLsbD 1 && !v.getLsbD 0
  | .captureAbort v => v.getLsbD 2 && !v.getLsbD 1 && !v.getLsbD 0
  | .zeroCrossing _ vrms => decide (vrms.getD 0 < 4096)
  | .zeroCrossingMiss => true
  | .heaterGateFire g _ => decide (g < 8)
  | .otcTrip g _ _ => decide (g < 8)
  | .otcClear g _ _ _ => decide (g < 8)
  | .thermistorConversion i _ => decide (i < 16)
  | .thermopileConversion i code => decide (i < 8) && decide (-32768 ≤ code) && decide (code ≤ 32767)
  | .hvFrame fb => decide (fb.length ≤ 48) && fb.all fun x => decide (x < 4096)
  | .hvLeadEnd c => decide (c < 48)
  | .fbhiClear c _ => decide (c < 48)
  | .overspeedDetect => true
  | .feedPoint => true
  | .sensorRawEdge i _ => decide (i < 32)
  | .sensorQualified i => decide (i < 32)
  | .sensorWindowExpiry i c _ => decide (i < 32) && decide (c < 256)
  | .feedWindowExpiry => true
  | .t0Issue c k => decide (c < 256) && decide (k < 8)
  | .sheetCommit c => decide (c < 256)
  | .diverterDecision c => decide (c < 256)
  | .diverterRelease c => decide (c < 256)
  | .sheetDelivered c => decide (c < 256)
  | .sheetBoundary c => decide (c < 256)
  | .refeed => true
  | .webBackup => true
  | .webHold => true
  | .webStop => true
  | .dispAnswer _ => true
  | .webRunStart => true
  | .frameDeadline => true
  | .webDrainDone => true
  | .webDecelAtRest => true
  | .webBackupAtRest => true
  | .webResume => true
  | .webAtSpeed => true
  | .webBreak i => decide (i < 32)
  | .beaconTx => true
  | .beaconRx _ _ _ _ => true
  | .syncTx => true
  | .syncRx _ _ _ _ => true
  | .syncTimeout => true
  | .cascadeGateQuery _ => true
  | .cascadeGateReply pos _ _ => decide (1 ≤ pos) && decide (pos < 4)
  | .cascadeGateTimeout => true
  | .positionBroadcast => true
  | .positionRx _ _ _ => true
  | .positionTimeout => true
  | .sheetEventRx _ => true
  | .cascadeDisarmRx => true
  | .portDown _ _ => true
  | .partitionClear => true
  | .powerGoRx => true
  | .dmaStart n v => decide (n < 32) && v.getLsbD 0
  | .dmaStop n v => decide (n < 32) && v.getLsbD 1 && !v.getLsbD 0
  | .dmaReset n v => decide (n < 32) && v.getLsbD 2 && !v.getLsbD 1 && !v.getLsbD 0
  | .dmaTailWrite n _ => decide (n < 32)
  | .descriptorFetch n d => decide (n < 32) && ((d.map List.length).getD 32 == 32)
  | .laneAcceptBand l => decide (l < 8)
  | .burstIssue _ ups => h.upsOk ups
  | .burstError n _ => decide (n < 32)
  | .descriptorComplete n => decide (n < 32)
  | .periphRequest psel => decide (psel ≤ 0x11)
  | .periphWithdraw n real => decide (n < 32) && decide (real ≤ 256)
  | .faultReportWord r _ => decide (r < 16) && r != 7
  | .reporterTimeout r => decide (r < 16) && r != 7
  | .reactionComplete r => decide (r < 32)
  | .fltClear _ => true
  | .fltAnswer _ => true
  | .isolate v => bitField v.toNat 16 2 == 1
  | .returnUnit v => bitField v.toNat 16 2 == 2
  | .unitResetRelease u => unitOk u
  | .unitCheckDone u _ => unitOk u
  | .calStepDone _ _ _ => true
  | .mayflySweep => true
  | .mayflyRequest _ => true
  | .mayflyConversionDone _ => true
  | .recal v => calOp v == 1
  | .snap v => calOp v == 2
  | .restore v => calOp v == 3
  | .recalStart k => decide (k < 8)
  | .recalDone k _ => decide (k < 8)
  | .vinQualified => true
  | .pwrOnChange _ => true
  | .railQualified r => railIdOk r
  | .railTimeout r => railIdOk r
  | .extStepEnable => true
  | .railFallen r => railIdOk r
  | .fallLateTimeout r => railIdOk r
  | .pwrOff v => pwrOp v == 1
  | .extOn v => pwrOp v == 2
  | .extOff v => pwrOp v == 3
  | .step v => pwrOp v == 4
  | .offWaitTimeout => true
  | .counterCopyDone => true
  | .supplyFault r => railOrder.contains r
  | .inputCollapse _ => true
  | .logCommit _ => true
  | .resetSourceAssert src => decide (src < 12)
  | .resetSourceDeassert src => decide (src < 12)
  | .domainRelease => true
  | .referenceLoss => true
  | .referenceRestored => true
  | .cmdDomain v => rstcOp v == 1
  | .cmdDie v => rstcOp v == 2
  | .cold v => rstcOp v == 3
  | .obWrite v => rstcOp v == 4
  | .obWriteDone _ => true
  | .tapExtest _ => true
  | .isolatedAccess addr _ => bar0Offset addr
  | .poisonedWrite bar addr => decide (addr < barSize bar)
  | .pcieLinkDown => true
  | .d3hotEntry => true
  | .msixUnmask op => op.wf
  | .mbxPost _ => true
  | .mbxPop p => decide (p < 16)
  | .mbxAnswer p _ => decide (p < 16)
  | .wiringFault n _ => decide (n < 256)
  | .overloadTrip n => decide (n < 256)
  | .overloadClear n _ => decide (n < 256)
  | .motionClock => true
  | .encoderEdge k _ => decide (k < 48)
  | .sosGlitch k => decide (k < 8)
  | .zcGlitch => true
  | .synLockGain k => decide (k < 8)
  | .limitInactive k _ => decide (k < 48)
  | .pcieLinkUp speed width => decide (1 ≤ speed) && decide (speed ≤ 5) && [1, 2, 4, 8].contains width
  | .portUp _ _ => true
  | .slaveReportRx pos _ => decide (1 ≤ pos) && decide (pos < 4)
  | .railWindowChange w _ => windowOk w
  | .wiringFaultEnd n _ => decide (n < 256)

end Sys2Proof
end

