-- ==== Sys2Proof/Certificates/Slice0/Obligations.lean ====
section
/-! DEFINITION. The statements about the model. Each says of the commands it names that they run and what the state after them
holds; a clause `for every field but …` is the frame of a command on the register fields. Where a whole next state is written out,
it is the frame as well. -/

open Sys2Proof Sys2Proof.Machine

/-! ### The machine -/

/-- A step on a queue runs the command at its front on the state with the rest of the queue.

Where the manual leaves a clause open, it is the model's choice: log entry 1. -/
def Obligations.FrontCommandRuns : Prop :=
  ∀ (s : State) (c : Instr) (rest : List Instr), step { s with pending := c :: rest } = exec c { s with pending := rest }

/-- A sound state stays sound at every step: the page store's bytes and the register fields keep their canonical form, each field
its width, the mailbox queues and the clamp report their capacity. -/
def Obligations.StepKeepsSound : Prop := ∀ s t : State, s.Sound → step s = .next t → t.Sound

/-- The state after reset is sound. -/
def Obligations.ResetIsSound : Prop := State.reset.Sound

/-- No command but FUSE_COMMAND_DONE changes a fuse, and that one never lowers the security counter nor unlocks the test port. No
command changes the hardware or the queue, takes an output back or gives an open value out twice.

Where the manual leaves a clause open, it is the model's choice: log entries 2, 4 and 64. -/
def Obligations.WhatNoCommandTakesBack : Prop :=
  ∀ (i : Instr) (s t : State), exec i s = .next t →
    (t.hw = s.hw ∧ t.pending = s.pending ∧ s.out <:+ t.out ∧ s.free ≤ t.free) ∧
    ((∀ b, i ≠ .fuseCommandDone b) → t.fuses = s.fuses) ∧
    s.fuses.seccount ≤ t.fuses.seccount ∧ (s.fuses.testLocked = true → t.fuses.testLocked = true)

/-- A well-formed command always answers a next state; a command that is not well-formed is refused as such, and no command
faults.

Where the manual leaves a clause open, it is the model's choice: log entry 10. -/
def Obligations.WellFormedCommandsRun : Prop :=
  ∀ (i : Instr) (s : State),
    (i.wf s.hw = true → ∃ t, exec i s = .next t) ∧ (i.wf s.hw = false → exec i s = .refused .illFormed)

/-! ### Sheet contexts -/

/-- OPEN, CLOSE, CANCEL and RELEASE in the states that allow them (R80 to R84): a CANCEL before admission frees the context, or leaves it
BLOCKED with CAUSE 8 while it still has bands, which follow when their transfers end; a STALLED frame becomes SPOILED with CAUSE 8.

A context command in a state that does not allow it sets CMD_ERR with its cause and does nothing else (R81).

Where the manual leaves a clause open, it is the model's choice: log entries 73, 76 and 107. -/
def Obligations.ContextCommandsRun : Prop :=
  (∀ (s : State) (c : Nat), c < 256 → s.Reaches .pgs 0 → s.ctxCmdState = true →
    (s.stagingLoad = false → (s.ctx c).st = .free → s.openGeomOk = true →
      exec (.openCtx c) s = .next (s.setCtx c
        { st := .opened, planes := s.rd (.pgs .planes), res1200 := s.on (.pgs .res1200), lineBytes := s.rd (.pgs .lineBytes),
          linesM1 := s.rd (.pgs .linesM1), tag := s.rd (.pgs .openTag) })) ∧
    ((s.ctx c).st = .opened → ∃ t, exec (.close c) s = .next t ∧
      t.ctx c = { s.ctx c with seq := s.loam.nextSeq, queued := true, st := if (s.ctx c).complete then .ready else .closed } ∧
      t.loam.nextSeq = (s.loam.nextSeq + 1) % 65536 ∧ (∀ d, d ≠ c → t.ctx d = s.ctx d) ∧ t.loam.bytes = s.loam.bytes ∧
      ∀ f i, (f, i) ≠ (.pgs .ctxEvent, 0) → t.rd f i = s.rd f i) ∧
    ((s.ctx c).cancelled = false →
      (s.ctx c).st = .opened ∨ (s.ctx c).st = .closed ∨ (s.ctx c).st = .ready ∨ (s.ctx c).st = .blocked →
      ∃ t, exec (.cancel c) s = .next t ∧ t.loam.bytes = s.loam.bytes ∧
        t.decisionOpen 1 c = false ∧
        (t.ctx c = {} ∧ t.rd (.pgs .disp) c = 1 ∨
          (t.ctx c).st = .blocked ∧ (t.ctx c).cause = 8 ∧ (t.ctx c).cancelled = true ∧ t.bandsOf c ≠ []) ∧
        (s.bandsOf c = [] → t.ctx c = {} ∧ t.rd (.pgs .disp) c = 1)) ∧
    ((s.ctx c).cancelled = false → (s.ctx c).st = .stalled →
      ∃ t, exec (.cancel c) s = .next t ∧ (t.ctx c).st = .spoiled ∧ (t.ctx c).cause = 8 ∧ t.loam.bytes = s.loam.bytes) ∧
    ((s.ctx c).st = .delivered →
      ∃ t, exec (.release c) s = .next t ∧ t.ctx c = {} ∧ t.rd (.pgs .disp) c = 1 ∧ t.loam.hostOk ≠ some c ∧
        (∀ d, d ≠ c → t.ctx d = s.ctx d) ∧ t.loam.bytes = s.loam.bytes ∧
        ∀ f i, (f, i) ≠ (.pgs .disp, c) → t.rd f i = s.rd f i)) ∧
  (∀ (s : State) (c : Nat), c < 256 → s.Reaches .pgs 0 →
    (s.stagingLoad = true → exec (.openCtx c) s = .next ((s.ev (.pgs .cmdErr)).wr (.pgs .cmdCause) 0 2)) ∧
    (s.ctxCmdState = false → s.stagingLoad = false →
      exec (.openCtx c) s = .next ((s.ev (.pgs .cmdErr)).wr (.pgs .cmdCause) 0 4)) ∧
    (s.ctxCmdState = true → (s.ctx c).st = .free ∨ (s.ctx c).st = .admitted ∨ (s.ctx c).st = .imaging ∨ (s.ctx c).st = .exposed ∨
        (s.ctx c).st = .spoiled ∨ (s.ctx c).st = .delivered ∨ (s.ctx c).st = .blocked ∧ (s.ctx c).cancelled = true →
      exec (.cancel c) s = .next ((s.ev (.pgs .cmdErr)).wr (.pgs .cmdCause) 0 1)) ∧
    (s.ctxCmdState = true → s.stagingLoad = false → (s.ctx c).st ≠ .free →
      exec (.openCtx c) s = .next ((s.ev (.pgs .cmdErr)).wr (.pgs .cmdCause) 0 1)) ∧
    (s.ctxCmdState = true → s.stagingLoad = false → (s.ctx c).st = .free → s.openGeomOk = false →
      exec (.openCtx c) s = .next ((s.ev (.pgs .cmdErr)).wr (.pgs .cmdCause) 0 3)) ∧
    (s.ctxCmdState = true → (s.ctx c).st ≠ .opened →
      exec (.close c) s = .next ((s.ev (.pgs .cmdErr)).wr (.pgs .cmdCause) 0 1)) ∧
    (s.ctxCmdState = true → (s.ctx c).st ≠ .delivered →
      exec (.release c) s = .next ((s.ev (.pgs .cmdErr)).wr (.pgs .cmdCause) 0 1)) ∧
    (s.ctxCmdState = false →
      exec (.close c) s = .next ((s.ev (.pgs .cmdErr)).wr (.pgs .cmdCause) 0 4) ∧
      exec (.cancel c) s = .next ((s.ev (.pgs .cmdErr)).wr (.pgs .cmdCause) 0 4) ∧
      exec (.release c) s = .next ((s.ev (.pgs .cmdErr)).wr (.pgs .cmdCause) 0 4)))

/-! ### Register access -/

/-- One field of a written word (R7, R26): an RW field takes it; an RWL field takes it outside ARMED and DISARMING; an RWX field takes it
at expert level, and one above its numeric range takes the limit and makes an expert entry of the clamp report; a refused field keeps its
value and counts as a refusal only if the write would change it; writing 1 clears an event and writing 0 leaves it; a read-only field
ignores the write.

REGISTER_WRITE on a block that answers has the word's effect: on a register of one field, that field is judged as above, and a refused
change sets ACCESS_DENIED (R7). As examples LDR_FUSEDATA, which is RW, and GLB_HBPER, which is RWL, in and out of ARMED. On an island
that does not answer the write is dropped with ISO_ACCESS, on an offset of no block it is dropped, and in APPLYING it is denied outside
GLB, LDR and MBX (R52, R422, R423).

Where the manual leaves a clause open, it is the model's choice: log entries 11, 16, 17 and 136. -/
def Obligations.RegisterWritesRun : Prop :=
  (∀ (s : State) (sl : Slice) (word : Nat),
    populated s.hw sl.fld sl.idx = true → fixedField sl.fld sl.idx = false →
    (sl.fld.row.acc = .ro → s.judgeField sl word = (s, false)) ∧
    (sl.fld.row.acc = .w1c → sl.fld ≠ .blk .tempTrip → bitField word sl.lsb sl.fld.row.width ≠ 1 → s.judgeField sl word = (s, false)) ∧
    (sl.fld.row.acc = .w1c → sl.fld ≠ .blk .tempTrip → bitField word sl.lsb sl.fld.row.width = 1 →
      (s.judgeField sl word).2 = false ∧ (s.judgeField sl word).1.rd sl.fld sl.idx = 0 ∧
      ∀ g i, (g, i) ≠ (sl.fld, sl.idx) → (s.judgeField sl word).1.rd g i = s.rd g i) ∧
    (sl.fld.row.acc = .rw → s.judgeField sl word = (s.accept sl.fld sl.idx (bitField word sl.lsb sl.fld.row.width), false)) ∧
    (sl.fld.row.acc = .rwl → s.engineArmed = false →
      s.judgeField sl word = (s.accept sl.fld sl.idx (bitField word sl.lsb sl.fld.row.width), false)) ∧
    (sl.fld.row.acc = .rwl → s.engineArmed = true →
      s.judgeField sl word = (s, bitField word sl.lsb sl.fld.row.width != s.rd sl.fld sl.idx)) ∧
    (sl.fld.row.acc = .rwx → s.on (.glb .expert) = false →
      s.judgeField sl word = (s, bitField word sl.lsb sl.fld.row.width != s.rd sl.fld sl.idx)) ∧
    (∀ lo hi, sl.fld.row.acc = .rwx → s.on (.glb .expert) = true → s.expertRange ((sl.fld, sl.idx), 0) = .u lo hi →
      lo ≤ bitField word sl.lsb sl.fld.row.width →
      (bitField word sl.lsb sl.fld.row.width ≤ hi →
        s.judgeField sl word = (s.accept sl.fld sl.idx (bitField word sl.lsb sl.fld.row.width), false)) ∧
      (hi < bitField word sl.lsb sl.fld.row.width → lo ≤ hi →
        ∃ e : Entry, e.origin = 3 ∧ e.cause = 1 ∧ s.judgeField sl word = ((s.report e).accept sl.fld sl.idx hi, false)))) ∧
  (∀ (s : State) (a : Nat) (b : Block) (v : Word), bar0Offset a = true → ownRow a v.toNat = false → blockAt a = some b →
    s.Reaches b (stationAt a) →
    exec (.registerWrite a v) s = .next (s.writeWord a v.toNat) ∧
    (∀ sl, a ≠ (Fld.blk .ldReq).addr (stationAt a) → a ≠ (Fld.blk .lstate).addr (stationAt a) →
      ¬(0x600000 ≤ a ∧ a < 0x606000 ∧ a % 0x200 = 0xE0) → slicesAt a = [sl] → sl.fld.row.width ≤ 32 → Slice.boundary s sl = false →
      exec (.registerWrite a v) s =
        .next (if (s.judgeField sl v.toNat).2 then s.deny else (s.judgeField sl v.toNat).1))) ∧
  (∀ (s : State) (v : Word),
    (∀ i, i < 8 → s.Reaches .ldr 0 → exec (.registerWrite (0x10080 + 4 * i) v) s = .next (s.wr (.ldr .fusedata) i v.toNat)) ∧
    (s.Reaches .glb 0 → s.engineArmed = false →
      exec (.registerWrite 0x18 v) s = .next (s.wr (.glb .hbPeriod) 0 (bitField v.toNat 0 10))) ∧
    (s.Reaches .glb 0 → s.engineArmed = true → bitField v.toNat 0 10 ≠ s.rd (.glb .hbPeriod) →
      exec (.registerWrite 0x18 v) s = .next s.deny) ∧
    (s.Reaches .glb 0 → s.engineArmed = true → bitField v.toNat 0 10 = s.rd (.glb .hbPeriod) →
      exec (.registerWrite 0x18 v) s = .next s) ∧
    (∀ a, bar0Offset a = true → ownRow a v.toNat = false → blockAt a = none →
      (s.ldr.st ≠ .applying ∨ s.barUp = false → exec (.registerWrite a v) s = .next s) ∧
      (s.ldr.st = .applying → s.barUp = true → exec (.registerWrite a v) s = .next s.deny)) ∧
    (∀ a b, bar0Offset a = true → ownRow a v.toNat = false → blockAt a = some b → s.barUp = true → s.blockUp b (stationAt a) = false →
      s.ldr.st ≠ .applying → exec (.registerWrite a v) s = .next s.isoAccess) ∧
    (∀ a b, bar0Offset a = true → ownRow a v.toNat = false → blockAt a = some b → s.barUp = true → s.blockUp b (stationAt a) = true →
      s.ldr.st = .applying → applyingBlock b = false → exec (.registerWrite a v) s = .next s.deny))

/-- A BAR0 access that is not an aligned 32-bit one completes with Unsupported Request and changes nothing (R5). -/
def Obligations.MisalignedAccessChangesNothing : Prop :=
  ∀ (s : State) (a n : Nat) (w : Bool), a < 0x4000000 → (a % 4 ≠ 0 ∨ n ≠ 4) → s.barUp = true →
    exec (.misalignedBar0Access a n w) s = .next (s.emit .unsupported)

/-- Pairs (R9): a write of the lower half is held, a write of the upper half moves both at once, a read of the lower register latches
the upper one, and the read of the upper one returns the latched half and uses it up. The lowest 5 bits of a ring base read 0.

Where the manual leaves a clause open, it is the model's choice: log entries 15, 16 and 19. -/
def Obligations.PairsMoveInOneStep : Prop :=
  ∀ (s : State) (a : Nat) (v : Word),
    (∀ f i, bar0Offset a = true → writablePair a = some (f, i, false) → s.Reaches f.block (stationAt a) →
      populated s.hw f i = true → f.row.acc = .rw →
      exec (.pairLowWrite a v) s = .next { s with hold := Store.set fldCode none (f, i) (some v.toNat) s.hold }) ∧
    (∀ f i, bar0Offset a = true → writablePair a = some (f, i, true) → s.Reaches f.block (stationAt a) →
      populated s.hw f i = true → f.row.acc = .rw →
      ∃ t, exec (.pairHighWrite a v) s = .next t ∧ Store.get none (f, i) t.hold = none ∧
        (f ≠ .dma .ring → t.rd f i = (2 ^ 32 * (v.toNat % 65536) + s.heldLow f i) % 2 ^ f.row.width) ∧
        (f = .dma .ring → t.rd f i = (2 ^ 32 * v.toNat + s.heldLow f i) / 32 * 32 % 2 ^ 64) ∧
        ∀ g j, (g, j) ≠ (f, i) → t.rd g j = s.rd g j) ∧
    (∀ b, bar0Offset a = true → pairLower a = true → blockAt a = some b → s.barUp = true → s.blockUp b (stationAt a) = true →
      ∃ t, exec (.pairLowRead a) s = .next t ∧ t.out = .readData (s.readReg a) :: s.out ∧
        Store.get none (a + 4) t.latch = some (s.readReg (a + 4)) ∧ t.regs = s.regs) ∧
    (∀ b, bar0Offset a = true → pairUpper a = true → pairLower a = false → blockAt a = some b → s.barUp = true →
      s.blockUp b (stationAt a) = true →
      ∃ t, exec (.pairLowRead a) s = .next t ∧ t.out = .readData ((Store.get none a s.latch).getD (s.readReg a)) :: s.out ∧
        Store.get none a t.latch = none ∧ t.regs = s.regs)

/-- GLB: the heartbeat ends HOST_LOST (R21); the key unlocks expert level and any other value locks it (R429).

Mailboxes (R435, R436): a waiting post enters its pair at the end; a pop takes the oldest post, behind which waiting posts may enter,
and is refused while a channel drains the pair; an answer that names no open decision is refused. An answer on an admission (R90) closes
the decision: 2 withholds the head with ADM_REFUSE 4; 1 shows the gate's refusal, or admits the head on a module that is no part of a
ring. An answer on a takeover (R195) closes the decision: 2 has the row uncovered from the next boundary, 1 keeps it.

Where the manual leaves a clause open, it is the model's choice: log entries 103 and 120. -/
def Obligations.HostSignals : Prop :=
  (∀ (s : State) (v : Word), s.Reaches .glb 0 →
    (s.up .seq = true → exec (.heartbeatWrite v) s = .next { s with cores := { s.cores with heartbeat := false } }) ∧
    ∃ t, exec (.expertKeyWrite v) s = .next t ∧ t.rd (.glb .expert) = (if v.toNat % 65536 = 0xE4A7 then 1 else 0) ∧
      ∀ f i, (f, i) ≠ (.glb .expert, 0) → t.rd f i = s.rd f i) ∧
  (∀ (s : State) (p : Nat), p < 16 →
    (∀ i w, s.mbx.waiting[i]? = some w → s.routeOf w.kind = some p → (s.posts p).length < 32 →
      ∃ t x, exec (.mbxPost i) s = .next t ∧ t.posts p = s.posts p ++ [x] ∧ x.kind = w.kind ∧ x.unit = w.unit ∧ x.data = w.data ∧
        x.token = Store.get 0 p s.mbx.tokens ∧ x.etime = s.etime ∧ t.mbx.waiting = s.mbx.waiting.eraseIdx i ∧ t.regs = s.regs) ∧
    (s.Reaches .mbx 0 → s.pairTaken p = false →
      ∃ t l, exec (.mbxPop p) s = .next t ∧ t.posts p = (s.posts p).drop 1 ++ l ∧ t.regs = s.regs ∧
        (s.mbx.waiting = [] → l = [] ∧ ∀ q, q ≠ p → t.posts q = s.posts q)) ∧
    (s.Reaches .mbx 0 → s.pairTaken p = true →
      exec (.mbxPop p) s = .next (s.wr (.mbx .popRefused) p 1)) ∧
    (∀ v : Word, s.Reaches .mbx 0 → s.answered p (v.toNat % 65536) (bitField v.toNat 16 8) = none →
      exec (.mbxAnswer p v) s = .next (s.wr (.mbx .ansRefused) p 1)) ∧
    (∀ (v : Word) d, s.Reaches .mbx 0 → s.answered p (v.toNat % 65536) (bitField v.toNat 16 8) = some d → d.kind = 2 →
      ∃ t, exec (.mbxAnswer p v) s = .next t ∧ t.mbx.decisions = s.mbx.decisions.erase d ∧ t.regs = s.regs ∧
        (bitField v.toNat 16 8 = 1 → t.lnks = s.lnks) ∧
        (bitField v.toNat 16 8 = 2 → ((t.lnk d.unit).beam (d.data.headD 0)).spoilPend = true)) ∧
    (∀ (v : Word) d, s.Reaches .mbx 0 → s.answered p (v.toNat % 65536) (bitField v.toNat 16 8) = some d → d.kind = 1 →
      (bitField v.toNat 16 8 = 2 → ∃ t, exec (.mbxAnswer p v) s = .next t ∧ t.mbx.decisions = s.mbx.decisions.erase d ∧
        t.loam = { s.loam with withheld := true } ∧ t.rd (.pgs .admRefuse) = 4) ∧
      (bitField v.toNat 16 8 = 1 → s.gateRefusal ≠ 0 → ∃ t, exec (.mbxAnswer p v) s = .next t ∧
        t.mbx.decisions = s.mbx.decisions.erase d ∧ t.loam = s.loam ∧ t.rd (.pgs .admRefuse) = s.gateRefusal) ∧
      (bitField v.toNat 16 8 = 1 → s.gateRefusal = 0 → s.head = some d.unit → s.cslRole = 0 →
        ∃ t, exec (.mbxAnswer p v) s = .next t ∧ (t.ctx d.unit).queued = false ∧
          (t.ctx d.unit).st = (if (s.ctx d.unit).planeList.isEmpty then .exposed else .admitted) ∧ t.decisionPosted 1 d.unit = false)))

/-- Accesses that meet nothing: an island in reset or isolated (R423).

The PCIe link and MSI-X (R420, R425, R427): the link goes up with its speed and width and comes down, D3hot stops the BARs, and
a vector that is enabled sends its pending message once; a mask bit that frees no pending message sends none.

Where the manual leaves a clause open, it is the model's choice: log entries 12, 13 and 14. -/
def Obligations.LinkGatesAccess : Prop :=
  (∀ s : State, s.barUp = true →
    (∀ a b, bar0Offset a = true → blockAt a = some b → s.blockUp b (stationAt a) = false →
      exec (.isolatedAccess a true) s = .next s.isoAccess ∧
      exec (.isolatedAccess a false) s = .next (s.isoAccess.emit (.readData 0xFFFFFFFF)) ∧
      s.isoAccess.rd (.glb .isoAccess) = 1 ∧ ∀ f i, (f, i) ≠ (.glb .isoAccess, 0) → s.isoAccess.rd f i = s.rd f i)) ∧
  (∀ s : State, s.up .host = true →
    (∀ sp w, 1 ≤ sp → sp ≤ 5 → w ∈ [1, 2, 4, 8] →
      exec (.pcieLinkUp sp w) s =
        .next ((({ s with pcie := { s.pcie with linkUp := true } }).wr (.glb .pcieSpeed) 0 sp).wr (.glb .pcieWidth) 0 w)) ∧
    (s.pcie.linkUp = true →
      exec .d3hotEntry s = .next { s with pcie := { s.pcie with d3hot := true } } ∧
      ({ s with pcie := { s.pcie with d3hot := true } } : State).barUp = false ∧
      (s.effReach 5 = 1 → ∃ t, exec .pcieLinkDown s = .next t ∧ t.up .host = false) ∧
      (s.effReach 5 = 2 → ∃ t, exec .pcieLinkDown s = .next t ∧ t.up .vid = false) ∧
      (∀ v, v < 256 → s.pcie.msixEnable = true → s.pcie.functionMask = false → v ∈ s.pcie.pendingBits → v ∉ s.pcie.unmasked →
        (∀ w ∈ s.pcie.pendingBits, w ∉ s.pcie.unmasked) →
        ∃ t, exec (.msixUnmask (.vectorMask v false)) s = .next t ∧ t.out = .msix v :: s.out ∧ v ∉ t.pcie.pendingBits ∧
          t.regs = s.regs) ∧
      (∀ v, v < 256 → s.pcie.msixEnable = true → s.pcie.functionMask = false → v ∈ s.pcie.pendingBits →
        ∃ t, exec (.msixUnmask (.vectorMask v false)) s = .next t ∧ .msix v ∈ t.out ∧ v ∉ t.pcie.pendingBits ∧ t.regs = s.regs) ∧
      (∀ v, v < 256 → s.pcie.msixEnable = false ∨ s.pcie.functionMask = true ∨ v ∉ s.pcie.pendingBits →
        (∀ w ∈ s.pcie.pendingBits, w ∉ s.pcie.unmasked) →
        ∃ t, exec (.msixUnmask (.vectorMask v false)) s = .next t ∧ v ∈ t.pcie.unmasked ∧ t.out = s.out ∧
          t.pcie.pendingBits = s.pcie.pendingBits ∧ t.regs = s.regs) ∧
      (∀ v, v < 256 → (∀ w ∈ s.pcie.pendingBits, w ∉ s.pcie.unmasked) →
        ∃ t, exec (.msixUnmask (.vectorMask v true)) s = .next t ∧ v ∉ t.pcie.unmasked ∧ t.out = s.out ∧
          t.pcie.pendingBits = s.pcie.pendingBits ∧ t.regs = s.regs) ∧
      (∃ t, exec (.msixUnmask (.functionMask true)) s = .next t ∧ t.pcie = { s.pcie with functionMask := true } ∧ t.out = s.out) ∧
      (∃ t, exec (.msixUnmask (.enable false)) s = .next t ∧ t.pcie = { s.pcie with msixEnable := false } ∧ t.out = s.out)))

/-- A poisoned write is dropped and logged on BAR0, BAR2 and BAR4, and sets no ACCESS_DENIED (R424). -/
def Obligations.PoisonedWritesAreDropped : Prop :=
  ∀ (s : State) (b : Bar) (a : Nat), s.barUp = true → a < barSize b →
    exec (.poisonedWrite b a) s = .next (s.emit (.aerPoisoned a)) ∧
      (s.emit (.aerPoisoned a)).rd (.glb .accessDenied) = s.rd (.glb .accessDenied)

/-! ### Loading, committing, arming, fuses -/

/-- LOAD_REQUEST and AUTO_LOAD in the states that take them start reading the chosen source; a request in VERIFYING, APPLYING, ARMED or
DISARMING only sets IGNORED (R46, R47, R50, R51).

IMAGE_VERIFY_COMPLETE (R48, R50, R478): with an image that has no fault APPLYING begins, with every loop slot and the capture back at
their start; the first fault is recorded as REJECT, and the previous state returns unless the other flash slot is tried.

APPLY_COMPLETE waits for the axes and the external sequence; then the passes run over the applied image (R49, R50, R478).

Where the manual leaves a clause open, it is the model's choice: log entries 51, 58, 60 and 71. -/
def Obligations.LoadsRun : Prop :=
  (∀ (s : State) (v : Word), v.getLsbD 0 = true → s.Reaches .ldr 0 →
    (s.ldr.st = .empty ∨ s.ldr.st = .loaded →
      bitField v.toNat 1 2 ≠ 3 ∨ s.anyOpen = false →
      ∃ t, exec (.loadRequest v) s = .next t ∧ t.ldr.st = .verifying ∧ t.ldr.prev = s.ldr.st ∧
        t.ldr.source = (if bitField v.toNat 1 2 = 0 then s.firstSlot else bitField v.toNat 1 2) ∧
        t.ldr.mayFallBack = (bitField v.toNat 1 2 == 0) ∧ t.ldr.image = s.ldr.image ∧
        t.rd (.ldr .src) = bitField v.toNat 1 2 ∧ t.rd (.ldr .fallback) = bitField v.toNat 3 1 ∧
        t.rd (.ldr .commitSlot) = bitField v.toNat 5 1) ∧
    (s.ldr.st = .empty ∨ s.ldr.st = .loaded → bitField v.toNat 1 2 = 3 → s.anyOpen = true →
      ∃ t, exec (.loadRequest v) s = .next t ∧ t.ldr.st = s.ldr.st ∧ t.rd (.ldr .reject) = 14 ∧ t.rd (.ldr .loadFail) = 1) ∧
    (s.ldr.st ≠ .empty → s.ldr.st ≠ .loaded →
      ∃ t, exec (.loadRequest v) s = .next t ∧ t.ldr.st = s.ldr.st ∧ t.rd (.ldr .ignored) = 1 ∧ (v.getLsbD 4 = false → t.ldr = s.ldr)) ∧
    (s.up .seq = true → s.ldr.st = .empty → s.obByte 3 % 2 = 1 →
      ∃ t, exec .autoLoad s = .next t ∧ t.ldr.st = .verifying ∧ t.ldr.source = s.firstSlot ∧ t.ldr.mayFallBack = true ∧ t.regs = s.regs)) ∧
  (∀ (s : State) (ok : Bool), s.ldr.st = .verifying →
    (s.imageFault s.ldr.source ok = 0 →
      ∃ t, exec (.imageVerifyComplete ok) s = .next t ∧ t.ldr.st = .applying ∧ t.slots = [] ∧ t.capture = {} ∧ t.loam.bytes = s.loam.bytes) ∧
    (∀ c, s.imageFault s.ldr.source ok = c + 1 → (s.ldr.mayFallBack = false ∨ s.ldr.second = true ∨ s.on (.ldr .fallback) = false) →
      ∃ t, exec (.imageVerifyComplete ok) s = .next t ∧ t.ldr.st = s.ldr.prev ∧ t.rd (.ldr .reject) = (c + 1) % 16 ∧
        t.rd (.ldr .loadFail) = 1 ∧ t.ldr.image = s.ldr.image) ∧
    (∀ c, s.imageFault s.ldr.source ok = c + 1 → s.ldr.mayFallBack = true → s.ldr.second = false → s.on (.ldr .fallback) = true →
      ∃ t, exec (.imageVerifyComplete ok) s = .next t ∧ t.ldr.st = .verifying ∧ t.ldr.source = 3 - s.ldr.source ∧
        t.ldr.second = true ∧ t.rd (.ldr .reject) = (c + 1) % 16)) ∧
  (∀ s : State, s.ldr.st = .applying →
    (s.estate = 0 → (∀ k, k < s.hw.axes → (s.axis k).still = true) → exec .applyComplete s = .next s.loaded) ∧
    (s.estate ≠ 0 → exec .applyComplete s = .next s) ∧
    (∀ k, k < s.hw.axes → (s.axis k).still = false → exec .applyComplete s = .next s))

/-- COMMIT and COMMIT_COMPLETE (R54, R55): the staged image goes to the named slot, which fails its CRC or signature from the start of
the commit until it has ended well; the other slot stays. A second commit is ignored; one without a staged image, or one that fails,
sets COMMIT_FAIL.

Where the manual leaves a clause open, it is the model's choice: log entry 62. -/
def Obligations.CommitsRun : Prop :=
  ∀ s : State,
    (∀ (v : Word) img, v.getLsbD 4 = true → s.Reaches .ldr 0 → s.on (.ldr .commitBusy) = false → s.ldr.staged = some img →
      ∃ t, exec (.commit v) s = .next t ∧ t.ldr.commit = some { slot := bitField v.toNat 5 1, image := img } ∧
        t.rd (.ldr .commitBusy) = 1 ∧
        (bitField v.toNat 5 1 = 0 → t.ldr.flash0 = img ∧ t.ldr.cut0 = true ∧ t.ldr.flash1 = s.ldr.flash1 ∧ t.ldr.cut1 = s.ldr.cut1) ∧
        (bitField v.toNat 5 1 = 1 → t.ldr.flash1 = img ∧ t.ldr.cut1 = true ∧ t.ldr.flash0 = s.ldr.flash0 ∧ t.ldr.cut0 = s.ldr.cut0) ∧
        (v.getLsbD 0 = false → t.ldr.st = s.ldr.st)) ∧
    (∀ v : Word, v.getLsbD 4 = true → s.Reaches .ldr 0 → s.on (.ldr .commitBusy) = true →
      ∃ t, exec (.commit v) s = .next t ∧ t.ldr.commit = s.ldr.commit ∧ t.rd (.ldr .ignored) = 1 ∧ (v.getLsbD 0 = false → t.ldr = s.ldr)) ∧
    (∀ v : Word, v.getLsbD 4 = true → s.Reaches .ldr 0 → s.on (.ldr .commitBusy) = false → s.ldr.staged = none →
      ∃ t, exec (.commit v) s = .next t ∧ t.ldr.commit = s.ldr.commit ∧ t.rd (.ldr .commitFail) = 1 ∧ (v.getLsbD 0 = false → t.ldr = s.ldr)) ∧
    (∀ j, s.ldr.commit = some j →
      ∃ t, exec (.commitComplete true) s = .next t ∧ t.ldr.flash0 = s.ldr.flash0 ∧ t.ldr.flash1 = s.ldr.flash1 ∧
        (j.slot = 0 → t.ldr.cut0 = false ∧ t.ldr.cut1 = s.ldr.cut1) ∧ (j.slot ≠ 0 → t.ldr.cut1 = false ∧ t.ldr.cut0 = s.ldr.cut0) ∧
        t.ldr.commit = none ∧ t.rd (.ldr .commitBusy) = 0 ∧ t.rd (.ldr .commitFail) = s.rd (.ldr .commitFail)) ∧
    (∀ j, s.ldr.commit = some j →
      ∃ t, exec (.commitComplete false) s = .next t ∧ t.ldr.flash0 = s.ldr.flash0 ∧ t.ldr.flash1 = s.ldr.flash1 ∧
        (j.slot = 0 → t.ldr.cut0 = true ∧ t.ldr.cut1 = s.ldr.cut1) ∧ (j.slot ≠ 0 → t.ldr.cut1 = true ∧ t.ldr.cut0 = s.ldr.cut0) ∧
        t.ldr.commit = none ∧ t.rd (.ldr .commitBusy) = 0 ∧ t.rd (.ldr .commitFail) = 1)

/-- The key of LDR_ARM arms the engine and disarms it; any other one changes nothing, but an arm write with it records ARM_REFUSE = 5
(R60). -/
def Obligations.OnlyTheKeyArms : Prop :=
  ∀ (s : State) (v : Word), s.Reaches .ldr 0 →
    (v.toNat % 65536 ≠ 0xA4E5 →
      (v.getLsbD 31 = false → exec (.arm v) s = .next (s.wr (.ldr .armRefuse) 0 5)) ∧
      (v.getLsbD 31 = true → exec (.disarm v) s = .next s)) ∧
    (v.toNat % 65536 = 0xA4E5 →
      (v.getLsbD 31 = false → s.armFault = 0 → ∃ t, exec (.arm v) s = .next t ∧ t.ldr.st = .armed) ∧
      (v.getLsbD 31 = true → s.ldr.st = .armed → ∃ t, exec (.disarm v) s = .next t ∧ t.ldr.st = .disarming))

/-- A load request in VERIFYING, APPLYING, ARMED or DISARMING is ignored and sets IGNORED; an arm request in any state but LOADED is
refused and recorded in ARM_REFUSE (R51). -/
def Obligations.RequestsOutOfPlaceAreRefused : Prop :=
  ∀ (s : State) (v : Word), s.Reaches .ldr 0 →
    (v.getLsbD 0 = true → s.ldr.st = .verifying ∨ s.ldr.st = .applying ∨ s.ldr.st = .armed ∨ s.ldr.st = .disarming →
      ∃ t, exec (.loadRequest v) s = .next t ∧ t.ldr.st = s.ldr.st ∧ t.ldr.source = s.ldr.source ∧ t.ldr.image = s.ldr.image ∧
        t.rd (.ldr .ignored) = 1) ∧
    (v.getLsbD 31 = false → s.ldr.st ≠ .loaded →
      ∃ t, exec (.arm v) s = .next t ∧ t.ldr = s.ldr ∧ t.rd (.ldr .armRefuse) ≠ 0)

/-- ARM, DISARM and DISARM_COMPLETE (R50, R61, R63): ARM needs every condition and records the first that fails, and ends running
injections (R254); DISARM leads through DISARMING to LOADED once no admitted sheet or frame remains.

The conditions of R61 in their order. -/
def Obligations.ArmingRuns : Prop :=
  (∀ s : State,
    (∀ v : Word, s.Reaches .ldr 0 → v.toNat % 65536 = 0xA4E5 →
      (v.getLsbD 31 = false → s.armFault = 0 →
        ∃ t, exec (.arm v) s = .next t ∧ t.ldr = { s.ldr with st := .armed } ∧ t.pth.feedBase = none ∧ t.loam = s.loam ∧
          (∀ n, n < s.hw.slots → t.rd (.cle .injAct) n = 0) ∧ ∀ f i, f ≠ .cle .injAct → t.rd f i = s.rd f i) ∧
      (v.getLsbD 31 = false → s.armFault ≠ 0 → exec (.arm v) s = .next (s.wr (.ldr .armRefuse) 0 s.armFault)) ∧
      (v.getLsbD 31 = true → s.ldr.st = .armed →
        ∃ t, exec (.disarm v) s = .next t ∧ t.ldr = { s.ldr with st := .disarming } ∧ t.regs = s.regs ∧ t.loam = s.loam)) ∧
    (s.ldr.st = .disarming → s.noneRemain = true →
      ∃ t, exec .disarmComplete s = .next t ∧ t.ldr = { s.ldr with st := .loaded } ∧ t.engineArmed = false ∧ t.loam.bytes = s.loam.bytes ∧
        (s.on (.pwr .offPend) = false → s.flt.records = [] → t.regs = s.regs ∧ t.loam = s.loam)) ∧
    (s.ldr.st ≠ .disarming ∨ s.noneRemain = false → exec .disarmComplete s = .next s)) ∧
  (∀ s : State,
    (s.armFault = 0 ↔ s.ldr.st = .loaded ∧ s.on (.cal .puDone) = true ∧ s.on (.cal .puBad) = false ∧ s.on (.pwr .allQual) = true ∧
      s.recordAt 2 = false ∧ (s.ldr.strictArm = true → s.ldr.loadEntries = 0)) ∧
    (s.armFault = 1 ↔ s.ldr.st ≠ .loaded ∧ s.ldr.st ≠ .disarming) ∧ (s.armFault = 6 ↔ s.ldr.st = .disarming) ∧ s.armFault ≠ 5 ∧
    (s.ldr.st = .loaded →
      (s.armFault = 2 ↔ s.on (.cal .puDone) = false ∨ s.on (.cal .puBad) = true) ∧
      (s.armFault = 3 ↔ s.on (.cal .puDone) = true ∧ s.on (.cal .puBad) = false ∧ s.on (.pwr .allQual) = false) ∧
      (s.armFault = 4 ↔ s.on (.cal .puDone) = true ∧ s.on (.cal .puBad) = false ∧ s.on (.pwr .allQual) = true ∧ s.recordAt 2 = true)))

/-- Fuse commands (R68): each starts only in EMPTY or LOADED with the key and its own condition, is refused with FUSE_ERR otherwise, and
changes the fuses when it ends verified: the named blank slot holds the staged hash, the named slot is revoked, the counter is at
least the image's SECVER, or the test port is locked and drives no pin.

FUSE_COMMAND_DONE (R68) and CLR_EXPERT (R67).

Where the manual leaves a clause open, it is the model's choice: log entries 63 and 64. -/
def Obligations.FusesBurnOnceVerified : Prop :=
  (∀ (s : State) (v : Word), s.Reaches .ldr 0 →
    (s.ldr.st = .empty ∨ s.ldr.st = .loaded → s.on (.ldr .fuseBusy) = false → v.toNat / 65536 = 0xF05E →
      (fuseOp v = 1 → s.fuses.slots.getD (fuseSlot v) .blank = .blank →
        exec (.programKey v) s =
          .next { s.wr (.ldr .fuseBusy) 0 1 with ldr := { s.ldr with fuseCmd := some (.programKey (fuseSlot v) s.stagedHash) } } ∧
        ∃ t u, exec (.programKey v) s = .next t ∧ exec (.fuseCommandDone true) t = .next u ∧
          u.fuses = { s.fuses with slots := s.fuses.slots.set (fuseSlot v) (.programmed s.stagedHash) } ∧ u.on (.ldr .fuseBusy) = false) ∧
      (fuseOp v = 2 → (revokeSlot s.fuses.slots (fuseSlot v)).any KeySlot.usable = true →
        exec (.revoke v) s = .next { s.wr (.ldr .fuseBusy) 0 1 with ldr := { s.ldr with fuseCmd := some (.revoke (fuseSlot v)) } } ∧
        ∃ t u, exec (.revoke v) s = .next t ∧ exec (.fuseCommandDone true) t = .next u ∧
          u.fuses = { s.fuses with slots := revokeSlot s.fuses.slots (fuseSlot v) } ∧ u.on (.ldr .fuseBusy) = false) ∧
      (fuseOp v = 3 → s.ldr.st = .loaded →
        exec (.advanceSecver v) s =
          .next { s.wr (.ldr .fuseBusy) 0 1 with ldr := { s.ldr with fuseCmd := some (.advance (s.rd (.ldr .imgSecver))) } } ∧
        ∃ t u, exec (.advanceSecver v) s = .next t ∧ exec (.fuseCommandDone true) t = .next u ∧
          u.fuses = { s.fuses with seccount := max s.fuses.seccount (s.rd (.ldr .imgSecver)) } ∧ u.on (.ldr .fuseBusy) = false) ∧
      (fuseOp v = 4 →
        exec (.lockTestPort v) s = .next { s.wr (.ldr .fuseBusy) 0 1 with ldr := { s.ldr with fuseCmd := some .lockTest } } ∧
        ∃ t u, exec (.lockTestPort v) s = .next t ∧ exec (.fuseCommandDone true) t = .next u ∧
          u.fuses = { s.fuses with testLocked := true } ∧ u.eio.boundary = [] ∧ u.on (.ldr .fuseBusy) = false) ∧
      (fuseOp v = 1 → s.fuses.slots.getD (fuseSlot v) .blank ≠ .blank →
        exec (.programKey v) s = .next (s.wr (.ldr .fuseErr) 0 1)) ∧
      (fuseOp v = 2 → (revokeSlot s.fuses.slots (fuseSlot v)).any KeySlot.usable = false →
        exec (.revoke v) s = .next (s.wr (.ldr .fuseErr) 0 1)) ∧
      (fuseOp v = 3 → s.ldr.st = .empty → exec (.advanceSecver v) s = .next (s.wr (.ldr .fuseErr) 0 1))) ∧
    (v.toNat / 65536 ≠ 0xF05E ∨ s.on (.ldr .fuseBusy) = true ∨ (s.ldr.st ≠ .empty ∧ s.ldr.st ≠ .loaded) →
      (fuseOp v = 1 → exec (.programKey v) s = .next (s.wr (.ldr .fuseErr) 0 1)) ∧
      (fuseOp v = 2 → exec (.revoke v) s = .next (s.wr (.ldr .fuseErr) 0 1)) ∧
      (fuseOp v = 3 → exec (.advanceSecver v) s = .next (s.wr (.ldr .fuseErr) 0 1)) ∧
      (fuseOp v = 4 → exec (.lockTestPort v) s = .next (s.wr (.ldr .fuseErr) 0 1)))) ∧
  (∀ s : State,
    (∀ j, s.ldr.fuseCmd = some j →
      (∃ t, exec (.fuseCommandDone true) s = .next t ∧ t.rd (.ldr .fuseBusy) = 0 ∧ t.ldr.fuseCmd = none ∧
        t.rd (.ldr .fuseErr) = s.rd (.ldr .fuseErr) ∧
        (∀ i h, j = .programKey i h → t.fuses = { s.fuses with slots := s.fuses.slots.set i (.programmed h) }) ∧
        (∀ i, j = .revoke i → t.fuses = { s.fuses with slots := revokeSlot s.fuses.slots i }) ∧
        (∀ n, j = .advance n → t.fuses = { s.fuses with seccount := max s.fuses.seccount n }) ∧
        (j = .lockTest → t.fuses = { s.fuses with testLocked := true } ∧ t.eio.boundary = [])) ∧
      (∃ t, exec (.fuseCommandDone false) s = .next t ∧ t.rd (.ldr .fuseBusy) = 0 ∧ t.ldr.fuseCmd = none ∧ t.rd (.ldr .fuseErr) = 1 ∧
        t.fuses = s.fuses)) ∧
    (∀ v : Word, s.Reaches .ldr 0 → v.getLsbD 0 = true →
      ∃ t, exec (.clrExpert v) s = .next t ∧ t.ldr = { s.ldr with report := s.ldr.report.filter fun e => e.origin != 3 } ∧
        t.rd (.ldr .repLost) = 0 ∧ ∀ f i, (f, i) ≠ (.ldr .repLost, 0) → t.rd f i = s.rd f i))

/-! ### The page store -/

/-- BAR2_WRITE stores its bytes and no other ones, where no band holds an extent it touches and the window lies in the usable space
(R96).

Where a BAR2 write stores nothing: behind the usable space it sets AP_RANGE, in an extent of a band AP_DENIED (R96); in APPLYING it is
denied (R52).

BAR2_READ returns the stored bytes, and zeros behind the usable space with AP_RANGE; a poisoned completion where a burst has an
uncorrectable error (R70, R96), and poisoned zeros while MEM does not answer (R13).

Where the manual leaves a clause open, it is the model's choice: log entries 3 and 119. -/
def Obligations.ApertureAccessesRun : Prop :=
  (∀ (s : State) (x : Nat) (data : List Byte) (ups : List Upset), s.Sound → s.hw.upsOk ups = true → s.barUp = true →
    s.ldr.st ≠ .applying → s.up .mem = true → 1 ≤ data.length → x + data.length ≤ 4294967296 →
    65536 * s.rd (.pgs .apbase) + x + data.length ≤ s.hw.usable →
    s.touchesBand (65536 * s.rd (.pgs .apbase) + x) data.length = false →
    ∃ t, exec (.bar2Write x data ups) s = .next t ∧
      (∀ a, 65536 * s.rd (.pgs .apbase) + x ≤ a → a < 65536 * s.rd (.pgs .apbase) + x + data.length →
        t.byte a = data.getD (a - (65536 * s.rd (.pgs .apbase) + x)) 0) ∧
      (∀ a, a < 65536 * s.rd (.pgs .apbase) + x ∨ 65536 * s.rd (.pgs .apbase) + x + data.length ≤ a → t.byte a = s.byte a)) ∧
  (∀ (s : State) (x : Nat) (data : List Byte) (ups : List Upset), s.hw.upsOk ups = true → 1 ≤ data.length →
    x + data.length ≤ 4294967296 →
    (s.barUp = true → s.ldr.st ≠ .applying → s.up .mem = true → s.hw.usable ≤ 65536 * s.rd (.pgs .apbase) + x →
      ∃ t, exec (.bar2Write x data ups) s = .next t ∧ t.rd (.pgs .apRange) = 1 ∧ t.loam.bytes = s.loam.bytes) ∧
    (∀ b, data = [b] → s.barUp = true → s.ldr.st ≠ .applying → s.up .mem = true → 65536 * s.rd (.pgs .apbase) + x < s.hw.usable →
      s.touchesBand (65536 * s.rd (.pgs .apbase) + x) 1 = true →
      exec (.bar2Write x data ups) s = .next ((s.upset ups).wr (.pgs .apDenied) 0 1)) ∧
    (s.barUp = true → s.ldr.st = .applying → exec (.bar2Write x data ups) s = .next s.deny) ∧
    (s.barUp = false ∨ s.ldr.st ≠ .applying ∧ s.up .mem = false → exec (.bar2Write x data ups) s = .next s)) ∧
  (∀ (s : State) (x n : Nat) (ups : List Upset), s.hw.upsOk ups = true → 1 ≤ n → x + n ≤ 4294967296 →
    (s.barUp = true → s.up .mem = true →
      ∃ t p, exec (.bar2Read x n ups) s = .next t ∧
        t.out = .bar2Data (s.bytes (65536 * s.rd (.pgs .apbase) + x) (min n (s.hw.usable - (65536 * s.rd (.pgs .apbase) + x))) ++
          List.replicate (n - min n (s.hw.usable - (65536 * s.rd (.pgs .apbase) + x))) 0) p :: s.out ∧
        t.loam.bytes = s.loam.bytes ∧ (s.hw.usable < 65536 * s.rd (.pgs .apbase) + x + n → t.rd (.pgs .apRange) = 1) ∧
        (ups = [] → s.loam.ecc = [] → p = false)) ∧
    (∀ e ∈ s.loam.ecc, ups = [] → s.barUp = true → s.up .mem = true → e.2 = .bad →
      64 * e.1 < 65536 * s.rd (.pgs .apbase) + x + n → 65536 * s.rd (.pgs .apbase) + x < 64 * e.1 + 64 → s.ecc e.1 = .bad →
      65536 * s.rd (.pgs .apbase) + x + n ≤ s.hw.usable →
      ∃ t d, exec (.bar2Read x n ups) s = .next t ∧ t.out = .bar2Data d true :: s.out ∧ t.rd (.pgs .ueEvent) = 1) ∧
    (s.barUp = true → s.up .mem = false → exec (.bar2Read x n ups) s = .next (s.emit (.bar2Data (List.replicate n 0) true))) ∧
    (s.barUp = false → exec (.bar2Read x n ups) s = .next s))

/-- Every command but the 25 of `writesStore` leaves each byte of the page store as it was: no command of the registers, the motion, the
loops, the fuser, the path, the cascade or the pins reaches the sheets' data. -/
def Obligations.OtherCommandsStoreNothing : Prop :=
  ∀ (i : Instr) (s t : State), writesStore i = false → exec i s = .next t → ∀ a, t.byte a = s.byte a

/-- The scrub (R71) goes to the next ECC group, and starts over behind the last one; a single-bit error it meets is written back and
counted twice, once for the read and once for the corrected burst. It changes no stored byte.

BAND_VERIFIED (R77, R82, R125): a wrong CHECK makes the band FAILED with cause 2, a stream that was cut off with cause 4, an error of the
verify decompressor with the cause of R125, and the context of a FAILED band is blocked; a band that passes is VERIFIED and counts in its
plane; the last one makes a CLOSED context READY.

LOAM_DEADLOCK_TIMEOUT and BAND_RECLAIM_DONE (R79, R84): with no live context a held transfer sets DEADLOCK; the first record of the
reclaim queue becomes FREE, and the rest of the queue keeps its order.

Where the manual leaves a clause open, it is the model's choice: log entries 111, 112 and 138. -/
def Obligations.StoreIsChecked : Prop :=
  (∀ s : State,
    (∀ ups, s.hw.upsOk ups = true → s.up .mem = true → s.on (.pgs .scrubEn) = true →
      ∃ t, exec (.scrubTick ups) s = .next t ∧ t.loam.bytes = s.loam.bytes ∧
        t.loam.scrub = (if s.loam.scrub + 1 = s.hw.extents * 32 then 0 else s.loam.scrub + 1)) ∧
    (s.up .mem = true → s.on (.pgs .scrubEn) = true → s.loam.ecc = [] →
      exec (.scrubTick []) s = .next { s with loam := { s.loam with
        scrub := if s.loam.scrub + 1 = s.hw.extents * 32 then 0 else s.loam.scrub + 1 } }) ∧
    (∀ ups, s.hw.upsOk ups = true → s.up .mem = false ∨ s.on (.pgs .scrubEn) = false → exec (.scrubTick ups) s = .next s) ∧
    (∀ b, s.ecc b = .single → (s.scrubBurst b).ecc b = .none ∧
      (s.scrubBurst b).rd (.pgs .eccCe) = min (2 ^ 32 - 1) (s.rd (.pgs .eccCe) + 2) ∧ (s.scrubBurst b).loam.bytes = s.loam.bytes) ∧
    (∀ b, s.ecc b = .none → s.scrubBurst b = s)) ∧
  (∀ (s : State) (r : Nat), r < 131072 →
    (∀ cause, s.up .mem = true → (s.band r).st = .checking →
      (if (s.band r).crcIn ≠ (s.band r).check then 2 else if (s.band r).cut = true then 4
        else if s.hw.exL = true then verifyCause (s.verifyBand (s.band r)).1 else 0) = cause →
      (cause ≠ 0 → ∃ t, exec (.bandVerified r) s = .next t ∧ (t.band r).st = .failed ∧ t.loam.bytes = s.loam.bytes ∧
        ((s.ctx (s.band r).ctx).st = .opened ∨ (s.ctx (s.band r).ctx).st = .closed ∨ (s.ctx (s.band r).ctx).st = .ready →
          (t.ctx (s.band r).ctx).st = .blocked ∧ (t.ctx (s.band r).ctx).cause = cause ∧
          ((s.ctx (s.band r).ctx).faulted = false →
            (t.ctx (s.band r).ctx).faultBand = (s.band r).band ∧ (t.ctx (s.band r).ctx).faultPlane = (s.band r).plane))) ∧
      (cause = 0 → ∃ t, exec (.bandVerified r) s = .next t ∧ (t.band r).st = .verified ∧ t.loam.bytes = s.loam.bytes ∧
        (t.ctx (s.band r).ctx).verified = (s.ctx (s.band r).ctx).verified.modify (s.band r).plane (· + 1) ∧
        ((s.ctx (s.band r).ctx).st = .closed → (t.ctx (s.band r).ctx).st =
          if ({ s.ctx (s.band r).ctx with
            verified := (s.ctx (s.band r).ctx).verified.modify (s.band r).plane (· + 1) } : Ctx).complete then .ready else .closed))) ∧
    (s.up .mem = false ∨ (s.band r).st ≠ .checking → exec (.bandVerified r) s = .next s)) ∧
  (∀ s : State, s.up .mem = true →
    (∀ ch, ch < 32 → s.loam.held.contains ch = true → (∀ e ∈ s.loam.ctxs, e.2.live = false) →
      exec (.loamDeadlockTimeout ch) s = .next (s.wr (.pgs .deadlock) 0 1)) ∧
    (∀ ch e, ch < 32 → e ∈ s.loam.ctxs → e.2.live = true → exec (.loamDeadlockTimeout ch) s = .next s) ∧
    (∀ ch, ch < 32 → s.loam.held.contains ch = false → exec (.loamDeadlockTimeout ch) s = .next s) ∧
    (∀ r rest, s.loam.reclaim = r :: rest →
      ∃ t, exec .bandReclaimDone s = .next t ∧ t.band r = {} ∧ rest <+: t.loam.reclaim ∧
        (s.loam.held = [] → t.loam.reclaim = rest ∧ (∀ q, q ≠ r → t.band q = s.band q) ∧ t.loam.bytes = s.loam.bytes ∧
          t.regs = s.regs)) ∧
    (s.loam.reclaim = [] → exec .bandReclaimDone s = .next s))

/-- ADMISSION_GATE_EVALUATE (R85 to R90): a request whose head does not pass records why in ADM_REFUSE; one that passes is admitted in
hardware mode and posted in host-assisted mode, unless the host has withheld it or its post is open; a head that the host has let pass
is admitted. Without a request nothing happens.

The first failing condition of R85, R86 and R87 in the order of ADM_REFUSE.

Where the manual leaves a clause open, it is the model's choice: log entries 22 and 23. -/
def Obligations.GateEvaluates : Prop :=
  (∀ s : State, s.up .mem = true →
    (s.loam.request = false → exec .admissionGateEvaluate s = .next s) ∧
    (s.loam.request = true → s.gateRefusal ≠ 0 →
      ∃ t, exec .admissionGateEvaluate s = .next t ∧ t.rd (.pgs .admRefuse) = s.gateRefusal ∧ t.loam.ctxs = s.loam.ctxs ∧
        ∀ f i, (f, i) ≠ (.pgs .admRefuse, 0) → t.rd f i = s.rd f i) ∧
    (∀ c, s.loam.request = true → s.gateRefusal = 0 → s.head = some c → s.on (.pgs .admMode) = false ∨ s.loam.hostOk = some c →
      s.cslRole ≠ 1 →
      ∃ t, exec .admissionGateEvaluate s = .next t ∧ (t.ctx c).queued = false ∧ (t.ctx c).admitTime = s.etime ∧
        (t.ctx c).st = (if (s.ctx c).planeList.isEmpty then .exposed else .admitted) ∧ t.loam.request = false ∧
        t.rd (.pgs .admRefuse) = 0) ∧
    (∀ c p, s.loam.request = true → s.gateRefusal = 0 → s.head = some c → s.on (.pgs .admMode) = true → s.loam.hostOk ≠ some c →
      s.loam.withheld = false ∨ s.on (.pth .mode) = true → s.decisionOpen 1 c = false → s.routeOf 1 = some p →
      (s.posts p).length < 32 →
      ∃ t x, exec .admissionGateEvaluate s = .next t ∧ t.posts p = s.posts p ++ [x] ∧ x.kind = 1 ∧ x.unit = c ∧
        x.data = (s.ctx c).admitData ∧ t.loam = { s.loam with withheld := false }) ∧
    (∀ c, s.on (.pth .mode) = false → s.loam.request = true → s.gateRefusal = 0 → s.head = some c → s.on (.pgs .admMode) = true →
      s.loam.hostOk ≠ some c → s.loam.withheld = true ∨ s.decisionOpen 1 c = true → exec .admissionGateEvaluate s = .next s)) ∧
  (∀ s : State,
    (s.gateRefusal = 0 → ∃ c, s.head = some c ∧ s.ldr.st = .armed ∧ s.recordAt 3 = false ∧ (s.ctx c).st = .ready ∧
      (s.decPlan (s.ctx c)).isSome = true ∧ s.memDemand512 (some (s.ctx c)) ≤ s.rd (.pgs .loamBudget) * 512000000) ∧
    (s.ldr.st ≠ .armed → s.gateRefusal = 1) ∧
    (s.gateRefusal ≠ 1 → s.head = none → s.gateRefusal = 6) ∧
    (∀ c, s.gateRefusal ≠ 1 → s.head = some c →
      ((s.ctx c).st ≠ .ready → s.gateRefusal = 5) ∧
      ((s.ctx c).st = .ready → s.decPlan (s.ctx c) = none → s.gateRefusal = 2) ∧
      ((s.ctx c).st = .ready → (s.decPlan (s.ctx c)).isSome = true →
        s.rd (.pgs .loamBudget) * 512000000 < s.memDemand512 (some (s.ctx c)) → s.gateRefusal = 3)))

/-- Data that comes late while a page is imaged (R92, R123, R125): IMAGING_READ_UE and IMAGING_DECODE_ERROR end the band's stream at the
burst they meet, or at the first check that fails before it. A burst that cannot be read, or an error response, has cause 5; a trailer that
does not match, or a stream that ends too soon, cause 4; every other error cause 6. Outside web mode, and for cause 4, the sheet is
SPOILED; in web mode the frame is STALLED and the band FAILED. A stream without an error changes nothing.

Where the manual leaves a clause open, it is the model's choice: log entries 2 and 109. -/
def Obligations.LateDataStopsThePage : Prop :=
  ∀ (s : State) (k band c r : Nat), k < 8 → band < 4096 → s.up .cmp = true → s.vidUp k = true → s.readingCtx k band = some (c, r) →
    (s.ctx c).st = .admitted ∨ (s.ctx c).st = .imaging →
    (∀ (i : Instr) (code pos : Nat),
      (∃ off, i = .imagingReadUe k band off ∧ off < 2097151 ∧ off < (s.band r).storedLen ∧
        ((if s.up .mem then s.setEcc ((s.band r).burst off) .bad else s).imagingEnd r (off / 64 * 64)).1 = (code, pos)) ∨
      (i = .imagingDecodeError k band false ∧ (s.imagingEnd r (s.band r).storedLen).1 = (code, pos)) ∨
      (i = .imagingDecodeError k band true ∧
        (s.imagingEnd r (64 * ((s.fresh 15).1 % (((s.band r).storedLen + 63) / 64)))).1 = (code, pos)) →
      (code ≠ 0 → ∀ cause,
        (if code = 14 then 5 else if code = 9 ∨ code = 10 ∨ (code = 11 ∧ pos < (s.band r).storedLen) then 4 else 6) = cause →
        ∃ t, exec i s = .next t ∧ (t.ctx c).cause = cause ∧ t.loam.bytes = s.loam.bytes ∧
          (s.on (.pth .mode) = false ∨ cause = 4 → (t.ctx c).st = .spoiled) ∧
          (s.on (.pth .mode) = true → cause ≠ 4 → (t.ctx c).st = .stalled ∧ (t.band r).st = .failed)) ∧
      (code = 0 → i = .imagingDecodeError k band false → exec i s = .next s))

/-! ### DMA channels -/

/-- START, STOP and RESET of a channel (R341), where the write leaves KINDS as it is or comes outside ARMED: each acts in the states of
R341 and sets CMD_ERR in the others; START sets it also while KINDS is 0.

PERIPH_REQUEST and PERIPH_WITHDRAW (R335, R336).

Where the manual leaves a clause open, it is the model's choice: log entries 66 and 104. -/
def Obligations.ChannelCommandsRun : Prop :=
  (∀ (s : State) (n : Nat) (v : Word), n < 32 → s.Reaches .dma 0 →
    (v.getLsbD 0 = true → s.chanState n = 0 → (if s.engineArmed then s.rd (.dma .kinds) n else bitField v.toNat 8 5) ≠ 0 →
      ∃ t, exec (.dmaStart n v) s = .next t ∧ t.rd (.dma .state) n = 1 ∧ t.rd (.dma .head) n = 0 ∧
        t.chan n = { base := s.rd (.dma .ring) n / 32 * 32, log := clampLog (s.rd (.dma .ringLog) n) } ∧ t.loam = s.loam) ∧
    (v.getLsbD 0 = true → s.chanState n = 3 → (if s.engineArmed then s.rd (.dma .kinds) n else bitField v.toNat 8 5) ≠ 0 →
      ∃ t, exec (.dmaStart n v) s = .next t ∧ t.rd (.dma .state) n = 1 ∧ t.rd (.dma .head) n = s.rd (.dma .head) n ∧
        t.chan n = { s.chan n with base := s.rd (.dma .ring) n / 32 * 32, log := clampLog (s.rd (.dma .ringLog) n) } ∧
        t.loam = s.loam) ∧
    (v.getLsbD 0 = true → s.chanState n = 4 → (if s.engineArmed then s.rd (.dma .kinds) n else bitField v.toNat 8 5) ≠ 0 →
      ∃ t, exec (.dmaStart n v) s = .next t ∧ t.rd (.dma .state) n = 1 ∧ t.rd (.dma .head) n = s.rd (.dma .head) n ∧ t.chan n = s.chan n) ∧
    (v.getLsbD 0 = true → s.chanState n = 1 ∨ s.chanState n = 2 ∨
        (if s.engineArmed then s.rd (.dma .kinds) n else bitField v.toNat 8 5) = 0 →
      ∃ t, exec (.dmaStart n v) s = .next t ∧ t.rd (.dma .cmdErr) n = 1 ∧ t.rd (.dma .state) n = s.rd (.dma .state) n ∧
        t.chan n = s.chan n) ∧
    (v.getLsbD 1 = true → v.getLsbD 0 = false → s.chanState n = 1 → (s.chan n).begun = true ∨ (s.chan n).ended.isSome = true →
      ∃ t, exec (.dmaStop n v) s = .next t ∧ t.rd (.dma .state) n = 2 ∧ t.chan n = s.chan n) ∧
    (v.getLsbD 1 = true → v.getLsbD 0 = false → s.chanState n = 1 → (s.chan n).begun = false → (s.chan n).ended = none →
      ∃ t, exec (.dmaStop n v) s = .next t ∧ t.rd (.dma .state) n = 3 ∧ t.chan n = { base := (s.chan n).base, log := (s.chan n).log }) ∧
    (v.getLsbD 1 = true → v.getLsbD 0 = false → s.chanState n ≠ 1 →
      ∃ t, exec (.dmaStop n v) s = .next t ∧ t.rd (.dma .cmdErr) n = 1 ∧ t.rd (.dma .state) n = s.rd (.dma .state) n ∧
        t.chan n = s.chan n) ∧
    (v.getLsbD 2 = true → v.getLsbD 1 = false → v.getLsbD 0 = false → s.chanState n = 3 ∨ s.chanState n = 4 →
      ∃ t, exec (.dmaReset n v) s = .next t ∧ t.rd (.dma .state) n = 0 ∧ t.rd (.dma .head) n = 0 ∧ t.rd (.dma .tail) n = 0 ∧
        t.chan n = {}) ∧
    (v.getLsbD 2 = true → v.getLsbD 1 = false → v.getLsbD 0 = false → s.chanState n ≠ 3 → s.chanState n ≠ 4 →
      ∃ t, exec (.dmaReset n v) s = .next t ∧ t.rd (.dma .cmdErr) n = 1 ∧ t.rd (.dma .state) n = s.rd (.dma .state) n ∧
        t.chan n = s.chan n) ∧
    exec (.dmaTailWrite n v) s = .next (s.wr (.dma .tail) n v.toNat)) ∧
  (∀ (s : State) (n : Nat) (d : Desc), n < 32 → s.up .host = true → (s.chan n).desc = some d → d.kind = 4 → (s.chan n).ended = none →
    (0 < s.periphFill (d.arg0 % 64) →
      d.arg0 % 64 ≤ 0x10 ∨ d.arg0 % 64 = 0x11 ∧ min (burstBytes (s.rd (.dma .burst) n)) (d.length - (s.chan n).moved) ≤ s.periphFill 0x11 →
      ∃ t, exec (.periphRequest (d.arg0 % 64)) s = .next t ∧ (t.chan n).request = true ∧ t.rd (.dma .wait) n = 0) ∧
    (∀ real, (s.chan n).request = true → real ≤ s.nextBurst n → real ≤ 256 →
      ∃ t, exec (.periphWithdraw n real) s = .next t ∧ (t.chan n).ended = some { short := true } ∧
        (t.chan n).moved = (s.chan n).moved + real ∧ t.rd (.dma .withdraw) n = satInc 16 (s.rd (.dma .withdraw) n)))

/-- DESCRIPTOR_FETCH (R326, R330, R339): a copy is taken as it stands, a band queues for its lane with WAIT 1, a peripheral descriptor
waits with WAIT 3; one that fails a check ends BAD with its cause, and a host-side error is FETCH_ERR in ERROR.

LANE_ACCEPT_BAND (R79, R93, R330): the first waiting channel's band takes the lowest free record, FILLING, and the lane; the record that
a REPAIR replaces is given back, a band that Loam does not accept ends BAD with cause 1, and without a free record it waits with WAIT 2.

Where the manual leaves a clause open, it is the model's choice: log entries 104 and 106. -/
def Obligations.DescriptorsAreFetched : Prop :=
  (∀ (s : State) (n : Nat), n < 32 → s.up .host = true → s.chanState n = 1 → (s.chan n).desc = none →
    s.rd (.dma .head) n ≠ s.rd (.dma .tail) n % 2 ^ (s.chan n).log →
    exec (.descriptorFetch n none) s = .next ((s.wr (.dma .fetchErr) n 1).wr (.dma .state) n 4) ∧
    (∀ l : List Byte, l.length = 32 →
      ((s.setChan n { base := (s.chan n).base, log := (s.chan n).log, desc := some (parseDesc l) }).descCheck n (parseDesc l) = none →
        ((parseDesc l).kind = 0 ∨ (parseDesc l).kind = 1 →
          exec (.descriptorFetch n (some l)) s =
            .next (s.setChan n { base := (s.chan n).base, log := (s.chan n).log, desc := some (parseDesc l) })) ∧
        ((parseDesc l).kind = 4 → ∃ t, exec (.descriptorFetch n (some l)) s = .next t ∧ t.rd (.dma .wait) n = 3 ∧
          (t.chan n).desc = some (parseDesc l)) ∧
        (∀ e, (parseDesc l).kind = 2 ∨ (parseDesc l).kind = 3 → s.laneOf n = some e →
          ∃ t, exec (.descriptorFetch n (some l)) s = .next t ∧ t.rd (.dma .wait) n = 1 ∧
            (t.lane e).queue = (s.lane e).queue ++ [n] ∧ (t.chan n).desc = some (parseDesc l))) ∧
      (∀ cause, (s.setChan n { base := (s.chan n).base, log := (s.chan n).log, desc := some (parseDesc l) }).descCheck n (parseDesc l) =
          some cause →
        ∃ t, exec (.descriptorFetch n (some l)) s = .next t ∧ (t.chan n).ended = some { bad := true, cause := cause } ∧
          t.loam.bytes = s.loam.bytes ∧ t.loam.bands = s.loam.bands ∧ t.loam.ctxs = s.loam.ctxs))) ∧
  (∀ (s : State) (n : Nat), n < 32 →
    s.up .host = false ∨ s.chanState n ≠ 1 ∨ (s.chan n).desc.isSome = true ∨
      s.rd (.dma .head) n = s.rd (.dma .tail) n % 2 ^ (s.chan n).log →
    exec (.descriptorFetch n none) s = .next s) ∧
  (∀ (s : State) (l n : Nat) (rest : List Nat) (d : Desc), l < 8 → s.up .host = true → s.laneInService l = true →
    (s.lane l).cur = none → (s.lane l).queue = n :: rest → (s.chan n).desc = some d →
    (∀ r, s.bandAccept d = true → s.freeRecord = some r →
      ∃ t, exec (.laneAcceptBand l) s = .next t ∧ (t.band r).st = .filling ∧ (t.band r).ctx = d.ctx ∧ (t.band r).plane = d.plane ∧
        (t.band r).band = d.bandNo ∧ (t.band r).check = d.check ∧ (t.chan n).recNo = some r ∧ (t.chan n).begun = true ∧
        t.lane l = { queue := rest, cur := some n } ∧ t.rd (.dma .wait) n = 0 ∧ t.loam.bytes = s.loam.bytes ∧
        ∀ o, s.findBand d.ctx d.plane d.bandNo = some o → (t.band o).st = .reclaiming ∧ t.loam.reclaim = s.loam.reclaim ++ [o]) ∧
    (s.bandAccept d = true → s.freeRecord = none →
      ∃ t, exec (.laneAcceptBand l) s = .next t ∧ t.rd (.dma .wait) n = 2 ∧ n ∈ t.loam.held ∧ t.loam.bands = s.loam.bands ∧
        t.loam.bytes = s.loam.bytes) ∧
    (s.bandAccept d = false →
      ∃ t, exec (.laneAcceptBand l) s = .next t ∧ (t.chan n).ended = some { bad := true, cause := 1 } ∧ t.lane l = { queue := rest } ∧
        t.loam.bands = s.loam.bands ∧ t.loam.bytes = s.loam.bytes))

/-- BURST_ISSUE (R333 to R337): a burst of a band descriptor adds its bytes, swapped as SWAP says, and changes no stored byte outside the
band's extents; one that does not end the band leaves it FILLING, and with its last burst the band is CHECKING and the descriptor DONE, or
the transfer is held for space. A lane that does not run ends it BAD with cause 4. A burst of a copy in stores its bytes and no
other ones, a burst of a copy out sends stored bytes to the host or ends BAD with cause 4 at an uncorrectable error, and a burst of a
peripheral sends its bytes. BURST_ERROR ends the descriptor BAD, and the band that it fed is INCOMPLETE.

DESCRIPTOR_COMPLETE (R326): the status word is written, HEAD goes on, DONE or BAD counts, and a STOP takes effect.

Where the manual leaves a clause open, it is the model's choice: log entries 104, 105, 106 and 138. -/
def Obligations.BurstsMove : Prop :=
  (∀ (s : State) (n : Nat) (d : Desc) (ups : List Upset), s.up .host = true → (s.chan n).desc = some d → s.nextBurst n ≠ 0 →
    s.hw.upsOk ups = true →
    (∀ data, s.arbitrate = some n → d.kind = 2 ∨ d.kind = 3 → s.nextBurst n ≤ data.length →
      (s.laneRuns (s.curLane n) = true →
        ∃ t, exec (.burstIssue data ups) s = .next t ∧ (t.chan n).moved = (s.chan n).moved + s.nextBurst n ∧
          (t.chan n).data = (s.chan n).data ++ swapBytes d.swap (data.take (s.nextBurst n)) ∧
          (∀ r, (s.chan n).recNo = some r → (s.band r).st = .filling → s.laneRuns (s.band r).lane = true → (s.chan n).discard = false →
            (∀ a, (∀ e ∈ (t.band r).extents, a < 63488 * e ∨ 63488 * e + 63488 ≤ a) → t.byte a = s.byte a) ∧
            ((s.chan n).moved + s.nextBurst n < d.length → (t.band r).st = .filling ∧ (t.chan n).ended = (s.chan n).ended) ∧
            ((s.chan n).moved + s.nextBurst n = d.length → s.verifierOut (s.band r).lane = false →
              (t.band r).st = .checking ∧ (t.chan n).ended = some {} ∨
                (t.band r).st = .filling ∧ n ∈ t.loam.held ∧ t.rd (.dma .wait) n = 2))) ∧
      (s.laneRuns (s.curLane n) = false →
        ∃ t, exec (.burstIssue data ups) s = .next t ∧ (t.chan n).ended = some { bad := true, cause := 4 } ∧
          t.loam.bytes = s.loam.bytes)) ∧
    (∀ data, s.arbitrate = some n → d.kind = 0 → s.up .mem = true → s.nextBurst n ≤ data.length → s.Sound →
      ∃ t, exec (.burstIssue data ups) s = .next t ∧ (t.chan n).moved = (s.chan n).moved + s.nextBurst n ∧
        (∀ i, i < s.nextBurst n →
          t.byte (d.loamAddr + (s.chan n).moved + i) = (swapBytes d.swap (data.take (s.nextBurst n))).getD i 0) ∧
        (∀ a, a < d.loamAddr + (s.chan n).moved ∨ d.loamAddr + (s.chan n).moved + s.nextBurst n ≤ a → t.byte a = s.byte a) ∧
        ((s.chan n).moved + s.nextBurst n = d.length → (t.chan n).ended = some {})) ∧
    (s.arbitrate = some n → d.kind = 1 → s.up .mem = true →
      (((s.upset ups).readEcc (d.loamAddr + (s.chan n).moved) (s.nextBurst n)).1 = false →
        ∃ t, exec (.burstIssue [] ups) s = .next t ∧ (t.chan n).moved = (s.chan n).moved + s.nextBurst n ∧
          t.out = .hostWrite (d.hostAddr + (s.chan n).moved)
            (swapBytes d.swap (s.bytes (d.loamAddr + (s.chan n).moved) (s.nextBurst n))) :: s.out ∧ t.loam.bytes = s.loam.bytes) ∧
      (((s.upset ups).readEcc (d.loamAddr + (s.chan n).moved) (s.nextBurst n)).1 = true →
        ∃ t, exec (.burstIssue [] ups) s = .next t ∧ (t.chan n).ended = some { bad := true, cause := 4 } ∧ t.out = s.out ∧
          t.loam.bytes = s.loam.bytes)) ∧
    (s.arbitrate = some n → d.kind = 4 →
      ∃ t, exec (.burstIssue [] ups) s = .next t ∧ (t.chan n).moved = (s.chan n).moved + s.nextBurst n ∧ (t.chan n).request = false ∧
        .hostWrite (d.hostAddr + (s.chan n).moved) (swapBytes d.swap (s.periphTake (d.arg0 % 64) (s.nextBurst n)).1) ∈ t.out ∧
        t.loam.bytes = s.loam.bytes) ∧
    (n < 32 → ∀ h, ∃ t, exec (.burstError n h) s = .next t ∧ (t.chan n).ended = some { bad := true, cause := if h then 3 else 4 } ∧
      t.loam.bytes = s.loam.bytes ∧
      (∀ r, (s.chan n).recNo = some r → (s.band r).st = .filling → (t.band r).st = .incomplete) ∧
      ((s.chan n).recNo = none → t.loam = s.loam))) ∧
  (∀ (s : State) (n : Nat) (d : Desc) (e : Ending), n < 32 → s.up .host = true → (s.chan n).desc = some d → (s.chan n).ended = some e →
    ∃ t, exec (.descriptorComplete n) s = .next t ∧ t.rd (.dma .head) n = ringNext (s.chan n).log (s.rd (.dma .head) n) % 2 ^ 16 ∧
      .hostWrite ((s.chan n).base + 32 * s.rd (.dma .head) n + 0x1C)
        ((leBytes (statusWord (s.chan n).moved e) 4).map (BitVec.ofNat 8)) ∈ t.out ∧
      t.chan n = { base := (s.chan n).base, log := (s.chan n).log } ∧
      t.rd (.dma .state) n = (if s.chanState n = 2 then 3 else s.chanState n) ∧
      (e.bad = false → t.rd (.dma .cntDone) n = satInc 16 (s.rd (.dma .cntDone) n) ∧ t.rd (.dma .cntBad) n = s.rd (.dma .cntBad) n) ∧
      (e.bad = true → t.rd (.dma .cntBad) n = satInc 16 (s.rd (.dma .cntBad) n) ∧ t.rd (.dma .lastCause) n = e.cause % 16) ∧
      t.loam = s.loam)

/-! ### Buffer jobs -/

/-- START, RESUME, STOP and ABORT of a buffer job (R132 to R134): START and RESUME leave the engine RUNNING, or in ERROR with code 13 on a
region that is refused and code 14 while MEM does not answer; STOP leaves it STOPPED, or OUT_FULL where the output region ends before a
unit boundary; ABORT leaves it IDLE. A command that the state does not allow sets CMD_IGNORED and does nothing else. A change of the
regions lets transfers that wait for space try again (R132).

A running job halts where its run does (R134): OUT_FULL, NEED_INPUT and DONE with their event, ERROR with its code.

Where the manual leaves a clause open, it is the model's choice: log entries 2, 66, 110, 112 and 139. -/
def Obligations.JobCommandsRun : Prop :=
  (∀ (s : State) (n : Nat), n < 16 → s.Reaches .cmp 0 → s.buffers n = true →
    (∀ v : Word, v.toNat % 16 = 1 → s.rd (.cmp .jState) n ≠ 1 → s.rd (.cmp .jState) n ≠ 7 →
      (s.regionOk (s.rd (.cmp .inAddr) n) (s.rd (.cmp .inLen) n) = true →
        s.regionOk (s.rd (.cmp .outAddr) n) (s.rd (.cmp .outLen) n) = true → s.up .mem = true →
        ∃ t : State, exec (.jobStart n v) s = .next t.retryHeld ∧ t.rd (.cmp .jState) n = 1 ∧ t.rd (.cmp .inConsumed) n = 0 ∧
          t.rd (.cmp .outProduced) n = 0 ∧ t.rd (.cmp .jErr) n = 0 ∧ t.rd (.cmp .crc) n = 0 ∧ t.rd (.cmp .holding) n = 0 ∧
          (t.job n).input = (s.regionRead (s.rd (.cmp .inAddr) n) (s.rd (.cmp .inLen) n)).1 ∧ t.loam = s.loam) ∧
      (s.regionOk (s.rd (.cmp .inAddr) n) (s.rd (.cmp .inLen) n) = true →
        s.regionOk (s.rd (.cmp .outAddr) n) (s.rd (.cmp .outLen) n) = true → s.up .mem = false →
        ∃ t : State, exec (.jobStart n v) s = .next t.retryHeld ∧ t.rd (.cmp .jState) n = 6 ∧ t.rd (.cmp .jErr) n = 14 ∧ t.loam = s.loam) ∧
      (s.regionOk (s.rd (.cmp .inAddr) n) (s.rd (.cmp .inLen) n) = false ∨
          s.regionOk (s.rd (.cmp .outAddr) n) (s.rd (.cmp .outLen) n) = false →
        ∃ t : State, exec (.jobStart n v) s = .next t.retryHeld ∧ t.rd (.cmp .jState) n = 6 ∧ t.rd (.cmp .jErr) n = 13 ∧ t.job n = {} ∧
          t.loam = s.loam)) ∧
    (∀ v : Word, v.toNat % 16 = 1 → s.rd (.cmp .jState) n = 1 ∨ s.rd (.cmp .jState) n = 7 →
      exec (.jobStart n v) s = .next (s.wr (.cmp .cmdIgnored) n 1)) ∧
    (∀ v : Word, v.toNat % 16 = 2 → s.rd (.cmp .jState) n = 2 ∨ s.rd (.cmp .jState) n = 3 ∨ s.rd (.cmp .jState) n = 4 →
      (v.getLsbD 4 = false → v.getLsbD 5 = false → s.up .mem = true →
        ∃ t : State, exec (.jobResume n v) s = .next t.retryHeld ∧ t.rd (.cmp .jState) n = 1 ∧ t.job n = s.job n ∧ t.loam = s.loam) ∧
      (v.getLsbD 4 = true → (s.job n).bad = none → s.regionOk (s.rd (.cmp .inAddr) n) (s.rd (.cmp .inLen) n) = true →
        v.getLsbD 5 = false ∨ s.regionOk (s.rd (.cmp .outAddr) n) (s.rd (.cmp .outLen) n) = true → s.up .mem = true →
        ∃ t : State, exec (.jobResume n v) s = .next t.retryHeld ∧ t.rd (.cmp .jState) n = 1 ∧ t.loam = s.loam ∧
          (t.job n).input = (s.job n).input ++ (s.regionRead (s.rd (.cmp .inAddr) n) (s.rd (.cmp .inLen) n)).1) ∧
      (v.getLsbD 5 = true → s.regionOk (s.rd (.cmp .outAddr) n) (s.rd (.cmp .outLen) n) = true →
        v.getLsbD 4 = false ∨ s.regionOk (s.rd (.cmp .inAddr) n) (s.rd (.cmp .inLen) n) = true → s.up .mem = true →
        ∃ t : State, exec (.jobResume n v) s = .next t.retryHeld ∧ t.rd (.cmp .jState) n = 1 ∧ t.loam = s.loam ∧
          (t.job n).outAddr = s.rd (.cmp .outAddr) n ∧ (t.job n).outLen = s.rd (.cmp .outLen) n ∧
          (t.job n).outBase = (s.job n).produced) ∧
      (v.getLsbD 4 = true ∧ s.regionOk (s.rd (.cmp .inAddr) n) (s.rd (.cmp .inLen) n) = false ∨
          v.getLsbD 5 = true ∧ s.regionOk (s.rd (.cmp .outAddr) n) (s.rd (.cmp .outLen) n) = false →
        ∃ t : State, exec (.jobResume n v) s = .next t.retryHeld ∧ t.rd (.cmp .jState) n = 6 ∧ t.rd (.cmp .jErr) n = 13 ∧ t.loam = s.loam)) ∧
    (∀ v : Word, v.toNat % 16 = 2 → s.rd (.cmp .jState) n ≠ 2 → s.rd (.cmp .jState) n ≠ 3 → s.rd (.cmp .jState) n ≠ 4 →
      exec (.jobResume n v) s = .next (s.wr (.cmp .cmdIgnored) n 1)) ∧
    (s.rd (.cmp .jState) n = 1 → ∀ u, ∃ t, exec (.jobStop n u) s = .next t ∧
      (t.rd (.cmp .jState) n = 4 ∨ t.rd (.cmp .jState) n = 2 ∧ t.rd (.cmp .outProduced) n = (s.jobRun n).produced % 2 ^ 32) ∧
      t.rd (.cmp .stopEv) n = 1) ∧
    (s.rd (.cmp .jState) n ≠ 1 → ∀ u, exec (.jobStop n u) s = .next (s.wr (.cmp .cmdIgnored) n 1)) ∧
    (s.rd (.cmp .jState) n ≠ 7 →
      ∃ t : State, exec (.jobAbort n) s = .next t.retryHeld ∧ t.rd (.cmp .jState) n = 0 ∧ t.job n = {} ∧ t.loam = s.loam) ∧
    (s.rd (.cmp .jState) n = 7 → exec (.jobAbort n) s = .next (s.wr (.cmp .cmdIgnored) n 1))) ∧
  (∀ (s : State) (n : Nat), n < 16 → s.buffers n = true → s.rd (.cmp .jState) n = 1 →
    ((s.jobRun n).halt = .full → s.up .mem = true →
      ∃ t, exec (.jobOutFull n) s = .next t ∧ t.rd (.cmp .jState) n = 2 ∧ t.rd (.cmp .stopEv) n = 1 ∧
        t.rd (.cmp .outProduced) n = (s.jobRun n).produced % 2 ^ 32) ∧
    ((s.jobRun n).halt = .need → s.up .mem = true →
      ∃ t, exec (.jobNeedInput n) s = .next t ∧ t.rd (.cmp .jState) n = 3 ∧ t.rd (.cmp .stopEv) n = 1 ∧
        t.rd (.cmp .inConsumed) n = (s.jobRun n).consumed % 2 ^ 32) ∧
    ((s.jobRun n).halt = .done → s.up .mem = true →
      ∃ t : State, exec (.jobDone n) s = .next t.retryHeld ∧ t.rd (.cmp .jState) n = 5 ∧ t.rd (.cmp .doneEv) n = 1 ∧
        t.rd (.cmp .crc) n = (s.jobRun n).crc % 2 ^ 32) ∧
    (∀ c p, (s.jobRun n).halt = .err c p →
      ∃ t : State, exec (.jobError n false) s = .next t.retryHeld ∧ t.rd (.cmp .jState) n = 6 ∧ t.rd (.cmp .jErr) n = c % 16 ∧
        t.rd (.cmp .errEv) n = 1) ∧
    ((s.job n).bad = none →
      ∃ t : State, exec (.jobError n true) s = .next t.retryHeld ∧ t.rd (.cmp .jState) n = 6 ∧ t.rd (.cmp .errEv) n = 1))

/-! ### Scan timing -/

/-- SCAN_START (R140, R148, R149, R150): on a locked station an edge in its window runs the next scan; an edge before 0.2128 ms have
passed, or outside the window, is only counted; a station without a signature to match locks at its first edge after the first one, which
only starts the count.

SOS_WINDOW_MISS and SOS_GLITCH (R149, R161): up to FLY misses in a row are bridged and the scan runs; the next one is SOS loss, which
ends facet lock.

Where the manual leaves a clause open, it is the model's choice: log entries 20, 21 and 78. -/
def Obligations.StartsOfScanRun : Prop :=
  (∀ (s : State) (k sos fine mark decoded last : Nat), k < 8 → fine < 500 → s.vidUp k = true → (s.stn k).sos = some last →
    (s.on (.btu .flock) k = true → s.on (.btu .synLock) k = true → last + 10640000 ≤ s.sosTime k sos fine →
      s.inWindow k last (s.sosTime k sos fine) = true →
      ∃ t, exec (.scanStart k sos fine mark decoded) s = .next t ∧ (t.stn k).j = (s.stn k).j + 1 ∧
        t.rd (.btu .scancnt) k = ((s.stn k).j + 1) % 2 ^ 32 ∧ t.loam.bytes = s.loam.bytes) ∧
    (s.sosTime k sos fine < last + 10640000 →
      exec (.scanStart k sos fine mark decoded) s = .next (s.wr (.btu .cntGlitch) k (satInc 32 (s.rd (.btu .cntGlitch) k)))) ∧
    (s.on (.btu .flock) k = true → s.inWindow k last (s.sosTime k sos fine) = false →
      exec (.scanStart k sos fine mark decoded) s = .next (s.wr (.btu .cntGlitch) k (satInc 32 (s.rd (.btu .cntGlitch) k)))) ∧
    (s.on (.btu .flock) k = false → s.busy k = false → s.on (.btu .indexSrc) k = false →
      s.noSignature k = true → last + 10640000 ≤ s.sosTime k sos fine →
      ∃ t, exec (.scanStart k sos fine mark decoded) s = .next t ∧ t.rd (.btu .flock) k = 1 ∧ t.rd (.btu .flockArb) k = 1 ∧
        (s.on (.btu .synLock) k = false → (t.stn k).j = 0 ∧ t.rd (.btu .scancnt) k = 0 ∧
          ((s.stn k).recal = false → t.rd (.btu .sos) k = sos % 2 ^ 64)))) ∧
  (∀ (s : State) (k sos fine mark decoded : Nat), k < 8 → fine < 500 → s.vidUp k = true → (s.stn k).sos = none →
    s.on (.btu .flock) k = false → s.on (.btu .indexSrc) k = true ∨ s.noSignature k = false → (s.stn k).index = false →
    ∃ t, exec (.scanStart k sos fine mark decoded) s = .next t ∧ (t.stn k).sos = some (s.sosTime k sos fine) ∧ (t.stn k).facet = 0 ∧
      t.rd (.btu .flock) k = 0 ∧ t.loam = s.loam) ∧
  (∀ (s : State) (k mark decoded last : Nat), k < 8 → s.vidUp k = true →
    ((s.stn k).sos = some last → s.on (.btu .flock) k = true →
      ((s.stn k).misses < s.rd (.btu .fly) k → s.on (.btu .synLock) k = true →
        ∃ t, exec (.sosWindowMiss k mark decoded) s = .next t ∧ (t.stn k).j = (s.stn k).j + 1 ∧
          t.rd (.btu .scancnt) k = ((s.stn k).j + 1) % 2 ^ 32) ∧
      (s.rd (.btu .fly) k ≤ (s.stn k).misses →
        ∃ t, exec (.sosWindowMiss k mark decoded) s = .next t ∧ t.rd (.btu .sosLost) k = 1 ∧ t.rd (.btu .flock) k = 0 ∧
          t.rd (.btu .ready) k = 0)) ∧
    exec (.sosGlitch k) s = .next (s.wr (.btu .cntGlitch) k (satInc 32 (s.rd (.btu .cntGlitch) k))))

/-- INDEX_PULSE and FACET_SIGNATURE_EVAL (R150, R164): a pulse makes the next SOS facet 0 while the station is not busy; 16 recorded
revolutions give the lock or LOCK_AMBIG and a new recording.

SYN_LOCK_LOSS, SYN_LOCK_GAIN and TIMING_SET_SEND (R161, R176).

Where the manual leaves a clause open, it is the model's choice: log entry 84. -/
def Obligations.ScanClocksLock : Prop :=
  (∀ (s : State) (k : Nat), k < 8 → s.vidUp k = true →
    (s.on (.btu .indexSrc) k = true → s.busy k = false → exec (.indexPulse k) s = .next (s.setStn k { s.stn k with index := true })) ∧
    (s.busy k = true ∨ s.on (.btu .indexSrc) k = false → exec (.indexPulse k) s = .next s) ∧
    (s.on (.btu .flock) k = false → s.on (.btu .indexSrc) k = false → s.busy k = false → 16 * s.facets k ≤ (s.stn k).record.length →
      (∀ r, bestRotation (s.facets k) (rotationError (s.facets k) (deviations (s.facets k) (s.stn k).record)
          fun i => s.rdS (.btu .fref) (16 * k + i)) = some r →
        ∃ t, exec (.facetSignatureEval k) s = .next t ∧ t.rd (.btu .flock) k = 1 ∧ t.rd (.btu .flockArb) k = 0 ∧ (t.stn k).j = 0 ∧
          (t.stn k).facet = ((s.stn k).facet + s.facets k - r) % s.facets k) ∧
      (bestRotation (s.facets k) (rotationError (s.facets k) (deviations (s.facets k) (s.stn k).record)
          fun i => s.rdS (.btu .fref) (16 * k + i)) = none →
        exec (.facetSignatureEval k) s =
          .next ((s.wr (.btu .lockAmbig) k 1).setStn k { s.stn k with record := [] })))) ∧
  (∀ (s : State) (k : Nat), k < 8 → s.vidUp k = true →
    (∃ t, exec (.synLockLoss k) s = .next t ∧ t.rd (.btu .synLock) k = 0 ∧ t.rd (.btu .flock) k = 0 ∧ t.rd (.btu .ready) k = 0) ∧
    (∃ t, exec (.synLockGain k) s = .next t ∧ t.rd (.btu .synLock) k = 1 ∧ (t.stn k).synSeen = true ∧
      t.rd (.btu .ready) k = bit (s.on (.btu .flock) k && !(s.stn k).recal && !s.cal.bad.contains k)) ∧
    (∀ p rest, (s.lnk k).sets = p :: rest →
      ∃ t, exec (.timingSetSend k) s = .next t ∧ (t.lnk k).sets = rest ∧ (t.lnk k).gen = ((s.lnk k).gen + 1) % 256 ∧
        t.out.length = s.out.length + p.length ∧ t.regs = s.regs) ∧
    ((s.lnk k).sets = [] → exec (.timingSetSend k) s = .next s))

/-! ### The beam link -/

/-- The link leaves OFF for TRAIN and TRAIN for IDENT, and goes to FAULT with the cause of R182.

RX_IDENT and RX_ECHO_RESP (R184, R185): a head that passes the checks leads to SETUP with its DMAX, one that fails one to FAULT; the
cable is measured and compared once the round trip and the head's own delay are both known.

RX_STATUS, RX_APC_RESP and INITIAL_APC_END (R181, R187, R188, R198): the head's temperature is shown and trips at TRIP; the asked
measurements are taken once; the initial APC ends after 128 scans. A regulated drive never exceeds DMAX. -/
def Obligations.LinksFollowTheirHeads : Prop :=
  (∀ (s : State) (k : Nat), k < 8 → s.vidUp k = true →
    (∀ h, h < 16 →
      (h ≠ 0 → h ≠ 15 → s.rd (.blk .lstate) k = 0 → s.stationConfigured k = true →
        exec (.hpresQualified k h) s =
          .next ((((s.wr (.blk .hpres) k 1).wr (.blk .hid) k h).wr (.blk .lstate) k 1).emit
            (.linkWord k (controlBeat (linkBytes 1 [0]))))) ∧
      (h = 0 ∨ h = 15 → s.rd (.blk .lstate) k = 0 → s.stationConfigured k = true →
        ∃ t, exec (.hpresQualified k h) s = .next t ∧ t.rd (.blk .lstate) k = 8 ∧ t.rd (.blk .fcause) k = 2) ∧
      (s.rd (.blk .lstate) k ≠ 0 ∨ s.stationConfigured k = false →
        exec (.hpresQualified k h) s = .next ((s.wr (.blk .hpres) k 1).wr (.blk .hid) k h))) ∧
    (s.rd (.blk .lstate) k = 1 →
      (∃ t, exec (.linkRxLocked k) s = .next t ∧ t.rd (.blk .lstate) k = 2 ∧
        t.out = .linkWord k (controlBeat (linkBytes 7 [])) ::
          .linkWord k (controlBeat (linkBytes 6 (leBytes (((s.lnk k).echoTag + 1) % 65536) 2))) :: s.out) ∧
      exec (.linkTrainTimeout k) s =
        .next (((s.wr (.blk .lstate) k 8).wr (.blk .fcause) k 1).emit (.linkWord k (controlBeat (linkBytes 1 [0]))))) ∧
    (s.rd (.blk .lstate) k = 2 →
      exec (.identTimeout k) s =
        .next (((s.wr (.blk .lstate) k 8).wr (.blk .fcause) k 7).emit (.linkWord k (controlBeat (linkBytes 1 [0]))))) ∧
    (s.rd (.blk .lstate) k ≠ 0 →
      (∃ t, exec (.hpresLoss k) s = .next t ∧ t.rd (.blk .lstate) k = 8 ∧ t.rd (.blk .fcause) k = 8 ∧ t.rd (.blk .hpres) k = 0) ∧
      (∃ t, exec (.rxLockLoss k) s = .next t ∧ t.rd (.blk .lstate) k = 8 ∧ t.rd (.blk .fcause) k = 9) ∧
      (∃ t, exec (.statusTimeout k) s = .next t ∧ t.rd (.blk .lstate) k = 8 ∧ t.rd (.blk .fcause) k = 7)) ∧
    (s.rd (.blk .lstate) k = 0 → exec (.hpresLoss k) s = .next (s.wr (.blk .hpres) k 0) ∧ exec (.rxLockLoss k) s = .next s ∧
      exec (.statusTimeout k) s = .next s)) ∧
  (∀ (s : State) (k : Nat) (w : List Byte), k < 8 → s.vidUp k = true → w.length = 56 →
    (wordOk w 0x83 = true → s.rd (.blk .lstate) k = 2 →
      (s.identCheck k w = 0 → ∃ t, exec (.rxIdent k w) s = .next t ∧ t.rd (.blk .lstate) k = 3 ∧ (t.lnk k).dmax = leAt w 16 2 ∧
        (t.lnk k).turn = some (leAt w 18 2) ∧ (t.lnk k).gen = ((s.lnk k).gen + 1) % 256 ∧
        (∀ rt, (s.lnk k).roundTrip = some rt → t.rd (.blk .cableMeas) k = min 65535 ((rt - 100 * leAt w 18 2) / 2))) ∧
      (s.identCheck k w ≠ 0 → ∃ t, exec (.rxIdent k w) s = .next t ∧ t.rd (.blk .lstate) k = 8 ∧
        t.rd (.blk .fcause) k = s.identCheck k w)) ∧
    (∀ rt, wordOk w 0x84 = true → leAt w 1 2 = (s.lnk k).echoTag → s.rd (.blk .lstate) k ≠ 0 →
      (∀ turn, (s.lnk k).turn = some turn →
        ∃ t, exec (.rxEchoResp k w rt) s = .next t ∧ t.rd (.blk .cableMeas) k = min 65535 ((rt - 100 * turn) / 2) ∧
          t.rd (.blk .cableMismatch) k =
            if s.rd (.blk .cable) k + 20 < min 65535 ((rt - 100 * turn) / 2) ∨
              min 65535 ((rt - 100 * turn) / 2) + 20 < s.rd (.blk .cable) k then 1 else s.rd (.blk .cableMismatch) k) ∧
      ((s.lnk k).turn = none → exec (.rxEchoResp k w rt) s = .next (s.setLnk k { s.lnk k with roundTrip := some rt }))) ∧
    (wordOk w 0x84 = false ∨ leAt w 1 2 ≠ (s.lnk k).echoTag → ∀ rt, exec (.rxEchoResp k w rt) s = .next s)) ∧
  (∀ (s : State) (k : Nat), k < 8 → s.vidUp k = true →
    (∀ w : List Byte, w.length = 56 → wordOk w 0x81 = true → s.rd (.blk .lstate) k ≠ 0 →
      ∃ t, exec (.rxStatus k w) s = .next t ∧ t.rd (.blk .headtemp) k = leAt w 6 2 % 2 ^ 16 ∧
        (s.rdS (.blk .trip) k ≤ toSigned 16 (leAt w 6 2) → t.rd (.blk .tempTrip) k = 1)) ∧
    (∀ w : List Byte, w.length = 56 → wordOk w 0x82 = true →
      ∃ t, exec (.rxApcResp k w) s = .next t ∧ (t.lnk k).asked = []) ∧
    (∀ n, (s.lnk k).apc = some n → 128 ≤ n → s.rd (.blk .lstate) k = 4 →
      ∃ t, exec (.initialApcEnd k) s = .next t ∧ (t.lnk k).apc = none ∧ (t.lnk k).apcDone = true) ∧
    (∀ x : Meas, x.beam < 128 → (s.regulate k x).rd (.blk (if x.full then .driveF else .driveN)) (bix k x.beam) ≤ (s.lnk k).dmax))

/-- LINK_RESTART, LD_REQUEST, LDEN_FALL and ILK_LOOP_CLOSE (R182, R199, R200): laser enable needs the request and the closed loop, and
falls with the loop; a request counts only while an image is LOADED or ARMED and LD_REQ was 0.

BEAM_OUT, BEAM_RETURN and TEMP_TRIP_CLEAR (R196 to R198): a beam of a busy station goes out only where its partner can cover it; only a
beam that is OUT without a driver fault may return; TEMP_TRIP clears once the head has cooled, and TRIPPED becomes STANDBY, or INTERLOCKED
while LDEN is low. -/
def Obligations.LaserEnable : Prop :=
  (∀ (s : State) (k : Nat), k < 8 → s.vidUp k = true →
    (∀ v : Word, v.getLsbD 4 = true → s.Reaches .blk k → s.rd (.blk .lstate) k = 8 →
      ∃ t, exec (.linkRestart k v) s = .next t ∧ t.rd (.blk .lstate) k = 0 ∧ t.rd (.blk .fcause) k = 0) ∧
    (∀ v : Word, v.getLsbD 0 = true → s.Reaches .blk k →
      (s.rd (.blk .ldReq) k = 0 → s.imageRuns = true →
        ∃ t, exec (.ldRequest k v) s = .next t ∧ (t.lnk k).request = true ∧ t.rd (.blk .ldReq) k = 1 ∧
          t.rd (.blk .lden) k = if s.on (.blk .ilkClosed) k then 1 else s.rd (.blk .lden) k) ∧
      (s.rd (.blk .ldReq) k ≠ 0 ∨ s.imageRuns = false →
        ∃ t, exec (.ldRequest k v) s = .next t ∧ (t.lnk k).request = (s.lnk k).request ∧ t.rd (.blk .ldReq) k = 1 ∧
          t.rd (.blk .lden) k = s.rd (.blk .lden) k)) ∧
    (∃ t, exec (.ldenFall k) s = .next t ∧ t.rd (.blk .lden) k = 0 ∧ t.rd (.blk .ilkClosed) k = 0 ∧ t.rd (.blk .ldReq) k = 0 ∧
      (t.lnk k).request = false ∧ (s.rd (.blk .lden) k = 1 → t.rd (.blk .ilkEv) k = 1 ∧
        (s.rd (.blk .lstate) k = 4 ∨ s.rd (.blk .lstate) k = 5 → t.rd (.blk .lstate) k = 6))) ∧
    ((s.lnk k).request = true → ∃ t, exec (.ilkLoopClose k) s = .next t ∧ t.rd (.blk .lden) k = 1 ∧ t.rd (.blk .ilkClosed) k = 1 ∧
      (s.rd (.blk .lstate) k = 6 → t.rd (.blk .lstate) k = 4)) ∧
    ((s.lnk k).request = false → exec (.ilkLoopClose k) s = .next (s.wr (.blk .ilkClosed) k 1))) ∧
  (∀ (s : State) (k b : Nat), k < 8 → b < 128 → s.vidUp k = true → s.Reaches .blk k →
    (s.busy k = false ∨ s.canCover k (partner b) = true →
      exec (.beamOut k b) s = .next (s.setBeam k b { (s.lnk k).beam b with outPend := true })) ∧
    (s.busy k = true → s.canCover k (partner b) = false → exec (.beamOut k b) s = .next (s.wr (.blk .cmdErr) k 1)) ∧
    (s.beamSt k b = 2 → ((s.lnk k).beam b).drv = false →
      ∃ t, exec (.beamReturn k b) s = .next t ∧ t.beamSt k b = 3 ∧ ((t.lnk k).beam b).returnReady = false ∧
        ((t.lnk k).beam b).okN = 0 ∧ ((t.lnk k).beam b).okF = 0 ∧ ∀ c, c < 128 → c ≠ b → t.beamSt k c = s.beamSt k c) ∧
    (s.beamSt k b ≠ 2 ∨ ((s.lnk k).beam b).drv = true → exec (.beamReturn k b) s = .next (s.wr (.blk .cmdErr) k 1)) ∧
    (∀ v : Word, v.getLsbD 9 = true → s.rd (.blk .tempTrip) k = 1 →
      ((s.lnk k).hot = true → ∃ t, exec (.tempTripClear k v) s = .next t ∧ t.rd (.blk .tempTrip) k = 1 ∧
        t.rd (.blk .lstate) k = s.rd (.blk .lstate) k) ∧
      ((s.lnk k).hot = false → ∃ t, exec (.tempTripClear k v) s = .next t ∧ t.rd (.blk .tempTrip) k = 0 ∧
        t.rd (.blk .lstate) k = if s.rd (.blk .lstate) k = 7 then (if s.on (.blk .lden) k then 4 else 6) else s.rd (.blk .lstate) k)))

/-! ### Motion axes -/

/-- MOVE, JOG and GEAR (R218, R225, R226) from STANDSTILL or MOVING.

Where MOVE, JOG and GEAR are refused (R217, R218, R224, R226): CMD_ERR with the cause, and nothing else.

Where the manual leaves a clause open, it is the model's choice: log entries 24, 26 and 83. -/
def Obligations.MotionsStart : Prop :=
  (∀ (s : State) (k : Nat), s.AxisOpen k → s.axSt k = 1 ∨ s.axSt k = 2 → s.on (.mot .mode) k = false →
    (s.imageRuns = true → s.intoLimit k (s.rdS (.mot .target) k - s.cmdpos k) = false →
      (s.on (.mot .homeReq) k = true → s.on (.mot .homed) k = true) →
      (s.on (.mot .slimEn) k = true → s.on (.mot .homed) k = true →
        s.rdS (.mot .slimn) k ≤ s.rdS (.mot .target) k ∧ s.rdS (.mot .target) k ≤ s.rdS (.mot .slimp) k) →
      ∃ t, exec (.move k) s = .next t ∧ t.axSt k = 2 ∧ (t.axis k).plan = .move ∧ (t.axis k).goal = s.rdS (.mot .target) k ∧
        t.rd (.mot .atTarget) k = 0 ∧ t.cmdpos k = s.cmdpos k) ∧
    (s.imageRuns = true → s.intoLimit k (s.rdS (.mot .jogvel) k) = false →
      ∃ t, exec (.jog k) s = .next t ∧ t.axSt k = 2 ∧ (t.axis k).plan = .jog ∧ t.rd (.mot .atTarget) k = 0) ∧
    (s.intoLimit k (s.gearTarget k) = false →
      ∃ t, exec (.gear k) s = .next t ∧ t.axSt k = 2 ∧ (t.axis k).plan = .gear ∧ t.rd (.mot .atTarget) k = 0) ∧
    (s.intoLimit k (s.gearTarget k) = true → exec (.gear k) s = .next ((s.wr (.mot .cmdErr) k 1).wr (.mot .cmdCause) k 2)) ∧
    (s.imageRuns = false →
      exec (.move k) s = .next ((s.wr (.mot .cmdErr) k 1).wr (.mot .cmdCause) k 1) ∧
      exec (.jog k) s = .next ((s.wr (.mot .cmdErr) k 1).wr (.mot .cmdCause) k 1))) ∧
  (∀ (s : State) (k : Nat), s.AxisOpen k →
    (s.axSt k ≠ 1 ∧ s.axSt k ≠ 2 ∨ s.on (.mot .mode) k = true →
      exec (.move k) s = .next ((s.wr (.mot .cmdErr) k 1).wr (.mot .cmdCause) k 1) ∧
      exec (.jog k) s = .next ((s.wr (.mot .cmdErr) k 1).wr (.mot .cmdCause) k 1) ∧
      exec (.gear k) s = .next ((s.wr (.mot .cmdErr) k 1).wr (.mot .cmdCause) k 1)) ∧
    (s.axSt k = 1 ∨ s.axSt k = 2 → s.on (.mot .mode) k = false → s.imageRuns = true →
      (s.intoLimit k (s.rdS (.mot .jogvel) k) = true →
        exec (.jog k) s = .next ((s.wr (.mot .cmdErr) k 1).wr (.mot .cmdCause) k 2)) ∧
      (s.intoLimit k (s.rdS (.mot .target) k - s.cmdpos k) = true →
        exec (.move k) s = .next ((s.wr (.mot .cmdErr) k 1).wr (.mot .cmdCause) k 2)) ∧
      (s.intoLimit k (s.rdS (.mot .target) k - s.cmdpos k) = false → s.on (.mot .homeReq) k = true → s.on (.mot .homed) k = false →
        exec (.move k) s = .next ((s.wr (.mot .cmdErr) k 1).wr (.mot .cmdCause) k 3)) ∧
      (s.intoLimit k (s.rdS (.mot .target) k - s.cmdpos k) = false → s.on (.mot .slimEn) k = true → s.on (.mot .homed) k = true →
        s.rdS (.mot .slimp) k < s.rdS (.mot .target) k ∨ s.rdS (.mot .target) k < s.rdS (.mot .slimn) k →
        exec (.move k) s = .next ((s.wr (.mot .cmdErr) k 1).wr (.mot .cmdCause) k 4))))

/-- STOP, QSTOP, HALT, ENABLE, DISABLE and CLEAR (R226) in the states that allow them; in the others they set CMD_ERR with cause 1.

SETPOS, HOME and SEGMENT_PUSH (R215, R221, R222, R224, R226): method 6 latches the present position and sets it, the others seek; HOME
without a method, or by one that needs an encoder where none is fitted, has cause 5.

Where the manual leaves a clause open, it is the model's choice: log entries 25 and 26. -/
def Obligations.MotionsStop : Prop :=
  (∀ (s : State) (k : Nat), s.AxisOpen k →
    (s.axSt k = 2 ∨ s.axSt k = 3 →
      (∃ t, exec (.stop k) s = .next t ∧ t.axSt k = 4 ∧ (t.axis k).plan = .stop ∧ (t.axis k).v = (s.axis k).v) ∧
      (∃ t, exec (.qstop k) s = .next t ∧ t.axSt k = 4 ∧ (t.axis k).plan = .quick ∧ (t.axis k).v = (s.axis k).v)) ∧
    (s.axSt k ≠ 2 → s.axSt k ≠ 3 → ∀ i ∈ [Instr.stop k, .qstop k],
      exec i s = .next ((s.wr (.mot .cmdErr) k 1).wr (.mot .cmdCause) k 1)) ∧
    (s.axSt k ≠ 0 →
      ∃ t, exec (.halt k) s = .next t ∧ t.axSt k = 1 ∧ (t.axis k).v = 0 ∧ (t.axis k).a = 0 ∧ (t.axis k).due = 0 ∧
        t.cmdpos k = s.cmdpos k) ∧
    (s.axSt k = 0 → exec (.enable k) s = .next ((s.wr (.mot .enOut) k 1).wr (.mot .state) k 1)) ∧
    (s.axSt k ≠ 0 → ∃ t, exec (.disable k) s = .next t ∧ t.axSt k = 0 ∧ t.rd (.mot .enOut) k = 0 ∧ (t.axis k).v = 0) ∧
    (s.axSt k = 0 → ∀ i ∈ [Instr.halt k, .disable k, .axisClear k, .home k, .setpos k],
      exec i s = .next ((s.wr (.mot .cmdErr) k 1).wr (.mot .cmdCause) k 1)) ∧
    (s.axSt k ≠ 0 → exec (.enable k) s = .next ((s.wr (.mot .cmdErr) k 1).wr (.mot .cmdCause) k 1)) ∧
    (s.axSt k = 5 → (∀ f ∈ axisEvents, s.on (.mot f) k = false) → exec (.axisClear k) s = .next (s.wr (.mot .state) k 1)) ∧
    (s.axSt k = 5 → ∀ f ∈ axisEvents, s.on (.mot f) k = true →
      exec (.axisClear k) s = .next ((s.wr (.mot .cmdErr) k 1).wr (.mot .cmdCause) k 1))) ∧
  (∀ (s : State) (k : Nat), s.AxisOpen k →
    (s.axSt k = 1 → ∃ t, exec (.setpos k) s = .next t ∧ t.cmdpos k = s.rdS (.mot .setpos) k ∧ t.rd (.mot .homed) k = 1 ∧
      t.rd (.mot .dev) k = 0) ∧
    (s.axSt k = 1 → s.rd (.mot .method) k = 6 →
      ∃ t, exec (.home k) s = .next t ∧ t.cmdpos k = s.rdS (.mot .hpos) k ∧ t.rd (.mot .homed) k = 1 ∧ t.rd (.mot .hstate) k = 6 ∧
        t.rdS (.mot .hlatch) k = s.cmdpos k ∧ t.rdS (.mot .hlatcha) k = s.actpos k ∧ t.axSt k = 1) ∧
    (s.axSt k = 1 → s.rd (.mot .method) k = 1 ∨ s.rd (.mot .method) k = 4 ∨
        (s.rd (.mot .method) k = 2 ∨ s.rd (.mot .method) k = 3 ∨ s.rd (.mot .method) k = 5) ∧ s.on (.mot .encEn) k = true →
      ∃ t, exec (.home k) s = .next t ∧ t.axSt k = 3 ∧ t.rd (.mot .homed) k = 0 ∧ (t.axis k).plan = .seek ∧
        (t.rd (.mot .hstate) k = 1 ∨ t.rd (.mot .hstate) k = 2)) ∧
    (s.axSt k = 1 → s.rd (.mot .method) k = 0 ∨
        (s.rd (.mot .method) k = 2 ∨ s.rd (.mot .method) k = 3 ∨ s.rd (.mot .method) k = 5) ∧ s.on (.mot .encEn) k = false →
      exec (.home k) s = .next ((s.wr (.mot .cmdErr) k 1).wr (.mot .cmdCause) k 5)) ∧
    (∀ v : Word, s.on (.mot .mode) k = true → s.axSt k = 1 ∨ s.axSt k = 2 → (s.axis k).segs.length < 16 →
      (v.toNat % 65536 ≠ 0 →
        ∃ t, exec (.segmentPush k v) s = .next t ∧ (t.axis k).segs = (s.axis k).segs ++ [((s.axis k).segj, v.toNat % 65536)] ∧
          (t.axis k).plan = .seg ∧ t.axSt k = 2) ∧
      (v.toNat % 65536 = 0 → exec (.segmentPush k v) s = .next s)) ∧
    (∀ v : Word, s.on (.mot .mode) k = false ∨ s.axSt k ≠ 1 ∧ s.axSt k ≠ 2 ∨ 16 ≤ (s.axis k).segs.length →
      exec (.segmentPush k v) s = .next ((s.wr (.mot .cmdErr) k 1).wr (.mot .cmdCause) k 1)))

/-- A command to one axis leaves every other axis, and the page store, as they are. -/
def Obligations.AxisCommandsTouchOneAxis : Prop :=
  ∀ (k : Nat) (v : Word) (i : Instr) (s t : State),
    i ∈ [.move k, .jog k, .gear k, .stop k, .home k, .setpos k, .enable k, .axisClear k, .segmentPush k v, .latchArm k v] →
    exec i s = .next t →
    (∀ j, j ≠ k → t.axis j = s.axis j) ∧ (∀ f n, (Fld.mot f).outer n ≠ k → f ≠ .planOvr → t.rd (.mot f) n = s.rd (.mot f) n) ∧
      t.loam = s.loam ∧ t.slots = s.slots ∧ t.stns = s.stns ∧ t.fhv = s.fhv

/-- Latches, encoders and limits (R205, R213, R217, R219): an edge of a fitted encoder counts, in quadrature ×1 one in four; a hard limit in
the direction of motion stops the axis, and ends a homing that it is not the reference of.

The homing reference (R220 to R222): an edge of the wanted sense captures a candidate, its return discards it as chatter, and a
candidate that holds is committed; an index edge in INDEX latches the position.

Where the manual leaves a clause open, it is the model's choice: log entries 26 and 143. -/
def Obligations.AxisInputsAct : Prop :=
  (∀ (s : State) (k : Nat), k < s.hw.axes → s.up .mot = true →
    (∀ v : Word, v.getLsbD 4 = true ∨ v.getLsbD 12 = true → s.Reaches .mot 0 →
      ∃ t, exec (.latchArm k v) s = .next t ∧
        (v.getLsbD 4 = true → 0 ∈ (t.axis k).armed ∧ t.rd (.mot .latchValid) (2 * k) = 0) ∧
        (v.getLsbD 12 = true → 1 ∈ (t.axis k).armed ∧ t.rd (.mot .latchValid) (2 * k + 1) = 0)) ∧
    (∀ i, i < 2 → (s.axis k).armed.contains i = true →
      ∃ t, exec (.latchEdge k i) s = .next t ∧ t.rd (.mot .latchValid) (2 * k + i) = 1 ∧ i ∉ (t.axis k).armed ∧
        t.rdS (.mot .latchPos) (2 * k + i) = if s.on (.mot .latchActual) (2 * k + i) then s.actpos k else s.cmdpos k) ∧
    (∀ i, i < 2 → (s.axis k).armed.contains i = false → exec (.latchEdge k i) s = .next s) ∧
    (s.on (.mot .encEn) k = true → s.rd (.mot .axtype) k < 3 → s.rd (.mot .encMode) k ≠ 1 → exec (.encoderError k) s =
      .next ((s.wr (.mot .encErr) k 1).wr (.mot .encErrCnt) k (satInc (Fld.mot .encErrCnt).row.width (s.rd (.mot .encErrCnt) k)))) ∧
    (s.on (.mot .encEn) k = false ∨ 3 ≤ s.rd (.mot .axtype) k ∨ s.rd (.mot .encMode) k = 1 → exec (.encoderError k) s = .next s) ∧
    (s.on (.mot .encEn) k = true → s.rd (.mot .axtype) k < 3 → -140737488355328 < s.actpos k → s.actpos k < 140737488355327 → ∀ fwd,
      (s.rd (.mot .encMode) k ≠ 2 → ∃ t, exec (.encoderEdge k fwd) s = .next t ∧
        t.actpos k = s.actpos k + if fwd != s.on (.mot .encInv) k then 1 else -1) ∧
      ∃ t, exec (.encoderEdge k fwd) s = .next t ∧
        t.actpos k = s.actpos k + (encoderStep (s.rd (.mot .encMode) k) (s.axis k).encSub (fwd != s.on (.mot .encInv) k)).1 ∧
        (t.axis k).encSub = (encoderStep (s.rd (.mot .encMode) k) (s.axis k).encSub (fwd != s.on (.mot .encInv) k)).2) ∧
    (∀ pos, s.planned k = true → s.homingNow k = false →
      ((if pos then 0 < (s.axis k).v else (s.axis k).v < 0) →
        ∃ t, exec (.limitActive k pos) s = .next t ∧ t.rd (.mot (if pos then .limP else .limN)) k = 1 ∧
          t.axSt k = (if s.axSt k = 2 ∨ s.axSt k = 3 then 4 else s.axSt k) ∧ (t.axis k).plan = .limit ∧ (t.axis k).limStop = true) ∧
      (¬(if pos then 0 < (s.axis k).v else (s.axis k).v < 0) →
        exec (.limitActive k pos) s = .next (s.wr (.mot (if pos then .limP else .limN)) k 1))) ∧
    (∀ pos, s.homingNow k = true →
      (s.limitIsHome k pos = false →
        ∃ t, exec (.limitActive k pos) s = .next t ∧ t.rd (.mot (if pos then .limP else .limN)) k = 1 ∧ t.axSt k = 4 ∧
          t.rd (.mot .hstate) k = 7 ∧ t.rd (.mot .hcause) k = 1 ∧ (t.axis k).plan = .limit) ∧
      (s.limitIsHome k pos = true →
        exec (.limitActive k pos) s = .next (s.wr (.mot (if pos then .limP else .limN)) k 1))) ∧
    ∀ pos, exec (.limitInactive k pos) s = .next (s.wr (.mot (if pos then .limP else .limN)) k 0)) ∧
  (∀ (s : State) (k : Nat), k < s.hw.axes → s.up .mot = true → s.homingNow k = true →
    (s.hst k = 2 → s.rd (.mot .method) k ≠ 3 → s.rd (.mot .method) k ≠ 5 → (s.axis k).committed = false →
      (∀ a, a ≠ s.refRaw k → a ≠ s.on (.mot .hedge) k →
        ∃ t, exec (.homeRawEdge k a) s = .next t ∧ (t.axis k).cand = some (s.cmdpos k, s.actpos k) ∧ t.regs = s.regs) ∧
      (∀ a, a ≠ s.refRaw k → a = s.on (.mot .hedge) k → (s.axis k).cand.isSome = true →
        ∃ t, exec (.homeRawEdge k a) s = .next t ∧ (t.axis k).cand = none ∧
          t.rd (.mot .hchatter) k = satInc (Fld.mot .hchatter).row.width (s.rd (.mot .hchatter) k)) ∧
      (∀ c a, (s.axis k).cand = some (c, a) →
        ∃ t, exec (.homeQualified k) s = .next t ∧ t.rdS (.mot .hlatch) k = toSigned 48 (ofSigned 48 c) ∧
          t.rdS (.mot .hlatcha) k = toSigned 48 (ofSigned 48 a) ∧ (t.axis k).committed = true ∧
          (s.rd (.mot .method) k ≠ 2 → t.rd (.mot .hstate) k = 4 ∧ (t.axis k).plan = .stop) ∧
          (s.rd (.mot .method) k = 2 → t.rd (.mot .hstate) k = 3))) ∧
    (s.hst k = 3 ∨ s.hst k = 2 ∧ s.rd (.mot .method) k = 3 → s.on (.mot .encEn) k = true →
      ∃ t, exec (.indexEdge k) s = .next t ∧ t.rdS (.mot .hlatch) k = s.cmdpos k ∧ t.rdS (.mot .hlatcha) k = s.actpos k ∧
        t.rd (.mot .hstate) k = 4 ∧ (t.axis k).plan = .stop))

/-- MOTION_CLOCK (R207, R208): in each clock the velocity of every planned axis takes up a and j within the limits in force, and the
phase advances by the velocity; an axis at rest stays where it is.

PLANNER_TICK (R208, R282): the position history takes the present position; the planner's jerk never exceeds JMAX. The limits in force
hold |a| and |v| in every clock of a motion that is no stop at QDEC or LIMDEC.

Where the manual leaves a clause open, it is the model's choice: log entries 24 and 25. -/
def Obligations.ClocksMoveAxes : Prop :=
  (∀ s : State, s.up .mot = true → ∃ t, exec .motionClock s = .next t ∧
    (∀ k, k < s.hw.axes → s.planned k = true → s.unitOut (.axis k) = false →
      (s.axis k).phase < 2 ^ 48 → ((t.axis k).phase : Int) = if (s.axis k).j = 0 ∧ (s.axis k).still = true then ((s.axis k).phase : Int) else
        ((s.axis k).phase + tdiv ((s.axis k).advance (s.axV k) (s.axA k) (s.axD k) (s.axJ k)).v (2 ^ 32)) % 2 ^ 48) ∧
    (∀ k, (s.axis k).j = 0 → (s.axis k).still = true → (s.axis k).due = 0 → (s.axis k).hold = 0 →
      t.axis k = s.axis k ∧ t.cmdpos k = s.cmdpos k)) ∧
  (∀ s : State, s.up .mot = false → exec .motionClock s = .next s) ∧
  (∀ (x : Axis) (v0 vmax amax dmax : Int), 0 ≤ amax → 0 ≤ dmax → 0 ≤ vmax → (v0.natAbs : Int) ≤ vmax →
    ((x.bounded v0 vmax amax dmax).v.natAbs : Int) ≤ vmax) ∧
  ((∀ s : State, s.up .mot = true → ∀ o, ∃ t, exec (.plannerTick o) s = .next t ∧ t.pth.history = (s.mpos :: s.pth.history).take 100) ∧
  (∀ (x : Axis) (vt amax dmax jmax : Int), 0 ≤ jmax → -jmax ≤ (x.toward vt amax dmax jmax).j ∧ (x.toward vt amax dmax jmax).j ≤ jmax) ∧
  (∀ s : State, s.up .mot = false → s.flt.records = [] → ∀ o, exec (.plannerTick o) s = .next s))

/-! ### Control-engine slots and the capture -/

/-- The slot commands in the states that take them (R245 to R247, R250, R251, R254); in another state a command is refused with the cause
that its rule gives, and nothing else.

Every slot command is refused with cause 2 on a slot that is not enabled, and with cause 5 without an image (R232, R245).

Where the manual leaves a clause open, it is the model's choice: log entries 28, 29 and 128. -/
def Obligations.SlotCommandsRun : Prop :=
  (∀ (s : State) (n : Nat), s.SlotOpen n →
    (s.slotSt n ≤ 3 → ∃ t, exec (.slotOff n) s = .next t ∧ t.slotSt n = 0 ∧ (t.slot n).req = .none ∧
      (t.slot n).last = s.rdS (.cle .usafe) n ∧ t.rd (.cle .injAct) n = 0) ∧
    (s.slotSt n = 0 → s.initWaits n = false → ∃ t, exec (.slotManual n) s = .next t ∧ t.slotSt n = 1 ∧
      (t.slot n).last = s.rdS (.cle .usafe) n) ∧
    (s.slotSt n = 0 → s.initWaits n = true → ∃ t, exec (.slotManual n) s = .next t ∧ t.slotSt n = 0 ∧
      (t.slot n).req = .manual ∧ t.rd (.cle .initPend) n = 1) ∧
    (s.slotSt n = 2 → ∃ t, exec (.slotManual n) s = .next t ∧ t.slotSt n = 1 ∧
      t.rd (.cle .uman) n = ofSigned 32 (s.slot n).last ∧ (t.slot n).last = (s.slot n).last) ∧
    (s.slotSt n = 0 ∨ s.slotSt n = 1 → ∃ t, exec (.slotAuto n) s = .next t ∧ (t.slot n).req = .auto ∧ t.slotSt n = s.slotSt n) ∧
    (s.slotSt n = 2 → exec (.slotPreset n) s = .next (s.setSlot n { s.slot n with preset := true })) ∧
    (s.slotSt n ≠ 5 → s.rdS (.cle .umin) n ≤ s.rdS (.cle .umax) n →
      exec (.slotCommit n) s = .next (s.setSlot n { s.slot n with commit := true })) ∧
    (s.slotSt n = 3 → 2 * s.rd (.cle .pn) n ≤ (s.slot n).good →
      (s.rdS (.cle .yOut) n - s.rdS (.cle .ymOut) n).natAbs ≤ 4 * s.rd (.cle .plim) n * 32768 →
      exec (.slotResume n) s = .next ((s.wr (.cle .resumePend) n 1).setSlot n { s.slot n with bound := false })) ∧
    (s.slotSt n = 4 → s.on (.cle .pfailEv) n = false → s.on (.cle .fbtoEv) n = false → s.on (.cle .satEv) n = false →
      ∃ t, exec (.slotClear n) s = .next t ∧ t.slotSt n = 0 ∧ (t.slot n).held = false) ∧
    (s.ldr.st ≠ .armed → s.slotSt n = 2 ∨ s.slotSt n = 1 ∧ s.rd (.cle .injPoint) n = 1 →
      ∃ t, exec (.injStart n) s = .next t ∧ t.rd (.cle .injAct) n = 1 ∧ (t.slot n).injK = 0 ∧ (t.slot n).lfsr = 32767) ∧
    exec (.injStop n) s = .next (s.wr (.cle .injAct) n 0) ∧
    (s.decisionPosted 4 n = true → exec (.slotStay n) s = .next (s.closeDecision 4 n) ∧
      ∃ t, exec (.slotStop n) s = .next t ∧ t.slotSt n = 4 ∧ t.decisionOpen 4 n = false)) ∧
  (∀ (s : State) (n : Nat) (i : Instr) (cause : Nat), s.SlotOpen n →
    (i, cause) ∈ (if 4 ≤ s.slotSt n then [(Instr.slotOff n, 1)] else []) ++
      (if s.slotSt n ≠ 0 ∧ s.slotSt n ≠ 2 then [(Instr.slotManual n, 1)] else []) ++
      (if 2 ≤ s.slotSt n then [(Instr.slotAuto n, 1)] else []) ++
      (if s.slotSt n ≠ 2 then [(Instr.slotPreset n, 1)] else []) ++
      (if s.slotSt n = 5 then [(Instr.slotCommit n, 1)]
        else if s.rdS (.cle .umax) n < s.rdS (.cle .umin) n then [(Instr.slotCommit n, 6)] else []) ++
      (if s.slotSt n ≠ 3 then [(Instr.slotResume n, 1)]
        else if (s.slot n).good < 2 * s.rd (.cle .pn) n then [(Instr.slotResume n, 4)] else []) ++
      (if s.slotSt n ≠ 4 ∨ s.on (.cle .pfailEv) n = true ∨ s.on (.cle .fbtoEv) n = true ∨ s.on (.cle .satEv) n = true then
        [(Instr.slotClear n, 1)] else []) ++
      (if s.ldr.st = .armed then [(Instr.injStart n, 3)]
        else if s.slotSt n = 0 ∨ 3 ≤ s.slotSt n then [(Instr.injStart n, 1)] else []) ++
      (if s.decisionPosted 4 n = false then [(Instr.slotStay n, 1), (Instr.slotStop n, 1)] else []) →
    exec i s = .next ((s.wr (.cle .cmdErr) n 1).wr (.cle .cmdCause) n cause)) ∧
  (∀ (s : State) (n : Nat) (i : Instr), s.Reaches .cle 0 → n < 128 →
    i ∈ [.slotOff n, .slotManual n, .slotAuto n, .slotPreset n, .slotCommit n, .slotResume n, .slotClear n, .injStart n, .injStop n,
      .slotStay n, .slotStop n] →
    (s.on (.cle .slotEn) n = false → exec i s = .next ((s.wr (.cle .cmdErr) n 1).wr (.cle .cmdCause) n 2)) ∧
    (s.on (.cle .slotEn) n = true → s.imageRuns = false → exec i s = .next ((s.wr (.cle .cmdErr) n 1).wr (.cle .cmdCause) n 5)))

/-- SLOT_EXECUTION and FALLBACK_TIMEOUT (R232, R242, R245, R249): a slot that is enabled executes; in MANUAL the output stays within UMIN and UMAX; in OFF it is USAFE; each
execution counts; the fall-back timeout is told once per entry.

The capture commands (R255): ARM starts filling an empty ring, FORCE marks the next sample, ABORT discards the record.

Where the manual leaves a clause open, it is the model's choice: log entries 29, 66 and 128. -/
def Obligations.SlotsExecute : Prop :=
  (∀ (s : State) (n : Nat), n < s.hw.slots → s.up .ctl = true → s.on (.cle .slotEn) n = true → s.unitOut (.slot n) = false →
    (∀ ain, ain < 16384 → s.slotSt n ≠ 5 → ∃ t, exec (.slotExecution n ain) s = .next t ∧ (t.slot n).runs = (s.slot n).runs + 1 ∧
      (s.slotSt n = 1 → (s.slot n).req = .none → (s.slot n).commit = false →
        s.lvS (.cle .umin) n ≤ s.lvS (.cle .umax) n →
        t.slotSt n = 1 ∧ s.lvS (.cle .umin) n ≤ t.rdS (.cle .uOut) n ∧ t.rdS (.cle .uOut) n ≤ s.lvS (.cle .umax) n) ∧
      (s.slotSt n = 0 → (s.slot n).req = .none → (s.slot n).commit = false → (s.slot n).held = false →
        t.slotSt n = 0 ∧ t.rdS (.cle .uOut) n = s.rdS (.cle .usafe) n)) ∧
    (s.slotSt n = 3 → (s.slot n).fbTold = false →
      exec (.fallbackTimeout n) s = .next ((s.wr (.cle .fbtoEv) n 1).setSlot n { s.slot n with fbTold := true })) ∧
    (s.slotSt n = 3 → (s.slot n).fbTold = true → exec (.fallbackTimeout n) s = .next s)) ∧
  (∀ (s : State) (n : Nat), n < 128 →
    (s.slotSt n ≠ 3 → exec (.fallbackTimeout n) s = .next s) ∧
    (s.on (.cle .slotEn) n = false ∨ s.slotSt n = 5 → ∀ ain, ain < 16384 → exec (.slotExecution n ain) s = .next s)) ∧
  (∀ (s : State) (v : Word), s.Reaches .cle 0 →
    (v.getLsbD 0 = true → ∃ t, exec (.captureArm v) s = .next t ∧ t.rd (.cle .cstate) = 1 ∧ t.rd (.cle .capCount) = 0 ∧
      t.capture = {}) ∧
    (v.getLsbD 1 = true → v.getLsbD 0 = false → s.rd (.cle .cstate) = 1 →
      ∃ t, exec (.captureForce v) s = .next t ∧ t.capture = { s.capture with force := true } ∧ t.rd (.cle .cstate) = 1) ∧
    (v.getLsbD 1 = true → v.getLsbD 0 = false → s.rd (.cle .cstate) ≠ 1 →
      ∃ t, exec (.captureForce v) s = .next t ∧ t.capture = s.capture ∧ t.rd (.cle .cstate) = s.rd (.cle .cstate)) ∧
    (v.getLsbD 2 = true → v.getLsbD 1 = false → v.getLsbD 0 = false →
      ∃ t, exec (.captureAbort v) s = .next t ∧ t.rd (.cle .cstate) = 0 ∧ t.rd (.cle .capCount) = 0 ∧ t.capture = {}))

/-! ### Fuser and high voltage -/

/-- ZERO_CROSSING, ZERO_CROSSING_MISS and ZC_GLITCH (R262, R263): a crossing inside its window sets the half-period to the mean of the last
eight and flips the sign; one outside is a glitch; up to two misses are bridged. The third miss, a half-period that is not 45 to 65 Hz, or
the fourth bad voltage in a row takes MAINS_OK away and the gates low.

Where the manual leaves a clause open, it is the model's choice: log entry 81. -/
def Obligations.MainsIsTracked : Prop :=
  ∀ s : State, s.up .ctl = true →
    (∀ (t₀ : Nat) (vrms : Option Nat) (z h bad : Nat) (hs : List Nat), (∀ v, vrms = some v → v < 4096) →
      z = ((t₀ : Int) + s.rdS (.fhv .zcOfs) * 1000).toNat →
      (∀ last, s.fhv.zc = some last → s.fhv.halves ≠ [] →
        10 * (((z : Int) - last) - s.rd (.fhv .halfper)).natAbs ≤ s.rd (.fhv .halfper)) →
      hs = (match s.fhv.zc with
        | some last => ((z - last) :: s.fhv.halves).take 8
        | none => s.fhv.halves) →
      h = hs.sum / hs.length →
      bad = (match vrms with
        | some v => if 850 ≤ v ∧ v ≤ 2650 then 0 else s.fhv.badV + 1
        | none => s.fhv.badV) →
      (bad < 4 → hs = [] ∨ (1000000000 ≤ h * 130 ∧ h * 90 ≤ 1000000000) →
        ∃ t, exec (.zeroCrossing t₀ vrms) s = .next t ∧ t.fhv.zc = some z ∧ t.fhv.halves = hs ∧ t.fhv.badV = bad ∧
          (hs ≠ [] → t.rd (.fhv .halfper) = h % 2 ^ 24) ∧ t.fhv.positive = !s.fhv.positive ∧ t.fhv.bridged = 0) ∧
      (4 ≤ bad ∨ (hs ≠ [] ∧ (h * 130 < 1000000000 ∨ 1000000000 < h * 90)) →
        ∃ t, exec (.zeroCrossing t₀ vrms) s = .next t ∧ t.rd (.fhv .mainsOk) = 0 ∧ t.fhv.zc = none ∧ t.fhv.ready = false ∧
          (s.on (.fhv .mainsOk) = true → t.rd (.fhv .mainsLost) = 1) ∧ ∀ g, g < 8 → t.rd (.fhv .gate) g = 0)) ∧
    (∀ (t₀ last : Nat) (vrms : Option Nat), (∀ v, vrms = some v → v < 4096) → s.fhv.zc = some last → s.fhv.halves ≠ [] →
      s.rd (.fhv .halfper) < 10 * (((((t₀ : Int) + s.rdS (.fhv .zcOfs) * 1000).toNat : Int) - last) - s.rd (.fhv .halfper)).natAbs →
      exec (.zeroCrossing t₀ vrms) s =
        .next (s.wr (.fhv .zcGlitch) 0 (satInc (Fld.fhv .zcGlitch).row.width (s.rd (.fhv .zcGlitch))))) ∧
    (∀ last, s.fhv.zc = some last → s.fhv.bridged < 2 →
      ∃ t, exec .zeroCrossingMiss s = .next t ∧ t.fhv.zc = some (last + s.rd (.fhv .halfper)) ∧ t.fhv.bridged = s.fhv.bridged + 1) ∧
    (∀ last, s.fhv.zc = some last → 2 ≤ s.fhv.bridged →
      ∃ t, exec .zeroCrossingMiss s = .next t ∧ t.rd (.fhv .mainsOk) = 0 ∧ t.fhv.zc = none ∧ t.fhv.ready = false ∧
        (s.on (.fhv .mainsOk) = true → t.rd (.fhv .mainsLost) = 1) ∧ ∀ g, g < 8 → t.rd (.fhv .gate) g = 0) ∧
    (s.fhv.zc = none → exec .zeroCrossingMiss s = .next s) ∧
    exec .zcGlitch s = .next (s.wr (.fhv .zcGlitch) 0 (satInc (Fld.fhv .zcGlitch).row.width (s.rd (.fhv .zcGlitch))))

/-- HEATER_GATE_FIRE (R264 to R268): an instant that comes when the gate's own zero crossing has passed is judged after the gate has met
that crossing; a blocked gate does not fire; a burst gate rises for a half-cycle that is on and falls unless the next one is on too.

OTC_TRIP and OTC_CLEAR (R269): a tripped comparator takes the gate low; a latch clears only once its condition has gone.

THERMISTOR_CONVERSION and THERMOPILE_CONVERSION (R270, R271): every 64th thermopile conversion tests for an open circuit; there is no value
before the inputs are calibrated.

Where the manual leaves a clause open, it is the model's choice: log entries 34 and 81. -/
def Obligations.HeatersAreGuarded : Prop :=
  (∀ (s : State) (g : Nat) (e : GateEdge), g < 8 → s.up .ctl = true →
    (∀ z p, (s.heater g).cross = some (z, p) → exec (.heaterGateFire g e) s = exec (.heaterGateFire g e) (s.takeDuty g z 0 p)) ∧
    ((s.heater g).cross = none →
      (s.heaterBlocked g = true ∨ s.fhv.ready = false →
        exec (.heaterGateFire g .rise) s = .next s ∧ ∃ t, exec (.heaterGateFire g .fall) s = .next t ∧ t.rd (.fhv .gate) g = 0) ∧
      (s.heaterBlocked g = false → s.fhv.ready = true → s.on (.fhv .hMode) g = false →
        ((s.heater g).rise ≠ none → ∃ t, exec (.heaterGateFire g .rise) s = .next t ∧ t.on (.fhv .gate) g = true) ∧
        ((s.heater g).rise = none → exec (.heaterGateFire g .rise) s = .next s) ∧
        ∃ t, exec (.heaterGateFire g .fall) s = .next t ∧ t.rd (.fhv .gate) g = 0) ∧
      (s.heaterBlocked g = false → s.fhv.ready = true → s.on (.fhv .hMode) g = true →
        ((s.heater g).next = some true → exec (.heaterGateFire g .fall) s = .next s ∧
          ∃ t, exec (.heaterGateFire g .rise) s = .next t ∧ t.on (.fhv .gate) g = true) ∧
        ((s.heater g).next = some false → exec (.heaterGateFire g .rise) s = .next s ∧
          ∃ t, exec (.heaterGateFire g .fall) s = .next t ∧ t.rd (.fhv .gate) g = 0) ∧
        ((s.heater g).next = none → (s.heater g).rise ≠ none →
          exec (.heaterGateFire g e) s = exec (.heaterGateFire g e) (s.burstNext g)) ∧
        ((s.heater g).next = none → (s.heater g).rise = none → exec (.heaterGateFire g .rise) s = .next s ∧
          ∃ t, exec (.heaterGateFire g .fall) s = .next t ∧ t.rd (.fhv .gate) g = 0)))) ∧
  (∀ (s : State) (g : Nat), g < 8 → s.up .ctl = true →
    (∀ c code, s.otcNow g c code = true → ∃ t, exec (.otcTrip g c code) s = .next t ∧ t.rd (.fhv .gate) g = 0 ∧
      t.rd (.fhv (match c with
        | .a => .otcA
        | .b => .otcB)) g = 1) ∧
    (∀ c code, s.otcNow g c code = false → exec (.otcTrip g c code) s = .next s) ∧
    (∀ (v : Word) (a b : Int), s.Reaches .fhv 0 → ∃ t, exec (.otcClear g v a b) s = .next t ∧
      t.rd (.fhv .otcA) g = (if v.toNat / 4 % 2 = 1 ∧ s.otcNow g .a a = false then 0 else s.rd (.fhv .otcA) g) ∧
      t.rd (.fhv .otcB) g = (if v.toNat / 8 % 2 = 1 ∧ s.otcNow g .b b = false then 0 else s.rd (.fhv .otcB) g))) ∧
  (∀ s : State, s.up .ctl = true →
    (s.calPast 5 = true →
      (∀ i rt, i < 16 → ∃ t, exec (.thermistorConversion i rt) s = .next t ∧ t.rd (.fhv .tCode) i = thermCode rt ∧
        t.rdS (.fhv .tval) i = s.linearise (s.rd (.fhv .tTable) i) (thermCode rt) ∧
        t.rd (.fhv .tOpen) i = (if 64880 ≤ thermCode rt then 1 else 0) ∧ t.rd (.fhv .tShort) i = (if thermCode rt ≤ 64 then 1 else 0)) ∧
      (∀ i code, i < 8 → -32768 ≤ code → code ≤ 32767 → Store.get 0 i s.fhv.pConv ≠ 63 →
        ∃ t, exec (.thermopileConversion i code) s = .next t ∧ t.rdS (.fhv .pCode) i = code ∧
          t.rd (.fhv .pOpen) i = s.rd (.fhv .pOpen) i) ∧
      (∀ i code, i < 8 → -32768 ≤ code → code ≤ 32767 → Store.get 0 i s.fhv.pConv = 63 →
        ∃ t, exec (.thermopileConversion i code) s = .next t ∧ t.rd (.fhv .pOpen) i = (if 32767 ≤ code then 1 else 0) ∧
          t.rd (.fhv .pCode) i = s.rd (.fhv .pCode) i)) ∧
    (s.calPast 5 = false →
      (∀ i rt, i < 16 → exec (.thermistorConversion i rt) s = .next s) ∧
      (∀ i code, i < 8 → -32768 ≤ code → code ≤ 32767 → exec (.thermopileConversion i code) s = .next s)))

/-- HV_FRAME, HV_LEAD_END and FBHI_CLEAR (R272 to R274): a reference moves by at most VRAMP in a frame; feedback at FB_HI for FB_T frames
takes the channel off at once.

Where the manual leaves a clause open, it is the model's choice: log entry 82. -/
def Obligations.HighVoltageIsBounded : Prop :=
  ∀ s : State, s.up .ctl = true →
    (∀ fb : List Nat, fb.length ≤ 48 → (∀ x ∈ fb, x < 4096) → ∃ t, exec (.hvFrame fb) s = .next t ∧
      (∀ c, c < s.hw.hvs → s.rd (.fhv .vstate) c = 2 ∨ s.rd (.fhv .vstate) c = 3 → s.on (.fhv .fbhiTrip) c = false →
        s.rd (.fhv .fbHi) c = 0 → 0 < s.rd (.fhv .fbT) c → s.rd (.fhv .vref) c < 4096 →
        t.rd (.fhv .vref) c ≤ s.rd (.fhv .vref) c + s.rd (.fhv .vramp) c ∧
        s.rd (.fhv .vref) c ≤ t.rd (.fhv .vref) c + s.rd (.fhv .vramp) c) ∧
      (∀ c, c < s.hw.hvs → s.calPast 6 = true → 0 < s.rd (.fhv .fbHi) c → s.rd (.fhv .fbHi) c ≤ fb.getD c 0 →
        s.rd (.fhv .fbT) c ≤ Store.get 0 c s.fhv.high + 1 →
        t.rd (.fhv .fbhiTrip) c = 1 ∧ t.rd (.fhv .vref) c = 0 ∧ t.rd (.fhv .hven) c = 0)) ∧
    (∀ c, c < 48 → s.rd (.fhv .vstate) c = 1 → exec (.hvLeadEnd c) s = .next (s.wr (.fhv .vstate) c 2)) ∧
    (∀ c, c < 48 → s.rd (.fhv .vstate) c ≠ 1 → exec (.hvLeadEnd c) s = .next s) ∧
    (∀ c (v : Word), c < 48 → v.toNat / 8 % 2 = 1 → s.Reaches .fhv 0 →
      (s.rd (.fhv .fbHi) c = 0 ∨ s.rd (.fhv .vfb) c < s.rd (.fhv .fbHi) c →
        exec (.fbhiClear c v) s = .next (s.wr (.fhv .fbhiTrip) c 0)) ∧
      (s.rd (.fhv .fbHi) c ≠ 0 → s.rd (.fhv .fbHi) c ≤ s.rd (.fhv .vfb) c → exec (.fbhiClear c v) s = .next s))

/-! ### The paper path and the web -/

/-- OVERSPEED_DETECT, FEED_POINT, FEED_WINDOW_EXPIRY and REFEED (R283, R284, R289): a due feed point feeds the admitted context that has
not been fed, with FEED high for 1 ms, or is skipped and counted; a sheet whose misfeeds are over RETRY waits for a REFEED; a sheet that
has not registered inside its window is misfed, PCAUSE 1.

Where the manual leaves a clause open, it is the model's choice: log entries 86 and 126. -/
def Obligations.SheetsAreFed : Prop :=
  ∀ s : State, s.up .mot = true → s.web = false → s.isSlave = false →
    (s.pth.fast = 3 → ∃ t, exec .overspeedDetect s = .next t ∧ t.rd (.pth .overspeed) = 1 ∧ t.pth.fast = 4) ∧
    (s.pth.fast ≠ 3 → exec .overspeedDetect s = .next s) ∧
    (s.ldr.st = .armed ∨ s.ldr.st = .disarming →
      (∀ b c, s.feedDue = some b → s.unfed = some c → (s.exhausted c = true → s.pth.refeed = true) →
        ∃ t, exec .feedPoint s = .next t ∧ t.pth.feedBase = some b ∧ (t.ctx c).stage = 1 ∧ Out.pin 0 true ∈ t.out ∧
          t.pth.feedEnd = some (s.etime + 1000000) ∧ (s.exhausted c = true → t.pth.refeed = false)) ∧
      (∀ b c, s.feedDue = some b → s.unfed = some c → s.exhausted c = true → s.pth.refeed = false →
        ∃ t, exec .feedPoint s = .next t ∧ t.pth.feedBase = some b ∧ t.ctx c = s.ctx c ∧
          t.rd (.pth .skipcnt) = satInc (Fld.pth .skipcnt).row.width (s.rd (.pth .skipcnt))) ∧
      (∀ b, s.feedDue = some b → s.unfed = none → s.feedReady = false →
        ∃ t, exec .feedPoint s = .next t ∧ t.pth.feedBase = some b ∧ t.rd (.pth .feedHold) = 1 ∧
          t.rd (.pth .skipcnt) = satInc (Fld.pth .skipcnt).row.width (s.rd (.pth .skipcnt))) ∧
      (∀ b, s.feedDue = some b → s.unfed = none → s.feedReady = true →
        ∃ t, exec .feedPoint s = .next t ∧ t.pth.feedBase = some b ∧ t.rd (.pth .feedHold) = 0) ∧
      (s.feedDue = none → exec .feedPoint s = .next s)) ∧
    (∀ l : List Track, l = (s.pth.tracks.filter fun t => (s.ctx t.ctx).stage == 1 && t.origin.isNone && !s.edgePending t &&
        decide (t.fedAt + 256 * ((s.rd (.pth .feedLead) : Int) + s.rd (.pth .feedWin)) < s.mpos)) →
      ∃ t, exec .feedWindowExpiry s = .next t ∧ (∀ x ∈ l, (t.ctx x.ctx).stage = 6 ∧ (t.ctx x.ctx).pcause = 1) ∧
        ((∃ x ∈ l, s.rd (.pth .retry) < x.misses + 1) → t.rd (.pth .misfeed) = 1) ∧
        ((∀ x ∈ l, x.misses + 1 ≤ s.rd (.pth .retry)) → t.rd (.pth .misfeed) = s.rd (.pth .misfeed))) ∧
    (s.Reaches .pth 0 →
      (∀ c, s.unfed = some c → s.exhausted c = true → exec .refeed s = .next { s with pth := { s.pth with refeed := true } }) ∧
      (∀ c, s.unfed = some c → s.exhausted c = false → exec .refeed s = .next (s.wr (.pth .cmdErr) 0 1)) ∧
      (s.unfed = none → exec .refeed s = .next (s.wr (.pth .cmdErr) 0 1)))

/-- SENSOR_RAW_EDGE, SENSOR_QUALIFIED and SENSOR_WINDOW_EXPIRY (R285, R288): an edge away from the qualified level captures the process
position; a level that is qualified is shown and its edge counted; a qualified leading edge at the registration sensor registers the sheet
whose feed window it lies in; a missing edge fails the sheet, PCAUSE 2 or 3.

Where the manual leaves a clause open, it is the model's choice: log entries 85 and 87. -/
def Obligations.SensorsAreRead : Prop :=
  ∀ (s : State) (i : Nat), i < 32 → s.up .mot = true →
    (∀ present, s.rd (.pth .role) i ≠ 0 → present ≠ (s.sensor i).active →
      exec (.sensorRawEdge i present) s = .next (s.setSensor i { s.sensor i with cand := some (present, s.mpos) })) ∧
    (s.rd (.pth .role) i ≠ 0 →
      exec (.sensorRawEdge i (s.sensor i).active) s = .next (s.setSensor i { s.sensor i with cand := none })) ∧
    (∀ present, s.rd (.pth .role) i = 0 → exec (.sensorRawEdge i present) s = .next s) ∧
    (∀ present p, (s.sensor i).cand = some (present, p) →
      ∃ t, exec (.sensorQualified i) s = .next t ∧ t.sensor i = { active := present, cand := none } ∧
        t.rd (.pth .sEdges) i = satInc (Fld.pth .sEdges).row.width (s.rd (.pth .sEdges) i) ∧
        t.on (.pth .sLevel) i = present) ∧
    (∀ p x, (s.sensor i).cand = some (true, p) → s.web = false → s.isSlave = false → s.rd (.pth .role) i = 1 →
      s.rd (.pth .regSensor) = i →
      (s.pth.tracks.find? fun t => (s.ctx t.ctx).stage == 1 && t.origin.isNone && s.inFeedWindow t p) = some x →
      ∃ t, exec (.sensorQualified i) s = .next t ∧ (t.ctx x.ctx).stage = 2) ∧
    ((s.sensor i).cand = none → exec (.sensorQualified i) s = .next s) ∧
    (∀ c x d, c < 256 → s.web = false → (s.rd (.pth .role) i = 2 ∨ s.rd (.pth .role) i = 3) → s.track c = some x →
      s.onRoute x i = true → s.past x i s.mpos = some d →
      (s.awaitsLead x i = true → 256 * (s.rd (.pth .leWin) i : Int) ≤ d →
        exec (.sensorWindowExpiry i c .leading) s = .next (s.sheetFail x 2 .jam 34 i)) ∧
      (x.trails.contains i = false → 256 * ((s.lengthOf x : Int) + s.rd (.pth .teWin) i) ≤ d →
        exec (.sensorWindowExpiry i c .trailing) s = .next (s.sheetFail x 3 .jam 34 i)) ∧
      (s.awaitsLead x i = false ∨ d < 256 * (s.rd (.pth .leWin) i : Int) →
        exec (.sensorWindowExpiry i c .leading) s = .next s) ∧
      (x.trails.contains i = true ∨ d < 256 * ((s.lengthOf x : Int) + s.rd (.pth .teWin) i) →
        exec (.sensorWindowExpiry i c .trailing) s = .next s))

/-- T0_ISSUE, SHEET_COMMIT, DIVERTER_DECISION, DIVERTER_RELEASE, SHEET_DELIVERED, SHEET_BOUNDARY and DISP_ANSWER (R286, R287, R291 to
R294): a spoiled sheet goes to its disposition and every other to output 0; a diverter goes low behind a sheet unless another sheet holds
it; a sheet that has arrived is DELIVERED; a boundary sets BOUNDARY_EV; an answer after the output is fixed only sets DISP_LATE.

Where the manual leaves a clause open, it is the model's choice: log entries 17 and 47. -/
def Obligations.SheetsReachTheirOutput : Prop :=
  (∀ (s : State) (c k : Nat) (im : Imaging) (m : Int), c < 256 → k < 8 → s.up .mot = true → s.vidUp k = true →
    s.awaitsT0 c k = some im → s.arrival c k im.base = some m → s.rd (.pth .lrate) ≠ 0 →
    (m - s.mpos ≤ 256 * (s.rd (.pth .t0Lead) : Int) → ∃ t, exec (.t0Issue c k) s = .next t ∧
      (t.stn k).queue = (s.stn k).queue.map fun y => if y.ctx = c then
        { y with t0 := some ((s.etime : Int) + (m - s.mpos) * 1000000000 / (256 * s.rd (.pth .lrate) : Nat)).toNat } else y) ∧
    (256 * (s.rd (.pth .t0Lead) : Int) < m - s.mpos → exec (.t0Issue c k) s = .next s)) ∧
  (∀ (s : State) (c : Nat) (x : Track), c < 256 → s.up .mot = true → s.web = false → s.isSlave = false → s.track c = some x →
    ((s.ctx c).stage = 2 → s.leadReached x (s.rd (.pth .regGate)) = true →
      ∃ t, exec (.sheetCommit c) s = .next t ∧ (t.ctx c).stage = 3) ∧
    ((s.ctx c).stage ≠ 2 ∨ s.leadReached x (s.rd (.pth .regGate)) = false → exec (.sheetCommit c) s = .next s) ∧
    (∀ line d, s.firstDiverter = some line → x.output = none → 2 ≤ (s.ctx c).stage → (s.ctx c).stage ≤ 3 →
      s.leadReached x line = true → d = (if (s.ctx c).st = .spoiled then s.rd (.pgs .disp) c else 0) →
      ∃ t, exec (.diverterDecision c) s = .next t ∧ (t.ctx c).stage = 4 ∧ (t.track c).map (·.output) = some (some d) ∧
        (d = 1 ∨ d = 2 → Out.pin d true ∈ t.out)) ∧
    (∀ line, s.firstDiverter = some line → s.leadReached x line = false → exec (.diverterDecision c) s = .next s) ∧
    (∀ d z t, x.output = some d → s.trailOf x = some z → x.diverter = true → t = s.setTrack { x with diverter := false } →
      (256 * (s.rd (.pth .divPos) (d - 1) : Int) ≤ z → s.diverterHeld c d = false →
        exec (.diverterRelease c) s = .next (t.emit (.pin d false))) ∧
      (256 * (s.rd (.pth .divPos) (d - 1) : Int) ≤ z → s.diverterHeld c d = true → exec (.diverterRelease c) s = .next t) ∧
      (z < 256 * (s.rd (.pth .divPos) (d - 1) : Int) → exec (.diverterRelease c) s = .next s)) ∧
    (s.deliverable c = true → s.arrived x = true → ∃ t, exec (.sheetDelivered c) s = .next t ∧ (t.ctx c).st = .delivered ∧
      (t.ctx c).stage = 5 ∧ (t.ctx c).output = some (x.output.getD 0)) ∧
    (s.deliverable c = false ∨ s.arrived x = false → exec (.sheetDelivered c) s = .next s) ∧
    (∀ z, s.trailOf x = some z →
      (x.bounded = false → 256 * (s.rd (.pth .boundary) : Int) ≤ z →
        exec (.sheetBoundary c) s = .next (((s.setTrack { x with bounded := true }).boundary).broadcast 9 []) ∧
        ∃ t, exec (.sheetBoundary c) s = .next t ∧ t.rd (.pth .boundaryEv) = 1 ∧ (s.up .cmp = true → t.cmp.rejoin = [])) ∧
      (x.bounded = true ∨ z < 256 * (s.rd (.pth .boundary) : Int) → exec (.sheetBoundary c) s = .next s))) ∧
  (∀ (s : State) (v : Word) (c d : Nat), c = v.toNat % 256 → d = v.toNat / 256 % 4 → s.up .mot = true → s.Reaches .pth 0 →
    (s.dispAsked c = true → 4 ≤ (s.ctx c).stage → (s.ctx c).stage ≤ 5 →
      exec (.dispAnswer v) s = .next ((s.wr (.pth .dispLate) 0 1).closeDecision 7 c)) ∧
    (s.dispAsked c = false ∨ (s.ctx c).stage < 4 ∨ 5 < (s.ctx c).stage →
      (s.decisionOpen 7 c = true → d ≤ 2 → exec (.dispAnswer v) s = .next ((s.wr (.pgs .disp) c d).closeDecision 7 c)) ∧
      (s.decisionOpen 7 c = false ∨ d = 3 → exec (.dispAnswer v) s = .next s)))

/-- The web sequence (R296 to R303): each command moves WSTATE along RUN, DRAIN, DECEL, DECIDE, BACKUP, READY, ACCEL and STOPPED; a stop
saves the jog velocity and one that comes later is recorded; a resume that is too short is told and drains again; a break gives every frame
in IMAGING or EXPOSED PCAUSE 7; a frame meets its boundary and its delivery as a sheet does.

Without a web the web's commands are refused or do nothing. A slave follows its master's stop and run (R320).

Where the manual leaves a clause open, it is the model's choice: log entries 41, 89 and 147. -/
def Obligations.TheWebSequenceRuns : Prop :=
  (∀ s : State, s.up .mot = true → s.web = true → s.isSlave = false →
    (∀ f w, s.firstFrame = some f → s.rd (.pth .wstate) = 0 → 0 < (s.axis s.procAxis).v * s.forwardDir → (s.axis s.procAxis).a = 0 →
      w = s.mpos + 256 * ((s.rd (.pth .dlLead) : Int) - s.stnposMin) →
      exec .webRunStart s = .next ((s.webRuns w).broadcast 12 [w]) ∧
      ∃ t, exec .webRunStart s = .next t ∧ t.rd (.pth .wstate) = 1 ∧ t.rd (.pth .stopCause) = 0 ∧ t.pth.w0Set = true ∧
        t.pth.nextLine = s.pth.nextLine - f.first) ∧
    (s.rd (.pth .wstate) ≠ 0 ∨ s.firstFrame = none ∨ (s.axis s.procAxis).v * s.forwardDir ≤ 0 ∨ (s.axis s.procAxis).a ≠ 0 →
      exec .webRunStart s = .next s) ∧
    (s.rd (.pth .wstate) ≠ 0 → s.pth.w0Set = true → s.ldr.st ≠ .disarming →
      s.rdS (.pth .w0) + 256 * (s.pth.nextLine + s.stnposMin - s.rd (.pth .dlLead)) ≤ s.mpos →
      (s.rd (.pth .wstate) = 1 → ∃ t, exec .frameDeadline s = .next t ∧ t.rd (.pth .wstate) = 2 ∧ t.rd (.pth .stopCause) = 2 ∧
        t.rd (.pth .deadline) = 1 ∧ t.pth.vsave = s.rdS (.mot .jogvel) s.procAxis) ∧
      (s.rd (.pth .wstate) = 7 → ∃ t, exec .frameDeadline s = .next t ∧ t.rd (.pth .wstate) = 7 ∧ t.rd (.pth .deadline) = 1 ∧
        t.pth.stopNext = some (s.pth.stopNext.getD 2)) ∧
      (s.rd (.pth .wstate) ≠ 1 → s.rd (.pth .wstate) ≠ 7 → exec .frameDeadline s = .next (s.wr (.pth .deadline) 0 1))) ∧
    (s.rd (.pth .wstate) = 0 ∨ s.pth.w0Set = false ∨ s.ldr.st = .disarming ∨
        s.mpos < s.rdS (.pth .w0) + 256 * (s.pth.nextLine + s.stnposMin - s.rd (.pth .dlLead)) →
      exec .frameDeadline s = .next s) ∧
    (s.Reaches .pth 0 →
      (s.rd (.pth .wstate) = 1 → ∃ t, exec .webStop s = .next t ∧ t.rd (.pth .wstate) = 2 ∧ t.rd (.pth .stopCause) = 3 ∧
        t.pth.vsave = s.rdS (.mot .jogvel) s.procAxis ∧ t.pth.toIdle = true) ∧
      (s.rd (.pth .wstate) = 0 → exec .webStop s = .next (s.wr (.pth .cmdErr) 0 1)) ∧
      (s.rd (.pth .wstate) = 7 →
        exec .webStop s = .next { s with pth := { s.pth with stopNext := some (s.pth.stopNext.getD 3) } }) ∧
      (s.rd (.pth .wstate) ≠ 0 → s.rd (.pth .wstate) ≠ 1 → s.rd (.pth .wstate) ≠ 7 → exec .webStop s = .next s) ∧
      (s.rd (.pth .wstate) = 4 ∨ s.rd (.pth .wstate) = 8 →
        ∃ t, exec .webBackup s = .next t ∧ t.rd (.pth .wstate) = 5 ∧ t.decisionOpen 6 0xFFFF = false) ∧
      (s.rd (.pth .wstate) ≠ 4 → s.rd (.pth .wstate) ≠ 8 → exec .webBackup s = .next (s.wr (.pth .cmdErr) 0 1)) ∧
      (s.rd (.pth .wstate) = 4 → exec .webHold s = .next ((s.wr (.pth .wstate) 0 8).closeDecision 6 0xFFFF)) ∧
      (s.rd (.pth .wstate) ≠ 4 → exec .webHold s = .next (s.wr (.pth .cmdErr) 0 1))) ∧
    (s.rd (.pth .wstate) = 2 → s.drainEnded = true → ∃ t, exec .webDrainDone s = .next t ∧ t.rd (.pth .wstate) = 3) ∧
    (s.rd (.pth .wstate) ≠ 2 ∨ s.drainEnded = false → exec .webDrainDone s = .next s) ∧
    (s.rd (.pth .wstate) = 3 → s.webAtRest = true →
      (s.pth.toIdle = true ∨ s.rd (.pth .stopCause) = 4 →
        ∃ t, exec .webDecelAtRest s = .next t ∧ t.rd (.pth .wstate) = 0 ∧ t.pth.w0Set = false) ∧
      (s.pth.toIdle = false → s.rd (.pth .stopCause) ≠ 4 → s.on (.pth .webMode) = true →
        ∃ t, exec .webDecelAtRest s = .next t ∧ t.rd (.pth .wstate) = 4 ∧ t.decisionOpen 6 0xFFFF = true) ∧
      (s.pth.toIdle = false → s.rd (.pth .stopCause) ≠ 4 → s.on (.pth .webMode) = false →
        ∃ t, exec .webDecelAtRest s = .next t ∧ t.rd (.pth .wstate) = 5)) ∧
    (s.rd (.pth .wstate) ≠ 3 ∨ s.webAtRest = false → exec .webDecelAtRest s = .next s) ∧
    (s.rd (.pth .wstate) = 5 → s.webAtRest = true → exec .webBackupAtRest s = .next (s.wr (.pth .wstate) 0 6)) ∧
    (s.rd (.pth .wstate) ≠ 5 ∨ s.webAtRest = false → exec .webBackupAtRest s = .next s) ∧
    (s.rd (.pth .wstate) = 6 → s.mayResume = true → ∃ t, exec .webResume s = .next t ∧ t.rd (.pth .wstate) = 7) ∧
    (s.rd (.pth .wstate) ≠ 6 ∨ s.mayResume = false → exec .webResume s = .next s) ∧
    (s.rd (.pth .wstate) = 7 → (s.axis s.procAxis).a = 0 → (s.axis s.procAxis).v = s.pth.vsave * 2 ^ 32 →
      (s.resumeFar = true →
        (s.pth.stopNext = none → exec .webAtSpeed s = .next (s.wr (.pth .wstate) 0 1)) ∧
        (∀ c, s.pth.stopNext = some c → (c = 1 → (s.loam.ctxs.any fun e => e.2.st == .stalled) = true) →
          ∃ t, exec .webAtSpeed s = .next t ∧ t.rd (.pth .wstate) = 2 ∧ t.pth.stopNext = none) ∧
        (s.pth.stopNext = some 1 → (s.loam.ctxs.any fun e => e.2.st == .stalled) = false →
          ∃ t, exec .webAtSpeed s = .next t ∧ t.rd (.pth .wstate) = 1 ∧ t.pth.stopNext = none)) ∧
      (s.resumeFar = false → exec .webAtSpeed s = .next ((s.wr (.pth .bkShort) 0 1).wr (.pth .wstate) 0 2))) ∧
    (s.rd (.pth .wstate) ≠ 7 ∨ (s.axis s.procAxis).a ≠ 0 ∨ (s.axis s.procAxis).v ≠ s.pth.vsave * 2 ^ 32 →
      exec .webAtSpeed s = .next s) ∧
    (∀ i, i < 32 → s.rd (.pth .role) i = 4 →
      ∃ t, exec (.webBreak i) s = .next t ∧ t.rd (.pth .webBreak) = 1 ∧ t.rd (.pth .sLevel) i = 0 ∧
        t.sensor i = { s.sensor i with active := false, cand := none } ∧
        ∀ c, (s.ctx c).st = .imaging ∨ (s.ctx c).st = .exposed → (t.ctx c).pcause = 7) ∧
    (∀ i, i < 32 → s.rd (.pth .role) i ≠ 4 → exec (.webBreak i) s = .next s) ∧
    (∀ c f, c < 256 → s.frameOf c = some f →
      (f.bounded = false → s.pth.w0Set = true → s.rdS (.pth .w0) + 256 * (f.first + (s.rd (.pth .boundary) : Int)) ≤ s.mpos →
        ∃ t, exec (.sheetBoundary c) s = .next t ∧ t.rd (.pth .boundaryEv) = 1) ∧
      (s.deliverable c = true → s.frameArrived f = true → ∃ t, exec (.sheetDelivered c) s = .next t ∧ (t.ctx c).st = .delivered ∧
        (t.ctx c).stage = 5))) ∧
  (∀ s : State, s.up .mot = true → s.web = false →
    exec .webRunStart s = .next s ∧ exec .frameDeadline s = .next s ∧ exec .webDrainDone s = .next s ∧
    exec .webDecelAtRest s = .next s ∧ exec .webBackupAtRest s = .next s ∧ exec .webResume s = .next s ∧
    exec .webAtSpeed s = .next s ∧ (∀ i, i < 32 → exec (.webBreak i) s = .next s) ∧
    (s.Reaches .pth 0 → exec .webStop s = .next (s.wr (.pth .cmdErr) 0 1) ∧ exec .webBackup s = .next (s.wr (.pth .cmdErr) 0 1) ∧
      exec .webHold s = .next (s.wr (.pth .cmdErr) 0 1))) ∧
  (∀ s : State, s.up .mot = true → s.web = true → s.isSlave = true →
    (s.rd (.pth .wstate) = 1 → exec .webDrainDone s = .next (s.wr (.pth .wstate) 0 2)) ∧
    (s.rd (.pth .wstate) = 2 → s.drainEnded = true → ∃ t, exec .webDrainDone s = .next t ∧ t.rd (.pth .wstate) = 5) ∧
    (s.rd (.pth .wstate) = 5 → exec .webAtSpeed s = .next (s.wr (.pth .wstate) 0 1)))

/-! ### The cascade -/

/-- BEACON_TX, BEACON_RX, PORT_DOWN, PORT_UP, PARTITION_CLEAR and POWER_GO_RX (R309, R311, R312, R321, R322): a slave keeps a port's
beacon and passes it on with one hop more; a port that goes down degrades the ring; PARTITION_CLEAR, while a link is up and the slave is
aligned, forgets the positions that were cut off; a slave passes POWER_GO on. Without a cascade nothing happens.

Where the manual leaves a clause open, it is the model's choice: log entries 44 and 46. -/
def Obligations.TheRingIsTracked : Prop :=
  ∀ s : State, s.up .csl = true →
    (s.cslRole = 1 → exec .beaconTx s = .next ((s.emit (.scejo .a 1 [1])).emit (.scejo .b 1 [1])) ∧
      (∀ p hop ver, ver = s.rd (.ldr .fwMajor) → exec (.beaconRx p hop s.hw.serial ver) s = .next s) ∧
      (∀ p hop m ver, ver = s.rd (.ldr .fwMajor) → m ≠ s.hw.serial →
        exec (.beaconRx p hop m ver) s = .next (s.wr (.csl .masterConflict) 0 1)) ∧
      (∀ p hop m ver, ver ≠ s.rd (.ldr .fwMajor) → ∃ t, exec (.beaconRx p hop m ver) s = .next t ∧ t.rd (.csl .verErr) = 1 ∧
        (m ≠ s.hw.serial → t.rd (.csl .masterConflict) = 1))) ∧
    (s.cslRole ≠ 1 → exec .beaconTx s = .next s ∧ (s.cslRole = 0 → ∀ p hop m ver, exec (.beaconRx p hop m ver) s = .next s)) ∧
    (s.cslRole = 2 → ∀ p hop m ver, ∃ t, exec (.beaconRx p hop m ver) s = .next t ∧ t.beaconAt p = some { hop := hop, master := m } ∧
      t.out = .scejo (otherPort p) 1 [(hop : Int) + 1] :: s.out ∧
      (ver ≠ s.rd (.ldr .fwMajor) → t.rd (.csl .verErr) = 1) ∧
      (∀ q b, s.beaconAt q = some b → b.master ≠ m → t.rd (.csl .masterConflict) = 1) ∧
      (s.portUp? p = true → hop ≠ (if p = .a then s.rd (.csl .pos) else s.rd (.csl .nmod) + 1 - s.rd (.csl .pos)) →
        t.rd (.csl .posErr) = 1)) ∧
    (s.cslRole ≠ 0 →
      (∀ p lost, ∃ t, exec (.portDown p lost) s = .next t ∧ t.portUp? p = false ∧ t.beaconAt p = none ∧ t.rd (.csl .ringDegraded) = 1 ∧
        (lost ≠ [] → t.csl.unreachable = lost ∧ t.rd (.csl .partition) = 1 ∧ ∀ n ∈ lost, n < 4 →
          t.rd (.csl .peersPresent) n = 0 ∧ t.rd (.csl .peersArmed) n = 0 ∧ t.rd (.csl .peersGate) n = 0)) ∧
      (∀ p (delay : Nat), ∃ t, exec (.portUp p delay) s = .next t ∧ t.portUp? p = true ∧
        t.linkDelay p = (clampInt ((delay : Int) + s.rdS (.csl .skewtrim)) 0 65535).toNat) ∧
      (s.on (.csl .linkaUp) = true ∨ s.on (.csl .linkbUp) = true → s.cslRole = 1 ∨ s.rd (.csl .tstate) = 3 →
        exec .partitionClear s = .next { s.wr (.csl .partition) 0 0 with csl := { s.csl with unreachable := [] } }) ∧
      (s.on (.csl .linkaUp) = false → s.on (.csl .linkbUp) = false → exec .partitionClear s = .next s) ∧
      (s.cslRole = 2 → s.rd (.csl .tstate) ≠ 3 → exec .partitionClear s = .next s)) ∧
    (s.cslRole = 0 → (∀ p lost, exec (.portDown p lost) s = .next s) ∧ (∀ p delay, exec (.portUp p delay) s = .next s) ∧
      exec .partitionClear s = .next s) ∧
    (s.cslRole = 2 →
      (s.estate ≠ 1 →
        exec .powerGoRx s = .next ((s.emit (.scejo (otherPort s.upstream) 14 [])).wr (.csl .powerGoSeen) 0 1)) ∧
      (s.estate = 1 → ∃ t, exec .powerGoRx s = .next t ∧ t.estate = 2 ∧ t.rd (.csl .powerGoSeen) = 1 ∧
        t.out = .scejo (otherPort s.upstream) 14 [] :: s.out)) ∧
    (s.cslRole ≠ 2 → exec .powerGoRx s = .next s)

/-- SYNC_TX, SYNC_RX, SYNC_TIMEOUT, POSITION_BROADCAST, POSITION_RX and POSITION_TIMEOUT (R312, R313, R318, R321): a slave shows
its offset from a SYNC word at its upstream port and passes the word on with its delay; without SYNC it loses its alignment; a position that
stays away is forgotten and what busy stations image is spoiled.

Where the manual leaves a clause open, it is the model's choice: log entries 42, 44 and 48. -/
def Obligations.EngineTimeIsShared : Prop :=
  ∀ s : State, s.up .csl = true →
    (s.cslRole = 1 →
      exec .syncTx s = .next ((s.emit (.scejo .a 2 [(s.etime : Int)])).emit (.scejo .b 2 [(s.etime : Int)])) ∧
      ∃ t, exec .positionBroadcast s = .next t ∧
        t.out = .scejo .b 3 [s.mpos, (s.rd (.pth .lrate) : Int), (s.etime : Int)] ::
          .scejo .a 3 [s.mpos, (s.rd (.pth .lrate) : Int), (s.etime : Int)] :: s.out) ∧
    (s.cslRole ≠ 1 → exec .syncTx s = .next s ∧ exec .positionBroadcast s = .next s) ∧
    (s.cslRole = 2 →
      (∀ p ts corr arr, s.portUp? p = true → ∃ t, exec (.syncRx p ts corr arr) s = .next t ∧
        (∃ q, q < 2 ^ 16 ∧ t.out = .scejo (otherPort p) 2 [(ts : Int), ((corr + s.linkDelay p + q : Nat) : Int)] :: s.out) ∧
        (p = s.upstream → t.rdS (.csl .offset) = clampInt
          (((arr / 500 * 500 + tapsAt (arr % 500) (s.deltaT 10 (s.cal.scejoT.getD ((s.sensorTemp 10).getD 0))) : Nat) : Int) -
            ((ts * 50 + corr + s.linkDelay p : Nat) : Int)) (-8388608) 8388607) ∧
        (p ≠ s.upstream → t.regs = s.regs ∧ t.etime = s.etime)) ∧
      (∀ p ts corr arr, s.portUp? p = false → exec (.syncRx p ts corr arr) s = .next s) ∧
      (s.rd (.csl .tstate) ≠ 0 → ∃ t, exec .syncTimeout s = .next t ∧ t.rd (.csl .tstate) = 0 ∧ t.rd (.csl .alignLost) = 1 ∧
        t.csl.near = 0 ∧ t.csl.far = 0) ∧
      (s.rd (.csl .tstate) = 0 → exec .syncTimeout s = .next s) ∧
      (∀ (m : Int) (r e : Nat), ∃ t, exec (.positionRx m r e) s = .next t ∧ t.csl.position = some (m, r, e) ∧
        t.out = .scejo (otherPort s.upstream) 3 [m, (r : Int), (e : Int)] :: s.out) ∧
      (∃ t, exec .positionTimeout s = .next t ∧ t.csl.position = none ∧
        ∀ k c, k < 8 → s.busy k = true → c ∈ s.imagingOn k → (s.ctx c).spoilable = true → (t.ctx c).st = .spoiled) ∧
      ((∀ k, k < 8 → s.busy k = false) → exec .positionTimeout s = .next { s with csl := { s.csl with position := none } })) ∧
    (s.cslRole ≠ 2 → (∀ p ts corr arr, exec (.syncRx p ts corr arr) s = .next s) ∧ exec .syncTimeout s = .next s ∧
      (∀ m r e, exec (.positionRx m r e) s = .next s) ∧ exec .positionTimeout s = .next s)

/-- CASCADE_GATE_QUERY, CASCADE_GATE_REPLY, CASCADE_GATE_TIMEOUT, SHEET_EVENT_RX, CASCADE_DISARM_RX and SLAVE_REPORT_RX (R307, R315 to R320):
a slave answers a gate query with its own gate, which in host-assisted mode waits for the host; one refusal or no answer in time refuses the
joint admission, ADM_REFUSE 7, and the agreement of every slave admits the master's head; sheet events move a slave's own sheets; a slave
passes on what is meant for the modules behind it.

Where the manual leaves a clause open, it is the model's choice: log entries 43, 44 and 49. -/
def Obligations.TheRingAdmitsTogether : Prop :=
  ∀ s : State, s.up .csl = true →
    (s.cslRole = 2 →
      (∀ (tag : Word) c, s.head = some c → (s.ctx c).tag = tag.toNat → s.gateRefusal = 0 →
        (s.on (.pgs .admMode) = false ∨ s.loam.hostOk = some c →
          ∃ t, exec (.cascadeGateQuery tag) s = .next t ∧ t.csl.query = some c ∧ t.csl.asked = s.etime ∧
            t.out = .scejo s.upstream 5 [(s.rd (.csl .pos) : Int), 1, 1] :: .scejo (otherPort s.upstream) 4 [(tag.toNat : Int)] :: s.out) ∧
        (s.on (.pgs .admMode) = true → s.loam.hostOk ≠ some c →
          ∃ t, exec (.cascadeGateQuery tag) s = .next t ∧ t.csl.query = none ∧ t.csl.asked = s.etime ∧
            (s.loam.withheld = false → t.decisionOpen 1 c = true) ∧
            t.out.head? = some (.scejo s.upstream 5 [(s.rd (.csl .pos) : Int), 1, 0]))) ∧
      (∀ tag : Word, s.gateRefusal ≠ 0 →
        ∃ t, exec (.cascadeGateQuery tag) s = .next t ∧ t.csl.query = none ∧ t.rd (.pgs .admRefuse) = s.gateRefusal ∧
          t.out = .scejo s.upstream 5 [(s.rd (.csl .pos) : Int), if s.ldr.st = .armed then 1 else 0, 0] ::
            .scejo (otherPort s.upstream) 4 [(tag.toNat : Int)] :: s.out) ∧
      (∀ (tag : Word) c, s.head = some c → (s.ctx c).tag ≠ tag.toNat →
        ∃ t, exec (.cascadeGateQuery tag) s = .next t ∧ t.csl.query = none ∧ t.rd (.csl .tagErr) = 1) ∧
      (∀ e, s.up .mot = false → exec (.sheetEventRx e) s = .next (s.relayEvent e)) ∧
      (∀ e, s.up .mot = true → ∃ t, exec (.sheetEventRx e) s = .next t ∧
        (∀ m x, e = .origin m → (s.oldest fun t st => st == 1 && t.origin.isNone) = some x → (t.ctx x.ctx).stage = 2) ∧
        (∀ m, e = .origin m → (s.oldest fun t st => st == 1 && t.origin.isNone) = none → t = s.relayEvent e) ∧
        (∀ x, e = .commit → (s.oldest fun _ st => st == 2) = some x → t = (s.relayEvent e).setStage x.ctx 3) ∧
        (e = .commit → (s.oldest fun _ st => st == 2) = none → t = s.relayEvent e) ∧
        (∀ w, e = .w0 w → t.rd (.pth .wstate) = 1 ∧ t.pth.w0Set = true) ∧
        (e = .boundary → t = (s.relayEvent e).boundary) ∧
        (∀ d x, e = .outputDecision d →
          (s.oldest fun t st => t.output.isNone && decide (2 ≤ st) && decide (st ≤ 3)) = some x → (t.ctx x.ctx).stage = 4) ∧
        (∀ tag c, e = .feed tag → s.csl.query = some c → s.etime ≤ s.csl.asked + 30000 → s.gateRefusal = 0 → s.head = some c →
          t.csl.query = none ∧ ((t.ctx c).st = .admitted ∨ (t.ctx c).st = .exposed) ∧ (s.web = false → (t.ctx c).stage = 1)) ∧
        (∀ tag x, e = .feed tag → s.csl.query = none → (s.oldest fun t st => st == 1 && t.origin.isNone) = some x →
          t = (s.relayEvent e).setTrack { x with fedAt := s.mpos }) ∧
        (∀ tag c, e = .spoil tag → s.byTag tag = some c → (t.ctx c).st = .spoiled) ∧
        (∀ tag, e = .spoil tag → s.byTag tag = none → t = s.relayEvent e)) ∧
      (∀ pos armed passes, 1 ≤ pos → pos < 4 → exec (.cascadeGateReply pos armed passes) s =
        .next (s.emit (.scejo s.upstream 5 [(pos : Int), bit armed, bit passes]))) ∧
      (∀ pos rep, 1 ≤ pos → pos < 4 → exec (.slaveReportRx pos rep) s = .next (s.relayReport pos rep)) ∧
      (s.ldr.st ≠ .armed → exec .cascadeDisarmRx s = .next (s.emit (.scejo (otherPort s.upstream) 13 []))) ∧
      (s.ldr.st = .armed → ∃ t, exec .cascadeDisarmRx s = .next t ∧ t.ldr.st = .disarming ∧
        t.out = .scejo (otherPort s.upstream) 13 [] :: s.out)) ∧
    (s.cslRole = 1 →
      (∀ pos armed passes, 1 ≤ pos → pos < 4 → ∃ t, exec (.cascadeGateReply pos armed passes) s = .next t ∧
        t.on (.csl .peersPresent) pos = true ∧ t.on (.csl .peersArmed) pos = armed ∧ t.on (.csl .peersGate) pos = passes ∧
        (s.csl.query = none → t.csl = s.csl) ∧
        (s.csl.query ≠ none → armed = false ∨ passes = false →
          t.csl.query = none ∧ t.csl.agreed = [] ∧ t.rd (.pgs .admRefuse) = 7) ∧
        (∀ c, s.csl.query = some c → armed = true → passes = true →
          (∀ i, i < s.rd (.csl .nmod) → i + 1 = pos ∨ i + 1 ∈ s.csl.agreed) → s.gateRefusal = 0 → s.head = some c →
          t.csl.query = none ∧ ((t.ctx c).st = .admitted ∨ (t.ctx c).st = .exposed))) ∧
      (∀ c, s.csl.query = some c → ∃ t, exec .cascadeGateTimeout s = .next t ∧ t.csl.query = none ∧ t.csl.agreed = [] ∧
        t.rd (.pgs .admRefuse) = 7) ∧
      (s.csl.query = none → exec .cascadeGateTimeout s = .next s) ∧
      (∀ pos k line busy, 1 ≤ pos → pos < 4 → ∃ t, exec (.slaveReportRx pos (.drained k line busy)) s = .next t ∧
        t.csl.drained.head? = some (pos, k, line, busy) ∧ t.on (.csl .peersPresent) pos = true) ∧
      (∀ pos, 1 ≤ pos → pos < 4 → s.web = true → s.rd (.pth .wstate) = 1 →
        ∃ t, exec (.slaveReportRx pos .stalled) s = .next t ∧ t.rd (.pth .wstate) = 2 ∧ t.rd (.pth .stopCause) = 1) ∧
      (∀ pos, 1 ≤ pos → pos < 4 → s.web = false → exec (.slaveReportRx pos .stalled) s = .next (s.wr (.csl .peersPresent) pos 1)) ∧
      (∀ pos tag c, 1 ≤ pos → pos < 4 → s.byTag tag = some c →
        ∃ t, exec (.slaveReportRx pos (.spoiled tag)) s = .next t ∧ (t.ctx c).st = .spoiled) ∧
      (∀ pos tag, 1 ≤ pos → pos < 4 → s.byTag tag = none →
        exec (.slaveReportRx pos (.spoiled tag)) s = .next (s.wr (.csl .peersPresent) pos 1)))

/-! ### Engine I/O and calibration -/

/-- WIRING_FAULT, WIRING_FAULT_END, OVERLOAD_TRIP, OVERLOAD_CLEAR and TAP_EXTEST (R416, R449, R450): a flag shows only where its check
applies; an overload latches a class O output off until it is cleared; EXTEST drives the pins while J25 is unlocked.

Where the manual leaves a clause open, it is the model's choice: log entry 125. -/
def Obligations.PinsAreChecked : Prop :=
  ∀ (s : State) (n : Nat), n < 256 → s.up .mot = true →
    (∀ f, s.pinChecked n = true → s.flagApplies n f = true → exec (.wiringFault n f) s = .next (s.wr (.eio (flagField f)) n 1)) ∧
    (∀ f, s.pinChecked n = false ∨ s.flagApplies n f = false → exec (.wiringFault n f) s = .next s) ∧
    (∀ f, exec (.wiringFaultEnd n f) s = .next (s.wr (.eio (flagField f)) n 0)) ∧
    (s.pinChecked n = true → pinClass n = 4 → s.on (.eio .overload) n = false →
      exec (.overloadTrip n) s = .next ((s.wr (.eio .overload) n 1).emit (.pin (eioOut n) false))) ∧
    (s.on (.eio .overload) n = true ∨ s.pinChecked n = false ∨ pinClass n ≠ 4 → exec (.overloadTrip n) s = .next s) ∧
    (∀ v : Word, s.Reaches .eio 0 →
      (v.toNat / 32 % 2 = 1 → exec (.overloadClear n v) s = .next (s.wr (.eio .overload) n 0)) ∧
      (v.toNat / 32 % 2 = 0 → exec (.overloadClear n v) s = .next s)) ∧
    (∀ b, (s.fuses.testLocked = true → exec (.tapExtest b) s = .next s) ∧
      (s.fuses.testLocked = false → ∃ t, exec (.tapExtest b) s = .next t ∧ t.eio.boundary = b ∧ t.regs = s.regs))

/-- CAL_STEP_DONE (R363, R364): the steps of power-up calibration follow each other, eight stations in step 8; a failed step sets PU_BAD, a
failed station does not.

MAYFLY_SWEEP, MAYFLY_REQUEST and MAYFLY_CONVERSION_DONE (R367 to R369): the lowest pending sensor is converted; a count outside the
living range makes it DEAD at 2,000 with RISE_EV. -/
def Obligations.CalibrationSteps : Prop :=
  (∀ (s : State) (ok : Bool) (u : Nat) (temps : List Int), s.up .ctl = true →
    (s.rd (.cal .puStep) = 0 → exec (.calStepDone ok u temps) s = .next s) ∧
    (s.rd (.cal .puStep) = 1 → ∃ t, exec (.calStepDone ok u temps) s = .next t ∧ t.rd (.cal .puStep) = 2) ∧
    (2 ≤ s.rd (.cal .puStep) → s.rd (.cal .puStep) ≤ 7 → ∃ t, exec (.calStepDone ok u temps) s = .next t ∧
      t.rd (.cal .puStep) = s.rd (.cal .puStep) + 1 ∧
      (ok = false → t.rd (.cal .puBad) = 1 ∧ t.rd (.cal .calFail) = 1 ∧ t.rd (.cal .failStep) = s.rd (.cal .puStep)) ∧
      (ok = true → t.rd (.cal .puBad) = s.rd (.cal .puBad))) ∧
    (s.rd (.cal .puStep) = 8 → s.cal.station < 7 → ∃ t, exec (.calStepDone ok u temps) s = .next t ∧
      t.cal.station = s.cal.station + 1) ∧
    (s.rd (.cal .puStep) = 8 → 7 ≤ s.cal.station → ∃ t, exec (.calStepDone ok u temps) s = .next t ∧ t.rd (.cal .puStep) = 9) ∧
    (s.rd (.cal .puStep) = 9 → ∃ t, exec (.calStepDone ok u temps) s = .next t ∧ t.rd (.cal .puStep) = 0 ∧ t.rd (.cal .puDone) = 1 ∧
      (ok = false → t.rd (.cal .puBad) = 1))) ∧
  (∀ s : State, s.up .ctl = true →
    (s.on (.cal .sweepEn) = true → ∃ t, exec .mayflySweep s = .next t ∧ ∀ i, i < 16 → t.rd (.cal .mbusy) i = 1) ∧
    (s.on (.cal .sweepEn) = false → exec .mayflySweep s = .next s) ∧
    (∀ v : Word, s.Reaches .cal 0 → ∃ t, exec (.mayflyRequest v) s = .next t ∧
      ∀ i, i < 16 → t.on (.cal .mbusy) i = (s.on (.cal .mbusy) i || v.getLsbD i)) ∧
    (∀ i x, ((List.range 16).find? fun j => s.on (.cal .mbusy) j) = some i → s.on (.cal .dead) i = true →
      ∃ t, exec (.mayflyConversionDone x) s = .next t ∧ t.rd (.cal .mbusy) i = 0 ∧ t.rd (.cal .temp) i = s.rd (.cal .temp) i) ∧
    (∀ i, ((List.range 16).find? fun j => s.on (.cal .mbusy) j) = some i → s.on (.cal .dead) i = false →
      (∃ t, exec (.mayflyConversionDone none) s = .next t ∧ t.rd (.cal .mbusy) i = 0 ∧ t.rdS (.cal .temp) i = 2000 ∧
        t.rd (.cal .dead) i = 1 ∧ t.rd (.cal .riseEv) i = 1) ∧
      (∀ x : Int, -550 ≤ x → x ≤ 1500 → ∃ t, exec (.mayflyConversionDone (some x)) s = .next t ∧ t.rd (.cal .mbusy) i = 0 ∧
        t.rdS (.cal .temp) i = x ∧ t.rd (.cal .dead) i = 0)) ∧
    ((∀ i, i < 16 → s.on (.cal .mbusy) i = false) → ∀ x, exec (.mayflyConversionDone x) s = .next s))

/-- RECAL, RECAL_START, RECAL_DONE, SNAP and RESTORE (R364, R372 to R374): a busy station's recalibration waits; a measurement that passes
clears NEED; a snapshot is restored only with its firmware version and its CRC.

Where the manual leaves a clause open, it is the model's choice: log entries 32 and 127. -/
def Obligations.StationsRecalibrate : Prop :=
  ∀ s : State, s.up .ctl = true →
    (∀ (v : Word) k, calOp v = 1 → calStation v = k → s.Reaches .cal 0 →
      (s.recalRefused k = true → exec (.recal v) s = .next (s.wr (.cal .cmdErr) 0 1)) ∧
      (s.recalRefused k = false → s.busy k = true → exec (.recal v) s = .next (s.wr (.cal .pend) k 1)) ∧
      (s.recalRefused k = false → s.busy k = false → ∃ t, exec (.recal v) s = .next t ∧ t.rd (.cal .busy) k = 1 ∧
        t.rd (.cal .pend) k = 0 ∧ (t.stn k).recal = true)) ∧
    (∀ k, k < s.hw.stations → k < 8 →
      (s.on (.cal .pend) k = true → s.busy k = false → ∃ t, exec (.recalStart k) s = .next t ∧ t.rd (.cal .busy) k = 1 ∧
        t.rd (.cal .pend) k = 0 ∧ (t.stn k).recal = true) ∧
      (s.on (.cal .pend) k = false ∨ s.busy k = true → exec (.recalStart k) s = .next s) ∧
      (s.on (.cal .busy) k = true → ∀ ok, ∃ t, exec (.recalDone k ok) s = .next t ∧ t.rd (.cal .busy) k = 0 ∧ (t.stn k).recal = false ∧
        (ok = true → t.rd (.cal .need) k = 0 ∧ k ∉ t.cal.bad) ∧
        (ok = false → t.rd (.cal .calFail) = 1 ∧ t.rd (.cal .failStep) = 8 ∧ t.rd (.cal .failUnit) = k ∧ k ∈ t.cal.bad)) ∧
      (s.on (.cal .busy) k = false → ∀ ok, exec (.recalDone k ok) s = .next s)) ∧
    (∀ v : Word, calOp v = 2 → s.Reaches .cal 0 → ∃ t, exec (.snap v) s = .next t ∧
      ∀ i, i < 512 → t.rd (.cal .snapshot) i = s.results.getD i 0 % 2 ^ 32) ∧
    (∀ v : Word, calOp v = 3 → s.Reaches .cal 0 →
      (s.restoreOk = false → exec (.restore v) s = .next (s.wr (.cal .cmdErr) 0 1)) ∧
      (s.restoreOk = true → ∃ t, exec (.restore v) s = .next t ∧ t.rd (.cal .restored) = 1))

/-! ### Faults and guards -/

/-- FAULT_REPORT_WORD and REPORTER_TIMEOUT (R345, R346, R352, R353): a word tells which of its reporter's sources are active, and leaves those
of the others; every source of a silent reporter counts as active; source 50 tells of a bad reporter. An island in reset or isolated does
not report.

The one active source opens a record, in REACTING with its severity, or in host-assisted mode in AWAIT with the severity at which it is
held.

Where the manual leaves a clause open, it is the model's choice: log entries 36, 37, 38 and 149. -/
def Obligations.SourcesBecomeActive : Prop :=
  ∀ (s : State) (r : Nat), r < 16 → r ≠ 7 → s.up .ctl = true →
    (s.reports r = false → exec (.reporterTimeout r) s = .next s ∧ ∀ word, exec (.faultReportWord r word) s = .next s) ∧
    (s.reports r = true →
      (∀ word : List (Nat × Rails), ∃ t, exec (.faultReportWord r word) s = .next t ∧
        (∀ n, n ∈ s.sourceList → reporterOf n = r → n ≠ 50 →
          (n ∈ t.flt.active ↔ (match word.find? fun e => e.1 == n with
            | some e => e.2 ≠ .r01
            | none => (s.sourceNow n).1 = true))) ∧
        (∀ n, n ∈ s.sourceList → reporterOf n ≠ r → n ≠ 50 → (n ∈ t.flt.active ↔ n ∈ s.flt.active)) ∧
        (50 ∈ t.flt.active ↔ t.flt.badReporters ≠ [])) ∧
      (∃ t, exec (.reporterTimeout r) s = .next t ∧ r ∈ t.flt.badReporters ∧ 50 ∈ t.flt.active ∧
        ∀ n, n ∈ s.sourceList → reporterOf n = r → n ≠ 50 → n ∈ t.flt.active) ∧
      (∀ n k, n ∈ s.sourceList → reporterOf n = r → n ≠ 50 → s.flt.active = [] → s.flt.badReporters = [] → s.curRec = none →
        s.freeRec = some k → (∀ m ∈ s.sourceList, reporterOf m = r → m ≠ n → (s.sourceNow m).1 = false) → s.srcSev n ≠ 0 →
        ∃ t, exec (.faultReportWord r [(n, .r10)]) s = .next t ∧ t.flt.active = [n] ∧ (t.fltRec k).first = n ∧ (t.fltRec k).cnt = 1 ∧
          (t.fltRec k).srcs = [n] ∧ (t.fltRec k).tFirst = s.etime ∧
          (s.srcHost n = false → (t.fltRec k).st = 1 ∧ (t.fltRec k).sev = s.srcSev n) ∧
          (s.srcHost n = true → (t.fltRec k).st = 2 ∧ (t.fltRec k).sev = heldSev n ∧ t.decisionOpen 5 k = true)))

/-- REACTION_COMPLETE, FLT_CLEAR and FLT_ANSWER (R353, R355, R356): a record whose reaction is complete is queued; only a COMPLETE record
without an active source is cleared; an answer is raised to the floor of its sources, and for the service core alone held to its range.

Where the manual leaves a clause open, it is the model's choice: log entries 39, 40 and 149. -/
def Obligations.RecordsRunTheirCourse : Prop :=
  ∀ (s : State) (r : Nat), r < 32 → s.up .ctl = true →
    ((s.fltRec r).st = 1 → s.reactOn.reactDone (s.fltRec r).sev = true →
      ∃ t, exec (.reactionComplete r) s = .next t ∧ t.fltRec r = { s.fltRec r with st := 3, tDone := s.etime } ∧
        (s.flt.queue.length < 64 → t.flt.queue = s.flt.queue ++ [{ s.fltRec r with st := 3, tDone := s.etime }]) ∧
        (64 ≤ s.flt.queue.length → t.flt.queue = s.flt.queue ∧ t.rd (.flt .queueLost) = 1)) ∧
    ((s.fltRec r).st ≠ 1 ∨ s.reactOn.reactDone (s.fltRec r).sev = false → exec (.reactionComplete r) s = .next s.reactOn) ∧
    (∀ v : Word, v.toNat % 32 = r → s.Reaches .flt 0 →
      ((s.fltRec r).st = 3 → (∀ n ∈ (s.fltRec r).srcs, n ∉ s.flt.active) →
        ∃ t, exec (.fltClear v) s = .next t ∧ (t.fltRec r).st = 0) ∧
      ((s.fltRec r).st ≠ 3 ∨ (∃ n ∈ (s.fltRec r).srcs, n ∈ s.flt.active) →
        exec (.fltClear v) s = .next (s.wr (.flt .clrRefused) 0 1)) ∧
      ((s.fltRec r).st ≠ 2 → exec (.fltAnswer v) s = .next (s.wr (.flt .ansRefused) 0 1)) ∧
      (∀ a, (s.fltRec r).st = 2 →
        a = max (min (bitField v.toNat 8 3) (listMax (((s.fltRec r).srcs.filter s.srcHost).map fun n => (srcRow n).hi)))
          (listMax ((s.fltRec r).srcs.map fun n => if s.srcHost n then (srcRow n).lo else s.srcSev n)) →
        ∃ t, exec (.fltAnswer v) s = .next t ∧ (t.fltRec r).st = 1 ∧ (t.fltRec r).sev = a ∧ (t.fltRec r).answered = true ∧
          (t.fltRec r).clamped = decide (bitField v.toNat 8 3 < a) ∧ t.decisionOpen 5 r = false))

/-- ISOLATE, RETURN, UNIT_RESET_RELEASE and UNIT_CHECK_DONE (R358, R359, R408, R410): a unit is isolated only with EXPERT; a return resets it
and ends no isolation; it comes back only after its own check has passed, and with a page active only at a boundary.

Where the manual leaves a clause open, it is the model's choice: log entries 90, 96, 114 and 117. -/
def Obligations.UnitsLeaveAndReturn : Prop :=
  ∀ s : State, s.up .ctl = true →
    (∀ (v : Word) u, bitField v.toNat 16 2 = 1 → unitOf v = some u → s.Reaches .flt 0 →
      (s.on (.glb .expert) = false ∨ s.hw.hasUnit u = false → exec (.isolate v) s = .next (s.wr (.flt .unitRefused) 0 1)) ∧
      (s.on (.glb .expert) = true → s.hw.hasUnit u = true → s.flt.isolated.contains u = true →
        exec (.isolate v) s = .next { s with flt := { s.flt with retpend := s.flt.retpend.erase u } }) ∧
      (s.on (.glb .expert) = true → s.hw.hasUnit u = true → s.flt.isolated.contains u = false →
        ∃ t, exec (.isolate v) s = .next t ∧ u ∈ t.flt.isolated ∧ (∀ n, u = .engine n → n ∈ t.cmp.rejoin) ∧
          (∀ k, u = .axis k → k ∈ t.pth.axesOut))) ∧
    (∀ v : Word, bitField v.toNat 16 2 = 1 → unitOf v = none → s.Reaches .flt 0 → exec (.isolate v) s = .next s) ∧
    (∀ (v : Word) u, bitField v.toNat 16 2 = 2 → unitOf v = some u → s.Reaches .flt 0 →
      (s.flt.isolated.contains u = false ∨ s.unitBlamed u = true →
        exec (.returnUnit v) s = .next (s.wr (.flt .unitRefused) 0 1)) ∧
      (s.flt.isolated.contains u = true → s.unitBlamed u = false →
        ∃ t, exec (.returnUnit v) s = .next t ∧ u ∈ t.flt.resetting ∧ u ∈ t.flt.isolated ∧ 11 ∈ t.rst.asserted ∧
          t.inReset = s.inReset ∧ (∀ k, u = .axis k → t.axis k = {}) ∧ (∀ n, u = .slot n → t.slot n = {}))) ∧
    (∀ v : Word, bitField v.toNat 16 2 = 2 → unitOf v = none → s.Reaches .flt 0 → exec (.returnUnit v) s = .next s) ∧
    (∀ u, unitOk u = true →
      (s.flt.resetting.contains u = false → exec (.unitResetRelease u) s = .next s) ∧
      (s.flt.resetting.contains u = true → ∃ t, exec (.unitResetRelease u) s = .next t ∧
        (∀ n, u = .engine n → u ∈ t.flt.checking) ∧ (∀ k, u = .station k → u ∈ t.flt.checking) ∧
        (∀ k, u = .axis k → s.pageActive = true → u ∈ t.flt.retpend) ∧
        (∀ k, u = .axis k → s.pageActive = false → t.flt.isolated = s.flt.isolated.erase u)) ∧
      (s.flt.checking.contains u = false → ∀ ok, exec (.unitCheckDone u ok) s = .next s) ∧
      (s.flt.checking.contains u = true →
        (∀ n, u = .engine n → exec (.unitCheckDone u false) s =
          .next (({ s with flt := { s.flt with checking := s.flt.checking.erase u } } : State).wr (.cmp .errEv) n 1)) ∧
        (∀ n, u = .engine n → s.pageActive = true → exec (.unitCheckDone u true) s =
          .next { s with flt := { s.flt with
            checking := s.flt.checking.erase u, retpend := s.flt.retpend.erase u ++ [u] } }) ∧
        (∀ n, u = .engine n → s.pageActive = false → ∃ t, exec (.unitCheckDone u true) s = .next t ∧
          t.flt.isolated = s.flt.isolated.erase u ∧ t.cmp.rejoin = s.cmp.rejoin.erase n) ∧
        (∀ k ok, u = .station k → s.pageActive = true → ∃ t, exec (.unitCheckDone u ok) s = .next t ∧
          t.flt.isolated = s.flt.isolated ∧ (ok = true → u ∈ t.flt.retpend))))

/-- HANDSHAKE_WATCHDOG_EXPIRY, PAIR_MISMATCH, PAIR_WATCHDOG_EXPIRY, SERVICE_CORE_FAULT and HEARTBEAT_EXPIRY (R14, R18 to R21, R351): a silent
island is isolated, a silent control island is reset; a mismatch and a watchdog each halt a core pair.

Where the manual leaves a clause open, it is the model's choice: log entries 72, 96 and 118. -/
def Obligations.GuardsAct : Prop :=
  ∀ s : State,
    (∀ i, islandOk s.hw i = true → i ≠ .ctl → s.inReset.contains (islandDom i) = false → s.isolated.contains i = false →
      ∃ t, exec (.handshakeWatchdogExpiry i) s = .next t ∧ t.isolated.head? = some i) ∧
    (s.inReset.contains .ctl = false → s.isolated.contains .ctl = false →
      ∃ t, exec (.handshakeWatchdogExpiry .ctl) s = .next t ∧ t.up .ctl = false) ∧
    (∀ i, islandOk s.hw i = true → s.inReset.contains (islandDom i) = true ∨ s.isolated.contains i = true →
      exec (.handshakeWatchdogExpiry i) s = .next s) ∧
    (s.up .seq = true →
      exec (.pairMismatch .a) s = .next { s with cores := { s.cores with haltedA := true } } ∧
      exec (.pairMismatch .b) s = .next { s with cores := { s.cores with haltedB := true } } ∧
      exec (.pairWatchdogExpiry .a) s = .next { s with cores := { s.cores with haltedA := true } } ∧
      exec (.pairWatchdogExpiry .b) s = .next { s with cores := { s.cores with haltedB := true } } ∧
      exec .serviceCoreFault s = .next { s with cores := { s.cores with service := true } } ∧
      (s.engineArmed = true → exec .heartbeatExpiry s = .next { s with cores := { s.cores with heartbeat := true } }) ∧
      (s.engineArmed = false → exec .heartbeatExpiry s = .next s))

/-! ### Power -/

/-- VIN_QUALIFIED, PWR_ON_CHANGE, RAIL_QUALIFIED, RAIL_TIMEOUT, RAIL_FALLEN and FALL_LATE_TIMEOUT (R378, R381 to R388): the rails rise in their
order and fall in reverse; a rail that does not qualify is a sequencing fault; a latched on request starts the sequence again from OFF, and a
cold reset takes AON when the last rail has fallen.

Where the manual leaves a clause open, it is the model's choice: log entries 92 and 95. -/
def Obligations.RailsFollowTheirOrder : Prop :=
  ∀ s : State,
    (s.istate = 0 → s.on (.pwr .pwrOn) = true → ∃ t, exec .vinQualified s = .next t ∧ t.istate = 1 ∧ t.rd (.pwr .irail) = 9) ∧
    (s.istate ≠ 0 ∨ s.on (.pwr .pwrOn) = false →
      exec .vinQualified s = .next { s with pwr := { s.pwr with vinOk := true, fault := false } }) ∧
    (s.istate = 0 → s.pwr.vinOk = true → ∃ t, exec (.pwrOnChange true) s = .next t ∧ t.istate = 1 ∧ t.rd (.pwr .irail) = 9 ∧
      t.rd (.pwr .pwrOn) = 1) ∧
    (s.istate = 3 ∨ s.istate = 4 → ∃ t, exec (.pwrOnChange true) s = .next t ∧ t.pwr.onLatch = true ∧ t.rd (.pwr .onLatch) = 1 ∧
      t.istate = s.istate) ∧
    (s.istate = 1 → ∃ t, exec (.pwrOnChange false) s = .next t ∧ t.istate = 4 ∧ t.loam = {}) ∧
    (s.istate = 2 → ∃ t, exec (.pwrOnChange false) s = .next t ∧ t.istate = 3 ∧ (s.ldr.st = .armed → t.ldr.st = .disarming) ∧
      t.on (.pwr .offPend) = s.engineArmed) ∧
    (∀ n, n ∈ railOrder → s.istate = 1 → s.rd (.pwr .irail) = n →
      (∃ t, exec (.railQualified (.rail n)) s = .next t ∧ n ∈ t.pwr.qualified ∧
        (∀ m, nextRail n = some m → t.rd (.pwr .irail) = m) ∧ (nextRail n = none → t.istate = 2)) ∧
      ∃ t, exec (.railTimeout (.rail n)) s = .next t ∧ t.istate = 4 ∧ t.pwr.fault = true ∧ t.loam = {} ∧ t.pwr.logDone = true ∧
        t.rd (.pwr .rcnt) n = satInc (Fld.pwr .rcnt).row.width (s.rd (.pwr .rcnt) n)) ∧
    (∀ n, n ∈ railOrder → s.istate = 4 → s.rd (.pwr .irail) = n →
      (∀ m, prevRail n = some m → ∃ t, exec (.railFallen (.rail n)) s = .next t ∧ t.rd (.pwr .irail) = m ∧
        t.pwr.qualified = s.pwr.qualified.erase m) ∧
      (prevRail n = none →
        (s.pwr.cold = false → s.pwr.onLatch = false → ∃ t, exec (.railFallen (.rail n)) s = .next t ∧ t.istate = 0) ∧
        (s.pwr.cold = false → s.pwr.onLatch = true → s.pwr.vinOk = true → s.on (.pwr .pwrOn) = true → s.pwr.fault = false →
          ∃ t, exec (.railFallen (.rail n)) s = .next t ∧ t.istate = 1 ∧ t.rd (.pwr .irail) = 9 ∧ t.pwr.onLatch = false) ∧
        (s.pwr.cold = true → ∃ t, exec (.railFallen (.rail n)) s = .next t ∧ t.pwr.cold = false ∧ t.etime = 0 ∧ t.fram = s.fram)) ∧
      ∃ t, exec (.fallLateTimeout (.rail n)) s = .next t ∧ t.rd (.pwr .fallLate) = 1 ∧ t.pwr.logDone = true) ∧
    (∀ n, n ∈ railOrder →
      (s.istate ≠ 1 ∨ s.rd (.pwr .irail) ≠ n → exec (.railQualified (.rail n)) s = .next s ∧ exec (.railTimeout (.rail n)) s = .next s) ∧
      (s.istate ≠ 4 ∨ s.rd (.pwr .irail) ≠ n →
        exec (.railFallen (.rail n)) s = .next s ∧ exec (.fallLateTimeout (.rail n)) s = .next s))

/-- EXT_STEP_ENABLE, RAIL_QUALIFIED, RAIL_TIMEOUT and RAIL_FALLEN of an external step, EXT_ON, EXT_OFF and STEP (R383 to R388, R394): the steps rise
one by one, in host-assisted mode each on a command, and fall in reverse; an EXT_ON that was latched starts them again.

Where the manual leaves a clause open, it is the model's choice: log entries 93 and 152. -/
def Obligations.ExternalStepsFollowTheirOrder : Prop :=
  ∀ (s : State) (i : Nat), s.rd (.pwr .estep) = i →
    (s.estate = 2 → s.pwr.raised = i → i < s.rd (.pwr .nsteps) →
      (s.on (.pwr .mode) = false → ∃ t, exec .extStepEnable s = .next t ∧ t.pwr.raised = i + 1 ∧ t.estate = 2) ∧
      (s.on (.pwr .mode) = true → ∃ t, exec .extStepEnable s = .next t ∧ t.estate = 3 ∧ t.decisionOpen 9 i = true ∧
        t.pwr.raised = i)) ∧
    (s.estate ≠ 2 ∨ s.pwr.raised ≠ i ∨ s.rd (.pwr .nsteps) ≤ i → exec .extStepEnable s = .next s) ∧
    (s.estate = 2 → s.pwr.raised = i + 1 →
      (i + 1 < s.rd (.pwr .nsteps) → ∃ t, exec (.railQualified .extStep) s = .next t ∧ t.rd (.pwr .estep) = i + 1 ∧ t.estate = 2) ∧
      (s.rd (.pwr .nsteps) ≤ i + 1 → ∃ t, exec (.railQualified .extStep) s = .next t ∧ t.estate = 4) ∧
      ∃ t, exec (.railTimeout .extStep) s = .next t ∧ t.estate = 5 ∧ t.pwr.raised = i ∧ t.rd (.pwr .seqFault) = 1 ∧
        t.pwr.logDone = true) ∧
    (s.estate ≠ 2 ∨ s.pwr.raised ≠ i + 1 →
      exec (.railQualified .extStep) s = .next s ∧ exec (.railTimeout .extStep) s = .next s) ∧
    (s.estate = 5 →
      (∀ n, s.pwr.raised = n + 1 → n < 8 → ∃ t, exec (.railFallen .extStep) s = .next t ∧ t.pwr.raised = n ∧ t.rd (.pwr .estep) = n ∧
        t.estate = 5) ∧
      (s.pwr.raised = 0 → s.istate = 3 → ∃ t, exec (.railFallen .extStep) s = .next t ∧ t.estate = 0 ∧
        (s.on (.pwr .offPend) = false → t.pwr.copying = true)) ∧
      (s.pwr.raised = 0 → s.istate = 2 → s.pwr.extLatch = false → ∃ t, exec (.railFallen .extStep) s = .next t ∧ t.estate = 0) ∧
      (s.pwr.raised = 0 → s.istate = 2 → s.pwr.extLatch = true → s.ldr.st ≠ .applying → s.cslRole ≠ 2 →
        ∃ t, exec (.railFallen .extStep) s = .next t ∧ t.estate = (if s.rd (.pwr .nsteps) = 0 then 4 else 2) ∧ t.pwr.extLatch = false) ∧
      ∃ t, exec (.fallLateTimeout .extStep) s = .next t ∧ t.rd (.pwr .fallLate) = 1 ∧ t.pwr.logDone = true) ∧
    (s.estate ≠ 5 → exec (.railFallen .extStep) s = .next s ∧ exec (.fallLateTimeout .extStep) s = .next s) ∧
    (∀ v : Word, s.Reaches .pwr 0 →
      (pwrOp v = 2 →
        (s.estate = 5 → ∃ t, exec (.extOn v) s = .next t ∧ t.pwr.extLatch = true ∧ t.rd (.pwr .onLatch) = 1 ∧ t.estate = 5) ∧
        (s.estate = 0 → s.istate = 2 → s.rd (.pwr .nsteps) = 0 → ∃ t, exec (.extOn v) s = .next t ∧ t.estate = 4) ∧
        (s.estate = 0 → s.istate = 2 → s.rd (.pwr .nsteps) ≠ 0 → ∃ t, exec (.extOn v) s = .next t ∧ t.rd (.pwr .estep) = 0 ∧
          t.pwr.raised = 0 ∧
          t.estate = (if s.cslRole = 2 ∧ s.on (.csl .pwrWait) = true ∧ s.on (.csl .powerGoSeen) = false then 1 else 2)) ∧
        (s.estate ≠ 5 → s.estate ≠ 0 ∨ s.istate ≠ 2 → exec (.extOn v) s = .next (s.wr (.pwr .cmdErr) 0 1))) ∧
      (pwrOp v = 3 →
        (s.ldr.st = .armed ∨ s.estate = 0 ∨ s.estate = 5 → exec (.extOff v) s = .next (s.wr (.pwr .cmdErr) 0 1)) ∧
        (∀ n, s.ldr.st ≠ .armed → s.estate ≠ 0 → s.estate ≠ 5 → s.pwr.raised = n + 1 → n < 8 →
          ∃ t, exec (.extOff v) s = .next t ∧ t.estate = 5 ∧ t.pwr.raised = n) ∧
        (s.ldr.st ≠ .armed → s.estate ≠ 0 → s.estate ≠ 5 → s.pwr.raised = 0 → s.pwr.extLatch = false →
          ∃ t, exec (.extOff v) s = .next t ∧ t.estate = 0)) ∧
      (pwrOp v = 4 →
        (s.estate = 3 → ∃ t, exec (.step v) s = .next t ∧ t.estate = 2 ∧ t.pwr.raised = i + 1 ∧ t.decisionOpen 9 i = false) ∧
        (s.estate ≠ 3 → exec (.step v) s = .next (s.wr (.pwr .cmdErr) 0 1))))

/-- PWR_OFF, OFF_WAIT_TIMEOUT, COUNTER_COPY_DONE, SUPPLY_FAULT, INPUT_COLLAPSE, LOG_COMMIT and RAIL_WINDOW_CHANGE (R385, R388 to R392): an orderly off
waits for the engine to disarm; a supply fault and an input collapse do not wait.

Where the manual leaves a clause open, it is the model's choice: log entries 3, 92, 93 and 124. -/
def Obligations.PowerIsLost : Prop :=
  ∀ s : State,
    (∀ v : Word, pwrOp v = 1 → s.Reaches .pwr 0 →
      (v.toNat / 65536 ≠ 0x5D0F → exec (.pwrOff v) s = .next s) ∧
      (v.toNat / 65536 = 0x5D0F → s.istate ≠ 2 → exec (.pwrOff v) s = .next (s.wr (.pwr .cmdErr) 0 1)) ∧
      (v.toNat / 65536 = 0x5D0F → s.istate = 2 → ∃ t, exec (.pwrOff v) s = .next t ∧ t.istate = 3 ∧
        (s.ldr.st = .armed → t.ldr.st = .disarming) ∧ t.on (.pwr .offPend) = s.engineArmed)) ∧
    (s.on (.pwr .offPend) = false → exec .offWaitTimeout s = .next s) ∧
    (s.on (.pwr .offPend) = true →
      (s.estate = 0 → s.istate = 3 → ∃ t, exec .offWaitTimeout s = .next t ∧ t.rd (.pwr .offPend) = 0 ∧ t.pwr.copying = true) ∧
      (s.estate = 5 → exec .offWaitTimeout s = .next (s.wr (.pwr .offPend) 0 0)) ∧
      (∀ n, s.estate ≠ 0 → s.estate ≠ 5 → s.pwr.raised = n + 1 → n < 8 → ∃ t, exec .offWaitTimeout s = .next t ∧
        t.rd (.pwr .offPend) = 0 ∧ t.estate = 5 ∧ t.pwr.raised = n)) ∧
    (s.pwr.copying = false → exec .counterCopyDone s = .next s) ∧
    (s.pwr.copying = true → ∃ t, exec .counterCopyDone s = .next t ∧ t.loam = {} ∧ t.istate = 4 ∧ t.pwr.copying = false ∧
      t.fram.counters = (List.range 28).map fun n => s.rd (.pwr .rcnt) n) ∧
    (∀ r, r ∈ railOrder →
      (s.pwr.qualified.contains r = false → exec (.supplyFault r) s = .next s) ∧
      (s.pwr.qualified.contains r = true → s.istate = 1 ∨ s.istate = 2 →
        ∃ t, exec (.supplyFault r) s = .next t ∧ t.loam = {} ∧ t.istate = 4 ∧ t.pwr.fault = true ∧ t.pwr.logDone = true) ∧
      (s.pwr.qualified.contains r = true → s.istate ≠ 1 → s.istate ≠ 2 →
        ∃ t, exec (.supplyFault r) s = .next t ∧ t.pwr.logDone = true ∧ t.regs = s.regs)) ∧
    (∀ mv, (s.istate = 0 → exec (.inputCollapse mv) s = .next { s with pwr := { s.pwr with vinOk := false } }) ∧
      (s.istate ≠ 0 → ∃ t, exec (.inputCollapse mv) s = .next t ∧ t.rd (.pwr .irail) = 9 ∧ t.istate = 4 ∧ t.estate = 0 ∧
        t.pwr.vinOk = false ∧ t.loam = {})) ∧
    (s.pwr.log = none → ∀ c, exec (.logCommit c) s = .next s) ∧
    (∀ n bytes, s.pwr.log = some (n, bytes) →
      exec (.logCommit false) s = .next { s with pwr := { s.pwr with log := none } } ∧
      ∃ t, exec (.logCommit true) s = .next t ∧ t.pwr.log = none ∧
        (if n = 0 then t.fram.log0 else t.fram.log1) = { bytes := bytes, torn := false } ∧
        (if n = 0 then t.fram.log1 = s.fram.log1 else t.fram.log0 = s.fram.log0)) ∧
    (∀ r good, r < 12 → ∃ t, exec (.railWindowChange (.rail r) good) s = .next t ∧ t.bitOn (.pwr .railOk) r = good ∧
      t.rd (.pwr .rcnt) r = (if s.pwr.qualified.contains r = true ∧ s.bitOn (.pwr .railOk) r = true ∧ good = false then
        satInc (Fld.pwr .rcnt).row.width (s.rd (.pwr .rcnt) r) else s.rd (.pwr .rcnt) r)) ∧
    (∀ m good, m < 16 → ∃ t, exec (.railWindowChange (.monitor m) good) s = .next t ∧ t.bitOn (.pwr .monOk) m = good ∧
      t.rd (.pwr .rcnt) (12 + m) = (if s.pwr.monitors.contains m = true ∧ s.bitOn (.pwr .monOk) m = true ∧ good = false then
        satInc (Fld.pwr .rcnt).row.width (s.rd (.pwr .rcnt) (12 + m)) else s.rd (.pwr .rcnt) (12 + m)))

/-! ### Resets -/

/-- RESET_SOURCE_ASSERT, RESET_SOURCE_DEASSERT, DOMAIN_RELEASE, REFERENCE_LOSS and REFERENCE_RESTORED (R398, R401 to R405): a source of reach 1
resets its own domain, one of reach 2 every domain; a domain is released only while no source is asserted and the reference is there; one of
reach 3 takes the power down without the wait for the engine.

Where the manual leaves a clause open, it is the model's choice: log entries 14 and 97. -/
def Obligations.ResetsHoldAndRelease : Prop :=
  ∀ s : State,
    (∀ src, src < 12 → s.sourceCan src = false → exec (.resetSourceAssert src) s = .next s) ∧
    (∀ src, 1 ≤ src → src < 12 → s.sourceCan src = true →
      (s.effReach src = 1 → ∃ t, exec (.resetSourceAssert src) s = .next t ∧ t.up (s.namedDom src) = false) ∧
      (s.effReach src = 2 → ∃ t, exec (.resetSourceAssert src) s = .next t ∧ t.up .vid = false) ∧
      (s.effReach src = 0 → ∃ t, exec (.resetSourceAssert src) s = .next t ∧ src ∈ t.rst.asserted ∧ t.inReset = s.inReset) ∧
      (s.effReach src = 3 →
        (s.istate = 0 → ∃ t, exec (.resetSourceAssert src) s = .next t ∧ t.pwr.cold = false ∧ t.etime = 0) ∧
        (s.istate = 1 → ∃ t, exec (.resetSourceAssert src) s = .next t ∧ t.istate = 4 ∧ t.pwr.cold = true) ∧
        (s.istate = 2 → ∃ t, exec (.resetSourceAssert src) s = .next t ∧ t.istate = 3 ∧ t.pwr.cold = true ∧ t.pwr.onLatch = true ∧
          t.rd (.pwr .offPend) = 0) ∧
        (s.istate = 3 ∨ s.istate = 4 → ∃ t, exec (.resetSourceAssert src) s = .next t ∧ t.istate = s.istate ∧ t.pwr.cold = true ∧
          t.pwr.onLatch = true))) ∧
    (∃ t, exec (.resetSourceAssert 0) s = .next t ∧ t.hw = s.hw ∧ t.fuses = s.fuses ∧ t.etime = 0 ∧ t.loam = {} ∧ t.fram = s.fram ∧
      t.ldr.flash0 = s.ldr.flash0 ∧ t.ldr.flash1 = s.ldr.flash1) ∧
    (∀ src, src < 12 → s.sourceMayEnd src = false ∨ s.rst.asserted.contains src = false →
      exec (.resetSourceDeassert src) s = .next s) ∧
    (∀ src, src < 12 → s.sourceMayEnd src = true → s.rst.asserted.contains src = true → ∃ t,
      exec (.resetSourceDeassert src) s = .next t ∧ t.rst.asserted = s.rst.asserted.erase src ∧
        t.rst.release = (if s.rst.asserted.erase src = [] then
          mainDoms.filter fun d => s.rst.doms.contains d && s.inReset.contains d else [])) ∧
    (s.rst.release = [] → exec .domainRelease s = .next s) ∧
    (∀ d rest, s.rst.release = d :: rest →
      (s.on (.rstc .refOk) = false ∨ s.rst.asserted ≠ [] → exec .domainRelease s = .next s) ∧
      (s.on (.rstc .refOk) = true → s.rst.asserted = [] → ∃ t, exec .domainRelease s = .next t ∧
        t.inReset = s.inReset.erase d ∧ t.rst.release = rest ∧ (rest = [] → t.rst.episode = false) ∧ (d = .seq → t.etime = 0))) ∧
    exec .referenceLoss s = .next (s.wr (.rstc .refOk) 0 0) ∧
    (∃ t, exec .referenceRestored s = .next t ∧ t.rd (.rstc .refOk) = 1 ∧ t.rst.asserted = s.rst.asserted.erase 6)

/-- CMD_DOMAIN, CMD_DIE, COLD, OB_WRITE and OB_WRITE_DONE (R403, R409, R413): a command without its key changes nothing; DOMAIN and DIE are refused
while the engine is armed; an option byte write goes to the copy that is not in force.

Where the manual leaves a clause open, it is the model's choice: log entries 93 and 94. -/
def Obligations.ResetCommandsRun : Prop :=
  ∀ (s : State) (v : Word), s.Reaches .rstc 0 →
    (rstcOp v = 1 →
      (rstcKey v = false → exec (.cmdDomain v) s = .next s) ∧
      (rstcKey v = true → s.engineArmed = true ∨ bitField v.toNat 4 4 = 0 ∨ 8 < bitField v.toNat 4 4 →
        exec (.cmdDomain v) s = .next (s.wr (.rstc .cmdErr) 0 1)) ∧
      (∀ d, rstcKey v = true → s.engineArmed = false → bitField v.toNat 4 4 = d → 1 ≤ d → d ≤ 8 →
        (d ≠ 2 → ∃ t, exec (.cmdDomain v) s = .next t ∧ t.up (mainDoms.getD (d - 1) .ctl) = false) ∧
        (d = 2 → ∃ t, exec (.cmdDomain v) s = .next t ∧ t.up .vid = false))) ∧
    (rstcOp v = 2 →
      (rstcKey v = false → exec (.cmdDie v) s = .next s) ∧
      (rstcKey v = true → s.engineArmed = true → exec (.cmdDie v) s = .next (s.wr (.rstc .cmdErr) 0 1)) ∧
      (rstcKey v = true → s.engineArmed = false → ∃ t, exec (.cmdDie v) s = .next t ∧ t.up .vid = false)) ∧
    (rstcOp v = 3 →
      (rstcKey v = false → exec (.cold v) s = .next s) ∧
      (rstcKey v = true → s.istate = 1 → ∃ t, exec (.cold v) s = .next t ∧ t.istate = 4 ∧ t.pwr.cold = true ∧ t.pwr.onLatch = true ∧
        t.loam = {}) ∧
      (rstcKey v = true → s.istate = 2 → ∃ t, exec (.cold v) s = .next t ∧ t.istate = 3 ∧ t.pwr.cold = true ∧
        t.pwr.onLatch = true ∧ t.on (.pwr .offPend) = s.engineArmed) ∧
      (rstcKey v = true → s.istate = 0 ∨ s.istate = 3 ∨ s.istate = 4 → ∃ t, exec (.cold v) s = .next t ∧ t.pwr.cold = true ∧
        t.pwr.onLatch = true ∧ t.rd (.pwr .onLatch) = 1)) ∧
    (rstcOp v = 4 →
      (rstcKey v = false → exec (.obWrite v) s = .next s) ∧
      (rstcKey v = true → s.on (.rstc .obBusy) = true → exec (.obWrite v) s = .next (s.wr (.rstc .cmdErr) 0 1)) ∧
      (rstcKey v = true → s.on (.rstc .obBusy) = false → ∃ t, exec (.obWrite v) s = .next t ∧ t.rd (.rstc .obBusy) = 1 ∧
        t.rst.obWrite.map Prod.fst = some (otherSlot (obSeqno s.fram.ob0) (obSeqno s.fram.ob1)))) ∧
    (∀ n bytes, s.rst.obWrite = some (n, bytes) →
      (∃ t, exec (.obWriteDone true) s = .next t ∧ t.rd (.rstc .obBusy) = 0 ∧ t.rst.obWrite = none ∧
        (if n = 0 then t.fram.ob0 else t.fram.ob1) = bytes) ∧
      (∃ t, exec (.obWriteDone false) s = .next t ∧ t.rd (.rstc .obBusy) = 0 ∧ t.rst.obWrite = none ∧ t.rd (.rstc .obFail) = 1 ∧
        t.fram = s.fram))
end

