-- ==== Sys2Proof/Laws/Keeps.lean ====
section
/-! SUPPORT. Every operation keeps what `Keeps` says: the basic ones, by hand. A lemma `X_keeps` takes `Keeps m a s` to
`Keeps m a (X s)`, so that the lemmas chain backwards through a meaning. -/

namespace Sys2Proof.Machine

open Sys2Proof

/-! ### Sparse tables -/

theorem Store.keys_erase {κ ν : Type} [DecidableEq κ] (k : κ) (t : Store κ ν) :
    (Store.erase k t).Sublist t ∧ ∀ e ∈ Store.erase k t, e.1 ≠ k := by
  induction t with
  | nil => simp [Store.erase]
  | cons e t ih =>
    obtain ⟨k', v'⟩ := e
    simp only [Store.erase]
    split
    · exact ⟨ih.1.cons _, ih.2⟩
    · refine ⟨ih.1.cons_cons _, ?_⟩
      intro e he
      rcases List.mem_cons.1 he with rfl | he
      · assumption
      · exact ih.2 e he

theorem Store.perm_insert {κ ν : Type} (code : κ → Nat) (k : κ) (v : ν) (t : Store κ ν) :
    (Store.insert code k v t).Perm ((k, v) :: t) := by
  induction t with
  | nil => exact .refl _
  | cons e t ih =>
    obtain ⟨k', v'⟩ := e
    simp only [Store.insert]
    split
    · exact .refl _
    · exact (ih.cons _).trans (.swap _ _ _)

/-- What the entries of a table are after one is set. -/
theorem Store.mem_set {κ ν : Type} [DecidableEq κ] [DecidableEq ν] {code : κ → Nat} {d : ν} {k : κ} {v : ν}
    {t : Store κ ν} {e : κ × ν} (h : e ∈ Store.set code d k v t) : (e = (k, v) ∧ v ≠ d) ∨ e ∈ t := by
  unfold Store.set at h
  split at h
  · exact .inr ((Store.keys_erase k t).1.subset h)
  · rcases List.mem_cons.1 ((Store.perm_insert code k v _).subset h) with h | h
    · exact .inl ⟨h, by assumption⟩
    · exact .inr ((Store.keys_erase k t).1.subset h)

theorem Store.nodup_set {κ ν : Type} [DecidableEq κ] [DecidableEq ν] {code : κ → Nat} {d : ν} {k : κ} {v : ν}
    {t : Store κ ν} (h : (t.map Prod.fst).Nodup) : ((Store.set code d k v t).map Prod.fst).Nodup := by
  have he := Store.keys_erase k t
  have hn : ((Store.erase k t).map Prod.fst).Nodup := h.sublist (he.1.map _)
  unfold Store.set
  split
  · exact hn
  · refine ((Store.perm_insert code k v _).map Prod.fst).nodup_iff.2 (List.nodup_cons.2 ⟨?_, hn⟩)
    intro hk
    obtain ⟨e, hm, rfl⟩ := List.mem_map.1 hk
    exact he.2 e hm rfl

/-! ### Bytes of the page store -/

theorem zipIdx_filter_rising (a : Nat) (l : List Byte) (n : Nat) :
    ((l.zipIdx n).filterMap fun x => if x.1 = 0 then none else some (a + x.2, x.1)).Pairwise
      (fun c d : Host.Cell => c.1 < d.1) ∧
    ∀ c ∈ (l.zipIdx n).filterMap fun x => if x.1 = 0 then none else some ((a + x.2, x.1) : Host.Cell),
      c.2 ≠ 0 ∧ a + n ≤ c.1 ∧ c.1 < a + n + l.length := by
  induction l generalizing n with
  | nil => simp
  | cons b l ih =>
    obtain ⟨h1, h2⟩ := ih (n + 1)
    simp only [List.zipIdx_cons, List.filterMap_cons]
    split
    · refine ⟨h1, fun c hc => ?_⟩
      obtain ⟨h3, h4, h5⟩ := h2 c hc
      exact ⟨h3, by omega, by rw [List.length_cons]; omega⟩
    · next y hy =>
      have hb : b ≠ 0 ∧ y = (a + n, b) := by
        by_cases h : b = 0
        · simp [h] at hy
        · exact ⟨h, (by simpa [h] using hy.symm : _ ∧ _).2⟩
      obtain ⟨hb, rfl⟩ := hb
      refine ⟨List.pairwise_cons.2 ⟨fun c hc => ?_, h1⟩, fun c hc => ?_⟩
      · have := (h2 c hc).2.1; show a + n < c.1; omega
      · rcases List.mem_cons.1 hc with rfl | hc
        · refine ⟨hb, ?_, ?_⟩ <;> simp
        · have := h2 c hc
          exact ⟨this.1, by omega, by rw [List.length_cons]; omega⟩

/-- A write to the page store keeps the canonical form. -/
theorem Memory.write_wf {m : List Host.Cell} (h : Memory.wf m) (a : Nat) (l : List Byte) :
    Memory.wf (Memory.write m a l) := by
  obtain ⟨hp, hz⟩ := h
  obtain ⟨h1, h2⟩ := zipIdx_filter_rising a l 0
  constructor
  · refine List.pairwise_append.2 ⟨List.pairwise_append.2 ⟨hp.filter _, h1, ?_⟩, hp.filter _, ?_⟩
    · intro c hc d hd
      have := of_decide_eq_true (List.mem_filter.1 hc).2
      have := h2 d hd; omega
    · intro c hc d hd
      have hd' := of_decide_eq_true (List.mem_filter.1 hd).2
      rcases List.mem_append.1 hc with hc | hc
      · have := of_decide_eq_true (List.mem_filter.1 hc).2; omega
      · have := h2 c hc; omega
  · intro c hc
    rcases List.mem_append.1 hc with hc | hc
    · rcases List.mem_append.1 hc with hc | hc
      · exact hz c (List.mem_filter.1 hc).1
      · exact (h2 c hc).1
    · exact hz c (List.mem_filter.1 hc).1

/-! ### The relation -/

theorem Keeps.refl {m : Bool} (s : State) : Keeps m s s :=
  ⟨rfl, rfl, rfl, List.suffix_refl _, Nat.le_refl _, id, fun _ => rfl⟩

theorem Keeps.trans {m : Bool} {a b c : State} (h : Keeps m a b) (g : Keeps m b c) : Keeps m a c :=
  ⟨g.hw.trans h.hw, g.fuses.trans h.fuses, g.pending.trans h.pending, h.out.trans g.out, h.free.trans g.free,
    g.sound ∘ h.sound, fun e => (g.bytes e).trans (h.bytes e)⟩

/-- A record update that leaves the fields `Keeps` speaks about. -/
theorem Keeps.upd {m : Bool} {a s : State} (h : Keeps m a s) {e : Nat} {lv ho} {la} {ir} {is} {co : Cores} {dm : Dma} {cm : Cmp} {st ln ax}
    {pc : Pcie} {pt : Pth} {sl} {fh : Fhv} {ca : Capture} {fl : Flt} {cs : Csl} {cl : Cal} {pw : Pwr} {fr : Fram} {rs : Rst}
    {ei : Eio} {ld : Loader} {lo : Loam} {mb : Mbx}
    (h1 : lo.bytes = s.loam.bytes) (h2 : mb.queues = s.mbx.queues) (h3 : ld.report = s.ldr.report) :
    Keeps m a (State.mk s.hw s.fuses s.pending s.out s.free e s.regs lv ho la ir is co ld lo dm cm st ln ax mb pc pt sl fh ca fl cs
      cl pw fr rs ei) :=
  ⟨h.hw, h.fuses, h.pending, h.out, h.free, fun g =>
    ⟨h1 ▸ (h.sound g).bytes, (h.sound g).regs, h2 ▸ (h.sound g).posts, h3 ▸ (h.sound g).report⟩, fun e => h1.trans (h.bytes e)⟩

/-- A record update that empties the mailbox queues or the clamp report. -/
theorem Keeps.updEmpty {m : Bool} {a s : State} (h : Keeps m a s) {e : Nat} {lv ho} {la} {ir} {is} {co : Cores} {dm : Dma} {cm : Cmp} {st ln ax}
    {pc : Pcie} {pt : Pth} {sl} {fh : Fhv} {ca : Capture} {fl : Flt} {cs : Csl} {cl : Cal} {pw : Pwr} {fr : Fram} {rs : Rst}
    {ei : Eio} {ld : Loader} {lo : Loam} {mb : Mbx}
    (h1 : lo.bytes = s.loam.bytes) (h2 : mb.queues = s.mbx.queues ∨ mb.queues = []) (h3 : ld.report = s.ldr.report ∨ ld.report = []) :
    Keeps m a (State.mk s.hw s.fuses s.pending s.out s.free e s.regs lv ho la ir is co ld lo dm cm st ln ax mb pc pt sl fh ca fl cs
      cl pw fr rs ei) :=
  ⟨h.hw, h.fuses, h.pending, h.out, h.free, fun g =>
    ⟨h1 ▸ (h.sound g).bytes, (h.sound g).regs, h2.elim (fun e => e ▸ (h.sound g).posts) (by intro h q hq; simp [h] at hq),
      h3.elim (fun e => e ▸ (h.sound g).report) (by intro h; simp [h])⟩, fun e => h1.trans (h.bytes e)⟩

/-- A record update that empties the page store, the mailbox queues or the clamp report. -/
theorem Keeps.updLost {a s : State} (h : Keeps false a s) {e : Nat} {lv ho} {la} {ir} {is} {co : Cores} {dm : Dma} {cm : Cmp} {st ln ax}
    {pc : Pcie} {pt : Pth} {sl} {fh : Fhv} {ca : Capture} {fl : Flt} {cs : Csl} {cl : Cal} {pw : Pwr} {fr : Fram} {rs : Rst}
    {ei : Eio} {ld : Loader} {lo : Loam} {mb : Mbx}
    (h1 : lo.bytes = s.loam.bytes ∨ lo.bytes = []) (h2 : mb.queues = s.mbx.queues ∨ mb.queues = []) (h3 : ld.report = s.ldr.report ∨ ld.report = []) :
    Keeps false a (State.mk s.hw s.fuses s.pending s.out s.free e s.regs lv ho la ir is co ld lo dm cm st ln ax mb pc pt sl fh ca fl cs
      cl pw fr rs ei) :=
  ⟨h.hw, h.fuses, h.pending, h.out, h.free, fun g =>
    ⟨h1.elim (fun e => e ▸ (h.sound g).bytes) (by intro h; simp [h, Memory.wf]), (h.sound g).regs, h2.elim (fun e => e ▸ (h.sound g).posts) (by intro h q hq; simp [h] at hq),
      h3.elim (fun e => e ▸ (h.sound g).report) (by intro h; simp [h])⟩, fun e => nomatch e⟩

theorem Keeps.ite {m : Bool} {a s t : State} {p : Prop} [Decidable p] (h : Keeps m a s) (g : Keeps m a t) : Keeps m a (if p then s else t) := by
  split <;> assumption

theorem Keeps.iteSnd {m : Bool} {a : State} {α : Type} {x y : α × State} {p : Prop} [Decidable p] (h : Keeps m a x.2) (g : Keeps m a y.2) :
    Keeps m a (if p then x else y).2 := by
  split <;> assumption

theorem Keeps.cut {m : Bool} {a s : State} {p : Prop} (h : Keeps m a s) (g : Keeps m a s → p) : p := g h

theorem Keeps.foldl {m : Bool} {a s : State} {α : Type} {f : State → α → State} {l : List α} (h : Keeps m a s)
    (hf : ∀ t x, Keeps m a t → Keeps m a (f t x)) : Keeps m a (l.foldl f s) := by
  induction l generalizing s with
  | nil => exact h
  | cons x l ih => exact ih (hf _ _ h)

theorem Keeps.foldlSnd {m : Bool} {a : State} {α β : Type} {f : β × State → α → β × State} {l : List α} {b : β × State} (h : Keeps m a b.2)
    (hf : ∀ t x, Keeps m a t.2 → Keeps m a (f t x).2) : Keeps m a (l.foldl f b).2 := by
  induction l generalizing b with
  | nil => exact h
  | cons x l ih => exact ih (hf _ _ h)

theorem Keeps.foldlFst {m : Bool} {a : State} {α β : Type} {f : State × β → α → State × β} {l : List α} {b : State × β} (h : Keeps m a b.1)
    (hf : ∀ t x, Keeps m a t.1 → Keeps m a (f t x).1) : Keeps m a (l.foldl f b).1 := by
  induction l generalizing b with
  | nil => exact h
  | cons x l ih => exact ih (hf _ _ h)

theorem Keeps.iterate {m : Bool} {a s : State} {f : State → State} {n : Nat} (h : Keeps m a s)
    (hf : ∀ t, Keeps m a t → Keeps m a (f t)) : Keeps m a (Nat.iterate f n s) := by
  induction n generalizing s with
  | zero => exact h
  | succ n ih => exact ih (hf _ h)

theorem guardWF_next {p : Bool} {s t : State} (h : guardWF p s = .next t) : p = true ∧ s = t := by
  unfold guardWF at h
  split at h
  · next hp => exact ⟨hp, by injection h⟩
  · cases h

/-! ### Register fields -/

theorem State.wr_keeps {m : Bool} {a s : State} (h : Keeps m a s) (f : Fld) (i v : Nat) : Keeps m a (s.wr f i v) := by
  unfold State.wr
  split
  · next hp =>
    refine ⟨h.hw, h.fuses, h.pending, h.out, h.free, fun g => ?_, h.bytes⟩
    obtain ⟨b, r, q, e⟩ := h.sound g
    refine ⟨b, ⟨Store.nodup_set r.1, fun x hx => ?_⟩, q, e⟩
    rcases Store.mem_set hx with ⟨rfl, hv⟩ | hx
    · exact ⟨hp, Nat.mod_lt _ (Nat.two_pow_pos _), hv⟩
    · exact r.2 x hx
  · exact h

theorem State.resetFields_keeps {m : Bool} {a s : State} (h : Keeps m a s) (p : Fld → Nat → Bool) : Keeps m a (s.resetFields p) := by
  refine ⟨h.hw, h.fuses, h.pending, h.out, h.free, fun g => ?_, h.bytes⟩
  obtain ⟨b, r, q, e⟩ := h.sound g
  exact ⟨b, ⟨r.1.sublist (List.filter_sublist.map _), fun x hx => r.2 x (List.mem_filter.1 hx).1⟩, q, e⟩

theorem State.release_keeps {m : Bool} {a s : State} (h : Keeps m a s) (p : Fld → Nat → Bool) : Keeps m a (s.release p) := h.upd rfl rfl rfl

theorem State.wrS_keeps {m : Bool} {a s : State} (h : Keeps m a s) (f : Fld) (i : Nat) (z : Int) : Keeps m a (s.wrS f i z) := State.wr_keeps h ..
theorem State.ev_keeps {m : Bool} {a s : State} (h : Keeps m a s) (f : Fld) (i : Nat) : Keeps m a (s.ev f i) := State.wr_keeps h ..
theorem State.clr_keeps {m : Bool} {a s : State} (h : Keeps m a s) (f : Fld) (i : Nat) : Keeps m a (s.clr f i) := State.wr_keeps h ..
theorem State.wrB_keeps {m : Bool} {a s : State} (h : Keeps m a s) (f : Fld) (i : Nat) (b : Bool) : Keeps m a (s.wrB f i b) := State.wr_keeps h ..
theorem State.count_keeps {m : Bool} {a s : State} (h : Keeps m a s) (f : Fld) (i : Nat) : Keeps m a (s.count f i) := State.wr_keeps h ..
theorem State.countBy_keeps {m : Bool} {a s : State} (h : Keeps m a s) (f : Fld) (i n : Nat) : Keeps m a (s.countBy f i n) := State.wr_keeps h ..

theorem State.take_keeps {m : Bool} {a s : State} (h : Keeps m a s) (f : Fld) (i v : Nat) : Keeps m a (s.take f i v) := by
  unfold State.take
  split
  · exact State.wr_keeps h ..
  · exact State.wr_keeps (h.upd rfl rfl rfl) ..

/-! ### Outputs and open values -/

theorem State.emit_keeps {m : Bool} {a s : State} (h : Keeps m a s) (o : Out) : Keeps m a (s.emit o) :=
  ⟨h.hw, h.fuses, h.pending, h.out.trans (List.suffix_cons _ _), h.free, fun g =>
    ⟨(h.sound g).bytes, (h.sound g).regs, (h.sound g).posts, (h.sound g).report⟩, h.bytes⟩

theorem State.broadcast_keeps {m : Bool} {a s : State} (h : Keeps m a s) (kind : Nat) (data : List Int) :
    Keeps m a (s.broadcast kind data) := Keeps.ite (State.emit_keeps (State.emit_keeps h _) _) h
theorem State.upward_keeps {m : Bool} {a s : State} (h : Keeps m a s) (kind : Nat) (data : List Int) :
    Keeps m a (s.upward kind data) := State.emit_keeps h _
theorem State.relay_keeps {m : Bool} {a s : State} (h : Keeps m a s) (kind : Nat) (data : List Int) :
    Keeps m a (s.relay kind data) := State.emit_keeps h _

theorem State.fresh_keeps {m : Bool} {a s : State} (h : Keeps m a s) (w : Nat) : Keeps m a (s.fresh w).2 :=
  ⟨h.hw, h.fuses, h.pending, h.out, h.free.trans (Nat.le_succ _), fun g =>
    ⟨(h.sound g).bytes, (h.sound g).regs, (h.sound g).posts, (h.sound g).report⟩, h.bytes⟩

theorem State.freshIf_keeps {m : Bool} {a s : State} (h : Keeps m a s) (b : Bool) (w : Nat) : Keeps m a (s.freshIf b w).2 := by
  unfold State.freshIf
  split
  · exact State.fresh_keeps h w
  · exact h

theorem State.msix_keeps {m : Bool} {a s : State} (h : Keeps m a s) (v : Nat) : Keeps m a (s.msix v) := by
  unfold State.msix
  repeat' first | exact h | exact State.emit_keeps h _ | exact h.upd rfl rfl rfl | split

theorem State.globalIrq_keeps {m : Bool} {a s : State} (h : Keeps m a s) (en : GlbF) : Keeps m a (s.globalIrq en) := by
  unfold State.globalIrq
  split
  · exact State.msix_keeps h _
  · exact h

/-! ### Mailbox posts (R433, R435) -/

theorem posts_le {s : State} (h : s.Sound) (p : Nat) : (s.posts p).length ≤ 32 := by
  have hq := h.posts
  unfold State.posts
  generalize s.mbx.queues = l at hq
  induction l with
  | nil => simp [Store.get]
  | cons e l ih =>
    obtain ⟨k, v⟩ := e
    simp only [Store.get]
    split
    · exact hq (k, v) (List.mem_cons_self ..)
    · exact ih fun q hm => hq q (List.mem_cons_of_mem _ hm)

/-- A mailbox whose queues hold at most 32 posts each. -/
theorem Keeps.mbx {m : Bool} {a s : State} (h : Keeps m a s) {x : Mbx} (hq : s.Sound → ∀ q ∈ x.queues, q.2.length ≤ 32) :
    Keeps m a { s with mbx := x } :=
  ⟨h.hw, h.fuses, h.pending, h.out, h.free, fun g =>
    ⟨(h.sound g).bytes, (h.sound g).regs, hq (h.sound g), (h.sound g).report⟩, h.bytes⟩

theorem State.enqueue_keeps {m : Bool} {a s : State} (h : Keeps m a s) (p kind unit : Nat) (data : List Nat)
    (hl : (s.posts p).length < 32) : Keeps m a (s.enqueue p kind unit data) := by
  unfold State.enqueue
  extract_lets tok post x x' t
  have ht : Keeps m a t := by
    refine h.mbx fun g q hq => ?_
    rcases Store.mem_set hq with ⟨rfl, -⟩ | hq
    · simp only [List.length_append, List.length_singleton]; omega
    · exact g.posts q hq
  split
  · exact State.msix_keeps ht _
  · exact ht

theorem State.post_keeps {m : Bool} {a s : State} (h : Keeps m a s) (kind unit : Nat) (data : List Nat) : Keeps m a (s.post kind unit data) := by
  unfold State.post
  extract_lets x wait
  have hw : Keeps m a wait := h.upd rfl rfl rfl
  repeat' first | exact h | exact hw | exact State.count_keeps h .. | exact State.enqueue_keeps h _ _ _ _ (by assumption) | split

theorem State.closeDecision_keeps {m : Bool} {a s : State} (h : Keeps m a s) (kind unit : Nat) : Keeps m a (s.closeDecision kind unit) :=
  h.upd rfl rfl rfl

theorem State.closeTakeover_keeps {m : Bool} {a s : State} (h : Keeps m a s) (k b : Nat) : Keeps m a (s.closeTakeover k b) := h.upd rfl rfl rfl

theorem State.drainWaiting_keeps {m : Bool} {a s : State} (h : Keeps m a s) : Keeps m a s.drainWaiting := by
  unfold State.drainWaiting
  refine h.foldl fun t w ht => ?_
  split
  · exact ht
  · split
    · next hl =>
      refine State.enqueue_keeps ?_ _ _ _ _ hl
      exact ht.upd rfl rfl rfl
    · exact ht

/-! ### The rest of the named operations -/

theorem State.report_keeps {m : Bool} {a s : State} (h : Keeps m a s) (e : Entry) : Keeps m a (s.report e) := by
  unfold State.report
  split
  · next hl =>
    exact ⟨h.hw, h.fuses, h.pending, h.out, h.free, fun g =>
      ⟨(h.sound g).bytes, (h.sound g).regs, (h.sound g).posts, by simpa using hl⟩, h.bytes⟩
  · exact State.count_keeps h ..

theorem State.setChan_keeps {m : Bool} {a s : State} (h : Keeps m a s) (n : Nat) (x : Chan) : Keeps m a (s.setChan n x) := h.upd rfl rfl rfl
theorem State.setCtx_keeps {m : Bool} {a s : State} (h : Keeps m a s) (n : Nat) (x : Ctx) : Keeps m a (s.setCtx n x) := h.upd rfl rfl rfl
theorem State.setBand_keeps {m : Bool} {a s : State} (h : Keeps m a s) (n : Nat) (x : Band) : Keeps m a (s.setBand n x) := h.upd rfl rfl rfl
theorem State.setLane_keeps {m : Bool} {a s : State} (h : Keeps m a s) (n : Nat) (x : Lane) : Keeps m a (s.setLane n x) := h.upd rfl rfl rfl
theorem State.setJob_keeps {m : Bool} {a s : State} (h : Keeps m a s) (n : Nat) (x : Job) : Keeps m a (s.setJob n x) := h.upd rfl rfl rfl
theorem State.setAxis_keeps {m : Bool} {a s : State} (h : Keeps m a s) (n : Nat) (x : Axis) : Keeps m a (s.setAxis n x) := h.upd rfl rfl rfl
theorem State.setSlot_keeps {m : Bool} {a s : State} (h : Keeps m a s) (n : Nat) (x : Slot) : Keeps m a (s.setSlot n x) := h.upd rfl rfl rfl
theorem State.setHeater_keeps {m : Bool} {a s : State} (h : Keeps m a s) (n : Nat) (x : Heater) : Keeps m a (s.setHeater n x) := h.upd rfl rfl rfl
theorem State.setStn_keeps {m : Bool} {a s : State} (h : Keeps m a s) (n : Nat) (x : Stn) : Keeps m a (s.setStn n x) := h.upd rfl rfl rfl
theorem State.setLnk_keeps {m : Bool} {a s : State} (h : Keeps m a s) (n : Nat) (x : Lnk) : Keeps m a (s.setLnk n x) := h.upd rfl rfl rfl

theorem State.deny_keeps {m : Bool} {a s : State} (h : Keeps m a s) : Keeps m a s.deny := State.globalIrq_keeps (State.ev_keeps h ..) _
theorem State.isoAccess_keeps {m : Bool} {a s : State} (h : Keeps m a s) : Keeps m a s.isoAccess := State.globalIrq_keeps (State.ev_keeps h ..) _

theorem State.hostWrite_keeps {m : Bool} {a s : State} (h : Keeps m a s) (b : Block) (k : Nat) (f : State → State)
    (hf : ∀ t, Keeps m a t → Keeps m a (f t)) : Keeps m a (s.hostWrite b k f) := by
  unfold State.hostWrite
  split
  · exact h
  · extract_lets shut t
    have ht : Keeps m a t := Keeps.ite (State.deny_keeps h) h
    repeat' first | exact ht | exact State.isoAccess_keeps ht | exact hf _ ht | split

theorem State.referenceCycle_keeps {m : Bool} {a s : State} (h : Keeps m a s) : Keeps m a s.referenceCycle := by
  unfold State.referenceCycle
  split
  · exact h.upd rfl rfl rfl
  · exact h

theorem State.setBytes_keeps {a s : State} (h : Keeps false a s) (x : Nat) (l : List Byte) : Keeps false a (s.setBytes x l) :=
  ⟨h.hw, h.fuses, h.pending, h.out, h.free, fun g =>
    ⟨Memory.write_wf (h.sound g).bytes _ _, (h.sound g).regs, (h.sound g).posts, (h.sound g).report⟩, fun e => nomatch e⟩

end Sys2Proof.Machine
end

