-- ==== Sys2Proof/Laws/KeepsSheets.lean ====
section
/-! SUPPORT. Every operation of Machine/Sheets.lean keeps what `Keeps` says. -/

namespace Sys2Proof.Machine

open Sys2Proof

set_option linter.unusedTactic false

set_option linter.unreachableTactic false

theorem State.verifyIdle_keeps {b₀ : Bool} {a₀ s : State} (h : Keeps b₀ a₀ s) (b : Band) : Keeps b₀ a₀ (State.verifyIdle s b) := by
  unfold State.verifyIdle
  repeat' first
    | with_reducible assumption | intro _ | with_reducible apply State.clr_keeps | with_reducible apply State.wr_keeps
    | with_reducible apply Keeps.ite | split | (clear_value *; split)

theorem State.reclaim_keeps {b₀ : Bool} {a₀ s : State} (h : Keeps b₀ a₀ s) (rs : List Nat) : Keeps b₀ a₀ (State.reclaim s rs) := by
  unfold State.reclaim
  repeat' first
    | with_reducible assumption | intro _
    | (extract_lets +onlyGivenNames u₀; first | (refine Keeps.cut (m := b₀) (a := a₀) (s := u₀) ?_ fun _ => ?_ <;> [(unfold u₀; clear u₀); ((try clear_value u₀); revert u₀; intro _ _)]) | (revert u₀; intro _))
    | with_reducible apply State.verifyIdle_keeps | with_reducible apply State.setBand_keeps | with_reducible apply Keeps.foldl
    | with_reducible apply Keeps.foldlSnd | with_reducible apply Keeps.foldlFst
    | (with_reducible refine Keeps.upd ?_ ?_ ?_ ?_ <;> [assumption; rfl; rfl; rfl])

theorem State.reclaimCtx_keeps {b₀ : Bool} {a₀ s : State} (h : Keeps b₀ a₀ s) (c : Nat) : Keeps b₀ a₀ (State.reclaimCtx s c) := by
  unfold State.reclaimCtx
  repeat' first
    | with_reducible assumption | intro _ | with_reducible apply State.reclaim_keeps
    | (with_reducible refine Keeps.upd ?_ ?_ ?_ ?_ <;> [assumption; rfl; rfl; rfl])

theorem State.settleGate_keeps {b₀ : Bool} {a₀ s : State} (h : Keeps b₀ a₀ s) : Keeps b₀ a₀ (State.settleGate s) := by
  unfold State.settleGate
  repeat' first
    | with_reducible assumption | intro _
    | (extract_lets +onlyGivenNames u₀; first | (refine Keeps.cut (m := b₀) (a := a₀) (s := u₀) ?_ fun _ => ?_ <;> [(unfold u₀; clear u₀); ((try clear_value u₀); revert u₀; intro _ _)]) | (revert u₀; intro _))
    | with_reducible apply State.wr_keeps | with_reducible apply Keeps.foldl | with_reducible apply Keeps.foldlSnd
    | with_reducible apply Keeps.foldlFst | with_reducible apply Keeps.ite | split | (clear_value *; split)

theorem State.toState_keeps {b₀ : Bool} {a₀ s : State} (h : Keeps b₀ a₀ s) (c : Nat) (st : CtxState) : Keeps b₀ a₀ (State.toState s c st) := by
  unfold State.toState
  repeat' first
    | with_reducible assumption | intro _
    | (extract_lets +onlyGivenNames u₀; first | (refine Keeps.cut (m := b₀) (a := a₀) (s := u₀) ?_ fun _ => ?_ <;> [(unfold u₀; clear u₀); ((try clear_value u₀); revert u₀; intro _ _)]) | (revert u₀; intro _))
    | with_reducible apply State.setCtx_keeps | with_reducible apply State.ev_keeps | with_reducible apply Keeps.ite | split
    | (clear_value *; split) | (with_reducible refine Keeps.upd ?_ ?_ ?_ ?_ <;> [assumption; rfl; rfl; rfl])

theorem State.block_keeps {b₀ : Bool} {a₀ s : State} (h : Keeps b₀ a₀ s) (c : Nat) (cause : Nat) : Keeps b₀ a₀ (State.block s c cause) := by
  unfold State.block
  repeat' first
    | with_reducible assumption | intro _
    | (extract_lets +onlyGivenNames u₀; first | (refine Keeps.cut (m := b₀) (a := a₀) (s := u₀) ?_ fun _ => ?_ <;> [(unfold u₀; clear u₀); ((try clear_value u₀); revert u₀; intro _ _)]) | (revert u₀; intro _))
    | with_reducible apply State.setCtx_keeps | with_reducible apply State.toState_keeps
    | (with_reducible refine Keeps.upd ?_ ?_ ?_ ?_ <;> [assumption; rfl; rfl; rfl])

theorem State.settleCtx_keeps {b₀ : Bool} {a₀ s : State} (h : Keeps b₀ a₀ s) (c : Nat) : Keeps b₀ a₀ (State.settleCtx s c) := by
  unfold State.settleCtx
  repeat' first
    | with_reducible assumption | intro _
    | (extract_lets +onlyGivenNames u₀; first | (refine Keeps.cut (m := b₀) (a := a₀) (s := u₀) ?_ fun _ => ?_ <;> [(unfold u₀; clear u₀); ((try clear_value u₀); revert u₀; intro _ _)]) | (revert u₀; intro _))
    | with_reducible apply State.settleGate_keeps | with_reducible apply State.toState_keeps
    | with_reducible apply State.reclaimCtx_keeps | with_reducible apply Keeps.ite | split | (clear_value *; split)
    | (with_reducible refine Keeps.upd ?_ ?_ ?_ ?_ <;> [assumption; rfl; rfl; rfl])

theorem State.finishAll_keeps {b₀ : Bool} {a₀ s : State} (h : Keeps b₀ a₀ s) (c : Nat) : Keeps b₀ a₀ (State.finishAll s c) := by
  unfold State.finishAll
  repeat' first
    | with_reducible assumption | intro _
    | (extract_lets +onlyGivenNames u₀; first | (refine Keeps.cut (m := b₀) (a := a₀) (s := u₀) ?_ fun _ => ?_ <;> [(unfold u₀; clear u₀); ((try clear_value u₀); revert u₀; intro _ _)]) | (revert u₀; intro _))
    | with_reducible apply State.setCtx_keeps | with_reducible apply State.setStn_keeps
    | with_reducible apply State.settleCtx_keeps | with_reducible apply Keeps.foldl | with_reducible apply Keeps.foldlSnd
    | with_reducible apply Keeps.foldlFst | (with_reducible refine Keeps.upd ?_ ?_ ?_ ?_ <;> [assumption; rfl; rfl; rfl])

theorem State.spoilHere_keeps {b₀ : Bool} {a₀ s : State} (h : Keeps b₀ a₀ s) (c : Nat) (cause : Nat) : Keeps b₀ a₀ (State.spoilHere s c cause) := by
  unfold State.spoilHere
  repeat' first
    | with_reducible assumption | intro _
    | (extract_lets +onlyGivenNames u₀; first | (refine Keeps.cut (m := b₀) (a := a₀) (s := u₀) ?_ fun _ => ?_ <;> [(unfold u₀; clear u₀); ((try clear_value u₀); revert u₀; intro _ _)]) | (revert u₀; intro _))
    | with_reducible apply State.setCtx_keeps | with_reducible apply State.toState_keeps
    | with_reducible apply State.closeDecision_keeps | with_reducible apply State.ev_keeps | with_reducible apply State.wr_keeps
    | with_reducible apply State.post_keeps | with_reducible apply State.settleCtx_keeps | with_reducible apply Keeps.ite
    | split | (clear_value *; split) | (with_reducible refine Keeps.upd ?_ ?_ ?_ ?_ <;> [assumption; rfl; rfl; rfl])

theorem State.spoil_keeps {b₀ : Bool} {a₀ s : State} (h : Keeps b₀ a₀ s) (c : Nat) (cause : Nat) : Keeps b₀ a₀ (State.spoil s c cause) := by
  unfold State.spoil
  repeat' first
    | with_reducible assumption | intro _
    | (extract_lets +onlyGivenNames u₀; first | (refine Keeps.cut (m := b₀) (a := a₀) (s := u₀) ?_ fun _ => ?_ <;> [(unfold u₀; clear u₀); ((try clear_value u₀); revert u₀; intro _ _)]) | (revert u₀; intro _))
    | with_reducible apply State.spoilHere_keeps | with_reducible apply State.broadcast_keeps
    | with_reducible apply State.upward_keeps | with_reducible apply Keeps.ite | split | (clear_value *; split)
    | (with_reducible refine Keeps.upd ?_ ?_ ?_ ?_ <;> [assumption; rfl; rfl; rfl])

theorem State.darken_keeps {b₀ : Bool} {a₀ s : State} (h : Keeps b₀ a₀ s) (c : Nat) (p : Nat) (n : Nat) : Keeps b₀ a₀ (State.darken s c p n) := by
  unfold State.darken
  repeat' first
    | with_reducible assumption | intro _
    | (extract_lets +onlyGivenNames u₀; first | (refine Keeps.cut (m := b₀) (a := a₀) (s := u₀) ?_ fun _ => ?_ <;> [(unfold u₀; clear u₀); ((try clear_value u₀); revert u₀; intro _ _)]) | (revert u₀; intro _))
    | with_reducible apply State.setCtx_keeps | split | (clear_value *; split)
    | (with_reducible refine Keeps.upd ?_ ?_ ?_ ?_ <;> [assumption; rfl; rfl; rfl])

theorem State.blankStation_keeps {b₀ : Bool} {a₀ s : State} (h : Keeps b₀ a₀ s) (k : Nat) : Keeps b₀ a₀ (State.blankStation s k) := by
  unfold State.blankStation
  repeat' first
    | with_reducible assumption | intro _ | with_reducible apply State.darken_keeps | with_reducible apply Keeps.foldl
    | with_reducible apply Keeps.foldlSnd | with_reducible apply Keeps.foldlFst

theorem State.spoilStation_keeps {b₀ : Bool} {a₀ s : State} (h : Keeps b₀ a₀ s) (k : Nat) (cause : Nat) : Keeps b₀ a₀ (State.spoilStation s k cause) := by
  unfold State.spoilStation
  repeat' first
    | with_reducible assumption | intro _ | with_reducible apply State.spoil_keeps
    | with_reducible apply State.blankStation_keeps | with_reducible apply Keeps.foldl | with_reducible apply Keeps.foldlSnd
    | with_reducible apply Keeps.foldlFst

theorem State.endStation_keeps {b₀ : Bool} {a₀ s : State} (h : Keeps b₀ a₀ s) (k : Nat) : Keeps b₀ a₀ (State.endStation s k) := by
  unfold State.endStation
  repeat' first
    | with_reducible assumption | intro _
    | (extract_lets +onlyGivenNames u₀; first | (refine Keeps.cut (m := b₀) (a := a₀) (s := u₀) ?_ fun _ => ?_ <;> [(unfold u₀; clear u₀); ((try clear_value u₀); revert u₀; intro _ _)]) | (revert u₀; intro _))
    | with_reducible apply State.setCtx_keeps | with_reducible apply State.setStn_keeps
    | with_reducible apply State.settleCtx_keeps | with_reducible apply Keeps.foldl | with_reducible apply Keeps.foldlSnd
    | with_reducible apply Keeps.foldlFst | (with_reducible refine Keeps.upd ?_ ?_ ?_ ?_ <;> [assumption; rfl; rfl; rfl])

theorem State.webStop_keeps {b₀ : Bool} {a₀ s : State} (h : Keeps b₀ a₀ s) (cause : Nat) : Keeps b₀ a₀ (State.webStop s cause) := by
  unfold State.webStop
  repeat' first
    | with_reducible assumption | intro _
    | (extract_lets +onlyGivenNames u₀; first | (refine Keeps.cut (m := b₀) (a := a₀) (s := u₀) ?_ fun _ => ?_ <;> [(unfold u₀; clear u₀); ((try clear_value u₀); revert u₀; intro _ _)]) | (revert u₀; intro _))
    | with_reducible apply State.wr_keeps | with_reducible apply Keeps.ite | split | (clear_value *; split)
    | (with_reducible refine Keeps.upd ?_ ?_ ?_ ?_ <;> [assumption; rfl; rfl; rfl])

theorem State.stall_keeps {b₀ : Bool} {a₀ s : State} (h : Keeps b₀ a₀ s) (c : Nat) : Keeps b₀ a₀ (State.stall s c) := by
  unfold State.stall
  repeat' first
    | with_reducible assumption | intro _
    | (extract_lets +onlyGivenNames u₀; first | (refine Keeps.cut (m := b₀) (a := a₀) (s := u₀) ?_ fun _ => ?_ <;> [(unfold u₀; clear u₀); ((try clear_value u₀); revert u₀; intro _ _)]) | (revert u₀; intro _))
    | with_reducible apply State.setCtx_keeps | with_reducible apply State.webStop_keeps
    | with_reducible apply State.toState_keeps | with_reducible apply State.upward_keeps
    | with_reducible apply Keeps.ite | split | (clear_value *; split)
    | (with_reducible refine Keeps.upd ?_ ?_ ?_ ?_ <;> [assumption; rfl; rfl; rfl])

theorem State.failRecord_keeps {b₀ : Bool} {a₀ s : State} (h : Keeps b₀ a₀ s) (r : Nat) : Keeps b₀ a₀ (State.failRecord s r) := by
  unfold State.failRecord
  repeat' first
    | with_reducible assumption | intro _
    | (extract_lets +onlyGivenNames u₀; first | (refine Keeps.cut (m := b₀) (a := a₀) (s := u₀) ?_ fun _ => ?_ <;> [(unfold u₀; clear u₀); ((try clear_value u₀); revert u₀; intro _ _)]) | (revert u₀; intro _))
    | with_reducible apply State.setCtx_keeps | with_reducible apply State.setBand_keeps
    | with_reducible apply Keeps.ite | split | (clear_value *; split)
    | (with_reducible refine Keeps.upd ?_ ?_ ?_ ?_ <;> [assumption; rfl; rfl; rfl])

theorem State.darkenAll_keeps {b₀ : Bool} {a₀ s : State} (h : Keeps b₀ a₀ s) (c : Nat) : Keeps b₀ a₀ (State.darkenAll s c) := by
  unfold State.darkenAll
  repeat' first
    | with_reducible assumption | intro _ | with_reducible apply State.darken_keeps | with_reducible apply Keeps.foldl
    | with_reducible apply Keeps.foldlSnd | with_reducible apply Keeps.foldlFst

theorem State.pathSpoil_keeps {b₀ : Bool} {a₀ s : State} (h : Keeps b₀ a₀ s) (c : Nat) (pcause : Nat) : Keeps b₀ a₀ (State.pathSpoil s c pcause) := by
  unfold State.pathSpoil
  repeat' first
    | with_reducible assumption | intro _
    | (extract_lets +onlyGivenNames u₀; first | (refine Keeps.cut (m := b₀) (a := a₀) (s := u₀) ?_ fun _ => ?_ <;> [(unfold u₀; clear u₀); ((try clear_value u₀); revert u₀; intro _ _)]) | (revert u₀; intro _))
    | with_reducible apply State.setCtx_keeps | with_reducible apply State.darkenAll_keeps
    | with_reducible apply State.spoil_keeps | split | (clear_value *; split)
    | (with_reducible refine Keeps.upd ?_ ?_ ?_ ?_ <;> [assumption; rfl; rfl; rfl])

theorem State.late_keeps {b₀ : Bool} {a₀ s : State} (h : Keeps b₀ a₀ s) (w : Late) (c : Nat) (p : Nat) (r : Nat) (n : Nat) : Keeps b₀ a₀ (State.late s w c p r n) := by
  unfold State.late
  repeat' first
    | with_reducible assumption | intro _
    | (extract_lets +onlyGivenNames u₀; first | (refine Keeps.cut (m := b₀) (a := a₀) (s := u₀) ?_ fun _ => ?_ <;> [(unfold u₀; clear u₀); ((try clear_value u₀); revert u₀; intro _ _)]) | (revert u₀; intro _))
    | with_reducible apply State.setCtx_keeps | with_reducible apply State.stall_keeps
    | with_reducible apply State.darken_keeps | with_reducible apply State.spoil_keeps
    | with_reducible apply State.failRecord_keeps | with_reducible apply Keeps.ite | split | (clear_value *; split)
    | (with_reducible refine Keeps.upd ?_ ?_ ?_ ?_ <;> [assumption; rfl; rfl; rfl])

theorem State.bandBad_keeps {b₀ : Bool} {a₀ s : State} (h : Keeps b₀ a₀ s) (r : Nat) (st : BandState) (cause : Nat) : Keeps b₀ a₀ (State.bandBad s r st cause) := by
  unfold State.bandBad
  repeat' first
    | with_reducible assumption | intro _
    | (extract_lets +onlyGivenNames u₀; first | (refine Keeps.cut (m := b₀) (a := a₀) (s := u₀) ?_ fun _ => ?_ <;> [(unfold u₀; clear u₀); ((try clear_value u₀); revert u₀; intro _ _)]) | (revert u₀; intro _))
    | with_reducible apply State.failRecord_keeps | with_reducible apply State.verifyIdle_keeps
    | with_reducible apply State.block_keeps | with_reducible apply State.setBand_keeps
    | with_reducible apply Keeps.ite | split | (clear_value *; split)
    | (with_reducible refine Keeps.upd ?_ ?_ ?_ ?_ <;> [assumption; rfl; rfl; rfl])

end Sys2Proof.Machine
end

