-- ==== Sys2Proof/Laws/KeepsLoam.lean ====
section
/-! SUPPORT. Every operation of Machine/Loam.lean keeps what `Keeps` says. -/

namespace Sys2Proof.Machine

open Sys2Proof

set_option linter.unusedTactic false

set_option linter.unreachableTactic false

theorem State.setEcc_keeps {b₀ : Bool} {a₀ s : State} (h : Keeps b₀ a₀ s) (b : Nat) (e : EccMark) : Keeps b₀ a₀ (State.setEcc s b e) := by
  unfold State.setEcc
  repeat' first
    | with_reducible assumption | intro _
    | (extract_lets +onlyGivenNames u₀; first | (refine Keeps.cut (m := b₀) (a := a₀) (s := u₀) ?_ fun _ => ?_ <;> [(unfold u₀; clear u₀); ((try clear_value u₀); revert u₀; intro _ _)]) | (revert u₀; intro _))
    | (with_reducible refine Keeps.upd ?_ ?_ ?_ ?_ <;> [assumption; rfl; rfl; rfl])

theorem State.upset_keeps {b₀ : Bool} {a₀ s : State} (h : Keeps b₀ a₀ s) (ups : List Upset) : Keeps b₀ a₀ (State.upset s ups) := by
  unfold State.upset
  repeat' first
    | with_reducible assumption | intro _
    | (extract_lets +onlyGivenNames u₀; first | (refine Keeps.cut (m := b₀) (a := a₀) (s := u₀) ?_ fun _ => ?_ <;> [(unfold u₀; clear u₀); ((try clear_value u₀); revert u₀; intro _ _)]) | (revert u₀; intro _))
    | with_reducible apply State.setEcc_keeps | with_reducible apply Keeps.foldl | with_reducible apply Keeps.foldlSnd
    | with_reducible apply Keeps.foldlFst | split | (clear_value *; split)
    | (with_reducible refine Keeps.upd ?_ ?_ ?_ ?_ <;> [assumption; rfl; rfl; rfl])

theorem State.ueHit_keeps {b₀ : Bool} {a₀ s : State} (h : Keeps b₀ a₀ s) (b : Nat) : Keeps b₀ a₀ (State.ueHit s b) := by
  unfold State.ueHit
  repeat' first
    | with_reducible assumption | intro _ | with_reducible apply State.count_keeps | with_reducible apply State.wr_keeps
    | with_reducible apply State.ev_keeps

theorem State.readEcc_keeps {b₀ : Bool} {a₀ s : State} (h : Keeps b₀ a₀ s) (a : Nat) (n : Nat) : Keeps b₀ a₀ (State.readEcc s a n).2 := by
  unfold State.readEcc
  repeat' first
    | with_reducible assumption | intro _
    | (extract_lets +onlyGivenNames u₀; first | (refine Keeps.cut (m := b₀) (a := a₀) (s := u₀) ?_ fun _ => ?_ <;> [(unfold u₀; clear u₀); ((try clear_value u₀); revert u₀; intro _ _)]) | (revert u₀; intro _))
    | with_reducible apply State.count_keeps | with_reducible apply State.ueHit_keeps | with_reducible apply Keeps.foldl
    | with_reducible apply Keeps.foldlSnd | with_reducible apply Keeps.foldlFst | split | (clear_value *; split)
    | (with_reducible refine Keeps.upd ?_ ?_ ?_ ?_ <;> [assumption; rfl; rfl; rfl])

theorem State.writeBurst_keeps {a₀ s : State} (h : Keeps false a₀ s) (a : Nat) (l : List Byte) : Keeps false a₀ (State.writeBurst s a l) := by
  unfold State.writeBurst
  repeat' first
    | with_reducible assumption | intro _
    | (extract_lets +onlyGivenNames u₀; first | (refine Keeps.cut (m := false) (a := a₀) (s := u₀) ?_ fun _ => ?_ <;> [(unfold u₀; clear u₀); ((try clear_value u₀); revert u₀; intro _ _)]) | (revert u₀; intro _))
    | with_reducible apply State.setBytes_keeps | with_reducible apply State.setEcc_keeps
    | with_reducible apply State.count_keeps | with_reducible apply State.ueHit_keeps | with_reducible apply Keeps.ite | split
    | (clear_value *; split) | (with_reducible refine Keeps.upd ?_ ?_ ?_ ?_ <;> [assumption; rfl; rfl; rfl])

theorem State.writeLoam_keeps {a₀ s : State} (h : Keeps false a₀ s) (a : Nat) (l : List Byte) : Keeps false a₀ (State.writeLoam s a l) := by
  unfold State.writeLoam
  repeat' first
    | with_reducible assumption | intro _ | with_reducible apply State.writeBurst_keeps | with_reducible apply Keeps.foldl
    | with_reducible apply Keeps.foldlSnd | with_reducible apply Keeps.foldlFst

theorem State.countSingles_keeps {b₀ : Bool} {a₀ s : State} (h : Keeps b₀ a₀ s) (b : Band) (n : Nat) : Keeps b₀ a₀ (State.countSingles s b n) := by
  unfold State.countSingles
  repeat' first
    | with_reducible assumption | intro _ | with_reducible apply State.countBy_keeps
    | (with_reducible refine Keeps.upd ?_ ?_ ?_ ?_ <;> [assumption; rfl; rfl; rfl])

theorem State.scrubBand_keeps {b₀ : Bool} {a₀ s : State} (h : Keeps b₀ a₀ s) (burst : Nat) : Keeps b₀ a₀ (State.scrubBand s burst) := by
  unfold State.scrubBand
  repeat' first
    | with_reducible assumption | intro _
    | (extract_lets +onlyGivenNames u₀; first | (refine Keeps.cut (m := b₀) (a := a₀) (s := u₀) ?_ fun _ => ?_ <;> [(unfold u₀; clear u₀); ((try clear_value u₀); revert u₀; intro _ _)]) | (refine Keeps.cut (m := b₀) (a := a₀) (s := u₀.2) ?_ fun _ => ?_ <;> [(unfold u₀; clear u₀); ((try clear_value u₀); revert u₀; intro _ _)]) | (revert u₀; intro _))
    | with_reducible apply State.darken_keeps | with_reducible apply State.spoil_keeps
    | with_reducible apply State.bandBad_keeps | with_reducible apply State.verifyIdle_keeps
    | with_reducible apply State.failRecord_keeps | with_reducible apply Keeps.ite
    | with_reducible apply Keeps.iteSnd | split | (clear_value *; split)
    | (with_reducible refine Keeps.upd ?_ ?_ ?_ ?_ <;> [assumption; rfl; rfl; rfl])

theorem State.scrubBurst_keeps {b₀ : Bool} {a₀ s : State} (h : Keeps b₀ a₀ s) (b : Nat) : Keeps b₀ a₀ (State.scrubBurst s b) := by
  unfold State.scrubBurst
  repeat' first
    | with_reducible assumption | intro _
    | (extract_lets +onlyGivenNames u₀; first | (refine Keeps.cut (m := b₀) (a := a₀) (s := u₀) ?_ fun _ => ?_ <;> [(unfold u₀; clear u₀); ((try clear_value u₀); revert u₀; intro _ _)]) | (revert u₀; intro _))
    | with_reducible apply State.countBy_keeps | with_reducible apply State.setEcc_keeps
    | with_reducible apply State.ueHit_keeps | with_reducible apply State.scrubBand_keeps | split | (clear_value *; split)
    | (with_reducible refine Keeps.upd ?_ ?_ ?_ ?_ <;> [assumption; rfl; rfl; rfl])

theorem scrubTick_keeps {b₀ : Bool} {a₀ s : State} (h : Keeps b₀ a₀ s) (ups : List Upset) : Keeps b₀ a₀ (scrubTick ups s) := by
  unfold scrubTick
  repeat' first
    | with_reducible assumption | intro _
    | (extract_lets +onlyGivenNames u₀; first | (refine Keeps.cut (m := b₀) (a := a₀) (s := u₀) ?_ fun _ => ?_ <;> [(unfold u₀; clear u₀); ((try clear_value u₀); revert u₀; intro _ _)]) | (revert u₀; intro _))
    | with_reducible apply State.upset_keeps | with_reducible apply State.scrubBurst_keeps | with_reducible apply Keeps.foldl
    | with_reducible apply Keeps.foldlSnd | with_reducible apply Keeps.foldlFst | with_reducible apply Keeps.ite | split
    | (clear_value *; split) | (with_reducible refine Keeps.upd ?_ ?_ ?_ ?_ <;> [assumption; rfl; rfl; rfl])

theorem execScrubTick_keeps {b₀ : Bool} {a₀ s : State} (h : Keeps b₀ a₀ s) (ups : List Upset) {t₀ : State} (e : execScrubTick ups s = .next t₀) : Keeps b₀ a₀ t₀ := by
  unfold execScrubTick at e
  obtain ⟨-, rfl⟩ := guardWF_next e
  repeat' first
    | with_reducible assumption | intro _ | with_reducible apply scrubTick_keeps

theorem State.engineError_keeps {b₀ : Bool} {a₀ s : State} (h : Keeps b₀ a₀ s) (n : Nat) (code : Nat) (pos : Nat) : Keeps b₀ a₀ (State.engineError s n code pos) := by
  unfold State.engineError
  repeat' first
    | with_reducible assumption | intro _ | with_reducible apply State.wr_keeps | with_reducible apply State.ev_keeps

theorem State.bandGood_keeps {b₀ : Bool} {a₀ s : State} (h : Keeps b₀ a₀ s) (r : Nat) (crc : Nat) : Keeps b₀ a₀ (State.bandGood s r crc) := by
  unfold State.bandGood
  repeat' first
    | with_reducible assumption | intro _
    | (extract_lets +onlyGivenNames u₀; first | (refine Keeps.cut (m := b₀) (a := a₀) (s := u₀) ?_ fun _ => ?_ <;> [(unfold u₀; clear u₀); ((try clear_value u₀); revert u₀; intro _ _)]) | (revert u₀; intro _))
    | with_reducible apply State.toState_keeps | with_reducible apply State.setCtx_keeps
    | with_reducible apply State.setBand_keeps | with_reducible apply Keeps.ite | split | (clear_value *; split)
    | (with_reducible refine Keeps.upd ?_ ?_ ?_ ?_ <;> [assumption; rfl; rfl; rfl])

theorem State.verifyBand_keeps {b₀ : Bool} {a₀ s : State} (h : Keeps b₀ a₀ s) (b : Band) : Keeps b₀ a₀ (State.verifyBand s b).2 := by
  unfold State.verifyBand
  repeat' first
    | with_reducible assumption | intro _
    | (extract_lets +onlyGivenNames u₀; first | (refine Keeps.cut (m := b₀) (a := a₀) (s := u₀) ?_ fun _ => ?_ <;> [(unfold u₀; clear u₀); ((try clear_value u₀); revert u₀; intro _ _)]) | (refine Keeps.cut (m := b₀) (a := a₀) (s := u₀.2) ?_ fun _ => ?_ <;> [(unfold u₀; clear u₀); ((try clear_value u₀); revert u₀; intro _ _)]) | (revert u₀; intro _))
    | with_reducible apply State.engineError_keeps | with_reducible apply State.ueHit_keeps
    | with_reducible apply State.count_keeps | with_reducible apply State.wr_keeps
    | with_reducible apply State.clr_keeps | with_reducible apply State.countSingles_keeps
    | with_reducible apply Keeps.ite | with_reducible apply Keeps.iteSnd | split | (clear_value *; split)
    | (with_reducible refine Keeps.upd ?_ ?_ ?_ ?_ <;> [assumption; rfl; rfl; rfl])

theorem bandVerified_keeps {b₀ : Bool} {a₀ s : State} (h : Keeps b₀ a₀ s) (r : Nat) : Keeps b₀ a₀ (bandVerified r s) := by
  unfold bandVerified
  repeat' first
    | with_reducible assumption | intro _
    | (extract_lets +onlyGivenNames u₀; first | (refine Keeps.cut (m := b₀) (a := a₀) (s := u₀) ?_ fun _ => ?_ <;> [(unfold u₀; clear u₀); ((try clear_value u₀); revert u₀; intro _ _)]) | (refine Keeps.cut (m := b₀) (a := a₀) (s := u₀.2) ?_ fun _ => ?_ <;> [(unfold u₀; clear u₀); ((try clear_value u₀); revert u₀; intro _ _)]) | (revert u₀; intro _))
    | with_reducible apply State.verifyBand_keeps | with_reducible apply State.bandGood_keeps
    | with_reducible apply State.bandBad_keeps | with_reducible apply Keeps.ite | with_reducible apply Keeps.iteSnd
    | split | (clear_value *; split) | (with_reducible refine Keeps.upd ?_ ?_ ?_ ?_ <;> [assumption; rfl; rfl; rfl])

theorem execBandVerified_keeps {b₀ : Bool} {a₀ s : State} (h : Keeps b₀ a₀ s) (r : Nat) {t₀ : State} (e : execBandVerified r s = .next t₀) : Keeps b₀ a₀ t₀ := by
  unfold execBandVerified at e
  obtain ⟨-, rfl⟩ := guardWF_next e
  repeat' first
    | with_reducible assumption | intro _ | with_reducible apply bandVerified_keeps

theorem loamDeadlock_keeps {b₀ : Bool} {a₀ s : State} (h : Keeps b₀ a₀ s) (ch : Nat) : Keeps b₀ a₀ (loamDeadlock ch s) := by
  unfold loamDeadlock
  repeat' first
    | with_reducible assumption | intro _ | with_reducible apply State.ev_keeps | with_reducible apply Keeps.ite | split
    | (clear_value *; split)

theorem execLoamDeadlockTimeout_keeps {b₀ : Bool} {a₀ s : State} (h : Keeps b₀ a₀ s) (ch : Nat) {t₀ : State} (e : execLoamDeadlockTimeout ch s = .next t₀) : Keeps b₀ a₀ t₀ := by
  unfold execLoamDeadlockTimeout at e
  obtain ⟨-, rfl⟩ := guardWF_next e
  repeat' first
    | with_reducible assumption | intro _ | with_reducible apply loamDeadlock_keeps

theorem State.pgsRefuse_keeps {b₀ : Bool} {a₀ s : State} (h : Keeps b₀ a₀ s) (cause : Nat) : Keeps b₀ a₀ (State.pgsRefuse s cause) := by
  unfold State.pgsRefuse
  repeat' first
    | with_reducible assumption | intro _ | with_reducible apply State.ev_keeps | with_reducible apply State.wr_keeps

theorem openCtx_keeps {b₀ : Bool} {a₀ s : State} (h : Keeps b₀ a₀ s) (c : Nat) : Keeps b₀ a₀ (openCtx c s) := by
  unfold openCtx
  repeat' first
    | with_reducible assumption | intro _ | with_reducible apply State.pgsRefuse_keeps | with_reducible apply State.setCtx_keeps
    | with_reducible apply Keeps.ite | split | (clear_value *; split)

theorem execOpen_keeps {b₀ : Bool} {a₀ s : State} (h : Keeps b₀ a₀ s) (c : Nat) {t₀ : State} (e : execOpen c s = .next t₀) : Keeps b₀ a₀ t₀ := by
  unfold execOpen at e
  obtain ⟨-, rfl⟩ := guardWF_next e
  repeat' first
    | with_reducible assumption | intro _ | with_reducible apply State.hostWrite_keeps | with_reducible apply openCtx_keeps

theorem closeCtx_keeps {b₀ : Bool} {a₀ s : State} (h : Keeps b₀ a₀ s) (c : Nat) : Keeps b₀ a₀ (closeCtx c s) := by
  unfold closeCtx
  repeat' first
    | with_reducible assumption | intro _
    | (extract_lets +onlyGivenNames u₀; first | (refine Keeps.cut (m := b₀) (a := a₀) (s := u₀) ?_ fun _ => ?_ <;> [(unfold u₀; clear u₀); ((try clear_value u₀); revert u₀; intro _ _)]) | (revert u₀; intro _))
    | with_reducible apply State.pgsRefuse_keeps | with_reducible apply State.setCtx_keeps
    | with_reducible apply State.toState_keeps | with_reducible apply Keeps.ite | split | (clear_value *; split)
    | (with_reducible refine Keeps.upd ?_ ?_ ?_ ?_ <;> [assumption; rfl; rfl; rfl])

theorem execClose_keeps {b₀ : Bool} {a₀ s : State} (h : Keeps b₀ a₀ s) (c : Nat) {t₀ : State} (e : execClose c s = .next t₀) : Keeps b₀ a₀ t₀ := by
  unfold execClose at e
  obtain ⟨-, rfl⟩ := guardWF_next e
  repeat' first
    | with_reducible assumption | intro _ | with_reducible apply State.hostWrite_keeps | with_reducible apply closeCtx_keeps

theorem State.dropHostOk_keeps {b₀ : Bool} {a₀ s : State} (h : Keeps b₀ a₀ s) (c : Nat) : Keeps b₀ a₀ (State.dropHostOk s c) := by
  unfold State.dropHostOk
  repeat' first
    | with_reducible assumption | intro _
    | (extract_lets +onlyGivenNames u₀; first | (refine Keeps.cut (m := b₀) (a := a₀) (s := u₀) ?_ fun _ => ?_ <;> [(unfold u₀; clear u₀); ((try clear_value u₀); revert u₀; intro _ _)]) | (revert u₀; intro _))
    | with_reducible apply Keeps.ite | split | (clear_value *; split)
    | (with_reducible refine Keeps.upd ?_ ?_ ?_ ?_ <;> [assumption; rfl; rfl; rfl])

theorem State.freeCtx_keeps {b₀ : Bool} {a₀ s : State} (h : Keeps b₀ a₀ s) (c : Nat) : Keeps b₀ a₀ (State.freeCtx s c) := by
  unfold State.freeCtx
  repeat' first
    | with_reducible assumption | intro _ | with_reducible apply State.setCtx_keeps
    | with_reducible apply State.wr_keeps | with_reducible apply State.dropHostOk_keeps
    | (with_reducible refine Keeps.upd ?_ ?_ ?_ ?_ <;> [assumption; rfl; rfl; rfl])

theorem releaseCtx_keeps {b₀ : Bool} {a₀ s : State} (h : Keeps b₀ a₀ s) (c : Nat) : Keeps b₀ a₀ (releaseCtx c s) := by
  unfold releaseCtx
  repeat' first
    | with_reducible assumption | intro _ | with_reducible apply State.pgsRefuse_keeps
    | with_reducible apply State.freeCtx_keeps | with_reducible apply Keeps.ite | split | (clear_value *; split)

theorem execRelease_keeps {b₀ : Bool} {a₀ s : State} (h : Keeps b₀ a₀ s) (c : Nat) {t₀ : State} (e : execRelease c s = .next t₀) : Keeps b₀ a₀ t₀ := by
  unfold execRelease at e
  obtain ⟨-, rfl⟩ := guardWF_next e
  repeat' first
    | with_reducible assumption | intro _ | with_reducible apply State.hostWrite_keeps | with_reducible apply releaseCtx_keeps

theorem bar2Read_keeps {b₀ : Bool} {a₀ s : State} (h : Keeps b₀ a₀ s) (x : Nat) (len : Nat) (ups : List Upset) : Keeps b₀ a₀ (bar2Read x len ups s) := by
  unfold bar2Read
  repeat' first
    | with_reducible assumption | intro _
    | (extract_lets +onlyGivenNames u₀; first | (refine Keeps.cut (m := b₀) (a := a₀) (s := u₀) ?_ fun _ => ?_ <;> [(unfold u₀; clear u₀); ((try clear_value u₀); revert u₀; intro _ _)]) | (revert u₀; intro _))
    | with_reducible apply State.emit_keeps | with_reducible apply State.upset_keeps | with_reducible apply State.readEcc_keeps
    | with_reducible apply State.ev_keeps | with_reducible apply Keeps.ite | split | (clear_value *; split)

theorem execBar2Read_keeps {b₀ : Bool} {a₀ s : State} (h : Keeps b₀ a₀ s) (x : Nat) (len : Nat) (ups : List Upset) {t₀ : State} (e : execBar2Read x len ups s = .next t₀) : Keeps b₀ a₀ t₀ := by
  unfold execBar2Read at e
  obtain ⟨-, rfl⟩ := guardWF_next e
  repeat' first
    | with_reducible assumption | intro _ | with_reducible apply bar2Read_keeps

theorem bar2Write_keeps {a₀ s : State} (h : Keeps false a₀ s) (x : Nat) (data : List Byte) (ups : List Upset) : Keeps false a₀ (bar2Write x data ups s) := by
  unfold bar2Write
  repeat' first
    | with_reducible assumption | intro _
    | (extract_lets +onlyGivenNames u₀; first | (refine Keeps.cut (m := false) (a := a₀) (s := u₀) ?_ fun _ => ?_ <;> [(unfold u₀; clear u₀); ((try clear_value u₀); revert u₀; intro _ _)]) | (refine Keeps.cut (m := false) (a := a₀) (s := u₀.2) ?_ fun _ => ?_ <;> [(unfold u₀; clear u₀); ((try clear_value u₀); revert u₀; intro _ _)]) | (revert u₀; intro _))
    | with_reducible apply State.ev_keeps | with_reducible apply State.deny_keeps
    | with_reducible apply State.upset_keeps | with_reducible apply State.writeBurst_keeps
    | with_reducible apply Keeps.foldl | with_reducible apply Keeps.foldlSnd | with_reducible apply Keeps.foldlFst
    | with_reducible apply Keeps.ite | with_reducible apply Keeps.iteSnd | split | (clear_value *; split)
    | (with_reducible refine Keeps.upd ?_ ?_ ?_ ?_ <;> [assumption; rfl; rfl; rfl])

theorem execBar2Write_keeps {a₀ s : State} (h : Keeps false a₀ s) (x : Nat) (data : List Byte) (ups : List Upset) {t₀ : State} (e : execBar2Write x data ups s = .next t₀) : Keeps false a₀ t₀ := by
  unfold execBar2Write at e
  obtain ⟨-, rfl⟩ := guardWF_next e
  repeat' first
    | with_reducible assumption | intro _ | with_reducible apply bar2Write_keeps

theorem State.imagingStop_keeps {b₀ : Bool} {a₀ s : State} (h : Keeps b₀ a₀ s) (k : Nat) (c : Nat) (r : Nat) (code : Nat) (pos : Nat) (produced : Nat) : Keeps b₀ a₀ (State.imagingStop s k c r code pos produced) := by
  unfold State.imagingStop
  repeat' first
    | with_reducible assumption | intro _
    | (extract_lets +onlyGivenNames u₀; first | (refine Keeps.cut (m := b₀) (a := a₀) (s := u₀) ?_ fun _ => ?_ <;> [(unfold u₀; clear u₀); ((try clear_value u₀); revert u₀; intro _ _)]) | (revert u₀; intro _))
    | with_reducible apply State.late_keeps | with_reducible apply State.engineError_keeps
    | with_reducible apply Keeps.ite | split | (clear_value *; split)
    | (with_reducible refine Keeps.upd ?_ ?_ ?_ ?_ <;> [assumption; rfl; rfl; rfl])

theorem State.imagingRead_keeps {b₀ : Bool} {a₀ s : State} (h : Keeps b₀ a₀ s) (k : Nat) (c : Nat) (r : Nat) (o : Nat) : Keeps b₀ a₀ (State.imagingRead s k c r o) := by
  unfold State.imagingRead
  repeat' first
    | with_reducible assumption | intro _
    | (extract_lets +onlyGivenNames u₀; first | (refine Keeps.cut (m := b₀) (a := a₀) (s := u₀) ?_ fun _ => ?_ <;> [(unfold u₀; clear u₀); ((try clear_value u₀); revert u₀; intro _ _)]) | (refine Keeps.cut (m := b₀) (a := a₀) (s := u₀.2) ?_ fun _ => ?_ <;> [(unfold u₀; clear u₀); ((try clear_value u₀); revert u₀; intro _ _)]) | (revert u₀; intro _))
    | with_reducible apply State.countSingles_keeps | with_reducible apply State.ueHit_keeps
    | with_reducible apply State.imagingStop_keeps | with_reducible apply Keeps.ite
    | with_reducible apply Keeps.iteSnd | split | (clear_value *; split)
    | (with_reducible refine Keeps.upd ?_ ?_ ?_ ?_ <;> [assumption; rfl; rfl; rfl])

theorem imagingReadUe_keeps {b₀ : Bool} {a₀ s : State} (h : Keeps b₀ a₀ s) (k : Nat) (band : Nat) (off : Nat) : Keeps b₀ a₀ (imagingReadUe k band off s) := by
  unfold imagingReadUe
  repeat' first
    | with_reducible assumption | intro _
    | (extract_lets +onlyGivenNames u₀; first | (refine Keeps.cut (m := b₀) (a := a₀) (s := u₀) ?_ fun _ => ?_ <;> [(unfold u₀; clear u₀); ((try clear_value u₀); revert u₀; intro _ _)]) | (revert u₀; intro _))
    | with_reducible apply State.imagingRead_keeps | with_reducible apply State.setEcc_keeps
    | with_reducible apply Keeps.ite | split | (clear_value *; split)
    | (with_reducible refine Keeps.upd ?_ ?_ ?_ ?_ <;> [assumption; rfl; rfl; rfl])

theorem execImagingReadUe_keeps {b₀ : Bool} {a₀ s : State} (h : Keeps b₀ a₀ s) (k : Nat) (band : Nat) (off : Nat) {t₀ : State} (e : execImagingReadUe k band off s = .next t₀) : Keeps b₀ a₀ t₀ := by
  unfold execImagingReadUe at e
  obtain ⟨-, rfl⟩ := guardWF_next e
  repeat' first
    | with_reducible assumption | intro _ | with_reducible apply imagingReadUe_keeps

theorem imagingDecodeError_keeps {b₀ : Bool} {a₀ s : State} (h : Keeps b₀ a₀ s) (k : Nat) (band : Nat) (bus : Bool) : Keeps b₀ a₀ (imagingDecodeError k band bus s) := by
  unfold imagingDecodeError
  repeat' first
    | with_reducible assumption | intro _
    | (extract_lets +onlyGivenNames u₀; first | (refine Keeps.cut (m := b₀) (a := a₀) (s := u₀) ?_ fun _ => ?_ <;> [(unfold u₀; clear u₀); ((try clear_value u₀); revert u₀; intro _ _)]) | (refine Keeps.cut (m := b₀) (a := a₀) (s := u₀.2) ?_ fun _ => ?_ <;> [(unfold u₀; clear u₀); ((try clear_value u₀); revert u₀; intro _ _)]) | (revert u₀; intro _))
    | with_reducible apply State.imagingRead_keeps | with_reducible apply State.fresh_keeps
    | with_reducible apply Keeps.ite | with_reducible apply Keeps.iteSnd | split | (clear_value *; split)
    | (with_reducible refine Keeps.upd ?_ ?_ ?_ ?_ <;> [assumption; rfl; rfl; rfl])

theorem execImagingDecodeError_keeps {b₀ : Bool} {a₀ s : State} (h : Keeps b₀ a₀ s) (k : Nat) (band : Nat) (bus : Bool) {t₀ : State} (e : execImagingDecodeError k band bus s = .next t₀) : Keeps b₀ a₀ t₀ := by
  unfold execImagingDecodeError at e
  obtain ⟨-, rfl⟩ := guardWF_next e
  repeat' first
    | with_reducible assumption | intro _ | with_reducible apply imagingDecodeError_keeps

theorem State.siltBand_keeps {b₀ : Bool} {a₀ s : State} (h : Keeps b₀ a₀ s) (k : Nat) (c : Nat) (avail : Nat) (i : Nat) : Keeps b₀ a₀ (State.siltBand s k c avail i) := by
  unfold State.siltBand
  repeat' first
    | with_reducible assumption | intro _
    | (extract_lets +onlyGivenNames u₀; first | (refine Keeps.cut (m := b₀) (a := a₀) (s := u₀) ?_ fun _ => ?_ <;> [(unfold u₀; clear u₀); ((try clear_value u₀); revert u₀; intro _ _)]) | (refine Keeps.cut (m := b₀) (a := a₀) (s := u₀.2) ?_ fun _ => ?_ <;> [(unfold u₀; clear u₀); ((try clear_value u₀); revert u₀; intro _ _)]) | (revert u₀; intro _))
    | with_reducible apply State.late_keeps | with_reducible apply State.imagingRead_keeps
    | with_reducible apply State.imagingStop_keeps | with_reducible apply State.countSingles_keeps
    | with_reducible apply Keeps.ite | with_reducible apply Keeps.iteSnd | split | (clear_value *; split)
    | (with_reducible refine Keeps.upd ?_ ?_ ?_ ?_ <;> [assumption; rfl; rfl; rfl])

theorem State.siltAdvance_keeps {b₀ : Bool} {a₀ s : State} (h : Keeps b₀ a₀ s) (k : Nat) (c : Nat) (avail : Nat) : Keeps b₀ a₀ (State.siltAdvance s k c avail) := by
  unfold State.siltAdvance
  repeat' first
    | with_reducible assumption | intro _
    | (extract_lets +onlyGivenNames u₀; first | (refine Keeps.cut (m := b₀) (a := a₀) (s := u₀) ?_ fun _ => ?_ <;> [(unfold u₀; clear u₀); ((try clear_value u₀); revert u₀; intro _ _)]) | (revert u₀; intro _))
    | with_reducible apply State.setCtx_keeps | with_reducible apply State.siltBand_keeps
    | with_reducible apply Keeps.foldl | with_reducible apply Keeps.foldlSnd | with_reducible apply Keeps.foldlFst
    | with_reducible apply Keeps.ite | split | (clear_value *; split)
    | (with_reducible refine Keeps.upd ?_ ?_ ?_ ?_ <;> [assumption; rfl; rfl; rfl])

end Sys2Proof.Machine
end

