-- ==== Sys2Proof/Laws/KeepsGate.lean ====
section
/-! SUPPORT. Every operation of Machine/Gate.lean keeps what `Keeps` says. -/

namespace Sys2Proof.Machine

open Sys2Proof

set_option linter.unusedTactic false

set_option linter.unreachableTactic false

theorem State.refuse_keeps {b₀ : Bool} {a₀ s : State} (h : Keeps b₀ a₀ s) (code : Nat) : Keeps b₀ a₀ (State.refuse s code) := by
  unfold State.refuse
  repeat' first
    | with_reducible assumption | intro _ | with_reducible apply State.wr_keeps

theorem State.admitCtx_keeps {b₀ : Bool} {a₀ s : State} (h : Keeps b₀ a₀ s) (c : Nat) : Keeps b₀ a₀ (State.admitCtx s c) := by
  unfold State.admitCtx
  repeat' first
    | with_reducible assumption | intro _
    | (extract_lets +onlyGivenNames u₀; first | (refine Keeps.cut (m := b₀) (a := a₀) (s := u₀) ?_ fun _ => ?_ <;> [(unfold u₀; clear u₀); ((try clear_value u₀); revert u₀; intro _ _)]) | (refine Keeps.cut (m := b₀) (a := a₀) (s := u₀.2) ?_ fun _ => ?_ <;> [(unfold u₀; clear u₀); ((try clear_value u₀); revert u₀; intro _ _)]) | (revert u₀; intro _))
    | with_reducible apply State.refuse_keeps | with_reducible apply State.closeDecision_keeps
    | with_reducible apply State.toState_keeps | with_reducible apply State.setStn_keeps
    | with_reducible apply State.wr_keeps | with_reducible apply State.settleGate_keeps
    | with_reducible apply State.setCtx_keeps | with_reducible apply Keeps.foldl
    | with_reducible apply Keeps.foldlSnd | with_reducible apply Keeps.foldlFst | with_reducible apply Keeps.ite
    | with_reducible apply Keeps.iteSnd | split | (clear_value *; split)
    | (with_reducible refine Keeps.upd ?_ ?_ ?_ ?_ <;> [assumption; rfl; rfl; rfl])

theorem State.passGate_keeps {b₀ : Bool} {a₀ s : State} (h : Keeps b₀ a₀ s) (c : Nat) : Keeps b₀ a₀ (State.passGate s c) := by
  unfold State.passGate
  repeat' first
    | with_reducible assumption | intro _
    | (extract_lets +onlyGivenNames u₀; first | (refine Keeps.cut (m := b₀) (a := a₀) (s := u₀) ?_ fun _ => ?_ <;> [(unfold u₀; clear u₀); ((try clear_value u₀); revert u₀; intro _ _)]) | (revert u₀; intro _))
    | with_reducible apply State.broadcast_keeps | with_reducible apply State.admitCtx_keeps
    | with_reducible apply Keeps.ite | split | (clear_value *; split)
    | (with_reducible refine Keeps.upd ?_ ?_ ?_ ?_ <;> [assumption; rfl; rfl; rfl])

theorem State.gate_keeps {b₀ : Bool} {a₀ s : State} (h : Keeps b₀ a₀ s) : Keeps b₀ a₀ (State.gate s) := by
  unfold State.gate
  repeat' first
    | with_reducible assumption | intro _
    | (extract_lets +onlyGivenNames u₀; first | (refine Keeps.cut (m := b₀) (a := a₀) (s := u₀) ?_ fun _ => ?_ <;> [(unfold u₀; clear u₀); ((try clear_value u₀); revert u₀; intro _ _)]) | (revert u₀; intro _))
    | with_reducible apply State.refuse_keeps | with_reducible apply State.post_keeps
    | with_reducible apply State.passGate_keeps | with_reducible apply Keeps.ite | split | (clear_value *; split)
    | (with_reducible refine Keeps.upd ?_ ?_ ?_ ?_ <;> [assumption; rfl; rfl; rfl])

theorem State.requestGate_keeps {b₀ : Bool} {a₀ s : State} (h : Keeps b₀ a₀ s) : Keeps b₀ a₀ (State.requestGate s) := by
  unfold State.requestGate
  repeat' first
    | with_reducible assumption | intro _
    | (extract_lets +onlyGivenNames u₀; first | (refine Keeps.cut (m := b₀) (a := a₀) (s := u₀) ?_ fun _ => ?_ <;> [(unfold u₀; clear u₀); ((try clear_value u₀); revert u₀; intro _ _)]) | (revert u₀; intro _))
    | with_reducible apply State.gate_keeps | (with_reducible refine Keeps.upd ?_ ?_ ?_ ?_ <;> [assumption; rfl; rfl; rfl])

theorem admissionGateEvaluate_keeps {b₀ : Bool} {a₀ s : State} (h : Keeps b₀ a₀ s) : Keeps b₀ a₀ (admissionGateEvaluate s) := by
  unfold admissionGateEvaluate
  repeat' first
    | with_reducible assumption | intro _
    | (extract_lets +onlyGivenNames u₀; first | (refine Keeps.cut (m := b₀) (a := a₀) (s := u₀) ?_ fun _ => ?_ <;> [(unfold u₀; clear u₀); ((try clear_value u₀); revert u₀; intro _ _)]) | (revert u₀; intro _))
    | with_reducible apply State.gate_keeps | with_reducible apply Keeps.ite | split | (clear_value *; split)
    | (with_reducible refine Keeps.upd ?_ ?_ ?_ ?_ <;> [assumption; rfl; rfl; rfl])

theorem execAdmissionGateEvaluate_keeps {b₀ : Bool} {a₀ s : State} (h : Keeps b₀ a₀ s) {t₀ : State} (e : execAdmissionGateEvaluate s = .next t₀) : Keeps b₀ a₀ t₀ := by
  unfold execAdmissionGateEvaluate at e
  obtain ⟨-, rfl⟩ := guardWF_next e
  repeat' first
    | with_reducible assumption | intro _ | with_reducible apply admissionGateEvaluate_keeps

theorem State.admitAnswer_keeps {b₀ : Bool} {a₀ s : State} (h : Keeps b₀ a₀ s) (c : Nat) (code : Nat) : Keeps b₀ a₀ (State.admitAnswer s c code) := by
  unfold State.admitAnswer
  repeat' first
    | with_reducible assumption | intro _
    | (extract_lets +onlyGivenNames u₀; first | (refine Keeps.cut (m := b₀) (a := a₀) (s := u₀) ?_ fun _ => ?_ <;> [(unfold u₀; clear u₀); ((try clear_value u₀); revert u₀; intro _ _)]) | (revert u₀; intro _))
    | with_reducible apply State.refuse_keeps | with_reducible apply State.passGate_keeps
    | with_reducible apply Keeps.ite | split | (clear_value *; split)
    | (with_reducible refine Keeps.upd ?_ ?_ ?_ ?_ <;> [assumption; rfl; rfl; rfl])

end Sys2Proof.Machine
end

