-- ==== Sys2Proof/Laws/KeepsDma.lean ====
section
/-! SUPPORT. Every operation of Machine/Dma.lean keeps what `Keeps` says. -/

namespace Sys2Proof.Machine

open Sys2Proof

set_option linter.unusedTactic false

set_option linter.unreachableTactic false

theorem State.unhold_keeps {b₀ : Bool} {a₀ s : State} (h : Keeps b₀ a₀ s) (n : Nat) : Keeps b₀ a₀ (State.unhold s n) := by
  unfold State.unhold
  repeat' first
    | with_reducible assumption | intro _
    | (extract_lets +onlyGivenNames u₀; first | (refine Keeps.cut (m := b₀) (a := a₀) (s := u₀) ?_ fun _ => ?_ <;> [(unfold u₀; clear u₀); ((try clear_value u₀); revert u₀; intro _ _)]) | (revert u₀; intro _))
    | (with_reducible refine Keeps.upd ?_ ?_ ?_ ?_ <;> [assumption; rfl; rfl; rfl])

theorem dmaStart_keeps {b₀ : Bool} {a₀ s : State} (h : Keeps b₀ a₀ s) (n : Nat) : Keeps b₀ a₀ (dmaStart n s) := by
  unfold dmaStart
  repeat' first
    | with_reducible assumption | intro _
    | (extract_lets +onlyGivenNames u₀; first | (refine Keeps.cut (m := b₀) (a := a₀) (s := u₀) ?_ fun _ => ?_ <;> [(unfold u₀; clear u₀); ((try clear_value u₀); revert u₀; intro _ _)]) | (revert u₀; intro _))
    | with_reducible apply State.ev_keeps | with_reducible apply State.setChan_keeps | with_reducible apply State.wr_keeps
    | with_reducible apply Keeps.ite | split | (clear_value *; split)
    | (with_reducible refine Keeps.upd ?_ ?_ ?_ ?_ <;> [assumption; rfl; rfl; rfl])

theorem dmaStop_keeps {b₀ : Bool} {a₀ s : State} (h : Keeps b₀ a₀ s) (n : Nat) : Keeps b₀ a₀ (dmaStop n s) := by
  unfold dmaStop
  repeat' first
    | with_reducible assumption | intro _
    | (extract_lets +onlyGivenNames u₀; first | (refine Keeps.cut (m := b₀) (a := a₀) (s := u₀) ?_ fun _ => ?_ <;> [(unfold u₀; clear u₀); ((try clear_value u₀); revert u₀; intro _ _)]) | (refine Keeps.cut (m := b₀) (a := a₀) (s := u₀.2) ?_ fun _ => ?_ <;> [(unfold u₀; clear u₀); ((try clear_value u₀); revert u₀; intro _ _)]) | (revert u₀; intro _))
    | with_reducible apply State.setLane_keeps | with_reducible apply State.setChan_keeps
    | with_reducible apply State.ev_keeps | with_reducible apply State.wr_keeps
    | with_reducible apply State.unhold_keeps | with_reducible apply Keeps.foldl
    | with_reducible apply Keeps.foldlSnd | with_reducible apply Keeps.foldlFst | with_reducible apply Keeps.ite
    | with_reducible apply Keeps.iteSnd | split | (clear_value *; split)
    | (with_reducible refine Keeps.upd ?_ ?_ ?_ ?_ <;> [assumption; rfl; rfl; rfl])

theorem dmaReset_keeps {b₀ : Bool} {a₀ s : State} (h : Keeps b₀ a₀ s) (n : Nat) : Keeps b₀ a₀ (dmaReset n s) := by
  unfold dmaReset
  repeat' first
    | with_reducible assumption | intro _
    | (extract_lets +onlyGivenNames u₀; first | (refine Keeps.cut (m := b₀) (a := a₀) (s := u₀) ?_ fun _ => ?_ <;> [(unfold u₀; clear u₀); ((try clear_value u₀); revert u₀; intro _ _)]) | (revert u₀; intro _))
    | with_reducible apply State.setChan_keeps | with_reducible apply State.wr_keeps | with_reducible apply State.ev_keeps
    | with_reducible apply Keeps.ite | split | (clear_value *; split)

theorem State.endDesc_keeps {b₀ : Bool} {a₀ s : State} (h : Keeps b₀ a₀ s) (n : Nat) (e : Ending) : Keeps b₀ a₀ (State.endDesc s n e) := by
  unfold State.endDesc
  repeat' first
    | with_reducible assumption | intro _
    | (extract_lets +onlyGivenNames u₀; first | (refine Keeps.cut (m := b₀) (a := a₀) (s := u₀) ?_ fun _ => ?_ <;> [(unfold u₀; clear u₀); ((try clear_value u₀); revert u₀; intro _ _)]) | (revert u₀; intro _))
    | with_reducible apply State.wr_keeps | with_reducible apply State.unhold_keeps
    | with_reducible apply State.setChan_keeps
    | (with_reducible refine Keeps.upd ?_ ?_ ?_ ?_ <;> [assumption; rfl; rfl; rfl])

theorem State.compressorIdle_keeps {b₀ : Bool} {a₀ s : State} (h : Keeps b₀ a₀ s) (l : Nat) : Keeps b₀ a₀ (State.compressorIdle s l) := by
  unfold State.compressorIdle
  repeat' first
    | with_reducible assumption | intro _
    | (extract_lets +onlyGivenNames u₀; first | (refine Keeps.cut (m := b₀) (a := a₀) (s := u₀) ?_ fun _ => ?_ <;> [(unfold u₀; clear u₀); ((try clear_value u₀); revert u₀; intro _ _)]) | (revert u₀; intro _))
    | with_reducible apply State.wr_keeps | with_reducible apply State.clr_keeps | with_reducible apply Keeps.ite
    | split | (clear_value *; split) | (with_reducible refine Keeps.upd ?_ ?_ ?_ ?_ <;> [assumption; rfl; rfl; rfl])

theorem State.leaveLane_keeps {b₀ : Bool} {a₀ s : State} (h : Keeps b₀ a₀ s) (n : Nat) : Keeps b₀ a₀ (State.leaveLane s n) := by
  unfold State.leaveLane
  repeat' first
    | with_reducible assumption | intro _
    | (extract_lets +onlyGivenNames u₀; first | (refine Keeps.cut (m := b₀) (a := a₀) (s := u₀) ?_ fun _ => ?_ <;> [(unfold u₀; clear u₀); ((try clear_value u₀); revert u₀; intro _ _)]) | (refine Keeps.cut (m := b₀) (a := a₀) (s := u₀.2) ?_ fun _ => ?_ <;> [(unfold u₀; clear u₀); ((try clear_value u₀); revert u₀; intro _ _)]) | (revert u₀; intro _))
    | with_reducible apply State.compressorIdle_keeps | with_reducible apply State.setLane_keeps
    | with_reducible apply Keeps.foldl | with_reducible apply Keeps.foldlSnd | with_reducible apply Keeps.foldlFst
    | with_reducible apply Keeps.ite | with_reducible apply Keeps.iteSnd | split | (clear_value *; split)
    | (with_reducible refine Keeps.upd ?_ ?_ ?_ ?_ <;> [assumption; rfl; rfl; rfl])

theorem State.abandonBand_keeps {b₀ : Bool} {a₀ s : State} (h : Keeps b₀ a₀ s) (n : Nat) : Keeps b₀ a₀ (State.abandonBand s n) := by
  unfold State.abandonBand
  repeat' first
    | with_reducible assumption | intro _
    | (extract_lets +onlyGivenNames u₀; first | (refine Keeps.cut (m := b₀) (a := a₀) (s := u₀) ?_ fun _ => ?_ <;> [(unfold u₀; clear u₀); ((try clear_value u₀); revert u₀; intro _ _)]) | (revert u₀; intro _))
    | with_reducible apply State.leaveLane_keeps | with_reducible apply State.freeCtx_keeps
    | with_reducible apply State.unhold_keeps | with_reducible apply State.bandBad_keeps
    | with_reducible apply State.reclaim_keeps | with_reducible apply Keeps.ite | split | (clear_value *; split)
    | (with_reducible refine Keeps.upd ?_ ?_ ?_ ?_ <;> [assumption; rfl; rfl; rfl])

theorem descriptorComplete_keeps {b₀ : Bool} {a₀ s : State} (h : Keeps b₀ a₀ s) (n : Nat) : Keeps b₀ a₀ (descriptorComplete n s) := by
  unfold descriptorComplete
  repeat' first
    | with_reducible assumption | intro _
    | (extract_lets +onlyGivenNames u₀; first | (refine Keeps.cut (m := b₀) (a := a₀) (s := u₀) ?_ fun _ => ?_ <;> [(unfold u₀; clear u₀); ((try clear_value u₀); revert u₀; intro _ _)]) | (revert u₀; intro _))
    | with_reducible apply State.emit_keeps | with_reducible apply State.hostWrite_keeps | with_reducible apply State.wr_keeps
    | with_reducible apply State.count_keeps | with_reducible apply State.ev_keeps | with_reducible apply State.setChan_keeps
    | with_reducible apply State.msix_keeps | with_reducible apply Keeps.ite | split | (clear_value *; split)
    | (with_reducible refine Keeps.upd ?_ ?_ ?_ ?_ <;> [assumption; rfl; rfl; rfl])

theorem execDescriptorComplete_keeps {b₀ : Bool} {a₀ s : State} (h : Keeps b₀ a₀ s) (n : Nat) {t₀ : State} (e : execDescriptorComplete n s = .next t₀) : Keeps b₀ a₀ t₀ := by
  unfold execDescriptorComplete at e
  obtain ⟨-, rfl⟩ := guardWF_next e
  repeat' first
    | with_reducible assumption | intro _ | with_reducible apply descriptorComplete_keeps

theorem descriptorFetch_keeps {b₀ : Bool} {a₀ s : State} (h : Keeps b₀ a₀ s) (n : Nat) (bytes : Option (List Byte)) : Keeps b₀ a₀ (descriptorFetch n bytes s) := by
  unfold descriptorFetch
  repeat' first
    | with_reducible assumption | intro _
    | (extract_lets +onlyGivenNames u₀; first | (refine Keeps.cut (m := b₀) (a := a₀) (s := u₀) ?_ fun _ => ?_ <;> [(unfold u₀; clear u₀); ((try clear_value u₀); revert u₀; intro _ _)]) | (revert u₀; intro _))
    | with_reducible apply State.ev_keeps | with_reducible apply State.wr_keeps | with_reducible apply State.setChan_keeps
    | with_reducible apply State.endDesc_keeps | with_reducible apply State.setLane_keeps | with_reducible apply Keeps.ite
    | split | (clear_value *; split) | (with_reducible refine Keeps.upd ?_ ?_ ?_ ?_ <;> [assumption; rfl; rfl; rfl])

theorem execDescriptorFetch_keeps {b₀ : Bool} {a₀ s : State} (h : Keeps b₀ a₀ s) (n : Nat) (d : Option (List Byte)) {t₀ : State} (e : execDescriptorFetch n d s = .next t₀) : Keeps b₀ a₀ t₀ := by
  unfold execDescriptorFetch at e
  obtain ⟨-, rfl⟩ := guardWF_next e
  repeat' first
    | with_reducible assumption | intro _
    | (extract_lets +onlyGivenNames u₀; first | (refine Keeps.cut (m := b₀) (a := a₀) (s := u₀) ?_ fun _ => ?_ <;> [(unfold u₀; clear u₀); ((try clear_value u₀); revert u₀; intro _ _)]) | (revert u₀; intro _))
    | with_reducible apply descriptorFetch_keeps | split | (clear_value *; split)
    | (with_reducible refine Keeps.upd ?_ ?_ ?_ ?_ <;> [assumption; rfl; rfl; rfl])

theorem State.verifyStart_keeps {b₀ : Bool} {a₀ s : State} (h : Keeps b₀ a₀ s) (l : Nat) (r : Nat) : Keeps b₀ a₀ (State.verifyStart s l r) := by
  unfold State.verifyStart
  repeat' first
    | with_reducible assumption | intro _ | with_reducible apply State.bandBad_keeps | with_reducible apply State.wr_keeps
    | with_reducible apply Keeps.ite | split | (clear_value *; split)

theorem State.holdFor_keeps {b₀ : Bool} {a₀ s : State} (h : Keeps b₀ a₀ s) (n : Nat) : Keeps b₀ a₀ (State.holdFor s n) := by
  unfold State.holdFor
  repeat' first
    | with_reducible assumption | intro _
    | (extract_lets +onlyGivenNames u₀; first | (refine Keeps.cut (m := b₀) (a := a₀) (s := u₀) ?_ fun _ => ?_ <;> [(unfold u₀; clear u₀); ((try clear_value u₀); revert u₀; intro _ _)]) | (revert u₀; intro _))
    | with_reducible apply State.wr_keeps | with_reducible apply Keeps.ite | split | (clear_value *; split)
    | (with_reducible refine Keeps.upd ?_ ?_ ?_ ?_ <;> [assumption; rfl; rfl; rfl])

theorem State.detach_keeps {b₀ : Bool} {a₀ s : State} (h : Keeps b₀ a₀ s) (r : Nat) : Keeps b₀ a₀ (State.detach s r) := by
  unfold State.detach
  repeat' first
    | with_reducible assumption | intro _
    | (extract_lets +onlyGivenNames u₀; first | (refine Keeps.cut (m := b₀) (a := a₀) (s := u₀) ?_ fun _ => ?_ <;> [(unfold u₀; clear u₀); ((try clear_value u₀); revert u₀; intro _ _)]) | (refine Keeps.cut (m := b₀) (a := a₀) (s := u₀.2) ?_ fun _ => ?_ <;> [(unfold u₀; clear u₀); ((try clear_value u₀); revert u₀; intro _ _)]) | (revert u₀; intro _))
    | with_reducible apply Keeps.ite | with_reducible apply Keeps.iteSnd | split | (clear_value *; split)
    | (with_reducible refine Keeps.upd ?_ ?_ ?_ ?_ <;> [assumption; rfl; rfl; rfl])

theorem laneAcceptBand_keeps {b₀ : Bool} {a₀ s : State} (h : Keeps b₀ a₀ s) (l : Nat) : Keeps b₀ a₀ (laneAcceptBand l s) := by
  unfold laneAcceptBand
  repeat' first
    | with_reducible assumption | intro _
    | (extract_lets +onlyGivenNames u₀; first | (refine Keeps.cut (m := b₀) (a := a₀) (s := u₀) ?_ fun _ => ?_ <;> [(unfold u₀; clear u₀); ((try clear_value u₀); revert u₀; intro _ _)]) | (revert u₀; intro _))
    | with_reducible apply State.setLane_keeps | with_reducible apply State.holdFor_keeps
    | with_reducible apply State.setChan_keeps | with_reducible apply State.reclaim_keeps
    | with_reducible apply State.detach_keeps | with_reducible apply State.wr_keeps
    | with_reducible apply State.unhold_keeps | with_reducible apply State.endDesc_keeps
    | with_reducible apply State.setBand_keeps | with_reducible apply Keeps.ite | split | (clear_value *; split)
    | (with_reducible refine Keeps.upd ?_ ?_ ?_ ?_ <;> [assumption; rfl; rfl; rfl])

theorem execLaneAcceptBand_keeps {b₀ : Bool} {a₀ s : State} (h : Keeps b₀ a₀ s) (l : Nat) {t₀ : State} (e : execLaneAcceptBand l s = .next t₀) : Keeps b₀ a₀ t₀ := by
  unfold execLaneAcceptBand at e
  obtain ⟨-, rfl⟩ := guardWF_next e
  repeat' first
    | with_reducible assumption | intro _ | with_reducible apply laneAcceptBand_keeps

theorem State.writeStream_keeps {a₀ s : State} (h : Keeps false a₀ s) (es : List Nat) (o : Nat) (l : List Byte) : Keeps false a₀ (State.writeStream s es o l) := by
  unfold State.writeStream
  repeat' first
    | with_reducible assumption | intro _
    | (extract_lets +onlyGivenNames u₀; first | (refine Keeps.cut (m := false) (a := a₀) (s := u₀) ?_ fun _ => ?_ <;> [(unfold u₀; clear u₀); ((try clear_value u₀); revert u₀; intro _ _)]) | (refine Keeps.cut (m := false) (a := a₀) (s := u₀.2) ?_ fun _ => ?_ <;> [(unfold u₀; clear u₀); ((try clear_value u₀); revert u₀; intro _ _)]) | (revert u₀; intro _))
    | with_reducible apply State.writeLoam_keeps | with_reducible apply State.take_keeps
    | with_reducible apply Keeps.foldl | with_reducible apply Keeps.foldlSnd | with_reducible apply Keeps.foldlFst
    | with_reducible apply Keeps.ite | with_reducible apply Keeps.iteSnd | split | (clear_value *; split)
    | (with_reducible refine Keeps.upd ?_ ?_ ?_ ?_ <;> [assumption; rfl; rfl; rfl])

theorem State.closeBand_keeps {b₀ : Bool} {a₀ s : State} (h : Keeps b₀ a₀ s) (n : Nat) (r : Nat) (data : List Byte) (cut : Bool) : Keeps b₀ a₀ (State.closeBand s n r data cut) := by
  unfold State.closeBand
  repeat' first
    | with_reducible assumption | intro _
    | (extract_lets +onlyGivenNames u₀; first | (refine Keeps.cut (m := b₀) (a := a₀) (s := u₀) ?_ fun _ => ?_ <;> [(unfold u₀; clear u₀); ((try clear_value u₀); revert u₀; intro _ _)]) | (revert u₀; intro _))
    | with_reducible apply State.setCtx_keeps | with_reducible apply State.wr_keeps
    | with_reducible apply State.leaveLane_keeps | with_reducible apply State.endDesc_keeps
    | with_reducible apply State.verifyStart_keeps | with_reducible apply State.setBand_keeps
    | with_reducible apply Keeps.ite | split | (clear_value *; split)
    | (with_reducible refine Keeps.upd ?_ ?_ ?_ ?_ <;> [assumption; rfl; rfl; rfl])

theorem State.fillBand_keeps {a₀ s : State} (h : Keeps false a₀ s) (n : Nat) : Keeps false a₀ (State.fillBand s n) := by
  unfold State.fillBand
  repeat' first
    | with_reducible assumption | intro _
    | (extract_lets +onlyGivenNames u₀; first | (refine Keeps.cut (m := false) (a := a₀) (s := u₀) ?_ fun _ => ?_ <;> [(unfold u₀; clear u₀); ((try clear_value u₀); revert u₀; intro _ _)]) | (revert u₀; intro _))
    | with_reducible apply State.holdFor_keeps | with_reducible apply State.take_keeps
    | with_reducible apply State.wr_keeps | with_reducible apply State.leaveLane_keeps
    | with_reducible apply State.writeStream_keeps | with_reducible apply State.unhold_keeps
    | with_reducible apply State.abandonBand_keeps | with_reducible apply State.endDesc_keeps
    | with_reducible apply State.setBand_keeps | with_reducible apply State.closeBand_keeps
    | with_reducible apply Keeps.ite | split | (clear_value *; split)
    | (with_reducible refine Keeps.upd ?_ ?_ ?_ ?_ <;> [assumption; rfl; rfl; rfl])

theorem State.retryHeld_keeps {a₀ s : State} (h : Keeps false a₀ s) : Keeps false a₀ (State.retryHeld s) := by
  unfold State.retryHeld
  repeat' first
    | with_reducible assumption | intro _ | with_reducible apply State.fillBand_keeps
    | with_reducible apply Keeps.foldl | with_reducible apply Keeps.foldlSnd | with_reducible apply Keeps.foldlFst
    | with_reducible apply Keeps.ite | split | (clear_value *; split)
    | (with_reducible refine Keeps.upd ?_ ?_ ?_ ?_ <;> [assumption; rfl; rfl; rfl])

theorem bandReclaimDone_keeps {a₀ s : State} (h : Keeps false a₀ s) : Keeps false a₀ (bandReclaimDone s) := by
  unfold bandReclaimDone
  repeat' first
    | with_reducible assumption | intro _
    | (extract_lets +onlyGivenNames u₀; first | (refine Keeps.cut (m := false) (a := a₀) (s := u₀) ?_ fun _ => ?_ <;> [(unfold u₀; clear u₀); ((try clear_value u₀); revert u₀; intro _ _)]) | (revert u₀; intro _))
    | with_reducible apply State.retryHeld_keeps | with_reducible apply State.setBand_keeps
    | with_reducible apply State.reclaim_keeps | with_reducible apply Keeps.ite | split | (clear_value *; split)
    | (with_reducible refine Keeps.upd ?_ ?_ ?_ ?_ <;> [assumption; rfl; rfl; rfl])

theorem execBandReclaimDone_keeps {a₀ s : State} (h : Keeps false a₀ s) {t₀ : State} (e : execBandReclaimDone s = .next t₀) : Keeps false a₀ t₀ := by
  unfold execBandReclaimDone at e
  injection e with e; subst e
  repeat' first
    | with_reducible assumption | intro _ | with_reducible apply bandReclaimDone_keeps

theorem State.abandonFed_keeps {a₀ s : State} (h : Keeps false a₀ s) (c : Nat) : Keeps false a₀ (State.abandonFed s c) := by
  unfold State.abandonFed
  repeat' first
    | with_reducible assumption | intro _
    | (extract_lets +onlyGivenNames u₀; first | (refine Keeps.cut (m := false) (a := a₀) (s := u₀) ?_ fun _ => ?_ <;> [(unfold u₀; clear u₀); ((try clear_value u₀); revert u₀; intro _ _)]) | (refine Keeps.cut (m := false) (a := a₀) (s := u₀.2) ?_ fun _ => ?_ <;> [(unfold u₀; clear u₀); ((try clear_value u₀); revert u₀; intro _ _)]) | (revert u₀; intro _))
    | with_reducible apply State.setChan_keeps | with_reducible apply State.fillBand_keeps
    | with_reducible apply State.wr_keeps | with_reducible apply State.unhold_keeps
    | with_reducible apply State.setBand_keeps | with_reducible apply Keeps.foldl
    | with_reducible apply Keeps.foldlSnd | with_reducible apply Keeps.foldlFst
    | (with_reducible refine Keeps.upd ?_ ?_ ?_ ?_ <;> [assumption; rfl; rfl; rfl])

theorem cancelCtx_keeps {a₀ s : State} (h : Keeps false a₀ s) (c : Nat) : Keeps false a₀ (cancelCtx c s) := by
  unfold cancelCtx
  repeat' first
    | with_reducible assumption | intro _
    | (extract_lets +onlyGivenNames u₀; first | (refine Keeps.cut (m := false) (a := a₀) (s := u₀) ?_ fun _ => ?_ <;> [(unfold u₀; clear u₀); ((try clear_value u₀); revert u₀; intro _ _)]) | (revert u₀; intro _))
    | with_reducible apply State.spoil_keeps | with_reducible apply State.darkenAll_keeps
    | with_reducible apply State.freeCtx_keeps | with_reducible apply State.abandonFed_keeps
    | with_reducible apply State.closeDecision_keeps | with_reducible apply State.toState_keeps
    | with_reducible apply State.reclaimCtx_keeps | with_reducible apply State.setCtx_keeps
    | with_reducible apply State.pgsRefuse_keeps | with_reducible apply State.dropHostOk_keeps
    | with_reducible apply Keeps.ite | split | (clear_value *; split)
    | (with_reducible refine Keeps.upd ?_ ?_ ?_ ?_ <;> [assumption; rfl; rfl; rfl])

theorem execCancel_keeps {a₀ s : State} (h : Keeps false a₀ s) (c : Nat) {t₀ : State} (e : execCancel c s = .next t₀) : Keeps false a₀ t₀ := by
  unfold execCancel at e
  obtain ⟨-, rfl⟩ := guardWF_next e
  repeat' first
    | with_reducible assumption | intro _ | with_reducible apply State.hostWrite_keeps
    | with_reducible apply guardWF_keeps | with_reducible apply cancelCtx_keeps
    | (with_reducible refine Keeps.upd ?_ ?_ ?_ ?_ <;> [assumption; rfl; rfl; rfl])

theorem State.recordTake_keeps {b₀ : Bool} {a₀ s : State} (h : Keeps b₀ a₀ s) (m : Nat) : Keeps b₀ a₀ (State.recordTake s m).2.2 := by
  unfold State.recordTake
  repeat' first
    | with_reducible assumption | intro _
    | (extract_lets +onlyGivenNames u₀; first | (refine Keeps.cut (m := b₀) (a := a₀) (s := u₀) ?_ fun _ => ?_ <;> [(unfold u₀; clear u₀); ((try clear_value u₀); revert u₀; intro _ _)]) | (revert u₀; intro _))
    | with_reducible apply State.take_keeps
    | (with_reducible refine Keeps.upd ?_ ?_ ?_ ?_ <;> [assumption; rfl; rfl; rfl])

theorem State.captureTake_keeps {b₀ : Bool} {a₀ s : State} (h : Keeps b₀ a₀ s) (m : Nat) : Keeps b₀ a₀ (State.captureTake s m).2.2 := by
  unfold State.captureTake
  repeat' first
    | with_reducible assumption | intro _
    | (extract_lets +onlyGivenNames u₀; first | (refine Keeps.cut (m := b₀) (a := a₀) (s := u₀) ?_ fun _ => ?_ <;> [(unfold u₀; clear u₀); ((try clear_value u₀); revert u₀; intro _ _)]) | (revert u₀; intro _))
    | with_reducible apply State.take_keeps | (with_reducible refine Keeps.upd ?_ ?_ ?_ ?_ <;> [assumption; rfl; rfl; rfl])

theorem State.popPosts_keeps {b₀ : Bool} {a₀ s : State} (h : Keeps b₀ a₀ s) (p m : Nat) : Keeps b₀ a₀ (s.popPosts p m) := by
  refine State.drainWaiting_keeps (h.mbx fun g q hq => ?_)
  rcases Store.mem_set hq with ⟨rfl, -⟩ | hq
  · have := posts_le g p
    simp only [List.length_drop]; omega
  · exact g.posts q hq

theorem State.periphTake_keeps {b₀ : Bool} {a₀ s : State} (h : Keeps b₀ a₀ s) (psel : Nat) (m : Nat) : Keeps b₀ a₀ (State.periphTake s psel m).2.2 := by
  unfold State.periphTake
  repeat' first
    | with_reducible assumption | intro _ | with_reducible apply State.captureTake_keeps
    | with_reducible apply State.popPosts_keeps | with_reducible apply State.recordTake_keeps
    | with_reducible apply State.take_keeps | with_reducible apply Keeps.ite | split | (clear_value *; split)
    | (with_reducible refine Keeps.upd ?_ ?_ ?_ ?_ <;> [assumption; rfl; rfl; rfl])

theorem burstIssue_keeps {a₀ s : State} (h : Keeps false a₀ s) (data : List Byte) (ups : List Upset) : Keeps false a₀ (burstIssue data ups s) := by
  unfold burstIssue
  repeat' first
    | with_reducible assumption | intro _
    | (extract_lets +onlyGivenNames u₀; first | (refine Keeps.cut (m := false) (a := a₀) (s := u₀) ?_ fun _ => ?_ <;> [(unfold u₀; clear u₀); ((try clear_value u₀); revert u₀; intro _ _)]) | (refine Keeps.cut (m := false) (a := a₀) (s := u₀.2) ?_ fun _ => ?_ <;> [(unfold u₀; clear u₀); ((try clear_value u₀); revert u₀; intro _ _)]) | (refine Keeps.cut (m := false) (a := a₀) (s := u₀.2.2) ?_ fun _ => ?_ <;> [(unfold u₀; clear u₀); ((try clear_value u₀); revert u₀; intro _ _)]) | (revert u₀; intro _))
    | with_reducible apply State.periphTake_keeps | with_reducible apply State.setChan_keeps
    | with_reducible apply State.emit_keeps | with_reducible apply State.take_keeps
    | with_reducible apply State.readEcc_keeps | with_reducible apply State.fillBand_keeps
    | with_reducible apply State.wr_keeps | with_reducible apply State.abandonBand_keeps
    | with_reducible apply State.upset_keeps | with_reducible apply State.writeLoam_keeps
    | with_reducible apply State.hostWrite_keeps | with_reducible apply State.endDesc_keeps
    | with_reducible apply Keeps.ite | with_reducible apply Keeps.iteSnd | split | (clear_value *; split)
    | (with_reducible refine Keeps.upd ?_ ?_ ?_ ?_ <;> [assumption; rfl; rfl; rfl])

theorem burstError_keeps {b₀ : Bool} {a₀ s : State} (h : Keeps b₀ a₀ s) (n : Nat) (hostSide : Bool) : Keeps b₀ a₀ (burstError n hostSide s) := by
  unfold burstError
  repeat' first
    | with_reducible assumption | intro _
    | (extract_lets +onlyGivenNames u₀; first | (refine Keeps.cut (m := b₀) (a := a₀) (s := u₀) ?_ fun _ => ?_ <;> [(unfold u₀; clear u₀); ((try clear_value u₀); revert u₀; intro _ _)]) | (revert u₀; intro _))
    | with_reducible apply State.endDesc_keeps | with_reducible apply State.abandonBand_keeps | with_reducible apply Keeps.ite
    | split | (clear_value *; split)

theorem execBurstIssue_keeps {a₀ s : State} (h : Keeps false a₀ s) (data : List Byte) (ups : List Upset) {t₀ : State} (e : execBurstIssue data ups s = .next t₀) : Keeps false a₀ t₀ := by
  unfold execBurstIssue at e
  obtain ⟨-, rfl⟩ := guardWF_next e
  repeat' first
    | with_reducible assumption | intro _ | with_reducible apply burstIssue_keeps

theorem execBurstError_keeps {b₀ : Bool} {a₀ s : State} (h : Keeps b₀ a₀ s) (n : Nat) (hostSide : Bool) {t₀ : State} (e : execBurstError n hostSide s = .next t₀) : Keeps b₀ a₀ t₀ := by
  unfold execBurstError at e
  obtain ⟨-, rfl⟩ := guardWF_next e
  repeat' first
    | with_reducible assumption | intro _ | with_reducible apply burstError_keeps

theorem periphRequest_keeps {b₀ : Bool} {a₀ s : State} (h : Keeps b₀ a₀ s) (psel : Nat) : Keeps b₀ a₀ (periphRequest psel s) := by
  unfold periphRequest
  repeat' first
    | with_reducible assumption | intro _
    | (extract_lets +onlyGivenNames u₀; first | (refine Keeps.cut (m := b₀) (a := a₀) (s := u₀) ?_ fun _ => ?_ <;> [(unfold u₀; clear u₀); ((try clear_value u₀); revert u₀; intro _ _)]) | (revert u₀; intro _))
    | with_reducible apply State.setChan_keeps | with_reducible apply State.wr_keeps | with_reducible apply Keeps.foldl
    | with_reducible apply Keeps.foldlSnd | with_reducible apply Keeps.foldlFst | with_reducible apply Keeps.ite | split
    | (clear_value *; split) | (with_reducible refine Keeps.upd ?_ ?_ ?_ ?_ <;> [assumption; rfl; rfl; rfl])

theorem periphWithdraw_keeps {b₀ : Bool} {a₀ s : State} (h : Keeps b₀ a₀ s) (n : Nat) (real : Nat) : Keeps b₀ a₀ (periphWithdraw n real s) := by
  unfold periphWithdraw
  repeat' first
    | with_reducible assumption | intro _
    | (extract_lets +onlyGivenNames u₀; first | (refine Keeps.cut (m := b₀) (a := a₀) (s := u₀) ?_ fun _ => ?_ <;> [(unfold u₀; clear u₀); ((try clear_value u₀); revert u₀; intro _ _)]) | (revert u₀; intro _))
    | with_reducible apply State.periphTake_keeps | with_reducible apply State.take_keeps
    | with_reducible apply State.emit_keeps | with_reducible apply State.hostWrite_keeps
    | with_reducible apply State.setChan_keeps | with_reducible apply State.count_keeps
    | with_reducible apply State.endDesc_keeps | with_reducible apply Keeps.ite | split | (clear_value *; split)
    | (with_reducible refine Keeps.upd ?_ ?_ ?_ ?_ <;> [assumption; rfl; rfl; rfl])

theorem execPeriphRequest_keeps {b₀ : Bool} {a₀ s : State} (h : Keeps b₀ a₀ s) (psel : Nat) {t₀ : State} (e : execPeriphRequest psel s = .next t₀) : Keeps b₀ a₀ t₀ := by
  unfold execPeriphRequest at e
  obtain ⟨-, rfl⟩ := guardWF_next e
  repeat' first
    | with_reducible assumption | intro _ | with_reducible apply periphRequest_keeps

theorem execPeriphWithdraw_keeps {b₀ : Bool} {a₀ s : State} (h : Keeps b₀ a₀ s) (n : Nat) (real : Nat) {t₀ : State} (e : execPeriphWithdraw n real s = .next t₀) : Keeps b₀ a₀ t₀ := by
  unfold execPeriphWithdraw at e
  obtain ⟨-, rfl⟩ := guardWF_next e
  repeat' first
    | with_reducible assumption | intro _ | with_reducible apply periphWithdraw_keeps

theorem State.idleChannels_keeps {b₀ : Bool} {a₀ s : State} (h : Keeps b₀ a₀ s) : Keeps b₀ a₀ (State.idleChannels s) := by
  unfold State.idleChannels
  repeat' first
    | with_reducible assumption | intro _ | with_reducible apply State.wr_keeps
    | with_reducible apply State.abandonBand_keeps | with_reducible apply State.setChan_keeps
    | with_reducible apply Keeps.foldl | with_reducible apply Keeps.foldlSnd | with_reducible apply Keeps.foldlFst
    | (with_reducible refine Keeps.upd ?_ ?_ ?_ ?_ <;> [assumption; rfl; rfl; rfl])

end Sys2Proof.Machine
end

