-- ==== Sys2Proof/Laws/KeepsJobs.lean ====
section
/-! SUPPORT. Every operation of Machine/Jobs.lean keeps what `Keeps` says. -/

namespace Sys2Proof.Machine

open Sys2Proof

set_option linter.unusedTactic false

set_option linter.unreachableTactic false

theorem State.jobShow_keeps {a₀ s : State} (h : Keeps false a₀ s) (n : Nat) (st : Nat) (x : Stand) : Keeps false a₀ (State.jobShow s n st x) := by
  unfold State.jobShow
  repeat' first
    | with_reducible assumption | intro _
    | (extract_lets +onlyGivenNames u₀; first | (refine Keeps.cut (m := false) (a := a₀) (s := u₀) ?_ fun _ => ?_ <;> [(unfold u₀; clear u₀); ((try clear_value u₀); revert u₀; intro _ _)]) | (revert u₀; intro _))
    | with_reducible apply State.setJob_keeps | with_reducible apply State.wr_keeps
    | with_reducible apply State.writeLoam_keeps | with_reducible apply State.wrB_keeps
    | (with_reducible refine Keeps.upd ?_ ?_ ?_ ?_ <;> [assumption; rfl; rfl; rfl])

theorem State.jobIgnored_keeps {b₀ : Bool} {a₀ s : State} (h : Keeps b₀ a₀ s) (n : Nat) : Keeps b₀ a₀ (State.jobIgnored s n) := by
  unfold State.jobIgnored
  repeat' first
    | with_reducible assumption | intro _ | with_reducible apply State.ev_keeps

theorem State.jobError_keeps {a₀ s : State} (h : Keeps false a₀ s) (n : Nat) (code : Nat) (pos : Nat) : Keeps false a₀ (State.jobError s n code pos) := by
  unfold State.jobError
  repeat' first
    | with_reducible assumption | intro _ | with_reducible apply State.engineError_keeps
    | with_reducible apply State.retryHeld_keeps
    | (with_reducible refine Keeps.upd ?_ ?_ ?_ ?_ <;> [assumption; rfl; rfl; rfl])

theorem State.jobClear_keeps {b₀ : Bool} {a₀ s : State} (h : Keeps b₀ a₀ s) (n : Nat) : Keeps b₀ a₀ (State.jobClear s n) := by
  unfold State.jobClear
  repeat' first
    | with_reducible assumption | intro _
    | (extract_lets +onlyGivenNames u₀; first | (refine Keeps.cut (m := b₀) (a := a₀) (s := u₀) ?_ fun _ => ?_ <;> [(unfold u₀; clear u₀); ((try clear_value u₀); revert u₀; intro _ _)]) | (revert u₀; intro _))
    | with_reducible apply State.clr_keeps
    | (with_reducible refine Keeps.upd ?_ ?_ ?_ ?_ <;> [assumption; rfl; rfl; rfl])

theorem State.regionRead_keeps {b₀ : Bool} {a₀ s : State} (h : Keeps b₀ a₀ s) (a : Nat) (n : Nat) : Keeps b₀ a₀ (State.regionRead s a n).2.2 := by
  unfold State.regionRead
  repeat' first
    | with_reducible assumption | intro _
    | (extract_lets +onlyGivenNames u₀; first | (refine Keeps.cut (m := b₀) (a := a₀) (s := u₀) ?_ fun _ => ?_ <;> [(unfold u₀; clear u₀); ((try clear_value u₀); revert u₀; intro _ _)]) | (revert u₀; intro _))
    | with_reducible apply State.countBy_keeps | with_reducible apply Keeps.ite | split | (clear_value *; split)
    | (with_reducible refine Keeps.upd ?_ ?_ ?_ ?_ <;> [assumption; rfl; rfl; rfl])

theorem State.jobBegin_keeps {a₀ s : State} (h : Keeps false a₀ s) (n : Nat) : Keeps false a₀ (State.jobBegin s n) := by
  unfold State.jobBegin
  repeat' first
    | with_reducible assumption | intro _
    | (extract_lets +onlyGivenNames u₀; first | (refine Keeps.cut (m := false) (a := a₀) (s := u₀) ?_ fun _ => ?_ <;> [(unfold u₀; clear u₀); ((try clear_value u₀); revert u₀; intro _ _)]) | (refine Keeps.cut (m := false) (a := a₀) (s := u₀.2) ?_ fun _ => ?_ <;> [(unfold u₀; clear u₀); ((try clear_value u₀); revert u₀; intro _ _)]) | (refine Keeps.cut (m := false) (a := a₀) (s := u₀.2.2) ?_ fun _ => ?_ <;> [(unfold u₀; clear u₀); ((try clear_value u₀); revert u₀; intro _ _)]) | (revert u₀; intro _))
    | with_reducible apply State.setJob_keeps | with_reducible apply State.jobIgnored_keeps
    | with_reducible apply State.retryHeld_keeps | with_reducible apply State.regionRead_keeps
    | with_reducible apply State.jobError_keeps | with_reducible apply State.wr_keeps
    | with_reducible apply State.clr_keeps | with_reducible apply State.jobClear_keeps
    | with_reducible apply Keeps.ite | with_reducible apply Keeps.iteSnd | split | (clear_value *; split)
    | (with_reducible refine Keeps.upd ?_ ?_ ?_ ?_ <;> [assumption; rfl; rfl; rfl])

theorem State.jobAgain_keeps {a₀ s : State} (h : Keeps false a₀ s) (n : Nat) (newIn : Bool) (newOut : Bool) : Keeps false a₀ (State.jobAgain s n newIn newOut) := by
  unfold State.jobAgain
  repeat' first
    | with_reducible assumption | intro _
    | (extract_lets +onlyGivenNames u₀; first | (refine Keeps.cut (m := false) (a := a₀) (s := u₀) ?_ fun _ => ?_ <;> [(unfold u₀; clear u₀); ((try clear_value u₀); revert u₀; intro _ _)]) | (refine Keeps.cut (m := false) (a := a₀) (s := u₀.2) ?_ fun _ => ?_ <;> [(unfold u₀; clear u₀); ((try clear_value u₀); revert u₀; intro _ _)]) | (refine Keeps.cut (m := false) (a := a₀) (s := u₀.2.2) ?_ fun _ => ?_ <;> [(unfold u₀; clear u₀); ((try clear_value u₀); revert u₀; intro _ _)]) | (revert u₀; intro _))
    | with_reducible apply State.setJob_keeps | with_reducible apply State.jobIgnored_keeps
    | with_reducible apply State.retryHeld_keeps | with_reducible apply State.regionRead_keeps
    | with_reducible apply State.jobError_keeps | with_reducible apply State.wr_keeps
    | with_reducible apply Keeps.ite | with_reducible apply Keeps.iteSnd | split | (clear_value *; split)
    | (with_reducible refine Keeps.upd ?_ ?_ ?_ ?_ <;> [assumption; rfl; rfl; rfl])

theorem State.jobHalt_keeps {a₀ s : State} (h : Keeps false a₀ s) (n : Nat) (units : Nat) : Keeps false a₀ (State.jobHalt s n units) := by
  unfold State.jobHalt
  repeat' first
    | with_reducible assumption | intro _
    | (extract_lets +onlyGivenNames u₀; first | (refine Keeps.cut (m := false) (a := a₀) (s := u₀) ?_ fun _ => ?_ <;> [(unfold u₀; clear u₀); ((try clear_value u₀); revert u₀; intro _ _)]) | (refine Keeps.cut (m := false) (a := a₀) (s := u₀.2) ?_ fun _ => ?_ <;> [(unfold u₀; clear u₀); ((try clear_value u₀); revert u₀; intro _ _)]) | (revert u₀; intro _))
    | with_reducible apply State.ev_keeps | with_reducible apply State.jobIgnored_keeps
    | with_reducible apply State.jobShow_keeps | with_reducible apply Keeps.ite | with_reducible apply Keeps.iteSnd
    | split | (clear_value *; split) | (with_reducible refine Keeps.upd ?_ ?_ ?_ ?_ <;> [assumption; rfl; rfl; rfl])

theorem State.jobDrop_keeps {a₀ s : State} (h : Keeps false a₀ s) (n : Nat) : Keeps false a₀ (State.jobDrop s n) := by
  unfold State.jobDrop
  repeat' first
    | with_reducible assumption | intro _ | with_reducible apply State.setJob_keeps
    | with_reducible apply State.jobClear_keeps | with_reducible apply State.jobIgnored_keeps
    | with_reducible apply State.wr_keeps | with_reducible apply State.retryHeld_keeps
    | with_reducible apply Keeps.ite | split | (clear_value *; split)
    | (with_reducible refine Keeps.upd ?_ ?_ ?_ ?_ <;> [assumption; rfl; rfl; rfl])

theorem State.jctl_keeps {a₀ s : State} (h : Keeps false a₀ s) (n : Nat) (v : Nat) : Keeps false a₀ (State.jctl s n v) := by
  unfold State.jctl
  repeat' first
    | with_reducible assumption | intro _
    | (extract_lets +onlyGivenNames u₀; first | (refine Keeps.cut (m := false) (a := a₀) (s := u₀) ?_ fun _ => ?_ <;> [(unfold u₀; clear u₀); ((try clear_value u₀); revert u₀; intro _ _)]) | (revert u₀; intro _))
    | with_reducible apply State.jobDrop_keeps | with_reducible apply State.jobBegin_keeps
    | with_reducible apply State.jobAgain_keeps | with_reducible apply State.jobHalt_keeps | with_reducible apply Keeps.ite
    | split | (clear_value *; split)

theorem execJobStart_keeps {a₀ s : State} (h : Keeps false a₀ s) (n : Nat) (v : Word) {t₀ : State} (e : execJobStart n v s = .next t₀) : Keeps false a₀ t₀ := by
  unfold execJobStart at e
  obtain ⟨-, rfl⟩ := guardWF_next e
  repeat' first
    | with_reducible assumption | intro _ | with_reducible apply State.hostWrite_keeps | with_reducible apply State.jctl_keeps
    | with_reducible apply Keeps.ite | split | (clear_value *; split)

theorem execJobResume_keeps {a₀ s : State} (h : Keeps false a₀ s) (n : Nat) (v : Word) {t₀ : State} (e : execJobResume n v s = .next t₀) : Keeps false a₀ t₀ := by
  unfold execJobResume at e
  obtain ⟨-, rfl⟩ := guardWF_next e
  repeat' first
    | with_reducible assumption | intro _ | with_reducible apply State.hostWrite_keeps | with_reducible apply State.jctl_keeps
    | with_reducible apply Keeps.ite | split | (clear_value *; split)

theorem execJobStop_keeps {a₀ s : State} (h : Keeps false a₀ s) (n : Nat) (units : Nat) {t₀ : State} (e : execJobStop n units s = .next t₀) : Keeps false a₀ t₀ := by
  unfold execJobStop at e
  obtain ⟨-, rfl⟩ := guardWF_next e
  repeat' first
    | with_reducible assumption | intro _ | with_reducible apply State.hostWrite_keeps
    | with_reducible apply State.jobHalt_keeps | with_reducible apply Keeps.ite | split | (clear_value *; split)

theorem execJobAbort_keeps {a₀ s : State} (h : Keeps false a₀ s) (n : Nat) {t₀ : State} (e : execJobAbort n s = .next t₀) : Keeps false a₀ t₀ := by
  unfold execJobAbort at e
  obtain ⟨-, rfl⟩ := guardWF_next e
  repeat' first
    | with_reducible assumption | intro _ | with_reducible apply State.hostWrite_keeps
    | with_reducible apply State.jobDrop_keeps | with_reducible apply guardWF_keeps | with_reducible apply Keeps.ite
    | split | (clear_value *; split) | (with_reducible refine Keeps.upd ?_ ?_ ?_ ?_ <;> [assumption; rfl; rfl; rfl])

theorem State.jobReach_keeps {a₀ s : State} (h : Keeps false a₀ s) (n : Nat) (st : Nat) (h : Halt) (f : CmpF) : Keeps false a₀ (State.jobReach s n st h f) := by
  unfold State.jobReach
  repeat' first
    | with_reducible assumption | intro _
    | (extract_lets +onlyGivenNames u₀; first | (refine Keeps.cut (m := false) (a := a₀) (s := u₀) ?_ fun _ => ?_ <;> [(unfold u₀; clear u₀); ((try clear_value u₀); revert u₀; intro _ _)]) | (revert u₀; intro _))
    | with_reducible apply State.jobShow_keeps | with_reducible apply State.ev_keeps | with_reducible apply Keeps.ite | split
    | (clear_value *; split)

theorem execJobOutFull_keeps {a₀ s : State} (h : Keeps false a₀ s) (n : Nat) {t₀ : State} (e : execJobOutFull n s = .next t₀) : Keeps false a₀ t₀ := by
  unfold execJobOutFull at e
  obtain ⟨-, rfl⟩ := guardWF_next e
  repeat' first
    | with_reducible assumption | intro _ | with_reducible apply State.jobReach_keeps

theorem execJobNeedInput_keeps {a₀ s : State} (h : Keeps false a₀ s) (n : Nat) {t₀ : State} (e : execJobNeedInput n s = .next t₀) : Keeps false a₀ t₀ := by
  unfold execJobNeedInput at e
  obtain ⟨-, rfl⟩ := guardWF_next e
  repeat' first
    | with_reducible assumption | intro _ | with_reducible apply State.jobReach_keeps

theorem execJobDone_keeps {a₀ s : State} (h : Keeps false a₀ s) (n : Nat) {t₀ : State} (e : execJobDone n s = .next t₀) : Keeps false a₀ t₀ := by
  unfold execJobDone at e
  obtain ⟨-, rfl⟩ := guardWF_next e
  repeat' first
    | with_reducible assumption | intro _ | with_reducible apply State.jobReach_keeps
    | with_reducible apply State.retryHeld_keeps | with_reducible apply guardWF_keeps
    | (with_reducible refine Keeps.upd ?_ ?_ ?_ ?_ <;> [assumption; rfl; rfl; rfl])

theorem State.jobStopAt_keeps {a₀ s : State} (h : Keeps false a₀ s) (n : Nat) (x : Stand) : Keeps false a₀ (State.jobStopAt s n x) := by
  unfold State.jobStopAt
  repeat' first
    | with_reducible assumption | intro _
    | (extract_lets +onlyGivenNames u₀; first | (refine Keeps.cut (m := false) (a := a₀) (s := u₀) ?_ fun _ => ?_ <;> [(unfold u₀; clear u₀); ((try clear_value u₀); revert u₀; intro _ _)]) | (refine Keeps.cut (m := false) (a := a₀) (s := u₀.2) ?_ fun _ => ?_ <;> [(unfold u₀; clear u₀); ((try clear_value u₀); revert u₀; intro _ _)]) | (revert u₀; intro _))
    | with_reducible apply State.jobError_keeps | with_reducible apply State.ueHit_keeps
    | with_reducible apply State.jobShow_keeps | with_reducible apply Keeps.ite | with_reducible apply Keeps.iteSnd
    | split | (clear_value *; split) | (with_reducible refine Keeps.upd ?_ ?_ ?_ ?_ <;> [assumption; rfl; rfl; rfl])

theorem jobFails_keeps {a₀ s : State} (h : Keeps false a₀ s) (n : Nat) (bus : Bool) : Keeps false a₀ (jobFails n bus s) := by
  unfold jobFails
  repeat' first
    | with_reducible assumption | intro _
    | (extract_lets +onlyGivenNames u₀; first | (refine Keeps.cut (m := false) (a := a₀) (s := u₀) ?_ fun _ => ?_ <;> [(unfold u₀; clear u₀); ((try clear_value u₀); revert u₀; intro _ _)]) | (refine Keeps.cut (m := false) (a := a₀) (s := u₀.2) ?_ fun _ => ?_ <;> [(unfold u₀; clear u₀); ((try clear_value u₀); revert u₀; intro _ _)]) | (revert u₀; intro _))
    | with_reducible apply State.setJob_keeps | with_reducible apply State.fresh_keeps
    | with_reducible apply State.jobStopAt_keeps | with_reducible apply State.take_keeps
    | with_reducible apply Keeps.ite | with_reducible apply Keeps.iteSnd | split | (clear_value *; split)
    | (with_reducible refine Keeps.upd ?_ ?_ ?_ ?_ <;> [assumption; rfl; rfl; rfl])

theorem execJobError_keeps {a₀ s : State} (h : Keeps false a₀ s) (n : Nat) (bus : Bool) {t₀ : State} (e : execJobError n bus s = .next t₀) : Keeps false a₀ t₀ := by
  unfold execJobError at e
  obtain ⟨-, rfl⟩ := guardWF_next e
  repeat' first
    | with_reducible assumption | intro _ | with_reducible apply jobFails_keeps

theorem State.jobForget_keeps {b₀ : Bool} {a₀ s : State} (h : Keeps b₀ a₀ s) (n : Nat) (st : Nat) : Keeps b₀ a₀ (State.jobForget s n st) := by
  unfold State.jobForget
  repeat' first
    | with_reducible assumption | intro _ | with_reducible apply State.setJob_keeps
    | with_reducible apply State.jobClear_keeps | with_reducible apply State.wr_keeps
    | (with_reducible refine Keeps.upd ?_ ?_ ?_ ?_ <;> [assumption; rfl; rfl; rfl])

end Sys2Proof.Machine
end

