-- ==== Sys2Proof/Laws/KeepsLink.lean ====
section
/-! SUPPORT. Every operation of Machine/Link.lean keeps what `Keeps` says. -/

namespace Sys2Proof.Machine

open Sys2Proof

set_option linter.unusedTactic false

set_option linter.unreachableTactic false

theorem State.send_keeps {b₀ : Bool} {a₀ s : State} (h : Keeps b₀ a₀ s) (k : Nat) (ty : Nat) (l : List Nat) : Keeps b₀ a₀ (State.send s k ty l) := by
  unfold State.send
  repeat' first
    | with_reducible assumption | intro _ | with_reducible apply State.emit_keeps
    | (with_reducible refine Keeps.upd ?_ ?_ ?_ ?_ <;> [assumption; rfl; rfl; rfl])

theorem State.idle_keeps {b₀ : Bool} {a₀ s : State} (h : Keeps b₀ a₀ s) (k : Nat) (st : Nat) : Keeps b₀ a₀ (State.idle s k st) := by
  unfold State.idle
  repeat' first
    | with_reducible assumption | intro _ | with_reducible apply State.send_keeps

theorem State.setBeam_keeps {b₀ : Bool} {a₀ s : State} (h : Keeps b₀ a₀ s) (k : Nat) (b : Nat) (x : Beam) : Keeps b₀ a₀ (State.setBeam s k b x) := by
  unfold State.setBeam
  repeat' first
    | with_reducible assumption | intro _ | with_reducible apply State.setLnk_keeps

theorem State.setBeamSt_keeps {b₀ : Bool} {a₀ s : State} (h : Keeps b₀ a₀ s) (k : Nat) (b : Nat) (st : Nat) (cause : Nat) : Keeps b₀ a₀ (State.setBeamSt s k b st cause) := by
  unfold State.setBeamSt
  repeat' first
    | with_reducible assumption | intro _ | with_reducible apply State.wr_keeps

theorem State.sendDriveList_keeps {b₀ : Bool} {a₀ s : State} (h : Keeps b₀ a₀ s) (k : Nat) (l : List (Nat × Nat × Nat)) : Keeps b₀ a₀ (State.sendDriveList s k l) := by
  unfold State.sendDriveList
  repeat' first
    | with_reducible assumption | intro _ | with_reducible apply State.send_keeps | with_reducible apply Keeps.foldl
    | with_reducible apply Keeps.foldlSnd | with_reducible apply Keeps.foldlFst
    | (with_reducible refine Keeps.upd ?_ ?_ ?_ ?_ <;> [assumption; rfl; rfl; rfl])

theorem State.sendSet_keeps {b₀ : Bool} {a₀ s : State} (h : Keeps b₀ a₀ s) (k : Nat) (pages : List (List Nat)) : Keeps b₀ a₀ (State.sendSet s k pages) := by
  unfold State.sendSet
  repeat' first
    | with_reducible assumption | intro _
    | (extract_lets +onlyGivenNames u₀; first | (refine Keeps.cut (m := b₀) (a := a₀) (s := u₀) ?_ fun _ => ?_ <;> [(unfold u₀; clear u₀); ((try clear_value u₀); revert u₀; intro _ _)]) | (revert u₀; intro _))
    | with_reducible apply State.setLnk_keeps | with_reducible apply State.send_keeps | with_reducible apply Keeps.foldl
    | with_reducible apply Keeps.foldlSnd | with_reducible apply Keeps.foldlFst
    | (with_reducible refine Keeps.upd ?_ ?_ ?_ ?_ <;> [assumption; rfl; rfl; rfl])

theorem State.queueSet_keeps {b₀ : Bool} {a₀ s : State} (h : Keeps b₀ a₀ s) (k : Nat) : Keeps b₀ a₀ (State.queueSet s k) := by
  unfold State.queueSet
  repeat' first
    | with_reducible assumption | intro _
    | (extract_lets +onlyGivenNames u₀; first | (refine Keeps.cut (m := b₀) (a := a₀) (s := u₀) ?_ fun _ => ?_ <;> [(unfold u₀; clear u₀); ((try clear_value u₀); revert u₀; intro _ _)]) | (revert u₀; intro _))
    | with_reducible apply State.setLnk_keeps | with_reducible apply Keeps.ite | split | (clear_value *; split)
    | (with_reducible refine Keeps.upd ?_ ?_ ?_ ?_ <;> [assumption; rfl; rfl; rfl])

theorem timingSetSend_keeps {b₀ : Bool} {a₀ s : State} (h : Keeps b₀ a₀ s) (k : Nat) : Keeps b₀ a₀ (timingSetSend k s) := by
  unfold timingSetSend
  repeat' first
    | with_reducible assumption | intro _
    | (extract_lets +onlyGivenNames u₀; first | (refine Keeps.cut (m := b₀) (a := a₀) (s := u₀) ?_ fun _ => ?_ <;> [(unfold u₀; clear u₀); ((try clear_value u₀); revert u₀; intro _ _)]) | (revert u₀; intro _))
    | with_reducible apply State.setLnk_keeps | with_reducible apply State.sendSet_keeps | with_reducible apply Keeps.ite
    | split | (clear_value *; split) | (with_reducible refine Keeps.upd ?_ ?_ ?_ ?_ <;> [assumption; rfl; rfl; rfl])

theorem execTimingSetSend_keeps {b₀ : Bool} {a₀ s : State} (h : Keeps b₀ a₀ s) (k : Nat) {t₀ : State} (e : execTimingSetSend k s = .next t₀) : Keeps b₀ a₀ t₀ := by
  unfold execTimingSetSend at e
  obtain ⟨-, rfl⟩ := guardWF_next e
  repeat' first
    | with_reducible assumption | intro _ | with_reducible apply timingSetSend_keeps

theorem State.toLink_keeps {b₀ : Bool} {a₀ s : State} (h : Keeps b₀ a₀ s) (k : Nat) (st : Nat) : Keeps b₀ a₀ (State.toLink s k st) := by
  unfold State.toLink
  repeat' first
    | with_reducible assumption | intro _
    | (extract_lets +onlyGivenNames u₀; first | (refine Keeps.cut (m := b₀) (a := a₀) (s := u₀) ?_ fun _ => ?_ <;> [(unfold u₀; clear u₀); ((try clear_value u₀); revert u₀; intro _ _)]) | (revert u₀; intro _))
    | with_reducible apply State.wr_keeps | with_reducible apply State.spoilStation_keeps | with_reducible apply Keeps.ite
    | split | (clear_value *; split)

theorem State.linkFault_keeps {b₀ : Bool} {a₀ s : State} (h : Keeps b₀ a₀ s) (k : Nat) (cause : Nat) : Keeps b₀ a₀ (State.linkFault s k cause) := by
  unfold State.linkFault
  repeat' first
    | with_reducible assumption | intro _ | with_reducible apply State.toLink_keeps | with_reducible apply State.wr_keeps
    | with_reducible apply State.idle_keeps

theorem State.linkStandby_keeps {b₀ : Bool} {a₀ s : State} (h : Keeps b₀ a₀ s) (k : Nat) : Keeps b₀ a₀ (State.linkStandby s k) := by
  unfold State.linkStandby
  repeat' first
    | with_reducible assumption | intro _
    | (extract_lets +onlyGivenNames u₀; first | (refine Keeps.cut (m := b₀) (a := a₀) (s := u₀) ?_ fun _ => ?_ <;> [(unfold u₀; clear u₀); ((try clear_value u₀); revert u₀; intro _ _)]) | (revert u₀; intro _))
    | with_reducible apply State.setBeam_keeps | with_reducible apply State.wr_keeps
    | with_reducible apply State.setLnk_keeps | with_reducible apply State.toLink_keeps
    | with_reducible apply State.idle_keeps | with_reducible apply Keeps.foldl | with_reducible apply Keeps.foldlSnd
    | with_reducible apply Keeps.foldlFst | with_reducible apply Keeps.ite | split | (clear_value *; split)
    | (with_reducible refine Keeps.upd ?_ ?_ ?_ ?_ <;> [assumption; rfl; rfl; rfl])

theorem State.tryActive_keeps {b₀ : Bool} {a₀ s : State} (h : Keeps b₀ a₀ s) (k : Nat) : Keeps b₀ a₀ (State.tryActive s k) := by
  unfold State.tryActive
  repeat' first
    | with_reducible assumption | intro _ | with_reducible apply State.wr_keeps | with_reducible apply State.idle_keeps
    | with_reducible apply Keeps.ite | split | (clear_value *; split)

theorem hpresQualified_keeps {b₀ : Bool} {a₀ s : State} (h : Keeps b₀ a₀ s) (k : Nat) (hid : Nat) : Keeps b₀ a₀ (hpresQualified k hid s) := by
  unfold hpresQualified
  repeat' first
    | with_reducible assumption | intro _
    | (extract_lets +onlyGivenNames u₀; first | (refine Keeps.cut (m := b₀) (a := a₀) (s := u₀) ?_ fun _ => ?_ <;> [(unfold u₀; clear u₀); ((try clear_value u₀); revert u₀; intro _ _)]) | (revert u₀; intro _))
    | with_reducible apply State.wr_keeps | with_reducible apply State.idle_keeps | with_reducible apply State.linkFault_keeps
    | with_reducible apply Keeps.ite | split | (clear_value *; split)

theorem execHpresQualified_keeps {b₀ : Bool} {a₀ s : State} (h : Keeps b₀ a₀ s) (k : Nat) (hid : Nat) {t₀ : State} (e : execHpresQualified k hid s = .next t₀) : Keeps b₀ a₀ t₀ := by
  unfold execHpresQualified at e
  obtain ⟨-, rfl⟩ := guardWF_next e
  repeat' first
    | with_reducible assumption | intro _ | with_reducible apply hpresQualified_keeps

theorem State.linkDrop_keeps {b₀ : Bool} {a₀ s : State} (h : Keeps b₀ a₀ s) (k : Nat) (cause : Nat) : Keeps b₀ a₀ (State.linkDrop s k cause) := by
  unfold State.linkDrop
  repeat' first
    | with_reducible assumption | intro _ | with_reducible apply State.linkFault_keeps | with_reducible apply Keeps.ite | split
    | (clear_value *; split)

theorem execHpresLoss_keeps {b₀ : Bool} {a₀ s : State} (h : Keeps b₀ a₀ s) (k : Nat) {t₀ : State} (e : execHpresLoss k s = .next t₀) : Keeps b₀ a₀ t₀ := by
  unfold execHpresLoss at e
  obtain ⟨-, rfl⟩ := guardWF_next e
  repeat' first
    | with_reducible assumption | intro _ | with_reducible apply State.clr_keeps | with_reducible apply State.linkDrop_keeps
    | with_reducible apply Keeps.ite | split | (clear_value *; split)

theorem execRxLockLoss_keeps {b₀ : Bool} {a₀ s : State} (h : Keeps b₀ a₀ s) (k : Nat) {t₀ : State} (e : execRxLockLoss k s = .next t₀) : Keeps b₀ a₀ t₀ := by
  unfold execRxLockLoss at e
  obtain ⟨-, rfl⟩ := guardWF_next e
  repeat' first
    | with_reducible assumption | intro _ | with_reducible apply State.linkDrop_keeps

theorem execStatusTimeout_keeps {b₀ : Bool} {a₀ s : State} (h : Keeps b₀ a₀ s) (k : Nat) {t₀ : State} (e : execStatusTimeout k s = .next t₀) : Keeps b₀ a₀ t₀ := by
  unfold execStatusTimeout at e
  obtain ⟨-, rfl⟩ := guardWF_next e
  repeat' first
    | with_reducible assumption | intro _ | with_reducible apply State.linkDrop_keeps

theorem execLinkTrainTimeout_keeps {b₀ : Bool} {a₀ s : State} (h : Keeps b₀ a₀ s) (k : Nat) {t₀ : State} (e : execLinkTrainTimeout k s = .next t₀) : Keeps b₀ a₀ t₀ := by
  unfold execLinkTrainTimeout at e
  obtain ⟨-, rfl⟩ := guardWF_next e
  repeat' first
    | with_reducible assumption | intro _ | with_reducible apply State.linkFault_keeps | with_reducible apply Keeps.ite | split
    | (clear_value *; split)

theorem execIdentTimeout_keeps {b₀ : Bool} {a₀ s : State} (h : Keeps b₀ a₀ s) (k : Nat) {t₀ : State} (e : execIdentTimeout k s = .next t₀) : Keeps b₀ a₀ t₀ := by
  unfold execIdentTimeout at e
  obtain ⟨-, rfl⟩ := guardWF_next e
  repeat' first
    | with_reducible assumption | intro _ | with_reducible apply State.linkFault_keeps | with_reducible apply Keeps.ite | split
    | (clear_value *; split)

theorem linkRxLocked_keeps {b₀ : Bool} {a₀ s : State} (h : Keeps b₀ a₀ s) (k : Nat) : Keeps b₀ a₀ (linkRxLocked k s) := by
  unfold linkRxLocked
  repeat' first
    | with_reducible assumption | intro _
    | (extract_lets +onlyGivenNames u₀; first | (refine Keeps.cut (m := b₀) (a := a₀) (s := u₀) ?_ fun _ => ?_ <;> [(unfold u₀; clear u₀); ((try clear_value u₀); revert u₀; intro _ _)]) | (revert u₀; intro _))
    | with_reducible apply State.send_keeps | with_reducible apply State.wr_keeps
    | with_reducible apply State.setLnk_keeps | with_reducible apply Keeps.ite | split | (clear_value *; split)
    | (with_reducible refine Keeps.upd ?_ ?_ ?_ ?_ <;> [assumption; rfl; rfl; rfl])

theorem execLinkRxLocked_keeps {b₀ : Bool} {a₀ s : State} (h : Keeps b₀ a₀ s) (k : Nat) {t₀ : State} (e : execLinkRxLocked k s = .next t₀) : Keeps b₀ a₀ t₀ := by
  unfold execLinkRxLocked at e
  obtain ⟨-, rfl⟩ := guardWF_next e
  repeat' first
    | with_reducible assumption | intro _ | with_reducible apply linkRxLocked_keeps

theorem State.cableShow_keeps {b₀ : Bool} {a₀ s : State} (h : Keeps b₀ a₀ s) (k : Nat) : Keeps b₀ a₀ (State.cableShow s k) := by
  unfold State.cableShow
  repeat' first
    | with_reducible assumption | intro _
    | (extract_lets +onlyGivenNames u₀; first | (refine Keeps.cut (m := b₀) (a := a₀) (s := u₀) ?_ fun _ => ?_ <;> [(unfold u₀; clear u₀); ((try clear_value u₀); revert u₀; intro _ _)]) | (revert u₀; intro _))
    | with_reducible apply State.ev_keeps | with_reducible apply State.wr_keeps | with_reducible apply Keeps.ite
    | split | (clear_value *; split) | (with_reducible refine Keeps.upd ?_ ?_ ?_ ?_ <;> [assumption; rfl; rfl; rfl])

theorem rxIdent_keeps {b₀ : Bool} {a₀ s : State} (h : Keeps b₀ a₀ s) (k : Nat) (w : List Byte) : Keeps b₀ a₀ (rxIdent k w s) := by
  unfold rxIdent
  repeat' first
    | with_reducible assumption | intro _
    | (extract_lets +onlyGivenNames u₀; first | (refine Keeps.cut (m := b₀) (a := a₀) (s := u₀) ?_ fun _ => ?_ <;> [(unfold u₀; clear u₀); ((try clear_value u₀); revert u₀; intro _ _)]) | (revert u₀; intro _))
    | with_reducible apply State.cableShow_keeps | with_reducible apply State.sendSet_keeps
    | with_reducible apply State.linkFault_keeps | with_reducible apply State.wr_keeps
    | with_reducible apply State.setLnk_keeps | with_reducible apply State.sendDriveList_keeps
    | with_reducible apply Keeps.foldl | with_reducible apply Keeps.foldlSnd | with_reducible apply Keeps.foldlFst
    | with_reducible apply Keeps.ite | split | (clear_value *; split)
    | (with_reducible refine Keeps.upd ?_ ?_ ?_ ?_ <;> [assumption; rfl; rfl; rfl])

theorem execRxIdent_keeps {b₀ : Bool} {a₀ s : State} (h : Keeps b₀ a₀ s) (k : Nat) (w : List Byte) {t₀ : State} (e : execRxIdent k w s = .next t₀) : Keeps b₀ a₀ t₀ := by
  unfold execRxIdent at e
  obtain ⟨-, rfl⟩ := guardWF_next e
  repeat' first
    | with_reducible assumption | intro _ | with_reducible apply rxIdent_keeps

theorem rxEchoResp_keeps {b₀ : Bool} {a₀ s : State} (h : Keeps b₀ a₀ s) (k : Nat) (w : List Byte) (rt : Nat) : Keeps b₀ a₀ (rxEchoResp k w rt s) := by
  unfold rxEchoResp
  repeat' first
    | with_reducible assumption | intro _
    | (extract_lets +onlyGivenNames u₀; first | (refine Keeps.cut (m := b₀) (a := a₀) (s := u₀) ?_ fun _ => ?_ <;> [(unfold u₀; clear u₀); ((try clear_value u₀); revert u₀; intro _ _)]) | (revert u₀; intro _))
    | with_reducible apply State.cableShow_keeps | with_reducible apply State.setLnk_keeps
    | with_reducible apply Keeps.ite | split | (clear_value *; split)
    | (with_reducible refine Keeps.upd ?_ ?_ ?_ ?_ <;> [assumption; rfl; rfl; rfl])

theorem execRxEchoResp_keeps {b₀ : Bool} {a₀ s : State} (h : Keeps b₀ a₀ s) (k : Nat) (w : List Byte) (rt : Nat) {t₀ : State} (e : execRxEchoResp k w rt s = .next t₀) : Keeps b₀ a₀ t₀ := by
  unfold execRxEchoResp at e
  obtain ⟨-, rfl⟩ := guardWF_next e
  repeat' first
    | with_reducible assumption | intro _ | with_reducible apply rxEchoResp_keeps

theorem State.uncover_keeps {b₀ : Bool} {a₀ s : State} (h : Keeps b₀ a₀ s) (k : Nat) (b : Nat) : Keeps b₀ a₀ (State.uncover s k b) := by
  unfold State.uncover
  repeat' first
    | with_reducible assumption | intro _
    | (extract_lets +onlyGivenNames u₀; first | (refine Keeps.cut (m := b₀) (a := a₀) (s := u₀) ?_ fun _ => ?_ <;> [(unfold u₀; clear u₀); ((try clear_value u₀); revert u₀; intro _ _)]) | (revert u₀; intro _))
    | with_reducible apply State.setBeam_keeps | with_reducible apply State.ev_keeps | with_reducible apply State.spoil_keeps
    | with_reducible apply Keeps.foldl | with_reducible apply Keeps.foldlSnd | with_reducible apply Keeps.foldlFst
    | (with_reducible refine Keeps.upd ?_ ?_ ?_ ?_ <;> [assumption; rfl; rfl; rfl])

theorem State.spoilList_keeps {b₀ : Bool} {a₀ s : State} (h : Keeps b₀ a₀ s) (cs : List Nat) : Keeps b₀ a₀ (State.spoilList s cs) := by
  unfold State.spoilList
  repeat' first
    | with_reducible assumption | intro _ | with_reducible apply State.spoil_keeps | with_reducible apply Keeps.foldl
    | with_reducible apply Keeps.foldlSnd | with_reducible apply Keeps.foldlFst

theorem State.halfLines_keeps {b₀ : Bool} {a₀ s : State} (h : Keeps b₀ a₀ s) (k : Nat) (b : Nat) (cause : Nat) : Keeps b₀ a₀ (State.halfLines s k b cause) := by
  unfold State.halfLines
  repeat' first
    | with_reducible assumption | intro _
    | (extract_lets +onlyGivenNames u₀; first | (refine Keeps.cut (m := b₀) (a := a₀) (s := u₀) ?_ fun _ => ?_ <;> [(unfold u₀; clear u₀); ((try clear_value u₀); revert u₀; intro _ _)]) | (revert u₀; intro _))
    | with_reducible apply State.countBy_keeps | with_reducible apply State.spoilList_keeps
    | with_reducible apply State.take_keeps | with_reducible apply Keeps.ite | split | (clear_value *; split)
    | (with_reducible refine Keeps.upd ?_ ?_ ?_ ?_ <;> [assumption; rfl; rfl; rfl])

theorem State.coverOrNot_keeps {b₀ : Bool} {a₀ s : State} (h : Keeps b₀ a₀ s) (k : Nat) (b : Nat) (cause : Nat) (wasCover : Bool) : Keeps b₀ a₀ (State.coverOrNot s k b cause wasCover) := by
  unfold State.coverOrNot
  repeat' first
    | with_reducible assumption | intro _
    | (extract_lets +onlyGivenNames u₀; first | (refine Keeps.cut (m := b₀) (a := a₀) (s := u₀) ?_ fun _ => ?_ <;> [(unfold u₀; clear u₀); ((try clear_value u₀); revert u₀; intro _ _)]) | (revert u₀; intro _))
    | with_reducible apply State.ev_keeps | with_reducible apply State.setBeamSt_keeps
    | with_reducible apply State.post_keeps | with_reducible apply State.halfLines_keeps
    | with_reducible apply State.uncover_keeps | with_reducible apply Keeps.ite | split | (clear_value *; split)
    | (with_reducible refine Keeps.upd ?_ ?_ ?_ ?_ <;> [assumption; rfl; rfl; rfl])

theorem State.failBeams_keeps {b₀ : Bool} {a₀ s : State} (h : Keeps b₀ a₀ s) (k : Nat) (l : List (Nat × Nat)) : Keeps b₀ a₀ (State.failBeams s k l) := by
  unfold State.failBeams
  repeat' first
    | with_reducible assumption | intro _
    | (extract_lets +onlyGivenNames u₀; first | (refine Keeps.cut (m := b₀) (a := a₀) (s := u₀) ?_ fun _ => ?_ <;> [(unfold u₀; clear u₀); ((try clear_value u₀); revert u₀; intro _ _)]) | (refine Keeps.cut (m := b₀) (a := a₀) (s := u₀.2) ?_ fun _ => ?_ <;> [(unfold u₀; clear u₀); ((try clear_value u₀); revert u₀; intro _ _)]) | (revert u₀; intro _))
    | with_reducible apply State.setBeam_keeps | with_reducible apply State.setBeamSt_keeps
    | with_reducible apply State.coverOrNot_keeps | with_reducible apply Keeps.foldl
    | with_reducible apply Keeps.foldlSnd | with_reducible apply Keeps.foldlFst
    | (with_reducible refine Keeps.upd ?_ ?_ ?_ ?_ <;> [assumption; rfl; rfl; rfl])

theorem State.markUncovered_keeps {b₀ : Bool} {a₀ s : State} (h : Keeps b₀ a₀ s) (k : Nat) (b : Nat) : Keeps b₀ a₀ (State.markUncovered s k b) := by
  unfold State.markUncovered
  repeat' first
    | with_reducible assumption | intro _
    | (extract_lets +onlyGivenNames u₀; first | (refine Keeps.cut (m := b₀) (a := a₀) (s := u₀) ?_ fun _ => ?_ <;> [(unfold u₀; clear u₀); ((try clear_value u₀); revert u₀; intro _ _)]) | (revert u₀; intro _))
    | with_reducible apply State.setBeam_keeps
    | (with_reducible refine Keeps.upd ?_ ?_ ?_ ?_ <;> [assumption; rfl; rfl; rfl])

theorem State.beamTakeOut_keeps {b₀ : Bool} {a₀ s : State} (h : Keeps b₀ a₀ s) (k : Nat) (b : Nat) : Keeps b₀ a₀ (State.beamTakeOut s k b) := by
  unfold State.beamTakeOut
  repeat' first
    | with_reducible assumption | intro _
    | (extract_lets +onlyGivenNames u₀; first | (refine Keeps.cut (m := b₀) (a := a₀) (s := u₀) ?_ fun _ => ?_ <;> [(unfold u₀; clear u₀); ((try clear_value u₀); revert u₀; intro _ _)]) | (revert u₀; intro _))
    | with_reducible apply State.setBeam_keeps | with_reducible apply State.markUncovered_keeps
    | with_reducible apply State.setBeamSt_keeps | with_reducible apply Keeps.ite | split | (clear_value *; split)
    | (with_reducible refine Keeps.upd ?_ ?_ ?_ ?_ <;> [assumption; rfl; rfl; rfl])

theorem State.boundaryBeam_keeps {b₀ : Bool} {a₀ s : State} (h : Keeps b₀ a₀ s) (k : Nat) (b : Nat) : Keeps b₀ a₀ (State.boundaryBeam s k b) := by
  unfold State.boundaryBeam
  repeat' first
    | with_reducible assumption | intro _
    | (extract_lets +onlyGivenNames u₀; first | (refine Keeps.cut (m := b₀) (a := a₀) (s := u₀) ?_ fun _ => ?_ <;> [(unfold u₀; clear u₀); ((try clear_value u₀); revert u₀; intro _ _)]) | (revert u₀; intro _))
    | with_reducible apply State.setBeam_keeps | with_reducible apply State.setBeamSt_keeps
    | with_reducible apply State.beamTakeOut_keeps | with_reducible apply State.closeTakeover_keeps
    | with_reducible apply Keeps.ite | split | (clear_value *; split)
    | (with_reducible refine Keeps.upd ?_ ?_ ?_ ?_ <;> [assumption; rfl; rfl; rfl])

theorem State.beamBoundary_keeps {b₀ : Bool} {a₀ s : State} (h : Keeps b₀ a₀ s) (k : Nat) : Keeps b₀ a₀ (State.beamBoundary s k) := by
  unfold State.beamBoundary
  repeat' first
    | with_reducible assumption | intro _ | with_reducible apply State.boundaryBeam_keeps
    | with_reducible apply Keeps.foldl | with_reducible apply Keeps.foldlSnd | with_reducible apply Keeps.foldlFst
    | (with_reducible refine Keeps.upd ?_ ?_ ?_ ?_ <;> [assumption; rfl; rfl; rfl])

theorem beamOut_keeps {b₀ : Bool} {a₀ s : State} (h : Keeps b₀ a₀ s) (k : Nat) (b : Nat) : Keeps b₀ a₀ (beamOut k b s) := by
  unfold beamOut
  repeat' first
    | with_reducible assumption | intro _
    | (extract_lets +onlyGivenNames u₀; first | (refine Keeps.cut (m := b₀) (a := a₀) (s := u₀) ?_ fun _ => ?_ <;> [(unfold u₀; clear u₀); ((try clear_value u₀); revert u₀; intro _ _)]) | (revert u₀; intro _))
    | with_reducible apply State.setBeam_keeps | with_reducible apply State.ev_keeps | with_reducible apply Keeps.ite
    | split | (clear_value *; split) | (with_reducible refine Keeps.upd ?_ ?_ ?_ ?_ <;> [assumption; rfl; rfl; rfl])

theorem beamReturn_keeps {b₀ : Bool} {a₀ s : State} (h : Keeps b₀ a₀ s) (k : Nat) (b : Nat) : Keeps b₀ a₀ (beamReturn k b s) := by
  unfold beamReturn
  repeat' first
    | with_reducible assumption | intro _
    | (extract_lets +onlyGivenNames u₀; first | (refine Keeps.cut (m := b₀) (a := a₀) (s := u₀) ?_ fun _ => ?_ <;> [(unfold u₀; clear u₀); ((try clear_value u₀); revert u₀; intro _ _)]) | (revert u₀; intro _))
    | with_reducible apply State.ev_keeps | with_reducible apply State.setBeamSt_keeps
    | with_reducible apply State.setBeam_keeps | with_reducible apply Keeps.ite | split | (clear_value *; split)
    | (with_reducible refine Keeps.upd ?_ ?_ ?_ ?_ <;> [assumption; rfl; rfl; rfl])

theorem execBeamOut_keeps {b₀ : Bool} {a₀ s : State} (h : Keeps b₀ a₀ s) (k : Nat) (b : Nat) {t₀ : State} (e : execBeamOut k b s = .next t₀) : Keeps b₀ a₀ t₀ := by
  unfold execBeamOut at e
  obtain ⟨-, rfl⟩ := guardWF_next e
  repeat' first
    | with_reducible assumption | intro _ | with_reducible apply State.hostWrite_keeps | with_reducible apply beamOut_keeps

theorem execBeamReturn_keeps {b₀ : Bool} {a₀ s : State} (h : Keeps b₀ a₀ s) (k : Nat) (b : Nat) {t₀ : State} (e : execBeamReturn k b s = .next t₀) : Keeps b₀ a₀ t₀ := by
  unfold execBeamReturn at e
  obtain ⟨-, rfl⟩ := guardWF_next e
  repeat' first
    | with_reducible assumption | intro _ | with_reducible apply State.hostWrite_keeps | with_reducible apply beamReturn_keeps

theorem State.headTemp_keeps {b₀ : Bool} {a₀ s : State} (h : Keeps b₀ a₀ s) (k : Nat) (raw : Nat) (fault : Bool) : Keeps b₀ a₀ (State.headTemp s k raw fault) := by
  unfold State.headTemp
  repeat' first
    | with_reducible assumption | intro _
    | (extract_lets +onlyGivenNames u₀; first | (refine Keeps.cut (m := b₀) (a := a₀) (s := u₀) ?_ fun _ => ?_ <;> [(unfold u₀; clear u₀); ((try clear_value u₀); revert u₀; intro _ _)]) | (revert u₀; intro _))
    | with_reducible apply State.wr_keeps | with_reducible apply State.setLnk_keeps | with_reducible apply State.clr_keeps
    | with_reducible apply State.ev_keeps | with_reducible apply State.spoilStation_keeps
    | with_reducible apply State.toLink_keeps | with_reducible apply State.idle_keeps | with_reducible apply Keeps.ite | split
    | (clear_value *; split) | (with_reducible refine Keeps.upd ?_ ?_ ?_ ?_ <;> [assumption; rfl; rfl; rfl])

theorem State.statusScan_keeps {b₀ : Bool} {a₀ s : State} (h : Keeps b₀ a₀ s) (k : Nat) (l : Lnk) (w : List Byte) : Keeps b₀ a₀ (State.statusScan s k l w) := by
  unfold State.statusScan
  repeat' first
    | with_reducible assumption | intro _
    | (extract_lets +onlyGivenNames u₀; first | (refine Keeps.cut (m := b₀) (a := a₀) (s := u₀) ?_ fun _ => ?_ <;> [(unfold u₀; clear u₀); ((try clear_value u₀); revert u₀; intro _ _)]) | (revert u₀; intro _))
    | with_reducible apply State.ev_keeps | with_reducible apply State.spoilList_keeps | with_reducible apply Keeps.ite | split
    | (clear_value *; split) | (with_reducible refine Keeps.upd ?_ ?_ ?_ ?_ <;> [assumption; rfl; rfl; rfl])

theorem rxStatus_keeps {b₀ : Bool} {a₀ s : State} (h : Keeps b₀ a₀ s) (k : Nat) (w : List Byte) : Keeps b₀ a₀ (rxStatus k w s) := by
  unfold rxStatus
  repeat' first
    | with_reducible assumption | intro _
    | (extract_lets +onlyGivenNames u₀; first | (refine Keeps.cut (m := b₀) (a := a₀) (s := u₀) ?_ fun _ => ?_ <;> [(unfold u₀; clear u₀); ((try clear_value u₀); revert u₀; intro _ _)]) | (revert u₀; intro _))
    | with_reducible apply State.wr_keeps | with_reducible apply State.setLnk_keeps
    | with_reducible apply State.headTemp_keeps | with_reducible apply State.setBeam_keeps
    | with_reducible apply State.statusScan_keeps | with_reducible apply State.linkStandby_keeps
    | with_reducible apply State.setBeamSt_keeps | with_reducible apply State.failBeams_keeps
    | with_reducible apply Keeps.foldl | with_reducible apply Keeps.foldlSnd | with_reducible apply Keeps.foldlFst
    | with_reducible apply Keeps.ite | split | (clear_value *; split)
    | (with_reducible refine Keeps.upd ?_ ?_ ?_ ?_ <;> [assumption; rfl; rfl; rfl])

theorem execRxStatus_keeps {b₀ : Bool} {a₀ s : State} (h : Keeps b₀ a₀ s) (k : Nat) (w : List Byte) {t₀ : State} (e : execRxStatus k w s = .next t₀) : Keeps b₀ a₀ t₀ := by
  unfold execRxStatus at e
  obtain ⟨-, rfl⟩ := guardWF_next e
  repeat' first
    | with_reducible assumption | intro _ | with_reducible apply rxStatus_keeps

theorem State.regulate_keeps {b₀ : Bool} {a₀ s : State} (h : Keeps b₀ a₀ s) (k : Nat) (x : Meas) : Keeps b₀ a₀ (State.regulate s k x) := by
  unfold State.regulate
  repeat' first
    | with_reducible assumption | intro _
    | (extract_lets +onlyGivenNames u₀; first | (refine Keeps.cut (m := b₀) (a := a₀) (s := u₀) ?_ fun _ => ?_ <;> [(unfold u₀; clear u₀); ((try clear_value u₀); revert u₀; intro _ _)]) | (revert u₀; intro _))
    | with_reducible apply State.wr_keeps | with_reducible apply State.setLnk_keeps | with_reducible apply Keeps.ite | split
    | (clear_value *; split) | (with_reducible refine Keeps.upd ?_ ?_ ?_ ?_ <;> [assumption; rfl; rfl; rfl])

theorem State.measure_keeps {b₀ : Bool} {a₀ s : State} (h : Keeps b₀ a₀ s) (k : Nat) (probe : Bool) (x : Meas) : Keeps b₀ a₀ (State.measure s k probe x).1 := by
  unfold State.measure
  repeat' first
    | with_reducible assumption | intro _
    | (extract_lets +onlyGivenNames u₀; first | (refine Keeps.cut (m := b₀) (a := a₀) (s := u₀) ?_ fun _ => ?_ <;> [(unfold u₀; clear u₀); ((try clear_value u₀); revert u₀; intro _ _)]) | (revert u₀; intro _))
    | with_reducible apply State.wr_keeps | with_reducible apply State.setBeam_keeps
    | with_reducible apply State.wrB_keeps | with_reducible apply State.setBeamSt_keeps
    | with_reducible apply State.regulate_keeps | with_reducible apply Keeps.ite | split | (clear_value *; split)
    | (with_reducible refine Keeps.upd ?_ ?_ ?_ ?_ <;> [assumption; rfl; rfl; rfl])

theorem rxApcResp_keeps {b₀ : Bool} {a₀ s : State} (h : Keeps b₀ a₀ s) (k : Nat) (w : List Byte) : Keeps b₀ a₀ (rxApcResp k w s) := by
  unfold rxApcResp
  repeat' first
    | with_reducible assumption | intro _
    | (extract_lets +onlyGivenNames u₀; first | (refine Keeps.cut (m := b₀) (a := a₀) (s := u₀) ?_ fun _ => ?_ <;> [(unfold u₀; clear u₀); ((try clear_value u₀); revert u₀; intro _ _)]) | (revert u₀; intro _))
    | with_reducible apply State.measure_keeps | with_reducible apply State.failBeams_keeps
    | with_reducible apply State.setLnk_keeps | with_reducible apply State.post_keeps | with_reducible apply State.take_keeps
    | with_reducible apply Keeps.foldl | with_reducible apply Keeps.foldlSnd | with_reducible apply Keeps.foldlFst
    | with_reducible apply Keeps.ite | split | (clear_value *; split)
    | (with_reducible refine Keeps.upd ?_ ?_ ?_ ?_ <;> [assumption; rfl; rfl; rfl])

theorem execRxApcResp_keeps {b₀ : Bool} {a₀ s : State} (h : Keeps b₀ a₀ s) (k : Nat) (w : List Byte) {t₀ : State} (e : execRxApcResp k w s = .next t₀) : Keeps b₀ a₀ t₀ := by
  unfold execRxApcResp at e
  obtain ⟨-, rfl⟩ := guardWF_next e
  repeat' first
    | with_reducible assumption | intro _ | with_reducible apply rxApcResp_keeps

theorem initialApcEnd_keeps {b₀ : Bool} {a₀ s : State} (h : Keeps b₀ a₀ s) (k : Nat) : Keeps b₀ a₀ (initialApcEnd k s) := by
  unfold initialApcEnd
  repeat' first
    | with_reducible assumption | intro _
    | (extract_lets +onlyGivenNames u₀; first | (refine Keeps.cut (m := b₀) (a := a₀) (s := u₀) ?_ fun _ => ?_ <;> [(unfold u₀; clear u₀); ((try clear_value u₀); revert u₀; intro _ _)]) | (revert u₀; intro _))
    | with_reducible apply State.tryActive_keeps | with_reducible apply State.setLnk_keeps
    | with_reducible apply State.closeTakeover_keeps | with_reducible apply State.setBeam_keeps
    | with_reducible apply State.setBeamSt_keeps | with_reducible apply State.failBeams_keeps
    | with_reducible apply Keeps.foldl | with_reducible apply Keeps.foldlSnd | with_reducible apply Keeps.foldlFst
    | with_reducible apply Keeps.ite | split | (clear_value *; split)
    | (with_reducible refine Keeps.upd ?_ ?_ ?_ ?_ <;> [assumption; rfl; rfl; rfl])

theorem execInitialApcEnd_keeps {b₀ : Bool} {a₀ s : State} (h : Keeps b₀ a₀ s) (k : Nat) {t₀ : State} (e : execInitialApcEnd k s = .next t₀) : Keeps b₀ a₀ t₀ := by
  unfold execInitialApcEnd at e
  obtain ⟨-, rfl⟩ := guardWF_next e
  repeat' first
    | with_reducible assumption | intro _ | with_reducible apply initialApcEnd_keeps

theorem State.ldenLow_keeps {b₀ : Bool} {a₀ s : State} (h : Keeps b₀ a₀ s) (k : Nat) : Keeps b₀ a₀ (State.ldenLow s k) := by
  unfold State.ldenLow
  repeat' first
    | with_reducible assumption | intro _
    | (extract_lets +onlyGivenNames u₀; first | (refine Keeps.cut (m := b₀) (a := a₀) (s := u₀) ?_ fun _ => ?_ <;> [(unfold u₀; clear u₀); ((try clear_value u₀); revert u₀; intro _ _)]) | (revert u₀; intro _))
    | with_reducible apply State.setLnk_keeps | with_reducible apply State.clr_keeps | with_reducible apply State.ev_keeps
    | with_reducible apply State.spoilStation_keeps | with_reducible apply State.wr_keeps
    | with_reducible apply State.idle_keeps | with_reducible apply Keeps.ite | split | (clear_value *; split)
    | (with_reducible refine Keeps.upd ?_ ?_ ?_ ?_ <;> [assumption; rfl; rfl; rfl])

theorem State.ldenHigh_keeps {b₀ : Bool} {a₀ s : State} (h : Keeps b₀ a₀ s) (k : Nat) : Keeps b₀ a₀ (State.ldenHigh s k) := by
  unfold State.ldenHigh
  repeat' first
    | with_reducible assumption | intro _
    | (extract_lets +onlyGivenNames u₀; first | (refine Keeps.cut (m := b₀) (a := a₀) (s := u₀) ?_ fun _ => ?_ <;> [(unfold u₀; clear u₀); ((try clear_value u₀); revert u₀; intro _ _)]) | (revert u₀; intro _))
    | with_reducible apply State.wr_keeps | with_reducible apply State.linkStandby_keeps
    | with_reducible apply State.tryActive_keeps | with_reducible apply Keeps.ite | split | (clear_value *; split)

theorem execLdenFall_keeps {b₀ : Bool} {a₀ s : State} (h : Keeps b₀ a₀ s) (k : Nat) {t₀ : State} (e : execLdenFall k s = .next t₀) : Keeps b₀ a₀ t₀ := by
  unfold execLdenFall at e
  obtain ⟨-, rfl⟩ := guardWF_next e
  repeat' first
    | with_reducible assumption | intro _ | with_reducible apply State.clr_keeps | with_reducible apply State.ldenLow_keeps
    | with_reducible apply Keeps.ite | split | (clear_value *; split)

theorem execIlkLoopClose_keeps {b₀ : Bool} {a₀ s : State} (h : Keeps b₀ a₀ s) (k : Nat) {t₀ : State} (e : execIlkLoopClose k s = .next t₀) : Keeps b₀ a₀ t₀ := by
  unfold execIlkLoopClose at e
  obtain ⟨-, rfl⟩ := guardWF_next e
  repeat' first
    | with_reducible assumption | intro _
    | (extract_lets +onlyGivenNames u₀; first | (refine Keeps.cut (m := b₀) (a := a₀) (s := u₀) ?_ fun _ => ?_ <;> [(unfold u₀; clear u₀); ((try clear_value u₀); revert u₀; intro _ _)]) | (revert u₀; intro _))
    | with_reducible apply State.wr_keeps | with_reducible apply State.ldenHigh_keeps | with_reducible apply Keeps.ite | split
    | (clear_value *; split)

theorem State.ldReq_keeps {b₀ : Bool} {a₀ s : State} (h : Keeps b₀ a₀ s) (k : Nat) (was : Bool) (now : Bool) : Keeps b₀ a₀ (State.ldReq s k was now) := by
  unfold State.ldReq
  repeat' first
    | with_reducible assumption | intro _
    | (extract_lets +onlyGivenNames u₀; first | (refine Keeps.cut (m := b₀) (a := a₀) (s := u₀) ?_ fun _ => ?_ <;> [(unfold u₀; clear u₀); ((try clear_value u₀); revert u₀; intro _ _)]) | (revert u₀; intro _))
    | with_reducible apply State.ldenHigh_keeps | with_reducible apply State.setLnk_keeps
    | with_reducible apply State.ldenLow_keeps | with_reducible apply Keeps.ite | split | (clear_value *; split)
    | (with_reducible refine Keeps.upd ?_ ?_ ?_ ?_ <;> [assumption; rfl; rfl; rfl])

theorem State.linkRestart_keeps {b₀ : Bool} {a₀ s : State} (h : Keeps b₀ a₀ s) (k : Nat) : Keeps b₀ a₀ (State.linkRestart s k) := by
  unfold State.linkRestart
  repeat' first
    | with_reducible assumption | intro _
    | (extract_lets +onlyGivenNames u₀; first | (refine Keeps.cut (m := b₀) (a := a₀) (s := u₀) ?_ fun _ => ?_ <;> [(unfold u₀; clear u₀); ((try clear_value u₀); revert u₀; intro _ _)]) | (revert u₀; intro _))
    | with_reducible apply State.wr_keeps | with_reducible apply State.setLnk_keeps
    | with_reducible apply State.idle_keeps | with_reducible apply State.clr_keeps | with_reducible apply Keeps.ite
    | split | (clear_value *; split) | (with_reducible refine Keeps.upd ?_ ?_ ?_ ?_ <;> [assumption; rfl; rfl; rfl])

theorem State.clearTrip_keeps {b₀ : Bool} {a₀ s : State} (h : Keeps b₀ a₀ s) (k : Nat) : Keeps b₀ a₀ (State.clearTrip s k) := by
  unfold State.clearTrip
  repeat' first
    | with_reducible assumption | intro _
    | (extract_lets +onlyGivenNames u₀; first | (refine Keeps.cut (m := b₀) (a := a₀) (s := u₀) ?_ fun _ => ?_ <;> [(unfold u₀; clear u₀); ((try clear_value u₀); revert u₀; intro _ _)]) | (revert u₀; intro _))
    | with_reducible apply State.clr_keeps | with_reducible apply State.linkStandby_keeps | with_reducible apply Keeps.ite
    | split | (clear_value *; split)

end Sys2Proof.Machine
end

