-- ==== Sys2Proof/Laws/KeepsScan.lean ====
section
/-! SUPPORT. Every operation of Machine/Scan.lean keeps what `Keeps` says. -/

namespace Sys2Proof.Machine

open Sys2Proof

set_option linter.unusedTactic false

set_option linter.unreachableTactic false

theorem State.writeFper_keeps {b₀ : Bool} {a₀ s : State} (h : Keeps b₀ a₀ s) (k : Nat) : Keeps b₀ a₀ (State.writeFper s k) := by
  unfold State.writeFper
  repeat' first
    | with_reducible assumption | intro _
    | (extract_lets +onlyGivenNames u₀; first | (refine Keeps.cut (m := b₀) (a := a₀) (s := u₀) ?_ fun _ => ?_ <;> [(unfold u₀; clear u₀); ((try clear_value u₀); revert u₀; intro _ _)]) | (revert u₀; intro _))
    | with_reducible apply State.wr_keeps | with_reducible apply Keeps.foldl | with_reducible apply Keeps.foldlSnd
    | with_reducible apply Keeps.foldlFst

theorem State.writeRevper_keeps {b₀ : Bool} {a₀ s : State} (h : Keeps b₀ a₀ s) (k : Nat) : Keeps b₀ a₀ (State.writeRevper s k) := by
  unfold State.writeRevper
  repeat' first
    | with_reducible assumption | intro _
    | (extract_lets +onlyGivenNames u₀; first | (refine Keeps.cut (m := b₀) (a := a₀) (s := u₀) ?_ fun _ => ?_ <;> [(unfold u₀; clear u₀); ((try clear_value u₀); revert u₀; intro _ _)]) | (revert u₀; intro _))
    | with_reducible apply State.wr_keeps | with_reducible apply State.take_keeps | with_reducible apply Keeps.ite | split
    | (clear_value *; split)

theorem State.settleReady_keeps {b₀ : Bool} {a₀ s : State} (h : Keeps b₀ a₀ s) (k : Nat) : Keeps b₀ a₀ (State.settleReady s k) := by
  unfold State.settleReady
  repeat' first
    | with_reducible assumption | intro _ | with_reducible apply State.wrB_keeps

theorem State.lockFacet_keeps {b₀ : Bool} {a₀ s : State} (h : Keeps b₀ a₀ s) (k : Nat) (arb : Bool) : Keeps b₀ a₀ (State.lockFacet s k arb) := by
  unfold State.lockFacet
  repeat' first
    | with_reducible assumption | intro _
    | (extract_lets +onlyGivenNames u₀; first | (refine Keeps.cut (m := b₀) (a := a₀) (s := u₀) ?_ fun _ => ?_ <;> [(unfold u₀; clear u₀); ((try clear_value u₀); revert u₀; intro _ _)]) | (revert u₀; intro _))
    | with_reducible apply State.setStn_keeps | with_reducible apply State.wr_keeps | with_reducible apply State.wrB_keeps
    | with_reducible apply State.writeFper_keeps | with_reducible apply State.settleReady_keeps
    | with_reducible apply State.tryActive_keeps | (with_reducible refine Keeps.upd ?_ ?_ ?_ ?_ <;> [assumption; rfl; rfl; rfl])

theorem State.loseLock_keeps {b₀ : Bool} {a₀ s : State} (h : Keeps b₀ a₀ s) (k : Nat) : Keeps b₀ a₀ (State.loseLock s k) := by
  unfold State.loseLock
  repeat' first
    | with_reducible assumption | intro _
    | (extract_lets +onlyGivenNames u₀; first | (refine Keeps.cut (m := b₀) (a := a₀) (s := u₀) ?_ fun _ => ?_ <;> [(unfold u₀; clear u₀); ((try clear_value u₀); revert u₀; intro _ _)]) | (revert u₀; intro _))
    | with_reducible apply State.clr_keeps | with_reducible apply State.wr_keeps | with_reducible apply State.spoilStation_keeps
    | with_reducible apply State.endStation_keeps | with_reducible apply State.setStn_keeps
    | with_reducible apply State.linkStandby_keeps | with_reducible apply Keeps.ite | split | (clear_value *; split)
    | (with_reducible refine Keeps.upd ?_ ?_ ?_ ?_ <;> [assumption; rfl; rfl; rfl])

theorem State.placeAll_keeps {b₀ : Bool} {a₀ s : State} (h : Keeps b₀ a₀ s) (k : Nat) (j : Nat) (c : Clock) (tj : Int) : Keeps b₀ a₀ (State.placeAll s k j c tj) := by
  unfold State.placeAll
  repeat' first
    | with_reducible assumption | intro _
    | (extract_lets +onlyGivenNames u₀; first | (refine Keeps.cut (m := b₀) (a := a₀) (s := u₀) ?_ fun _ => ?_ <;> [(unfold u₀; clear u₀); ((try clear_value u₀); revert u₀; intro _ _)]) | (refine Keeps.cut (m := b₀) (a := a₀) (s := u₀.2) ?_ fun _ => ?_ <;> [(unfold u₀; clear u₀); ((try clear_value u₀); revert u₀; intro _ _)]) | (revert u₀; intro _))
    | with_reducible apply State.wrS_keeps | with_reducible apply State.setStn_keeps
    | with_reducible apply State.wr_keeps | with_reducible apply Keeps.foldl | with_reducible apply Keeps.foldlSnd
    | with_reducible apply Keeps.foldlFst | with_reducible apply Keeps.ite | with_reducible apply Keeps.iteSnd
    | split | (clear_value *; split) | (with_reducible refine Keeps.upd ?_ ?_ ?_ ?_ <;> [assumption; rfl; rfl; rfl])

theorem State.markPos_keeps {b₀ : Bool} {a₀ s : State} (h : Keeps b₀ a₀ s) (k : Nat) (j : Nat) : Keeps b₀ a₀ (State.markPos s k j) := by
  unfold State.markPos
  repeat' first
    | with_reducible assumption | intro _
    | (extract_lets +onlyGivenNames u₀; first | (refine Keeps.cut (m := b₀) (a := a₀) (s := u₀) ?_ fun _ => ?_ <;> [(unfold u₀; clear u₀); ((try clear_value u₀); revert u₀; intro _ _)]) | (revert u₀; intro _))
    | with_reducible apply State.setStn_keeps | with_reducible apply Keeps.ite | split | (clear_value *; split)
    | (with_reducible refine Keeps.upd ?_ ?_ ?_ ?_ <;> [assumption; rfl; rfl; rfl])

theorem State.siltMiss_keeps {b₀ : Bool} {a₀ s : State} (h : Keeps b₀ a₀ s) (k : Nat) (im : Imaging) (n : Nat) : Keeps b₀ a₀ (State.siltMiss s k im n) := by
  unfold State.siltMiss
  repeat' first
    | with_reducible assumption | intro _
    | (extract_lets +onlyGivenNames u₀; first | (refine Keeps.cut (m := b₀) (a := a₀) (s := u₀) ?_ fun _ => ?_ <;> [(unfold u₀; clear u₀); ((try clear_value u₀); revert u₀; intro _ _)]) | (revert u₀; intro _))
    | with_reducible apply State.ev_keeps | with_reducible apply State.darken_keeps
    | with_reducible apply State.spoil_keeps | with_reducible apply State.failRecord_keeps
    | with_reducible apply State.late_keeps | with_reducible apply Keeps.ite | split | (clear_value *; split)
    | (with_reducible refine Keeps.upd ?_ ?_ ?_ ?_ <;> [assumption; rfl; rfl; rfl])

theorem State.siltCheck_keeps {b₀ : Bool} {a₀ s : State} (h : Keeps b₀ a₀ s) (k : Nat) (j : Nat) (drain : Bool) (decoded : Nat) : Keeps b₀ a₀ (State.siltCheck s k j drain decoded) := by
  unfold State.siltCheck
  repeat' first
    | with_reducible assumption | intro _
    | (extract_lets +onlyGivenNames u₀; first | (refine Keeps.cut (m := b₀) (a := a₀) (s := u₀) ?_ fun _ => ?_ <;> [(unfold u₀; clear u₀); ((try clear_value u₀); revert u₀; intro _ _)]) | (refine Keeps.cut (m := b₀) (a := a₀) (s := u₀.2) ?_ fun _ => ?_ <;> [(unfold u₀; clear u₀); ((try clear_value u₀); revert u₀; intro _ _)]) | (revert u₀; intro _))
    | with_reducible apply State.siltAdvance_keeps | with_reducible apply State.siltMiss_keeps
    | with_reducible apply Keeps.foldl | with_reducible apply Keeps.foldlSnd | with_reducible apply Keeps.foldlFst
    | with_reducible apply Keeps.ite | with_reducible apply Keeps.iteSnd | split | (clear_value *; split)
    | (with_reducible refine Keeps.upd ?_ ?_ ?_ ?_ <;> [assumption; rfl; rfl; rfl])

theorem State.hostDrive_keeps {b₀ : Bool} {a₀ t : State} (h : Keeps b₀ a₀ t) (k : Nat) (b : Nat) (h : BlkF) (d : BlkF) (lv : Nat) : Keeps b₀ a₀ (State.hostDrive t k b h d lv) := by
  unfold State.hostDrive
  repeat' first
    | with_reducible assumption | intro _
    | (extract_lets +onlyGivenNames u₀; first | (refine Keeps.cut (m := b₀) (a := a₀) (s := u₀) ?_ fun _ => ?_ <;> [(unfold u₀; clear u₀); ((try clear_value u₀); revert u₀; intro _ _)]) | (revert u₀; intro _))
    | with_reducible apply State.wr_keeps | with_reducible apply State.setLnk_keeps | with_reducible apply Keeps.ite | split
    | (clear_value *; split) | (with_reducible refine Keeps.upd ?_ ?_ ?_ ?_ <;> [assumption; rfl; rfl; rfl])

theorem State.hostDrives_keeps {b₀ : Bool} {a₀ s : State} (h : Keeps b₀ a₀ s) (k : Nat) : Keeps b₀ a₀ (State.hostDrives s k) := by
  unfold State.hostDrives
  repeat' first
    | with_reducible assumption | intro _ | with_reducible apply State.hostDrive_keeps | with_reducible apply Keeps.foldl
    | with_reducible apply Keeps.foldlSnd | with_reducible apply Keeps.foldlFst | with_reducible apply Keeps.ite | split
    | (clear_value *; split)

theorem State.sendDrives_keeps {b₀ : Bool} {a₀ s : State} (h : Keeps b₀ a₀ s) (k : Nat) : Keeps b₀ a₀ (State.sendDrives s k) := by
  unfold State.sendDrives
  repeat' first
    | with_reducible assumption | intro _
    | (extract_lets +onlyGivenNames u₀; first | (refine Keeps.cut (m := b₀) (a := a₀) (s := u₀) ?_ fun _ => ?_ <;> [(unfold u₀; clear u₀); ((try clear_value u₀); revert u₀; intro _ _)]) | (revert u₀; intro _))
    | with_reducible apply State.setLnk_keeps | with_reducible apply State.hostDrives_keeps
    | with_reducible apply State.sendDriveList_keeps
    | (with_reducible refine Keeps.upd ?_ ?_ ?_ ?_ <;> [assumption; rfl; rfl; rfl])

theorem State.apcCommand_keeps {b₀ : Bool} {a₀ s : State} (h : Keeps b₀ a₀ s) (k : Nat) (j : Nat) (f : Nat) (c : Clock) (skip : Bool) : Keeps b₀ a₀ (State.apcCommand s k j f c skip).1 := by
  unfold State.apcCommand
  repeat' first
    | with_reducible assumption | intro _
    | (extract_lets +onlyGivenNames u₀; first | (refine Keeps.cut (m := b₀) (a := a₀) (s := u₀) ?_ fun _ => ?_ <;> [(unfold u₀; clear u₀); ((try clear_value u₀); revert u₀; intro _ _)]) | (revert u₀; intro _))
    | with_reducible apply State.setLnk_keeps | with_reducible apply State.count_keeps | with_reducible apply Keeps.ite | split
    | (clear_value *; split) | (with_reducible refine Keeps.upd ?_ ?_ ?_ ?_ <;> [assumption; rfl; rfl; rfl])

theorem State.drainStep_keeps {b₀ : Bool} {a₀ s : State} (h : Keeps b₀ a₀ s) (k : Nat) : Keeps b₀ a₀ (State.drainStep s k) := by
  unfold State.drainStep
  repeat' first
    | with_reducible assumption | intro _
    | (extract_lets +onlyGivenNames u₀; first | (refine Keeps.cut (m := b₀) (a := a₀) (s := u₀) ?_ fun _ => ?_ <;> [(unfold u₀; clear u₀); ((try clear_value u₀); revert u₀; intro _ _)]) | (revert u₀; intro _))
    | with_reducible apply State.setStn_keeps | with_reducible apply Keeps.ite | split | (clear_value *; split)
    | (with_reducible refine Keeps.upd ?_ ?_ ?_ ?_ <;> [assumption; rfl; rfl; rfl])

theorem State.finishContexts_keeps {b₀ : Bool} {a₀ s : State} (h : Keeps b₀ a₀ s) (k : Nat) (j : Nat) : Keeps b₀ a₀ (State.finishContexts s k j) := by
  unfold State.finishContexts
  repeat' first
    | with_reducible assumption | intro _
    | (extract_lets +onlyGivenNames u₀; first | (refine Keeps.cut (m := b₀) (a := a₀) (s := u₀) ?_ fun _ => ?_ <;> [(unfold u₀; clear u₀); ((try clear_value u₀); revert u₀; intro _ _)]) | (revert u₀; intro _))
    | with_reducible apply State.setStn_keeps | with_reducible apply State.setCtx_keeps
    | with_reducible apply State.settleCtx_keeps | with_reducible apply Keeps.foldl | with_reducible apply Keeps.foldlSnd
    | with_reducible apply Keeps.foldlFst | (with_reducible refine Keeps.upd ?_ ?_ ?_ ?_ <;> [assumption; rfl; rfl; rfl])

theorem State.stationBoundary_keeps {b₀ : Bool} {a₀ s : State} (h : Keeps b₀ a₀ s) (k : Nat) : Keeps b₀ a₀ (State.stationBoundary s k) := by
  unfold State.stationBoundary
  repeat' first
    | with_reducible assumption | intro _
    | (extract_lets +onlyGivenNames u₀; first | (refine Keeps.cut (m := b₀) (a := a₀) (s := u₀) ?_ fun _ => ?_ <;> [(unfold u₀; clear u₀); ((try clear_value u₀); revert u₀; intro _ _)]) | (revert u₀; intro _))
    | with_reducible apply State.release_keeps | with_reducible apply State.setStn_keeps
    | with_reducible apply State.beamBoundary_keeps | with_reducible apply State.setLnk_keeps
    | with_reducible apply Keeps.ite | split | (clear_value *; split)
    | (with_reducible refine Keeps.upd ?_ ?_ ?_ ?_ <;> [assumption; rfl; rfl; rfl])

theorem State.startImaging_keeps {b₀ : Bool} {a₀ s : State} (h : Keeps b₀ a₀ s) (c : Nat) : Keeps b₀ a₀ (State.startImaging s c) := by
  unfold State.startImaging
  repeat' first
    | with_reducible assumption | intro _
    | (extract_lets +onlyGivenNames u₀; first | (refine Keeps.cut (m := b₀) (a := a₀) (s := u₀) ?_ fun _ => ?_ <;> [(unfold u₀; clear u₀); ((try clear_value u₀); revert u₀; intro _ _)]) | (revert u₀; intro _))
    | with_reducible apply State.toState_keeps | with_reducible apply State.setCtx_keeps
    | with_reducible apply State.darkenAll_keeps | with_reducible apply State.spoil_keeps | with_reducible apply Keeps.ite
    | split | (clear_value *; split) | (with_reducible refine Keeps.upd ?_ ?_ ?_ ?_ <;> [assumption; rfl; rfl; rfl])

theorem State.noteLines_keeps {b₀ : Bool} {a₀ s : State} (h : Keeps b₀ a₀ s) (k : Nat) (j : Nat) (im : Imaging) : Keeps b₀ a₀ (State.noteLines s k j im) := by
  unfold State.noteLines
  repeat' first
    | with_reducible assumption | intro _
    | (extract_lets +onlyGivenNames u₀; first | (refine Keeps.cut (m := b₀) (a := a₀) (s := u₀) ?_ fun _ => ?_ <;> [(unfold u₀; clear u₀); ((try clear_value u₀); revert u₀; intro _ _)]) | (revert u₀; intro _))
    | with_reducible apply State.setCtx_keeps | with_reducible apply Keeps.foldl
    | with_reducible apply Keeps.foldlSnd | with_reducible apply Keeps.foldlFst | with_reducible apply Keeps.ite
    | split | (clear_value *; split) | (with_reducible refine Keeps.upd ?_ ?_ ?_ ?_ <;> [assumption; rfl; rfl; rfl])

theorem State.scanPhase_keeps {b₀ : Bool} {a₀ s : State} (h : Keeps b₀ a₀ s) (k : Nat) (j : Nat) : Keeps b₀ a₀ (State.scanPhase s k j) := by
  unfold State.scanPhase
  repeat' first
    | with_reducible assumption | intro _
    | (extract_lets +onlyGivenNames u₀; first | (refine Keeps.cut (m := b₀) (a := a₀) (s := u₀) ?_ fun _ => ?_ <;> [(unfold u₀; clear u₀); ((try clear_value u₀); revert u₀; intro _ _)]) | (revert u₀; intro _))
    | with_reducible apply State.wrS_keeps | with_reducible apply State.ev_keeps | with_reducible apply State.setStn_keeps
    | with_reducible apply Keeps.ite | split | (clear_value *; split)
    | (with_reducible refine Keeps.upd ?_ ?_ ?_ ?_ <;> [assumption; rfl; rfl; rfl])

theorem State.setClock_keeps {b₀ : Bool} {a₀ s : State} (h : Keeps b₀ a₀ s) (k : Nat) (c : Clock) : Keeps b₀ a₀ (State.setClock s k c) := by
  unfold State.setClock
  repeat' first
    | with_reducible assumption | intro _
    | (extract_lets +onlyGivenNames u₀; first | (refine Keeps.cut (m := b₀) (a := a₀) (s := u₀) ?_ fun _ => ?_ <;> [(unfold u₀; clear u₀); ((try clear_value u₀); revert u₀; intro _ _)]) | (refine Keeps.cut (m := b₀) (a := a₀) (s := u₀.2) ?_ fun _ => ?_ <;> [(unfold u₀; clear u₀); ((try clear_value u₀); revert u₀; intro _ _)]) | (revert u₀; intro _))
    | with_reducible apply State.ev_keeps | with_reducible apply State.setStn_keeps
    | with_reducible apply State.wr_keeps | with_reducible apply Keeps.ite | with_reducible apply Keeps.iteSnd
    | split | (clear_value *; split) | (with_reducible refine Keeps.upd ?_ ?_ ?_ ?_ <;> [assumption; rfl; rfl; rfl])

theorem State.halfStart_keeps {b₀ : Bool} {a₀ s : State} (h : Keeps b₀ a₀ s) (k : Nat) : Keeps b₀ a₀ (State.halfStart s k) := by
  unfold State.halfStart
  repeat' first
    | with_reducible assumption | intro _
    | (extract_lets +onlyGivenNames u₀; first | (refine Keeps.cut (m := b₀) (a := a₀) (s := u₀) ?_ fun _ => ?_ <;> [(unfold u₀; clear u₀); ((try clear_value u₀); revert u₀; intro _ _)]) | (revert u₀; intro _))
    | with_reducible apply State.setStn_keeps | with_reducible apply State.wr_keeps
    | with_reducible apply State.setLnk_keeps | with_reducible apply Keeps.ite | split | (clear_value *; split)
    | (with_reducible refine Keeps.upd ?_ ?_ ?_ ?_ <;> [assumption; rfl; rfl; rfl])

theorem State.sendScan_keeps {b₀ : Bool} {a₀ s : State} (h : Keeps b₀ a₀ s) (k : Nat) (j : Nat) (f : Nat) (c : Clock) (start : Int) (skip : Bool) (gen : Nat) (en : List (Nat × Imaging × Int)) (seen : List Imaging) : Keeps b₀ a₀ (State.sendScan s k j f c start skip gen en seen) := by
  unfold State.sendScan
  repeat' first
    | with_reducible assumption | intro _
    | (extract_lets +onlyGivenNames u₀; first | (refine Keeps.cut (m := b₀) (a := a₀) (s := u₀) ?_ fun _ => ?_ <;> [(unfold u₀; clear u₀); ((try clear_value u₀); revert u₀; intro _ _)]) | (refine Keeps.cut (m := b₀) (a := a₀) (s := u₀.2) ?_ fun _ => ?_ <;> [(unfold u₀; clear u₀); ((try clear_value u₀); revert u₀; intro _ _)]) | (refine Keeps.cut (m := b₀) (a := a₀) (s := u₀.1) ?_ fun _ => ?_ <;> [(unfold u₀; clear u₀); ((try clear_value u₀); revert u₀; intro _ _)]) | (revert u₀; intro _))
    | with_reducible apply State.sendDrives_keeps | with_reducible apply State.emit_keeps
    | with_reducible apply State.take_keeps | with_reducible apply State.send_keeps
    | with_reducible apply State.setLnk_keeps | with_reducible apply State.apcCommand_keeps
    | with_reducible apply Keeps.foldl | with_reducible apply Keeps.foldlSnd | with_reducible apply Keeps.foldlFst
    | with_reducible apply Keeps.ite | with_reducible apply Keeps.iteSnd | split | (clear_value *; split)
    | (with_reducible refine Keeps.upd ?_ ?_ ?_ ?_ <;> [assumption; rfl; rfl; rfl])

theorem State.lateScan_keeps {b₀ : Bool} {a₀ s : State} (h : Keeps b₀ a₀ s) (k : Nat) (act : List Imaging) : Keeps b₀ a₀ (State.lateScan s k act) := by
  unfold State.lateScan
  repeat' first
    | with_reducible assumption | intro _ | with_reducible apply State.ev_keeps
    | with_reducible apply State.darken_keeps | with_reducible apply State.spoil_keeps
    | with_reducible apply Keeps.foldl | with_reducible apply Keeps.foldlSnd | with_reducible apply Keeps.foldlFst
    | (with_reducible refine Keeps.upd ?_ ?_ ?_ ?_ <;> [assumption; rfl; rfl; rfl])

theorem State.performScan_keeps {b₀ : Bool} {a₀ s : State} (h : Keeps b₀ a₀ s) (k : Nat) (T : Nat) (mark : Nat) (decoded : Nat) (bridged : Bool) : Keeps b₀ a₀ (State.performScan s k T mark decoded bridged) := by
  unfold State.performScan
  repeat' first
    | with_reducible assumption | intro _
    | (extract_lets +onlyGivenNames u₀; first | (refine Keeps.cut (m := b₀) (a := a₀) (s := u₀) ?_ fun _ => ?_ <;> [(unfold u₀; clear u₀); ((try clear_value u₀); revert u₀; intro _ _)]) | (refine Keeps.cut (m := b₀) (a := a₀) (s := u₀.2) ?_ fun _ => ?_ <;> [(unfold u₀; clear u₀); ((try clear_value u₀); revert u₀; intro _ _)]) | (revert u₀; intro _))
    | with_reducible apply State.drainStep_keeps | with_reducible apply State.stationBoundary_keeps
    | with_reducible apply State.finishContexts_keeps | with_reducible apply State.sendScan_keeps
    | with_reducible apply State.lateScan_keeps | with_reducible apply State.siltCheck_keeps
    | with_reducible apply State.setStn_keeps | with_reducible apply State.placeAll_keeps
    | with_reducible apply State.setClock_keeps | with_reducible apply State.wr_keeps
    | with_reducible apply State.setLnk_keeps | with_reducible apply State.halfStart_keeps
    | with_reducible apply State.scanPhase_keeps | with_reducible apply State.startImaging_keeps
    | with_reducible apply State.markPos_keeps | with_reducible apply State.noteLines_keeps
    | with_reducible apply Keeps.foldl | with_reducible apply Keeps.foldlSnd | with_reducible apply Keeps.foldlFst
    | with_reducible apply Keeps.ite | with_reducible apply Keeps.iteSnd | split | (clear_value *; split)
    | (with_reducible refine Keeps.upd ?_ ?_ ?_ ?_ <;> [assumption; rfl; rfl; rfl])

theorem State.takeSos_keeps {b₀ : Bool} {a₀ s : State} (h : Keeps b₀ a₀ s) (k : Nat) (T : Nat) : Keeps b₀ a₀ (State.takeSos s k T) := by
  unfold State.takeSos
  repeat' first
    | with_reducible assumption | intro _
    | (extract_lets +onlyGivenNames u₀; first | (refine Keeps.cut (m := b₀) (a := a₀) (s := u₀) ?_ fun _ => ?_ <;> [(unfold u₀; clear u₀); ((try clear_value u₀); revert u₀; intro _ _)]) | (revert u₀; intro _))
    | with_reducible apply State.setStn_keeps | with_reducible apply State.take_keeps
    | with_reducible apply Keeps.ite | split | (clear_value *; split)
    | (with_reducible refine Keeps.upd ?_ ?_ ?_ ?_ <;> [assumption; rfl; rfl; rfl])

theorem scanStart_keeps {b₀ : Bool} {a₀ s : State} (h : Keeps b₀ a₀ s) (k : Nat) (sos : Nat) (fine : Nat) (mark : Nat) (decoded : Nat) : Keeps b₀ a₀ (scanStart k sos fine mark decoded s) := by
  unfold scanStart
  repeat' first
    | with_reducible assumption | intro _
    | (extract_lets +onlyGivenNames u₀; first | (refine Keeps.cut (m := b₀) (a := a₀) (s := u₀) ?_ fun _ => ?_ <;> [(unfold u₀; clear u₀); ((try clear_value u₀); revert u₀; intro _ _)]) | (revert u₀; intro _))
    | with_reducible apply State.performScan_keeps | with_reducible apply State.writeRevper_keeps
    | with_reducible apply State.lockFacet_keeps | with_reducible apply State.count_keeps
    | with_reducible apply State.takeSos_keeps | with_reducible apply State.setStn_keeps
    | with_reducible apply State.wr_keeps | with_reducible apply State.writeFper_keeps
    | with_reducible apply State.clr_keeps | with_reducible apply Keeps.ite | split | (clear_value *; split)
    | (with_reducible refine Keeps.upd ?_ ?_ ?_ ?_ <;> [assumption; rfl; rfl; rfl])

theorem execScanStart_keeps {b₀ : Bool} {a₀ s : State} (h : Keeps b₀ a₀ s) (k : Nat) (sos : Nat) (fine : Nat) (mark : Nat) (decoded : Nat) {t₀ : State} (e : execScanStart k sos fine mark decoded s = .next t₀) : Keeps b₀ a₀ t₀ := by
  unfold execScanStart at e
  obtain ⟨-, rfl⟩ := guardWF_next e
  repeat' first
    | with_reducible assumption | intro _ | with_reducible apply scanStart_keeps

theorem sosWindowMiss_keeps {b₀ : Bool} {a₀ s : State} (h : Keeps b₀ a₀ s) (k : Nat) (mark : Nat) (decoded : Nat) : Keeps b₀ a₀ (sosWindowMiss k mark decoded s) := by
  unfold sosWindowMiss
  repeat' first
    | with_reducible assumption | intro _
    | (extract_lets +onlyGivenNames u₀; first | (refine Keeps.cut (m := b₀) (a := a₀) (s := u₀) ?_ fun _ => ?_ <;> [(unfold u₀; clear u₀); ((try clear_value u₀); revert u₀; intro _ _)]) | (revert u₀; intro _))
    | with_reducible apply State.takeSos_keeps | with_reducible apply State.setStn_keeps | with_reducible apply State.wr_keeps
    | with_reducible apply State.count_keeps | with_reducible apply State.writeFper_keeps
    | with_reducible apply State.writeRevper_keeps | with_reducible apply State.performScan_keeps
    | with_reducible apply State.ev_keeps | with_reducible apply State.loseLock_keeps | with_reducible apply Keeps.ite | split
    | (clear_value *; split) | (with_reducible refine Keeps.upd ?_ ?_ ?_ ?_ <;> [assumption; rfl; rfl; rfl])

theorem execSosWindowMiss_keeps {b₀ : Bool} {a₀ s : State} (h : Keeps b₀ a₀ s) (k : Nat) (mark : Nat) (decoded : Nat) {t₀ : State} (e : execSosWindowMiss k mark decoded s = .next t₀) : Keeps b₀ a₀ t₀ := by
  unfold execSosWindowMiss at e
  obtain ⟨-, rfl⟩ := guardWF_next e
  repeat' first
    | with_reducible assumption | intro _ | with_reducible apply sosWindowMiss_keeps

theorem execSosGlitch_keeps {b₀ : Bool} {a₀ s : State} (h : Keeps b₀ a₀ s) (k : Nat) {t₀ : State} (e : execSosGlitch k s = .next t₀) : Keeps b₀ a₀ t₀ := by
  unfold execSosGlitch at e
  obtain ⟨-, rfl⟩ := guardWF_next e
  repeat' first
    | with_reducible assumption | intro _ | with_reducible apply State.count_keeps | with_reducible apply Keeps.ite | split
    | (clear_value *; split)

theorem execIndexPulse_keeps {b₀ : Bool} {a₀ s : State} (h : Keeps b₀ a₀ s) (k : Nat) {t₀ : State} (e : execIndexPulse k s = .next t₀) : Keeps b₀ a₀ t₀ := by
  unfold execIndexPulse at e
  obtain ⟨-, rfl⟩ := guardWF_next e
  repeat' first
    | with_reducible assumption | intro _
    | (extract_lets +onlyGivenNames u₀; first | (refine Keeps.cut (m := b₀) (a := a₀) (s := u₀) ?_ fun _ => ?_ <;> [(unfold u₀; clear u₀); ((try clear_value u₀); revert u₀; intro _ _)]) | (revert u₀; intro _))
    | with_reducible apply State.setStn_keeps | with_reducible apply Keeps.ite | split | (clear_value *; split)
    | (with_reducible refine Keeps.upd ?_ ?_ ?_ ?_ <;> [assumption; rfl; rfl; rfl])

theorem facetSignatureEval_keeps {b₀ : Bool} {a₀ s : State} (h : Keeps b₀ a₀ s) (k : Nat) : Keeps b₀ a₀ (facetSignatureEval k s) := by
  unfold facetSignatureEval
  repeat' first
    | with_reducible assumption | intro _
    | (extract_lets +onlyGivenNames u₀; first | (refine Keeps.cut (m := b₀) (a := a₀) (s := u₀) ?_ fun _ => ?_ <;> [(unfold u₀; clear u₀); ((try clear_value u₀); revert u₀; intro _ _)]) | (revert u₀; intro _))
    | with_reducible apply State.setStn_keeps | with_reducible apply State.lockFacet_keeps | with_reducible apply State.ev_keeps
    | with_reducible apply Keeps.ite | split | (clear_value *; split)
    | (with_reducible refine Keeps.upd ?_ ?_ ?_ ?_ <;> [assumption; rfl; rfl; rfl])

theorem execFacetSignatureEval_keeps {b₀ : Bool} {a₀ s : State} (h : Keeps b₀ a₀ s) (k : Nat) {t₀ : State} (e : execFacetSignatureEval k s = .next t₀) : Keeps b₀ a₀ t₀ := by
  unfold execFacetSignatureEval at e
  obtain ⟨-, rfl⟩ := guardWF_next e
  repeat' first
    | with_reducible assumption | intro _ | with_reducible apply facetSignatureEval_keeps

theorem execSynLockLoss_keeps {b₀ : Bool} {a₀ s : State} (h : Keeps b₀ a₀ s) (k : Nat) {t₀ : State} (e : execSynLockLoss k s = .next t₀) : Keeps b₀ a₀ t₀ := by
  unfold execSynLockLoss at e
  obtain ⟨-, rfl⟩ := guardWF_next e
  repeat' first
    | with_reducible assumption | intro _ | with_reducible apply State.clr_keeps | with_reducible apply State.loseLock_keeps
    | with_reducible apply Keeps.ite | split | (clear_value *; split)

theorem execSynLockGain_keeps {b₀ : Bool} {a₀ s : State} (h : Keeps b₀ a₀ s) (k : Nat) {t₀ : State} (e : execSynLockGain k s = .next t₀) : Keeps b₀ a₀ t₀ := by
  unfold execSynLockGain at e
  obtain ⟨-, rfl⟩ := guardWF_next e
  repeat' first
    | with_reducible assumption | intro _
    | (extract_lets +onlyGivenNames u₀; first | (refine Keeps.cut (m := b₀) (a := a₀) (s := u₀) ?_ fun _ => ?_ <;> [(unfold u₀; clear u₀); ((try clear_value u₀); revert u₀; intro _ _)]) | (revert u₀; intro _))
    | with_reducible apply State.setStn_keeps | with_reducible apply State.wr_keeps
    | with_reducible apply State.settleReady_keeps | with_reducible apply Keeps.ite | split | (clear_value *; split)
    | (with_reducible refine Keeps.upd ?_ ?_ ?_ ?_ <;> [assumption; rfl; rfl; rfl])

end Sys2Proof.Machine
end

