-- ==== Sys2Proof/Laws/KeepsMotion.lean ====
section
/-! SUPPORT. Every operation of Machine/Motion.lean keeps what `Keeps` says. -/

namespace Sys2Proof.Machine

open Sys2Proof

set_option linter.unusedTactic false

set_option linter.unreachableTactic false

theorem State.setAxSt_keeps {b₀ : Bool} {a₀ s : State} (h : Keeps b₀ a₀ s) (k : Nat) (st : Nat) : Keeps b₀ a₀ (State.setAxSt s k st) := by
  unfold State.setAxSt
  repeat' first
    | with_reducible assumption | intro _ | with_reducible apply State.wr_keeps

theorem State.axRefuse_keeps {b₀ : Bool} {a₀ s : State} (h : Keeps b₀ a₀ s) (k : Nat) (cause : Nat) : Keeps b₀ a₀ (State.axRefuse s k cause) := by
  unfold State.axRefuse
  repeat' first
    | with_reducible assumption | intro _ | with_reducible apply State.ev_keeps | with_reducible apply State.wr_keeps

theorem State.setActpos_keeps {b₀ : Bool} {a₀ s : State} (h : Keeps b₀ a₀ s) (k : Nat) (p : Int) : Keeps b₀ a₀ (State.setActpos s k p) := by
  unfold State.setActpos
  repeat' first
    | with_reducible assumption | intro _
    | (extract_lets +onlyGivenNames u₀; first | (refine Keeps.cut (m := b₀) (a := a₀) (s := u₀) ?_ fun _ => ?_ <;> [(unfold u₀; clear u₀); ((try clear_value u₀); revert u₀; intro _ _)]) | (revert u₀; intro _))
    | with_reducible apply State.wrS_keeps | with_reducible apply State.setAxis_keeps

theorem State.setPosition_keeps {b₀ : Bool} {a₀ s : State} (h : Keeps b₀ a₀ s) (k : Nat) (p : Int) : Keeps b₀ a₀ (State.setPosition s k p) := by
  unfold State.setPosition
  repeat' first
    | with_reducible assumption | intro _
    | (extract_lets +onlyGivenNames u₀; first | (refine Keeps.cut (m := b₀) (a := a₀) (s := u₀) ?_ fun _ => ?_ <;> [(unfold u₀; clear u₀); ((try clear_value u₀); revert u₀; intro _ _)]) | (revert u₀; intro _))
    | with_reducible apply State.wrS_keeps | with_reducible apply State.setActpos_keeps
    | with_reducible apply State.setAxis_keeps | (with_reducible refine Keeps.upd ?_ ?_ ?_ ?_ <;> [assumption; rfl; rfl; rfl])

theorem encoderCount_keeps {b₀ : Bool} {a₀ s : State} (h : Keeps b₀ a₀ s) (k : Nat) (forward : Bool) : Keeps b₀ a₀ (encoderCount k forward s) := by
  unfold encoderCount
  repeat' first
    | with_reducible assumption | intro _
    | (extract_lets +onlyGivenNames u₀; first | (refine Keeps.cut (m := b₀) (a := a₀) (s := u₀) ?_ fun _ => ?_ <;> [(unfold u₀; clear u₀); ((try clear_value u₀); revert u₀; intro _ _)]) | (refine Keeps.cut (m := b₀) (a := a₀) (s := u₀.2) ?_ fun _ => ?_ <;> [(unfold u₀; clear u₀); ((try clear_value u₀); revert u₀; intro _ _)]) | (revert u₀; intro _))
    | with_reducible apply State.setAxis_keeps | with_reducible apply State.setActpos_keeps
    | with_reducible apply Keeps.ite | with_reducible apply Keeps.iteSnd | split | (clear_value *; split)
    | (with_reducible refine Keeps.upd ?_ ?_ ?_ ?_ <;> [assumption; rfl; rfl; rfl])

theorem encoderError_keeps {b₀ : Bool} {a₀ s : State} (h : Keeps b₀ a₀ s) (k : Nat) : Keeps b₀ a₀ (encoderError k s) := by
  unfold encoderError
  repeat' first
    | with_reducible assumption | intro _ | with_reducible apply State.ev_keeps
    | with_reducible apply State.count_keeps | with_reducible apply Keeps.ite | split | (clear_value *; split)
    | (with_reducible refine Keeps.upd ?_ ?_ ?_ ?_ <;> [assumption; rfl; rfl; rfl])

theorem execEncoderError_keeps {b₀ : Bool} {a₀ s : State} (h : Keeps b₀ a₀ s) (k : Nat) {t₀ : State} (e : execEncoderError k s = .next t₀) : Keeps b₀ a₀ t₀ := by
  unfold execEncoderError at e
  obtain ⟨-, rfl⟩ := guardWF_next e
  repeat' first
    | with_reducible assumption | intro _ | with_reducible apply encoderError_keeps

theorem State.putStep_keeps {b₀ : Bool} {a₀ s : State} (h : Keeps b₀ a₀ s) (k : Nat) (up : Bool) : Keeps b₀ a₀ (State.putStep s k up) := by
  unfold State.putStep
  repeat' first
    | with_reducible assumption | intro _
    | (extract_lets +onlyGivenNames u₀; first | (refine Keeps.cut (m := b₀) (a := a₀) (s := u₀) ?_ fun _ => ?_ <;> [(unfold u₀; clear u₀); ((try clear_value u₀); revert u₀; intro _ _)]) | (revert u₀; intro _))
    | with_reducible apply State.setAxis_keeps | with_reducible apply State.emit_keeps
    | with_reducible apply Keeps.ite | split | (clear_value *; split)
    | (with_reducible refine Keeps.upd ?_ ?_ ?_ ?_ <;> [assumption; rfl; rfl; rfl])

theorem State.emitStep_keeps {b₀ : Bool} {a₀ s : State} (h : Keeps b₀ a₀ s) (k : Nat) (up : Bool) : Keeps b₀ a₀ (State.emitStep s k up) := by
  unfold State.emitStep
  repeat' first
    | with_reducible assumption | intro _
    | (extract_lets +onlyGivenNames u₀; first | (refine Keeps.cut (m := b₀) (a := a₀) (s := u₀) ?_ fun _ => ?_ <;> [(unfold u₀; clear u₀); ((try clear_value u₀); revert u₀; intro _ _)]) | (revert u₀; intro _))
    | with_reducible apply State.ev_keeps | with_reducible apply State.putStep_keeps
    | with_reducible apply State.setAxis_keeps | with_reducible apply State.wrS_keeps
    | with_reducible apply Keeps.ite | split | (clear_value *; split)
    | (with_reducible refine Keeps.upd ?_ ?_ ?_ ?_ <;> [assumption; rfl; rfl; rfl])

theorem clockAxis_keeps {b₀ : Bool} {a₀ s : State} (h : Keeps b₀ a₀ s) (k : Nat) : Keeps b₀ a₀ (clockAxis k s) := by
  unfold clockAxis
  repeat' first
    | with_reducible assumption | intro _
    | (extract_lets +onlyGivenNames u₀; first | (refine Keeps.cut (m := b₀) (a := a₀) (s := u₀) ?_ fun _ => ?_ <;> [(unfold u₀; clear u₀); ((try clear_value u₀); revert u₀; intro _ _)]) | (revert u₀; intro _))
    | with_reducible apply State.setAxis_keeps | with_reducible apply State.ev_keeps
    | with_reducible apply State.wrS_keeps | with_reducible apply State.count_keeps
    | with_reducible apply State.emitStep_keeps | with_reducible apply Keeps.ite | split | (clear_value *; split)
    | (with_reducible refine Keeps.upd ?_ ?_ ?_ ?_ <;> [assumption; rfl; rfl; rfl])

theorem clockAxes_keeps {b₀ : Bool} {a₀ s : State} (h : Keeps b₀ a₀ s) : Keeps b₀ a₀ (clockAxes s) := by
  unfold clockAxes
  repeat' first
    | with_reducible assumption | intro _ | with_reducible apply clockAxis_keeps | with_reducible apply Keeps.foldl
    | with_reducible apply Keeps.foldlSnd | with_reducible apply Keeps.foldlFst

theorem State.homeFail_keeps {b₀ : Bool} {a₀ s : State} (h : Keeps b₀ a₀ s) (k : Nat) (cause : Nat) : Keeps b₀ a₀ (State.homeFail s k cause) := by
  unfold State.homeFail
  repeat' first
    | with_reducible assumption | intro _ | with_reducible apply State.wr_keeps

theorem State.homeLatch_keeps {b₀ : Bool} {a₀ s : State} (h : Keeps b₀ a₀ s) (k : Nat) (c : Int) (a : Int) : Keeps b₀ a₀ (State.homeLatch s k c a) := by
  unfold State.homeLatch
  repeat' first
    | with_reducible assumption | intro _ | with_reducible apply State.wrS_keeps

theorem State.planMove_keeps {b₀ : Bool} {a₀ s : State} (h : Keeps b₀ a₀ s) (k : Nat) (goal : Int) : Keeps b₀ a₀ (State.planMove s k goal) := by
  unfold State.planMove
  repeat' first
    | with_reducible assumption | intro _
    | (extract_lets +onlyGivenNames u₀; first | (refine Keeps.cut (m := b₀) (a := a₀) (s := u₀) ?_ fun _ => ?_ <;> [(unfold u₀; clear u₀); ((try clear_value u₀); revert u₀; intro _ _)]) | (revert u₀; intro _))
    | with_reducible apply State.setAxis_keeps | (with_reducible refine Keeps.upd ?_ ?_ ?_ ?_ <;> [assumption; rfl; rfl; rfl])

theorem State.setPlan_keeps {b₀ : Bool} {a₀ s : State} (h : Keeps b₀ a₀ s) (k : Nat) (p : Plan) : Keeps b₀ a₀ (State.setPlan s k p) := by
  unfold State.setPlan
  repeat' first
    | with_reducible assumption | intro _
    | (extract_lets +onlyGivenNames u₀; first | (refine Keeps.cut (m := b₀) (a := a₀) (s := u₀) ?_ fun _ => ?_ <;> [(unfold u₀; clear u₀); ((try clear_value u₀); revert u₀; intro _ _)]) | (revert u₀; intro _))
    | with_reducible apply State.setAxis_keeps
    | (with_reducible refine Keeps.upd ?_ ?_ ?_ ?_ <;> [assumption; rfl; rfl; rfl])

theorem State.homeStart_keeps {b₀ : Bool} {a₀ s : State} (h : Keeps b₀ a₀ s) (k : Nat) : Keeps b₀ a₀ (State.homeStart s k) := by
  unfold State.homeStart
  repeat' first
    | with_reducible assumption | intro _
    | (extract_lets +onlyGivenNames u₀; first | (refine Keeps.cut (m := b₀) (a := a₀) (s := u₀) ?_ fun _ => ?_ <;> [(unfold u₀; clear u₀); ((try clear_value u₀); revert u₀; intro _ _)]) | (revert u₀; intro _))
    | with_reducible apply State.setPosition_keeps | with_reducible apply State.setAxis_keeps
    | with_reducible apply State.setAxSt_keeps | with_reducible apply State.ev_keeps
    | with_reducible apply State.wr_keeps | with_reducible apply State.homeLatch_keeps
    | with_reducible apply State.clr_keeps | with_reducible apply State.setPlan_keeps
    | with_reducible apply Keeps.ite | split | (clear_value *; split)
    | (with_reducible refine Keeps.upd ?_ ?_ ?_ ?_ <;> [assumption; rfl; rfl; rfl])

theorem State.axStop_keeps {b₀ : Bool} {a₀ s : State} (h : Keeps b₀ a₀ s) (k : Nat) (p : Plan) : Keeps b₀ a₀ (State.axStop s k p) := by
  unfold State.axStop
  repeat' first
    | with_reducible assumption | intro _
    | (extract_lets +onlyGivenNames u₀; first | (refine Keeps.cut (m := b₀) (a := a₀) (s := u₀) ?_ fun _ => ?_ <;> [(unfold u₀; clear u₀); ((try clear_value u₀); revert u₀; intro _ _)]) | (revert u₀; intro _))
    | with_reducible apply State.homeFail_keeps | with_reducible apply State.setAxSt_keeps
    | with_reducible apply State.setAxis_keeps | with_reducible apply Keeps.ite | split | (clear_value *; split)
    | (with_reducible refine Keeps.upd ?_ ?_ ?_ ?_ <;> [assumption; rfl; rfl; rfl])

theorem State.axHalt_keeps {b₀ : Bool} {a₀ s : State} (h : Keeps b₀ a₀ s) (k : Nat) : Keeps b₀ a₀ (State.axHalt s k) := by
  unfold State.axHalt
  repeat' first
    | with_reducible assumption | intro _
    | (extract_lets +onlyGivenNames u₀; first | (refine Keeps.cut (m := b₀) (a := a₀) (s := u₀) ?_ fun _ => ?_ <;> [(unfold u₀; clear u₀); ((try clear_value u₀); revert u₀; intro _ _)]) | (revert u₀; intro _))
    | with_reducible apply State.ev_keeps | with_reducible apply State.setAxis_keeps
    | with_reducible apply State.homeFail_keeps | with_reducible apply State.clr_keeps
    | with_reducible apply Keeps.ite | split | (clear_value *; split)
    | (with_reducible refine Keeps.upd ?_ ?_ ?_ ?_ <;> [assumption; rfl; rfl; rfl])

theorem homeRawEdge_keeps {b₀ : Bool} {a₀ s : State} (h : Keeps b₀ a₀ s) (k : Nat) (active : Bool) : Keeps b₀ a₀ (homeRawEdge k active s) := by
  unfold homeRawEdge
  repeat' first
    | with_reducible assumption | intro _
    | (extract_lets +onlyGivenNames u₀; first | (refine Keeps.cut (m := b₀) (a := a₀) (s := u₀) ?_ fun _ => ?_ <;> [(unfold u₀; clear u₀); ((try clear_value u₀); revert u₀; intro _ _)]) | (revert u₀; intro _))
    | with_reducible apply State.setAxis_keeps | with_reducible apply State.count_keeps
    | with_reducible apply Keeps.ite | split | (clear_value *; split)
    | (with_reducible refine Keeps.upd ?_ ?_ ?_ ?_ <;> [assumption; rfl; rfl; rfl])

theorem homeQualified_keeps {b₀ : Bool} {a₀ s : State} (h : Keeps b₀ a₀ s) (k : Nat) : Keeps b₀ a₀ (homeQualified k s) := by
  unfold homeQualified
  repeat' first
    | with_reducible assumption | intro _
    | (extract_lets +onlyGivenNames u₀; first | (refine Keeps.cut (m := b₀) (a := a₀) (s := u₀) ?_ fun _ => ?_ <;> [(unfold u₀; clear u₀); ((try clear_value u₀); revert u₀; intro _ _)]) | (revert u₀; intro _))
    | with_reducible apply State.setAxis_keeps | with_reducible apply State.wr_keeps
    | with_reducible apply State.homeLatch_keeps | with_reducible apply State.setPlan_keeps
    | with_reducible apply State.wrB_keeps | with_reducible apply Keeps.ite | split | (clear_value *; split)
    | (with_reducible refine Keeps.upd ?_ ?_ ?_ ?_ <;> [assumption; rfl; rfl; rfl])

theorem indexEdge_keeps {b₀ : Bool} {a₀ s : State} (h : Keeps b₀ a₀ s) (k : Nat) : Keeps b₀ a₀ (indexEdge k s) := by
  unfold indexEdge
  repeat' first
    | with_reducible assumption | intro _
    | (extract_lets +onlyGivenNames u₀; first | (refine Keeps.cut (m := b₀) (a := a₀) (s := u₀) ?_ fun _ => ?_ <;> [(unfold u₀; clear u₀); ((try clear_value u₀); revert u₀; intro _ _)]) | (revert u₀; intro _))
    | with_reducible apply State.homeLatch_keeps | with_reducible apply State.setAxis_keeps
    | with_reducible apply State.wr_keeps | with_reducible apply State.setPlan_keeps | with_reducible apply Keeps.ite | split
    | (clear_value *; split) | (with_reducible refine Keeps.upd ?_ ?_ ?_ ?_ <;> [assumption; rfl; rfl; rfl])

theorem execHomeRawEdge_keeps {b₀ : Bool} {a₀ s : State} (h : Keeps b₀ a₀ s) (k : Nat) (active : Bool) {t₀ : State} (e : execHomeRawEdge k active s = .next t₀) : Keeps b₀ a₀ t₀ := by
  unfold execHomeRawEdge at e
  obtain ⟨-, rfl⟩ := guardWF_next e
  repeat' first
    | with_reducible assumption | intro _ | with_reducible apply homeRawEdge_keeps

theorem execHomeQualified_keeps {b₀ : Bool} {a₀ s : State} (h : Keeps b₀ a₀ s) (k : Nat) {t₀ : State} (e : execHomeQualified k s = .next t₀) : Keeps b₀ a₀ t₀ := by
  unfold execHomeQualified at e
  obtain ⟨-, rfl⟩ := guardWF_next e
  repeat' first
    | with_reducible assumption | intro _ | with_reducible apply homeQualified_keeps

theorem execIndexEdge_keeps {b₀ : Bool} {a₀ s : State} (h : Keeps b₀ a₀ s) (k : Nat) {t₀ : State} (e : execIndexEdge k s = .next t₀) : Keeps b₀ a₀ t₀ := by
  unfold execIndexEdge at e
  obtain ⟨-, rfl⟩ := guardWF_next e
  repeat' first
    | with_reducible assumption | intro _ | with_reducible apply indexEdge_keeps

theorem limitActive_keeps {b₀ : Bool} {a₀ s : State} (h : Keeps b₀ a₀ s) (k : Nat) (positive : Bool) : Keeps b₀ a₀ (limitActive k positive s) := by
  unfold limitActive
  repeat' first
    | with_reducible assumption | intro _
    | (extract_lets +onlyGivenNames u₀; first | (refine Keeps.cut (m := b₀) (a := a₀) (s := u₀) ?_ fun _ => ?_ <;> [(unfold u₀; clear u₀); ((try clear_value u₀); revert u₀; intro _ _)]) | (revert u₀; intro _))
    | with_reducible apply State.setAxis_keeps | with_reducible apply State.homeFail_keeps
    | with_reducible apply State.setAxSt_keeps | with_reducible apply State.ev_keeps
    | with_reducible apply State.wr_keeps | with_reducible apply State.setPlan_keeps | with_reducible apply Keeps.ite
    | split | (clear_value *; split) | (with_reducible refine Keeps.upd ?_ ?_ ?_ ?_ <;> [assumption; rfl; rfl; rfl])

theorem execLimitActive_keeps {b₀ : Bool} {a₀ s : State} (h : Keeps b₀ a₀ s) (k : Nat) (positive : Bool) {t₀ : State} (e : execLimitActive k positive s = .next t₀) : Keeps b₀ a₀ t₀ := by
  unfold execLimitActive at e
  obtain ⟨-, rfl⟩ := guardWF_next e
  repeat' first
    | with_reducible assumption | intro _ | with_reducible apply limitActive_keeps

theorem execLimitInactive_keeps {b₀ : Bool} {a₀ s : State} (h : Keeps b₀ a₀ s) (k : Nat) (positive : Bool) {t₀ : State} (e : execLimitInactive k positive s = .next t₀) : Keeps b₀ a₀ t₀ := by
  unfold execLimitInactive at e
  obtain ⟨-, rfl⟩ := guardWF_next e
  repeat' first
    | with_reducible assumption | intro _ | with_reducible apply State.clr_keeps | with_reducible apply Keeps.ite | split
    | (clear_value *; split)

theorem State.planStop_keeps {b₀ : Bool} {a₀ s : State} (h : Keeps b₀ a₀ s) (k : Nat) (dec : Option Int) : Keeps b₀ a₀ (State.planStop s k dec) := by
  unfold State.planStop
  repeat' first
    | with_reducible assumption | intro _
    | (extract_lets +onlyGivenNames u₀; first | (refine Keeps.cut (m := b₀) (a := a₀) (s := u₀) ?_ fun _ => ?_ <;> [(unfold u₀; clear u₀); ((try clear_value u₀); revert u₀; intro _ _)]) | (revert u₀; intro _))
    | with_reducible apply State.ev_keeps | with_reducible apply State.setAxis_keeps | with_reducible apply State.setAxSt_keeps
    | with_reducible apply State.wr_keeps | with_reducible apply State.planMove_keeps | with_reducible apply Keeps.ite | split
    | (clear_value *; split) | (with_reducible refine Keeps.upd ?_ ?_ ?_ ?_ <;> [assumption; rfl; rfl; rfl])

theorem State.planSegment_keeps {b₀ : Bool} {a₀ s : State} (h : Keeps b₀ a₀ s) (k : Nat) : Keeps b₀ a₀ (State.planSegment s k) := by
  unfold State.planSegment
  repeat' first
    | with_reducible assumption | intro _
    | (extract_lets +onlyGivenNames u₀; first | (refine Keeps.cut (m := b₀) (a := a₀) (s := u₀) ?_ fun _ => ?_ <;> [(unfold u₀; clear u₀); ((try clear_value u₀); revert u₀; intro _ _)]) | (revert u₀; intro _))
    | with_reducible apply State.setAxis_keeps | with_reducible apply State.setAxSt_keeps
    | with_reducible apply State.ev_keeps | with_reducible apply State.planStop_keeps
    | with_reducible apply Keeps.ite | split | (clear_value *; split)
    | (with_reducible refine Keeps.upd ?_ ?_ ?_ ?_ <;> [assumption; rfl; rfl; rfl])

theorem State.planPosition_keeps {b₀ : Bool} {a₀ s : State} (h : Keeps b₀ a₀ s) (k : Nat) : Keeps b₀ a₀ (State.planPosition s k) := by
  unfold State.planPosition
  repeat' first
    | with_reducible assumption | intro _
    | (extract_lets +onlyGivenNames u₀; first | (refine Keeps.cut (m := b₀) (a := a₀) (s := u₀) ?_ fun _ => ?_ <;> [(unfold u₀; clear u₀); ((try clear_value u₀); revert u₀; intro _ _)]) | (revert u₀; intro _))
    | with_reducible apply State.setAxis_keeps | with_reducible apply State.setPosition_keeps
    | with_reducible apply State.ev_keeps | with_reducible apply State.wr_keeps | with_reducible apply State.setAxSt_keeps
    | with_reducible apply Keeps.ite | split | (clear_value *; split)
    | (with_reducible refine Keeps.upd ?_ ?_ ?_ ?_ <;> [assumption; rfl; rfl; rfl])

theorem planAxis_keeps {b₀ : Bool} {a₀ s : State} (h : Keeps b₀ a₀ s) (k : Nat) : Keeps b₀ a₀ (planAxis k s) := by
  unfold planAxis
  repeat' first
    | with_reducible assumption | intro _
    | (extract_lets +onlyGivenNames u₀; first | (refine Keeps.cut (m := b₀) (a := a₀) (s := u₀) ?_ fun _ => ?_ <;> [(unfold u₀; clear u₀); ((try clear_value u₀); revert u₀; intro _ _)]) | (revert u₀; intro _))
    | with_reducible apply State.setAxis_keeps | with_reducible apply State.planPosition_keeps
    | with_reducible apply State.clr_keeps | with_reducible apply State.planSegment_keeps
    | with_reducible apply State.planStop_keeps | with_reducible apply State.release_keeps
    | with_reducible apply Keeps.ite | split | (clear_value *; split)
    | (with_reducible refine Keeps.upd ?_ ?_ ?_ ?_ <;> [assumption; rfl; rfl; rfl])

theorem keepJerk_keeps {b₀ : Bool} {a₀ s : State} (h : Keeps b₀ a₀ s) (k : Nat) : Keeps b₀ a₀ (keepJerk k s) := by
  unfold keepJerk
  repeat' first
    | with_reducible assumption | intro _
    | (extract_lets +onlyGivenNames u₀; first | (refine Keeps.cut (m := b₀) (a := a₀) (s := u₀) ?_ fun _ => ?_ <;> [(unfold u₀; clear u₀); ((try clear_value u₀); revert u₀; intro _ _)]) | (revert u₀; intro _))
    | with_reducible apply State.setAxis_keeps | (with_reducible refine Keeps.upd ?_ ?_ ?_ ?_ <;> [assumption; rfl; rfl; rfl])

theorem estimateAxis_keeps {b₀ : Bool} {a₀ s : State} (h : Keeps b₀ a₀ s) (k : Nat) : Keeps b₀ a₀ (estimateAxis k s) := by
  unfold estimateAxis
  repeat' first
    | with_reducible assumption | intro _
    | (extract_lets +onlyGivenNames u₀; first | (refine Keeps.cut (m := b₀) (a := a₀) (s := u₀) ?_ fun _ => ?_ <;> [(unfold u₀; clear u₀); ((try clear_value u₀); revert u₀; intro _ _)]) | (revert u₀; intro _))
    | with_reducible apply State.setAxis_keeps | with_reducible apply State.take_keeps | with_reducible apply State.wrS_keeps
    | with_reducible apply Keeps.ite | split | (clear_value *; split)
    | (with_reducible refine Keeps.upd ?_ ?_ ?_ ?_ <;> [assumption; rfl; rfl; rfl])

theorem checkAxis_keeps {b₀ : Bool} {a₀ s : State} (h : Keeps b₀ a₀ s) (k : Nat) : Keeps b₀ a₀ (checkAxis k s) := by
  unfold checkAxis
  repeat' first
    | with_reducible assumption | intro _
    | (extract_lets +onlyGivenNames u₀; first | (refine Keeps.cut (m := b₀) (a := a₀) (s := u₀) ?_ fun _ => ?_ <;> [(unfold u₀; clear u₀); ((try clear_value u₀); revert u₀; intro _ _)]) | (revert u₀; intro _))
    | with_reducible apply State.wrS_keeps | with_reducible apply State.ev_keeps | with_reducible apply State.setAxis_keeps
    | with_reducible apply State.homeLatch_keeps | with_reducible apply State.wr_keeps
    | with_reducible apply State.planMove_keeps | with_reducible apply State.homeFail_keeps
    | with_reducible apply State.setAxSt_keeps | with_reducible apply State.setPlan_keeps | with_reducible apply Keeps.ite
    | split | (clear_value *; split) | (with_reducible refine Keeps.upd ?_ ?_ ?_ ?_ <;> [assumption; rfl; rfl; rfl])

theorem homeReach_keeps {b₀ : Bool} {a₀ s : State} (h : Keeps b₀ a₀ s) (k : Nat) : Keeps b₀ a₀ (homeReach k s) := by
  unfold homeReach
  repeat' first
    | with_reducible assumption | intro _
    | (extract_lets +onlyGivenNames u₀; first | (refine Keeps.cut (m := b₀) (a := a₀) (s := u₀) ?_ fun _ => ?_ <;> [(unfold u₀; clear u₀); ((try clear_value u₀); revert u₀; intro _ _)]) | (revert u₀; intro _))
    | with_reducible apply State.homeFail_keeps | with_reducible apply State.setAxSt_keeps
    | with_reducible apply State.setPlan_keeps | with_reducible apply Keeps.ite | split | (clear_value *; split)

theorem tickAxes_keeps {b₀ : Bool} {a₀ s : State} (h : Keeps b₀ a₀ s) (overrun : Option Nat) : Keeps b₀ a₀ (tickAxes overrun s) := by
  unfold tickAxes
  repeat' first
    | with_reducible assumption | intro _
    | (extract_lets +onlyGivenNames u₀; first | (refine Keeps.cut (m := b₀) (a := a₀) (s := u₀) ?_ fun _ => ?_ <;> [(unfold u₀; clear u₀); ((try clear_value u₀); revert u₀; intro _ _)]) | (revert u₀; intro _))
    | with_reducible apply State.ev_keeps | with_reducible apply checkAxis_keeps
    | with_reducible apply estimateAxis_keeps | with_reducible apply keepJerk_keeps
    | with_reducible apply planAxis_keeps | with_reducible apply homeReach_keeps | with_reducible apply Keeps.foldl
    | with_reducible apply Keeps.foldlSnd | with_reducible apply Keeps.foldlFst | with_reducible apply Keeps.ite
    | split | (clear_value *; split) | (with_reducible refine Keeps.upd ?_ ?_ ?_ ?_ <;> [assumption; rfl; rfl; rfl])

theorem State.webForget_keeps {b₀ : Bool} {a₀ s : State} (h : Keeps b₀ a₀ s) : Keeps b₀ a₀ (State.webForget s) := by
  unfold State.webForget
  repeat' first
    | with_reducible assumption | intro _
    | (extract_lets +onlyGivenNames u₀; first | (refine Keeps.cut (m := b₀) (a := a₀) (s := u₀) ?_ fun _ => ?_ <;> [(unfold u₀; clear u₀); ((try clear_value u₀); revert u₀; intro _ _)]) | (revert u₀; intro _))
    | with_reducible apply State.setStn_keeps | with_reducible apply Keeps.foldl
    | with_reducible apply Keeps.foldlSnd | with_reducible apply Keeps.foldlFst
    | (with_reducible refine Keeps.upd ?_ ?_ ?_ ?_ <;> [assumption; rfl; rfl; rfl])

theorem State.webAxisStopped_keeps {b₀ : Bool} {a₀ s : State} (h : Keeps b₀ a₀ s) (k : Nat) : Keeps b₀ a₀ (State.webAxisStopped s k) := by
  unfold State.webAxisStopped
  repeat' first
    | with_reducible assumption | intro _
    | (extract_lets +onlyGivenNames u₀; first | (refine Keeps.cut (m := b₀) (a := a₀) (s := u₀) ?_ fun _ => ?_ <;> [(unfold u₀; clear u₀); ((try clear_value u₀); revert u₀; intro _ _)]) | (refine Keeps.cut (m := b₀) (a := a₀) (s := u₀.2) ?_ fun _ => ?_ <;> [(unfold u₀; clear u₀); ((try clear_value u₀); revert u₀; intro _ _)]) | (revert u₀; intro _))
    | with_reducible apply State.finishAll_keeps | with_reducible apply State.pathSpoil_keeps
    | with_reducible apply State.webForget_keeps | with_reducible apply State.wr_keeps
    | with_reducible apply Keeps.foldl | with_reducible apply Keeps.foldlSnd | with_reducible apply Keeps.foldlFst
    | with_reducible apply Keeps.ite | with_reducible apply Keeps.iteSnd | split | (clear_value *; split)
    | (with_reducible refine Keeps.upd ?_ ?_ ?_ ?_ <;> [assumption; rfl; rfl; rfl])

theorem State.axCommand_keeps {b₀ : Bool} {a₀ s : State} (h : Keeps b₀ a₀ s) (k : Nat) (pass : Bool) (f : State → State) (hf : ∀ t, Keeps b₀ a₀ t → Keeps b₀ a₀ (f t)) : Keeps b₀ a₀ (State.axCommand s k pass f) := by
  unfold State.axCommand
  repeat' first
    | with_reducible assumption | intro _ | with_reducible apply State.axRefuse_keeps | with_reducible apply Keeps.ite | split
    | (clear_value *; split) | apply hf

theorem State.startMove_keeps {b₀ : Bool} {a₀ s : State} (h : Keeps b₀ a₀ s) (k : Nat) (goal : Int) : Keeps b₀ a₀ (State.startMove s k goal) := by
  unfold State.startMove
  repeat' first
    | with_reducible assumption | intro _ | with_reducible apply State.clr_keeps | with_reducible apply State.planMove_keeps
    | with_reducible apply State.setAxSt_keeps

theorem moveCmd_keeps {b₀ : Bool} {a₀ s : State} (h : Keeps b₀ a₀ s) (k : Nat) : Keeps b₀ a₀ (moveCmd k s) := by
  unfold moveCmd
  repeat' first
    | with_reducible assumption | intro _
    | (extract_lets +onlyGivenNames u₀; first | (refine Keeps.cut (m := b₀) (a := a₀) (s := u₀) ?_ fun _ => ?_ <;> [(unfold u₀; clear u₀); ((try clear_value u₀); revert u₀; intro _ _)]) | (revert u₀; intro _))
    | with_reducible apply State.axCommand_keeps | with_reducible apply State.axRefuse_keeps
    | with_reducible apply State.startMove_keeps | with_reducible apply Keeps.ite | split | (clear_value *; split)

theorem State.startVelocity_keeps {b₀ : Bool} {a₀ s : State} (h : Keeps b₀ a₀ s) (k : Nat) (p : Plan) : Keeps b₀ a₀ (State.startVelocity s k p) := by
  unfold State.startVelocity
  repeat' first
    | with_reducible assumption | intro _ | with_reducible apply State.clr_keeps | with_reducible apply State.setPlan_keeps
    | with_reducible apply State.setAxSt_keeps

theorem jogCmd_keeps {b₀ : Bool} {a₀ s : State} (h : Keeps b₀ a₀ s) (k : Nat) : Keeps b₀ a₀ (jogCmd k s) := by
  unfold jogCmd
  repeat' first
    | with_reducible assumption | intro _ | with_reducible apply State.axCommand_keeps
    | with_reducible apply State.axRefuse_keeps | with_reducible apply State.startVelocity_keeps
    | with_reducible apply Keeps.ite | split | (clear_value *; split)

theorem gearCmd_keeps {b₀ : Bool} {a₀ s : State} (h : Keeps b₀ a₀ s) (k : Nat) : Keeps b₀ a₀ (gearCmd k s) := by
  unfold gearCmd
  repeat' first
    | with_reducible assumption | intro _ | with_reducible apply State.axCommand_keeps
    | with_reducible apply State.axRefuse_keeps | with_reducible apply State.startVelocity_keeps
    | with_reducible apply Keeps.ite | split | (clear_value *; split)

theorem stopCmd_keeps {b₀ : Bool} {a₀ s : State} (h : Keeps b₀ a₀ s) (k : Nat) : Keeps b₀ a₀ (stopCmd k s) := by
  unfold stopCmd
  repeat' first
    | with_reducible assumption | intro _ | with_reducible apply State.axCommand_keeps | with_reducible apply State.axStop_keeps
    | with_reducible apply State.axRefuse_keeps | with_reducible apply Keeps.ite | split | (clear_value *; split)

theorem qstopCmd_keeps {b₀ : Bool} {a₀ s : State} (h : Keeps b₀ a₀ s) (k : Nat) : Keeps b₀ a₀ (qstopCmd k s) := by
  unfold qstopCmd
  repeat' first
    | with_reducible assumption | intro _ | with_reducible apply State.axCommand_keeps | with_reducible apply State.axStop_keeps
    | with_reducible apply State.webAxisStopped_keeps | with_reducible apply State.axRefuse_keeps
    | with_reducible apply Keeps.ite | split | (clear_value *; split)

theorem haltCmd_keeps {b₀ : Bool} {a₀ s : State} (h : Keeps b₀ a₀ s) (k : Nat) : Keeps b₀ a₀ (haltCmd k s) := by
  unfold haltCmd
  repeat' first
    | with_reducible assumption | intro _ | with_reducible apply State.axCommand_keeps | with_reducible apply State.axHalt_keeps
    | with_reducible apply State.setAxSt_keeps | with_reducible apply State.webAxisStopped_keeps
    | with_reducible apply State.axRefuse_keeps | with_reducible apply Keeps.ite | split | (clear_value *; split)

theorem homeCmd_keeps {b₀ : Bool} {a₀ s : State} (h : Keeps b₀ a₀ s) (k : Nat) : Keeps b₀ a₀ (homeCmd k s) := by
  unfold homeCmd
  repeat' first
    | with_reducible assumption | intro _
    | (extract_lets +onlyGivenNames u₀; first | (refine Keeps.cut (m := b₀) (a := a₀) (s := u₀) ?_ fun _ => ?_ <;> [(unfold u₀; clear u₀); ((try clear_value u₀); revert u₀; intro _ _)]) | (revert u₀; intro _))
    | with_reducible apply State.axCommand_keeps | with_reducible apply State.axRefuse_keeps
    | with_reducible apply State.homeStart_keeps | with_reducible apply Keeps.ite | split | (clear_value *; split)

theorem setposCmd_keeps {b₀ : Bool} {a₀ s : State} (h : Keeps b₀ a₀ s) (k : Nat) : Keeps b₀ a₀ (setposCmd k s) := by
  unfold setposCmd
  repeat' first
    | with_reducible assumption | intro _ | with_reducible apply State.axCommand_keeps
    | with_reducible apply State.setPosition_keeps | with_reducible apply State.ev_keeps
    | with_reducible apply State.axRefuse_keeps | with_reducible apply Keeps.ite | split | (clear_value *; split)

theorem enableCmd_keeps {b₀ : Bool} {a₀ s : State} (h : Keeps b₀ a₀ s) (k : Nat) : Keeps b₀ a₀ (enableCmd k s) := by
  unfold enableCmd
  repeat' first
    | with_reducible assumption | intro _ | with_reducible apply State.axCommand_keeps | with_reducible apply State.ev_keeps
    | with_reducible apply State.setAxSt_keeps | with_reducible apply State.axRefuse_keeps | with_reducible apply Keeps.ite
    | split | (clear_value *; split)

theorem disableCmd_keeps {b₀ : Bool} {a₀ s : State} (h : Keeps b₀ a₀ s) (k : Nat) : Keeps b₀ a₀ (disableCmd k s) := by
  unfold disableCmd
  repeat' first
    | with_reducible assumption | intro _ | with_reducible apply State.axCommand_keeps
    | with_reducible apply State.axRefuse_keeps | with_reducible apply State.axHalt_keeps | with_reducible apply State.clr_keeps
    | with_reducible apply State.setAxSt_keeps | with_reducible apply State.webAxisStopped_keeps
    | with_reducible apply Keeps.ite | split | (clear_value *; split)

theorem clearCmd_keeps {b₀ : Bool} {a₀ s : State} (h : Keeps b₀ a₀ s) (k : Nat) : Keeps b₀ a₀ (clearCmd k s) := by
  unfold clearCmd
  repeat' first
    | with_reducible assumption | intro _ | with_reducible apply State.axCommand_keeps
    | with_reducible apply State.setAxSt_keeps | with_reducible apply State.axRefuse_keeps | with_reducible apply Keeps.ite
    | split | (clear_value *; split)

theorem segmentPush_keeps {b₀ : Bool} {a₀ s : State} (h : Keeps b₀ a₀ s) (k : Nat) (v : Word) : Keeps b₀ a₀ (segmentPush k v s) := by
  unfold segmentPush
  repeat' first
    | with_reducible assumption | intro _
    | (extract_lets +onlyGivenNames u₀; first | (refine Keeps.cut (m := b₀) (a := a₀) (s := u₀) ?_ fun _ => ?_ <;> [(unfold u₀; clear u₀); ((try clear_value u₀); revert u₀; intro _ _)]) | (revert u₀; intro _))
    | with_reducible apply State.axCommand_keeps | with_reducible apply State.axRefuse_keeps
    | with_reducible apply State.setAxis_keeps | with_reducible apply State.setAxSt_keeps | with_reducible apply Keeps.ite
    | split | (clear_value *; split) | (with_reducible refine Keeps.upd ?_ ?_ ?_ ?_ <;> [assumption; rfl; rfl; rfl])

theorem execMove_keeps {b₀ : Bool} {a₀ s : State} (h : Keeps b₀ a₀ s) (k : Nat) {t₀ : State} (e : execMove k s = .next t₀) : Keeps b₀ a₀ t₀ := by
  unfold execMove at e
  obtain ⟨-, rfl⟩ := guardWF_next e
  repeat' first
    | with_reducible assumption | intro _ | with_reducible apply State.hostWrite_keeps | with_reducible apply moveCmd_keeps

theorem execJog_keeps {b₀ : Bool} {a₀ s : State} (h : Keeps b₀ a₀ s) (k : Nat) {t₀ : State} (e : execJog k s = .next t₀) : Keeps b₀ a₀ t₀ := by
  unfold execJog at e
  obtain ⟨-, rfl⟩ := guardWF_next e
  repeat' first
    | with_reducible assumption | intro _ | with_reducible apply State.hostWrite_keeps | with_reducible apply jogCmd_keeps

theorem execGear_keeps {b₀ : Bool} {a₀ s : State} (h : Keeps b₀ a₀ s) (k : Nat) {t₀ : State} (e : execGear k s = .next t₀) : Keeps b₀ a₀ t₀ := by
  unfold execGear at e
  obtain ⟨-, rfl⟩ := guardWF_next e
  repeat' first
    | with_reducible assumption | intro _ | with_reducible apply State.hostWrite_keeps | with_reducible apply gearCmd_keeps

theorem execStop_keeps {b₀ : Bool} {a₀ s : State} (h : Keeps b₀ a₀ s) (k : Nat) {t₀ : State} (e : execStop k s = .next t₀) : Keeps b₀ a₀ t₀ := by
  unfold execStop at e
  obtain ⟨-, rfl⟩ := guardWF_next e
  repeat' first
    | with_reducible assumption | intro _ | with_reducible apply State.hostWrite_keeps | with_reducible apply stopCmd_keeps

theorem execQstop_keeps {b₀ : Bool} {a₀ s : State} (h : Keeps b₀ a₀ s) (k : Nat) {t₀ : State} (e : execQstop k s = .next t₀) : Keeps b₀ a₀ t₀ := by
  unfold execQstop at e
  obtain ⟨-, rfl⟩ := guardWF_next e
  repeat' first
    | with_reducible assumption | intro _ | with_reducible apply State.hostWrite_keeps | with_reducible apply qstopCmd_keeps

theorem execHalt_keeps {b₀ : Bool} {a₀ s : State} (h : Keeps b₀ a₀ s) (k : Nat) {t₀ : State} (e : execHalt k s = .next t₀) : Keeps b₀ a₀ t₀ := by
  unfold execHalt at e
  obtain ⟨-, rfl⟩ := guardWF_next e
  repeat' first
    | with_reducible assumption | intro _ | with_reducible apply State.hostWrite_keeps | with_reducible apply haltCmd_keeps

theorem execHome_keeps {b₀ : Bool} {a₀ s : State} (h : Keeps b₀ a₀ s) (k : Nat) {t₀ : State} (e : execHome k s = .next t₀) : Keeps b₀ a₀ t₀ := by
  unfold execHome at e
  obtain ⟨-, rfl⟩ := guardWF_next e
  repeat' first
    | with_reducible assumption | intro _ | with_reducible apply State.hostWrite_keeps | with_reducible apply homeCmd_keeps

theorem execSetpos_keeps {b₀ : Bool} {a₀ s : State} (h : Keeps b₀ a₀ s) (k : Nat) {t₀ : State} (e : execSetpos k s = .next t₀) : Keeps b₀ a₀ t₀ := by
  unfold execSetpos at e
  obtain ⟨-, rfl⟩ := guardWF_next e
  repeat' first
    | with_reducible assumption | intro _ | with_reducible apply State.hostWrite_keeps | with_reducible apply setposCmd_keeps

theorem execEnable_keeps {b₀ : Bool} {a₀ s : State} (h : Keeps b₀ a₀ s) (k : Nat) {t₀ : State} (e : execEnable k s = .next t₀) : Keeps b₀ a₀ t₀ := by
  unfold execEnable at e
  obtain ⟨-, rfl⟩ := guardWF_next e
  repeat' first
    | with_reducible assumption | intro _ | with_reducible apply State.hostWrite_keeps | with_reducible apply enableCmd_keeps

theorem execDisable_keeps {b₀ : Bool} {a₀ s : State} (h : Keeps b₀ a₀ s) (k : Nat) {t₀ : State} (e : execDisable k s = .next t₀) : Keeps b₀ a₀ t₀ := by
  unfold execDisable at e
  obtain ⟨-, rfl⟩ := guardWF_next e
  repeat' first
    | with_reducible assumption | intro _ | with_reducible apply State.hostWrite_keeps | with_reducible apply disableCmd_keeps

theorem execAxisClear_keeps {b₀ : Bool} {a₀ s : State} (h : Keeps b₀ a₀ s) (k : Nat) {t₀ : State} (e : execAxisClear k s = .next t₀) : Keeps b₀ a₀ t₀ := by
  unfold execAxisClear at e
  obtain ⟨-, rfl⟩ := guardWF_next e
  repeat' first
    | with_reducible assumption | intro _ | with_reducible apply State.hostWrite_keeps | with_reducible apply clearCmd_keeps

theorem execSegmentPush_keeps {b₀ : Bool} {a₀ s : State} (h : Keeps b₀ a₀ s) (k : Nat) (v : Word) {t₀ : State} (e : execSegmentPush k v s = .next t₀) : Keeps b₀ a₀ t₀ := by
  unfold execSegmentPush at e
  obtain ⟨-, rfl⟩ := guardWF_next e
  repeat' first
    | with_reducible assumption | intro _ | with_reducible apply State.hostWrite_keeps | with_reducible apply segmentPush_keeps

theorem State.axisFault_keeps {b₀ : Bool} {a₀ s : State} (h : Keeps b₀ a₀ s) (k : Nat) (stop : Nat) : Keeps b₀ a₀ (State.axisFault s k stop) := by
  unfold State.axisFault
  repeat' first
    | with_reducible assumption | intro _
    | (extract_lets +onlyGivenNames u₀; first | (refine Keeps.cut (m := b₀) (a := a₀) (s := u₀) ?_ fun _ => ?_ <;> [(unfold u₀; clear u₀); ((try clear_value u₀); revert u₀; intro _ _)]) | (revert u₀; intro _))
    | with_reducible apply State.setAxis_keeps | with_reducible apply State.axHalt_keeps
    | with_reducible apply State.webAxisStopped_keeps | with_reducible apply State.homeFail_keeps
    | with_reducible apply State.setAxSt_keeps | with_reducible apply Keeps.ite | split | (clear_value *; split)
    | (with_reducible refine Keeps.upd ?_ ?_ ?_ ?_ <;> [assumption; rfl; rfl; rfl])

theorem State.axisOut_keeps {b₀ : Bool} {a₀ s : State} (h : Keeps b₀ a₀ s) (k : Nat) : Keeps b₀ a₀ (State.axisOut s k) := by
  unfold State.axisOut
  repeat' first
    | with_reducible assumption | intro _ | with_reducible apply State.axHalt_keeps | with_reducible apply State.clr_keeps
    | with_reducible apply State.setAxSt_keeps | with_reducible apply State.webAxisStopped_keeps

theorem latchArm_keeps {b₀ : Bool} {a₀ s : State} (h : Keeps b₀ a₀ s) (k : Nat) (v : Word) : Keeps b₀ a₀ (latchArm k v s) := by
  unfold latchArm
  repeat' first
    | with_reducible assumption | intro _
    | (extract_lets +onlyGivenNames u₀; first | (refine Keeps.cut (m := b₀) (a := a₀) (s := u₀) ?_ fun _ => ?_ <;> [(unfold u₀; clear u₀); ((try clear_value u₀); revert u₀; intro _ _)]) | (revert u₀; intro _))
    | with_reducible apply State.wr_keeps | with_reducible apply State.clr_keeps | with_reducible apply State.setAxis_keeps
    | with_reducible apply Keeps.foldl | with_reducible apply Keeps.foldlSnd | with_reducible apply Keeps.foldlFst
    | with_reducible apply Keeps.ite | split | (clear_value *; split)
    | (with_reducible refine Keeps.upd ?_ ?_ ?_ ?_ <;> [assumption; rfl; rfl; rfl])

theorem execLatchArm_keeps {b₀ : Bool} {a₀ s : State} (h : Keeps b₀ a₀ s) (k : Nat) (v : Word) {t₀ : State} (e : execLatchArm k v s = .next t₀) : Keeps b₀ a₀ t₀ := by
  unfold execLatchArm at e
  obtain ⟨-, rfl⟩ := guardWF_next e
  repeat' first
    | with_reducible assumption | intro _ | with_reducible apply State.hostWrite_keeps | with_reducible apply latchArm_keeps

theorem latchEdge_keeps {b₀ : Bool} {a₀ s : State} (h : Keeps b₀ a₀ s) (k : Nat) (i : Nat) : Keeps b₀ a₀ (latchEdge k i s) := by
  unfold latchEdge
  repeat' first
    | with_reducible assumption | intro _
    | (extract_lets +onlyGivenNames u₀; first | (refine Keeps.cut (m := b₀) (a := a₀) (s := u₀) ?_ fun _ => ?_ <;> [(unfold u₀; clear u₀); ((try clear_value u₀); revert u₀; intro _ _)]) | (revert u₀; intro _))
    | with_reducible apply State.setAxis_keeps | with_reducible apply State.wrS_keeps | with_reducible apply State.wr_keeps
    | with_reducible apply Keeps.ite | split | (clear_value *; split)
    | (with_reducible refine Keeps.upd ?_ ?_ ?_ ?_ <;> [assumption; rfl; rfl; rfl])

theorem execLatchEdge_keeps {b₀ : Bool} {a₀ s : State} (h : Keeps b₀ a₀ s) (k : Nat) (i : Nat) {t₀ : State} (e : execLatchEdge k i s = .next t₀) : Keeps b₀ a₀ t₀ := by
  unfold execLatchEdge at e
  obtain ⟨-, rfl⟩ := guardWF_next e
  repeat' first
    | with_reducible assumption | intro _ | with_reducible apply latchEdge_keeps

end Sys2Proof.Machine
end

