-- ==== Sys2Proof/Laws/KeepsFuser.lean ====
section
/-! SUPPORT. Every operation of Machine/Fuser.lean keeps what `Keeps` says. -/

namespace Sys2Proof.Machine

open Sys2Proof

set_option linter.unusedTactic false

set_option linter.unreachableTactic false

theorem State.setGate_keeps {b₀ : Bool} {a₀ s : State} (h : Keeps b₀ a₀ s) (g : Nat) (high : Bool) : Keeps b₀ a₀ (State.setGate s g high) := by
  unfold State.setGate
  repeat' first
    | with_reducible assumption | intro _ | with_reducible apply State.gate_keeps | with_reducible apply State.wrB_keeps
    | with_reducible apply State.emit_keeps | with_reducible apply Keeps.ite | split | (clear_value *; split)

theorem State.settleHeaters_keeps {b₀ : Bool} {a₀ s : State} (h : Keeps b₀ a₀ s) : Keeps b₀ a₀ (State.settleHeaters s) := by
  unfold State.settleHeaters
  repeat' first
    | with_reducible assumption | intro _ | with_reducible apply State.setGate_keeps
    | with_reducible apply State.setHeater_keeps | with_reducible apply Keeps.foldl | with_reducible apply Keeps.foldlSnd
    | with_reducible apply Keeps.foldlFst | with_reducible apply Keeps.ite | split | (clear_value *; split)

theorem State.burstNext_keeps {b₀ : Bool} {a₀ s : State} (h : Keeps b₀ a₀ s) (g : Nat) : Keeps b₀ a₀ (State.burstNext s g) := by
  unfold State.burstNext
  repeat' first
    | with_reducible assumption | intro _
    | (extract_lets +onlyGivenNames u₀; first | (refine Keeps.cut (m := b₀) (a := a₀) (s := u₀) ?_ fun _ => ?_ <;> [(unfold u₀; clear u₀); ((try clear_value u₀); revert u₀; intro _ _)]) | (refine Keeps.cut (m := b₀) (a := a₀) (s := u₀.2) ?_ fun _ => ?_ <;> [(unfold u₀; clear u₀); ((try clear_value u₀); revert u₀; intro _ _)]) | (revert u₀; intro _))
    | with_reducible apply State.setHeater_keeps | with_reducible apply Keeps.ite | with_reducible apply Keeps.iteSnd
    | split | (clear_value *; split) | (with_reducible refine Keeps.upd ?_ ?_ ?_ ?_ <;> [assumption; rfl; rfl; rfl])

theorem State.takeDuty_keeps {b₀ : Bool} {a₀ s : State} (h : Keeps b₀ a₀ s) (g : Nat) (z : Nat) (late : Nat) (positive : Bool) : Keeps b₀ a₀ (State.takeDuty s g z late positive) := by
  unfold State.takeDuty
  repeat' first
    | with_reducible assumption | intro _
    | (extract_lets +onlyGivenNames u₀; first | (refine Keeps.cut (m := b₀) (a := a₀) (s := u₀) ?_ fun _ => ?_ <;> [(unfold u₀; clear u₀); ((try clear_value u₀); revert u₀; intro _ _)]) | (refine Keeps.cut (m := b₀) (a := a₀) (s := u₀.2) ?_ fun _ => ?_ <;> [(unfold u₀; clear u₀); ((try clear_value u₀); revert u₀; intro _ _)]) | (revert u₀; intro _))
    | with_reducible apply State.setGate_keeps | with_reducible apply State.wr_keeps
    | with_reducible apply State.setHeater_keeps | with_reducible apply Keeps.ite | with_reducible apply Keeps.iteSnd
    | split | (clear_value *; split) | (with_reducible refine Keeps.upd ?_ ?_ ?_ ?_ <;> [assumption; rfl; rfl; rfl])

theorem State.heaterDue_keeps {b₀ : Bool} {a₀ s : State} (h : Keeps b₀ a₀ s) (now : Nat) (g : Nat) : Keeps b₀ a₀ (State.heaterDue s now g) := by
  unfold State.heaterDue
  repeat' first
    | with_reducible assumption | intro _
    | (extract_lets +onlyGivenNames u₀; first | (refine Keeps.cut (m := b₀) (a := a₀) (s := u₀) ?_ fun _ => ?_ <;> [(unfold u₀; clear u₀); ((try clear_value u₀); revert u₀; intro _ _)]) | (revert u₀; intro _))
    | with_reducible apply State.takeDuty_keeps | with_reducible apply Keeps.ite | split | (clear_value *; split)
    | (with_reducible refine Keeps.upd ?_ ?_ ?_ ?_ <;> [assumption; rfl; rfl; rfl])

theorem State.heatersDue_keeps {b₀ : Bool} {a₀ s : State} (h : Keeps b₀ a₀ s) : Keeps b₀ a₀ (State.heatersDue s) := by
  unfold State.heatersDue
  repeat' first
    | with_reducible assumption | intro _ | with_reducible apply State.heaterDue_keeps
    | with_reducible apply Keeps.foldl | with_reducible apply Keeps.foldlSnd | with_reducible apply Keeps.foldlFst
    | with_reducible apply Keeps.ite | split | (clear_value *; split)
    | (with_reducible refine Keeps.upd ?_ ?_ ?_ ?_ <;> [assumption; rfl; rfl; rfl])

theorem State.gateCrossing_keeps {b₀ : Bool} {a₀ s : State} (h : Keeps b₀ a₀ s) (z : Nat) (now : Nat) (positive : Bool) (g : Nat) : Keeps b₀ a₀ (State.gateCrossing s z now positive g) := by
  unfold State.gateCrossing
  repeat' first
    | with_reducible assumption | intro _
    | (extract_lets +onlyGivenNames u₀; first | (refine Keeps.cut (m := b₀) (a := a₀) (s := u₀) ?_ fun _ => ?_ <;> [(unfold u₀; clear u₀); ((try clear_value u₀); revert u₀; intro _ _)]) | (revert u₀; intro _))
    | with_reducible apply State.takeDuty_keeps | with_reducible apply State.setHeater_keeps
    | with_reducible apply Keeps.ite | split | (clear_value *; split)
    | (with_reducible refine Keeps.upd ?_ ?_ ?_ ?_ <;> [assumption; rfl; rfl; rfl])

theorem State.mainsLost_keeps {b₀ : Bool} {a₀ s : State} (h : Keeps b₀ a₀ s) : Keeps b₀ a₀ (State.mainsLost s) := by
  unfold State.mainsLost
  repeat' first
    | with_reducible assumption | intro _
    | (extract_lets +onlyGivenNames u₀; first | (refine Keeps.cut (m := b₀) (a := a₀) (s := u₀) ?_ fun _ => ?_ <;> [(unfold u₀; clear u₀); ((try clear_value u₀); revert u₀; intro _ _)]) | (revert u₀; intro _))
    | with_reducible apply State.clr_keeps | with_reducible apply State.ev_keeps
    | with_reducible apply State.settleHeaters_keeps | with_reducible apply Keeps.ite | split | (clear_value *; split)
    | (with_reducible refine Keeps.upd ?_ ?_ ?_ ?_ <;> [assumption; rfl; rfl; rfl])

theorem State.crossing_keeps {b₀ : Bool} {a₀ s : State} (h : Keeps b₀ a₀ s) (z : Nat) (now : Nat) : Keeps b₀ a₀ (State.crossing s z now) := by
  unfold State.crossing
  repeat' first
    | with_reducible assumption | intro _
    | (extract_lets +onlyGivenNames u₀; first | (refine Keeps.cut (m := b₀) (a := a₀) (s := u₀) ?_ fun _ => ?_ <;> [(unfold u₀; clear u₀); ((try clear_value u₀); revert u₀; intro _ _)]) | (revert u₀; intro _))
    | with_reducible apply State.gateCrossing_keeps | with_reducible apply State.wr_keeps
    | with_reducible apply Keeps.foldl | with_reducible apply Keeps.foldlSnd | with_reducible apply Keeps.foldlFst
    | with_reducible apply Keeps.ite | split | (clear_value *; split)
    | (with_reducible refine Keeps.upd ?_ ?_ ?_ ?_ <;> [assumption; rfl; rfl; rfl])

theorem zeroCrossing_keeps {b₀ : Bool} {a₀ s : State} (h : Keeps b₀ a₀ s) (t : Nat) (vrms : Option Nat) : Keeps b₀ a₀ (zeroCrossing t vrms s) := by
  unfold zeroCrossing
  repeat' first
    | with_reducible assumption | intro _
    | (extract_lets +onlyGivenNames u₀; first | (refine Keeps.cut (m := b₀) (a := a₀) (s := u₀) ?_ fun _ => ?_ <;> [(unfold u₀; clear u₀); ((try clear_value u₀); revert u₀; intro _ _)]) | (revert u₀; intro _))
    | with_reducible apply State.crossing_keeps | with_reducible apply State.count_keeps
    | with_reducible apply State.take_keeps | with_reducible apply State.mainsLost_keeps
    | with_reducible apply State.wr_keeps | with_reducible apply Keeps.ite | split | (clear_value *; split)
    | (with_reducible refine Keeps.upd ?_ ?_ ?_ ?_ <;> [assumption; rfl; rfl; rfl])

theorem execZeroCrossing_keeps {b₀ : Bool} {a₀ s : State} (h : Keeps b₀ a₀ s) (t : Nat) (vrms : Option Nat) {t₀ : State} (e : execZeroCrossing t vrms s = .next t₀) : Keeps b₀ a₀ t₀ := by
  unfold execZeroCrossing at e
  obtain ⟨-, rfl⟩ := guardWF_next e
  repeat' first
    | with_reducible assumption | intro _
    | (extract_lets +onlyGivenNames u₀; first | (refine Keeps.cut (m := b₀) (a := a₀) (s := u₀) ?_ fun _ => ?_ <;> [(unfold u₀; clear u₀); ((try clear_value u₀); revert u₀; intro _ _)]) | (revert u₀; intro _))
    | with_reducible apply zeroCrossing_keeps | split | (clear_value *; split)
    | (with_reducible refine Keeps.upd ?_ ?_ ?_ ?_ <;> [assumption; rfl; rfl; rfl])

theorem zeroCrossingMiss_keeps {b₀ : Bool} {a₀ s : State} (h : Keeps b₀ a₀ s) : Keeps b₀ a₀ (zeroCrossingMiss s) := by
  unfold zeroCrossingMiss
  repeat' first
    | with_reducible assumption | intro _
    | (extract_lets +onlyGivenNames u₀; first | (refine Keeps.cut (m := b₀) (a := a₀) (s := u₀) ?_ fun _ => ?_ <;> [(unfold u₀; clear u₀); ((try clear_value u₀); revert u₀; intro _ _)]) | (revert u₀; intro _))
    | with_reducible apply State.crossing_keeps | with_reducible apply State.mainsLost_keeps
    | with_reducible apply Keeps.ite | split | (clear_value *; split)
    | (with_reducible refine Keeps.upd ?_ ?_ ?_ ?_ <;> [assumption; rfl; rfl; rfl])

theorem execZeroCrossingMiss_keeps {b₀ : Bool} {a₀ s : State} (h : Keeps b₀ a₀ s) {t₀ : State} (e : execZeroCrossingMiss s = .next t₀) : Keeps b₀ a₀ t₀ := by
  unfold execZeroCrossingMiss at e
  obtain ⟨-, rfl⟩ := guardWF_next e
  repeat' first
    | with_reducible assumption | intro _ | with_reducible apply zeroCrossingMiss_keeps

theorem execZcGlitch_keeps {b₀ : Bool} {a₀ s : State} (h : Keeps b₀ a₀ s) {t₀ : State} (e : execZcGlitch s = .next t₀) : Keeps b₀ a₀ t₀ := by
  unfold execZcGlitch at e
  obtain ⟨-, rfl⟩ := guardWF_next e
  repeat' first
    | with_reducible assumption | intro _ | with_reducible apply State.count_keeps | with_reducible apply Keeps.ite | split
    | (clear_value *; split)

theorem heaterGateFire_keeps {b₀ : Bool} {a₀ s : State} (h : Keeps b₀ a₀ s) (g : Nat) (e : GateEdge) : Keeps b₀ a₀ (heaterGateFire g e s) := by
  unfold heaterGateFire
  repeat' first
    | with_reducible assumption | intro _
    | (extract_lets +onlyGivenNames u₀; first | (refine Keeps.cut (m := b₀) (a := a₀) (s := u₀) ?_ fun _ => ?_ <;> [(unfold u₀; clear u₀); ((try clear_value u₀); revert u₀; intro _ _)]) | (revert u₀; intro _))
    | with_reducible apply State.takeDuty_keeps | with_reducible apply State.setGate_keeps
    | with_reducible apply State.burstNext_keeps | with_reducible apply Keeps.ite | split | (clear_value *; split)
    | (with_reducible refine Keeps.upd ?_ ?_ ?_ ?_ <;> [assumption; rfl; rfl; rfl])

theorem execHeaterGateFire_keeps {b₀ : Bool} {a₀ s : State} (h : Keeps b₀ a₀ s) (g : Nat) (e : GateEdge) {t₀ : State} (e : execHeaterGateFire g e s = .next t₀) : Keeps b₀ a₀ t₀ := by
  unfold execHeaterGateFire at e
  obtain ⟨-, rfl⟩ := guardWF_next e
  repeat' first
    | with_reducible assumption | intro _ | with_reducible apply heaterGateFire_keeps

theorem otcTrip_keeps {b₀ : Bool} {a₀ s : State} (h : Keeps b₀ a₀ s) (g : Nat) (c : Comparator) (code : Int) : Keeps b₀ a₀ (otcTrip g c code s) := by
  unfold otcTrip
  repeat' first
    | with_reducible assumption | intro _
    | (extract_lets +onlyGivenNames u₀; first | (refine Keeps.cut (m := b₀) (a := a₀) (s := u₀) ?_ fun _ => ?_ <;> [(unfold u₀; clear u₀); ((try clear_value u₀); revert u₀; intro _ _)]) | (revert u₀; intro _))
    | with_reducible apply State.ev_keeps | with_reducible apply State.settleHeaters_keeps | with_reducible apply Keeps.ite
    | split | (clear_value *; split) | (with_reducible refine Keeps.upd ?_ ?_ ?_ ?_ <;> [assumption; rfl; rfl; rfl])

theorem execOtcTrip_keeps {b₀ : Bool} {a₀ s : State} (h : Keeps b₀ a₀ s) (g : Nat) (c : Comparator) (code : Int) {t₀ : State} (e : execOtcTrip g c code s = .next t₀) : Keeps b₀ a₀ t₀ := by
  unfold execOtcTrip at e
  obtain ⟨-, rfl⟩ := guardWF_next e
  repeat' first
    | with_reducible assumption | intro _ | with_reducible apply otcTrip_keeps

theorem otcClear_keeps {b₀ : Bool} {a₀ s : State} (h : Keeps b₀ a₀ s) (g : Nat) (v : Word) (codeA : Int) (codeB : Int) : Keeps b₀ a₀ (otcClear g v codeA codeB s) := by
  unfold otcClear
  repeat' first
    | with_reducible assumption | intro _
    | (extract_lets +onlyGivenNames u₀; first | (refine Keeps.cut (m := b₀) (a := a₀) (s := u₀) ?_ fun _ => ?_ <;> [(unfold u₀; clear u₀); ((try clear_value u₀); revert u₀; intro _ _)]) | (revert u₀; intro _))
    | with_reducible apply State.clr_keeps | with_reducible apply Keeps.ite | split | (clear_value *; split)

theorem execOtcClear_keeps {b₀ : Bool} {a₀ s : State} (h : Keeps b₀ a₀ s) (g : Nat) (v : Word) (codeA : Int) (codeB : Int) {t₀ : State} (e : execOtcClear g v codeA codeB s = .next t₀) : Keeps b₀ a₀ t₀ := by
  unfold execOtcClear at e
  obtain ⟨-, rfl⟩ := guardWF_next e
  repeat' first
    | with_reducible assumption | intro _ | with_reducible apply State.hostWrite_keeps | with_reducible apply otcClear_keeps

theorem thermistorConversion_keeps {b₀ : Bool} {a₀ s : State} (h : Keeps b₀ a₀ s) (i : Nat) (rt : Nat) : Keeps b₀ a₀ (thermistorConversion i rt s) := by
  unfold thermistorConversion
  repeat' first
    | with_reducible assumption | intro _
    | (extract_lets +onlyGivenNames u₀; first | (refine Keeps.cut (m := b₀) (a := a₀) (s := u₀) ?_ fun _ => ?_ <;> [(unfold u₀; clear u₀); ((try clear_value u₀); revert u₀; intro _ _)]) | (revert u₀; intro _))
    | with_reducible apply State.wr_keeps | with_reducible apply State.wrB_keeps | with_reducible apply State.wrS_keeps
    | with_reducible apply Keeps.ite | split | (clear_value *; split)
    | (with_reducible refine Keeps.upd ?_ ?_ ?_ ?_ <;> [assumption; rfl; rfl; rfl])

theorem execThermistorConversion_keeps {b₀ : Bool} {a₀ s : State} (h : Keeps b₀ a₀ s) (i : Nat) (rt : Nat) {t₀ : State} (e : execThermistorConversion i rt s = .next t₀) : Keeps b₀ a₀ t₀ := by
  unfold execThermistorConversion at e
  obtain ⟨-, rfl⟩ := guardWF_next e
  repeat' first
    | with_reducible assumption | intro _ | with_reducible apply thermistorConversion_keeps

theorem thermopileConversion_keeps {b₀ : Bool} {a₀ s : State} (h : Keeps b₀ a₀ s) (i : Nat) (code : Int) : Keeps b₀ a₀ (thermopileConversion i code s) := by
  unfold thermopileConversion
  repeat' first
    | with_reducible assumption | intro _
    | (extract_lets +onlyGivenNames u₀; first | (refine Keeps.cut (m := b₀) (a := a₀) (s := u₀) ?_ fun _ => ?_ <;> [(unfold u₀; clear u₀); ((try clear_value u₀); revert u₀; intro _ _)]) | (revert u₀; intro _))
    | with_reducible apply State.wrB_keeps | with_reducible apply State.wrS_keeps | with_reducible apply Keeps.ite | split
    | (clear_value *; split) | (with_reducible refine Keeps.upd ?_ ?_ ?_ ?_ <;> [assumption; rfl; rfl; rfl])

theorem execThermopileConversion_keeps {b₀ : Bool} {a₀ s : State} (h : Keeps b₀ a₀ s) (i : Nat) (code : Int) {t₀ : State} (e : execThermopileConversion i code s = .next t₀) : Keeps b₀ a₀ t₀ := by
  unfold execThermopileConversion at e
  obtain ⟨-, rfl⟩ := guardWF_next e
  repeat' first
    | with_reducible assumption | intro _ | with_reducible apply thermopileConversion_keeps

theorem State.hvHardOff_keeps {b₀ : Bool} {a₀ s : State} (h : Keeps b₀ a₀ s) (c : Nat) : Keeps b₀ a₀ (State.hvHardOff s c) := by
  unfold State.hvHardOff
  repeat' first
    | with_reducible assumption | intro _ | with_reducible apply State.wr_keeps

theorem hvChannel_keeps {b₀ : Bool} {a₀ s : State} (h : Keeps b₀ a₀ s) (c : Nat) (fb : Nat) : Keeps b₀ a₀ (hvChannel c fb s) := by
  unfold hvChannel
  repeat' first
    | with_reducible assumption | intro _
    | (extract_lets +onlyGivenNames u₀; first | (refine Keeps.cut (m := b₀) (a := a₀) (s := u₀) ?_ fun _ => ?_ <;> [(unfold u₀; clear u₀); ((try clear_value u₀); revert u₀; intro _ _)]) | (revert u₀; intro _))
    | with_reducible apply State.wr_keeps | with_reducible apply State.ev_keeps | with_reducible apply State.hvHardOff_keeps
    | with_reducible apply Keeps.ite | split | (clear_value *; split)
    | (with_reducible refine Keeps.upd ?_ ?_ ?_ ?_ <;> [assumption; rfl; rfl; rfl])

theorem hvFrame_keeps {b₀ : Bool} {a₀ s : State} (h : Keeps b₀ a₀ s) (fb : List Nat) : Keeps b₀ a₀ (hvFrame fb s) := by
  unfold hvFrame
  repeat' first
    | with_reducible assumption | intro _
    | (extract_lets +onlyGivenNames u₀; first | (refine Keeps.cut (m := b₀) (a := a₀) (s := u₀) ?_ fun _ => ?_ <;> [(unfold u₀; clear u₀); ((try clear_value u₀); revert u₀; intro _ _)]) | (revert u₀; intro _))
    | with_reducible apply hvChannel_keeps | with_reducible apply State.emit_keeps | with_reducible apply Keeps.foldl
    | with_reducible apply Keeps.foldlSnd | with_reducible apply Keeps.foldlFst | with_reducible apply Keeps.ite | split
    | (clear_value *; split)

theorem execHvFrame_keeps {b₀ : Bool} {a₀ s : State} (h : Keeps b₀ a₀ s) (fb : List Nat) {t₀ : State} (e : execHvFrame fb s = .next t₀) : Keeps b₀ a₀ t₀ := by
  unfold execHvFrame at e
  obtain ⟨-, rfl⟩ := guardWF_next e
  repeat' first
    | with_reducible assumption | intro _ | with_reducible apply hvFrame_keeps

theorem execHvLeadEnd_keeps {b₀ : Bool} {a₀ s : State} (h : Keeps b₀ a₀ s) (c : Nat) {t₀ : State} (e : execHvLeadEnd c s = .next t₀) : Keeps b₀ a₀ t₀ := by
  unfold execHvLeadEnd at e
  obtain ⟨-, rfl⟩ := guardWF_next e
  repeat' first
    | with_reducible assumption | intro _ | with_reducible apply State.wr_keeps | with_reducible apply Keeps.ite | split
    | (clear_value *; split)

theorem execFbhiClear_keeps {b₀ : Bool} {a₀ s : State} (h : Keeps b₀ a₀ s) (c : Nat) (v : Word) {t₀ : State} (e : execFbhiClear c v s = .next t₀) : Keeps b₀ a₀ t₀ := by
  unfold execFbhiClear at e
  obtain ⟨-, rfl⟩ := guardWF_next e
  repeat' first
    | with_reducible assumption | intro _ | with_reducible apply State.hostWrite_keeps | with_reducible apply State.clr_keeps
    | with_reducible apply Keeps.ite | split | (clear_value *; split)

end Sys2Proof.Machine
end

