-- ==== Sys2Proof/Laws/KeepsSlots.lean ====
section
/-! SUPPORT. Every operation of Machine/Slots.lean keeps what `Keeps` says. -/

namespace Sys2Proof.Machine

open Sys2Proof

set_option linter.unusedTactic false

set_option linter.unreachableTactic false

theorem State.notch_keeps {b₀ : Bool} {a₀ s : State} (h : Keeps b₀ a₀ s) (n : Nat) (x : Int) : Keeps b₀ a₀ (State.notch s n x).2 := by
  unfold State.notch
  repeat' first
    | with_reducible assumption | intro _
    | (extract_lets +onlyGivenNames u₀; first | (refine Keeps.cut (m := b₀) (a := a₀) (s := u₀) ?_ fun _ => ?_ <;> [(unfold u₀; clear u₀); ((try clear_value u₀); revert u₀; intro _ _)]) | (revert u₀; intro _))
    | with_reducible apply State.ev_keeps | with_reducible apply State.setSlot_keeps | split | (clear_value *; split)
    | (with_reducible refine Keeps.upd ?_ ?_ ?_ ?_ <;> [assumption; rfl; rfl; rfl])

theorem State.notchIf_keeps {b₀ : Bool} {a₀ s : State} (h : Keeps b₀ a₀ s) (here : Bool) (n : Nat) (x : Int) : Keeps b₀ a₀ (State.notchIf s here n x).2 := by
  unfold State.notchIf
  repeat' first
    | with_reducible assumption | intro _ | with_reducible apply State.notch_keeps | with_reducible apply Keeps.ite | split
    | (clear_value *; split)

theorem State.setSlotSt_keeps {b₀ : Bool} {a₀ s : State} (h : Keeps b₀ a₀ s) (n : Nat) (st : Nat) : Keeps b₀ a₀ (State.setSlotSt s n st) := by
  unfold State.setSlotSt
  repeat' first
    | with_reducible assumption | intro _
    | (extract_lets +onlyGivenNames u₀; first | (refine Keeps.cut (m := b₀) (a := a₀) (s := u₀) ?_ fun _ => ?_ <;> [(unfold u₀; clear u₀); ((try clear_value u₀); revert u₀; intro _ _)]) | (revert u₀; intro _))
    | with_reducible apply State.wr_keeps | with_reducible apply State.clr_keeps
    | with_reducible apply State.closeDecision_keeps | with_reducible apply State.settleHeaters_keeps
    | with_reducible apply Keeps.ite | split | (clear_value *; split)

theorem State.captureDone_keeps {b₀ : Bool} {a₀ s : State} (h : Keeps b₀ a₀ s) : Keeps b₀ a₀ (State.captureDone s) := by
  unfold State.captureDone
  repeat' first
    | with_reducible assumption | intro _ | with_reducible apply State.wr_keeps | with_reducible apply State.ev_keeps

theorem State.captureStep_keeps {b₀ : Bool} {a₀ s : State} (h : Keeps b₀ a₀ s) (trig : Bool) : Keeps b₀ a₀ (State.captureStep s trig) := by
  unfold State.captureStep
  repeat' first
    | with_reducible assumption | intro _
    | (extract_lets +onlyGivenNames u₀; first | (refine Keeps.cut (m := b₀) (a := a₀) (s := u₀) ?_ fun _ => ?_ <;> [(unfold u₀; clear u₀); ((try clear_value u₀); revert u₀; intro _ _)]) | (revert u₀; intro _))
    | with_reducible apply State.wr_keeps | with_reducible apply State.captureDone_keeps | with_reducible apply Keeps.ite
    | split | (clear_value *; split) | (with_reducible refine Keeps.upd ?_ ?_ ?_ ?_ <;> [assumption; rfl; rfl; rfl])

theorem State.emitPwm_keeps {b₀ : Bool} {a₀ s : State} (h : Keeps b₀ a₀ s) (n : Nat) (pin : Nat) (duty : Int) : Keeps b₀ a₀ (State.emitPwm s n pin duty) := by
  unfold State.emitPwm
  repeat' first
    | with_reducible assumption | intro _ | with_reducible apply State.emit_keeps
    | (with_reducible refine Keeps.upd ?_ ?_ ?_ ?_ <;> [assumption; rfl; rfl; rfl])

theorem State.pwmDrive_keeps {b₀ : Bool} {a₀ s : State} (h : Keeps b₀ a₀ s) (n : Nat) (duty : Int) : Keeps b₀ a₀ (State.pwmDrive s n duty) := by
  unfold State.pwmDrive
  repeat' first
    | with_reducible assumption | intro _
    | (extract_lets +onlyGivenNames u₀; first | (refine Keeps.cut (m := b₀) (a := a₀) (s := u₀) ?_ fun _ => ?_ <;> [(unfold u₀; clear u₀); ((try clear_value u₀); revert u₀; intro _ _)]) | (revert u₀; intro _))
    | with_reducible apply State.emitPwm_keeps | with_reducible apply Keeps.ite | split | (clear_value *; split)
    | (with_reducible refine Keeps.upd ?_ ?_ ?_ ?_ <;> [assumption; rfl; rfl; rfl])

theorem State.pwmLeave_keeps {b₀ : Bool} {a₀ s : State} (h : Keeps b₀ a₀ s) (n : Nat) (was : Option Nat) : Keeps b₀ a₀ (State.pwmLeave s n was) := by
  unfold State.pwmLeave
  repeat' first
    | with_reducible assumption | intro _
    | (extract_lets +onlyGivenNames u₀; first | (refine Keeps.cut (m := b₀) (a := a₀) (s := u₀) ?_ fun _ => ?_ <;> [(unfold u₀; clear u₀); ((try clear_value u₀); revert u₀; intro _ _)]) | (revert u₀; intro _))
    | with_reducible apply State.emitPwm_keeps | with_reducible apply Keeps.ite | split | (clear_value *; split)
    | (with_reducible refine Keeps.upd ?_ ?_ ?_ ?_ <;> [assumption; rfl; rfl; rfl])

theorem State.presetI_keeps {b₀ : Bool} {a₀ s : State} (h : Keeps b₀ a₀ s) (n : Nat) (target : Int) (rest : Int) : Keeps b₀ a₀ (State.presetI s n target rest) := by
  unfold State.presetI
  repeat' first
    | with_reducible assumption | intro _
    | (extract_lets +onlyGivenNames u₀; first | (refine Keeps.cut (m := b₀) (a := a₀) (s := u₀) ?_ fun _ => ?_ <;> [(unfold u₀; clear u₀); ((try clear_value u₀); revert u₀; intro _ _)]) | (revert u₀; intro _))
    | with_reducible apply State.wrS_keeps | with_reducible apply State.ev_keeps | with_reducible apply Keeps.ite | split
    | (clear_value *; split)

theorem State.slotInput_keeps {b₀ : Bool} {a₀ s : State} (h : Keeps b₀ a₀ s) (n : Nat) (ain : Nat) : Keeps b₀ a₀ (State.slotInput s n ain).2 := by
  unfold State.slotInput
  repeat' first
    | with_reducible assumption | intro _
    | (extract_lets +onlyGivenNames u₀; first | (refine Keeps.cut (m := b₀) (a := a₀) (s := u₀) ?_ fun _ => ?_ <;> [(unfold u₀; clear u₀); ((try clear_value u₀); revert u₀; intro _ _)]) | (refine Keeps.cut (m := b₀) (a := a₀) (s := u₀.2) ?_ fun _ => ?_ <;> [(unfold u₀; clear u₀); ((try clear_value u₀); revert u₀; intro _ _)]) | (revert u₀; intro _))
    | with_reducible apply State.ev_keeps | with_reducible apply State.count_keeps
    | with_reducible apply State.notchIf_keeps | with_reducible apply State.setSlot_keeps
    | with_reducible apply State.release_keeps | with_reducible apply Keeps.ite | with_reducible apply Keeps.iteSnd
    | split | (clear_value *; split) | (with_reducible refine Keeps.upd ?_ ?_ ?_ ?_ <;> [assumption; rfl; rfl; rfl])

theorem State.slotAim_keeps {b₀ : Bool} {a₀ s : State} (h : Keeps b₀ a₀ s) (n : Nat) (q : SlotRead) : Keeps b₀ a₀ (State.slotAim s n q).2 := by
  unfold State.slotAim
  repeat' first
    | with_reducible assumption | intro _
    | (extract_lets +onlyGivenNames u₀; first | (refine Keeps.cut (m := b₀) (a := a₀) (s := u₀) ?_ fun _ => ?_ <;> [(unfold u₀; clear u₀); ((try clear_value u₀); revert u₀; intro _ _)]) | (refine Keeps.cut (m := b₀) (a := a₀) (s := u₀.2) ?_ fun _ => ?_ <;> [(unfold u₀; clear u₀); ((try clear_value u₀); revert u₀; intro _ _)]) | (revert u₀; intro _))
    | with_reducible apply State.count_keeps | with_reducible apply State.freshIf_keeps
    | with_reducible apply State.setSlot_keeps | with_reducible apply State.wrB_keeps
    | with_reducible apply Keeps.ite | with_reducible apply Keeps.iteSnd | split | (clear_value *; split)
    | (with_reducible refine Keeps.upd ?_ ?_ ?_ ?_ <;> [assumption; rfl; rfl; rfl])

theorem State.slotTurn_keeps {b₀ : Bool} {a₀ s : State} (h : Keeps b₀ a₀ s) (n : Nat) (q : SlotRead) (a : SlotAim) : Keeps b₀ a₀ (State.slotTurn s n q a).2 := by
  unfold State.slotTurn
  repeat' first
    | with_reducible assumption | intro _
    | (extract_lets +onlyGivenNames u₀; first | (refine Keeps.cut (m := b₀) (a := a₀) (s := u₀) ?_ fun _ => ?_ <;> [(unfold u₀; clear u₀); ((try clear_value u₀); revert u₀; intro _ _)]) | (refine Keeps.cut (m := b₀) (a := a₀) (s := u₀.2) ?_ fun _ => ?_ <;> [(unfold u₀; clear u₀); ((try clear_value u₀); revert u₀; intro _ _)]) | (revert u₀; intro _))
    | with_reducible apply State.ev_keeps | with_reducible apply State.setSlotSt_keeps
    | with_reducible apply State.notchIf_keeps | with_reducible apply State.wr_keeps
    | with_reducible apply State.clr_keeps | with_reducible apply State.setSlot_keeps
    | with_reducible apply Keeps.ite | with_reducible apply Keeps.iteSnd | split | (clear_value *; split)
    | (with_reducible refine Keeps.upd ?_ ?_ ?_ ?_ <;> [assumption; rfl; rfl; rfl])

theorem State.slotLaw_keeps {b₀ : Bool} {a₀ s : State} (h : Keeps b₀ a₀ s) (n : Nat) (q : SlotRead) (a : SlotAim) (w : SlotTurn) : Keeps b₀ a₀ (State.slotLaw s n q a w).2 := by
  unfold State.slotLaw
  repeat' first
    | with_reducible assumption | intro _
    | (extract_lets +onlyGivenNames u₀; first | (refine Keeps.cut (m := b₀) (a := a₀) (s := u₀) ?_ fun _ => ?_ <;> [(unfold u₀; clear u₀); ((try clear_value u₀); revert u₀; intro _ _)]) | (refine Keeps.cut (m := b₀) (a := a₀) (s := u₀.2) ?_ fun _ => ?_ <;> [(unfold u₀; clear u₀); ((try clear_value u₀); revert u₀; intro _ _)]) | (revert u₀; intro _))
    | with_reducible apply State.wrS_keeps | with_reducible apply State.presetI_keeps
    | with_reducible apply State.freshIf_keeps | with_reducible apply State.notchIf_keeps
    | with_reducible apply Keeps.ite | with_reducible apply Keeps.iteSnd | split | (clear_value *; split)
    | (with_reducible refine Keeps.upd ?_ ?_ ?_ ?_ <;> [assumption; rfl; rfl; rfl])

theorem State.slotFinish_keeps {b₀ : Bool} {a₀ s : State} (h : Keeps b₀ a₀ s) (n : Nat) (q : SlotRead) (a : SlotAim) (w : SlotTurn) (l : SlotLaw) : Keeps b₀ a₀ (State.slotFinish s n q a w l) := by
  unfold State.slotFinish
  repeat' first
    | with_reducible assumption | intro _
    | (extract_lets +onlyGivenNames u₀; first | (refine Keeps.cut (m := b₀) (a := a₀) (s := u₀) ?_ fun _ => ?_ <;> [(unfold u₀; clear u₀); ((try clear_value u₀); revert u₀; intro _ _)]) | (revert u₀; intro _))
    | with_reducible apply State.captureStep_keeps | with_reducible apply State.wrS_keeps
    | with_reducible apply State.ev_keeps | with_reducible apply State.wr_keeps
    | with_reducible apply State.setSlot_keeps | with_reducible apply State.wrB_keeps
    | with_reducible apply State.pwmDrive_keeps | with_reducible apply State.post_keeps
    | with_reducible apply Keeps.ite | split | (clear_value *; split)
    | (with_reducible refine Keeps.upd ?_ ?_ ?_ ?_ <;> [assumption; rfl; rfl; rfl])

theorem slotRun_keeps {b₀ : Bool} {a₀ s : State} (h : Keeps b₀ a₀ s) (n : Nat) (ain : Nat) : Keeps b₀ a₀ (slotRun n ain s) := by
  unfold slotRun
  repeat' first
    | with_reducible assumption | intro _
    | (extract_lets +onlyGivenNames u₀; first | (refine Keeps.cut (m := b₀) (a := a₀) (s := u₀) ?_ fun _ => ?_ <;> [(unfold u₀; clear u₀); ((try clear_value u₀); revert u₀; intro _ _)]) | (revert u₀; intro _))
    | with_reducible apply State.slotInput_keeps | with_reducible apply State.slotAim_keeps
    | with_reducible apply State.slotTurn_keeps | with_reducible apply State.slotLaw_keeps
    | with_reducible apply State.slotFinish_keeps

theorem slotExecution_keeps {b₀ : Bool} {a₀ s : State} (h : Keeps b₀ a₀ s) (n : Nat) (ain : Nat) : Keeps b₀ a₀ (slotExecution n ain s) := by
  unfold slotExecution
  repeat' first
    | with_reducible assumption | intro _ | with_reducible apply slotRun_keeps | with_reducible apply Keeps.ite | split
    | (clear_value *; split)

theorem execSlotExecution_keeps {b₀ : Bool} {a₀ s : State} (h : Keeps b₀ a₀ s) (n : Nat) (ain : Nat) {t₀ : State} (e : execSlotExecution n ain s = .next t₀) : Keeps b₀ a₀ t₀ := by
  unfold execSlotExecution at e
  obtain ⟨-, rfl⟩ := guardWF_next e
  repeat' first
    | with_reducible assumption | intro _ | with_reducible apply slotExecution_keeps

theorem fallbackTimeout_keeps {b₀ : Bool} {a₀ s : State} (h : Keeps b₀ a₀ s) (n : Nat) : Keeps b₀ a₀ (fallbackTimeout n s) := by
  unfold fallbackTimeout
  repeat' first
    | with_reducible assumption | intro _
    | (extract_lets +onlyGivenNames u₀; first | (refine Keeps.cut (m := b₀) (a := a₀) (s := u₀) ?_ fun _ => ?_ <;> [(unfold u₀; clear u₀); ((try clear_value u₀); revert u₀; intro _ _)]) | (revert u₀; intro _))
    | with_reducible apply State.ev_keeps | with_reducible apply State.setSlot_keeps | with_reducible apply Keeps.ite | split
    | (clear_value *; split) | (with_reducible refine Keeps.upd ?_ ?_ ?_ ?_ <;> [assumption; rfl; rfl; rfl])

theorem execFallbackTimeout_keeps {b₀ : Bool} {a₀ s : State} (h : Keeps b₀ a₀ s) (n : Nat) {t₀ : State} (e : execFallbackTimeout n s = .next t₀) : Keeps b₀ a₀ t₀ := by
  unfold execFallbackTimeout at e
  obtain ⟨-, rfl⟩ := guardWF_next e
  repeat' first
    | with_reducible assumption | intro _ | with_reducible apply fallbackTimeout_keeps

theorem State.slotRefuse_keeps {b₀ : Bool} {a₀ s : State} (h : Keeps b₀ a₀ s) (n : Nat) (cause : Nat) : Keeps b₀ a₀ (State.slotRefuse s n cause) := by
  unfold State.slotRefuse
  repeat' first
    | with_reducible assumption | intro _ | with_reducible apply State.ev_keeps | with_reducible apply State.wr_keeps

theorem State.slotCommand_keeps {b₀ : Bool} {a₀ s : State} (h : Keeps b₀ a₀ s) (n : Nat) (f : State → State) (hf : ∀ t, Keeps b₀ a₀ t → Keeps b₀ a₀ (f t)) : Keeps b₀ a₀ (State.slotCommand s n f) := by
  unfold State.slotCommand
  repeat' first
    | apply hf | with_reducible assumption | intro _ | with_reducible apply State.slotRefuse_keeps
    | with_reducible apply Keeps.ite | split | (clear_value *; split)
    | (with_reducible refine Keeps.upd ?_ ?_ ?_ ?_ <;> [assumption; rfl; rfl; rfl])

theorem slotOff_keeps {b₀ : Bool} {a₀ s : State} (h : Keeps b₀ a₀ s) (n : Nat) : Keeps b₀ a₀ (slotOff n s) := by
  unfold slotOff
  repeat' first
    | with_reducible assumption | intro _
    | (extract_lets +onlyGivenNames u₀; first | (refine Keeps.cut (m := b₀) (a := a₀) (s := u₀) ?_ fun _ => ?_ <;> [(unfold u₀; clear u₀); ((try clear_value u₀); revert u₀; intro _ _)]) | (revert u₀; intro _))
    | with_reducible apply State.slotCommand_keeps | with_reducible apply State.setSlotSt_keeps
    | with_reducible apply State.clr_keeps | with_reducible apply State.setSlot_keeps
    | with_reducible apply State.slotRefuse_keeps | with_reducible apply Keeps.ite | split | (clear_value *; split)
    | (with_reducible refine Keeps.upd ?_ ?_ ?_ ?_ <;> [assumption; rfl; rfl; rfl])

theorem slotManual_keeps {b₀ : Bool} {a₀ s : State} (h : Keeps b₀ a₀ s) (n : Nat) : Keeps b₀ a₀ (slotManual n s) := by
  unfold slotManual
  repeat' first
    | with_reducible assumption | intro _
    | (extract_lets +onlyGivenNames u₀; first | (refine Keeps.cut (m := b₀) (a := a₀) (s := u₀) ?_ fun _ => ?_ <;> [(unfold u₀; clear u₀); ((try clear_value u₀); revert u₀; intro _ _)]) | (revert u₀; intro _))
    | with_reducible apply State.slotCommand_keeps | with_reducible apply State.ev_keeps
    | with_reducible apply State.setSlot_keeps | with_reducible apply State.setSlotSt_keeps
    | with_reducible apply State.wrS_keeps | with_reducible apply State.slotRefuse_keeps | with_reducible apply Keeps.ite
    | split | (clear_value *; split) | (with_reducible refine Keeps.upd ?_ ?_ ?_ ?_ <;> [assumption; rfl; rfl; rfl])

theorem slotAuto_keeps {b₀ : Bool} {a₀ s : State} (h : Keeps b₀ a₀ s) (n : Nat) : Keeps b₀ a₀ (slotAuto n s) := by
  unfold slotAuto
  repeat' first
    | with_reducible assumption | intro _
    | (extract_lets +onlyGivenNames u₀; first | (refine Keeps.cut (m := b₀) (a := a₀) (s := u₀) ?_ fun _ => ?_ <;> [(unfold u₀; clear u₀); ((try clear_value u₀); revert u₀; intro _ _)]) | (revert u₀; intro _))
    | with_reducible apply State.slotCommand_keeps | with_reducible apply State.ev_keeps
    | with_reducible apply State.setSlot_keeps | with_reducible apply State.slotRefuse_keeps | with_reducible apply Keeps.ite
    | split | (clear_value *; split) | (with_reducible refine Keeps.upd ?_ ?_ ?_ ?_ <;> [assumption; rfl; rfl; rfl])

theorem slotPreset_keeps {b₀ : Bool} {a₀ s : State} (h : Keeps b₀ a₀ s) (n : Nat) : Keeps b₀ a₀ (slotPreset n s) := by
  unfold slotPreset
  repeat' first
    | with_reducible assumption | intro _
    | (extract_lets +onlyGivenNames u₀; first | (refine Keeps.cut (m := b₀) (a := a₀) (s := u₀) ?_ fun _ => ?_ <;> [(unfold u₀; clear u₀); ((try clear_value u₀); revert u₀; intro _ _)]) | (revert u₀; intro _))
    | with_reducible apply State.slotCommand_keeps | with_reducible apply State.setSlot_keeps
    | with_reducible apply State.slotRefuse_keeps | with_reducible apply Keeps.ite | split | (clear_value *; split)
    | (with_reducible refine Keeps.upd ?_ ?_ ?_ ?_ <;> [assumption; rfl; rfl; rfl])

theorem slotCommit_keeps {b₀ : Bool} {a₀ s : State} (h : Keeps b₀ a₀ s) (n : Nat) : Keeps b₀ a₀ (slotCommit n s) := by
  unfold slotCommit
  repeat' first
    | with_reducible assumption | intro _
    | (extract_lets +onlyGivenNames u₀; first | (refine Keeps.cut (m := b₀) (a := a₀) (s := u₀) ?_ fun _ => ?_ <;> [(unfold u₀; clear u₀); ((try clear_value u₀); revert u₀; intro _ _)]) | (revert u₀; intro _))
    | with_reducible apply State.slotCommand_keeps | with_reducible apply State.slotRefuse_keeps
    | with_reducible apply State.setSlot_keeps | with_reducible apply Keeps.ite | split | (clear_value *; split)
    | (with_reducible refine Keeps.upd ?_ ?_ ?_ ?_ <;> [assumption; rfl; rfl; rfl])

theorem slotResume_keeps {b₀ : Bool} {a₀ s : State} (h : Keeps b₀ a₀ s) (n : Nat) : Keeps b₀ a₀ (slotResume n s) := by
  unfold slotResume
  repeat' first
    | with_reducible assumption | intro _
    | (extract_lets +onlyGivenNames u₀; first | (refine Keeps.cut (m := b₀) (a := a₀) (s := u₀) ?_ fun _ => ?_ <;> [(unfold u₀; clear u₀); ((try clear_value u₀); revert u₀; intro _ _)]) | (revert u₀; intro _))
    | with_reducible apply State.slotCommand_keeps | with_reducible apply State.slotRefuse_keeps
    | with_reducible apply State.ev_keeps | with_reducible apply State.setSlot_keeps | with_reducible apply Keeps.ite | split
    | (clear_value *; split) | (with_reducible refine Keeps.upd ?_ ?_ ?_ ?_ <;> [assumption; rfl; rfl; rfl])

theorem slotClear_keeps {b₀ : Bool} {a₀ s : State} (h : Keeps b₀ a₀ s) (n : Nat) : Keeps b₀ a₀ (slotClear n s) := by
  unfold slotClear
  repeat' first
    | with_reducible assumption | intro _
    | (extract_lets +onlyGivenNames u₀; first | (refine Keeps.cut (m := b₀) (a := a₀) (s := u₀) ?_ fun _ => ?_ <;> [(unfold u₀; clear u₀); ((try clear_value u₀); revert u₀; intro _ _)]) | (revert u₀; intro _))
    | with_reducible apply State.slotCommand_keeps | with_reducible apply State.setSlotSt_keeps
    | with_reducible apply State.setSlot_keeps | with_reducible apply State.slotRefuse_keeps | with_reducible apply Keeps.ite
    | split | (clear_value *; split) | (with_reducible refine Keeps.upd ?_ ?_ ?_ ?_ <;> [assumption; rfl; rfl; rfl])

theorem injStart_keeps {b₀ : Bool} {a₀ s : State} (h : Keeps b₀ a₀ s) (n : Nat) : Keeps b₀ a₀ (injStart n s) := by
  unfold injStart
  repeat' first
    | with_reducible assumption | intro _
    | (extract_lets +onlyGivenNames u₀; first | (refine Keeps.cut (m := b₀) (a := a₀) (s := u₀) ?_ fun _ => ?_ <;> [(unfold u₀; clear u₀); ((try clear_value u₀); revert u₀; intro _ _)]) | (revert u₀; intro _))
    | with_reducible apply State.slotCommand_keeps | with_reducible apply State.slotRefuse_keeps
    | with_reducible apply State.ev_keeps | with_reducible apply State.setSlot_keeps | with_reducible apply Keeps.ite
    | split | (clear_value *; split) | (with_reducible refine Keeps.upd ?_ ?_ ?_ ?_ <;> [assumption; rfl; rfl; rfl])

theorem injStop_keeps {b₀ : Bool} {a₀ s : State} (h : Keeps b₀ a₀ s) (n : Nat) : Keeps b₀ a₀ (injStop n s) := by
  unfold injStop
  repeat' first
    | with_reducible assumption | intro _ | with_reducible apply State.slotCommand_keeps | with_reducible apply State.clr_keeps

theorem slotStay_keeps {b₀ : Bool} {a₀ s : State} (h : Keeps b₀ a₀ s) (n : Nat) : Keeps b₀ a₀ (slotStay n s) := by
  unfold slotStay
  repeat' first
    | with_reducible assumption | intro _ | with_reducible apply State.closeDecision_keeps
    | with_reducible apply State.slotCommand_keeps | with_reducible apply State.slotRefuse_keeps
    | with_reducible apply Keeps.ite | split | (clear_value *; split)
    | (with_reducible refine Keeps.upd ?_ ?_ ?_ ?_ <;> [assumption; rfl; rfl; rfl])

theorem slotStop_keeps {b₀ : Bool} {a₀ s : State} (h : Keeps b₀ a₀ s) (n : Nat) : Keeps b₀ a₀ (slotStop n s) := by
  unfold slotStop
  repeat' first
    | with_reducible assumption | intro _
    | (extract_lets +onlyGivenNames u₀; first | (refine Keeps.cut (m := b₀) (a := a₀) (s := u₀) ?_ fun _ => ?_ <;> [(unfold u₀; clear u₀); ((try clear_value u₀); revert u₀; intro _ _)]) | (revert u₀; intro _))
    | with_reducible apply State.slotCommand_keeps | with_reducible apply State.slotRefuse_keeps
    | with_reducible apply State.setSlotSt_keeps | with_reducible apply State.setSlot_keeps
    | with_reducible apply Keeps.ite | split | (clear_value *; split)
    | (with_reducible refine Keeps.upd ?_ ?_ ?_ ?_ <;> [assumption; rfl; rfl; rfl])

theorem execSlotOff_keeps {b₀ : Bool} {a₀ s : State} (h : Keeps b₀ a₀ s) (n : Nat) {t₀ : State} (e : execSlotOff n s = .next t₀) : Keeps b₀ a₀ t₀ := by
  unfold execSlotOff at e
  obtain ⟨-, rfl⟩ := guardWF_next e
  repeat' first
    | with_reducible assumption | intro _ | with_reducible apply State.hostWrite_keeps | with_reducible apply slotOff_keeps

theorem execSlotManual_keeps {b₀ : Bool} {a₀ s : State} (h : Keeps b₀ a₀ s) (n : Nat) {t₀ : State} (e : execSlotManual n s = .next t₀) : Keeps b₀ a₀ t₀ := by
  unfold execSlotManual at e
  obtain ⟨-, rfl⟩ := guardWF_next e
  repeat' first
    | with_reducible assumption | intro _ | with_reducible apply State.hostWrite_keeps | with_reducible apply slotManual_keeps

theorem execSlotAuto_keeps {b₀ : Bool} {a₀ s : State} (h : Keeps b₀ a₀ s) (n : Nat) {t₀ : State} (e : execSlotAuto n s = .next t₀) : Keeps b₀ a₀ t₀ := by
  unfold execSlotAuto at e
  obtain ⟨-, rfl⟩ := guardWF_next e
  repeat' first
    | with_reducible assumption | intro _ | with_reducible apply State.hostWrite_keeps | with_reducible apply slotAuto_keeps

theorem execSlotPreset_keeps {b₀ : Bool} {a₀ s : State} (h : Keeps b₀ a₀ s) (n : Nat) {t₀ : State} (e : execSlotPreset n s = .next t₀) : Keeps b₀ a₀ t₀ := by
  unfold execSlotPreset at e
  obtain ⟨-, rfl⟩ := guardWF_next e
  repeat' first
    | with_reducible assumption | intro _ | with_reducible apply State.hostWrite_keeps | with_reducible apply slotPreset_keeps

theorem execSlotCommit_keeps {b₀ : Bool} {a₀ s : State} (h : Keeps b₀ a₀ s) (n : Nat) {t₀ : State} (e : execSlotCommit n s = .next t₀) : Keeps b₀ a₀ t₀ := by
  unfold execSlotCommit at e
  obtain ⟨-, rfl⟩ := guardWF_next e
  repeat' first
    | with_reducible assumption | intro _ | with_reducible apply State.hostWrite_keeps | with_reducible apply slotCommit_keeps

theorem execSlotResume_keeps {b₀ : Bool} {a₀ s : State} (h : Keeps b₀ a₀ s) (n : Nat) {t₀ : State} (e : execSlotResume n s = .next t₀) : Keeps b₀ a₀ t₀ := by
  unfold execSlotResume at e
  obtain ⟨-, rfl⟩ := guardWF_next e
  repeat' first
    | with_reducible assumption | intro _ | with_reducible apply State.hostWrite_keeps | with_reducible apply slotResume_keeps

theorem execSlotClear_keeps {b₀ : Bool} {a₀ s : State} (h : Keeps b₀ a₀ s) (n : Nat) {t₀ : State} (e : execSlotClear n s = .next t₀) : Keeps b₀ a₀ t₀ := by
  unfold execSlotClear at e
  obtain ⟨-, rfl⟩ := guardWF_next e
  repeat' first
    | with_reducible assumption | intro _ | with_reducible apply State.hostWrite_keeps | with_reducible apply slotClear_keeps

theorem execInjStart_keeps {b₀ : Bool} {a₀ s : State} (h : Keeps b₀ a₀ s) (n : Nat) {t₀ : State} (e : execInjStart n s = .next t₀) : Keeps b₀ a₀ t₀ := by
  unfold execInjStart at e
  obtain ⟨-, rfl⟩ := guardWF_next e
  repeat' first
    | with_reducible assumption | intro _ | with_reducible apply State.hostWrite_keeps | with_reducible apply injStart_keeps

theorem execInjStop_keeps {b₀ : Bool} {a₀ s : State} (h : Keeps b₀ a₀ s) (n : Nat) {t₀ : State} (e : execInjStop n s = .next t₀) : Keeps b₀ a₀ t₀ := by
  unfold execInjStop at e
  obtain ⟨-, rfl⟩ := guardWF_next e
  repeat' first
    | with_reducible assumption | intro _ | with_reducible apply State.hostWrite_keeps | with_reducible apply injStop_keeps

theorem execSlotStay_keeps {b₀ : Bool} {a₀ s : State} (h : Keeps b₀ a₀ s) (n : Nat) {t₀ : State} (e : execSlotStay n s = .next t₀) : Keeps b₀ a₀ t₀ := by
  unfold execSlotStay at e
  obtain ⟨-, rfl⟩ := guardWF_next e
  repeat' first
    | with_reducible assumption | intro _ | with_reducible apply State.hostWrite_keeps | with_reducible apply slotStay_keeps

theorem execSlotStop_keeps {b₀ : Bool} {a₀ s : State} (h : Keeps b₀ a₀ s) (n : Nat) {t₀ : State} (e : execSlotStop n s = .next t₀) : Keeps b₀ a₀ t₀ := by
  unfold execSlotStop at e
  obtain ⟨-, rfl⟩ := guardWF_next e
  repeat' first
    | with_reducible assumption | intro _ | with_reducible apply State.hostWrite_keeps | with_reducible apply slotStop_keeps

theorem State.slotFault_keeps {b₀ : Bool} {a₀ s : State} (h : Keeps b₀ a₀ s) (n : Nat) (hold : Bool) : Keeps b₀ a₀ (State.slotFault s n hold) := by
  unfold State.slotFault
  repeat' first
    | with_reducible assumption | intro _
    | (extract_lets +onlyGivenNames u₀; first | (refine Keeps.cut (m := b₀) (a := a₀) (s := u₀) ?_ fun _ => ?_ <;> [(unfold u₀; clear u₀); ((try clear_value u₀); revert u₀; intro _ _)]) | (revert u₀; intro _))
    | with_reducible apply State.setSlot_keeps | with_reducible apply State.setSlotSt_keeps | with_reducible apply Keeps.ite
    | split | (clear_value *; split) | (with_reducible refine Keeps.upd ?_ ?_ ?_ ?_ <;> [assumption; rfl; rfl; rfl])

theorem State.slotIsolate_keeps {b₀ : Bool} {a₀ s : State} (h : Keeps b₀ a₀ s) (n : Nat) : Keeps b₀ a₀ (State.slotIsolate s n) := by
  unfold State.slotIsolate
  repeat' first
    | with_reducible assumption | intro _
    | (extract_lets +onlyGivenNames u₀; first | (refine Keeps.cut (m := b₀) (a := a₀) (s := u₀) ?_ fun _ => ?_ <;> [(unfold u₀; clear u₀); ((try clear_value u₀); revert u₀; intro _ _)]) | (revert u₀; intro _))
    | with_reducible apply State.pwmDrive_keeps | with_reducible apply State.setSlotSt_keeps
    | with_reducible apply State.captureDone_keeps | with_reducible apply State.clr_keeps
    | with_reducible apply State.hvHardOff_keeps | with_reducible apply State.setSlot_keeps
    | with_reducible apply Keeps.ite | split | (clear_value *; split)
    | (with_reducible refine Keeps.upd ?_ ?_ ?_ ?_ <;> [assumption; rfl; rfl; rfl])

theorem State.slotReturn_keeps {b₀ : Bool} {a₀ s : State} (h : Keeps b₀ a₀ s) (n : Nat) : Keeps b₀ a₀ (State.slotReturn s n) := by
  unfold State.slotReturn
  repeat' first
    | with_reducible assumption | intro _
    | (extract_lets +onlyGivenNames u₀; first | (refine Keeps.cut (m := b₀) (a := a₀) (s := u₀) ?_ fun _ => ?_ <;> [(unfold u₀; clear u₀); ((try clear_value u₀); revert u₀; intro _ _)]) | (revert u₀; intro _))
    | with_reducible apply State.setSlotSt_keeps | with_reducible apply State.setSlot_keeps
    | (with_reducible refine Keeps.upd ?_ ?_ ?_ ?_ <;> [assumption; rfl; rfl; rfl])

theorem State.slotBoundary_keeps {b₀ : Bool} {a₀ s : State} (h : Keeps b₀ a₀ s) : Keeps b₀ a₀ (State.slotBoundary s) := by
  unfold State.slotBoundary
  repeat' first
    | with_reducible assumption | intro _
    | (extract_lets +onlyGivenNames u₀; first | (refine Keeps.cut (m := b₀) (a := a₀) (s := u₀) ?_ fun _ => ?_ <;> [(unfold u₀; clear u₀); ((try clear_value u₀); revert u₀; intro _ _)]) | (revert u₀; intro _))
    | with_reducible apply State.setSlot_keeps | with_reducible apply Keeps.foldl | with_reducible apply Keeps.foldlSnd
    | with_reducible apply Keeps.foldlFst | with_reducible apply Keeps.ite | split | (clear_value *; split)
    | (with_reducible refine Keeps.upd ?_ ?_ ?_ ?_ <;> [assumption; rfl; rfl; rfl])

theorem State.capConfig_keeps {b₀ : Bool} {a₀ s : State} (h : Keeps b₀ a₀ s) (v : Word) : Keeps b₀ a₀ (State.capConfig s v) := by
  unfold State.capConfig
  repeat' first
    | with_reducible assumption | intro _
    | (extract_lets +onlyGivenNames u₀; first | (refine Keeps.cut (m := b₀) (a := a₀) (s := u₀) ?_ fun _ => ?_ <;> [(unfold u₀; clear u₀); ((try clear_value u₀); revert u₀; intro _ _)]) | (revert u₀; intro _))
    | with_reducible apply State.wr_keeps

theorem captureArm_keeps {b₀ : Bool} {a₀ s : State} (h : Keeps b₀ a₀ s) (v : Word) : Keeps b₀ a₀ (captureArm v s) := by
  unfold captureArm
  repeat' first
    | with_reducible assumption | intro _
    | (extract_lets +onlyGivenNames u₀; first | (refine Keeps.cut (m := b₀) (a := a₀) (s := u₀) ?_ fun _ => ?_ <;> [(unfold u₀; clear u₀); ((try clear_value u₀); revert u₀; intro _ _)]) | (revert u₀; intro _))
    | with_reducible apply State.capConfig_keeps | with_reducible apply State.wr_keeps | with_reducible apply State.clr_keeps
    | with_reducible apply Keeps.ite | split | (clear_value *; split)
    | (with_reducible refine Keeps.upd ?_ ?_ ?_ ?_ <;> [assumption; rfl; rfl; rfl])

theorem captureForce_keeps {b₀ : Bool} {a₀ s : State} (h : Keeps b₀ a₀ s) (v : Word) : Keeps b₀ a₀ (captureForce v s) := by
  unfold captureForce
  repeat' first
    | with_reducible assumption | intro _
    | (extract_lets +onlyGivenNames u₀; first | (refine Keeps.cut (m := b₀) (a := a₀) (s := u₀) ?_ fun _ => ?_ <;> [(unfold u₀; clear u₀); ((try clear_value u₀); revert u₀; intro _ _)]) | (revert u₀; intro _))
    | with_reducible apply State.capConfig_keeps | with_reducible apply Keeps.ite | split | (clear_value *; split)
    | (with_reducible refine Keeps.upd ?_ ?_ ?_ ?_ <;> [assumption; rfl; rfl; rfl])

theorem captureAbort_keeps {b₀ : Bool} {a₀ s : State} (h : Keeps b₀ a₀ s) (v : Word) : Keeps b₀ a₀ (captureAbort v s) := by
  unfold captureAbort
  repeat' first
    | with_reducible assumption | intro _
    | (extract_lets +onlyGivenNames u₀; first | (refine Keeps.cut (m := b₀) (a := a₀) (s := u₀) ?_ fun _ => ?_ <;> [(unfold u₀; clear u₀); ((try clear_value u₀); revert u₀; intro _ _)]) | (revert u₀; intro _))
    | with_reducible apply State.capConfig_keeps | with_reducible apply State.wr_keeps | with_reducible apply State.clr_keeps
    | with_reducible apply Keeps.ite | split | (clear_value *; split)
    | (with_reducible refine Keeps.upd ?_ ?_ ?_ ?_ <;> [assumption; rfl; rfl; rfl])

theorem execCaptureArm_keeps {b₀ : Bool} {a₀ s : State} (h : Keeps b₀ a₀ s) (v : Word) {t₀ : State} (e : execCaptureArm v s = .next t₀) : Keeps b₀ a₀ t₀ := by
  unfold execCaptureArm at e
  obtain ⟨-, rfl⟩ := guardWF_next e
  repeat' first
    | with_reducible assumption | intro _ | with_reducible apply State.hostWrite_keeps | with_reducible apply captureArm_keeps

theorem execCaptureForce_keeps {b₀ : Bool} {a₀ s : State} (h : Keeps b₀ a₀ s) (v : Word) {t₀ : State} (e : execCaptureForce v s = .next t₀) : Keeps b₀ a₀ t₀ := by
  unfold execCaptureForce at e
  obtain ⟨-, rfl⟩ := guardWF_next e
  repeat' first
    | with_reducible assumption | intro _ | with_reducible apply State.hostWrite_keeps | with_reducible apply captureForce_keeps

theorem execCaptureAbort_keeps {b₀ : Bool} {a₀ s : State} (h : Keeps b₀ a₀ s) (v : Word) {t₀ : State} (e : execCaptureAbort v s = .next t₀) : Keeps b₀ a₀ t₀ := by
  unfold execCaptureAbort at e
  obtain ⟨-, rfl⟩ := guardWF_next e
  repeat' first
    | with_reducible assumption | intro _ | with_reducible apply State.hostWrite_keeps | with_reducible apply captureAbort_keeps

end Sys2Proof.Machine
end

