-- ==== Sys2Proof/Laws/KeepsPath.lean ====
section
/-! SUPPORT. Every operation of Machine/Path.lean keeps what `Keeps` says. -/

namespace Sys2Proof.Machine

open Sys2Proof

set_option linter.unusedTactic false

set_option linter.unreachableTactic false

theorem State.trackPosition_keeps {b₀ : Bool} {a₀ s : State} (h : Keeps b₀ a₀ s) : Keeps b₀ a₀ (State.trackPosition s) := by
  unfold State.trackPosition
  repeat' first
    | with_reducible assumption | intro _
    | (extract_lets +onlyGivenNames u₀; first | (refine Keeps.cut (m := b₀) (a := a₀) (s := u₀) ?_ fun _ => ?_ <;> [(unfold u₀; clear u₀); ((try clear_value u₀); revert u₀; intro _ _)]) | (revert u₀; intro _))
    | with_reducible apply State.wrS_keeps | with_reducible apply Keeps.ite | split | (clear_value *; split)

theorem motionClock_keeps {b₀ : Bool} {a₀ s : State} (h : Keeps b₀ a₀ s) : Keeps b₀ a₀ (motionClock s) := by
  unfold motionClock
  repeat' first
    | with_reducible assumption | intro _ | with_reducible apply clockAxes_keeps
    | with_reducible apply State.trackPosition_keeps | with_reducible apply Keeps.ite | split | (clear_value *; split)

theorem execMotionClock_keeps {b₀ : Bool} {a₀ s : State} (h : Keeps b₀ a₀ s) {t₀ : State} (e : execMotionClock s = .next t₀) : Keeps b₀ a₀ t₀ := by
  unfold execMotionClock at e
  obtain ⟨-, rfl⟩ := guardWF_next e
  repeat' first
    | with_reducible assumption | intro _ | with_reducible apply motionClock_keeps

theorem execEncoderEdge_keeps {b₀ : Bool} {a₀ s : State} (h : Keeps b₀ a₀ s) (k : Nat) (forward : Bool) {t₀ : State} (e : execEncoderEdge k forward s = .next t₀) : Keeps b₀ a₀ t₀ := by
  unfold execEncoderEdge at e
  obtain ⟨-, rfl⟩ := guardWF_next e
  repeat' first
    | with_reducible assumption | intro _ | with_reducible apply encoderCount_keeps
    | with_reducible apply State.trackPosition_keeps | with_reducible apply Keeps.ite | split | (clear_value *; split)

theorem State.trackRate_keeps {b₀ : Bool} {a₀ s : State} (h : Keeps b₀ a₀ s) : Keeps b₀ a₀ (State.trackRate s) := by
  unfold State.trackRate
  repeat' first
    | with_reducible assumption | intro _
    | (extract_lets +onlyGivenNames u₀; first | (refine Keeps.cut (m := b₀) (a := a₀) (s := u₀) ?_ fun _ => ?_ <;> [(unfold u₀; clear u₀); ((try clear_value u₀); revert u₀; intro _ _)]) | (revert u₀; intro _))
    | with_reducible apply State.take_keeps | with_reducible apply State.wr_keeps | with_reducible apply Keeps.ite | split
    | (clear_value *; split) | (with_reducible refine Keeps.upd ?_ ?_ ?_ ?_ <;> [assumption; rfl; rfl; rfl])

theorem State.countFast_keeps {b₀ : Bool} {a₀ s : State} (h : Keeps b₀ a₀ s) : Keeps b₀ a₀ (State.countFast s) := by
  unfold State.countFast
  repeat' first
    | with_reducible assumption | intro _
    | (extract_lets +onlyGivenNames u₀; first | (refine Keeps.cut (m := b₀) (a := a₀) (s := u₀) ?_ fun _ => ?_ <;> [(unfold u₀; clear u₀); ((try clear_value u₀); revert u₀; intro _ _)]) | (revert u₀; intro _))
    | with_reducible apply Keeps.ite | split | (clear_value *; split)
    | (with_reducible refine Keeps.upd ?_ ?_ ?_ ?_ <;> [assumption; rfl; rfl; rfl])

theorem overspeedDetect_keeps {b₀ : Bool} {a₀ s : State} (h : Keeps b₀ a₀ s) : Keeps b₀ a₀ (overspeedDetect s) := by
  unfold overspeedDetect
  repeat' first
    | with_reducible assumption | intro _
    | (extract_lets +onlyGivenNames u₀; first | (refine Keeps.cut (m := b₀) (a := a₀) (s := u₀) ?_ fun _ => ?_ <;> [(unfold u₀; clear u₀); ((try clear_value u₀); revert u₀; intro _ _)]) | (revert u₀; intro _))
    | with_reducible apply State.ev_keeps | with_reducible apply Keeps.ite | split | (clear_value *; split)
    | (with_reducible refine Keeps.upd ?_ ?_ ?_ ?_ <;> [assumption; rfl; rfl; rfl])

theorem execOverspeedDetect_keeps {b₀ : Bool} {a₀ s : State} (h : Keeps b₀ a₀ s) {t₀ : State} (e : execOverspeedDetect s = .next t₀) : Keeps b₀ a₀ t₀ := by
  unfold execOverspeedDetect at e
  obtain ⟨-, rfl⟩ := guardWF_next e
  repeat' first
    | with_reducible assumption | intro _ | with_reducible apply overspeedDetect_keeps

theorem State.setTrack_keeps {b₀ : Bool} {a₀ s : State} (h : Keeps b₀ a₀ s) (t : Track) : Keeps b₀ a₀ (State.setTrack s t) := by
  unfold State.setTrack
  repeat' first
    | with_reducible assumption | intro _
    | (extract_lets +onlyGivenNames u₀; first | (refine Keeps.cut (m := b₀) (a := a₀) (s := u₀) ?_ fun _ => ?_ <;> [(unfold u₀; clear u₀); ((try clear_value u₀); revert u₀; intro _ _)]) | (revert u₀; intro _))
    | with_reducible apply Keeps.ite | split | (clear_value *; split)
    | (with_reducible refine Keeps.upd ?_ ?_ ?_ ?_ <;> [assumption; rfl; rfl; rfl])

theorem State.dropTrack_keeps {b₀ : Bool} {a₀ s : State} (h : Keeps b₀ a₀ s) (c : Nat) : Keeps b₀ a₀ (State.dropTrack s c) := by
  unfold State.dropTrack
  repeat' first
    | with_reducible assumption | intro _
    | (extract_lets +onlyGivenNames u₀; first | (refine Keeps.cut (m := b₀) (a := a₀) (s := u₀) ?_ fun _ => ?_ <;> [(unfold u₀; clear u₀); ((try clear_value u₀); revert u₀; intro _ _)]) | (revert u₀; intro _))
    | (with_reducible refine Keeps.upd ?_ ?_ ?_ ?_ <;> [assumption; rfl; rfl; rfl])

theorem State.setStage_keeps {b₀ : Bool} {a₀ s : State} (h : Keeps b₀ a₀ s) (c : Nat) (st : Nat) : Keeps b₀ a₀ (State.setStage s c st) := by
  unfold State.setStage
  repeat' first
    | with_reducible assumption | intro _
    | (extract_lets +onlyGivenNames u₀; first | (refine Keeps.cut (m := b₀) (a := a₀) (s := u₀) ?_ fun _ => ?_ <;> [(unfold u₀; clear u₀); ((try clear_value u₀); revert u₀; intro _ _)]) | (revert u₀; intro _))
    | with_reducible apply State.setCtx_keeps | (with_reducible refine Keeps.upd ?_ ?_ ?_ ?_ <;> [assumption; rfl; rfl; rfl])

theorem State.feedPulseDue_keeps {b₀ : Bool} {a₀ s : State} (h : Keeps b₀ a₀ s) : Keeps b₀ a₀ (State.feedPulseDue s) := by
  unfold State.feedPulseDue
  repeat' first
    | with_reducible assumption | intro _
    | (extract_lets +onlyGivenNames u₀; first | (refine Keeps.cut (m := b₀) (a := a₀) (s := u₀) ?_ fun _ => ?_ <;> [(unfold u₀; clear u₀); ((try clear_value u₀); revert u₀; intro _ _)]) | (revert u₀; intro _))
    | with_reducible apply State.emit_keeps | with_reducible apply Keeps.ite | split | (clear_value *; split)
    | (with_reducible refine Keeps.upd ?_ ?_ ?_ ?_ <;> [assumption; rfl; rfl; rfl])

theorem State.feed_keeps {b₀ : Bool} {a₀ s : State} (h : Keeps b₀ a₀ s) (c : Nat) : Keeps b₀ a₀ (State.feed s c) := by
  unfold State.feed
  repeat' first
    | with_reducible assumption | intro _
    | (extract_lets +onlyGivenNames u₀; first | (refine Keeps.cut (m := b₀) (a := a₀) (s := u₀) ?_ fun _ => ?_ <;> [(unfold u₀; clear u₀); ((try clear_value u₀); revert u₀; intro _ _)]) | (revert u₀; intro _))
    | with_reducible apply State.setTrack_keeps | with_reducible apply State.broadcast_keeps
    | with_reducible apply State.setStage_keeps | with_reducible apply State.emit_keeps
    | with_reducible apply Keeps.ite | split | (clear_value *; split)
    | (with_reducible refine Keeps.upd ?_ ?_ ?_ ?_ <;> [assumption; rfl; rfl; rfl])

theorem State.idleCycle_keeps {b₀ : Bool} {a₀ s : State} (h : Keeps b₀ a₀ s) : Keeps b₀ a₀ (State.idleCycle s) := by
  unfold State.idleCycle
  repeat' first
    | with_reducible assumption | intro _ | with_reducible apply State.feedPulseDue_keeps
    | with_reducible apply State.referenceCycle_keeps | with_reducible apply State.heatersDue_keeps
    | (with_reducible refine Keeps.upd ?_ ?_ ?_ ?_ <;> [assumption; rfl; rfl; rfl])

theorem State.skipFeed_keeps {b₀ : Bool} {a₀ s : State} (h : Keeps b₀ a₀ s) : Keeps b₀ a₀ (State.skipFeed s) := by
  unfold State.skipFeed
  repeat' first
    | with_reducible assumption | intro _ | with_reducible apply State.count_keeps

theorem State.feedAct_keeps {b₀ : Bool} {a₀ s : State} (h : Keeps b₀ a₀ s) : Keeps b₀ a₀ (State.feedAct s) := by
  unfold State.feedAct
  repeat' first
    | with_reducible assumption | intro _
    | (extract_lets +onlyGivenNames u₀; first | (refine Keeps.cut (m := b₀) (a := a₀) (s := u₀) ?_ fun _ => ?_ <;> [(unfold u₀; clear u₀); ((try clear_value u₀); revert u₀; intro _ _)]) | (revert u₀; intro _))
    | with_reducible apply State.feed_keeps | with_reducible apply State.skipFeed_keeps | with_reducible apply State.wrB_keeps
    | with_reducible apply State.requestGate_keeps | with_reducible apply Keeps.ite | split | (clear_value *; split)
    | (with_reducible refine Keeps.upd ?_ ?_ ?_ ?_ <;> [assumption; rfl; rfl; rfl])

theorem feedPoint_keeps {b₀ : Bool} {a₀ s : State} (h : Keeps b₀ a₀ s) : Keeps b₀ a₀ (feedPoint s) := by
  unfold feedPoint
  repeat' first
    | with_reducible assumption | intro _
    | (extract_lets +onlyGivenNames u₀; first | (refine Keeps.cut (m := b₀) (a := a₀) (s := u₀) ?_ fun _ => ?_ <;> [(unfold u₀; clear u₀); ((try clear_value u₀); revert u₀; intro _ _)]) | (revert u₀; intro _))
    | with_reducible apply State.feedAct_keeps | with_reducible apply Keeps.ite | split | (clear_value *; split)
    | (with_reducible refine Keeps.upd ?_ ?_ ?_ ?_ <;> [assumption; rfl; rfl; rfl])

theorem execFeedPoint_keeps {b₀ : Bool} {a₀ s : State} (h : Keeps b₀ a₀ s) {t₀ : State} (e : execFeedPoint s = .next t₀) : Keeps b₀ a₀ t₀ := by
  unfold execFeedPoint at e
  obtain ⟨-, rfl⟩ := guardWF_next e
  repeat' first
    | with_reducible assumption | intro _ | with_reducible apply feedPoint_keeps

theorem State.pthRefuse_keeps {b₀ : Bool} {a₀ s : State} (h : Keeps b₀ a₀ s) : Keeps b₀ a₀ (State.pthRefuse s) := by
  unfold State.pthRefuse
  repeat' first
    | with_reducible assumption | intro _ | with_reducible apply State.ev_keeps

theorem refeed_keeps {b₀ : Bool} {a₀ s : State} (h : Keeps b₀ a₀ s) : Keeps b₀ a₀ (refeed s) := by
  unfold refeed
  repeat' first
    | with_reducible assumption | intro _
    | (extract_lets +onlyGivenNames u₀; first | (refine Keeps.cut (m := b₀) (a := a₀) (s := u₀) ?_ fun _ => ?_ <;> [(unfold u₀; clear u₀); ((try clear_value u₀); revert u₀; intro _ _)]) | (revert u₀; intro _))
    | with_reducible apply State.pthRefuse_keeps | with_reducible apply Keeps.ite | split | (clear_value *; split)
    | (with_reducible refine Keeps.upd ?_ ?_ ?_ ?_ <;> [assumption; rfl; rfl; rfl])

theorem execRefeed_keeps {b₀ : Bool} {a₀ s : State} (h : Keeps b₀ a₀ s) {t₀ : State} (e : execRefeed s = .next t₀) : Keeps b₀ a₀ t₀ := by
  unfold execRefeed at e
  obtain ⟨-, rfl⟩ := guardWF_next e
  repeat' first
    | with_reducible assumption | intro _ | with_reducible apply State.hostWrite_keeps | with_reducible apply refeed_keeps

theorem State.pathUnit_keeps {b₀ : Bool} {a₀ s : State} (h : Keeps b₀ a₀ s) (src : Nat) (i : Nat) : Keeps b₀ a₀ (State.pathUnit s src i) := by
  unfold State.pathUnit
  repeat' first
    | with_reducible assumption | intro _
    | (extract_lets +onlyGivenNames u₀; first | (refine Keeps.cut (m := b₀) (a := a₀) (s := u₀) ?_ fun _ => ?_ <;> [(unfold u₀; clear u₀); ((try clear_value u₀); revert u₀; intro _ _)]) | (revert u₀; intro _))
    | with_reducible apply Keeps.ite | split | (clear_value *; split)
    | (with_reducible refine Keeps.upd ?_ ?_ ?_ ?_ <;> [assumption; rfl; rfl; rfl])

theorem State.sheetFail_keeps {b₀ : Bool} {a₀ s : State} (h : Keeps b₀ a₀ s) (t : Track) (pcause : Nat) (bit_ : PthF) (src : Nat) (i : Nat) : Keeps b₀ a₀ (State.sheetFail s t pcause bit_ src i) := by
  unfold State.sheetFail
  repeat' first
    | with_reducible assumption | intro _
    | (extract_lets +onlyGivenNames u₀; first | (refine Keeps.cut (m := b₀) (a := a₀) (s := u₀) ?_ fun _ => ?_ <;> [(unfold u₀; clear u₀); ((try clear_value u₀); revert u₀; intro _ _)]) | (revert u₀; intro _))
    | with_reducible apply State.setTrack_keeps | with_reducible apply State.ev_keeps
    | with_reducible apply State.pathUnit_keeps | with_reducible apply State.pathSpoil_keeps | with_reducible apply Keeps.ite
    | split | (clear_value *; split) | (with_reducible refine Keeps.upd ?_ ?_ ?_ ?_ <;> [assumption; rfl; rfl; rfl])

theorem State.strayEdge_keeps {b₀ : Bool} {a₀ s : State} (h : Keeps b₀ a₀ s) (i : Nat) : Keeps b₀ a₀ (State.strayEdge s i) := by
  unfold State.strayEdge
  repeat' first
    | with_reducible assumption | intro _ | with_reducible apply State.ev_keeps | with_reducible apply State.pathUnit_keeps

theorem State.deliver_keeps {b₀ : Bool} {a₀ s : State} (h : Keeps b₀ a₀ s) (c : Nat) (d : Nat) : Keeps b₀ a₀ (State.deliver s c d) := by
  unfold State.deliver
  repeat' first
    | with_reducible assumption | intro _
    | (extract_lets +onlyGivenNames u₀; first | (refine Keeps.cut (m := b₀) (a := a₀) (s := u₀) ?_ fun _ => ?_ <;> [(unfold u₀; clear u₀); ((try clear_value u₀); revert u₀; intro _ _)]) | (revert u₀; intro _))
    | with_reducible apply State.finishAll_keeps | with_reducible apply State.closeDecision_keeps
    | with_reducible apply State.setCtx_keeps | with_reducible apply State.toState_keeps
    | with_reducible apply State.settleGate_keeps | with_reducible apply Keeps.ite | split | (clear_value *; split)
    | (with_reducible refine Keeps.upd ?_ ?_ ?_ ?_ <;> [assumption; rfl; rfl; rfl])

theorem sheetDelivered_keeps {b₀ : Bool} {a₀ s : State} (h : Keeps b₀ a₀ s) (c : Nat) : Keeps b₀ a₀ (sheetDelivered c s) := by
  unfold sheetDelivered
  repeat' first
    | with_reducible assumption | intro _
    | (extract_lets +onlyGivenNames u₀; first | (refine Keeps.cut (m := b₀) (a := a₀) (s := u₀) ?_ fun _ => ?_ <;> [(unfold u₀; clear u₀); ((try clear_value u₀); revert u₀; intro _ _)]) | (revert u₀; intro _))
    | with_reducible apply State.deliver_keeps | with_reducible apply State.dropTrack_keeps | with_reducible apply Keeps.ite
    | split | (clear_value *; split) | (with_reducible refine Keeps.upd ?_ ?_ ?_ ?_ <;> [assumption; rfl; rfl; rfl])

theorem execSheetDelivered_keeps {b₀ : Bool} {a₀ s : State} (h : Keeps b₀ a₀ s) (c : Nat) {t₀ : State} (e : execSheetDelivered c s = .next t₀) : Keeps b₀ a₀ t₀ := by
  unfold execSheetDelivered at e
  obtain ⟨-, rfl⟩ := guardWF_next e
  repeat' first
    | with_reducible assumption | intro _ | with_reducible apply sheetDelivered_keeps

theorem State.setSensor_keeps {b₀ : Bool} {a₀ s : State} (h : Keeps b₀ a₀ s) (i : Nat) (x : Sensor) : Keeps b₀ a₀ (State.setSensor s i x) := by
  unfold State.setSensor
  repeat' first
    | with_reducible assumption | intro _
    | (extract_lets +onlyGivenNames u₀; first | (refine Keeps.cut (m := b₀) (a := a₀) (s := u₀) ?_ fun _ => ?_ <;> [(unfold u₀; clear u₀); ((try clear_value u₀); revert u₀; intro _ _)]) | (revert u₀; intro _))
    | (with_reducible refine Keeps.upd ?_ ?_ ?_ ?_ <;> [assumption; rfl; rfl; rfl])

theorem sensorRawEdge_keeps {b₀ : Bool} {a₀ s : State} (h : Keeps b₀ a₀ s) (i : Nat) (present : Bool) : Keeps b₀ a₀ (sensorRawEdge i present s) := by
  unfold sensorRawEdge
  repeat' first
    | with_reducible assumption | intro _
    | (extract_lets +onlyGivenNames u₀; first | (refine Keeps.cut (m := b₀) (a := a₀) (s := u₀) ?_ fun _ => ?_ <;> [(unfold u₀; clear u₀); ((try clear_value u₀); revert u₀; intro _ _)]) | (revert u₀; intro _))
    | with_reducible apply State.setSensor_keeps | with_reducible apply Keeps.ite | split | (clear_value *; split)
    | (with_reducible refine Keeps.upd ?_ ?_ ?_ ?_ <;> [assumption; rfl; rfl; rfl])

theorem execSensorRawEdge_keeps {b₀ : Bool} {a₀ s : State} (h : Keeps b₀ a₀ s) (i : Nat) (present : Bool) {t₀ : State} (e : execSensorRawEdge i present s = .next t₀) : Keeps b₀ a₀ t₀ := by
  unfold execSensorRawEdge at e
  obtain ⟨-, rfl⟩ := guardWF_next e
  repeat' first
    | with_reducible assumption | intro _ | with_reducible apply sensorRawEdge_keeps

theorem State.checkSkew_keeps {b₀ : Bool} {a₀ s : State} (h : Keeps b₀ a₀ s) (c : Nat) (i : Nat) : Keeps b₀ a₀ (State.checkSkew s c i) := by
  unfold State.checkSkew
  repeat' first
    | with_reducible assumption | intro _
    | (extract_lets +onlyGivenNames u₀; first | (refine Keeps.cut (m := b₀) (a := a₀) (s := u₀) ?_ fun _ => ?_ <;> [(unfold u₀; clear u₀); ((try clear_value u₀); revert u₀; intro _ _)]) | (revert u₀; intro _))
    | with_reducible apply State.sheetFail_keeps | with_reducible apply Keeps.ite | split | (clear_value *; split)
    | (with_reducible refine Keeps.upd ?_ ?_ ?_ ?_ <;> [assumption; rfl; rfl; rfl])

theorem State.noteLead_keeps {b₀ : Bool} {a₀ s : State} (h : Keeps b₀ a₀ s) (t : Track) (i : Nat) (p : Int) : Keeps b₀ a₀ (State.noteLead s t i p) := by
  unfold State.noteLead
  repeat' first
    | with_reducible assumption | intro _
    | (extract_lets +onlyGivenNames u₀; first | (refine Keeps.cut (m := b₀) (a := a₀) (s := u₀) ?_ fun _ => ?_ <;> [(unfold u₀; clear u₀); ((try clear_value u₀); revert u₀; intro _ _)]) | (revert u₀; intro _))
    | with_reducible apply State.setTrack_keeps | with_reducible apply State.checkSkew_keeps | with_reducible apply Keeps.foldl
    | with_reducible apply Keeps.foldlSnd | with_reducible apply Keeps.foldlFst | with_reducible apply Keeps.ite | split
    | (clear_value *; split) | (with_reducible refine Keeps.upd ?_ ?_ ?_ ?_ <;> [assumption; rfl; rfl; rfl])

theorem State.registration_keeps {b₀ : Bool} {a₀ s : State} (h : Keeps b₀ a₀ s) (i : Nat) (present : Bool) (p : Int) : Keeps b₀ a₀ (State.registration s i present p) := by
  unfold State.registration
  repeat' first
    | with_reducible assumption | intro _
    | (extract_lets +onlyGivenNames u₀; first | (refine Keeps.cut (m := b₀) (a := a₀) (s := u₀) ?_ fun _ => ?_ <;> [(unfold u₀; clear u₀); ((try clear_value u₀); revert u₀; intro _ _)]) | (revert u₀; intro _))
    | with_reducible apply State.noteLead_keeps | with_reducible apply State.setStage_keeps
    | with_reducible apply State.broadcast_keeps | with_reducible apply State.strayEdge_keeps
    | with_reducible apply State.setTrack_keeps | with_reducible apply State.sheetFail_keeps | with_reducible apply Keeps.ite
    | split | (clear_value *; split) | (with_reducible refine Keeps.upd ?_ ?_ ?_ ?_ <;> [assumption; rfl; rfl; rfl])

theorem State.windowLead_keeps {b₀ : Bool} {a₀ s : State} (h : Keeps b₀ a₀ s) (i : Nat) (p : Int) : Keeps b₀ a₀ (State.windowLead s i p) := by
  unfold State.windowLead
  repeat' first
    | with_reducible assumption | intro _
    | (extract_lets +onlyGivenNames u₀; first | (refine Keeps.cut (m := b₀) (a := a₀) (s := u₀) ?_ fun _ => ?_ <;> [(unfold u₀; clear u₀); ((try clear_value u₀); revert u₀; intro _ _)]) | (revert u₀; intro _))
    | with_reducible apply State.sheetFail_keeps | with_reducible apply State.noteLead_keeps
    | with_reducible apply State.strayEdge_keeps | with_reducible apply Keeps.ite | split | (clear_value *; split)
    | (with_reducible refine Keeps.upd ?_ ?_ ?_ ?_ <;> [assumption; rfl; rfl; rfl])

theorem State.windowTrail_keeps {b₀ : Bool} {a₀ s : State} (h : Keeps b₀ a₀ s) (i : Nat) : Keeps b₀ a₀ (State.windowTrail s i) := by
  unfold State.windowTrail
  repeat' first
    | with_reducible assumption | intro _
    | (extract_lets +onlyGivenNames u₀; first | (refine Keeps.cut (m := b₀) (a := a₀) (s := u₀) ?_ fun _ => ?_ <;> [(unfold u₀; clear u₀); ((try clear_value u₀); revert u₀; intro _ _)]) | (revert u₀; intro _))
    | with_reducible apply sheetDelivered_keeps | with_reducible apply State.setTrack_keeps
    | with_reducible apply State.strayEdge_keeps | split | (clear_value *; split)
    | (with_reducible refine Keeps.upd ?_ ?_ ?_ ?_ <;> [assumption; rfl; rfl; rfl])

theorem webBreak_keeps {b₀ : Bool} {a₀ s : State} (h : Keeps b₀ a₀ s) (i : Nat) : Keeps b₀ a₀ (webBreak i s) := by
  unfold webBreak
  repeat' first
    | with_reducible assumption | intro _
    | (extract_lets +onlyGivenNames u₀; first | (refine Keeps.cut (m := b₀) (a := a₀) (s := u₀) ?_ fun _ => ?_ <;> [(unfold u₀; clear u₀); ((try clear_value u₀); revert u₀; intro _ _)]) | (revert u₀; intro _))
    | with_reducible apply State.setSensor_keeps | with_reducible apply State.clr_keeps | with_reducible apply State.ev_keeps
    | with_reducible apply State.pathUnit_keeps | with_reducible apply State.pathSpoil_keeps | with_reducible apply Keeps.foldl
    | with_reducible apply Keeps.foldlSnd | with_reducible apply Keeps.foldlFst | with_reducible apply Keeps.ite | split
    | (clear_value *; split)

theorem execWebBreak_keeps {b₀ : Bool} {a₀ s : State} (h : Keeps b₀ a₀ s) (i : Nat) {t₀ : State} (e : execWebBreak i s = .next t₀) : Keeps b₀ a₀ t₀ := by
  unfold execWebBreak at e
  obtain ⟨-, rfl⟩ := guardWF_next e
  repeat' first
    | with_reducible assumption | intro _ | with_reducible apply webBreak_keeps

theorem sensorQualified_keeps {b₀ : Bool} {a₀ s : State} (h : Keeps b₀ a₀ s) (i : Nat) : Keeps b₀ a₀ (sensorQualified i s) := by
  unfold sensorQualified
  repeat' first
    | with_reducible assumption | intro _
    | (extract_lets +onlyGivenNames u₀; first | (refine Keeps.cut (m := b₀) (a := a₀) (s := u₀) ?_ fun _ => ?_ <;> [(unfold u₀; clear u₀); ((try clear_value u₀); revert u₀; intro _ _)]) | (revert u₀; intro _))
    | with_reducible apply State.wrB_keeps | with_reducible apply State.registration_keeps
    | with_reducible apply State.windowLead_keeps | with_reducible apply State.count_keeps
    | with_reducible apply State.windowTrail_keeps | with_reducible apply State.setSensor_keeps
    | with_reducible apply webBreak_keeps | with_reducible apply Keeps.ite | split | (clear_value *; split)
    | (with_reducible refine Keeps.upd ?_ ?_ ?_ ?_ <;> [assumption; rfl; rfl; rfl])

theorem execSensorQualified_keeps {b₀ : Bool} {a₀ s : State} (h : Keeps b₀ a₀ s) (i : Nat) {t₀ : State} (e : execSensorQualified i s = .next t₀) : Keeps b₀ a₀ t₀ := by
  unfold execSensorQualified at e
  obtain ⟨-, rfl⟩ := guardWF_next e
  repeat' first
    | with_reducible assumption | intro _ | with_reducible apply sensorQualified_keeps

theorem sensorWindowExpiry_keeps {b₀ : Bool} {a₀ s : State} (h : Keeps b₀ a₀ s) (i : Nat) (c : Nat) (e : SheetEdge) : Keeps b₀ a₀ (sensorWindowExpiry i c e s) := by
  unfold sensorWindowExpiry
  repeat' first
    | with_reducible assumption | intro _
    | (extract_lets +onlyGivenNames u₀; first | (refine Keeps.cut (m := b₀) (a := a₀) (s := u₀) ?_ fun _ => ?_ <;> [(unfold u₀; clear u₀); ((try clear_value u₀); revert u₀; intro _ _)]) | (revert u₀; intro _))
    | with_reducible apply State.sheetFail_keeps | with_reducible apply Keeps.ite | split | (clear_value *; split)
    | (with_reducible refine Keeps.upd ?_ ?_ ?_ ?_ <;> [assumption; rfl; rfl; rfl])

theorem execSensorWindowExpiry_keeps {b₀ : Bool} {a₀ s : State} (h : Keeps b₀ a₀ s) (i : Nat) (c : Nat) (e : SheetEdge) {t₀ : State} (e : execSensorWindowExpiry i c e s = .next t₀) : Keeps b₀ a₀ t₀ := by
  unfold execSensorWindowExpiry at e
  obtain ⟨-, rfl⟩ := guardWF_next e
  repeat' first
    | with_reducible assumption | intro _ | with_reducible apply sensorWindowExpiry_keeps

theorem State.misfeed_keeps {b₀ : Bool} {a₀ s : State} (h : Keeps b₀ a₀ s) (t : Track) : Keeps b₀ a₀ (State.misfeed s t) := by
  unfold State.misfeed
  repeat' first
    | with_reducible assumption | intro _
    | (extract_lets +onlyGivenNames u₀; first | (refine Keeps.cut (m := b₀) (a := a₀) (s := u₀) ?_ fun _ => ?_ <;> [(unfold u₀; clear u₀); ((try clear_value u₀); revert u₀; intro _ _)]) | (revert u₀; intro _))
    | with_reducible apply State.setCtx_keeps | with_reducible apply State.setTrack_keeps | with_reducible apply State.ev_keeps
    | with_reducible apply Keeps.ite | split | (clear_value *; split)
    | (with_reducible refine Keeps.upd ?_ ?_ ?_ ?_ <;> [assumption; rfl; rfl; rfl])

theorem feedWindowExpiry_keeps {b₀ : Bool} {a₀ s : State} (h : Keeps b₀ a₀ s) : Keeps b₀ a₀ (feedWindowExpiry s) := by
  unfold feedWindowExpiry
  repeat' first
    | with_reducible assumption | intro _ | with_reducible apply State.misfeed_keeps | with_reducible apply Keeps.foldl
    | with_reducible apply Keeps.foldlSnd | with_reducible apply Keeps.foldlFst | with_reducible apply Keeps.ite | split
    | (clear_value *; split)

theorem execFeedWindowExpiry_keeps {b₀ : Bool} {a₀ s : State} (h : Keeps b₀ a₀ s) {t₀ : State} (e : execFeedWindowExpiry s = .next t₀) : Keeps b₀ a₀ t₀ := by
  unfold execFeedWindowExpiry at e
  obtain ⟨-, rfl⟩ := guardWF_next e
  repeat' first
    | with_reducible assumption | intro _ | with_reducible apply feedWindowExpiry_keeps

theorem t0Issue_keeps {b₀ : Bool} {a₀ s : State} (h : Keeps b₀ a₀ s) (c : Nat) (k : Nat) : Keeps b₀ a₀ (t0Issue c k s) := by
  unfold t0Issue
  repeat' first
    | with_reducible assumption | intro _
    | (extract_lets +onlyGivenNames u₀; first | (refine Keeps.cut (m := b₀) (a := a₀) (s := u₀) ?_ fun _ => ?_ <;> [(unfold u₀; clear u₀); ((try clear_value u₀); revert u₀; intro _ _)]) | (revert u₀; intro _))
    | with_reducible apply State.setStn_keeps | with_reducible apply State.setTrack_keeps | with_reducible apply Keeps.ite
    | split | (clear_value *; split) | (with_reducible refine Keeps.upd ?_ ?_ ?_ ?_ <;> [assumption; rfl; rfl; rfl])

theorem execT0Issue_keeps {b₀ : Bool} {a₀ s : State} (h : Keeps b₀ a₀ s) (c : Nat) (k : Nat) {t₀ : State} (e : execT0Issue c k s = .next t₀) : Keeps b₀ a₀ t₀ := by
  unfold execT0Issue at e
  obtain ⟨-, rfl⟩ := guardWF_next e
  repeat' first
    | with_reducible assumption | intro _ | with_reducible apply t0Issue_keeps

theorem sheetCommit_keeps {b₀ : Bool} {a₀ s : State} (h : Keeps b₀ a₀ s) (c : Nat) : Keeps b₀ a₀ (sheetCommit c s) := by
  unfold sheetCommit
  repeat' first
    | with_reducible assumption | intro _
    | (extract_lets +onlyGivenNames u₀; first | (refine Keeps.cut (m := b₀) (a := a₀) (s := u₀) ?_ fun _ => ?_ <;> [(unfold u₀; clear u₀); ((try clear_value u₀); revert u₀; intro _ _)]) | (revert u₀; intro _))
    | with_reducible apply State.setStage_keeps | with_reducible apply State.broadcast_keeps | with_reducible apply Keeps.ite
    | split | (clear_value *; split) | (with_reducible refine Keeps.upd ?_ ?_ ?_ ?_ <;> [assumption; rfl; rfl; rfl])

theorem execSheetCommit_keeps {b₀ : Bool} {a₀ s : State} (h : Keeps b₀ a₀ s) (c : Nat) {t₀ : State} (e : execSheetCommit c s = .next t₀) : Keeps b₀ a₀ t₀ := by
  unfold execSheetCommit at e
  obtain ⟨-, rfl⟩ := guardWF_next e
  repeat' first
    | with_reducible assumption | intro _ | with_reducible apply sheetCommit_keeps

theorem State.fixOutput_keeps {b₀ : Bool} {a₀ s : State} (h : Keeps b₀ a₀ s) (t : Track) (d : Nat) : Keeps b₀ a₀ (State.fixOutput s t d) := by
  unfold State.fixOutput
  repeat' first
    | with_reducible assumption | intro _
    | (extract_lets +onlyGivenNames u₀; first | (refine Keeps.cut (m := b₀) (a := a₀) (s := u₀) ?_ fun _ => ?_ <;> [(unfold u₀; clear u₀); ((try clear_value u₀); revert u₀; intro _ _)]) | (revert u₀; intro _))
    | with_reducible apply State.setTrack_keeps | with_reducible apply State.setStage_keeps
    | with_reducible apply State.emit_keeps | with_reducible apply Keeps.ite | split | (clear_value *; split)
    | (with_reducible refine Keeps.upd ?_ ?_ ?_ ?_ <;> [assumption; rfl; rfl; rfl])

theorem diverterDecision_keeps {b₀ : Bool} {a₀ s : State} (h : Keeps b₀ a₀ s) (c : Nat) : Keeps b₀ a₀ (diverterDecision c s) := by
  unfold diverterDecision
  repeat' first
    | with_reducible assumption | intro _
    | (extract_lets +onlyGivenNames u₀; first | (refine Keeps.cut (m := b₀) (a := a₀) (s := u₀) ?_ fun _ => ?_ <;> [(unfold u₀; clear u₀); ((try clear_value u₀); revert u₀; intro _ _)]) | (revert u₀; intro _))
    | with_reducible apply State.fixOutput_keeps | with_reducible apply State.broadcast_keeps | with_reducible apply Keeps.ite
    | split | (clear_value *; split) | (with_reducible refine Keeps.upd ?_ ?_ ?_ ?_ <;> [assumption; rfl; rfl; rfl])

theorem execDiverterDecision_keeps {b₀ : Bool} {a₀ s : State} (h : Keeps b₀ a₀ s) (c : Nat) {t₀ : State} (e : execDiverterDecision c s = .next t₀) : Keeps b₀ a₀ t₀ := by
  unfold execDiverterDecision at e
  obtain ⟨-, rfl⟩ := guardWF_next e
  repeat' first
    | with_reducible assumption | intro _ | with_reducible apply diverterDecision_keeps

theorem diverterRelease_keeps {b₀ : Bool} {a₀ s : State} (h : Keeps b₀ a₀ s) (c : Nat) : Keeps b₀ a₀ (diverterRelease c s) := by
  unfold diverterRelease
  repeat' first
    | with_reducible assumption | intro _
    | (extract_lets +onlyGivenNames u₀; first | (refine Keeps.cut (m := b₀) (a := a₀) (s := u₀) ?_ fun _ => ?_ <;> [(unfold u₀; clear u₀); ((try clear_value u₀); revert u₀; intro _ _)]) | (revert u₀; intro _))
    | with_reducible apply State.setTrack_keeps | with_reducible apply State.emit_keeps
    | with_reducible apply Keeps.ite | split | (clear_value *; split)
    | (with_reducible refine Keeps.upd ?_ ?_ ?_ ?_ <;> [assumption; rfl; rfl; rfl])

theorem execDiverterRelease_keeps {b₀ : Bool} {a₀ s : State} (h : Keeps b₀ a₀ s) (c : Nat) {t₀ : State} (e : execDiverterRelease c s = .next t₀) : Keeps b₀ a₀ t₀ := by
  unfold execDiverterRelease at e
  obtain ⟨-, rfl⟩ := guardWF_next e
  repeat' first
    | with_reducible assumption | intro _ | with_reducible apply diverterRelease_keeps

theorem State.takeDisp_keeps {b₀ : Bool} {a₀ s : State} (h : Keeps b₀ a₀ s) (c : Nat) (d : Nat) : Keeps b₀ a₀ (State.takeDisp s c d) := by
  unfold State.takeDisp
  repeat' first
    | with_reducible assumption | intro _ | with_reducible apply State.ev_keeps | with_reducible apply State.wr_keeps
    | with_reducible apply State.closeDecision_keeps | with_reducible apply Keeps.ite | split
    | (clear_value *; split) | (with_reducible refine Keeps.upd ?_ ?_ ?_ ?_ <;> [assumption; rfl; rfl; rfl])

theorem execDispAnswer_keeps {b₀ : Bool} {a₀ s : State} (h : Keeps b₀ a₀ s) (v : Word) {t₀ : State} (e : execDispAnswer v s = .next t₀) : Keeps b₀ a₀ t₀ := by
  unfold execDispAnswer at e
  obtain ⟨-, rfl⟩ := guardWF_next e
  repeat' first
    | with_reducible assumption | intro _ | with_reducible apply State.hostWrite_keeps
    | with_reducible apply State.takeDisp_keeps | with_reducible apply Keeps.ite | split | (clear_value *; split)

theorem State.unitService_keeps {b₀ : Bool} {a₀ s : State} (h : Keeps b₀ a₀ s) (u : UnitId) : Keeps b₀ a₀ (State.unitService s u) := by
  unfold State.unitService
  repeat' first
    | with_reducible assumption | intro _
    | (extract_lets +onlyGivenNames u₀; first | (refine Keeps.cut (m := b₀) (a := a₀) (s := u₀) ?_ fun _ => ?_ <;> [(unfold u₀; clear u₀); ((try clear_value u₀); revert u₀; intro _ _)]) | (revert u₀; intro _))
    | with_reducible apply State.wr_keeps | with_reducible apply State.slotReturn_keeps
    | with_reducible apply State.settleReady_keeps | with_reducible apply Keeps.ite | split | (clear_value *; split)
    | (with_reducible refine Keeps.upd ?_ ?_ ?_ ?_ <;> [assumption; rfl; rfl; rfl])

theorem State.axesRejoin_keeps {b₀ : Bool} {a₀ s : State} (h : Keeps b₀ a₀ s) : Keeps b₀ a₀ (State.axesRejoin s) := by
  unfold State.axesRejoin
  repeat' first
    | with_reducible assumption | intro _
    | (extract_lets +onlyGivenNames u₀; first | (refine Keeps.cut (m := b₀) (a := a₀) (s := u₀) ?_ fun _ => ?_ <;> [(unfold u₀; clear u₀); ((try clear_value u₀); revert u₀; intro _ _)]) | (revert u₀; intro _))
    | (with_reducible refine Keeps.upd ?_ ?_ ?_ ?_ <;> [assumption; rfl; rfl; rfl])

theorem State.boundary_keeps {b₀ : Bool} {a₀ s : State} (h : Keeps b₀ a₀ s) : Keeps b₀ a₀ (State.boundary s) := by
  unfold State.boundary
  repeat' first
    | with_reducible assumption | intro _
    | (extract_lets +onlyGivenNames u₀; first | (refine Keeps.cut (m := b₀) (a := a₀) (s := u₀) ?_ fun _ => ?_ <;> [(unfold u₀; clear u₀); ((try clear_value u₀); revert u₀; intro _ _)]) | (revert u₀; intro _))
    | with_reducible apply State.ev_keeps | with_reducible apply State.axesRejoin_keeps
    | with_reducible apply State.slotBoundary_keeps | with_reducible apply State.unitService_keeps
    | with_reducible apply Keeps.foldl | with_reducible apply Keeps.foldlSnd | with_reducible apply Keeps.foldlFst
    | with_reducible apply Keeps.ite | split | (clear_value *; split)
    | (with_reducible refine Keeps.upd ?_ ?_ ?_ ?_ <;> [assumption; rfl; rfl; rfl])

theorem sheetBoundary_keeps {b₀ : Bool} {a₀ s : State} (h : Keeps b₀ a₀ s) (c : Nat) : Keeps b₀ a₀ (sheetBoundary c s) := by
  unfold sheetBoundary
  repeat' first
    | with_reducible assumption | intro _
    | (extract_lets +onlyGivenNames u₀; first | (refine Keeps.cut (m := b₀) (a := a₀) (s := u₀) ?_ fun _ => ?_ <;> [(unfold u₀; clear u₀); ((try clear_value u₀); revert u₀; intro _ _)]) | (revert u₀; intro _))
    | with_reducible apply State.boundary_keeps | with_reducible apply State.broadcast_keeps
    | with_reducible apply State.setTrack_keeps | with_reducible apply Keeps.ite | split | (clear_value *; split)
    | (with_reducible refine Keeps.upd ?_ ?_ ?_ ?_ <;> [assumption; rfl; rfl; rfl])

theorem execSheetBoundary_keeps {b₀ : Bool} {a₀ s : State} (h : Keeps b₀ a₀ s) (c : Nat) {t₀ : State} (e : execSheetBoundary c s = .next t₀) : Keeps b₀ a₀ t₀ := by
  unfold execSheetBoundary at e
  obtain ⟨-, rfl⟩ := guardWF_next e
  repeat' first
    | with_reducible assumption | intro _ | with_reducible apply sheetBoundary_keeps

theorem State.webRuns_keeps {b₀ : Bool} {a₀ s : State} (h : Keeps b₀ a₀ s) (w : Int) : Keeps b₀ a₀ (State.webRuns s w) := by
  unfold State.webRuns
  repeat' first
    | with_reducible assumption | intro _
    | (extract_lets +onlyGivenNames u₀; first | (refine Keeps.cut (m := b₀) (a := a₀) (s := u₀) ?_ fun _ => ?_ <;> [(unfold u₀; clear u₀); ((try clear_value u₀); revert u₀; intro _ _)]) | (revert u₀; intro _))
    | with_reducible apply State.wr_keeps | with_reducible apply State.wrS_keeps | with_reducible apply Keeps.ite
    | split | (clear_value *; split) | (with_reducible refine Keeps.upd ?_ ?_ ?_ ?_ <;> [assumption; rfl; rfl; rfl])

theorem webRunStart_keeps {b₀ : Bool} {a₀ s : State} (h : Keeps b₀ a₀ s) : Keeps b₀ a₀ (webRunStart s) := by
  unfold webRunStart
  repeat' first
    | with_reducible assumption | intro _
    | (extract_lets +onlyGivenNames u₀; first | (refine Keeps.cut (m := b₀) (a := a₀) (s := u₀) ?_ fun _ => ?_ <;> [(unfold u₀; clear u₀); ((try clear_value u₀); revert u₀; intro _ _)]) | (revert u₀; intro _))
    | with_reducible apply State.webRuns_keeps | with_reducible apply State.broadcast_keeps
    | with_reducible apply Keeps.ite | split | (clear_value *; split)
    | (with_reducible refine Keeps.upd ?_ ?_ ?_ ?_ <;> [assumption; rfl; rfl; rfl])

theorem execWebRunStart_keeps {b₀ : Bool} {a₀ s : State} (h : Keeps b₀ a₀ s) {t₀ : State} (e : execWebRunStart s = .next t₀) : Keeps b₀ a₀ t₀ := by
  unfold execWebRunStart at e
  obtain ⟨-, rfl⟩ := guardWF_next e
  repeat' first
    | with_reducible assumption | intro _ | with_reducible apply webRunStart_keeps

theorem frameDeadline_keeps {b₀ : Bool} {a₀ s : State} (h : Keeps b₀ a₀ s) : Keeps b₀ a₀ (frameDeadline s) := by
  unfold frameDeadline
  repeat' first
    | with_reducible assumption | intro _ | with_reducible apply State.ev_keeps
    | with_reducible apply State.webStop_keeps | with_reducible apply Keeps.ite | split | (clear_value *; split)
    | (with_reducible refine Keeps.upd ?_ ?_ ?_ ?_ <;> [assumption; rfl; rfl; rfl])

theorem execFrameDeadline_keeps {b₀ : Bool} {a₀ s : State} (h : Keeps b₀ a₀ s) {t₀ : State} (e : execFrameDeadline s = .next t₀) : Keeps b₀ a₀ t₀ := by
  unfold execFrameDeadline at e
  obtain ⟨-, rfl⟩ := guardWF_next e
  repeat' first
    | with_reducible assumption | intro _ | with_reducible apply frameDeadline_keeps

theorem webStopCmd_keeps {b₀ : Bool} {a₀ s : State} (h : Keeps b₀ a₀ s) : Keeps b₀ a₀ (webStopCmd s) := by
  unfold webStopCmd
  repeat' first
    | with_reducible assumption | intro _ | with_reducible apply State.webStop_keeps
    | with_reducible apply State.pthRefuse_keeps | with_reducible apply Keeps.ite | split | (clear_value *; split)

theorem execWebStop_keeps {b₀ : Bool} {a₀ s : State} (h : Keeps b₀ a₀ s) {t₀ : State} (e : execWebStop s = .next t₀) : Keeps b₀ a₀ t₀ := by
  unfold execWebStop at e
  obtain ⟨-, rfl⟩ := guardWF_next e
  repeat' first
    | with_reducible assumption | intro _ | with_reducible apply State.hostWrite_keeps | with_reducible apply webStopCmd_keeps

theorem State.showLast_keeps {b₀ : Bool} {a₀ s : State} (h : Keeps b₀ a₀ s) : Keeps b₀ a₀ (State.showLast s) := by
  unfold State.showLast
  repeat' first
    | with_reducible assumption | intro _
    | (extract_lets +onlyGivenNames u₀; first | (refine Keeps.cut (m := b₀) (a := a₀) (s := u₀) ?_ fun _ => ?_ <;> [(unfold u₀; clear u₀); ((try clear_value u₀); revert u₀; intro _ _)]) | (revert u₀; intro _))
    | with_reducible apply State.wr_keeps | with_reducible apply Keeps.foldl | with_reducible apply Keeps.foldlSnd
    | with_reducible apply Keeps.foldlFst | split | (clear_value *; split)
    | (with_reducible refine Keeps.upd ?_ ?_ ?_ ?_ <;> [assumption; rfl; rfl; rfl])

theorem State.reportDrain_keeps {b₀ : Bool} {a₀ s : State} (h : Keeps b₀ a₀ s) : Keeps b₀ a₀ (State.reportDrain s) := by
  unfold State.reportDrain
  repeat' first
    | with_reducible assumption | intro _
    | (extract_lets +onlyGivenNames u₀; first | (refine Keeps.cut (m := b₀) (a := a₀) (s := u₀) ?_ fun _ => ?_ <;> [(unfold u₀; clear u₀); ((try clear_value u₀); revert u₀; intro _ _)]) | (revert u₀; intro _))
    | with_reducible apply State.upward_keeps | with_reducible apply Keeps.foldl
    | with_reducible apply Keeps.foldlSnd | with_reducible apply Keeps.foldlFst | with_reducible apply Keeps.ite
    | split | (clear_value *; split) | (with_reducible refine Keeps.upd ?_ ?_ ?_ ?_ <;> [assumption; rfl; rfl; rfl])

theorem webDrainDone_keeps {b₀ : Bool} {a₀ s : State} (h : Keeps b₀ a₀ s) : Keeps b₀ a₀ (webDrainDone s) := by
  unfold webDrainDone
  repeat' first
    | with_reducible assumption | intro _
    | (extract_lets +onlyGivenNames u₀; first | (refine Keeps.cut (m := b₀) (a := a₀) (s := u₀) ?_ fun _ => ?_ <;> [(unfold u₀; clear u₀); ((try clear_value u₀); revert u₀; intro _ _)]) | (revert u₀; intro _))
    | with_reducible apply State.wr_keeps | with_reducible apply State.showLast_keeps
    | with_reducible apply State.reportDrain_keeps | with_reducible apply State.axStop_keeps | with_reducible apply Keeps.ite
    | split | (clear_value *; split) | (with_reducible refine Keeps.upd ?_ ?_ ?_ ?_ <;> [assumption; rfl; rfl; rfl])

theorem execWebDrainDone_keeps {b₀ : Bool} {a₀ s : State} (h : Keeps b₀ a₀ s) {t₀ : State} (e : execWebDrainDone s = .next t₀) : Keeps b₀ a₀ t₀ := by
  unfold execWebDrainDone at e
  obtain ⟨-, rfl⟩ := guardWF_next e
  repeat' first
    | with_reducible assumption | intro _ | with_reducible apply webDrainDone_keeps

theorem State.startBackup_keeps {b₀ : Bool} {a₀ s : State} (h : Keeps b₀ a₀ s) : Keeps b₀ a₀ (State.startBackup s) := by
  unfold State.startBackup
  repeat' first
    | with_reducible assumption | intro _
    | (extract_lets +onlyGivenNames u₀; first | (refine Keeps.cut (m := b₀) (a := a₀) (s := u₀) ?_ fun _ => ?_ <;> [(unfold u₀; clear u₀); ((try clear_value u₀); revert u₀; intro _ _)]) | (revert u₀; intro _))
    | with_reducible apply State.wr_keeps | with_reducible apply State.startMove_keeps
    | with_reducible apply State.closeDecision_keeps | with_reducible apply Keeps.ite | split | (clear_value *; split)

theorem State.webIdle_keeps {b₀ : Bool} {a₀ s : State} (h : Keeps b₀ a₀ s) : Keeps b₀ a₀ (State.webIdle s) := by
  unfold State.webIdle
  repeat' first
    | with_reducible assumption | intro _ | with_reducible apply State.webForget_keeps
    | with_reducible apply State.wr_keeps
    | (with_reducible refine Keeps.upd ?_ ?_ ?_ ?_ <;> [assumption; rfl; rfl; rfl])

theorem webDecelAtRest_keeps {b₀ : Bool} {a₀ s : State} (h : Keeps b₀ a₀ s) : Keeps b₀ a₀ (webDecelAtRest s) := by
  unfold webDecelAtRest
  repeat' first
    | with_reducible assumption | intro _
    | (extract_lets +onlyGivenNames u₀; first | (refine Keeps.cut (m := b₀) (a := a₀) (s := u₀) ?_ fun _ => ?_ <;> [(unfold u₀; clear u₀); ((try clear_value u₀); revert u₀; intro _ _)]) | (revert u₀; intro _))
    | with_reducible apply State.webIdle_keeps | with_reducible apply State.wr_keeps | with_reducible apply State.post_keeps
    | with_reducible apply State.startBackup_keeps | with_reducible apply Keeps.ite | split | (clear_value *; split)

theorem execWebDecelAtRest_keeps {b₀ : Bool} {a₀ s : State} (h : Keeps b₀ a₀ s) {t₀ : State} (e : execWebDecelAtRest s = .next t₀) : Keeps b₀ a₀ t₀ := by
  unfold execWebDecelAtRest at e
  obtain ⟨-, rfl⟩ := guardWF_next e
  repeat' first
    | with_reducible assumption | intro _ | with_reducible apply webDecelAtRest_keeps

theorem webBackup_keeps {b₀ : Bool} {a₀ s : State} (h : Keeps b₀ a₀ s) : Keeps b₀ a₀ (webBackup s) := by
  unfold webBackup
  repeat' first
    | with_reducible assumption | intro _ | with_reducible apply State.startBackup_keeps
    | with_reducible apply State.pthRefuse_keeps | with_reducible apply Keeps.ite | split | (clear_value *; split)

theorem execWebBackup_keeps {b₀ : Bool} {a₀ s : State} (h : Keeps b₀ a₀ s) {t₀ : State} (e : execWebBackup s = .next t₀) : Keeps b₀ a₀ t₀ := by
  unfold execWebBackup at e
  obtain ⟨-, rfl⟩ := guardWF_next e
  repeat' first
    | with_reducible assumption | intro _ | with_reducible apply State.hostWrite_keeps | with_reducible apply webBackup_keeps

theorem webHold_keeps {b₀ : Bool} {a₀ s : State} (h : Keeps b₀ a₀ s) : Keeps b₀ a₀ (webHold s) := by
  unfold webHold
  repeat' first
    | with_reducible assumption | intro _ | with_reducible apply State.wr_keeps | with_reducible apply State.closeDecision_keeps
    | with_reducible apply State.pthRefuse_keeps | with_reducible apply Keeps.ite | split | (clear_value *; split)

theorem execWebHold_keeps {b₀ : Bool} {a₀ s : State} (h : Keeps b₀ a₀ s) {t₀ : State} (e : execWebHold s = .next t₀) : Keeps b₀ a₀ t₀ := by
  unfold execWebHold at e
  obtain ⟨-, rfl⟩ := guardWF_next e
  repeat' first
    | with_reducible assumption | intro _ | with_reducible apply State.hostWrite_keeps | with_reducible apply webHold_keeps

theorem webBackupAtRest_keeps {b₀ : Bool} {a₀ s : State} (h : Keeps b₀ a₀ s) : Keeps b₀ a₀ (webBackupAtRest s) := by
  unfold webBackupAtRest
  repeat' first
    | with_reducible assumption | intro _ | with_reducible apply State.wr_keeps | with_reducible apply Keeps.ite | split
    | (clear_value *; split)

theorem execWebBackupAtRest_keeps {b₀ : Bool} {a₀ s : State} (h : Keeps b₀ a₀ s) {t₀ : State} (e : execWebBackupAtRest s = .next t₀) : Keeps b₀ a₀ t₀ := by
  unfold execWebBackupAtRest at e
  obtain ⟨-, rfl⟩ := guardWF_next e
  repeat' first
    | with_reducible assumption | intro _ | with_reducible apply webBackupAtRest_keeps

theorem webResume_keeps {b₀ : Bool} {a₀ s : State} (h : Keeps b₀ a₀ s) : Keeps b₀ a₀ (webResume s) := by
  unfold webResume
  repeat' first
    | with_reducible assumption | intro _
    | (extract_lets +onlyGivenNames u₀; first | (refine Keeps.cut (m := b₀) (a := a₀) (s := u₀) ?_ fun _ => ?_ <;> [(unfold u₀; clear u₀); ((try clear_value u₀); revert u₀; intro _ _)]) | (revert u₀; intro _))
    | with_reducible apply State.wrS_keeps | with_reducible apply State.startVelocity_keeps
    | with_reducible apply State.wr_keeps | with_reducible apply Keeps.ite | split | (clear_value *; split)

theorem execWebResume_keeps {b₀ : Bool} {a₀ s : State} (h : Keeps b₀ a₀ s) {t₀ : State} (e : execWebResume s = .next t₀) : Keeps b₀ a₀ t₀ := by
  unfold execWebResume at e
  obtain ⟨-, rfl⟩ := guardWF_next e
  repeat' first
    | with_reducible assumption | intro _ | with_reducible apply webResume_keeps

theorem State.webRunAgain_keeps {b₀ : Bool} {a₀ s : State} (h : Keeps b₀ a₀ s) : Keeps b₀ a₀ (State.webRunAgain s) := by
  unfold State.webRunAgain
  repeat' first
    | with_reducible assumption | intro _
    | (extract_lets +onlyGivenNames u₀; first | (refine Keeps.cut (m := b₀) (a := a₀) (s := u₀) ?_ fun _ => ?_ <;> [(unfold u₀; clear u₀); ((try clear_value u₀); revert u₀; intro _ _)]) | (refine Keeps.cut (m := b₀) (a := a₀) (s := u₀.2) ?_ fun _ => ?_ <;> [(unfold u₀; clear u₀); ((try clear_value u₀); revert u₀; intro _ _)]) | (revert u₀; intro _))
    | with_reducible apply State.wr_keeps | with_reducible apply State.webStop_keeps | with_reducible apply Keeps.ite
    | with_reducible apply Keeps.iteSnd | split | (clear_value *; split)
    | (with_reducible refine Keeps.upd ?_ ?_ ?_ ?_ <;> [assumption; rfl; rfl; rfl])

theorem webAtSpeed_keeps {b₀ : Bool} {a₀ s : State} (h : Keeps b₀ a₀ s) : Keeps b₀ a₀ (webAtSpeed s) := by
  unfold webAtSpeed
  repeat' first
    | with_reducible assumption | intro _
    | (extract_lets +onlyGivenNames u₀; first | (refine Keeps.cut (m := b₀) (a := a₀) (s := u₀) ?_ fun _ => ?_ <;> [(unfold u₀; clear u₀); ((try clear_value u₀); revert u₀; intro _ _)]) | (revert u₀; intro _))
    | with_reducible apply State.ev_keeps | with_reducible apply State.webRunAgain_keeps
    | with_reducible apply State.wr_keeps | with_reducible apply Keeps.ite | split | (clear_value *; split)
    | (with_reducible refine Keeps.upd ?_ ?_ ?_ ?_ <;> [assumption; rfl; rfl; rfl])

theorem execWebAtSpeed_keeps {b₀ : Bool} {a₀ s : State} (h : Keeps b₀ a₀ s) {t₀ : State} (e : execWebAtSpeed s = .next t₀) : Keeps b₀ a₀ t₀ := by
  unfold execWebAtSpeed at e
  obtain ⟨-, rfl⟩ := guardWF_next e
  repeat' first
    | with_reducible assumption | intro _ | with_reducible apply webAtSpeed_keeps

theorem State.webRequest_keeps {b₀ : Bool} {a₀ s : State} (h : Keeps b₀ a₀ s) : Keeps b₀ a₀ (State.webRequest s) := by
  unfold State.webRequest
  repeat' first
    | with_reducible assumption | intro _
    | (extract_lets +onlyGivenNames u₀; first | (refine Keeps.cut (m := b₀) (a := a₀) (s := u₀) ?_ fun _ => ?_ <;> [(unfold u₀; clear u₀); ((try clear_value u₀); revert u₀; intro _ _)]) | (revert u₀; intro _))
    | with_reducible apply State.wrB_keeps | with_reducible apply State.requestGate_keeps | with_reducible apply Keeps.ite
    | split | (clear_value *; split)

theorem State.webDisarmed_keeps {b₀ : Bool} {a₀ s : State} (h : Keeps b₀ a₀ s) : Keeps b₀ a₀ (State.webDisarmed s) := by
  unfold State.webDisarmed
  repeat' first
    | with_reducible assumption | intro _
    | (extract_lets +onlyGivenNames u₀; first | (refine Keeps.cut (m := b₀) (a := a₀) (s := u₀) ?_ fun _ => ?_ <;> [(unfold u₀; clear u₀); ((try clear_value u₀); revert u₀; intro _ _)]) | (revert u₀; intro _))
    | with_reducible apply State.axStop_keeps | with_reducible apply State.wr_keeps | with_reducible apply Keeps.ite
    | split | (clear_value *; split) | (with_reducible refine Keeps.upd ?_ ?_ ?_ ?_ <;> [assumption; rfl; rfl; rfl])

theorem plannerTick_keeps {b₀ : Bool} {a₀ s : State} (h : Keeps b₀ a₀ s) (overrun : Option Nat) : Keeps b₀ a₀ (plannerTick overrun s) := by
  unfold plannerTick
  repeat' first
    | with_reducible assumption | intro _ | with_reducible apply tickAxes_keeps | with_reducible apply State.trackRate_keeps
    | with_reducible apply State.countFast_keeps | with_reducible apply State.webRequest_keeps
    | with_reducible apply State.webDisarmed_keeps | with_reducible apply Keeps.ite | split | (clear_value *; split)

end Sys2Proof.Machine
end

