-- ==== Sys2Proof/Laws/KeepsEio.lean ====
section
/-! SUPPORT. Every operation of Machine/Eio.lean keeps what `Keeps` says. -/

namespace Sys2Proof.Machine

open Sys2Proof

set_option linter.unusedTactic false

set_option linter.unreachableTactic false

theorem State.releaseWhere_keeps {b₀ : Bool} {a₀ s : State} (h : Keeps b₀ a₀ s) (p : Nat → Bool) : Keeps b₀ a₀ (State.releaseWhere p s) := by
  unfold State.releaseWhere
  repeat' first
    | with_reducible assumption | intro _ | with_reducible apply State.emit_keeps | with_reducible apply Keeps.foldl
    | with_reducible apply Keeps.foldlSnd | with_reducible apply Keeps.foldlFst | with_reducible apply Keeps.ite
    | split | (clear_value *; split) | (with_reducible refine Keeps.upd ?_ ?_ ?_ ?_ <;> [assumption; rfl; rfl; rfl])

theorem State.releasePins_keeps {b₀ : Bool} {a₀ s : State} (h : Keeps b₀ a₀ s) : Keeps b₀ a₀ (State.releasePins s) := by
  unfold State.releasePins
  repeat' first
    | with_reducible assumption | intro _ | with_reducible apply State.releaseWhere_keeps
    | (with_reducible refine Keeps.upd ?_ ?_ ?_ ?_ <;> [assumption; rfl; rfl; rfl])

theorem wiringFault_keeps {b₀ : Bool} {a₀ s : State} (h : Keeps b₀ a₀ s) (n : Nat) (f : WireFlag) : Keeps b₀ a₀ (wiringFault n f s) := by
  unfold wiringFault
  repeat' first
    | with_reducible assumption | intro _ | with_reducible apply State.ev_keeps | with_reducible apply Keeps.ite | split
    | (clear_value *; split)

theorem execWiringFault_keeps {b₀ : Bool} {a₀ s : State} (h : Keeps b₀ a₀ s) (n : Nat) (f : WireFlag) {t₀ : State} (e : execWiringFault n f s = .next t₀) : Keeps b₀ a₀ t₀ := by
  unfold execWiringFault at e
  obtain ⟨-, rfl⟩ := guardWF_next e
  repeat' first
    | with_reducible assumption | intro _ | with_reducible apply wiringFault_keeps

theorem execWiringFaultEnd_keeps {b₀ : Bool} {a₀ s : State} (h : Keeps b₀ a₀ s) (n : Nat) (f : WireFlag) {t₀ : State} (e : execWiringFaultEnd n f s = .next t₀) : Keeps b₀ a₀ t₀ := by
  unfold execWiringFaultEnd at e
  obtain ⟨-, rfl⟩ := guardWF_next e
  repeat' first
    | with_reducible assumption | intro _ | with_reducible apply State.clr_keeps | with_reducible apply Keeps.ite | split
    | (clear_value *; split)

theorem overloadTrip_keeps {b₀ : Bool} {a₀ s : State} (h : Keeps b₀ a₀ s) (n : Nat) : Keeps b₀ a₀ (overloadTrip n s) := by
  unfold overloadTrip
  repeat' first
    | with_reducible assumption | intro _ | with_reducible apply State.ev_keeps | with_reducible apply State.emit_keeps
    | with_reducible apply Keeps.ite | split | (clear_value *; split)

theorem execOverloadTrip_keeps {b₀ : Bool} {a₀ s : State} (h : Keeps b₀ a₀ s) (n : Nat) {t₀ : State} (e : execOverloadTrip n s = .next t₀) : Keeps b₀ a₀ t₀ := by
  unfold execOverloadTrip at e
  obtain ⟨-, rfl⟩ := guardWF_next e
  repeat' first
    | with_reducible assumption | intro _ | with_reducible apply overloadTrip_keeps

theorem execOverloadClear_keeps {b₀ : Bool} {a₀ s : State} (h : Keeps b₀ a₀ s) (n : Nat) (v : Word) {t₀ : State} (e : execOverloadClear n v s = .next t₀) : Keeps b₀ a₀ t₀ := by
  unfold execOverloadClear at e
  obtain ⟨-, rfl⟩ := guardWF_next e
  repeat' first
    | with_reducible assumption | intro _ | with_reducible apply State.hostWrite_keeps | with_reducible apply State.clr_keeps
    | with_reducible apply Keeps.ite | split | (clear_value *; split)

theorem State.pinLevel_keeps {b₀ : Bool} {a₀ s : State} (h : Keeps b₀ a₀ s) (n : Nat) : Keeps b₀ a₀ (State.pinLevel s n).2 := by
  unfold State.pinLevel
  repeat' first
    | with_reducible assumption | intro _
    | (extract_lets +onlyGivenNames u₀; first | (refine Keeps.cut (m := b₀) (a := a₀) (s := u₀) ?_ fun _ => ?_ <;> [(unfold u₀; clear u₀); ((try clear_value u₀); revert u₀; intro _ _)]) | (revert u₀; intro _))
    | with_reducible apply State.boundary_keeps | with_reducible apply State.fresh_keeps | split | (clear_value *; split)
    | (with_reducible refine Keeps.upd ?_ ?_ ?_ ?_ <;> [assumption; rfl; rfl; rfl])

theorem tapExtest_keeps {b₀ : Bool} {a₀ s : State} (h : Keeps b₀ a₀ s) (b : List (Nat × Bool)) : Keeps b₀ a₀ (tapExtest b s) := by
  unfold tapExtest
  repeat' first
    | with_reducible assumption | intro _
    | (extract_lets +onlyGivenNames u₀; first | (refine Keeps.cut (m := b₀) (a := a₀) (s := u₀) ?_ fun _ => ?_ <;> [(unfold u₀; clear u₀); ((try clear_value u₀); revert u₀; intro _ _)]) | (revert u₀; intro _))
    | with_reducible apply State.emit_keeps | with_reducible apply State.boundary_keeps | with_reducible apply Keeps.foldl
    | with_reducible apply Keeps.foldlSnd | with_reducible apply Keeps.foldlFst | with_reducible apply Keeps.ite | split
    | (clear_value *; split) | (with_reducible refine Keeps.upd ?_ ?_ ?_ ?_ <;> [assumption; rfl; rfl; rfl])

theorem execTapExtest_keeps {b₀ : Bool} {a₀ s : State} (h : Keeps b₀ a₀ s) (b : List (Nat × Bool)) {t₀ : State} (e : execTapExtest b s = .next t₀) : Keeps b₀ a₀ t₀ := by
  unfold execTapExtest at e
  obtain ⟨-, rfl⟩ := guardWF_next e
  repeat' first
    | with_reducible assumption | intro _ | with_reducible apply tapExtest_keeps

end Sys2Proof.Machine
end

