-- ==== Sys2Proof/Laws/KeepsArming.lean ====
section
/-! SUPPORT. Every operation of Machine/Arming.lean keeps what `Keeps` says. -/

namespace Sys2Proof.Machine

open Sys2Proof

set_option linter.unusedTactic false

set_option linter.unreachableTactic false

theorem State.setLdr_keeps {b₀ : Bool} {a₀ s : State} (h : Keeps b₀ a₀ s) (st : LdrState) : Keeps b₀ a₀ (State.setLdr s st) := by
  unfold State.setLdr
  repeat' first
    | with_reducible assumption | intro _
    | (extract_lets +onlyGivenNames u₀; first | (refine Keeps.cut (m := b₀) (a := a₀) (s := u₀) ?_ fun _ => ?_ <;> [(unfold u₀; clear u₀); ((try clear_value u₀); revert u₀; intro _ _)]) | (revert u₀; intro _))
    | with_reducible apply State.globalIrq_keeps | with_reducible apply Keeps.ite | split | (clear_value *; split)
    | (with_reducible refine Keeps.upd ?_ ?_ ?_ ?_ <;> [assumption; rfl; rfl; rfl])

theorem State.disarmNow_keeps {b₀ : Bool} {a₀ s : State} (h : Keeps b₀ a₀ s) : Keeps b₀ a₀ (State.disarmNow s) := by
  unfold State.disarmNow
  repeat' first
    | with_reducible assumption | intro _ | with_reducible apply State.setLdr_keeps | with_reducible apply State.broadcast_keeps
    | with_reducible apply Keeps.ite | split | (clear_value *; split)

theorem State.disarmEnd_keeps {b₀ : Bool} {a₀ s : State} (h : Keeps b₀ a₀ s) : Keeps b₀ a₀ (State.disarmEnd s) := by
  unfold State.disarmEnd
  repeat' first
    | with_reducible assumption | intro _ | with_reducible apply State.setLdr_keeps | with_reducible apply Keeps.ite | split
    | (clear_value *; split)

end Sys2Proof.Machine
end

