-- ==== Sys2Proof/Laws/KeepsCalib.lean ====
section
/-! SUPPORT. Every operation of Machine/Calib.lean keeps what `Keeps` says. -/

namespace Sys2Proof.Machine

open Sys2Proof

set_option linter.unusedTactic false

set_option linter.unreachableTactic false

theorem State.sensorDies_keeps {b₀ : Bool} {a₀ s : State} (h : Keeps b₀ a₀ s) (i : Nat) : Keeps b₀ a₀ (State.sensorDies s i) := by
  unfold State.sensorDies
  repeat' first
    | with_reducible assumption | intro _ | with_reducible apply State.wrS_keeps | with_reducible apply State.ev_keeps

theorem State.setRef_keeps {b₀ : Bool} {a₀ s : State} (h : Keeps b₀ a₀ s) (i : Nat) (t : Int) : Keeps b₀ a₀ (State.setRef s i t) := by
  unfold State.setRef
  repeat' first
    | with_reducible assumption | intro _
    | (extract_lets +onlyGivenNames u₀; first | (refine Keeps.cut (m := b₀) (a := a₀) (s := u₀) ?_ fun _ => ?_ <;> [(unfold u₀; clear u₀); ((try clear_value u₀); revert u₀; intro _ _)]) | (revert u₀; intro _))
    | (with_reducible refine Keeps.upd ?_ ?_ ?_ ?_ <;> [assumption; rfl; rfl; rfl])

theorem State.rateCheck_keeps {b₀ : Bool} {a₀ s : State} (h : Keeps b₀ a₀ s) (i : Nat) (t : Int) : Keeps b₀ a₀ (State.rateCheck s i t) := by
  unfold State.rateCheck
  repeat' first
    | with_reducible assumption | intro _
    | (extract_lets +onlyGivenNames u₀; first | (refine Keeps.cut (m := b₀) (a := a₀) (s := u₀) ?_ fun _ => ?_ <;> [(unfold u₀; clear u₀); ((try clear_value u₀); revert u₀; intro _ _)]) | (revert u₀; intro _))
    | with_reducible apply State.setRef_keeps | with_reducible apply State.wrS_keeps | with_reducible apply State.ev_keeps
    | with_reducible apply Keeps.ite | split | (clear_value *; split)
    | (with_reducible refine Keeps.upd ?_ ?_ ?_ ?_ <;> [assumption; rfl; rfl; rfl])

theorem State.recalBegin_keeps {b₀ : Bool} {a₀ s : State} (h : Keeps b₀ a₀ s) (k : Nat) : Keeps b₀ a₀ (State.recalBegin s k) := by
  unfold State.recalBegin
  repeat' first
    | with_reducible assumption | intro _
    | (extract_lets +onlyGivenNames u₀; first | (refine Keeps.cut (m := b₀) (a := a₀) (s := u₀) ?_ fun _ => ?_ <;> [(unfold u₀; clear u₀); ((try clear_value u₀); revert u₀; intro _ _)]) | (revert u₀; intro _))
    | with_reducible apply State.clr_keeps | with_reducible apply State.ev_keeps | with_reducible apply State.setStn_keeps
    | with_reducible apply State.settleReady_keeps
    | (with_reducible refine Keeps.upd ?_ ?_ ?_ ?_ <;> [assumption; rfl; rfl; rfl])

theorem State.recalRequest_keeps {b₀ : Bool} {a₀ s : State} (h : Keeps b₀ a₀ s) (k : Nat) : Keeps b₀ a₀ (State.recalRequest s k) := by
  unfold State.recalRequest
  repeat' first
    | with_reducible assumption | intro _ | with_reducible apply State.ev_keeps | with_reducible apply State.recalBegin_keeps
    | with_reducible apply Keeps.ite | split | (clear_value *; split)

theorem State.stationPass_keeps {b₀ : Bool} {a₀ s : State} (h : Keeps b₀ a₀ s) (k : Nat) : Keeps b₀ a₀ (State.stationPass s k) := by
  unfold State.stationPass
  repeat' first
    | with_reducible assumption | intro _
    | (extract_lets +onlyGivenNames u₀; first | (refine Keeps.cut (m := b₀) (a := a₀) (s := u₀) ?_ fun _ => ?_ <;> [(unfold u₀; clear u₀); ((try clear_value u₀); revert u₀; intro _ _)]) | (revert u₀; intro _))
    | with_reducible apply State.wrS_keeps | with_reducible apply State.clr_keeps | split | (clear_value *; split)
    | (with_reducible refine Keeps.upd ?_ ?_ ?_ ?_ <;> [assumption; rfl; rfl; rfl])

theorem State.calFailure_keeps {b₀ : Bool} {a₀ s : State} (h : Keeps b₀ a₀ s) (step : Nat) (unit_ : Nat) : Keeps b₀ a₀ (State.calFailure s step unit_) := by
  unfold State.calFailure
  repeat' first
    | with_reducible assumption | intro _ | with_reducible apply State.wr_keeps | with_reducible apply State.ev_keeps

theorem State.stationFail_keeps {b₀ : Bool} {a₀ s : State} (h : Keeps b₀ a₀ s) (k : Nat) : Keeps b₀ a₀ (State.stationFail s k) := by
  unfold State.stationFail
  repeat' first
    | with_reducible assumption | intro _
    | (extract_lets +onlyGivenNames u₀; first | (refine Keeps.cut (m := b₀) (a := a₀) (s := u₀) ?_ fun _ => ?_ <;> [(unfold u₀; clear u₀); ((try clear_value u₀); revert u₀; intro _ _)]) | (revert u₀; intro _))
    | with_reducible apply State.calFailure_keeps
    | (with_reducible refine Keeps.upd ?_ ?_ ?_ ?_ <;> [assumption; rfl; rfl; rfl])

theorem State.driftCheck_keeps {b₀ : Bool} {a₀ s : State} (h : Keeps b₀ a₀ s) (k : Nat) : Keeps b₀ a₀ (State.driftCheck s k) := by
  unfold State.driftCheck
  repeat' first
    | with_reducible assumption | intro _
    | (extract_lets +onlyGivenNames u₀; first | (refine Keeps.cut (m := b₀) (a := a₀) (s := u₀) ?_ fun _ => ?_ <;> [(unfold u₀; clear u₀); ((try clear_value u₀); revert u₀; intro _ _)]) | (revert u₀; intro _))
    | with_reducible apply State.ev_keeps | with_reducible apply State.post_keeps
    | with_reducible apply State.recalRequest_keeps | with_reducible apply Keeps.ite | split | (clear_value *; split)
    | (with_reducible refine Keeps.upd ?_ ?_ ?_ ?_ <;> [assumption; rfl; rfl; rfl])

theorem State.calStart_keeps {b₀ : Bool} {a₀ s : State} (h : Keeps b₀ a₀ s) : Keeps b₀ a₀ (State.calStart s) := by
  unfold State.calStart
  repeat' first
    | with_reducible assumption | intro _
    | (extract_lets +onlyGivenNames u₀; first | (refine Keeps.cut (m := b₀) (a := a₀) (s := u₀) ?_ fun _ => ?_ <;> [(unfold u₀; clear u₀); ((try clear_value u₀); revert u₀; intro _ _)]) | (revert u₀; intro _))
    | with_reducible apply State.wr_keeps | with_reducible apply State.clr_keeps
    | (with_reducible refine Keeps.upd ?_ ?_ ?_ ?_ <;> [assumption; rfl; rfl; rfl])

theorem State.calSensors_keeps {b₀ : Bool} {a₀ s : State} (h : Keeps b₀ a₀ s) (temps : List Int) : Keeps b₀ a₀ (State.calSensors s temps) := by
  unfold State.calSensors
  repeat' first
    | with_reducible assumption | intro _
    | (extract_lets +onlyGivenNames u₀; first | (refine Keeps.cut (m := b₀) (a := a₀) (s := u₀) ?_ fun _ => ?_ <;> [(unfold u₀; clear u₀); ((try clear_value u₀); revert u₀; intro _ _)]) | (revert u₀; intro _))
    | with_reducible apply State.count_keeps | with_reducible apply State.clr_keeps
    | with_reducible apply State.sensorDies_keeps | with_reducible apply State.wrS_keeps
    | with_reducible apply State.setRef_keeps | with_reducible apply Keeps.foldl | with_reducible apply Keeps.foldlSnd
    | with_reducible apply Keeps.foldlFst | with_reducible apply Keeps.ite | split | (clear_value *; split)

theorem State.calBad_keeps {b₀ : Bool} {a₀ s : State} (h : Keeps b₀ a₀ s) (step : Nat) (unit_ : Nat) : Keeps b₀ a₀ (State.calBad s step unit_) := by
  unfold State.calBad
  repeat' first
    | with_reducible assumption | intro _ | with_reducible apply State.calFailure_keeps | with_reducible apply State.ev_keeps

theorem calStepDone_keeps {b₀ : Bool} {a₀ s : State} (h : Keeps b₀ a₀ s) (ok : Bool) (failUnit : Nat) (temps : List Int) : Keeps b₀ a₀ (calStepDone ok failUnit temps s) := by
  unfold calStepDone
  repeat' first
    | with_reducible assumption | intro _
    | (extract_lets +onlyGivenNames u₀; first | (refine Keeps.cut (m := b₀) (a := a₀) (s := u₀) ?_ fun _ => ?_ <;> [(unfold u₀; clear u₀); ((try clear_value u₀); revert u₀; intro _ _)]) | (revert u₀; intro _))
    | with_reducible apply State.settleReady_keeps | with_reducible apply State.ev_keeps
    | with_reducible apply State.calSensors_keeps | with_reducible apply State.stationFail_keeps
    | with_reducible apply State.wr_keeps | with_reducible apply State.calBad_keeps
    | with_reducible apply State.stationPass_keeps | with_reducible apply Keeps.ite | split | (clear_value *; split)
    | (with_reducible refine Keeps.upd ?_ ?_ ?_ ?_ <;> [assumption; rfl; rfl; rfl])

theorem execCalStepDone_keeps {b₀ : Bool} {a₀ s : State} (h : Keeps b₀ a₀ s) (ok : Bool) (failUnit : Nat) (temps : List Int) {t₀ : State} (e : execCalStepDone ok failUnit temps s = .next t₀) : Keeps b₀ a₀ t₀ := by
  unfold execCalStepDone at e
  obtain ⟨-, rfl⟩ := guardWF_next e
  repeat' first
    | with_reducible assumption | intro _ | with_reducible apply calStepDone_keeps

theorem execMayflySweep_keeps {b₀ : Bool} {a₀ s : State} (h : Keeps b₀ a₀ s) {t₀ : State} (e : execMayflySweep s = .next t₀) : Keeps b₀ a₀ t₀ := by
  unfold execMayflySweep at e
  obtain ⟨-, rfl⟩ := guardWF_next e
  repeat' first
    | with_reducible assumption | intro _ | with_reducible apply State.ev_keeps | with_reducible apply Keeps.foldl
    | with_reducible apply Keeps.foldlSnd | with_reducible apply Keeps.foldlFst | with_reducible apply Keeps.ite | split
    | (clear_value *; split)

theorem execMayflyRequest_keeps {b₀ : Bool} {a₀ s : State} (h : Keeps b₀ a₀ s) (v : Word) {t₀ : State} (e : execMayflyRequest v s = .next t₀) : Keeps b₀ a₀ t₀ := by
  unfold execMayflyRequest at e
  obtain ⟨-, rfl⟩ := guardWF_next e
  repeat' first
    | with_reducible assumption | intro _ | with_reducible apply State.hostWrite_keeps | with_reducible apply State.ev_keeps
    | with_reducible apply Keeps.foldl | with_reducible apply Keeps.foldlSnd | with_reducible apply Keeps.foldlFst
    | with_reducible apply Keeps.ite | split | (clear_value *; split)

theorem mayflyConversionDone_keeps {b₀ : Bool} {a₀ s : State} (h : Keeps b₀ a₀ s) (temp : Option Int) : Keeps b₀ a₀ (mayflyConversionDone temp s) := by
  unfold mayflyConversionDone
  repeat' first
    | with_reducible assumption | intro _
    | (extract_lets +onlyGivenNames u₀; first | (refine Keeps.cut (m := b₀) (a := a₀) (s := u₀) ?_ fun _ => ?_ <;> [(unfold u₀; clear u₀); ((try clear_value u₀); revert u₀; intro _ _)]) | (revert u₀; intro _))
    | with_reducible apply State.clr_keeps | with_reducible apply State.count_keeps | with_reducible apply State.wrS_keeps
    | with_reducible apply State.rateCheck_keeps | with_reducible apply State.sensorDies_keeps
    | with_reducible apply State.driftCheck_keeps | with_reducible apply Keeps.ite | split | (clear_value *; split)
    | (with_reducible refine Keeps.upd ?_ ?_ ?_ ?_ <;> [assumption; rfl; rfl; rfl])

theorem execMayflyConversionDone_keeps {b₀ : Bool} {a₀ s : State} (h : Keeps b₀ a₀ s) (temp : Option Int) {t₀ : State} (e : execMayflyConversionDone temp s = .next t₀) : Keeps b₀ a₀ t₀ := by
  unfold execMayflyConversionDone at e
  obtain ⟨-, rfl⟩ := guardWF_next e
  repeat' first
    | with_reducible assumption | intro _ | with_reducible apply mayflyConversionDone_keeps

theorem State.calRefuse_keeps {b₀ : Bool} {a₀ s : State} (h : Keeps b₀ a₀ s) : Keeps b₀ a₀ (State.calRefuse s) := by
  unfold State.calRefuse
  repeat' first
    | with_reducible assumption | intro _ | with_reducible apply State.ev_keeps

theorem execRecal_keeps {b₀ : Bool} {a₀ s : State} (h : Keeps b₀ a₀ s) (v : Word) {t₀ : State} (e : execRecal v s = .next t₀) : Keeps b₀ a₀ t₀ := by
  unfold execRecal at e
  obtain ⟨-, rfl⟩ := guardWF_next e
  repeat' first
    | with_reducible assumption | intro _ | with_reducible apply State.hostWrite_keeps
    | with_reducible apply State.calRefuse_keeps | with_reducible apply State.recalRequest_keeps
    | with_reducible apply Keeps.ite | split | (clear_value *; split)

theorem execRecalStart_keeps {b₀ : Bool} {a₀ s : State} (h : Keeps b₀ a₀ s) (k : Nat) {t₀ : State} (e : execRecalStart k s = .next t₀) : Keeps b₀ a₀ t₀ := by
  unfold execRecalStart at e
  obtain ⟨-, rfl⟩ := guardWF_next e
  repeat' first
    | with_reducible assumption | intro _ | with_reducible apply State.recalBegin_keeps | with_reducible apply Keeps.ite | split
    | (clear_value *; split)

theorem recalDone_keeps {b₀ : Bool} {a₀ s : State} (h : Keeps b₀ a₀ s) (k : Nat) (ok : Bool) : Keeps b₀ a₀ (recalDone k ok s) := by
  unfold recalDone
  repeat' first
    | with_reducible assumption | intro _
    | (extract_lets +onlyGivenNames u₀; first | (refine Keeps.cut (m := b₀) (a := a₀) (s := u₀) ?_ fun _ => ?_ <;> [(unfold u₀; clear u₀); ((try clear_value u₀); revert u₀; intro _ _)]) | (refine Keeps.cut (m := b₀) (a := a₀) (s := u₀.st) ?_ fun _ => ?_ <;> [(unfold u₀; clear u₀); ((try clear_value u₀); revert u₀; intro _ _)]) | (revert u₀; intro _))
    | with_reducible apply State.clr_keeps | with_reducible apply State.setStn_keeps
    | with_reducible apply State.stationPass_keeps | with_reducible apply State.stationFail_keeps
    | with_reducible apply State.settleReady_keeps | with_reducible apply Keeps.ite | split | (clear_value *; split)
    | (with_reducible refine Keeps.upd ?_ ?_ ?_ ?_ <;> [assumption; rfl; rfl; rfl]) | dsimp only

theorem execRecalDone_keeps {b₀ : Bool} {a₀ s : State} (h : Keeps b₀ a₀ s) (k : Nat) (ok : Bool) {t₀ : State} (e : execRecalDone k ok s = .next t₀) : Keeps b₀ a₀ t₀ := by
  unfold execRecalDone at e
  obtain ⟨-, rfl⟩ := guardWF_next e
  repeat' first
    | with_reducible assumption | intro _ | with_reducible apply recalDone_keeps

theorem State.recalAbandon_keeps {b₀ : Bool} {a₀ s : State} (h : Keeps b₀ a₀ s) (k : Nat) : Keeps b₀ a₀ (State.recalAbandon s k) := by
  unfold State.recalAbandon
  repeat' first
    | with_reducible assumption | intro _
    | (extract_lets +onlyGivenNames u₀; first | (refine Keeps.cut (m := b₀) (a := a₀) (s := u₀) ?_ fun _ => ?_ <;> [(unfold u₀; clear u₀); ((try clear_value u₀); revert u₀; intro _ _)]) | (revert u₀; intro _))
    | with_reducible apply State.clr_keeps | with_reducible apply State.ev_keeps | with_reducible apply State.setStn_keeps
    | with_reducible apply Keeps.ite | split | (clear_value *; split)
    | (with_reducible refine Keeps.upd ?_ ?_ ?_ ?_ <;> [assumption; rfl; rfl; rfl])

theorem execSnap_keeps {b₀ : Bool} {a₀ s : State} (h : Keeps b₀ a₀ s) (v : Word) {t₀ : State} (e : execSnap v s = .next t₀) : Keeps b₀ a₀ t₀ := by
  unfold execSnap at e
  obtain ⟨-, rfl⟩ := guardWF_next e
  repeat' first
    | with_reducible assumption | intro _ | with_reducible apply State.hostWrite_keeps | with_reducible apply State.wr_keeps
    | with_reducible apply Keeps.foldl | with_reducible apply Keeps.foldlSnd | with_reducible apply Keeps.foldlFst
    | with_reducible apply Keeps.ite | split | (clear_value *; split)

theorem State.restoreTemps_keeps {b₀ : Bool} {a₀ s : State} (h : Keeps b₀ a₀ s) : Keeps b₀ a₀ (State.restoreTemps s) := by
  unfold State.restoreTemps
  repeat' first
    | with_reducible assumption | intro _
    | (extract_lets +onlyGivenNames u₀; first | (refine Keeps.cut (m := b₀) (a := a₀) (s := u₀) ?_ fun _ => ?_ <;> [(unfold u₀; clear u₀); ((try clear_value u₀); revert u₀; intro _ _)]) | (revert u₀; intro _))
    | with_reducible apply State.wr_keeps | with_reducible apply Keeps.foldl | with_reducible apply Keeps.foldlSnd
    | with_reducible apply Keeps.foldlFst
    | (with_reducible refine Keeps.upd ?_ ?_ ?_ ?_ <;> [assumption; rfl; rfl; rfl])

theorem execRestore_keeps {b₀ : Bool} {a₀ s : State} (h : Keeps b₀ a₀ s) (v : Word) {t₀ : State} (e : execRestore v s = .next t₀) : Keeps b₀ a₀ t₀ := by
  unfold execRestore at e
  obtain ⟨-, rfl⟩ := guardWF_next e
  repeat' first
    | with_reducible assumption | intro _
    | (extract_lets +onlyGivenNames u₀; first | (refine Keeps.cut (m := b₀) (a := a₀) (s := u₀) ?_ fun _ => ?_ <;> [(unfold u₀; clear u₀); ((try clear_value u₀); revert u₀; intro _ _)]) | (revert u₀; intro _))
    | with_reducible apply State.restoreTemps_keeps | with_reducible apply State.ev_keeps
    | with_reducible apply State.calRefuse_keeps | with_reducible apply State.wr_keeps
    | with_reducible apply State.hostWrite_keeps | with_reducible apply guardWF_keeps
    | with_reducible apply Keeps.ite | split | (clear_value *; split)
    | (with_reducible refine Keeps.upd ?_ ?_ ?_ ?_ <;> [assumption; rfl; rfl; rfl])

end Sys2Proof.Machine
end

