-- ==== Sys2Proof/Laws/KeepsDomains.lean ====
section
/-! SUPPORT. Every operation of Machine/Domains.lean keeps what `Keeps` says. -/

namespace Sys2Proof.Machine

open Sys2Proof

set_option linter.unusedTactic false

set_option linter.unreachableTactic false

theorem State.setBit_keeps {b₀ : Bool} {a₀ s : State} (h : Keeps b₀ a₀ s) (f : Fld) (n : Nat) (b : Bool) : Keeps b₀ a₀ (State.setBit s f n b) := by
  unfold State.setBit
  repeat' first
    | with_reducible assumption | intro _ | with_reducible apply State.wr_keeps

theorem State.compressorLost_keeps {b₀ : Bool} {a₀ s : State} (h : Keeps b₀ a₀ s) (l : Nat) : Keeps b₀ a₀ (State.compressorLost s l) := by
  unfold State.compressorLost
  repeat' first
    | with_reducible assumption | intro _
    | (extract_lets +onlyGivenNames u₀; first | (refine Keeps.cut (m := b₀) (a := a₀) (s := u₀) ?_ fun _ => ?_ <;> [(unfold u₀; clear u₀); ((try clear_value u₀); revert u₀; intro _ _)]) | (revert u₀; intro _))
    | with_reducible apply State.endDesc_keeps | with_reducible apply State.abandonBand_keeps | with_reducible apply Keeps.ite
    | split | (clear_value *; split) | (with_reducible refine Keeps.upd ?_ ?_ ?_ ?_ <;> [assumption; rfl; rfl; rfl])

theorem State.verifierLost_keeps {b₀ : Bool} {a₀ s : State} (h : Keeps b₀ a₀ s) (l : Nat) : Keeps b₀ a₀ (State.verifierLost s l) := by
  unfold State.verifierLost
  repeat' first
    | with_reducible assumption | intro _ | with_reducible apply State.bandBad_keeps | with_reducible apply Keeps.foldl
    | with_reducible apply Keeps.foldlSnd | with_reducible apply Keeps.foldlFst

theorem State.imagerLost_keeps {b₀ : Bool} {a₀ s : State} (h : Keeps b₀ a₀ s) (j : Nat) : Keeps b₀ a₀ (State.imagerLost s j) := by
  unfold State.imagerLost
  repeat' first
    | with_reducible assumption | intro _
    | (extract_lets +onlyGivenNames u₀; first | (refine Keeps.cut (m := b₀) (a := a₀) (s := u₀) ?_ fun _ => ?_ <;> [(unfold u₀; clear u₀); ((try clear_value u₀); revert u₀; intro _ _)]) | (refine Keeps.cut (m := b₀) (a := a₀) (s := u₀.2) ?_ fun _ => ?_ <;> [(unfold u₀; clear u₀); ((try clear_value u₀); revert u₀; intro _ _)]) | (revert u₀; intro _))
    | with_reducible apply State.imagingStop_keeps | with_reducible apply State.fresh_keeps
    | with_reducible apply State.take_keeps | with_reducible apply Keeps.foldl | with_reducible apply Keeps.foldlSnd
    | with_reducible apply Keeps.foldlFst | with_reducible apply Keeps.ite | with_reducible apply Keeps.iteSnd
    | split | (clear_value *; split) | (with_reducible refine Keeps.upd ?_ ?_ ?_ ?_ <;> [assumption; rfl; rfl; rfl])

theorem State.jobCut_keeps {a₀ s : State} (h : Keeps false a₀ s) (n : Nat) : Keeps false a₀ (State.jobCut s n) := by
  unfold State.jobCut
  repeat' first
    | with_reducible assumption | intro _
    | (extract_lets +onlyGivenNames u₀; first | (refine Keeps.cut (m := false) (a := a₀) (s := u₀) ?_ fun _ => ?_ <;> [(unfold u₀; clear u₀); ((try clear_value u₀); revert u₀; intro _ _)]) | (refine Keeps.cut (m := false) (a := a₀) (s := u₀.2) ?_ fun _ => ?_ <;> [(unfold u₀; clear u₀); ((try clear_value u₀); revert u₀; intro _ _)]) | (revert u₀; intro _))
    | with_reducible apply State.jobError_keeps | with_reducible apply State.fresh_keeps
    | with_reducible apply Keeps.ite | with_reducible apply Keeps.iteSnd | split | (clear_value *; split)
    | (with_reducible refine Keeps.upd ?_ ?_ ?_ ?_ <;> [assumption; rfl; rfl; rfl])

theorem State.engineLost_keeps {b₀ : Bool} {a₀ s : State} (h : Keeps b₀ a₀ s) (n : Nat) (st : Nat) : Keeps b₀ a₀ (State.engineLost s n st) := by
  unfold State.engineLost
  repeat' first
    | with_reducible assumption | intro _
    | (extract_lets +onlyGivenNames u₀; first | (refine Keeps.cut (m := b₀) (a := a₀) (s := u₀) ?_ fun _ => ?_ <;> [(unfold u₀; clear u₀); ((try clear_value u₀); revert u₀; intro _ _)]) | (revert u₀; intro _))
    | with_reducible apply State.compressorLost_keeps | with_reducible apply State.imagerLost_keeps
    | with_reducible apply State.verifierLost_keeps | with_reducible apply State.jobForget_keeps
    | with_reducible apply Keeps.ite | split | (clear_value *; split)

theorem State.engineIsolate_keeps {b₀ : Bool} {a₀ s : State} (h : Keeps b₀ a₀ s) (n : Nat) : Keeps b₀ a₀ (State.engineIsolate s n) := by
  unfold State.engineIsolate
  repeat' first
    | with_reducible assumption | intro _
    | (extract_lets +onlyGivenNames u₀; first | (refine Keeps.cut (m := b₀) (a := a₀) (s := u₀) ?_ fun _ => ?_ <;> [(unfold u₀; clear u₀); ((try clear_value u₀); revert u₀; intro _ _)]) | (revert u₀; intro _))
    | with_reducible apply State.engineLost_keeps
    | (with_reducible refine Keeps.upd ?_ ?_ ?_ ?_ <;> [assumption; rfl; rfl; rfl])

theorem State.axisIsolate_keeps {b₀ : Bool} {a₀ s : State} (h : Keeps b₀ a₀ s) (k : Nat) : Keeps b₀ a₀ (State.axisIsolate s k) := by
  unfold State.axisIsolate
  repeat' first
    | with_reducible assumption | intro _
    | (extract_lets +onlyGivenNames u₀; first | (refine Keeps.cut (m := b₀) (a := a₀) (s := u₀) ?_ fun _ => ?_ <;> [(unfold u₀; clear u₀); ((try clear_value u₀); revert u₀; intro _ _)]) | (revert u₀; intro _))
    | with_reducible apply State.axisOut_keeps | (with_reducible refine Keeps.upd ?_ ?_ ?_ ?_ <;> [assumption; rfl; rfl; rfl])

theorem State.stationIsolate_keeps {b₀ : Bool} {a₀ s : State} (h : Keeps b₀ a₀ s) (k : Nat) : Keeps b₀ a₀ (State.stationIsolate s k) := by
  unfold State.stationIsolate
  repeat' first
    | with_reducible assumption | intro _
    | (extract_lets +onlyGivenNames u₀; first | (refine Keeps.cut (m := b₀) (a := a₀) (s := u₀) ?_ fun _ => ?_ <;> [(unfold u₀; clear u₀); ((try clear_value u₀); revert u₀; intro _ _)]) | (revert u₀; intro _))
    | with_reducible apply State.recalAbandon_keeps | with_reducible apply State.spoilStation_keeps
    | with_reducible apply State.endStation_keeps | with_reducible apply State.clr_keeps
    | with_reducible apply State.setStn_keeps | with_reducible apply State.wr_keeps | with_reducible apply State.idle_keeps
    | (with_reducible refine Keeps.upd ?_ ?_ ?_ ?_ <;> [assumption; rfl; rfl; rfl])

theorem State.isolateUnit_keeps {b₀ : Bool} {a₀ s : State} (h : Keeps b₀ a₀ s) (u : UnitId) : Keeps b₀ a₀ (State.isolateUnit s u) := by
  unfold State.isolateUnit
  repeat' first
    | with_reducible assumption | intro _
    | (extract_lets +onlyGivenNames u₀; first | (refine Keeps.cut (m := b₀) (a := a₀) (s := u₀) ?_ fun _ => ?_ <;> [(unfold u₀; clear u₀); ((try clear_value u₀); revert u₀; intro _ _)]) | (revert u₀; intro _))
    | with_reducible apply State.engineIsolate_keeps | with_reducible apply State.axisIsolate_keeps
    | with_reducible apply State.slotIsolate_keeps | with_reducible apply State.stationIsolate_keeps | split
    | (clear_value *; split) | (with_reducible refine Keeps.upd ?_ ?_ ?_ ?_ <;> [assumption; rfl; rfl; rfl])

theorem State.restoreFields_keeps {b₀ : Bool} {a₀ s : State} (h : Keeps b₀ a₀ s) (p : Fld → Nat → Bool) : Keeps b₀ a₀ (State.restoreFields s p) := by
  unfold State.restoreFields
  repeat' first
    | with_reducible assumption | intro _
    | (extract_lets +onlyGivenNames u₀; first | (refine Keeps.cut (m := b₀) (a := a₀) (s := u₀) ?_ fun _ => ?_ <;> [(unfold u₀; clear u₀); ((try clear_value u₀); revert u₀; intro _ _)]) | (revert u₀; intro _))
    | with_reducible apply State.wr_keeps | with_reducible apply Keeps.foldl | with_reducible apply Keeps.foldlSnd
    | with_reducible apply Keeps.foldlFst | with_reducible apply Keeps.ite | split | (clear_value *; split)
    | (with_reducible refine Keeps.upd ?_ ?_ ?_ ?_ <;> [assumption; rfl; rfl; rfl])

theorem State.resetRestore_keeps {b₀ : Bool} {a₀ s : State} (h : Keeps b₀ a₀ s) (p : Fld → Nat → Bool) : Keeps b₀ a₀ (State.resetRestore s p) := by
  unfold State.resetRestore
  repeat' first
    | with_reducible assumption | intro _
    | (extract_lets +onlyGivenNames u₀; first | (refine Keeps.cut (m := b₀) (a := a₀) (s := u₀) ?_ fun _ => ?_ <;> [(unfold u₀; clear u₀); ((try clear_value u₀); revert u₀; intro _ _)]) | (revert u₀; intro _))
    | with_reducible apply State.resetFields_keeps | with_reducible apply State.restoreFields_keeps
    | with_reducible apply Keeps.ite | split | (clear_value *; split)

theorem State.unitReset_keeps {b₀ : Bool} {a₀ s : State} (h : Keeps b₀ a₀ s) (u : UnitId) : Keeps b₀ a₀ (State.unitReset s u) := by
  unfold State.unitReset
  repeat' first
    | with_reducible assumption | intro _
    | (extract_lets +onlyGivenNames u₀; first | (refine Keeps.cut (m := b₀) (a := a₀) (s := u₀) ?_ fun _ => ?_ <;> [(unfold u₀; clear u₀); ((try clear_value u₀); revert u₀; intro _ _)]) | (revert u₀; intro _))
    | with_reducible apply State.setJob_keeps | with_reducible apply State.setAxis_keeps
    | with_reducible apply State.setSlot_keeps | with_reducible apply State.setStn_keeps
    | with_reducible apply State.setLnk_keeps | with_reducible apply State.resetFields_keeps
    | with_reducible apply State.wr_keeps | split | (clear_value *; split)
    | (with_reducible refine Keeps.upd ?_ ?_ ?_ ?_ <;> [assumption; rfl; rfl; rfl])

theorem State.unitRestore_keeps {b₀ : Bool} {a₀ s : State} (h : Keeps b₀ a₀ s) (u : UnitId) : Keeps b₀ a₀ (State.unitRestore s u) := by
  unfold State.unitRestore
  repeat' first
    | with_reducible assumption | intro _ | with_reducible apply State.restoreFields_keeps | with_reducible apply Keeps.ite
    | split | (clear_value *; split)

theorem State.endPages_keeps {b₀ : Bool} {a₀ s : State} (h : Keeps b₀ a₀ s) : Keeps b₀ a₀ (State.endPages s) := by
  unfold State.endPages
  repeat' first
    | with_reducible assumption | intro _
    | (extract_lets +onlyGivenNames u₀; first | (refine Keeps.cut (m := b₀) (a := a₀) (s := u₀) ?_ fun _ => ?_ <;> [(unfold u₀; clear u₀); ((try clear_value u₀); revert u₀; intro _ _)]) | (revert u₀; intro _))
    | with_reducible apply State.darkenAll_keeps | with_reducible apply State.spoil_keeps
    | with_reducible apply State.finishAll_keeps | with_reducible apply Keeps.foldl | with_reducible apply Keeps.foldlSnd
    | with_reducible apply Keeps.foldlFst

theorem State.closeKinds_keeps {b₀ : Bool} {a₀ s : State} (h : Keeps b₀ a₀ s) (ks : List Nat) : Keeps b₀ a₀ (State.closeKinds s ks) := by
  unfold State.closeKinds
  repeat' first
    | with_reducible assumption | intro _
    | (extract_lets +onlyGivenNames u₀; first | (refine Keeps.cut (m := b₀) (a := a₀) (s := u₀) ?_ fun _ => ?_ <;> [(unfold u₀; clear u₀); ((try clear_value u₀); revert u₀; intro _ _)]) | (revert u₀; intro _))
    | (with_reducible refine Keeps.upd ?_ ?_ ?_ ?_ <;> [assumption; rfl; rfl; rfl])

theorem State.freeUnits_keeps {b₀ : Bool} {a₀ s : State} (h : Keeps b₀ a₀ s) (d : Dom) : Keeps b₀ a₀ (State.freeUnits s d) := by
  unfold State.freeUnits
  repeat' first
    | with_reducible assumption | intro _
    | (extract_lets +onlyGivenNames u₀; first | (refine Keeps.cut (m := b₀) (a := a₀) (s := u₀) ?_ fun _ => ?_ <;> [(unfold u₀; clear u₀); ((try clear_value u₀); revert u₀; intro _ _)]) | (revert u₀; intro _))
    | (with_reducible refine Keeps.upd ?_ ?_ ?_ ?_ <;> [assumption; rfl; rfl; rfl])

theorem State.resetCtl_keeps {b₀ : Bool} {a₀ s : State} (h : Keeps b₀ a₀ s) : Keeps b₀ a₀ (State.resetCtl s) := by
  unfold State.resetCtl
  repeat' first
    | with_reducible assumption | intro _
    | (extract_lets +onlyGivenNames u₀; first | (refine Keeps.cut (m := b₀) (a := a₀) (s := u₀) ?_ fun _ => ?_ <;> [(unfold u₀; clear u₀); ((try clear_value u₀); revert u₀; intro _ _)]) | (revert u₀; intro _))
    | with_reducible apply State.setStn_keeps | with_reducible apply State.endPages_keeps
    | with_reducible apply State.setLnk_keeps | with_reducible apply State.closeKinds_keeps
    | with_reducible apply State.setGate_keeps | with_reducible apply State.releaseWhere_keeps
    | with_reducible apply Keeps.foldl | with_reducible apply Keeps.foldlSnd | with_reducible apply Keeps.foldlFst
    | (with_reducible refine Keeps.upd ?_ ?_ ?_ ?_ <;> [assumption; rfl; rfl; rfl])

theorem State.resetSeq_keeps {b₀ : Bool} {a₀ s : State} (h : Keeps b₀ a₀ s) : Keeps b₀ a₀ (State.resetSeq s) := by
  unfold State.resetSeq
  repeat' first
    | with_reducible assumption | intro _
    | (extract_lets +onlyGivenNames u₀; first | (refine Keeps.cut (m := b₀) (a := a₀) (s := u₀) ?_ fun _ => ?_ <;> [(unfold u₀; clear u₀); ((try clear_value u₀); revert u₀; intro _ _)]) | (revert u₀; intro _))
    | (with_reducible refine Keeps.upd ?_ ?_ ?_ ?_ <;> [assumption; rfl; rfl; rfl])
    | (with_reducible refine Keeps.updEmpty ?_ ?_ ?_ ?_ <;> [assumption; rfl; (first | exact .inl rfl | exact .inr rfl); (first | exact .inl rfl | exact .inr rfl)])

theorem State.resetMem_keeps {a₀ s : State} (h : Keeps false a₀ s) : Keeps false a₀ (State.resetMem s) := by
  unfold State.resetMem
  repeat' first
    | with_reducible assumption | intro _
    | (extract_lets +onlyGivenNames u₀; first | (refine Keeps.cut (m := false) (a := a₀) (s := u₀) ?_ fun _ => ?_ <;> [(unfold u₀; clear u₀); ((try clear_value u₀); revert u₀; intro _ _)]) | (refine Keeps.cut (m := false) (a := a₀) (s := u₀.2) ?_ fun _ => ?_ <;> [(unfold u₀; clear u₀); ((try clear_value u₀); revert u₀; intro _ _)]) | (revert u₀; intro _))
    | with_reducible apply State.setStn_keeps | with_reducible apply State.closeKinds_keeps
    | with_reducible apply State.jobCut_keeps | with_reducible apply State.compressorLost_keeps
    | with_reducible apply State.verifyIdle_keeps | with_reducible apply Keeps.foldl
    | with_reducible apply Keeps.foldlSnd | with_reducible apply Keeps.foldlFst
    | (with_reducible refine Keeps.upd ?_ ?_ ?_ ?_ <;> [assumption; rfl; rfl; rfl])

theorem State.resetHost_keeps {b₀ : Bool} {a₀ s : State} (h : Keeps b₀ a₀ s) : Keeps b₀ a₀ (State.resetHost s) := by
  unfold State.resetHost
  repeat' first
    | with_reducible assumption | intro _
    | (extract_lets +onlyGivenNames u₀; first | (refine Keeps.cut (m := b₀) (a := a₀) (s := u₀) ?_ fun _ => ?_ <;> [(unfold u₀; clear u₀); ((try clear_value u₀); revert u₀; intro _ _)]) | (revert u₀; intro _))
    | with_reducible apply State.idleChannels_keeps
    | (with_reducible refine Keeps.upd ?_ ?_ ?_ ?_ <;> [assumption; rfl; rfl; rfl])
    | (with_reducible refine Keeps.updEmpty ?_ ?_ ?_ ?_ <;> [assumption; rfl; (first | exact .inl rfl | exact .inr rfl); (first | exact .inl rfl | exact .inr rfl)])

theorem State.resetCmp_keeps {b₀ : Bool} {a₀ s : State} (h : Keeps b₀ a₀ s) : Keeps b₀ a₀ (State.resetCmp s) := by
  unfold State.resetCmp
  repeat' first
    | with_reducible assumption | intro _
    | (extract_lets +onlyGivenNames u₀; first | (refine Keeps.cut (m := b₀) (a := a₀) (s := u₀) ?_ fun _ => ?_ <;> [(unfold u₀; clear u₀); ((try clear_value u₀); revert u₀; intro _ _)]) | (refine Keeps.cut (m := b₀) (a := a₀) (s := u₀.2) ?_ fun _ => ?_ <;> [(unfold u₀; clear u₀); ((try clear_value u₀); revert u₀; intro _ _)]) | (revert u₀; intro _))
    | with_reducible apply State.engineLost_keeps | with_reducible apply Keeps.foldl
    | with_reducible apply Keeps.foldlSnd | with_reducible apply Keeps.foldlFst
    | (with_reducible refine Keeps.upd ?_ ?_ ?_ ?_ <;> [assumption; rfl; rfl; rfl])

theorem State.resetMot_keeps {b₀ : Bool} {a₀ s : State} (h : Keeps b₀ a₀ s) : Keeps b₀ a₀ (State.resetMot s) := by
  unfold State.resetMot
  repeat' first
    | with_reducible assumption | intro _
    | (extract_lets +onlyGivenNames u₀; first | (refine Keeps.cut (m := b₀) (a := a₀) (s := u₀) ?_ fun _ => ?_ <;> [(unfold u₀; clear u₀); ((try clear_value u₀); revert u₀; intro _ _)]) | (revert u₀; intro _))
    | with_reducible apply State.releasePins_keeps | with_reducible apply State.closeKinds_keeps
    | (with_reducible refine Keeps.upd ?_ ?_ ?_ ?_ <;> [assumption; rfl; rfl; rfl])

theorem State.resetVid_keeps {b₀ : Bool} {a₀ s : State} (h : Keeps b₀ a₀ s) : Keeps b₀ a₀ (State.resetVid s) := by
  unfold State.resetVid
  repeat' first
    | with_reducible assumption | intro _
    | (extract_lets +onlyGivenNames u₀; first | (refine Keeps.cut (m := b₀) (a := a₀) (s := u₀) ?_ fun _ => ?_ <;> [(unfold u₀; clear u₀); ((try clear_value u₀); revert u₀; intro _ _)]) | (revert u₀; intro _))
    | with_reducible apply State.endPages_keeps | with_reducible apply State.closeKinds_keeps
    | with_reducible apply State.recalAbandon_keeps | with_reducible apply State.idle_keeps
    | with_reducible apply Keeps.foldl | with_reducible apply Keeps.foldlSnd | with_reducible apply Keeps.foldlFst
    | (with_reducible refine Keeps.upd ?_ ?_ ?_ ?_ <;> [assumption; rfl; rfl; rfl])

theorem State.resetRunning_keeps {a₀ s : State} (h : Keeps false a₀ s) (d : Dom) : Keeps false a₀ (State.resetRunning s d) := by
  unfold State.resetRunning
  repeat' first
    | with_reducible assumption | intro _
    | (extract_lets +onlyGivenNames u₀; first | (refine Keeps.cut (m := false) (a := a₀) (s := u₀) ?_ fun _ => ?_ <;> [(unfold u₀; clear u₀); ((try clear_value u₀); revert u₀; intro _ _)]) | (revert u₀; intro _))
    | with_reducible apply State.resetCmp_keeps | with_reducible apply State.resetCtl_keeps
    | with_reducible apply State.resetMem_keeps | with_reducible apply State.resetHost_keeps
    | with_reducible apply State.resetSeq_keeps | with_reducible apply State.resetVid_keeps
    | with_reducible apply State.resetMot_keeps | with_reducible apply Keeps.ite | split | (clear_value *; split)
    | (with_reducible refine Keeps.upd ?_ ?_ ?_ ?_ <;> [assumption; rfl; rfl; rfl])

theorem State.domainReset_keeps {a₀ s : State} (h : Keeps false a₀ s) (d : Dom) (reach : Nat) : Keeps false a₀ (State.domainReset s d reach) := by
  unfold State.domainReset
  repeat' first
    | with_reducible assumption | intro _
    | (extract_lets +onlyGivenNames u₀; first | (refine Keeps.cut (m := false) (a := a₀) (s := u₀) ?_ fun _ => ?_ <;> [(unfold u₀; clear u₀); ((try clear_value u₀); revert u₀; intro _ _)]) | (revert u₀; intro _))
    | with_reducible apply State.resetFields_keeps | with_reducible apply State.resetRestore_keeps
    | with_reducible apply State.resetRunning_keeps | with_reducible apply State.freeUnits_keeps
    | with_reducible apply Keeps.ite | split | (clear_value *; split)
    | (with_reducible refine Keeps.upd ?_ ?_ ?_ ?_ <;> [assumption; rfl; rfl; rfl])

theorem State.dieReset_keeps {a₀ s : State} (h : Keeps false a₀ s) (reach : Nat) : Keeps false a₀ (State.dieReset s reach) := by
  unfold State.dieReset
  repeat' first
    | with_reducible assumption | intro _
    | (extract_lets +onlyGivenNames u₀; first | (refine Keeps.cut (m := false) (a := a₀) (s := u₀) ?_ fun _ => ?_ <;> [(unfold u₀; clear u₀); ((try clear_value u₀); revert u₀; intro _ _)]) | (revert u₀; intro _))
    | with_reducible apply State.domainReset_keeps | with_reducible apply Keeps.foldl | with_reducible apply Keeps.foldlSnd
    | with_reducible apply Keeps.foldlFst | with_reducible apply Keeps.ite | split | (clear_value *; split)
    | (with_reducible refine Keeps.upd ?_ ?_ ?_ ?_ <;> [assumption; rfl; rfl; rfl])
    | (with_reducible refine Keeps.updEmpty ?_ ?_ ?_ ?_ <;> [assumption; rfl; (first | exact .inl rfl | exact .inr rfl); (first | exact .inl rfl | exact .inr rfl)])
    | (with_reducible refine Keeps.updLost ?_ ?_ ?_ ?_ <;> [assumption; (first | exact .inl rfl | exact .inr rfl); (first | exact .inl rfl | exact .inr rfl); (first | exact .inl rfl | exact .inr rfl)])

theorem State.domainOut_keeps {b₀ : Bool} {a₀ s : State} (h : Keeps b₀ a₀ s) (d : Dom) : Keeps b₀ a₀ (State.domainOut s d) := by
  unfold State.domainOut
  repeat' first
    | with_reducible assumption | intro _
    | (extract_lets +onlyGivenNames u₀; first | (refine Keeps.cut (m := b₀) (a := a₀) (s := u₀) ?_ fun _ => ?_ <;> [(unfold u₀; clear u₀); ((try clear_value u₀); revert u₀; intro _ _)]) | (revert u₀; intro _))
    | with_reducible apply State.drainWaiting_keeps | with_reducible apply Keeps.ite | split | (clear_value *; split)
    | (with_reducible refine Keeps.upd ?_ ?_ ?_ ?_ <;> [assumption; rfl; rfl; rfl])

theorem State.showReset_keeps {b₀ : Bool} {a₀ s : State} (h : Keeps b₀ a₀ s) : Keeps b₀ a₀ (State.showReset s) := by
  unfold State.showReset
  repeat' first
    | with_reducible assumption | intro _
    | (extract_lets +onlyGivenNames u₀; first | (refine Keeps.cut (m := b₀) (a := a₀) (s := u₀) ?_ fun _ => ?_ <;> [(unfold u₀; clear u₀); ((try clear_value u₀); revert u₀; intro _ _)]) | (revert u₀; intro _))
    | with_reducible apply State.wr_keeps | with_reducible apply Keeps.ite | split | (clear_value *; split)

theorem State.sourceAssert_keeps {a₀ s : State} (h : Keeps false a₀ s) (src : Nat) : Keeps false a₀ (State.sourceAssert s src) := by
  unfold State.sourceAssert
  repeat' first
    | with_reducible assumption | intro _
    | (extract_lets +onlyGivenNames u₀; first | (refine Keeps.cut (m := false) (a := a₀) (s := u₀) ?_ fun _ => ?_ <;> [(unfold u₀; clear u₀); ((try clear_value u₀); revert u₀; intro _ _)]) | (revert u₀; intro _))
    | with_reducible apply State.fresh_keeps | with_reducible apply State.release_keeps | with_reducible apply State.count_keeps
    | with_reducible apply State.dieReset_keeps | with_reducible apply State.domainReset_keeps
    | with_reducible apply State.showReset_keeps | with_reducible apply Keeps.foldl | with_reducible apply Keeps.foldlSnd
    | with_reducible apply Keeps.foldlFst | with_reducible apply Keeps.ite | split | (clear_value *; split)
    | (with_reducible refine Keeps.upd ?_ ?_ ?_ ?_ <;> [assumption; rfl; rfl; rfl])

theorem State.episodeEnd_keeps {b₀ : Bool} {a₀ s : State} (h : Keeps b₀ a₀ s) : Keeps b₀ a₀ (State.episodeEnd s) := by
  unfold State.episodeEnd
  repeat' first
    | with_reducible assumption | intro _
    | (extract_lets +onlyGivenNames u₀; first | (refine Keeps.cut (m := b₀) (a := a₀) (s := u₀) ?_ fun _ => ?_ <;> [(unfold u₀; clear u₀); ((try clear_value u₀); revert u₀; intro _ _)]) | (revert u₀; intro _))
    | with_reducible apply State.calStart_keeps | with_reducible apply Keeps.ite | split | (clear_value *; split)
    | (with_reducible refine Keeps.upd ?_ ?_ ?_ ?_ <;> [assumption; rfl; rfl; rfl])

theorem State.sourceDeassert_keeps {b₀ : Bool} {a₀ s : State} (h : Keeps b₀ a₀ s) (src : Nat) : Keeps b₀ a₀ (State.sourceDeassert s src) := by
  unfold State.sourceDeassert
  repeat' first
    | with_reducible assumption | intro _
    | (extract_lets +onlyGivenNames u₀; first | (refine Keeps.cut (m := b₀) (a := a₀) (s := u₀) ?_ fun _ => ?_ <;> [(unfold u₀; clear u₀); ((try clear_value u₀); revert u₀; intro _ _)]) | (revert u₀; intro _))
    | with_reducible apply State.release_keeps | with_reducible apply State.showReset_keeps
    | with_reducible apply State.episodeEnd_keeps | with_reducible apply Keeps.ite | split | (clear_value *; split)
    | (with_reducible refine Keeps.upd ?_ ?_ ?_ ?_ <;> [assumption; rfl; rfl; rfl])

theorem domainRelease_keeps {b₀ : Bool} {a₀ s : State} (h : Keeps b₀ a₀ s) : Keeps b₀ a₀ (domainRelease s) := by
  unfold domainRelease
  repeat' first
    | with_reducible assumption | intro _
    | (extract_lets +onlyGivenNames u₀; first | (refine Keeps.cut (m := b₀) (a := a₀) (s := u₀) ?_ fun _ => ?_ <;> [(unfold u₀; clear u₀); ((try clear_value u₀); revert u₀; intro _ _)]) | (revert u₀; intro _))
    | with_reducible apply State.release_keeps | with_reducible apply State.domainOut_keeps
    | with_reducible apply State.episodeEnd_keeps | with_reducible apply Keeps.ite | split | (clear_value *; split)
    | (with_reducible refine Keeps.upd ?_ ?_ ?_ ?_ <;> [assumption; rfl; rfl; rfl])

theorem execDomainRelease_keeps {b₀ : Bool} {a₀ s : State} (h : Keeps b₀ a₀ s) {t₀ : State} (e : execDomainRelease s = .next t₀) : Keeps b₀ a₀ t₀ := by
  unfold execDomainRelease at e
  obtain ⟨-, rfl⟩ := guardWF_next e
  repeat' first
    | with_reducible assumption | intro _ | with_reducible apply domainRelease_keeps

end Sys2Proof.Machine
end

