-- ==== Sys2Proof/Laws/KeepsFaults.lean ====
section
/-! SUPPORT. Every operation of Machine/Faults.lean keeps what `Keeps` says. -/

namespace Sys2Proof.Machine

open Sys2Proof

set_option linter.unusedTactic false

set_option linter.unreachableTactic false

theorem State.slotsFault_keeps {b₀ : Bool} {a₀ s : State} (h : Keeps b₀ a₀ s) : Keeps b₀ a₀ (State.slotsFault s) := by
  unfold State.slotsFault
  repeat' first
    | with_reducible assumption | intro _ | with_reducible apply State.slotFault_keeps | with_reducible apply Keeps.foldl
    | with_reducible apply Keeps.foldlSnd | with_reducible apply Keeps.foldlFst

theorem State.stopAxis_keeps {b₀ : Bool} {a₀ s : State} (h : Keeps b₀ a₀ s) (k : Nat) (p : Plan) : Keeps b₀ a₀ (State.stopAxis s k p) := by
  unfold State.stopAxis
  repeat' first
    | with_reducible assumption | intro _
    | (extract_lets +onlyGivenNames u₀; first | (refine Keeps.cut (m := b₀) (a := a₀) (s := u₀) ?_ fun _ => ?_ <;> [(unfold u₀; clear u₀); ((try clear_value u₀); revert u₀; intro _ _)]) | (revert u₀; intro _))
    | with_reducible apply State.axStop_keeps | with_reducible apply State.setAxis_keeps
    | with_reducible apply State.webAxisStopped_keeps | with_reducible apply Keeps.ite | split
    | (clear_value *; split) | (with_reducible refine Keeps.upd ?_ ?_ ?_ ?_ <;> [assumption; rfl; rfl; rfl])

theorem State.slotStopped_keeps {b₀ : Bool} {a₀ s : State} (h : Keeps b₀ a₀ s) (n : Nat) : Keeps b₀ a₀ (State.slotStopped s n) := by
  unfold State.slotStopped
  repeat' first
    | with_reducible assumption | intro _
    | (extract_lets +onlyGivenNames u₀; first | (refine Keeps.cut (m := b₀) (a := a₀) (s := u₀) ?_ fun _ => ?_ <;> [(unfold u₀; clear u₀); ((try clear_value u₀); revert u₀; intro _ _)]) | (revert u₀; intro _))
    | with_reducible apply State.setSlot_keeps | with_reducible apply State.settleHeaters_keeps
    | with_reducible apply State.slotFault_keeps | with_reducible apply Keeps.ite | split | (clear_value *; split)
    | (with_reducible refine Keeps.upd ?_ ?_ ?_ ?_ <;> [assumption; rfl; rfl; rfl])

theorem State.sevStep_keeps {b₀ : Bool} {a₀ s : State} (h : Keeps b₀ a₀ s) (n : Nat) : Keeps b₀ a₀ (State.sevStep s n) := by
  unfold State.sevStep
  repeat' first
    | with_reducible assumption | intro _
    | (extract_lets +onlyGivenNames u₀; first | (refine Keeps.cut (m := b₀) (a := a₀) (s := u₀) ?_ fun _ => ?_ <;> [(unfold u₀; clear u₀); ((try clear_value u₀); revert u₀; intro _ _)]) | (refine Keeps.cut (m := b₀) (a := a₀) (s := u₀.2) ?_ fun _ => ?_ <;> [(unfold u₀; clear u₀); ((try clear_value u₀); revert u₀; intro _ _)]) | (revert u₀; intro _))
    | with_reducible apply State.slotStopped_keeps | with_reducible apply State.spoil_keeps
    | with_reducible apply State.darkenAll_keeps | with_reducible apply State.axHalt_keeps
    | with_reducible apply State.ldenLow_keeps | with_reducible apply State.setAxSt_keeps
    | with_reducible apply State.hvHardOff_keeps | with_reducible apply State.clr_keeps
    | with_reducible apply State.disarmEnd_keeps | with_reducible apply State.setCtx_keeps
    | with_reducible apply State.offWaited_keeps | with_reducible apply State.webAxisStopped_keeps
    | with_reducible apply State.disarmNow_keeps | with_reducible apply State.blankStation_keeps
    | with_reducible apply State.stopAxis_keeps | with_reducible apply Keeps.foldl
    | with_reducible apply Keeps.foldlSnd | with_reducible apply Keeps.foldlFst | with_reducible apply Keeps.ite
    | with_reducible apply Keeps.iteSnd | split | (clear_value *; split)
    | (with_reducible refine Keeps.upd ?_ ?_ ?_ ?_ <;> [assumption; rfl; rfl; rfl])

theorem State.sevRise_keeps {b₀ : Bool} {a₀ s : State} (h : Keeps b₀ a₀ s) (old : Nat) (new : Nat) : Keeps b₀ a₀ (State.sevRise s old new) := by
  unfold State.sevRise
  repeat' first
    | with_reducible assumption | intro _ | with_reducible apply State.sevStep_keeps | with_reducible apply Keeps.foldl
    | with_reducible apply Keeps.foldlSnd | with_reducible apply Keeps.foldlFst

theorem State.stopAll_keeps {b₀ : Bool} {a₀ s : State} (h : Keeps b₀ a₀ s) : Keeps b₀ a₀ (State.stopAll s) := by
  unfold State.stopAll
  repeat' first
    | with_reducible assumption | intro _ | with_reducible apply State.stopAxis_keeps | with_reducible apply Keeps.foldl
    | with_reducible apply Keeps.foldlSnd | with_reducible apply Keeps.foldlFst

theorem State.restThenFault_keeps {b₀ : Bool} {a₀ s : State} (h : Keeps b₀ a₀ s) : Keeps b₀ a₀ (State.restThenFault s) := by
  unfold State.restThenFault
  repeat' first
    | with_reducible assumption | intro _ | with_reducible apply State.slotsFault_keeps | with_reducible apply Keeps.ite | split
    | (clear_value *; split)

theorem State.reactOn_keeps {b₀ : Bool} {a₀ s : State} (h : Keeps b₀ a₀ s) : Keeps b₀ a₀ (State.reactOn s) := by
  unfold State.reactOn
  repeat' first
    | with_reducible assumption | intro _
    | (extract_lets +onlyGivenNames u₀; first | (refine Keeps.cut (m := b₀) (a := a₀) (s := u₀) ?_ fun _ => ?_ <;> [(unfold u₀; clear u₀); ((try clear_value u₀); revert u₀; intro _ _)]) | (revert u₀; intro _))
    | with_reducible apply State.stopAll_keeps | with_reducible apply State.restThenFault_keeps | with_reducible apply Keeps.ite
    | split | (clear_value *; split) | (with_reducible refine Keeps.upd ?_ ?_ ?_ ?_ <;> [assumption; rfl; rfl; rfl])

theorem execPlannerTick_keeps {b₀ : Bool} {a₀ s : State} (h : Keeps b₀ a₀ s) (overrun : Option Nat) {t₀ : State} (e : execPlannerTick overrun s = .next t₀) : Keeps b₀ a₀ t₀ := by
  unfold execPlannerTick at e
  obtain ⟨-, rfl⟩ := guardWF_next e
  repeat' first
    | with_reducible assumption | intro _ | with_reducible apply plannerTick_keeps | with_reducible apply State.reactOn_keeps

theorem State.unitAction_keeps {b₀ : Bool} {a₀ s : State} (h : Keeps b₀ a₀ s) (kind : UnitKind) (u : Nat) (act : Nat) : Keeps b₀ a₀ (State.unitAction s kind u act) := by
  unfold State.unitAction
  repeat' first
    | with_reducible assumption | intro _
    | (extract_lets +onlyGivenNames u₀; first | (refine Keeps.cut (m := b₀) (a := a₀) (s := u₀) ?_ fun _ => ?_ <;> [(unfold u₀; clear u₀); ((try clear_value u₀); revert u₀; intro _ _)]) | (revert u₀; intro _))
    | with_reducible apply State.slotStopped_keeps | with_reducible apply State.slotFault_keeps
    | with_reducible apply State.spoilStation_keeps | with_reducible apply State.hvHardOff_keeps
    | with_reducible apply State.axisFault_keeps | with_reducible apply State.gate_keeps
    | with_reducible apply State.setGate_keeps | with_reducible apply State.emit_keeps
    | with_reducible apply State.setLnk_keeps | with_reducible apply State.clr_keeps
    | with_reducible apply State.isolateUnit_keeps | with_reducible apply dmaStop_keeps
    | with_reducible apply Keeps.ite | split | (clear_value *; split)
    | (with_reducible refine Keeps.upd ?_ ?_ ?_ ?_ <;> [assumption; rfl; rfl; rfl])

theorem State.returnCancelled_keeps {b₀ : Bool} {a₀ s : State} (h : Keeps b₀ a₀ s) (kind : UnitKind) (u : Nat) : Keeps b₀ a₀ (State.returnCancelled s kind u) := by
  unfold State.returnCancelled
  repeat' first
    | with_reducible assumption | intro _
    | (extract_lets +onlyGivenNames u₀; first | (refine Keeps.cut (m := b₀) (a := a₀) (s := u₀) ?_ fun _ => ?_ <;> [(unfold u₀; clear u₀); ((try clear_value u₀); revert u₀; intro _ _)]) | (revert u₀; intro _))
    | split | (clear_value *; split) | (with_reducible refine Keeps.upd ?_ ?_ ?_ ?_ <;> [assumption; rfl; rfl; rfl])

theorem State.setMask_keeps {b₀ : Bool} {a₀ s : State} (h : Keeps b₀ a₀ s) (src : Nat) (l : List Nat) : Keeps b₀ a₀ (State.setMask s src l) := by
  unfold State.setMask
  repeat' first
    | with_reducible assumption | intro _
    | (extract_lets +onlyGivenNames u₀; first | (refine Keeps.cut (m := b₀) (a := a₀) (s := u₀) ?_ fun _ => ?_ <;> [(unfold u₀; clear u₀); ((try clear_value u₀); revert u₀; intro _ _)]) | (revert u₀; intro _))
    | (with_reducible refine Keeps.upd ?_ ?_ ?_ ?_ <;> [assumption; rfl; rfl; rfl])

theorem State.actOn_keeps {b₀ : Bool} {a₀ s : State} (h : Keeps b₀ a₀ s) (src : Nat) (act : Nat) (us : List Nat) : Keeps b₀ a₀ (State.actOn s src act us) := by
  unfold State.actOn
  repeat' first
    | with_reducible assumption | intro _ | with_reducible apply State.unitAction_keeps | with_reducible apply Keeps.foldl
    | with_reducible apply Keeps.foldlSnd | with_reducible apply Keeps.foldlFst

theorem State.trimMasks_keeps {b₀ : Bool} {a₀ s : State} (h : Keeps b₀ a₀ s) : Keeps b₀ a₀ (State.trimMasks s) := by
  unfold State.trimMasks
  repeat' first
    | with_reducible assumption | intro _
    | (extract_lets +onlyGivenNames u₀; first | (refine Keeps.cut (m := b₀) (a := a₀) (s := u₀) ?_ fun _ => ?_ <;> [(unfold u₀; clear u₀); ((try clear_value u₀); revert u₀; intro _ _)]) | (revert u₀; intro _))
    | with_reducible apply State.setLnk_keeps | with_reducible apply Keeps.foldl | with_reducible apply Keeps.foldlSnd
    | with_reducible apply Keeps.foldlFst | with_reducible apply Keeps.ite | split | (clear_value *; split)
    | (with_reducible refine Keeps.upd ?_ ?_ ?_ ?_ <;> [assumption; rfl; rfl; rfl])

theorem State.setRec_keeps {b₀ : Bool} {a₀ s : State} (h : Keeps b₀ a₀ s) (r : Nat) (x : FltRec) : Keeps b₀ a₀ (State.setRec s r x) := by
  unfold State.setRec
  repeat' first
    | with_reducible assumption | intro _
    | (extract_lets +onlyGivenNames u₀; first | (refine Keeps.cut (m := b₀) (a := a₀) (s := u₀) ?_ fun _ => ?_ <;> [(unfold u₀; clear u₀); ((try clear_value u₀); revert u₀; intro _ _)]) | (revert u₀; intro _))
    | (with_reducible refine Keeps.upd ?_ ?_ ?_ ?_ <;> [assumption; rfl; rfl; rfl])

theorem State.fltMessage_keeps {b₀ : Bool} {a₀ s : State} (h : Keeps b₀ a₀ s) : Keeps b₀ a₀ (State.fltMessage s) := by
  unfold State.fltMessage
  repeat' first
    | with_reducible assumption | intro _ | with_reducible apply State.msix_keeps

theorem State.postRecord_keeps {b₀ : Bool} {a₀ s : State} (h : Keeps b₀ a₀ s) (r : Nat) : Keeps b₀ a₀ (State.postRecord s r) := by
  unfold State.postRecord
  repeat' first
    | with_reducible assumption | intro _
    | (extract_lets +onlyGivenNames u₀; first | (refine Keeps.cut (m := b₀) (a := a₀) (s := u₀) ?_ fun _ => ?_ <;> [(unfold u₀; clear u₀); ((try clear_value u₀); revert u₀; intro _ _)]) | (revert u₀; intro _))
    | with_reducible apply State.post_keeps | with_reducible apply Keeps.ite | split | (clear_value *; split)

theorem State.mergeRec_keeps {b₀ : Bool} {a₀ s : State} (h : Keeps b₀ a₀ s) (r : Nat) (sev : Nat) (srcs : List Nat) : Keeps b₀ a₀ (State.mergeRec s r sev srcs) := by
  unfold State.mergeRec
  repeat' first
    | with_reducible assumption | intro _
    | (extract_lets +onlyGivenNames u₀; first | (refine Keeps.cut (m := b₀) (a := a₀) (s := u₀) ?_ fun _ => ?_ <;> [(unfold u₀; clear u₀); ((try clear_value u₀); revert u₀; intro _ _)]) | (revert u₀; intro _))
    | with_reducible apply State.setRec_keeps | with_reducible apply State.sevRise_keeps | with_reducible apply Keeps.foldl
    | with_reducible apply Keeps.foldlSnd | with_reducible apply Keeps.foldlFst
    | (with_reducible refine Keeps.upd ?_ ?_ ?_ ?_ <;> [assumption; rfl; rfl; rfl])

theorem State.openRec_keeps {b₀ : Bool} {a₀ s : State} (h : Keeps b₀ a₀ s) (r : Nat) (sev : Nat) (await : Bool) (srcs : List Nat) : Keeps b₀ a₀ (State.openRec s r sev await srcs) := by
  unfold State.openRec
  repeat' first
    | with_reducible assumption | intro _
    | (extract_lets +onlyGivenNames u₀; first | (refine Keeps.cut (m := b₀) (a := a₀) (s := u₀) ?_ fun _ => ?_ <;> [(unfold u₀; clear u₀); ((try clear_value u₀); revert u₀; intro _ _)]) | (revert u₀; intro _))
    | with_reducible apply State.setRec_keeps | with_reducible apply State.sevRise_keeps
    | with_reducible apply State.postRecord_keeps | with_reducible apply Keeps.foldl | with_reducible apply Keeps.foldlSnd
    | with_reducible apply Keeps.foldlFst | with_reducible apply Keeps.ite | split | (clear_value *; split)
    | (with_reducible refine Keeps.upd ?_ ?_ ?_ ?_ <;> [assumption; rfl; rfl; rfl])

theorem State.activation_keeps {b₀ : Bool} {a₀ s : State} (h : Keeps b₀ a₀ s) (srcs : List Nat) : Keeps b₀ a₀ (State.activation s srcs) := by
  unfold State.activation
  repeat' first
    | with_reducible assumption | intro _
    | (extract_lets +onlyGivenNames u₀; first | (refine Keeps.cut (m := b₀) (a := a₀) (s := u₀) ?_ fun _ => ?_ <;> [(unfold u₀; clear u₀); ((try clear_value u₀); revert u₀; intro _ _)]) | (revert u₀; intro _))
    | with_reducible apply State.reactOn_keeps | with_reducible apply State.mergeRec_keeps
    | with_reducible apply State.ev_keeps | with_reducible apply State.count_keeps
    | with_reducible apply State.openRec_keeps | with_reducible apply State.setRec_keeps
    | with_reducible apply State.actOn_keeps | with_reducible apply State.fltMessage_keeps
    | with_reducible apply Keeps.foldl | with_reducible apply Keeps.foldlSnd | with_reducible apply Keeps.foldlFst
    | with_reducible apply Keeps.ite | split | (clear_value *; split)
    | (with_reducible refine Keeps.upd ?_ ?_ ?_ ?_ <;> [assumption; rfl; rfl; rfl])

theorem State.furtherUnits_keeps {b₀ : Bool} {a₀ s : State} (h : Keeps b₀ a₀ s) (src : Nat) (us : List Nat) : Keeps b₀ a₀ (State.furtherUnits s src us) := by
  unfold State.furtherUnits
  repeat' first
    | with_reducible assumption | intro _
    | (extract_lets +onlyGivenNames u₀; first | (refine Keeps.cut (m := b₀) (a := a₀) (s := u₀) ?_ fun _ => ?_ <;> [(unfold u₀; clear u₀); ((try clear_value u₀); revert u₀; intro _ _)]) | (revert u₀; intro _))
    | with_reducible apply State.setMask_keeps | with_reducible apply State.returnCancelled_keeps
    | with_reducible apply State.actOn_keeps | with_reducible apply Keeps.foldl | with_reducible apply Keeps.foldlSnd
    | with_reducible apply Keeps.foldlFst | with_reducible apply Keeps.ite | split | (clear_value *; split)

theorem State.evaluate_keeps {b₀ : Bool} {a₀ s : State} (h : Keeps b₀ a₀ s) (l : List (Nat × Bool × List Nat)) : Keeps b₀ a₀ (State.evaluate s l) := by
  unfold State.evaluate
  repeat' first
    | with_reducible assumption | intro _
    | (extract_lets +onlyGivenNames u₀; first | (refine Keeps.cut (m := b₀) (a := a₀) (s := u₀) ?_ fun _ => ?_ <;> [(unfold u₀; clear u₀); ((try clear_value u₀); revert u₀; intro _ _)]) | (revert u₀; intro _))
    | with_reducible apply State.furtherUnits_keeps | with_reducible apply State.setMask_keeps
    | with_reducible apply State.returnCancelled_keeps | with_reducible apply State.activation_keeps
    | with_reducible apply State.trimMasks_keeps | with_reducible apply Keeps.foldl | with_reducible apply Keeps.foldlSnd
    | with_reducible apply Keeps.foldlFst | with_reducible apply Keeps.ite | split | (clear_value *; split)
    | (with_reducible refine Keeps.upd ?_ ?_ ?_ ?_ <;> [assumption; rfl; rfl; rfl])

theorem faultReportWord_keeps {b₀ : Bool} {a₀ s : State} (h : Keeps b₀ a₀ s) (r : Nat) (word : List (Nat × Rails)) : Keeps b₀ a₀ (faultReportWord r word s) := by
  unfold faultReportWord
  repeat' first
    | with_reducible assumption | intro _
    | (extract_lets +onlyGivenNames u₀; first | (refine Keeps.cut (m := b₀) (a := a₀) (s := u₀) ?_ fun _ => ?_ <;> [(unfold u₀; clear u₀); ((try clear_value u₀); revert u₀; intro _ _)]) | (revert u₀; intro _))
    | with_reducible apply State.evaluate_keeps | with_reducible apply Keeps.ite | split | (clear_value *; split)
    | (with_reducible refine Keeps.upd ?_ ?_ ?_ ?_ <;> [assumption; rfl; rfl; rfl])

theorem execFaultReportWord_keeps {b₀ : Bool} {a₀ s : State} (h : Keeps b₀ a₀ s) (r : Nat) (word : List (Nat × Rails)) {t₀ : State} (e : execFaultReportWord r word s = .next t₀) : Keeps b₀ a₀ t₀ := by
  unfold execFaultReportWord at e
  obtain ⟨-, rfl⟩ := guardWF_next e
  repeat' first
    | with_reducible assumption | intro _ | with_reducible apply faultReportWord_keeps

theorem reporterTimeout_keeps {b₀ : Bool} {a₀ s : State} (h : Keeps b₀ a₀ s) (r : Nat) : Keeps b₀ a₀ (reporterTimeout r s) := by
  unfold reporterTimeout
  repeat' first
    | with_reducible assumption | intro _
    | (extract_lets +onlyGivenNames u₀; first | (refine Keeps.cut (m := b₀) (a := a₀) (s := u₀) ?_ fun _ => ?_ <;> [(unfold u₀; clear u₀); ((try clear_value u₀); revert u₀; intro _ _)]) | (revert u₀; intro _))
    | with_reducible apply State.evaluate_keeps | with_reducible apply Keeps.ite | split | (clear_value *; split)
    | (with_reducible refine Keeps.upd ?_ ?_ ?_ ?_ <;> [assumption; rfl; rfl; rfl])

theorem execReporterTimeout_keeps {b₀ : Bool} {a₀ s : State} (h : Keeps b₀ a₀ s) (r : Nat) {t₀ : State} (e : execReporterTimeout r s = .next t₀) : Keeps b₀ a₀ t₀ := by
  unfold execReporterTimeout at e
  obtain ⟨-, rfl⟩ := guardWF_next e
  repeat' first
    | with_reducible assumption | intro _ | with_reducible apply reporterTimeout_keeps

theorem reactionComplete_keeps {b₀ : Bool} {a₀ s : State} (h : Keeps b₀ a₀ s) (r : Nat) : Keeps b₀ a₀ (reactionComplete r s) := by
  unfold reactionComplete
  repeat' first
    | with_reducible assumption | intro _
    | (extract_lets +onlyGivenNames u₀; first | (refine Keeps.cut (m := b₀) (a := a₀) (s := u₀) ?_ fun _ => ?_ <;> [(unfold u₀; clear u₀); ((try clear_value u₀); revert u₀; intro _ _)]) | (revert u₀; intro _))
    | with_reducible apply State.reactOn_keeps | with_reducible apply State.setRec_keeps | with_reducible apply State.ev_keeps
    | with_reducible apply State.fltMessage_keeps | with_reducible apply Keeps.ite | split | (clear_value *; split)
    | (with_reducible refine Keeps.upd ?_ ?_ ?_ ?_ <;> [assumption; rfl; rfl; rfl])

theorem execReactionComplete_keeps {b₀ : Bool} {a₀ s : State} (h : Keeps b₀ a₀ s) (r : Nat) {t₀ : State} (e : execReactionComplete r s = .next t₀) : Keeps b₀ a₀ t₀ := by
  unfold execReactionComplete at e
  obtain ⟨-, rfl⟩ := guardWF_next e
  repeat' first
    | with_reducible assumption | intro _ | with_reducible apply reactionComplete_keeps

theorem fltClear_keeps {b₀ : Bool} {a₀ s : State} (h : Keeps b₀ a₀ s) (v : Word) : Keeps b₀ a₀ (fltClear v s) := by
  unfold fltClear
  repeat' first
    | with_reducible assumption | intro _
    | (extract_lets +onlyGivenNames u₀; first | (refine Keeps.cut (m := b₀) (a := a₀) (s := u₀) ?_ fun _ => ?_ <;> [(unfold u₀; clear u₀); ((try clear_value u₀); revert u₀; intro _ _)]) | (revert u₀; intro _))
    | with_reducible apply State.setRec_keeps | with_reducible apply State.trimMasks_keeps | with_reducible apply State.ev_keeps
    | with_reducible apply Keeps.ite | split | (clear_value *; split)

theorem execFltClear_keeps {b₀ : Bool} {a₀ s : State} (h : Keeps b₀ a₀ s) (v : Word) {t₀ : State} (e : execFltClear v s = .next t₀) : Keeps b₀ a₀ t₀ := by
  unfold execFltClear at e
  obtain ⟨-, rfl⟩ := guardWF_next e
  repeat' first
    | with_reducible assumption | intro _ | with_reducible apply State.hostWrite_keeps | with_reducible apply fltClear_keeps

theorem State.answerRecord_keeps {b₀ : Bool} {a₀ s : State} (h : Keeps b₀ a₀ s) (r : Nat) (sev : Nat) (act : Nat) : Keeps b₀ a₀ (State.answerRecord s r sev act) := by
  unfold State.answerRecord
  repeat' first
    | with_reducible assumption | intro _
    | (extract_lets +onlyGivenNames u₀; first | (refine Keeps.cut (m := b₀) (a := a₀) (s := u₀) ?_ fun _ => ?_ <;> [(unfold u₀; clear u₀); ((try clear_value u₀); revert u₀; intro _ _)]) | (revert u₀; intro _))
    | with_reducible apply State.reactOn_keeps | with_reducible apply State.ev_keeps
    | with_reducible apply State.closeDecision_keeps | with_reducible apply State.sevRise_keeps
    | with_reducible apply State.setRec_keeps | with_reducible apply State.actOn_keeps
    | with_reducible apply Keeps.foldl | with_reducible apply Keeps.foldlSnd | with_reducible apply Keeps.foldlFst
    | with_reducible apply Keeps.ite | split | (clear_value *; split)
    | (with_reducible refine Keeps.upd ?_ ?_ ?_ ?_ <;> [assumption; rfl; rfl; rfl])

theorem execFltAnswer_keeps {b₀ : Bool} {a₀ s : State} (h : Keeps b₀ a₀ s) (v : Word) {t₀ : State} (e : execFltAnswer v s = .next t₀) : Keeps b₀ a₀ t₀ := by
  unfold execFltAnswer at e
  obtain ⟨-, rfl⟩ := guardWF_next e
  repeat' first
    | with_reducible assumption | intro _ | with_reducible apply State.hostWrite_keeps
    | with_reducible apply State.answerRecord_keeps | with_reducible apply Keeps.ite | split | (clear_value *; split)

theorem State.unitRefuse_keeps {b₀ : Bool} {a₀ s : State} (h : Keeps b₀ a₀ s) : Keeps b₀ a₀ (State.unitRefuse s) := by
  unfold State.unitRefuse
  repeat' first
    | with_reducible assumption | intro _ | with_reducible apply State.ev_keeps

theorem isolateCmd_keeps {b₀ : Bool} {a₀ s : State} (h : Keeps b₀ a₀ s) (v : Word) : Keeps b₀ a₀ (isolateCmd v s) := by
  unfold isolateCmd
  repeat' first
    | with_reducible assumption | intro _
    | (extract_lets +onlyGivenNames u₀; first | (refine Keeps.cut (m := b₀) (a := a₀) (s := u₀) ?_ fun _ => ?_ <;> [(unfold u₀; clear u₀); ((try clear_value u₀); revert u₀; intro _ _)]) | (revert u₀; intro _))
    | with_reducible apply State.unitRefuse_keeps | with_reducible apply State.isolateUnit_keeps
    | with_reducible apply Keeps.ite | split | (clear_value *; split)
    | (with_reducible refine Keeps.upd ?_ ?_ ?_ ?_ <;> [assumption; rfl; rfl; rfl])

theorem execIsolate_keeps {b₀ : Bool} {a₀ s : State} (h : Keeps b₀ a₀ s) (v : Word) {t₀ : State} (e : execIsolate v s = .next t₀) : Keeps b₀ a₀ t₀ := by
  unfold execIsolate at e
  obtain ⟨-, rfl⟩ := guardWF_next e
  repeat' first
    | with_reducible assumption | intro _ | with_reducible apply State.hostWrite_keeps | with_reducible apply isolateCmd_keeps

theorem returnCmd_keeps {a₀ s : State} (h : Keeps false a₀ s) (v : Word) : Keeps false a₀ (returnCmd v s) := by
  unfold returnCmd
  repeat' first
    | with_reducible assumption | intro _
    | (extract_lets +onlyGivenNames u₀; first | (refine Keeps.cut (m := false) (a := a₀) (s := u₀) ?_ fun _ => ?_ <;> [(unfold u₀; clear u₀); ((try clear_value u₀); revert u₀; intro _ _)]) | (revert u₀; intro _))
    | with_reducible apply State.unitReset_keeps | with_reducible apply State.sourceAssert_keeps
    | with_reducible apply State.unitRefuse_keeps | with_reducible apply Keeps.ite | split | (clear_value *; split)
    | (with_reducible refine Keeps.upd ?_ ?_ ?_ ?_ <;> [assumption; rfl; rfl; rfl])

theorem execReturnUnit_keeps {a₀ s : State} (h : Keeps false a₀ s) (v : Word) {t₀ : State} (e : execReturnUnit v s = .next t₀) : Keeps false a₀ t₀ := by
  unfold execReturnUnit at e
  obtain ⟨-, rfl⟩ := guardWF_next e
  repeat' first
    | with_reducible assumption | intro _ | with_reducible apply State.hostWrite_keeps | with_reducible apply returnCmd_keeps

theorem State.returnPending_keeps {b₀ : Bool} {a₀ s : State} (h : Keeps b₀ a₀ s) (u : UnitId) : Keeps b₀ a₀ (State.returnPending s u) := by
  unfold State.returnPending
  repeat' first
    | with_reducible assumption | intro _
    | (extract_lets +onlyGivenNames u₀; first | (refine Keeps.cut (m := b₀) (a := a₀) (s := u₀) ?_ fun _ => ?_ <;> [(unfold u₀; clear u₀); ((try clear_value u₀); revert u₀; intro _ _)]) | (revert u₀; intro _))
    | with_reducible apply State.unitService_keeps | with_reducible apply Keeps.ite | split | (clear_value *; split)
    | (with_reducible refine Keeps.upd ?_ ?_ ?_ ?_ <;> [assumption; rfl; rfl; rfl])

theorem unitResetRelease_keeps {b₀ : Bool} {a₀ s : State} (h : Keeps b₀ a₀ s) (u : UnitId) : Keeps b₀ a₀ (unitResetRelease u s) := by
  unfold unitResetRelease
  repeat' first
    | with_reducible assumption | intro _
    | (extract_lets +onlyGivenNames u₀; first | (refine Keeps.cut (m := b₀) (a := a₀) (s := u₀) ?_ fun _ => ?_ <;> [(unfold u₀; clear u₀); ((try clear_value u₀); revert u₀; intro _ _)]) | (revert u₀; intro _))
    | with_reducible apply State.sourceDeassert_keeps | with_reducible apply State.unitRestore_keeps
    | with_reducible apply State.recalRequest_keeps | with_reducible apply State.returnPending_keeps
    | with_reducible apply Keeps.ite | split | (clear_value *; split)
    | (with_reducible refine Keeps.upd ?_ ?_ ?_ ?_ <;> [assumption; rfl; rfl; rfl])

theorem execUnitResetRelease_keeps {b₀ : Bool} {a₀ s : State} (h : Keeps b₀ a₀ s) (u : UnitId) {t₀ : State} (e : execUnitResetRelease u s = .next t₀) : Keeps b₀ a₀ t₀ := by
  unfold execUnitResetRelease at e
  obtain ⟨-, rfl⟩ := guardWF_next e
  repeat' first
    | with_reducible assumption | intro _ | with_reducible apply unitResetRelease_keeps

theorem unitCheckDone_keeps {b₀ : Bool} {a₀ s : State} (h : Keeps b₀ a₀ s) (u : UnitId) (ok : Bool) : Keeps b₀ a₀ (unitCheckDone u ok s) := by
  unfold unitCheckDone
  repeat' first
    | with_reducible assumption | intro _
    | (extract_lets +onlyGivenNames u₀; first | (refine Keeps.cut (m := b₀) (a := a₀) (s := u₀) ?_ fun _ => ?_ <;> [(unfold u₀; clear u₀); ((try clear_value u₀); revert u₀; intro _ _)]) | (revert u₀; intro _))
    | with_reducible apply State.returnPending_keeps | with_reducible apply State.ev_keeps
    | with_reducible apply recalDone_keeps | with_reducible apply Keeps.ite | split | (clear_value *; split)
    | (with_reducible refine Keeps.upd ?_ ?_ ?_ ?_ <;> [assumption; rfl; rfl; rfl])

theorem execUnitCheckDone_keeps {b₀ : Bool} {a₀ s : State} (h : Keeps b₀ a₀ s) (u : UnitId) (ok : Bool) {t₀ : State} (e : execUnitCheckDone u ok s = .next t₀) : Keeps b₀ a₀ t₀ := by
  unfold execUnitCheckDone at e
  obtain ⟨-, rfl⟩ := guardWF_next e
  repeat' first
    | with_reducible assumption | intro _ | with_reducible apply unitCheckDone_keeps

theorem State.islandLost_keeps {a₀ s : State} (h : Keeps false a₀ s) (i : Island) : Keeps false a₀ (State.islandLost s i) := by
  unfold State.islandLost
  repeat' first
    | with_reducible assumption | intro _
    | (extract_lets +onlyGivenNames u₀; first | (refine Keeps.cut (m := false) (a := a₀) (s := u₀) ?_ fun _ => ?_ <;> [(unfold u₀; clear u₀); ((try clear_value u₀); revert u₀; intro _ _)]) | (revert u₀; intro _))
    | with_reducible apply State.stationIsolate_keeps | with_reducible apply State.jobCut_keeps
    | with_reducible apply State.compressorLost_keeps | with_reducible apply State.imagerLost_keeps
    | with_reducible apply State.idleChannels_keeps | with_reducible apply State.engineLost_keeps
    | with_reducible apply Keeps.foldl | with_reducible apply Keeps.foldlSnd | with_reducible apply Keeps.foldlFst
    | with_reducible apply Keeps.ite | split | (clear_value *; split)
    | (with_reducible refine Keeps.upd ?_ ?_ ?_ ?_ <;> [assumption; rfl; rfl; rfl])

theorem handshakeWatchdog_keeps {a₀ s : State} (h : Keeps false a₀ s) (i : Island) : Keeps false a₀ (handshakeWatchdog i s) := by
  unfold handshakeWatchdog
  repeat' first
    | with_reducible assumption | intro _
    | (extract_lets +onlyGivenNames u₀; first | (refine Keeps.cut (m := false) (a := a₀) (s := u₀) ?_ fun _ => ?_ <;> [(unfold u₀; clear u₀); ((try clear_value u₀); revert u₀; intro _ _)]) | (revert u₀; intro _))
    | with_reducible apply State.islandLost_keeps | with_reducible apply State.sevStep_keeps
    | with_reducible apply State.sourceAssert_keeps | with_reducible apply Keeps.foldl | with_reducible apply Keeps.foldlSnd
    | with_reducible apply Keeps.foldlFst | with_reducible apply Keeps.ite | split | (clear_value *; split)
    | (with_reducible refine Keeps.upd ?_ ?_ ?_ ?_ <;> [assumption; rfl; rfl; rfl])

theorem execHandshakeWatchdogExpiry_keeps {a₀ s : State} (h : Keeps false a₀ s) (i : Island) {t₀ : State} (e : execHandshakeWatchdogExpiry i s = .next t₀) : Keeps false a₀ t₀ := by
  unfold execHandshakeWatchdogExpiry at e
  obtain ⟨-, rfl⟩ := guardWF_next e
  repeat' first
    | with_reducible assumption | intro _ | with_reducible apply handshakeWatchdog_keeps

theorem State.haltPair_keeps {b₀ : Bool} {a₀ s : State} (h : Keeps b₀ a₀ s) (p : CorePair) : Keeps b₀ a₀ (State.haltPair s p) := by
  unfold State.haltPair
  repeat' first
    | with_reducible assumption | intro _
    | (extract_lets +onlyGivenNames u₀; first | (refine Keeps.cut (m := b₀) (a := a₀) (s := u₀) ?_ fun _ => ?_ <;> [(unfold u₀; clear u₀); ((try clear_value u₀); revert u₀; intro _ _)]) | (revert u₀; intro _))
    | with_reducible apply Keeps.ite | split | (clear_value *; split)
    | (with_reducible refine Keeps.upd ?_ ?_ ?_ ?_ <;> [assumption; rfl; rfl; rfl])

theorem execPairMismatch_keeps {b₀ : Bool} {a₀ s : State} (h : Keeps b₀ a₀ s) (p : CorePair) {t₀ : State} (e : execPairMismatch p s = .next t₀) : Keeps b₀ a₀ t₀ := by
  unfold execPairMismatch at e
  obtain ⟨-, rfl⟩ := guardWF_next e
  repeat' first
    | with_reducible assumption | intro _ | with_reducible apply State.haltPair_keeps

theorem execPairWatchdogExpiry_keeps {b₀ : Bool} {a₀ s : State} (h : Keeps b₀ a₀ s) (p : CorePair) {t₀ : State} (e : execPairWatchdogExpiry p s = .next t₀) : Keeps b₀ a₀ t₀ := by
  unfold execPairWatchdogExpiry at e
  obtain ⟨-, rfl⟩ := guardWF_next e
  repeat' first
    | with_reducible assumption | intro _ | with_reducible apply State.haltPair_keeps

theorem execServiceCoreFault_keeps {b₀ : Bool} {a₀ s : State} (h : Keeps b₀ a₀ s) {t₀ : State} (e : execServiceCoreFault s = .next t₀) : Keeps b₀ a₀ t₀ := by
  unfold execServiceCoreFault at e
  obtain ⟨-, rfl⟩ := guardWF_next e
  repeat' first
    | with_reducible assumption | intro _
    | (extract_lets +onlyGivenNames u₀; first | (refine Keeps.cut (m := b₀) (a := a₀) (s := u₀) ?_ fun _ => ?_ <;> [(unfold u₀; clear u₀); ((try clear_value u₀); revert u₀; intro _ _)]) | (revert u₀; intro _))
    | with_reducible apply Keeps.ite | split | (clear_value *; split)
    | (with_reducible refine Keeps.upd ?_ ?_ ?_ ?_ <;> [assumption; rfl; rfl; rfl])

theorem execHeartbeatExpiry_keeps {b₀ : Bool} {a₀ s : State} (h : Keeps b₀ a₀ s) {t₀ : State} (e : execHeartbeatExpiry s = .next t₀) : Keeps b₀ a₀ t₀ := by
  unfold execHeartbeatExpiry at e
  obtain ⟨-, rfl⟩ := guardWF_next e
  repeat' first
    | with_reducible assumption | intro _
    | (extract_lets +onlyGivenNames u₀; first | (refine Keeps.cut (m := b₀) (a := a₀) (s := u₀) ?_ fun _ => ?_ <;> [(unfold u₀; clear u₀); ((try clear_value u₀); revert u₀; intro _ _)]) | (revert u₀; intro _))
    | with_reducible apply Keeps.ite | split | (clear_value *; split)
    | (with_reducible refine Keeps.upd ?_ ?_ ?_ ?_ <;> [assumption; rfl; rfl; rfl])

end Sys2Proof.Machine
end

