-- ==== Sys2Proof/Laws/KeepsPower.lean ====
section
/-! SUPPORT. Every operation of Machine/Power.lean keeps what `Keeps` says. -/

namespace Sys2Proof.Machine

open Sys2Proof

set_option linter.unusedTactic false

set_option linter.unreachableTactic false

theorem State.rcount_keeps {b₀ : Bool} {a₀ s : State} (h : Keeps b₀ a₀ s) (n : Nat) : Keeps b₀ a₀ (State.rcount s n) := by
  unfold State.rcount
  repeat' first
    | with_reducible assumption | intro _ | with_reducible apply State.count_keeps

theorem State.freshBytes_keeps {b₀ : Bool} {a₀ s : State} (h : Keeps b₀ a₀ s) (n : Nat) : Keeps b₀ a₀ (s.freshBytes n).2 := by
  induction n generalizing s with
  | zero => exact h
  | succ n ih => exact ih (State.fresh_keeps h 8)

theorem State.vinBytes_keeps {b₀ : Bool} {a₀ s : State} (h : Keeps b₀ a₀ s) (v : Option Nat) : Keeps b₀ a₀ (s.vinBytes v).2 := by
  cases v
  · exact State.freshBytes_keeps h 2
  · exact h

theorem State.logBody_keeps {b₀ : Bool} {a₀ s : State} (h : Keeps b₀ a₀ s) (cause : Nat) (rail : Nat) (vin : Option Nat) : Keeps b₀ a₀ (State.logBody s cause rail vin).2 := by
  unfold State.logBody
  repeat' first
    | with_reducible assumption | intro _
    | (extract_lets +onlyGivenNames u₀; first | (refine Keeps.cut (m := b₀) (a := a₀) (s := u₀) ?_ fun _ => ?_ <;> [(unfold u₀; clear u₀); ((try clear_value u₀); revert u₀; intro _ _)]) | (revert u₀; intro _))
    | with_reducible apply State.vinBytes_keeps | with_reducible apply State.freshBytes_keeps | with_reducible apply Keeps.ite
    | split | (clear_value *; split)

theorem State.logFail_keeps {b₀ : Bool} {a₀ s : State} (h : Keeps b₀ a₀ s) (cause : Nat) (rail : Nat) (vin : Option Nat) : Keeps b₀ a₀ (State.logFail s cause rail vin) := by
  unfold State.logFail
  repeat' first
    | with_reducible assumption | intro _
    | (extract_lets +onlyGivenNames u₀; first | (refine Keeps.cut (m := b₀) (a := a₀) (s := u₀) ?_ fun _ => ?_ <;> [(unfold u₀; clear u₀); ((try clear_value u₀); revert u₀; intro _ _)]) | (revert u₀; intro _))
    | with_reducible apply State.logBody_keeps | with_reducible apply Keeps.ite | split | (clear_value *; split)
    | (with_reducible refine Keeps.upd ?_ ?_ ?_ ?_ <;> [assumption; rfl; rfl; rfl])

theorem logCommit_keeps {b₀ : Bool} {a₀ s : State} (h : Keeps b₀ a₀ s) (committed : Bool) : Keeps b₀ a₀ (logCommit committed s) := by
  unfold logCommit
  repeat' first
    | with_reducible assumption | intro _
    | (extract_lets +onlyGivenNames u₀; first | (refine Keeps.cut (m := b₀) (a := a₀) (s := u₀) ?_ fun _ => ?_ <;> [(unfold u₀; clear u₀); ((try clear_value u₀); revert u₀; intro _ _)]) | (revert u₀; intro _))
    | with_reducible apply Keeps.ite | split | (clear_value *; split)
    | (with_reducible refine Keeps.upd ?_ ?_ ?_ ?_ <;> [assumption; rfl; rfl; rfl])

theorem execLogCommit_keeps {b₀ : Bool} {a₀ s : State} (h : Keeps b₀ a₀ s) (committed : Bool) {t₀ : State} (e : execLogCommit committed s = .next t₀) : Keeps b₀ a₀ t₀ := by
  unfold execLogCommit at e
  obtain ⟨-, rfl⟩ := guardWF_next e
  repeat' first
    | with_reducible assumption | intro _ | with_reducible apply logCommit_keeps

theorem State.extRaise_keeps {b₀ : Bool} {a₀ s : State} (h : Keeps b₀ a₀ s) : Keeps b₀ a₀ (State.extRaise s) := by
  unfold State.extRaise
  repeat' first
    | with_reducible assumption | intro _
    | (extract_lets +onlyGivenNames u₀; first | (refine Keeps.cut (m := b₀) (a := a₀) (s := u₀) ?_ fun _ => ?_ <;> [(unfold u₀; clear u₀); ((try clear_value u₀); revert u₀; intro _ _)]) | (revert u₀; intro _))
    | with_reducible apply State.driveStep_keeps | with_reducible apply State.setPwr_keeps
    | with_reducible apply State.toE_keeps | (with_reducible refine Keeps.upd ?_ ?_ ?_ ?_ <;> [assumption; rfl; rfl; rfl])

theorem extStepEnable_keeps {b₀ : Bool} {a₀ s : State} (h : Keeps b₀ a₀ s) : Keeps b₀ a₀ (extStepEnable s) := by
  unfold extStepEnable
  repeat' first
    | with_reducible assumption | intro _
    | (extract_lets +onlyGivenNames u₀; first | (refine Keeps.cut (m := b₀) (a := a₀) (s := u₀) ?_ fun _ => ?_ <;> [(unfold u₀; clear u₀); ((try clear_value u₀); revert u₀; intro _ _)]) | (revert u₀; intro _))
    | with_reducible apply State.toE_keeps | with_reducible apply State.post_keeps | with_reducible apply State.extRaise_keeps
    | with_reducible apply Keeps.ite | split | (clear_value *; split)

theorem execExtStepEnable_keeps {b₀ : Bool} {a₀ s : State} (h : Keeps b₀ a₀ s) {t₀ : State} (e : execExtStepEnable s = .next t₀) : Keeps b₀ a₀ t₀ := by
  unfold execExtStepEnable at e
  obtain ⟨-, rfl⟩ := guardWF_next e
  repeat' first
    | with_reducible assumption | intro _ | with_reducible apply extStepEnable_keeps

theorem State.extQualified_keeps {b₀ : Bool} {a₀ s : State} (h : Keeps b₀ a₀ s) : Keeps b₀ a₀ (State.extQualified s) := by
  unfold State.extQualified
  repeat' first
    | with_reducible assumption | intro _
    | (extract_lets +onlyGivenNames u₀; first | (refine Keeps.cut (m := b₀) (a := a₀) (s := u₀) ?_ fun _ => ?_ <;> [(unfold u₀; clear u₀); ((try clear_value u₀); revert u₀; intro _ _)]) | (revert u₀; intro _))
    | with_reducible apply State.setBit_keeps | with_reducible apply State.setPwr_keeps | with_reducible apply State.wr_keeps
    | with_reducible apply State.extOn_keeps | with_reducible apply Keeps.foldl | with_reducible apply Keeps.foldlSnd
    | with_reducible apply Keeps.foldlFst | with_reducible apply Keeps.ite | split | (clear_value *; split)
    | (with_reducible refine Keeps.upd ?_ ?_ ?_ ?_ <;> [assumption; rfl; rfl; rfl])

theorem State.powerStart_keeps {b₀ : Bool} {a₀ s : State} (h : Keeps b₀ a₀ s) : Keeps b₀ a₀ (State.powerStart s) := by
  unfold State.powerStart
  repeat' first
    | with_reducible assumption | intro _
    | (extract_lets +onlyGivenNames u₀; first | (refine Keeps.cut (m := b₀) (a := a₀) (s := u₀) ?_ fun _ => ?_ <;> [(unfold u₀; clear u₀); ((try clear_value u₀); revert u₀; intro _ _)]) | (revert u₀; intro _))
    | with_reducible apply State.setPwr_keeps | with_reducible apply State.wr_keeps | with_reducible apply State.toI_keeps
    | with_reducible apply State.showLatch_keeps | with_reducible apply Keeps.ite | split | (clear_value *; split)
    | (with_reducible refine Keeps.upd ?_ ?_ ?_ ?_ <;> [assumption; rfl; rfl; rfl])

theorem State.railOff_keeps {b₀ : Bool} {a₀ s : State} (h : Keeps b₀ a₀ s) (r : Nat) : Keeps b₀ a₀ (State.railOff s r) := by
  unfold State.railOff
  repeat' first
    | with_reducible assumption | intro _
    | (extract_lets +onlyGivenNames u₀; first | (refine Keeps.cut (m := b₀) (a := a₀) (s := u₀) ?_ fun _ => ?_ <;> [(unfold u₀; clear u₀); ((try clear_value u₀); revert u₀; intro _ _)]) | (revert u₀; intro _))
    | with_reducible apply State.wr_keeps | with_reducible apply State.setPwr_keeps
    | (with_reducible refine Keeps.upd ?_ ?_ ?_ ?_ <;> [assumption; rfl; rfl; rfl])

theorem State.railsDown_keeps {a₀ s : State} (h : Keeps false a₀ s) : Keeps false a₀ (State.railsDown s) := by
  unfold State.railsDown
  repeat' first
    | with_reducible assumption | intro _
    | (extract_lets +onlyGivenNames u₀; first | (refine Keeps.cut (m := false) (a := a₀) (s := u₀) ?_ fun _ => ?_ <;> [(unfold u₀; clear u₀); ((try clear_value u₀); revert u₀; intro _ _)]) | (revert u₀; intro _))
    | with_reducible apply State.setPwr_keeps | with_reducible apply State.railOff_keeps
    | with_reducible apply State.toI_keeps | with_reducible apply State.sourceAssert_keeps
    | with_reducible apply State.clr_keeps | with_reducible apply Keeps.ite | split | (clear_value *; split)
    | (with_reducible refine Keeps.upd ?_ ?_ ?_ ?_ <;> [assumption; rfl; rfl; rfl])
    | (with_reducible refine Keeps.updEmpty ?_ ?_ ?_ ?_ <;> [assumption; rfl; (first | exact .inl rfl | exact .inr rfl); (first | exact .inl rfl | exact .inr rfl)])
    | (with_reducible refine Keeps.updLost ?_ ?_ ?_ ?_ <;> [assumption; (first | exact .inl rfl | exact .inr rfl); (first | exact .inl rfl | exact .inr rfl); (first | exact .inl rfl | exact .inr rfl)])

theorem State.orderlyOff_keeps {b₀ : Bool} {a₀ s : State} (h : Keeps b₀ a₀ s) : Keeps b₀ a₀ (State.orderlyOff s) := by
  unfold State.orderlyOff
  repeat' first
    | with_reducible assumption | intro _
    | (extract_lets +onlyGivenNames u₀; first | (refine Keeps.cut (m := b₀) (a := a₀) (s := u₀) ?_ fun _ => ?_ <;> [(unfold u₀; clear u₀); ((try clear_value u₀); revert u₀; intro _ _)]) | (revert u₀; intro _))
    | with_reducible apply State.toI_keeps | with_reducible apply State.disarmNow_keeps | with_reducible apply State.ev_keeps
    | with_reducible apply State.offProceed_keeps | with_reducible apply Keeps.ite | split | (clear_value *; split)

theorem State.offRequest_keeps {a₀ s : State} (h : Keeps false a₀ s) : Keeps false a₀ (State.offRequest s) := by
  unfold State.offRequest
  repeat' first
    | with_reducible assumption | intro _
    | (extract_lets +onlyGivenNames u₀; first | (refine Keeps.cut (m := false) (a := a₀) (s := u₀) ?_ fun _ => ?_ <;> [(unfold u₀; clear u₀); ((try clear_value u₀); revert u₀; intro _ _)]) | (revert u₀; intro _))
    | with_reducible apply State.railsDown_keeps | with_reducible apply State.orderlyOff_keeps | split | (clear_value *; split)
    | (with_reducible refine Keeps.upd ?_ ?_ ?_ ?_ <;> [assumption; rfl; rfl; rfl])

theorem State.onRequest_keeps {b₀ : Bool} {a₀ s : State} (h : Keeps b₀ a₀ s) : Keeps b₀ a₀ (State.onRequest s) := by
  unfold State.onRequest
  repeat' first
    | with_reducible assumption | intro _
    | (extract_lets +onlyGivenNames u₀; first | (refine Keeps.cut (m := b₀) (a := a₀) (s := u₀) ?_ fun _ => ?_ <;> [(unfold u₀; clear u₀); ((try clear_value u₀); revert u₀; intro _ _)]) | (revert u₀; intro _))
    | with_reducible apply State.setPwr_keeps | with_reducible apply State.showLatch_keeps
    | with_reducible apply State.powerStart_keeps | with_reducible apply Keeps.ite | split | (clear_value *; split)
    | (with_reducible refine Keeps.upd ?_ ?_ ?_ ?_ <;> [assumption; rfl; rfl; rfl])

theorem execVinQualified_keeps {b₀ : Bool} {a₀ s : State} (h : Keeps b₀ a₀ s) {t₀ : State} (e : execVinQualified s = .next t₀) : Keeps b₀ a₀ t₀ := by
  unfold execVinQualified at e
  obtain ⟨-, rfl⟩ := guardWF_next e
  repeat' first
    | with_reducible assumption | intro _
    | (extract_lets +onlyGivenNames u₀; first | (refine Keeps.cut (m := b₀) (a := a₀) (s := u₀) ?_ fun _ => ?_ <;> [(unfold u₀; clear u₀); ((try clear_value u₀); revert u₀; intro _ _)]) | (revert u₀; intro _))
    | with_reducible apply State.setPwr_keeps | with_reducible apply State.powerStart_keeps
    | (with_reducible refine Keeps.upd ?_ ?_ ?_ ?_ <;> [assumption; rfl; rfl; rfl])

theorem execPwrOnChange_keeps {a₀ s : State} (h : Keeps false a₀ s) (high : Bool) {t₀ : State} (e : execPwrOnChange high s = .next t₀) : Keeps false a₀ t₀ := by
  unfold execPwrOnChange at e
  obtain ⟨-, rfl⟩ := guardWF_next e
  repeat' first
    | with_reducible assumption | intro _
    | (extract_lets +onlyGivenNames u₀; first | (refine Keeps.cut (m := false) (a := a₀) (s := u₀) ?_ fun _ => ?_ <;> [(unfold u₀; clear u₀); ((try clear_value u₀); revert u₀; intro _ _)]) | (revert u₀; intro _))
    | with_reducible apply State.wrB_keeps | with_reducible apply State.onRequest_keeps
    | with_reducible apply State.offRequest_keeps | with_reducible apply Keeps.ite | split | (clear_value *; split)

theorem State.readOptions_keeps {b₀ : Bool} {a₀ s : State} (h : Keeps b₀ a₀ s) : Keeps b₀ a₀ (State.readOptions s) := by
  unfold State.readOptions
  repeat' first
    | with_reducible assumption | intro _
    | (extract_lets +onlyGivenNames u₀; first | (refine Keeps.cut (m := b₀) (a := a₀) (s := u₀) ?_ fun _ => ?_ <;> [(unfold u₀; clear u₀); ((try clear_value u₀); revert u₀; intro _ _)]) | (revert u₀; intro _))
    | with_reducible apply State.wr_keeps | with_reducible apply State.take_keeps | with_reducible apply State.wrB_keeps
    | with_reducible apply Keeps.foldl | with_reducible apply Keeps.foldlSnd | with_reducible apply Keeps.foldlFst
    | with_reducible apply Keeps.ite | split | (clear_value *; split)
    | (with_reducible refine Keeps.upd ?_ ?_ ?_ ?_ <;> [assumption; rfl; rfl; rfl])

theorem State.vio33Up_keeps {b₀ : Bool} {a₀ s : State} (h : Keeps b₀ a₀ s) : Keeps b₀ a₀ (State.vio33Up s) := by
  unfold State.vio33Up
  repeat' first
    | with_reducible assumption | intro _
    | (extract_lets +onlyGivenNames u₀; first | (refine Keeps.cut (m := b₀) (a := a₀) (s := u₀) ?_ fun _ => ?_ <;> [(unfold u₀; clear u₀); ((try clear_value u₀); revert u₀; intro _ _)]) | (revert u₀; intro _))
    | with_reducible apply State.wr_keeps | with_reducible apply State.wrB_keeps | with_reducible apply State.readOptions_keeps
    | with_reducible apply Keeps.foldl | with_reducible apply Keeps.foldlSnd | with_reducible apply Keeps.foldlFst
    | with_reducible apply Keeps.ite | split | (clear_value *; split)

theorem State.railQualified_keeps {b₀ : Bool} {a₀ s : State} (h : Keeps b₀ a₀ s) (r : Nat) : Keeps b₀ a₀ (State.railQualified s r) := by
  unfold State.railQualified
  repeat' first
    | with_reducible assumption | intro _
    | (extract_lets +onlyGivenNames u₀; first | (refine Keeps.cut (m := b₀) (a := a₀) (s := u₀) ?_ fun _ => ?_ <;> [(unfold u₀; clear u₀); ((try clear_value u₀); revert u₀; intro _ _)]) | (revert u₀; intro _))
    | with_reducible apply State.setPwr_keeps | with_reducible apply State.setBit_keeps
    | with_reducible apply State.vio33Up_keeps | with_reducible apply State.wr_keeps | with_reducible apply State.toI_keeps
    | with_reducible apply State.sourceDeassert_keeps | with_reducible apply Keeps.ite | split | (clear_value *; split)
    | (with_reducible refine Keeps.upd ?_ ?_ ?_ ?_ <;> [assumption; rfl; rfl; rfl])

theorem execRailQualified_keeps {b₀ : Bool} {a₀ s : State} (h : Keeps b₀ a₀ s) (r : RailId) {t₀ : State} (e : execRailQualified r s = .next t₀) : Keeps b₀ a₀ t₀ := by
  unfold execRailQualified at e
  split at e <;> obtain ⟨-, rfl⟩ := guardWF_next e
  all_goals repeat' first
    | with_reducible assumption | intro _
    | (extract_lets +onlyGivenNames u₀; first | (refine Keeps.cut (m := b₀) (a := a₀) (s := u₀) ?_ fun _ => ?_ <;> [(unfold u₀; clear u₀); ((try clear_value u₀); revert u₀; intro _ _)]) | (revert u₀; intro _))
    | with_reducible apply State.railQualified_keeps | with_reducible apply State.extQualified_keeps | split
    | (clear_value *; split) | (with_reducible refine Keeps.upd ?_ ?_ ?_ ?_ <;> [assumption; rfl; rfl; rfl])

theorem State.lateMonitors_keeps {b₀ : Bool} {a₀ s : State} (h : Keeps b₀ a₀ s) (i : Nat) : Keeps b₀ a₀ (State.lateMonitors s i).2 := by
  unfold State.lateMonitors
  repeat' first
    | with_reducible assumption | intro _
    | (extract_lets +onlyGivenNames u₀; first | (refine Keeps.cut (m := b₀) (a := a₀) (s := u₀) ?_ fun _ => ?_ <;> [(unfold u₀; clear u₀); ((try clear_value u₀); revert u₀; intro _ _)]) | (refine Keeps.cut (m := b₀) (a := a₀) (s := u₀.2) ?_ fun _ => ?_ <;> [(unfold u₀; clear u₀); ((try clear_value u₀); revert u₀; intro _ _)]) | (revert u₀; intro _))
    | with_reducible apply State.fresh_keeps | with_reducible apply Keeps.ite | with_reducible apply Keeps.iteSnd
    | split | (clear_value *; split) | (with_reducible refine Keeps.upd ?_ ?_ ?_ ?_ <;> [assumption; rfl; rfl; rfl])

theorem railTimeout_keeps {a₀ s : State} (h : Keeps false a₀ s) (r : RailId) : Keeps false a₀ (railTimeout r s) := by
  unfold railTimeout
  repeat' first
    | with_reducible assumption | intro _
    | (extract_lets +onlyGivenNames u₀; first | (refine Keeps.cut (m := false) (a := a₀) (s := u₀) ?_ fun _ => ?_ <;> [(unfold u₀; clear u₀); ((try clear_value u₀); revert u₀; intro _ _)]) | (refine Keeps.cut (m := false) (a := a₀) (s := u₀.2) ?_ fun _ => ?_ <;> [(unfold u₀; clear u₀); ((try clear_value u₀); revert u₀; intro _ _)]) | (revert u₀; intro _))
    | with_reducible apply State.ev_keeps | with_reducible apply State.rcount_keeps
    | with_reducible apply State.railsDown_keeps | with_reducible apply State.setPwr_keeps
    | with_reducible apply State.extDown_keeps | with_reducible apply State.lateMonitors_keeps
    | with_reducible apply State.logFail_keeps | with_reducible apply Keeps.foldl
    | with_reducible apply Keeps.foldlSnd | with_reducible apply Keeps.foldlFst | with_reducible apply Keeps.ite
    | with_reducible apply Keeps.iteSnd | split | (clear_value *; split)
    | (with_reducible refine Keeps.upd ?_ ?_ ?_ ?_ <;> [assumption; rfl; rfl; rfl])

theorem execRailTimeout_keeps {a₀ s : State} (h : Keeps false a₀ s) (r : RailId) {t₀ : State} (e : execRailTimeout r s = .next t₀) : Keeps false a₀ t₀ := by
  unfold execRailTimeout at e
  obtain ⟨-, rfl⟩ := guardWF_next e
  repeat' first
    | with_reducible assumption | intro _ | with_reducible apply railTimeout_keeps

theorem State.aonReset_keeps {a₀ s : State} (h : Keeps false a₀ s) (por : Bool) : Keeps false a₀ (s.aonReset por) := by
  refine State.showReset_keeps (State.wrB_keeps ?_ _ _ _)
  refine ⟨h.hw, h.fuses, h.pending, h.out, h.free, fun _ => ?_, fun e => nomatch e⟩
  constructor <;> simp [Memory.wf, Regs.wf, State.reset]

theorem State.moduleOff_keeps {a₀ s : State} (h : Keeps false a₀ s) : Keeps false a₀ (State.moduleOff s) := by
  unfold State.moduleOff
  repeat' first
    | with_reducible assumption | intro _
    | (extract_lets +onlyGivenNames u₀; first | (refine Keeps.cut (m := false) (a := a₀) (s := u₀) ?_ fun _ => ?_ <;> [(unfold u₀; clear u₀); ((try clear_value u₀); revert u₀; intro _ _)]) | (revert u₀; intro _))
    | with_reducible apply State.toI_keeps | with_reducible apply State.aonReset_keeps | with_reducible apply State.setPwr_keeps
    | with_reducible apply State.showLatch_keeps | with_reducible apply State.powerStart_keeps | with_reducible apply Keeps.ite
    | split | (clear_value *; split) | (with_reducible refine Keeps.upd ?_ ?_ ?_ ?_ <;> [assumption; rfl; rfl; rfl])

theorem railFallen_keeps {a₀ s : State} (h : Keeps false a₀ s) (r : RailId) : Keeps false a₀ (railFallen r s) := by
  unfold railFallen
  repeat' first
    | with_reducible assumption | intro _
    | (extract_lets +onlyGivenNames u₀; first | (refine Keeps.cut (m := false) (a := a₀) (s := u₀) ?_ fun _ => ?_ <;> [(unfold u₀; clear u₀); ((try clear_value u₀); revert u₀; intro _ _)]) | (revert u₀; intro _))
    | with_reducible apply State.setBit_keeps | with_reducible apply State.railOff_keeps
    | with_reducible apply State.moduleOff_keeps | with_reducible apply State.extLower_keeps
    | with_reducible apply Keeps.ite | split | (clear_value *; split)
    | (with_reducible refine Keeps.upd ?_ ?_ ?_ ?_ <;> [assumption; rfl; rfl; rfl])

theorem execRailFallen_keeps {a₀ s : State} (h : Keeps false a₀ s) (r : RailId) {t₀ : State} (e : execRailFallen r s = .next t₀) : Keeps false a₀ t₀ := by
  unfold execRailFallen at e
  obtain ⟨-, rfl⟩ := guardWF_next e
  repeat' first
    | with_reducible assumption | intro _ | with_reducible apply railFallen_keeps

theorem fallLate_keeps {b₀ : Bool} {a₀ s : State} (h : Keeps b₀ a₀ s) (r : RailId) : Keeps b₀ a₀ (fallLate r s) := by
  unfold fallLate
  repeat' first
    | with_reducible assumption | intro _
    | (extract_lets +onlyGivenNames u₀; first | (refine Keeps.cut (m := b₀) (a := a₀) (s := u₀) ?_ fun _ => ?_ <;> [(unfold u₀; clear u₀); ((try clear_value u₀); revert u₀; intro _ _)]) | (refine Keeps.cut (m := b₀) (a := a₀) (s := u₀.2) ?_ fun _ => ?_ <;> [(unfold u₀; clear u₀); ((try clear_value u₀); revert u₀; intro _ _)]) | (revert u₀; intro _))
    | with_reducible apply State.ev_keeps | with_reducible apply State.fresh_keeps
    | with_reducible apply State.logFail_keeps | with_reducible apply Keeps.ite | with_reducible apply Keeps.iteSnd
    | split | (clear_value *; split) | (with_reducible refine Keeps.upd ?_ ?_ ?_ ?_ <;> [assumption; rfl; rfl; rfl])

theorem execFallLateTimeout_keeps {b₀ : Bool} {a₀ s : State} (h : Keeps b₀ a₀ s) (r : RailId) {t₀ : State} (e : execFallLateTimeout r s = .next t₀) : Keeps b₀ a₀ t₀ := by
  unfold execFallLateTimeout at e
  obtain ⟨-, rfl⟩ := guardWF_next e
  repeat' first
    | with_reducible assumption | intro _ | with_reducible apply fallLate_keeps

theorem execOffWaitTimeout_keeps {b₀ : Bool} {a₀ s : State} (h : Keeps b₀ a₀ s) {t₀ : State} (e : execOffWaitTimeout s = .next t₀) : Keeps b₀ a₀ t₀ := by
  unfold execOffWaitTimeout at e
  obtain ⟨-, rfl⟩ := guardWF_next e
  repeat' first
    | with_reducible assumption | intro _ | with_reducible apply State.offProceed_keeps | with_reducible apply Keeps.ite | split
    | (clear_value *; split)

theorem disarmComplete_keeps {b₀ : Bool} {a₀ s : State} (h : Keeps b₀ a₀ s) : Keeps b₀ a₀ (disarmComplete s) := by
  unfold disarmComplete
  repeat' first
    | with_reducible assumption | intro _
    | (extract_lets +onlyGivenNames u₀; first | (refine Keeps.cut (m := b₀) (a := a₀) (s := u₀) ?_ fun _ => ?_ <;> [(unfold u₀; clear u₀); ((try clear_value u₀); revert u₀; intro _ _)]) | (revert u₀; intro _))
    | with_reducible apply State.offWaited_keeps | with_reducible apply State.reactOn_keeps
    | with_reducible apply State.disarmEnd_keeps | with_reducible apply Keeps.ite | split | (clear_value *; split)
    | (with_reducible refine Keeps.upd ?_ ?_ ?_ ?_ <;> [assumption; rfl; rfl; rfl])

theorem execDisarmComplete_keeps {b₀ : Bool} {a₀ s : State} (h : Keeps b₀ a₀ s) {t₀ : State} (e : execDisarmComplete s = .next t₀) : Keeps b₀ a₀ t₀ := by
  unfold execDisarmComplete at e
  obtain ⟨-, rfl⟩ := guardWF_next e
  repeat' first
    | with_reducible assumption | intro _ | with_reducible apply disarmComplete_keeps

theorem counterCopyDone_keeps {a₀ s : State} (h : Keeps false a₀ s) : Keeps false a₀ (counterCopyDone s) := by
  unfold counterCopyDone
  repeat' first
    | with_reducible assumption | intro _
    | (extract_lets +onlyGivenNames u₀; first | (refine Keeps.cut (m := false) (a := a₀) (s := u₀) ?_ fun _ => ?_ <;> [(unfold u₀; clear u₀); ((try clear_value u₀); revert u₀; intro _ _)]) | (revert u₀; intro _))
    | with_reducible apply State.railsDown_keeps | with_reducible apply Keeps.ite | split | (clear_value *; split)
    | (with_reducible refine Keeps.upd ?_ ?_ ?_ ?_ <;> [assumption; rfl; rfl; rfl])

theorem execCounterCopyDone_keeps {a₀ s : State} (h : Keeps false a₀ s) {t₀ : State} (e : execCounterCopyDone s = .next t₀) : Keeps false a₀ t₀ := by
  unfold execCounterCopyDone at e
  obtain ⟨-, rfl⟩ := guardWF_next e
  repeat' first
    | with_reducible assumption | intro _ | with_reducible apply counterCopyDone_keeps

theorem State.releaseOutputs_keeps {b₀ : Bool} {a₀ s : State} (h : Keeps b₀ a₀ s) : Keeps b₀ a₀ (State.releaseOutputs s) := by
  unfold State.releaseOutputs
  repeat' first
    | with_reducible assumption | intro _
    | (extract_lets +onlyGivenNames u₀; first | (refine Keeps.cut (m := b₀) (a := a₀) (s := u₀) ?_ fun _ => ?_ <;> [(unfold u₀; clear u₀); ((try clear_value u₀); revert u₀; intro _ _)]) | (revert u₀; intro _))
    | with_reducible apply State.driveStep_keeps | with_reducible apply State.releasePins_keeps
    | with_reducible apply Keeps.foldl | with_reducible apply Keeps.foldlSnd | with_reducible apply Keeps.foldlFst

theorem supplyFault_keeps {a₀ s : State} (h : Keeps false a₀ s) (r : Nat) : Keeps false a₀ (supplyFault r s) := by
  unfold supplyFault
  repeat' first
    | with_reducible assumption | intro _
    | (extract_lets +onlyGivenNames u₀; first | (refine Keeps.cut (m := false) (a := a₀) (s := u₀) ?_ fun _ => ?_ <;> [(unfold u₀; clear u₀); ((try clear_value u₀); revert u₀; intro _ _)]) | (revert u₀; intro _))
    | with_reducible apply State.logFail_keeps | with_reducible apply State.releaseOutputs_keeps
    | with_reducible apply State.extDown_keeps | with_reducible apply State.setPwr_keeps
    | with_reducible apply State.railsDown_keeps | with_reducible apply Keeps.ite | split | (clear_value *; split)
    | (with_reducible refine Keeps.upd ?_ ?_ ?_ ?_ <;> [assumption; rfl; rfl; rfl])

theorem execSupplyFault_keeps {a₀ s : State} (h : Keeps false a₀ s) (r : Nat) {t₀ : State} (e : execSupplyFault r s = .next t₀) : Keeps false a₀ t₀ := by
  unfold execSupplyFault at e
  obtain ⟨-, rfl⟩ := guardWF_next e
  repeat' first
    | with_reducible assumption | intro _ | with_reducible apply supplyFault_keeps

theorem inputCollapse_keeps {a₀ s : State} (h : Keeps false a₀ s) (mv : Nat) : Keeps false a₀ (inputCollapse mv s) := by
  unfold inputCollapse
  repeat' first
    | with_reducible assumption | intro _
    | (extract_lets +onlyGivenNames u₀; first | (refine Keeps.cut (m := false) (a := a₀) (s := u₀) ?_ fun _ => ?_ <;> [(unfold u₀; clear u₀); ((try clear_value u₀); revert u₀; intro _ _)]) | (revert u₀; intro _))
    | with_reducible apply State.railsDown_keeps | with_reducible apply State.releaseOutputs_keeps
    | with_reducible apply State.ldenLow_keeps | with_reducible apply State.logFail_keeps
    | with_reducible apply State.setGate_keeps | with_reducible apply State.toE_keeps
    | with_reducible apply State.wr_keeps | with_reducible apply State.setPwr_keeps
    | with_reducible apply State.clr_keeps | with_reducible apply State.railOff_keeps
    | with_reducible apply State.closeKinds_keeps | with_reducible apply Keeps.foldl
    | with_reducible apply Keeps.foldlSnd | with_reducible apply Keeps.foldlFst | with_reducible apply Keeps.ite
    | split | (clear_value *; split) | (with_reducible refine Keeps.upd ?_ ?_ ?_ ?_ <;> [assumption; rfl; rfl; rfl])

theorem execInputCollapse_keeps {a₀ s : State} (h : Keeps false a₀ s) (mv : Nat) {t₀ : State} (e : execInputCollapse mv s = .next t₀) : Keeps false a₀ t₀ := by
  unfold execInputCollapse at e
  obtain ⟨-, rfl⟩ := guardWF_next e
  repeat' first
    | with_reducible assumption | intro _ | with_reducible apply inputCollapse_keeps

theorem railWindowChange_keeps {b₀ : Bool} {a₀ s : State} (h : Keeps b₀ a₀ s) (w : WindowId) (good : Bool) : Keeps b₀ a₀ (railWindowChange w good s) := by
  unfold railWindowChange
  repeat' first
    | with_reducible assumption | intro _
    | (extract_lets +onlyGivenNames u₀; first | (refine Keeps.cut (m := b₀) (a := a₀) (s := u₀) ?_ fun _ => ?_ <;> [(unfold u₀; clear u₀); ((try clear_value u₀); revert u₀; intro _ _)]) | (revert u₀; intro _))
    | with_reducible apply State.setBit_keeps | with_reducible apply State.rcount_keeps | with_reducible apply Keeps.ite | split
    | (clear_value *; split) | (with_reducible refine Keeps.upd ?_ ?_ ?_ ?_ <;> [assumption; rfl; rfl; rfl])

theorem execRailWindowChange_keeps {b₀ : Bool} {a₀ s : State} (h : Keeps b₀ a₀ s) (w : WindowId) (good : Bool) {t₀ : State} (e : execRailWindowChange w good s = .next t₀) : Keeps b₀ a₀ t₀ := by
  unfold execRailWindowChange at e
  obtain ⟨-, rfl⟩ := guardWF_next e
  repeat' first
    | with_reducible assumption | intro _ | with_reducible apply railWindowChange_keeps

theorem State.pwrRefuse_keeps {b₀ : Bool} {a₀ s : State} (h : Keeps b₀ a₀ s) : Keeps b₀ a₀ (State.pwrRefuse s) := by
  unfold State.pwrRefuse
  repeat' first
    | with_reducible assumption | intro _ | with_reducible apply State.ev_keeps

theorem execPwrOff_keeps {b₀ : Bool} {a₀ s : State} (h : Keeps b₀ a₀ s) (v : Word) {t₀ : State} (e : execPwrOff v s = .next t₀) : Keeps b₀ a₀ t₀ := by
  unfold execPwrOff at e
  obtain ⟨-, rfl⟩ := guardWF_next e
  repeat' first
    | with_reducible assumption | intro _ | with_reducible apply State.hostWrite_keeps
    | with_reducible apply State.orderlyOff_keeps | with_reducible apply State.pwrRefuse_keeps | with_reducible apply Keeps.ite
    | split | (clear_value *; split)

theorem execExtOn_keeps {b₀ : Bool} {a₀ s : State} (h : Keeps b₀ a₀ s) (v : Word) {t₀ : State} (e : execExtOn v s = .next t₀) : Keeps b₀ a₀ t₀ := by
  unfold execExtOn at e
  obtain ⟨-, rfl⟩ := guardWF_next e
  repeat' first
    | with_reducible assumption | intro _
    | (extract_lets +onlyGivenNames u₀; first | (refine Keeps.cut (m := b₀) (a := a₀) (s := u₀) ?_ fun _ => ?_ <;> [(unfold u₀; clear u₀); ((try clear_value u₀); revert u₀; intro _ _)]) | (revert u₀; intro _))
    | with_reducible apply State.hostWrite_keeps | with_reducible apply State.setPwr_keeps
    | with_reducible apply State.showLatch_keeps | with_reducible apply State.extStart_keeps
    | with_reducible apply State.pwrRefuse_keeps | with_reducible apply Keeps.ite | split | (clear_value *; split)
    | (with_reducible refine Keeps.upd ?_ ?_ ?_ ?_ <;> [assumption; rfl; rfl; rfl])

theorem execExtOff_keeps {b₀ : Bool} {a₀ s : State} (h : Keeps b₀ a₀ s) (v : Word) {t₀ : State} (e : execExtOff v s = .next t₀) : Keeps b₀ a₀ t₀ := by
  unfold execExtOff at e
  obtain ⟨-, rfl⟩ := guardWF_next e
  repeat' first
    | with_reducible assumption | intro _ | with_reducible apply State.hostWrite_keeps
    | with_reducible apply State.pwrRefuse_keeps | with_reducible apply State.extDown_keeps | with_reducible apply Keeps.ite
    | split | (clear_value *; split)

theorem State.stepNow_keeps {b₀ : Bool} {a₀ s : State} (h : Keeps b₀ a₀ s) : Keeps b₀ a₀ (State.stepNow s) := by
  unfold State.stepNow
  repeat' first
    | with_reducible assumption | intro _ | with_reducible apply State.closeDecision_keeps
    | with_reducible apply State.extRaise_keeps | with_reducible apply State.pwrRefuse_keeps | with_reducible apply Keeps.ite
    | split | (clear_value *; split)

theorem execStep_keeps {b₀ : Bool} {a₀ s : State} (h : Keeps b₀ a₀ s) (v : Word) {t₀ : State} (e : execStep v s = .next t₀) : Keeps b₀ a₀ t₀ := by
  unfold execStep at e
  obtain ⟨-, rfl⟩ := guardWF_next e
  repeat' first
    | with_reducible assumption | intro _ | with_reducible apply State.hostWrite_keeps
    | with_reducible apply State.stepNow_keeps

end Sys2Proof.Machine
end

