-- ==== Sys2Proof/Laws/KeepsCascade.lean ====
section
/-! SUPPORT. Every operation of Machine/Cascade.lean keeps what `Keeps` says. -/

namespace Sys2Proof.Machine

open Sys2Proof

set_option linter.unusedTactic false

set_option linter.unreachableTactic false

theorem State.setBeacon_keeps {b₀ : Bool} {a₀ s : State} (h : Keeps b₀ a₀ s) (p : Port) (b : Option Beacon) : Keeps b₀ a₀ (State.setBeacon s p b) := by
  unfold State.setBeacon
  repeat' first
    | with_reducible assumption | intro _
    | (extract_lets +onlyGivenNames u₀; first | (refine Keeps.cut (m := b₀) (a := a₀) (s := u₀) ?_ fun _ => ?_ <;> [(unfold u₀; clear u₀); ((try clear_value u₀); revert u₀; intro _ _)]) | (revert u₀; intro _))
    | split | (clear_value *; split) | (with_reducible refine Keeps.upd ?_ ?_ ?_ ?_ <;> [assumption; rfl; rfl; rfl])

theorem State.settleUpstream_keeps {b₀ : Bool} {a₀ s : State} (h : Keeps b₀ a₀ s) : Keeps b₀ a₀ (State.settleUpstream s) := by
  unfold State.settleUpstream
  repeat' first
    | with_reducible assumption | intro _
    | (extract_lets +onlyGivenNames u₀; first | (refine Keeps.cut (m := b₀) (a := a₀) (s := u₀) ?_ fun _ => ?_ <;> [(unfold u₀; clear u₀); ((try clear_value u₀); revert u₀; intro _ _)]) | (revert u₀; intro _))
    | with_reducible apply State.wr_keeps | with_reducible apply Keeps.ite | split | (clear_value *; split)
    | (with_reducible refine Keeps.upd ?_ ?_ ?_ ?_ <;> [assumption; rfl; rfl; rfl])

theorem execBeaconTx_keeps {b₀ : Bool} {a₀ s : State} (h : Keeps b₀ a₀ s) {t₀ : State} (e : execBeaconTx s = .next t₀) : Keeps b₀ a₀ t₀ := by
  unfold execBeaconTx at e
  obtain ⟨-, rfl⟩ := guardWF_next e
  repeat' first
    | with_reducible assumption | intro _ | with_reducible apply State.broadcast_keeps | with_reducible apply Keeps.ite | split
    | (clear_value *; split)

theorem beaconRx_keeps {b₀ : Bool} {a₀ s : State} (h : Keeps b₀ a₀ s) (p : Port) (hop : Nat) (master : Nat) (version : Nat) : Keeps b₀ a₀ (beaconRx p hop master version s) := by
  unfold beaconRx
  repeat' first
    | with_reducible assumption | intro _
    | (extract_lets +onlyGivenNames u₀; first | (refine Keeps.cut (m := b₀) (a := a₀) (s := u₀) ?_ fun _ => ?_ <;> [(unfold u₀; clear u₀); ((try clear_value u₀); revert u₀; intro _ _)]) | (revert u₀; intro _))
    | with_reducible apply State.ev_keeps | with_reducible apply State.setBeacon_keeps
    | with_reducible apply State.emit_keeps | with_reducible apply State.settleUpstream_keeps
    | with_reducible apply Keeps.ite | split | (clear_value *; split)
    | (with_reducible refine Keeps.upd ?_ ?_ ?_ ?_ <;> [assumption; rfl; rfl; rfl])

theorem execBeaconRx_keeps {b₀ : Bool} {a₀ s : State} (h : Keeps b₀ a₀ s) (p : Port) (hop : Nat) (master : Nat) (version : Nat) {t₀ : State} (e : execBeaconRx p hop master version s = .next t₀) : Keeps b₀ a₀ t₀ := by
  unfold execBeaconRx at e
  obtain ⟨-, rfl⟩ := guardWF_next e
  repeat' first
    | with_reducible assumption | intro _ | with_reducible apply beaconRx_keeps

theorem execSyncTx_keeps {b₀ : Bool} {a₀ s : State} (h : Keeps b₀ a₀ s) {t₀ : State} (e : execSyncTx s = .next t₀) : Keeps b₀ a₀ t₀ := by
  unfold execSyncTx at e
  obtain ⟨-, rfl⟩ := guardWF_next e
  repeat' first
    | with_reducible assumption | intro _ | with_reducible apply State.broadcast_keeps | with_reducible apply Keeps.ite | split
    | (clear_value *; split)

theorem State.shiftTime_keeps {b₀ : Bool} {a₀ s : State} (h : Keeps b₀ a₀ s) (z : Int) : Keeps b₀ a₀ (State.shiftTime s z) := by
  unfold State.shiftTime
  repeat' first
    | with_reducible assumption | intro _
    | (extract_lets +onlyGivenNames u₀; first | (refine Keeps.cut (m := b₀) (a := a₀) (s := u₀) ?_ fun _ => ?_ <;> [(unfold u₀; clear u₀); ((try clear_value u₀); revert u₀; intro _ _)]) | (revert u₀; intro _))
    | (with_reducible refine Keeps.upd ?_ ?_ ?_ ?_ <;> [assumption; rfl; rfl; rfl])

theorem State.toT_keeps {b₀ : Bool} {a₀ s : State} (h : Keeps b₀ a₀ s) (n : Nat) : Keeps b₀ a₀ (State.toT s n) := by
  unfold State.toT
  repeat' first
    | with_reducible assumption | intro _
    | (extract_lets +onlyGivenNames u₀; first | (refine Keeps.cut (m := b₀) (a := a₀) (s := u₀) ?_ fun _ => ?_ <;> [(unfold u₀; clear u₀); ((try clear_value u₀); revert u₀; intro _ _)]) | (revert u₀; intro _))
    | with_reducible apply State.wr_keeps | (with_reducible refine Keeps.upd ?_ ?_ ?_ ?_ <;> [assumption; rfl; rfl; rfl])

theorem State.slew_keeps {b₀ : Bool} {a₀ s : State} (h : Keeps b₀ a₀ s) (offset : Int) (elapsed : Nat) : Keeps b₀ a₀ (State.slew s offset elapsed) := by
  unfold State.slew
  repeat' first
    | with_reducible assumption | intro _
    | (extract_lets +onlyGivenNames u₀; first | (refine Keeps.cut (m := b₀) (a := a₀) (s := u₀) ?_ fun _ => ?_ <;> [(unfold u₀; clear u₀); ((try clear_value u₀); revert u₀; intro _ _)]) | (revert u₀; intro _))
    | with_reducible apply State.shiftTime_keeps

theorem State.align_keeps {b₀ : Bool} {a₀ s : State} (h : Keeps b₀ a₀ s) (offset : Int) (elapsed : Nat) : Keeps b₀ a₀ (State.align s offset elapsed) := by
  unfold State.align
  repeat' first
    | with_reducible assumption | intro _
    | (extract_lets +onlyGivenNames u₀; first | (refine Keeps.cut (m := b₀) (a := a₀) (s := u₀) ?_ fun _ => ?_ <;> [(unfold u₀; clear u₀); ((try clear_value u₀); revert u₀; intro _ _)]) | (revert u₀; intro _))
    | with_reducible apply State.ev_keeps | with_reducible apply State.toT_keeps | with_reducible apply State.shiftTime_keeps
    | with_reducible apply State.slew_keeps | with_reducible apply Keeps.ite | split | (clear_value *; split)
    | (with_reducible refine Keeps.upd ?_ ?_ ?_ ?_ <;> [assumption; rfl; rfl; rfl])

theorem syncRx_keeps {b₀ : Bool} {a₀ s : State} (h : Keeps b₀ a₀ s) (p : Port) (ts : Nat) (correction : Nat) (arrival : Nat) : Keeps b₀ a₀ (syncRx p ts correction arrival s) := by
  unfold syncRx
  repeat' first
    | with_reducible assumption | intro _
    | (extract_lets +onlyGivenNames u₀; first | (refine Keeps.cut (m := b₀) (a := a₀) (s := u₀) ?_ fun _ => ?_ <;> [(unfold u₀; clear u₀); ((try clear_value u₀); revert u₀; intro _ _)]) | (refine Keeps.cut (m := b₀) (a := a₀) (s := u₀.2) ?_ fun _ => ?_ <;> [(unfold u₀; clear u₀); ((try clear_value u₀); revert u₀; intro _ _)]) | (revert u₀; intro _))
    | with_reducible apply State.fresh_keeps | with_reducible apply State.wrS_keeps
    | with_reducible apply State.emit_keeps | with_reducible apply State.align_keeps | with_reducible apply Keeps.ite
    | with_reducible apply Keeps.iteSnd | split | (clear_value *; split)
    | (with_reducible refine Keeps.upd ?_ ?_ ?_ ?_ <;> [assumption; rfl; rfl; rfl])

theorem execSyncRx_keeps {b₀ : Bool} {a₀ s : State} (h : Keeps b₀ a₀ s) (p : Port) (ts : Nat) (correction : Nat) (arrival : Nat) {t₀ : State} (e : execSyncRx p ts correction arrival s = .next t₀) : Keeps b₀ a₀ t₀ := by
  unfold execSyncRx at e
  obtain ⟨-, rfl⟩ := guardWF_next e
  repeat' first
    | with_reducible assumption | intro _ | with_reducible apply syncRx_keeps

theorem execSyncTimeout_keeps {b₀ : Bool} {a₀ s : State} (h : Keeps b₀ a₀ s) {t₀ : State} (e : execSyncTimeout s = .next t₀) : Keeps b₀ a₀ t₀ := by
  unfold execSyncTimeout at e
  obtain ⟨-, rfl⟩ := guardWF_next e
  repeat' first
    | with_reducible assumption | intro _
    | (extract_lets +onlyGivenNames u₀; first | (refine Keeps.cut (m := b₀) (a := a₀) (s := u₀) ?_ fun _ => ?_ <;> [(unfold u₀; clear u₀); ((try clear_value u₀); revert u₀; intro _ _)]) | (revert u₀; intro _))
    | with_reducible apply State.toT_keeps | with_reducible apply State.ev_keeps | with_reducible apply Keeps.ite | split
    | (clear_value *; split) | (with_reducible refine Keeps.upd ?_ ?_ ?_ ?_ <;> [assumption; rfl; rfl; rfl])

theorem State.heard_keeps {b₀ : Bool} {a₀ s : State} (h : Keeps b₀ a₀ s) (pos : Nat) : Keeps b₀ a₀ (State.heard s pos) := by
  unfold State.heard
  repeat' first
    | with_reducible assumption | intro _ | with_reducible apply State.ev_keeps | with_reducible apply Keeps.ite | split
    | (clear_value *; split)

theorem cascadeGateQuery_keeps {b₀ : Bool} {a₀ s : State} (h : Keeps b₀ a₀ s) (tag : Word) : Keeps b₀ a₀ (cascadeGateQuery tag s) := by
  unfold cascadeGateQuery
  repeat' first
    | with_reducible assumption | intro _
    | (extract_lets +onlyGivenNames u₀; first | (refine Keeps.cut (m := b₀) (a := a₀) (s := u₀) ?_ fun _ => ?_ <;> [(unfold u₀; clear u₀); ((try clear_value u₀); revert u₀; intro _ _)]) | (revert u₀; intro _))
    | with_reducible apply State.refuse_keeps | with_reducible apply State.relay_keeps
    | with_reducible apply State.ev_keeps | with_reducible apply State.upward_keeps
    | with_reducible apply State.post_keeps | with_reducible apply Keeps.ite | split | (clear_value *; split)
    | (with_reducible refine Keeps.upd ?_ ?_ ?_ ?_ <;> [assumption; rfl; rfl; rfl])

theorem execCascadeGateQuery_keeps {b₀ : Bool} {a₀ s : State} (h : Keeps b₀ a₀ s) (tag : Word) {t₀ : State} (e : execCascadeGateQuery tag s = .next t₀) : Keeps b₀ a₀ t₀ := by
  unfold execCascadeGateQuery at e
  obtain ⟨-, rfl⟩ := guardWF_next e
  repeat' first
    | with_reducible assumption | intro _ | with_reducible apply cascadeGateQuery_keeps

theorem State.jointRefuse_keeps {b₀ : Bool} {a₀ s : State} (h : Keeps b₀ a₀ s) : Keeps b₀ a₀ (State.jointRefuse s) := by
  unfold State.jointRefuse
  repeat' first
    | with_reducible assumption | intro _
    | (extract_lets +onlyGivenNames u₀; first | (refine Keeps.cut (m := b₀) (a := a₀) (s := u₀) ?_ fun _ => ?_ <;> [(unfold u₀; clear u₀); ((try clear_value u₀); revert u₀; intro _ _)]) | (revert u₀; intro _))
    | with_reducible apply State.skipFeed_keeps | with_reducible apply State.refuse_keeps
    | with_reducible apply Keeps.ite | split | (clear_value *; split)
    | (with_reducible refine Keeps.upd ?_ ?_ ?_ ?_ <;> [assumption; rfl; rfl; rfl])

theorem State.jointAdmit_keeps {b₀ : Bool} {a₀ s : State} (h : Keeps b₀ a₀ s) (c : Nat) : Keeps b₀ a₀ (State.jointAdmit s c) := by
  unfold State.jointAdmit
  repeat' first
    | with_reducible assumption | intro _
    | (extract_lets +onlyGivenNames u₀; first | (refine Keeps.cut (m := b₀) (a := a₀) (s := u₀) ?_ fun _ => ?_ <;> [(unfold u₀; clear u₀); ((try clear_value u₀); revert u₀; intro _ _)]) | (revert u₀; intro _))
    | with_reducible apply State.admitCtx_keeps | with_reducible apply State.broadcast_keeps
    | with_reducible apply State.feed_keeps | with_reducible apply State.jointRefuse_keeps | with_reducible apply Keeps.ite
    | split | (clear_value *; split) | (with_reducible refine Keeps.upd ?_ ?_ ?_ ?_ <;> [assumption; rfl; rfl; rfl])

theorem cascadeGateReply_keeps {b₀ : Bool} {a₀ s : State} (h : Keeps b₀ a₀ s) (pos : Nat) (armed : Bool) (passes : Bool) : Keeps b₀ a₀ (cascadeGateReply pos armed passes s) := by
  unfold cascadeGateReply
  repeat' first
    | with_reducible assumption | intro _
    | (extract_lets +onlyGivenNames u₀; first | (refine Keeps.cut (m := b₀) (a := a₀) (s := u₀) ?_ fun _ => ?_ <;> [(unfold u₀; clear u₀); ((try clear_value u₀); revert u₀; intro _ _)]) | (revert u₀; intro _))
    | with_reducible apply State.heard_keeps | with_reducible apply State.wrB_keeps
    | with_reducible apply State.jointRefuse_keeps | with_reducible apply State.jointAdmit_keeps
    | with_reducible apply State.upward_keeps | with_reducible apply Keeps.ite | split | (clear_value *; split)
    | (with_reducible refine Keeps.upd ?_ ?_ ?_ ?_ <;> [assumption; rfl; rfl; rfl])

theorem execCascadeGateReply_keeps {b₀ : Bool} {a₀ s : State} (h : Keeps b₀ a₀ s) (pos : Nat) (armed : Bool) (passes : Bool) {t₀ : State} (e : execCascadeGateReply pos armed passes s = .next t₀) : Keeps b₀ a₀ t₀ := by
  unfold execCascadeGateReply at e
  obtain ⟨-, rfl⟩ := guardWF_next e
  repeat' first
    | with_reducible assumption | intro _ | with_reducible apply cascadeGateReply_keeps

theorem execCascadeGateTimeout_keeps {b₀ : Bool} {a₀ s : State} (h : Keeps b₀ a₀ s) {t₀ : State} (e : execCascadeGateTimeout s = .next t₀) : Keeps b₀ a₀ t₀ := by
  unfold execCascadeGateTimeout at e
  obtain ⟨-, rfl⟩ := guardWF_next e
  repeat' first
    | with_reducible assumption | intro _ | with_reducible apply State.jointRefuse_keeps | with_reducible apply Keeps.ite
    | split | (clear_value *; split)

theorem execPositionBroadcast_keeps {b₀ : Bool} {a₀ s : State} (h : Keeps b₀ a₀ s) {t₀ : State} (e : execPositionBroadcast s = .next t₀) : Keeps b₀ a₀ t₀ := by
  unfold execPositionBroadcast at e
  obtain ⟨-, rfl⟩ := guardWF_next e
  repeat' first
    | with_reducible assumption | intro _ | with_reducible apply State.broadcast_keeps | with_reducible apply Keeps.ite | split
    | (clear_value *; split)

theorem execPositionRx_keeps {b₀ : Bool} {a₀ s : State} (h : Keeps b₀ a₀ s) (mpos : Int) (lrate : Nat) (t : Nat) {t₀ : State} (e : execPositionRx mpos lrate t s = .next t₀) : Keeps b₀ a₀ t₀ := by
  unfold execPositionRx at e
  obtain ⟨-, rfl⟩ := guardWF_next e
  repeat' first
    | with_reducible assumption | intro _
    | (extract_lets +onlyGivenNames u₀; first | (refine Keeps.cut (m := b₀) (a := a₀) (s := u₀) ?_ fun _ => ?_ <;> [(unfold u₀; clear u₀); ((try clear_value u₀); revert u₀; intro _ _)]) | (revert u₀; intro _))
    | with_reducible apply State.trackPosition_keeps | with_reducible apply State.relay_keeps
    | with_reducible apply guardWF_keeps | with_reducible apply Keeps.ite | split | (clear_value *; split)
    | (with_reducible refine Keeps.upd ?_ ?_ ?_ ?_ <;> [assumption; rfl; rfl; rfl])

theorem positionTimeout_keeps {b₀ : Bool} {a₀ s : State} (h : Keeps b₀ a₀ s) : Keeps b₀ a₀ (positionTimeout s) := by
  unfold positionTimeout
  repeat' first
    | with_reducible assumption | intro _
    | (extract_lets +onlyGivenNames u₀; first | (refine Keeps.cut (m := b₀) (a := a₀) (s := u₀) ?_ fun _ => ?_ <;> [(unfold u₀; clear u₀); ((try clear_value u₀); revert u₀; intro _ _)]) | (revert u₀; intro _))
    | with_reducible apply State.spoilStation_keeps | with_reducible apply Keeps.foldl | with_reducible apply Keeps.foldlSnd
    | with_reducible apply Keeps.foldlFst | with_reducible apply Keeps.ite | split | (clear_value *; split)
    | (with_reducible refine Keeps.upd ?_ ?_ ?_ ?_ <;> [assumption; rfl; rfl; rfl])

theorem execPositionTimeout_keeps {b₀ : Bool} {a₀ s : State} (h : Keeps b₀ a₀ s) {t₀ : State} (e : execPositionTimeout s = .next t₀) : Keeps b₀ a₀ t₀ := by
  unfold execPositionTimeout at e
  obtain ⟨-, rfl⟩ := guardWF_next e
  repeat' first
    | with_reducible assumption | intro _ | with_reducible apply positionTimeout_keeps

theorem State.slaveFeed_keeps {b₀ : Bool} {a₀ s : State} (h : Keeps b₀ a₀ s) : Keeps b₀ a₀ (State.slaveFeed s) := by
  unfold State.slaveFeed
  repeat' first
    | with_reducible assumption | intro _
    | (extract_lets +onlyGivenNames u₀; first | (refine Keeps.cut (m := b₀) (a := a₀) (s := u₀) ?_ fun _ => ?_ <;> [(unfold u₀; clear u₀); ((try clear_value u₀); revert u₀; intro _ _)]) | (revert u₀; intro _))
    | with_reducible apply State.fresh_keeps | with_reducible apply State.admitCtx_keeps
    | with_reducible apply State.setStage_keeps | with_reducible apply State.setTrack_keeps | with_reducible apply Keeps.ite
    | split | (clear_value *; split) | (with_reducible refine Keeps.upd ?_ ?_ ?_ ?_ <;> [assumption; rfl; rfl; rfl])

theorem State.relayEvent_keeps {b₀ : Bool} {a₀ s : State} (h : Keeps b₀ a₀ s) (e : SheetEvent) : Keeps b₀ a₀ (State.relayEvent s e) := by
  unfold State.relayEvent
  repeat' first
    | with_reducible assumption | intro _
    | (extract_lets +onlyGivenNames u₀; first | (refine Keeps.cut (m := b₀) (a := a₀) (s := u₀) ?_ fun _ => ?_ <;> [(unfold u₀; clear u₀); ((try clear_value u₀); revert u₀; intro _ _)]) | (revert u₀; intro _))
    | with_reducible apply State.spoil_keeps | with_reducible apply State.boundary_keeps
    | with_reducible apply State.feed_keeps | with_reducible apply State.relay_keeps | with_reducible apply Keeps.ite
    | split | (clear_value *; split) | (with_reducible refine Keeps.upd ?_ ?_ ?_ ?_ <;> [assumption; rfl; rfl; rfl])

theorem sheetEventRx_keeps {b₀ : Bool} {a₀ s : State} (h : Keeps b₀ a₀ s) (e : SheetEvent) : Keeps b₀ a₀ (sheetEventRx e s) := by
  unfold sheetEventRx
  repeat' first
    | with_reducible assumption | intro _
    | (extract_lets +onlyGivenNames u₀; first | (refine Keeps.cut (m := b₀) (a := a₀) (s := u₀) ?_ fun _ => ?_ <;> [(unfold u₀; clear u₀); ((try clear_value u₀); revert u₀; intro _ _)]) | (revert u₀; intro _))
    | with_reducible apply State.spoil_keeps | with_reducible apply State.boundary_keeps
    | with_reducible apply State.setStage_keeps | with_reducible apply State.feed_keeps
    | with_reducible apply State.webRuns_keeps | with_reducible apply State.setTrack_keeps
    | with_reducible apply State.spoilHere_keeps | with_reducible apply State.slaveFeed_keeps
    | with_reducible apply State.relayEvent_keeps | with_reducible apply Keeps.ite | split | (clear_value *; split)
    | (with_reducible refine Keeps.upd ?_ ?_ ?_ ?_ <;> [assumption; rfl; rfl; rfl])

theorem execSheetEventRx_keeps {b₀ : Bool} {a₀ s : State} (h : Keeps b₀ a₀ s) (e : SheetEvent) {t₀ : State} (e : execSheetEventRx e s = .next t₀) : Keeps b₀ a₀ t₀ := by
  unfold execSheetEventRx at e
  obtain ⟨-, rfl⟩ := guardWF_next e
  repeat' first
    | with_reducible assumption | intro _ | with_reducible apply sheetEventRx_keeps

theorem State.relayReport_keeps {b₀ : Bool} {a₀ s : State} (h : Keeps b₀ a₀ s) (pos : Nat) (rep : SlaveReport) : Keeps b₀ a₀ (State.relayReport s pos rep) := by
  unfold State.relayReport
  repeat' first
    | with_reducible assumption | intro _
    | (extract_lets +onlyGivenNames u₀; first | (refine Keeps.cut (m := b₀) (a := a₀) (s := u₀) ?_ fun _ => ?_ <;> [(unfold u₀; clear u₀); ((try clear_value u₀); revert u₀; intro _ _)]) | (revert u₀; intro _))
    | with_reducible apply State.upward_keeps | with_reducible apply Keeps.ite | split | (clear_value *; split)
    | (with_reducible refine Keeps.upd ?_ ?_ ?_ ?_ <;> [assumption; rfl; rfl; rfl])

theorem slaveReportRx_keeps {b₀ : Bool} {a₀ s : State} (h : Keeps b₀ a₀ s) (pos : Nat) (rep : SlaveReport) : Keeps b₀ a₀ (slaveReportRx pos rep s) := by
  unfold slaveReportRx
  repeat' first
    | with_reducible assumption | intro _
    | (extract_lets +onlyGivenNames u₀; first | (refine Keeps.cut (m := b₀) (a := a₀) (s := u₀) ?_ fun _ => ?_ <;> [(unfold u₀; clear u₀); ((try clear_value u₀); revert u₀; intro _ _)]) | (refine Keeps.cut (m := b₀) (a := a₀) (s := u₀.2) ?_ fun _ => ?_ <;> [(unfold u₀; clear u₀); ((try clear_value u₀); revert u₀; intro _ _)]) | (revert u₀; intro _))
    | with_reducible apply State.heard_keeps | with_reducible apply State.spoil_keeps
    | with_reducible apply State.relayReport_keeps | with_reducible apply State.webStop_keeps
    | with_reducible apply Keeps.ite | with_reducible apply Keeps.iteSnd | split | (clear_value *; split)
    | (with_reducible refine Keeps.upd ?_ ?_ ?_ ?_ <;> [assumption; rfl; rfl; rfl])

theorem execSlaveReportRx_keeps {b₀ : Bool} {a₀ s : State} (h : Keeps b₀ a₀ s) (pos : Nat) (rep : SlaveReport) {t₀ : State} (e : execSlaveReportRx pos rep s = .next t₀) : Keeps b₀ a₀ t₀ := by
  unfold execSlaveReportRx at e
  obtain ⟨-, rfl⟩ := guardWF_next e
  repeat' first
    | with_reducible assumption | intro _ | with_reducible apply slaveReportRx_keeps

theorem execCascadeDisarmRx_keeps {b₀ : Bool} {a₀ s : State} (h : Keeps b₀ a₀ s) {t₀ : State} (e : execCascadeDisarmRx s = .next t₀) : Keeps b₀ a₀ t₀ := by
  unfold execCascadeDisarmRx at e
  obtain ⟨-, rfl⟩ := guardWF_next e
  repeat' first
    | with_reducible assumption | intro _ | with_reducible apply State.relay_keeps
    | with_reducible apply State.disarmNow_keeps | with_reducible apply guardWF_keeps
    | with_reducible apply Keeps.ite | split | (clear_value *; split)
    | (with_reducible refine Keeps.upd ?_ ?_ ?_ ?_ <;> [assumption; rfl; rfl; rfl])

theorem State.setPort_keeps {b₀ : Bool} {a₀ s : State} (h : Keeps b₀ a₀ s) (p : Port) (up : Bool) : Keeps b₀ a₀ (State.setPort s p up) := by
  unfold State.setPort
  repeat' first
    | with_reducible assumption | intro _
    | (extract_lets +onlyGivenNames u₀; first | (refine Keeps.cut (m := b₀) (a := a₀) (s := u₀) ?_ fun _ => ?_ <;> [(unfold u₀; clear u₀); ((try clear_value u₀); revert u₀; intro _ _)]) | (revert u₀; intro _))
    | with_reducible apply State.wrB_keeps | split | (clear_value *; split)
    | (with_reducible refine Keeps.upd ?_ ?_ ?_ ?_ <;> [assumption; rfl; rfl; rfl])

theorem State.showRing_keeps {b₀ : Bool} {a₀ s : State} (h : Keeps b₀ a₀ s) : Keeps b₀ a₀ (State.showRing s) := by
  unfold State.showRing
  repeat' first
    | with_reducible assumption | intro _ | with_reducible apply State.wrB_keeps

theorem State.partitionSheets_keeps {b₀ : Bool} {a₀ s : State} (h : Keeps b₀ a₀ s) : Keeps b₀ a₀ (State.partitionSheets s) := by
  unfold State.partitionSheets
  repeat' first
    | with_reducible assumption | intro _ | with_reducible apply State.spoil_keeps | with_reducible apply Keeps.foldl
    | with_reducible apply Keeps.foldlSnd | with_reducible apply Keeps.foldlFst | with_reducible apply Keeps.ite | split
    | (clear_value *; split)

theorem portDown_keeps {b₀ : Bool} {a₀ s : State} (h : Keeps b₀ a₀ s) (p : Port) (lost : List Nat) : Keeps b₀ a₀ (portDown p lost s) := by
  unfold portDown
  repeat' first
    | with_reducible assumption | intro _
    | (extract_lets +onlyGivenNames u₀; first | (refine Keeps.cut (m := b₀) (a := a₀) (s := u₀) ?_ fun _ => ?_ <;> [(unfold u₀; clear u₀); ((try clear_value u₀); revert u₀; intro _ _)]) | (revert u₀; intro _))
    | with_reducible apply State.setPort_keeps | with_reducible apply State.setBeacon_keeps
    | with_reducible apply State.showRing_keeps | with_reducible apply State.settleUpstream_keeps
    | with_reducible apply State.clr_keeps | with_reducible apply State.ev_keeps
    | with_reducible apply State.partitionSheets_keeps | with_reducible apply Keeps.foldl | with_reducible apply Keeps.foldlSnd
    | with_reducible apply Keeps.foldlFst | with_reducible apply Keeps.ite | split | (clear_value *; split)
    | (with_reducible refine Keeps.upd ?_ ?_ ?_ ?_ <;> [assumption; rfl; rfl; rfl])

theorem execPortDown_keeps {b₀ : Bool} {a₀ s : State} (h : Keeps b₀ a₀ s) (p : Port) (lost : List Nat) {t₀ : State} (e : execPortDown p lost s = .next t₀) : Keeps b₀ a₀ t₀ := by
  unfold execPortDown at e
  obtain ⟨-, rfl⟩ := guardWF_next e
  repeat' first
    | with_reducible assumption | intro _ | with_reducible apply portDown_keeps

theorem portUpNow_keeps {b₀ : Bool} {a₀ s : State} (h : Keeps b₀ a₀ s) (p : Port) (delay : Nat) : Keeps b₀ a₀ (portUpNow p delay s) := by
  unfold portUpNow
  repeat' first
    | with_reducible assumption | intro _
    | (extract_lets +onlyGivenNames u₀; first | (refine Keeps.cut (m := b₀) (a := a₀) (s := u₀) ?_ fun _ => ?_ <;> [(unfold u₀; clear u₀); ((try clear_value u₀); revert u₀; intro _ _)]) | (revert u₀; intro _))
    | with_reducible apply State.setPort_keeps | with_reducible apply State.settleUpstream_keeps
    | with_reducible apply State.showRing_keeps | with_reducible apply Keeps.ite | split | (clear_value *; split)
    | (with_reducible refine Keeps.upd ?_ ?_ ?_ ?_ <;> [assumption; rfl; rfl; rfl])

theorem execPortUp_keeps {b₀ : Bool} {a₀ s : State} (h : Keeps b₀ a₀ s) (p : Port) (delay : Nat) {t₀ : State} (e : execPortUp p delay s = .next t₀) : Keeps b₀ a₀ t₀ := by
  unfold execPortUp at e
  obtain ⟨-, rfl⟩ := guardWF_next e
  repeat' first
    | with_reducible assumption | intro _ | with_reducible apply portUpNow_keeps

theorem execPartitionClear_keeps {b₀ : Bool} {a₀ s : State} (h : Keeps b₀ a₀ s) {t₀ : State} (e : execPartitionClear s = .next t₀) : Keeps b₀ a₀ t₀ := by
  unfold execPartitionClear at e
  obtain ⟨-, rfl⟩ := guardWF_next e
  repeat' first
    | with_reducible assumption | intro _
    | (extract_lets +onlyGivenNames u₀; first | (refine Keeps.cut (m := b₀) (a := a₀) (s := u₀) ?_ fun _ => ?_ <;> [(unfold u₀; clear u₀); ((try clear_value u₀); revert u₀; intro _ _)]) | (revert u₀; intro _))
    | with_reducible apply State.clr_keeps | with_reducible apply guardWF_keeps | with_reducible apply Keeps.ite
    | split | (clear_value *; split) | (with_reducible refine Keeps.upd ?_ ?_ ?_ ?_ <;> [assumption; rfl; rfl; rfl])

theorem execPowerGoRx_keeps {b₀ : Bool} {a₀ s : State} (h : Keeps b₀ a₀ s) {t₀ : State} (e : execPowerGoRx s = .next t₀) : Keeps b₀ a₀ t₀ := by
  unfold execPowerGoRx at e
  obtain ⟨-, rfl⟩ := guardWF_next e
  repeat' first
    | with_reducible assumption | intro _
    | (extract_lets +onlyGivenNames u₀; first | (refine Keeps.cut (m := b₀) (a := a₀) (s := u₀) ?_ fun _ => ?_ <;> [(unfold u₀; clear u₀); ((try clear_value u₀); revert u₀; intro _ _)]) | (revert u₀; intro _))
    | with_reducible apply State.ev_keeps | with_reducible apply State.toE_keeps
    | with_reducible apply State.relay_keeps | with_reducible apply guardWF_keeps | with_reducible apply Keeps.ite
    | split | (clear_value *; split) | (with_reducible refine Keeps.upd ?_ ?_ ?_ ?_ <;> [assumption; rfl; rfl; rfl])

end Sys2Proof.Machine
end

