-- ==== Sys2Proof/Laws/KeepsReset.lean ====
section
/-! SUPPORT. Every operation of Machine/Reset.lean keeps what `Keeps` says. -/

namespace Sys2Proof.Machine

open Sys2Proof

set_option linter.unusedTactic false

set_option linter.unreachableTactic false

theorem State.coldSource_keeps {a₀ s : State} (h : Keeps false a₀ s) (src : Nat) : Keeps false a₀ (State.coldSource s src) := by
  unfold State.coldSource
  repeat' first
    | with_reducible assumption | intro _
    | (extract_lets +onlyGivenNames u₀; first | (refine Keeps.cut (m := false) (a := a₀) (s := u₀) ?_ fun _ => ?_ <;> [(unfold u₀; clear u₀); ((try clear_value u₀); revert u₀; intro _ _)]) | (revert u₀; intro _))
    | with_reducible apply State.railsDown_keeps | with_reducible apply State.setPwr_keeps
    | with_reducible apply State.moduleOff_keeps | with_reducible apply State.offProceed_keeps
    | with_reducible apply State.toI_keeps | with_reducible apply State.showLatch_keeps
    | with_reducible apply State.sourceAssert_keeps | with_reducible apply Keeps.ite | split | (clear_value *; split)
    | (with_reducible refine Keeps.upd ?_ ?_ ?_ ?_ <;> [assumption; rfl; rfl; rfl])

theorem resetSourceAssert_keeps {a₀ s : State} (h : Keeps false a₀ s) (src : Nat) : Keeps false a₀ (resetSourceAssert src s) := by
  unfold resetSourceAssert
  repeat' first
    | with_reducible assumption | intro _ | with_reducible apply State.coldSource_keeps
    | with_reducible apply State.offWaited_keeps | with_reducible apply State.sourceAssert_keeps
    | with_reducible apply State.aonReset_keeps | with_reducible apply Keeps.ite | split | (clear_value *; split)
    | (with_reducible refine Keeps.upd ?_ ?_ ?_ ?_ <;> [assumption; rfl; rfl; rfl])

theorem execResetSourceAssert_keeps {a₀ s : State} (h : Keeps false a₀ s) (src : Nat) {t₀ : State} (e : execResetSourceAssert src s = .next t₀) : Keeps false a₀ t₀ := by
  unfold execResetSourceAssert at e
  obtain ⟨-, rfl⟩ := guardWF_next e
  repeat' first
    | with_reducible assumption | intro _ | with_reducible apply resetSourceAssert_keeps

theorem execResetSourceDeassert_keeps {b₀ : Bool} {a₀ s : State} (h : Keeps b₀ a₀ s) (src : Nat) {t₀ : State} (e : execResetSourceDeassert src s = .next t₀) : Keeps b₀ a₀ t₀ := by
  unfold execResetSourceDeassert at e
  obtain ⟨-, rfl⟩ := guardWF_next e
  repeat' first
    | with_reducible assumption | intro _ | with_reducible apply State.sourceDeassert_keeps | with_reducible apply Keeps.ite
    | split | (clear_value *; split)

theorem execReferenceLoss_keeps {b₀ : Bool} {a₀ s : State} (h : Keeps b₀ a₀ s) {t₀ : State} (e : execReferenceLoss s = .next t₀) : Keeps b₀ a₀ t₀ := by
  unfold execReferenceLoss at e
  obtain ⟨-, rfl⟩ := guardWF_next e
  repeat' first
    | with_reducible assumption | intro _ | with_reducible apply State.clr_keeps

theorem execReferenceRestored_keeps {b₀ : Bool} {a₀ s : State} (h : Keeps b₀ a₀ s) {t₀ : State} (e : execReferenceRestored s = .next t₀) : Keeps b₀ a₀ t₀ := by
  unfold execReferenceRestored at e
  obtain ⟨-, rfl⟩ := guardWF_next e
  repeat' first
    | with_reducible assumption | intro _ | with_reducible apply State.ev_keeps
    | with_reducible apply State.sourceDeassert_keeps

theorem State.rstcRefuse_keeps {b₀ : Bool} {a₀ s : State} (h : Keeps b₀ a₀ s) : Keeps b₀ a₀ (State.rstcRefuse s) := by
  unfold State.rstcRefuse
  repeat' first
    | with_reducible assumption | intro _ | with_reducible apply State.ev_keeps

theorem State.dieCmd_keeps {a₀ s : State} (h : Keeps false a₀ s) : Keeps false a₀ (State.dieCmd s) := by
  unfold State.dieCmd
  repeat' first
    | with_reducible assumption | intro _ | with_reducible apply State.rstcRefuse_keeps
    | with_reducible apply State.sourceAssert_keeps | with_reducible apply Keeps.ite | split | (clear_value *; split)

theorem State.domainCmd_keeps {a₀ s : State} (h : Keeps false a₀ s) (d : Nat) : Keeps false a₀ (State.domainCmd s d) := by
  unfold State.domainCmd
  repeat' first
    | with_reducible assumption | intro _
    | (extract_lets +onlyGivenNames u₀; first | (refine Keeps.cut (m := false) (a := a₀) (s := u₀) ?_ fun _ => ?_ <;> [(unfold u₀; clear u₀); ((try clear_value u₀); revert u₀; intro _ _)]) | (revert u₀; intro _))
    | with_reducible apply State.rstcRefuse_keeps | with_reducible apply State.sourceAssert_keeps
    | with_reducible apply Keeps.ite | split | (clear_value *; split)
    | (with_reducible refine Keeps.upd ?_ ?_ ?_ ?_ <;> [assumption; rfl; rfl; rfl])

theorem execCmdDomain_keeps {a₀ s : State} (h : Keeps false a₀ s) (v : Word) {t₀ : State} (e : execCmdDomain v s = .next t₀) : Keeps false a₀ t₀ := by
  unfold execCmdDomain at e
  obtain ⟨-, rfl⟩ := guardWF_next e
  repeat' first
    | with_reducible assumption | intro _ | with_reducible apply State.hostWrite_keeps
    | with_reducible apply State.domainCmd_keeps | with_reducible apply Keeps.ite | split | (clear_value *; split)

theorem execCmdDie_keeps {a₀ s : State} (h : Keeps false a₀ s) (v : Word) {t₀ : State} (e : execCmdDie v s = .next t₀) : Keeps false a₀ t₀ := by
  unfold execCmdDie at e
  obtain ⟨-, rfl⟩ := guardWF_next e
  repeat' first
    | with_reducible assumption | intro _ | with_reducible apply State.hostWrite_keeps | with_reducible apply State.dieCmd_keeps
    | with_reducible apply Keeps.ite | split | (clear_value *; split)

theorem State.coldCommand_keeps {a₀ s : State} (h : Keeps false a₀ s) : Keeps false a₀ (State.coldCommand s) := by
  unfold State.coldCommand
  repeat' first
    | with_reducible assumption | intro _
    | (extract_lets +onlyGivenNames u₀; first | (refine Keeps.cut (m := false) (a := a₀) (s := u₀) ?_ fun _ => ?_ <;> [(unfold u₀; clear u₀); ((try clear_value u₀); revert u₀; intro _ _)]) | (revert u₀; intro _))
    | with_reducible apply State.setPwr_keeps | with_reducible apply State.showLatch_keeps
    | with_reducible apply State.offRequest_keeps
    | (with_reducible refine Keeps.upd ?_ ?_ ?_ ?_ <;> [assumption; rfl; rfl; rfl])

theorem execCold_keeps {a₀ s : State} (h : Keeps false a₀ s) (v : Word) {t₀ : State} (e : execCold v s = .next t₀) : Keeps false a₀ t₀ := by
  unfold execCold at e
  obtain ⟨-, rfl⟩ := guardWF_next e
  repeat' first
    | with_reducible assumption | intro _ | with_reducible apply State.hostWrite_keeps
    | with_reducible apply State.coldCommand_keeps | with_reducible apply Keeps.ite | split | (clear_value *; split)

theorem State.obWriteNow_keeps {b₀ : Bool} {a₀ s : State} (h : Keeps b₀ a₀ s) : Keeps b₀ a₀ (State.obWriteNow s) := by
  unfold State.obWriteNow
  repeat' first
    | with_reducible assumption | intro _
    | (extract_lets +onlyGivenNames u₀; first | (refine Keeps.cut (m := b₀) (a := a₀) (s := u₀) ?_ fun _ => ?_ <;> [(unfold u₀; clear u₀); ((try clear_value u₀); revert u₀; intro _ _)]) | (revert u₀; intro _))
    | with_reducible apply State.rstcRefuse_keeps | with_reducible apply State.ev_keeps | with_reducible apply Keeps.ite | split
    | (clear_value *; split) | (with_reducible refine Keeps.upd ?_ ?_ ?_ ?_ <;> [assumption; rfl; rfl; rfl])

theorem execObWrite_keeps {b₀ : Bool} {a₀ s : State} (h : Keeps b₀ a₀ s) (v : Word) {t₀ : State} (e : execObWrite v s = .next t₀) : Keeps b₀ a₀ t₀ := by
  unfold execObWrite at e
  obtain ⟨-, rfl⟩ := guardWF_next e
  repeat' first
    | with_reducible assumption | intro _ | with_reducible apply State.hostWrite_keeps
    | with_reducible apply State.obWriteNow_keeps | with_reducible apply Keeps.ite | split | (clear_value *; split)

theorem obWriteDone_keeps {b₀ : Bool} {a₀ s : State} (h : Keeps b₀ a₀ s) (ok : Bool) : Keeps b₀ a₀ (obWriteDone ok s) := by
  unfold obWriteDone
  repeat' first
    | with_reducible assumption | intro _
    | (extract_lets +onlyGivenNames u₀; first | (refine Keeps.cut (m := b₀) (a := a₀) (s := u₀) ?_ fun _ => ?_ <;> [(unfold u₀; clear u₀); ((try clear_value u₀); revert u₀; intro _ _)]) | (revert u₀; intro _))
    | with_reducible apply State.clr_keeps | with_reducible apply State.ev_keeps | with_reducible apply Keeps.ite | split
    | (clear_value *; split) | (with_reducible refine Keeps.upd ?_ ?_ ?_ ?_ <;> [assumption; rfl; rfl; rfl])

theorem execObWriteDone_keeps {b₀ : Bool} {a₀ s : State} (h : Keeps b₀ a₀ s) (ok : Bool) {t₀ : State} (e : execObWriteDone ok s = .next t₀) : Keeps b₀ a₀ t₀ := by
  unfold execObWriteDone at e
  obtain ⟨-, rfl⟩ := guardWF_next e
  repeat' first
    | with_reducible assumption | intro _ | with_reducible apply obWriteDone_keeps

end Sys2Proof.Machine
end

