-- ==== Sys2Proof/Laws/KeepsPasses.lean ====
section
/-! SUPPORT. Every operation of Machine/Passes.lean keeps what `Keeps` says. -/

namespace Sys2Proof.Machine

open Sys2Proof

set_option linter.unusedTactic false

set_option linter.unreachableTactic false

theorem Pass.foldl_keeps {b₀ : Bool} {a : State} {α : Type} {f : Pass → α → Pass} {l : List α} {p : Pass} (h : Keeps b₀ a p.st)
    (hf : ∀ q x, Keeps b₀ a q.st → Keeps b₀ a (f q x).st) : Keeps b₀ a (l.foldl f p).st := by
  induction l generalizing p with
  | nil => exact h
  | cons x l ih => exact ih (hf _ _ h)

theorem Pass.foldlFst_keeps {b₀ : Bool} {a : State} {α β : Type} {f : Pass × β → α → Pass × β} {l : List α} {p : Pass × β}
    (h : Keeps b₀ a p.1.st) (hf : ∀ q x, Keeps b₀ a q.1.st → Keeps b₀ a (f q x).1.st) : Keeps b₀ a (l.foldl f p).1.st := by
  induction l generalizing p with
  | nil => exact h
  | cons x l ih => exact ih (hf _ _ h)

theorem Pass.iterate_keeps {b₀ : Bool} {a : State} {f : Pass → Pass} {n : Nat} {p : Pass} (h : Keeps b₀ a p.st)
    (hf : ∀ q, Keeps b₀ a q.st → Keeps b₀ a (f q).st) : Keeps b₀ a (Nat.iterate f n p).st := by
  induction n generalizing p with
  | zero => exact h
  | succ n ih => exact ih (hf _ h)

theorem State.putKey_keeps {b₀ : Bool} {a₀ s : State} (h : Keeps b₀ a₀ s) (k : FKey) (v : Nat) : Keeps b₀ a₀ (State.putKey s k v) := by
  unfold State.putKey
  repeat' first
    | with_reducible assumption | intro _
    | (extract_lets +onlyGivenNames u₀; first | (refine Keeps.cut (m := b₀) (a := a₀) (s := u₀) ?_ fun _ => ?_ <;> [(unfold u₀; clear u₀); ((try clear_value u₀); revert u₀; intro _ _)]) | (revert u₀; intro _))
    | with_reducible apply State.wr_keeps | split | (clear_value *; split)
    | (with_reducible refine Keeps.upd ?_ ?_ ?_ ?_ <;> [assumption; rfl; rfl; rfl])

theorem Pass.disable_keeps {b₀ : Bool} {a₀ : State} {p : Pass} (h : Keeps b₀ a₀ p.st) (f : Feat) (e : Entry) : Keeps b₀ a₀ (Pass.disable p f e).st := by
  unfold Pass.disable
  repeat' first
    | with_reducible assumption | intro _
    | (extract_lets +onlyGivenNames u₀; first | (refine Keeps.cut (m := b₀) (a := a₀) (s := u₀) ?_ fun _ => ?_ <;> [(unfold u₀; clear u₀); ((try clear_value u₀); revert u₀; intro _ _)]) | (refine Keeps.cut (m := b₀) (a := a₀) (s := u₀.st) ?_ fun _ => ?_ <;> [(unfold u₀; clear u₀); ((try clear_value u₀); revert u₀; intro _ _)]) | (revert u₀; intro _))
    | with_reducible apply State.report_keeps | with_reducible apply Keeps.ite | split | (clear_value *; split)
    | (with_reducible refine Keeps.upd ?_ ?_ ?_ ?_ <;> [assumption; rfl; rfl; rfl]) | dsimp only

theorem Pass.note_keeps {b₀ : Bool} {a₀ : State} {p : Pass} (h : Keeps b₀ a₀ p.st) (e : Entry) : Keeps b₀ a₀ (Pass.note p e).st := by
  unfold Pass.note
  repeat' first
    | with_reducible assumption | intro _
    | (extract_lets +onlyGivenNames u₀; first | (refine Keeps.cut (m := b₀) (a := a₀) (s := u₀) ?_ fun _ => ?_ <;> [(unfold u₀; clear u₀); ((try clear_value u₀); revert u₀; intro _ _)]) | (refine Keeps.cut (m := b₀) (a := a₀) (s := u₀.st) ?_ fun _ => ?_ <;> [(unfold u₀; clear u₀); ((try clear_value u₀); revert u₀; intro _ _)]) | (revert u₀; intro _))
    | with_reducible apply State.report_keeps | (with_reducible refine Keeps.upd ?_ ?_ ?_ ?_ <;> [assumption; rfl; rfl; rfl])
    | dsimp only

theorem Pass.requireOnce_keeps {b₀ : Bool} {a₀ : State} {p : Pass} (h : Keeps b₀ a₀ p.st) (origin : Nat) : Keeps b₀ a₀ (Pass.requireOnce p origin).st := by
  unfold Pass.requireOnce
  repeat' first
    | with_reducible assumption | intro _ | with_reducible apply Pass.disable_keeps | with_reducible apply Keeps.foldl
    | with_reducible apply Keeps.foldlSnd | with_reducible apply Keeps.foldlFst | with_reducible apply Keeps.ite | split
    | (clear_value *; split) | with_reducible apply Pass.foldl_keeps | with_reducible apply Pass.foldlFst_keeps | dsimp only

theorem Pass.propagate_keeps {b₀ : Bool} {a₀ : State} {p : Pass} (h : Keeps b₀ a₀ p.st) (origin : Nat) : Keeps b₀ a₀ (Pass.propagate p origin).st := by
  unfold Pass.propagate
  repeat' first
    | with_reducible assumption | intro _ | with_reducible apply Pass.requireOnce_keeps | with_reducible apply Keeps.iterate
    | with_reducible apply Pass.iterate_keeps | dsimp only

theorem Pass.skipSections_keeps {b₀ : Bool} {a₀ : State} {p : Pass} (h : Keeps b₀ a₀ p.st) : Keeps b₀ a₀ (Pass.skipSections p).st := by
  unfold Pass.skipSections
  repeat' first
    | with_reducible assumption | intro _
    | (extract_lets +onlyGivenNames u₀; first | (refine Keeps.cut (m := b₀) (a := a₀) (s := u₀) ?_ fun _ => ?_ <;> [(unfold u₀; clear u₀); ((try clear_value u₀); revert u₀; intro _ _)]) | (refine Keeps.cut (m := b₀) (a := a₀) (s := u₀.st) ?_ fun _ => ?_ <;> [(unfold u₀; clear u₀); ((try clear_value u₀); revert u₀; intro _ _)]) | (revert u₀; intro _))
    | with_reducible apply State.report_keeps | with_reducible apply Keeps.foldl | with_reducible apply Keeps.foldlSnd
    | with_reducible apply Keeps.foldlFst | with_reducible apply Keeps.ite | split | (clear_value *; split)
    | (with_reducible refine Keeps.upd ?_ ?_ ?_ ?_ <;> [assumption; rfl; rfl; rfl]) | with_reducible apply Pass.foldl_keeps
    | with_reducible apply Pass.foldlFst_keeps | dsimp only

theorem Pass.require_keeps {b₀ : Bool} {a₀ : State} {p : Pass} (h : Keeps b₀ a₀ p.st) (x : Sect) (i : Nat) (c : ImgClaim) : Keeps b₀ a₀ (Pass.require p x i c).st := by
  unfold Pass.require
  repeat' first
    | with_reducible assumption | intro _
    | (extract_lets +onlyGivenNames u₀; first | (refine Keeps.cut (m := b₀) (a := a₀) (s := u₀) ?_ fun _ => ?_ <;> [(unfold u₀; clear u₀); ((try clear_value u₀); revert u₀; intro _ _)]) | (refine Keeps.cut (m := b₀) (a := a₀) (s := u₀.st) ?_ fun _ => ?_ <;> [(unfold u₀; clear u₀); ((try clear_value u₀); revert u₀; intro _ _)]) | (revert u₀; intro _))
    | with_reducible apply State.take_keeps | with_reducible apply Pass.disable_keeps | with_reducible apply Keeps.ite | split
    | (clear_value *; split) | (with_reducible refine Keeps.upd ?_ ?_ ?_ ?_ <;> [assumption; rfl; rfl; rfl]) | dsimp only

theorem Pass.claim_keeps {b₀ : Bool} {a₀ : State} {p : Pass} (h : Keeps b₀ a₀ p.st) (x : Sect) (c : ImgClaim) : Keeps b₀ a₀ (Pass.claim p x c).st := by
  unfold Pass.claim
  repeat' first
    | dsimp only | with_reducible assumption | intro _
    | (extract_lets +onlyGivenNames u₀; first | (refine Keeps.cut (m := b₀) (a := a₀) (s := u₀) ?_ fun _ => ?_ <;> [(unfold u₀; clear u₀); ((try clear_value u₀); revert u₀; intro _ _)]) | (revert u₀; intro _))
    | with_reducible apply Pass.disable_keeps | with_reducible apply Keeps.ite | split | (clear_value *; split)
    | (with_reducible refine Keeps.upd ?_ ?_ ?_ ?_ <;> [assumption; rfl; rfl; rfl])

theorem Pass.one_keeps {b₀ : Bool} {a₀ : State} {p : Pass} (h : Keeps b₀ a₀ p.st) : Keeps b₀ a₀ (Pass.one p).st := by
  unfold Pass.one
  repeat' first
    | with_reducible assumption | intro _
    | (extract_lets +onlyGivenNames u₀; first | (refine Keeps.cut (m := b₀) (a := a₀) (s := u₀) ?_ fun _ => ?_ <;> [(unfold u₀; clear u₀); ((try clear_value u₀); revert u₀; intro _ _)]) | (refine Keeps.cut (m := b₀) (a := a₀) (s := u₀.st) ?_ fun _ => ?_ <;> [(unfold u₀; clear u₀); ((try clear_value u₀); revert u₀; intro _ _)]) | (revert u₀; intro _))
    | with_reducible apply Pass.skipSections_keeps | with_reducible apply Pass.require_keeps
    | with_reducible apply Pass.claim_keeps | with_reducible apply Pass.propagate_keeps | with_reducible apply Keeps.foldl
    | with_reducible apply Keeps.foldlSnd | with_reducible apply Keeps.foldlFst | with_reducible apply Keeps.ite | split
    | (clear_value *; split) | with_reducible apply Pass.foldl_keeps | with_reducible apply Pass.foldlFst_keeps | dsimp only

theorem Pass.put_keeps {b₀ : Bool} {a₀ : State} {p : Pass} (h : Keeps b₀ a₀ p.st) (f : Feat) (k : FKey) (z : Int) (range : Kind) : Keeps b₀ a₀ (Pass.put p f k z range).st := by
  unfold Pass.put
  repeat' first
    | with_reducible assumption | intro _
    | (extract_lets +onlyGivenNames u₀; first | (refine Keeps.cut (m := b₀) (a := a₀) (s := u₀) ?_ fun _ => ?_ <;> [(unfold u₀; clear u₀); ((try clear_value u₀); revert u₀; intro _ _)]) | (refine Keeps.cut (m := b₀) (a := a₀) (s := u₀.st) ?_ fun _ => ?_ <;> [(unfold u₀; clear u₀); ((try clear_value u₀); revert u₀; intro _ _)]) | (revert u₀; intro _))
    | with_reducible apply State.putKey_keeps | (with_reducible refine Keeps.upd ?_ ?_ ?_ ?_ <;> [assumption; rfl; rfl; rfl])
    | dsimp only

theorem Pass.descriptor_keeps {b₀ : Bool} {a₀ : State} {p : Pass} (h : Keeps b₀ a₀ p.st) (x : Sect) (d : ImgDesc) : Keeps b₀ a₀ (Pass.descriptor p x d).st := by
  unfold Pass.descriptor
  repeat' first
    | with_reducible assumption | intro _
    | (extract_lets +onlyGivenNames u₀; first | (refine Keeps.cut (m := b₀) (a := a₀) (s := u₀) ?_ fun _ => ?_ <;> [(unfold u₀; clear u₀); ((try clear_value u₀); revert u₀; intro _ _)]) | (refine Keeps.cut (m := b₀) (a := a₀) (s := u₀.st) ?_ fun _ => ?_ <;> [(unfold u₀; clear u₀); ((try clear_value u₀); revert u₀; intro _ _)]) | (revert u₀; intro _))
    | with_reducible apply Pass.note_keeps | with_reducible apply Pass.disable_keeps | with_reducible apply Pass.put_keeps
    | with_reducible apply Keeps.ite | split | (clear_value *; split)
    | (with_reducible refine Keeps.upd ?_ ?_ ?_ ?_ <;> [assumption; rfl; rfl; rfl]) | dsimp only

theorem Pass.two_keeps {b₀ : Bool} {a₀ : State} {p : Pass} (h : Keeps b₀ a₀ p.st) : Keeps b₀ a₀ (Pass.two p).st := by
  unfold Pass.two
  repeat' first
    | with_reducible assumption | intro _ | with_reducible apply Pass.descriptor_keeps | with_reducible apply Keeps.foldl
    | with_reducible apply Keeps.foldlSnd | with_reducible apply Keeps.foldlFst | with_reducible apply Keeps.ite | split
    | (clear_value *; split) | with_reducible apply Pass.foldl_keeps | with_reducible apply Pass.foldlFst_keeps | dsimp only

theorem Pass.fix_keeps {b₀ : Bool} {a₀ : State} {p : Pass} (h : Keeps b₀ a₀ p.st) (sect : Nat) (f : Fld) (i : Nat) (z : Int) : Keeps b₀ a₀ (Pass.fix p sect f i z).st := by
  unfold Pass.fix
  repeat' first
    | with_reducible assumption | intro _
    | (extract_lets +onlyGivenNames u₀; first | (refine Keeps.cut (m := b₀) (a := a₀) (s := u₀) ?_ fun _ => ?_ <;> [(unfold u₀; clear u₀); ((try clear_value u₀); revert u₀; intro _ _)]) | (refine Keeps.cut (m := b₀) (a := a₀) (s := u₀.st) ?_ fun _ => ?_ <;> [(unfold u₀; clear u₀); ((try clear_value u₀); revert u₀; intro _ _)]) | (revert u₀; intro _))
    | with_reducible apply State.wr_keeps | with_reducible apply State.report_keeps | with_reducible apply Keeps.ite | split
    | (clear_value *; split) | (with_reducible refine Keeps.upd ?_ ?_ ?_ ?_ <;> [assumption; rfl; rfl; rfl]) | dsimp only

theorem Pass.kill_keeps {b₀ : Bool} {a₀ : State} {p : Pass} (h : Keeps b₀ a₀ p.st) (q : Feat) (f : Fld) (i : Nat) : Keeps b₀ a₀ (Pass.kill p q f i).st := by
  unfold Pass.kill
  repeat' first
    | with_reducible assumption | intro _ | with_reducible apply Pass.disable_keeps | with_reducible apply Keeps.ite | split
    | (clear_value *; split) | dsimp only

theorem Pass.r131_keeps {b₀ : Bool} {a₀ : State} {p : Pass} (h : Keeps b₀ a₀ p.st) : Keeps b₀ a₀ (Pass.r131 p).st := by
  unfold Pass.r131
  repeat' first
    | with_reducible assumption | intro _
    | (extract_lets +onlyGivenNames u₀; first | (refine Keeps.cut (m := b₀) (a := a₀) (s := u₀) ?_ fun _ => ?_ <;> [(unfold u₀; clear u₀); ((try clear_value u₀); revert u₀; intro _ _)]) | (refine Keeps.cut (m := b₀) (a := a₀) (s := u₀.st) ?_ fun _ => ?_ <;> [(unfold u₀; clear u₀); ((try clear_value u₀); revert u₀; intro _ _)]) | (revert u₀; intro _))
    | with_reducible apply Pass.fix_keeps | with_reducible apply Keeps.foldl | with_reducible apply Keeps.foldlSnd
    | with_reducible apply Keeps.foldlFst | with_reducible apply Keeps.ite | split | (clear_value *; split)
    | with_reducible apply Pass.foldl_keeps | with_reducible apply Pass.foldlFst_keeps | dsimp only

theorem Pass.shifts_keeps {b₀ : Bool} {a₀ : State} {p : Pass} (h : Keeps b₀ a₀ p.st) (sect : Nat) (k : Nat) (span : Int) : Keeps b₀ a₀ (Pass.shifts p sect k span).st := by
  unfold Pass.shifts
  repeat' first
    | with_reducible assumption | intro _
    | (extract_lets +onlyGivenNames u₀; first | (refine Keeps.cut (m := b₀) (a := a₀) (s := u₀) ?_ fun _ => ?_ <;> [(unfold u₀; clear u₀); ((try clear_value u₀); revert u₀; intro _ _)]) | (refine Keeps.cut (m := b₀) (a := a₀) (s := u₀.st) ?_ fun _ => ?_ <;> [(unfold u₀; clear u₀); ((try clear_value u₀); revert u₀; intro _ _)]) | (revert u₀; intro _))
    | with_reducible apply Pass.fix_keeps | with_reducible apply Keeps.foldl | with_reducible apply Keeps.foldlSnd
    | with_reducible apply Keeps.foldlFst | split | (clear_value *; split)
    | (with_reducible refine Keeps.upd ?_ ?_ ?_ ?_ <;> [assumption; rfl; rfl; rfl]) | with_reducible apply Pass.foldl_keeps
    | with_reducible apply Pass.foldlFst_keeps | dsimp only

theorem Pass.r158_keeps {b₀ : Bool} {a₀ : State} {p : Pass} (h : Keeps b₀ a₀ p.st) : Keeps b₀ a₀ (Pass.r158 p).st := by
  unfold Pass.r158
  repeat' first
    | with_reducible assumption | intro _
    | (extract_lets +onlyGivenNames u₀; first | (refine Keeps.cut (m := b₀) (a := a₀) (s := u₀) ?_ fun _ => ?_ <;> [(unfold u₀; clear u₀); ((try clear_value u₀); revert u₀; intro _ _)]) | (refine Keeps.cut (m := b₀) (a := a₀) (s := u₀.st) ?_ fun _ => ?_ <;> [(unfold u₀; clear u₀); ((try clear_value u₀); revert u₀; intro _ _)]) | (revert u₀; intro _))
    | with_reducible apply Pass.fix_keeps | with_reducible apply Pass.kill_keeps | with_reducible apply Pass.shifts_keeps
    | with_reducible apply Keeps.foldl | with_reducible apply Keeps.foldlSnd | with_reducible apply Keeps.foldlFst
    | with_reducible apply Keeps.ite | split | (clear_value *; split)
    | (with_reducible refine Keeps.upd ?_ ?_ ?_ ?_ <;> [assumption; rfl; rfl; rfl]) | with_reducible apply Pass.foldl_keeps
    | with_reducible apply Pass.foldlFst_keeps | dsimp only

theorem Pass.r211_keeps {b₀ : Bool} {a₀ : State} {p : Pass} (h : Keeps b₀ a₀ p.st) : Keeps b₀ a₀ (Pass.r211 p).st := by
  unfold Pass.r211
  repeat' first
    | with_reducible assumption | intro _
    | (extract_lets +onlyGivenNames u₀; first | (refine Keeps.cut (m := b₀) (a := a₀) (s := u₀) ?_ fun _ => ?_ <;> [(unfold u₀; clear u₀); ((try clear_value u₀); revert u₀; intro _ _)]) | (refine Keeps.cut (m := b₀) (a := a₀) (s := u₀.st) ?_ fun _ => ?_ <;> [(unfold u₀; clear u₀); ((try clear_value u₀); revert u₀; intro _ _)]) | (revert u₀; intro _))
    | with_reducible apply Pass.fix_keeps | with_reducible apply Keeps.foldl | with_reducible apply Keeps.foldlSnd
    | with_reducible apply Keeps.foldlFst | with_reducible apply Keeps.ite | split | (clear_value *; split)
    | with_reducible apply Pass.foldl_keeps | with_reducible apply Pass.foldlFst_keeps | dsimp only

theorem Pass.r225_keeps {b₀ : Bool} {a₀ : State} {p : Pass} (h : Keeps b₀ a₀ p.st) : Keeps b₀ a₀ (Pass.r225 p).st := by
  unfold Pass.r225
  repeat' first
    | with_reducible assumption | intro _
    | (extract_lets +onlyGivenNames u₀; first | (refine Keeps.cut (m := b₀) (a := a₀) (s := u₀) ?_ fun _ => ?_ <;> [(unfold u₀; clear u₀); ((try clear_value u₀); revert u₀; intro _ _)]) | (refine Keeps.cut (m := b₀) (a := a₀) (s := u₀.st) ?_ fun _ => ?_ <;> [(unfold u₀; clear u₀); ((try clear_value u₀); revert u₀; intro _ _)]) | (revert u₀; intro _))
    | with_reducible apply Pass.kill_keeps | with_reducible apply Keeps.foldl | with_reducible apply Keeps.foldlSnd
    | with_reducible apply Keeps.foldlFst | with_reducible apply Keeps.ite | split | (clear_value *; split)
    | (with_reducible refine Keeps.upd ?_ ?_ ?_ ?_ <;> [assumption; rfl; rfl; rfl]) | with_reducible apply Pass.foldl_keeps
    | with_reducible apply Pass.foldlFst_keeps | dsimp only

theorem Pass.r247_keeps {b₀ : Bool} {a₀ : State} {p : Pass} (h : Keeps b₀ a₀ p.st) : Keeps b₀ a₀ (Pass.r247 p).st := by
  unfold Pass.r247
  repeat' first
    | with_reducible assumption | intro _
    | (extract_lets +onlyGivenNames u₀; first | (refine Keeps.cut (m := b₀) (a := a₀) (s := u₀) ?_ fun _ => ?_ <;> [(unfold u₀; clear u₀); ((try clear_value u₀); revert u₀; intro _ _)]) | (refine Keeps.cut (m := b₀) (a := a₀) (s := u₀.st) ?_ fun _ => ?_ <;> [(unfold u₀; clear u₀); ((try clear_value u₀); revert u₀; intro _ _)]) | (revert u₀; intro _))
    | with_reducible apply Pass.fix_keeps | with_reducible apply Keeps.foldl | with_reducible apply Keeps.foldlSnd
    | with_reducible apply Keeps.foldlFst | with_reducible apply Keeps.ite | split | (clear_value *; split)
    | with_reducible apply Pass.foldl_keeps | with_reducible apply Pass.foldlFst_keeps | dsimp only

theorem Pass.r260_keeps {b₀ : Bool} {a₀ : State} {p : Pass} (h : Keeps b₀ a₀ p.st) : Keeps b₀ a₀ (Pass.r260 p).st := by
  unfold Pass.r260
  repeat' first
    | with_reducible assumption | intro _ | with_reducible apply Pass.kill_keeps | with_reducible apply Keeps.foldl
    | with_reducible apply Keeps.foldlSnd | with_reducible apply Keeps.foldlFst | with_reducible apply Keeps.ite | split
    | (clear_value *; split) | with_reducible apply Pass.foldl_keeps | with_reducible apply Pass.foldlFst_keeps | dsimp only

theorem Pass.r270_keeps {b₀ : Bool} {a₀ : State} {p : Pass} (h : Keeps b₀ a₀ p.st) : Keeps b₀ a₀ (Pass.r270 p).st := by
  unfold Pass.r270
  repeat' first
    | with_reducible assumption | intro _
    | (extract_lets +onlyGivenNames u₀; first | (refine Keeps.cut (m := b₀) (a := a₀) (s := u₀) ?_ fun _ => ?_ <;> [(unfold u₀; clear u₀); ((try clear_value u₀); revert u₀; intro _ _)]) | (refine Keeps.cut (m := b₀) (a := a₀) (s := u₀.st) ?_ fun _ => ?_ <;> [(unfold u₀; clear u₀); ((try clear_value u₀); revert u₀; intro _ _)]) | (revert u₀; intro _))
    | with_reducible apply Pass.fix_keeps | with_reducible apply Keeps.foldl | with_reducible apply Keeps.foldlSnd
    | with_reducible apply Keeps.foldlFst | with_reducible apply Keeps.ite | split | (clear_value *; split)
    | with_reducible apply Pass.foldl_keeps | with_reducible apply Pass.foldlFst_keeps | dsimp only

theorem Pass.r279_keeps {b₀ : Bool} {a₀ : State} {p : Pass} (h : Keeps b₀ a₀ p.st) : Keeps b₀ a₀ (Pass.r279 p).st := by
  unfold Pass.r279
  repeat' first
    | with_reducible assumption | intro _
    | (extract_lets +onlyGivenNames u₀; first | (refine Keeps.cut (m := b₀) (a := a₀) (s := u₀) ?_ fun _ => ?_ <;> [(unfold u₀; clear u₀); ((try clear_value u₀); revert u₀; intro _ _)]) | (refine Keeps.cut (m := b₀) (a := a₀) (s := u₀.st) ?_ fun _ => ?_ <;> [(unfold u₀; clear u₀); ((try clear_value u₀); revert u₀; intro _ _)]) | (revert u₀; intro _))
    | with_reducible apply State.gate_keeps | with_reducible apply Pass.fix_keeps | with_reducible apply Keeps.foldl
    | with_reducible apply Keeps.foldlSnd | with_reducible apply Keeps.foldlFst | with_reducible apply Keeps.ite | split
    | (clear_value *; split) | with_reducible apply Pass.foldl_keeps | with_reducible apply Pass.foldlFst_keeps | dsimp only

theorem Pass.r433_keeps {b₀ : Bool} {a₀ : State} {p : Pass} (h : Keeps b₀ a₀ p.st) : Keeps b₀ a₀ (Pass.r433 p).st := by
  unfold Pass.r433
  repeat' first
    | with_reducible assumption | intro _
    | (extract_lets +onlyGivenNames u₀; first | (refine Keeps.cut (m := b₀) (a := a₀) (s := u₀) ?_ fun _ => ?_ <;> [(unfold u₀; clear u₀); ((try clear_value u₀); revert u₀; intro _ _)]) | (refine Keeps.cut (m := b₀) (a := a₀) (s := u₀.st) ?_ fun _ => ?_ <;> [(unfold u₀; clear u₀); ((try clear_value u₀); revert u₀; intro _ _)]) | (revert u₀; intro _))
    | with_reducible apply Pass.fix_keeps | with_reducible apply Keeps.foldl | with_reducible apply Keeps.foldlSnd
    | with_reducible apply Keeps.foldlFst | with_reducible apply Keeps.ite | split | (clear_value *; split)
    | (with_reducible refine Keeps.upd ?_ ?_ ?_ ?_ <;> [assumption; rfl; rfl; rfl]) | with_reducible apply Pass.foldl_keeps
    | with_reducible apply Pass.foldlFst_keeps | dsimp only

theorem Pass.r448_keeps {b₀ : Bool} {a₀ : State} {p : Pass} (h : Keeps b₀ a₀ p.st) : Keeps b₀ a₀ (Pass.r448 p).st := by
  unfold Pass.r448
  repeat' first
    | with_reducible assumption | intro _
    | (extract_lets +onlyGivenNames u₀; first | (refine Keeps.cut (m := b₀) (a := a₀) (s := u₀) ?_ fun _ => ?_ <;> [(unfold u₀; clear u₀); ((try clear_value u₀); revert u₀; intro _ _)]) | (refine Keeps.cut (m := b₀) (a := a₀) (s := u₀.st) ?_ fun _ => ?_ <;> [(unfold u₀; clear u₀); ((try clear_value u₀); revert u₀; intro _ _)]) | (revert u₀; intro _))
    | with_reducible apply Pass.kill_keeps | with_reducible apply Keeps.foldl | with_reducible apply Keeps.foldlSnd
    | with_reducible apply Keeps.foldlFst | with_reducible apply Keeps.ite | split | (clear_value *; split)
    | (with_reducible refine Keeps.upd ?_ ?_ ?_ ?_ <;> [assumption; rfl; rfl; rfl]) | with_reducible apply Pass.foldl_keeps
    | with_reducible apply Pass.foldlFst_keeps | dsimp only

theorem Pass.r477_keeps {b₀ : Bool} {a₀ : State} {p : Pass} (h : Keeps b₀ a₀ p.st) : Keeps b₀ a₀ (Pass.r477 p).st := by
  unfold Pass.r477
  repeat' first
    | with_reducible assumption | intro _ | with_reducible apply Pass.fix_keeps | with_reducible apply Keeps.foldl
    | with_reducible apply Keeps.foldlSnd | with_reducible apply Keeps.foldlFst | with_reducible apply Keeps.ite | split
    | (clear_value *; split) | with_reducible apply Pass.foldl_keeps | with_reducible apply Pass.foldlFst_keeps | dsimp only

theorem State.assign_keeps {b₀ : Bool} {a₀ s : State} (h : Keeps b₀ a₀ s) (f : Fld) (i : Nat) (v : Nat) : Keeps b₀ a₀ (State.assign s f i v) := by
  unfold State.assign
  repeat' first
    | with_reducible assumption | intro _
    | (extract_lets +onlyGivenNames u₀; first | (refine Keeps.cut (m := b₀) (a := a₀) (s := u₀) ?_ fun _ => ?_ <;> [(unfold u₀; clear u₀); ((try clear_value u₀); revert u₀; intro _ _)]) | (revert u₀; intro _))
    | with_reducible apply State.wr_keeps | (with_reducible refine Keeps.upd ?_ ?_ ?_ ?_ <;> [assumption; rfl; rfl; rfl])

theorem Pass.schedule_keeps {b₀ : Bool} {a₀ : State} {p : Pass} (h : Keeps b₀ a₀ p.st) : Keeps b₀ a₀ (Pass.schedule p).st := by
  unfold Pass.schedule
  repeat' first
    | with_reducible assumption | intro _
    | (extract_lets +onlyGivenNames u₀; first | (refine Keeps.cut (m := b₀) (a := a₀) (s := u₀) ?_ fun _ => ?_ <;> [(unfold u₀; clear u₀); ((try clear_value u₀); revert u₀; intro _ _)]) | (refine Keeps.cut (m := b₀) (a := a₀) (s := u₀.st) ?_ fun _ => ?_ <;> [(unfold u₀; clear u₀); ((try clear_value u₀); revert u₀; intro _ _)]) | (revert u₀; intro _))
    | with_reducible apply Pass.kill_keeps | with_reducible apply Pass.propagate_keeps | with_reducible apply State.assign_keeps
    | with_reducible apply Keeps.foldl | with_reducible apply Keeps.foldlSnd | with_reducible apply Keeps.foldlFst
    | with_reducible apply Keeps.ite | split | (clear_value *; split)
    | (with_reducible refine Keeps.upd ?_ ?_ ?_ ?_ <;> [assumption; rfl; rfl; rfl]) | with_reducible apply Pass.foldl_keeps
    | with_reducible apply Pass.foldlFst_keeps | dsimp only

theorem Pass.resetDisabled_keeps {b₀ : Bool} {a₀ : State} {p : Pass} (h : Keeps b₀ a₀ p.st) : Keeps b₀ a₀ (Pass.resetDisabled p).st := by
  unfold Pass.resetDisabled
  repeat' first
    | with_reducible assumption | intro _
    | (extract_lets +onlyGivenNames u₀; first | (refine Keeps.cut (m := b₀) (a := a₀) (s := u₀) ?_ fun _ => ?_ <;> [(unfold u₀; clear u₀); ((try clear_value u₀); revert u₀; intro _ _)]) | (refine Keeps.cut (m := b₀) (a := a₀) (s := u₀.st) ?_ fun _ => ?_ <;> [(unfold u₀; clear u₀); ((try clear_value u₀); revert u₀; intro _ _)]) | (revert u₀; intro _))
    | with_reducible apply State.putKey_keeps | with_reducible apply Keeps.foldl | with_reducible apply Keeps.foldlSnd
    | with_reducible apply Keeps.foldlFst | with_reducible apply Keeps.ite | split | (clear_value *; split)
    | (with_reducible refine Keeps.upd ?_ ?_ ?_ ?_ <;> [assumption; rfl; rfl; rfl]) | with_reducible apply Pass.foldl_keeps
    | with_reducible apply Pass.foldlFst_keeps | dsimp only

theorem Pass.three_keeps {b₀ : Bool} {a₀ : State} {p : Pass} (h : Keeps b₀ a₀ p.st) : Keeps b₀ a₀ p.three.st := by
  refine Pass.resetDisabled_keeps (Pass.schedule_keeps ?_)
  simp only [List.foldl]
  repeat' first
    | with_reducible assumption
    | with_reducible apply Pass.r131_keeps | with_reducible apply Pass.r158_keeps | with_reducible apply Pass.r211_keeps
    | with_reducible apply Pass.r225_keeps | with_reducible apply Pass.r247_keeps | with_reducible apply Pass.r260_keeps
    | with_reducible apply Pass.r270_keeps | with_reducible apply Pass.r279_keeps | with_reducible apply Pass.r433_keeps
    | with_reducible apply Pass.r448_keeps | with_reducible apply Pass.r477_keeps | with_reducible apply Pass.propagate_keeps

theorem runPasses_keeps {b₀ : Bool} {a₀ s : State} (h : Keeps b₀ a₀ s) (img : List Sect) : Keeps b₀ a₀ (runPasses s img).st := by
  unfold runPasses
  repeat' first
    | with_reducible assumption | intro _ | with_reducible apply Pass.one_keeps | with_reducible apply Pass.two_keeps
    | with_reducible apply Pass.three_keeps | dsimp only

end Sys2Proof.Machine
end

