-- ==== Sys2Proof/Laws/KeepsLoader.lean ====
section
/-! SUPPORT. Every operation of Machine/Loader.lean keeps what `Keeps` says. -/

namespace Sys2Proof.Machine

open Sys2Proof

set_option linter.unusedTactic false

set_option linter.unreachableTactic false

theorem State.setLoader_keeps {b₀ : Bool} {a₀ s : State} (h : Keeps b₀ a₀ s) (l : Loader) (hl : a₀.Sound → l.report.length ≤ 1024) :
    Keeps b₀ a₀ (s.setLoader l) :=
  ⟨h.hw, h.fuses, h.pending, h.out, h.free, fun g =>
    ⟨(h.sound g).bytes, (h.sound g).regs, (h.sound g).posts, hl g⟩, h.bytes⟩

theorem Keeps.report_le {b₀ : Bool} {a₀ s : State} (h : Keeps b₀ a₀ s) : a₀.Sound → s.ldr.report.length ≤ 1024 := fun g => (h.sound g).report

theorem State.loadRejected_keeps {b₀ : Bool} {a₀ s : State} (h : Keeps b₀ a₀ s) (cause : Nat) : Keeps b₀ a₀ (State.loadRejected s cause) := by
  unfold State.loadRejected
  repeat' first
    | exact fun _ => Nat.zero_le _ | (refine Keeps.report_le (b₀ := b₀) ?_) | with_reducible assumption | intro _
    | (extract_lets +onlyGivenNames u₀; first | (refine Keeps.cut (m := b₀) (a := a₀) (s := u₀) ?_ fun _ => ?_ <;> [(unfold u₀; clear u₀); ((try clear_value u₀); revert u₀; intro _ _)]) | (revert u₀; intro _))
    | with_reducible apply State.wr_keeps | with_reducible apply State.ev_keeps | with_reducible apply State.globalIrq_keeps
    | with_reducible apply State.setLoader_keeps | with_reducible apply Keeps.ite | split | (clear_value *; split)
    | (with_reducible refine Keeps.upd ?_ ?_ ?_ ?_ <;> [assumption; rfl; rfl; rfl])

theorem State.loadStart_keeps {b₀ : Bool} {a₀ s : State} (h : Keeps b₀ a₀ s) (src : Nat) (mayFallBack : Bool) : Keeps b₀ a₀ (State.loadStart s src mayFallBack) := by
  unfold State.loadStart
  repeat' first
    | exact fun _ => Nat.zero_le _ | (refine Keeps.report_le (b₀ := b₀) ?_) | with_reducible assumption | intro _
    | (extract_lets +onlyGivenNames u₀; first | (refine Keeps.cut (m := b₀) (a := a₀) (s := u₀) ?_ fun _ => ?_ <;> [(unfold u₀; clear u₀); ((try clear_value u₀); revert u₀; intro _ _)]) | (revert u₀; intro _))
    | with_reducible apply State.setLoader_keeps | (with_reducible refine Keeps.upd ?_ ?_ ?_ ?_ <;> [assumption; rfl; rfl; rfl])

theorem State.loadRequest_keeps {b₀ : Bool} {a₀ s : State} (h : Keeps b₀ a₀ s) : Keeps b₀ a₀ (State.loadRequest s) := by
  unfold State.loadRequest
  repeat' first
    | with_reducible assumption | intro _
    | (extract_lets +onlyGivenNames u₀; first | (refine Keeps.cut (m := b₀) (a := a₀) (s := u₀) ?_ fun _ => ?_ <;> [(unfold u₀; clear u₀); ((try clear_value u₀); revert u₀; intro _ _)]) | (revert u₀; intro _))
    | with_reducible apply State.loadStart_keeps | with_reducible apply State.loadRejected_keeps
    | with_reducible apply State.ev_keeps | with_reducible apply Keeps.ite | split | (clear_value *; split)
    | (with_reducible refine Keeps.upd ?_ ?_ ?_ ?_ <;> [assumption; rfl; rfl; rfl])

theorem State.commitRequest_keeps {b₀ : Bool} {a₀ s : State} (h : Keeps b₀ a₀ s) : Keeps b₀ a₀ (State.commitRequest s) := by
  unfold State.commitRequest
  split
  · exact State.ev_keeps h ..
  · split
    · exact State.globalIrq_keeps (State.ev_keeps h ..) _
    · refine State.setLoader_keeps (State.ev_keeps h ..) _ fun g => ?_
      have := (h.sound g).report
      dsimp only
      split <;> exact this

theorem State.ldrCtl_keeps {b₀ : Bool} {a₀ s : State} (h : Keeps b₀ a₀ s) (v : Word) : Keeps b₀ a₀ (State.ldrCtl s v) := by
  unfold State.ldrCtl
  repeat' first
    | with_reducible assumption | intro _
    | (extract_lets +onlyGivenNames u₀; first | (refine Keeps.cut (m := b₀) (a := a₀) (s := u₀) ?_ fun _ => ?_ <;> [(unfold u₀; clear u₀); ((try clear_value u₀); revert u₀; intro _ _)]) | (revert u₀; intro _))
    | with_reducible apply State.wr_keeps | with_reducible apply State.loadRequest_keeps
    | with_reducible apply State.commitRequest_keeps | with_reducible apply Keeps.ite | split | (clear_value *; split)

theorem execLoadRequest_keeps {b₀ : Bool} {a₀ s : State} (h : Keeps b₀ a₀ s) (v : Word) {t₀ : State} (e : execLoadRequest v s = .next t₀) : Keeps b₀ a₀ t₀ := by
  unfold execLoadRequest at e
  obtain ⟨-, rfl⟩ := guardWF_next e
  repeat' first
    | with_reducible assumption | intro _ | with_reducible apply State.hostWrite_keeps | with_reducible apply State.ldrCtl_keeps

theorem execCommit_keeps {b₀ : Bool} {a₀ s : State} (h : Keeps b₀ a₀ s) (v : Word) {t₀ : State} (e : execCommit v s = .next t₀) : Keeps b₀ a₀ t₀ := by
  unfold execCommit at e
  obtain ⟨-, rfl⟩ := guardWF_next e
  repeat' first
    | with_reducible assumption | intro _ | with_reducible apply State.hostWrite_keeps | with_reducible apply State.ldrCtl_keeps

theorem autoLoad_keeps {b₀ : Bool} {a₀ s : State} (h : Keeps b₀ a₀ s) : Keeps b₀ a₀ (autoLoad s) := by
  unfold autoLoad
  repeat' first
    | with_reducible assumption | intro _ | with_reducible apply State.loadStart_keeps | with_reducible apply Keeps.ite | split
    | (clear_value *; split)

theorem execAutoLoad_keeps {b₀ : Bool} {a₀ s : State} (h : Keeps b₀ a₀ s) {t₀ : State} (e : execAutoLoad s = .next t₀) : Keeps b₀ a₀ t₀ := by
  unfold execAutoLoad at e
  obtain ⟨-, rfl⟩ := guardWF_next e
  repeat' first
    | with_reducible assumption | intro _ | with_reducible apply autoLoad_keeps

theorem State.applyStops_keeps {b₀ : Bool} {a₀ s : State} (h : Keeps b₀ a₀ s) : Keeps b₀ a₀ (State.applyStops s) := by
  unfold State.applyStops
  repeat' first
    | with_reducible assumption | intro _ | with_reducible apply State.axStop_keeps | with_reducible apply Keeps.foldl
    | with_reducible apply Keeps.foldlSnd | with_reducible apply Keeps.foldlFst | with_reducible apply Keeps.ite | split
    | (clear_value *; split)

theorem State.applyContexts_keeps {b₀ : Bool} {a₀ s : State} (h : Keeps b₀ a₀ s) : Keeps b₀ a₀ (State.applyContexts s) := by
  unfold State.applyContexts
  repeat' first
    | with_reducible assumption | intro _
    | (extract_lets +onlyGivenNames u₀; first | (refine Keeps.cut (m := b₀) (a := a₀) (s := u₀) ?_ fun _ => ?_ <;> [(unfold u₀; clear u₀); ((try clear_value u₀); revert u₀; intro _ _)]) | (refine Keeps.cut (m := b₀) (a := a₀) (s := u₀.2) ?_ fun _ => ?_ <;> [(unfold u₀; clear u₀); ((try clear_value u₀); revert u₀; intro _ _)]) | (revert u₀; intro _))
    | with_reducible apply State.setCtx_keeps | with_reducible apply State.finishAll_keeps
    | with_reducible apply State.closeDecision_keeps | with_reducible apply State.toState_keeps
    | with_reducible apply Keeps.foldl | with_reducible apply Keeps.foldlSnd | with_reducible apply Keeps.foldlFst
    | (with_reducible refine Keeps.upd ?_ ?_ ?_ ?_ <;> [assumption; rfl; rfl; rfl])

theorem State.showIsolated_keeps {b₀ : Bool} {a₀ s : State} (h : Keeps b₀ a₀ s) : Keeps b₀ a₀ (State.showIsolated s) := by
  unfold State.showIsolated
  repeat' first
    | with_reducible assumption | intro _
    | (extract_lets +onlyGivenNames u₀; first | (refine Keeps.cut (m := b₀) (a := a₀) (s := u₀) ?_ fun _ => ?_ <;> [(unfold u₀; clear u₀); ((try clear_value u₀); revert u₀; intro _ _)]) | (revert u₀; intro _))
    | with_reducible apply State.wr_keeps | with_reducible apply Keeps.foldl | with_reducible apply Keeps.foldlSnd
    | with_reducible apply Keeps.foldlFst | split | (clear_value *; split)
    | (with_reducible refine Keeps.upd ?_ ?_ ?_ ?_ <;> [assumption; rfl; rfl; rfl])

theorem State.applyRunning_keeps {b₀ : Bool} {a₀ s : State} (h : Keeps b₀ a₀ s) : Keeps b₀ a₀ (State.applyRunning s) := by
  unfold State.applyRunning
  repeat' first
    | with_reducible assumption | intro _
    | (extract_lets +onlyGivenNames u₀; first | (refine Keeps.cut (m := b₀) (a := a₀) (s := u₀) ?_ fun _ => ?_ <;> [(unfold u₀; clear u₀); ((try clear_value u₀); revert u₀; intro _ _)]) | (revert u₀; intro _))
    | with_reducible apply State.resetFields_keeps | with_reducible apply State.recalAbandon_keeps
    | with_reducible apply State.idle_keeps | with_reducible apply State.setGate_keeps
    | with_reducible apply State.idleChannels_keeps | with_reducible apply State.jobForget_keeps
    | with_reducible apply State.extDown_keeps | with_reducible apply State.ldReq_keeps
    | with_reducible apply State.applyStops_keeps | with_reducible apply State.clr_keeps
    | with_reducible apply State.releasePins_keeps | with_reducible apply State.closeKinds_keeps
    | with_reducible apply State.showIsolated_keeps | with_reducible apply State.applyContexts_keeps
    | with_reducible apply Keeps.foldl | with_reducible apply Keeps.foldlSnd | with_reducible apply Keeps.foldlFst
    | with_reducible apply Keeps.ite | split | (clear_value *; split)
    | (with_reducible refine Keeps.upd ?_ ?_ ?_ ?_ <;> [assumption; rfl; rfl; rfl])
    | (with_reducible refine Keeps.updEmpty ?_ ?_ ?_ ?_ <;> [assumption; rfl; (first | exact .inl rfl | exact .inr rfl); (first | exact .inl rfl | exact .inr rfl)])

theorem State.applyStart_keeps {b₀ : Bool} {a₀ s : State} (h : Keeps b₀ a₀ s) : Keeps b₀ a₀ (State.applyStart s) := by
  unfold State.applyStart
  repeat' first
    | exact fun _ => Nat.zero_le _ | (refine Keeps.report_le (b₀ := b₀) ?_) | with_reducible assumption | intro _
    | (extract_lets +onlyGivenNames u₀; first | (refine Keeps.cut (m := b₀) (a := a₀) (s := u₀) ?_ fun _ => ?_ <;> [(unfold u₀; clear u₀); ((try clear_value u₀); revert u₀; intro _ _)]) | (revert u₀; intro _))
    | with_reducible apply State.setLoader_keeps | with_reducible apply State.report_keeps
    | with_reducible apply State.clr_keeps | with_reducible apply State.wrB_keeps
    | with_reducible apply State.applyRunning_keeps
    | (with_reducible refine Keeps.upd ?_ ?_ ?_ ?_ <;> [assumption; rfl; rfl; rfl])
    | (with_reducible refine Keeps.updEmpty ?_ ?_ ?_ ?_ <;> [assumption; rfl; (first | exact .inl rfl | exact .inr rfl); (first | exact .inl rfl | exact .inr rfl)])

theorem State.readStaged_keeps {b₀ : Bool} {a₀ s : State} (h : Keeps b₀ a₀ s) (readOk : Bool) : Keeps b₀ a₀ (State.readStaged s readOk) := by
  unfold State.readStaged
  repeat' first
    | with_reducible assumption | intro _
    | (extract_lets +onlyGivenNames u₀; first | (refine Keeps.cut (m := b₀) (a := a₀) (s := u₀) ?_ fun _ => ?_ <;> [(unfold u₀; clear u₀); ((try clear_value u₀); revert u₀; intro _ _)]) | (refine Keeps.cut (m := b₀) (a := a₀) (s := u₀.2) ?_ fun _ => ?_ <;> [(unfold u₀; clear u₀); ((try clear_value u₀); revert u₀; intro _ _)]) | (revert u₀; intro _))
    | with_reducible apply State.readEcc_keeps | with_reducible apply Keeps.ite | with_reducible apply Keeps.iteSnd
    | split | (clear_value *; split) | (with_reducible refine Keeps.upd ?_ ?_ ?_ ?_ <;> [assumption; rfl; rfl; rfl])

theorem imageVerifyComplete_keeps {b₀ : Bool} {a₀ s : State} (h : Keeps b₀ a₀ s) (readOk : Bool) : Keeps b₀ a₀ (imageVerifyComplete readOk s) := by
  unfold imageVerifyComplete
  repeat' first
    | with_reducible assumption | intro _
    | (extract_lets +onlyGivenNames u₀; first | (refine Keeps.cut (m := b₀) (a := a₀) (s := u₀) ?_ fun _ => ?_ <;> [(unfold u₀; clear u₀); ((try clear_value u₀); revert u₀; intro _ _)]) | (refine Keeps.cut (m := b₀) (a := a₀) (s := u₀.2) ?_ fun _ => ?_ <;> [(unfold u₀; clear u₀); ((try clear_value u₀); revert u₀; intro _ _)]) | (revert u₀; intro _))
    | with_reducible apply State.freshIf_keeps | with_reducible apply State.loadRejected_keeps
    | with_reducible apply State.readStaged_keeps | with_reducible apply State.applyStart_keeps
    | with_reducible apply Keeps.ite | with_reducible apply Keeps.iteSnd | split | (clear_value *; split)
    | (with_reducible refine Keeps.upd ?_ ?_ ?_ ?_ <;> [assumption; rfl; rfl; rfl])

theorem execImageVerifyComplete_keeps {b₀ : Bool} {a₀ s : State} (h : Keeps b₀ a₀ s) (readOk : Bool) {t₀ : State} (e : execImageVerifyComplete readOk s = .next t₀) : Keeps b₀ a₀ t₀ := by
  unfold execImageVerifyComplete at e
  obtain ⟨-, rfl⟩ := guardWF_next e
  repeat' first
    | with_reducible assumption | intro _ | with_reducible apply imageVerifyComplete_keeps

theorem State.recordHardware_keeps {b₀ : Bool} {a₀ s : State} (h : Keeps b₀ a₀ s) (r : Nat) : Keeps b₀ a₀ (State.recordHardware s r) := by
  unfold State.recordHardware
  repeat' first
    | with_reducible assumption | intro _
    | (extract_lets +onlyGivenNames u₀; first | (refine Keeps.cut (m := b₀) (a := a₀) (s := u₀) ?_ fun _ => ?_ <;> [(unfold u₀; clear u₀); ((try clear_value u₀); revert u₀; intro _ _)]) | (revert u₀; intro _))
    | with_reducible apply State.setRec_keeps | with_reducible apply State.sevRise_keeps
    | with_reducible apply State.actOn_keeps | with_reducible apply State.reactOn_keeps | with_reducible apply Keeps.foldl
    | with_reducible apply Keeps.foldlSnd | with_reducible apply Keeps.foldlFst | with_reducible apply Keeps.ite | split
    | (clear_value *; split) | (with_reducible refine Keeps.upd ?_ ?_ ?_ ?_ <;> [assumption; rfl; rfl; rfl])

theorem State.repost_keeps {b₀ : Bool} {a₀ s : State} (h : Keeps b₀ a₀ s) : Keeps b₀ a₀ (State.repost s) := by
  unfold State.repost
  repeat' first
    | with_reducible assumption | intro _
    | (extract_lets +onlyGivenNames u₀; first | (refine Keeps.cut (m := b₀) (a := a₀) (s := u₀) ?_ fun _ => ?_ <;> [(unfold u₀; clear u₀); ((try clear_value u₀); revert u₀; intro _ _)]) | (revert u₀; intro _))
    | with_reducible apply State.closeDecision_keeps | with_reducible apply State.post_keeps
    | with_reducible apply State.recordHardware_keeps | with_reducible apply Keeps.foldl | with_reducible apply Keeps.foldlSnd
    | with_reducible apply Keeps.foldlFst | with_reducible apply Keeps.ite | split | (clear_value *; split)

theorem State.showDigest_keeps {b₀ : Bool} {a₀ s : State} (h : Keeps b₀ a₀ s) (img : List Byte) : Keeps b₀ a₀ (State.showDigest s img) := by
  unfold State.showDigest
  repeat' first
    | with_reducible assumption | intro _
    | (extract_lets +onlyGivenNames u₀; first | (refine Keeps.cut (m := b₀) (a := a₀) (s := u₀) ?_ fun _ => ?_ <;> [(unfold u₀; clear u₀); ((try clear_value u₀); revert u₀; intro _ _)]) | (revert u₀; intro _))
    | with_reducible apply State.wr_keeps | with_reducible apply Keeps.foldl | with_reducible apply Keeps.foldlSnd
    | with_reducible apply Keeps.foldlFst

theorem State.showLoaded_keeps {b₀ : Bool} {a₀ s : State} (h : Keeps b₀ a₀ s) : Keeps b₀ a₀ (State.showLoaded s) := by
  unfold State.showLoaded
  repeat' first
    | with_reducible assumption | intro _
    | (extract_lets +onlyGivenNames u₀; first | (refine Keeps.cut (m := b₀) (a := a₀) (s := u₀) ?_ fun _ => ?_ <;> [(unfold u₀; clear u₀); ((try clear_value u₀); revert u₀; intro _ _)]) | (revert u₀; intro _))
    | with_reducible apply State.wr_keeps | with_reducible apply State.wrB_keeps | with_reducible apply State.report_keeps
    | with_reducible apply State.showDigest_keeps | with_reducible apply State.ev_keeps
    | with_reducible apply State.globalIrq_keeps

theorem State.loaded_keeps {b₀ : Bool} {a₀ s : State} (h : Keeps b₀ a₀ s) : Keeps b₀ a₀ (State.loaded s) := by
  unfold State.loaded
  repeat' first
    | exact fun _ => Nat.zero_le _ | (refine Keeps.report_le (b₀ := b₀) ?_) | with_reducible assumption | intro _
    | (extract_lets +onlyGivenNames u₀; first | (refine Keeps.cut (m := b₀) (a := a₀) (s := u₀) ?_ fun _ => ?_ <;> [(unfold u₀; clear u₀); ((try clear_value u₀); revert u₀; intro _ _)]) | (refine Keeps.cut (m := b₀) (a := a₀) (s := u₀.st) ?_ fun _ => ?_ <;> [(unfold u₀; clear u₀); ((try clear_value u₀); revert u₀; intro _ _)]) | (revert u₀; intro _))
    | with_reducible apply State.resetFields_keeps | with_reducible apply State.setLoader_keeps
    | with_reducible apply runPasses_keeps | with_reducible apply State.report_keeps | with_reducible apply State.wrB_keeps
    | with_reducible apply State.setLdr_keeps | with_reducible apply State.showLoaded_keeps
    | with_reducible apply State.repost_keeps | with_reducible apply State.drainWaiting_keeps
    | with_reducible apply State.settleGate_keeps | with_reducible apply State.extStart_keeps | with_reducible apply Keeps.ite
    | split | (clear_value *; split) | (with_reducible refine Keeps.upd ?_ ?_ ?_ ?_ <;> [assumption; rfl; rfl; rfl])
    | dsimp only

theorem applyComplete_keeps {b₀ : Bool} {a₀ s : State} (h : Keeps b₀ a₀ s) : Keeps b₀ a₀ (applyComplete s) := by
  unfold applyComplete
  repeat' first
    | with_reducible assumption | intro _ | with_reducible apply State.loaded_keeps | with_reducible apply Keeps.ite | split
    | (clear_value *; split)

theorem execApplyComplete_keeps {b₀ : Bool} {a₀ s : State} (h : Keeps b₀ a₀ s) {t₀ : State} (e : execApplyComplete s = .next t₀) : Keeps b₀ a₀ t₀ := by
  unfold execApplyComplete at e
  obtain ⟨-, rfl⟩ := guardWF_next e
  repeat' first
    | with_reducible assumption | intro _ | with_reducible apply applyComplete_keeps

theorem commitComplete_keeps {b₀ : Bool} {a₀ s : State} (h : Keeps b₀ a₀ s) (ok : Bool) : Keeps b₀ a₀ (commitComplete ok s) := by
  unfold commitComplete
  split
  · exact h
  · extract_lets l x u
    have hu : Keeps b₀ a₀ u := by
      refine State.setLoader_keeps (State.clr_keeps h ..) _ fun g => ?_
      have := (h.sound g).report
      unfold x
      dsimp only
      split <;> exact this
    refine State.globalIrq_keeps ?_ _
    split
    · exact hu
    · exact State.ev_keeps hu ..

theorem execCommitComplete_keeps {b₀ : Bool} {a₀ s : State} (h : Keeps b₀ a₀ s) (ok : Bool) {t₀ : State} (e : execCommitComplete ok s = .next t₀) : Keeps b₀ a₀ t₀ := by
  unfold execCommitComplete at e
  obtain ⟨-, rfl⟩ := guardWF_next e
  repeat' first
    | with_reducible assumption | intro _ | with_reducible apply commitComplete_keeps

theorem State.armRefuse_keeps {b₀ : Bool} {a₀ s : State} (h : Keeps b₀ a₀ s) (n : Nat) : Keeps b₀ a₀ (State.armRefuse s n) := by
  unfold State.armRefuse
  repeat' first
    | with_reducible assumption | intro _ | with_reducible apply State.wr_keeps

theorem State.armNow_keeps {b₀ : Bool} {a₀ s : State} (h : Keeps b₀ a₀ s) : Keeps b₀ a₀ (State.armNow s) := by
  unfold State.armNow
  repeat' first
    | with_reducible assumption | intro _
    | (extract_lets +onlyGivenNames u₀; first | (refine Keeps.cut (m := b₀) (a := a₀) (s := u₀) ?_ fun _ => ?_ <;> [(unfold u₀; clear u₀); ((try clear_value u₀); revert u₀; intro _ _)]) | (revert u₀; intro _))
    | with_reducible apply State.armRefuse_keeps | with_reducible apply State.clr_keeps
    | with_reducible apply State.setLdr_keeps | with_reducible apply Keeps.foldl
    | with_reducible apply Keeps.foldlSnd | with_reducible apply Keeps.foldlFst | with_reducible apply Keeps.ite
    | split | (clear_value *; split) | (with_reducible refine Keeps.upd ?_ ?_ ?_ ?_ <;> [assumption; rfl; rfl; rfl])

theorem execArm_keeps {b₀ : Bool} {a₀ s : State} (h : Keeps b₀ a₀ s) (v : Word) {t₀ : State} (e : execArm v s = .next t₀) : Keeps b₀ a₀ t₀ := by
  unfold execArm at e
  obtain ⟨-, rfl⟩ := guardWF_next e
  repeat' first
    | with_reducible assumption | intro _ | with_reducible apply State.hostWrite_keeps | with_reducible apply State.armNow_keeps
    | with_reducible apply State.armRefuse_keeps | with_reducible apply Keeps.ite | split | (clear_value *; split)

theorem execDisarm_keeps {b₀ : Bool} {a₀ s : State} (h : Keeps b₀ a₀ s) (v : Word) {t₀ : State} (e : execDisarm v s = .next t₀) : Keeps b₀ a₀ t₀ := by
  unfold execDisarm at e
  obtain ⟨-, rfl⟩ := guardWF_next e
  repeat' first
    | with_reducible assumption | intro _ | with_reducible apply State.hostWrite_keeps
    | with_reducible apply State.disarmNow_keeps | with_reducible apply Keeps.ite | split | (clear_value *; split)

theorem State.clrExpert_keeps {b₀ : Bool} {a₀ s : State} (h : Keeps b₀ a₀ s) : Keeps b₀ a₀ s.clrExpert :=
  State.setLoader_keeps (State.clr_keeps h _ _) _ fun g => (List.length_filter_le _ _).trans (h.sound g).report

theorem execClrExpert_keeps {b₀ : Bool} {a₀ s : State} (h : Keeps b₀ a₀ s) (v : Word) {t₀ : State} (e : execClrExpert v s = .next t₀) : Keeps b₀ a₀ t₀ := by
  unfold execClrExpert at e
  obtain ⟨-, rfl⟩ := guardWF_next e
  repeat' first
    | with_reducible assumption | intro _ | with_reducible apply State.hostWrite_keeps
    | with_reducible apply State.clrExpert_keeps

theorem State.fuseCommand_keeps {b₀ : Bool} {a₀ s : State} (h : Keeps b₀ a₀ s) (v : Word) : Keeps b₀ a₀ (State.fuseCommand s v) := by
  unfold State.fuseCommand
  repeat' first
    | exact fun _ => Nat.zero_le _ | (refine Keeps.report_le (b₀ := b₀) ?_) | with_reducible assumption | intro _
    | (extract_lets +onlyGivenNames u₀; first | (refine Keeps.cut (m := b₀) (a := a₀) (s := u₀) ?_ fun _ => ?_ <;> [(unfold u₀; clear u₀); ((try clear_value u₀); revert u₀; intro _ _)]) | (revert u₀; intro _))
    | with_reducible apply State.loaded_keeps | with_reducible apply State.ev_keeps | with_reducible apply State.setLoader_keeps
    | with_reducible apply Keeps.ite | split | (clear_value *; split)
    | (with_reducible refine Keeps.upd ?_ ?_ ?_ ?_ <;> [assumption; rfl; rfl; rfl])

theorem execProgramKey_keeps {b₀ : Bool} {a₀ s : State} (h : Keeps b₀ a₀ s) (v : Word) {t₀ : State} (e : execProgramKey v s = .next t₀) : Keeps b₀ a₀ t₀ := by
  unfold execProgramKey at e
  obtain ⟨-, rfl⟩ := guardWF_next e
  repeat' first
    | with_reducible assumption | intro _ | with_reducible apply State.hostWrite_keeps
    | with_reducible apply State.fuseCommand_keeps

theorem execRevoke_keeps {b₀ : Bool} {a₀ s : State} (h : Keeps b₀ a₀ s) (v : Word) {t₀ : State} (e : execRevoke v s = .next t₀) : Keeps b₀ a₀ t₀ := by
  unfold execRevoke at e
  obtain ⟨-, rfl⟩ := guardWF_next e
  repeat' first
    | with_reducible assumption | intro _ | with_reducible apply State.hostWrite_keeps
    | with_reducible apply State.fuseCommand_keeps

theorem execAdvanceSecver_keeps {b₀ : Bool} {a₀ s : State} (h : Keeps b₀ a₀ s) (v : Word) {t₀ : State} (e : execAdvanceSecver v s = .next t₀) : Keeps b₀ a₀ t₀ := by
  unfold execAdvanceSecver at e
  obtain ⟨-, rfl⟩ := guardWF_next e
  repeat' first
    | with_reducible assumption | intro _ | with_reducible apply State.hostWrite_keeps
    | with_reducible apply State.fuseCommand_keeps

theorem execLockTestPort_keeps {b₀ : Bool} {a₀ s : State} (h : Keeps b₀ a₀ s) (v : Word) {t₀ : State} (e : execLockTestPort v s = .next t₀) : Keeps b₀ a₀ t₀ := by
  unfold execLockTestPort at e
  obtain ⟨-, rfl⟩ := guardWF_next e
  repeat' first
    | with_reducible assumption | intro _ | with_reducible apply State.hostWrite_keeps
    | with_reducible apply State.fuseCommand_keeps

theorem fuseCommandDone_keeps (s : State) (verified : Bool) :
    Keeps true { s with fuses := (fuseCommandDone verified s).fuses } (fuseCommandDone verified s) := by
  unfold fuseCommandDone
  split
  · exact .refl s
  · extract_lets l t
    have ht : Keeps true s t := State.setLoader_keeps (State.clr_keeps (.refl s) _ _) _ fun g => g.report
    split
    · exact ⟨ht.hw, rfl, ht.pending, ht.out, ht.free, fun g =>
        have g := ht.sound ⟨g.bytes, g.regs, g.posts, g.report⟩
        ⟨g.bytes, g.regs, g.posts, g.report⟩, ht.bytes⟩
    · have he := State.ev_keeps ht (.ldr .fuseErr) 0
      exact ⟨he.hw, rfl, he.pending, he.out, he.free, fun g => he.sound ⟨g.bytes, g.regs, g.posts, g.report⟩, he.bytes⟩

theorem execFuseCommandDone_keeps {s : State} (verified : Bool) {t₀ : State} (e : execFuseCommandDone verified s = .next t₀) :
    Keeps true { s with fuses := t₀.fuses } t₀ := by
  unfold execFuseCommandDone at e
  obtain ⟨-, rfl⟩ := guardWF_next e
  exact fuseCommandDone_keeps s verified

end Sys2Proof.Machine
end

