-- ==== Sys2Proof/Laws/KeepsHost.lean ====
section
/-! SUPPORT. Every operation of Machine/Host.lean keeps what `Keeps` says. -/

namespace Sys2Proof.Machine

open Sys2Proof

set_option linter.unusedTactic false

set_option linter.unreachableTactic false

theorem State.limited_keeps {b₀ : Bool} {a₀ s : State} (h : Keeps b₀ a₀ s) (k : FKey) (raw : Nat) : Keeps b₀ a₀ (State.limited s k raw).2 := by
  unfold State.limited
  repeat' first
    | with_reducible assumption | intro _
    | (extract_lets +onlyGivenNames u₀; first | (refine Keeps.cut (m := b₀) (a := a₀) (s := u₀) ?_ fun _ => ?_ <;> [(unfold u₀; clear u₀); ((try clear_value u₀); revert u₀; intro _ _)]) | (revert u₀; intro _))
    | with_reducible apply State.report_keeps | with_reducible apply Keeps.ite | split | (clear_value *; split)
    | (with_reducible refine Keeps.upd ?_ ?_ ?_ ?_ <;> [assumption; rfl; rfl; rfl])

theorem State.takeRampLimit_keeps {b₀ : Bool} {a₀ s : State} (h : Keeps b₀ a₀ s) (f : Fld) (a : Nat) (v : Nat) : Keeps b₀ a₀ (State.takeRampLimit s f a v) := by
  unfold State.takeRampLimit
  repeat' first
    | with_reducible assumption | intro _
    | (extract_lets +onlyGivenNames u₀; first | (refine Keeps.cut (m := b₀) (a := a₀) (s := u₀) ?_ fun _ => ?_ <;> [(unfold u₀; clear u₀); ((try clear_value u₀); revert u₀; intro _ _)]) | (revert u₀; intro _))
    | with_reducible apply State.ev_keeps | with_reducible apply State.wr_keeps | with_reducible apply Keeps.ite | split
    | (clear_value *; split) | (with_reducible refine Keeps.upd ?_ ?_ ?_ ?_ <;> [assumption; rfl; rfl; rfl])

theorem State.accept_keeps {b₀ : Bool} {a₀ s : State} (h : Keeps b₀ a₀ s) (f : Fld) (i : Nat) (v : Nat) : Keeps b₀ a₀ (State.accept s f i v) := by
  unfold State.accept
  repeat' first
    | with_reducible assumption | intro _
    | (extract_lets +onlyGivenNames u₀; first | (refine Keeps.cut (m := b₀) (a := a₀) (s := u₀) ?_ fun _ => ?_ <;> [(unfold u₀; clear u₀); ((try clear_value u₀); revert u₀; intro _ _)]) | (revert u₀; intro _))
    | with_reducible apply State.pwmLeave_keeps | with_reducible apply State.settleHeaters_keeps
    | with_reducible apply State.take_keeps | with_reducible apply State.jobForget_keeps
    | with_reducible apply State.drainWaiting_keeps | with_reducible apply State.wr_keeps
    | with_reducible apply State.takeRampLimit_keeps | with_reducible apply Keeps.ite | split
    | (clear_value *; split) | (with_reducible refine Keeps.upd ?_ ?_ ?_ ?_ <;> [assumption; rfl; rfl; rfl])

theorem State.dropUnits_keeps {b₀ : Bool} {a₀ s : State} (h : Keeps b₀ a₀ s) (src : Nat) : Keeps b₀ a₀ (State.dropUnits s src) := by
  unfold State.dropUnits
  repeat' first
    | with_reducible assumption | intro _
    | (extract_lets +onlyGivenNames u₀; first | (refine Keeps.cut (m := b₀) (a := a₀) (s := u₀) ?_ fun _ => ?_ <;> [(unfold u₀; clear u₀); ((try clear_value u₀); revert u₀; intro _ _)]) | (revert u₀; intro _))
    | (with_reducible refine Keeps.upd ?_ ?_ ?_ ?_ <;> [assumption; rfl; rfl; rfl])

theorem State.clearEvent_keeps {b₀ : Bool} {a₀ s : State} (h : Keeps b₀ a₀ s) (f : Fld) (i : Nat) : Keeps b₀ a₀ (State.clearEvent s f i) := by
  unfold State.clearEvent
  repeat' first
    | with_reducible assumption | intro _
    | (extract_lets +onlyGivenNames u₀; first | (refine Keeps.cut (m := b₀) (a := a₀) (s := u₀) ?_ fun _ => ?_ <;> [(unfold u₀; clear u₀); ((try clear_value u₀); revert u₀; intro _ _)]) | (revert u₀; intro _))
    | with_reducible apply State.clr_keeps | with_reducible apply State.dropUnits_keeps | with_reducible apply webBreak_keeps
    | split | (clear_value *; split) | (with_reducible refine Keeps.upd ?_ ?_ ?_ ?_ <;> [assumption; rfl; rfl; rfl])

theorem State.judgeField_keeps {b₀ : Bool} {a₀ s : State} (h : Keeps b₀ a₀ s) (sl : Slice) (word : Nat) : Keeps b₀ a₀ (State.judgeField s sl word).1 := by
  unfold State.judgeField
  repeat' first
    | with_reducible assumption | intro _
    | (extract_lets +onlyGivenNames u₀; first | (refine Keeps.cut (m := b₀) (a := a₀) (s := u₀) ?_ fun _ => ?_ <;> [(unfold u₀; clear u₀); ((try clear_value u₀); revert u₀; intro _ _)]) | (revert u₀; intro _))
    | with_reducible apply State.clearEvent_keeps | with_reducible apply State.limited_keeps
    | with_reducible apply State.accept_keeps | with_reducible apply Keeps.ite | split | (clear_value *; split)
    | (with_reducible refine Keeps.upd ?_ ?_ ?_ ?_ <;> [assumption; rfl; rfl; rfl])

theorem State.judgeWord_keeps {b₀ : Bool} {a₀ s : State} (h : Keeps b₀ a₀ s) (addr : Nat) (word : Nat) : Keeps b₀ a₀ (State.judgeWord s addr word) := by
  unfold State.judgeWord
  repeat' first
    | with_reducible assumption | intro _
    | (extract_lets +onlyGivenNames u₀; first | (refine Keeps.cut (m := b₀) (a := a₀) (s := u₀) ?_ fun _ => ?_ <;> [(unfold u₀; clear u₀); ((try clear_value u₀); revert u₀; intro _ _)]) | (revert u₀; intro _))
    | with_reducible apply State.judgeField_keeps | with_reducible apply State.boundary_keeps
    | with_reducible apply State.queueSet_keeps | with_reducible apply State.deny_keeps | with_reducible apply Keeps.foldl
    | with_reducible apply Keeps.foldlSnd | with_reducible apply Keeps.foldlFst | with_reducible apply Keeps.ite | split
    | (clear_value *; split) | (with_reducible refine Keeps.upd ?_ ?_ ?_ ?_ <;> [assumption; rfl; rfl; rfl])

theorem State.pairLow_keeps {b₀ : Bool} {a₀ s : State} (h : Keeps b₀ a₀ s) (f : Fld) (i : Nat) (word : Nat) : Keeps b₀ a₀ (State.pairLow s f i word) := by
  unfold State.pairLow
  repeat' first
    | with_reducible assumption | intro _
    | (extract_lets +onlyGivenNames u₀; first | (refine Keeps.cut (m := b₀) (a := a₀) (s := u₀) ?_ fun _ => ?_ <;> [(unfold u₀; clear u₀); ((try clear_value u₀); revert u₀; intro _ _)]) | (revert u₀; intro _))
    | with_reducible apply State.limited_keeps | with_reducible apply State.deny_keeps | with_reducible apply Keeps.ite | split
    | (clear_value *; split) | (with_reducible refine Keeps.upd ?_ ?_ ?_ ?_ <;> [assumption; rfl; rfl; rfl])

theorem State.pairHigh_keeps {b₀ : Bool} {a₀ s : State} (h : Keeps b₀ a₀ s) (f : Fld) (i : Nat) (word : Nat) : Keeps b₀ a₀ (State.pairHigh s f i word) := by
  unfold State.pairHigh
  repeat' first
    | with_reducible assumption | intro _
    | (extract_lets +onlyGivenNames u₀; first | (refine Keeps.cut (m := b₀) (a := a₀) (s := u₀) ?_ fun _ => ?_ <;> [(unfold u₀; clear u₀); ((try clear_value u₀); revert u₀; intro _ _)]) | (revert u₀; intro _))
    | with_reducible apply State.limited_keeps | with_reducible apply State.accept_keeps | with_reducible apply State.deny_keeps
    | with_reducible apply Keeps.ite | split | (clear_value *; split)
    | (with_reducible refine Keeps.upd ?_ ?_ ?_ ?_ <;> [assumption; rfl; rfl; rfl])

theorem State.blkCtl_keeps {b₀ : Bool} {a₀ s : State} (h : Keeps b₀ a₀ s) (k : Nat) (word : Nat) : Keeps b₀ a₀ (State.blkCtl s k word) := by
  unfold State.blkCtl
  repeat' first
    | with_reducible assumption | intro _
    | (extract_lets +onlyGivenNames u₀; first | (refine Keeps.cut (m := b₀) (a := a₀) (s := u₀) ?_ fun _ => ?_ <;> [(unfold u₀; clear u₀); ((try clear_value u₀); revert u₀; intro _ _)]) | (revert u₀; intro _))
    | with_reducible apply State.ldReq_keeps | with_reducible apply State.judgeWord_keeps
    | with_reducible apply State.linkRestart_keeps | with_reducible apply Keeps.ite | split | (clear_value *; split)

theorem State.blkStatus_keeps {b₀ : Bool} {a₀ s : State} (h : Keeps b₀ a₀ s) (k : Nat) (word : Nat) : Keeps b₀ a₀ (State.blkStatus s k word) := by
  unfold State.blkStatus
  repeat' first
    | with_reducible assumption | intro _
    | (extract_lets +onlyGivenNames u₀; first | (refine Keeps.cut (m := b₀) (a := a₀) (s := u₀) ?_ fun _ => ?_ <;> [(unfold u₀; clear u₀); ((try clear_value u₀); revert u₀; intro _ _)]) | (revert u₀; intro _))
    | with_reducible apply State.judgeWord_keeps | with_reducible apply State.clearTrip_keeps | with_reducible apply Keeps.ite
    | split | (clear_value *; split)

theorem State.dmaCtl_keeps {b₀ : Bool} {a₀ s : State} (h : Keeps b₀ a₀ s) (n : Nat) (word : Nat) : Keeps b₀ a₀ (State.dmaCtl s n word) := by
  unfold State.dmaCtl
  repeat' first
    | with_reducible assumption | intro _
    | (extract_lets +onlyGivenNames u₀; first | (refine Keeps.cut (m := b₀) (a := a₀) (s := u₀) ?_ fun _ => ?_ <;> [(unfold u₀; clear u₀); ((try clear_value u₀); revert u₀; intro _ _)]) | (revert u₀; intro _))
    | with_reducible apply State.judgeWord_keeps | with_reducible apply dmaStart_keeps | with_reducible apply dmaStop_keeps
    | with_reducible apply dmaReset_keeps | with_reducible apply Keeps.ite | split | (clear_value *; split)

theorem State.writeWord_keeps {b₀ : Bool} {a₀ s : State} (h : Keeps b₀ a₀ s) (addr : Nat) (word : Nat) : Keeps b₀ a₀ (State.writeWord s addr word) := by
  unfold State.writeWord
  repeat' first
    | with_reducible assumption | intro _
    | (extract_lets +onlyGivenNames u₀; first | (refine Keeps.cut (m := b₀) (a := a₀) (s := u₀) ?_ fun _ => ?_ <;> [(unfold u₀; clear u₀); ((try clear_value u₀); revert u₀; intro _ _)]) | (revert u₀; intro _))
    | with_reducible apply State.ldReq_keeps | with_reducible apply State.blkCtl_keeps
    | with_reducible apply State.blkStatus_keeps | with_reducible apply State.setAxis_keeps
    | with_reducible apply State.judgeWord_keeps | with_reducible apply Keeps.ite | split | (clear_value *; split)
    | (with_reducible refine Keeps.upd ?_ ?_ ?_ ?_ <;> [assumption; rfl; rfl; rfl])

theorem registerWrite_keeps {b₀ : Bool} {a₀ s : State} (h : Keeps b₀ a₀ s) (addr : Nat) (word : Nat) : Keeps b₀ a₀ (registerWrite addr word s) := by
  unfold registerWrite
  repeat' first
    | with_reducible assumption | intro _
    | (extract_lets +onlyGivenNames u₀; first | (refine Keeps.cut (m := b₀) (a := a₀) (s := u₀) ?_ fun _ => ?_ <;> [(unfold u₀; clear u₀); ((try clear_value u₀); revert u₀; intro _ _)]) | (revert u₀; intro _))
    | with_reducible apply State.hostWrite_keeps | with_reducible apply State.writeWord_keeps
    | with_reducible apply State.deny_keeps | with_reducible apply Keeps.ite | split | (clear_value *; split)
    | (with_reducible refine Keeps.upd ?_ ?_ ?_ ?_ <;> [assumption; rfl; rfl; rfl])

theorem execRegisterWrite_keeps {b₀ : Bool} {a₀ s : State} (h : Keeps b₀ a₀ s) (addr : Nat) (v : Word) {t₀ : State} (e : execRegisterWrite addr v s = .next t₀) : Keeps b₀ a₀ t₀ := by
  unfold execRegisterWrite at e
  obtain ⟨-, rfl⟩ := guardWF_next e
  repeat' first
    | with_reducible assumption | intro _ | with_reducible apply registerWrite_keeps

theorem execMisalignedBar0Access_keeps {b₀ : Bool} {a₀ s : State} (h : Keeps b₀ a₀ s) (addr : Nat) (bytes : Nat) (write : Bool) {t₀ : State} (e : execMisalignedBar0Access addr bytes write s = .next t₀) : Keeps b₀ a₀ t₀ := by
  unfold execMisalignedBar0Access at e
  obtain ⟨-, rfl⟩ := guardWF_next e
  repeat' first
    | with_reducible assumption | intro _ | with_reducible apply State.emit_keeps | with_reducible apply Keeps.ite | split
    | (clear_value *; split)

theorem State.pairWrite_keeps {b₀ : Bool} {a₀ s : State} (h : Keeps b₀ a₀ s) (addr : Nat) (g : Fld → Nat → State → State) (hg : ∀ x0 x1 t, Keeps b₀ a₀ t → Keeps b₀ a₀ (g x0 x1 t)) : Keeps b₀ a₀ (State.pairWrite s addr g) := by
  unfold State.pairWrite
  repeat' first
    | with_reducible assumption | intro _
    | (extract_lets +onlyGivenNames u₀; first | (refine Keeps.cut (m := b₀) (a := a₀) (s := u₀) ?_ fun _ => ?_ <;> [(unfold u₀; clear u₀); ((try clear_value u₀); revert u₀; intro _ _)]) | (revert u₀; intro _))
    | with_reducible apply State.hostWrite_keeps | with_reducible apply State.block_keeps | split | (clear_value *; split)
    | (with_reducible refine Keeps.upd ?_ ?_ ?_ ?_ <;> [assumption; rfl; rfl; rfl]) | apply hg

theorem execPairLowWrite_keeps {b₀ : Bool} {a₀ s : State} (h : Keeps b₀ a₀ s) (addr : Nat) (v : Word) {t₀ : State} (e : execPairLowWrite addr v s = .next t₀) : Keeps b₀ a₀ t₀ := by
  unfold execPairLowWrite at e
  obtain ⟨-, rfl⟩ := guardWF_next e
  repeat' first
    | with_reducible assumption | intro _ | with_reducible apply State.pairWrite_keeps
    | with_reducible apply State.pairLow_keeps

theorem execPairHighWrite_keeps {b₀ : Bool} {a₀ s : State} (h : Keeps b₀ a₀ s) (addr : Nat) (v : Word) {t₀ : State} (e : execPairHighWrite addr v s = .next t₀) : Keeps b₀ a₀ t₀ := by
  unfold execPairHighWrite at e
  obtain ⟨-, rfl⟩ := guardWF_next e
  repeat' first
    | with_reducible assumption | intro _ | with_reducible apply State.pairWrite_keeps
    | with_reducible apply State.pairHigh_keeps

theorem execLinkRestart_keeps {b₀ : Bool} {a₀ s : State} (h : Keeps b₀ a₀ s) (k : Nat) (v : Word) {t₀ : State} (e : execLinkRestart k v s = .next t₀) : Keeps b₀ a₀ t₀ := by
  unfold execLinkRestart at e
  obtain ⟨-, rfl⟩ := guardWF_next e
  repeat' first
    | with_reducible assumption | intro _ | with_reducible apply State.hostWrite_keeps | with_reducible apply State.blkCtl_keeps

theorem execLdRequest_keeps {b₀ : Bool} {a₀ s : State} (h : Keeps b₀ a₀ s) (k : Nat) (v : Word) {t₀ : State} (e : execLdRequest k v s = .next t₀) : Keeps b₀ a₀ t₀ := by
  unfold execLdRequest at e
  obtain ⟨-, rfl⟩ := guardWF_next e
  repeat' first
    | with_reducible assumption | intro _ | with_reducible apply State.hostWrite_keeps | with_reducible apply State.blkCtl_keeps

theorem execTempTripClear_keeps {b₀ : Bool} {a₀ s : State} (h : Keeps b₀ a₀ s) (k : Nat) (v : Word) {t₀ : State} (e : execTempTripClear k v s = .next t₀) : Keeps b₀ a₀ t₀ := by
  unfold execTempTripClear at e
  obtain ⟨-, rfl⟩ := guardWF_next e
  repeat' first
    | with_reducible assumption | intro _ | with_reducible apply State.hostWrite_keeps
    | with_reducible apply State.blkStatus_keeps

theorem execDmaStart_keeps {b₀ : Bool} {a₀ s : State} (h : Keeps b₀ a₀ s) (n : Nat) (v : Word) {t₀ : State} (e : execDmaStart n v s = .next t₀) : Keeps b₀ a₀ t₀ := by
  unfold execDmaStart at e
  obtain ⟨-, rfl⟩ := guardWF_next e
  repeat' first
    | with_reducible assumption | intro _ | with_reducible apply State.hostWrite_keeps | with_reducible apply State.dmaCtl_keeps

theorem execDmaStop_keeps {b₀ : Bool} {a₀ s : State} (h : Keeps b₀ a₀ s) (n : Nat) (v : Word) {t₀ : State} (e : execDmaStop n v s = .next t₀) : Keeps b₀ a₀ t₀ := by
  unfold execDmaStop at e
  obtain ⟨-, rfl⟩ := guardWF_next e
  repeat' first
    | with_reducible assumption | intro _ | with_reducible apply State.hostWrite_keeps | with_reducible apply State.dmaCtl_keeps

theorem execDmaReset_keeps {b₀ : Bool} {a₀ s : State} (h : Keeps b₀ a₀ s) (n : Nat) (v : Word) {t₀ : State} (e : execDmaReset n v s = .next t₀) : Keeps b₀ a₀ t₀ := by
  unfold execDmaReset at e
  obtain ⟨-, rfl⟩ := guardWF_next e
  repeat' first
    | with_reducible assumption | intro _ | with_reducible apply State.hostWrite_keeps | with_reducible apply State.dmaCtl_keeps

theorem execDmaTailWrite_keeps {b₀ : Bool} {a₀ s : State} (h : Keeps b₀ a₀ s) (n : Nat) (v : Word) {t₀ : State} (e : execDmaTailWrite n v s = .next t₀) : Keeps b₀ a₀ t₀ := by
  unfold execDmaTailWrite at e
  obtain ⟨-, rfl⟩ := guardWF_next e
  repeat' first
    | with_reducible assumption | intro _ | with_reducible apply State.hostWrite_keeps | with_reducible apply State.wr_keeps

theorem execHeartbeatWrite_keeps {b₀ : Bool} {a₀ s : State} (h : Keeps b₀ a₀ s) (_v : Word) {t₀ : State} (e : execHeartbeatWrite _v s = .next t₀) : Keeps b₀ a₀ t₀ := by
  unfold execHeartbeatWrite at e
  obtain ⟨-, rfl⟩ := guardWF_next e
  repeat' first
    | with_reducible assumption | intro _
    | (extract_lets +onlyGivenNames u₀; first | (refine Keeps.cut (m := b₀) (a := a₀) (s := u₀) ?_ fun _ => ?_ <;> [(unfold u₀; clear u₀); ((try clear_value u₀); revert u₀; intro _ _)]) | (revert u₀; intro _))
    | with_reducible apply State.hostWrite_keeps | with_reducible apply Keeps.ite | split | (clear_value *; split)
    | (with_reducible refine Keeps.upd ?_ ?_ ?_ ?_ <;> [assumption; rfl; rfl; rfl])

theorem execExpertKeyWrite_keeps {b₀ : Bool} {a₀ s : State} (h : Keeps b₀ a₀ s) (v : Word) {t₀ : State} (e : execExpertKeyWrite v s = .next t₀) : Keeps b₀ a₀ t₀ := by
  unfold execExpertKeyWrite at e
  obtain ⟨-, rfl⟩ := guardWF_next e
  repeat' first
    | with_reducible assumption | intro _ | with_reducible apply State.hostWrite_keeps | with_reducible apply State.wrB_keeps

theorem isolatedAccess_keeps {b₀ : Bool} {a₀ s : State} (h : Keeps b₀ a₀ s) (addr : Nat) (write : Bool) : Keeps b₀ a₀ (isolatedAccess addr write s) := by
  unfold isolatedAccess
  repeat' first
    | with_reducible assumption | intro _
    | (extract_lets +onlyGivenNames u₀; first | (refine Keeps.cut (m := b₀) (a := a₀) (s := u₀) ?_ fun _ => ?_ <;> [(unfold u₀; clear u₀); ((try clear_value u₀); revert u₀; intro _ _)]) | (revert u₀; intro _))
    | with_reducible apply State.isoAccess_keeps | with_reducible apply State.emit_keeps | with_reducible apply Keeps.ite
    | split | (clear_value *; split) | (with_reducible refine Keeps.upd ?_ ?_ ?_ ?_ <;> [assumption; rfl; rfl; rfl])

theorem execIsolatedAccess_keeps {b₀ : Bool} {a₀ s : State} (h : Keeps b₀ a₀ s) (addr : Nat) (write : Bool) {t₀ : State} (e : execIsolatedAccess addr write s = .next t₀) : Keeps b₀ a₀ t₀ := by
  unfold execIsolatedAccess at e
  obtain ⟨-, rfl⟩ := guardWF_next e
  repeat' first
    | with_reducible assumption | intro _ | with_reducible apply isolatedAccess_keeps

theorem execPoisonedWrite_keeps {b₀ : Bool} {a₀ s : State} (h : Keeps b₀ a₀ s) (bar : Bar) (addr : Nat) {t₀ : State} (e : execPoisonedWrite bar addr s = .next t₀) : Keeps b₀ a₀ t₀ := by
  unfold execPoisonedWrite at e
  obtain ⟨-, rfl⟩ := guardWF_next e
  repeat' first
    | with_reducible assumption | intro _ | with_reducible apply State.emit_keeps | with_reducible apply Keeps.ite | split
    | (clear_value *; split)

theorem pcieLinkDown_keeps {a₀ s : State} (h : Keeps false a₀ s) : Keeps false a₀ (pcieLinkDown s) := by
  unfold pcieLinkDown
  repeat' first
    | with_reducible assumption | intro _
    | (extract_lets +onlyGivenNames u₀; first | (refine Keeps.cut (m := false) (a := a₀) (s := u₀) ?_ fun _ => ?_ <;> [(unfold u₀; clear u₀); ((try clear_value u₀); revert u₀; intro _ _)]) | (revert u₀; intro _))
    | with_reducible apply State.offWaited_keeps | with_reducible apply State.sourceAssert_keeps
    | with_reducible apply Keeps.ite | split | (clear_value *; split)
    | (with_reducible refine Keeps.upd ?_ ?_ ?_ ?_ <;> [assumption; rfl; rfl; rfl])

theorem execPcieLinkDown_keeps {a₀ s : State} (h : Keeps false a₀ s) {t₀ : State} (e : execPcieLinkDown s = .next t₀) : Keeps false a₀ t₀ := by
  unfold execPcieLinkDown at e
  obtain ⟨-, rfl⟩ := guardWF_next e
  repeat' first
    | with_reducible assumption | intro _ | with_reducible apply pcieLinkDown_keeps

theorem pcieLinkUp_keeps {b₀ : Bool} {a₀ s : State} (h : Keeps b₀ a₀ s) (speed : Nat) (width : Nat) : Keeps b₀ a₀ (pcieLinkUp speed width s) := by
  unfold pcieLinkUp
  repeat' first
    | with_reducible assumption | intro _
    | (extract_lets +onlyGivenNames u₀; first | (refine Keeps.cut (m := b₀) (a := a₀) (s := u₀) ?_ fun _ => ?_ <;> [(unfold u₀; clear u₀); ((try clear_value u₀); revert u₀; intro _ _)]) | (revert u₀; intro _))
    | with_reducible apply State.wr_keeps | with_reducible apply Keeps.ite | split | (clear_value *; split)
    | (with_reducible refine Keeps.upd ?_ ?_ ?_ ?_ <;> [assumption; rfl; rfl; rfl])

theorem execPcieLinkUp_keeps {b₀ : Bool} {a₀ s : State} (h : Keeps b₀ a₀ s) (speed : Nat) (width : Nat) {t₀ : State} (e : execPcieLinkUp speed width s = .next t₀) : Keeps b₀ a₀ t₀ := by
  unfold execPcieLinkUp at e
  obtain ⟨-, rfl⟩ := guardWF_next e
  repeat' first
    | with_reducible assumption | intro _ | with_reducible apply pcieLinkUp_keeps

theorem execD3hotEntry_keeps {b₀ : Bool} {a₀ s : State} (h : Keeps b₀ a₀ s) {t₀ : State} (e : execD3hotEntry s = .next t₀) : Keeps b₀ a₀ t₀ := by
  unfold execD3hotEntry at e
  obtain ⟨-, rfl⟩ := guardWF_next e
  repeat' first
    | with_reducible assumption | intro _
    | (extract_lets +onlyGivenNames u₀; first | (refine Keeps.cut (m := b₀) (a := a₀) (s := u₀) ?_ fun _ => ?_ <;> [(unfold u₀; clear u₀); ((try clear_value u₀); revert u₀; intro _ _)]) | (revert u₀; intro _))
    | with_reducible apply Keeps.ite | split | (clear_value *; split)
    | (with_reducible refine Keeps.upd ?_ ?_ ?_ ?_ <;> [assumption; rfl; rfl; rfl])

theorem State.sendPending_keeps {b₀ : Bool} {a₀ s : State} (h : Keeps b₀ a₀ s) : Keeps b₀ a₀ (State.sendPending s) := by
  unfold State.sendPending
  repeat' first
    | with_reducible assumption | intro _
    | (extract_lets +onlyGivenNames u₀; first | (refine Keeps.cut (m := b₀) (a := a₀) (s := u₀) ?_ fun _ => ?_ <;> [(unfold u₀; clear u₀); ((try clear_value u₀); revert u₀; intro _ _)]) | (revert u₀; intro _))
    | with_reducible apply State.emit_keeps | with_reducible apply State.msix_keeps | with_reducible apply Keeps.foldl
    | with_reducible apply Keeps.foldlSnd | with_reducible apply Keeps.foldlFst | with_reducible apply Keeps.ite | split
    | (clear_value *; split) | (with_reducible refine Keeps.upd ?_ ?_ ?_ ?_ <;> [assumption; rfl; rfl; rfl])

theorem msixUnmask_keeps {b₀ : Bool} {a₀ s : State} (h : Keeps b₀ a₀ s) (op : MsixOp) : Keeps b₀ a₀ (msixUnmask op s) := by
  unfold msixUnmask
  repeat' first
    | with_reducible assumption | intro _
    | (extract_lets +onlyGivenNames u₀; first | (refine Keeps.cut (m := b₀) (a := a₀) (s := u₀) ?_ fun _ => ?_ <;> [(unfold u₀; clear u₀); ((try clear_value u₀); revert u₀; intro _ _)]) | (revert u₀; intro _))
    | with_reducible apply State.sendPending_keeps | with_reducible apply Keeps.ite | split | (clear_value *; split)
    | (with_reducible refine Keeps.upd ?_ ?_ ?_ ?_ <;> [assumption; rfl; rfl; rfl])

theorem execMsixUnmask_keeps {b₀ : Bool} {a₀ s : State} (h : Keeps b₀ a₀ s) (op : MsixOp) {t₀ : State} (e : execMsixUnmask op s = .next t₀) : Keeps b₀ a₀ t₀ := by
  unfold execMsixUnmask at e
  obtain ⟨-, rfl⟩ := guardWF_next e
  repeat' first
    | with_reducible assumption | intro _
    | (extract_lets +onlyGivenNames u₀; first | (refine Keeps.cut (m := b₀) (a := a₀) (s := u₀) ?_ fun _ => ?_ <;> [(unfold u₀; clear u₀); ((try clear_value u₀); revert u₀; intro _ _)]) | (revert u₀; intro _))
    | with_reducible apply msixUnmask_keeps | split | (clear_value *; split)
    | (with_reducible refine Keeps.upd ?_ ?_ ?_ ?_ <;> [assumption; rfl; rfl; rfl])

theorem mbxPost_keeps {b₀ : Bool} {a₀ s : State} (h : Keeps b₀ a₀ s) (i : Nat) : Keeps b₀ a₀ (mbxPost i s) := by
  unfold mbxPost
  repeat' first
    | with_reducible assumption | split
    | (refine State.enqueue_keeps ?_ _ _ _ _ ?_ <;> [exact h.mbx fun g => g.posts; assumption])

theorem execMbxPost_keeps {b₀ : Bool} {a₀ s : State} (h : Keeps b₀ a₀ s) (i : Nat) {t₀ : State} (e : execMbxPost i s = .next t₀) : Keeps b₀ a₀ t₀ := by
  unfold execMbxPost at e
  obtain ⟨-, rfl⟩ := guardWF_next e
  repeat' first
    | with_reducible assumption | intro _ | with_reducible apply mbxPost_keeps

theorem mbxPop_keeps {b₀ : Bool} {a₀ s : State} (h : Keeps b₀ a₀ s) (p : Nat) : Keeps b₀ a₀ (mbxPop p s) := by
  unfold mbxPop
  repeat' first
    | with_reducible assumption | intro _ | with_reducible apply State.ev_keeps | with_reducible apply State.popPosts_keeps
    | with_reducible apply Keeps.ite | split | (clear_value *; split)

theorem execMbxPop_keeps {b₀ : Bool} {a₀ s : State} (h : Keeps b₀ a₀ s) (p : Nat) {t₀ : State} (e : execMbxPop p s = .next t₀) : Keeps b₀ a₀ t₀ := by
  unfold execMbxPop at e
  obtain ⟨-, rfl⟩ := guardWF_next e
  repeat' first
    | with_reducible assumption | intro _ | with_reducible apply State.hostWrite_keeps | with_reducible apply mbxPop_keeps

theorem State.takeoverAnswer_keeps {b₀ : Bool} {a₀ s : State} (h : Keeps b₀ a₀ s) (k : Nat) (b : Nat) (code : Nat) : Keeps b₀ a₀ (State.takeoverAnswer s k b code) := by
  unfold State.takeoverAnswer
  repeat' first
    | with_reducible assumption | intro _
    | (extract_lets +onlyGivenNames u₀; first | (refine Keeps.cut (m := b₀) (a := a₀) (s := u₀) ?_ fun _ => ?_ <;> [(unfold u₀; clear u₀); ((try clear_value u₀); revert u₀; intro _ _)]) | (revert u₀; intro _))
    | with_reducible apply State.setBeam_keeps | with_reducible apply Keeps.ite | split | (clear_value *; split)
    | (with_reducible refine Keeps.upd ?_ ?_ ?_ ?_ <;> [assumption; rfl; rfl; rfl])

theorem mbxAnswer_keeps {b₀ : Bool} {a₀ s : State} (h : Keeps b₀ a₀ s) (p : Nat) (v : Word) : Keeps b₀ a₀ (mbxAnswer p v s) := by
  unfold mbxAnswer
  repeat' first
    | with_reducible assumption | intro _
    | (extract_lets +onlyGivenNames u₀; first | (refine Keeps.cut (m := b₀) (a := a₀) (s := u₀) ?_ fun _ => ?_ <;> [(unfold u₀; clear u₀); ((try clear_value u₀); revert u₀; intro _ _)]) | (revert u₀; intro _))
    | with_reducible apply State.ev_keeps | with_reducible apply State.admitAnswer_keeps
    | with_reducible apply State.takeoverAnswer_keeps | with_reducible apply Keeps.ite | split | (clear_value *; split)
    | (with_reducible refine Keeps.upd ?_ ?_ ?_ ?_ <;> [assumption; rfl; rfl; rfl])

theorem execMbxAnswer_keeps {b₀ : Bool} {a₀ s : State} (h : Keeps b₀ a₀ s) (p : Nat) (v : Word) {t₀ : State} (e : execMbxAnswer p v s = .next t₀) : Keeps b₀ a₀ t₀ := by
  unfold execMbxAnswer at e
  obtain ⟨-, rfl⟩ := guardWF_next e
  repeat' first
    | with_reducible assumption | intro _ | with_reducible apply State.hostWrite_keeps | with_reducible apply mbxAnswer_keeps

end Sys2Proof.Machine
end

