-- ==== Sys2Proof/Laws/KeepsView.lean ====
section
/-! SUPPORT. Every operation of Machine/View.lean keeps what `Keeps` says. -/

namespace Sys2Proof.Machine

open Sys2Proof

set_option linter.unusedTactic false

set_option linter.unreachableTactic false

theorem pairLowRead_keeps {b₀ : Bool} {a₀ s : State} (h : Keeps b₀ a₀ s) (a : Nat) : Keeps b₀ a₀ (pairLowRead a s) := by
  unfold pairLowRead
  repeat' first
    | with_reducible assumption | intro _
    | (extract_lets +onlyGivenNames u₀; first | (refine Keeps.cut (m := b₀) (a := a₀) (s := u₀) ?_ fun _ => ?_ <;> [(unfold u₀; clear u₀); ((try clear_value u₀); revert u₀; intro _ _)]) | (revert u₀; intro _))
    | with_reducible apply State.isoAccess_keeps | with_reducible apply State.emit_keeps
    | with_reducible apply Keeps.ite | split | (clear_value *; split)
    | (with_reducible refine Keeps.upd ?_ ?_ ?_ ?_ <;> [assumption; rfl; rfl; rfl])

theorem execPairLowRead_keeps {b₀ : Bool} {a₀ s : State} (h : Keeps b₀ a₀ s) (a : Nat) {t₀ : State} (e : execPairLowRead a s = .next t₀) : Keeps b₀ a₀ t₀ := by
  unfold execPairLowRead at e
  obtain ⟨-, rfl⟩ := guardWF_next e
  repeat' first
    | with_reducible assumption | intro _ | with_reducible apply guardWF_keeps
    | with_reducible apply pairLowRead_keeps
    | (with_reducible refine Keeps.upd ?_ ?_ ?_ ?_ <;> [assumption; rfl; rfl; rfl])

end Sys2Proof.Machine
end

