-- ==== Sys2Proof/Laws/KeepsExec.lean ====
section
/-! SUPPORT. Every command keeps what `Keeps` says. -/

namespace Sys2Proof.Machine

open Sys2Proof

/-- What any command but FUSE_COMMAND_DONE does to the parts of the state that outlive it. -/
theorem exec_keeps {i : Instr} {s t : State} (h : ∀ b, i ≠ .fuseCommandDone b) (e₀ : exec i s = .next t) : Keeps false s t := by
  cases i with
  | registerWrite addr v => exact execRegisterWrite_keeps (.refl s) addr v e₀
  | misalignedBar0Access addr bytes write => exact execMisalignedBar0Access_keeps (.refl s) addr bytes write e₀
  | pairLowWrite addr v => exact execPairLowWrite_keeps (.refl s) addr v e₀
  | pairHighWrite addr v => exact execPairHighWrite_keeps (.refl s) addr v e₀
  | pairLowRead addr => exact execPairLowRead_keeps (.refl s) addr e₀
  | handshakeWatchdogExpiry isl => exact execHandshakeWatchdogExpiry_keeps (.refl s) isl e₀
  | pairMismatch p => exact execPairMismatch_keeps (.refl s) p e₀
  | pairWatchdogExpiry p => exact execPairWatchdogExpiry_keeps (.refl s) p e₀
  | serviceCoreFault => exact execServiceCoreFault_keeps (.refl s) e₀
  | heartbeatWrite v => exact execHeartbeatWrite_keeps (.refl s) v e₀
  | heartbeatExpiry => exact execHeartbeatExpiry_keeps (.refl s) e₀
  | expertKeyWrite v => exact execExpertKeyWrite_keeps (.refl s) v e₀
  | loadRequest v => exact execLoadRequest_keeps (.refl s) v e₀
  | autoLoad => exact execAutoLoad_keeps (.refl s) e₀
  | imageVerifyComplete readOk => exact execImageVerifyComplete_keeps (.refl s) readOk e₀
  | applyComplete => exact execApplyComplete_keeps (.refl s) e₀
  | commit v => exact execCommit_keeps (.refl s) v e₀
  | commitComplete ok => exact execCommitComplete_keeps (.refl s) ok e₀
  | arm v => exact execArm_keeps (.refl s) v e₀
  | disarm v => exact execDisarm_keeps (.refl s) v e₀
  | disarmComplete => exact execDisarmComplete_keeps (.refl s) e₀
  | programKey v => exact execProgramKey_keeps (.refl s) v e₀
  | revoke v => exact execRevoke_keeps (.refl s) v e₀
  | advanceSecver v => exact execAdvanceSecver_keeps (.refl s) v e₀
  | lockTestPort v => exact execLockTestPort_keeps (.refl s) v e₀
  | fuseCommandDone b => exact absurd rfl (h b)
  | clrExpert v => exact execClrExpert_keeps (.refl s) v e₀
  | scrubTick ups => exact execScrubTick_keeps (.refl s) ups e₀
  | bandVerified rec => exact execBandVerified_keeps (.refl s) rec e₀
  | loamDeadlockTimeout ch => exact execLoamDeadlockTimeout_keeps (.refl s) ch e₀
  | openCtx c => exact execOpen_keeps (.refl s) c e₀
  | close c => exact execClose_keeps (.refl s) c e₀
  | cancel c => exact execCancel_keeps (.refl s) c e₀
  | release c => exact execRelease_keeps (.refl s) c e₀
  | bandReclaimDone => exact execBandReclaimDone_keeps (.refl s) e₀
  | admissionGateEvaluate => exact execAdmissionGateEvaluate_keeps (.refl s) e₀
  | bar2Read x len ups => exact execBar2Read_keeps (.refl s) x len ups e₀
  | bar2Write x data ups => exact execBar2Write_keeps (.refl s) x data ups e₀
  | imagingReadUe k band off => exact execImagingReadUe_keeps (.refl s) k band off e₀
  | imagingDecodeError k band bus => exact execImagingDecodeError_keeps (.refl s) k band bus e₀
  | jobStart n v => exact execJobStart_keeps (.refl s) n v e₀
  | jobResume n v => exact execJobResume_keeps (.refl s) n v e₀
  | jobStop n units => exact execJobStop_keeps (.refl s) n units e₀
  | jobAbort n => exact execJobAbort_keeps (.refl s) n e₀
  | jobOutFull n => exact execJobOutFull_keeps (.refl s) n e₀
  | jobNeedInput n => exact execJobNeedInput_keeps (.refl s) n e₀
  | jobDone n => exact execJobDone_keeps (.refl s) n e₀
  | jobError n bus => exact execJobError_keeps (.refl s) n bus e₀
  | scanStart k sos fine mark decoded => exact execScanStart_keeps (.refl s) k sos fine mark decoded e₀
  | sosWindowMiss k mark decoded => exact execSosWindowMiss_keeps (.refl s) k mark decoded e₀
  | indexPulse k => exact execIndexPulse_keeps (.refl s) k e₀
  | facetSignatureEval k => exact execFacetSignatureEval_keeps (.refl s) k e₀
  | synLockLoss k => exact execSynLockLoss_keeps (.refl s) k e₀
  | timingSetSend k => exact execTimingSetSend_keeps (.refl s) k e₀
  | hpresQualified k hid => exact execHpresQualified_keeps (.refl s) k hid e₀
  | hpresLoss k => exact execHpresLoss_keeps (.refl s) k e₀
  | linkRxLocked k => exact execLinkRxLocked_keeps (.refl s) k e₀
  | rxLockLoss k => exact execRxLockLoss_keeps (.refl s) k e₀
  | linkTrainTimeout k => exact execLinkTrainTimeout_keeps (.refl s) k e₀
  | identTimeout k => exact execIdentTimeout_keeps (.refl s) k e₀
  | statusTimeout k => exact execStatusTimeout_keeps (.refl s) k e₀
  | rxIdent k w => exact execRxIdent_keeps (.refl s) k w e₀
  | rxEchoResp k w roundTrip => exact execRxEchoResp_keeps (.refl s) k w roundTrip e₀
  | rxStatus k w => exact execRxStatus_keeps (.refl s) k w e₀
  | rxApcResp k w => exact execRxApcResp_keeps (.refl s) k w e₀
  | initialApcEnd k => exact execInitialApcEnd_keeps (.refl s) k e₀
  | linkRestart k v => exact execLinkRestart_keeps (.refl s) k v e₀
  | ldRequest k v => exact execLdRequest_keeps (.refl s) k v e₀
  | ldenFall k => exact execLdenFall_keeps (.refl s) k e₀
  | ilkLoopClose k => exact execIlkLoopClose_keeps (.refl s) k e₀
  | beamOut k b => exact execBeamOut_keeps (.refl s) k b e₀
  | beamReturn k b => exact execBeamReturn_keeps (.refl s) k b e₀
  | tempTripClear k v => exact execTempTripClear_keeps (.refl s) k v e₀
  | plannerTick overrun => exact execPlannerTick_keeps (.refl s) overrun e₀
  | move a => exact execMove_keeps (.refl s) a e₀
  | jog a => exact execJog_keeps (.refl s) a e₀
  | stop a => exact execStop_keeps (.refl s) a e₀
  | qstop a => exact execQstop_keeps (.refl s) a e₀
  | halt a => exact execHalt_keeps (.refl s) a e₀
  | home a => exact execHome_keeps (.refl s) a e₀
  | setpos a => exact execSetpos_keeps (.refl s) a e₀
  | enable a => exact execEnable_keeps (.refl s) a e₀
  | disable a => exact execDisable_keeps (.refl s) a e₀
  | gear a => exact execGear_keeps (.refl s) a e₀
  | axisClear a => exact execAxisClear_keeps (.refl s) a e₀
  | segmentPush a v => exact execSegmentPush_keeps (.refl s) a v e₀
  | latchArm a v => exact execLatchArm_keeps (.refl s) a v e₀
  | latchEdge a j => exact execLatchEdge_keeps (.refl s) a j e₀
  | encoderError a => exact execEncoderError_keeps (.refl s) a e₀
  | limitActive a positive => exact execLimitActive_keeps (.refl s) a positive e₀
  | homeRawEdge a active => exact execHomeRawEdge_keeps (.refl s) a active e₀
  | homeQualified a => exact execHomeQualified_keeps (.refl s) a e₀
  | indexEdge a => exact execIndexEdge_keeps (.refl s) a e₀
  | slotExecution n ain => exact execSlotExecution_keeps (.refl s) n ain e₀
  | fallbackTimeout n => exact execFallbackTimeout_keeps (.refl s) n e₀
  | slotOff n => exact execSlotOff_keeps (.refl s) n e₀
  | slotManual n => exact execSlotManual_keeps (.refl s) n e₀
  | slotAuto n => exact execSlotAuto_keeps (.refl s) n e₀
  | slotPreset n => exact execSlotPreset_keeps (.refl s) n e₀
  | slotCommit n => exact execSlotCommit_keeps (.refl s) n e₀
  | slotResume n => exact execSlotResume_keeps (.refl s) n e₀
  | slotClear n => exact execSlotClear_keeps (.refl s) n e₀
  | injStart n => exact execInjStart_keeps (.refl s) n e₀
  | injStop n => exact execInjStop_keeps (.refl s) n e₀
  | slotStay n => exact execSlotStay_keeps (.refl s) n e₀
  | slotStop n => exact execSlotStop_keeps (.refl s) n e₀
  | captureArm v => exact execCaptureArm_keeps (.refl s) v e₀
  | captureForce v => exact execCaptureForce_keeps (.refl s) v e₀
  | captureAbort v => exact execCaptureAbort_keeps (.refl s) v e₀
  | zeroCrossing t vrms => exact execZeroCrossing_keeps (.refl s) t vrms e₀
  | zeroCrossingMiss => exact execZeroCrossingMiss_keeps (.refl s) e₀
  | heaterGateFire g e => exact execHeaterGateFire_keeps (.refl s) g e e₀
  | otcTrip g c code => exact execOtcTrip_keeps (.refl s) g c code e₀
  | otcClear g v codeA codeB => exact execOtcClear_keeps (.refl s) g v codeA codeB e₀
  | thermistorConversion j rt => exact execThermistorConversion_keeps (.refl s) j rt e₀
  | thermopileConversion j code => exact execThermopileConversion_keeps (.refl s) j code e₀
  | hvFrame fb => exact execHvFrame_keeps (.refl s) fb e₀
  | hvLeadEnd c => exact execHvLeadEnd_keeps (.refl s) c e₀
  | fbhiClear c v => exact execFbhiClear_keeps (.refl s) c v e₀
  | overspeedDetect => exact execOverspeedDetect_keeps (.refl s) e₀
  | feedPoint => exact execFeedPoint_keeps (.refl s) e₀
  | sensorRawEdge j present => exact execSensorRawEdge_keeps (.refl s) j present e₀
  | sensorQualified j => exact execSensorQualified_keeps (.refl s) j e₀
  | sensorWindowExpiry j c e => exact execSensorWindowExpiry_keeps (.refl s) j c e e₀
  | feedWindowExpiry => exact execFeedWindowExpiry_keeps (.refl s) e₀
  | t0Issue c k => exact execT0Issue_keeps (.refl s) c k e₀
  | sheetCommit c => exact execSheetCommit_keeps (.refl s) c e₀
  | diverterDecision c => exact execDiverterDecision_keeps (.refl s) c e₀
  | diverterRelease c => exact execDiverterRelease_keeps (.refl s) c e₀
  | sheetDelivered c => exact execSheetDelivered_keeps (.refl s) c e₀
  | sheetBoundary c => exact execSheetBoundary_keeps (.refl s) c e₀
  | refeed => exact execRefeed_keeps (.refl s) e₀
  | webBackup => exact execWebBackup_keeps (.refl s) e₀
  | webHold => exact execWebHold_keeps (.refl s) e₀
  | webStop => exact execWebStop_keeps (.refl s) e₀
  | dispAnswer v => exact execDispAnswer_keeps (.refl s) v e₀
  | webRunStart => exact execWebRunStart_keeps (.refl s) e₀
  | frameDeadline => exact execFrameDeadline_keeps (.refl s) e₀
  | webDrainDone => exact execWebDrainDone_keeps (.refl s) e₀
  | webDecelAtRest => exact execWebDecelAtRest_keeps (.refl s) e₀
  | webBackupAtRest => exact execWebBackupAtRest_keeps (.refl s) e₀
  | webResume => exact execWebResume_keeps (.refl s) e₀
  | webAtSpeed => exact execWebAtSpeed_keeps (.refl s) e₀
  | webBreak j => exact execWebBreak_keeps (.refl s) j e₀
  | beaconTx => exact execBeaconTx_keeps (.refl s) e₀
  | beaconRx p hop master version => exact execBeaconRx_keeps (.refl s) p hop master version e₀
  | syncTx => exact execSyncTx_keeps (.refl s) e₀
  | syncRx p ts correction arrival => exact execSyncRx_keeps (.refl s) p ts correction arrival e₀
  | syncTimeout => exact execSyncTimeout_keeps (.refl s) e₀
  | cascadeGateQuery tag => exact execCascadeGateQuery_keeps (.refl s) tag e₀
  | cascadeGateReply pos armed passes => exact execCascadeGateReply_keeps (.refl s) pos armed passes e₀
  | cascadeGateTimeout => exact execCascadeGateTimeout_keeps (.refl s) e₀
  | positionBroadcast => exact execPositionBroadcast_keeps (.refl s) e₀
  | positionRx mpos lrate t => exact execPositionRx_keeps (.refl s) mpos lrate t e₀
  | positionTimeout => exact execPositionTimeout_keeps (.refl s) e₀
  | sheetEventRx e => exact execSheetEventRx_keeps (.refl s) e e₀
  | cascadeDisarmRx => exact execCascadeDisarmRx_keeps (.refl s) e₀
  | portDown p unreachable => exact execPortDown_keeps (.refl s) p unreachable e₀
  | partitionClear => exact execPartitionClear_keeps (.refl s) e₀
  | powerGoRx => exact execPowerGoRx_keeps (.refl s) e₀
  | dmaStart n v => exact execDmaStart_keeps (.refl s) n v e₀
  | dmaStop n v => exact execDmaStop_keeps (.refl s) n v e₀
  | dmaReset n v => exact execDmaReset_keeps (.refl s) n v e₀
  | dmaTailWrite n v => exact execDmaTailWrite_keeps (.refl s) n v e₀
  | descriptorFetch n d => exact execDescriptorFetch_keeps (.refl s) n d e₀
  | laneAcceptBand lane => exact execLaneAcceptBand_keeps (.refl s) lane e₀
  | burstIssue data ups => exact execBurstIssue_keeps (.refl s) data ups e₀
  | burstError n hostSide => exact execBurstError_keeps (.refl s) n hostSide e₀
  | descriptorComplete n => exact execDescriptorComplete_keeps (.refl s) n e₀
  | periphRequest psel => exact execPeriphRequest_keeps (.refl s) psel e₀
  | periphWithdraw n real => exact execPeriphWithdraw_keeps (.refl s) n real e₀
  | faultReportWord r word => exact execFaultReportWord_keeps (.refl s) r word e₀
  | reporterTimeout r => exact execReporterTimeout_keeps (.refl s) r e₀
  | reactionComplete r => exact execReactionComplete_keeps (.refl s) r e₀
  | fltClear v => exact execFltClear_keeps (.refl s) v e₀
  | fltAnswer v => exact execFltAnswer_keeps (.refl s) v e₀
  | isolate v => exact execIsolate_keeps (.refl s) v e₀
  | returnUnit v => exact execReturnUnit_keeps (.refl s) v e₀
  | unitResetRelease u => exact execUnitResetRelease_keeps (.refl s) u e₀
  | unitCheckDone u ok => exact execUnitCheckDone_keeps (.refl s) u ok e₀
  | calStepDone ok failUnit temps => exact execCalStepDone_keeps (.refl s) ok failUnit temps e₀
  | mayflySweep => exact execMayflySweep_keeps (.refl s) e₀
  | mayflyRequest v => exact execMayflyRequest_keeps (.refl s) v e₀
  | mayflyConversionDone temp => exact execMayflyConversionDone_keeps (.refl s) temp e₀
  | recal v => exact execRecal_keeps (.refl s) v e₀
  | snap v => exact execSnap_keeps (.refl s) v e₀
  | restore v => exact execRestore_keeps (.refl s) v e₀
  | recalStart k => exact execRecalStart_keeps (.refl s) k e₀
  | recalDone k ok => exact execRecalDone_keeps (.refl s) k ok e₀
  | vinQualified => exact execVinQualified_keeps (.refl s) e₀
  | pwrOnChange high => exact execPwrOnChange_keeps (.refl s) high e₀
  | railQualified r => exact execRailQualified_keeps (.refl s) r e₀
  | railTimeout r => exact execRailTimeout_keeps (.refl s) r e₀
  | extStepEnable => exact execExtStepEnable_keeps (.refl s) e₀
  | railFallen r => exact execRailFallen_keeps (.refl s) r e₀
  | fallLateTimeout r => exact execFallLateTimeout_keeps (.refl s) r e₀
  | pwrOff v => exact execPwrOff_keeps (.refl s) v e₀
  | extOn v => exact execExtOn_keeps (.refl s) v e₀
  | extOff v => exact execExtOff_keeps (.refl s) v e₀
  | step v => exact execStep_keeps (.refl s) v e₀
  | offWaitTimeout => exact execOffWaitTimeout_keeps (.refl s) e₀
  | counterCopyDone => exact execCounterCopyDone_keeps (.refl s) e₀
  | supplyFault r => exact execSupplyFault_keeps (.refl s) r e₀
  | inputCollapse mv => exact execInputCollapse_keeps (.refl s) mv e₀
  | logCommit committed => exact execLogCommit_keeps (.refl s) committed e₀
  | resetSourceAssert src => exact execResetSourceAssert_keeps (.refl s) src e₀
  | resetSourceDeassert src => exact execResetSourceDeassert_keeps (.refl s) src e₀
  | domainRelease => exact execDomainRelease_keeps (.refl s) e₀
  | referenceLoss => exact execReferenceLoss_keeps (.refl s) e₀
  | referenceRestored => exact execReferenceRestored_keeps (.refl s) e₀
  | cmdDomain v => exact execCmdDomain_keeps (.refl s) v e₀
  | cmdDie v => exact execCmdDie_keeps (.refl s) v e₀
  | cold v => exact execCold_keeps (.refl s) v e₀
  | obWrite v => exact execObWrite_keeps (.refl s) v e₀
  | obWriteDone ok => exact execObWriteDone_keeps (.refl s) ok e₀
  | tapExtest boundary => exact execTapExtest_keeps (.refl s) boundary e₀
  | isolatedAccess addr write => exact execIsolatedAccess_keeps (.refl s) addr write e₀
  | poisonedWrite bar addr => exact execPoisonedWrite_keeps (.refl s) bar addr e₀
  | pcieLinkDown => exact execPcieLinkDown_keeps (.refl s) e₀
  | d3hotEntry => exact execD3hotEntry_keeps (.refl s) e₀
  | msixUnmask op => exact execMsixUnmask_keeps (.refl s) op e₀
  | mbxPost j => exact execMbxPost_keeps (.refl s) j e₀
  | mbxPop p => exact execMbxPop_keeps (.refl s) p e₀
  | mbxAnswer p v => exact execMbxAnswer_keeps (.refl s) p v e₀
  | wiringFault pin f => exact execWiringFault_keeps (.refl s) pin f e₀
  | overloadTrip pin => exact execOverloadTrip_keeps (.refl s) pin e₀
  | overloadClear pin v => exact execOverloadClear_keeps (.refl s) pin v e₀
  | motionClock => exact execMotionClock_keeps (.refl s) e₀
  | encoderEdge a forward => exact execEncoderEdge_keeps (.refl s) a forward e₀
  | sosGlitch k => exact execSosGlitch_keeps (.refl s) k e₀
  | zcGlitch => exact execZcGlitch_keeps (.refl s) e₀
  | synLockGain k => exact execSynLockGain_keeps (.refl s) k e₀
  | limitInactive a positive => exact execLimitInactive_keeps (.refl s) a positive e₀
  | pcieLinkUp speed width => exact execPcieLinkUp_keeps (.refl s) speed width e₀
  | portUp p delay => exact execPortUp_keeps (.refl s) p delay e₀
  | slaveReportRx pos rep => exact execSlaveReportRx_keeps (.refl s) pos rep e₀
  | railWindowChange w good => exact execRailWindowChange_keeps (.refl s) w good e₀
  | wiringFaultEnd pin f => exact execWiringFaultEnd_keeps (.refl s) pin f e₀

/-- Every other command leaves the page store's bytes as they are. -/
theorem exec_keeps_bytes {i : Instr} {s t : State} (h : ∀ b, i ≠ .fuseCommandDone b) (hw : writesStore i = false)
    (e₀ : exec i s = .next t) : Keeps true s t := by
  cases i with
  | registerWrite addr v => exact execRegisterWrite_keeps (.refl s) addr v e₀
  | misalignedBar0Access addr bytes write => exact execMisalignedBar0Access_keeps (.refl s) addr bytes write e₀
  | pairLowWrite addr v => exact execPairLowWrite_keeps (.refl s) addr v e₀
  | pairHighWrite addr v => exact execPairHighWrite_keeps (.refl s) addr v e₀
  | pairLowRead addr => exact execPairLowRead_keeps (.refl s) addr e₀
  | handshakeWatchdogExpiry _ => cases hw
  | pairMismatch p => exact execPairMismatch_keeps (.refl s) p e₀
  | pairWatchdogExpiry p => exact execPairWatchdogExpiry_keeps (.refl s) p e₀
  | serviceCoreFault => exact execServiceCoreFault_keeps (.refl s) e₀
  | heartbeatWrite v => exact execHeartbeatWrite_keeps (.refl s) v e₀
  | heartbeatExpiry => exact execHeartbeatExpiry_keeps (.refl s) e₀
  | expertKeyWrite v => exact execExpertKeyWrite_keeps (.refl s) v e₀
  | loadRequest v => exact execLoadRequest_keeps (.refl s) v e₀
  | autoLoad => exact execAutoLoad_keeps (.refl s) e₀
  | imageVerifyComplete readOk => exact execImageVerifyComplete_keeps (.refl s) readOk e₀
  | applyComplete => exact execApplyComplete_keeps (.refl s) e₀
  | commit v => exact execCommit_keeps (.refl s) v e₀
  | commitComplete ok => exact execCommitComplete_keeps (.refl s) ok e₀
  | arm v => exact execArm_keeps (.refl s) v e₀
  | disarm v => exact execDisarm_keeps (.refl s) v e₀
  | disarmComplete => exact execDisarmComplete_keeps (.refl s) e₀
  | programKey v => exact execProgramKey_keeps (.refl s) v e₀
  | revoke v => exact execRevoke_keeps (.refl s) v e₀
  | advanceSecver v => exact execAdvanceSecver_keeps (.refl s) v e₀
  | lockTestPort v => exact execLockTestPort_keeps (.refl s) v e₀
  | fuseCommandDone b => exact absurd rfl (h b)
  | clrExpert v => exact execClrExpert_keeps (.refl s) v e₀
  | scrubTick ups => exact execScrubTick_keeps (.refl s) ups e₀
  | bandVerified rec => exact execBandVerified_keeps (.refl s) rec e₀
  | loamDeadlockTimeout ch => exact execLoamDeadlockTimeout_keeps (.refl s) ch e₀
  | openCtx c => exact execOpen_keeps (.refl s) c e₀
  | close c => exact execClose_keeps (.refl s) c e₀
  | cancel _ => cases hw
  | release c => exact execRelease_keeps (.refl s) c e₀
  | bandReclaimDone => cases hw
  | admissionGateEvaluate => exact execAdmissionGateEvaluate_keeps (.refl s) e₀
  | bar2Read x len ups => exact execBar2Read_keeps (.refl s) x len ups e₀
  | bar2Write _ _ _ => cases hw
  | imagingReadUe k band off => exact execImagingReadUe_keeps (.refl s) k band off e₀
  | imagingDecodeError k band bus => exact execImagingDecodeError_keeps (.refl s) k band bus e₀
  | jobStart _ _ => cases hw
  | jobResume _ _ => cases hw
  | jobStop _ _ => cases hw
  | jobAbort _ => cases hw
  | jobOutFull _ => cases hw
  | jobNeedInput _ => cases hw
  | jobDone _ => cases hw
  | jobError _ _ => cases hw
  | scanStart k sos fine mark decoded => exact execScanStart_keeps (.refl s) k sos fine mark decoded e₀
  | sosWindowMiss k mark decoded => exact execSosWindowMiss_keeps (.refl s) k mark decoded e₀
  | indexPulse k => exact execIndexPulse_keeps (.refl s) k e₀
  | facetSignatureEval k => exact execFacetSignatureEval_keeps (.refl s) k e₀
  | synLockLoss k => exact execSynLockLoss_keeps (.refl s) k e₀
  | timingSetSend k => exact execTimingSetSend_keeps (.refl s) k e₀
  | hpresQualified k hid => exact execHpresQualified_keeps (.refl s) k hid e₀
  | hpresLoss k => exact execHpresLoss_keeps (.refl s) k e₀
  | linkRxLocked k => exact execLinkRxLocked_keeps (.refl s) k e₀
  | rxLockLoss k => exact execRxLockLoss_keeps (.refl s) k e₀
  | linkTrainTimeout k => exact execLinkTrainTimeout_keeps (.refl s) k e₀
  | identTimeout k => exact execIdentTimeout_keeps (.refl s) k e₀
  | statusTimeout k => exact execStatusTimeout_keeps (.refl s) k e₀
  | rxIdent k w => exact execRxIdent_keeps (.refl s) k w e₀
  | rxEchoResp k w roundTrip => exact execRxEchoResp_keeps (.refl s) k w roundTrip e₀
  | rxStatus k w => exact execRxStatus_keeps (.refl s) k w e₀
  | rxApcResp k w => exact execRxApcResp_keeps (.refl s) k w e₀
  | initialApcEnd k => exact execInitialApcEnd_keeps (.refl s) k e₀
  | linkRestart k v => exact execLinkRestart_keeps (.refl s) k v e₀
  | ldRequest k v => exact execLdRequest_keeps (.refl s) k v e₀
  | ldenFall k => exact execLdenFall_keeps (.refl s) k e₀
  | ilkLoopClose k => exact execIlkLoopClose_keeps (.refl s) k e₀
  | beamOut k b => exact execBeamOut_keeps (.refl s) k b e₀
  | beamReturn k b => exact execBeamReturn_keeps (.refl s) k b e₀
  | tempTripClear k v => exact execTempTripClear_keeps (.refl s) k v e₀
  | plannerTick overrun => exact execPlannerTick_keeps (.refl s) overrun e₀
  | move a => exact execMove_keeps (.refl s) a e₀
  | jog a => exact execJog_keeps (.refl s) a e₀
  | stop a => exact execStop_keeps (.refl s) a e₀
  | qstop a => exact execQstop_keeps (.refl s) a e₀
  | halt a => exact execHalt_keeps (.refl s) a e₀
  | home a => exact execHome_keeps (.refl s) a e₀
  | setpos a => exact execSetpos_keeps (.refl s) a e₀
  | enable a => exact execEnable_keeps (.refl s) a e₀
  | disable a => exact execDisable_keeps (.refl s) a e₀
  | gear a => exact execGear_keeps (.refl s) a e₀
  | axisClear a => exact execAxisClear_keeps (.refl s) a e₀
  | segmentPush a v => exact execSegmentPush_keeps (.refl s) a v e₀
  | latchArm a v => exact execLatchArm_keeps (.refl s) a v e₀
  | latchEdge a j => exact execLatchEdge_keeps (.refl s) a j e₀
  | encoderError a => exact execEncoderError_keeps (.refl s) a e₀
  | limitActive a positive => exact execLimitActive_keeps (.refl s) a positive e₀
  | homeRawEdge a active => exact execHomeRawEdge_keeps (.refl s) a active e₀
  | homeQualified a => exact execHomeQualified_keeps (.refl s) a e₀
  | indexEdge a => exact execIndexEdge_keeps (.refl s) a e₀
  | slotExecution n ain => exact execSlotExecution_keeps (.refl s) n ain e₀
  | fallbackTimeout n => exact execFallbackTimeout_keeps (.refl s) n e₀
  | slotOff n => exact execSlotOff_keeps (.refl s) n e₀
  | slotManual n => exact execSlotManual_keeps (.refl s) n e₀
  | slotAuto n => exact execSlotAuto_keeps (.refl s) n e₀
  | slotPreset n => exact execSlotPreset_keeps (.refl s) n e₀
  | slotCommit n => exact execSlotCommit_keeps (.refl s) n e₀
  | slotResume n => exact execSlotResume_keeps (.refl s) n e₀
  | slotClear n => exact execSlotClear_keeps (.refl s) n e₀
  | injStart n => exact execInjStart_keeps (.refl s) n e₀
  | injStop n => exact execInjStop_keeps (.refl s) n e₀
  | slotStay n => exact execSlotStay_keeps (.refl s) n e₀
  | slotStop n => exact execSlotStop_keeps (.refl s) n e₀
  | captureArm v => exact execCaptureArm_keeps (.refl s) v e₀
  | captureForce v => exact execCaptureForce_keeps (.refl s) v e₀
  | captureAbort v => exact execCaptureAbort_keeps (.refl s) v e₀
  | zeroCrossing t vrms => exact execZeroCrossing_keeps (.refl s) t vrms e₀
  | zeroCrossingMiss => exact execZeroCrossingMiss_keeps (.refl s) e₀
  | heaterGateFire g e => exact execHeaterGateFire_keeps (.refl s) g e e₀
  | otcTrip g c code => exact execOtcTrip_keeps (.refl s) g c code e₀
  | otcClear g v codeA codeB => exact execOtcClear_keeps (.refl s) g v codeA codeB e₀
  | thermistorConversion j rt => exact execThermistorConversion_keeps (.refl s) j rt e₀
  | thermopileConversion j code => exact execThermopileConversion_keeps (.refl s) j code e₀
  | hvFrame fb => exact execHvFrame_keeps (.refl s) fb e₀
  | hvLeadEnd c => exact execHvLeadEnd_keeps (.refl s) c e₀
  | fbhiClear c v => exact execFbhiClear_keeps (.refl s) c v e₀
  | overspeedDetect => exact execOverspeedDetect_keeps (.refl s) e₀
  | feedPoint => exact execFeedPoint_keeps (.refl s) e₀
  | sensorRawEdge j present => exact execSensorRawEdge_keeps (.refl s) j present e₀
  | sensorQualified j => exact execSensorQualified_keeps (.refl s) j e₀
  | sensorWindowExpiry j c e => exact execSensorWindowExpiry_keeps (.refl s) j c e e₀
  | feedWindowExpiry => exact execFeedWindowExpiry_keeps (.refl s) e₀
  | t0Issue c k => exact execT0Issue_keeps (.refl s) c k e₀
  | sheetCommit c => exact execSheetCommit_keeps (.refl s) c e₀
  | diverterDecision c => exact execDiverterDecision_keeps (.refl s) c e₀
  | diverterRelease c => exact execDiverterRelease_keeps (.refl s) c e₀
  | sheetDelivered c => exact execSheetDelivered_keeps (.refl s) c e₀
  | sheetBoundary c => exact execSheetBoundary_keeps (.refl s) c e₀
  | refeed => exact execRefeed_keeps (.refl s) e₀
  | webBackup => exact execWebBackup_keeps (.refl s) e₀
  | webHold => exact execWebHold_keeps (.refl s) e₀
  | webStop => exact execWebStop_keeps (.refl s) e₀
  | dispAnswer v => exact execDispAnswer_keeps (.refl s) v e₀
  | webRunStart => exact execWebRunStart_keeps (.refl s) e₀
  | frameDeadline => exact execFrameDeadline_keeps (.refl s) e₀
  | webDrainDone => exact execWebDrainDone_keeps (.refl s) e₀
  | webDecelAtRest => exact execWebDecelAtRest_keeps (.refl s) e₀
  | webBackupAtRest => exact execWebBackupAtRest_keeps (.refl s) e₀
  | webResume => exact execWebResume_keeps (.refl s) e₀
  | webAtSpeed => exact execWebAtSpeed_keeps (.refl s) e₀
  | webBreak j => exact execWebBreak_keeps (.refl s) j e₀
  | beaconTx => exact execBeaconTx_keeps (.refl s) e₀
  | beaconRx p hop master version => exact execBeaconRx_keeps (.refl s) p hop master version e₀
  | syncTx => exact execSyncTx_keeps (.refl s) e₀
  | syncRx p ts correction arrival => exact execSyncRx_keeps (.refl s) p ts correction arrival e₀
  | syncTimeout => exact execSyncTimeout_keeps (.refl s) e₀
  | cascadeGateQuery tag => exact execCascadeGateQuery_keeps (.refl s) tag e₀
  | cascadeGateReply pos armed passes => exact execCascadeGateReply_keeps (.refl s) pos armed passes e₀
  | cascadeGateTimeout => exact execCascadeGateTimeout_keeps (.refl s) e₀
  | positionBroadcast => exact execPositionBroadcast_keeps (.refl s) e₀
  | positionRx mpos lrate t => exact execPositionRx_keeps (.refl s) mpos lrate t e₀
  | positionTimeout => exact execPositionTimeout_keeps (.refl s) e₀
  | sheetEventRx e => exact execSheetEventRx_keeps (.refl s) e e₀
  | cascadeDisarmRx => exact execCascadeDisarmRx_keeps (.refl s) e₀
  | portDown p unreachable => exact execPortDown_keeps (.refl s) p unreachable e₀
  | partitionClear => exact execPartitionClear_keeps (.refl s) e₀
  | powerGoRx => exact execPowerGoRx_keeps (.refl s) e₀
  | dmaStart n v => exact execDmaStart_keeps (.refl s) n v e₀
  | dmaStop n v => exact execDmaStop_keeps (.refl s) n v e₀
  | dmaReset n v => exact execDmaReset_keeps (.refl s) n v e₀
  | dmaTailWrite n v => exact execDmaTailWrite_keeps (.refl s) n v e₀
  | descriptorFetch n d => exact execDescriptorFetch_keeps (.refl s) n d e₀
  | laneAcceptBand lane => exact execLaneAcceptBand_keeps (.refl s) lane e₀
  | burstIssue _ _ => cases hw
  | burstError n hostSide => exact execBurstError_keeps (.refl s) n hostSide e₀
  | descriptorComplete n => exact execDescriptorComplete_keeps (.refl s) n e₀
  | periphRequest psel => exact execPeriphRequest_keeps (.refl s) psel e₀
  | periphWithdraw n real => exact execPeriphWithdraw_keeps (.refl s) n real e₀
  | faultReportWord r word => exact execFaultReportWord_keeps (.refl s) r word e₀
  | reporterTimeout r => exact execReporterTimeout_keeps (.refl s) r e₀
  | reactionComplete r => exact execReactionComplete_keeps (.refl s) r e₀
  | fltClear v => exact execFltClear_keeps (.refl s) v e₀
  | fltAnswer v => exact execFltAnswer_keeps (.refl s) v e₀
  | isolate v => exact execIsolate_keeps (.refl s) v e₀
  | returnUnit _ => cases hw
  | unitResetRelease u => exact execUnitResetRelease_keeps (.refl s) u e₀
  | unitCheckDone u ok => exact execUnitCheckDone_keeps (.refl s) u ok e₀
  | calStepDone ok failUnit temps => exact execCalStepDone_keeps (.refl s) ok failUnit temps e₀
  | mayflySweep => exact execMayflySweep_keeps (.refl s) e₀
  | mayflyRequest v => exact execMayflyRequest_keeps (.refl s) v e₀
  | mayflyConversionDone temp => exact execMayflyConversionDone_keeps (.refl s) temp e₀
  | recal v => exact execRecal_keeps (.refl s) v e₀
  | snap v => exact execSnap_keeps (.refl s) v e₀
  | restore v => exact execRestore_keeps (.refl s) v e₀
  | recalStart k => exact execRecalStart_keeps (.refl s) k e₀
  | recalDone k ok => exact execRecalDone_keeps (.refl s) k ok e₀
  | vinQualified => exact execVinQualified_keeps (.refl s) e₀
  | pwrOnChange _ => cases hw
  | railQualified r => exact execRailQualified_keeps (.refl s) r e₀
  | railTimeout _ => cases hw
  | extStepEnable => exact execExtStepEnable_keeps (.refl s) e₀
  | railFallen _ => cases hw
  | fallLateTimeout r => exact execFallLateTimeout_keeps (.refl s) r e₀
  | pwrOff v => exact execPwrOff_keeps (.refl s) v e₀
  | extOn v => exact execExtOn_keeps (.refl s) v e₀
  | extOff v => exact execExtOff_keeps (.refl s) v e₀
  | step v => exact execStep_keeps (.refl s) v e₀
  | offWaitTimeout => exact execOffWaitTimeout_keeps (.refl s) e₀
  | counterCopyDone => cases hw
  | supplyFault _ => cases hw
  | inputCollapse _ => cases hw
  | logCommit committed => exact execLogCommit_keeps (.refl s) committed e₀
  | resetSourceAssert _ => cases hw
  | resetSourceDeassert src => exact execResetSourceDeassert_keeps (.refl s) src e₀
  | domainRelease => exact execDomainRelease_keeps (.refl s) e₀
  | referenceLoss => exact execReferenceLoss_keeps (.refl s) e₀
  | referenceRestored => exact execReferenceRestored_keeps (.refl s) e₀
  | cmdDomain _ => cases hw
  | cmdDie _ => cases hw
  | cold _ => cases hw
  | obWrite v => exact execObWrite_keeps (.refl s) v e₀
  | obWriteDone ok => exact execObWriteDone_keeps (.refl s) ok e₀
  | tapExtest boundary => exact execTapExtest_keeps (.refl s) boundary e₀
  | isolatedAccess addr write => exact execIsolatedAccess_keeps (.refl s) addr write e₀
  | poisonedWrite bar addr => exact execPoisonedWrite_keeps (.refl s) bar addr e₀
  | pcieLinkDown => cases hw
  | d3hotEntry => exact execD3hotEntry_keeps (.refl s) e₀
  | msixUnmask op => exact execMsixUnmask_keeps (.refl s) op e₀
  | mbxPost j => exact execMbxPost_keeps (.refl s) j e₀
  | mbxPop p => exact execMbxPop_keeps (.refl s) p e₀
  | mbxAnswer p v => exact execMbxAnswer_keeps (.refl s) p v e₀
  | wiringFault pin f => exact execWiringFault_keeps (.refl s) pin f e₀
  | overloadTrip pin => exact execOverloadTrip_keeps (.refl s) pin e₀
  | overloadClear pin v => exact execOverloadClear_keeps (.refl s) pin v e₀
  | motionClock => exact execMotionClock_keeps (.refl s) e₀
  | encoderEdge a forward => exact execEncoderEdge_keeps (.refl s) a forward e₀
  | sosGlitch k => exact execSosGlitch_keeps (.refl s) k e₀
  | zcGlitch => exact execZcGlitch_keeps (.refl s) e₀
  | synLockGain k => exact execSynLockGain_keeps (.refl s) k e₀
  | limitInactive a positive => exact execLimitInactive_keeps (.refl s) a positive e₀
  | pcieLinkUp speed width => exact execPcieLinkUp_keeps (.refl s) speed width e₀
  | portUp p delay => exact execPortUp_keeps (.refl s) p delay e₀
  | slaveReportRx pos rep => exact execSlaveReportRx_keeps (.refl s) pos rep e₀
  | railWindowChange w good => exact execRailWindowChange_keeps (.refl s) w good e₀
  | wiringFaultEnd pin f => exact execWiringFaultEnd_keeps (.refl s) pin f e₀

end Sys2Proof.Machine
end

