-- ==== Sys2Proof/Laws/State.lean ====
section
/-! SUPPORT. What each update of a state does to each part of it: one lemma per part and update. -/

namespace Sys2Proof.Machine

open Sys2Proof

/-! ### Sparse tables -/

theorem Store.get_erase {κ ν : Type} [DecidableEq κ] (d : ν) (k k' : κ) (t : Store κ ν) :
    Store.get d k (Store.erase k' t) = if k = k' then d else Store.get d k t := by
  induction t with
  | nil => simp [Store.get, Store.erase]
  | cons e t ih =>
    obtain ⟨j, v⟩ := e
    simp only [Store.erase]
    by_cases hj : j = k'
    · subst hj
      rw [if_pos rfl, ih, Store.get]
      by_cases hk : k = j
      · simp [hk]
      · simp [hk, Ne.symm hk]
    · rw [if_neg hj, Store.get, Store.get, ih]
      by_cases hk : j = k
      · subst hk; simp [hj]
      · simp [hk]

theorem Store.get_insert {κ ν : Type} [DecidableEq κ] (code : κ → Nat) (d : ν) (k k' : κ) (v : ν) (t : Store κ ν)
    (h : ∀ e ∈ t, e.1 ≠ k') : Store.get d k (Store.insert code k' v t) = if k = k' then v else Store.get d k t := by
  induction t with
  | nil => simp [Store.get, Store.insert, eq_comm]
  | cons e t ih =>
    obtain ⟨j, w⟩ := e
    have hj : j ≠ k' := h (j, w) (List.mem_cons_self ..)
    have ih := ih fun e he => h e (List.mem_cons_of_mem _ he)
    simp only [Store.insert]
    split
    · rw [Store.get]
      by_cases hk : k = k'
      · simp [hk]
      · simp [hk, Ne.symm hk]
    · rw [Store.get, Store.get, ih]
      by_cases hk : j = k
      · subst hk; simp [hj]
      · simp [hk]

theorem Store.mem_erase_ne {κ ν : Type} [DecidableEq κ] (k : κ) (t : Store κ ν) : ∀ e ∈ Store.erase k t, e.1 ≠ k := by
  induction t with
  | nil => simp [Store.erase]
  | cons e t ih =>
    obtain ⟨j, v⟩ := e
    simp only [Store.erase]
    split
    · exact ih
    · intro e he
      rcases List.mem_cons.1 he with rfl | he
      · assumption
      · exact ih e he

/-- A table reads what was last set. -/
theorem Store.get_set_same {κ ν : Type} [DecidableEq κ] [DecidableEq ν] (code : κ → Nat) (d : ν) (k : κ) (v : ν) (t : Store κ ν) :
    Store.get d k (Store.set code d k v t) = v := by
  unfold Store.set
  split
  · next hv =>
    subst hv
    rw [Store.get_erase, if_pos rfl]
  · rw [Store.get_insert code d k k v _ (Store.mem_erase_ne k t), if_pos rfl]

/-- Elsewhere a table reads what it read before. -/
theorem Store.get_set_ne {κ ν : Type} [DecidableEq κ] [DecidableEq ν] {k k' : κ} (h : k ≠ k') (code : κ → Nat) (d d' : ν) (v : ν)
    (t : Store κ ν) : Store.get d k (Store.set code d' k' v t) = Store.get d k t := by
  unfold Store.set
  split
  · rw [Store.get_erase, if_neg h]
  · rw [Store.get_insert code d k k' v _ (Store.mem_erase_ne k' t), Store.get_erase, if_neg h, if_neg h]

/-- A table whose default is the same at every key. -/
theorem Store.get_set {κ ν : Type} [DecidableEq κ] [DecidableEq ν] (code : κ → Nat) (d : ν) (k k' : κ) (v : ν) (t : Store κ ν) :
    Store.get d k (Store.set code d k' v t) = if k = k' then v else Store.get d k t := by
  by_cases h : k = k'
  · subst h; rw [if_pos rfl, Store.get_set_same]
  · rw [if_neg h, Store.get_set_ne h]

/-! ### Register fields -/

/-- A field reads what was last written to it, in its width, on a unit that is populated; every other field is unchanged. -/
theorem State.rd_wr (s : State) (f g : Fld) (i j v : Nat) :
    (s.wr f i v).rd g j = if g = f ∧ j = i ∧ populated s.hw f i = true then v % 2 ^ f.row.width else s.rd g j := by
  unfold State.wr
  by_cases hp : populated s.hw f i = true
  · rw [if_pos hp]
    unfold State.rd
    by_cases hg : g = f ∧ j = i
    · obtain ⟨rfl, rfl⟩ := hg
      simp [hp, Store.get_set_same]
    · have hne : (g, j) ≠ (f, i) := fun h => hg (Prod.mk.injEq .. ▸ h)
      rw [Store.get_set_ne hne, if_neg (c := g = f ∧ _) fun h => hg ⟨h.1, h.2.1⟩]
  · simp [hp]

/-- A field of one name and number reads what is written to it. -/
theorem State.rd_wr_same (s : State) {f : Fld} {i : Nat} (h : populated s.hw f i = true) (v : Nat) :
    (s.wr f i v).rd f i = v % 2 ^ f.row.width := by rw [State.rd_wr, if_pos ⟨rfl, rfl, h⟩]

/-- Another field, or the field of another instance, is unchanged. -/
theorem State.rd_wr_ne (s : State) {f g : Fld} {i j : Nat} (h : (g, j) ≠ (f, i)) (v : Nat) : (s.wr f i v).rd g j = s.rd g j := by
  rw [State.rd_wr, if_neg]
  rintro ⟨rfl, rfl, -⟩
  exact h rfl

theorem State.ev_eq (s : State) (f : Fld) (i : Nat) : s.ev f i = s.wr f i 1 := rfl
theorem State.clr_eq (s : State) (f : Fld) (i : Nat) : s.clr f i = s.wr f i 0 := rfl
theorem State.wrB_eq (s : State) (f : Fld) (i : Nat) (b : Bool) : s.wrB f i b = s.wr f i (bit b) := rfl
theorem State.wrS_eq (s : State) (f : Fld) (i : Nat) (z : Int) : s.wrS f i z = s.wr f i (ofSigned f.row.width z) := rfl
theorem State.count_eq (s : State) (f : Fld) (i : Nat) : s.count f i = s.wr f i (satInc f.row.width (s.rd f i)) := rfl
theorem State.countBy_eq (s : State) (f : Fld) (i n : Nat) :
    s.countBy f i n = s.wr f i (min (2 ^ f.row.width - 1) (s.rd f i + n)) := rfl
theorem State.on_eq (s : State) (f : Fld) (i : Nat) : s.on f i = (s.rd f i != 0) := rfl

/-! ### What a write of a field leaves -/

@[simp] theorem State.wr_hw (s : State) (f : Fld) (i v : Nat) : (s.wr f i v).hw = s.hw := by unfold State.wr; split <;> rfl
@[simp] theorem State.wr_fuses (s : State) (f : Fld) (i v : Nat) : (s.wr f i v).fuses = s.fuses := by unfold State.wr; split <;> rfl
@[simp] theorem State.wr_pending (s : State) (f : Fld) (i v : Nat) : (s.wr f i v).pending = s.pending := by unfold State.wr; split <;> rfl
@[simp] theorem State.wr_out (s : State) (f : Fld) (i v : Nat) : (s.wr f i v).out = s.out := by unfold State.wr; split <;> rfl
@[simp] theorem State.wr_free (s : State) (f : Fld) (i v : Nat) : (s.wr f i v).free = s.free := by unfold State.wr; split <;> rfl
@[simp] theorem State.wr_etime (s : State) (f : Fld) (i v : Nat) : (s.wr f i v).etime = s.etime := by unfold State.wr; split <;> rfl
@[simp] theorem State.wr_live (s : State) (f : Fld) (i v : Nat) : (s.wr f i v).live = s.live := by unfold State.wr; split <;> rfl
@[simp] theorem State.wr_hold (s : State) (f : Fld) (i v : Nat) : (s.wr f i v).hold = s.hold := by unfold State.wr; split <;> rfl
@[simp] theorem State.wr_latch (s : State) (f : Fld) (i v : Nat) : (s.wr f i v).latch = s.latch := by unfold State.wr; split <;> rfl
@[simp] theorem State.wr_inReset (s : State) (f : Fld) (i v : Nat) : (s.wr f i v).inReset = s.inReset := by unfold State.wr; split <;> rfl
@[simp] theorem State.wr_isolated (s : State) (f : Fld) (i v : Nat) : (s.wr f i v).isolated = s.isolated := by unfold State.wr; split <;> rfl
@[simp] theorem State.wr_cores (s : State) (f : Fld) (i v : Nat) : (s.wr f i v).cores = s.cores := by unfold State.wr; split <;> rfl
@[simp] theorem State.wr_ldr (s : State) (f : Fld) (i v : Nat) : (s.wr f i v).ldr = s.ldr := by unfold State.wr; split <;> rfl
@[simp] theorem State.wr_loam (s : State) (f : Fld) (i v : Nat) : (s.wr f i v).loam = s.loam := by unfold State.wr; split <;> rfl
@[simp] theorem State.wr_dma (s : State) (f : Fld) (i v : Nat) : (s.wr f i v).dma = s.dma := by unfold State.wr; split <;> rfl
@[simp] theorem State.wr_cmp (s : State) (f : Fld) (i v : Nat) : (s.wr f i v).cmp = s.cmp := by unfold State.wr; split <;> rfl
@[simp] theorem State.wr_stns (s : State) (f : Fld) (i v : Nat) : (s.wr f i v).stns = s.stns := by unfold State.wr; split <;> rfl
@[simp] theorem State.wr_lnks (s : State) (f : Fld) (i v : Nat) : (s.wr f i v).lnks = s.lnks := by unfold State.wr; split <;> rfl
@[simp] theorem State.wr_axes (s : State) (f : Fld) (i v : Nat) : (s.wr f i v).axes = s.axes := by unfold State.wr; split <;> rfl
@[simp] theorem State.wr_mbx (s : State) (f : Fld) (i v : Nat) : (s.wr f i v).mbx = s.mbx := by unfold State.wr; split <;> rfl
@[simp] theorem State.wr_pcie (s : State) (f : Fld) (i v : Nat) : (s.wr f i v).pcie = s.pcie := by unfold State.wr; split <;> rfl
@[simp] theorem State.wr_pth (s : State) (f : Fld) (i v : Nat) : (s.wr f i v).pth = s.pth := by unfold State.wr; split <;> rfl
@[simp] theorem State.wr_slots (s : State) (f : Fld) (i v : Nat) : (s.wr f i v).slots = s.slots := by unfold State.wr; split <;> rfl
@[simp] theorem State.wr_fhv (s : State) (f : Fld) (i v : Nat) : (s.wr f i v).fhv = s.fhv := by unfold State.wr; split <;> rfl
@[simp] theorem State.wr_capture (s : State) (f : Fld) (i v : Nat) : (s.wr f i v).capture = s.capture := by unfold State.wr; split <;> rfl
@[simp] theorem State.wr_flt (s : State) (f : Fld) (i v : Nat) : (s.wr f i v).flt = s.flt := by unfold State.wr; split <;> rfl
@[simp] theorem State.wr_csl (s : State) (f : Fld) (i v : Nat) : (s.wr f i v).csl = s.csl := by unfold State.wr; split <;> rfl
@[simp] theorem State.wr_cal (s : State) (f : Fld) (i v : Nat) : (s.wr f i v).cal = s.cal := by unfold State.wr; split <;> rfl
@[simp] theorem State.wr_pwr (s : State) (f : Fld) (i v : Nat) : (s.wr f i v).pwr = s.pwr := by unfold State.wr; split <;> rfl
@[simp] theorem State.wr_fram (s : State) (f : Fld) (i v : Nat) : (s.wr f i v).fram = s.fram := by unfold State.wr; split <;> rfl
@[simp] theorem State.wr_rst (s : State) (f : Fld) (i v : Nat) : (s.wr f i v).rst = s.rst := by unfold State.wr; split <;> rfl
@[simp] theorem State.wr_eio (s : State) (f : Fld) (i v : Nat) : (s.wr f i v).eio = s.eio := by unfold State.wr; split <;> rfl
@[simp] theorem State.chan_wr (s : State) (f : Fld) (i v n : Nat) : (s.wr f i v).chan n = s.chan n := by unfold State.wr; split <;> rfl
@[simp] theorem State.ctx_wr (s : State) (f : Fld) (i v n : Nat) : (s.wr f i v).ctx n = s.ctx n := by unfold State.wr; split <;> rfl
@[simp] theorem State.band_wr (s : State) (f : Fld) (i v n : Nat) : (s.wr f i v).band n = s.band n := by unfold State.wr; split <;> rfl
@[simp] theorem State.lane_wr (s : State) (f : Fld) (i v n : Nat) : (s.wr f i v).lane n = s.lane n := by unfold State.wr; split <;> rfl
@[simp] theorem State.job_wr (s : State) (f : Fld) (i v n : Nat) : (s.wr f i v).job n = s.job n := by unfold State.wr; split <;> rfl
@[simp] theorem State.axis_wr (s : State) (f : Fld) (i v n : Nat) : (s.wr f i v).axis n = s.axis n := by unfold State.wr; split <;> rfl
@[simp] theorem State.slot_wr (s : State) (f : Fld) (i v n : Nat) : (s.wr f i v).slot n = s.slot n := by unfold State.wr; split <;> rfl
@[simp] theorem State.heater_wr (s : State) (f : Fld) (i v n : Nat) : (s.wr f i v).heater n = s.heater n := by unfold State.wr; split <;> rfl
@[simp] theorem State.stn_wr (s : State) (f : Fld) (i v n : Nat) : (s.wr f i v).stn n = s.stn n := by unfold State.wr; split <;> rfl
@[simp] theorem State.lnk_wr (s : State) (f : Fld) (i v n : Nat) : (s.wr f i v).lnk n = s.lnk n := by unfold State.wr; split <;> rfl
@[simp] theorem State.up_wr (s : State) (f : Fld) (i v : Nat) (d : Dom) : (s.wr f i v).up d = s.up d := by unfold State.wr; split <;> rfl
@[simp] theorem State.lv_wr_ne {s : State} {f g : Fld} {i j : Nat} (h : (g, j) ≠ (f, i)) (v : Nat) : (s.wr f i v).lv g j = s.lv g j := by
  unfold State.lv; rw [State.wr_live, State.rd_wr_ne s h]

/-! ### What an output leaves -/

@[simp] theorem State.emit_out (s : State) (o : Out) : (s.emit o).out = o :: s.out := rfl
@[simp] theorem State.emit_hw (s : State) (o : Out) : (s.emit o).hw = s.hw := rfl
@[simp] theorem State.emit_fuses (s : State) (o : Out) : (s.emit o).fuses = s.fuses := rfl
@[simp] theorem State.emit_pending (s : State) (o : Out) : (s.emit o).pending = s.pending := rfl
@[simp] theorem State.emit_free (s : State) (o : Out) : (s.emit o).free = s.free := rfl
@[simp] theorem State.emit_etime (s : State) (o : Out) : (s.emit o).etime = s.etime := rfl
@[simp] theorem State.emit_regs (s : State) (o : Out) : (s.emit o).regs = s.regs := rfl
@[simp] theorem State.emit_live (s : State) (o : Out) : (s.emit o).live = s.live := rfl
@[simp] theorem State.emit_hold (s : State) (o : Out) : (s.emit o).hold = s.hold := rfl
@[simp] theorem State.emit_latch (s : State) (o : Out) : (s.emit o).latch = s.latch := rfl
@[simp] theorem State.emit_inReset (s : State) (o : Out) : (s.emit o).inReset = s.inReset := rfl
@[simp] theorem State.emit_isolated (s : State) (o : Out) : (s.emit o).isolated = s.isolated := rfl
@[simp] theorem State.emit_cores (s : State) (o : Out) : (s.emit o).cores = s.cores := rfl
@[simp] theorem State.emit_ldr (s : State) (o : Out) : (s.emit o).ldr = s.ldr := rfl
@[simp] theorem State.emit_loam (s : State) (o : Out) : (s.emit o).loam = s.loam := rfl
@[simp] theorem State.emit_dma (s : State) (o : Out) : (s.emit o).dma = s.dma := rfl
@[simp] theorem State.emit_cmp (s : State) (o : Out) : (s.emit o).cmp = s.cmp := rfl
@[simp] theorem State.emit_stns (s : State) (o : Out) : (s.emit o).stns = s.stns := rfl
@[simp] theorem State.emit_lnks (s : State) (o : Out) : (s.emit o).lnks = s.lnks := rfl
@[simp] theorem State.emit_axes (s : State) (o : Out) : (s.emit o).axes = s.axes := rfl
@[simp] theorem State.emit_mbx (s : State) (o : Out) : (s.emit o).mbx = s.mbx := rfl
@[simp] theorem State.emit_pcie (s : State) (o : Out) : (s.emit o).pcie = s.pcie := rfl
@[simp] theorem State.emit_pth (s : State) (o : Out) : (s.emit o).pth = s.pth := rfl
@[simp] theorem State.emit_slots (s : State) (o : Out) : (s.emit o).slots = s.slots := rfl
@[simp] theorem State.emit_fhv (s : State) (o : Out) : (s.emit o).fhv = s.fhv := rfl
@[simp] theorem State.emit_capture (s : State) (o : Out) : (s.emit o).capture = s.capture := rfl
@[simp] theorem State.emit_flt (s : State) (o : Out) : (s.emit o).flt = s.flt := rfl
@[simp] theorem State.emit_csl (s : State) (o : Out) : (s.emit o).csl = s.csl := rfl
@[simp] theorem State.emit_cal (s : State) (o : Out) : (s.emit o).cal = s.cal := rfl
@[simp] theorem State.emit_pwr (s : State) (o : Out) : (s.emit o).pwr = s.pwr := rfl
@[simp] theorem State.emit_fram (s : State) (o : Out) : (s.emit o).fram = s.fram := rfl
@[simp] theorem State.emit_rst (s : State) (o : Out) : (s.emit o).rst = s.rst := rfl
@[simp] theorem State.emit_eio (s : State) (o : Out) : (s.emit o).eio = s.eio := rfl
@[simp] theorem State.chan_emit (s : State) (o : Out) (n : Nat) : (s.emit o).chan n = s.chan n := rfl
@[simp] theorem State.ctx_emit (s : State) (o : Out) (n : Nat) : (s.emit o).ctx n = s.ctx n := rfl
@[simp] theorem State.band_emit (s : State) (o : Out) (n : Nat) : (s.emit o).band n = s.band n := rfl
@[simp] theorem State.lane_emit (s : State) (o : Out) (n : Nat) : (s.emit o).lane n = s.lane n := rfl
@[simp] theorem State.job_emit (s : State) (o : Out) (n : Nat) : (s.emit o).job n = s.job n := rfl
@[simp] theorem State.axis_emit (s : State) (o : Out) (n : Nat) : (s.emit o).axis n = s.axis n := rfl
@[simp] theorem State.slot_emit (s : State) (o : Out) (n : Nat) : (s.emit o).slot n = s.slot n := rfl
@[simp] theorem State.heater_emit (s : State) (o : Out) (n : Nat) : (s.emit o).heater n = s.heater n := rfl
@[simp] theorem State.stn_emit (s : State) (o : Out) (n : Nat) : (s.emit o).stn n = s.stn n := rfl
@[simp] theorem State.lnk_emit (s : State) (o : Out) (n : Nat) : (s.emit o).lnk n = s.lnk n := rfl
@[simp] theorem State.rd_emit (s : State) (o : Out) (f : Fld) (i : Nat) : (s.emit o).rd f i = s.rd f i := rfl
@[simp] theorem State.up_emit (s : State) (o : Out) (d : Dom) : (s.emit o).up d = s.up d := rfl

/-! ### What `setChan` leaves -/

theorem State.chan_setChan (s : State) (n m : Nat) (x : Chan) : (s.setChan n x).chan m = if m = n then x else s.chan m := by
  unfold State.chan State.setChan; exact Store.get_set ..
@[simp] theorem State.chan_setChan_same (s : State) (n : Nat) (x : Chan) : (s.setChan n x).chan n = x := by
  unfold State.chan State.setChan; exact Store.get_set_same ..
@[simp] theorem State.setChan_hw (s : State) (n : Nat) (x : Chan) : (s.setChan n x).hw = s.hw := rfl
@[simp] theorem State.setChan_fuses (s : State) (n : Nat) (x : Chan) : (s.setChan n x).fuses = s.fuses := rfl
@[simp] theorem State.setChan_pending (s : State) (n : Nat) (x : Chan) : (s.setChan n x).pending = s.pending := rfl
@[simp] theorem State.setChan_out (s : State) (n : Nat) (x : Chan) : (s.setChan n x).out = s.out := rfl
@[simp] theorem State.setChan_free (s : State) (n : Nat) (x : Chan) : (s.setChan n x).free = s.free := rfl
@[simp] theorem State.setChan_etime (s : State) (n : Nat) (x : Chan) : (s.setChan n x).etime = s.etime := rfl
@[simp] theorem State.setChan_regs (s : State) (n : Nat) (x : Chan) : (s.setChan n x).regs = s.regs := rfl
@[simp] theorem State.setChan_live (s : State) (n : Nat) (x : Chan) : (s.setChan n x).live = s.live := rfl
@[simp] theorem State.setChan_hold (s : State) (n : Nat) (x : Chan) : (s.setChan n x).hold = s.hold := rfl
@[simp] theorem State.setChan_latch (s : State) (n : Nat) (x : Chan) : (s.setChan n x).latch = s.latch := rfl
@[simp] theorem State.setChan_inReset (s : State) (n : Nat) (x : Chan) : (s.setChan n x).inReset = s.inReset := rfl
@[simp] theorem State.setChan_isolated (s : State) (n : Nat) (x : Chan) : (s.setChan n x).isolated = s.isolated := rfl
@[simp] theorem State.setChan_cores (s : State) (n : Nat) (x : Chan) : (s.setChan n x).cores = s.cores := rfl
@[simp] theorem State.setChan_ldr (s : State) (n : Nat) (x : Chan) : (s.setChan n x).ldr = s.ldr := rfl
@[simp] theorem State.setChan_loam (s : State) (n : Nat) (x : Chan) : (s.setChan n x).loam = s.loam := rfl
@[simp] theorem State.setChan_cmp (s : State) (n : Nat) (x : Chan) : (s.setChan n x).cmp = s.cmp := rfl
@[simp] theorem State.setChan_stns (s : State) (n : Nat) (x : Chan) : (s.setChan n x).stns = s.stns := rfl
@[simp] theorem State.setChan_lnks (s : State) (n : Nat) (x : Chan) : (s.setChan n x).lnks = s.lnks := rfl
@[simp] theorem State.setChan_axes (s : State) (n : Nat) (x : Chan) : (s.setChan n x).axes = s.axes := rfl
@[simp] theorem State.setChan_mbx (s : State) (n : Nat) (x : Chan) : (s.setChan n x).mbx = s.mbx := rfl
@[simp] theorem State.setChan_pcie (s : State) (n : Nat) (x : Chan) : (s.setChan n x).pcie = s.pcie := rfl
@[simp] theorem State.setChan_pth (s : State) (n : Nat) (x : Chan) : (s.setChan n x).pth = s.pth := rfl
@[simp] theorem State.setChan_slots (s : State) (n : Nat) (x : Chan) : (s.setChan n x).slots = s.slots := rfl
@[simp] theorem State.setChan_fhv (s : State) (n : Nat) (x : Chan) : (s.setChan n x).fhv = s.fhv := rfl
@[simp] theorem State.setChan_capture (s : State) (n : Nat) (x : Chan) : (s.setChan n x).capture = s.capture := rfl
@[simp] theorem State.setChan_flt (s : State) (n : Nat) (x : Chan) : (s.setChan n x).flt = s.flt := rfl
@[simp] theorem State.setChan_csl (s : State) (n : Nat) (x : Chan) : (s.setChan n x).csl = s.csl := rfl
@[simp] theorem State.setChan_cal (s : State) (n : Nat) (x : Chan) : (s.setChan n x).cal = s.cal := rfl
@[simp] theorem State.setChan_pwr (s : State) (n : Nat) (x : Chan) : (s.setChan n x).pwr = s.pwr := rfl
@[simp] theorem State.setChan_fram (s : State) (n : Nat) (x : Chan) : (s.setChan n x).fram = s.fram := rfl
@[simp] theorem State.setChan_rst (s : State) (n : Nat) (x : Chan) : (s.setChan n x).rst = s.rst := rfl
@[simp] theorem State.setChan_eio (s : State) (n : Nat) (x : Chan) : (s.setChan n x).eio = s.eio := rfl
@[simp] theorem State.ctx_setChan (s : State) (n m : Nat) (x : Chan) : (s.setChan n x).ctx m = s.ctx m := rfl
@[simp] theorem State.band_setChan (s : State) (n m : Nat) (x : Chan) : (s.setChan n x).band m = s.band m := rfl
@[simp] theorem State.lane_setChan (s : State) (n m : Nat) (x : Chan) : (s.setChan n x).lane m = s.lane m := rfl
@[simp] theorem State.job_setChan (s : State) (n m : Nat) (x : Chan) : (s.setChan n x).job m = s.job m := rfl
@[simp] theorem State.axis_setChan (s : State) (n m : Nat) (x : Chan) : (s.setChan n x).axis m = s.axis m := rfl
@[simp] theorem State.slot_setChan (s : State) (n m : Nat) (x : Chan) : (s.setChan n x).slot m = s.slot m := rfl
@[simp] theorem State.heater_setChan (s : State) (n m : Nat) (x : Chan) : (s.setChan n x).heater m = s.heater m := rfl
@[simp] theorem State.stn_setChan (s : State) (n m : Nat) (x : Chan) : (s.setChan n x).stn m = s.stn m := rfl
@[simp] theorem State.lnk_setChan (s : State) (n m : Nat) (x : Chan) : (s.setChan n x).lnk m = s.lnk m := rfl
@[simp] theorem State.rd_setChan (s : State) (n : Nat) (x : Chan) (f : Fld) (i : Nat) : (s.setChan n x).rd f i = s.rd f i := rfl
@[simp] theorem State.up_setChan (s : State) (n : Nat) (x : Chan) (d : Dom) : (s.setChan n x).up d = s.up d := rfl

/-! ### What `setCtx` leaves -/

theorem State.ctx_setCtx (s : State) (n m : Nat) (x : Ctx) : (s.setCtx n x).ctx m = if m = n then x else s.ctx m := by
  unfold State.ctx State.setCtx; exact Store.get_set ..
@[simp] theorem State.ctx_setCtx_same (s : State) (n : Nat) (x : Ctx) : (s.setCtx n x).ctx n = x := by
  unfold State.ctx State.setCtx; exact Store.get_set_same ..
@[simp] theorem State.setCtx_hw (s : State) (n : Nat) (x : Ctx) : (s.setCtx n x).hw = s.hw := rfl
@[simp] theorem State.setCtx_fuses (s : State) (n : Nat) (x : Ctx) : (s.setCtx n x).fuses = s.fuses := rfl
@[simp] theorem State.setCtx_pending (s : State) (n : Nat) (x : Ctx) : (s.setCtx n x).pending = s.pending := rfl
@[simp] theorem State.setCtx_out (s : State) (n : Nat) (x : Ctx) : (s.setCtx n x).out = s.out := rfl
@[simp] theorem State.setCtx_free (s : State) (n : Nat) (x : Ctx) : (s.setCtx n x).free = s.free := rfl
@[simp] theorem State.setCtx_etime (s : State) (n : Nat) (x : Ctx) : (s.setCtx n x).etime = s.etime := rfl
@[simp] theorem State.setCtx_regs (s : State) (n : Nat) (x : Ctx) : (s.setCtx n x).regs = s.regs := rfl
@[simp] theorem State.setCtx_live (s : State) (n : Nat) (x : Ctx) : (s.setCtx n x).live = s.live := rfl
@[simp] theorem State.setCtx_hold (s : State) (n : Nat) (x : Ctx) : (s.setCtx n x).hold = s.hold := rfl
@[simp] theorem State.setCtx_latch (s : State) (n : Nat) (x : Ctx) : (s.setCtx n x).latch = s.latch := rfl
@[simp] theorem State.setCtx_inReset (s : State) (n : Nat) (x : Ctx) : (s.setCtx n x).inReset = s.inReset := rfl
@[simp] theorem State.setCtx_isolated (s : State) (n : Nat) (x : Ctx) : (s.setCtx n x).isolated = s.isolated := rfl
@[simp] theorem State.setCtx_cores (s : State) (n : Nat) (x : Ctx) : (s.setCtx n x).cores = s.cores := rfl
@[simp] theorem State.setCtx_ldr (s : State) (n : Nat) (x : Ctx) : (s.setCtx n x).ldr = s.ldr := rfl
@[simp] theorem State.setCtx_dma (s : State) (n : Nat) (x : Ctx) : (s.setCtx n x).dma = s.dma := rfl
@[simp] theorem State.setCtx_cmp (s : State) (n : Nat) (x : Ctx) : (s.setCtx n x).cmp = s.cmp := rfl
@[simp] theorem State.setCtx_stns (s : State) (n : Nat) (x : Ctx) : (s.setCtx n x).stns = s.stns := rfl
@[simp] theorem State.setCtx_lnks (s : State) (n : Nat) (x : Ctx) : (s.setCtx n x).lnks = s.lnks := rfl
@[simp] theorem State.setCtx_axes (s : State) (n : Nat) (x : Ctx) : (s.setCtx n x).axes = s.axes := rfl
@[simp] theorem State.setCtx_mbx (s : State) (n : Nat) (x : Ctx) : (s.setCtx n x).mbx = s.mbx := rfl
@[simp] theorem State.setCtx_pcie (s : State) (n : Nat) (x : Ctx) : (s.setCtx n x).pcie = s.pcie := rfl
@[simp] theorem State.setCtx_pth (s : State) (n : Nat) (x : Ctx) : (s.setCtx n x).pth = s.pth := rfl
@[simp] theorem State.setCtx_slots (s : State) (n : Nat) (x : Ctx) : (s.setCtx n x).slots = s.slots := rfl
@[simp] theorem State.setCtx_fhv (s : State) (n : Nat) (x : Ctx) : (s.setCtx n x).fhv = s.fhv := rfl
@[simp] theorem State.setCtx_capture (s : State) (n : Nat) (x : Ctx) : (s.setCtx n x).capture = s.capture := rfl
@[simp] theorem State.setCtx_flt (s : State) (n : Nat) (x : Ctx) : (s.setCtx n x).flt = s.flt := rfl
@[simp] theorem State.setCtx_csl (s : State) (n : Nat) (x : Ctx) : (s.setCtx n x).csl = s.csl := rfl
@[simp] theorem State.setCtx_cal (s : State) (n : Nat) (x : Ctx) : (s.setCtx n x).cal = s.cal := rfl
@[simp] theorem State.setCtx_pwr (s : State) (n : Nat) (x : Ctx) : (s.setCtx n x).pwr = s.pwr := rfl
@[simp] theorem State.setCtx_fram (s : State) (n : Nat) (x : Ctx) : (s.setCtx n x).fram = s.fram := rfl
@[simp] theorem State.setCtx_rst (s : State) (n : Nat) (x : Ctx) : (s.setCtx n x).rst = s.rst := rfl
@[simp] theorem State.setCtx_eio (s : State) (n : Nat) (x : Ctx) : (s.setCtx n x).eio = s.eio := rfl
@[simp] theorem State.chan_setCtx (s : State) (n m : Nat) (x : Ctx) : (s.setCtx n x).chan m = s.chan m := rfl
@[simp] theorem State.band_setCtx (s : State) (n m : Nat) (x : Ctx) : (s.setCtx n x).band m = s.band m := rfl
@[simp] theorem State.lane_setCtx (s : State) (n m : Nat) (x : Ctx) : (s.setCtx n x).lane m = s.lane m := rfl
@[simp] theorem State.job_setCtx (s : State) (n m : Nat) (x : Ctx) : (s.setCtx n x).job m = s.job m := rfl
@[simp] theorem State.axis_setCtx (s : State) (n m : Nat) (x : Ctx) : (s.setCtx n x).axis m = s.axis m := rfl
@[simp] theorem State.slot_setCtx (s : State) (n m : Nat) (x : Ctx) : (s.setCtx n x).slot m = s.slot m := rfl
@[simp] theorem State.heater_setCtx (s : State) (n m : Nat) (x : Ctx) : (s.setCtx n x).heater m = s.heater m := rfl
@[simp] theorem State.stn_setCtx (s : State) (n m : Nat) (x : Ctx) : (s.setCtx n x).stn m = s.stn m := rfl
@[simp] theorem State.lnk_setCtx (s : State) (n m : Nat) (x : Ctx) : (s.setCtx n x).lnk m = s.lnk m := rfl
@[simp] theorem State.setCtx_loam_bytes (s : State) (n : Nat) (x : Ctx) : (s.setCtx n x).loam.bytes = s.loam.bytes := rfl
@[simp] theorem State.setCtx_loam_ecc (s : State) (n : Nat) (x : Ctx) : (s.setCtx n x).loam.ecc = s.loam.ecc := rfl
@[simp] theorem State.setCtx_loam_scrub (s : State) (n : Nat) (x : Ctx) : (s.setCtx n x).loam.scrub = s.loam.scrub := rfl
@[simp] theorem State.setCtx_loam_nextSeq (s : State) (n : Nat) (x : Ctx) : (s.setCtx n x).loam.nextSeq = s.loam.nextSeq := rfl
@[simp] theorem State.setCtx_loam_request (s : State) (n : Nat) (x : Ctx) : (s.setCtx n x).loam.request = s.loam.request := rfl
@[simp] theorem State.setCtx_loam_withheld (s : State) (n : Nat) (x : Ctx) : (s.setCtx n x).loam.withheld = s.loam.withheld := rfl
@[simp] theorem State.setCtx_loam_hostOk (s : State) (n : Nat) (x : Ctx) : (s.setCtx n x).loam.hostOk = s.loam.hostOk := rfl
@[simp] theorem State.setCtx_loam_held (s : State) (n : Nat) (x : Ctx) : (s.setCtx n x).loam.held = s.loam.held := rfl
@[simp] theorem State.setCtx_loam_reclaim (s : State) (n : Nat) (x : Ctx) : (s.setCtx n x).loam.reclaim = s.loam.reclaim := rfl
@[simp] theorem State.setCtx_loam_bands (s : State) (n : Nat) (x : Ctx) : (s.setCtx n x).loam.bands = s.loam.bands := rfl
@[simp] theorem State.rd_setCtx (s : State) (n : Nat) (x : Ctx) (f : Fld) (i : Nat) : (s.setCtx n x).rd f i = s.rd f i := rfl
@[simp] theorem State.up_setCtx (s : State) (n : Nat) (x : Ctx) (d : Dom) : (s.setCtx n x).up d = s.up d := rfl

/-! ### What `setBand` leaves -/

theorem State.band_setBand (s : State) (n m : Nat) (x : Band) : (s.setBand n x).band m = if m = n then x else s.band m := by
  unfold State.band State.setBand; exact Store.get_set ..
@[simp] theorem State.band_setBand_same (s : State) (n : Nat) (x : Band) : (s.setBand n x).band n = x := by
  unfold State.band State.setBand; exact Store.get_set_same ..
@[simp] theorem State.setBand_hw (s : State) (n : Nat) (x : Band) : (s.setBand n x).hw = s.hw := rfl
@[simp] theorem State.setBand_fuses (s : State) (n : Nat) (x : Band) : (s.setBand n x).fuses = s.fuses := rfl
@[simp] theorem State.setBand_pending (s : State) (n : Nat) (x : Band) : (s.setBand n x).pending = s.pending := rfl
@[simp] theorem State.setBand_out (s : State) (n : Nat) (x : Band) : (s.setBand n x).out = s.out := rfl
@[simp] theorem State.setBand_free (s : State) (n : Nat) (x : Band) : (s.setBand n x).free = s.free := rfl
@[simp] theorem State.setBand_etime (s : State) (n : Nat) (x : Band) : (s.setBand n x).etime = s.etime := rfl
@[simp] theorem State.setBand_regs (s : State) (n : Nat) (x : Band) : (s.setBand n x).regs = s.regs := rfl
@[simp] theorem State.setBand_live (s : State) (n : Nat) (x : Band) : (s.setBand n x).live = s.live := rfl
@[simp] theorem State.setBand_hold (s : State) (n : Nat) (x : Band) : (s.setBand n x).hold = s.hold := rfl
@[simp] theorem State.setBand_latch (s : State) (n : Nat) (x : Band) : (s.setBand n x).latch = s.latch := rfl
@[simp] theorem State.setBand_inReset (s : State) (n : Nat) (x : Band) : (s.setBand n x).inReset = s.inReset := rfl
@[simp] theorem State.setBand_isolated (s : State) (n : Nat) (x : Band) : (s.setBand n x).isolated = s.isolated := rfl
@[simp] theorem State.setBand_cores (s : State) (n : Nat) (x : Band) : (s.setBand n x).cores = s.cores := rfl
@[simp] theorem State.setBand_ldr (s : State) (n : Nat) (x : Band) : (s.setBand n x).ldr = s.ldr := rfl
@[simp] theorem State.setBand_dma (s : State) (n : Nat) (x : Band) : (s.setBand n x).dma = s.dma := rfl
@[simp] theorem State.setBand_cmp (s : State) (n : Nat) (x : Band) : (s.setBand n x).cmp = s.cmp := rfl
@[simp] theorem State.setBand_stns (s : State) (n : Nat) (x : Band) : (s.setBand n x).stns = s.stns := rfl
@[simp] theorem State.setBand_lnks (s : State) (n : Nat) (x : Band) : (s.setBand n x).lnks = s.lnks := rfl
@[simp] theorem State.setBand_axes (s : State) (n : Nat) (x : Band) : (s.setBand n x).axes = s.axes := rfl
@[simp] theorem State.setBand_mbx (s : State) (n : Nat) (x : Band) : (s.setBand n x).mbx = s.mbx := rfl
@[simp] theorem State.setBand_pcie (s : State) (n : Nat) (x : Band) : (s.setBand n x).pcie = s.pcie := rfl
@[simp] theorem State.setBand_pth (s : State) (n : Nat) (x : Band) : (s.setBand n x).pth = s.pth := rfl
@[simp] theorem State.setBand_slots (s : State) (n : Nat) (x : Band) : (s.setBand n x).slots = s.slots := rfl
@[simp] theorem State.setBand_fhv (s : State) (n : Nat) (x : Band) : (s.setBand n x).fhv = s.fhv := rfl
@[simp] theorem State.setBand_capture (s : State) (n : Nat) (x : Band) : (s.setBand n x).capture = s.capture := rfl
@[simp] theorem State.setBand_flt (s : State) (n : Nat) (x : Band) : (s.setBand n x).flt = s.flt := rfl
@[simp] theorem State.setBand_csl (s : State) (n : Nat) (x : Band) : (s.setBand n x).csl = s.csl := rfl
@[simp] theorem State.setBand_cal (s : State) (n : Nat) (x : Band) : (s.setBand n x).cal = s.cal := rfl
@[simp] theorem State.setBand_pwr (s : State) (n : Nat) (x : Band) : (s.setBand n x).pwr = s.pwr := rfl
@[simp] theorem State.setBand_fram (s : State) (n : Nat) (x : Band) : (s.setBand n x).fram = s.fram := rfl
@[simp] theorem State.setBand_rst (s : State) (n : Nat) (x : Band) : (s.setBand n x).rst = s.rst := rfl
@[simp] theorem State.setBand_eio (s : State) (n : Nat) (x : Band) : (s.setBand n x).eio = s.eio := rfl
@[simp] theorem State.chan_setBand (s : State) (n m : Nat) (x : Band) : (s.setBand n x).chan m = s.chan m := rfl
@[simp] theorem State.ctx_setBand (s : State) (n m : Nat) (x : Band) : (s.setBand n x).ctx m = s.ctx m := rfl
@[simp] theorem State.lane_setBand (s : State) (n m : Nat) (x : Band) : (s.setBand n x).lane m = s.lane m := rfl
@[simp] theorem State.job_setBand (s : State) (n m : Nat) (x : Band) : (s.setBand n x).job m = s.job m := rfl
@[simp] theorem State.axis_setBand (s : State) (n m : Nat) (x : Band) : (s.setBand n x).axis m = s.axis m := rfl
@[simp] theorem State.slot_setBand (s : State) (n m : Nat) (x : Band) : (s.setBand n x).slot m = s.slot m := rfl
@[simp] theorem State.heater_setBand (s : State) (n m : Nat) (x : Band) : (s.setBand n x).heater m = s.heater m := rfl
@[simp] theorem State.stn_setBand (s : State) (n m : Nat) (x : Band) : (s.setBand n x).stn m = s.stn m := rfl
@[simp] theorem State.lnk_setBand (s : State) (n m : Nat) (x : Band) : (s.setBand n x).lnk m = s.lnk m := rfl
@[simp] theorem State.setBand_loam_bytes (s : State) (n : Nat) (x : Band) : (s.setBand n x).loam.bytes = s.loam.bytes := rfl
@[simp] theorem State.setBand_loam_ecc (s : State) (n : Nat) (x : Band) : (s.setBand n x).loam.ecc = s.loam.ecc := rfl
@[simp] theorem State.setBand_loam_scrub (s : State) (n : Nat) (x : Band) : (s.setBand n x).loam.scrub = s.loam.scrub := rfl
@[simp] theorem State.setBand_loam_nextSeq (s : State) (n : Nat) (x : Band) : (s.setBand n x).loam.nextSeq = s.loam.nextSeq := rfl
@[simp] theorem State.setBand_loam_request (s : State) (n : Nat) (x : Band) : (s.setBand n x).loam.request = s.loam.request := rfl
@[simp] theorem State.setBand_loam_withheld (s : State) (n : Nat) (x : Band) : (s.setBand n x).loam.withheld = s.loam.withheld := rfl
@[simp] theorem State.setBand_loam_hostOk (s : State) (n : Nat) (x : Band) : (s.setBand n x).loam.hostOk = s.loam.hostOk := rfl
@[simp] theorem State.setBand_loam_held (s : State) (n : Nat) (x : Band) : (s.setBand n x).loam.held = s.loam.held := rfl
@[simp] theorem State.setBand_loam_reclaim (s : State) (n : Nat) (x : Band) : (s.setBand n x).loam.reclaim = s.loam.reclaim := rfl
@[simp] theorem State.setBand_loam_ctxs (s : State) (n : Nat) (x : Band) : (s.setBand n x).loam.ctxs = s.loam.ctxs := rfl
@[simp] theorem State.rd_setBand (s : State) (n : Nat) (x : Band) (f : Fld) (i : Nat) : (s.setBand n x).rd f i = s.rd f i := rfl
@[simp] theorem State.up_setBand (s : State) (n : Nat) (x : Band) (d : Dom) : (s.setBand n x).up d = s.up d := rfl

/-! ### What `setLane` leaves -/

theorem State.lane_setLane (s : State) (n m : Nat) (x : Lane) : (s.setLane n x).lane m = if m = n then x else s.lane m := by
  unfold State.lane State.setLane; exact Store.get_set ..
@[simp] theorem State.lane_setLane_same (s : State) (n : Nat) (x : Lane) : (s.setLane n x).lane n = x := by
  unfold State.lane State.setLane; exact Store.get_set_same ..
@[simp] theorem State.setLane_hw (s : State) (n : Nat) (x : Lane) : (s.setLane n x).hw = s.hw := rfl
@[simp] theorem State.setLane_fuses (s : State) (n : Nat) (x : Lane) : (s.setLane n x).fuses = s.fuses := rfl
@[simp] theorem State.setLane_pending (s : State) (n : Nat) (x : Lane) : (s.setLane n x).pending = s.pending := rfl
@[simp] theorem State.setLane_out (s : State) (n : Nat) (x : Lane) : (s.setLane n x).out = s.out := rfl
@[simp] theorem State.setLane_free (s : State) (n : Nat) (x : Lane) : (s.setLane n x).free = s.free := rfl
@[simp] theorem State.setLane_etime (s : State) (n : Nat) (x : Lane) : (s.setLane n x).etime = s.etime := rfl
@[simp] theorem State.setLane_regs (s : State) (n : Nat) (x : Lane) : (s.setLane n x).regs = s.regs := rfl
@[simp] theorem State.setLane_live (s : State) (n : Nat) (x : Lane) : (s.setLane n x).live = s.live := rfl
@[simp] theorem State.setLane_hold (s : State) (n : Nat) (x : Lane) : (s.setLane n x).hold = s.hold := rfl
@[simp] theorem State.setLane_latch (s : State) (n : Nat) (x : Lane) : (s.setLane n x).latch = s.latch := rfl
@[simp] theorem State.setLane_inReset (s : State) (n : Nat) (x : Lane) : (s.setLane n x).inReset = s.inReset := rfl
@[simp] theorem State.setLane_isolated (s : State) (n : Nat) (x : Lane) : (s.setLane n x).isolated = s.isolated := rfl
@[simp] theorem State.setLane_cores (s : State) (n : Nat) (x : Lane) : (s.setLane n x).cores = s.cores := rfl
@[simp] theorem State.setLane_ldr (s : State) (n : Nat) (x : Lane) : (s.setLane n x).ldr = s.ldr := rfl
@[simp] theorem State.setLane_loam (s : State) (n : Nat) (x : Lane) : (s.setLane n x).loam = s.loam := rfl
@[simp] theorem State.setLane_dma (s : State) (n : Nat) (x : Lane) : (s.setLane n x).dma = s.dma := rfl
@[simp] theorem State.setLane_stns (s : State) (n : Nat) (x : Lane) : (s.setLane n x).stns = s.stns := rfl
@[simp] theorem State.setLane_lnks (s : State) (n : Nat) (x : Lane) : (s.setLane n x).lnks = s.lnks := rfl
@[simp] theorem State.setLane_axes (s : State) (n : Nat) (x : Lane) : (s.setLane n x).axes = s.axes := rfl
@[simp] theorem State.setLane_mbx (s : State) (n : Nat) (x : Lane) : (s.setLane n x).mbx = s.mbx := rfl
@[simp] theorem State.setLane_pcie (s : State) (n : Nat) (x : Lane) : (s.setLane n x).pcie = s.pcie := rfl
@[simp] theorem State.setLane_pth (s : State) (n : Nat) (x : Lane) : (s.setLane n x).pth = s.pth := rfl
@[simp] theorem State.setLane_slots (s : State) (n : Nat) (x : Lane) : (s.setLane n x).slots = s.slots := rfl
@[simp] theorem State.setLane_fhv (s : State) (n : Nat) (x : Lane) : (s.setLane n x).fhv = s.fhv := rfl
@[simp] theorem State.setLane_capture (s : State) (n : Nat) (x : Lane) : (s.setLane n x).capture = s.capture := rfl
@[simp] theorem State.setLane_flt (s : State) (n : Nat) (x : Lane) : (s.setLane n x).flt = s.flt := rfl
@[simp] theorem State.setLane_csl (s : State) (n : Nat) (x : Lane) : (s.setLane n x).csl = s.csl := rfl
@[simp] theorem State.setLane_cal (s : State) (n : Nat) (x : Lane) : (s.setLane n x).cal = s.cal := rfl
@[simp] theorem State.setLane_pwr (s : State) (n : Nat) (x : Lane) : (s.setLane n x).pwr = s.pwr := rfl
@[simp] theorem State.setLane_fram (s : State) (n : Nat) (x : Lane) : (s.setLane n x).fram = s.fram := rfl
@[simp] theorem State.setLane_rst (s : State) (n : Nat) (x : Lane) : (s.setLane n x).rst = s.rst := rfl
@[simp] theorem State.setLane_eio (s : State) (n : Nat) (x : Lane) : (s.setLane n x).eio = s.eio := rfl
@[simp] theorem State.chan_setLane (s : State) (n m : Nat) (x : Lane) : (s.setLane n x).chan m = s.chan m := rfl
@[simp] theorem State.ctx_setLane (s : State) (n m : Nat) (x : Lane) : (s.setLane n x).ctx m = s.ctx m := rfl
@[simp] theorem State.band_setLane (s : State) (n m : Nat) (x : Lane) : (s.setLane n x).band m = s.band m := rfl
@[simp] theorem State.job_setLane (s : State) (n m : Nat) (x : Lane) : (s.setLane n x).job m = s.job m := rfl
@[simp] theorem State.axis_setLane (s : State) (n m : Nat) (x : Lane) : (s.setLane n x).axis m = s.axis m := rfl
@[simp] theorem State.slot_setLane (s : State) (n m : Nat) (x : Lane) : (s.setLane n x).slot m = s.slot m := rfl
@[simp] theorem State.heater_setLane (s : State) (n m : Nat) (x : Lane) : (s.setLane n x).heater m = s.heater m := rfl
@[simp] theorem State.stn_setLane (s : State) (n m : Nat) (x : Lane) : (s.setLane n x).stn m = s.stn m := rfl
@[simp] theorem State.lnk_setLane (s : State) (n m : Nat) (x : Lane) : (s.setLane n x).lnk m = s.lnk m := rfl
@[simp] theorem State.rd_setLane (s : State) (n : Nat) (x : Lane) (f : Fld) (i : Nat) : (s.setLane n x).rd f i = s.rd f i := rfl
@[simp] theorem State.up_setLane (s : State) (n : Nat) (x : Lane) (d : Dom) : (s.setLane n x).up d = s.up d := rfl

/-! ### What `setJob` leaves -/

theorem State.job_setJob (s : State) (n m : Nat) (x : Job) : (s.setJob n x).job m = if m = n then x else s.job m := by
  unfold State.job State.setJob; exact Store.get_set ..
@[simp] theorem State.job_setJob_same (s : State) (n : Nat) (x : Job) : (s.setJob n x).job n = x := by
  unfold State.job State.setJob; exact Store.get_set_same ..
@[simp] theorem State.setJob_hw (s : State) (n : Nat) (x : Job) : (s.setJob n x).hw = s.hw := rfl
@[simp] theorem State.setJob_fuses (s : State) (n : Nat) (x : Job) : (s.setJob n x).fuses = s.fuses := rfl
@[simp] theorem State.setJob_pending (s : State) (n : Nat) (x : Job) : (s.setJob n x).pending = s.pending := rfl
@[simp] theorem State.setJob_out (s : State) (n : Nat) (x : Job) : (s.setJob n x).out = s.out := rfl
@[simp] theorem State.setJob_free (s : State) (n : Nat) (x : Job) : (s.setJob n x).free = s.free := rfl
@[simp] theorem State.setJob_etime (s : State) (n : Nat) (x : Job) : (s.setJob n x).etime = s.etime := rfl
@[simp] theorem State.setJob_regs (s : State) (n : Nat) (x : Job) : (s.setJob n x).regs = s.regs := rfl
@[simp] theorem State.setJob_live (s : State) (n : Nat) (x : Job) : (s.setJob n x).live = s.live := rfl
@[simp] theorem State.setJob_hold (s : State) (n : Nat) (x : Job) : (s.setJob n x).hold = s.hold := rfl
@[simp] theorem State.setJob_latch (s : State) (n : Nat) (x : Job) : (s.setJob n x).latch = s.latch := rfl
@[simp] theorem State.setJob_inReset (s : State) (n : Nat) (x : Job) : (s.setJob n x).inReset = s.inReset := rfl
@[simp] theorem State.setJob_isolated (s : State) (n : Nat) (x : Job) : (s.setJob n x).isolated = s.isolated := rfl
@[simp] theorem State.setJob_cores (s : State) (n : Nat) (x : Job) : (s.setJob n x).cores = s.cores := rfl
@[simp] theorem State.setJob_ldr (s : State) (n : Nat) (x : Job) : (s.setJob n x).ldr = s.ldr := rfl
@[simp] theorem State.setJob_loam (s : State) (n : Nat) (x : Job) : (s.setJob n x).loam = s.loam := rfl
@[simp] theorem State.setJob_dma (s : State) (n : Nat) (x : Job) : (s.setJob n x).dma = s.dma := rfl
@[simp] theorem State.setJob_stns (s : State) (n : Nat) (x : Job) : (s.setJob n x).stns = s.stns := rfl
@[simp] theorem State.setJob_lnks (s : State) (n : Nat) (x : Job) : (s.setJob n x).lnks = s.lnks := rfl
@[simp] theorem State.setJob_axes (s : State) (n : Nat) (x : Job) : (s.setJob n x).axes = s.axes := rfl
@[simp] theorem State.setJob_mbx (s : State) (n : Nat) (x : Job) : (s.setJob n x).mbx = s.mbx := rfl
@[simp] theorem State.setJob_pcie (s : State) (n : Nat) (x : Job) : (s.setJob n x).pcie = s.pcie := rfl
@[simp] theorem State.setJob_pth (s : State) (n : Nat) (x : Job) : (s.setJob n x).pth = s.pth := rfl
@[simp] theorem State.setJob_slots (s : State) (n : Nat) (x : Job) : (s.setJob n x).slots = s.slots := rfl
@[simp] theorem State.setJob_fhv (s : State) (n : Nat) (x : Job) : (s.setJob n x).fhv = s.fhv := rfl
@[simp] theorem State.setJob_capture (s : State) (n : Nat) (x : Job) : (s.setJob n x).capture = s.capture := rfl
@[simp] theorem State.setJob_flt (s : State) (n : Nat) (x : Job) : (s.setJob n x).flt = s.flt := rfl
@[simp] theorem State.setJob_csl (s : State) (n : Nat) (x : Job) : (s.setJob n x).csl = s.csl := rfl
@[simp] theorem State.setJob_cal (s : State) (n : Nat) (x : Job) : (s.setJob n x).cal = s.cal := rfl
@[simp] theorem State.setJob_pwr (s : State) (n : Nat) (x : Job) : (s.setJob n x).pwr = s.pwr := rfl
@[simp] theorem State.setJob_fram (s : State) (n : Nat) (x : Job) : (s.setJob n x).fram = s.fram := rfl
@[simp] theorem State.setJob_rst (s : State) (n : Nat) (x : Job) : (s.setJob n x).rst = s.rst := rfl
@[simp] theorem State.setJob_eio (s : State) (n : Nat) (x : Job) : (s.setJob n x).eio = s.eio := rfl
@[simp] theorem State.chan_setJob (s : State) (n m : Nat) (x : Job) : (s.setJob n x).chan m = s.chan m := rfl
@[simp] theorem State.ctx_setJob (s : State) (n m : Nat) (x : Job) : (s.setJob n x).ctx m = s.ctx m := rfl
@[simp] theorem State.band_setJob (s : State) (n m : Nat) (x : Job) : (s.setJob n x).band m = s.band m := rfl
@[simp] theorem State.lane_setJob (s : State) (n m : Nat) (x : Job) : (s.setJob n x).lane m = s.lane m := rfl
@[simp] theorem State.axis_setJob (s : State) (n m : Nat) (x : Job) : (s.setJob n x).axis m = s.axis m := rfl
@[simp] theorem State.slot_setJob (s : State) (n m : Nat) (x : Job) : (s.setJob n x).slot m = s.slot m := rfl
@[simp] theorem State.heater_setJob (s : State) (n m : Nat) (x : Job) : (s.setJob n x).heater m = s.heater m := rfl
@[simp] theorem State.stn_setJob (s : State) (n m : Nat) (x : Job) : (s.setJob n x).stn m = s.stn m := rfl
@[simp] theorem State.lnk_setJob (s : State) (n m : Nat) (x : Job) : (s.setJob n x).lnk m = s.lnk m := rfl
@[simp] theorem State.rd_setJob (s : State) (n : Nat) (x : Job) (f : Fld) (i : Nat) : (s.setJob n x).rd f i = s.rd f i := rfl
@[simp] theorem State.up_setJob (s : State) (n : Nat) (x : Job) (d : Dom) : (s.setJob n x).up d = s.up d := rfl

/-! ### What `setAxis` leaves -/

theorem State.axis_setAxis (s : State) (n m : Nat) (x : Axis) : (s.setAxis n x).axis m = if m = n then x else s.axis m := by
  unfold State.axis State.setAxis; exact Store.get_set ..
@[simp] theorem State.axis_setAxis_same (s : State) (n : Nat) (x : Axis) : (s.setAxis n x).axis n = x := by
  unfold State.axis State.setAxis; exact Store.get_set_same ..
@[simp] theorem State.setAxis_hw (s : State) (n : Nat) (x : Axis) : (s.setAxis n x).hw = s.hw := rfl
@[simp] theorem State.setAxis_fuses (s : State) (n : Nat) (x : Axis) : (s.setAxis n x).fuses = s.fuses := rfl
@[simp] theorem State.setAxis_pending (s : State) (n : Nat) (x : Axis) : (s.setAxis n x).pending = s.pending := rfl
@[simp] theorem State.setAxis_out (s : State) (n : Nat) (x : Axis) : (s.setAxis n x).out = s.out := rfl
@[simp] theorem State.setAxis_free (s : State) (n : Nat) (x : Axis) : (s.setAxis n x).free = s.free := rfl
@[simp] theorem State.setAxis_etime (s : State) (n : Nat) (x : Axis) : (s.setAxis n x).etime = s.etime := rfl
@[simp] theorem State.setAxis_regs (s : State) (n : Nat) (x : Axis) : (s.setAxis n x).regs = s.regs := rfl
@[simp] theorem State.setAxis_live (s : State) (n : Nat) (x : Axis) : (s.setAxis n x).live = s.live := rfl
@[simp] theorem State.setAxis_hold (s : State) (n : Nat) (x : Axis) : (s.setAxis n x).hold = s.hold := rfl
@[simp] theorem State.setAxis_latch (s : State) (n : Nat) (x : Axis) : (s.setAxis n x).latch = s.latch := rfl
@[simp] theorem State.setAxis_inReset (s : State) (n : Nat) (x : Axis) : (s.setAxis n x).inReset = s.inReset := rfl
@[simp] theorem State.setAxis_isolated (s : State) (n : Nat) (x : Axis) : (s.setAxis n x).isolated = s.isolated := rfl
@[simp] theorem State.setAxis_cores (s : State) (n : Nat) (x : Axis) : (s.setAxis n x).cores = s.cores := rfl
@[simp] theorem State.setAxis_ldr (s : State) (n : Nat) (x : Axis) : (s.setAxis n x).ldr = s.ldr := rfl
@[simp] theorem State.setAxis_loam (s : State) (n : Nat) (x : Axis) : (s.setAxis n x).loam = s.loam := rfl
@[simp] theorem State.setAxis_dma (s : State) (n : Nat) (x : Axis) : (s.setAxis n x).dma = s.dma := rfl
@[simp] theorem State.setAxis_cmp (s : State) (n : Nat) (x : Axis) : (s.setAxis n x).cmp = s.cmp := rfl
@[simp] theorem State.setAxis_stns (s : State) (n : Nat) (x : Axis) : (s.setAxis n x).stns = s.stns := rfl
@[simp] theorem State.setAxis_lnks (s : State) (n : Nat) (x : Axis) : (s.setAxis n x).lnks = s.lnks := rfl
@[simp] theorem State.setAxis_mbx (s : State) (n : Nat) (x : Axis) : (s.setAxis n x).mbx = s.mbx := rfl
@[simp] theorem State.setAxis_pcie (s : State) (n : Nat) (x : Axis) : (s.setAxis n x).pcie = s.pcie := rfl
@[simp] theorem State.setAxis_pth (s : State) (n : Nat) (x : Axis) : (s.setAxis n x).pth = s.pth := rfl
@[simp] theorem State.setAxis_slots (s : State) (n : Nat) (x : Axis) : (s.setAxis n x).slots = s.slots := rfl
@[simp] theorem State.setAxis_fhv (s : State) (n : Nat) (x : Axis) : (s.setAxis n x).fhv = s.fhv := rfl
@[simp] theorem State.setAxis_capture (s : State) (n : Nat) (x : Axis) : (s.setAxis n x).capture = s.capture := rfl
@[simp] theorem State.setAxis_flt (s : State) (n : Nat) (x : Axis) : (s.setAxis n x).flt = s.flt := rfl
@[simp] theorem State.setAxis_csl (s : State) (n : Nat) (x : Axis) : (s.setAxis n x).csl = s.csl := rfl
@[simp] theorem State.setAxis_cal (s : State) (n : Nat) (x : Axis) : (s.setAxis n x).cal = s.cal := rfl
@[simp] theorem State.setAxis_pwr (s : State) (n : Nat) (x : Axis) : (s.setAxis n x).pwr = s.pwr := rfl
@[simp] theorem State.setAxis_fram (s : State) (n : Nat) (x : Axis) : (s.setAxis n x).fram = s.fram := rfl
@[simp] theorem State.setAxis_rst (s : State) (n : Nat) (x : Axis) : (s.setAxis n x).rst = s.rst := rfl
@[simp] theorem State.setAxis_eio (s : State) (n : Nat) (x : Axis) : (s.setAxis n x).eio = s.eio := rfl
@[simp] theorem State.chan_setAxis (s : State) (n m : Nat) (x : Axis) : (s.setAxis n x).chan m = s.chan m := rfl
@[simp] theorem State.ctx_setAxis (s : State) (n m : Nat) (x : Axis) : (s.setAxis n x).ctx m = s.ctx m := rfl
@[simp] theorem State.band_setAxis (s : State) (n m : Nat) (x : Axis) : (s.setAxis n x).band m = s.band m := rfl
@[simp] theorem State.lane_setAxis (s : State) (n m : Nat) (x : Axis) : (s.setAxis n x).lane m = s.lane m := rfl
@[simp] theorem State.job_setAxis (s : State) (n m : Nat) (x : Axis) : (s.setAxis n x).job m = s.job m := rfl
@[simp] theorem State.slot_setAxis (s : State) (n m : Nat) (x : Axis) : (s.setAxis n x).slot m = s.slot m := rfl
@[simp] theorem State.heater_setAxis (s : State) (n m : Nat) (x : Axis) : (s.setAxis n x).heater m = s.heater m := rfl
@[simp] theorem State.stn_setAxis (s : State) (n m : Nat) (x : Axis) : (s.setAxis n x).stn m = s.stn m := rfl
@[simp] theorem State.lnk_setAxis (s : State) (n m : Nat) (x : Axis) : (s.setAxis n x).lnk m = s.lnk m := rfl
@[simp] theorem State.rd_setAxis (s : State) (n : Nat) (x : Axis) (f : Fld) (i : Nat) : (s.setAxis n x).rd f i = s.rd f i := rfl
@[simp] theorem State.up_setAxis (s : State) (n : Nat) (x : Axis) (d : Dom) : (s.setAxis n x).up d = s.up d := rfl

/-! ### What `setSlot` leaves -/

theorem State.slot_setSlot (s : State) (n m : Nat) (x : Slot) : (s.setSlot n x).slot m = if m = n then x else s.slot m := by
  unfold State.slot State.setSlot; exact Store.get_set ..
@[simp] theorem State.slot_setSlot_same (s : State) (n : Nat) (x : Slot) : (s.setSlot n x).slot n = x := by
  unfold State.slot State.setSlot; exact Store.get_set_same ..
@[simp] theorem State.setSlot_hw (s : State) (n : Nat) (x : Slot) : (s.setSlot n x).hw = s.hw := rfl
@[simp] theorem State.setSlot_fuses (s : State) (n : Nat) (x : Slot) : (s.setSlot n x).fuses = s.fuses := rfl
@[simp] theorem State.setSlot_pending (s : State) (n : Nat) (x : Slot) : (s.setSlot n x).pending = s.pending := rfl
@[simp] theorem State.setSlot_out (s : State) (n : Nat) (x : Slot) : (s.setSlot n x).out = s.out := rfl
@[simp] theorem State.setSlot_free (s : State) (n : Nat) (x : Slot) : (s.setSlot n x).free = s.free := rfl
@[simp] theorem State.setSlot_etime (s : State) (n : Nat) (x : Slot) : (s.setSlot n x).etime = s.etime := rfl
@[simp] theorem State.setSlot_regs (s : State) (n : Nat) (x : Slot) : (s.setSlot n x).regs = s.regs := rfl
@[simp] theorem State.setSlot_live (s : State) (n : Nat) (x : Slot) : (s.setSlot n x).live = s.live := rfl
@[simp] theorem State.setSlot_hold (s : State) (n : Nat) (x : Slot) : (s.setSlot n x).hold = s.hold := rfl
@[simp] theorem State.setSlot_latch (s : State) (n : Nat) (x : Slot) : (s.setSlot n x).latch = s.latch := rfl
@[simp] theorem State.setSlot_inReset (s : State) (n : Nat) (x : Slot) : (s.setSlot n x).inReset = s.inReset := rfl
@[simp] theorem State.setSlot_isolated (s : State) (n : Nat) (x : Slot) : (s.setSlot n x).isolated = s.isolated := rfl
@[simp] theorem State.setSlot_cores (s : State) (n : Nat) (x : Slot) : (s.setSlot n x).cores = s.cores := rfl
@[simp] theorem State.setSlot_ldr (s : State) (n : Nat) (x : Slot) : (s.setSlot n x).ldr = s.ldr := rfl
@[simp] theorem State.setSlot_loam (s : State) (n : Nat) (x : Slot) : (s.setSlot n x).loam = s.loam := rfl
@[simp] theorem State.setSlot_dma (s : State) (n : Nat) (x : Slot) : (s.setSlot n x).dma = s.dma := rfl
@[simp] theorem State.setSlot_cmp (s : State) (n : Nat) (x : Slot) : (s.setSlot n x).cmp = s.cmp := rfl
@[simp] theorem State.setSlot_stns (s : State) (n : Nat) (x : Slot) : (s.setSlot n x).stns = s.stns := rfl
@[simp] theorem State.setSlot_lnks (s : State) (n : Nat) (x : Slot) : (s.setSlot n x).lnks = s.lnks := rfl
@[simp] theorem State.setSlot_axes (s : State) (n : Nat) (x : Slot) : (s.setSlot n x).axes = s.axes := rfl
@[simp] theorem State.setSlot_mbx (s : State) (n : Nat) (x : Slot) : (s.setSlot n x).mbx = s.mbx := rfl
@[simp] theorem State.setSlot_pcie (s : State) (n : Nat) (x : Slot) : (s.setSlot n x).pcie = s.pcie := rfl
@[simp] theorem State.setSlot_pth (s : State) (n : Nat) (x : Slot) : (s.setSlot n x).pth = s.pth := rfl
@[simp] theorem State.setSlot_fhv (s : State) (n : Nat) (x : Slot) : (s.setSlot n x).fhv = s.fhv := rfl
@[simp] theorem State.setSlot_capture (s : State) (n : Nat) (x : Slot) : (s.setSlot n x).capture = s.capture := rfl
@[simp] theorem State.setSlot_flt (s : State) (n : Nat) (x : Slot) : (s.setSlot n x).flt = s.flt := rfl
@[simp] theorem State.setSlot_csl (s : State) (n : Nat) (x : Slot) : (s.setSlot n x).csl = s.csl := rfl
@[simp] theorem State.setSlot_cal (s : State) (n : Nat) (x : Slot) : (s.setSlot n x).cal = s.cal := rfl
@[simp] theorem State.setSlot_pwr (s : State) (n : Nat) (x : Slot) : (s.setSlot n x).pwr = s.pwr := rfl
@[simp] theorem State.setSlot_fram (s : State) (n : Nat) (x : Slot) : (s.setSlot n x).fram = s.fram := rfl
@[simp] theorem State.setSlot_rst (s : State) (n : Nat) (x : Slot) : (s.setSlot n x).rst = s.rst := rfl
@[simp] theorem State.setSlot_eio (s : State) (n : Nat) (x : Slot) : (s.setSlot n x).eio = s.eio := rfl
@[simp] theorem State.chan_setSlot (s : State) (n m : Nat) (x : Slot) : (s.setSlot n x).chan m = s.chan m := rfl
@[simp] theorem State.ctx_setSlot (s : State) (n m : Nat) (x : Slot) : (s.setSlot n x).ctx m = s.ctx m := rfl
@[simp] theorem State.band_setSlot (s : State) (n m : Nat) (x : Slot) : (s.setSlot n x).band m = s.band m := rfl
@[simp] theorem State.lane_setSlot (s : State) (n m : Nat) (x : Slot) : (s.setSlot n x).lane m = s.lane m := rfl
@[simp] theorem State.job_setSlot (s : State) (n m : Nat) (x : Slot) : (s.setSlot n x).job m = s.job m := rfl
@[simp] theorem State.axis_setSlot (s : State) (n m : Nat) (x : Slot) : (s.setSlot n x).axis m = s.axis m := rfl
@[simp] theorem State.heater_setSlot (s : State) (n m : Nat) (x : Slot) : (s.setSlot n x).heater m = s.heater m := rfl
@[simp] theorem State.stn_setSlot (s : State) (n m : Nat) (x : Slot) : (s.setSlot n x).stn m = s.stn m := rfl
@[simp] theorem State.lnk_setSlot (s : State) (n m : Nat) (x : Slot) : (s.setSlot n x).lnk m = s.lnk m := rfl
@[simp] theorem State.rd_setSlot (s : State) (n : Nat) (x : Slot) (f : Fld) (i : Nat) : (s.setSlot n x).rd f i = s.rd f i := rfl
@[simp] theorem State.up_setSlot (s : State) (n : Nat) (x : Slot) (d : Dom) : (s.setSlot n x).up d = s.up d := rfl

/-! ### What `setHeater` leaves -/

theorem State.heater_setHeater (s : State) (n m : Nat) (x : Heater) : (s.setHeater n x).heater m = if m = n then x else s.heater m := by
  unfold State.heater State.setHeater; exact Store.get_set ..
@[simp] theorem State.heater_setHeater_same (s : State) (n : Nat) (x : Heater) : (s.setHeater n x).heater n = x := by
  unfold State.heater State.setHeater; exact Store.get_set_same ..
@[simp] theorem State.setHeater_hw (s : State) (n : Nat) (x : Heater) : (s.setHeater n x).hw = s.hw := rfl
@[simp] theorem State.setHeater_fuses (s : State) (n : Nat) (x : Heater) : (s.setHeater n x).fuses = s.fuses := rfl
@[simp] theorem State.setHeater_pending (s : State) (n : Nat) (x : Heater) : (s.setHeater n x).pending = s.pending := rfl
@[simp] theorem State.setHeater_out (s : State) (n : Nat) (x : Heater) : (s.setHeater n x).out = s.out := rfl
@[simp] theorem State.setHeater_free (s : State) (n : Nat) (x : Heater) : (s.setHeater n x).free = s.free := rfl
@[simp] theorem State.setHeater_etime (s : State) (n : Nat) (x : Heater) : (s.setHeater n x).etime = s.etime := rfl
@[simp] theorem State.setHeater_regs (s : State) (n : Nat) (x : Heater) : (s.setHeater n x).regs = s.regs := rfl
@[simp] theorem State.setHeater_live (s : State) (n : Nat) (x : Heater) : (s.setHeater n x).live = s.live := rfl
@[simp] theorem State.setHeater_hold (s : State) (n : Nat) (x : Heater) : (s.setHeater n x).hold = s.hold := rfl
@[simp] theorem State.setHeater_latch (s : State) (n : Nat) (x : Heater) : (s.setHeater n x).latch = s.latch := rfl
@[simp] theorem State.setHeater_inReset (s : State) (n : Nat) (x : Heater) : (s.setHeater n x).inReset = s.inReset := rfl
@[simp] theorem State.setHeater_isolated (s : State) (n : Nat) (x : Heater) : (s.setHeater n x).isolated = s.isolated := rfl
@[simp] theorem State.setHeater_cores (s : State) (n : Nat) (x : Heater) : (s.setHeater n x).cores = s.cores := rfl
@[simp] theorem State.setHeater_ldr (s : State) (n : Nat) (x : Heater) : (s.setHeater n x).ldr = s.ldr := rfl
@[simp] theorem State.setHeater_loam (s : State) (n : Nat) (x : Heater) : (s.setHeater n x).loam = s.loam := rfl
@[simp] theorem State.setHeater_dma (s : State) (n : Nat) (x : Heater) : (s.setHeater n x).dma = s.dma := rfl
@[simp] theorem State.setHeater_cmp (s : State) (n : Nat) (x : Heater) : (s.setHeater n x).cmp = s.cmp := rfl
@[simp] theorem State.setHeater_stns (s : State) (n : Nat) (x : Heater) : (s.setHeater n x).stns = s.stns := rfl
@[simp] theorem State.setHeater_lnks (s : State) (n : Nat) (x : Heater) : (s.setHeater n x).lnks = s.lnks := rfl
@[simp] theorem State.setHeater_axes (s : State) (n : Nat) (x : Heater) : (s.setHeater n x).axes = s.axes := rfl
@[simp] theorem State.setHeater_mbx (s : State) (n : Nat) (x : Heater) : (s.setHeater n x).mbx = s.mbx := rfl
@[simp] theorem State.setHeater_pcie (s : State) (n : Nat) (x : Heater) : (s.setHeater n x).pcie = s.pcie := rfl
@[simp] theorem State.setHeater_pth (s : State) (n : Nat) (x : Heater) : (s.setHeater n x).pth = s.pth := rfl
@[simp] theorem State.setHeater_slots (s : State) (n : Nat) (x : Heater) : (s.setHeater n x).slots = s.slots := rfl
@[simp] theorem State.setHeater_capture (s : State) (n : Nat) (x : Heater) : (s.setHeater n x).capture = s.capture := rfl
@[simp] theorem State.setHeater_flt (s : State) (n : Nat) (x : Heater) : (s.setHeater n x).flt = s.flt := rfl
@[simp] theorem State.setHeater_csl (s : State) (n : Nat) (x : Heater) : (s.setHeater n x).csl = s.csl := rfl
@[simp] theorem State.setHeater_cal (s : State) (n : Nat) (x : Heater) : (s.setHeater n x).cal = s.cal := rfl
@[simp] theorem State.setHeater_pwr (s : State) (n : Nat) (x : Heater) : (s.setHeater n x).pwr = s.pwr := rfl
@[simp] theorem State.setHeater_fram (s : State) (n : Nat) (x : Heater) : (s.setHeater n x).fram = s.fram := rfl
@[simp] theorem State.setHeater_rst (s : State) (n : Nat) (x : Heater) : (s.setHeater n x).rst = s.rst := rfl
@[simp] theorem State.setHeater_eio (s : State) (n : Nat) (x : Heater) : (s.setHeater n x).eio = s.eio := rfl
@[simp] theorem State.chan_setHeater (s : State) (n m : Nat) (x : Heater) : (s.setHeater n x).chan m = s.chan m := rfl
@[simp] theorem State.ctx_setHeater (s : State) (n m : Nat) (x : Heater) : (s.setHeater n x).ctx m = s.ctx m := rfl
@[simp] theorem State.band_setHeater (s : State) (n m : Nat) (x : Heater) : (s.setHeater n x).band m = s.band m := rfl
@[simp] theorem State.lane_setHeater (s : State) (n m : Nat) (x : Heater) : (s.setHeater n x).lane m = s.lane m := rfl
@[simp] theorem State.job_setHeater (s : State) (n m : Nat) (x : Heater) : (s.setHeater n x).job m = s.job m := rfl
@[simp] theorem State.axis_setHeater (s : State) (n m : Nat) (x : Heater) : (s.setHeater n x).axis m = s.axis m := rfl
@[simp] theorem State.slot_setHeater (s : State) (n m : Nat) (x : Heater) : (s.setHeater n x).slot m = s.slot m := rfl
@[simp] theorem State.stn_setHeater (s : State) (n m : Nat) (x : Heater) : (s.setHeater n x).stn m = s.stn m := rfl
@[simp] theorem State.lnk_setHeater (s : State) (n m : Nat) (x : Heater) : (s.setHeater n x).lnk m = s.lnk m := rfl
@[simp] theorem State.rd_setHeater (s : State) (n : Nat) (x : Heater) (f : Fld) (i : Nat) : (s.setHeater n x).rd f i = s.rd f i := rfl
@[simp] theorem State.up_setHeater (s : State) (n : Nat) (x : Heater) (d : Dom) : (s.setHeater n x).up d = s.up d := rfl

/-! ### What `setStn` leaves -/

theorem State.stn_setStn (s : State) (n m : Nat) (x : Stn) : (s.setStn n x).stn m = if m = n then x else s.stn m := by
  unfold State.stn State.setStn; exact Store.get_set ..
@[simp] theorem State.stn_setStn_same (s : State) (n : Nat) (x : Stn) : (s.setStn n x).stn n = x := by
  unfold State.stn State.setStn; exact Store.get_set_same ..
@[simp] theorem State.setStn_hw (s : State) (n : Nat) (x : Stn) : (s.setStn n x).hw = s.hw := rfl
@[simp] theorem State.setStn_fuses (s : State) (n : Nat) (x : Stn) : (s.setStn n x).fuses = s.fuses := rfl
@[simp] theorem State.setStn_pending (s : State) (n : Nat) (x : Stn) : (s.setStn n x).pending = s.pending := rfl
@[simp] theorem State.setStn_out (s : State) (n : Nat) (x : Stn) : (s.setStn n x).out = s.out := rfl
@[simp] theorem State.setStn_free (s : State) (n : Nat) (x : Stn) : (s.setStn n x).free = s.free := rfl
@[simp] theorem State.setStn_etime (s : State) (n : Nat) (x : Stn) : (s.setStn n x).etime = s.etime := rfl
@[simp] theorem State.setStn_regs (s : State) (n : Nat) (x : Stn) : (s.setStn n x).regs = s.regs := rfl
@[simp] theorem State.setStn_live (s : State) (n : Nat) (x : Stn) : (s.setStn n x).live = s.live := rfl
@[simp] theorem State.setStn_hold (s : State) (n : Nat) (x : Stn) : (s.setStn n x).hold = s.hold := rfl
@[simp] theorem State.setStn_latch (s : State) (n : Nat) (x : Stn) : (s.setStn n x).latch = s.latch := rfl
@[simp] theorem State.setStn_inReset (s : State) (n : Nat) (x : Stn) : (s.setStn n x).inReset = s.inReset := rfl
@[simp] theorem State.setStn_isolated (s : State) (n : Nat) (x : Stn) : (s.setStn n x).isolated = s.isolated := rfl
@[simp] theorem State.setStn_cores (s : State) (n : Nat) (x : Stn) : (s.setStn n x).cores = s.cores := rfl
@[simp] theorem State.setStn_ldr (s : State) (n : Nat) (x : Stn) : (s.setStn n x).ldr = s.ldr := rfl
@[simp] theorem State.setStn_loam (s : State) (n : Nat) (x : Stn) : (s.setStn n x).loam = s.loam := rfl
@[simp] theorem State.setStn_dma (s : State) (n : Nat) (x : Stn) : (s.setStn n x).dma = s.dma := rfl
@[simp] theorem State.setStn_cmp (s : State) (n : Nat) (x : Stn) : (s.setStn n x).cmp = s.cmp := rfl
@[simp] theorem State.setStn_lnks (s : State) (n : Nat) (x : Stn) : (s.setStn n x).lnks = s.lnks := rfl
@[simp] theorem State.setStn_axes (s : State) (n : Nat) (x : Stn) : (s.setStn n x).axes = s.axes := rfl
@[simp] theorem State.setStn_mbx (s : State) (n : Nat) (x : Stn) : (s.setStn n x).mbx = s.mbx := rfl
@[simp] theorem State.setStn_pcie (s : State) (n : Nat) (x : Stn) : (s.setStn n x).pcie = s.pcie := rfl
@[simp] theorem State.setStn_pth (s : State) (n : Nat) (x : Stn) : (s.setStn n x).pth = s.pth := rfl
@[simp] theorem State.setStn_slots (s : State) (n : Nat) (x : Stn) : (s.setStn n x).slots = s.slots := rfl
@[simp] theorem State.setStn_fhv (s : State) (n : Nat) (x : Stn) : (s.setStn n x).fhv = s.fhv := rfl
@[simp] theorem State.setStn_capture (s : State) (n : Nat) (x : Stn) : (s.setStn n x).capture = s.capture := rfl
@[simp] theorem State.setStn_flt (s : State) (n : Nat) (x : Stn) : (s.setStn n x).flt = s.flt := rfl
@[simp] theorem State.setStn_csl (s : State) (n : Nat) (x : Stn) : (s.setStn n x).csl = s.csl := rfl
@[simp] theorem State.setStn_cal (s : State) (n : Nat) (x : Stn) : (s.setStn n x).cal = s.cal := rfl
@[simp] theorem State.setStn_pwr (s : State) (n : Nat) (x : Stn) : (s.setStn n x).pwr = s.pwr := rfl
@[simp] theorem State.setStn_fram (s : State) (n : Nat) (x : Stn) : (s.setStn n x).fram = s.fram := rfl
@[simp] theorem State.setStn_rst (s : State) (n : Nat) (x : Stn) : (s.setStn n x).rst = s.rst := rfl
@[simp] theorem State.setStn_eio (s : State) (n : Nat) (x : Stn) : (s.setStn n x).eio = s.eio := rfl
@[simp] theorem State.chan_setStn (s : State) (n m : Nat) (x : Stn) : (s.setStn n x).chan m = s.chan m := rfl
@[simp] theorem State.ctx_setStn (s : State) (n m : Nat) (x : Stn) : (s.setStn n x).ctx m = s.ctx m := rfl
@[simp] theorem State.band_setStn (s : State) (n m : Nat) (x : Stn) : (s.setStn n x).band m = s.band m := rfl
@[simp] theorem State.lane_setStn (s : State) (n m : Nat) (x : Stn) : (s.setStn n x).lane m = s.lane m := rfl
@[simp] theorem State.job_setStn (s : State) (n m : Nat) (x : Stn) : (s.setStn n x).job m = s.job m := rfl
@[simp] theorem State.axis_setStn (s : State) (n m : Nat) (x : Stn) : (s.setStn n x).axis m = s.axis m := rfl
@[simp] theorem State.slot_setStn (s : State) (n m : Nat) (x : Stn) : (s.setStn n x).slot m = s.slot m := rfl
@[simp] theorem State.heater_setStn (s : State) (n m : Nat) (x : Stn) : (s.setStn n x).heater m = s.heater m := rfl
@[simp] theorem State.lnk_setStn (s : State) (n m : Nat) (x : Stn) : (s.setStn n x).lnk m = s.lnk m := rfl
@[simp] theorem State.rd_setStn (s : State) (n : Nat) (x : Stn) (f : Fld) (i : Nat) : (s.setStn n x).rd f i = s.rd f i := rfl
@[simp] theorem State.up_setStn (s : State) (n : Nat) (x : Stn) (d : Dom) : (s.setStn n x).up d = s.up d := rfl

/-! ### What `setLnk` leaves -/

theorem State.lnk_setLnk (s : State) (n m : Nat) (x : Lnk) : (s.setLnk n x).lnk m = if m = n then x else s.lnk m := by
  unfold State.lnk State.setLnk; exact Store.get_set ..
@[simp] theorem State.lnk_setLnk_same (s : State) (n : Nat) (x : Lnk) : (s.setLnk n x).lnk n = x := by
  unfold State.lnk State.setLnk; exact Store.get_set_same ..
@[simp] theorem State.setLnk_hw (s : State) (n : Nat) (x : Lnk) : (s.setLnk n x).hw = s.hw := rfl
@[simp] theorem State.setLnk_fuses (s : State) (n : Nat) (x : Lnk) : (s.setLnk n x).fuses = s.fuses := rfl
@[simp] theorem State.setLnk_pending (s : State) (n : Nat) (x : Lnk) : (s.setLnk n x).pending = s.pending := rfl
@[simp] theorem State.setLnk_out (s : State) (n : Nat) (x : Lnk) : (s.setLnk n x).out = s.out := rfl
@[simp] theorem State.setLnk_free (s : State) (n : Nat) (x : Lnk) : (s.setLnk n x).free = s.free := rfl
@[simp] theorem State.setLnk_etime (s : State) (n : Nat) (x : Lnk) : (s.setLnk n x).etime = s.etime := rfl
@[simp] theorem State.setLnk_regs (s : State) (n : Nat) (x : Lnk) : (s.setLnk n x).regs = s.regs := rfl
@[simp] theorem State.setLnk_live (s : State) (n : Nat) (x : Lnk) : (s.setLnk n x).live = s.live := rfl
@[simp] theorem State.setLnk_hold (s : State) (n : Nat) (x : Lnk) : (s.setLnk n x).hold = s.hold := rfl
@[simp] theorem State.setLnk_latch (s : State) (n : Nat) (x : Lnk) : (s.setLnk n x).latch = s.latch := rfl
@[simp] theorem State.setLnk_inReset (s : State) (n : Nat) (x : Lnk) : (s.setLnk n x).inReset = s.inReset := rfl
@[simp] theorem State.setLnk_isolated (s : State) (n : Nat) (x : Lnk) : (s.setLnk n x).isolated = s.isolated := rfl
@[simp] theorem State.setLnk_cores (s : State) (n : Nat) (x : Lnk) : (s.setLnk n x).cores = s.cores := rfl
@[simp] theorem State.setLnk_ldr (s : State) (n : Nat) (x : Lnk) : (s.setLnk n x).ldr = s.ldr := rfl
@[simp] theorem State.setLnk_loam (s : State) (n : Nat) (x : Lnk) : (s.setLnk n x).loam = s.loam := rfl
@[simp] theorem State.setLnk_dma (s : State) (n : Nat) (x : Lnk) : (s.setLnk n x).dma = s.dma := rfl
@[simp] theorem State.setLnk_cmp (s : State) (n : Nat) (x : Lnk) : (s.setLnk n x).cmp = s.cmp := rfl
@[simp] theorem State.setLnk_stns (s : State) (n : Nat) (x : Lnk) : (s.setLnk n x).stns = s.stns := rfl
@[simp] theorem State.setLnk_axes (s : State) (n : Nat) (x : Lnk) : (s.setLnk n x).axes = s.axes := rfl
@[simp] theorem State.setLnk_mbx (s : State) (n : Nat) (x : Lnk) : (s.setLnk n x).mbx = s.mbx := rfl
@[simp] theorem State.setLnk_pcie (s : State) (n : Nat) (x : Lnk) : (s.setLnk n x).pcie = s.pcie := rfl
@[simp] theorem State.setLnk_pth (s : State) (n : Nat) (x : Lnk) : (s.setLnk n x).pth = s.pth := rfl
@[simp] theorem State.setLnk_slots (s : State) (n : Nat) (x : Lnk) : (s.setLnk n x).slots = s.slots := rfl
@[simp] theorem State.setLnk_fhv (s : State) (n : Nat) (x : Lnk) : (s.setLnk n x).fhv = s.fhv := rfl
@[simp] theorem State.setLnk_capture (s : State) (n : Nat) (x : Lnk) : (s.setLnk n x).capture = s.capture := rfl
@[simp] theorem State.setLnk_flt (s : State) (n : Nat) (x : Lnk) : (s.setLnk n x).flt = s.flt := rfl
@[simp] theorem State.setLnk_csl (s : State) (n : Nat) (x : Lnk) : (s.setLnk n x).csl = s.csl := rfl
@[simp] theorem State.setLnk_cal (s : State) (n : Nat) (x : Lnk) : (s.setLnk n x).cal = s.cal := rfl
@[simp] theorem State.setLnk_pwr (s : State) (n : Nat) (x : Lnk) : (s.setLnk n x).pwr = s.pwr := rfl
@[simp] theorem State.setLnk_fram (s : State) (n : Nat) (x : Lnk) : (s.setLnk n x).fram = s.fram := rfl
@[simp] theorem State.setLnk_rst (s : State) (n : Nat) (x : Lnk) : (s.setLnk n x).rst = s.rst := rfl
@[simp] theorem State.setLnk_eio (s : State) (n : Nat) (x : Lnk) : (s.setLnk n x).eio = s.eio := rfl
@[simp] theorem State.chan_setLnk (s : State) (n m : Nat) (x : Lnk) : (s.setLnk n x).chan m = s.chan m := rfl
@[simp] theorem State.ctx_setLnk (s : State) (n m : Nat) (x : Lnk) : (s.setLnk n x).ctx m = s.ctx m := rfl
@[simp] theorem State.band_setLnk (s : State) (n m : Nat) (x : Lnk) : (s.setLnk n x).band m = s.band m := rfl
@[simp] theorem State.lane_setLnk (s : State) (n m : Nat) (x : Lnk) : (s.setLnk n x).lane m = s.lane m := rfl
@[simp] theorem State.job_setLnk (s : State) (n m : Nat) (x : Lnk) : (s.setLnk n x).job m = s.job m := rfl
@[simp] theorem State.axis_setLnk (s : State) (n m : Nat) (x : Lnk) : (s.setLnk n x).axis m = s.axis m := rfl
@[simp] theorem State.slot_setLnk (s : State) (n m : Nat) (x : Lnk) : (s.setLnk n x).slot m = s.slot m := rfl
@[simp] theorem State.heater_setLnk (s : State) (n m : Nat) (x : Lnk) : (s.setLnk n x).heater m = s.heater m := rfl
@[simp] theorem State.stn_setLnk (s : State) (n m : Nat) (x : Lnk) : (s.setLnk n x).stn m = s.stn m := rfl
@[simp] theorem State.rd_setLnk (s : State) (n : Nat) (x : Lnk) (f : Fld) (i : Nat) : (s.setLnk n x).rd f i = s.rd f i := rfl
@[simp] theorem State.up_setLnk (s : State) (n : Nat) (x : Lnk) (d : Dom) : (s.setLnk n x).up d = s.up d := rfl

end Sys2Proof.Machine
end

