-- ==== Sys2Proof/Laws/Ops.lean ====
section
/-! SUPPORT. What each named operation can do, once for all its callers. -/

namespace Sys2Proof.Machine

open Sys2Proof

theorem guardWF_true (s : State) : guardWF true s = .next s := rfl

/-- A host write that reaches its block has its effect. -/
theorem State.hostWrite_of_reaches {s : State} {b : Block} {k : Nat} (h : s.Reaches b k) (f : State → State) :
    s.hostWrite b k f = f s := by
  obtain ⟨h1, h2, h3⟩ := h
  unfold State.hostWrite
  rw [h1]
  by_cases ha : s.ldr.st = .applying
  · simp [ha, h3 ha, h2]
  · have : (s.ldr.st == LdrState.applying) = false := by simpa using ha
    simp [this, h2]

/-- The island of a block outside BTU and BLK is up when a write reaches it. -/
theorem State.Reaches.up {s : State} {b : Block} {k : Nat} (h : s.Reaches b k) (h1 : b ≠ .btu) (h2 : b ≠ .blk) :
    s.up b.dom = true := by
  have := h.block
  unfold State.blockUp at this
  cases b <;> first | exact this | exact absurd rfl h1 | exact absurd rfl h2

/-! ### Messages -/

theorem State.msix_eq (s : State) (v : Nat) : ∃ o p, s.msix v = { s with out := o, pcie := p } := by
  unfold State.msix
  split
  · exact ⟨s.out, s.pcie, rfl⟩
  · split
    · exact ⟨_, s.pcie, rfl⟩
    · split
      · exact ⟨s.out, s.pcie, rfl⟩
      · exact ⟨s.out, _, rfl⟩

theorem State.globalIrq_eq (s : State) (en : GlbF) : ∃ o p, s.globalIrq en = { s with out := o, pcie := p } := by
  unfold State.globalIrq
  split
  · exact State.msix_eq s _
  · exact ⟨s.out, s.pcie, rfl⟩

@[simp] theorem State.rd_msix (s : State) (v : Nat) (f : Fld) (i : Nat) : (s.msix v).rd f i = s.rd f i := by
  obtain ⟨o, p, h⟩ := State.msix_eq s v; rw [h]; rfl
@[simp] theorem State.rd_globalIrq (s : State) (en : GlbF) (f : Fld) (i : Nat) : (s.globalIrq en).rd f i = s.rd f i := by
  obtain ⟨o, p, h⟩ := State.globalIrq_eq s en; rw [h]; rfl
@[simp] theorem State.rd_closeDecision (s : State) (k u : Nat) (f : Fld) (i : Nat) : (s.closeDecision k u).rd f i = s.rd f i := rfl
@[simp] theorem State.rd_setLoader (s : State) (l : Loader) (f : Fld) (i : Nat) : ({ s with ldr := l } : State).rd f i = s.rd f i := rfl

/-- A refused host write sets ACCESS_DENIED and changes no other field (R7). -/
theorem State.rd_deny (s : State) (f : Fld) (i : Nat) :
    s.deny.rd f i = if f = .glb .accessDenied ∧ i = 0 then 1 else s.rd f i := by
  unfold State.deny
  rw [State.rd_globalIrq, State.ev_eq, State.rd_wr]
  by_cases h : f = .glb .accessDenied ∧ i = 0
  · rw [if_pos h, if_pos ⟨h.1, h.2, rfl⟩]; rfl
  · rw [if_neg h, if_neg fun g => h ⟨g.1, g.2.1⟩]

end Sys2Proof.Machine
end

