-- ==== Sys2Proof/Tests/Slice0.lean ====
section
/-! SUPPORT. The package's own tests: commands that cannot reach a module are refused; the spec's worked examples; and, for every
statement that has hypotheses, a state and operands that meet them, clause by clause. -/

namespace Sys2Proof.Tests

open Sys2Proof Sys2Proof.Machine

set_option Elab.async false

/-! ### Small states -/

/-- Every domain is out of reset and the PCIe link is up. -/
def live : State := { State.reset with inReset := [], pcie := { linkUp := true } }

/-- An image state. -/
def State.atLdr (s : State) (x : LdrState) : State := { s with ldr := { s.ldr with st := x } }

/-- An image is LOADED. -/
def loaded : State := State.atLdr live .loaded

/-- The engine is ARMED. -/
def armed : State := State.atLdr live .armed

/-- One sheet context in a state. -/
def withCtx (st : CtxState) : State := loaded.setCtx 255 { st := st, lineBytes := 1, seq := 7 }

/-- A slice of a field. -/
def slice (f : Fld) (i : Nat) : Slice := { fld := f, idx := i, lsb := 0 }

/-- The first bytes of a descriptor of a kind. -/
def desc (kind length arg0 arg1 : Nat) : Desc :=
  { kind := kind, swap := 0, irq := false, repair := false, length := length, hostAddr := 0, arg0 := arg0, arg1 := arg1, check := 0 }

/-- One post on a station, with its decision open. -/
def asked (kind unit : Nat) : State :=
  { loaded with mbx := { decisions := [{ pair := 15, token := 65535, kind := kind, unit := unit, data := [3] }] } }

/-- A waiting post. -/
def waiting (kind : Nat) : State :=
  { loaded.wr (.mbx .route) kind 15 with mbx := { waiting := [{ kind := kind, unit := 3, data := [1] }] } }

/-- An MSI-X vector is masked with its pending bit set. -/
def msixMasked : State := { live with pcie := { live.pcie with msixEnable := true, pendingBits := [255] } }

/-- A fuse command runs. -/
def fusing (j : FuseCmd) : State := { live with ldr := { live.ldr with fuseCmd := some j } }

/-- A source is being verified. -/
def verifying : State := { State.atLdr live .verifying with ldr := { st := .verifying, source := 1, mayFallBack := true } }

/-- The engine can be armed. -/
def ready : State := (loaded.wr (.cal .puDone) 0 1).wr (.pwr .allQual) 0 1

/-- The engine is armed and context 255 stands at the head of the queue. -/
def gateOpen (st : CtxState) : State :=
  { armed with loam := { request := true, ctxs := [(255, { st := st, queued := true, planes := 1, lineBytes := 1 })] } }

/-- The stream of a band of one byte, 0x55 (R103 to R111), and its cells in the page store. -/
def stream : List Byte :=
  [76, 79, 69, 83, 1, 0, 1, 0, 1, 0, 0, 0, 1, 0, 0, 0, 2, 1, 0, 0, 1, 0, 0, 0, 85, 1, 0, 0, 0, 158, 157, 169, 54]
def streamCells : List Host.Cell := (stream.zipIdx.filter fun p => p.1 != 0).map fun p => (p.2, p.1)

/-- A page store with one band and one context. -/
def store (b : Band) (x : Ctx) : State := { loaded with loam := { bytes := streamCells, bands := [(131071, b)], ctxs := [(255, x)] } }

/-- Station 7 reads band 4095 of context 255. -/
def reading : State :=
  { store { st := .verified, ctx := 255, plane := 7, band := 4095 } { st := .imaging, planes := 128, lineBytes := 1 } with
    stns := [(7, { queue := [{ ctx := 255 }] })] }

/-- Channel 31 runs. -/
def channel (c : Chan) : State := (live.wr (.dma .state) 31 1).setChan 31 c

/-- Channel 31 has a descriptor to fetch. -/
def fetching : State := ((channel {}).wr (.dma .tail) 31 1).wr (.dma .kinds) 31 31

/-- Buffer engine `n` in a job state. -/
def engine (n st : Nat) (j : Job) : State := ((live.wr (.cmp .emode) n 1).wr (.cmp .jState) n st).setJob n j

/-- Zeros. -/
def zeros (n : Nat) : List Byte := List.replicate n 0

/-- Station 7 has seen a start of scan at time 0. -/
def scanning (locked : Bool) : State :=
  ((live.setStn 7 { sos := some 0 }).wrB (.btu .flock) 7 locked).wrB (.btu .synLock) 7 locked

/-- The link of station 7 in a state. -/
def linkAt (st : Nat) : State := live.wr (.blk .lstate) 7 st

/-- A word of a head, with its CRC. -/
def headWord (body : List Byte) : List Byte :=
  let b := body ++ zeros (52 - body.length)
  b ++ (leBytes (crc32c b) 4).map fun n => BitVec.ofNat 8 n

/-- Axis 47 in a state; in HOMING by method 1 at a step. -/
def axisAt (st : Nat) (x : Axis := {}) : State := ((loaded.wr (.mot .state) 47 st).wr (.mot .axtype) 47 0).setAxis 47 x
def homing (hst : Nat) (x : Axis := {}) : State := ((axisAt 3 x).wr (.mot .hstate) 47 hst).wr (.mot .method) 47 1

/-- Slot 127 is enabled, in a state. -/
def slotAt (st : Nat) (x : Slot := {}) : State := ((loaded.wr (.cle .state) 127 st).wr (.cle .slotEn) 127 1).setSlot 127 x

/-- The mains is followed at 50 Hz, with some bridged crossings and some bad ones. -/
def mains (bridged badV : Nat) : State :=
  { live.wr (.fhv .halfper) 0 10000000 with fhv := { zc := some 0, halves := [10000000], bridged := bridged, badV := badV } }

/-- Heater channel 7 follows code 1 with its over-temperature comparators on. -/
def guarded : State := (loaded.wr (.fhv .otcaSel) 7 1).wr (.fhv .otcbSel) 7 1

/-- Heater channel 7 may fire: slot 127 drives it in MANUAL. -/
def heating : State :=
  { (((((guarded.wr (.cle .state) 127 1).wr (.cle .slotEn) 127 1).wr (.cle .outKind) 127 2).wr (.cle .outIndex) 127 7).wr (.fhv .mainsOk) 0 1).wr (.fhv .hMode) 7 1 with
    fhv := { ready := true, heaters := [(7, { on := true })] } }

/-- The engine is armed and no feed point has come. -/
def feeding : State := armed

/-- Sheet context 255 is tracked. -/
def tracked (stage : Nat) (x : Track := { ctx := 255 }) : State :=
  { loaded.setCtx 255 { st := .imaging, stage := stage } with pth := { tracks := [x] } }

/-- A fed sheet that has not registered in its window. -/
def late : State := (tracked 1).wr (.pth .mpos) 0 1000000000

/-- A tracked sheet before sensor 31. -/
def sensed (x : Track) : State := ((tracked 2 x).wr (.pth .role) 31 2).wr (.pth .routes) 31 7

/-- A tracked sheet that station 7 is to expose. -/
def imaged : State := ((tracked 2 { ctx := 255, origin := some 0 }).wr (.pth .lrate) 0 1).setStn 7 { queue := [{ ctx := 255 }] }

/-- Web mode in a state of the web sequence. -/
def webAt (w : Nat) : State := (((loaded.wr (.pth .mode) 0 1).wr (.pth .wstate) 0 w).wr (.mot .axtype) 0 0).wr (.mot .state) 0 1

/-- A module of a ring of two, by its strap. -/
def ringOf (strap : Strap) : State :=
  { live.wr (.csl .nmod) 0 1 with hw := { live.hw with msel := strap }, ldr := { st := .loaded, sections := [{ ty := 14, inst := 0, feature0 := true }] } }

/-- A slave that tracks sheet context 255. -/
def ringTrack (stage : Nat) (x : Track := { ctx := 255 }) : State :=
  { (ringOf .low).setCtx 255 { st := .imaging, stage := stage } with pth := { tracks := [x] } }

/-- The image configures station 7. -/
def configured : State := { loaded with ldr := { st := .loaded, sections := [{ ty := 9, inst := 7, feature0 := true }] } }

/-- Record 31 as given. -/
def record (x : FltRec) : State := { live with flt := { records := [(31, x)] } }

/-- The on-module sequence in a state, at a rail. -/
def powered (istate rail : Nat) : State :=
  { (live.wr (.pwr .istate) 0 istate).wr (.pwr .irail) 0 rail with rst := { live.rst with asserted := [2] } }

/-- The external sequence in a state, at a step, with some steps raised of `n`. -/
def stepping (estate step raised n : Nat) : State :=
  { ((live.wr (.pwr .estate) 0 estate).wr (.pwr .estep) 0 step).wr (.pwr .nsteps) 0 n with pwr := { raised := raised } }

/-- A repair descriptor of band 0 of context 255. -/
def repairDesc : Desc := { desc 2 1 255 1 with repair := true }

/-- Channel 31 sends a band of 100,000 bytes to lane 0, some of them moved. -/
def bandMoving (moved : Nat) : State :=
  { (channel { desc := some (desc 2 100000 255 0), begun := true, recNo := some 131071, moved := moved }).setLane 0 { cur := some 31 } with
    loam := { bands := [(131071, { st := .filling })] } }

/-- The engine is armed and context 255, as given, stands at the head of the queue. -/
def queuedHead (x : Ctx) : State := { armed with loam := { request := true, ctxs := [(255, x)] } }

/-- Station 7 reads band 0 of context 255, which holds the stream. -/
def readingGood : State :=
  { store { st := .verified, ctx := 255, plane := 7, extents := [0], storedLen := 33 } { st := .imaging, planes := 128, lineBytes := 1 } with
    stns := [(7, { queue := [{ ctx := 255 }] })] }

/-- Heater channel 7 may fire, in a mode of MODE, as given. -/
def heatingIn (mode : Nat) (x : Heater) : State := { heating.wr (.fhv .hMode) 7 mode with fhv := { ready := true, heaters := [(7, x)] } }

/-- Sheet context 255 is registered before a first diverter at line 100. -/
def diverting (p : Pth) : State :=
  ({ tracked 2 with pth := { p with tracks := [{ ctx := 255, origin := some 0 }] } }.wr (.pth .divPos) 0 100).wr (.pth .divLead) 0 0

/-- A track whose sheet output 1 takes, and two of them. -/
def divertedTrack : Track := { ctx := 255, origin := some 0, output := some 1, diverter := true, measured := some 0 }
def twoDiverted : State := { tracked 4 with pth := { tracks := [divertedTrack, { divertedTrack with ctx := 3 }] } }

/-- A frame of context 255 whose last line is far past every line of the web. -/
def framed (x : Ctx) : State :=
  { (webAt 1).wr (.pth .mpos) 0 1000000000 with
    loam := { ctxs := [(255, x)] }, pth := { frames := [{ ctx := 255, first := 0 }], w0Set := true } }

/-- A slave of a web ring, in a state of the web sequence. -/
def slaveWeb (w : Nat) : State := ((ringOf .low).wr (.pth .mode) 0 1).wr (.pth .wstate) 0 w

/-- An armed module of a ring with context 255, of tag 9, at the head of the queue. -/
def ringHead (strap : Strap) (x : Csl) : State :=
  { (State.atLdr (ringOf strap) .armed).setCtx 255 { st := .ready, queued := true, planes := 1, lineBytes := 1, tag := 9 } with csl := x }

/-! ### Commands that cannot reach a module (R10) -/

theorem test_illFormed_numbers :
    ([.openCtx 256, .loamDeadlockTimeout 32, .bandVerified 131072, .imagingReadUe 8 0 0, .imagingReadUe 7 4096 0,
      .imagingReadUe 7 0 2097151, .imagingDecodeError 8 0 2, .jobStop 24 0, .scanStart 8 0 0 0 0, .scanStart 7 0 500 0 0,
      .hpresQualified 7 16, .rxIdent 7 [], .beamOut 7 128, .move 48, .latchEdge 47 2, .slotExecution 128 0, .slotExecution 127 16384,
      .zeroCrossing 0 (some 4096), .otcTrip 8 .a 0, .thermistorConversion 16 0, .thermopileConversion 7 32768,
      .hvFrame (List.replicate 49 0), .hvFrame [4096], .hvLeadEnd 48, .sensorRawEdge 32 true, .sheetCommit 256, .t0Issue 255 8,
      .cascadeGateReply 0 true true, .cascadeGateReply 4 true true, .dmaTailWrite 32 0, .descriptorFetch 31 (some []),
      .laneAcceptBand 8, .burstError 32 true, .periphRequest 18, .periphWithdraw 31 257, .faultReportWord 7 [], .reporterTimeout 16,
      .reactionComplete 32, .unitResetRelease (.axis 48), .unitCheckDone (.engine 24) true, .recalStart 8, .supplyFault 12,
      .railQualified (.rail 0), .resetSourceAssert 12, .mbxPop 16, .wiringFault 256 .lo, .encoderEdge 48 true, .pcieLinkUp 6 8,
      .pcieLinkUp 5 3, .railWindowChange (.rail 12) true, .railWindowChange (.monitor 16) true] : List Instr).all
      (fun i => !i.wf State.reset.hw) = true := by decide

theorem test_illFormed_words :
    ([.registerWrite 0x4000000 0, .registerWrite 2 0, .misalignedBar0Access 0x4 4 true, .pairLowWrite 0x4 0, .pairLowRead 0x4,
      .bar2Write 4294967295 [0, 0] [], .bar2Read 0 0 [], .loadRequest 2, .commit 1, .arm 0x80000000, .disarm 0, .programKey 0xF05E0002,
      .revoke 0xF05E0001, .advanceSecver 0xF05E0004, .lockTestPort 0xF05E0003, .clrExpert 2, .jobStart 0 2, .jobResume 0 3,
      .linkRestart 0 1, .ldRequest 0 2, .tempTripClear 0 0x100, .latchArm 0 1, .captureArm 2, .captureForce 1, .captureAbort 1,
      .dmaStart 0 2, .dmaStop 0 1, .dmaReset 0 1, .isolate 0x20000, .returnUnit 0x10000, .recal 2, .snap 1, .restore 1, .pwrOff 2,
      .extOn 1, .extOff 1, .step 1, .cmdDomain 2, .cmdDie 1, .cold 1, .obWrite 1, .isolatedAccess 2 true,
      .poisonedWrite .bar0 0x4000000, .msixUnmask (.vectorMask 256 true)] : List Instr).all
      (fun i => !i.wf State.reset.hw) = true := by decide

/-- The four-port module has no island of station 7 (R2). -/
theorem test_illFormed_island : (Instr.handshakeWatchdogExpiry (.vid 7)).wf { State.reset.hw with exL := false } = false := by decide

theorem test_illFormed_refused : exec (.openCtx 256) live = .refused .illFormed := rfl

/-! ### The spec's worked examples -/

/-- "A band encoded end to end" (04_loess_compression.md): the complete 36-byte stream. -/
def exampleStream : List Byte :=
  [0x4C, 0x4F, 0x45, 0x53, 0x01, 0x00, 0x10, 0x00, 0x02, 0x00, 0x00, 0x00, 0x20, 0x00, 0x00, 0x00, 0x00, 0x01, 0x1F, 0x00, 0x04, 0x00,
   0x00, 0x00, 0x00, 0x70, 0x1A, 0x00, 0x20, 0x00, 0x00, 0x00, 0xAA, 0x36, 0x91, 0x8A]

set_option maxRecDepth 100000 in
theorem test_loess_encodes : encode 16 2 0 (zeros 32) = exampleStream := by decide +kernel

set_option maxRecDepth 100000 in
theorem test_loess_decodes :
    (verifyDecode exampleStream 36 { lineBytes := 16, lines := 2, band := 0 } (some (zeros 32))).1 = (0, 0) := by decide +kernel

/-- The half-cycle of 09_fuser_hv.md: u = 0.5 at 220.0 V of 230.0 V gives d = 0.5465, which is 35815 / 65536. -/
theorem test_duty : dutyOf 536870912 2300 2200 true = 35815 := by decide

/-- The shingle station of 05_scan_timing.md: u = 93.3 lines gives o = 29 and RESID = 77. -/
theorem test_placement : placeAt { num := 1, den := 1 } 933 0 0 100000000 64 64 = some (29, 77) := by decide +kernel

/-- The EX4-L of 03_loam_and_sheets.md: decompressor 5 is out of service. -/
def press (busy : List (Nat × Ctx)) : State :=
  { (armed.wr (.pgs .admLinerate) 0 283465).wr (.cmp .emode) 13 1 with loam := { ctxs := busy } }

/-- Sheet A is placed first-fit; sheet B is refused while A is imaging, and with no station busy there is one decompressor too few. -/
theorem test_admission :
    (press []).decPlan { planes := 255, lineBytes := 3780 } =
      some [(0, 0), (1, 0), (2, 1), (3, 1), (4, 2), (5, 2), (6, 3), (7, 3)] ∧
    (press []).decPlan { planes := 255, lineBytes := 5670 } = none ∧
    (press []).decPlan { planes := 127, lineBytes := 5670 } = some [(0, 0), (1, 1), (2, 2), (3, 3), (4, 4), (5, 6), (6, 7)] ∧
    (press []).decPlan { planes := 255, lineBytes := 3968 } ≠ none ∧ (press []).decPlan { planes := 255, lineBytes := 3969 } = none := by
  decide +kernel

/-- The descriptor of channel 4 in 12_dma.md, byte for byte. -/
theorem test_descriptor :
    parseDesc [0x02, 0x01, 0x00, 0x00, 0x00, 0xC4, 0x0E, 0x00, 0x00, 0x00, 0x00, 0x12, 0x40, 0x00, 0x00, 0x00, 0x11, 0x02, 0x05, 0x00,
      0x00, 0xC4, 0x0E, 0x00, 0xE7, 0x91, 0x3C, 0x5A, 0x00, 0x00, 0x00, 0x00] =
      { kind := 2, swap := 0, irq := true, repair := false, length := 967680, hostAddr := 0x4012000000, arg0 := 0x50211, arg1 := 967680,
        check := 0x5A3C91E7 } := by decide

/-- The withdrawn burst of 12_dma.md: 64 bytes of samples, then zeros; VALID_BYTES is 25,664 and the descriptor ends SHORT. -/
theorem test_withdraw :
    ∃ t, exec (.periphWithdraw 9 64) { (((live.wr (.dma .state) 9 1).wr (.cle .cstate) 0 3).wr (.cle .capCount) 0 16384).setChan 9
        { desc := some (desc 4 262144 17 0), moved := 25600, begun := true, request := true } with capture := { handed := 25600 } } =
        .next t ∧
      (t.chan 9).moved = 25664 ∧ (t.chan 9).ended = some { short := true } ∧ t.rd (.dma .withdraw) 9 = 1 := by
  refine ⟨_, rfl, ?_⟩
  decide +kernel

/-- The event of 11_cascade.md: a beacon with hop count 1 at port A confirms POS 1; one with hop count 2 does not. -/
theorem test_beacon :
    ∃ t u, exec (.beaconRx .a 1 5 0) (((ringOf .low).wr (.csl .pos) 0 1).wr (.csl .linkaUp) 0 1) = .next t ∧ t.rd (.csl .posErr) = 0 ∧
      exec (.beaconRx .a 2 5 0) (((ringOf .low).wr (.csl .pos) 0 1).wr (.csl .linkaUp) 0 1) = .next u ∧ u.rd (.csl .posErr) = 1 := by
  refine ⟨_, _, rfl, ?_, rfl, ?_⟩ <;> decide +kernel

/-! ### Small checks of single commands -/

/-- 10 kΩ against the 10 kΩ reference is half of full scale (R270). -/
theorem test_thermistor_half : thermCode 10000 = 32768 := by decide

/-- Two of four bytes swapped, halfwords swapped, all four reversed (R329). -/
theorem test_swap :
    swapBytes 1 [0, 1, 2, 3] = [1, 0, 3, 2] ∧ swapBytes 2 [0, 1, 2, 3] = [2, 3, 0, 1] ∧ swapBytes 3 [0, 1, 2, 3] = [3, 2, 1, 0] := by
  decide

/-- The CRC-32C of 32 zero bytes (04_loess_compression.md). -/
theorem test_crc : crc32c (zeros 32) = 0x8A9136AA := by decide +kernel

/-- The command at the front of the queue is taken, and the rest stays. -/
theorem test_queue : ∃ t, step { live with pending := [.zcGlitch, .openCtx 3] } = .next t ∧ t.pending = [.openCtx 3] ∧
    t.rd (.fhv .zcGlitch) = 1 := by
  refine ⟨_, rfl, rfl, ?_⟩
  decide

/-- RELEASE frees a delivered context (R82). -/
theorem test_release : ∃ t, exec (.release 255) (withCtx .delivered) = .next t ∧ (t.ctx 255).st = .free := by
  refine ⟨_, rfl, ?_⟩
  decide

/-- A misaligned write changes nothing but the reply (R5). -/
theorem test_misaligned : exec (.misalignedBar0Access 0x40002 4 true) live = .next (live.emit .unsupported) := rfl

/-! ### The statements' hypotheses can be met -/

/-- A host write of block `b` reaches it, as one test. -/
def reachable (s : State) (b : Block) (k : Nat) : Bool := s.barUp && s.blockUp b k && (s.ldr.st != .applying || applyingBlock b)

theorem reaches {s : State} {b : Block} {k : Nat} (h : reachable s b k = true) : s.Reaches b k := by
  simp only [reachable, Bool.and_eq_true, Bool.or_eq_true, bne_iff_ne] at h
  exact ⟨h.1.1, h.1.2, fun e => h.2.resolve_left (not_not_intro e)⟩

/-- Band records from `r` on, each VERIFIED, of context 0. -/
def filled : Nat → Nat → Store Nat Band
  | 0, _ => []
  | n + 1, r => (r, { st := .verified }) :: filled n (r + 1)

theorem filled_get {n r k : Nat} (h : r ≤ k) (h' : k < r + n) : Store.get ({} : Band) k (filled n r) = { st := .verified } := by
  induction n generalizing r with
  | zero => omega
  | succ n ih =>
    by_cases e : r = k
    · subst e; simp [filled, Store.get]
    · simpa [Store.get, filled, e] using @ih (r + 1) (by omega) (by omega)

theorem filled_lowestFree {n r f : Nat} (h : r + f ≤ n) : lowestFree (filled n 0) f r = none := by
  induction f generalizing r with
  | zero => rfl
  | succ f ih =>
    rw [lowestFree, filled_get (by omega) (by omega)]
    simpa using @ih (r + 1) (by omega)

theorem filled_find {n r : Nat} (p : Nat × Band → Bool) (h : ∀ r, p (r, { st := .verified }) = false) :
    (filled n r).find? p = none := by
  induction n generalizing r with
  | zero => rfl
  | succ n ih => rw [filled, List.find?_cons, h, ih]

/-- Lane 7 has a band of context 255 to accept, and all 131,072 band records are taken. -/
def indexFull : State :=
  { (channel { desc := some (desc 2 1 255 1) }).setLane 7 { queue := [31] } with
    loam := { bands := filled 131072 0, ctxs := [(255, { st := .opened, planes := 1, lineBytes := 1 })] } }

theorem indexFull_freeRecord : indexFull.freeRecord = none := filled_lowestFree (by omega)

theorem indexFull_accepts : indexFull.bandAccept (desc 2 1 255 1) = true := by
  have h : indexFull.findBand 255 0 0 = none := by
    show ((filled 131072 0).find? _).map _ = none
    rw [filled_find _ (fun _ => rfl)]; rfl
  unfold State.bandAccept
  rw [show (desc 2 1 255 1).ctx = 255 from rfl, show (desc 2 1 255 1).plane = 0 from rfl,
    show (desc 2 1 255 1).bandNo = 0 from rfl, h]
  decide

/-- The snapshot words hold a results set of zeros with its CRC-32C. -/
def restorable : State := (live.wr (.glb .expert) 0 1).wr (.cal .snapshot) 1 1732923576

set_option maxRecDepth 100000 in
theorem test_restore : restorable.restoreOk = true := by decide +kernel

theorem witness_StepKeepsSound :
    ∃ s : State, ∃ t : State, s.Sound ∧ step s = .next t :=
  ⟨live, live, ⟨by decide +kernel, by decide +kernel, by decide +kernel, by decide +kernel⟩, rfl⟩

theorem witness_WhatNoCommandTakesBack :
    (∃ i : Instr, ∃ s : State, ∃ t : State, exec i s = .next t ∧ (∀ b, i ≠ .fuseCommandDone b)) ∧
    (∃ i : Instr, ∃ s : State, ∃ t : State, exec i s = .next t ∧ s.fuses.testLocked = true) :=
  ⟨⟨.zcGlitch, State.reset, State.reset, rfl, by decide +kernel⟩,
   ⟨.zcGlitch, { State.reset with fuses := { State.reset.fuses with testLocked := true } },
     { State.reset with fuses := { State.reset.fuses with testLocked := true } }, rfl, by decide +kernel⟩⟩

theorem witness_WellFormedCommandsRun :
    (∃ i : Instr, ∃ s : State, i.wf s.hw = true) ∧
    (∃ i : Instr, ∃ s : State, i.wf s.hw = false) :=
  ⟨⟨.openCtx 255, State.reset, by decide +kernel⟩,
   ⟨.openCtx 256, State.reset, by decide +kernel⟩⟩

theorem witness_ContextCommandsRun :
    (∃ s : State, ∃ c : Nat, c < 256 ∧ s.Reaches .pgs 0 ∧ s.ctxCmdState = true ∧ s.stagingLoad = false ∧ (s.ctx c).st = .free ∧
      s.openGeomOk = true) ∧
    (∃ s : State, ∃ c : Nat, ∃ d, c < 256 ∧ s.Reaches .pgs 0 ∧ s.ctxCmdState = true ∧ (s.ctx c).st = .opened ∧ d ≠ c) ∧
    (∃ s : State, ∃ c : Nat, ∃ f : Fld, ∃ i, c < 256 ∧ s.Reaches .pgs 0 ∧ s.ctxCmdState = true ∧ (s.ctx c).st = .opened ∧ (f, i) ≠
      (.pgs .ctxEvent, 0)) ∧
    (∃ s : State, ∃ c : Nat, c < 256 ∧ s.Reaches .pgs 0 ∧ s.ctxCmdState = true ∧ (s.ctx c).cancelled = false ∧ ((s.ctx c).st =
      .opened ∨ (s.ctx c).st = .closed ∨ (s.ctx c).st = .ready ∨ (s.ctx c).st = .blocked) ∧ s.bandsOf c = []) ∧
    (∃ s : State, ∃ c : Nat, c < 256 ∧ s.Reaches .pgs 0 ∧ s.ctxCmdState = true ∧ (s.ctx c).cancelled = false ∧ (s.ctx c).st =
      .stalled) ∧
    (∃ s : State, ∃ c : Nat, ∃ d, c < 256 ∧ s.Reaches .pgs 0 ∧ s.ctxCmdState = true ∧ (s.ctx c).st = .delivered ∧ d ≠ c) ∧
    (∃ s : State, ∃ c : Nat, ∃ f : Fld, ∃ i, c < 256 ∧ s.Reaches .pgs 0 ∧ s.ctxCmdState = true ∧ (s.ctx c).st = .delivered ∧ (f,
      i) ≠ (.pgs .disp, c)) ∧
    (∃ s : State, ∃ c : Nat, c < 256 ∧ s.Reaches .pgs 0 ∧ s.stagingLoad = true) ∧
    (∃ s : State, ∃ c : Nat, c < 256 ∧ s.Reaches .pgs 0 ∧ s.ctxCmdState = false ∧ s.stagingLoad = false) ∧
    (∃ s : State, ∃ c : Nat, c < 256 ∧ s.Reaches .pgs 0 ∧ s.ctxCmdState = true ∧ ((s.ctx c).st = .free ∨ (s.ctx c).st = .admitted
      ∨ (s.ctx c).st = .imaging ∨ (s.ctx c).st = .exposed ∨ (s.ctx c).st = .spoiled ∨ (s.ctx c).st = .delivered ∨ (s.ctx c).st =
      .blocked ∧ (s.ctx c).cancelled = true)) ∧
    (∃ s : State, ∃ c : Nat, c < 256 ∧ s.Reaches .pgs 0 ∧ s.ctxCmdState = true ∧ s.stagingLoad = false ∧ (s.ctx c).st ≠ .free) ∧
    (∃ s : State, ∃ c : Nat, c < 256 ∧ s.Reaches .pgs 0 ∧ s.ctxCmdState = true ∧ s.stagingLoad = false ∧ (s.ctx c).st = .free ∧
      s.openGeomOk = false) ∧
    (∃ s : State, ∃ c : Nat, c < 256 ∧ s.Reaches .pgs 0 ∧ s.ctxCmdState = true ∧ (s.ctx c).st ≠ .opened) ∧
    (∃ s : State, ∃ c : Nat, c < 256 ∧ s.Reaches .pgs 0 ∧ s.ctxCmdState = true ∧ (s.ctx c).st ≠ .delivered) :=
  ⟨⟨loaded.wr (.pgs .lineBytes) 0 6656, 255, by decide +kernel, reaches (by decide +kernel), by decide +kernel⟩,
   ⟨withCtx .opened, 255, 0, by decide +kernel, reaches (by decide +kernel), by decide +kernel⟩,
   ⟨withCtx .opened, 255, .glb .expert, 0, by decide +kernel, reaches (by decide +kernel), by decide +kernel⟩,
   ⟨withCtx .opened, 255, by decide +kernel, reaches (by decide +kernel), by decide +kernel⟩,
   ⟨withCtx .stalled, 255, by decide +kernel, reaches (by decide +kernel), by decide +kernel⟩,
   ⟨withCtx .delivered, 255, 0, by decide +kernel, reaches (by decide +kernel), by decide +kernel⟩,
   ⟨withCtx .delivered, 255, .pgs .disp, 0, by decide +kernel, reaches (by decide +kernel), by decide +kernel⟩,
   ⟨{ live with ldr := { st := .verifying, source := 3 } }, 255, by decide +kernel, reaches (by decide +kernel),
     by decide +kernel⟩,
   ⟨live, 0, by decide +kernel, reaches (by decide +kernel), by decide +kernel⟩,
   ⟨loaded.wr (.pgs .lineBytes) 0 6656, 255, by decide +kernel, reaches (by decide +kernel), by decide +kernel⟩,
   ⟨withCtx .closed, 255, by decide +kernel, reaches (by decide +kernel), by decide +kernel⟩,
   ⟨loaded.wr (.pgs .lineBytes) 0 6657, 255, by decide +kernel, reaches (by decide +kernel), by decide +kernel⟩,
   ⟨withCtx .ready, 255, by decide +kernel, reaches (by decide +kernel), by decide +kernel⟩,
   ⟨withCtx .exposed, 255, by decide +kernel, reaches (by decide +kernel), by decide +kernel⟩⟩

theorem witness_RegisterWritesRun :
    (∃ s : State, ∃ sl : Slice, populated s.hw sl.fld sl.idx = true ∧ fixedField sl.fld sl.idx = false ∧ sl.fld.row.acc = .ro) ∧
    (∃ s : State, ∃ sl : Slice, ∃ word : Nat, populated s.hw sl.fld sl.idx = true ∧ fixedField sl.fld sl.idx = false ∧
      sl.fld.row.acc = .w1c ∧ sl.fld ≠ .blk .tempTrip ∧ bitField word sl.lsb sl.fld.row.width ≠ 1) ∧
    (∃ s : State, ∃ sl : Slice, ∃ word : Nat, ∃ g, ∃ i, populated s.hw sl.fld sl.idx = true ∧ fixedField sl.fld sl.idx = false ∧
      sl.fld.row.acc = .w1c ∧ sl.fld ≠ .blk .tempTrip ∧ bitField word sl.lsb sl.fld.row.width = 1 ∧ (g, i) ≠ (sl.fld, sl.idx)) ∧
    (∃ s : State, ∃ sl : Slice, populated s.hw sl.fld sl.idx = true ∧ fixedField sl.fld sl.idx = false ∧ sl.fld.row.acc = .rw) ∧
    (∃ s : State, ∃ sl : Slice, populated s.hw sl.fld sl.idx = true ∧ fixedField sl.fld sl.idx = false ∧ sl.fld.row.acc = .rwl ∧
      s.engineArmed = false) ∧
    (∃ s : State, ∃ sl : Slice, populated s.hw sl.fld sl.idx = true ∧ fixedField sl.fld sl.idx = false ∧ sl.fld.row.acc = .rwl ∧
      s.engineArmed = true) ∧
    (∃ s : State, ∃ sl : Slice, populated s.hw sl.fld sl.idx = true ∧ fixedField sl.fld sl.idx = false ∧ sl.fld.row.acc = .rwx ∧
      s.on (.glb .expert) = false) ∧
    (∃ s : State, ∃ sl : Slice, ∃ word : Nat, ∃ lo, ∃ hi, populated s.hw sl.fld sl.idx = true ∧ fixedField sl.fld sl.idx = false ∧
      sl.fld.row.acc = .rwx ∧ s.on (.glb .expert) = true ∧ s.expertRange ((sl.fld, sl.idx), 0) = .u lo hi ∧ lo ≤ bitField word
      sl.lsb sl.fld.row.width ∧ bitField word sl.lsb sl.fld.row.width ≤ hi) ∧
    (∃ s : State, ∃ sl : Slice, ∃ word : Nat, ∃ lo, ∃ hi, populated s.hw sl.fld sl.idx = true ∧ fixedField sl.fld sl.idx = false ∧
      sl.fld.row.acc = .rwx ∧ s.on (.glb .expert) = true ∧ s.expertRange ((sl.fld, sl.idx), 0) = .u lo hi ∧ lo ≤ bitField word
      sl.lsb sl.fld.row.width ∧ hi < bitField word sl.lsb sl.fld.row.width ∧ lo ≤ hi) ∧
    (∃ s : State, ∃ a : Nat, ∃ b : Block, ∃ v : Word, ∃ sl, bar0Offset a = true ∧ ownRow a v.toNat = false ∧ blockAt a = some b ∧
      s.Reaches b (stationAt a) ∧ a ≠ (Fld.blk .ldReq).addr (stationAt a) ∧ a ≠ (Fld.blk .lstate).addr (stationAt a) ∧ ¬(0x600000
      ≤ a ∧ a < 0x606000 ∧ a % 0x200 = 0xE0) ∧ slicesAt a = [sl] ∧ sl.fld.row.width ≤ 32 ∧ Slice.boundary s sl = false) ∧
    (∃ s : State, ∃ i, i < 8 ∧ s.Reaches .ldr 0) ∧
    (∃ s : State, s.Reaches .glb 0 ∧ s.engineArmed = false) ∧
    (∃ s : State, ∃ v : Word, s.Reaches .glb 0 ∧ s.engineArmed = true ∧ bitField v.toNat 0 10 ≠ s.rd (.glb .hbPeriod)) ∧
    (∃ s : State, ∃ v : Word, s.Reaches .glb 0 ∧ s.engineArmed = true ∧ bitField v.toNat 0 10 = s.rd (.glb .hbPeriod)) ∧
    (∃ s : State, ∃ v : Word, ∃ a, bar0Offset a = true ∧ ownRow a v.toNat = false ∧ blockAt a = none ∧ (s.ldr.st ≠ .applying ∨
      s.barUp = false)) ∧
    (∃ s : State, ∃ v : Word, ∃ a, bar0Offset a = true ∧ ownRow a v.toNat = false ∧ blockAt a = none ∧ s.ldr.st = .applying ∧
      s.barUp = true) ∧
    (∃ s : State, ∃ v : Word, ∃ a, ∃ b, bar0Offset a = true ∧ ownRow a v.toNat = false ∧ blockAt a = some b ∧ s.barUp = true ∧
      s.blockUp b (stationAt a) = false ∧ s.ldr.st ≠ .applying) ∧
    (∃ s : State, ∃ v : Word, ∃ a, ∃ b, bar0Offset a = true ∧ ownRow a v.toNat = false ∧ blockAt a = some b ∧ s.barUp = true ∧
      s.blockUp b (stationAt a) = true ∧ s.ldr.st = .applying ∧ applyingBlock b = false) :=
  ⟨⟨live, slice (.pwr .istate) 0, by decide +kernel⟩,
   ⟨live, slice (.glb .accessDenied) 0, 0, by decide +kernel⟩,
   ⟨live, slice (.glb .accessDenied) 0, 1, .glb .isoAccess, 0, by decide +kernel⟩,
   ⟨live, slice (.pgs .planes) 0, by decide +kernel⟩,
   ⟨loaded, slice (.glb .hbPeriod) 0, by decide +kernel⟩,
   ⟨armed, slice (.glb .hbPeriod) 0, by decide +kernel⟩,
   ⟨live, slice (.cal .sweepEn) 0, by decide +kernel⟩,
   ⟨live.wr (.glb .expert) 0 1, { fld := .cal .driftT, idx := 0, lsb := 16 }, 65536000, 0, 1000, by decide +kernel⟩,
   ⟨live.wr (.glb .expert) 0 1, { fld := .cal .driftT, idx := 0, lsb := 16 }, 65601536, 0, 1000, by decide +kernel⟩,
   ⟨live, 0x51FFC, .cal, 0x3FF, slice (.cal .snapshot) 511, by decide +kernel, by decide +kernel, by decide +kernel,
     reaches (by decide +kernel), by decide +kernel⟩,
   ⟨live, 7, by decide +kernel, reaches (by decide +kernel)⟩,
   ⟨loaded, reaches (by decide +kernel), by decide +kernel⟩,
   ⟨armed, 0x3FF, reaches (by decide +kernel), by decide +kernel⟩,
   ⟨armed.wr (.glb .hbPeriod) 0 0x3FF, 0x3FF, reaches (by decide +kernel), by decide +kernel⟩,
   ⟨live, 0x3FF, 0x3FFFFFC, by decide +kernel⟩,
   ⟨State.atLdr live .applying, 0x3FF, 0x3FFFFFC, by decide +kernel⟩,
   ⟨{ live with inReset := [.ctl] }, 0, 0x50000, .cal, by decide +kernel⟩,
   ⟨State.atLdr live .applying, 0x3FF, 0x51FFC, .cal, by decide +kernel⟩⟩

theorem witness_MisalignedAccessChangesNothing :
    ∃ s : State, ∃ a : Nat, ∃ n : Nat, a < 0x4000000 ∧ (a % 4 ≠ 0 ∨ n ≠ 4) ∧ s.barUp = true :=
  ⟨live, 0, 0, by decide +kernel⟩

theorem witness_PairsMoveInOneStep :
    (∃ s : State, ∃ a : Nat, ∃ f, ∃ i, bar0Offset a = true ∧ writablePair a = some (f, i, false) ∧ s.Reaches f.block (stationAt a)
      ∧ populated s.hw f i = true ∧ f.row.acc = .rw) ∧
    (∃ s : State, ∃ a : Nat, ∃ f : Fld, ∃ i, bar0Offset a = true ∧ writablePair a = some (f, i, true) ∧ s.Reaches f.block
      (stationAt a) ∧ populated s.hw f i = true ∧ f.row.acc = .rw ∧ f ≠ .dma .ring) ∧
    (∃ s : State, ∃ a : Nat, ∃ f, ∃ i, bar0Offset a = true ∧ writablePair a = some (f, i, true) ∧ s.Reaches f.block (stationAt a)
      ∧ populated s.hw f i = true ∧ f.row.acc = .rw ∧ f = .dma .ring) ∧
    (∃ s : State, ∃ a : Nat, ∃ f, ∃ i, ∃ g, ∃ j, bar0Offset a = true ∧ writablePair a = some (f, i, true) ∧ s.Reaches f.block
      (stationAt a) ∧ populated s.hw f i = true ∧ f.row.acc = .rw ∧ (g, j) ≠ (f, i)) ∧
    (∃ s : State, ∃ a : Nat, ∃ b, bar0Offset a = true ∧ pairLower a = true ∧ blockAt a = some b ∧ s.barUp = true ∧ s.blockUp b
      (stationAt a) = true) ∧
    (∃ s : State, ∃ a : Nat, ∃ b, bar0Offset a = true ∧ pairUpper a = true ∧ pairLower a = false ∧ blockAt a = some b ∧ s.barUp =
      true ∧ s.blockUp b (stationAt a) = true) :=
  ⟨⟨live, 0x101F08, .dma .ring, 31, by decide +kernel, by decide +kernel, reaches (by decide +kernel), by decide +kernel⟩,
   ⟨live, 0x205C14, .cmp .inAddr, 23, by decide +kernel, by decide +kernel, reaches (by decide +kernel), by decide +kernel⟩,
   ⟨live, 0x101F0C, .dma .ring, 31, by decide +kernel, by decide +kernel, reaches (by decide +kernel), by decide +kernel⟩,
   ⟨live, 0x101F0C, .dma .ring, 31, .dma .ring, 30, by decide +kernel, by decide +kernel, reaches (by decide +kernel),
     by decide +kernel⟩,
   ⟨live, 0x101F08, .dma, by decide +kernel⟩,
   ⟨live, 0x101F0C, .dma, by decide +kernel⟩⟩

theorem witness_HostSignals :
    (∃ s : State, s.Reaches .glb 0 ∧ s.up .seq = true) ∧
    (∃ s : State, ∃ f : Fld, ∃ i, s.Reaches .glb 0 ∧ (f, i) ≠ (.glb .expert, 0)) ∧
    (∃ s : State, ∃ p : Nat, ∃ i : Nat, ∃ w : Waiting, p < 16 ∧ s.mbx.waiting[i]? = some w ∧ s.routeOf w.kind = some p ∧ (s.posts
      p).length < 32) ∧
    (∃ s : State, ∃ p : Nat, ∃ q, p < 16 ∧ s.Reaches .mbx 0 ∧ s.pairTaken p = false ∧ s.mbx.waiting = [] ∧ q ≠ p) ∧
    (∃ s : State, ∃ p : Nat, p < 16 ∧ s.Reaches .mbx 0 ∧ s.pairTaken p = true) ∧
    (∃ s : State, ∃ p : Nat, ∃ v : Word, p < 16 ∧ s.Reaches .mbx 0 ∧ s.answered p (v.toNat % 65536) (bitField v.toNat 16 8) =
      none) ∧
    (∃ s : State, ∃ p : Nat, ∃ v : Word, ∃ d, p < 16 ∧ s.Reaches .mbx 0 ∧ s.answered p (v.toNat % 65536) (bitField v.toNat 16 8) =
      some d ∧ d.kind = 2 ∧ bitField v.toNat 16 8 = 1) ∧
    (∃ s : State, ∃ p : Nat, ∃ v : Word, ∃ d, p < 16 ∧ s.Reaches .mbx 0 ∧ s.answered p (v.toNat % 65536) (bitField v.toNat 16 8) =
      some d ∧ d.kind = 2 ∧ bitField v.toNat 16 8 = 2) ∧
    (∃ s : State, ∃ p : Nat, ∃ v : Word, ∃ d, p < 16 ∧ s.Reaches .mbx 0 ∧ s.answered p (v.toNat % 65536) (bitField v.toNat 16 8) =
      some d ∧ d.kind = 1 ∧ bitField v.toNat 16 8 = 2) ∧
    (∃ s : State, ∃ p : Nat, ∃ v : Word, ∃ d, p < 16 ∧ s.Reaches .mbx 0 ∧ s.answered p (v.toNat % 65536) (bitField v.toNat 16 8) =
      some d ∧ d.kind = 1 ∧ bitField v.toNat 16 8 = 1 ∧ s.gateRefusal ≠ 0) ∧
    (∃ s : State, ∃ p : Nat, ∃ v : Word, ∃ d, p < 16 ∧ s.Reaches .mbx 0 ∧ s.answered p (v.toNat % 65536) (bitField v.toNat 16 8) =
      some d ∧ d.kind = 1 ∧ bitField v.toNat 16 8 = 1 ∧ s.gateRefusal = 0 ∧ s.head = some d.unit ∧ s.cslRole = 0) :=
  ⟨⟨live, reaches (by decide +kernel), by decide +kernel⟩,
   ⟨live, .glb .isoAccess, 0, reaches (by decide +kernel), by decide +kernel⟩,
   ⟨{ live.wr (.mbx .route) 9 14 with mbx := { waiting := [{ kind := 9, unit := 3, data := [1] }] } }, 14, 0,
     { kind := 9, unit := 3, data := [1] }, by decide +kernel⟩,
   ⟨live, 14, 0, by decide +kernel, reaches (by decide +kernel), by decide +kernel⟩,
   ⟨{ live with dma := { chans := [(31, { begun := true, desc := some (desc 4 0 15 0) })] } }, 15, by decide +kernel,
     reaches (by decide +kernel), by decide +kernel⟩,
   ⟨live, 15, 0, by decide +kernel, reaches (by decide +kernel), by decide +kernel⟩,
   ⟨asked 2 3, 15, 0x1FFFF, { pair := 15, token := 65535, kind := 2, unit := 3, data := [3] }, by decide +kernel,
     reaches (by decide +kernel), by decide +kernel⟩,
   ⟨asked 2 3, 15, 0x2FFFF, { pair := 15, token := 65535, kind := 2, unit := 3, data := [3] }, by decide +kernel,
     reaches (by decide +kernel), by decide +kernel⟩,
   ⟨asked 1 255, 15, 0x2FFFF, { pair := 15, token := 65535, kind := 1, unit := 255, data := [3] }, by decide +kernel,
     reaches (by decide +kernel), by decide +kernel⟩,
   ⟨asked 1 255, 15, 0x1FFFF, { pair := 15, token := 65535, kind := 1, unit := 255, data := [3] }, by decide +kernel,
     reaches (by decide +kernel), by decide +kernel⟩,
   ⟨{ gateOpen .ready with mbx := (asked 1 255).mbx }, 15, 0x1FFFF,
     { pair := 15, token := 65535, kind := 1, unit := 255, data := [3] }, by decide +kernel, reaches (by decide +kernel),
     by decide +kernel⟩⟩

theorem witness_LinkGatesAccess :
    (∃ s : State, ∃ a, ∃ b, ∃ f : Fld, ∃ i, s.barUp = true ∧ bar0Offset a = true ∧ blockAt a = some b ∧ s.blockUp b (stationAt a)
      = false ∧ (f, i) ≠ (.glb .isoAccess, 0)) ∧
    (∃ s : State, ∃ sp, ∃ w, s.up .host = true ∧ 1 ≤ sp ∧ sp ≤ 5 ∧ w ∈ [1, 2, 4, 8]) ∧
    (∃ s : State, s.up .host = true ∧ s.pcie.linkUp = true ∧ s.effReach 5 = 1) ∧
    (∃ s : State, s.up .host = true ∧ s.pcie.linkUp = true ∧ s.effReach 5 = 2) ∧
    (∃ s : State, ∃ v, s.up .host = true ∧ s.pcie.linkUp = true ∧ v < 256 ∧ s.pcie.msixEnable = true ∧ s.pcie.functionMask = false
      ∧ v ∈ s.pcie.pendingBits ∧ v ∉ s.pcie.unmasked ∧ (∀ w ∈ s.pcie.pendingBits, w ∉ s.pcie.unmasked)) ∧
    (∃ s : State, ∃ v, s.up .host = true ∧ s.pcie.linkUp = true ∧ v < 256 ∧ (s.pcie.msixEnable = false ∨ s.pcie.functionMask =
      true ∨ v ∉ s.pcie.pendingBits) ∧ (∀ w ∈ s.pcie.pendingBits, w ∉ s.pcie.unmasked)) :=
  ⟨⟨{ live with inReset := [.ctl] }, 0x50000, .cal, .glb .expert, 0, by decide +kernel⟩,
   ⟨live, 5, 8, by decide +kernel⟩,
   ⟨live, by decide +kernel⟩,
   ⟨live.wr (.rstc .ob) 1 0x02020201, by decide +kernel⟩,
   ⟨msixMasked, 255, by decide +kernel⟩,
   ⟨{ live with inReset := [.ctl] }, 255, by decide +kernel⟩⟩

theorem witness_PoisonedWritesAreDropped :
    ∃ s : State, ∃ b : Bar, ∃ a : Nat, s.barUp = true ∧ a < barSize b :=
  ⟨live, .bar0, 0, by decide +kernel⟩

theorem witness_LoadsRun :
    (∃ s : State, ∃ v : Word, v.getLsbD 0 = true ∧ s.Reaches .ldr 0 ∧ (s.ldr.st = .empty ∨ s.ldr.st = .loaded) ∧ (bitField v.toNat
      1 2 ≠ 3 ∨ s.anyOpen = false)) ∧
    (∃ s : State, ∃ v : Word, v.getLsbD 0 = true ∧ s.Reaches .ldr 0 ∧ (s.ldr.st = .empty ∨ s.ldr.st = .loaded) ∧ bitField v.toNat
      1 2 = 3 ∧ s.anyOpen = true) ∧
    (∃ s : State, ∃ v : Word, v.getLsbD 0 = true ∧ s.Reaches .ldr 0 ∧ s.ldr.st ≠ .empty ∧ s.ldr.st ≠ .loaded ∧ v.getLsbD 4 =
      false) ∧
    (∃ s : State, ∃ v : Word, v.getLsbD 0 = true ∧ s.Reaches .ldr 0 ∧ s.up .seq = true ∧ s.ldr.st = .empty ∧ s.obByte 3 % 2 = 1) ∧
    (∃ s : State, ∃ ok : Bool, ∃ c, s.ldr.st = .verifying ∧ s.imageFault s.ldr.source ok = c + 1 ∧ (s.ldr.mayFallBack = false ∨
      s.ldr.second = true ∨ s.on (.ldr .fallback) = false)) ∧
    (∃ s : State, ∃ ok : Bool, ∃ c, s.ldr.st = .verifying ∧ s.imageFault s.ldr.source ok = c + 1 ∧ s.ldr.mayFallBack = true ∧
      s.ldr.second = false ∧ s.on (.ldr .fallback) = true) ∧
    (∃ s : State, s.ldr.st = .applying ∧ s.estate = 0 ∧ (∀ k, k < s.hw.axes → (s.axis k).still = true)) ∧
    (∃ s : State, s.ldr.st = .applying ∧ s.estate ≠ 0) ∧
    (∃ s : State, ∃ k, s.ldr.st = .applying ∧ k < s.hw.axes ∧ (s.axis k).still = false) :=
  ⟨⟨loaded, 0x2F, by decide +kernel, reaches (by decide +kernel), by decide +kernel⟩,
   ⟨(withCtx .opened).wr (.ldr .src) 0 1, 7, by decide +kernel, reaches (by decide +kernel), by decide +kernel⟩,
   ⟨armed, 1, by decide +kernel, reaches (by decide +kernel), by decide +kernel⟩,
   ⟨live.wr (.rstc .ob) 0 0x01000000, 1, by decide +kernel, reaches (by decide +kernel), by decide +kernel⟩,
   ⟨{ verifying with ldr := { verifying.ldr with second := true } }, true, 0, by decide +kernel⟩,
   ⟨verifying.wr (.ldr .fallback) 0 1, true, 0, by decide +kernel⟩,
   ⟨State.atLdr live .applying, by decide +kernel⟩,
   ⟨(State.atLdr live .applying).wr (.pwr .estate) 0 4, by decide +kernel⟩,
   ⟨(State.atLdr live .applying).setAxis 47 { v := 1 }, 47, by decide +kernel⟩⟩

theorem witness_CommitsRun :
    (∃ s : State, ∃ v : Word, ∃ img, v.getLsbD 4 = true ∧ s.Reaches .ldr 0 ∧ s.on (.ldr .commitBusy) = false ∧ s.ldr.staged = some
      img ∧ bitField v.toNat 5 1 = 0) ∧
    (∃ s : State, ∃ v : Word, ∃ img, v.getLsbD 4 = true ∧ s.Reaches .ldr 0 ∧ s.on (.ldr .commitBusy) = false ∧ s.ldr.staged = some
      img ∧ bitField v.toNat 5 1 = 1) ∧
    (∃ s : State, ∃ v : Word, ∃ img, v.getLsbD 4 = true ∧ s.Reaches .ldr 0 ∧ s.on (.ldr .commitBusy) = false ∧ s.ldr.staged = some
      img ∧ v.getLsbD 0 = false) ∧
    (∃ s : State, ∃ v : Word, v.getLsbD 4 = true ∧ s.Reaches .ldr 0 ∧ s.on (.ldr .commitBusy) = true ∧ v.getLsbD 0 = false) ∧
    (∃ s : State, ∃ v : Word, v.getLsbD 4 = true ∧ s.Reaches .ldr 0 ∧ s.on (.ldr .commitBusy) = false ∧ s.ldr.staged = none ∧
      v.getLsbD 0 = false) ∧
    (∃ s : State, ∃ j, s.ldr.commit = some j ∧ j.slot = 0) ∧
    (∃ s : State, ∃ j, s.ldr.commit = some j ∧ j.slot ≠ 0) :=
  ⟨⟨{ live with ldr := { staged := some [1] } }, 0x10, [1], by decide +kernel, reaches (by decide +kernel), by decide +kernel⟩,
   ⟨{ live with ldr := { staged := some [1] } }, 0x30, [1], by decide +kernel, reaches (by decide +kernel), by decide +kernel⟩,
   ⟨{ live with ldr := { staged := some [1] } }, 0x30, [1], by decide +kernel, reaches (by decide +kernel), by decide +kernel⟩,
   ⟨live.wr (.ldr .commitBusy) 0 1, 0x10, by decide +kernel, reaches (by decide +kernel), by decide +kernel⟩,
   ⟨{ live with ldr := { commit := some { slot := 1, image := [1] } } }, 0x30, by decide +kernel, reaches (by decide +kernel),
     by decide +kernel⟩,
   ⟨{ live with ldr := { commit := some { slot := 0, image := [1] } } }, { slot := 0, image := [1] }, by decide +kernel⟩,
   ⟨{ live with ldr := { commit := some { slot := 1, image := [1] } } }, { slot := 1, image := [1] }, by decide +kernel⟩⟩

theorem witness_OnlyTheKeyArms :
    (∃ s : State, ∃ v : Word, s.Reaches .ldr 0 ∧ v.toNat % 65536 ≠ 0xA4E5 ∧ v.getLsbD 31 = false) ∧
    (∃ s : State, ∃ v : Word, s.Reaches .ldr 0 ∧ v.toNat % 65536 ≠ 0xA4E5 ∧ v.getLsbD 31 = true) ∧
    (∃ s : State, ∃ v : Word, s.Reaches .ldr 0 ∧ v.toNat % 65536 = 0xA4E5 ∧ v.getLsbD 31 = false ∧ s.armFault = 0) ∧
    (∃ s : State, ∃ v : Word, s.Reaches .ldr 0 ∧ v.toNat % 65536 = 0xA4E5 ∧ v.getLsbD 31 = true ∧ s.ldr.st = .armed) :=
  ⟨⟨loaded, 0xA4E4, reaches (by decide +kernel), by decide +kernel⟩,
   ⟨armed, 0x8000A4E4, reaches (by decide +kernel), by decide +kernel⟩,
   ⟨ready, 0xA4E5, reaches (by decide +kernel), by decide +kernel⟩,
   ⟨armed, 0x8000A4E5, reaches (by decide +kernel), by decide +kernel⟩⟩

theorem witness_RequestsOutOfPlaceAreRefused :
    (∃ s : State, ∃ v : Word, s.Reaches .ldr 0 ∧ v.getLsbD 0 = true ∧ (s.ldr.st = .verifying ∨ s.ldr.st = .applying ∨ s.ldr.st =
      .armed ∨ s.ldr.st = .disarming)) ∧
    (∃ s : State, ∃ v : Word, s.Reaches .ldr 0 ∧ v.getLsbD 31 = false ∧ s.ldr.st ≠ .loaded) :=
  ⟨⟨State.atLdr live .applying, 0xFFFFFFFF, reaches (by decide +kernel), by decide +kernel⟩,
   ⟨State.atLdr live .disarming, 0, reaches (by decide +kernel), by decide +kernel⟩⟩

theorem witness_ArmingRuns :
    (∃ s : State, ∃ v : Word, ∃ n, s.Reaches .ldr 0 ∧ v.toNat % 65536 = 0xA4E5 ∧ v.getLsbD 31 = false ∧ s.armFault = 0 ∧ n <
      s.hw.slots) ∧
    (∃ s : State, ∃ v : Word, ∃ f : Fld, s.Reaches .ldr 0 ∧ v.toNat % 65536 = 0xA4E5 ∧ v.getLsbD 31 = false ∧ s.armFault = 0 ∧ f ≠
      .cle .injAct) ∧
    (∃ s : State, ∃ v : Word, s.Reaches .ldr 0 ∧ v.toNat % 65536 = 0xA4E5 ∧ v.getLsbD 31 = false ∧ s.armFault ≠ 0) ∧
    (∃ s : State, ∃ v : Word, s.Reaches .ldr 0 ∧ v.toNat % 65536 = 0xA4E5 ∧ v.getLsbD 31 = true ∧ s.ldr.st = .armed) ∧
    (∃ s : State, s.ldr.st = .disarming ∧ s.noneRemain = true ∧ s.on (.pwr .offPend) = false ∧ s.flt.records = []) ∧
    (∃ s : State, (s.ldr.st ≠ .disarming ∨ s.noneRemain = false)) ∧
    (∃ s : State, s.ldr.strictArm = true) ∧
    (∃ s : State, s.ldr.st = .loaded) :=
  ⟨⟨ready, 0xA4E5, 0, reaches (by decide +kernel), by decide +kernel⟩,
   ⟨ready, 0xA4E5, .glb .expert, reaches (by decide +kernel), by decide +kernel⟩,
   ⟨loaded, 0xA4E5, reaches (by decide +kernel), by decide +kernel⟩,
   ⟨armed, 0x8000A4E5, reaches (by decide +kernel), by decide +kernel⟩,
   ⟨State.atLdr live .disarming, by decide +kernel⟩,
   ⟨ready, by decide +kernel⟩,
   ⟨{ live with ldr := { strictArm := true } }, by decide +kernel⟩,
   ⟨ready, by decide +kernel⟩⟩

theorem witness_FusesBurnOnceVerified :
    (∃ s : State, ∃ v : Word, s.Reaches .ldr 0 ∧ (s.ldr.st = .empty ∨ s.ldr.st = .loaded) ∧ s.on (.ldr .fuseBusy) = false ∧
      v.toNat / 65536 = 0xF05E ∧ fuseOp v = 1 ∧ s.fuses.slots.getD (fuseSlot v) .blank = .blank) ∧
    (∃ s : State, ∃ v : Word, s.Reaches .ldr 0 ∧ (s.ldr.st = .empty ∨ s.ldr.st = .loaded) ∧ s.on (.ldr .fuseBusy) = false ∧
      v.toNat / 65536 = 0xF05E ∧ fuseOp v = 2 ∧ (revokeSlot s.fuses.slots (fuseSlot v)).any KeySlot.usable = true) ∧
    (∃ s : State, ∃ v : Word, s.Reaches .ldr 0 ∧ (s.ldr.st = .empty ∨ s.ldr.st = .loaded) ∧ s.on (.ldr .fuseBusy) = false ∧
      v.toNat / 65536 = 0xF05E ∧ fuseOp v = 3 ∧ s.ldr.st = .loaded) ∧
    (∃ s : State, ∃ v : Word, s.Reaches .ldr 0 ∧ (s.ldr.st = .empty ∨ s.ldr.st = .loaded) ∧ s.on (.ldr .fuseBusy) = false ∧
      v.toNat / 65536 = 0xF05E ∧ fuseOp v = 4) ∧
    (∃ s : State, ∃ v : Word, s.Reaches .ldr 0 ∧ (s.ldr.st = .empty ∨ s.ldr.st = .loaded) ∧ s.on (.ldr .fuseBusy) = false ∧
      v.toNat / 65536 = 0xF05E ∧ fuseOp v = 1 ∧ s.fuses.slots.getD (fuseSlot v) .blank ≠ .blank) ∧
    (∃ s : State, ∃ v : Word, s.Reaches .ldr 0 ∧ (s.ldr.st = .empty ∨ s.ldr.st = .loaded) ∧ s.on (.ldr .fuseBusy) = false ∧
      v.toNat / 65536 = 0xF05E ∧ fuseOp v = 2 ∧ (revokeSlot s.fuses.slots (fuseSlot v)).any KeySlot.usable = false) ∧
    (∃ s : State, ∃ v : Word, s.Reaches .ldr 0 ∧ (s.ldr.st = .empty ∨ s.ldr.st = .loaded) ∧ s.on (.ldr .fuseBusy) = false ∧
      v.toNat / 65536 = 0xF05E ∧ fuseOp v = 3 ∧ s.ldr.st = .empty) ∧
    (∃ s : State, ∃ v : Word, s.Reaches .ldr 0 ∧ (v.toNat / 65536 ≠ 0xF05E ∨ s.on (.ldr .fuseBusy) = true ∨ (s.ldr.st ≠ .empty ∧
      s.ldr.st ≠ .loaded)) ∧ fuseOp v = 1) ∧
    (∃ s : State, ∃ v : Word, s.Reaches .ldr 0 ∧ (v.toNat / 65536 ≠ 0xF05E ∨ s.on (.ldr .fuseBusy) = true ∨ (s.ldr.st ≠ .empty ∧
      s.ldr.st ≠ .loaded)) ∧ fuseOp v = 2) ∧
    (∃ s : State, ∃ v : Word, s.Reaches .ldr 0 ∧ (v.toNat / 65536 ≠ 0xF05E ∨ s.on (.ldr .fuseBusy) = true ∨ (s.ldr.st ≠ .empty ∧
      s.ldr.st ≠ .loaded)) ∧ fuseOp v = 3) ∧
    (∃ s : State, ∃ v : Word, s.Reaches .ldr 0 ∧ (v.toNat / 65536 ≠ 0xF05E ∨ s.on (.ldr .fuseBusy) = true ∨ (s.ldr.st ≠ .empty ∧
      s.ldr.st ≠ .loaded)) ∧ fuseOp v = 4) ∧
    (∃ s : State, ∃ j, ∃ i, ∃ h, s.ldr.fuseCmd = some j ∧ j = .programKey i h) ∧
    (∃ s : State, ∃ j, ∃ i, s.ldr.fuseCmd = some j ∧ j = .revoke i) ∧
    (∃ s : State, ∃ j, ∃ n, s.ldr.fuseCmd = some j ∧ j = .advance n) ∧
    (∃ s : State, ∃ j, s.ldr.fuseCmd = some j ∧ j = .lockTest) ∧
    (∃ s : State, ∃ v : Word, ∃ f : Fld, ∃ i, s.Reaches .ldr 0 ∧ v.getLsbD 0 = true ∧ (f, i) ≠ (.ldr .repLost, 0)) :=
  ⟨⟨loaded, 0xF05E0019, reaches (by decide +kernel), by decide +kernel⟩,
   ⟨{ live with fuses := { live.fuses with slots := [.programmed 5, .blank, .blank, .programmed 6] } }, 0xF05E001A,
     reaches (by decide +kernel), by decide +kernel⟩,
   ⟨loaded, 0xF05E0003, reaches (by decide +kernel), by decide +kernel⟩,
   ⟨live, 0xF05E0004, reaches (by decide +kernel), by decide +kernel⟩,
   ⟨{ live with fuses := { live.fuses with slots := [.programmed 5, .blank, .blank, .programmed 6] } }, 0xF05E0019,
     reaches (by decide +kernel), by decide +kernel⟩,
   ⟨{ live with fuses := { live.fuses with slots := [.blank, .blank, .blank, .programmed 6] } }, 0xF05E001A,
     reaches (by decide +kernel), by decide +kernel⟩,
   ⟨fusing (.programKey 3 5), 0xF05E0003, reaches (by decide +kernel), by decide +kernel⟩,
   ⟨armed, 0xF05E0001, reaches (by decide +kernel), by decide +kernel⟩,
   ⟨armed, 0xF05E0002, reaches (by decide +kernel), by decide +kernel⟩,
   ⟨loaded, 0xF05D0003, reaches (by decide +kernel), by decide +kernel⟩,
   ⟨loaded.wr (.ldr .fuseBusy) 0 1, 0xF05E0004, reaches (by decide +kernel), by decide +kernel⟩,
   ⟨fusing (.programKey 3 7), .programKey 3 7, 3, 7, by decide +kernel⟩,
   ⟨fusing (.revoke 3), .revoke 3, 3, by decide +kernel⟩,
   ⟨fusing (.advance 64), .advance 64, 64, by decide +kernel⟩,
   ⟨fusing .lockTest, .lockTest, by decide +kernel⟩,
   ⟨live, 0xFFFFFFFF, .glb .expert, 0, reaches (by decide +kernel), by decide +kernel⟩⟩

theorem witness_ApertureAccessesRun :
    (∃ s : State, ∃ x : Nat, ∃ data : List Byte, ∃ ups : List Upset, ∃ a, s.Sound ∧ s.hw.upsOk ups = true ∧ s.barUp = true ∧
      s.ldr.st ≠ .applying ∧ s.up .mem = true ∧ 1 ≤ data.length ∧ x + data.length ≤ 4294967296 ∧ 65536 * s.rd (.pgs .apbase) + x +
      data.length ≤ s.hw.usable ∧ s.touchesBand (65536 * s.rd (.pgs .apbase) + x) data.length = false ∧ 65536 * s.rd (.pgs
      .apbase) + x ≤ a ∧ a < 65536 * s.rd (.pgs .apbase) + x + data.length) ∧
    (∃ s : State, ∃ x : Nat, ∃ data : List Byte, ∃ ups : List Upset, ∃ a, s.Sound ∧ s.hw.upsOk ups = true ∧ s.barUp = true ∧
      s.ldr.st ≠ .applying ∧ s.up .mem = true ∧ 1 ≤ data.length ∧ x + data.length ≤ 4294967296 ∧ 65536 * s.rd (.pgs .apbase) + x +
      data.length ≤ s.hw.usable ∧ s.touchesBand (65536 * s.rd (.pgs .apbase) + x) data.length = false ∧ (a < 65536 * s.rd (.pgs
      .apbase) + x ∨ 65536 * s.rd (.pgs .apbase) + x + data.length ≤ a)) ∧
    (∃ s : State, ∃ x : Nat, ∃ data : List Byte, ∃ ups : List Upset, s.hw.upsOk ups = true ∧ 1 ≤ data.length ∧ x + data.length ≤
      4294967296 ∧ s.barUp = true ∧ s.ldr.st ≠ .applying ∧ s.up .mem = true ∧ s.hw.usable ≤ 65536 * s.rd (.pgs .apbase) + x) ∧
    (∃ s : State, ∃ x : Nat, ∃ data : List Byte, ∃ ups : List Upset, ∃ b, s.hw.upsOk ups = true ∧ 1 ≤ data.length ∧ x +
      data.length ≤ 4294967296 ∧ data = [b] ∧ s.barUp = true ∧ s.ldr.st ≠ .applying ∧ s.up .mem = true ∧ 65536 * s.rd (.pgs
      .apbase) + x < s.hw.usable ∧ s.touchesBand (65536 * s.rd (.pgs .apbase) + x) 1 = true) ∧
    (∃ s : State, ∃ x : Nat, ∃ data : List Byte, ∃ ups : List Upset, s.hw.upsOk ups = true ∧ 1 ≤ data.length ∧ x + data.length ≤
      4294967296 ∧ s.barUp = true ∧ s.ldr.st = .applying) ∧
    (∃ s : State, ∃ x : Nat, ∃ data : List Byte, ∃ ups : List Upset, s.hw.upsOk ups = true ∧ 1 ≤ data.length ∧ x + data.length ≤
      4294967296 ∧ (s.barUp = false ∨ s.ldr.st ≠ .applying ∧ s.up .mem = false)) ∧
    (∃ s : State, ∃ x : Nat, ∃ n : Nat, ∃ ups : List Upset, s.hw.upsOk ups = true ∧ 1 ≤ n ∧ x + n ≤ 4294967296 ∧ s.barUp = true ∧
      s.up .mem = true ∧ s.hw.usable < 65536 * s.rd (.pgs .apbase) + x + n) ∧
    (∃ s : State, ∃ x : Nat, ∃ n : Nat, ∃ ups : List Upset, s.hw.upsOk ups = true ∧ 1 ≤ n ∧ x + n ≤ 4294967296 ∧ s.barUp = true ∧
      s.up .mem = true ∧ ups = [] ∧ s.loam.ecc = []) ∧
    (∃ s : State, ∃ x : Nat, ∃ n : Nat, ∃ ups : List Upset, ∃ e, s.hw.upsOk ups = true ∧ 1 ≤ n ∧ x + n ≤ 4294967296 ∧ e ∈
      s.loam.ecc ∧ ups = [] ∧ s.barUp = true ∧ s.up .mem = true ∧ e.2 = .bad ∧ 64 * e.1 < 65536 * s.rd (.pgs .apbase) + x + n ∧
      65536 * s.rd (.pgs .apbase) + x < 64 * e.1 + 64 ∧ s.ecc e.1 = .bad ∧ 65536 * s.rd (.pgs .apbase) + x + n ≤ s.hw.usable) ∧
    (∃ s : State, ∃ x : Nat, ∃ n : Nat, ∃ ups : List Upset, s.hw.upsOk ups = true ∧ 1 ≤ n ∧ x + n ≤ 4294967296 ∧ s.barUp = true ∧
      s.up .mem = false) ∧
    (∃ s : State, ∃ x : Nat, ∃ n : Nat, ∃ ups : List Upset, s.hw.upsOk ups = true ∧ 1 ≤ n ∧ x + n ≤ 4294967296 ∧ s.barUp = false)
      :=
  ⟨⟨live, 0, [1], [], 0, ⟨by decide +kernel, by decide +kernel, by decide +kernel, by decide +kernel⟩, by decide +kernel⟩,
   ⟨live, 4294967294, [1, 2], [], 0, ⟨by decide +kernel, by decide +kernel, by decide +kernel, by decide +kernel⟩,
     by decide +kernel⟩,
   ⟨live.wr (.pgs .apbase) 0 262143, 4294967294, [1, 2], [], by decide +kernel⟩,
   ⟨store { st := .verified, extents := [0] } {}, 0, [1], [], 1, by decide +kernel⟩,
   ⟨State.atLdr live .applying, 0, [1], [], by decide +kernel⟩,
   ⟨State.reset, 0, [1], [], by decide +kernel⟩,
   ⟨live.wr (.pgs .apbase) 0 262143, 4294967295, 1, [], by decide +kernel⟩,
   ⟨live, 4294967294, 1, [], by decide +kernel⟩,
   ⟨{ live with loam := { ecc := [(7, .bad)] } }, 511, 1, [], (7, .bad), by decide +kernel⟩,
   ⟨{ live with inReset := [.mem] }, 0, 1, [], by decide +kernel⟩,
   ⟨State.reset, 4294967295, 1, [], by decide +kernel⟩⟩

theorem witness_OtherCommandsStoreNothing :
    ∃ i : Instr, ∃ s : State, ∃ t : State, writesStore i = false ∧ exec i s = .next t :=
  ⟨.stop 47, State.reset, State.reset, by decide +kernel, rfl⟩

theorem witness_StoreIsChecked :
    (∃ s : State, ∃ ups, s.hw.upsOk ups = true ∧ s.up .mem = true ∧ s.on (.pgs .scrubEn) = true) ∧
    (∃ s : State, s.up .mem = true ∧ s.on (.pgs .scrubEn) = true ∧ s.loam.ecc = []) ∧
    (∃ s : State, ∃ ups, s.hw.upsOk ups = true ∧ (s.up .mem = false ∨ s.on (.pgs .scrubEn) = false)) ∧
    (∃ s : State, ∃ b, s.ecc b = .single) ∧
    (∃ s : State, ∃ b, s.ecc b = .none) ∧
    (∃ s : State, ∃ r : Nat, ∃ cause, r < 131072 ∧ s.up .mem = true ∧ (s.band r).st = .checking ∧ (if (s.band r).crcIn ≠ (s.band
      r).check then 2 else if (s.band r).cut = true then 4 else if s.hw.exL = true then verifyCause (s.verifyBand (s.band r)).1
      else 0) = cause ∧ cause ≠ 0 ∧ ((s.ctx (s.band r).ctx).st = .opened ∨ (s.ctx (s.band r).ctx).st = .closed ∨ (s.ctx (s.band
      r).ctx).st = .ready) ∧ (s.ctx (s.band r).ctx).faulted = false) ∧
    (∃ s : State, ∃ r : Nat, ∃ cause, r < 131072 ∧ s.up .mem = true ∧ (s.band r).st = .checking ∧ (if (s.band r).crcIn ≠ (s.band
      r).check then 2 else if (s.band r).cut = true then 4 else if s.hw.exL = true then verifyCause (s.verifyBand (s.band r)).1
      else 0) = cause ∧ cause = 0 ∧ (s.ctx (s.band r).ctx).st = .closed) ∧
    (∃ s : State, ∃ r : Nat, r < 131072 ∧ (s.up .mem = false ∨ (s.band r).st ≠ .checking)) ∧
    (∃ s : State, ∃ ch, s.up .mem = true ∧ ch < 32 ∧ s.loam.held.contains ch = true ∧ (∀ e ∈ s.loam.ctxs, e.2.live = false)) ∧
    (∃ s : State, ∃ ch, ∃ e, s.up .mem = true ∧ ch < 32 ∧ e ∈ s.loam.ctxs ∧ e.2.live = true) ∧
    (∃ s : State, ∃ ch, s.up .mem = true ∧ ch < 32 ∧ s.loam.held.contains ch = false) ∧
    (∃ s : State, ∃ r, ∃ rest, ∃ q, s.up .mem = true ∧ s.loam.reclaim = r :: rest ∧ s.loam.held = [] ∧ q ≠ r) ∧
    (∃ s : State, s.up .mem = true ∧ s.loam.reclaim = []) :=
  ⟨⟨live.wr (.pgs .scrubEn) 0 1, [], by decide +kernel⟩,
   ⟨live.wr (.pgs .scrubEn) 0 1, by decide +kernel⟩,
   ⟨State.reset, [], by decide +kernel⟩,
   ⟨{ live with loam := { ecc := [(7, .single)] } }, 7, by decide +kernel⟩,
   ⟨live, 7, by decide +kernel⟩,
   ⟨store { st := .checking, ctx := 255, check := 1 } { st := .opened }, 131071, 2, by decide +kernel⟩,
   ⟨store { st := .checking, ctx := 255, plane := 7, extents := [0], storedLen := 33, raw := [0x55] }
     { st := .closed, planes := 128, lineBytes := 1 }, 131071, 0, by decide +kernel⟩,
   ⟨live.wr (.pgs .scrubEn) 0 1, 131071, by decide +kernel⟩,
   ⟨{ live with loam := { held := [31] } }, 31, by decide +kernel⟩,
   ⟨store {} { st := .admitted }, 31, (255, { st := .admitted }), by decide +kernel⟩,
   ⟨live.wr (.pgs .scrubEn) 0 1, 31, by decide +kernel⟩,
   ⟨{ store { st := .reclaiming, extents := [1] } {} with loam := { reclaim := [131071, 0] } }, 131071, [0], 0,
     by decide +kernel⟩,
   ⟨live.wr (.pgs .scrubEn) 0 1, by decide +kernel⟩⟩

theorem witness_GateEvaluates :
    (∃ s : State, s.up .mem = true ∧ s.loam.request = false) ∧
    (∃ s : State, ∃ f : Fld, ∃ i, s.up .mem = true ∧ s.loam.request = true ∧ s.gateRefusal ≠ 0 ∧ (f, i) ≠ (.pgs .admRefuse, 0)) ∧
    (∃ s : State, ∃ c, s.up .mem = true ∧ s.loam.request = true ∧ s.gateRefusal = 0 ∧ s.head = some c ∧ (s.on (.pgs .admMode) =
      false ∨ s.loam.hostOk = some c) ∧ s.cslRole ≠ 1) ∧
    (∃ s : State, ∃ c, ∃ p, s.up .mem = true ∧ s.loam.request = true ∧ s.gateRefusal = 0 ∧ s.head = some c ∧ s.on (.pgs .admMode)
      = true ∧ s.loam.hostOk ≠ some c ∧ (s.loam.withheld = false ∨ s.on (.pth .mode) = true) ∧ s.decisionOpen 1 c = false ∧
      s.routeOf 1 = some p ∧ (s.posts p).length < 32) ∧
    (∃ s : State, ∃ c, s.up .mem = true ∧ s.on (.pth .mode) = false ∧ s.loam.request = true ∧ s.gateRefusal = 0 ∧ s.head = some c
      ∧ s.on (.pgs .admMode) = true ∧ s.loam.hostOk ≠ some c ∧ (s.loam.withheld = true ∨ s.decisionOpen 1 c = true)) ∧
    (∃ s : State, s.ldr.st ≠ .armed) ∧
    (∃ s : State, s.gateRefusal ≠ 1 ∧ s.head = none) ∧
    (∃ s : State, ∃ c, s.gateRefusal ≠ 1 ∧ s.head = some c ∧ (s.ctx c).st ≠ .ready) ∧
    (∃ s : State, ∃ c, s.gateRefusal ≠ 1 ∧ s.head = some c ∧ (s.ctx c).st = .ready ∧ s.decPlan (s.ctx c) = none) ∧
    (∃ s : State, ∃ c, s.gateRefusal ≠ 1 ∧ s.head = some c ∧ (s.ctx c).st = .ready ∧ (s.decPlan (s.ctx c)).isSome = true ∧ s.rd
      (.pgs .loamBudget) * 512000000 < s.memDemand512 (some (s.ctx c))) :=
  ⟨⟨loaded, by decide +kernel⟩,
   ⟨{ loaded with loam := { request := true } }, .pgs .admMode, 0, by decide +kernel⟩,
   ⟨gateOpen .ready, 255, by decide +kernel⟩,
   ⟨((gateOpen .ready).wr (.pgs .admMode) 0 1).wr (.mbx .route) 1 14, 255, 14, by decide +kernel⟩,
   ⟨{ (gateOpen .ready).wr (.pgs .admMode) 0 1 with loam := { (gateOpen .ready).loam with withheld := true } }, 255,
     by decide +kernel⟩,
   ⟨loaded, by decide +kernel⟩,
   ⟨armed, by decide +kernel⟩,
   ⟨gateOpen .closed, 255, by decide +kernel⟩,
   ⟨queuedHead { st := .ready, queued := true, planes := 1, lineBytes := 20000 }, 255, by decide +kernel⟩,
   ⟨queuedHead { st := .ready, queued := true, planes := 1, lineBytes := 1, peak := 100000000 }, 255, by decide +kernel⟩⟩

theorem witness_LateDataStopsThePage :
    (∃ s : State, ∃ k : Nat, ∃ band : Nat, ∃ c : Nat, ∃ r : Nat, ∃ i : Instr, ∃ code : Nat, ∃ pos : Nat, ∃ cause, k < 8 ∧ band <
      4096 ∧ s.up .cmp = true ∧ s.vidUp k = true ∧ s.readingCtx k band = some (c, r) ∧ ((s.ctx c).st = .admitted ∨ (s.ctx c).st =
      .imaging) ∧ ((∃ off, i = .imagingReadUe k band off ∧ off < 2097151 ∧ off < (s.band r).storedLen ∧ ((if s.up .mem then
      s.setEcc ((s.band r).burst off) .bad else s).imagingEnd r (off / 64 * 64)).1 = (code, pos)) ∨ (i = .imagingDecodeError k
      band false ∧ (s.imagingEnd r (s.band r).storedLen).1 = (code, pos)) ∨ (i = .imagingDecodeError k band true ∧ (s.imagingEnd r
      (64 * ((s.fresh 15).1 % (((s.band r).storedLen + 63) / 64)))).1 = (code, pos))) ∧ code ≠ 0 ∧ (if code = 14 then 5 else if
      code = 9 ∨ code = 10 ∨ (code = 11 ∧ pos < (s.band r).storedLen) then 4 else 6) = cause ∧ (s.on (.pth .mode) = false ∨ cause
      = 4)) ∧
    (∃ s : State, ∃ k : Nat, ∃ band : Nat, ∃ c : Nat, ∃ r : Nat, ∃ i : Instr, ∃ code : Nat, ∃ pos : Nat, ∃ cause, k < 8 ∧ band <
      4096 ∧ s.up .cmp = true ∧ s.vidUp k = true ∧ s.readingCtx k band = some (c, r) ∧ ((s.ctx c).st = .admitted ∨ (s.ctx c).st =
      .imaging) ∧ ((∃ off, i = .imagingReadUe k band off ∧ off < 2097151 ∧ off < (s.band r).storedLen ∧ ((if s.up .mem then
      s.setEcc ((s.band r).burst off) .bad else s).imagingEnd r (off / 64 * 64)).1 = (code, pos)) ∨ (i = .imagingDecodeError k
      band false ∧ (s.imagingEnd r (s.band r).storedLen).1 = (code, pos)) ∨ (i = .imagingDecodeError k band true ∧ (s.imagingEnd r
      (64 * ((s.fresh 15).1 % (((s.band r).storedLen + 63) / 64)))).1 = (code, pos))) ∧ code ≠ 0 ∧ (if code = 14 then 5 else if
      code = 9 ∨ code = 10 ∨ (code = 11 ∧ pos < (s.band r).storedLen) then 4 else 6) = cause ∧ s.on (.pth .mode) = true ∧ cause ≠
      4) ∧
    (∃ s : State, ∃ k : Nat, ∃ band : Nat, ∃ c : Nat, ∃ r : Nat, ∃ i : Instr, ∃ code : Nat, ∃ pos : Nat, k < 8 ∧ band < 4096 ∧
      s.up .cmp = true ∧ s.vidUp k = true ∧ s.readingCtx k band = some (c, r) ∧ ((s.ctx c).st = .admitted ∨ (s.ctx c).st =
      .imaging) ∧ ((∃ off, i = .imagingReadUe k band off ∧ off < 2097151 ∧ off < (s.band r).storedLen ∧ ((if s.up .mem then
      s.setEcc ((s.band r).burst off) .bad else s).imagingEnd r (off / 64 * 64)).1 = (code, pos)) ∨ (i = .imagingDecodeError k
      band false ∧ (s.imagingEnd r (s.band r).storedLen).1 = (code, pos)) ∨ (i = .imagingDecodeError k band true ∧ (s.imagingEnd r
      (64 * ((s.fresh 15).1 % (((s.band r).storedLen + 63) / 64)))).1 = (code, pos))) ∧ code = 0 ∧ i = .imagingDecodeError k band
      false) :=
  ⟨⟨reading, 7, 4095, 255, 131071, .imagingDecodeError 7 4095 false, 11, 0, 6, by decide +kernel, by decide +kernel,
     by decide +kernel, by decide +kernel, by decide +kernel, by decide +kernel, .inr (.inl ⟨rfl, by decide +kernel⟩),
     by decide +kernel⟩,
   ⟨reading.wr (.pth .mode) 0 1, 7, 4095, 255, 131071, .imagingDecodeError 7 4095 false, 11, 0, 6, by decide +kernel,
     by decide +kernel, by decide +kernel, by decide +kernel, by decide +kernel, by decide +kernel, .inr (.inl ⟨rfl,
     by decide +kernel⟩), by decide +kernel⟩,
   ⟨readingGood, 7, 0, 255, 131071, .imagingDecodeError 7 0 false, 0, 0, by decide +kernel, by decide +kernel, by decide +kernel,
     by decide +kernel, by decide +kernel, by decide +kernel, .inr (.inl ⟨rfl, by decide +kernel⟩), by decide +kernel⟩⟩

theorem witness_ChannelCommandsRun :
    (∃ s : State, ∃ n : Nat, ∃ v : Word, n < 32 ∧ s.Reaches .dma 0 ∧ v.getLsbD 0 = true ∧ s.chanState n = 0 ∧ (if s.engineArmed
      then s.rd (.dma .kinds) n else bitField v.toNat 8 5) ≠ 0) ∧
    (∃ s : State, ∃ n : Nat, ∃ v : Word, n < 32 ∧ s.Reaches .dma 0 ∧ v.getLsbD 0 = true ∧ s.chanState n = 3 ∧ (if s.engineArmed
      then s.rd (.dma .kinds) n else bitField v.toNat 8 5) ≠ 0) ∧
    (∃ s : State, ∃ n : Nat, ∃ v : Word, n < 32 ∧ s.Reaches .dma 0 ∧ v.getLsbD 0 = true ∧ s.chanState n = 4 ∧ (if s.engineArmed
      then s.rd (.dma .kinds) n else bitField v.toNat 8 5) ≠ 0) ∧
    (∃ s : State, ∃ n : Nat, ∃ v : Word, n < 32 ∧ s.Reaches .dma 0 ∧ v.getLsbD 0 = true ∧ (s.chanState n = 1 ∨ s.chanState n = 2 ∨
      (if s.engineArmed then s.rd (.dma .kinds) n else bitField v.toNat 8 5) = 0)) ∧
    (∃ s : State, ∃ n : Nat, ∃ v : Word, n < 32 ∧ s.Reaches .dma 0 ∧ v.getLsbD 1 = true ∧ v.getLsbD 0 = false ∧ s.chanState n = 1
      ∧ ((s.chan n).begun = true ∨ (s.chan n).ended.isSome = true)) ∧
    (∃ s : State, ∃ n : Nat, ∃ v : Word, n < 32 ∧ s.Reaches .dma 0 ∧ v.getLsbD 1 = true ∧ v.getLsbD 0 = false ∧ s.chanState n = 1
      ∧ (s.chan n).begun = false ∧ (s.chan n).ended = none) ∧
    (∃ s : State, ∃ n : Nat, ∃ v : Word, n < 32 ∧ s.Reaches .dma 0 ∧ v.getLsbD 1 = true ∧ v.getLsbD 0 = false ∧ s.chanState n ≠ 1)
      ∧
    (∃ s : State, ∃ n : Nat, ∃ v : Word, n < 32 ∧ s.Reaches .dma 0 ∧ v.getLsbD 2 = true ∧ v.getLsbD 1 = false ∧ v.getLsbD 0 =
      false ∧ (s.chanState n = 3 ∨ s.chanState n = 4)) ∧
    (∃ s : State, ∃ n : Nat, ∃ v : Word, n < 32 ∧ s.Reaches .dma 0 ∧ v.getLsbD 2 = true ∧ v.getLsbD 1 = false ∧ v.getLsbD 0 =
      false ∧ s.chanState n ≠ 3 ∧ s.chanState n ≠ 4) ∧
    (∃ s : State, ∃ n : Nat, ∃ d : Desc, n < 32 ∧ s.up .host = true ∧ (s.chan n).desc = some d ∧ d.kind = 4 ∧ (s.chan n).ended =
      none ∧ 0 < s.periphFill (d.arg0 % 64) ∧ (d.arg0 % 64 ≤ 0x10 ∨ d.arg0 % 64 = 0x11 ∧ min (burstBytes (s.rd (.dma .burst) n))
      (d.length - (s.chan n).moved) ≤ s.periphFill 0x11)) ∧
    (∃ s : State, ∃ n : Nat, ∃ d : Desc, ∃ real, n < 32 ∧ s.up .host = true ∧ (s.chan n).desc = some d ∧ d.kind = 4 ∧ (s.chan
      n).ended = none ∧ (s.chan n).request = true ∧ real ≤ s.nextBurst n ∧ real ≤ 256) :=
  ⟨⟨live, 31, 0x1F01, by decide +kernel, reaches (by decide +kernel), by decide +kernel⟩,
   ⟨live.wr (.dma .state) 31 3, 31, 0x1F01, by decide +kernel, reaches (by decide +kernel), by decide +kernel⟩,
   ⟨live.wr (.dma .state) 31 4, 31, 0x1F01, by decide +kernel, reaches (by decide +kernel), by decide +kernel⟩,
   ⟨{ channel { desc := some (desc 4 64 15 0) } with mbx := { queues := [(15, [{ kind := 1, ans := true, unit := 0, token := 0, etime := 0, data := [] }])] } },
     31, 0x1F01, by decide +kernel, reaches (by decide +kernel), by decide +kernel⟩,
   ⟨channel { begun := true }, 31, 2, by decide +kernel, reaches (by decide +kernel), by decide +kernel⟩,
   ⟨channel {}, 31, 2, by decide +kernel, reaches (by decide +kernel), by decide +kernel⟩,
   ⟨live, 31, 2, by decide +kernel, reaches (by decide +kernel), by decide +kernel⟩,
   ⟨live.wr (.dma .state) 31 3, 31, 4, by decide +kernel, reaches (by decide +kernel), by decide +kernel⟩,
   ⟨channel {}, 31, 4, by decide +kernel, reaches (by decide +kernel), by decide +kernel⟩,
   ⟨{ channel { desc := some (desc 4 64 15 0) } with mbx := { queues := [(15, [{ kind := 1, ans := true, unit := 0, token := 0, etime := 0, data := [] }])] } },
     31, desc 4 64 15 0, by decide +kernel⟩,
   ⟨{ channel { desc := some (desc 4 64 15 0), request := true } with mbx := { queues := [(15, [{ kind := 1, ans := true, unit := 0, token := 0, etime := 0, data := [] }])] } },
     31, desc 4 64 15 0, 64, by decide +kernel⟩⟩

theorem witness_DescriptorsAreFetched :
    (∃ s : State, ∃ n : Nat, ∃ l : List Byte, n < 32 ∧ s.up .host = true ∧ s.chanState n = 1 ∧ (s.chan n).desc = none ∧ s.rd (.dma
      .head) n ≠ s.rd (.dma .tail) n % 2 ^ (s.chan n).log ∧ l.length = 32 ∧ (s.setChan n
      { base := (s.chan n).base, log := (s.chan n).log, desc := some (parseDesc l) }).descCheck n (parseDesc l) = none ∧
      ((parseDesc l).kind = 0 ∨ (parseDesc l).kind = 1)) ∧
    (∃ s : State, ∃ n : Nat, ∃ l : List Byte, n < 32 ∧ s.up .host = true ∧ s.chanState n = 1 ∧ (s.chan n).desc = none ∧ s.rd (.dma
      .head) n ≠ s.rd (.dma .tail) n % 2 ^ (s.chan n).log ∧ l.length = 32 ∧ (s.setChan n
      { base := (s.chan n).base, log := (s.chan n).log, desc := some (parseDesc l) }).descCheck n (parseDesc l) = none ∧
      (parseDesc l).kind = 4) ∧
    (∃ s : State, ∃ n : Nat, ∃ l : List Byte, ∃ e, n < 32 ∧ s.up .host = true ∧ s.chanState n = 1 ∧ (s.chan n).desc = none ∧ s.rd
      (.dma .head) n ≠ s.rd (.dma .tail) n % 2 ^ (s.chan n).log ∧ l.length = 32 ∧ (s.setChan n
      { base := (s.chan n).base, log := (s.chan n).log, desc := some (parseDesc l) }).descCheck n (parseDesc l) = none ∧
      ((parseDesc l).kind = 2 ∨ (parseDesc l).kind = 3) ∧ s.laneOf n = some e) ∧
    (∃ s : State, ∃ n : Nat, ∃ l : List Byte, ∃ cause, n < 32 ∧ s.up .host = true ∧ s.chanState n = 1 ∧ (s.chan n).desc = none ∧
      s.rd (.dma .head) n ≠ s.rd (.dma .tail) n % 2 ^ (s.chan n).log ∧ l.length = 32 ∧ (s.setChan n
      { base := (s.chan n).base, log := (s.chan n).log, desc := some (parseDesc l) }).descCheck n (parseDesc l) = some cause) ∧
    (∃ s : State, ∃ n : Nat, n < 32 ∧ (s.up .host = false ∨ s.chanState n ≠ 1 ∨ (s.chan n).desc.isSome = true ∨ s.rd (.dma .head)
      n = s.rd (.dma .tail) n % 2 ^ (s.chan n).log)) ∧
    (∃ s : State, ∃ l : Nat, ∃ n : Nat, ∃ rest : List Nat, ∃ d : Desc, ∃ r, ∃ o, l < 8 ∧ s.up .host = true ∧ s.laneInService l =
      true ∧ (s.lane l).cur = none ∧ (s.lane l).queue = n :: rest ∧ (s.chan n).desc = some d ∧ s.bandAccept d = true ∧
      s.freeRecord = some r ∧ s.findBand d.ctx d.plane d.bandNo = some o) ∧
    (∃ s : State, ∃ l : Nat, ∃ n : Nat, ∃ rest : List Nat, ∃ d : Desc, l < 8 ∧ s.up .host = true ∧ s.laneInService l = true ∧
      (s.lane l).cur = none ∧ (s.lane l).queue = n :: rest ∧ (s.chan n).desc = some d ∧ s.bandAccept d = true ∧ s.freeRecord =
      none) ∧
    (∃ s : State, ∃ l : Nat, ∃ n : Nat, ∃ rest : List Nat, ∃ d : Desc, l < 8 ∧ s.up .host = true ∧ s.laneInService l = true ∧
      (s.lane l).cur = none ∧ (s.lane l).queue = n :: rest ∧ (s.chan n).desc = some d ∧ s.bandAccept d = false) :=
  ⟨⟨fetching, 31, [1, 0, 0, 0, 64] ++ zeros 27, by decide +kernel⟩,
   ⟨fetching, 31, [4, 0, 0, 0, 64] ++ zeros 11 ++ [15] ++ zeros 15, by decide +kernel⟩,
   ⟨(fetching.wr (.cmp .chmap) 31 0).setCtx 255 { st := .opened, planes := 1, lineBytes := 1 }, 31, [2, 0, 0, 0, 1] ++ zeros 11 ++
     [255, 0, 0, 0, 1] ++ zeros 11, 0, by decide +kernel⟩,
   ⟨fetching, 31, 5 :: zeros 31, 5, by decide +kernel⟩,
   ⟨((channel { desc := some (desc 2 1 255 1) }).setLane 7 { queue := [31] }).setCtx 255
     { st := .opened, planes := 1, lineBytes := 1 }, 31, by decide +kernel⟩,
   ⟨{ (channel { desc := some repairDesc }).setLane 7 { queue := [31] } with loam := { bands := [(0, { st := .failed, ctx := 255 })], ctxs := [(255, { st := .stalled, planes := 1, lineBytes := 1 })] } },
     7, 31, [], repairDesc, 1, 0, by decide +kernel⟩,
   ⟨indexFull, 7, 31, [], desc 2 1 255 1, by decide +kernel, by decide +kernel, by decide +kernel, by decide +kernel,
     by decide +kernel, by decide +kernel, indexFull_accepts, indexFull_freeRecord⟩,
   ⟨(channel { desc := some (desc 2 1 255 1) }).setLane 7 { queue := [31] }, 7, 31, [], desc 2 1 255 1, by decide +kernel⟩⟩

theorem witness_BurstsMove :
    (∃ s : State, ∃ n : Nat, ∃ d : Desc, ∃ ups : List Upset, ∃ data : List Byte, ∃ r, s.up .host = true ∧ (s.chan n).desc = some d
      ∧ s.nextBurst n ≠ 0 ∧ s.hw.upsOk ups = true ∧ s.arbitrate = some n ∧ (d.kind = 2 ∨ d.kind = 3) ∧ s.nextBurst n ≤ data.length
      ∧ s.laneRuns (s.curLane n) = true ∧ (s.chan n).recNo = some r ∧ (s.band r).st = .filling ∧ s.laneRuns (s.band r).lane = true
      ∧ (s.chan n).discard = false ∧ (s.chan n).moved + s.nextBurst n < d.length) ∧
    (∃ s : State, ∃ n : Nat, ∃ d : Desc, ∃ ups : List Upset, ∃ data : List Byte, ∃ r, s.up .host = true ∧ (s.chan n).desc = some d
      ∧ s.nextBurst n ≠ 0 ∧ s.hw.upsOk ups = true ∧ s.arbitrate = some n ∧ (d.kind = 2 ∨ d.kind = 3) ∧ s.nextBurst n ≤ data.length
      ∧ s.laneRuns (s.curLane n) = true ∧ (s.chan n).recNo = some r ∧ (s.band r).st = .filling ∧ s.laneRuns (s.band r).lane = true
      ∧ (s.chan n).discard = false ∧ (s.chan n).moved + s.nextBurst n = d.length ∧ s.verifierOut (s.band r).lane = false) ∧
    (∃ s : State, ∃ n : Nat, ∃ d : Desc, ∃ ups : List Upset, ∃ data : List Byte, s.up .host = true ∧ (s.chan n).desc = some d ∧
      s.nextBurst n ≠ 0 ∧ s.hw.upsOk ups = true ∧ s.arbitrate = some n ∧ (d.kind = 2 ∨ d.kind = 3) ∧ s.nextBurst n ≤ data.length ∧
      s.laneRuns (s.curLane n) = false) ∧
    (∃ s : State, ∃ n : Nat, ∃ d : Desc, ∃ ups : List Upset, ∃ data : List Byte, ∃ i, s.up .host = true ∧ (s.chan n).desc = some d
      ∧ s.nextBurst n ≠ 0 ∧ s.hw.upsOk ups = true ∧ s.arbitrate = some n ∧ d.kind = 0 ∧ s.up .mem = true ∧ s.nextBurst n ≤
      data.length ∧ s.Sound ∧ i < s.nextBurst n) ∧
    (∃ s : State, ∃ n : Nat, ∃ d : Desc, ∃ ups : List Upset, ∃ data : List Byte, ∃ a, s.up .host = true ∧ (s.chan n).desc = some d
      ∧ s.nextBurst n ≠ 0 ∧ s.hw.upsOk ups = true ∧ s.arbitrate = some n ∧ d.kind = 0 ∧ s.up .mem = true ∧ s.nextBurst n ≤
      data.length ∧ s.Sound ∧ (a < d.loamAddr + (s.chan n).moved ∨ d.loamAddr + (s.chan n).moved + s.nextBurst n ≤ a)) ∧
    (∃ s : State, ∃ n : Nat, ∃ d : Desc, ∃ ups : List Upset, ∃ data : List Byte, s.up .host = true ∧ (s.chan n).desc = some d ∧
      s.nextBurst n ≠ 0 ∧ s.hw.upsOk ups = true ∧ s.arbitrate = some n ∧ d.kind = 0 ∧ s.up .mem = true ∧ s.nextBurst n ≤
      data.length ∧ s.Sound ∧ (s.chan n).moved + s.nextBurst n = d.length) ∧
    (∃ s : State, ∃ n : Nat, ∃ d : Desc, ∃ ups : List Upset, s.up .host = true ∧ (s.chan n).desc = some d ∧ s.nextBurst n ≠ 0 ∧
      s.hw.upsOk ups = true ∧ s.arbitrate = some n ∧ d.kind = 1 ∧ s.up .mem = true ∧ ((s.upset ups).readEcc (d.loamAddr + (s.chan
      n).moved) (s.nextBurst n)).1 = false) ∧
    (∃ s : State, ∃ n : Nat, ∃ d : Desc, ∃ ups : List Upset, s.up .host = true ∧ (s.chan n).desc = some d ∧ s.nextBurst n ≠ 0 ∧
      s.hw.upsOk ups = true ∧ s.arbitrate = some n ∧ d.kind = 1 ∧ s.up .mem = true ∧ ((s.upset ups).readEcc (d.loamAddr + (s.chan
      n).moved) (s.nextBurst n)).1 = true) ∧
    (∃ s : State, ∃ n : Nat, ∃ d : Desc, ∃ ups : List Upset, s.up .host = true ∧ (s.chan n).desc = some d ∧ s.nextBurst n ≠ 0 ∧
      s.hw.upsOk ups = true ∧ s.arbitrate = some n ∧ d.kind = 4) ∧
    (∃ s : State, ∃ n : Nat, ∃ d : Desc, ∃ ups : List Upset, ∃ r, s.up .host = true ∧ (s.chan n).desc = some d ∧ s.nextBurst n ≠ 0
      ∧ s.hw.upsOk ups = true ∧ n < 32 ∧ (s.chan n).recNo = some r ∧ (s.band r).st = .filling) ∧
    (∃ s : State, ∃ n : Nat, ∃ d : Desc, ∃ ups : List Upset, s.up .host = true ∧ (s.chan n).desc = some d ∧ s.nextBurst n ≠ 0 ∧
      s.hw.upsOk ups = true ∧ n < 32 ∧ (s.chan n).recNo = none) ∧
    (∃ s : State, ∃ n : Nat, ∃ d : Desc, ∃ e : Ending, n < 32 ∧ s.up .host = true ∧ (s.chan n).desc = some d ∧ (s.chan n).ended =
      some e ∧ e.bad = false) ∧
    (∃ s : State, ∃ n : Nat, ∃ d : Desc, ∃ e : Ending, n < 32 ∧ s.up .host = true ∧ (s.chan n).desc = some d ∧ (s.chan n).ended =
      some e ∧ e.bad = true) :=
  ⟨⟨bandMoving 0, 31, desc 2 100000 255 0, [], List.replicate 512 1, 131071, by decide +kernel⟩,
   ⟨bandMoving 99999, 31, desc 2 100000 255 0, [], [1], 131071, by decide +kernel⟩,
   ⟨channel { desc := some (desc 2 1 255 0), begun := true }, 31, desc 2 1 255 0, [], [1], by decide +kernel⟩,
   ⟨channel { desc := some (desc 0 64 0 0) }, 31, desc 0 64 0 0, [], List.replicate 64 1, 63, by decide +kernel,
     by decide +kernel, by decide +kernel, by decide +kernel, by decide +kernel, by decide +kernel, by decide +kernel,
     by decide +kernel, ⟨by decide +kernel, by decide +kernel, by decide +kernel, by decide +kernel⟩, by decide +kernel⟩,
   ⟨channel { desc := some (desc 0 64 0 0) }, 31, desc 0 64 0 0, [], List.replicate 64 1, 64, by decide +kernel,
     by decide +kernel, by decide +kernel, by decide +kernel, by decide +kernel, by decide +kernel, by decide +kernel,
     by decide +kernel, ⟨by decide +kernel, by decide +kernel, by decide +kernel, by decide +kernel⟩, by decide +kernel⟩,
   ⟨channel { desc := some (desc 0 64 0 0) }, 31, desc 0 64 0 0, [], List.replicate 64 1, by decide +kernel, by decide +kernel,
     by decide +kernel, by decide +kernel, by decide +kernel, by decide +kernel, by decide +kernel, by decide +kernel,
     ⟨by decide +kernel, by decide +kernel, by decide +kernel, by decide +kernel⟩, by decide +kernel⟩,
   ⟨channel { desc := some (desc 1 64 0 0) }, 31, desc 1 64 0 0, [], by decide +kernel⟩,
   ⟨{ channel { desc := some (desc 1 64 0 0) } with loam := { ecc := [(0, .bad)] } }, 31, desc 1 64 0 0, [], by decide +kernel⟩,
   ⟨{ channel { desc := some (desc 4 64 15 0), request := true } with mbx := { queues := [(15, [{ kind := 1, ans := true, unit := 0, token := 0, etime := 0, data := [] }])] } },
     31, desc 4 64 15 0, [], by decide +kernel⟩,
   ⟨bandMoving 0, 31, desc 2 100000 255 0, [], 131071, by decide +kernel⟩,
   ⟨(channel { desc := some (desc 2 100000 255 0), begun := true }).wr (.cmp .chmap) 31 0, 31, desc 2 100000 255 0, [],
     by decide +kernel⟩,
   ⟨channel { desc := some (desc 1 64 0 0), ended := some {} }, 31, desc 1 64 0 0, {}, by decide +kernel⟩,
   ⟨channel { desc := some (desc 1 64 0 0), ended := some { bad := true } }, 31, desc 1 64 0 0, { bad := true },
     by decide +kernel⟩⟩

theorem witness_JobCommandsRun :
    (∃ s : State, ∃ n : Nat, ∃ v : Word, n < 16 ∧ s.Reaches .cmp 0 ∧ s.buffers n = true ∧ v.toNat % 16 = 1 ∧ s.rd (.cmp .jState) n
      ≠ 1 ∧ s.rd (.cmp .jState) n ≠ 7 ∧ s.regionOk (s.rd (.cmp .inAddr) n) (s.rd (.cmp .inLen) n) = true ∧ s.regionOk (s.rd (.cmp
      .outAddr) n) (s.rd (.cmp .outLen) n) = true ∧ s.up .mem = true) ∧
    (∃ s : State, ∃ n : Nat, ∃ v : Word, n < 16 ∧ s.Reaches .cmp 0 ∧ s.buffers n = true ∧ v.toNat % 16 = 1 ∧ s.rd (.cmp .jState) n
      ≠ 1 ∧ s.rd (.cmp .jState) n ≠ 7 ∧ s.regionOk (s.rd (.cmp .inAddr) n) (s.rd (.cmp .inLen) n) = true ∧ s.regionOk (s.rd (.cmp
      .outAddr) n) (s.rd (.cmp .outLen) n) = true ∧ s.up .mem = false) ∧
    (∃ s : State, ∃ n : Nat, ∃ v : Word, n < 16 ∧ s.Reaches .cmp 0 ∧ s.buffers n = true ∧ v.toNat % 16 = 1 ∧ s.rd (.cmp .jState) n
      ≠ 1 ∧ s.rd (.cmp .jState) n ≠ 7 ∧ (s.regionOk (s.rd (.cmp .inAddr) n) (s.rd (.cmp .inLen) n) = false ∨ s.regionOk (s.rd
      (.cmp .outAddr) n) (s.rd (.cmp .outLen) n) = false)) ∧
    (∃ s : State, ∃ n : Nat, ∃ v : Word, n < 16 ∧ s.Reaches .cmp 0 ∧ s.buffers n = true ∧ v.toNat % 16 = 1 ∧ (s.rd (.cmp .jState)
      n = 1 ∨ s.rd (.cmp .jState) n = 7)) ∧
    (∃ s : State, ∃ n : Nat, ∃ v : Word, n < 16 ∧ s.Reaches .cmp 0 ∧ s.buffers n = true ∧ v.toNat % 16 = 2 ∧ (s.rd (.cmp .jState)
      n = 2 ∨ s.rd (.cmp .jState) n = 3 ∨ s.rd (.cmp .jState) n = 4) ∧ v.getLsbD 4 = false ∧ v.getLsbD 5 = false ∧ s.up .mem =
      true) ∧
    (∃ s : State, ∃ n : Nat, ∃ v : Word, n < 16 ∧ s.Reaches .cmp 0 ∧ s.buffers n = true ∧ v.toNat % 16 = 2 ∧ (s.rd (.cmp .jState)
      n = 2 ∨ s.rd (.cmp .jState) n = 3 ∨ s.rd (.cmp .jState) n = 4) ∧ v.getLsbD 4 = true ∧ (s.job n).bad = none ∧ s.regionOk
      (s.rd (.cmp .inAddr) n) (s.rd (.cmp .inLen) n) = true ∧ (v.getLsbD 5 = false ∨ s.regionOk (s.rd (.cmp .outAddr) n) (s.rd
      (.cmp .outLen) n) = true) ∧ s.up .mem = true) ∧
    (∃ s : State, ∃ n : Nat, ∃ v : Word, n < 16 ∧ s.Reaches .cmp 0 ∧ s.buffers n = true ∧ v.toNat % 16 = 2 ∧ (s.rd (.cmp .jState)
      n = 2 ∨ s.rd (.cmp .jState) n = 3 ∨ s.rd (.cmp .jState) n = 4) ∧ v.getLsbD 5 = true ∧ s.regionOk (s.rd (.cmp .outAddr) n)
      (s.rd (.cmp .outLen) n) = true ∧ (v.getLsbD 4 = false ∨ s.regionOk (s.rd (.cmp .inAddr) n) (s.rd (.cmp .inLen) n) = true) ∧
      s.up .mem = true) ∧
    (∃ s : State, ∃ n : Nat, ∃ v : Word, n < 16 ∧ s.Reaches .cmp 0 ∧ s.buffers n = true ∧ v.toNat % 16 = 2 ∧ (s.rd (.cmp .jState)
      n = 2 ∨ s.rd (.cmp .jState) n = 3 ∨ s.rd (.cmp .jState) n = 4) ∧ (v.getLsbD 4 = true ∧ s.regionOk (s.rd (.cmp .inAddr) n)
      (s.rd (.cmp .inLen) n) = false ∨ v.getLsbD 5 = true ∧ s.regionOk (s.rd (.cmp .outAddr) n) (s.rd (.cmp .outLen) n) = false))
      ∧
    (∃ s : State, ∃ n : Nat, ∃ v : Word, n < 16 ∧ s.Reaches .cmp 0 ∧ s.buffers n = true ∧ v.toNat % 16 = 2 ∧ s.rd (.cmp .jState) n
      ≠ 2 ∧ s.rd (.cmp .jState) n ≠ 3 ∧ s.rd (.cmp .jState) n ≠ 4) ∧
    (∃ s : State, ∃ n : Nat, n < 16 ∧ s.Reaches .cmp 0 ∧ s.buffers n = true ∧ s.rd (.cmp .jState) n = 1) ∧
    (∃ s : State, ∃ n : Nat, n < 16 ∧ s.Reaches .cmp 0 ∧ s.buffers n = true ∧ s.rd (.cmp .jState) n = 7) ∧
    (∃ s : State, ∃ n : Nat, n < 16 ∧ s.buffers n = true ∧ s.rd (.cmp .jState) n = 1 ∧ (s.jobRun n).halt = .full ∧ s.up .mem =
      true) ∧
    (∃ s : State, ∃ n : Nat, n < 16 ∧ s.buffers n = true ∧ s.rd (.cmp .jState) n = 1 ∧ (s.jobRun n).halt = .need ∧ s.up .mem =
      true) ∧
    (∃ s : State, ∃ n : Nat, n < 16 ∧ s.buffers n = true ∧ s.rd (.cmp .jState) n = 1 ∧ (s.jobRun n).halt = .done ∧ s.up .mem =
      true) ∧
    (∃ s : State, ∃ n : Nat, ∃ c, ∃ p, n < 16 ∧ s.buffers n = true ∧ s.rd (.cmp .jState) n = 1 ∧ (s.jobRun n).halt = .err c p) ∧
    (∃ s : State, ∃ n : Nat, n < 16 ∧ s.buffers n = true ∧ s.rd (.cmp .jState) n = 1 ∧ (s.job n).bad = none) :=
  ⟨⟨engine 15 0 {}, 15, 1, by decide +kernel, reaches (by decide +kernel), by decide +kernel⟩,
   ⟨{ engine 15 0 {} with inReset := [.mem] }, 15, 1, by decide +kernel, reaches (by decide +kernel), by decide +kernel⟩,
   ⟨((engine 15 0 {}).wr (.cmp .inAddr) 15 34359738367).wr (.cmp .inLen) 15 1, 15, 1, by decide +kernel,
     reaches (by decide +kernel), by decide +kernel⟩,
   ⟨engine 15 1 {}, 15, 1, by decide +kernel, reaches (by decide +kernel), by decide +kernel⟩,
   ⟨engine 15 2 {}, 15, 2, by decide +kernel, reaches (by decide +kernel), by decide +kernel⟩,
   ⟨engine 15 2 {}, 15, 0x12, by decide +kernel, reaches (by decide +kernel), by decide +kernel⟩,
   ⟨engine 15 3 {}, 15, 0x22, by decide +kernel, reaches (by decide +kernel), by decide +kernel⟩,
   ⟨((engine 15 4 {}).wr (.cmp .inAddr) 15 34359738367).wr (.cmp .inLen) 15 1, 15, 0x12, by decide +kernel,
     reaches (by decide +kernel), by decide +kernel⟩,
   ⟨engine 15 1 {}, 15, 2, by decide +kernel, reaches (by decide +kernel), by decide +kernel⟩,
   ⟨engine 15 1 {}, 15, by decide +kernel, reaches (by decide +kernel), by decide +kernel⟩,
   ⟨engine 15 7 {}, 15, by decide +kernel, reaches (by decide +kernel), by decide +kernel⟩,
   ⟨engine 7 1 { lineBytes := 1, lines := 1, input := [0x55], outLen := 5 }, 7, by decide +kernel⟩,
   ⟨engine 15 1 {}, 15, by decide +kernel⟩,
   ⟨engine 7 1 { lineBytes := 1, lines := 1, input := [0x55], outLen := 500 }, 7, by decide +kernel⟩,
   ⟨engine 15 1 { lineBytes := 1, lines := 1, input := List.replicate 40 1, outLen := 500 }, 15, 1, 0, by decide +kernel⟩,
   ⟨engine 15 1 {}, 15, by decide +kernel⟩⟩

theorem witness_StartsOfScanRun :
    (∃ s : State, ∃ k : Nat, ∃ sos : Nat, ∃ fine : Nat, ∃ last : Nat, k < 8 ∧ fine < 500 ∧ s.vidUp k = true ∧ (s.stn k).sos = some
      last ∧ s.on (.btu .flock) k = true ∧ s.on (.btu .synLock) k = true ∧ last + 10640000 ≤ s.sosTime k sos fine ∧ s.inWindow k
      last (s.sosTime k sos fine) = true) ∧
    (∃ s : State, ∃ k : Nat, ∃ sos : Nat, ∃ fine : Nat, ∃ last : Nat, k < 8 ∧ fine < 500 ∧ s.vidUp k = true ∧ (s.stn k).sos = some
      last ∧ s.sosTime k sos fine < last + 10640000) ∧
    (∃ s : State, ∃ k : Nat, ∃ sos : Nat, ∃ fine : Nat, ∃ last : Nat, k < 8 ∧ fine < 500 ∧ s.vidUp k = true ∧ (s.stn k).sos = some
      last ∧ s.on (.btu .flock) k = true ∧ s.inWindow k last (s.sosTime k sos fine) = false) ∧
    (∃ s : State, ∃ k : Nat, ∃ sos : Nat, ∃ fine : Nat, ∃ last : Nat, k < 8 ∧ fine < 500 ∧ s.vidUp k = true ∧ (s.stn k).sos = some
      last ∧ s.on (.btu .flock) k = false ∧ s.busy k = false ∧ s.on (.btu .indexSrc) k = false ∧ s.noSignature k = true ∧ last +
      10640000 ≤ s.sosTime k sos fine ∧ s.on (.btu .synLock) k = false ∧ (s.stn k).recal = false) ∧
    (∃ s : State, ∃ k : Nat, ∃ fine : Nat, k < 8 ∧ fine < 500 ∧ s.vidUp k = true ∧ (s.stn k).sos = none ∧ s.on (.btu .flock) k =
      false ∧ (s.on (.btu .indexSrc) k = true ∨ s.noSignature k = false) ∧ (s.stn k).index = false) ∧
    (∃ s : State, ∃ k : Nat, ∃ last : Nat, k < 8 ∧ s.vidUp k = true ∧ (s.stn k).sos = some last ∧ s.on (.btu .flock) k = true ∧
      (s.stn k).misses < s.rd (.btu .fly) k ∧ s.on (.btu .synLock) k = true) ∧
    (∃ s : State, ∃ k : Nat, ∃ last : Nat, k < 8 ∧ s.vidUp k = true ∧ (s.stn k).sos = some last ∧ s.on (.btu .flock) k = true ∧
      s.rd (.btu .fly) k ≤ (s.stn k).misses) :=
  ⟨⟨scanning true, 7, 212800, 0, 0, by decide +kernel⟩,
   ⟨scanning false, 7, 212799, 49, 0, by decide +kernel⟩,
   ⟨(scanning true).wr (.btu .fper) 112 1, 7, 212800, 499, 0, by decide +kernel⟩,
   ⟨scanning false, 7, 212800, 0, 0, by decide +kernel⟩,
   ⟨live.wr (.btu .indexSrc) 7 1, 7, 0, by decide +kernel⟩,
   ⟨(scanning true).wr (.btu .fly) 7 1, 7, 0, by decide +kernel⟩,
   ⟨(scanning true).wr (.btu .fly) 7 0, 7, 0, by decide +kernel⟩⟩

theorem witness_ScanClocksLock :
    (∃ s : State, ∃ k : Nat, k < 8 ∧ s.vidUp k = true ∧ s.on (.btu .indexSrc) k = true ∧ s.busy k = false) ∧
    (∃ s : State, ∃ k : Nat, k < 8 ∧ s.vidUp k = true ∧ (s.busy k = true ∨ s.on (.btu .indexSrc) k = false)) ∧
    (∃ s : State, ∃ k : Nat, ∃ r, k < 8 ∧ s.vidUp k = true ∧ s.on (.btu .flock) k = false ∧ s.on (.btu .indexSrc) k = false ∧
      s.busy k = false ∧ 16 * s.facets k ≤ (s.stn k).record.length ∧ bestRotation (s.facets k) (rotationError (s.facets k)
      (deviations (s.facets k) (s.stn k).record) fun i => s.rdS (.btu .fref) (16 * k + i)) = some r) ∧
    (∃ s : State, ∃ k : Nat, k < 8 ∧ s.vidUp k = true ∧ s.on (.btu .flock) k = false ∧ s.on (.btu .indexSrc) k = false ∧ s.busy k
      = false ∧ 16 * s.facets k ≤ (s.stn k).record.length ∧ bestRotation (s.facets k) (rotationError (s.facets k) (deviations
      (s.facets k) (s.stn k).record) fun i => s.rdS (.btu .fref) (16 * k + i)) = none) ∧
    (∃ s : State, ∃ k : Nat, ∃ p, ∃ rest, k < 8 ∧ s.vidUp k = true ∧ (s.lnk k).sets = p :: rest) ∧
    (∃ s : State, ∃ k : Nat, k < 8 ∧ s.vidUp k = true ∧ (s.lnk k).sets = []) :=
  ⟨⟨live.wr (.btu .indexSrc) 7 1, 7, by decide +kernel⟩,
   ⟨reading, 7, by decide +kernel⟩,
   ⟨(live.setStn 7 { record := List.replicate 16 5 }).wr (.btu .facets) 7 1, 7, 0, by decide +kernel⟩,
   ⟨((live.setStn 7 { record := List.replicate 32 5 }).wr (.btu .facets) 7 2).wr (.btu .fref) 112 1, 7, by decide +kernel⟩,
   ⟨live.setLnk 7 { sets := [[[1, 2]]] }, 7, [[1, 2]], [], by decide +kernel⟩,
   ⟨live.wr (.btu .indexSrc) 7 1, 7, by decide +kernel⟩⟩

theorem witness_LinksFollowTheirHeads :
    (∃ s : State, ∃ k : Nat, ∃ h, k < 8 ∧ s.vidUp k = true ∧ h < 16 ∧ h ≠ 0 ∧ h ≠ 15 ∧ s.rd (.blk .lstate) k = 0 ∧
      s.stationConfigured k = true) ∧
    (∃ s : State, ∃ k : Nat, ∃ h, k < 8 ∧ s.vidUp k = true ∧ h < 16 ∧ (h = 0 ∨ h = 15) ∧ s.rd (.blk .lstate) k = 0 ∧
      s.stationConfigured k = true) ∧
    (∃ s : State, ∃ k : Nat, ∃ h, k < 8 ∧ s.vidUp k = true ∧ h < 16 ∧ (s.rd (.blk .lstate) k ≠ 0 ∨ s.stationConfigured k = false))
      ∧
    (∃ s : State, ∃ k : Nat, k < 8 ∧ s.vidUp k = true ∧ s.rd (.blk .lstate) k = 1) ∧
    (∃ s : State, ∃ k : Nat, ∃ w : List Byte, ∃ rt, k < 8 ∧ s.vidUp k = true ∧ w.length = 56 ∧ wordOk w 0x83 = true ∧ s.rd (.blk
      .lstate) k = 2 ∧ s.identCheck k w = 0 ∧ (s.lnk k).roundTrip = some rt) ∧
    (∃ s : State, ∃ k : Nat, ∃ w : List Byte, k < 8 ∧ s.vidUp k = true ∧ w.length = 56 ∧ wordOk w 0x83 = true ∧ s.rd (.blk
      .lstate) k = 2 ∧ s.identCheck k w ≠ 0) ∧
    (∃ s : State, ∃ k : Nat, ∃ w : List Byte, ∃ turn, k < 8 ∧ s.vidUp k = true ∧ w.length = 56 ∧ wordOk w 0x84 = true ∧ leAt w 1 2
      = (s.lnk k).echoTag ∧ s.rd (.blk .lstate) k ≠ 0 ∧ (s.lnk k).turn = some turn) ∧
    (∃ s : State, ∃ k : Nat, ∃ w : List Byte, k < 8 ∧ s.vidUp k = true ∧ w.length = 56 ∧ wordOk w 0x84 = true ∧ leAt w 1 2 =
      (s.lnk k).echoTag ∧ s.rd (.blk .lstate) k ≠ 0 ∧ (s.lnk k).turn = none) ∧
    (∃ s : State, ∃ k : Nat, ∃ w : List Byte, k < 8 ∧ s.vidUp k = true ∧ w.length = 56 ∧ (wordOk w 0x84 = false ∨ leAt w 1 2 ≠
      (s.lnk k).echoTag)) ∧
    (∃ s : State, ∃ k : Nat, ∃ w : List Byte, k < 8 ∧ s.vidUp k = true ∧ w.length = 56 ∧ wordOk w 0x81 = true ∧ s.rd (.blk
      .lstate) k ≠ 0 ∧ s.rdS (.blk .trip) k ≤ toSigned 16 (leAt w 6 2)) ∧
    (∃ s : State, ∃ k : Nat, ∃ w : List Byte, k < 8 ∧ s.vidUp k = true ∧ w.length = 56 ∧ wordOk w 0x82 = true) ∧
    (∃ s : State, ∃ k : Nat, ∃ n, k < 8 ∧ s.vidUp k = true ∧ (s.lnk k).apc = some n ∧ 128 ≤ n ∧ s.rd (.blk .lstate) k = 4) ∧
    (∃ s : State, ∃ k : Nat, ∃ x : Meas, k < 8 ∧ s.vidUp k = true ∧ x.beam < 128) :=
  ⟨⟨{ live with ldr := { sections := [{ ty := 9, inst := 7, feature0 := true }] } }, 7, 14, by decide +kernel⟩,
   ⟨{ live with ldr := { sections := [{ ty := 9, inst := 7, feature0 := true }] } }, 7, 0, by decide +kernel⟩,
   ⟨linkAt 1, 7, 14, by decide +kernel⟩,
   ⟨linkAt 1, 7, by decide +kernel⟩,
   ⟨((linkAt 2).wr (.blk .hid) 7 1).setLnk 7 { roundTrip := some 5 }, 7, headWord ([0x83] ++ zeros 10 ++ [7, 128, 1]), 5,
     by decide +kernel⟩,
   ⟨linkAt 2, 7, headWord [0x83], by decide +kernel⟩,
   ⟨(linkAt 1).setLnk 7 { turn := some 40 }, 7, headWord [0x84], 40, by decide +kernel⟩,
   ⟨linkAt 1, 7, headWord [0x84], by decide +kernel⟩,
   ⟨{ live with ldr := { sections := [{ ty := 9, inst := 7, feature0 := true }] } }, 7, headWord ([0x83] ++ zeros 10 ++ [7, 128,
     1]), by decide +kernel⟩,
   ⟨(linkAt 5).wr (.blk .trip) 7 0, 7, headWord [0x81], by decide +kernel⟩,
   ⟨linkAt 5, 7, headWord [0x82], by decide +kernel⟩,
   ⟨(linkAt 4).setLnk 7 { apc := some 128 }, 7, 128, by decide +kernel⟩,
   ⟨live, 7, { beam := 127, full := true, none_ := true, m := 0 }, by decide +kernel⟩⟩

theorem witness_LaserEnable :
    (∃ s : State, ∃ k : Nat, ∃ v : Word, k < 8 ∧ s.vidUp k = true ∧ v.getLsbD 4 = true ∧ s.Reaches .blk k ∧ s.rd (.blk .lstate) k
      = 8) ∧
    (∃ s : State, ∃ k : Nat, ∃ v : Word, k < 8 ∧ s.vidUp k = true ∧ v.getLsbD 0 = true ∧ s.Reaches .blk k ∧ s.rd (.blk .ldReq) k =
      0 ∧ s.imageRuns = true) ∧
    (∃ s : State, ∃ k : Nat, ∃ v : Word, k < 8 ∧ s.vidUp k = true ∧ v.getLsbD 0 = true ∧ s.Reaches .blk k ∧ (s.rd (.blk .ldReq) k
      ≠ 0 ∨ s.imageRuns = false)) ∧
    (∃ s : State, ∃ k : Nat, k < 8 ∧ s.vidUp k = true ∧ s.rd (.blk .lden) k = 1 ∧ (s.rd (.blk .lstate) k = 4 ∨ s.rd (.blk .lstate)
      k = 5)) ∧
    (∃ s : State, ∃ k : Nat, k < 8 ∧ s.vidUp k = true ∧ (s.lnk k).request = true ∧ s.rd (.blk .lstate) k = 6) ∧
    (∃ s : State, ∃ k : Nat, k < 8 ∧ s.vidUp k = true ∧ (s.lnk k).request = false) ∧
    (∃ s : State, ∃ k : Nat, ∃ b : Nat, k < 8 ∧ b < 128 ∧ s.vidUp k = true ∧ s.Reaches .blk k ∧ (s.busy k = false ∨ s.canCover k
      (partner b) = true)) ∧
    (∃ s : State, ∃ k : Nat, ∃ b : Nat, k < 8 ∧ b < 128 ∧ s.vidUp k = true ∧ s.Reaches .blk k ∧ s.busy k = true ∧ s.canCover k
      (partner b) = false) ∧
    (∃ s : State, ∃ k : Nat, ∃ b : Nat, ∃ c, k < 8 ∧ b < 128 ∧ s.vidUp k = true ∧ s.Reaches .blk k ∧ s.beamSt k b = 2 ∧ ((s.lnk
      k).beam b).drv = false ∧ c < 128 ∧ c ≠ b) ∧
    (∃ s : State, ∃ k : Nat, ∃ b : Nat, k < 8 ∧ b < 128 ∧ s.vidUp k = true ∧ s.Reaches .blk k ∧ (s.beamSt k b ≠ 2 ∨ ((s.lnk
      k).beam b).drv = true)) ∧
    (∃ s : State, ∃ k : Nat, ∃ b : Nat, ∃ v : Word, k < 8 ∧ b < 128 ∧ s.vidUp k = true ∧ s.Reaches .blk k ∧ v.getLsbD 9 = true ∧
      s.rd (.blk .tempTrip) k = 1 ∧ (s.lnk k).hot = true) ∧
    (∃ s : State, ∃ k : Nat, ∃ b : Nat, ∃ v : Word, k < 8 ∧ b < 128 ∧ s.vidUp k = true ∧ s.Reaches .blk k ∧ v.getLsbD 9 = true ∧
      s.rd (.blk .tempTrip) k = 1 ∧ (s.lnk k).hot = false) :=
  ⟨⟨linkAt 8, 7, 16, by decide +kernel, by decide +kernel, by decide +kernel, reaches (by decide +kernel), by decide +kernel⟩,
   ⟨loaded, 7, 1, by decide +kernel, by decide +kernel, by decide +kernel, reaches (by decide +kernel), by decide +kernel⟩,
   ⟨live.setLnk 7 { request := true }, 7, 1, by decide +kernel, by decide +kernel, by decide +kernel, reaches (by decide +kernel),
     by decide +kernel⟩,
   ⟨(linkAt 4).wr (.blk .lden) 7 1, 7, by decide +kernel⟩,
   ⟨(linkAt 6).setLnk 7 { request := true }, 7, by decide +kernel⟩,
   ⟨live, 7, by decide +kernel⟩,
   ⟨linkAt 8, 7, 127, by decide +kernel, by decide +kernel, by decide +kernel, reaches (by decide +kernel), by decide +kernel⟩,
   ⟨reading, 7, 127, by decide +kernel, by decide +kernel, by decide +kernel, reaches (by decide +kernel), by decide +kernel⟩,
   ⟨live.wr (.blk .beamState) (bix 7 127) 2, 7, 127, 0, by decide +kernel, by decide +kernel, by decide +kernel,
     reaches (by decide +kernel), by decide +kernel⟩,
   ⟨linkAt 8, 7, 127, by decide +kernel, by decide +kernel, by decide +kernel, reaches (by decide +kernel), by decide +kernel⟩,
   ⟨(live.wr (.blk .tempTrip) 7 1).setLnk 7 { hot := true }, 7, 127, 512, by decide +kernel, by decide +kernel, by decide +kernel,
     reaches (by decide +kernel), by decide +kernel⟩,
   ⟨(linkAt 7).wr (.blk .tempTrip) 7 1, 7, 127, 512, by decide +kernel, by decide +kernel, by decide +kernel,
     reaches (by decide +kernel), by decide +kernel⟩⟩

theorem witness_MotionsStart :
    (∃ s : State, ∃ k : Nat, s.AxisOpen k ∧ (s.axSt k = 1 ∨ s.axSt k = 2) ∧ s.on (.mot .mode) k = false ∧ s.imageRuns = true ∧
      s.intoLimit k (s.rdS (.mot .target) k - s.cmdpos k) = false ∧ (s.on (.mot .homeReq) k = true → s.on (.mot .homed) k = true)
      ∧ (s.on (.mot .slimEn) k = true → s.on (.mot .homed) k = true → s.rdS (.mot .slimn) k ≤ s.rdS (.mot .target) k ∧ s.rdS (.mot
      .target) k ≤ s.rdS (.mot .slimp) k)) ∧
    (∃ s : State, ∃ k : Nat, s.AxisOpen k ∧ (s.axSt k = 1 ∨ s.axSt k = 2) ∧ s.on (.mot .mode) k = false ∧ s.imageRuns = true ∧
      s.intoLimit k (s.rdS (.mot .jogvel) k) = false) ∧
    (∃ s : State, ∃ k : Nat, s.AxisOpen k ∧ (s.axSt k = 1 ∨ s.axSt k = 2) ∧ s.on (.mot .mode) k = false ∧ s.intoLimit k
      (s.gearTarget k) = false) ∧
    (∃ s : State, ∃ k : Nat, s.AxisOpen k ∧ (s.axSt k = 1 ∨ s.axSt k = 2) ∧ s.on (.mot .mode) k = false ∧ s.intoLimit k
      (s.gearTarget k) = true) ∧
    (∃ s : State, ∃ k : Nat, s.AxisOpen k ∧ (s.axSt k = 1 ∨ s.axSt k = 2) ∧ s.on (.mot .mode) k = false ∧ s.imageRuns = false) ∧
    (∃ s : State, ∃ k : Nat, s.AxisOpen k ∧ (s.axSt k ≠ 1 ∧ s.axSt k ≠ 2 ∨ s.on (.mot .mode) k = true)) ∧
    (∃ s : State, ∃ k : Nat, s.AxisOpen k ∧ (s.axSt k = 1 ∨ s.axSt k = 2) ∧ s.on (.mot .mode) k = false ∧ s.imageRuns = true ∧
      s.intoLimit k (s.rdS (.mot .jogvel) k) = true) ∧
    (∃ s : State, ∃ k : Nat, s.AxisOpen k ∧ (s.axSt k = 1 ∨ s.axSt k = 2) ∧ s.on (.mot .mode) k = false ∧ s.imageRuns = true ∧
      s.intoLimit k (s.rdS (.mot .target) k - s.cmdpos k) = true) ∧
    (∃ s : State, ∃ k : Nat, s.AxisOpen k ∧ (s.axSt k = 1 ∨ s.axSt k = 2) ∧ s.on (.mot .mode) k = false ∧ s.imageRuns = true ∧
      s.intoLimit k (s.rdS (.mot .target) k - s.cmdpos k) = false ∧ s.on (.mot .homeReq) k = true ∧ s.on (.mot .homed) k = false)
      ∧
    (∃ s : State, ∃ k : Nat, s.AxisOpen k ∧ (s.axSt k = 1 ∨ s.axSt k = 2) ∧ s.on (.mot .mode) k = false ∧ s.imageRuns = true ∧
      s.intoLimit k (s.rdS (.mot .target) k - s.cmdpos k) = false ∧ s.on (.mot .slimEn) k = true ∧ s.on (.mot .homed) k = true ∧
      (s.rdS (.mot .slimp) k < s.rdS (.mot .target) k ∨ s.rdS (.mot .target) k < s.rdS (.mot .slimn) k)) :=
  ⟨⟨(axisAt 1).wr (.mot .homed) 47 1, 47, ⟨reaches (by decide +kernel), by decide +kernel, by decide +kernel, by decide +kernel,
     by decide +kernel⟩, by decide +kernel⟩,
   ⟨(axisAt 1).wr (.mot .homed) 47 1, 47, ⟨reaches (by decide +kernel), by decide +kernel, by decide +kernel, by decide +kernel,
     by decide +kernel⟩, by decide +kernel⟩,
   ⟨axisAt 1, 47, ⟨reaches (by decide +kernel), by decide +kernel, by decide +kernel, by decide +kernel, by decide +kernel⟩,
     by decide +kernel⟩,
   ⟨(((axisAt 1).setAxis 0 { v := 1 }).wr (.mot .gratio) 47 65536).wr (.mot .limP) 47 1, 47, ⟨reaches (by decide +kernel),
     by decide +kernel, by decide +kernel, by decide +kernel, by decide +kernel⟩, by decide +kernel⟩,
   ⟨State.atLdr (axisAt 1) .empty, 47, ⟨reaches (by decide +kernel), by decide +kernel, by decide +kernel, by decide +kernel,
     by decide +kernel⟩, by decide +kernel⟩,
   ⟨axisAt 0, 47, ⟨reaches (by decide +kernel), by decide +kernel, by decide +kernel, by decide +kernel, by decide +kernel⟩,
     by decide +kernel⟩,
   ⟨((axisAt 1).wr (.mot .jogvel) 47 1).wr (.mot .limP) 47 1, 47, ⟨reaches (by decide +kernel), by decide +kernel,
     by decide +kernel, by decide +kernel, by decide +kernel⟩, by decide +kernel⟩,
   ⟨((axisAt 1).wr (.mot .target) 47 1).wr (.mot .limP) 47 1, 47, ⟨reaches (by decide +kernel), by decide +kernel,
     by decide +kernel, by decide +kernel, by decide +kernel⟩, by decide +kernel⟩,
   ⟨axisAt 2, 47, ⟨reaches (by decide +kernel), by decide +kernel, by decide +kernel, by decide +kernel, by decide +kernel⟩,
     by decide +kernel⟩,
   ⟨((((axisAt 1).wr (.mot .slimEn) 47 1).wr (.mot .homed) 47 1).wr (.mot .target) 47 1).wr (.mot .slimp) 47 0, 47,
     ⟨reaches (by decide +kernel), by decide +kernel, by decide +kernel, by decide +kernel, by decide +kernel⟩,
     by decide +kernel⟩⟩

theorem witness_MotionsStop :
    (∃ s : State, ∃ k : Nat, s.AxisOpen k ∧ (s.axSt k = 2 ∨ s.axSt k = 3)) ∧
    (∃ s : State, ∃ k : Nat, ∃ i, s.AxisOpen k ∧ s.axSt k ≠ 2 ∧ s.axSt k ≠ 3 ∧ i ∈ [Instr.stop k, .qstop k]) ∧
    (∃ s : State, ∃ k : Nat, s.AxisOpen k ∧ s.axSt k ≠ 0) ∧
    (∃ s : State, ∃ k : Nat, ∃ i, s.AxisOpen k ∧ s.axSt k = 0 ∧ i ∈ [Instr.halt k, .disable k, .axisClear k, .home k, .setpos k])
      ∧
    (∃ s : State, ∃ k : Nat, s.AxisOpen k ∧ s.axSt k = 5 ∧ (∀ f ∈ axisEvents, s.on (.mot f) k = false)) ∧
    (∃ s : State, ∃ k : Nat, ∃ f, s.AxisOpen k ∧ s.axSt k = 5 ∧ f ∈ axisEvents ∧ s.on (.mot f) k = true) ∧
    (∃ s : State, ∃ k : Nat, s.AxisOpen k ∧ s.axSt k = 1 ∧ s.rd (.mot .method) k = 6) ∧
    (∃ s : State, ∃ k : Nat, s.AxisOpen k ∧ s.axSt k = 1 ∧ (s.rd (.mot .method) k = 1 ∨ s.rd (.mot .method) k = 4 ∨ (s.rd (.mot
      .method) k = 2 ∨ s.rd (.mot .method) k = 3 ∨ s.rd (.mot .method) k = 5) ∧ s.on (.mot .encEn) k = true)) ∧
    (∃ s : State, ∃ k : Nat, s.AxisOpen k ∧ s.axSt k = 1 ∧ (s.rd (.mot .method) k = 0 ∨ (s.rd (.mot .method) k = 2 ∨ s.rd (.mot
      .method) k = 3 ∨ s.rd (.mot .method) k = 5) ∧ s.on (.mot .encEn) k = false)) ∧
    (∃ s : State, ∃ k : Nat, ∃ v : Word, s.AxisOpen k ∧ s.on (.mot .mode) k = true ∧ (s.axSt k = 1 ∨ s.axSt k = 2) ∧ (s.axis
      k).segs.length < 16 ∧ v.toNat % 65536 ≠ 0) ∧
    (∃ s : State, ∃ k : Nat, ∃ v : Word, s.AxisOpen k ∧ s.on (.mot .mode) k = true ∧ (s.axSt k = 1 ∨ s.axSt k = 2) ∧ (s.axis
      k).segs.length < 16 ∧ v.toNat % 65536 = 0) ∧
    (∃ s : State, ∃ k : Nat, s.AxisOpen k ∧ (s.on (.mot .mode) k = false ∨ s.axSt k ≠ 1 ∧ s.axSt k ≠ 2 ∨ 16 ≤ (s.axis
      k).segs.length)) :=
  ⟨⟨axisAt 2, 47, ⟨reaches (by decide +kernel), by decide +kernel, by decide +kernel, by decide +kernel, by decide +kernel⟩,
     by decide +kernel⟩,
   ⟨axisAt 4, 47, .qstop 47, ⟨reaches (by decide +kernel), by decide +kernel, by decide +kernel, by decide +kernel,
     by decide +kernel⟩, by decide +kernel⟩,
   ⟨axisAt 4, 47, ⟨reaches (by decide +kernel), by decide +kernel, by decide +kernel, by decide +kernel, by decide +kernel⟩,
     by decide +kernel⟩,
   ⟨axisAt 0, 47, .setpos 47, ⟨reaches (by decide +kernel), by decide +kernel, by decide +kernel, by decide +kernel,
     by decide +kernel⟩, by decide +kernel⟩,
   ⟨axisAt 5, 47, ⟨reaches (by decide +kernel), by decide +kernel, by decide +kernel, by decide +kernel, by decide +kernel⟩,
     by decide +kernel⟩,
   ⟨(axisAt 5).wr (.mot .encErr) 47 1, 47, .encErr, ⟨reaches (by decide +kernel), by decide +kernel, by decide +kernel,
     by decide +kernel, by decide +kernel⟩, by decide +kernel⟩,
   ⟨(axisAt 1).wr (.mot .method) 47 6, 47, ⟨reaches (by decide +kernel), by decide +kernel, by decide +kernel, by decide +kernel,
     by decide +kernel⟩, by decide +kernel⟩,
   ⟨(axisAt 1).wr (.mot .method) 47 4, 47, ⟨reaches (by decide +kernel), by decide +kernel, by decide +kernel, by decide +kernel,
     by decide +kernel⟩, by decide +kernel⟩,
   ⟨(axisAt 1).wr (.mot .method) 47 0, 47, ⟨reaches (by decide +kernel), by decide +kernel, by decide +kernel, by decide +kernel,
     by decide +kernel⟩, by decide +kernel⟩,
   ⟨(axisAt 2).wr (.mot .mode) 47 1, 47, 65535, ⟨reaches (by decide +kernel), by decide +kernel, by decide +kernel,
     by decide +kernel, by decide +kernel⟩, by decide +kernel⟩,
   ⟨(axisAt 2).wr (.mot .mode) 47 1, 47, 0, ⟨reaches (by decide +kernel), by decide +kernel, by decide +kernel, by decide +kernel,
     by decide +kernel⟩, by decide +kernel⟩,
   ⟨axisAt 2, 47, ⟨reaches (by decide +kernel), by decide +kernel, by decide +kernel, by decide +kernel, by decide +kernel⟩,
     by decide +kernel⟩⟩

theorem witness_AxisCommandsTouchOneAxis :
    (∃ k : Nat, ∃ v : Word, ∃ i : Instr, ∃ s : State, ∃ t : State, ∃ j, i ∈ [.move k, .jog k, .gear k, .stop k, .home k, .setpos
      k, .enable k, .axisClear k, .segmentPush k v, .latchArm k v] ∧ exec i s = .next t ∧ j ≠ k) ∧
    (∃ k : Nat, ∃ v : Word, ∃ i : Instr, ∃ s : State, ∃ t : State, ∃ f, ∃ n, i ∈ [.move k, .jog k, .gear k, .stop k, .home k,
      .setpos k, .enable k, .axisClear k, .segmentPush k v, .latchArm k v] ∧ exec i s = .next t ∧ (Fld.mot f).outer n ≠ k ∧ f ≠
      .planOvr) :=
  ⟨⟨47, 0, .stop 47, State.reset, State.reset, 46, by decide +kernel, rfl, by decide +kernel⟩,
   ⟨47, 0, .stop 47, State.reset, State.reset, .target, 46, by decide +kernel, rfl, by decide +kernel⟩⟩

theorem witness_AxisInputsAct :
    (∃ s : State, ∃ k : Nat, ∃ v : Word, k < s.hw.axes ∧ s.up .mot = true ∧ (v.getLsbD 4 = true ∨ v.getLsbD 12 = true) ∧ s.Reaches
      .mot 0 ∧ v.getLsbD 4 = true) ∧
    (∃ s : State, ∃ k : Nat, ∃ v : Word, k < s.hw.axes ∧ s.up .mot = true ∧ (v.getLsbD 4 = true ∨ v.getLsbD 12 = true) ∧ s.Reaches
      .mot 0 ∧ v.getLsbD 12 = true) ∧
    (∃ s : State, ∃ k : Nat, ∃ i, k < s.hw.axes ∧ s.up .mot = true ∧ i < 2 ∧ (s.axis k).armed.contains i = true) ∧
    (∃ s : State, ∃ k : Nat, ∃ i, k < s.hw.axes ∧ s.up .mot = true ∧ i < 2 ∧ (s.axis k).armed.contains i = false) ∧
    (∃ s : State, ∃ k : Nat, k < s.hw.axes ∧ s.up .mot = true ∧ s.on (.mot .encEn) k = true ∧ s.rd (.mot .axtype) k < 3 ∧ s.rd
      (.mot .encMode) k ≠ 1) ∧
    (∃ s : State, ∃ k : Nat, k < s.hw.axes ∧ s.up .mot = true ∧ (s.on (.mot .encEn) k = false ∨ 3 ≤ s.rd (.mot .axtype) k ∨ s.rd
      (.mot .encMode) k = 1)) ∧
    (∃ s : State, ∃ k : Nat, k < s.hw.axes ∧ s.up .mot = true ∧ s.on (.mot .encEn) k = true ∧ s.rd (.mot .axtype) k < 3 ∧
      -140737488355328 < s.actpos k ∧ s.actpos k < 140737488355327 ∧ s.rd (.mot .encMode) k ≠ 2) ∧
    (∃ s : State, ∃ k : Nat, ∃ pos : Bool, k < s.hw.axes ∧ s.up .mot = true ∧ s.planned k = true ∧ s.homingNow k = false ∧ (if pos
      then 0 < (s.axis k).v else (s.axis k).v < 0)) ∧
    (∃ s : State, ∃ k : Nat, ∃ pos : Bool, k < s.hw.axes ∧ s.up .mot = true ∧ s.planned k = true ∧ s.homingNow k = false ∧ ¬(if
      pos then 0 < (s.axis k).v else (s.axis k).v < 0)) ∧
    (∃ s : State, ∃ k : Nat, ∃ pos, k < s.hw.axes ∧ s.up .mot = true ∧ s.homingNow k = true ∧ s.limitIsHome k pos = false) ∧
    (∃ s : State, ∃ k : Nat, ∃ pos, k < s.hw.axes ∧ s.up .mot = true ∧ s.homingNow k = true ∧ s.limitIsHome k pos = true) ∧
    (∃ s : State, ∃ k : Nat, ∃ a, k < s.hw.axes ∧ s.up .mot = true ∧ s.homingNow k = true ∧ s.hst k = 2 ∧ s.rd (.mot .method) k ≠
      3 ∧ s.rd (.mot .method) k ≠ 5 ∧ (s.axis k).committed = false ∧ a ≠ s.refRaw k ∧ a ≠ s.on (.mot .hedge) k) ∧
    (∃ s : State, ∃ k : Nat, ∃ a, k < s.hw.axes ∧ s.up .mot = true ∧ s.homingNow k = true ∧ s.hst k = 2 ∧ s.rd (.mot .method) k ≠
      3 ∧ s.rd (.mot .method) k ≠ 5 ∧ (s.axis k).committed = false ∧ a ≠ s.refRaw k ∧ a = s.on (.mot .hedge) k ∧ (s.axis
      k).cand.isSome = true) ∧
    (∃ s : State, ∃ k : Nat, ∃ c, ∃ a, k < s.hw.axes ∧ s.up .mot = true ∧ s.homingNow k = true ∧ s.hst k = 2 ∧ s.rd (.mot .method)
      k ≠ 3 ∧ s.rd (.mot .method) k ≠ 5 ∧ (s.axis k).committed = false ∧ (s.axis k).cand = some (c, a) ∧ s.rd (.mot .method) k ≠
      2) ∧
    (∃ s : State, ∃ k : Nat, ∃ c, ∃ a, k < s.hw.axes ∧ s.up .mot = true ∧ s.homingNow k = true ∧ s.hst k = 2 ∧ s.rd (.mot .method)
      k ≠ 3 ∧ s.rd (.mot .method) k ≠ 5 ∧ (s.axis k).committed = false ∧ (s.axis k).cand = some (c, a) ∧ s.rd (.mot .method) k =
      2) ∧
    (∃ s : State, ∃ k : Nat, k < s.hw.axes ∧ s.up .mot = true ∧ s.homingNow k = true ∧ (s.hst k = 3 ∨ s.hst k = 2 ∧ s.rd (.mot
      .method) k = 3) ∧ s.on (.mot .encEn) k = true) :=
  ⟨⟨axisAt 1, 47, 0x10, by decide +kernel, by decide +kernel, by decide +kernel, reaches (by decide +kernel), by decide +kernel⟩,
   ⟨axisAt 1, 47, 0x1000, by decide +kernel, by decide +kernel, by decide +kernel, reaches (by decide +kernel),
     by decide +kernel⟩,
   ⟨axisAt 1 { armed := [1] }, 47, 1, by decide +kernel⟩,
   ⟨axisAt 1, 47, 0, by decide +kernel⟩,
   ⟨(axisAt 1).wr (.mot .encEn) 47 1, 47, by decide +kernel⟩,
   ⟨axisAt 1, 47, by decide +kernel⟩,
   ⟨(axisAt 1).wr (.mot .encEn) 47 1, 47, by decide +kernel⟩,
   ⟨axisAt 2 { v := 1 }, 47, true, by decide +kernel⟩,
   ⟨axisAt 2, 47, true, by decide +kernel⟩,
   ⟨(homing 2).wr (.mot .hedge) 47 0, 47, 1, by decide +kernel⟩,
   ⟨(homing 2).wr (.mot .method) 47 4, 47, true, by decide +kernel⟩,
   ⟨(homing 2).wr (.mot .hedge) 47 0, 47, true, by decide +kernel⟩,
   ⟨(homing 2 { cand := some (0, 0) }).wr (.mot .hedge) 47 1, 47, true, by decide +kernel⟩,
   ⟨homing 2 { cand := some (-1, -1) }, 47, -1, -1, by decide +kernel⟩,
   ⟨(homing 2 { cand := some (-1, -1) }).wr (.mot .method) 47 2, 47, -1, -1, by decide +kernel⟩,
   ⟨(homing 3).wr (.mot .encEn) 47 1, 47, by decide +kernel⟩⟩

theorem witness_ClocksMoveAxes :
    (∃ s : State, ∃ k, s.up .mot = true ∧ k < s.hw.axes ∧ s.planned k = true ∧ s.unitOut (.axis k) = false ∧ (s.axis k).phase < 2
      ^ 48) ∧
    (∃ s : State, ∃ k, s.up .mot = true ∧ (s.axis k).j = 0 ∧ (s.axis k).still = true ∧ (s.axis k).due = 0 ∧ (s.axis k).hold = 0) ∧
    (∃ v0 : Int, ∃ vmax : Int, ∃ amax : Int, ∃ dmax : Int, 0 ≤ amax ∧ 0 ≤ dmax ∧ 0 ≤ vmax ∧ (v0.natAbs : Int) ≤ vmax) ∧
    (∃ jmax : Int, 0 ≤ jmax) ∧
    (∃ s : State, s.up .mot = false ∧ s.flt.records = []) :=
  ⟨⟨axisAt 1, 47, by decide +kernel⟩,
   ⟨live, 7, by decide +kernel⟩,
   ⟨-1, 1, 0, 0, by decide +kernel⟩,
   ⟨0, by decide +kernel⟩,
   ⟨State.reset, by decide +kernel⟩⟩

theorem witness_SlotCommandsRun :
    (∃ s : State, ∃ n : Nat, s.SlotOpen n ∧ s.slotSt n ≤ 3) ∧
    (∃ s : State, ∃ n : Nat, s.SlotOpen n ∧ s.slotSt n = 0 ∧ s.initWaits n = false) ∧
    (∃ s : State, ∃ n : Nat, s.SlotOpen n ∧ s.slotSt n = 0 ∧ s.initWaits n = true) ∧
    (∃ s : State, ∃ n : Nat, s.SlotOpen n ∧ s.slotSt n = 2) ∧
    (∃ s : State, ∃ n : Nat, s.SlotOpen n ∧ (s.slotSt n = 0 ∨ s.slotSt n = 1)) ∧
    (∃ s : State, ∃ n : Nat, s.SlotOpen n ∧ s.slotSt n ≠ 5 ∧ s.rdS (.cle .umin) n ≤ s.rdS (.cle .umax) n) ∧
    (∃ s : State, ∃ n : Nat, s.SlotOpen n ∧ s.slotSt n = 3 ∧ 2 * s.rd (.cle .pn) n ≤ (s.slot n).good ∧ (s.rdS (.cle .yOut) n -
      s.rdS (.cle .ymOut) n).natAbs ≤ 4 * s.rd (.cle .plim) n * 32768) ∧
    (∃ s : State, ∃ n : Nat, s.SlotOpen n ∧ s.slotSt n = 4 ∧ s.on (.cle .pfailEv) n = false ∧ s.on (.cle .fbtoEv) n = false ∧ s.on
      (.cle .satEv) n = false) ∧
    (∃ s : State, ∃ n : Nat, s.SlotOpen n ∧ s.ldr.st ≠ .armed ∧ (s.slotSt n = 2 ∨ s.slotSt n = 1 ∧ s.rd (.cle .injPoint) n = 1)) ∧
    (∃ s : State, ∃ n : Nat, s.SlotOpen n ∧ s.decisionPosted 4 n = true) ∧
    (∃ s : State, ∃ n : Nat, ∃ i : Instr, ∃ cause : Nat, s.SlotOpen n ∧ (i, cause) ∈ (if 4 ≤ s.slotSt n then [(Instr.slotOff n,
      1)] else []) ++ (if s.slotSt n ≠ 0 ∧ s.slotSt n ≠ 2 then [(Instr.slotManual n, 1)] else []) ++ (if 2 ≤ s.slotSt n then
      [(Instr.slotAuto n, 1)] else []) ++ (if s.slotSt n ≠ 2 then [(Instr.slotPreset n, 1)] else []) ++ (if s.slotSt n = 5 then
      [(Instr.slotCommit n, 1)] else if s.rdS (.cle .umax) n < s.rdS (.cle .umin) n then [(Instr.slotCommit n, 6)] else []) ++ (if
      s.slotSt n ≠ 3 then [(Instr.slotResume n, 1)] else if (s.slot n).good < 2 * s.rd (.cle .pn) n then [(Instr.slotResume n, 4)]
      else []) ++ (if s.slotSt n ≠ 4 ∨ s.on (.cle .pfailEv) n = true ∨ s.on (.cle .fbtoEv) n = true ∨ s.on (.cle .satEv) n = true
      then [(Instr.slotClear n, 1)] else []) ++ (if s.ldr.st = .armed then [(Instr.injStart n, 3)] else if s.slotSt n = 0 ∨ 3 ≤
      s.slotSt n then [(Instr.injStart n, 1)] else []) ++ (if s.decisionPosted 4 n = false then [(Instr.slotStay n, 1),
      (Instr.slotStop n, 1)] else [])) ∧
    (∃ s : State, ∃ n : Nat, ∃ i : Instr, s.Reaches .cle 0 ∧ n < 128 ∧ i ∈ [.slotOff n, .slotManual n, .slotAuto n, .slotPreset n,
      .slotCommit n, .slotResume n, .slotClear n, .injStart n, .injStop n, .slotStay n, .slotStop n] ∧ s.on (.cle .slotEn) n =
      false) ∧
    (∃ s : State, ∃ n : Nat, ∃ i : Instr, s.Reaches .cle 0 ∧ n < 128 ∧ i ∈ [.slotOff n, .slotManual n, .slotAuto n, .slotPreset n,
      .slotCommit n, .slotResume n, .slotClear n, .injStart n, .injStop n, .slotStay n, .slotStop n] ∧ s.on (.cle .slotEn) n =
      true ∧ s.imageRuns = false) :=
  ⟨⟨slotAt 3, 127, ⟨reaches (by decide +kernel), by decide +kernel, by decide +kernel, by decide +kernel⟩, by decide +kernel⟩,
   ⟨slotAt 0, 127, ⟨reaches (by decide +kernel), by decide +kernel, by decide +kernel, by decide +kernel⟩, by decide +kernel⟩,
   ⟨{ slotAt 0 { returned := true } with loam := { ctxs := [(255, { st := .imaging })] } }, 127, ⟨reaches (by decide +kernel),
     by decide +kernel, by decide +kernel, by decide +kernel⟩, by decide +kernel⟩,
   ⟨(slotAt 2).wr (.cle .umax) 127 0x7FFFFFFF, 127, ⟨reaches (by decide +kernel), by decide +kernel, by decide +kernel,
     by decide +kernel⟩, by decide +kernel⟩,
   ⟨slotAt 1, 127, ⟨reaches (by decide +kernel), by decide +kernel, by decide +kernel, by decide +kernel⟩, by decide +kernel⟩,
   ⟨(slotAt 2).wr (.cle .umax) 127 0x7FFFFFFF, 127, ⟨reaches (by decide +kernel), by decide +kernel, by decide +kernel,
     by decide +kernel⟩, by decide +kernel⟩,
   ⟨slotAt 3 { good := 131070 }, 127, ⟨reaches (by decide +kernel), by decide +kernel, by decide +kernel, by decide +kernel⟩,
     by decide +kernel⟩,
   ⟨slotAt 4, 127, ⟨reaches (by decide +kernel), by decide +kernel, by decide +kernel, by decide +kernel⟩, by decide +kernel⟩,
   ⟨(slotAt 2).wr (.cle .umax) 127 0x7FFFFFFF, 127, ⟨reaches (by decide +kernel), by decide +kernel, by decide +kernel,
     by decide +kernel⟩, by decide +kernel⟩,
   ⟨{ slotAt 3 with mbx := (asked 4 127).mbx }, 127, ⟨reaches (by decide +kernel), by decide +kernel, by decide +kernel,
     by decide +kernel⟩, by decide +kernel⟩,
   ⟨slotAt 4, 127, .slotOff 127, 1, ⟨reaches (by decide +kernel), by decide +kernel, by decide +kernel, by decide +kernel⟩,
     by decide +kernel⟩,
   ⟨loaded, 127, .slotStop 127, reaches (by decide +kernel), by decide +kernel⟩,
   ⟨live.wr (.cle .slotEn) 127 1, 127, .slotOff 127, reaches (by decide +kernel), by decide +kernel⟩⟩

theorem witness_SlotsExecute :
    (∃ s : State, ∃ n : Nat, ∃ ain, n < s.hw.slots ∧ s.up .ctl = true ∧ s.on (.cle .slotEn) n = true ∧ s.unitOut (.slot n) = false
      ∧ ain < 16384 ∧ s.slotSt n ≠ 5 ∧ s.slotSt n = 1 ∧ (s.slot n).req = .none ∧ (s.slot n).commit = false ∧ s.lvS (.cle .umin) n
      ≤ s.lvS (.cle .umax) n) ∧
    (∃ s : State, ∃ n : Nat, ∃ ain, n < s.hw.slots ∧ s.up .ctl = true ∧ s.on (.cle .slotEn) n = true ∧ s.unitOut (.slot n) = false
      ∧ ain < 16384 ∧ s.slotSt n ≠ 5 ∧ s.slotSt n = 0 ∧ (s.slot n).req = .none ∧ (s.slot n).commit = false ∧ (s.slot n).held =
      false) ∧
    (∃ s : State, ∃ n : Nat, n < s.hw.slots ∧ s.up .ctl = true ∧ s.on (.cle .slotEn) n = true ∧ s.unitOut (.slot n) = false ∧
      s.slotSt n = 3 ∧ (s.slot n).fbTold = false) ∧
    (∃ s : State, ∃ n : Nat, n < s.hw.slots ∧ s.up .ctl = true ∧ s.on (.cle .slotEn) n = true ∧ s.unitOut (.slot n) = false ∧
      s.slotSt n = 3 ∧ (s.slot n).fbTold = true) ∧
    (∃ s : State, ∃ n : Nat, n < 128 ∧ s.slotSt n ≠ 3) ∧
    (∃ s : State, ∃ n : Nat, ∃ ain, n < 128 ∧ (s.on (.cle .slotEn) n = false ∨ s.slotSt n = 5) ∧ ain < 16384) ∧
    (∃ s : State, ∃ v : Word, s.Reaches .cle 0 ∧ v.getLsbD 0 = true) ∧
    (∃ s : State, ∃ v : Word, s.Reaches .cle 0 ∧ v.getLsbD 1 = true ∧ v.getLsbD 0 = false ∧ s.rd (.cle .cstate) = 1) ∧
    (∃ s : State, ∃ v : Word, s.Reaches .cle 0 ∧ v.getLsbD 1 = true ∧ v.getLsbD 0 = false ∧ s.rd (.cle .cstate) ≠ 1) ∧
    (∃ s : State, ∃ v : Word, s.Reaches .cle 0 ∧ v.getLsbD 2 = true ∧ v.getLsbD 1 = false ∧ v.getLsbD 0 = false) :=
  ⟨⟨(slotAt 1).wr (.cle .umax) 127 0x7FFFFFFF, 127, 16383, by decide +kernel⟩,
   ⟨slotAt 0, 127, 0, by decide +kernel⟩,
   ⟨slotAt 3, 127, by decide +kernel⟩,
   ⟨slotAt 3 { fbTold := true }, 127, by decide +kernel⟩,
   ⟨(slotAt 1).wr (.cle .umax) 127 0x7FFFFFFF, 127, by decide +kernel⟩,
   ⟨live, 127, 16383, by decide +kernel⟩,
   ⟨live, 7, reaches (by decide +kernel), by decide +kernel⟩,
   ⟨live.wr (.cle .cstate) 0 1, 6, reaches (by decide +kernel), by decide +kernel⟩,
   ⟨(slotAt 1).wr (.cle .umax) 127 0x7FFFFFFF, 6, reaches (by decide +kernel), by decide +kernel⟩,
   ⟨live, 4, reaches (by decide +kernel), by decide +kernel⟩⟩

theorem witness_MainsIsTracked :
    (∃ s : State, ∃ t₀ : Nat, ∃ vrms : Option Nat, ∃ z : Nat, ∃ h : Nat, ∃ bad : Nat, ∃ hs : List Nat, s.up .ctl = true ∧ (∀ v,
      vrms = some v → v < 4096) ∧ z = ((t₀ : Int) + s.rdS (.fhv .zcOfs) * 1000).toNat ∧ (∀ last, s.fhv.zc = some last →
      s.fhv.halves ≠ [] → 10 * (((z : Int) - last) - s.rd (.fhv .halfper)).natAbs ≤ s.rd (.fhv .halfper)) ∧ hs = (match s.fhv.zc
      with | some last => ((z - last) :: s.fhv.halves).take 8 | none => s.fhv.halves) ∧ h = hs.sum / hs.length ∧ bad = (match vrms
      with | some v => if 850 ≤ v ∧ v ≤ 2650 then 0 else s.fhv.badV + 1 | none => s.fhv.badV) ∧ bad < 4 ∧ (hs = [] ∨ (1000000000 ≤
      h * 130 ∧ h * 90 ≤ 1000000000)) ∧ hs ≠ []) ∧
    (∃ s : State, ∃ t₀ : Nat, ∃ vrms : Option Nat, ∃ z : Nat, ∃ h : Nat, ∃ bad : Nat, ∃ hs : List Nat, s.up .ctl = true ∧ (∀ v,
      vrms = some v → v < 4096) ∧ z = ((t₀ : Int) + s.rdS (.fhv .zcOfs) * 1000).toNat ∧ (∀ last, s.fhv.zc = some last →
      s.fhv.halves ≠ [] → 10 * (((z : Int) - last) - s.rd (.fhv .halfper)).natAbs ≤ s.rd (.fhv .halfper)) ∧ hs = (match s.fhv.zc
      with | some last => ((z - last) :: s.fhv.halves).take 8 | none => s.fhv.halves) ∧ h = hs.sum / hs.length ∧ bad = (match vrms
      with | some v => if 850 ≤ v ∧ v ≤ 2650 then 0 else s.fhv.badV + 1 | none => s.fhv.badV) ∧ (4 ≤ bad ∨ (hs ≠ [] ∧ (h * 130 <
      1000000000 ∨ 1000000000 < h * 90))) ∧ s.on (.fhv .mainsOk) = true) ∧
    (∃ s : State, ∃ t₀ : Nat, ∃ vrms : Option Nat, ∃ z : Nat, ∃ h : Nat, ∃ bad : Nat, ∃ hs : List Nat, ∃ g, s.up .ctl = true ∧ (∀
      v, vrms = some v → v < 4096) ∧ z = ((t₀ : Int) + s.rdS (.fhv .zcOfs) * 1000).toNat ∧ (∀ last, s.fhv.zc = some last →
      s.fhv.halves ≠ [] → 10 * (((z : Int) - last) - s.rd (.fhv .halfper)).natAbs ≤ s.rd (.fhv .halfper)) ∧ hs = (match s.fhv.zc
      with | some last => ((z - last) :: s.fhv.halves).take 8 | none => s.fhv.halves) ∧ h = hs.sum / hs.length ∧ bad = (match vrms
      with | some v => if 850 ≤ v ∧ v ≤ 2650 then 0 else s.fhv.badV + 1 | none => s.fhv.badV) ∧ (4 ≤ bad ∨ (hs ≠ [] ∧ (h * 130 <
      1000000000 ∨ 1000000000 < h * 90))) ∧ g < 8) ∧
    (∃ s : State, ∃ t₀ : Nat, ∃ last : Nat, ∃ vrms : Option Nat, s.up .ctl = true ∧ (∀ v, vrms = some v → v < 4096) ∧ s.fhv.zc =
      some last ∧ s.fhv.halves ≠ [] ∧ s.rd (.fhv .halfper) < 10 * (((((t₀ : Int) + s.rdS (.fhv .zcOfs) * 1000).toNat : Int) -
      last) - s.rd (.fhv .halfper)).natAbs) ∧
    (∃ s : State, ∃ last, s.up .ctl = true ∧ s.fhv.zc = some last ∧ s.fhv.bridged < 2) ∧
    (∃ s : State, ∃ last, s.up .ctl = true ∧ s.fhv.zc = some last ∧ 2 ≤ s.fhv.bridged ∧ s.on (.fhv .mainsOk) = true) ∧
    (∃ s : State, ∃ last, ∃ g, s.up .ctl = true ∧ s.fhv.zc = some last ∧ 2 ≤ s.fhv.bridged ∧ g < 8) ∧
    (∃ s : State, s.up .ctl = true ∧ s.fhv.zc = none) :=
  ⟨⟨mains 0 0, 10000000, none, 10000000, 10000000, 0, [10000000, 10000000], by decide +kernel⟩,
   ⟨(mains 0 3).wr (.fhv .mainsOk) 0 1, 10000000, some 0, 10000000, 10000000, 4, [10000000, 10000000], by decide +kernel⟩,
   ⟨mains 0 3, 10000000, some 4095, 10000000, 10000000, 4, [10000000, 10000000], 7, by decide +kernel⟩,
   ⟨mains 0 0, 20000000, 0, none, by decide +kernel⟩,
   ⟨mains 1 0, 0, by decide +kernel⟩,
   ⟨(mains 2 0).wr (.fhv .mainsOk) 0 1, 0, by decide +kernel⟩,
   ⟨mains 2 0, 0, 7, by decide +kernel⟩,
   ⟨live, by decide +kernel⟩⟩

theorem witness_HeatersAreGuarded :
    (∃ s : State, ∃ g : Nat, ∃ z, ∃ p, g < 8 ∧ s.up .ctl = true ∧ (s.heater g).cross = some (z, p)) ∧
    (∃ s : State, ∃ g : Nat, g < 8 ∧ s.up .ctl = true ∧ (s.heater g).cross = none ∧ (s.heaterBlocked g = true ∨ s.fhv.ready =
      false)) ∧
    (∃ s : State, ∃ g : Nat, g < 8 ∧ s.up .ctl = true ∧ (s.heater g).cross = none ∧ s.heaterBlocked g = false ∧ s.fhv.ready = true
      ∧ s.on (.fhv .hMode) g = false ∧ (s.heater g).rise ≠ none) ∧
    (∃ s : State, ∃ g : Nat, g < 8 ∧ s.up .ctl = true ∧ (s.heater g).cross = none ∧ s.heaterBlocked g = false ∧ s.fhv.ready = true
      ∧ s.on (.fhv .hMode) g = false ∧ (s.heater g).rise = none) ∧
    (∃ s : State, ∃ g : Nat, g < 8 ∧ s.up .ctl = true ∧ (s.heater g).cross = none ∧ s.heaterBlocked g = false ∧ s.fhv.ready = true
      ∧ s.on (.fhv .hMode) g = true ∧ (s.heater g).next = some true) ∧
    (∃ s : State, ∃ g : Nat, g < 8 ∧ s.up .ctl = true ∧ (s.heater g).cross = none ∧ s.heaterBlocked g = false ∧ s.fhv.ready = true
      ∧ s.on (.fhv .hMode) g = true ∧ (s.heater g).next = some false) ∧
    (∃ s : State, ∃ g : Nat, g < 8 ∧ s.up .ctl = true ∧ (s.heater g).cross = none ∧ s.heaterBlocked g = false ∧ s.fhv.ready = true
      ∧ s.on (.fhv .hMode) g = true ∧ (s.heater g).next = none ∧ (s.heater g).rise ≠ none) ∧
    (∃ s : State, ∃ g : Nat, g < 8 ∧ s.up .ctl = true ∧ (s.heater g).cross = none ∧ s.heaterBlocked g = false ∧ s.fhv.ready = true
      ∧ s.on (.fhv .hMode) g = true ∧ (s.heater g).next = none ∧ (s.heater g).rise = none) ∧
    (∃ s : State, ∃ g : Nat, ∃ c, ∃ code, g < 8 ∧ s.up .ctl = true ∧ s.otcNow g c code = true) ∧
    (∃ s : State, ∃ g : Nat, ∃ c, ∃ code, g < 8 ∧ s.up .ctl = true ∧ s.otcNow g c code = false) ∧
    (∃ s : State, ∃ g : Nat, g < 8 ∧ s.up .ctl = true ∧ s.Reaches .fhv 0) ∧
    (∃ s : State, ∃ i, s.up .ctl = true ∧ s.calPast 5 = true ∧ i < 16) ∧
    (∃ s : State, ∃ i, ∃ code, s.up .ctl = true ∧ s.calPast 5 = true ∧ i < 8 ∧ -32768 ≤ code ∧ code ≤ 32767 ∧ Store.get 0 i
      s.fhv.pConv ≠ 63) ∧
    (∃ s : State, ∃ i, ∃ code, s.up .ctl = true ∧ s.calPast 5 = true ∧ i < 8 ∧ -32768 ≤ code ∧ code ≤ 32767 ∧ Store.get 0 i
      s.fhv.pConv = 63) ∧
    (∃ s : State, ∃ i, s.up .ctl = true ∧ s.calPast 5 = false ∧ i < 16) ∧
    (∃ s : State, ∃ i, ∃ code, s.up .ctl = true ∧ s.calPast 5 = false ∧ i < 8 ∧ -32768 ≤ code ∧ code ≤ 32767) :=
  ⟨⟨{ live with fhv := { heaters := [(7, { cross := some (5, true) })] } }, 7, 5, true, by decide +kernel⟩,
   ⟨live, 7, by decide +kernel⟩,
   ⟨heatingIn 0 { rise := some 5 }, 7, by decide +kernel⟩,
   ⟨heatingIn 0 {}, 7, by decide +kernel⟩,
   ⟨heatingIn 1 { next := some true }, 7, by decide +kernel⟩,
   ⟨heatingIn 1 { next := some false }, 7, by decide +kernel⟩,
   ⟨heatingIn 1 { rise := some 5 }, 7, by decide +kernel⟩,
   ⟨heating, 7, by decide +kernel⟩,
   ⟨guarded, 7, .b, 64880, by decide +kernel⟩,
   ⟨guarded, 7, .a, 64879, by decide +kernel⟩,
   ⟨heating, 7, by decide +kernel, by decide +kernel, reaches (by decide +kernel)⟩,
   ⟨live.wr (.cal .puDone) 0 1, 15, by decide +kernel⟩,
   ⟨live.wr (.cal .puStep) 0 6, 7, -32768, by decide +kernel⟩,
   ⟨{ live.wr (.cal .puStep) 0 6 with fhv := { pConv := [(7, 63)] } }, 7, 32767, by decide +kernel⟩,
   ⟨heating, 15, by decide +kernel⟩,
   ⟨heating, 7, -32768, by decide +kernel⟩⟩

theorem witness_HighVoltageIsBounded :
    (∃ s : State, ∃ fb : List Nat, ∃ c, s.up .ctl = true ∧ fb.length ≤ 48 ∧ (∀ x ∈ fb, x < 4096) ∧ c < s.hw.hvs ∧ (s.rd (.fhv
      .vstate) c = 2 ∨ s.rd (.fhv .vstate) c = 3) ∧ s.on (.fhv .fbhiTrip) c = false ∧ s.rd (.fhv .fbHi) c = 0 ∧ 0 < s.rd (.fhv
      .fbT) c ∧ s.rd (.fhv .vref) c < 4096) ∧
    (∃ s : State, ∃ fb : List Nat, ∃ c, s.up .ctl = true ∧ fb.length ≤ 48 ∧ (∀ x ∈ fb, x < 4096) ∧ c < s.hw.hvs ∧ s.calPast 6 =
      true ∧ 0 < s.rd (.fhv .fbHi) c ∧ s.rd (.fhv .fbHi) c ≤ fb.getD c 0 ∧ s.rd (.fhv .fbT) c ≤ Store.get 0 c s.fhv.high + 1) ∧
    (∃ s : State, ∃ c, s.up .ctl = true ∧ c < 48 ∧ s.rd (.fhv .vstate) c = 1) ∧
    (∃ s : State, ∃ c, s.up .ctl = true ∧ c < 48 ∧ s.rd (.fhv .vstate) c ≠ 1) ∧
    (∃ s : State, ∃ c, ∃ v : Word, s.up .ctl = true ∧ c < 48 ∧ v.toNat / 8 % 2 = 1 ∧ s.Reaches .fhv 0 ∧ (s.rd (.fhv .fbHi) c = 0 ∨
      s.rd (.fhv .vfb) c < s.rd (.fhv .fbHi) c)) ∧
    (∃ s : State, ∃ c, ∃ v : Word, s.up .ctl = true ∧ c < 48 ∧ v.toNat / 8 % 2 = 1 ∧ s.Reaches .fhv 0 ∧ s.rd (.fhv .fbHi) c ≠ 0 ∧
      s.rd (.fhv .fbHi) c ≤ s.rd (.fhv .vfb) c) :=
  ⟨⟨(live.wr (.fhv .vstate) 47 2).wr (.fhv .fbT) 47 1, [], 47, by decide +kernel⟩,
   ⟨((live.wr (.cal .puDone) 0 1).wr (.fhv .fbHi) 47 4095).wr (.fhv .fbT) 47 1, List.replicate 48 4095, 47, by decide +kernel⟩,
   ⟨live.wr (.fhv .vstate) 47 1, 47, by decide +kernel⟩,
   ⟨live.wr (.cal .puDone) 0 1, 47, by decide +kernel⟩,
   ⟨live.wr (.fhv .fbhiTrip) 47 1, 47, 8, by decide +kernel, by decide +kernel, by decide +kernel, reaches (by decide +kernel),
     by decide +kernel⟩,
   ⟨(live.wr (.fhv .fbHi) 47 1).wr (.fhv .vfb) 47 1, 47, 8, by decide +kernel, by decide +kernel, by decide +kernel,
     reaches (by decide +kernel), by decide +kernel⟩⟩

theorem witness_SheetsAreFed :
    (∃ s : State, s.up .mot = true ∧ s.web = false ∧ s.isSlave = false ∧ s.pth.fast = 3) ∧
    (∃ s : State, s.up .mot = true ∧ s.web = false ∧ s.isSlave = false ∧ s.pth.fast ≠ 3) ∧
    (∃ s : State, ∃ b, ∃ c, s.up .mot = true ∧ s.web = false ∧ s.isSlave = false ∧ (s.ldr.st = .armed ∨ s.ldr.st = .disarming) ∧
      s.feedDue = some b ∧ s.unfed = some c ∧ (s.exhausted c = true → s.pth.refeed = true) ∧ s.exhausted c = true) ∧
    (∃ s : State, ∃ b, ∃ c, s.up .mot = true ∧ s.web = false ∧ s.isSlave = false ∧ (s.ldr.st = .armed ∨ s.ldr.st = .disarming) ∧
      s.feedDue = some b ∧ s.unfed = some c ∧ s.exhausted c = true ∧ s.pth.refeed = false) ∧
    (∃ s : State, ∃ b, s.up .mot = true ∧ s.web = false ∧ s.isSlave = false ∧ (s.ldr.st = .armed ∨ s.ldr.st = .disarming) ∧
      s.feedDue = some b ∧ s.unfed = none ∧ s.feedReady = false) ∧
    (∃ s : State, ∃ b, s.up .mot = true ∧ s.web = false ∧ s.isSlave = false ∧ (s.ldr.st = .armed ∨ s.ldr.st = .disarming) ∧
      s.feedDue = some b ∧ s.unfed = none ∧ s.feedReady = true) ∧
    (∃ s : State, s.up .mot = true ∧ s.web = false ∧ s.isSlave = false ∧ (s.ldr.st = .armed ∨ s.ldr.st = .disarming) ∧ s.feedDue =
      none) ∧
    (∃ s : State, ∃ c, s.up .mot = true ∧ s.web = false ∧ s.isSlave = false ∧ s.Reaches .pth 0 ∧ s.unfed = some c ∧ s.exhausted c
      = true) ∧
    (∃ s : State, ∃ c, s.up .mot = true ∧ s.web = false ∧ s.isSlave = false ∧ s.Reaches .pth 0 ∧ s.unfed = some c ∧ s.exhausted c
      = false) ∧
    (∃ s : State, s.up .mot = true ∧ s.web = false ∧ s.isSlave = false ∧ s.Reaches .pth 0 ∧ s.unfed = none) :=
  ⟨⟨{ live with pth := { fast := 3 } }, by decide +kernel⟩,
   ⟨live, by decide +kernel⟩,
   ⟨{ armed with loam := { ctxs := [(255, { st := .admitted, stage := 6 })] }, pth := { tracks := [{ ctx := 255, misses := 4 }], refeed := true } },
     0, 255, by decide +kernel⟩,
   ⟨{ armed with loam := { ctxs := [(255, { st := .admitted, stage := 6 })] }, pth := { tracks := [{ ctx := 255, misses := 4 }] } },
     0, 255, by decide +kernel⟩,
   ⟨feeding.wr (.pth .jam) 0 1, 0, by decide +kernel⟩,
   ⟨((feeding.wr (.pth .pathIncomplete) 0 0).wr (.mot .axtype) 0 0).wr (.mot .state) 0 1, 0, by decide +kernel⟩,
   ⟨{ feeding.wr (.pth .pitch) 0 1 with pth := { feedBase := some 0 } }, by decide +kernel⟩,
   ⟨(late.setCtx 255 { st := .admitted, stage := 6 }).setTrack { ctx := 255, misses := 4 }, 255, by decide +kernel,
     by decide +kernel, by decide +kernel, reaches (by decide +kernel), by decide +kernel⟩,
   ⟨{ feeding with loam := { ctxs := [(255, { st := .admitted })] } }, 255, by decide +kernel, by decide +kernel,
     by decide +kernel, reaches (by decide +kernel), by decide +kernel⟩,
   ⟨live, by decide +kernel, by decide +kernel, by decide +kernel, reaches (by decide +kernel), by decide +kernel⟩⟩

theorem witness_SensorsAreRead :
    (∃ s : State, ∃ i : Nat, ∃ present, i < 32 ∧ s.up .mot = true ∧ s.rd (.pth .role) i ≠ 0 ∧ present ≠ (s.sensor i).active) ∧
    (∃ s : State, ∃ i : Nat, i < 32 ∧ s.up .mot = true ∧ s.rd (.pth .role) i = 0) ∧
    (∃ s : State, ∃ i : Nat, ∃ present, ∃ p, i < 32 ∧ s.up .mot = true ∧ (s.sensor i).cand = some (present, p)) ∧
    (∃ s : State, ∃ i : Nat, ∃ p, ∃ x, i < 32 ∧ s.up .mot = true ∧ (s.sensor i).cand = some (true, p) ∧ s.web = false ∧ s.isSlave
      = false ∧ s.rd (.pth .role) i = 1 ∧ s.rd (.pth .regSensor) = i ∧ (s.pth.tracks.find? fun t => (s.ctx t.ctx).stage == 1 &&
      t.origin.isNone && s.inFeedWindow t p) = some x) ∧
    (∃ s : State, ∃ i : Nat, i < 32 ∧ s.up .mot = true ∧ (s.sensor i).cand = none) ∧
    (∃ s : State, ∃ i : Nat, ∃ c, ∃ x, ∃ d, i < 32 ∧ s.up .mot = true ∧ c < 256 ∧ s.web = false ∧ (s.rd (.pth .role) i = 2 ∨ s.rd
      (.pth .role) i = 3) ∧ s.track c = some x ∧ s.onRoute x i = true ∧ s.past x i s.mpos = some d ∧ s.awaitsLead x i = true ∧ 256
      * (s.rd (.pth .leWin) i : Int) ≤ d) ∧
    (∃ s : State, ∃ i : Nat, ∃ c, ∃ x, ∃ d, i < 32 ∧ s.up .mot = true ∧ c < 256 ∧ s.web = false ∧ (s.rd (.pth .role) i = 2 ∨ s.rd
      (.pth .role) i = 3) ∧ s.track c = some x ∧ s.onRoute x i = true ∧ s.past x i s.mpos = some d ∧ x.trails.contains i = false ∧
      256 * ((s.lengthOf x : Int) + s.rd (.pth .teWin) i) ≤ d) ∧
    (∃ s : State, ∃ i : Nat, ∃ c, ∃ x, ∃ d, i < 32 ∧ s.up .mot = true ∧ c < 256 ∧ s.web = false ∧ (s.rd (.pth .role) i = 2 ∨ s.rd
      (.pth .role) i = 3) ∧ s.track c = some x ∧ s.onRoute x i = true ∧ s.past x i s.mpos = some d ∧ (s.awaitsLead x i = false ∨ d
      < 256 * (s.rd (.pth .leWin) i : Int))) ∧
    (∃ s : State, ∃ i : Nat, ∃ c, ∃ x, ∃ d, i < 32 ∧ s.up .mot = true ∧ c < 256 ∧ s.web = false ∧ (s.rd (.pth .role) i = 2 ∨ s.rd
      (.pth .role) i = 3) ∧ s.track c = some x ∧ s.onRoute x i = true ∧ s.past x i s.mpos = some d ∧ (x.trails.contains i = true ∨
      d < 256 * ((s.lengthOf x : Int) + s.rd (.pth .teWin) i))) :=
  ⟨⟨live.wr (.pth .role) 31 1, 31, true, by decide +kernel⟩,
   ⟨live, 31, by decide +kernel⟩,
   ⟨(live.wr (.pth .role) 31 4).setSensor 31 { cand := some (true, 5) }, 31, true, 5, by decide +kernel⟩,
   ⟨(((tracked 1).wr (.pth .role) 31 1).wr (.pth .regSensor) 0 31).setSensor 31 { cand := some (true, 0) }, 31, 0,
     { ctx := 255, fedAt := 0 }, by decide +kernel⟩,
   ⟨live, 31, by decide +kernel⟩,
   ⟨sensed { ctx := 255, origin := some 0 }, 31, 255, { ctx := 255, origin := some 0 }, 0, by decide +kernel⟩,
   ⟨sensed { ctx := 255, origin := some 0, measured := some 0 }, 31, 255, { ctx := 255, origin := some 0, measured := some 0 }, 0,
     by decide +kernel⟩,
   ⟨sensed { ctx := 255, origin := some 0, leads := [(31, 0)] }, 31, 255, { ctx := 255, origin := some 0, leads := [(31, 0)] }, 0,
     by decide +kernel⟩,
   ⟨sensed { ctx := 255, origin := some 0 }, 31, 255, { ctx := 255, origin := some 0 }, 0, by decide +kernel⟩⟩

theorem witness_SheetsReachTheirOutput :
    (∃ s : State, ∃ c : Nat, ∃ k : Nat, ∃ im : Imaging, ∃ m : Int, c < 256 ∧ k < 8 ∧ s.up .mot = true ∧ s.vidUp k = true ∧
      s.awaitsT0 c k = some im ∧ s.arrival c k im.base = some m ∧ s.rd (.pth .lrate) ≠ 0 ∧ m - s.mpos ≤ 256 * (s.rd (.pth .t0Lead)
      : Int)) ∧
    (∃ s : State, ∃ c : Nat, ∃ k : Nat, ∃ im : Imaging, ∃ m : Int, c < 256 ∧ k < 8 ∧ s.up .mot = true ∧ s.vidUp k = true ∧
      s.awaitsT0 c k = some im ∧ s.arrival c k im.base = some m ∧ s.rd (.pth .lrate) ≠ 0 ∧ 256 * (s.rd (.pth .t0Lead) : Int) < m -
      s.mpos) ∧
    (∃ s : State, ∃ c : Nat, ∃ x : Track, c < 256 ∧ s.up .mot = true ∧ s.web = false ∧ s.isSlave = false ∧ s.track c = some x ∧
      (s.ctx c).stage = 2 ∧ s.leadReached x (s.rd (.pth .regGate)) = true) ∧
    (∃ s : State, ∃ c : Nat, ∃ x : Track, c < 256 ∧ s.up .mot = true ∧ s.web = false ∧ s.isSlave = false ∧ s.track c = some x ∧
      ((s.ctx c).stage ≠ 2 ∨ s.leadReached x (s.rd (.pth .regGate)) = false)) ∧
    (∃ s : State, ∃ c : Nat, ∃ x : Track, ∃ line, ∃ d, c < 256 ∧ s.up .mot = true ∧ s.web = false ∧ s.isSlave = false ∧ s.track c
      = some x ∧ s.firstDiverter = some line ∧ x.output = none ∧ 2 ≤ (s.ctx c).stage ∧ (s.ctx c).stage ≤ 3 ∧ s.leadReached x line
      = true ∧ d = (if (s.ctx c).st = .spoiled then s.rd (.pgs .disp) c else 0) ∧ (d = 1 ∨ d = 2)) ∧
    (∃ s : State, ∃ c : Nat, ∃ x : Track, ∃ line, c < 256 ∧ s.up .mot = true ∧ s.web = false ∧ s.isSlave = false ∧ s.track c =
      some x ∧ s.firstDiverter = some line ∧ s.leadReached x line = false) ∧
    (∃ s : State, ∃ c : Nat, ∃ x : Track, ∃ d, ∃ z, ∃ t, c < 256 ∧ s.up .mot = true ∧ s.web = false ∧ s.isSlave = false ∧ s.track
      c = some x ∧ x.output = some d ∧ s.trailOf x = some z ∧ x.diverter = true ∧ t = s.setTrack { x with diverter := false } ∧
      256 * (s.rd (.pth .divPos) (d - 1) : Int) ≤ z ∧ s.diverterHeld c d = false) ∧
    (∃ s : State, ∃ c : Nat, ∃ x : Track, ∃ d, ∃ z, ∃ t, c < 256 ∧ s.up .mot = true ∧ s.web = false ∧ s.isSlave = false ∧ s.track
      c = some x ∧ x.output = some d ∧ s.trailOf x = some z ∧ x.diverter = true ∧ t = s.setTrack { x with diverter := false } ∧
      256 * (s.rd (.pth .divPos) (d - 1) : Int) ≤ z ∧ s.diverterHeld c d = true) ∧
    (∃ s : State, ∃ c : Nat, ∃ x : Track, ∃ d, ∃ z, ∃ t, c < 256 ∧ s.up .mot = true ∧ s.web = false ∧ s.isSlave = false ∧ s.track
      c = some x ∧ x.output = some d ∧ s.trailOf x = some z ∧ x.diverter = true ∧ t = s.setTrack { x with diverter := false } ∧ z
      < 256 * (s.rd (.pth .divPos) (d - 1) : Int)) ∧
    (∃ s : State, ∃ c : Nat, ∃ x : Track, c < 256 ∧ s.up .mot = true ∧ s.web = false ∧ s.isSlave = false ∧ s.track c = some x ∧
      s.deliverable c = true ∧ s.arrived x = true) ∧
    (∃ s : State, ∃ c : Nat, ∃ x : Track, c < 256 ∧ s.up .mot = true ∧ s.web = false ∧ s.isSlave = false ∧ s.track c = some x ∧
      (s.deliverable c = false ∨ s.arrived x = false)) ∧
    (∃ s : State, ∃ c : Nat, ∃ x : Track, ∃ z, c < 256 ∧ s.up .mot = true ∧ s.web = false ∧ s.isSlave = false ∧ s.track c = some x
      ∧ s.trailOf x = some z ∧ x.bounded = false ∧ 256 * (s.rd (.pth .boundary) : Int) ≤ z ∧ s.up .cmp = true) ∧
    (∃ s : State, ∃ c : Nat, ∃ x : Track, ∃ z, c < 256 ∧ s.up .mot = true ∧ s.web = false ∧ s.isSlave = false ∧ s.track c = some x
      ∧ s.trailOf x = some z ∧ (x.bounded = true ∨ z < 256 * (s.rd (.pth .boundary) : Int))) ∧
    (∃ s : State, ∃ v : Word, ∃ c : Nat, ∃ d : Nat, c = v.toNat % 256 ∧ d = v.toNat / 256 % 4 ∧ s.up .mot = true ∧ s.Reaches .pth
      0 ∧ s.dispAsked c = true ∧ 4 ≤ (s.ctx c).stage ∧ (s.ctx c).stage ≤ 5) ∧
    (∃ s : State, ∃ v : Word, ∃ c : Nat, ∃ d : Nat, c = v.toNat % 256 ∧ d = v.toNat / 256 % 4 ∧ s.up .mot = true ∧ s.Reaches .pth
      0 ∧ (s.dispAsked c = false ∨ (s.ctx c).stage < 4 ∨ 5 < (s.ctx c).stage) ∧ s.decisionOpen 7 c = true ∧ d ≤ 2) ∧
    (∃ s : State, ∃ v : Word, ∃ c : Nat, ∃ d : Nat, c = v.toNat % 256 ∧ d = v.toNat / 256 % 4 ∧ s.up .mot = true ∧ s.Reaches .pth
      0 ∧ (s.dispAsked c = false ∨ (s.ctx c).stage < 4 ∨ 5 < (s.ctx c).stage) ∧ (s.decisionOpen 7 c = false ∨ d = 3)) :=
  ⟨⟨imaged, 255, 7, { ctx := 255 }, 0, by decide +kernel⟩,
   ⟨imaged.wr (.pth .stnpos) 7 100000, 255, 7, { ctx := 255 }, 25600000, by decide +kernel⟩,
   ⟨tracked 2 { ctx := 255, origin := some 0 }, 255, { ctx := 255, origin := some 0 }, by decide +kernel⟩,
   ⟨tracked 4 { ctx := 255, origin := some 0, output := some 2, diverter := true, measured := some 0 }, 255,
     { ctx := 255, origin := some 0, output := some 2, diverter := true, measured := some 0 }, by decide +kernel⟩,
   ⟨((diverting {}).setCtx 255 { st := .spoiled, stage := 2 }).wr (.pth .mpos) 0 1000000000, 255,
     { ctx := 255, origin := some 0 }, 100, 1, by decide +kernel⟩,
   ⟨diverting {}, 255, { ctx := 255, origin := some 0 }, 100, by decide +kernel⟩,
   ⟨tracked 4 divertedTrack, 255, divertedTrack, 1, 0, (tracked 4 divertedTrack).setTrack
     { divertedTrack with diverter := false }, by decide +kernel⟩,
   ⟨twoDiverted, 255, divertedTrack, 1, 0, twoDiverted.setTrack { divertedTrack with diverter := false }, by decide +kernel⟩,
   ⟨(tracked 4 divertedTrack).wr (.pth .divPos) 0 100, 255, divertedTrack, 1, 0, ((tracked 4 divertedTrack).wr (.pth .divPos) 0
     100).setTrack { divertedTrack with diverter := false }, by decide +kernel⟩,
   ⟨(tracked 4 { ctx := 255, origin := some 0, measured := some 0 }).setCtx 255 { st := .exposed, stage := 4 }, 255,
     { ctx := 255, origin := some 0, measured := some 0 }, by decide +kernel⟩,
   ⟨imaged, 255, { ctx := 255, origin := some 0 }, by decide +kernel⟩,
   ⟨tracked 4 { ctx := 255, origin := some 0, output := some 2, diverter := true, measured := some 0 }, 255,
     { ctx := 255, origin := some 0, output := some 2, diverter := true, measured := some 0 }, 0, by decide +kernel⟩,
   ⟨tracked 4 { divertedTrack with bounded := true }, 255, { divertedTrack with bounded := true }, 0, by decide +kernel⟩,
   ⟨((tracked 4).setCtx 255 { st := .spoiled, stage := 4 }).wr (.pth .dispMode) 0 1, 0x2FF, 255, 2, by decide +kernel,
     by decide +kernel, by decide +kernel, reaches (by decide +kernel), by decide +kernel⟩,
   ⟨{ tracked 4 { ctx := 255, output := some 2 } with mbx := (asked 7 255).mbx }, 0x2FF, 255, 2, by decide +kernel,
     by decide +kernel, by decide +kernel, reaches (by decide +kernel), by decide +kernel⟩,
   ⟨imaged, 0x2FF, 255, 2, by decide +kernel, by decide +kernel, by decide +kernel, reaches (by decide +kernel),
     by decide +kernel⟩⟩

theorem witness_TheWebSequenceRuns :
    (∃ s : State, ∃ f, ∃ w, s.up .mot = true ∧ s.web = true ∧ s.isSlave = false ∧ s.firstFrame = some f ∧ s.rd (.pth .wstate) = 0
      ∧ 0 < (s.axis s.procAxis).v * s.forwardDir ∧ (s.axis s.procAxis).a = 0 ∧ w = s.mpos + 256 * ((s.rd (.pth .dlLead) : Int) -
      s.stnposMin)) ∧
    (∃ s : State, s.up .mot = true ∧ s.web = true ∧ s.isSlave = false ∧ (s.rd (.pth .wstate) ≠ 0 ∨ s.firstFrame = none ∨ (s.axis
      s.procAxis).v * s.forwardDir ≤ 0 ∨ (s.axis s.procAxis).a ≠ 0)) ∧
    (∃ s : State, s.up .mot = true ∧ s.web = true ∧ s.isSlave = false ∧ s.rd (.pth .wstate) ≠ 0 ∧ s.pth.w0Set = true ∧ s.ldr.st ≠
      .disarming ∧ s.rdS (.pth .w0) + 256 * (s.pth.nextLine + s.stnposMin - s.rd (.pth .dlLead)) ≤ s.mpos ∧ s.rd (.pth .wstate) =
      1) ∧
    (∃ s : State, s.up .mot = true ∧ s.web = true ∧ s.isSlave = false ∧ s.rd (.pth .wstate) ≠ 0 ∧ s.pth.w0Set = true ∧ s.ldr.st ≠
      .disarming ∧ s.rdS (.pth .w0) + 256 * (s.pth.nextLine + s.stnposMin - s.rd (.pth .dlLead)) ≤ s.mpos ∧ s.rd (.pth .wstate) =
      7) ∧
    (∃ s : State, s.up .mot = true ∧ s.web = true ∧ s.isSlave = false ∧ s.rd (.pth .wstate) ≠ 0 ∧ s.pth.w0Set = true ∧ s.ldr.st ≠
      .disarming ∧ s.rdS (.pth .w0) + 256 * (s.pth.nextLine + s.stnposMin - s.rd (.pth .dlLead)) ≤ s.mpos ∧ s.rd (.pth .wstate) ≠
      1 ∧ s.rd (.pth .wstate) ≠ 7) ∧
    (∃ s : State, s.up .mot = true ∧ s.web = true ∧ s.isSlave = false ∧ (s.rd (.pth .wstate) = 0 ∨ s.pth.w0Set = false ∨ s.ldr.st
      = .disarming ∨ s.mpos < s.rdS (.pth .w0) + 256 * (s.pth.nextLine + s.stnposMin - s.rd (.pth .dlLead)))) ∧
    (∃ s : State, s.up .mot = true ∧ s.web = true ∧ s.isSlave = false ∧ s.Reaches .pth 0 ∧ s.rd (.pth .wstate) = 1) ∧
    (∃ s : State, s.up .mot = true ∧ s.web = true ∧ s.isSlave = false ∧ s.Reaches .pth 0 ∧ s.rd (.pth .wstate) = 0) ∧
    (∃ s : State, s.up .mot = true ∧ s.web = true ∧ s.isSlave = false ∧ s.Reaches .pth 0 ∧ s.rd (.pth .wstate) = 7) ∧
    (∃ s : State, s.up .mot = true ∧ s.web = true ∧ s.isSlave = false ∧ s.Reaches .pth 0 ∧ s.rd (.pth .wstate) ≠ 0 ∧ s.rd (.pth
      .wstate) ≠ 1 ∧ s.rd (.pth .wstate) ≠ 7) ∧
    (∃ s : State, s.up .mot = true ∧ s.web = true ∧ s.isSlave = false ∧ s.Reaches .pth 0 ∧ (s.rd (.pth .wstate) = 4 ∨ s.rd (.pth
      .wstate) = 8)) ∧
    (∃ s : State, s.up .mot = true ∧ s.web = true ∧ s.isSlave = false ∧ s.Reaches .pth 0 ∧ s.rd (.pth .wstate) ≠ 4 ∧ s.rd (.pth
      .wstate) ≠ 8) ∧
    (∃ s : State, s.up .mot = true ∧ s.web = true ∧ s.isSlave = false ∧ s.Reaches .pth 0 ∧ s.rd (.pth .wstate) = 4) ∧
    (∃ s : State, s.up .mot = true ∧ s.web = true ∧ s.isSlave = false ∧ s.rd (.pth .wstate) = 2 ∧ s.drainEnded = true) ∧
    (∃ s : State, s.up .mot = true ∧ s.web = true ∧ s.isSlave = false ∧ (s.rd (.pth .wstate) ≠ 2 ∨ s.drainEnded = false)) ∧
    (∃ s : State, s.up .mot = true ∧ s.web = true ∧ s.isSlave = false ∧ s.rd (.pth .wstate) = 3 ∧ s.webAtRest = true ∧
      (s.pth.toIdle = true ∨ s.rd (.pth .stopCause) = 4)) ∧
    (∃ s : State, s.up .mot = true ∧ s.web = true ∧ s.isSlave = false ∧ s.rd (.pth .wstate) = 3 ∧ s.webAtRest = true ∧
      s.pth.toIdle = false ∧ s.rd (.pth .stopCause) ≠ 4 ∧ s.on (.pth .webMode) = true) ∧
    (∃ s : State, s.up .mot = true ∧ s.web = true ∧ s.isSlave = false ∧ s.rd (.pth .wstate) = 3 ∧ s.webAtRest = true ∧
      s.pth.toIdle = false ∧ s.rd (.pth .stopCause) ≠ 4 ∧ s.on (.pth .webMode) = false) ∧
    (∃ s : State, s.up .mot = true ∧ s.web = true ∧ s.isSlave = false ∧ (s.rd (.pth .wstate) ≠ 3 ∨ s.webAtRest = false)) ∧
    (∃ s : State, s.up .mot = true ∧ s.web = true ∧ s.isSlave = false ∧ s.rd (.pth .wstate) = 5 ∧ s.webAtRest = true) ∧
    (∃ s : State, s.up .mot = true ∧ s.web = true ∧ s.isSlave = false ∧ (s.rd (.pth .wstate) ≠ 5 ∨ s.webAtRest = false)) ∧
    (∃ s : State, s.up .mot = true ∧ s.web = true ∧ s.isSlave = false ∧ s.rd (.pth .wstate) = 6 ∧ s.mayResume = true) ∧
    (∃ s : State, s.up .mot = true ∧ s.web = true ∧ s.isSlave = false ∧ (s.rd (.pth .wstate) ≠ 6 ∨ s.mayResume = false)) ∧
    (∃ s : State, s.up .mot = true ∧ s.web = true ∧ s.isSlave = false ∧ s.rd (.pth .wstate) = 7 ∧ (s.axis s.procAxis).a = 0 ∧
      (s.axis s.procAxis).v = s.pth.vsave * 2 ^ 32 ∧ s.resumeFar = true ∧ s.pth.stopNext = none) ∧
    (∃ s : State, ∃ c, s.up .mot = true ∧ s.web = true ∧ s.isSlave = false ∧ s.rd (.pth .wstate) = 7 ∧ (s.axis s.procAxis).a = 0 ∧
      (s.axis s.procAxis).v = s.pth.vsave * 2 ^ 32 ∧ s.resumeFar = true ∧ s.pth.stopNext = some c ∧ (c = 1 → (s.loam.ctxs.any fun
      e => e.2.st == .stalled) = true)) ∧
    (∃ s : State, s.up .mot = true ∧ s.web = true ∧ s.isSlave = false ∧ s.rd (.pth .wstate) = 7 ∧ (s.axis s.procAxis).a = 0 ∧
      (s.axis s.procAxis).v = s.pth.vsave * 2 ^ 32 ∧ s.resumeFar = true ∧ s.pth.stopNext = some 1 ∧ (s.loam.ctxs.any fun e =>
      e.2.st == .stalled) = false) ∧
    (∃ s : State, s.up .mot = true ∧ s.web = true ∧ s.isSlave = false ∧ s.rd (.pth .wstate) = 7 ∧ (s.axis s.procAxis).a = 0 ∧
      (s.axis s.procAxis).v = s.pth.vsave * 2 ^ 32 ∧ s.resumeFar = false) ∧
    (∃ s : State, s.up .mot = true ∧ s.web = true ∧ s.isSlave = false ∧ (s.rd (.pth .wstate) ≠ 7 ∨ (s.axis s.procAxis).a ≠ 0 ∨
      (s.axis s.procAxis).v ≠ s.pth.vsave * 2 ^ 32)) ∧
    (∃ s : State, ∃ i, ∃ c, s.up .mot = true ∧ s.web = true ∧ s.isSlave = false ∧ i < 32 ∧ s.rd (.pth .role) i = 4 ∧ ((s.ctx c).st
      = .imaging ∨ (s.ctx c).st = .exposed)) ∧
    (∃ s : State, ∃ i, s.up .mot = true ∧ s.web = true ∧ s.isSlave = false ∧ i < 32 ∧ s.rd (.pth .role) i ≠ 4) ∧
    (∃ s : State, ∃ c, ∃ f, s.up .mot = true ∧ s.web = true ∧ s.isSlave = false ∧ c < 256 ∧ s.frameOf c = some f ∧ f.bounded =
      false ∧ s.pth.w0Set = true ∧ s.rdS (.pth .w0) + 256 * (f.first + (s.rd (.pth .boundary) : Int)) ≤ s.mpos) ∧
    (∃ s : State, ∃ c, ∃ f, s.up .mot = true ∧ s.web = true ∧ s.isSlave = false ∧ c < 256 ∧ s.frameOf c = some f ∧ s.deliverable c
      = true ∧ s.frameArrived f = true) ∧
    (∃ s : State, ∃ i, s.up .mot = true ∧ s.web = false ∧ i < 32) ∧
    (∃ s : State, s.up .mot = true ∧ s.web = false ∧ s.Reaches .pth 0) ∧
    (∃ s : State, s.up .mot = true ∧ s.web = true ∧ s.isSlave = true ∧ s.rd (.pth .wstate) = 1) ∧
    (∃ s : State, s.up .mot = true ∧ s.web = true ∧ s.isSlave = true ∧ s.rd (.pth .wstate) = 2 ∧ s.drainEnded = true) ∧
    (∃ s : State, s.up .mot = true ∧ s.web = true ∧ s.isSlave = true ∧ s.rd (.pth .wstate) = 5) :=
  ⟨
     ⟨{ (webAt 0).setAxis 0 { v := 1 } with loam := { ctxs := [(255, { st := .admitted })] }, pth := { frames := [{ ctx := 255, first := 0 }] } },
     { ctx := 255, first := 0 }, 524288, by decide +kernel⟩,
   ⟨webAt 1, by decide +kernel⟩,
   ⟨{ webAt 1 with pth := { w0Set := true } }, by decide +kernel⟩,
   ⟨{ webAt 7 with pth := { w0Set := true } }, by decide +kernel⟩,
   ⟨{ webAt 8 with pth := { w0Set := true } }, by decide +kernel⟩,
   ⟨{ (webAt 0).setAxis 0 { v := 1 } with loam := { ctxs := [(255, { st := .admitted })] }, pth := { frames := [{ ctx := 255, first := 0 }] } },
     by decide +kernel⟩,
   ⟨webAt 1, by decide +kernel, by decide +kernel, by decide +kernel, reaches (by decide +kernel), by decide +kernel⟩,
   ⟨webAt 0, by decide +kernel, by decide +kernel, by decide +kernel, reaches (by decide +kernel), by decide +kernel⟩,
   ⟨webAt 7, by decide +kernel, by decide +kernel, by decide +kernel, reaches (by decide +kernel), by decide +kernel⟩,
   ⟨webAt 8, by decide +kernel, by decide +kernel, by decide +kernel, reaches (by decide +kernel), by decide +kernel⟩,
   ⟨webAt 8, by decide +kernel, by decide +kernel, by decide +kernel, reaches (by decide +kernel), by decide +kernel⟩,
   ⟨webAt 7, by decide +kernel, by decide +kernel, by decide +kernel, reaches (by decide +kernel), by decide +kernel⟩,
   ⟨webAt 4, by decide +kernel, by decide +kernel, by decide +kernel, reaches (by decide +kernel), by decide +kernel⟩,
   ⟨webAt 2, by decide +kernel⟩,
   ⟨{ (webAt 0).setAxis 0 { v := 1 } with loam := { ctxs := [(255, { st := .admitted })] }, pth := { frames := [{ ctx := 255, first := 0 }] } },
     by decide +kernel⟩,
   ⟨{ webAt 3 with pth := { toIdle := true } }, by decide +kernel⟩,
   ⟨(webAt 3).wr (.pth .webMode) 0 1, by decide +kernel⟩,
   ⟨webAt 3, by decide +kernel⟩,
   ⟨{ (webAt 0).setAxis 0 { v := 1 } with loam := { ctxs := [(255, { st := .admitted })] }, pth := { frames := [{ ctx := 255, first := 0 }] } },
     by decide +kernel⟩,
   ⟨webAt 5, by decide +kernel⟩,
   ⟨{ (webAt 0).setAxis 0 { v := 1 } with loam := { ctxs := [(255, { st := .admitted })] }, pth := { frames := [{ ctx := 255, first := 0 }] } },
     by decide +kernel⟩,
   ⟨(webAt 6).wr (.pth .pathIncomplete) 0 0, by decide +kernel⟩,
   ⟨{ (webAt 0).setAxis 0 { v := 1 } with loam := { ctxs := [(255, { st := .admitted })] }, pth := { frames := [{ ctx := 255, first := 0 }] } },
     by decide +kernel⟩,
   ⟨webAt 7, by decide +kernel⟩,
   ⟨{ webAt 7 with pth := { stopNext := some 2 } }, 2, by decide +kernel⟩,
   ⟨{ webAt 7 with pth := { stopNext := some 1 } }, by decide +kernel⟩,
   ⟨{ webAt 7 with loam := { ctxs := [(255, { st := .imaging, planes := 128, lineBytes := 1 })] } }, by decide +kernel⟩,
   ⟨{ (webAt 0).setAxis 0 { v := 1 } with loam := { ctxs := [(255, { st := .admitted })] }, pth := { frames := [{ ctx := 255, first := 0 }] } },
     by decide +kernel⟩,
   ⟨{ (webAt 1).wr (.pth .role) 31 4 with loam := { ctxs := [(255, { st := .imaging })] } }, 31, 255, by decide +kernel⟩,
   ⟨webAt 1, 31, by decide +kernel⟩,
   ⟨framed { st := .imaging }, 255, { ctx := 255, first := 0 }, by decide +kernel⟩,
   ⟨framed { st := .exposed }, 255, { ctx := 255, first := 0 }, by decide +kernel⟩,
   ⟨live, 31, by decide +kernel⟩,
   ⟨live, by decide +kernel, by decide +kernel, reaches (by decide +kernel)⟩,
   ⟨slaveWeb 1, by decide +kernel⟩,
   ⟨slaveWeb 2, by decide +kernel⟩,
   ⟨slaveWeb 5, by decide +kernel⟩⟩

theorem witness_TheRingIsTracked :
    (∃ s : State, ∃ m, ∃ ver, s.up .csl = true ∧ s.cslRole = 1 ∧ ver = s.rd (.ldr .fwMajor) ∧ m ≠ s.hw.serial) ∧
    (∃ s : State, ∃ m, ∃ ver, s.up .csl = true ∧ s.cslRole = 1 ∧ ver ≠ s.rd (.ldr .fwMajor) ∧ m ≠ s.hw.serial) ∧
    (∃ s : State, s.up .csl = true ∧ s.cslRole ≠ 1 ∧ s.cslRole = 0) ∧
    (∃ s : State, ∃ ver, s.up .csl = true ∧ s.cslRole = 2 ∧ ver ≠ s.rd (.ldr .fwMajor)) ∧
    (∃ s : State, ∃ m, ∃ q, ∃ b, s.up .csl = true ∧ s.cslRole = 2 ∧ s.beaconAt q = some b ∧ b.master ≠ m) ∧
    (∃ s : State, ∃ p, ∃ hop, s.up .csl = true ∧ s.cslRole = 2 ∧ s.portUp? p = true ∧ hop ≠ (if p = .a then s.rd (.csl .pos) else
      s.rd (.csl .nmod) + 1 - s.rd (.csl .pos))) ∧
    (∃ s : State, ∃ lost, ∃ n, s.up .csl = true ∧ s.cslRole ≠ 0 ∧ lost ≠ [] ∧ n ∈ lost ∧ n < 4) ∧
    (∃ s : State, s.up .csl = true ∧ s.cslRole ≠ 0 ∧ (s.on (.csl .linkaUp) = true ∨ s.on (.csl .linkbUp) = true) ∧ (s.cslRole = 1
      ∨ s.rd (.csl .tstate) = 3)) ∧
    (∃ s : State, s.up .csl = true ∧ s.cslRole ≠ 0 ∧ s.on (.csl .linkaUp) = false ∧ s.on (.csl .linkbUp) = false) ∧
    (∃ s : State, s.up .csl = true ∧ s.cslRole ≠ 0 ∧ s.cslRole = 2 ∧ s.rd (.csl .tstate) ≠ 3) ∧
    (∃ s : State, s.up .csl = true ∧ s.cslRole = 2 ∧ s.estate ≠ 1) ∧
    (∃ s : State, s.up .csl = true ∧ s.cslRole = 2 ∧ s.estate = 1) ∧
    (∃ s : State, s.up .csl = true ∧ s.cslRole ≠ 2) :=
  ⟨⟨ringOf .high, 65535, 0, by decide +kernel⟩,
   ⟨ringOf .high, 65535, 1, by decide +kernel⟩,
   ⟨live, by decide +kernel⟩,
   ⟨ringOf .low, 1, by decide +kernel⟩,
   ⟨{ ringOf .low with csl := { beaconA := some { hop := 1, master := 7 } } }, 8, .a, { hop := 1, master := 7 },
     by decide +kernel⟩,
   ⟨(ringOf .low).wr (.csl .linkaUp) 0 1, .a, 7, by decide +kernel⟩,
   ⟨ringOf .low, [3], 3, by decide +kernel⟩,
   ⟨(ringOf .high).wr (.csl .linkaUp) 0 1, by decide +kernel⟩,
   ⟨ringOf .high, by decide +kernel⟩,
   ⟨ringOf .low, by decide +kernel⟩,
   ⟨ringOf .low, by decide +kernel⟩,
   ⟨(ringOf .low).wr (.pwr .estate) 0 1, by decide +kernel⟩,
   ⟨ringOf .high, by decide +kernel⟩⟩

theorem witness_EngineTimeIsShared :
    (∃ s : State, s.up .csl = true ∧ s.cslRole = 1) ∧
    (∃ s : State, s.up .csl = true ∧ s.cslRole ≠ 1) ∧
    (∃ s : State, ∃ p, s.up .csl = true ∧ s.cslRole = 2 ∧ s.portUp? p = true ∧ p = s.upstream) ∧
    (∃ s : State, ∃ p, s.up .csl = true ∧ s.cslRole = 2 ∧ s.portUp? p = true ∧ p ≠ s.upstream) ∧
    (∃ s : State, ∃ p, s.up .csl = true ∧ s.cslRole = 2 ∧ s.portUp? p = false) ∧
    (∃ s : State, s.up .csl = true ∧ s.cslRole = 2 ∧ s.rd (.csl .tstate) ≠ 0) ∧
    (∃ s : State, s.up .csl = true ∧ s.cslRole = 2 ∧ s.rd (.csl .tstate) = 0) ∧
    (∃ s : State, ∃ k, ∃ c, s.up .csl = true ∧ s.cslRole = 2 ∧ k < 8 ∧ s.busy k = true ∧ c ∈ s.imagingOn k ∧ (s.ctx c).spoilable =
      true) ∧
    (∃ s : State, s.up .csl = true ∧ s.cslRole = 2 ∧ (∀ k, k < 8 → s.busy k = false)) ∧
    (∃ s : State, s.up .csl = true ∧ s.cslRole ≠ 2) :=
  ⟨⟨ringOf .high, by decide +kernel⟩,
   ⟨(ringOf .low).wr (.csl .linkaUp) 0 1, by decide +kernel⟩,
   ⟨(ringOf .low).wr (.csl .linkaUp) 0 1, .a, by decide +kernel⟩,
   ⟨(ringOf .low).wr (.csl .linkbUp) 0 1, .b, by decide +kernel⟩,
   ⟨ringOf .low, .b, by decide +kernel⟩,
   ⟨(ringOf .low).wr (.csl .tstate) 0 2, by decide +kernel⟩,
   ⟨ringOf .low, by decide +kernel⟩,
   ⟨{ (ringOf .low).setCtx 255 { st := .imaging, planes := 128, lineBytes := 1 } with stns := [(7, { queue := [{ ctx := 255 }] })] },
     7, 255, by decide +kernel⟩,
   ⟨ringOf .low, by decide +kernel⟩,
   ⟨ringOf .high, by decide +kernel⟩⟩

theorem witness_TheRingAdmitsTogether :
    (∃ s : State, ∃ tag : Word, ∃ c, s.up .csl = true ∧ s.cslRole = 2 ∧ s.head = some c ∧ (s.ctx c).tag = tag.toNat ∧
      s.gateRefusal = 0 ∧ (s.on (.pgs .admMode) = false ∨ s.loam.hostOk = some c)) ∧
    (∃ s : State, ∃ tag : Word, ∃ c, s.up .csl = true ∧ s.cslRole = 2 ∧ s.head = some c ∧ (s.ctx c).tag = tag.toNat ∧
      s.gateRefusal = 0 ∧ s.on (.pgs .admMode) = true ∧ s.loam.hostOk ≠ some c ∧ s.loam.withheld = false) ∧
    (∃ s : State, s.up .csl = true ∧ s.cslRole = 2 ∧ s.gateRefusal ≠ 0) ∧
    (∃ s : State, ∃ tag : Word, ∃ c, s.up .csl = true ∧ s.cslRole = 2 ∧ s.head = some c ∧ (s.ctx c).tag ≠ tag.toNat) ∧
    (∃ s : State, s.up .csl = true ∧ s.cslRole = 2 ∧ s.up .mot = false) ∧
    (∃ s : State, ∃ e : SheetEvent, ∃ m, ∃ x, s.up .csl = true ∧ s.cslRole = 2 ∧ s.up .mot = true ∧ e = .origin m ∧ (s.oldest fun
      t st => st == 1 && t.origin.isNone) = some x) ∧
    (∃ s : State, ∃ e : SheetEvent, ∃ m, s.up .csl = true ∧ s.cslRole = 2 ∧ s.up .mot = true ∧ e = .origin m ∧ (s.oldest fun t st
      => st == 1 && t.origin.isNone) = none) ∧
    (∃ s : State, ∃ e : SheetEvent, ∃ x, s.up .csl = true ∧ s.cslRole = 2 ∧ s.up .mot = true ∧ e = .commit ∧ (s.oldest fun _ st =>
      st == 2) = some x) ∧
    (∃ s : State, ∃ e : SheetEvent, s.up .csl = true ∧ s.cslRole = 2 ∧ s.up .mot = true ∧ e = .commit ∧ (s.oldest fun _ st => st
      == 2) = none) ∧
    (∃ s : State, ∃ e : SheetEvent, ∃ w, s.up .csl = true ∧ s.cslRole = 2 ∧ s.up .mot = true ∧ e = .w0 w) ∧
    (∃ s : State, ∃ e : SheetEvent, s.up .csl = true ∧ s.cslRole = 2 ∧ s.up .mot = true ∧ e = .boundary) ∧
    (∃ s : State, ∃ e : SheetEvent, ∃ d, ∃ x, s.up .csl = true ∧ s.cslRole = 2 ∧ s.up .mot = true ∧ e = .outputDecision d ∧
      (s.oldest fun t st => t.output.isNone && decide (2 ≤ st) && decide (st ≤ 3)) = some x) ∧
    (∃ s : State, ∃ e : SheetEvent, ∃ tag, ∃ c, s.up .csl = true ∧ s.cslRole = 2 ∧ s.up .mot = true ∧ e = .feed tag ∧ s.csl.query
      = some c ∧ s.etime ≤ s.csl.asked + 30000 ∧ s.gateRefusal = 0 ∧ s.head = some c ∧ s.web = false) ∧
    (∃ s : State, ∃ e : SheetEvent, ∃ tag, ∃ x, s.up .csl = true ∧ s.cslRole = 2 ∧ s.up .mot = true ∧ e = .feed tag ∧ s.csl.query
      = none ∧ (s.oldest fun t st => st == 1 && t.origin.isNone) = some x) ∧
    (∃ s : State, ∃ e : SheetEvent, ∃ tag, ∃ c, s.up .csl = true ∧ s.cslRole = 2 ∧ s.up .mot = true ∧ e = .spoil tag ∧ s.byTag tag
      = some c) ∧
    (∃ s : State, ∃ e : SheetEvent, ∃ tag, s.up .csl = true ∧ s.cslRole = 2 ∧ s.up .mot = true ∧ e = .spoil tag ∧ s.byTag tag =
      none) ∧
    (∃ s : State, ∃ pos, s.up .csl = true ∧ s.cslRole = 2 ∧ 1 ≤ pos ∧ pos < 4) ∧
    (∃ s : State, s.up .csl = true ∧ s.cslRole = 2 ∧ s.ldr.st ≠ .armed) ∧
    (∃ s : State, s.up .csl = true ∧ s.cslRole = 2 ∧ s.ldr.st = .armed) ∧
    (∃ s : State, ∃ pos, s.up .csl = true ∧ s.cslRole = 1 ∧ 1 ≤ pos ∧ pos < 4 ∧ s.csl.query = none) ∧
    (∃ s : State, ∃ pos, ∃ armed, ∃ passes, s.up .csl = true ∧ s.cslRole = 1 ∧ 1 ≤ pos ∧ pos < 4 ∧ s.csl.query ≠ none ∧ (armed =
      false ∨ passes = false)) ∧
    (∃ s : State, ∃ pos, ∃ armed, ∃ passes, ∃ c, s.up .csl = true ∧ s.cslRole = 1 ∧ 1 ≤ pos ∧ pos < 4 ∧ s.csl.query = some c ∧
      armed = true ∧ passes = true ∧ (∀ i, i < s.rd (.csl .nmod) → i + 1 = pos ∨ i + 1 ∈ s.csl.agreed) ∧ s.gateRefusal = 0 ∧
      s.head = some c) ∧
    (∃ s : State, ∃ pos, s.up .csl = true ∧ s.cslRole = 1 ∧ 1 ≤ pos ∧ pos < 4 ∧ s.web = true ∧ s.rd (.pth .wstate) = 1) ∧
    (∃ s : State, ∃ pos, s.up .csl = true ∧ s.cslRole = 1 ∧ 1 ≤ pos ∧ pos < 4 ∧ s.web = false) ∧
    (∃ s : State, ∃ pos, ∃ tag, ∃ c, s.up .csl = true ∧ s.cslRole = 1 ∧ 1 ≤ pos ∧ pos < 4 ∧ s.byTag tag = some c) ∧
    (∃ s : State, ∃ pos, ∃ tag, s.up .csl = true ∧ s.cslRole = 1 ∧ 1 ≤ pos ∧ pos < 4 ∧ s.byTag tag = none) :=
  ⟨⟨(State.atLdr (ringOf .low) .armed).setCtx 255 { st := .ready, queued := true, planes := 1, lineBytes := 1, tag := 9 }, 9, 255,
     by decide +kernel⟩,
   ⟨(ringHead .low {}).wr (.pgs .admMode) 0 1, 9, 255, by decide +kernel⟩,
   ⟨State.atLdr (ringOf .low) .armed, by decide +kernel⟩,
   ⟨(State.atLdr (ringOf .low) .armed).setCtx 255 { st := .ready, queued := true, planes := 1, lineBytes := 1 }, 9, 255,
     by decide +kernel⟩,
   ⟨{ ringOf .low with inReset := [.mot] }, by decide +kernel⟩,
   ⟨ringTrack 1, .origin 5, 5, { ctx := 255 }, by decide +kernel⟩,
   ⟨ringTrack 2, .origin 5, 5, by decide +kernel⟩,
   ⟨ringTrack 2, .commit, { ctx := 255 }, by decide +kernel⟩,
   ⟨ringTrack 1, .commit, by decide +kernel⟩,
   ⟨ringOf .low, .w0 5, 5, by decide +kernel⟩,
   ⟨ringOf .low, .boundary, by decide +kernel⟩,
   ⟨ringTrack 2, .outputDecision 2, 2, { ctx := 255 }, by decide +kernel⟩,
   ⟨ringHead .low { query := some 255 }, .feed 9, 9, 255, by decide +kernel⟩,
   ⟨ringTrack 1, .feed 9, 9, { ctx := 255 }, by decide +kernel⟩,
   ⟨(ringOf .low).setCtx 255 { st := .imaging, tag := 9 }, .spoil 9, 9, 255, by decide +kernel⟩,
   ⟨ringOf .low, .spoil 9, 9, by decide +kernel⟩,
   ⟨(State.atLdr (ringOf .low) .armed).setCtx 255 { st := .ready, queued := true, planes := 1, lineBytes := 1, tag := 9 }, 3,
     by decide +kernel⟩,
   ⟨ringOf .low, by decide +kernel⟩,
   ⟨(State.atLdr (ringOf .low) .armed).setCtx 255 { st := .ready, queued := true, planes := 1, lineBytes := 1, tag := 9 },
     by decide +kernel⟩,
   ⟨ringOf .high, 3, by decide +kernel⟩,
   ⟨{ ringOf .high with csl := { query := some 255 } }, 3, false, true, by decide +kernel⟩,
   ⟨ringHead .high { query := some 255 }, 1, true, true, 255, by decide +kernel⟩,
   ⟨((ringOf .high).wr (.pth .mode) 0 1).wr (.pth .wstate) 0 1, 3, by decide +kernel⟩,
   ⟨ringOf .high, 3, by decide +kernel⟩,
   ⟨(ringOf .high).setCtx 255 { st := .imaging, tag := 9 }, 3, 9, 255, by decide +kernel⟩,
   ⟨ringOf .high, 3, 9, by decide +kernel⟩⟩

theorem witness_PinsAreChecked :
    (∃ s : State, ∃ n : Nat, ∃ f, n < 256 ∧ s.up .mot = true ∧ s.pinChecked n = true ∧ s.flagApplies n f = true) ∧
    (∃ s : State, ∃ n : Nat, ∃ f, n < 256 ∧ s.up .mot = true ∧ (s.pinChecked n = false ∨ s.flagApplies n f = false)) ∧
    (∃ s : State, ∃ n : Nat, n < 256 ∧ s.up .mot = true ∧ s.pinChecked n = true ∧ pinClass n = 4 ∧ s.on (.eio .overload) n =
      false) ∧
    (∃ s : State, ∃ n : Nat, n < 256 ∧ s.up .mot = true ∧ (s.on (.eio .overload) n = true ∨ s.pinChecked n = false ∨ pinClass n ≠
      4)) ∧
    (∃ s : State, ∃ n : Nat, ∃ v : Word, n < 256 ∧ s.up .mot = true ∧ s.Reaches .eio 0 ∧ v.toNat / 32 % 2 = 1) ∧
    (∃ s : State, ∃ n : Nat, ∃ v : Word, n < 256 ∧ s.up .mot = true ∧ s.Reaches .eio 0 ∧ v.toNat / 32 % 2 = 0) ∧
    (∃ s : State, ∃ n : Nat, n < 256 ∧ s.up .mot = true ∧ s.fuses.testLocked = true) ∧
    (∃ s : State, ∃ n : Nat, n < 256 ∧ s.up .mot = true ∧ s.fuses.testLocked = false) :=
  ⟨⟨(loaded.wr (.eio .func) 191 0x20).wr (.eio .openChk) 191 1, 191, .openF, by decide +kernel⟩,
   ⟨live, 255, .lo, by decide +kernel⟩,
   ⟨loaded.wr (.eio .func) 191 0x20, 191, by decide +kernel⟩,
   ⟨live, 255, by decide +kernel⟩,
   ⟨live, 255, 32, by decide +kernel, by decide +kernel, reaches (by decide +kernel), by decide +kernel⟩,
   ⟨live, 255, 31, by decide +kernel, by decide +kernel, reaches (by decide +kernel), by decide +kernel⟩,
   ⟨{ live with fuses := { live.fuses with testLocked := true } }, 255, by decide +kernel⟩,
   ⟨live, 255, by decide +kernel⟩⟩

theorem witness_CalibrationSteps :
    (∃ s : State, s.up .ctl = true ∧ s.rd (.cal .puStep) = 0) ∧
    (∃ s : State, s.up .ctl = true ∧ s.rd (.cal .puStep) = 1) ∧
    (∃ s : State, ∃ ok : Bool, s.up .ctl = true ∧ 2 ≤ s.rd (.cal .puStep) ∧ s.rd (.cal .puStep) ≤ 7 ∧ ok = false) ∧
    (∃ s : State, ∃ ok : Bool, s.up .ctl = true ∧ 2 ≤ s.rd (.cal .puStep) ∧ s.rd (.cal .puStep) ≤ 7 ∧ ok = true) ∧
    (∃ s : State, s.up .ctl = true ∧ s.rd (.cal .puStep) = 8 ∧ s.cal.station < 7) ∧
    (∃ s : State, s.up .ctl = true ∧ s.rd (.cal .puStep) = 8 ∧ 7 ≤ s.cal.station) ∧
    (∃ s : State, ∃ ok : Bool, s.up .ctl = true ∧ s.rd (.cal .puStep) = 9 ∧ ok = false) ∧
    (∃ s : State, ∃ i, s.up .ctl = true ∧ s.on (.cal .sweepEn) = true ∧ i < 16) ∧
    (∃ s : State, s.up .ctl = true ∧ s.on (.cal .sweepEn) = false) ∧
    (∃ s : State, ∃ i, s.up .ctl = true ∧ s.Reaches .cal 0 ∧ i < 16) ∧
    (∃ s : State, ∃ i, s.up .ctl = true ∧ ((List.range 16).find? fun j => s.on (.cal .mbusy) j) = some i ∧ s.on (.cal .dead) i =
      true) ∧
    (∃ s : State, ∃ i, ∃ x : Int, s.up .ctl = true ∧ ((List.range 16).find? fun j => s.on (.cal .mbusy) j) = some i ∧ s.on (.cal
      .dead) i = false ∧ -550 ≤ x ∧ x ≤ 1500) ∧
    (∃ s : State, s.up .ctl = true ∧ (∀ i, i < 16 → s.on (.cal .mbusy) i = false)) :=
  ⟨⟨live, by decide +kernel⟩,
   ⟨live.wr (.cal .puStep) 0 1, by decide +kernel⟩,
   ⟨live.wr (.cal .puStep) 0 7, false, by decide +kernel⟩,
   ⟨live.wr (.cal .puStep) 0 7, true, by decide +kernel⟩,
   ⟨{ live.wr (.cal .puStep) 0 8 with cal := { station := 6 } }, by decide +kernel⟩,
   ⟨{ live.wr (.cal .puStep) 0 8 with cal := { station := 7 } }, by decide +kernel⟩,
   ⟨live.wr (.cal .puStep) 0 9, false, by decide +kernel⟩,
   ⟨live, 15, by decide +kernel⟩,
   ⟨live.wr (.cal .sweepEn) 0 0, by decide +kernel⟩,
   ⟨live, 15, by decide +kernel, reaches (by decide +kernel), by decide +kernel⟩,
   ⟨(live.wr (.cal .mbusy) 15 1).wr (.cal .dead) 15 1, 15, by decide +kernel⟩,
   ⟨live.wr (.cal .mbusy) 15 1, 15, 1500, by decide +kernel⟩,
   ⟨live, by decide +kernel⟩⟩

theorem witness_StationsRecalibrate :
    (∃ s : State, ∃ v : Word, ∃ k, s.up .ctl = true ∧ calOp v = 1 ∧ calStation v = k ∧ s.Reaches .cal 0 ∧ s.recalRefused k = true)
      ∧
    (∃ s : State, ∃ v : Word, ∃ k, s.up .ctl = true ∧ calOp v = 1 ∧ calStation v = k ∧ s.Reaches .cal 0 ∧ s.recalRefused k = false
      ∧ s.busy k = true) ∧
    (∃ s : State, ∃ v : Word, ∃ k, s.up .ctl = true ∧ calOp v = 1 ∧ calStation v = k ∧ s.Reaches .cal 0 ∧ s.recalRefused k = false
      ∧ s.busy k = false) ∧
    (∃ s : State, ∃ k, s.up .ctl = true ∧ k < s.hw.stations ∧ k < 8 ∧ s.on (.cal .pend) k = true ∧ s.busy k = false) ∧
    (∃ s : State, ∃ k, s.up .ctl = true ∧ k < s.hw.stations ∧ k < 8 ∧ (s.on (.cal .pend) k = false ∨ s.busy k = true)) ∧
    (∃ s : State, ∃ k, ∃ ok, s.up .ctl = true ∧ k < s.hw.stations ∧ k < 8 ∧ s.on (.cal .busy) k = true ∧ ok = true) ∧
    (∃ s : State, ∃ k, ∃ ok, s.up .ctl = true ∧ k < s.hw.stations ∧ k < 8 ∧ s.on (.cal .busy) k = true ∧ ok = false) ∧
    (∃ s : State, ∃ k, s.up .ctl = true ∧ k < s.hw.stations ∧ k < 8 ∧ s.on (.cal .busy) k = false) ∧
    (∃ s : State, ∃ v : Word, ∃ i, s.up .ctl = true ∧ calOp v = 2 ∧ s.Reaches .cal 0 ∧ i < 512) ∧
    (∃ s : State, ∃ v : Word, s.up .ctl = true ∧ calOp v = 3 ∧ s.Reaches .cal 0 ∧ s.restoreOk = false) ∧
    (∃ s : State, ∃ v : Word, s.up .ctl = true ∧ calOp v = 3 ∧ s.Reaches .cal 0 ∧ s.restoreOk = true) :=
  ⟨⟨loaded, 0x71, 7, by decide +kernel, by decide +kernel, by decide +kernel, reaches (by decide +kernel), by decide +kernel⟩,
   ⟨configured.setCtx 255 { st := .imaging, planes := 128, lineBytes := 1 }, 0x71, 7, by decide +kernel, by decide +kernel,
     by decide +kernel, reaches (by decide +kernel), by decide +kernel⟩,
   ⟨configured, 0x71, 7, by decide +kernel, by decide +kernel, by decide +kernel, reaches (by decide +kernel), by decide +kernel⟩,
   ⟨loaded.wr (.cal .pend) 7 1, 7, by decide +kernel⟩,
   ⟨loaded, 7, by decide +kernel⟩,
   ⟨loaded.wr (.cal .busy) 7 1, 7, true, by decide +kernel⟩,
   ⟨loaded.wr (.cal .busy) 7 1, 7, false, by decide +kernel⟩,
   ⟨loaded, 7, by decide +kernel⟩,
   ⟨loaded.wr (.cal .pend) 7 1, 2, 0, by decide +kernel, by decide +kernel, reaches (by decide +kernel), by decide +kernel⟩,
   ⟨live, 3, by decide +kernel, by decide +kernel, reaches (by decide +kernel), by decide +kernel⟩,
   ⟨restorable, 3, by decide +kernel, by decide +kernel, reaches (by decide +kernel), test_restore⟩⟩

theorem witness_SourcesBecomeActive :
    (∃ s : State, ∃ r : Nat, r < 16 ∧ r ≠ 7 ∧ s.up .ctl = true ∧ s.reports r = false) ∧
    (∃ s : State, ∃ r : Nat, ∃ n, r < 16 ∧ r ≠ 7 ∧ s.up .ctl = true ∧ s.reports r = true ∧ n ∈ s.sourceList ∧ reporterOf n ≠ r ∧ n
      ≠ 50) ∧
    (∃ s : State, ∃ r : Nat, ∃ n, ∃ k, r < 16 ∧ r ≠ 7 ∧ s.up .ctl = true ∧ s.reports r = true ∧ n ∈ s.sourceList ∧ reporterOf n =
      r ∧ n ≠ 50 ∧ s.flt.active = [] ∧ s.flt.badReporters = [] ∧ s.curRec = none ∧ s.freeRec = some k ∧ (∀ m ∈ s.sourceList,
      reporterOf m = r → m ≠ n → (s.sourceNow m).1 = false) ∧ s.srcSev n ≠ 0 ∧ s.srcHost n = false) ∧
    (∃ s : State, ∃ r : Nat, ∃ n, ∃ k, r < 16 ∧ r ≠ 7 ∧ s.up .ctl = true ∧ s.reports r = true ∧ n ∈ s.sourceList ∧ reporterOf n =
      r ∧ n ≠ 50 ∧ s.flt.active = [] ∧ s.flt.badReporters = [] ∧ s.curRec = none ∧ s.freeRec = some k ∧ (∀ m ∈ s.sourceList,
      reporterOf m = r → m ≠ n → (s.sourceNow m).1 = false) ∧ s.srcSev n ≠ 0 ∧ s.srcHost n = true) :=
  ⟨⟨{ live with inReset := [.vid] }, 15, by decide +kernel⟩,
   ⟨live.wr (.flt .sev) 50 3, 3, 42, by decide +kernel⟩,
   ⟨live, 6, 42, 0, by decide +kernel⟩,
   ⟨(live.wr (.flt .sev) 42 3).wr (.flt .mode) 42 1, 6, 42, 0, by decide +kernel⟩⟩

theorem witness_RecordsRunTheirCourse :
    (∃ s : State, ∃ r : Nat, r < 32 ∧ s.up .ctl = true ∧ (s.fltRec r).st = 1 ∧ s.reactOn.reactDone (s.fltRec r).sev = true ∧
      s.flt.queue.length < 64) ∧
    (∃ s : State, ∃ r : Nat, r < 32 ∧ s.up .ctl = true ∧ (s.fltRec r).st = 1 ∧ s.reactOn.reactDone (s.fltRec r).sev = true ∧ 64 ≤
      s.flt.queue.length) ∧
    (∃ s : State, ∃ r : Nat, r < 32 ∧ s.up .ctl = true ∧ ((s.fltRec r).st ≠ 1 ∨ s.reactOn.reactDone (s.fltRec r).sev = false)) ∧
    (∃ s : State, ∃ r : Nat, ∃ v : Word, r < 32 ∧ s.up .ctl = true ∧ v.toNat % 32 = r ∧ s.Reaches .flt 0 ∧ (s.fltRec r).st = 3 ∧
      (∀ n ∈ (s.fltRec r).srcs, n ∉ s.flt.active)) ∧
    (∃ s : State, ∃ r : Nat, ∃ v : Word, r < 32 ∧ s.up .ctl = true ∧ v.toNat % 32 = r ∧ s.Reaches .flt 0 ∧ ((s.fltRec r).st ≠ 3 ∨
      (∃ n ∈ (s.fltRec r).srcs, n ∈ s.flt.active))) ∧
    (∃ s : State, ∃ r : Nat, ∃ v : Word, r < 32 ∧ s.up .ctl = true ∧ v.toNat % 32 = r ∧ s.Reaches .flt 0 ∧ (s.fltRec r).st ≠ 2) ∧
    (∃ s : State, ∃ r : Nat, ∃ v : Word, ∃ a, r < 32 ∧ s.up .ctl = true ∧ v.toNat % 32 = r ∧ s.Reaches .flt 0 ∧ (s.fltRec r).st =
      2 ∧ a = max (min (bitField v.toNat 8 3) (listMax (((s.fltRec r).srcs.filter s.srcHost).map fun n => (srcRow n).hi)))
      (listMax ((s.fltRec r).srcs.map fun n => if s.srcHost n then (srcRow n).lo else s.srcSev n))) :=
  ⟨⟨record { st := 1, sev := 3 }, 31, by decide +kernel⟩,
   ⟨{ live with flt := { records := [(31, { st := 1, sev := 3 })], queue := List.replicate 64 {} } }, 31, by decide +kernel⟩,
   ⟨{ record { st := 1, sev := 4 } with ldr := { st := .armed } }, 31, by decide +kernel⟩,
   ⟨record { st := 3 }, 31, 31, by decide +kernel, by decide +kernel, by decide +kernel, reaches (by decide +kernel),
     by decide +kernel⟩,
   ⟨record { st := 2 }, 31, 31, by decide +kernel, by decide +kernel, by decide +kernel, reaches (by decide +kernel),
     by decide +kernel⟩,
   ⟨record { st := 3 }, 31, 31, by decide +kernel, by decide +kernel, by decide +kernel, reaches (by decide +kernel),
     by decide +kernel⟩,
   ⟨record { st := 2 }, 31, 31, 0, by decide +kernel, by decide +kernel, by decide +kernel, reaches (by decide +kernel),
     by decide +kernel⟩⟩

theorem witness_UnitsLeaveAndReturn :
    (∃ s : State, ∃ v : Word, ∃ u, s.up .ctl = true ∧ bitField v.toNat 16 2 = 1 ∧ unitOf v = some u ∧ s.Reaches .flt 0 ∧ (s.on
      (.glb .expert) = false ∨ s.hw.hasUnit u = false)) ∧
    (∃ s : State, ∃ v : Word, ∃ u, s.up .ctl = true ∧ bitField v.toNat 16 2 = 1 ∧ unitOf v = some u ∧ s.Reaches .flt 0 ∧ s.on
      (.glb .expert) = true ∧ s.hw.hasUnit u = true ∧ s.flt.isolated.contains u = true) ∧
    (∃ s : State, ∃ v : Word, ∃ u, ∃ n, s.up .ctl = true ∧ bitField v.toNat 16 2 = 1 ∧ unitOf v = some u ∧ s.Reaches .flt 0 ∧ s.on
      (.glb .expert) = true ∧ s.hw.hasUnit u = true ∧ s.flt.isolated.contains u = false ∧ u = .engine n) ∧
    (∃ s : State, ∃ v : Word, ∃ u, ∃ k, s.up .ctl = true ∧ bitField v.toNat 16 2 = 1 ∧ unitOf v = some u ∧ s.Reaches .flt 0 ∧ s.on
      (.glb .expert) = true ∧ s.hw.hasUnit u = true ∧ s.flt.isolated.contains u = false ∧ u = .axis k) ∧
    (∃ s : State, ∃ v : Word, s.up .ctl = true ∧ bitField v.toNat 16 2 = 1 ∧ unitOf v = none ∧ s.Reaches .flt 0) ∧
    (∃ s : State, ∃ v : Word, ∃ u, s.up .ctl = true ∧ bitField v.toNat 16 2 = 2 ∧ unitOf v = some u ∧ s.Reaches .flt 0 ∧
      (s.flt.isolated.contains u = false ∨ s.unitBlamed u = true)) ∧
    (∃ s : State, ∃ v : Word, ∃ u, ∃ k, s.up .ctl = true ∧ bitField v.toNat 16 2 = 2 ∧ unitOf v = some u ∧ s.Reaches .flt 0 ∧
      s.flt.isolated.contains u = true ∧ s.unitBlamed u = false ∧ u = .axis k) ∧
    (∃ s : State, ∃ v : Word, ∃ u, ∃ n, s.up .ctl = true ∧ bitField v.toNat 16 2 = 2 ∧ unitOf v = some u ∧ s.Reaches .flt 0 ∧
      s.flt.isolated.contains u = true ∧ s.unitBlamed u = false ∧ u = .slot n) ∧
    (∃ s : State, ∃ v : Word, s.up .ctl = true ∧ bitField v.toNat 16 2 = 2 ∧ unitOf v = none ∧ s.Reaches .flt 0) ∧
    (∃ s : State, ∃ u, s.up .ctl = true ∧ unitOk u = true ∧ s.flt.resetting.contains u = false) ∧
    (∃ s : State, ∃ u, ∃ n, s.up .ctl = true ∧ unitOk u = true ∧ s.flt.resetting.contains u = true ∧ u = .engine n) ∧
    (∃ s : State, ∃ u, ∃ k, s.up .ctl = true ∧ unitOk u = true ∧ s.flt.resetting.contains u = true ∧ u = .station k) ∧
    (∃ s : State, ∃ u, ∃ k, s.up .ctl = true ∧ unitOk u = true ∧ s.flt.resetting.contains u = true ∧ u = .axis k ∧ s.pageActive =
      true) ∧
    (∃ s : State, ∃ u, ∃ k, s.up .ctl = true ∧ unitOk u = true ∧ s.flt.resetting.contains u = true ∧ u = .axis k ∧ s.pageActive =
      false) ∧
    (∃ s : State, ∃ u, s.up .ctl = true ∧ unitOk u = true ∧ s.flt.checking.contains u = false) ∧
    (∃ s : State, ∃ u, ∃ n, s.up .ctl = true ∧ unitOk u = true ∧ s.flt.checking.contains u = true ∧ u = .engine n ∧ s.pageActive =
      true) ∧
    (∃ s : State, ∃ u, ∃ n, s.up .ctl = true ∧ unitOk u = true ∧ s.flt.checking.contains u = true ∧ u = .engine n ∧ s.pageActive =
      false) ∧
    (∃ s : State, ∃ u, ∃ k, ∃ ok, s.up .ctl = true ∧ unitOk u = true ∧ s.flt.checking.contains u = true ∧ u = .station k ∧
      s.pageActive = true ∧ ok = true) :=
  ⟨⟨live, 0x11701, .engine 23, by decide +kernel, by decide +kernel, by decide +kernel, reaches (by decide +kernel),
     by decide +kernel⟩,
   ⟨{ live.wr (.glb .expert) 0 1 with flt := { isolated := [.engine 23] } }, 0x11701, .engine 23, by decide +kernel,
     by decide +kernel, by decide +kernel, reaches (by decide +kernel), by decide +kernel⟩,
   ⟨live.wr (.glb .expert) 0 1, 0x11701, .engine 23, 23, by decide +kernel, by decide +kernel, by decide +kernel,
     reaches (by decide +kernel), by decide +kernel⟩,
   ⟨live.wr (.glb .expert) 0 1, 0x12F02, .axis 47, 47, by decide +kernel, by decide +kernel, by decide +kernel,
     reaches (by decide +kernel), by decide +kernel⟩,
   ⟨live, 0x10000, by decide +kernel, by decide +kernel, by decide +kernel, reaches (by decide +kernel)⟩,
   ⟨live, 0x22F02, .axis 47, by decide +kernel, by decide +kernel, by decide +kernel, reaches (by decide +kernel),
     by decide +kernel⟩,
   ⟨{ live with flt := { isolated := [.axis 47] } }, 0x22F02, .axis 47, 47, by decide +kernel, by decide +kernel,
     by decide +kernel, reaches (by decide +kernel), by decide +kernel⟩,
   ⟨{ live with flt := { isolated := [.slot 127] } }, 0x27F03, .slot 127, 127, by decide +kernel, by decide +kernel,
     by decide +kernel, reaches (by decide +kernel), by decide +kernel⟩,
   ⟨live, 0x20000, by decide +kernel, by decide +kernel, by decide +kernel, reaches (by decide +kernel)⟩,
   ⟨live, .slot 127, by decide +kernel⟩,
   ⟨{ live with flt := { isolated := [.engine 23], resetting := [.engine 23] } }, .engine 23, 23, by decide +kernel⟩,
   ⟨{ live with flt := { resetting := [.station 7] } }, .station 7, 7, by decide +kernel⟩,
   ⟨{ withCtx .imaging with flt := { resetting := [.axis 47] } }, .axis 47, 47, by decide +kernel⟩,
   ⟨{ live with flt := { resetting := [.axis 47] } }, .axis 47, 47, by decide +kernel⟩,
   ⟨live, .station 7, by decide +kernel⟩,
   ⟨{ withCtx .imaging with flt := { checking := [.engine 23] } }, .engine 23, 23, by decide +kernel⟩,
   ⟨{ live with flt := { checking := [.engine 23] } }, .engine 23, 23, by decide +kernel⟩,
   ⟨{ withCtx .imaging with flt := { checking := [.station 7] } }, .station 7, 7, true, by decide +kernel⟩⟩

theorem witness_GuardsAct :
    (∃ s : State, ∃ i, islandOk s.hw i = true ∧ i ≠ .ctl ∧ s.inReset.contains (islandDom i) = false ∧ s.isolated.contains i =
      false) ∧
    (∃ s : State, s.inReset.contains .ctl = false ∧ s.isolated.contains .ctl = false) ∧
    (∃ s : State, ∃ i, islandOk s.hw i = true ∧ (s.inReset.contains (islandDom i) = true ∨ s.isolated.contains i = true)) ∧
    (∃ s : State, s.up .seq = true ∧ s.engineArmed = true) ∧
    (∃ s : State, s.up .seq = true ∧ s.engineArmed = false) :=
  ⟨⟨live, .vid 7, by decide +kernel⟩,
   ⟨live, by decide +kernel⟩,
   ⟨{ live with inReset := [.ctl] }, .ctl, by decide +kernel⟩,
   ⟨armed, by decide +kernel⟩,
   ⟨live, by decide +kernel⟩⟩

theorem witness_RailsFollowTheirOrder :
    (∃ s : State, s.istate = 0 ∧ s.on (.pwr .pwrOn) = true) ∧
    (∃ s : State, (s.istate ≠ 0 ∨ s.on (.pwr .pwrOn) = false)) ∧
    (∃ s : State, s.istate = 0 ∧ s.pwr.vinOk = true) ∧
    (∃ s : State, (s.istate = 3 ∨ s.istate = 4)) ∧
    (∃ s : State, s.istate = 2 ∧ s.ldr.st = .armed) ∧
    (∃ s : State, ∃ n, ∃ m, n ∈ railOrder ∧ s.istate = 1 ∧ s.rd (.pwr .irail) = n ∧ nextRail n = some m) ∧
    (∃ s : State, ∃ n, n ∈ railOrder ∧ s.istate = 1 ∧ s.rd (.pwr .irail) = n ∧ nextRail n = none) ∧
    (∃ s : State, ∃ n, ∃ m, n ∈ railOrder ∧ s.istate = 4 ∧ s.rd (.pwr .irail) = n ∧ prevRail n = some m) ∧
    (∃ s : State, ∃ n, n ∈ railOrder ∧ s.istate = 4 ∧ s.rd (.pwr .irail) = n ∧ prevRail n = none ∧ s.pwr.cold = false ∧
      s.pwr.onLatch = false) ∧
    (∃ s : State, ∃ n, n ∈ railOrder ∧ s.istate = 4 ∧ s.rd (.pwr .irail) = n ∧ prevRail n = none ∧ s.pwr.cold = false ∧
      s.pwr.onLatch = true ∧ s.pwr.vinOk = true ∧ s.on (.pwr .pwrOn) = true ∧ s.pwr.fault = false) ∧
    (∃ s : State, ∃ n, n ∈ railOrder ∧ s.istate = 4 ∧ s.rd (.pwr .irail) = n ∧ prevRail n = none ∧ s.pwr.cold = true) ∧
    (∃ s : State, ∃ n, n ∈ railOrder ∧ (s.istate ≠ 1 ∨ s.rd (.pwr .irail) ≠ n)) ∧
    (∃ s : State, ∃ n, n ∈ railOrder ∧ (s.istate ≠ 4 ∨ s.rd (.pwr .irail) ≠ n)) :=
  ⟨⟨live.wr (.pwr .pwrOn) 0 1, by decide +kernel⟩,
   ⟨live, by decide +kernel⟩,
   ⟨{ live with pwr := { vinOk := true } }, by decide +kernel⟩,
   ⟨powered 4 9, by decide +kernel⟩,
   ⟨State.atLdr (powered 2 11) .armed, by decide +kernel⟩,
   ⟨powered 1 9, 9, 8, by decide +kernel⟩,
   ⟨powered 1 11, 11, by decide +kernel⟩,
   ⟨powered 4 11, 11, 10, by decide +kernel⟩,
   ⟨powered 4 9, 9, by decide +kernel⟩,
   ⟨({ powered 4 9 with pwr := { onLatch := true, vinOk := true } } : State).wr (.pwr .pwrOn) 0 1, 9, by decide +kernel⟩,
   ⟨{ powered 4 9 with pwr := { cold := true } }, 9, by decide +kernel⟩,
   ⟨live.wr (.pwr .pwrOn) 0 1, 9, by decide +kernel⟩,
   ⟨live.wr (.pwr .pwrOn) 0 1, 9, by decide +kernel⟩⟩

theorem witness_ExternalStepsFollowTheirOrder :
    (∃ s : State, ∃ i : Nat, s.rd (.pwr .estep) = i ∧ s.estate = 2 ∧ s.pwr.raised = i ∧ i < s.rd (.pwr .nsteps) ∧ s.on (.pwr
      .mode) = false) ∧
    (∃ s : State, ∃ i : Nat, s.rd (.pwr .estep) = i ∧ s.estate = 2 ∧ s.pwr.raised = i ∧ i < s.rd (.pwr .nsteps) ∧ s.on (.pwr
      .mode) = true) ∧
    (∃ s : State, ∃ i : Nat, s.rd (.pwr .estep) = i ∧ (s.estate ≠ 2 ∨ s.pwr.raised ≠ i ∨ s.rd (.pwr .nsteps) ≤ i)) ∧
    (∃ s : State, ∃ i : Nat, s.rd (.pwr .estep) = i ∧ s.estate = 2 ∧ s.pwr.raised = i + 1 ∧ i + 1 < s.rd (.pwr .nsteps)) ∧
    (∃ s : State, ∃ i : Nat, s.rd (.pwr .estep) = i ∧ s.estate = 2 ∧ s.pwr.raised = i + 1 ∧ s.rd (.pwr .nsteps) ≤ i + 1) ∧
    (∃ s : State, ∃ i : Nat, s.rd (.pwr .estep) = i ∧ (s.estate ≠ 2 ∨ s.pwr.raised ≠ i + 1)) ∧
    (∃ s : State, ∃ i : Nat, ∃ n, s.rd (.pwr .estep) = i ∧ s.estate = 5 ∧ s.pwr.raised = n + 1 ∧ n < 8) ∧
    (∃ s : State, ∃ i : Nat, s.rd (.pwr .estep) = i ∧ s.estate = 5 ∧ s.pwr.raised = 0 ∧ s.istate = 3 ∧ s.on (.pwr .offPend) =
      false) ∧
    (∃ s : State, ∃ i : Nat, s.rd (.pwr .estep) = i ∧ s.estate = 5 ∧ s.pwr.raised = 0 ∧ s.istate = 2 ∧ s.pwr.extLatch = false) ∧
    (∃ s : State, ∃ i : Nat, s.rd (.pwr .estep) = i ∧ s.estate = 5 ∧ s.pwr.raised = 0 ∧ s.istate = 2 ∧ s.pwr.extLatch = true ∧
      s.ldr.st ≠ .applying ∧ s.cslRole ≠ 2) ∧
    (∃ s : State, ∃ i : Nat, ∃ v : Word, s.rd (.pwr .estep) = i ∧ s.Reaches .pwr 0 ∧ pwrOp v = 2 ∧ s.estate = 5) ∧
    (∃ s : State, ∃ i : Nat, ∃ v : Word, s.rd (.pwr .estep) = i ∧ s.Reaches .pwr 0 ∧ pwrOp v = 2 ∧ s.estate = 0 ∧ s.istate = 2 ∧
      s.rd (.pwr .nsteps) = 0) ∧
    (∃ s : State, ∃ i : Nat, ∃ v : Word, s.rd (.pwr .estep) = i ∧ s.Reaches .pwr 0 ∧ pwrOp v = 2 ∧ s.estate = 0 ∧ s.istate = 2 ∧
      s.rd (.pwr .nsteps) ≠ 0) ∧
    (∃ s : State, ∃ i : Nat, ∃ v : Word, s.rd (.pwr .estep) = i ∧ s.Reaches .pwr 0 ∧ pwrOp v = 2 ∧ s.estate ≠ 5 ∧ (s.estate ≠ 0 ∨
      s.istate ≠ 2)) ∧
    (∃ s : State, ∃ i : Nat, ∃ v : Word, s.rd (.pwr .estep) = i ∧ s.Reaches .pwr 0 ∧ pwrOp v = 3 ∧ (s.ldr.st = .armed ∨ s.estate =
      0 ∨ s.estate = 5)) ∧
    (∃ s : State, ∃ i : Nat, ∃ v : Word, ∃ n, s.rd (.pwr .estep) = i ∧ s.Reaches .pwr 0 ∧ pwrOp v = 3 ∧ s.ldr.st ≠ .armed ∧
      s.estate ≠ 0 ∧ s.estate ≠ 5 ∧ s.pwr.raised = n + 1 ∧ n < 8) ∧
    (∃ s : State, ∃ i : Nat, ∃ v : Word, s.rd (.pwr .estep) = i ∧ s.Reaches .pwr 0 ∧ pwrOp v = 3 ∧ s.ldr.st ≠ .armed ∧ s.estate ≠
      0 ∧ s.estate ≠ 5 ∧ s.pwr.raised = 0 ∧ s.pwr.extLatch = false) ∧
    (∃ s : State, ∃ i : Nat, ∃ v : Word, s.rd (.pwr .estep) = i ∧ s.Reaches .pwr 0 ∧ pwrOp v = 4 ∧ s.estate = 3) ∧
    (∃ s : State, ∃ i : Nat, ∃ v : Word, s.rd (.pwr .estep) = i ∧ s.Reaches .pwr 0 ∧ pwrOp v = 4 ∧ s.estate ≠ 3) :=
  ⟨⟨stepping 2 7 7 8, 7, by decide +kernel⟩,
   ⟨(stepping 2 7 7 8).wr (.pwr .mode) 0 1, 7, by decide +kernel⟩,
   ⟨stepping 2 6 7 8, 6, by decide +kernel⟩,
   ⟨stepping 2 6 7 8, 6, by decide +kernel⟩,
   ⟨stepping 2 7 8 8, 7, by decide +kernel⟩,
   ⟨stepping 2 7 7 8, 7, by decide +kernel⟩,
   ⟨stepping 5 7 8 8, 7, 7, by decide +kernel⟩,
   ⟨(stepping 5 0 0 8).wr (.pwr .istate) 0 3, 0, by decide +kernel⟩,
   ⟨(stepping 5 0 0 8).wr (.pwr .istate) 0 2, 0, by decide +kernel⟩,
   ⟨{ (stepping 5 0 0 8).wr (.pwr .istate) 0 2 with pwr := { extLatch := true } }, 0, by decide +kernel⟩,
   ⟨stepping 5 7 8 8, 7, 2, by decide +kernel, reaches (by decide +kernel), by decide +kernel⟩,
   ⟨(stepping 0 0 0 0).wr (.pwr .istate) 0 2, 0, 2, by decide +kernel, reaches (by decide +kernel), by decide +kernel⟩,
   ⟨(stepping 0 0 0 8).wr (.pwr .istate) 0 2, 0, 2, by decide +kernel, reaches (by decide +kernel), by decide +kernel⟩,
   ⟨stepping 2 7 7 8, 7, 2, by decide +kernel, reaches (by decide +kernel), by decide +kernel⟩,
   ⟨stepping 0 0 0 8, 0, 3, by decide +kernel, reaches (by decide +kernel), by decide +kernel⟩,
   ⟨stepping 4 7 8 8, 7, 3, 7, by decide +kernel, reaches (by decide +kernel), by decide +kernel⟩,
   ⟨stepping 4 0 0 8, 0, 3, by decide +kernel, reaches (by decide +kernel), by decide +kernel⟩,
   ⟨stepping 3 7 7 8, 7, 4, by decide +kernel, reaches (by decide +kernel), by decide +kernel⟩,
   ⟨stepping 2 7 7 8, 7, 4, by decide +kernel, reaches (by decide +kernel), by decide +kernel⟩⟩

theorem witness_PowerIsLost :
    (∃ s : State, ∃ v : Word, pwrOp v = 1 ∧ s.Reaches .pwr 0 ∧ v.toNat / 65536 ≠ 0x5D0F) ∧
    (∃ s : State, ∃ v : Word, pwrOp v = 1 ∧ s.Reaches .pwr 0 ∧ v.toNat / 65536 = 0x5D0F ∧ s.istate ≠ 2) ∧
    (∃ s : State, ∃ v : Word, pwrOp v = 1 ∧ s.Reaches .pwr 0 ∧ v.toNat / 65536 = 0x5D0F ∧ s.istate = 2 ∧ s.ldr.st = .armed) ∧
    (∃ s : State, s.on (.pwr .offPend) = false) ∧
    (∃ s : State, s.on (.pwr .offPend) = true ∧ s.estate = 0 ∧ s.istate = 3) ∧
    (∃ s : State, s.on (.pwr .offPend) = true ∧ s.estate = 5) ∧
    (∃ s : State, ∃ n, s.on (.pwr .offPend) = true ∧ s.estate ≠ 0 ∧ s.estate ≠ 5 ∧ s.pwr.raised = n + 1 ∧ n < 8) ∧
    (∃ s : State, s.pwr.copying = false) ∧
    (∃ s : State, s.pwr.copying = true) ∧
    (∃ s : State, ∃ r, r ∈ railOrder ∧ s.pwr.qualified.contains r = false) ∧
    (∃ s : State, ∃ r, r ∈ railOrder ∧ s.pwr.qualified.contains r = true ∧ (s.istate = 1 ∨ s.istate = 2)) ∧
    (∃ s : State, ∃ r, r ∈ railOrder ∧ s.pwr.qualified.contains r = true ∧ s.istate ≠ 1 ∧ s.istate ≠ 2) ∧
    (∃ s : State, s.istate = 0) ∧
    (∃ s : State, s.istate ≠ 0) ∧
    (∃ s : State, s.pwr.log = none) ∧
    (∃ s : State, ∃ n, ∃ bytes, s.pwr.log = some (n, bytes)) ∧
    (∃ r, r < 12) ∧
    (∃ m, m < 16) :=
  ⟨⟨live, 0x5D0E0001, by decide +kernel, reaches (by decide +kernel), by decide +kernel⟩,
   ⟨live, 0x5D0F0001, by decide +kernel, reaches (by decide +kernel), by decide +kernel⟩,
   ⟨State.atLdr (powered 2 11) .armed, 0x5D0F0001, by decide +kernel, reaches (by decide +kernel), by decide +kernel⟩,
   ⟨live, by decide +kernel⟩,
   ⟨(powered 3 11).wr (.pwr .offPend) 0 1, by decide +kernel⟩,
   ⟨(stepping 5 0 0 8).wr (.pwr .offPend) 0 1, by decide +kernel⟩,
   ⟨(stepping 2 7 8 8).wr (.pwr .offPend) 0 1, 7, by decide +kernel⟩,
   ⟨live, by decide +kernel⟩,
   ⟨{ powered 3 11 with pwr := { copying := true } }, by decide +kernel⟩,
   ⟨live, 9, by decide +kernel⟩,
   ⟨{ powered 1 8 with pwr := { qualified := [9] } }, 9, by decide +kernel⟩,
   ⟨{ powered 4 9 with pwr := { qualified := [9] } }, 9, by decide +kernel⟩,
   ⟨live, by decide +kernel⟩,
   ⟨powered 2 11, by decide +kernel⟩,
   ⟨live, by decide +kernel⟩,
   ⟨{ live with pwr := { log := some (1, [2]) } }, 1, [2], by decide +kernel⟩,
   ⟨11, by decide +kernel⟩,
   ⟨15, by decide +kernel⟩⟩

theorem witness_ResetsHoldAndRelease :
    (∃ s : State, ∃ src, src < 12 ∧ s.sourceCan src = false) ∧
    (∃ s : State, ∃ src, 1 ≤ src ∧ src < 12 ∧ s.sourceCan src = true ∧ s.effReach src = 1) ∧
    (∃ s : State, ∃ src, 1 ≤ src ∧ src < 12 ∧ s.sourceCan src = true ∧ s.effReach src = 2) ∧
    (∃ s : State, ∃ src, 1 ≤ src ∧ src < 12 ∧ s.sourceCan src = true ∧ s.effReach src = 0) ∧
    (∃ s : State, ∃ src, 1 ≤ src ∧ src < 12 ∧ s.sourceCan src = true ∧ s.effReach src = 3 ∧ s.istate = 0) ∧
    (∃ s : State, ∃ src, 1 ≤ src ∧ src < 12 ∧ s.sourceCan src = true ∧ s.effReach src = 3 ∧ s.istate = 1) ∧
    (∃ s : State, ∃ src, 1 ≤ src ∧ src < 12 ∧ s.sourceCan src = true ∧ s.effReach src = 3 ∧ s.istate = 2) ∧
    (∃ s : State, ∃ src, 1 ≤ src ∧ src < 12 ∧ s.sourceCan src = true ∧ s.effReach src = 3 ∧ (s.istate = 3 ∨ s.istate = 4)) ∧
    (∃ s : State, ∃ src, src < 12 ∧ (s.sourceMayEnd src = false ∨ s.rst.asserted.contains src = false)) ∧
    (∃ s : State, ∃ src, src < 12 ∧ s.sourceMayEnd src = true ∧ s.rst.asserted.contains src = true) ∧
    (∃ s : State, s.rst.release = []) ∧
    (∃ s : State, ∃ d, ∃ rest, s.rst.release = d :: rest ∧ (s.on (.rstc .refOk) = false ∨ s.rst.asserted ≠ [])) ∧
    (∃ s : State, ∃ d, ∃ rest, s.rst.release = d :: rest ∧ s.on (.rstc .refOk) = true ∧ s.rst.asserted = [] ∧ rest = []) ∧
    (∃ s : State, ∃ d, ∃ rest, s.rst.release = d :: rest ∧ s.on (.rstc .refOk) = true ∧ s.rst.asserted = [] ∧ d = .seq) :=
  ⟨⟨live, 1, by decide +kernel⟩,
   ⟨live, 9, by decide +kernel⟩,
   ⟨live, 10, by decide +kernel⟩,
   ⟨live, 11, by decide +kernel⟩,
   ⟨live.wr (.rstc .ob) 1 3, 3, by decide +kernel⟩,
   ⟨(live.wr (.rstc .ob) 1 3).wr (.pwr .istate) 0 1, 3, by decide +kernel⟩,
   ⟨(live.wr (.rstc .ob) 1 3).wr (.pwr .istate) 0 2, 3, by decide +kernel⟩,
   ⟨(live.wr (.rstc .ob) 1 3).wr (.pwr .istate) 0 4, 3, by decide +kernel⟩,
   ⟨live, 11, by decide +kernel⟩,
   ⟨{ live with rst := { live.rst with asserted := [11] } }, 11, by decide +kernel⟩,
   ⟨live, by decide +kernel⟩,
   ⟨{ live with rst := { live.rst with asserted := [], release := [.vid] }, inReset := [.vid] }, .vid, [], by decide +kernel⟩,
   ⟨({ live with rst := { live.rst with asserted := [], release := [.vid] }, inReset := [.vid] } : State).wr (.rstc .refOk) 0 1,
     .vid, [], by decide +kernel⟩,
   ⟨({ live with rst := { live.rst with asserted := [], release := [.seq] }, inReset := [.seq] } : State).wr (.rstc .refOk) 0 1,
     .seq, [], by decide +kernel⟩⟩

theorem witness_ResetCommandsRun :
    (∃ s : State, ∃ v : Word, s.Reaches .rstc 0 ∧ rstcOp v = 1 ∧ rstcKey v = false) ∧
    (∃ s : State, ∃ v : Word, s.Reaches .rstc 0 ∧ rstcOp v = 1 ∧ rstcKey v = true ∧ (s.engineArmed = true ∨ bitField v.toNat 4 4 =
      0 ∨ 8 < bitField v.toNat 4 4)) ∧
    (∃ s : State, ∃ v : Word, ∃ d, s.Reaches .rstc 0 ∧ rstcOp v = 1 ∧ rstcKey v = true ∧ s.engineArmed = false ∧ bitField v.toNat
      4 4 = d ∧ 1 ≤ d ∧ d ≤ 8 ∧ d ≠ 2) ∧
    (∃ s : State, ∃ v : Word, ∃ d, s.Reaches .rstc 0 ∧ rstcOp v = 1 ∧ rstcKey v = true ∧ s.engineArmed = false ∧ bitField v.toNat
      4 4 = d ∧ 1 ≤ d ∧ d ≤ 8 ∧ d = 2) ∧
    (∃ s : State, ∃ v : Word, s.Reaches .rstc 0 ∧ rstcOp v = 2 ∧ rstcKey v = false) ∧
    (∃ s : State, ∃ v : Word, s.Reaches .rstc 0 ∧ rstcOp v = 2 ∧ rstcKey v = true ∧ s.engineArmed = true) ∧
    (∃ s : State, ∃ v : Word, s.Reaches .rstc 0 ∧ rstcOp v = 2 ∧ rstcKey v = true ∧ s.engineArmed = false) ∧
    (∃ s : State, ∃ v : Word, s.Reaches .rstc 0 ∧ rstcOp v = 3 ∧ rstcKey v = false) ∧
    (∃ s : State, ∃ v : Word, s.Reaches .rstc 0 ∧ rstcOp v = 3 ∧ rstcKey v = true ∧ s.istate = 1) ∧
    (∃ s : State, ∃ v : Word, s.Reaches .rstc 0 ∧ rstcOp v = 3 ∧ rstcKey v = true ∧ s.istate = 2) ∧
    (∃ s : State, ∃ v : Word, s.Reaches .rstc 0 ∧ rstcOp v = 3 ∧ rstcKey v = true ∧ (s.istate = 0 ∨ s.istate = 3 ∨ s.istate = 4))
      ∧
    (∃ s : State, ∃ v : Word, s.Reaches .rstc 0 ∧ rstcOp v = 4 ∧ rstcKey v = false) ∧
    (∃ s : State, ∃ v : Word, s.Reaches .rstc 0 ∧ rstcOp v = 4 ∧ rstcKey v = true ∧ s.on (.rstc .obBusy) = true) ∧
    (∃ s : State, ∃ v : Word, s.Reaches .rstc 0 ∧ rstcOp v = 4 ∧ rstcKey v = true ∧ s.on (.rstc .obBusy) = false) ∧
    (∃ s : State, ∃ n, ∃ bytes, s.Reaches .rstc 0 ∧ s.rst.obWrite = some (n, bytes)) :=
  ⟨⟨live, 0x2E580081, reaches (by decide +kernel), by decide +kernel⟩,
   ⟨live, 0x2E570091, reaches (by decide +kernel), by decide +kernel⟩,
   ⟨live, 0x2E570081, 8, reaches (by decide +kernel), by decide +kernel⟩,
   ⟨live, 0x2E570021, 2, reaches (by decide +kernel), by decide +kernel⟩,
   ⟨live, 0x2E580002, reaches (by decide +kernel), by decide +kernel⟩,
   ⟨armed, 0x2E570002, reaches (by decide +kernel), by decide +kernel⟩,
   ⟨live, 0x2E570002, reaches (by decide +kernel), by decide +kernel⟩,
   ⟨live, 0x2E580003, reaches (by decide +kernel), by decide +kernel⟩,
   ⟨powered 1 9, 0x2E570003, reaches (by decide +kernel), by decide +kernel⟩,
   ⟨State.atLdr (powered 2 11) .armed, 0x2E570003, reaches (by decide +kernel), by decide +kernel⟩,
   ⟨powered 4 9, 0x2E570003, reaches (by decide +kernel), by decide +kernel⟩,
   ⟨live, 0x2E580004, reaches (by decide +kernel), by decide +kernel⟩,
   ⟨live.wr (.rstc .obBusy) 0 1, 0x2E570004, reaches (by decide +kernel), by decide +kernel⟩,
   ⟨live, 0x2E570004, reaches (by decide +kernel), by decide +kernel⟩,
   ⟨{ live with rst := { live.rst with obWrite := some (1, [2]) } }, 1, [2], reaches (by decide +kernel), by decide +kernel⟩⟩

/-- An image of two sections, FIRMWARE and an empty GLOBAL, with a signature block that verifies (R28 to R35, R43). -/
def image : List Byte :=
  [84, 86, 73, 70, 1, 0, 0, 0, 0, 16, 0, 0, 2, 0, 0, 0, 0, 0, 0, 0, 2, 0, 0, 0, 0, 0, 0, 0, 0, 0, 0, 0, 0, 0, 0, 0, 0, 0, 0, 0,
   64, 0, 0, 0, 0, 0, 0, 0, 0, 0, 0, 0, 0, 0, 0, 0, 0, 0, 0, 0, 0, 0, 0, 0, 1, 0, 0, 0, 96, 0, 0, 0, 16, 0, 0, 0, 234, 154, 112,
   66, 2, 0, 0, 0, 112, 0, 0, 0, 16, 0, 0, 0, 4, 217, 213, 60, 0, 0, 0, 0, 0, 0, 0, 0, 0, 0, 0, 0, 0, 0, 0, 0, 2, 0, 1, 0, 0, 0,
   1, 0, 0, 0, 0, 0, 0, 0, 0, 0] ++ zeros 3840 ++
  beBytes 32 0x2c3f3a8ce98601f983b53d453b05084610561c0fc7ae78c812e1d144dc68f0bc ++ beBytes 32 0x70fe85b29f1bde6811ee6dd8ca642e49bef5537b15e8cdb83b24296f749bd2af ++
  beBytes 32 0x4f8e3c1ae650e7b5dcba16f67a49882446d5b960ceb13f84d318f3a9d13da045 ++ beBytes 32 0x4f8e3c1ae650e7b5dcba16f67a49882446d5b960ceb13f84d318f3a9d13da045

/-- Flash slot 0 holds the image and is being verified. -/
def stored : State := { State.reset with ldr := { st := .verifying, source := 1, flash0 := image } }

set_option maxRecDepth 100000 in
theorem test_image_signed : signatureOk image = true := by decide +kernel

set_option maxRecDepth 100000 in
theorem test_image_bytes : stored.sourceBytes 1 4096 = image := by decide +kernel

set_option maxRecDepth 100000 in
theorem test_image_header : parseHeader (stored.sourceBytes 1 64) = ⟨0x46495654, 1, 0, 4096, 2, 0, 0, 0, 0, 2, 0, 64⟩ := by
  decide +kernel

set_option maxRecDepth 100000 in
theorem test_image_tables :
    (tableOk (parseTable image) 4096 && bodiesOk (parseTable image) image && firstTwoOk (parseTable image) image) = true := by
  decide +kernel

/-- Whether a payload is good firmware is not stated (log 5): an image whose payload is passes every check of R48. -/
theorem witness_LoadsRun_accepted (h : Config.payloadOk (payload image) = true) :
    ∃ (s : State) (ok : Bool), s.ldr.st = .verifying ∧ s.imageFault s.ldr.source ok = 0 := by
  refine ⟨stored, true, rfl, ?_⟩
  have ht := test_image_tables
  simp only [Bool.and_eq_true] at ht
  obtain ⟨⟨h1, h2⟩, h3⟩ := ht
  show stored.imageFault 1 true = 0
  unfold State.imageFault
  simp only [test_image_header, test_image_bytes, test_image_signed, h1, h2, h3, h]
  decide

end Sys2Proof.Tests
end

/-! PROOFS. The statements on the scope of the model: what every step keeps, which commands run, and what a register write and a
pair of registers do. -/

namespace Sys2Proof.Machine

open Sys2Proof

/-! ### Soundness along a step (O2) -/

/-- Soundness speaks of five parts of the state only. -/
theorem State.Sound.congr {s t : State} (h : s.Sound) (hhw : t.hw = s.hw) (hregs : t.regs = s.regs)
    (hbytes : t.loam.bytes = s.loam.bytes) (hposts : t.mbx.queues = s.mbx.queues) (hrep : t.ldr.report = s.ldr.report) : t.Sound :=
  ⟨hbytes ▸ h.bytes, hhw ▸ hregs ▸ h.regs, hposts ▸ h.posts, hrep ▸ h.report⟩

/-- No command takes a sound state out of soundness; FUSE_COMMAND_DONE, which `exec_keeps` leaves out, changes fuses besides. -/
theorem exec_sound {i : Instr} {s t : State} (h : s.Sound) (e : exec i s = .next t) : t.Sound := by
  by_cases hf : ∃ b, i = .fuseCommandDone b
  · obtain ⟨b, rfl⟩ := hf
    exact (execFuseCommandDone_keeps b e).sound (h.congr rfl rfl rfl rfl rfl)
  · exact (exec_keeps (fun b hb => hf ⟨b, hb⟩) e).sound h

/-- A step is an idle reference cycle or the command at the front of the queue. -/
theorem step_next_cases {s t : State} (e : step s = .next t) :
    t = s.idleCycle ∨ ∃ i rest, s.pending = i :: rest ∧ exec i { s with pending := rest } = .next t := by
  unfold step at e
  split at e
  · exact .inl (by injection e with e; exact e.symm)
  · next i rest hp => exact .inr ⟨i, rest, hp, e⟩

/-- Settles O2: the idle cycle and every command keep what `Keeps` says, and soundness does not look at the queue. -/
theorem stepKeepsSound : Obligations.StepKeepsSound := by
  intro s t hs e
  obtain rfl | ⟨i, rest, -, hx⟩ := step_next_cases e
  · exact (State.idleCycle_keeps (b₀ := false) (.refl s)).sound hs
  · exact exec_sound (s := { s with pending := rest }) (hs.congr rfl rfl rfl rfl rfl) hx

/-! ### Well-formed commands (O5, O8) -/

theorem exec_misalignedBar0Access (a n : Nat) (w : Bool) (s : State) :
    exec (.misalignedBar0Access a n w) s =
      guardWF (decide (a < 0x4000000) && (a % 4 != 0 || n != 4)) (if s.barUp then s.emit .unsupported else s) := by
  simp [exec, execMisalignedBar0Access]

/-- Every meaning is guarded by exactly the well-formedness of its command. The arms written out are those whose guard matches on an
operand. -/
theorem exec_eq_guardWF (i : Instr) (s : State) : ∃ t, exec i s = guardWF (i.wf s.hw) t := by
  cases i with
  | misalignedBar0Access a n w => exact ⟨_, exec_misalignedBar0Access a n w s⟩
  | railQualified r => cases r <;> exact ⟨_, rfl⟩
  | zeroCrossing t vrms => cases vrms <;> exact ⟨_, rfl⟩
  | descriptorFetch n d => cases d <;> exact ⟨_, rfl⟩
  | msixUnmask op => cases op <;> exact ⟨_, rfl⟩
  | _ => exact ⟨_, rfl⟩

/-- Settles O5: `exec` is the guard by well-formedness, which answers the next state or `illFormed`. -/
theorem wellFormedCommandsRun : Obligations.WellFormedCommandsRun := by
  intro i s
  obtain ⟨t, ht⟩ := exec_eq_guardWF i s
  rw [ht]
  exact ⟨fun h => ⟨t, by rw [h]; rfl⟩, fun h => by rw [h]; rfl⟩

/-- Settles O8: the guard holds, and the BAR answers. -/
theorem misalignedAccessChangesNothing : Obligations.MisalignedAccessChangesNothing := by
  intro s a n w ha hn hbar
  have hg : (decide (a < 0x4000000) && (a % 4 != 0 || n != 4)) = true := by simpa [ha] using hn
  rw [exec_misalignedBar0Access, hg, hbar, guardWF_true]
  rfl

/-! ### One field of a written word (O7: R7, R26) -/

theorem clampInt_of_mem {z lo hi : Int} (h1 : lo ≤ z) (h2 : z ≤ hi) : clampInt z lo hi = z := by
  unfold clampInt; omega

theorem clampInt_of_gt {z lo hi : Int} (h1 : lo ≤ hi) (h2 : hi < z) : clampInt z lo hi = hi := by
  unfold clampInt; omega

theorem ofSigned_natCast {w n : Nat} (h : n < 2 ^ w) : ofSigned w (n : Int) = n := by
  unfold ofSigned
  rw [show ((2 : Int) ^ w) = ((2 ^ w : Nat) : Int) by push_cast; rfl, ← Int.natCast_mod, Int.toNat_natCast, Nat.mod_eq_of_lt h]

theorem bitField_lt (n lsb w : Nat) : bitField n lsb w < 2 ^ w := Nat.mod_lt _ (Nat.two_pow_pos w)

theorem bitField_word (v : Word) : bitField v.toNat 0 32 = v.toNat := by
  unfold bitField; have := v.isLt; omega

theorem clampVerdict_of_mem {z lo hi : Int} (h1 : lo ≤ z) (h2 : z ≤ hi) (r : Kind) :
    clampVerdict z lo hi false false false r = { value := some z, range := r } := by
  simp [clampVerdict, clampInt_of_mem h1 h2]

theorem clampVerdict_of_gt {z lo hi : Int} (h1 : lo ≤ hi) (h2 : hi < z) (r : Kind) :
    clampVerdict z lo hi false false false r = { value := some hi, clamp := some (0x01, hi), range := r } := by
  simp [clampVerdict, clampInt_of_gt h1 h2, h2.ne', h2.not_gt]

/-- Only an expert write is limited: every other accepted write takes the bits written. -/
theorem State.limited_of_not_rwx (s : State) {k : FKey} (h : k.1.1.row.acc ≠ .rwx) (raw : Nat) :
    s.limited k raw = (some raw, s) := by
  simp [State.limited, h]

/-- An expert write within an unsigned range. -/
theorem State.limited_of_mem (s : State) {k : FKey} {lo hi raw : Nat} (ha : k.1.1.row.acc = .rwx)
    (hr : s.expertRange k = .u lo hi) (hw : raw < 2 ^ k.place.2.2) (h1 : lo ≤ raw) (h2 : raw ≤ hi) :
    s.limited k raw = (some raw, s) := by
  have hv := clampVerdict_of_mem (Int.ofNat_le.2 h1) (Int.ofNat_le.2 h2) (.u lo hi)
  simp [State.limited, ha, hr, expertVerdict, hv, ofSigned_natCast hw]

/-- An expert write above an unsigned range takes its upper end, and the report an entry of origin 3. -/
theorem State.limited_of_gt (s : State) {k : FKey} {lo hi raw : Nat} (ha : k.1.1.row.acc = .rwx)
    (hr : s.expertRange k = .u lo hi) (hw : raw < 2 ^ k.place.2.2) (h1 : lo ≤ hi) (h2 : hi < raw) :
    ∃ e : Entry, e.origin = 3 ∧ e.cause = 1 ∧ s.limited k raw = (some hi, s.report e) := by
  have hv := clampVerdict_of_gt (Int.ofNat_le.2 h1) (Int.ofNat_lt.2 h2) (.u lo hi)
  refine ⟨fieldEntry 1 3 0xFFFF 0xFFFF k raw (entryWord hi) (entryWord hi), rfl, rfl, ?_⟩
  simp [State.limited, ha, hr, expertVerdict, hv, ofSigned_natCast (h2.trans hw)]

/-- Clearing an event clears its bit, and no other field. -/
theorem State.rd_clearEvent (s : State) (f : Fld) (i : Nat) (g : Fld) (j : Nat) :
    (s.clearEvent f i).rd g j = (s.wr f i 0).rd g j := by
  unfold State.clearEvent
  extract_lets t
  split <;> rfl

section Judge

variable {s : State} {sl : Slice} {word : Nat} (hp : populated s.hw sl.fld sl.idx = true) (hf : fixedField sl.fld sl.idx = false)

include hp hf

theorem State.judgeField_ro (ha : sl.fld.row.acc = .ro) : s.judgeField sl word = (s, false) := by
  simp [State.judgeField, hp, hf, ha]

theorem State.judgeField_w1c (ha : sl.fld.row.acc = .w1c) (ht : sl.fld ≠ .blk .tempTrip) :
    s.judgeField sl word =
      (if bitField word sl.lsb sl.fld.row.width = 1 then s.clearEvent sl.fld sl.idx else s, false) := by
  simp [State.judgeField, hp, hf, ha, ht]

/-- A write that the access code turns away leaves the field, and is a refusal if it would have changed it. -/
theorem State.judgeField_refused (h1 : sl.fld.row.acc ≠ .ro) (h2 : sl.fld.row.acc ≠ .w1c) (hn : s.permits sl.fld.row.acc = false) :
    s.judgeField sl word = (s, bitField word sl.lsb sl.fld.row.width != s.rd sl.fld sl.idx) := by
  unfold State.judgeField
  cases ha : sl.fld.row.acc with
  | ro => exact absurd ha h1
  | w1c => exact absurd ha h2
  | _ => rw [ha] at hn; simp [hp, hf, ha, hn]

/-- A write that the access code lets through takes what the limits leave of it. -/
theorem State.judgeField_taken {w : Nat} {t : State} (hn : s.permits sl.fld.row.acc = true)
    (hl : s.limited ((sl.fld, sl.idx), 0) (bitField word sl.lsb sl.fld.row.width) = (some w, t)) :
    s.judgeField sl word = (t.accept sl.fld sl.idx w, false) := by
  unfold State.judgeField
  cases ha : sl.fld.row.acc with
  | ro | w1c => rw [ha] at hn; cases hn
  | _ => rw [ha] at hn; simp [hp, hf, hl, ha, hn]

theorem State.judgeField_rw (ha : sl.fld.row.acc = .rw) :
    s.judgeField sl word = (s.accept sl.fld sl.idx (bitField word sl.lsb sl.fld.row.width), false) :=
  State.judgeField_taken hp hf (by rw [ha]; rfl) (s.limited_of_not_rwx (by simp [ha]) _)

theorem State.judgeField_rwl (ha : sl.fld.row.acc = .rwl) (he : s.engineArmed = false) :
    s.judgeField sl word = (s.accept sl.fld sl.idx (bitField word sl.lsb sl.fld.row.width), false) :=
  State.judgeField_taken hp hf (by simp [ha, State.permits, he]) (s.limited_of_not_rwx (by simp [ha]) _)

theorem State.judgeField_rwl_armed (ha : sl.fld.row.acc = .rwl) (he : s.engineArmed = true) :
    s.judgeField sl word = (s, bitField word sl.lsb sl.fld.row.width != s.rd sl.fld sl.idx) :=
  State.judgeField_refused hp hf (by simp [ha]) (by simp [ha]) (by simp [ha, State.permits, he])

theorem State.judgeField_rwx_locked (ha : sl.fld.row.acc = .rwx) (he : s.on (.glb .expert) = false) :
    s.judgeField sl word = (s, bitField word sl.lsb sl.fld.row.width != s.rd sl.fld sl.idx) :=
  State.judgeField_refused hp hf (by simp [ha]) (by simp [ha]) (by simp [ha, State.permits, he])

theorem State.judgeField_rwx_mem {lo hi : Nat} (ha : sl.fld.row.acc = .rwx) (he : s.on (.glb .expert) = true)
    (hr : s.expertRange ((sl.fld, sl.idx), 0) = .u lo hi) (h1 : lo ≤ bitField word sl.lsb sl.fld.row.width)
    (h2 : bitField word sl.lsb sl.fld.row.width ≤ hi) :
    s.judgeField sl word = (s.accept sl.fld sl.idx (bitField word sl.lsb sl.fld.row.width), false) :=
  State.judgeField_taken hp hf (by rw [ha]; exact he) (s.limited_of_mem ha hr (bitField_lt ..) h1 h2)

theorem State.judgeField_rwx_gt {lo hi : Nat} (ha : sl.fld.row.acc = .rwx) (he : s.on (.glb .expert) = true)
    (hr : s.expertRange ((sl.fld, sl.idx), 0) = .u lo hi) (h1 : lo ≤ hi) (h2 : hi < bitField word sl.lsb sl.fld.row.width) :
    ∃ e : Entry, e.origin = 3 ∧ e.cause = 1 ∧ s.judgeField sl word = ((s.report e).accept sl.fld sl.idx hi, false) := by
  obtain ⟨e, ho, hc, hl⟩ := s.limited_of_gt ha hr (bitField_lt ..) h1 h2
  exact ⟨e, ho, hc, State.judgeField_taken hp hf (by rw [ha]; exact he) hl⟩

theorem State.judgeField_w1c_cleared (ha : sl.fld.row.acc = .w1c) (ht : sl.fld ≠ .blk .tempTrip)
    (h1 : bitField word sl.lsb sl.fld.row.width = 1) :
    (s.judgeField sl word).2 = false ∧ (s.judgeField sl word).1.rd sl.fld sl.idx = 0 ∧
      ∀ g i, (g, i) ≠ (sl.fld, sl.idx) → (s.judgeField sl word).1.rd g i = s.rd g i := by
  rw [State.judgeField_w1c hp hf ha ht, if_pos h1]
  refine ⟨rfl, ?_, fun g i hne => ?_⟩
  · rw [State.rd_clearEvent, State.rd_wr_same s hp, Nat.zero_mod]
  · rw [State.rd_clearEvent, State.rd_wr_ne s hne]

end Judge

/-- A refusal changes nothing (R7). -/
theorem State.judgeField_cases (s : State) (sl : Slice) (word : Nat) :
    s.judgeField sl word = (s, true) ∨ (s.judgeField sl word).2 = false := by
  unfold State.judgeField
  dsimp only
  split
  · exact .inr rfl
  · split
    · exact .inr rfl
    · exact .inr rfl
    · split
      · split <;> exact .inr rfl
      · cases hne : bitField word sl.lsb sl.fld.row.width != s.rd sl.fld sl.idx
        · exact .inr rfl
        · exact .inl rfl

/-! ### REGISTER_WRITE (R7, R52, R422, R423) -/

theorem exec_registerWrite {a : Nat} {v : Word} (ha : bar0Offset a = true) (ho : ownRow a v.toNat = false) (s : State) :
    exec (.registerWrite a v) s = .next (registerWrite a v.toNat s) := by
  show guardWF (bar0Offset a && !ownRow a v.toNat) _ = _
  rw [ha, ho]; rfl

theorem registerWrite_block {a : Nat} {b : Block} (hb : blockAt a = some b) (w : Nat) (s : State) :
    registerWrite a w s = s.hostWrite b (stationAt a) fun s => s.writeWord a w := by
  simp [registerWrite, hb]

theorem registerWrite_of_reaches {s : State} {a : Nat} {b : Block} (hb : blockAt a = some b) (hr : s.Reaches b (stationAt a)) (w : Nat) :
    registerWrite a w s = s.writeWord a w := by
  rw [registerWrite_block hb, State.hostWrite_of_reaches hr]

theorem registerWrite_noBlock {a : Nat} (hb : blockAt a = none) (w : Nat) (s : State) :
    registerWrite a w s = if s.barUp && s.ldr.st == .applying then s.deny else s := by
  simp [registerWrite, hb]

@[simp] theorem State.blockUp_deny (s : State) (b : Block) (k : Nat) : s.deny.blockUp b k = s.blockUp b k := by
  unfold State.deny
  obtain ⟨o, p, h⟩ := State.globalIrq_eq (s.ev (.glb .accessDenied)) .irqAccess
  rw [h, State.ev_eq]
  cases b <;> simp [State.blockUp, State.up]

theorem State.hostWrite_of_blockDown {s : State} {b : Block} {k : Nat} (hbar : s.barUp = true) (hb : s.blockUp b k = false)
    (hst : s.ldr.st ≠ .applying) (f : State → State) : s.hostWrite b k f = s.isoAccess := by
  simp [State.hostWrite, hbar, hb, hst]

theorem State.hostWrite_of_applying {s : State} {b : Block} {k : Nat} (hbar : s.barUp = true) (hb : s.blockUp b k = true)
    (hst : s.ldr.st = .applying) (hn : applyingBlock b = false) (f : State → State) : s.hostWrite b k f = s.deny := by
  simp [State.hostWrite, hbar, hb, hst, hn]

/-- A register of one field and no command: the field alone is judged. -/
theorem State.writeWord_single {s : State} {a w : Nat} {sl : Slice} (h1 : a ≠ (Fld.blk .ldReq).addr (stationAt a))
    (h2 : a ≠ (Fld.blk .lstate).addr (stationAt a)) (h3 : ¬(0x600000 ≤ a ∧ a < 0x606000 ∧ a % 0x200 = 0xE0))
    (hs : slicesAt a = [sl]) (hw : sl.fld.row.width ≤ 32) (hb : Slice.boundary s sl = false) :
    s.writeWord a w = if (s.judgeField sl w).2 then s.deny else (s.judgeField sl w).1 := by
  simp only [State.writeWord, h1, h2, h3, if_false, State.judgeWord, hs, List.filter_cons, hw, decide_true, if_true, List.filter_nil,
    List.foldl_cons, List.foldl_nil, Bool.false_or, List.find?_cons, hb, List.find?_nil]
  obtain hj | hj := s.judgeField_cases sl w
  · rw [hj]
  · rw [if_neg (by simp [hj]), if_neg (by simp [hj])]

/-! ### LDR_FUSEDATA and GLB_HBPER -/

theorem slicesAt_fusedata : ∀ i < 8, slicesAt (0x10080 + 4 * i) = [⟨.ldr .fusedata, i, 0⟩] := by decide
theorem writablePair_fusedata : ∀ i < 8, writablePair (0x10080 + 4 * i) = none := by decide

theorem blockAt_ldr {a : Nat} (h1 : 0x10000 ≤ a) (h2 : a < 0x20000) : blockAt a = some .ldr := by
  simp [blockAt, h1.not_gt, h2]

theorem stationAt_low {a : Nat} (h : a < 0x400000) : stationAt a = 0 := by simp [stationAt, h]

theorem ownRow_fusedata {i : Nat} (hi : i < 8) (w : Nat) : ownRow (0x10080 + 4 * i) w = false := by
  have hb : blockAt (0x10080 + 4 * i) = some .ldr := blockAt_ldr (by omega) (by omega)
  have hne (c : Nat) (hc : c < 0x10080) : (0x10080 + 4 * i == c) = false := beq_false_of_ne (by omega)
  simp [ownRow, writablePair_fusedata i hi, hb, hne]

theorem State.judgeField_fusedata (s : State) (i : Nat) (v : Word) :
    s.judgeField ⟨.ldr .fusedata, i, 0⟩ v.toNat = (s.wr (.ldr .fusedata) i v.toNat, false) := by
  rw [State.judgeField_rw rfl rfl rfl]
  show (s.wr (.ldr .fusedata) i (bitField v.toNat 0 32), false) = _
  rw [bitField_word]

theorem exec_registerWrite_fusedata {s : State} (hr : s.Reaches .ldr 0) {i : Nat} (hi : i < 8) (v : Word) :
    exec (.registerWrite (0x10080 + 4 * i) v) s = .next (s.wr (.ldr .fusedata) i v.toNat) := by
  have hst : stationAt (0x10080 + 4 * i) = 0 := stationAt_low (by omega)
  have hb : blockAt (0x10080 + 4 * i) = some .ldr := blockAt_ldr (by omega) (by omega)
  have h1 : 0x10080 + 4 * i ≠ (Fld.blk .ldReq).addr 0 := by show _ ≠ 0x500000; omega
  have h2 : 0x10080 + 4 * i ≠ (Fld.blk .lstate).addr 0 := by show _ ≠ 0x500004; omega
  have h0 : bar0Offset (0x10080 + 4 * i) = true := by
    simp only [bar0Offset, Bool.and_eq_true, beq_iff_eq, decide_eq_true_eq]; omega
  rw [exec_registerWrite h0 (ownRow_fusedata hi _), registerWrite_of_reaches hb (hst ▸ hr),
    State.writeWord_single (hst ▸ h1) (hst ▸ h2) (by omega) (slicesAt_fusedata i hi) (Nat.le_refl 32) rfl,
    State.judgeField_fusedata]
  rfl

theorem slicesAt_hbPeriod : slicesAt 0x18 = [⟨.glb .hbPeriod, 0, 0⟩] := by decide

theorem ownRow_hbPeriod (w : Nat) : ownRow 0x18 w = false := by
  have hp : writablePair 0x18 = none := by decide
  simp [ownRow, hp, blockAt]

theorem exec_registerWrite_hbPeriod {s : State} (hr : s.Reaches .glb 0) (v : Word) :
    exec (.registerWrite 0x18 v) s = .next
      (if (s.judgeField ⟨.glb .hbPeriod, 0, 0⟩ v.toNat).2 then s.deny else (s.judgeField ⟨.glb .hbPeriod, 0, 0⟩ v.toNat).1) := by
  rw [exec_registerWrite rfl (ownRow_hbPeriod _), registerWrite_of_reaches (b := .glb) rfl hr,
    State.writeWord_single (by decide) (by decide) (by omega) slicesAt_hbPeriod (by decide) rfl]

theorem exec_registerWrite_hbPeriod_unarmed {s : State} (hr : s.Reaches .glb 0) (he : s.engineArmed = false) (v : Word) :
    exec (.registerWrite 0x18 v) s = .next (s.wr (.glb .hbPeriod) 0 (bitField v.toNat 0 10)) := by
  rw [exec_registerWrite_hbPeriod hr, State.judgeField_rwl rfl rfl rfl he]; rfl

theorem exec_registerWrite_hbPeriod_armed {s : State} (hr : s.Reaches .glb 0) (he : s.engineArmed = true) (v : Word) :
    exec (.registerWrite 0x18 v) s = .next (if bitField v.toNat 0 10 = s.rd (.glb .hbPeriod) then s else s.deny) := by
  rw [exec_registerWrite_hbPeriod hr, State.judgeField_rwl_armed rfl rfl rfl he]
  by_cases h : bitField v.toNat 0 10 = s.rd (.glb .hbPeriod) <;> simp [h, Fld.row, GlbF.row]

/-- Settles O7: the clauses on one field, on a word at a block that answers, and on what meets no such block, each by its lemma. -/
theorem registerWritesRun : Obligations.RegisterWritesRun := by
  refine ⟨fun s sl word hp hf => ?_, fun s a b v ha ho hb hr => ?_, fun s v => ?_⟩
  · refine ⟨State.judgeField_ro hp hf, fun ha ht hv => ?_, State.judgeField_w1c_cleared hp hf, State.judgeField_rw hp hf,
      State.judgeField_rwl hp hf, State.judgeField_rwl_armed hp hf, State.judgeField_rwx_locked hp hf,
      fun lo hi ha he hr hlo => ⟨State.judgeField_rwx_mem hp hf ha he hr hlo, fun hgt hle => ?_⟩⟩
    · rw [State.judgeField_w1c hp hf ha ht, if_neg hv]
    · exact State.judgeField_rwx_gt hp hf ha he hr hle hgt
  · rw [exec_registerWrite ha ho, registerWrite_of_reaches hb hr]
    exact ⟨rfl, fun sl h1 h2 h3 hs hw hbd => by rw [State.writeWord_single h1 h2 h3 hs hw hbd]⟩
  · refine ⟨fun i hi hr => exec_registerWrite_fusedata hr hi v, fun hr he => exec_registerWrite_hbPeriod_unarmed hr he v,
      fun hr he hne => ?_, fun hr he heq => ?_, fun a ha ho hb => ?_, fun a b ha ho hb hbar hup hst => ?_,
      fun a b ha ho hb hbar hup hst hn => ?_⟩
    · rw [exec_registerWrite_hbPeriod_armed hr he, if_neg hne]
    · rw [exec_registerWrite_hbPeriod_armed hr he, if_pos heq]
    · rw [exec_registerWrite ha ho, registerWrite_noBlock hb]
      exact ⟨fun h => by obtain h | h := h <;> simp [h], fun hst hbar => by simp [hst, hbar]⟩
    · rw [exec_registerWrite ha ho, registerWrite_block hb, State.hostWrite_of_blockDown hbar hup hst]
    · rw [exec_registerWrite ha ho, registerWrite_block hb, State.hostWrite_of_applying hbar hup hst hn]

/-! ### Pairs (O9: R9) -/

theorem pairAt_width {a : Nat} {p : Fld × Nat} (h : pairAt a = some p) : 32 < p.1.row.width := by
  unfold pairAt at h
  obtain ⟨sl, hsl, rfl⟩ := Option.map_eq_some_iff.1 h
  exact of_decide_eq_true (List.find?_some (p := fun sl : Slice => decide (32 < sl.fld.row.width)) hsl)

theorem writablePair_width {a : Nat} {f : Fld} {i : Nat} {up : Bool} (h : writablePair a = some (f, i, up)) :
    32 < f.row.width := by
  unfold writablePair at h
  dsimp only at h
  split at h
  · next p hp =>
    obtain ⟨rfl, rfl, -⟩ : p.1 = f ∧ p.2 = i ∧ false = up := by simpa using h
    exact pairAt_width (Option.filter_eq_some_iff.1 hp).1
  · split at h
    · cases h
    · obtain ⟨p, hp, he⟩ := Option.map_eq_some_iff.1 h
      obtain ⟨rfl, rfl, -⟩ : p.1 = f ∧ p.2 = i ∧ true = up := by simpa using he
      exact pairAt_width (Option.filter_eq_some_iff.1 hp).1

/-- The RW pairs of the register map, read off the field table. -/
theorem Fld.rwPair_cases {f : Fld} (hw : 32 < f.row.width) (ha : f.row.acc = .rw) :
    f = .dma .ring ∨ f = .cmp .inAddr ∨ f = .cmp .outAddr ∨ f = .mot .target ∨ f = .mot .setpos := by
  revert hw ha
  rcases f with f | f | f | f | f | f | f | f | f | f | f | f | f | f | f | f | f | f <;> cases f <;> decide

/-- The RW pairs beside the ring base take the bits written; the ring base reads 0 in its lowest 5 bits. -/
theorem State.accept_rwPair {f : Fld} (hw : 32 < f.row.width) (ha : f.row.acc = .rw) (s : State) (i v : Nat) :
    s.accept f i v = s.wr f i (if f = .dma .ring then v / 32 * 32 else v) := by
  obtain rfl | rfl | rfl | rfl | rfl := Fld.rwPair_cases hw ha <;> rfl

theorem Fld.rwPair_width_le {f : Fld} (hw : 32 < f.row.width) (ha : f.row.acc = .rw) (hr : f ≠ .dma .ring) : f.row.width ≤ 48 := by
  obtain rfl | rfl | rfl | rfl | rfl := Fld.rwPair_cases hw ha
  · exact absurd rfl hr
  all_goals decide

/-- The bits of an upper half beyond the pair's width do not count. -/
theorem upperHalf_mod {w : Nat} (h1 : 32 < w) (h2 : w ≤ 48) (v low : Nat) :
    (2 ^ 32 * (v % 2 ^ (w - 32)) + low) % 2 ^ w = (2 ^ 32 * (v % 65536) + low) % 2 ^ w := by
  have hd : 2 ^ (w - 32) ∣ 65536 := pow_dvd_pow 2 (show w - 32 ≤ 16 by omega)
  have hm : v % 2 ^ (w - 32) ≡ v % 65536 [MOD 2 ^ (w - 32)] := by
    rw [Nat.ModEq, Nat.mod_mod, Nat.mod_mod_of_dvd _ hd]
  have hs : 2 ^ 32 * 2 ^ (w - 32) = 2 ^ w := by rw [← pow_add]; congr 1; omega
  exact hs ▸ (hm.mul_left' (2 ^ 32)).add_right low

/-- The value that an upper write moves into an RW pair. -/
def State.movedPair (s : State) (f : Fld) (i v : Nat) : Nat :=
  let x := 2 ^ 32 * (v % 2 ^ (f.row.width - 32)) + s.heldLow f i
  if f = .dma .ring then x / 32 * 32 else x

theorem State.movedPair_ring (s : State) (i : Nat) (v : Word) :
    s.movedPair (.dma .ring) i v.toNat = (2 ^ 32 * v.toNat + s.heldLow (.dma .ring) i) / 32 * 32 := by
  have hv : v.toNat % 2 ^ ((Fld.dma .ring).row.width - 32) = v.toNat := Nat.mod_eq_of_lt v.isLt
  simp only [State.movedPair, hv, if_true]

theorem State.pairLow_rw {s : State} {f : Fld} {i : Nat} (hp : populated s.hw f i = true) (ha : f.row.acc = .rw) (v : Nat) :
    s.pairLow f i v = { s with hold := Store.set fldCode none (f, i) (some v) s.hold } := by
  simp [State.pairLow, hp, ha, State.permits, s.limited_of_not_rwx (k := ((f, i), 1)) (by simp [ha]) v]

theorem State.pairHigh_rw {s : State} {f : Fld} {i : Nat} (hw : 32 < f.row.width) (hp : populated s.hw f i = true)
    (ha : f.row.acc = .rw) (v : Nat) :
    s.pairHigh f i v = { s.wr f i (s.movedPair f i v) with hold := Store.erase (f, i) s.hold } := by
  simp [State.pairHigh, hp, ha, State.permits, s.limited_of_not_rwx (k := ((f, i), 2)) (by simp [ha]), State.accept_rwPair hw ha,
    State.movedPair]

theorem exec_pairLowWrite {s : State} {a : Nat} {f : Fld} {i : Nat} (h0 : bar0Offset a = true)
    (hw : writablePair a = some (f, i, false)) (hr : s.Reaches f.block (stationAt a)) (v : Word) :
    exec (.pairLowWrite a v) s = .next (s.pairLow f i v.toNat) := by
  simp [exec, execPairLowWrite, h0, hw, State.pairWrite, State.hostWrite_of_reaches hr, guardWF_true]

theorem exec_pairHighWrite {s : State} {a : Nat} {f : Fld} {i : Nat} (h0 : bar0Offset a = true)
    (hw : writablePair a = some (f, i, true)) (hr : s.Reaches f.block (stationAt a)) (v : Word) :
    exec (.pairHighWrite a v) s = .next (s.pairHigh f i v.toNat) := by
  simp [exec, execPairHighWrite, h0, hw, State.pairWrite, State.hostWrite_of_reaches hr, guardWF_true]

/-- A read of a register of a two-register quantity, on an island that answers. -/
theorem exec_pairLowRead {s : State} {a : Nat} {b : Block} (h0 : bar0Offset a = true) (hp : (pairLower a || pairUpper a) = true)
    (hb : blockAt a = some b) (hbar : s.barUp = true) (hup : s.blockUp b (stationAt a) = true) :
    exec (.pairLowRead a) s = .next
      (if pairLower a then
        { s with latch := Store.set id none (a + 4) (some (s.readReg (a + 4))) s.latch }.emit (.readData (s.readReg a))
      else { s with latch := Store.set id none a none s.latch }.emit (.readData (s.latched a))) := by
  show guardWF (bar0Offset a && (pairLower a || pairUpper a)) _ = _
  simp [h0, hp, guardWF_true, pairLowRead, hb, hbar, hup]

/-- Settles O9: a held half, the two halves moved by `pairHigh`, and the latch of `pairLowRead`. -/
theorem pairsMoveInOneStep : Obligations.PairsMoveInOneStep := by
  refine fun s a v => ⟨fun f i h0 hw hr hp ha => ?_, fun f i h0 hw hr hp ha => ?_, fun b h0 hl hb hbar hup => ?_,
    fun b h0 hu hl hb hbar hup => ?_⟩
  · rw [exec_pairLowWrite h0 hw hr, State.pairLow_rw hp ha]
  · have hwd := writablePair_width hw
    rw [exec_pairHighWrite h0 hw hr, State.pairHigh_rw hwd hp ha]
    refine ⟨_, rfl, ?_, fun hne => ?_, fun heq => ?_, fun g j hne => s.rd_wr_ne hne _⟩
    · exact (Store.get_erase ..).trans (if_pos rfl)
    · refine (s.rd_wr_same hp _).trans ?_
      rw [State.movedPair, if_neg hne, upperHalf_mod hwd (Fld.rwPair_width_le hwd ha hne)]
    · subst heq
      exact (s.rd_wr_same hp _).trans (congrArg (· % 2 ^ 64) (s.movedPair_ring i v))
  · rw [exec_pairLowRead h0 (by simp [hl]) hb hbar hup, if_pos hl]
    refine ⟨_, rfl, rfl, ?_, rfl⟩
    rw [State.emit_latch, Store.get_set_same]
  · rw [exec_pairLowRead h0 (by simp [hu]) hb hbar hup, if_neg (by simp [hl])]
    refine ⟨_, rfl, rfl, ?_, rfl⟩
    rw [State.emit_latch, Store.get_set_same]

end Sys2Proof.Machine

/-! PROOFS. The statements on the architecture: the guards, the host's signals and mailboxes, and the aperture on the page store. -/

namespace Sys2Proof.Machine

open Sys2Proof

/-! ### Folds, and changes of register fields alone -/

/-- What no step of a fold changes, the fold does not change. -/
theorem foldl_unchanged {σ α β : Type} {f : σ → α → σ} {g : σ → β} (h : ∀ t x, g (f t x) = g t) (l : List α) (s : σ) :
    g (l.foldl f s) = g s := by
  induction l generalizing s with
  | nil => rfl
  | cons x l ih => exact (ih _).trans (h s x)

/-- `t` is `s` but for its register fields. -/
def State.SameButRegs (s t : State) : Prop := ∃ r, t = { s with regs := r }

theorem State.SameButRegs.refl (s : State) : s.SameButRegs s := ⟨_, rfl⟩

theorem State.SameButRegs.trans {a b c : State} (h : a.SameButRegs b) (g : b.SameButRegs c) : a.SameButRegs c := by
  obtain ⟨r, rfl⟩ := h
  obtain ⟨r', rfl⟩ := g
  exact ⟨r', rfl⟩

theorem State.sameButRegs_wr (s : State) (f : Fld) (i v : Nat) : s.SameButRegs (s.wr f i v) := by
  unfold State.wr
  split
  · exact ⟨_, rfl⟩
  · exact .refl s

theorem State.SameButRegs.foldl {α : Type} {f : State → α → State} (h : ∀ (t : State) x, t.SameButRegs (f t x)) (l : List α)
    (s : State) : s.SameButRegs (l.foldl f s) := by
  induction l generalizing s with
  | nil => exact .refl s
  | cons x l ih => exact (h s x).trans (ih _)

section SameButRegs

variable {s t : State} (h : s.SameButRegs t)

include h

theorem State.SameButRegs.out : t.out = s.out := by obtain ⟨r, rfl⟩ := h; rfl
theorem State.SameButRegs.loam : t.loam = s.loam := by obtain ⟨r, rfl⟩ := h; rfl
theorem State.SameButRegs.etime : t.etime = s.etime := by obtain ⟨r, rfl⟩ := h; rfl
theorem State.SameButRegs.mbx : t.mbx = s.mbx := by obtain ⟨r, rfl⟩ := h; rfl
theorem State.SameButRegs.ctx (c : Nat) : t.ctx c = s.ctx c := by obtain ⟨r, rfl⟩ := h; rfl

end SameButRegs

/-! ### Guards (O55: R14, R18 to R21, R351) -/

theorem State.up_of_mem_inReset {s : State} {d : Dom} (h : d ∈ s.inReset) : s.up d = false := by
  simp [State.up, h]

theorem State.mem_inReset_domainReset (s : State) (d : Dom) (reach : Nat) : d ∈ (s.domainReset d reach).inReset :=
  List.mem_cons_self ..

@[simp] theorem State.inReset_showReset (s : State) : s.showReset.inReset = s.inReset := by simp [State.showReset]

/-- A source of reach 1 takes the domain that it names out of service (R401, R404). -/
theorem State.up_sourceAssert_of_reach_one {s : State} {src : Nat} (h : s.effReach src = 1) :
    (s.sourceAssert src).up (s.namedDom src) = false := by
  refine State.up_of_mem_inReset ?_
  simp only [State.sourceAssert, h, Nat.reduceLeDiff, if_false, if_true, List.foldl_cons, List.foldl_nil, State.inReset_showReset]
  exact State.mem_inReset_domainReset ..

/-- Source 7, the supervisor's, has no option byte: its reach is 1, and it names CTL (R401). -/
theorem State.effReach_supervisor (s : State) : s.effReach 7 = 1 := rfl

theorem handshakeWatchdog_of_deaf {s : State} {i : Island}
    (h : s.inReset.contains (islandDom i) = true ∨ s.isolated.contains i = true) : handshakeWatchdog i s = s :=
  if_pos (Bool.or_eq_true_iff.2 h)

section Silent

variable {s : State} {i : Island} (hr : s.inReset.contains (islandDom i) = false) (hi : s.isolated.contains i = false)

include hr hi

theorem handshakeWatchdog_isolates (hc : i ≠ .ctl) : (handshakeWatchdog i s).isolated = i :: (s.islandLost i).isolated := by
  unfold handshakeWatchdog
  rw [hr, hi]
  cases i with
  | ctl => exact absurd rfl hc
  | _ => rfl

/-- The supervisor resets a silent control island (R351). -/
theorem handshakeWatchdog_resets_ctl (hc : i = .ctl) : (handshakeWatchdog i s).up .ctl = false := by
  subst hc
  unfold handshakeWatchdog
  rw [hr, hi]
  exact State.up_sourceAssert_of_reach_one (State.effReach_supervisor _)

end Silent

theorem exec_handshakeWatchdogExpiry {s : State} {i : Island} (h : islandOk s.hw i = true) :
    exec (.handshakeWatchdogExpiry i) s = .next (handshakeWatchdog i s) := by
  show guardWF (islandOk s.hw i) _ = _
  rw [h, guardWF_true]

theorem State.haltPair_of_up {s : State} (h : s.up .seq = true) (p : CorePair) :
    s.haltPair p = { s with cores := match p with
      | .a => { s.cores with haltedA := true }
      | .b => { s.cores with haltedB := true } } := by
  cases p <;> simp [State.haltPair, h]

theorem exec_pairMismatch (p : CorePair) (s : State) : exec (.pairMismatch p) s = .next (s.haltPair p) := rfl
theorem exec_pairWatchdogExpiry (p : CorePair) (s : State) : exec (.pairWatchdogExpiry p) s = .next (s.haltPair p) := rfl

/-- Settles O55: the watchdog's three cases, and the guards of SEQ, which act while SEQ is up. -/
theorem guardsAct : Obligations.GuardsAct := by
  intro s
  refine ⟨fun i hw hc hr hi => ?_, fun hr hi => ?_, fun i hw h => ?_, fun hseq => ?_⟩
  · exact ⟨_, exec_handshakeWatchdogExpiry hw, by rw [handshakeWatchdog_isolates hr hi hc]; rfl⟩
  · exact ⟨_, exec_handshakeWatchdogExpiry rfl, handshakeWatchdog_resets_ctl hr hi rfl⟩
  · rw [exec_handshakeWatchdogExpiry hw, handshakeWatchdog_of_deaf h]
  · refine ⟨?_, ?_, ?_, ?_, ?_, fun he => ?_, fun he => ?_⟩
    · rw [exec_pairMismatch, State.haltPair_of_up hseq]
    · rw [exec_pairMismatch, State.haltPair_of_up hseq]
    · rw [exec_pairWatchdogExpiry, State.haltPair_of_up hseq]
    · rw [exec_pairWatchdogExpiry, State.haltPair_of_up hseq]
    · simp [exec, execServiceCoreFault, hseq, guardWF_true]
    · simp [exec, execHeartbeatExpiry, hseq, he, guardWF_true]
    · simp [exec, execHeartbeatExpiry, he, guardWF_true]

/-! ### Host writes of GLB and MBX (O10: R21, R429) -/

theorem exec_heartbeatWrite {s : State} (hr : s.Reaches .glb 0) (hseq : s.up .seq = true) (v : Word) :
    exec (.heartbeatWrite v) s = .next { s with cores := { s.cores with heartbeat := false } } := by
  simp [exec, execHeartbeatWrite, State.hostWrite_of_reaches hr, hseq, guardWF_true]

theorem exec_expertKeyWrite {s : State} (hr : s.Reaches .glb 0) (v : Word) :
    exec (.expertKeyWrite v) s = .next (s.wrB (.glb .expert) 0 (v.toNat % 65536 == 0xE4A7)) := by
  simp [exec, execExpertKeyWrite, State.hostWrite_of_reaches hr, guardWF_true]

theorem exec_mbxPost (i : Nat) (s : State) : exec (.mbxPost i) s = .next (mbxPost i s) := rfl

theorem exec_mbxPop {s : State} {p : Nat} (hp : p < 16) (hr : s.Reaches .mbx 0) : exec (.mbxPop p) s = .next (mbxPop p s) := by
  simp [exec, execMbxPop, hp, State.hostWrite_of_reaches hr, guardWF_true]

theorem exec_mbxAnswer {s : State} {p : Nat} (hp : p < 16) (hr : s.Reaches .mbx 0) (v : Word) :
    exec (.mbxAnswer p v) s = .next (mbxAnswer p v s) := by
  simp [exec, execMbxAnswer, hp, State.hostWrite_of_reaches hr, guardWF_true]

theorem State.rd_wrB_same (s : State) {f : Fld} {i : Nat} (h : populated s.hw f i = true) (hw : 0 < f.row.width) (b : Bool) :
    (s.wrB f i b).rd f i = if b then 1 else 0 := by
  rw [State.wrB_eq, State.rd_wr_same s h, Nat.mod_eq_of_lt]
  · rfl
  · exact (show bit b < 2 ^ 1 by cases b <;> decide).trans_le (Nat.pow_le_pow_right Nat.zero_lt_two hw)

/-! ### The mailbox queues (O10: R434, R435) -/

/-- The post that `enqueue` puts at the end of pair `p`. -/
def State.nextPost (s : State) (p kind unit : Nat) (data : List Nat) : Post :=
  { kind := kind, ans := kind == 1 || kind == 2, unit := unit, token := Store.get 0 p s.mbx.tokens, etime := s.etime, data := data }

/-- A post enters its pair's queue, takes a TOKEN and may open a decision; beyond the mailboxes it sends at most a message. -/
theorem State.enqueue_eq (s : State) (p kind unit : Nat) (data : List Nat) :
    ∃ o pc tk ds, s.enqueue p kind unit data = { s with
      out := o, pcie := pc
      mbx := { s.mbx with
        queues := Store.set id [] p (s.posts p ++ [s.nextPost p kind unit data]) s.mbx.queues, tokens := tk, decisions := ds } } := by
  unfold State.enqueue
  extract_lets tok post m m' t
  split
  · obtain ⟨o, pc, h⟩ := t.msix_eq (t.rd (.mbx .vector) p)
    exact ⟨o, pc, _, _, h⟩
  · exact ⟨_, _, _, _, rfl⟩

theorem State.posts_enqueue (s : State) (p kind unit : Nat) (data : List Nat) (q : Nat) :
    (s.enqueue p kind unit data).posts q = if q = p then s.posts p ++ [s.nextPost p kind unit data] else s.posts q := by
  obtain ⟨o, pc, tk, ds, h⟩ := s.enqueue_eq p kind unit data
  rw [h]
  exact Store.get_set ..

@[simp] theorem State.regs_enqueue (s : State) (p kind unit : Nat) (data : List Nat) : (s.enqueue p kind unit data).regs = s.regs := by
  obtain ⟨o, pc, tk, ds, h⟩ := s.enqueue_eq p kind unit data
  rw [h]

@[simp] theorem State.waiting_enqueue (s : State) (p kind unit : Nat) (data : List Nat) :
    (s.enqueue p kind unit data).mbx.waiting = s.mbx.waiting := by
  obtain ⟨o, pc, tk, ds, h⟩ := s.enqueue_eq p kind unit data
  rw [h]

/-- A waiting post that has a route and room enters its pair at the end (R435). -/
theorem mbxPost_of_room {s : State} {p i : Nat} {w : Waiting} (hw : s.mbx.waiting[i]? = some w) (hr : s.routeOf w.kind = some p)
    (hl : (s.posts p).length < 32) :
    mbxPost i s =
      ({ s with mbx := { s.mbx with waiting := s.mbx.waiting.eraseIdx i } } : State).enqueue p w.kind w.unit w.data := by
  simp [mbxPost, hw, hr, hl]

/-- One waiting post under `drainWaiting`: it enters its pair if there is room. -/
def State.drainOne (t : State) (w : Waiting) : State :=
  match t.routeOf w.kind with
  | none => t
  | some p =>
    if (t.posts p).length < 32 then
      ({ t with mbx := { t.mbx with waiting := t.mbx.waiting.erase w } } : State).enqueue p w.kind w.unit w.data
    else t

theorem State.drainWaiting_eq (s : State) : s.drainWaiting = s.mbx.waiting.foldl State.drainOne s := rfl

theorem State.regs_drainOne (t : State) (w : Waiting) : (t.drainOne w).regs = t.regs := by
  unfold State.drainOne
  split
  · rfl
  · split
    · exact State.regs_enqueue ..
    · rfl

/-- A post that waited enters behind the posts of a pair. -/
theorem State.posts_drainOne (t : State) (w : Waiting) (q : Nat) : t.posts q <+: (t.drainOne w).posts q := by
  unfold State.drainOne
  split
  · exact List.prefix_refl _
  · next p _ =>
    split
    · rw [State.posts_enqueue]
      split
      · next h => exact h ▸ List.prefix_append ..
      · exact List.prefix_refl _
    · exact List.prefix_refl _

theorem State.regs_drainWaiting (s : State) : s.drainWaiting.regs = s.regs :=
  foldl_unchanged (g := State.regs) State.regs_drainOne _ s

theorem State.posts_drainWaiting (s : State) (q : Nat) : s.posts q <+: s.drainWaiting.posts q := by
  rw [State.drainWaiting_eq]
  generalize s.mbx.waiting = l
  induction l generalizing s with
  | nil => exact List.prefix_refl _
  | cons w l ih => exact (s.posts_drainOne w q).trans (ih _)

theorem State.drainWaiting_of_nil {s : State} (h : s.mbx.waiting = []) : s.drainWaiting = s := by
  rw [State.drainWaiting_eq, h]; rfl

/-- A pair without its first `m` posts, before waiting posts enter. -/
def State.dropPosts (s : State) (p m : Nat) : State :=
  { s with mbx := { s.mbx with queues := Store.set id [] p ((s.posts p).drop m) s.mbx.queues } }

theorem State.popPosts_eq (s : State) (p m : Nat) : s.popPosts p m = (s.dropPosts p m).drainWaiting := rfl

theorem State.posts_dropPosts (s : State) (p m q : Nat) : (s.dropPosts p m).posts q = if q = p then (s.posts p).drop m else s.posts q :=
  Store.get_set ..

theorem mbxPop_of_taken {s : State} {p : Nat} (h : s.pairTaken p = true) : mbxPop p s = s.wr (.mbx .popRefused) p 1 := if_pos h

theorem mbxPop_of_not_taken {s : State} {p : Nat} (h : s.pairTaken p = false) : mbxPop p s = (s.dropPosts p 1).drainWaiting := by
  rw [mbxPop, h, State.popPosts_eq]; rfl

/-- A pop takes the oldest post; posts that waited may enter behind the others (R435). -/
theorem posts_mbxPop {s : State} {p : Nat} (h : s.pairTaken p = false) :
    ∃ l, (mbxPop p s).posts p = (s.posts p).drop 1 ++ l ∧
      (s.mbx.waiting = [] → l = [] ∧ ∀ q, q ≠ p → (mbxPop p s).posts q = s.posts q) := by
  rw [mbxPop_of_not_taken h]
  obtain ⟨l, hl⟩ := (s.dropPosts p 1).posts_drainWaiting p
  rw [State.posts_dropPosts, if_pos rfl] at hl
  refine ⟨l, hl.symm, fun hw => ?_⟩
  have hd : (s.dropPosts p 1).drainWaiting = s.dropPosts p 1 := State.drainWaiting_of_nil hw
  rw [hd, State.posts_dropPosts, if_pos rfl] at hl
  rw [hd]
  exact ⟨by simpa using hl, fun q hq => by rw [State.posts_dropPosts, if_neg hq]⟩

theorem regs_mbxPop {s : State} {p : Nat} (h : s.pairTaken p = false) : (mbxPop p s).regs = s.regs := by
  rw [mbxPop_of_not_taken h]
  exact State.regs_drainWaiting _

/-! ### Answers (O10: R90, R195, R436) -/

/-- A decision has been answered. -/
def State.eraseDecision (s : State) (d : Decision) : State :=
  { s with mbx := { s.mbx with decisions := s.mbx.decisions.erase d } }

theorem mbxAnswer_of_none {s : State} {p : Nat} {v : Word}
    (h : s.answered p (v.toNat % 65536) (bitField v.toNat 16 8) = none) : mbxAnswer p v s = s.wr (.mbx .ansRefused) p 1 := by
  simp only [mbxAnswer, h]; rfl

theorem mbxAnswer_admission {s : State} {p : Nat} {v : Word} {d : Decision}
    (h : s.answered p (v.toNat % 65536) (bitField v.toNat 16 8) = some d) (hk : d.kind = 1) :
    mbxAnswer p v s = (s.eraseDecision d).admitAnswer d.unit (bitField v.toNat 16 8) := by
  simp only [mbxAnswer, h, hk, if_true]; rfl

theorem mbxAnswer_takeover {s : State} {p : Nat} {v : Word} {d : Decision}
    (h : s.answered p (v.toNat % 65536) (bitField v.toNat 16 8) = some d) (hk : d.kind = 2) :
    mbxAnswer p v s = (s.eraseDecision d).takeoverAnswer d.unit (d.data.headD 0) (bitField v.toNat 16 8) := by
  simp only [mbxAnswer, h, hk]; rfl

/-- An answer on a takeover touches the beam's row alone. -/
theorem State.takeoverAnswer_eq (s : State) (k b code : Nat) : ∃ l, s.takeoverAnswer k b code = { s with lnks := l } := by
  unfold State.takeoverAnswer
  split <;> exact ⟨_, rfl⟩

theorem State.takeoverAnswer_keep (s : State) (k b : Nat) : s.takeoverAnswer k b 1 = s := rfl

theorem State.takeoverAnswer_spoil (s : State) (k b : Nat) : (((s.takeoverAnswer k b 2).lnk k).beam b).spoilPend = true := by
  simp [State.takeoverAnswer, State.setBeam, Lnk.beam, Lnk.setBeam, Store.get_set_same]

/-- The gate does not look at the mailboxes. -/
theorem State.gateRefusal_eraseDecision (s : State) (d : Decision) : (s.eraseDecision d).gateRefusal = s.gateRefusal := rfl

theorem State.gateRefusal_lt (s : State) : s.gateRefusal < 8 := by
  unfold State.gateRefusal
  dsimp only
  repeat' split
  all_goals decide

theorem State.rd_refuse (s : State) {code : Nat} (h : code < 8) : (s.refuse code).rd (.pgs .admRefuse) = code :=
  (s.rd_wr_same rfl code).trans (Nat.mod_eq_of_lt h)

theorem State.admitAnswer_withhold (s : State) (c : Nat) :
    s.admitAnswer c 2 = ({ s with loam := { s.loam with withheld := true } } : State).refuse 4 := rfl

theorem State.admitAnswer_refused {s : State} (h : s.gateRefusal ≠ 0) (c : Nat) : s.admitAnswer c 1 = s.refuse s.gateRefusal := by
  simp [State.admitAnswer, h]

/-- The host's admission of the head stands (R90). -/
def State.withHostOk (s : State) (c : Nat) : State := { s with loam := { s.loam with hostOk := some c } }

theorem State.admitAnswer_admit {s : State} {c : Nat} (hg : s.gateRefusal = 0) (hh : s.head = some c) (hr : s.cslRole = 0) :
    s.admitAnswer c 1 = (s.withHostOk c).admitCtx c := by
  have hr' : (s.withHostOk c).cslRole = 0 := hr
  have hs : (s.withHostOk c).isSlave = false := by rw [State.isSlave, hr']; rfl
  have he : s.admitAnswer c 1 = if (s.withHostOk c).isSlave then s.withHostOk c else (s.withHostOk c).passGate c := by
    unfold State.admitAnswer
    dsimp only
    rw [if_neg (by decide), if_neg (not_not.2 hg), if_pos hh, State.withHostOk]
  rw [he, if_neg (by simp [hs]), State.passGate, if_neg (by simp [hr'])]

/-! ### Admission (O10: R82, R86) -/

theorem State.ctx_toState (s : State) (c : Nat) (st : CtxState) : (s.toState c st).ctx c = { s.ctx c with st := st } := by
  unfold State.toState
  split
  · rw [State.ev_eq, State.ctx_wr, State.ctx_setCtx_same]
  · exact State.ctx_setCtx_same ..

@[simp] theorem State.mbx_toState (s : State) (c : Nat) (st : CtxState) : (s.toState c st).mbx = s.mbx := by
  unfold State.toState
  split
  · rw [State.ev_eq, State.wr_mbx]; rfl
  · rfl

/-- The reservation and the assignment of decompressors are registers. -/
theorem State.sameButRegs_settleGate (s : State) : s.SameButRegs s.settleGate := by
  refine (State.SameButRegs.foldl (fun t k => ?_) _ s).trans (State.sameButRegs_wr ..)
  split
  · exact .refl t
  · exact State.sameButRegs_wr ..

/-- A closed decision is not open. -/
theorem State.decisionPosted_closeDecision (s : State) (kind unit : Nat) :
    (s.closeDecision kind unit).decisionPosted kind unit = false := by
  simp +contextual [State.decisionPosted, State.closeDecision, or_iff_not_imp_left]

theorem State.decisionPosted_of_mbx {s t : State} (h : t.mbx = s.mbx) (kind unit : Nat) :
    t.decisionPosted kind unit = s.decisionPosted kind unit := by
  rw [State.decisionPosted, h]; rfl

/-- An admitted context has left the queue; one without planes is EXPOSED at once. Its decision is closed. -/
theorem State.admitCtx_spec (s : State) (c : Nat) :
    (s.admitCtx c).ctx c = { s.ctx c with
      queued := false, admitTime := s.etime, st := if (s.ctx c).planeList.isEmpty then .exposed else .admitted } ∧
    (s.admitCtx c).decisionPosted 1 c = false := by
  unfold State.admitCtx
  extract_lets x plan assigned admitted queued l passed closed w framed exposed
  have ha : assigned.etime = s.etime := (State.SameButRegs.foldl (fun t e => State.sameButRegs_wr ..) _ s).etime
  have hx : admitted.ctx c = { x with queued := false, admitTime := s.etime, st := .admitted } := by
    rw [State.ctx_toState, State.ctx_setCtx_same, ha]
  have hq : queued.ctx c = admitted.ctx c := foldl_unchanged (g := fun t => t.ctx c) (fun t k => State.ctx_setStn ..) _ admitted
  have hc : closed.ctx c = queued.ctx c := State.ctx_wr passed ..
  have hd : closed.decisionPosted 1 c = false := State.decisionPosted_closeDecision ..
  have hf : framed.ctx c = closed.ctx c ∧ framed.mbx = closed.mbx := by
    unfold framed
    split <;> exact ⟨rfl, rfl⟩
  have he : exposed.ctx c = { framed.ctx c with st := if x.planeList.isEmpty then .exposed else (framed.ctx c).st } ∧
      exposed.mbx = framed.mbx := by
    unfold exposed
    split
    · exact ⟨State.ctx_toState .., State.mbx_toState ..⟩
    · exact ⟨rfl, rfl⟩
  have hs := exposed.sameButRegs_settleGate
  refine ⟨?_, ?_⟩
  · rw [hs.ctx, he.1, hf.1, hc, hq, hx]
  · rw [State.decisionPosted_of_mbx (hs.mbx.trans (he.2.trans hf.2)), hd]

/-- Settles O10: the mailbox rules above, and the three outcomes of an answer on an admission. -/
theorem hostSignals : Obligations.HostSignals := by
  refine ⟨fun s v hr => ⟨fun hseq => exec_heartbeatWrite hr hseq v, _, exec_expertKeyWrite hr v, ?_, fun f i hne => s.rd_wr_ne hne _⟩,
    fun s p hp => ⟨fun i w hw hrt hl => ?_, fun hr ht => ?_, fun hr ht => ?_, fun v hr ha => ?_, fun v d hr ha hk => ?_,
      fun v d hr ha hk => ?_⟩⟩
  · rw [s.rd_wrB_same rfl (by decide)]
    simp only [beq_iff_eq]
  · refine ⟨_, s.nextPost p w.kind w.unit w.data, exec_mbxPost i s, ?_⟩
    rw [mbxPost_of_room hw hrt hl, State.posts_enqueue, if_pos rfl, State.waiting_enqueue, State.regs_enqueue]
    exact ⟨rfl, rfl, rfl, rfl, rfl, rfl, rfl, rfl⟩
  · obtain ⟨l, hl, hw⟩ := posts_mbxPop ht
    exact ⟨_, l, exec_mbxPop hp hr, hl, regs_mbxPop ht, hw⟩
  · rw [exec_mbxPop hp hr, mbxPop_of_taken ht]
  · rw [exec_mbxAnswer hp hr, mbxAnswer_of_none ha]
  · refine ⟨_, exec_mbxAnswer hp hr v, ?_⟩
    rw [mbxAnswer_takeover ha hk]
    obtain ⟨l, hl⟩ := (s.eraseDecision d).takeoverAnswer_eq d.unit (d.data.headD 0) (bitField v.toNat 16 8)
    refine ⟨by rw [hl]; rfl, by rw [hl]; rfl, fun hc => ?_, fun hc => ?_⟩
    · rw [hc, State.takeoverAnswer_keep]; rfl
    · rw [hc, State.takeoverAnswer_spoil]
  · rw [exec_mbxAnswer hp hr, mbxAnswer_admission ha hk]
    refine ⟨fun hc => ⟨_, rfl, ?_⟩, fun hc hg => ⟨_, rfl, ?_⟩, fun hc hg hh hrole => ⟨_, rfl, ?_⟩⟩
    · rw [hc, State.admitAnswer_withhold]
      exact ⟨congrArg Mbx.decisions (State.wr_mbx ..), State.wr_loam .., State.rd_refuse _ (by decide)⟩
    · rw [hc, State.admitAnswer_refused (s.gateRefusal_eraseDecision d ▸ hg), s.gateRefusal_eraseDecision]
      exact ⟨congrArg Mbx.decisions (State.wr_mbx ..), State.wr_loam .., State.rd_refuse _ s.gateRefusal_lt⟩
    · rw [hc, State.admitAnswer_admit (s := s.eraseDecision d) hg hh hrole]
      obtain ⟨hx, hd⟩ := ((s.eraseDecision d).withHostOk d.unit).admitCtx_spec d.unit
      exact ⟨by rw [hx], by rw [hx]; rfl, hd⟩

/-! ### Stored bytes (O19: R69) -/

theorem Store.get_of_not_mem {κ ν : Type} [DecidableEq κ] (d : ν) {k : κ} {t : Store κ ν} (h : ∀ e ∈ t, e.1 ≠ k) :
    Store.get d k t = d := by
  induction t with
  | nil => rfl
  | cons e t ih =>
    rw [Store.get, if_neg (h e (List.mem_cons_self ..)), ih fun x hx => h x (List.mem_cons_of_mem _ hx)]

theorem Store.get_append_left {κ ν : Type} [DecidableEq κ] (d : ν) {k : κ} (t : Store κ ν) {u : Store κ ν}
    (h : ∀ e ∈ u, e.1 ≠ k) :
    Store.get d k (t ++ u) = Store.get d k t := by
  induction t with
  | nil => exact Store.get_of_not_mem d h
  | cons e t ih => rw [List.cons_append, Store.get, Store.get, ih]

theorem Store.get_append_right {κ ν : Type} [DecidableEq κ] (d : ν) {k : κ} {t : Store κ ν} (u : Store κ ν)
    (h : ∀ e ∈ t, e.1 ≠ k) :
    Store.get d k (t ++ u) = Store.get d k u := by
  induction t with
  | nil => rfl
  | cons e t ih =>
    rw [List.cons_append, Store.get, if_neg (h e (List.mem_cons_self ..)), ih fun x hx => h x (List.mem_cons_of_mem _ hx)]

/-- A table cut down to the keys of `p` reads as before at these. -/
theorem Store.get_filter {κ ν : Type} [DecidableEq κ] (d : ν) {k : κ} {p : κ → Bool} (hk : p k = true) (t : Store κ ν) :
    Store.get d k (t.filter fun e => p e.1) = Store.get d k t := by
  induction t with
  | nil => rfl
  | cons e t ih =>
    rw [List.filter_cons, Store.get]
    by_cases he : e.1 = k
    · rw [if_pos (he ▸ hk), Store.get, if_pos he, if_pos he]
    · rw [if_neg he]
      split
      · rw [Store.get, if_neg he, ih]
      · exact ih

/-- The cells that `Memory.write` puts in: the bytes other than 0, from `a + n` on. -/
def writtenCells (a : Nat) (l : List Byte) (n : Nat) : List Host.Cell :=
  (l.zipIdx n).filterMap fun x => if x.1 = 0 then none else some (a + x.2, x.1)

theorem mem_writtenCells {a n : Nat} {l : List Byte} {c : Host.Cell} (h : c ∈ writtenCells a l n) :
    a + n ≤ c.1 ∧ c.1 < a + n + l.length :=
  ((zipIdx_filter_rising a l n).2 c h).2

theorem byte_writtenCells (a n i : Nat) (l : List Byte) : Memory.byte (writtenCells a l n) (a + n + i) = l.getD i 0 := by
  induction l generalizing n i with
  | nil => rfl
  | cons b l ih =>
    have hskip : writtenCells a (b :: l) n = if b = 0 then writtenCells a l (n + 1) else (a + n, b) :: writtenCells a l (n + 1) := by
      rw [writtenCells, List.zipIdx_cons, List.filterMap_cons]
      by_cases hb : b = 0 <;> simp only [hb, if_true, if_false, writtenCells]
    have hout : Memory.byte (writtenCells a l (n + 1)) (a + n) = 0 :=
      Store.get_of_not_mem 0 fun c hc he => by have := (mem_writtenCells hc).1; omega
    have hrest (j : Nat) : Memory.byte (writtenCells a l (n + 1)) (a + n + (j + 1)) = l.getD j 0 := by
      rw [← ih]; congr 1; omega
    rw [hskip]
    split
    · next hb =>
      cases i with
      | zero => simpa [hb] using hout
      | succ j => simpa using hrest j
    · cases i with
      | zero => simp [Memory.byte, Store.get]
      | succ j =>
        rw [Memory.byte, Store.get, if_neg (by omega), List.getD_cons_succ]
        exact hrest j

/-- A write stores its bytes and leaves every other byte. -/
theorem Memory.byte_write (m : List Host.Cell) (a : Nat) (l : List Byte) (x : Nat) :
    Memory.byte (Memory.write m a l) x = if a ≤ x ∧ x < a + l.length then l.getD (x - a) 0 else Memory.byte m x := by
  have hw : Memory.write m a l =
      m.filter (fun c => decide (c.1 < a)) ++ writtenCells a l 0 ++ m.filter (fun c => decide (a + l.length ≤ c.1)) := rfl
  have hlow {c : Host.Cell} (h : c ∈ m.filter fun c => decide (c.1 < a)) : c.1 < a := of_decide_eq_true (List.mem_filter.1 h).2
  have hhigh {c : Host.Cell} (h : c ∈ m.filter fun c => decide (a + l.length ≤ c.1)) : a + l.length ≤ c.1 :=
    of_decide_eq_true (List.mem_filter.1 h).2
  rw [hw]
  obtain h | h | h : x < a ∨ (a ≤ x ∧ x < a + l.length) ∨ a + l.length ≤ x := by omega
  · rw [if_neg (by omega), Memory.byte, Store.get_append_left, Store.get_append_left]
    · exact Store.get_filter (p := fun k => decide (k < a)) 0 (decide_eq_true h) m
    · exact fun c hc => by have := mem_writtenCells hc; omega
    · exact fun c hc => by have := hhigh hc; omega
  · rw [if_pos h, Memory.byte, Store.get_append_left, Store.get_append_right]
    · have := byte_writtenCells a 0 (x - a) l
      rwa [show a + 0 + (x - a) = x by omega] at this
    · exact fun c hc => by have := hlow hc; omega
    · exact fun c hc => by have := hhigh hc; omega
  · rw [if_neg (by omega), Memory.byte, Store.get_append_right]
    · exact Store.get_filter (p := fun k => decide (a + l.length ≤ k)) 0 (decide_eq_true h) m
    · intro c hc
      obtain hc | hc := List.mem_append.1 hc
      · have := hlow hc; omega
      · have := mem_writtenCells hc; omega

/-! ### Bursts (O19: R70) -/

theorem mem_splitBursts {fuel a : Nat} {l : List Byte} {b : Nat × List Byte} (h : b ∈ splitBursts fuel a l) :
    a ≤ b.1 ∧ b.1 < a + l.length := by
  induction fuel generalizing a l with
  | zero => cases h
  | succ fuel ih =>
    rw [splitBursts] at h
    split at h
    · cases h
    · next hl =>
      have : 0 < l.length := List.length_pos_iff.2 (by simpa using hl)
      obtain rfl | h := List.mem_cons.1 h
      · exact ⟨Nat.le_refl _, by show a < _; omega⟩
      · have := ih h
        rw [List.length_drop] at this
        omega

theorem State.sameButRegs_count (s : State) (f : Fld) (i : Nat) : s.SameButRegs (s.count f i) := State.sameButRegs_wr ..

theorem State.sameButRegs_ueHit (s : State) (b : Nat) : s.SameButRegs (s.ueHit b) := by
  rw [State.ueHit, State.ev_eq, State.count_eq]
  exact ((s.sameButRegs_wr ..).trans (State.sameButRegs_wr ..)).trans (State.sameButRegs_wr ..)

/-- A write inside a burst stores its bytes; it can change the stored errors and the registers, but nothing else. -/
theorem State.writeBurst_eq (s : State) (a : Nat) (l : List Byte) :
    ∃ e r, s.writeBurst a l = { s with
      loam := { s.loam with bytes := Memory.write s.loam.bytes a l, ecc := e }, regs := r } := by
  unfold State.writeBurst
  extract_lets b t
  split
  · exact ⟨_, _, rfl⟩
  · split
    · exact ⟨_, _, rfl⟩
    · obtain ⟨r, h⟩ := t.sameButRegs_count (.pgs .eccCe) 0
      rw [h]
      exact ⟨_, r, rfl⟩
    · obtain ⟨r, h⟩ := t.sameButRegs_ueHit b
      exact ⟨_, r, h⟩

theorem State.byte_writeBurst (s : State) (a : Nat) (l : List Byte) (x : Nat) :
    (s.writeBurst a l).byte x = if a ≤ x ∧ x < a + l.length then l.getD (x - a) 0 else s.byte x := by
  obtain ⟨e, r, h⟩ := s.writeBurst_eq a l
  rw [h]
  exact Memory.byte_write ..

theorem State.touchesBand_congr {s t : State} (h : t.loam.bands = s.loam.bands) (a n : Nat) : t.touchesBand a n = s.touchesBand a n := by
  rw [State.touchesBand, State.heldExtents, h]; rfl

@[simp] theorem State.touchesBand_writeBurst (s : State) (a : Nat) (l : List Byte) (x n : Nat) :
    (s.writeBurst a l).touchesBand x n = s.touchesBand x n := by
  obtain ⟨e, r, h⟩ := s.writeBurst_eq a l
  exact State.touchesBand_congr (by rw [h]) x n

/-- No part of a region that touches no band touches one. -/
theorem State.touchesBand_part {s : State} {a n x m : Nat} (h : s.touchesBand a n = false) (h1 : a ≤ x) (h2 : x + m ≤ a + n) :
    s.touchesBand x m = false := by
  simp only [State.touchesBand, List.any_eq_false, Bool.and_eq_true, decide_eq_true_eq] at h ⊢
  exact fun e he hx => h e he (by omega)

/-- The bursts of a write, with enough fuel, store its bytes and no other ones. -/
theorem State.byte_writeBursts (fuel a : Nat) (l : List Byte) (hf : l.length + a % 64 ≤ 64 * fuel) (s : State) (x : Nat) :
    ((splitBursts fuel a l).foldl (fun t b => t.writeBurst b.1 b.2) s).byte x =
      if a ≤ x ∧ x < a + l.length then l.getD (x - a) 0 else s.byte x := by
  induction fuel generalizing a l s with
  | zero =>
    have : l.length = 0 := by omega
    rw [if_neg (by omega)]; rfl
  | succ fuel ih =>
    rw [splitBursts]
    split
    · next hl =>
      have : l.length = 0 := by simpa using hl
      rw [if_neg (by omega)]; rfl
    · have hd : (l.drop (64 - a % 64)).length = l.length - (64 - a % 64) := List.length_drop
      have ht : (l.take (64 - a % 64)).length = min (64 - a % 64) l.length := List.length_take
      rw [List.foldl_cons, ih _ _ (by omega), State.byte_writeBurst, hd, ht]
      obtain h | h | h : ¬(a ≤ x ∧ x < a + l.length) ∨ (a ≤ x ∧ x < a + l.length ∧ x < a + (64 - a % 64)) ∨
        (x < a + l.length ∧ a + (64 - a % 64) ≤ x) := by omega
      · rw [if_neg (by omega), if_neg (by omega), if_neg h]
      · rw [if_neg (by omega), if_pos (by omega), if_pos (by omega)]
        simp [List.getD_eq_getElem?_getD, show x - a < 64 - a % 64 by omega]
      · rw [if_pos (by omega), if_pos (by omega)]
        simp only [List.getD_eq_getElem?_getD, List.getElem?_drop]
        congr 2; omega

theorem State.byte_writeLoam (s : State) (a : Nat) (l : List Byte) (x : Nat) :
    (s.writeLoam a l).byte x = if a ≤ x ∧ x < a + l.length then l.getD (x - a) 0 else s.byte x :=
  State.byte_writeBursts _ a l (by omega) s x

/-! ### Writes through the aperture (O19: R96) -/

/-- New errors change the error marks alone. -/
theorem State.upset_eq (s : State) (ups : List Upset) : ∃ e, s.upset ups = { s with loam := { s.loam with ecc := e } } := by
  unfold State.upset
  induction ups generalizing s with
  | nil => exact ⟨_, rfl⟩
  | cons u ups ih =>
    rw [List.foldl_cons]
    split
    · obtain ⟨e, h⟩ := ih (s.setEcc u.burst .single)
      exact ⟨e, h⟩
    · obtain ⟨e, h⟩ := ih (s.setEcc u.burst .bad)
      exact ⟨e, h⟩

/-- One burst of a write through the aperture, on a module with `usable` bytes of usable space. -/
def State.apertureBurst (usable : Nat) (t : State) (b : Nat × List Byte) : State :=
  if usable ≤ b.1 then t.ev (.pgs .apRange)
  else if t.touchesBand b.1 1 then t.ev (.pgs .apDenied)
  else t.writeBurst b.1 b.2

/-- The usable address of offset `x` of the aperture. -/
def State.apAddr (s : State) (x : Nat) : Nat := 65536 * s.rd (.pgs .apbase) + x

theorem bar2Write_open {s : State} (hbar : s.barUp = true) (hst : s.ldr.st ≠ .applying) (hmem : s.up .mem = true) (x : Nat)
    (data : List Byte) (ups : List Upset) :
    bar2Write x data ups s = (burstsOf (s.apAddr x) data).foldl (State.apertureBurst s.hw.usable) (s.upset ups) := by
  unfold bar2Write
  rw [if_neg (by simp [hbar]), if_neg hst, if_neg (by simp [hmem]), State.apAddr]
  obtain ⟨e, he⟩ := s.upset_eq ups
  have hw : (s.upset ups).hw = s.hw := by rw [he]
  rw [← hw]
  rfl

theorem bar2Write_applying {s : State} (hbar : s.barUp = true) (hst : s.ldr.st = .applying) (x : Nat) (data : List Byte)
    (ups : List Upset) : bar2Write x data ups s = s.deny := by
  simp [bar2Write, hbar, hst]

/-- A write that meets no BAR, or no page store, is dropped (R13, log 12). -/
theorem bar2Write_dropped {s : State} (h : s.barUp = false ∨ s.ldr.st ≠ .applying ∧ s.up .mem = false) (x : Nat) (data : List Byte)
    (ups : List Upset) : bar2Write x data ups s = s := by
  obtain h | ⟨hst, hmem⟩ := h
  · simp [bar2Write, h]
  · simp [bar2Write, hst, hmem]

/-- Bursts in usable space that no band holds are written. -/
theorem State.apertureBursts_of_free {usable : Nat} (bs : List (Nat × List Byte)) (s : State)
    (h : ∀ b ∈ bs, b.1 < usable ∧ s.touchesBand b.1 1 = false) :
    bs.foldl (State.apertureBurst usable) s = bs.foldl (fun t b => t.writeBurst b.1 b.2) s := by
  induction bs generalizing s with
  | nil => rfl
  | cons b bs ih =>
    obtain ⟨hu, hb⟩ := h b (List.mem_cons_self ..)
    have hstep : s.apertureBurst usable b = s.writeBurst b.1 b.2 := by
      rw [State.apertureBurst, if_neg (Nat.not_le.2 hu), if_neg (by simp [hb])]
    rw [List.foldl_cons, List.foldl_cons, hstep]
    refine ih _ fun b' hb' => ?_
    rw [State.touchesBand_writeBurst]
    exact h b' (List.mem_cons_of_mem _ hb')

/-- Bursts behind the usable space set AP_RANGE and leave the page store. -/
theorem State.apertureBursts_of_behind {usable : Nat} (bs : List (Nat × List Byte)) (s : State) (h : ∀ b ∈ bs, usable ≤ b.1) :
    (bs.foldl (State.apertureBurst usable) s).loam = s.loam ∧
      (bs ≠ [] ∨ s.rd (.pgs .apRange) = 1 → (bs.foldl (State.apertureBurst usable) s).rd (.pgs .apRange) = 1) := by
  induction bs generalizing s with
  | nil => exact ⟨rfl, fun h => h.resolve_left fun hne => hne rfl⟩
  | cons b bs ih =>
    have hstep : s.apertureBurst usable b = s.wr (.pgs .apRange) 0 1 := if_pos (h b (List.mem_cons_self ..))
    rw [List.foldl_cons, hstep]
    obtain ⟨hl, hr⟩ := ih (s.wr (.pgs .apRange) 0 1) fun b' hb' => h b' (List.mem_cons_of_mem _ hb')
    exact ⟨hl.trans (State.wr_loam ..), fun _ => hr (.inr (s.rd_wr_same rfl 1))⟩

theorem burstsOf_ne_nil {a : Nat} {l : List Byte} (h : 1 ≤ l.length) : burstsOf a l ≠ [] := by
  rw [burstsOf, splitBursts, if_neg (by simpa using List.length_pos_iff.1 h)]
  exact fun h => nomatch h

theorem burstsOf_singleton (a : Nat) (b : Byte) : burstsOf a [b] = [(a, [b])] := by
  have h : ∃ n, 64 - a % 64 = n + 1 := ⟨63 - a % 64, by omega⟩
  obtain ⟨n, hn⟩ := h
  simp [burstsOf, splitBursts, hn]

section Open

variable {s : State} (hbar : s.barUp = true) (hst : s.ldr.st ≠ .applying) (hmem : s.up .mem = true) (x : Nat) (data : List Byte)
  (ups : List Upset)

include hbar hst hmem

/-- A write to free usable space stores its bytes and no other ones. -/
theorem byte_bar2Write (hu : s.apAddr x + data.length ≤ s.hw.usable) (hb : s.touchesBand (s.apAddr x) data.length = false) (a : Nat) :
    (bar2Write x data ups s).byte a =
      if s.apAddr x ≤ a ∧ a < s.apAddr x + data.length then data.getD (a - s.apAddr x) 0 else s.byte a := by
  obtain ⟨e, he⟩ := s.upset_eq ups
  rw [bar2Write_open hbar hst hmem, he, State.apertureBursts_of_free]
  · exact State.byte_writeLoam _ (s.apAddr x) data a
  · intro b hm
    have := mem_splitBursts hm
    exact ⟨by omega, State.touchesBand_part (s := s) hb (by omega) (by omega)⟩

theorem bar2Write_behind (hd : 1 ≤ data.length) (hu : s.hw.usable ≤ s.apAddr x) :
    (bar2Write x data ups s).rd (.pgs .apRange) = 1 ∧ (bar2Write x data ups s).loam.bytes = s.loam.bytes := by
  obtain ⟨e, he⟩ := s.upset_eq ups
  rw [bar2Write_open hbar hst hmem, he]
  obtain ⟨hl, hr⟩ := State.apertureBursts_of_behind (burstsOf (s.apAddr x) data) { s with loam := { s.loam with ecc := e } }
    fun b hm => hu.trans (mem_splitBursts hm).1
  exact ⟨hr (.inl (burstsOf_ne_nil hd)), by rw [hl]⟩

theorem bar2Write_held {b : Byte} (hu : s.apAddr x < s.hw.usable) (hb : s.touchesBand (s.apAddr x) 1 = true) :
    bar2Write x [b] ups s = (s.upset ups).wr (.pgs .apDenied) 0 1 := by
  obtain ⟨e, he⟩ := s.upset_eq ups
  have hb' : (s.upset ups).touchesBand (s.apAddr x) 1 = true := by rw [he]; exact hb
  rw [bar2Write_open hbar hst hmem, burstsOf_singleton, List.foldl_cons, List.foldl_nil, State.apertureBurst,
    if_neg (Nat.not_le.2 hu), if_pos hb']
  rfl

end Open

theorem exec_bar2Write {s : State} {x : Nat} {data : List Byte} {ups : List Upset} (h1 : 1 ≤ data.length)
    (h2 : x + data.length ≤ 4294967296) (hu : s.hw.upsOk ups = true) :
    exec (.bar2Write x data ups) s = .next (bar2Write x data ups s) := by
  show guardWF (decide (1 ≤ data.length) && decide (x + data.length ≤ 4294967296) && s.hw.upsOk ups) _ = _
  rw [decide_eq_true h1, decide_eq_true h2, hu]; rfl

/-! ### Reads through the aperture (O19: R13, R70, R96) -/

/-- One burst of a read: an error in it is counted, and an uncorrectable one is signalled. -/
def eccRead (r : Bool × State) (b : Nat) : Bool × State :=
  match r.2.ecc b with
  | .none => r
  | .single => (r.1, r.2.count (.pgs .eccCe))
  | .bad => (true, r.2.ueHit b)

theorem State.readEcc_eq (s : State) (a n : Nat) : s.readEcc a n = (s.hitBursts a n).foldl eccRead (false, s) := rfl

theorem sameButRegs_eccRead (r : Bool × State) (b : Nat) : r.2.SameButRegs (eccRead r b).2 := by
  unfold eccRead
  split
  · exact .refl _
  · exact r.2.sameButRegs_count (.pgs .eccCe) 0
  · exact r.2.sameButRegs_ueHit b

theorem sameButRegs_eccReads (bs : List Nat) (r : Bool × State) : r.2.SameButRegs (bs.foldl eccRead r).2 := by
  induction bs generalizing r with
  | nil => exact .refl _
  | cons b bs ih => exact (sameButRegs_eccRead r b).trans (ih _)

theorem State.sameButRegs_readEcc (s : State) (a n : Nat) : s.SameButRegs (s.readEcc a n).2 := sameButRegs_eccReads ..

/-- A read has met an uncorrectable burst: its completion is poisoned, and UE_EVENT is set. -/
def Signalled (r : Bool × State) : Prop := r.1 = true ∧ r.2.rd (.pgs .ueEvent) = 1

theorem State.rd_ueHit (s : State) (b : Nat) : (s.ueHit b).rd (.pgs .ueEvent) = 1 := by
  rw [State.ueHit, State.ev_eq]
  exact State.rd_wr_same _ rfl 1

theorem signalled_eccRead_bad {r : Bool × State} {b : Nat} (h : r.2.ecc b = .bad) : Signalled (eccRead r b) := by
  simp only [eccRead, h]
  exact ⟨rfl, State.rd_ueHit ..⟩

theorem Signalled.eccRead {r : Bool × State} (h : Signalled r) (b : Nat) : Signalled (eccRead r b) := by
  unfold Machine.eccRead
  split
  · exact h
  · exact ⟨h.1, (State.rd_wr_ne _ (by decide) _).trans h.2⟩
  · exact ⟨rfl, State.rd_ueHit ..⟩

theorem signalled_eccReads {bs : List Nat} {r : Bool × State} {b : Nat} (h : (b ∈ bs ∧ r.2.ecc b = .bad) ∨ Signalled r) :
    Signalled (bs.foldl eccRead r) := by
  induction bs generalizing r with
  | nil => exact h.resolve_left fun h => nomatch h.1
  | cons c bs ih =>
    refine ih ?_
    obtain ⟨hm, hb⟩ | hs := h
    · obtain rfl | hm := List.mem_cons.1 hm
      · exact .inr (signalled_eccRead_bad hb)
      · exact .inl ⟨hm, by rw [State.ecc, (sameButRegs_eccRead r c).loam]; exact hb⟩
    · exact .inr (hs.eccRead c)

theorem State.mem_hitBursts {s : State} {a n : Nat} {e : Nat × EccMark} (he : e ∈ s.loam.ecc) (h1 : 64 * e.1 < a + n)
    (h2 : a < 64 * e.1 + 64) : e.1 ∈ s.hitBursts a n :=
  List.mem_map_of_mem (List.mem_filter.2 ⟨he, by simp [h1, h2]⟩)

theorem State.readEcc_of_no_marks {s : State} (h : s.loam.ecc = []) (a n : Nat) : s.readEcc a n = (false, s) := by
  rw [State.readEcc_eq, State.hitBursts, h]; rfl

/-- How many bytes of a read of `n` from aperture offset `x` lie in usable space. -/
def State.apLen (s : State) (x n : Nat) : Nat := min n (s.hw.usable - s.apAddr x)

/-- The state after the bursts of a read, with AP_RANGE where it goes behind the usable space. -/
def State.afterRead (s : State) (x n : Nat) (ups : List Upset) : State :=
  let t := ((s.upset ups).readEcc (s.apAddr x) (s.apLen x n)).2
  if s.apLen x n < n then t.wr (.pgs .apRange) 0 1 else t

theorem bar2Read_open {s : State} (hbar : s.barUp = true) (hmem : s.up .mem = true) (x n : Nat) (ups : List Upset) :
    bar2Read x n ups s = (s.afterRead x n ups).emit (.bar2Data
      ((s.afterRead x n ups).bytes (s.apAddr x) (s.apLen x n) ++ List.replicate (n - s.apLen x n) 0)
      ((s.upset ups).readEcc (s.apAddr x) (s.apLen x n)).1) := by
  unfold bar2Read
  rw [if_neg (by simp [hbar]), if_neg (by simp [hmem])]
  rfl

theorem bar2Read_mute {s : State} (hbar : s.barUp = true) (hmem : s.up .mem = false) (x n : Nat) (ups : List Upset) :
    bar2Read x n ups s = s.emit (.bar2Data (List.replicate n 0) true) := by
  simp [bar2Read, hbar, hmem]

theorem bar2Read_down {s : State} (hbar : s.barUp = false) (x n : Nat) (ups : List Upset) : bar2Read x n ups s = s := by
  simp [bar2Read, hbar]

/-- A read changes neither the stored bytes nor what has been put out before. -/
theorem State.afterRead_frame (s : State) (x n : Nat) (ups : List Upset) :
    (s.afterRead x n ups).loam.bytes = s.loam.bytes ∧ (s.afterRead x n ups).out = s.out := by
  obtain ⟨e, he⟩ := s.upset_eq ups
  have hr : (s.upset ups).SameButRegs (s.afterRead x n ups) := by
    refine ((s.upset ups).sameButRegs_readEcc (s.apAddr x) (s.apLen x n)).trans ?_
    unfold State.afterRead
    split
    · exact State.sameButRegs_wr ..
    · exact .refl _
  rw [hr.loam, hr.out, he]
  exact ⟨rfl, rfl⟩

theorem State.rd_afterRead_apRange {s : State} {x n : Nat} (h : s.apLen x n < n) (ups : List Upset) :
    (s.afterRead x n ups).rd (.pgs .apRange) = 1 := by
  rw [State.afterRead, if_pos h]
  exact State.rd_wr_same _ rfl 1

theorem State.rd_afterRead_ueEvent (s : State) (x n : Nat) (ups : List Upset) :
    (s.afterRead x n ups).rd (.pgs .ueEvent) = ((s.upset ups).readEcc (s.apAddr x) (s.apLen x n)).2.rd (.pgs .ueEvent) := by
  unfold State.afterRead
  split
  · exact State.rd_wr_ne _ (by decide) _
  · rfl

theorem exec_bar2Read {s : State} {x n : Nat} {ups : List Upset} (h1 : 1 ≤ n) (h2 : x + n ≤ 4294967296) (hu : s.hw.upsOk ups = true) :
    exec (.bar2Read x n ups) s = .next (bar2Read x n ups s) := by
  show guardWF (decide (1 ≤ n) && decide (x + n ≤ 4294967296) && s.hw.upsOk ups) _ = _
  rw [decide_eq_true h1, decide_eq_true h2, hu]; rfl

/-- Settles O19: a write by its bursts, and a read by the errors that it meets. -/
theorem apertureAccessesRun : Obligations.ApertureAccessesRun := by
  refine ⟨fun s x data ups _ hu hbar hst hmem h1 h2 hus hb => ?_, fun s x data ups hu h1 h2 => ?_, fun s x n ups hu h1 h2 => ?_⟩
  · refine ⟨_, exec_bar2Write h1 h2 hu, fun a ha hl => ?_, fun a ha => ?_⟩
    · exact (byte_bar2Write hbar hst hmem x data ups hus hb a).trans (if_pos ⟨ha, hl⟩)
    · exact (byte_bar2Write hbar hst hmem x data ups hus hb a).trans
        (if_neg fun ⟨h3, h4⟩ => ha.elim h3.not_gt h4.not_ge)
  · rw [exec_bar2Write h1 h2 hu]
    refine ⟨fun hbar hst hmem hus => ⟨_, rfl, bar2Write_behind hbar hst hmem x data ups h1 hus⟩,
      fun b hd hbar hst hmem hus hb => ?_, fun hbar hst => ?_, fun h => ?_⟩
    · subst hd
      rw [bar2Write_held hbar hst hmem x ups hus hb]
    · rw [bar2Write_applying hbar hst]
    · rw [bar2Write_dropped h]
  · rw [exec_bar2Read h1 h2 hu]
    refine ⟨fun hbar hmem => ?_, fun e he hups hbar hmem _ h3 h4 hbad hus => ?_, fun hbar hmem => ?_, fun hbar => ?_⟩
    · obtain ⟨hbytes, hout⟩ := s.afterRead_frame x n ups
      refine ⟨_, ((s.upset ups).readEcc (s.apAddr x) (s.apLen x n)).1, rfl, ?_⟩
      rw [bar2Read_open hbar hmem, State.emit_out, hout, State.bytes, hbytes]
      refine ⟨rfl, hbytes, fun hus => State.rd_afterRead_apRange ?_ ups, fun hups hecc => ?_⟩
      · show min n (s.hw.usable - (65536 * s.rd (.pgs .apbase) + x)) < n
        omega
      · subst hups
        exact congrArg Prod.fst (State.readEcc_of_no_marks hecc ..)
    · subst hups
      have hn : s.apLen x n = n := by
        show min n (s.hw.usable - (65536 * s.rd (.pgs .apbase) + x)) = n
        omega
      have hs : Signalled (s.readEcc (s.apAddr x) (s.apLen x n)) :=
        signalled_eccReads (.inl ⟨State.mem_hitBursts he (hn.symm ▸ h3) h4, hbad⟩)
      rw [bar2Read_open hbar hmem]
      refine ⟨_, (s.afterRead x n []).bytes (s.apAddr x) (s.apLen x n) ++ List.replicate (n - s.apLen x n) 0, rfl, ?_⟩
      rw [State.emit_out, (s.afterRead_frame x n []).2, State.rd_emit, State.rd_afterRead_ueEvent]
      exact ⟨congrArg (fun p => Out.bar2Data _ p :: s.out) hs.1, hs.2⟩
    · rw [bar2Read_mute hbar hmem]
    · rw [bar2Read_down hbar]

end Sys2Proof.Machine

/-! PROOFS. The statements on the Torvul image: what no command takes back, commits, arming and the fuses. -/

namespace Sys2Proof.Machine

open Sys2Proof

/-! ### What no command takes back (O4: R68) -/

/-- Every fuse command only raises the security counter. -/
theorem Fuses.seccount_le_burn (f : Fuses) (j : FuseCmd) : f.seccount ≤ (f.burn j).seccount := by
  cases j with
  | advance n => exact Nat.le_max_left ..
  | _ => exact Nat.le_refl _

/-- No fuse command unlocks the test port. -/
theorem Fuses.testLocked_burn {f : Fuses} (h : f.testLocked = true) (j : FuseCmd) : (f.burn j).testLocked = true := by
  cases j with
  | lockTest => rfl
  | _ => exact h

/-- FUSE_COMMAND_DONE leaves the fuses, or burns the command that runs. -/
theorem fuses_fuseCommandDone (s : State) (ok : Bool) :
    (fuseCommandDone ok s).fuses = s.fuses ∨ ∃ j, (fuseCommandDone ok s).fuses = s.fuses.burn j := by
  unfold fuseCommandDone
  split
  · exact .inl rfl
  · next j _ =>
    cases ok with
    | false => exact .inl ((State.wr_fuses _ (.ldr .fuseErr) 0 1).trans (State.wr_fuses s (.ldr .fuseBusy) 0 0))
    | true => exact .inr ⟨j, congrArg (Fuses.burn · j) (State.wr_fuses s (.ldr .fuseBusy) 0 0)⟩

/-- Settles O4: every command but FUSE_COMMAND_DONE keeps what `Keeps` says, and that one keeps all of it but the fuses. -/
theorem whatNoCommandTakesBack : Obligations.WhatNoCommandTakesBack := by
  intro i s t e
  by_cases hf : ∃ b, i = .fuseCommandDone b
  · obtain ⟨b, rfl⟩ := hf
    have hk := execFuseCommandDone_keeps b e
    obtain ⟨-, rfl⟩ := guardWF_next (p := true) e
    refine ⟨⟨hk.hw, hk.pending, hk.out, hk.free⟩, fun h => absurd rfl (h b), ?_⟩
    obtain h | ⟨j, h⟩ := fuses_fuseCommandDone s b
    · rw [h]; exact ⟨Nat.le_refl _, id⟩
    · rw [h]; exact ⟨s.fuses.seccount_le_burn j, fun hl => Fuses.testLocked_burn hl j⟩
  · have hk := exec_keeps (fun b hb => hf ⟨b, hb⟩) e
    exact ⟨⟨hk.hw, hk.pending, hk.out, hk.free⟩, fun _ => hk.fuses, hk.fuses ▸ ⟨Nat.le_refl _, id⟩⟩

/-! ### Register fields that are cleared -/

/-- A cleared field reads 0, also on a unit that is not populated (R2). -/
theorem State.rd_clr (s : State) (f g : Fld) (i j : Nat) : (s.clr f i).rd g j = if g = f ∧ j = i then 0 else s.rd g j := by
  rw [State.clr_eq, State.rd_wr, Nat.zero_mod]
  by_cases h : g = f ∧ j = i
  · obtain ⟨rfl, rfl⟩ := h
    by_cases hp : populated s.hw g j = true
    · simp [hp]
    · simp [hp, State.rd]
  · rw [if_neg fun k => h ⟨k.1, k.2.1⟩, if_neg h]

theorem State.rd_clrs (f g : Fld) (j : Nat) (l : List Nat) (s : State) :
    (l.foldl (fun t n => t.clr f n) s).rd g j = if g = f ∧ j ∈ l then 0 else s.rd g j := by
  induction l generalizing s with
  | nil => simp
  | cons n l ih =>
    rw [List.foldl_cons, ih, State.rd_clr]
    by_cases hg : g = f <;> by_cases hj : j = n <;> simp [hg, hj]

/-! ### Image states and ENGINE_ARMED (R50, R426) -/

/-- A change of the image state changes the loader's state, and sends at most a message. -/
theorem State.setLdr_eq (s : State) (st : LdrState) :
    ∃ o p, s.setLdr st = { s with ldr := { s.ldr with st := st }, out := o, pcie := p } := by
  unfold State.setLdr
  extract_lets t
  split
  · exact State.globalIrq_eq _ _
  · exact ⟨s.out, s.pcie, rfl⟩

section SetLdr

variable (s : State) (st : LdrState)

@[simp] theorem State.setLdr_ldr : (s.setLdr st).ldr = { s.ldr with st := st } := by
  obtain ⟨o, p, h⟩ := s.setLdr_eq st; rw [h]
@[simp] theorem State.setLdr_regs : (s.setLdr st).regs = s.regs := by
  obtain ⟨o, p, h⟩ := s.setLdr_eq st; rw [h]
@[simp] theorem State.setLdr_loam : (s.setLdr st).loam = s.loam := by
  obtain ⟨o, p, h⟩ := s.setLdr_eq st; rw [h]
@[simp] theorem State.setLdr_flt : (s.setLdr st).flt = s.flt := by
  obtain ⟨o, p, h⟩ := s.setLdr_eq st; rw [h]
@[simp] theorem State.rd_setLdr (f : Fld) (i : Nat) : (s.setLdr st).rd f i = s.rd f i := by
  obtain ⟨o, p, h⟩ := s.setLdr_eq st; rw [h]; rfl

end SetLdr

theorem State.engineArmed_of_loaded {s : State} (h : s.ldr.st = .loaded) : s.engineArmed = false := by
  simp [State.engineArmed, h]

/-! ### The conditions of arming (O17: R61) -/

theorem State.armFault_of_disarming {s : State} (h : s.ldr.st = .disarming) : s.armFault = 6 := if_pos h

theorem State.armFault_of_not_loaded {s : State} (h : s.ldr.st ≠ .loaded) (hd : s.ldr.st ≠ .disarming) : s.armFault = 1 :=
  (if_neg hd).trans (if_pos h)

/-- In LOADED the first condition of R61 that is not met gives the code. -/
theorem State.armFault_of_loaded {s : State} (h : s.ldr.st = .loaded) :
    s.armFault =
      if !s.on (.cal .puDone) || s.on (.cal .puBad) then 2
      else if !s.on (.pwr .allQual) then 3
      else if s.recordAt 2 then 4
      else if s.ldr.strictArm ∧ s.ldr.loadEntries ≠ 0 then 7
      else 0 := by
  simp [State.armFault, h]

/-- The codes of ARM_REFUSE. -/
theorem State.armFault_cases (s : State) :
    s.ldr.st = .disarming ∧ s.armFault = 6 ∨ (s.ldr.st ≠ .loaded ∧ s.ldr.st ≠ .disarming) ∧ s.armFault = 1 ∨
      s.ldr.st = .loaded ∧ s.armFault ∈ [0, 2, 3, 4, 7] := by
  by_cases hd : s.ldr.st = .disarming
  · exact .inl ⟨hd, State.armFault_of_disarming hd⟩
  · by_cases hl : s.ldr.st = .loaded
    · refine .inr (.inr ⟨hl, ?_⟩)
      rw [State.armFault_of_loaded hl]
      repeat' split
      all_goals decide
    · exact .inr (.inl ⟨⟨hl, hd⟩, State.armFault_of_not_loaded hl hd⟩)

theorem State.armFault_mem (s : State) : s.armFault ∈ [0, 1, 2, 3, 4, 6, 7] := by
  obtain ⟨-, h⟩ | ⟨-, h⟩ | ⟨-, h⟩ := s.armFault_cases
  · simp [h]
  · simp [h]
  · exact (List.subset_def.1 (by decide)) h

theorem State.armFault_lt (s : State) : s.armFault < 8 :=
  (by decide : ∀ n ∈ [0, 1, 2, 3, 4, 6, 7], n < 8) _ s.armFault_mem

theorem State.armFault_ne_five (s : State) : s.armFault ≠ 5 :=
  (by decide : ∀ n ∈ [0, 1, 2, 3, 4, 6, 7], n ≠ 5) _ s.armFault_mem

theorem State.loaded_of_armFault_eq_zero {s : State} (h : s.armFault = 0) : s.ldr.st = .loaded := by
  obtain ⟨-, h'⟩ | ⟨-, h'⟩ | ⟨hl, -⟩ := s.armFault_cases
  · omega
  · omega
  · exact hl

theorem State.armFault_eq_one_iff (s : State) : s.armFault = 1 ↔ s.ldr.st ≠ .loaded ∧ s.ldr.st ≠ .disarming := by
  obtain ⟨hd, h⟩ | ⟨hn, h⟩ | ⟨hl, h⟩ := s.armFault_cases
  · simp [hd, h]
  · simp [hn, h]
  · simp only [hl, ne_eq, not_true_eq_false, false_and, iff_false]
    exact fun h' => absurd (h' ▸ h) (by decide)

theorem State.armFault_eq_six_iff (s : State) : s.armFault = 6 ↔ s.ldr.st = .disarming := by
  obtain ⟨hd, h⟩ | ⟨hn, h⟩ | ⟨hl, h⟩ := s.armFault_cases
  · simp [hd, h]
  · simp [hn, h]
  · simp only [hl, reduceCtorEq, iff_false]
    exact fun h' => absurd (h' ▸ h) (by decide)

/-- What each code says in LOADED: the conditions before it hold, and its own does not. -/
theorem State.armFault_loaded_iffs {s : State} (h : s.ldr.st = .loaded) :
    (s.armFault = 0 ↔ s.on (.cal .puDone) = true ∧ s.on (.cal .puBad) = false ∧ s.on (.pwr .allQual) = true ∧
      s.recordAt 2 = false ∧ (s.ldr.strictArm = true → s.ldr.loadEntries = 0)) ∧
    (s.armFault = 2 ↔ s.on (.cal .puDone) = false ∨ s.on (.cal .puBad) = true) ∧
    (s.armFault = 3 ↔ s.on (.cal .puDone) = true ∧ s.on (.cal .puBad) = false ∧ s.on (.pwr .allQual) = false) ∧
    (s.armFault = 4 ↔ s.on (.cal .puDone) = true ∧ s.on (.cal .puBad) = false ∧ s.on (.pwr .allQual) = true ∧ s.recordAt 2 = true) := by
  rw [State.armFault_of_loaded h]
  split
  · next h2 =>
    simp only [Bool.or_eq_true, Bool.not_eq_true'] at h2
    obtain h2 | h2 := h2 <;> simp [h2]
  · next h2 =>
    obtain ⟨hd, hb⟩ : s.on (.cal .puDone) = true ∧ s.on (.cal .puBad) = false := by simpa using h2
    split
    · next h3 =>
      have hq : s.on (.pwr .allQual) = false := by simpa using h3
      simp [hd, hb, hq]
    · next h3 =>
      have hq : s.on (.pwr .allQual) = true := by simpa using h3
      split
      · next h4 => simp [hd, hb, hq, h4]
      · next h4 =>
        have hr : s.recordAt 2 = false := by simpa using h4
        split
        · next h7 => simp [hd, hb, hq, hr, h7]
        · next h7 =>
          have hs : s.ldr.strictArm = true → s.ldr.loadEntries = 0 := by simpa using h7
          simpa [hd, hb, hq, hr] using hs

/-! ### ARM and DISARM (O15, O17: R60, R61, R63, R254) -/

theorem exec_arm {s : State} {v : Word} (hr : s.Reaches .ldr 0) (hv : v.getLsbD 31 = false) :
    exec (.arm v) s = .next (if armKey v then s.armNow else s.armRefuse 5) := by
  show guardWF (!v.getLsbD 31) (s.hostWrite .ldr 0 _) = _
  rw [hv, State.hostWrite_of_reaches hr]; rfl

theorem exec_disarm {s : State} {v : Word} (hr : s.Reaches .ldr 0) (hv : v.getLsbD 31 = true) :
    exec (.disarm v) s = .next (if armKey v then s.disarmNow else s) := by
  show guardWF (v.getLsbD 31) (s.hostWrite .ldr 0 _) = _
  rw [hv, State.hostWrite_of_reaches hr]; rfl

theorem armKey_iff (v : Word) : armKey v = true ↔ v.toNat % 65536 = 0xA4E5 := beq_iff_eq

theorem exec_arm_key {s : State} {v : Word} (hr : s.Reaches .ldr 0) (hv : v.getLsbD 31 = false) (hk : v.toNat % 65536 = 0xA4E5) :
    exec (.arm v) s = .next s.armNow := by
  rw [exec_arm hr hv, if_pos ((armKey_iff v).2 hk)]

theorem exec_arm_wrong {s : State} {v : Word} (hr : s.Reaches .ldr 0) (hv : v.getLsbD 31 = false) (hk : v.toNat % 65536 ≠ 0xA4E5) :
    exec (.arm v) s = .next (s.wr (.ldr .armRefuse) 0 5) := by
  rw [exec_arm hr hv, if_neg (hk ∘ (armKey_iff v).1)]; rfl

/-- Running injections end (R254). -/
def State.endInjections (s : State) : State := (List.range s.hw.slots).foldl (fun t n => t.clr (.cle .injAct) n) s

theorem State.sameButRegs_endInjections (s : State) : s.SameButRegs s.endInjections :=
  .foldl (fun _ _ => State.sameButRegs_wr ..) _ _

theorem State.rd_endInjections (s : State) (f : Fld) (i : Nat) :
    s.endInjections.rd f i = if f = .cle .injAct ∧ i < s.hw.slots then 0 else s.rd f i := by
  rw [State.endInjections, State.rd_clrs]
  simp only [List.mem_range]

theorem State.armNow_of_ready {s : State} (h : s.armFault = 0) :
    s.armNow = { s.endInjections.setLdr .armed with pth := { s.endInjections.pth with feedBase := none } } := by
  unfold State.armNow
  rw [h]; rfl

theorem State.armNow_of_fault {s : State} (h : s.armFault ≠ 0) : s.armNow = s.wr (.ldr .armRefuse) 0 s.armFault := by
  unfold State.armNow
  split
  · next h0 => exact absurd h0 h
  · rfl

theorem State.armNow_ready_ldr {s : State} (h : s.armFault = 0) : s.armNow.ldr = { s.ldr with st := .armed } := by
  obtain ⟨r, hr⟩ := s.sameButRegs_endInjections
  rw [State.armNow_of_ready h, State.setLdr_ldr, hr]

/-- What arming leaves: the page store and every register field but INJ_ACT. -/
theorem State.armNow_ready_frame {s : State} (h : s.armFault = 0) :
    s.armNow.pth.feedBase = none ∧ s.armNow.loam = s.loam ∧ (∀ n, n < s.hw.slots → s.armNow.rd (.cle .injAct) n = 0) ∧
      ∀ f i, f ≠ .cle .injAct → s.armNow.rd f i = s.rd f i := by
  have hrd (f : Fld) (i : Nat) : s.armNow.rd f i = s.endInjections.rd f i := by
    rw [State.armNow_of_ready h]
    exact State.rd_setLdr ..
  refine ⟨by rw [State.armNow_of_ready h], ?_, fun n hn => ?_, fun f i hf => ?_⟩
  · rw [State.armNow_of_ready h, State.setLdr_loam]
    exact s.sameButRegs_endInjections.loam
  · rw [hrd, State.rd_endInjections, if_pos ⟨rfl, hn⟩]
  · rw [hrd, State.rd_endInjections, if_neg fun k => hf k.1]

theorem State.broadcast_eq (s : State) (kind : Nat) (data : List Int) : ∃ o, s.broadcast kind data = { s with out := o } := by
  unfold State.broadcast
  split
  · exact ⟨_, rfl⟩
  · exact ⟨s.out, rfl⟩

/-- DISARM goes to DISARMING, and leaves the register fields and the page store. -/
theorem State.disarmNow_armed {s : State} (h : s.ldr.st = .armed) :
    s.disarmNow.ldr = { s.ldr with st := .disarming } ∧ s.disarmNow.regs = s.regs ∧ s.disarmNow.loam = s.loam := by
  obtain ⟨o, ho⟩ := (s.setLdr .disarming).broadcast_eq 13 []
  rw [State.disarmNow, if_pos h, ho]
  exact ⟨State.setLdr_ldr .., State.setLdr_regs .., State.setLdr_loam ..⟩

theorem exec_disarm_key {s : State} {v : Word} (hr : s.Reaches .ldr 0) (hv : v.getLsbD 31 = true) (hk : v.toNat % 65536 = 0xA4E5) :
    exec (.disarm v) s = .next s.disarmNow := by
  rw [exec_disarm hr hv, if_pos ((armKey_iff v).2 hk)]

theorem exec_disarm_wrong {s : State} {v : Word} (hr : s.Reaches .ldr 0) (hv : v.getLsbD 31 = true) (hk : v.toNat % 65536 ≠ 0xA4E5) :
    exec (.disarm v) s = .next s := by
  rw [exec_disarm hr hv, if_neg (hk ∘ (armKey_iff v).1)]

/-- Settles O15: the key is what `armNow` and `disarmNow` are behind. -/
theorem onlyTheKeyArms : Obligations.OnlyTheKeyArms := by
  refine fun s v hr => ⟨fun hk => ⟨fun hv => exec_arm_wrong hr hv hk, fun hv => exec_disarm_wrong hr hv hk⟩,
    fun hk => ⟨fun hv h0 => ⟨_, exec_arm_key hr hv hk, ?_⟩, fun hv hst => ⟨_, exec_disarm_key hr hv hk, ?_⟩⟩⟩
  · rw [State.armNow_ready_ldr h0]
  · rw [(State.disarmNow_armed hst).1]

/-! ### What leaves the loader alone: sheets, power, axes and slots -/

@[simp] theorem State.msix_ldr (s : State) (v : Nat) : (s.msix v).ldr = s.ldr := by
  obtain ⟨o, p, h⟩ := s.msix_eq v; rw [h]
@[simp] theorem State.globalIrq_ldr (s : State) (en : GlbF) : (s.globalIrq en).ldr = s.ldr := by
  obtain ⟨o, p, h⟩ := s.globalIrq_eq en; rw [h]
@[simp] theorem State.broadcast_ldr (s : State) (kind : Nat) (data : List Int) : (s.broadcast kind data).ldr = s.ldr := by
  obtain ⟨o, h⟩ := s.broadcast_eq kind data; rw [h]
@[simp] theorem State.ev_ldr (s : State) (f : Fld) (i : Nat) : (s.ev f i).ldr = s.ldr := State.wr_ldr ..
@[simp] theorem State.clr_ldr (s : State) (f : Fld) (i : Nat) : (s.clr f i).ldr = s.ldr := State.wr_ldr ..
@[simp] theorem State.wrB_ldr (s : State) (f : Fld) (i : Nat) (b : Bool) : (s.wrB f i b).ldr = s.ldr := State.wr_ldr ..
@[simp] theorem State.count_ldr (s : State) (f : Fld) (i : Nat) : (s.count f i).ldr = s.ldr := State.wr_ldr ..
@[simp] theorem State.upward_ldr (s : State) (kind : Nat) (data : List Int) : (s.upward kind data).ldr = s.ldr := rfl
@[simp] theorem State.closeDecision_ldr (s : State) (kind unit : Nat) : (s.closeDecision kind unit).ldr = s.ldr := rfl

theorem State.SameButRegs.ldr {s t : State} (h : s.SameButRegs t) : t.ldr = s.ldr := by obtain ⟨r, rfl⟩ := h; rfl

@[simp] theorem State.enqueue_ldr (s : State) (p kind unit : Nat) (data : List Nat) : (s.enqueue p kind unit data).ldr = s.ldr := by
  obtain ⟨o, pc, tk, ds, h⟩ := s.enqueue_eq p kind unit data; rw [h]

@[simp] theorem State.post_ldr (s : State) (kind unit : Nat) (data : List Nat) : (s.post kind unit data).ldr = s.ldr := by
  unfold State.post
  dsimp only
  split
  · split <;> rfl
  · split
    · exact State.enqueue_ldr ..
    · split
      · exact State.count_ldr ..
      · rfl

section Sheets

variable (s : State) (c : Nat)

@[simp] theorem State.toState_ldr (st : CtxState) : (s.toState c st).ldr = s.ldr := by
  unfold State.toState
  dsimp only
  split <;> simp

@[simp] theorem State.verifyIdle_ldr (b : Band) : (s.verifyIdle b).ldr = s.ldr := by
  unfold State.verifyIdle
  split <;> simp

@[simp] theorem State.reclaim_ldr (rs : List Nat) : (s.reclaim rs).ldr = s.ldr :=
  foldl_unchanged (fun t r => by simp) rs s

@[simp] theorem State.reclaimCtx_ldr : (s.reclaimCtx c).ldr = s.ldr := State.reclaim_ldr ..

@[simp] theorem State.settleGate_ldr : s.settleGate.ldr = s.ldr := s.sameButRegs_settleGate.ldr

@[simp] theorem State.settleCtx_ldr : (s.settleCtx c).ldr = s.ldr := by
  unfold State.settleCtx
  dsimp only
  split
  · split <;> simp
  · simp

@[simp] theorem State.finishAll_ldr : (s.finishAll c).ldr = s.ldr := by
  unfold State.finishAll
  rw [State.settleCtx_ldr]
  exact (foldl_unchanged (g := State.ldr) (fun t k => State.setStn_ldr t k _) _ _).trans (State.setCtx_ldr ..)

@[simp] theorem State.darken_ldr (p n : Nat) : (s.darken c p n).ldr = s.ldr := State.setCtx_ldr ..

@[simp] theorem State.darkenAll_ldr : (s.darkenAll c).ldr = s.ldr := foldl_unchanged (fun t p => State.darken_ldr t c p 0) _ s

@[simp] theorem State.spoilHere_ldr (cause : Nat) : (s.spoilHere c cause).ldr = s.ldr := by
  unfold State.spoilHere
  dsimp only
  rw [State.settleCtx_ldr]
  split <;> split <;> simp

@[simp] theorem State.spoil_ldr (cause : Nat) : (s.spoil c cause).ldr = s.ldr := by
  unfold State.spoil
  dsimp only
  split
  · split <;> simp
  · rfl

@[simp] theorem State.pathSpoil_ldr (pcause : Nat) : (s.pathSpoil c pcause).ldr = s.ldr := by
  unfold State.pathSpoil
  dsimp only
  split <;> simp

@[simp] theorem State.webForget_ldr : s.webForget.ldr = s.ldr := by
  unfold State.webForget
  dsimp only
  exact foldl_unchanged (g := State.ldr) (fun t k => State.setStn_ldr t k _) _ s

end Sheets

section Power

variable (s : State)

@[simp] theorem State.setPwr_ldr (p : Pwr) : (s.setPwr p).ldr = s.ldr := rfl
@[simp] theorem State.startCopy_ldr : s.startCopy.ldr = s.ldr := rfl
@[simp] theorem State.closeKinds_ldr (ks : List Nat) : (s.closeKinds ks).ldr = s.ldr := rfl
@[simp] theorem State.showLatch_ldr : s.showLatch.ldr = s.ldr := State.wrB_ldr ..
@[simp] theorem State.showQual_ldr : s.showQual.ldr = s.ldr := State.wrB_ldr ..
@[simp] theorem State.toE_ldr (n : Nat) : (s.toE n).ldr = s.ldr := (State.showQual_ldr _).trans (State.wr_ldr ..)

@[simp] theorem State.driveStep_ldr (i : Nat) (high : Bool) : (s.driveStep i high).ldr = s.ldr :=
  foldl_unchanged (fun t e => by split <;> rfl) _ s

@[simp] theorem State.extOn_ldr : s.extOn.ldr = s.ldr := by
  unfold State.extOn
  dsimp only
  split <;> simp

@[simp] theorem State.extStart_ldr : s.extStart.ldr = s.ldr := by
  unfold State.extStart
  dsimp only
  split
  · simp
  · split <;> simp

@[simp] theorem State.extOffNow_ldr : s.extOffNow.ldr = s.ldr := by
  unfold State.extOffNow
  dsimp only
  split
  · split <;> simp
  · split <;> simp

@[simp] theorem State.extLower_ldr : s.extLower.ldr = s.ldr := by
  unfold State.extLower
  split <;> simp

@[simp] theorem State.extDown_ldr : s.extDown.ldr = s.ldr := by
  unfold State.extDown
  split
  · simp
  · split <;> simp

@[simp] theorem State.offProceed_ldr : s.offProceed.ldr = s.ldr := (State.extDown_ldr _).trans (State.clr_ldr ..)

@[simp] theorem State.offWaited_ldr : s.offWaited.ldr = s.ldr := by
  unfold State.offWaited
  split <;> simp

end Power

section Motion

variable (s : State) (k : Nat)

@[simp] theorem State.setAxSt_ldr (st : Nat) : (s.setAxSt k st).ldr = s.ldr := State.wr_ldr ..
@[simp] theorem State.homeFail_ldr (cause : Nat) : (s.homeFail k cause).ldr = s.ldr := (State.wr_ldr ..).trans (State.wr_ldr ..)

@[simp] theorem State.axStop_ldr (p : Plan) : (s.axStop k p).ldr = s.ldr := by
  unfold State.axStop
  dsimp only
  split <;> simp

@[simp] theorem State.webAxisStopped_ldr : (s.webAxisStopped k).ldr = s.ldr := by
  unfold State.webAxisStopped
  dsimp only
  split
  · rw [State.webForget_ldr, foldl_unchanged (g := State.ldr) State.finishAll_ldr,
      foldl_unchanged (g := State.ldr) fun t c => State.pathSpoil_ldr t c 8]
    simp
  · rfl

@[simp] theorem State.stopAxis_ldr (p : Plan) : (s.stopAxis k p).ldr = s.ldr := by
  unfold State.stopAxis
  split
  case h_3 | h_4 => split <;> simp
  all_goals simp

@[simp] theorem State.stopAll_ldr : s.stopAll.ldr = s.ldr := foldl_unchanged (fun t k => State.stopAxis_ldr t k .stop) _ s

end Motion

section Slots

variable (s : State) (n : Nat)

@[simp] theorem State.setGate_ldr (high : Bool) : (s.setGate n high).ldr = s.ldr := by
  unfold State.setGate
  split <;> simp

@[simp] theorem State.settleHeaters_ldr : s.settleHeaters.ldr = s.ldr := foldl_unchanged (fun t g => by split <;> simp) _ s

@[simp] theorem State.setSlotSt_ldr (st : Nat) : (s.setSlotSt n st).ldr = s.ldr := by
  unfold State.setSlotSt
  dsimp only
  rw [State.settleHeaters_ldr]
  split <;> split <;> simp

@[simp] theorem State.slotFault_ldr (hold : Bool) : (s.slotFault n hold).ldr = s.ldr := by
  unfold State.slotFault
  split <;> simp

@[simp] theorem State.slotsFault_ldr : s.slotsFault.ldr = s.ldr := foldl_unchanged (fun t n => State.slotFault_ldr t n false) _ s

end Slots

@[simp] theorem State.restThenFault_ldr (s : State) : s.restThenFault.ldr = s.ldr := by
  unfold State.restThenFault
  split <;> simp

/-- The later actions of a reaction leave the loader. -/
@[simp] theorem State.reactOn_ldr (s : State) : s.reactOn.ldr = s.ldr := by
  unfold State.reactOn
  split
  · rfl
  · split
    · split <;> simp
    · split
      · split <;> simp
      · split <;> simp
    · rfl

/-! ### DISARM_COMPLETE (O17: R50, R63, R385) -/

theorem exec_disarmComplete (s : State) : exec .disarmComplete s = .next (disarmComplete s) := rfl

theorem disarmComplete_of_done {s : State} (hst : s.ldr.st = .disarming) (hn : s.noneRemain = true) :
    disarmComplete s = (s.setLdr .loaded).offWaited.reactOn := by
  simp [disarmComplete, State.disarmEnd, hst, hn]

theorem disarmComplete_of_not {s : State} (h : s.ldr.st ≠ .disarming ∨ s.noneRemain = false) : disarmComplete s = s := by
  obtain h | h := h <;> simp [disarmComplete, h]

theorem State.offWaited_of_not_pending {s : State} (h : s.on (.pwr .offPend) = false) : s.offWaited = s := by
  simp [State.offWaited, h]

theorem State.reactOn_of_no_records {s : State} (h : s.flt.records = []) : s.reactOn = s := by
  simp [State.reactOn, State.curRec, h]

/-- With no orderly off and no reaction waiting, DISARMING ends with the change of the image state alone. -/
theorem disarmComplete_of_quiet {s : State} (hst : s.ldr.st = .disarming) (hn : s.noneRemain = true)
    (ho : s.on (.pwr .offPend) = false) (hf : s.flt.records = []) : disarmComplete s = s.setLdr .loaded := by
  have ho' : (s.setLdr .loaded).on (.pwr .offPend) = false := by rw [State.on_eq, State.rd_setLdr]; exact ho
  rw [disarmComplete_of_done hst hn, State.offWaited_of_not_pending ho',
    State.reactOn_of_no_records (by rw [State.setLdr_flt, hf])]

/-- Settles O17: the outcomes of ARM, DISARM and DISARM_COMPLETE, and the conditions of R61 by their codes. -/
theorem armingRuns : Obligations.ArmingRuns := by
  refine ⟨fun s => ⟨fun v hr hk => ⟨fun hv h0 => ?_, fun hv hf => ?_, fun hv hst => ?_⟩, fun hst hn => ?_, fun h => ?_⟩,
    fun s => ⟨⟨fun h0 => ?_, fun ⟨hl, h⟩ => ?_⟩, s.armFault_eq_one_iff, s.armFault_eq_six_iff, s.armFault_ne_five,
      fun hl => (State.armFault_loaded_iffs hl).2⟩⟩
  · obtain ⟨hfeed, hloam, hinj, hrd⟩ := State.armNow_ready_frame h0
    exact ⟨_, exec_arm_key hr hv hk, State.armNow_ready_ldr h0, hfeed, hloam, hinj, hrd⟩
  · rw [exec_arm_key hr hv hk, State.armNow_of_fault hf]
  · exact ⟨_, exec_disarm_key hr hv hk, State.disarmNow_armed hst⟩
  · have hldr : (disarmComplete s).ldr = { s.ldr with st := .loaded } := by simp [disarmComplete_of_done hst hn]
    refine ⟨_, exec_disarmComplete s, hldr, State.engineArmed_of_loaded (by rw [hldr]),
      (disarmComplete_keeps (.refl s)).bytes rfl, fun ho hf => ?_⟩
    rw [disarmComplete_of_quiet hst hn ho hf]
    exact ⟨State.setLdr_regs .., State.setLdr_loam ..⟩
  · rw [exec_disarmComplete, disarmComplete_of_not h]
  · have hl := State.loaded_of_armFault_eq_zero h0
    exact ⟨hl, (State.armFault_loaded_iffs hl).1.1 h0⟩
  · exact (State.armFault_loaded_iffs hl).1.2 h

/-! ### Load requests (O14, O16: R46, R50, R51) -/

/-- What a load request changes of the loader: the state, the source, and how the reading goes on. -/
def Loader.SameButLoad (l l' : Loader) : Prop :=
  ∃ st prev source mayFallBack second started,
    l' = { l with st := st, prev := prev, source := source, mayFallBack := mayFallBack, second := second, started := started }

theorem Loader.SameButLoad.refl (l : Loader) : l.SameButLoad l := ⟨_, _, _, _, _, _, rfl⟩

theorem Loader.SameButLoad.trans {a b c : Loader} (h : a.SameButLoad b) (g : b.SameButLoad c) : a.SameButLoad c := by
  obtain ⟨st, prev, source, mayFallBack, second, started, rfl⟩ := h
  obtain ⟨st', prev', source', mayFallBack', second', started', rfl⟩ := g
  exact ⟨_, _, _, _, _, _, rfl⟩

theorem State.loadStart_sameButLoad (s : State) (src : Nat) (b : Bool) : s.ldr.SameButLoad (s.loadStart src b).ldr :=
  ⟨_, _, _, _, _, _, rfl⟩

theorem State.loadRejected_sameButLoad (s : State) (cause : Nat) : s.ldr.SameButLoad (s.loadRejected cause).ldr := by
  unfold State.loadRejected
  extract_lets t l
  have ht : t.ldr = s.ldr := by simp [t]
  split
  · exact ht ▸ ⟨_, _, _, _, _, _, rfl⟩
  · exact ht ▸ ⟨_, _, _, _, _, _, rfl⟩

/-- A load request leaves the image, the staged one, the flash slots and a commit. -/
theorem State.loadRequest_sameButLoad (s : State) : s.ldr.SameButLoad s.loadRequest.ldr := by
  unfold State.loadRequest
  split
  · split
    · exact s.loadStart_sameButLoad ..
    · split
      · exact (s.loadStart_sameButLoad ..).trans (State.loadRejected_sameButLoad ..)
      · exact s.loadStart_sameButLoad ..
    · exact s.loadStart_sameButLoad ..
  · rw [State.ev_ldr]; exact .refl _

@[simp] theorem State.rd_loadStart (s : State) (src : Nat) (b : Bool) (f : Fld) (i : Nat) : (s.loadStart src b).rd f i = s.rd f i := rfl

/-- The fields that a load request writes. -/
def loadField (f : Fld) : Bool := f == .ldr .reject || f == .ldr .loadFail || f == .ldr .ignored

theorem State.rd_loadRejected (s : State) (cause : Nat) {f : Fld} (h : loadField f = false) (i : Nat) :
    (s.loadRejected cause).rd f i = s.rd f i := by
  simp only [loadField, Bool.or_eq_false_iff, beq_eq_false_iff_ne] at h
  obtain ⟨⟨hr, hf⟩, -⟩ := h
  unfold State.loadRejected
  dsimp only
  split <;> simp [State.setLoader, State.ev_eq, State.rd_wr, hr, hf]

theorem State.rd_loadRequest (s : State) {f : Fld} (h : loadField f = false) (i : Nat) : s.loadRequest.rd f i = s.rd f i := by
  unfold State.loadRequest
  split
  · split
    · rfl
    · split
      · exact State.rd_loadRejected _ _ h i
      · rfl
    · rfl
  · have hi : f ≠ .ldr .ignored := by rintro rfl; cases h
    exact State.rd_wr_ne s (by simp [hi]) 1

/-- A request in another state than EMPTY and LOADED (R51). -/
theorem State.loadRequest_ignored {s : State} (h1 : s.ldr.st ≠ .empty) (h2 : s.ldr.st ≠ .loaded) :
    s.loadRequest = s.wr (.ldr .ignored) 0 1 := if_neg (not_or.2 ⟨h1, h2⟩)

/-! ### Commit requests (O14: R54, R55) -/

/-- The image goes to a slot, which fails its CRC or signature until the commit has ended. -/
def Loader.startCommit (l : Loader) (slot : Nat) (img : List Byte) : Loader :=
  { (if slot = 0 then { l with flash0 := img, cut0 := true } else { l with flash1 := img, cut1 := true } : Loader) with
    commit := some { slot := slot, image := img } }

theorem State.commitRequest_busy {s : State} (h : s.on (.ldr .commitBusy) = true) : s.commitRequest = s.wr (.ldr .ignored) 0 1 :=
  if_pos h

theorem State.commitRequest_unstaged {s : State} (h : s.on (.ldr .commitBusy) = false) (hs : s.ldr.staged = none) :
    s.commitRequest = (s.wr (.ldr .commitFail) 0 1).globalIrq .irqCommit := by
  simp [State.commitRequest, h, hs, State.ev_eq]

theorem State.commitRequest_staged {s : State} {img : List Byte} (h : s.on (.ldr .commitBusy) = false) (hs : s.ldr.staged = some img) :
    s.commitRequest = { s.wr (.ldr .commitBusy) 0 1 with ldr := s.ldr.startCommit (s.rd (.ldr .commitSlot)) img } := by
  simp [State.commitRequest, h, hs, State.ev_eq, State.setLoader, Loader.startCommit]

/-- A commit request ignores, fails or starts a commit. -/
theorem State.commitRequest_cases (s : State) :
    s.commitRequest = s.wr (.ldr .ignored) 0 1 ∨ s.commitRequest = (s.wr (.ldr .commitFail) 0 1).globalIrq .irqCommit ∨
      ∃ img, s.commitRequest = { s.wr (.ldr .commitBusy) 0 1 with ldr := s.ldr.startCommit (s.rd (.ldr .commitSlot)) img } := by
  cases hb : s.on (.ldr .commitBusy) with
  | true => exact .inl (State.commitRequest_busy hb)
  | false =>
    cases hs : s.ldr.staged with
    | none => exact .inr (.inl (State.commitRequest_unstaged hb hs))
    | some img => exact .inr (.inr ⟨img, State.commitRequest_staged hb hs⟩)

/-- No commit touches the image state, the source read or the image in force. -/
theorem Loader.startCommit_frame (l : Loader) (slot : Nat) (img : List Byte) :
    (l.startCommit slot img).st = l.st ∧ (l.startCommit slot img).source = l.source ∧ (l.startCommit slot img).image = l.image := by
  unfold Loader.startCommit
  split <;> exact ⟨rfl, rfl, rfl⟩

theorem State.commitRequest_frame (s : State) :
    s.commitRequest.ldr.st = s.ldr.st ∧ s.commitRequest.ldr.source = s.ldr.source ∧ s.commitRequest.ldr.image = s.ldr.image := by
  obtain h | h | ⟨img, h⟩ := s.commitRequest_cases
  · rw [h, State.wr_ldr]; exact ⟨rfl, rfl, rfl⟩
  · rw [h, State.globalIrq_ldr, State.wr_ldr]; exact ⟨rfl, rfl, rfl⟩
  · rw [h]; exact s.ldr.startCommit_frame ..

/-- IGNORED stays set. -/
theorem State.rd_ignored_commitRequest {s : State} (h : s.rd (.ldr .ignored) = 1) : s.commitRequest.rd (.ldr .ignored) = 1 := by
  obtain e | e | ⟨img, e⟩ := s.commitRequest_cases
  · rw [e]; exact State.rd_wr_same s rfl 1
  · rw [e, State.rd_globalIrq, State.rd_wr_ne s (by decide), h]
  · rw [e, State.rd_setLoader, State.rd_wr_ne s (by decide), h]

/-! ### LDR_CTL (O14, O16: R66) -/

/-- A write of LDR_CTL before LOAD and COMMIT act. -/
def State.ctlFields (s : State) (v : Word) : State :=
  ((s.wr (.ldr .src) 0 (bitField v.toNat 1 2)).wr (.ldr .fallback) 0 (bitField v.toNat 3 1)).wr (.ldr .commitSlot) 0 (bitField v.toNat 5 1)

/-- A write of LDR_CTL before COMMIT acts. -/
def State.ctlLoad (s : State) (v : Word) : State := if v.getLsbD 0 then (s.ctlFields v).loadRequest else s.ctlFields v

theorem State.ldrCtl_eq (s : State) (v : Word) :
    s.ldrCtl v = if v.getLsbD 4 then (s.ctlLoad v).commitRequest else s.ctlLoad v := rfl

@[simp] theorem State.ctlFields_ldr (s : State) (v : Word) : (s.ctlFields v).ldr = s.ldr := by simp [State.ctlFields]

theorem State.ctlLoad_ldr {s : State} {v : Word} (h : v.getLsbD 0 = false) : (s.ctlLoad v).ldr = s.ldr := by
  rw [State.ctlLoad, h]
  exact s.ctlFields_ldr v

theorem State.ctlLoad_sameButLoad (s : State) (v : Word) : s.ldr.SameButLoad (s.ctlLoad v).ldr := by
  unfold State.ctlLoad
  split
  · exact s.ctlFields_ldr v ▸ State.loadRequest_sameButLoad _
  · rw [State.ctlFields_ldr]; exact .refl _

theorem State.rd_ctlLoad (s : State) (v : Word) {f : Fld} (h : loadField f = false) (i : Nat) :
    (s.ctlLoad v).rd f i = (s.ctlFields v).rd f i := by
  unfold State.ctlLoad
  split
  · exact State.rd_loadRequest _ h i
  · rfl

theorem State.on_commitBusy_ctlLoad (s : State) (v : Word) : (s.ctlLoad v).on (.ldr .commitBusy) = s.on (.ldr .commitBusy) := by
  rw [State.on_eq, State.rd_ctlLoad s v rfl, State.ctlFields, State.rd_wr_ne _ (by decide), State.rd_wr_ne _ (by decide),
    State.rd_wr_ne _ (by decide), State.on_eq]

theorem State.rd_commitSlot_ctlLoad (s : State) (v : Word) : (s.ctlLoad v).rd (.ldr .commitSlot) = bitField v.toNat 5 1 := by
  rw [State.rd_ctlLoad s v rfl, State.ctlFields, State.rd_wr_same _ rfl]
  exact Nat.mod_eq_of_lt (bitField_lt ..)

theorem exec_loadRequest {s : State} {v : Word} (hr : s.Reaches .ldr 0) (h : v.getLsbD 0 = true) :
    exec (.loadRequest v) s = .next (s.ldrCtl v) := by
  show guardWF (v.getLsbD 0) (s.hostWrite .ldr 0 _) = _
  rw [h, State.hostWrite_of_reaches hr]; rfl

theorem exec_commit {s : State} {v : Word} (hr : s.Reaches .ldr 0) (h : v.getLsbD 4 = true) :
    exec (.commit v) s = .next (s.ctlLoad v).commitRequest := by
  show guardWF (v.getLsbD 4) (s.hostWrite .ldr 0 _) = _
  rw [h, State.hostWrite_of_reaches hr, State.ldrCtl_eq, if_pos h]; rfl

/-- A load request out of place only sets IGNORED (R51), before COMMIT acts. -/
theorem State.ctlLoad_ignored {s : State} {v : Word} (h : v.getLsbD 0 = true) (h1 : s.ldr.st ≠ .empty) (h2 : s.ldr.st ≠ .loaded) :
    s.ctlLoad v = (s.ctlFields v).wr (.ldr .ignored) 0 1 := by
  rw [State.ctlLoad, if_pos h, State.loadRequest_ignored (by rwa [State.ctlFields_ldr]) (by rwa [State.ctlFields_ldr])]

theorem State.ldrCtl_ignored {s : State} {v : Word} (h : v.getLsbD 0 = true) (h1 : s.ldr.st ≠ .empty) (h2 : s.ldr.st ≠ .loaded) :
    (s.ldrCtl v).ldr.st = s.ldr.st ∧ (s.ldrCtl v).ldr.source = s.ldr.source ∧ (s.ldrCtl v).ldr.image = s.ldr.image ∧
      (s.ldrCtl v).rd (.ldr .ignored) = 1 := by
  have hl : (s.ctlLoad v).ldr = s.ldr := by rw [State.ctlLoad_ignored h h1 h2, State.wr_ldr, State.ctlFields_ldr]
  have hi : (s.ctlLoad v).rd (.ldr .ignored) = 1 := by rw [State.ctlLoad_ignored h h1 h2]; exact State.rd_wr_same _ rfl 1
  rw [State.ldrCtl_eq]
  split
  · obtain ⟨hst, hsrc, himg⟩ := (s.ctlLoad v).commitRequest_frame
    exact ⟨hl ▸ hst, hl ▸ hsrc, hl ▸ himg, State.rd_ignored_commitRequest hi⟩
  · rw [hl]; exact ⟨rfl, rfl, rfl, hi⟩

/-- An arm request in another state than LOADED is recorded, whatever its key. -/
theorem exec_arm_out_of_place {s : State} {v : Word} (hr : s.Reaches .ldr 0) (hv : v.getLsbD 31 = false) (h : s.ldr.st ≠ .loaded) :
    ∃ n, 0 < n ∧ n < 8 ∧ exec (.arm v) s = .next (s.wr (.ldr .armRefuse) 0 n) := by
  by_cases hk : v.toNat % 65536 = 0xA4E5
  · have hf : s.armFault ≠ 0 := h ∘ State.loaded_of_armFault_eq_zero
    exact ⟨s.armFault, Nat.pos_of_ne_zero hf, s.armFault_lt, by rw [exec_arm_key hr hv hk, State.armNow_of_fault hf]⟩
  · exact ⟨5, by omega, by omega, exec_arm_wrong hr hv hk⟩

/-- Settles O16: both requests leave the loader, and record that they were refused. -/
theorem requestsOutOfPlaceAreRefused : Obligations.RequestsOutOfPlaceAreRefused := by
  refine fun s v hr => ⟨fun hv hst => ?_, fun hv hst => ?_⟩
  · have hne : s.ldr.st ≠ .empty ∧ s.ldr.st ≠ .loaded := by
      obtain h | h | h | h := hst <;> simp [h]
    exact ⟨_, exec_loadRequest hr hv, State.ldrCtl_ignored hv hne.1 hne.2⟩
  · obtain ⟨n, h0, h8, he⟩ := exec_arm_out_of_place hr hv hst
    refine ⟨_, he, State.wr_ldr .., ?_⟩
    rw [State.rd_wr_same s rfl]
    exact (Nat.mod_eq_of_lt h8).trans_ne h0.ne'

/-! ### COMMIT_COMPLETE (O14: R54, R55) -/

/-- The end of a commit to slot `slot`: the image there passes its checks from now on if it ended well. -/
def Loader.endCommit (l : Loader) (slot : Nat) (ok : Bool) : Loader :=
  { (if slot = 0 then { l with cut0 := !ok } else { l with cut1 := !ok } : Loader) with commit := none }

theorem commitComplete_of_job {s : State} {j : CommitJob} (h : s.ldr.commit = some j) (ok : Bool) :
    commitComplete ok s =
      (if ok then { s.clr (.ldr .commitBusy) with ldr := s.ldr.endCommit j.slot ok }
        else ({ s.clr (.ldr .commitBusy) with ldr := s.ldr.endCommit j.slot ok } : State).ev (.ldr .commitFail)).globalIrq .irqCommit := by
  simp only [commitComplete, h, State.setLoader, Loader.endCommit]

theorem commitComplete_ldr {s : State} {j : CommitJob} (h : s.ldr.commit = some j) (ok : Bool) :
    (commitComplete ok s).ldr = s.ldr.endCommit j.slot ok := by
  rw [commitComplete_of_job h, State.globalIrq_ldr]
  cases ok with
  | true => rfl
  | false => exact State.ev_ldr ..

theorem exec_commitComplete (ok : Bool) (s : State) : exec (.commitComplete ok) s = .next (commitComplete ok s) := rfl

/-- What the end of a commit leaves of the slots. -/
theorem Loader.endCommit_slots (l : Loader) (slot : Nat) (ok : Bool) :
    (l.endCommit slot ok).flash0 = l.flash0 ∧ (l.endCommit slot ok).flash1 = l.flash1 ∧
      (slot = 0 → (l.endCommit slot ok).cut0 = !ok ∧ (l.endCommit slot ok).cut1 = l.cut1) ∧
      (slot ≠ 0 → (l.endCommit slot ok).cut1 = !ok ∧ (l.endCommit slot ok).cut0 = l.cut0) ∧ (l.endCommit slot ok).commit = none := by
  by_cases h : slot = 0 <;> simp [Loader.endCommit, h]

theorem Loader.startCommit_slots (l : Loader) (slot : Nat) (img : List Byte) :
    (l.startCommit slot img).commit = some { slot := slot, image := img } ∧
      (slot = 0 → (l.startCommit slot img).flash0 = img ∧ (l.startCommit slot img).cut0 = true ∧
        (l.startCommit slot img).flash1 = l.flash1 ∧ (l.startCommit slot img).cut1 = l.cut1) ∧
      (slot = 1 → (l.startCommit slot img).flash1 = img ∧ (l.startCommit slot img).cut1 = true ∧
        (l.startCommit slot img).flash0 = l.flash0 ∧ (l.startCommit slot img).cut0 = l.cut0) := by
  by_cases h : slot = 0 <;> simp +contextual [Loader.startCommit, h]

theorem rd_commitComplete {s : State} {j : CommitJob} (h : s.ldr.commit = some j) (ok : Bool) :
    (commitComplete ok s).rd (.ldr .commitBusy) = 0 ∧
      (commitComplete ok s).rd (.ldr .commitFail) = if ok then s.rd (.ldr .commitFail) else 1 := by
  rw [commitComplete_of_job h, State.rd_globalIrq, State.rd_globalIrq]
  cases ok with
  | true => simp [State.rd_clr]
  | false => simp [State.ev_eq, State.rd_wr, State.rd_clr, populated, Fld.row, LdrF.row]

/-- Settles O14: a commit request in its three cases, and the end of a commit in its two. -/
theorem commitsRun : Obligations.CommitsRun := by
  refine fun s => ⟨fun v img hv hr hb hs => ?_, fun v hv hr hb => ?_, fun v hv hr hb hs => ?_, fun j hj => ?_, fun j hj => ?_⟩
  · obtain ⟨st, prev, source, mayFallBack, second, started, hl⟩ := s.ctlLoad_sameButLoad v
    have he := State.commitRequest_staged (s := s.ctlLoad v) (img := img) (s.on_commitBusy_ctlLoad v ▸ hb) (by rw [hl]; exact hs)
    rw [s.rd_commitSlot_ctlLoad v] at he
    obtain ⟨hcommit, h0, h1⟩ := (s.ctlLoad v).ldr.startCommit_slots (bitField v.toNat 5 1) img
    refine ⟨_, exec_commit hr hv, ?_⟩
    rw [he]
    refine ⟨hcommit, State.rd_wr_same _ rfl 1, fun h => ?_, fun h => ?_, fun h => ?_⟩
    · have := h0 h
      rwa [hl] at this ⊢
    · have := h1 h
      rwa [hl] at this ⊢
    · exact ((s.ctlLoad v).ldr.startCommit_frame _ img).1.trans (by rw [State.ctlLoad_ldr h])
  · refine ⟨_, exec_commit hr hv, ?_⟩
    obtain ⟨st, prev, source, mayFallBack, second, started, hl⟩ := s.ctlLoad_sameButLoad v
    rw [State.commitRequest_busy (s.on_commitBusy_ctlLoad v ▸ hb), State.wr_ldr]
    exact ⟨by rw [hl], State.rd_wr_same _ rfl 1, State.ctlLoad_ldr⟩
  · refine ⟨_, exec_commit hr hv, ?_⟩
    obtain ⟨st, prev, source, mayFallBack, second, started, hl⟩ := s.ctlLoad_sameButLoad v
    rw [State.commitRequest_unstaged (s.on_commitBusy_ctlLoad v ▸ hb) (by rw [hl]; exact hs), State.globalIrq_ldr, State.wr_ldr,
      State.rd_globalIrq]
    exact ⟨by rw [hl], State.rd_wr_same _ rfl 1, State.ctlLoad_ldr⟩
  · obtain ⟨hf0, hf1, h0, h1, hc⟩ := s.ldr.endCommit_slots j.slot true
    refine ⟨_, exec_commitComplete true s, ?_⟩
    rw [commitComplete_ldr hj]
    exact ⟨hf0, hf1, h0, h1, hc, rd_commitComplete hj true⟩
  · obtain ⟨hf0, hf1, h0, h1, hc⟩ := s.ldr.endCommit_slots j.slot false
    refine ⟨_, exec_commitComplete false s, ?_⟩
    rw [commitComplete_ldr hj]
    exact ⟨hf0, hf1, h0, h1, hc, rd_commitComplete hj false⟩

/-! ### Fuse commands (O18: R68) -/

section FuseRows

variable {s : State} {v : Word} (hr : s.Reaches .ldr 0)

include hr

theorem exec_programKey (h : fuseOp v = 1) : exec (.programKey v) s = .next (s.fuseCommand v) := by
  show guardWF (fuseOp v == 1) (s.hostWrite .ldr 0 _) = _
  rw [h, State.hostWrite_of_reaches hr]; rfl

theorem exec_revoke (h : fuseOp v = 2) : exec (.revoke v) s = .next (s.fuseCommand v) := by
  show guardWF (fuseOp v == 2) (s.hostWrite .ldr 0 _) = _
  rw [h, State.hostWrite_of_reaches hr]; rfl

theorem exec_advanceSecver (h : fuseOp v = 3) : exec (.advanceSecver v) s = .next (s.fuseCommand v) := by
  show guardWF (fuseOp v == 3) (s.hostWrite .ldr 0 _) = _
  rw [h, State.hostWrite_of_reaches hr]; rfl

theorem exec_lockTestPort (h : fuseOp v = 4) : exec (.lockTestPort v) s = .next (s.fuseCommand v) := by
  show guardWF (fuseOp v == 4) (s.hostWrite .ldr 0 _) = _
  rw [h, State.hostWrite_of_reaches hr]; rfl

end FuseRows

/-- A fuse command runs. -/
def State.fuseStarted (s : State) (j : FuseCmd) : State :=
  { s.wr (.ldr .fuseBusy) 0 1 with ldr := { s.ldr with fuseCmd := some j } }

/-- What every fuse command needs: the state, no other command, and the key. -/
structure State.FuseOpen (s : State) (v : Word) : Prop where
  state : s.ldr.st = .empty ∨ s.ldr.st = .loaded
  idle : s.on (.ldr .fuseBusy) = false
  key : v.toNat / 65536 = 0xF05E

/-- With its own condition a command starts. -/
theorem State.fuseCommand_started {s : State} {v : Word} (h : s.FuseOpen v) {j : FuseCmd}
    (hj : s.fuseJob (fuseOp v) (fuseSlot v) = some j) : s.fuseCommand v = s.fuseStarted j := by
  simp [State.fuseCommand, h.state, h.idle, h.key, hj, State.ev_eq, State.setLoader, State.fuseStarted]

/-- Without its own condition it sets FUSE_ERR. -/
theorem State.fuseCommand_refused {s : State} {v : Word} (h : s.FuseOpen v)
    (hj : s.fuseJob (fuseOp v) (fuseSlot v) = none) : s.fuseCommand v = s.wr (.ldr .fuseErr) 0 1 := by
  simp [State.fuseCommand, h.state, h.idle, h.key, hj, State.ev_eq]

/-- Out of place it sets FUSE_ERR. -/
theorem State.fuseCommand_of_not_open {s : State} {v : Word} (h : ¬s.FuseOpen v) : s.fuseCommand v = s.wr (.ldr .fuseErr) 0 1 :=
  if_neg fun ⟨hst, hb, hk⟩ => h ⟨hst, by simpa using hb, hk⟩

theorem State.fuseJob_programKey (s : State) {slot : Nat} :
    s.fuseJob 1 slot = if s.fuses.slots.getD slot .blank = .blank then some (.programKey slot s.stagedHash) else none := rfl

theorem State.fuseJob_revoke (s : State) {slot : Nat} :
    s.fuseJob 2 slot = if (revokeSlot s.fuses.slots slot).any KeySlot.usable then some (.revoke slot) else none := rfl

theorem State.fuseJob_advance (s : State) {slot : Nat} :
    s.fuseJob 3 slot = if s.ldr.st = .loaded then some (.advance (s.rd (.ldr .imgSecver))) else none := rfl

theorem State.fuseJob_lockTest (s : State) {slot : Nat} : s.fuseJob 4 slot = some .lockTest := rfl

/-! ### FUSE_COMMAND_DONE (O18: R68, R416) -/

theorem exec_fuseCommandDone (b : Bool) (s : State) : exec (.fuseCommandDone b) s = .next (fuseCommandDone b s) := rfl

/-- The end of a fuse command, but for what the verification decides. -/
def State.fuseEnded (s : State) : State := { s.wr (.ldr .fuseBusy) 0 0 with ldr := { s.ldr with fuseCmd := none } }

section FuseDone

variable {s : State} {j : FuseCmd} (h : s.ldr.fuseCmd = some j)

include h

theorem fuseCommandDone_verified :
    fuseCommandDone true s = { s.fuseEnded with
      fuses := s.fuses.burn j, eio := { s.eio with boundary := if j = .lockTest then [] else s.eio.boundary } } := by
  simp [fuseCommandDone, h, State.fuseEnded, State.clr_eq, State.setLoader]

theorem fuseCommandDone_failed : fuseCommandDone false s = s.fuseEnded.wr (.ldr .fuseErr) 0 1 := by
  simp [fuseCommandDone, h, State.fuseEnded, State.clr_eq, State.ev_eq, State.setLoader]

/-- A command that ends verified burns its fuses, and leaves FUSE_ERR. -/
theorem fuseCommandDone_verified_spec :
    (fuseCommandDone true s).fuses = s.fuses.burn j ∧ (fuseCommandDone true s).rd (.ldr .fuseBusy) = 0 ∧
      (fuseCommandDone true s).ldr.fuseCmd = none ∧ (fuseCommandDone true s).rd (.ldr .fuseErr) = s.rd (.ldr .fuseErr) ∧
      (j = .lockTest → (fuseCommandDone true s).eio.boundary = []) := by
  rw [fuseCommandDone_verified h]
  refine ⟨rfl, State.rd_wr_same s rfl 0, rfl, State.rd_wr_ne s (by decide) 0, fun hj => if_pos hj⟩

theorem fuseCommandDone_failed_spec :
    (fuseCommandDone false s).rd (.ldr .fuseBusy) = 0 ∧ (fuseCommandDone false s).ldr.fuseCmd = none ∧
      (fuseCommandDone false s).rd (.ldr .fuseErr) = 1 ∧ (fuseCommandDone false s).fuses = s.fuses := by
  rw [fuseCommandDone_failed h]
  refine ⟨?_, ?_, State.rd_wr_same _ rfl 1, ?_⟩
  · rw [State.rd_wr_ne _ (by decide)]
    exact State.rd_wr_same s rfl 0
  · rw [State.wr_ldr]; rfl
  · rw [State.wr_fuses]; exact State.wr_fuses ..

end FuseDone

section FuseRun

variable {i : Instr} {s : State} {v : Word} (he : exec i s = .next (s.fuseCommand v)) (ho : s.FuseOpen v)

include he ho

/-- A fuse command with its own condition starts, and when it ends verified its fuses are burnt. -/
theorem exec_fuse_runs {j : FuseCmd} (hj : s.fuseJob (fuseOp v) (fuseSlot v) = some j) :
    exec i s = .next (s.fuseStarted j) ∧
      ∃ t u, exec i s = .next t ∧ exec (.fuseCommandDone true) t = .next u ∧ u.fuses = s.fuses.burn j ∧
        u.on (.ldr .fuseBusy) = false ∧ (j = .lockTest → u.eio.boundary = []) := by
  have e : exec i s = .next (s.fuseStarted j) := by rw [he, State.fuseCommand_started ho hj]
  obtain ⟨hf, hb, -, -, ht⟩ := fuseCommandDone_verified_spec (s := s.fuseStarted j) (j := j) rfl
  have hs : (s.fuseStarted j).fuses = s.fuses := State.wr_fuses s (.ldr .fuseBusy) 0 1
  exact ⟨e, _, _, e, exec_fuseCommandDone true _, hs ▸ hf, by rw [State.on_eq, hb]; rfl, ht⟩

theorem exec_fuse_refused (hj : s.fuseJob (fuseOp v) (fuseSlot v) = none) : exec i s = .next (s.wr (.ldr .fuseErr) 0 1) := by
  rw [he, State.fuseCommand_refused ho hj]

end FuseRun

/-! ### CLR_EXPERT (O18: R67) -/

theorem exec_clrExpert {s : State} {v : Word} (hr : s.Reaches .ldr 0) (h : v.getLsbD 0 = true) :
    exec (.clrExpert v) s = .next s.clrExpert := by
  show guardWF (v.getLsbD 0) (s.hostWrite .ldr 0 _) = _
  rw [h, State.hostWrite_of_reaches hr]; rfl

theorem State.rd_clrExpert (s : State) (f : Fld) (i : Nat) :
    s.clrExpert.rd f i = if f = .ldr .repLost ∧ i = 0 then 0 else s.rd f i := State.rd_clr ..

/-- Settles O18: a command that is open and has its condition starts and burns its fuses; else it is refused. -/
theorem fusesBurnOnceVerified : Obligations.FusesBurnOnceVerified := by
  refine ⟨fun s v hr => ⟨fun hst hb hk => ?_, fun hn => ?_⟩, fun s => ⟨fun j hj => ⟨?_, ?_⟩, fun v hr hv => ?_⟩⟩
  · have ho : s.FuseOpen v := ⟨hst, hb, hk⟩
    refine ⟨fun h1 hc => ?_, fun h2 hc => ?_, fun h3 hc => ?_, fun h4 => ?_, fun h1 hc => ?_, fun h2 hc => ?_, fun h3 hc => ?_⟩
    · obtain ⟨e, t, u, ht, hu, hf, hi, -⟩ :=
        exec_fuse_runs (exec_programKey hr h1) ho (by rw [h1, State.fuseJob_programKey, if_pos hc])
      exact ⟨e, t, u, ht, hu, hf, hi⟩
    · obtain ⟨e, t, u, ht, hu, hf, hi, -⟩ := exec_fuse_runs (exec_revoke hr h2) ho (by rw [h2, State.fuseJob_revoke, if_pos hc])
      exact ⟨e, t, u, ht, hu, hf, hi⟩
    · obtain ⟨e, t, u, ht, hu, hf, hi, -⟩ := exec_fuse_runs (exec_advanceSecver hr h3) ho (by rw [h3, State.fuseJob_advance, if_pos hc])
      exact ⟨e, t, u, ht, hu, hf, hi⟩
    · obtain ⟨e, t, u, ht, hu, hf, hi, hp⟩ := exec_fuse_runs (exec_lockTestPort hr h4) ho (by rw [h4, State.fuseJob_lockTest])
      exact ⟨e, t, u, ht, hu, hf, hp rfl, hi⟩
    · exact exec_fuse_refused (exec_programKey hr h1) ho (by rw [h1, State.fuseJob_programKey, if_neg hc])
    · exact exec_fuse_refused (exec_revoke hr h2) ho (by rw [h2, State.fuseJob_revoke, hc]; rfl)
    · exact exec_fuse_refused (exec_advanceSecver hr h3) ho (by rw [h3, State.fuseJob_advance, hc]; rfl)
  · have ho : ¬s.FuseOpen v := by
      rintro ⟨hst, hb, hk⟩
      obtain h | h | h := hn
      · exact h hk
      · rw [hb] at h; cases h
      · exact hst.elim h.1 h.2
    have he := State.fuseCommand_of_not_open ho
    exact ⟨fun h => he ▸ exec_programKey hr h, fun h => he ▸ exec_revoke hr h, fun h => he ▸ exec_advanceSecver hr h,
      fun h => he ▸ exec_lockTestPort hr h⟩
  · obtain ⟨hf, hb, hc, he, ht⟩ := fuseCommandDone_verified_spec hj
    refine ⟨_, exec_fuseCommandDone true s, hb, hc, he, ?_, ?_, ?_, fun h => ⟨?_, ht h⟩⟩
    · rintro i k rfl; exact hf
    · rintro i rfl; exact hf
    · rintro n rfl; exact hf
    · subst h; exact hf
  · exact ⟨_, exec_fuseCommandDone false s, fuseCommandDone_failed_spec hj⟩
  · refine ⟨_, exec_clrExpert hr hv, ?_, ?_, fun f i hne => ?_⟩
    · simp [State.clrExpert, State.setLoader]
    · rw [State.rd_clrExpert]; exact if_pos ⟨rfl, rfl⟩
    · rw [State.rd_clrExpert, if_neg fun ⟨hf, hi⟩ => hne (by rw [hf, hi])]

end Sys2Proof.Machine

/-! PROOFS. The statements on Loam and the sheets: what stores nothing, the checks of stored bands, the admission gate, late data and the
fetching of descriptors. -/

namespace Sys2Proof.Machine

open Sys2Proof

/-! ### Shared operations that leave the page store, a context or a record as it is -/

@[simp] theorem State.ev_loam (s : State) (f : Fld) (i : Nat) : (s.ev f i).loam = s.loam := State.wr_loam ..

@[simp] theorem State.loam_enqueue (s : State) (p kind unit : Nat) (data : List Nat) : (s.enqueue p kind unit data).loam = s.loam := by
  obtain ⟨o, pc, tk, ds, h⟩ := s.enqueue_eq p kind unit data
  rw [h]

@[simp] theorem State.loam_post (s : State) (kind unit : Nat) (data : List Nat) : (s.post kind unit data).loam = s.loam := by
  unfold State.post
  dsimp only
  split
  · split <;> rfl
  · split
    · exact State.loam_enqueue ..
    · split
      · exact State.wr_loam ..
      · rfl

@[simp] theorem State.loam_broadcast (s : State) (kind : Nat) (data : List Int) : (s.broadcast kind data).loam = s.loam := by
  obtain ⟨o, h⟩ := s.broadcast_eq kind data
  rw [h]

@[simp] theorem State.loam_webStop (s : State) (cause : Nat) : (s.webStop cause).loam = s.loam := by
  unfold State.webStop
  split
  · simp
  · rfl
  · rfl

theorem State.loam_refuse (s : State) (code : Nat) : (s.refuse code).loam = s.loam := State.wr_loam ..

theorem State.loam_verifyIdle (s : State) (b : Band) : (s.verifyIdle b).loam = s.loam := by
  unfold State.verifyIdle
  split
  · rw [State.wr_loam, State.clr_eq, State.wr_loam]
  · rfl

theorem State.loam_endDesc (s : State) (n : Nat) (e : Ending) :
    (s.endDesc n e).loam = { s.loam with held := s.loam.held.filter (· != n) } := State.wr_loam ..

theorem State.loam_compressorIdle (s : State) (l : Nat) : (s.compressorIdle l).loam = s.loam := by
  unfold State.compressorIdle
  dsimp only
  split <;> simp [State.clr_eq]

theorem State.loam_leaveLane (s : State) (n : Nat) : (s.leaveLane n).loam = s.loam := by
  refine foldl_unchanged (g := State.loam) (fun t e => ?_) s.cmp.lanes s
  dsimp only
  rw [State.setLane_loam]
  split
  · exact t.loam_compressorIdle e.1
  · rfl

theorem State.ctx_of_loam {s t : State} (h : t.loam = s.loam) (c : Nat) : t.ctx c = s.ctx c := by rw [State.ctx, h]; rfl

theorem State.band_of_loam {s t : State} (h : t.loam = s.loam) (r : Nat) : t.band r = s.band r := by rw [State.band, h]; rfl

theorem State.SameButRegs.band {s t : State} (h : s.SameButRegs t) (r : Nat) : t.band r = s.band r := State.band_of_loam h.loam r

@[simp] theorem State.ctx_verifyIdle (s : State) (b : Band) (c : Nat) : (s.verifyIdle b).ctx c = s.ctx c :=
  State.ctx_of_loam (s.loam_verifyIdle b) c

/-- One record on the way back to FREE (R84). -/
def State.reclaimOne (s : State) (r : Nat) : State :=
  let t := (s.verifyIdle (s.band r)).setBand r { s.band r with st := .reclaiming, raw := [] }
  { t with loam := { t.loam with reclaim := t.loam.reclaim ++ [r] } }

theorem State.reclaim_eq (s : State) (rs : List Nat) : s.reclaim rs = rs.foldl State.reclaimOne s := rfl

theorem State.loam_reclaimOne (s : State) (r : Nat) : (s.reclaimOne r).loam =
    { (s.setBand r { s.band r with st := .reclaiming, raw := [] }).loam with reclaim := s.loam.reclaim ++ [r] } := by
  simp only [State.reclaimOne, State.setBand, State.loam_verifyIdle]

theorem State.ctx_reclaimOne (s : State) (r c : Nat) : (s.reclaimOne r).ctx c = s.ctx c := by
  rw [State.ctx, State.loam_reclaimOne]; rfl

theorem State.band_reclaimOne (s : State) (r q : Nat) :
    (s.reclaimOne r).band q = if q = r then { s.band r with st := .reclaiming, raw := [] } else s.band q := by
  rw [← State.band_setBand, State.band, State.loam_reclaimOne]
  rfl

@[simp] theorem State.ctx_reclaim (s : State) (rs : List Nat) (c : Nat) : (s.reclaim rs).ctx c = s.ctx c := by
  rw [State.reclaim_eq]
  exact foldl_unchanged (g := fun t => t.ctx c) (fun t r => t.ctx_reclaimOne r c) rs s

@[simp] theorem State.band_toState (s : State) (c : Nat) (st : CtxState) (r : Nat) : (s.toState c st).band r = s.band r := by
  unfold State.toState
  dsimp only
  split
  · exact State.band_wr ..
  · rfl

/-! ### Transfers that wait (R79) -/

/-- WAIT shows what a transfer waits for. -/
theorem State.rd_wait (s : State) (n : Nat) {v : Nat} (hv : v < 8) : (s.wr (.dma .wait) n v).rd (.dma .wait) n = v :=
  (s.rd_wr_same rfl v).trans (Nat.mod_eq_of_lt hv)

/-- A transfer that is held shows WAIT 2, and is in the list of those that wait; beside that list the page store is as before. -/
theorem State.holdFor_spec (s : State) (n : Nat) :
    (s.holdFor n).rd (.dma .wait) n = 2 ∧ n ∈ (s.holdFor n).loam.held ∧ ∃ h, (s.holdFor n).loam = { s.loam with held := h } := by
  have hw : (s.wr (.dma .wait) n 2).rd (.dma .wait) n = 2 := s.rd_wait n (by decide)
  have hl : (s.wr (.dma .wait) n 2).loam = s.loam := State.wr_loam ..
  unfold State.holdFor
  dsimp only
  rw [hl]
  split
  · next h => exact ⟨hw, hl ▸ List.contains_iff_mem.1 h, s.loam.held, hl⟩
  · exact ⟨hw, List.mem_append_right _ (List.mem_singleton_self n), _, rfl⟩

/-! ### Errors that are shown in register fields alone (R70, R123) -/

theorem State.web_wr (s : State) {f : Fld} (h : f ≠ .pth .mode) (i v : Nat) : (s.wr f i v).web = s.web := by
  rw [State.web, State.on_eq, State.rd_wr_ne s fun h' => h (congrArg Prod.fst h').symm]
  rfl

/-- `t` is `s` but for register fields, PTH_CTL.MODE not among them. -/
def State.SameButStatus (s t : State) : Prop := s.SameButRegs t ∧ t.web = s.web

theorem State.SameButStatus.trans {a b c : State} (h : a.SameButStatus b) (g : b.SameButStatus c) : a.SameButStatus c :=
  ⟨h.1.trans g.1, g.2.trans h.2⟩

theorem State.sameButStatus_wr (s : State) {f : Fld} (h : f ≠ .pth .mode) (i v : Nat) : s.SameButStatus (s.wr f i v) :=
  ⟨s.sameButRegs_wr f i v, s.web_wr h i v⟩

theorem State.sameButStatus_ueHit (s : State) (b : Nat) : s.SameButStatus (s.ueHit b) :=
  ((s.sameButStatus_wr (f := .pgs .eccUe) (by decide) ..).trans (State.sameButStatus_wr _ (f := .pgs .eccAddr) (by decide) ..)).trans
    (State.sameButStatus_wr _ (f := .pgs .ueEvent) (by decide) ..)

theorem State.sameButStatus_engineError (s : State) (n code pos : Nat) : s.SameButStatus (s.engineError n code pos) :=
  (((s.sameButStatus_wr (f := .cmp .jErr) (by decide) ..).trans (State.sameButStatus_wr _ (f := .cmp .errpos) (by decide) ..)).trans
    (State.sameButStatus_wr _ (f := .cmp .errEv) (by decide) ..)).trans
    (State.sameButStatus_wr _ (f := .cmp .jState) (by decide) ..)

/-! ### Commands that store nothing (O20: R69, R96) -/

/-- Settles O20: every command outside `writesStore` keeps the bytes of the page store; the fuse command does so besides its fuses. -/
theorem otherCommandsStoreNothing : Obligations.OtherCommandsStoreNothing := by
  intro i s t hw e a
  have hb : t.loam.bytes = s.loam.bytes := by
    by_cases hf : ∃ b, i = .fuseCommandDone b
    · obtain ⟨b, rfl⟩ := hf
      exact (execFuseCommandDone_keeps b e).bytes rfl
    · exact (exec_keeps_bytes (fun b hb => hf ⟨b, hb⟩) hw e).bytes rfl
  rw [State.byte, State.byte, hb]

/-! ### The scrub (O21: R71, R471) -/

theorem exec_scrubTick {s : State} {ups : List Upset} (hu : s.hw.upsOk ups = true) :
    exec (.scrubTick ups) s = .next (scrubTick ups s) := by
  show guardWF (s.hw.upsOk ups) _ = _
  rw [hu]; rfl

/-- The bursts of group `g` under the scrub, one after the other. -/
def State.scrubGroup (s : State) (g : Nat) : State := (List.range 31).foldl (fun t i => t.scrubBurst (31 * g + i)) s

/-- The group behind the one that the scrub reads next. -/
def State.nextGroup (s : State) : Nat := if s.loam.scrub + 1 = s.hw.extents * 32 then 0 else s.loam.scrub + 1

theorem State.hw_scrubGroup (s : State) (g : Nat) : (s.scrubGroup g).hw = s.hw :=
  ((Keeps.refl (m := false) s).foldl fun _ _ h => State.scrubBurst_keeps h _).hw

theorem scrubTick_on {s : State} (hm : s.up .mem = true) (he : s.on (.pgs .scrubEn) = true) (ups : List Upset) :
    scrubTick ups s = { (s.upset ups).scrubGroup s.loam.scrub with
      loam := { ((s.upset ups).scrubGroup s.loam.scrub).loam with scrub := s.nextGroup } } := by
  obtain ⟨e, hup⟩ := s.upset_eq ups
  have hhw : ((s.upset ups).scrubGroup s.loam.scrub).hw = s.hw := by rw [State.hw_scrubGroup, hup]
  unfold scrubTick
  rw [if_pos (by simp [hm, he]), State.nextGroup, ← hhw]
  unfold State.scrubGroup
  rfl

theorem scrubTick_off {s : State} (h : s.up .mem = false ∨ s.on (.pgs .scrubEn) = false) (ups : List Upset) : scrubTick ups s = s := by
  obtain h | h := h <;> simp [scrubTick, h]

theorem State.scrubBurst_of_none {s : State} {b : Nat} (h : s.ecc b = .none) : s.scrubBurst b = s := by
  simp only [State.scrubBurst, h]

theorem State.scrubBurst_of_single {s : State} {b : Nat} (h : s.ecc b = .single) :
    s.scrubBurst b = (s.countBy (.pgs .eccCe) 0 2).setEcc b .none := by
  simp only [State.scrubBurst, h]

/-- A group without stored errors stays as it is. -/
theorem State.scrubGroup_of_no_marks {s : State} (h : s.loam.ecc = []) (g : Nat) : s.scrubGroup g = s := by
  have hb (b : Nat) : s.scrubBurst b = s := State.scrubBurst_of_none (by rw [State.ecc, h]; rfl)
  unfold State.scrubGroup
  induction List.range 31 with
  | nil => rfl
  | cons i l ih => rw [List.foldl_cons, hb, ih]

theorem State.ecc_setEcc_same (s : State) (b : Nat) (e : EccMark) : (s.setEcc b e).ecc b = e := by
  unfold State.ecc State.setEcc
  exact Store.get_set_same ..

/-- A single-bit error is written back, and counts for the read and for the corrected burst (R471). -/
theorem State.scrubBurst_single_spec {s : State} {b : Nat} (h : s.ecc b = .single) :
    (s.scrubBurst b).ecc b = .none ∧ (s.scrubBurst b).rd (.pgs .eccCe) = min (2 ^ 32 - 1) (s.rd (.pgs .eccCe) + 2) ∧
      (s.scrubBurst b).loam.bytes = s.loam.bytes := by
  refine ⟨?_, ?_, (State.scrubBurst_keeps (.refl s) b).bytes rfl⟩
  · rw [State.scrubBurst_of_single h, State.ecc_setEcc_same]
  · rw [State.scrubBurst_of_single h]
    show (s.countBy (.pgs .eccCe) 0 2).rd (.pgs .eccCe) = _
    rw [State.countBy_eq, State.rd_wr_same s rfl]
    exact Nat.mod_eq_of_lt (by show min (2 ^ 32 - 1) _ < 2 ^ 32; omega)

/-! ### The end of the band checks (O21: R77, R82, R125) -/

theorem State.sameButRegs_verifyBand (s : State) (b : Band) : s.SameButRegs (s.verifyBand b).2 := by
  unfold State.verifyBand
  extract_lets n v counted met shown
  have hc : s.SameButRegs counted := s.sameButRegs_wr (.pgs .eccCe) 0 _
  have hm : counted.SameButRegs met := by
    unfold met
    split
    · exact counted.sameButRegs_ueHit _
    · exact .refl _
  have hs : met.SameButRegs shown := (met.sameButRegs_wr ..).trans (State.sameButRegs_wr ..)
  refine (hc.trans (hm.trans hs)).trans ?_
  dsimp only
  split
  · exact shown.sameButRegs_wr ..
  · exact (shown.sameButStatus_engineError ..).1.trans (State.sameButRegs_count ..)

/-- What the verify decompressor of an EX4-L finds; an EX4-S has none (R135). -/
def State.verdict (s : State) (b : Band) : Nat × State := if s.hw.exL then s.verifyBand b else (0, s)

theorem State.sameButRegs_verdict (s : State) (b : Band) : s.SameButRegs (s.verdict b).2 := by
  unfold State.verdict
  split
  · exact s.sameButRegs_verifyBand b
  · exact .refl s

/-- The CAUSE with which the checks of a band end; 0 if all pass. -/
def State.checkCause (s : State) (b : Band) : Nat :=
  if b.crcIn ≠ b.check then 2 else if b.cut = true then 4
    else if s.hw.exL = true then verifyCause (s.verifyBand b).1 else 0

theorem State.checkCause_eq (s : State) (b : Band) :
    s.checkCause b = if b.crcIn ≠ b.check then 2 else if b.cut then 4 else verifyCause (s.verdict b).1 := by
  unfold State.checkCause State.verdict
  cases s.hw.exL <;> rfl

section BandVerified

variable {s : State} {r : Nat}

theorem bandVerified_idle (h : s.up .mem = false ∨ (s.band r).st ≠ .checking) : bandVerified r s = s := by
  obtain h | h := h <;> simp [bandVerified, h]

variable (hm : s.up .mem = true) (hst : (s.band r).st = .checking)

include hm hst

theorem bandVerified_passes (h : s.checkCause (s.band r) = 0) :
    bandVerified r s = (s.verdict (s.band r)).2.bandGood r (leAt (s.stored (s.band r)) ((s.band r).storedLen - 4) 4) := by
  rw [State.checkCause_eq] at h
  unfold bandVerified
  dsimp only
  rw [if_pos (by simp [hm, hst]), ← State.verdict, if_pos h]

theorem bandVerified_fails (h : s.checkCause (s.band r) ≠ 0) :
    bandVerified r s = (s.verdict (s.band r)).2.bandBad r .failed (s.checkCause (s.band r)) := by
  rw [State.checkCause_eq] at h ⊢
  unfold bandVerified
  dsimp only
  rw [if_pos (by simp [hm, hst]), ← State.verdict, if_neg h]

end BandVerified

theorem exec_bandVerified {r : Nat} (hr : r < 131072) (s : State) : exec (.bandVerified r) s = .next (bandVerified r s) := by
  show guardWF (decide (r < 131072)) _ = _
  rw [decide_eq_true hr]; rfl

/-! ### A band that fails (O21: R82, R97) -/

theorem Ctx.st_fault (x : Ctx) (b p : Nat) : (x.fault b p).st = x.st := by
  unfold Ctx.fault
  split <;> rfl

theorem State.ctx_block (s : State) (c cause : Nat) :
    (s.block c cause).ctx c = { s.ctx c with cause := cause, st := .blocked } := by
  rw [State.block, State.ctx_toState, State.ctx_setCtx_same]

theorem State.band_block (s : State) (c cause r : Nat) : (s.block c cause).band r = s.band r := State.band_toState ..

/-- The context of a band that has not been VERIFIED notes the failure. -/
theorem State.ctx_failRecord {s : State} {r : Nat} (h : (s.band r).st ≠ .verified) :
    (s.failRecord r).ctx (s.band r).ctx = (s.ctx (s.band r).ctx).fault (s.band r).band (s.band r).plane := by
  unfold State.failRecord
  dsimp only
  rw [if_neg (by simpa using h), State.ctx_setBand, State.ctx_setCtx_same]

/-- A context that a failed band blocks: it is neither admitted nor blocked yet (R82). -/
def Ctx.blockable (x : Ctx) : Prop := x.st = .opened ∨ x.st = .closed ∨ x.st = .ready

section BandBad

variable {s : State} {r : Nat} (st : BandState) (cause : Nat)

/-- The record of the failed band, and its context before it may be blocked. -/
def State.bandMarked (s : State) (r : Nat) (st : BandState) : State :=
  ((s.verifyIdle (s.band r)).failRecord r).setBand r { s.band r with st := st, raw := [] }

theorem State.bandBad_cases (s : State) (r : Nat) (st : BandState) (cause : Nat) :
    s.bandBad r st cause = (s.bandMarked r st).block (s.band r).ctx cause ∨
      s.bandBad r st cause = s.bandMarked r st ∧ ¬((s.bandMarked r st).ctx (s.band r).ctx).blockable := by
  unfold State.bandBad Ctx.blockable
  extract_lets b marked
  split
  · exact .inl rfl
  · exact .inl rfl
  · exact .inl rfl
  · next h1 h2 h3 => exact .inr ⟨rfl, by rintro (h | h | h); exacts [h1 h, h2 h, h3 h]⟩

theorem State.band_bandBad : ((s.bandBad r st cause).band r).st = st := by
  have hb : (s.bandMarked r st).band r = { s.band r with st := st, raw := [] } := State.band_setBand_same ..
  obtain h | ⟨h, -⟩ := s.bandBad_cases r st cause
  · rw [h, State.band_block, hb]
  · rw [h, hb]

theorem State.ctx_bandBad (h : (s.band r).st ≠ .verified) (hb : (s.ctx (s.band r).ctx).blockable) :
    (s.bandBad r st cause).ctx (s.band r).ctx =
      { (s.ctx (s.band r).ctx).fault (s.band r).band (s.band r).plane with cause := cause, st := .blocked } := by
  have hx : (s.bandMarked r st).ctx (s.band r).ctx = (s.ctx (s.band r).ctx).fault (s.band r).band (s.band r).plane := by
    have hv : (s.verifyIdle (s.band r)).band r = s.band r := State.band_of_loam (s.loam_verifyIdle _) r
    have hf := State.ctx_failRecord (s := s.verifyIdle (s.band r)) (r := r) (by rwa [hv])
    rw [hv, State.ctx_verifyIdle] at hf
    rw [State.bandMarked, State.ctx_setBand, hf]
  obtain e | ⟨-, hn⟩ := s.bandBad_cases r st cause
  · rw [e, State.ctx_block, hx]
  · rw [hx] at hn
    exact absurd hb (by simpa only [Ctx.blockable, Ctx.st_fault] using hn)

end BandBad

theorem Ctx.fault_of_not_faulted {x : Ctx} (h : x.faulted = false) (b p : Nat) :
    x.fault b p = { x with faultBand := b, faultPlane := p, faulted := true } := by simp [Ctx.fault, h]

/-! ### A band that passes (O21: R76, R82) -/

/-- One more band of a plane is VERIFIED. -/
def Ctx.countBand (x : Ctx) (p : Nat) : Ctx := { x with verified := x.verified.modify p (· + 1) }

/-- A band that passes is VERIFIED and counts; the last one of a CLOSED context makes it READY. -/
theorem State.bandGood_spec (s : State) (r crc : Nat) :
    ((s.bandGood r crc).band r).st = .verified ∧
      ((s.bandGood r crc).ctx (s.band r).ctx).verified = ((s.ctx (s.band r).ctx).countBand (s.band r).plane).verified ∧
      ((s.ctx (s.band r).ctx).st = .closed → ((s.bandGood r crc).ctx (s.band r).ctx).st =
        if ((s.ctx (s.band r).ctx).countBand (s.band r).plane).complete then .ready else .closed) := by
  unfold State.bandGood
  extract_lets b stored x y counted
  have hs : stored.band r = { b with st := .verified, crc := crc, raw := [] } := State.band_setBand_same s r _
  have hb : counted.band r = { b with st := .verified, crc := crc, raw := [] } := hs
  have hc : counted.ctx b.ctx = y := State.ctx_setCtx_same ..
  have hy : y = (s.ctx b.ctx).countBand b.plane := rfl
  have hst : y.st = (s.ctx b.ctx).st := rfl
  rw [← hy, ← hst]
  split
  · next h =>
    obtain ⟨-, hcomp⟩ := Bool.and_eq_true_iff.1 h
    rw [State.band_toState, State.ctx_toState, hb, hc, if_pos hcomp]
    exact ⟨rfl, rfl, fun _ => rfl⟩
  · next h =>
    split
    · next h' =>
      have hs : y.st = .stalled := by simpa using (Bool.and_eq_true_iff.1 h').1
      rw [State.band_toState, State.ctx_toState, State.band_setCtx, hb, State.ctx_setCtx_same]
      exact ⟨rfl, rfl, fun hcl => absurd (hs.symm.trans hcl) (by decide)⟩
    · rw [hb, hc]
      exact ⟨rfl, rfl, fun hcl => by rw [if_neg fun hcomp => h (by simp [hcl, hcomp]), hcl]⟩

/-! ### LOAM_DEADLOCK_TIMEOUT (O21: R79) -/

theorem exec_loamDeadlockTimeout {ch : Nat} (h : ch < 32) (s : State) :
    exec (.loamDeadlockTimeout ch) s = .next (loamDeadlock ch s) := by
  show guardWF (decide (ch < 32)) _ = _
  rw [decide_eq_true h]; rfl

/-! ### Space that is given back (O21: R84) -/

/-- Record `r` is as it was in `a`, and the reclaim queue has at most grown at its end. -/
structure Spares (r : Nat) (a s : State) : Prop where
  band : s.band r = a.band r
  reclaim : a.loam.reclaim <+: s.loam.reclaim

section Spares

variable {r : Nat} {a s : State}

theorem Spares.refl (r : Nat) (a : State) : Spares r a a := ⟨rfl, List.prefix_refl _⟩

theorem Spares.of_loam (h : Spares r a s) {t : State} (hb : t.loam.bands = s.loam.bands) (hr : t.loam.reclaim = s.loam.reclaim) :
    Spares r a t :=
  ⟨(show t.band r = s.band r by rw [State.band, hb]; rfl).trans h.band, hr ▸ h.reclaim⟩

theorem Spares.same_loam (h : Spares r a s) {t : State} (e : t.loam = s.loam) : Spares r a t := h.of_loam (e ▸ rfl) (e ▸ rfl)

theorem Spares.wr (h : Spares r a s) (f : Fld) (i v : Nat) : Spares r a (s.wr f i v) := h.same_loam (State.wr_loam ..)

theorem Spares.setCtx (h : Spares r a s) (c : Nat) (x : Ctx) : Spares r a (s.setCtx c x) := h.of_loam rfl rfl

theorem Spares.setBand (h : Spares r a s) {q : Nat} (hq : r ≠ q) (b : Band) : Spares r a (s.setBand q b) :=
  ⟨by rw [State.band_setBand, if_neg hq]; exact h.band, h.reclaim⟩

theorem Spares.foldl {α : Type} {f : State → α → State} (h : Spares r a s) (hf : ∀ t x, Spares r a t → Spares r a (f t x))
    (l : List α) : Spares r a (l.foldl f s) := by
  induction l generalizing s with
  | nil => exact h
  | cons x l ih => exact ih (hf _ x h)

theorem Spares.toState (h : Spares r a s) (c : Nat) (st : CtxState) : Spares r a (s.toState c st) := by
  unfold State.toState
  dsimp only
  split
  · rw [State.ev_eq]
    exact (h.setCtx ..).wr ..
  · exact h.setCtx ..

theorem Spares.verifyIdle (h : Spares r a s) (b : Band) : Spares r a (s.verifyIdle b) := h.same_loam (s.loam_verifyIdle b)

theorem Spares.reclaimOne (h : Spares r a s) {q : Nat} (hq : r ≠ q) : Spares r a (s.reclaimOne q) := by
  refine ⟨by rw [State.band_reclaimOne, if_neg hq]; exact h.band, ?_⟩
  rw [State.loam_reclaimOne]
  exact h.reclaim.trans (List.prefix_append ..)

theorem Spares.failRecord (h : Spares r a s) {q : Nat} (hq : r ≠ q) : Spares r a (s.failRecord q) := by
  unfold State.failRecord
  exact (h.setCtx ..).setBand hq _

theorem Spares.bandBad (h : Spares r a s) {q : Nat} (hq : r ≠ q) (st : BandState) (cause : Nat) :
    Spares r a (s.bandBad q st cause) := by
  have hm : Spares r a (s.bandMarked q st) := ((h.verifyIdle _).failRecord hq).setBand hq _
  obtain e | ⟨e, -⟩ := s.bandBad_cases q st cause
  · rw [e]
    exact (hm.setCtx ..).toState ..
  · rw [e]
    exact hm

theorem Spares.leaveLane (h : Spares r a s) (n : Nat) : Spares r a (s.leaveLane n) := h.same_loam (s.loam_leaveLane n)

theorem Spares.endDesc (h : Spares r a s) (n : Nat) (e : Ending) : Spares r a (s.endDesc n e) :=
  h.of_loam (by rw [State.loam_endDesc]) (by rw [State.loam_endDesc])

theorem Spares.freeCtx (h : Spares r a s) (c : Nat) : Spares r a (s.freeCtx c) := by
  refine .wr ?_ ..
  unfold State.dropHostOk
  split <;> exact h.of_loam rfl rfl

theorem Spares.holdFor (h : Spares r a s) (n : Nat) : Spares r a (s.holdFor n) := by
  obtain ⟨-, -, l, e⟩ := s.holdFor_spec n
  exact h.of_loam (e ▸ rfl) (e ▸ rfl)

theorem Spares.writeStream (h : Spares r a s) (es : List Nat) (o : Nat) (l : List Byte) : Spares r a (s.writeStream es o l) := by
  have hw (t : State) (x : Nat) (d : List Byte) (ht : Spares r a t) : Spares r a (t.writeLoam x d) := by
    refine ht.foldl (fun u b hu => ?_) _
    obtain ⟨e, g, he⟩ := u.writeBurst_eq b.1 b.2
    exact hu.of_loam (he ▸ rfl) (he ▸ rfl)
  refine h.foldl (fun t x ht => ?_) _
  dsimp only
  split
  · exact hw t _ _ ht
  · exact ht

theorem Spares.closeBand (h : Spares r a s) {q : Nat} (hq : r ≠ q) (n : Nat) (data : List Byte) (cut : Bool) :
    Spares r a (s.closeBand n q data cut) := by
  unfold State.closeBand
  extract_lets b marked x peaked
  have hm : Spares r a marked := h.setBand hq _
  have hp : Spares r a peaked := hm.setCtx ..
  refine .endDesc ?_ ..
  have hw : Spares r a ((peaked.leaveLane n).wr (.cmp .jState) b.lane 5) := (hp.leaveLane n).wr ..
  unfold State.verifyStart
  split
  · exact hw.bandBad hq ..
  · split
    · exact ((hw.wr ..).wr ..).wr ..
    · exact hw

variable (hfree : (a.band r).st = .free)

include hfree

theorem Spares.ne_of_used (h : Spares r a s) {q : Nat} (hq : (s.band q).st ≠ .free) : r ≠ q := by
  rintro rfl
  exact hq (h.band ▸ hfree)

/-- An abandoned band is FILLING or INCOMPLETE, so it is not a FREE record. -/
theorem Spares.abandonBand (h : Spares r a s) (n : Nat) : Spares r a (s.abandonBand n) := by
  unfold State.abandonBand
  extract_lets c t
  have ht : Spares r a t := (h.leaveLane n).of_loam rfl rfl
  split
  · exact ht
  · next q _ =>
    dsimp only
    split
    · next hst => exact ht.bandBad (ht.ne_of_used hfree (by simp [eq_of_beq hst])) ..
    · split
      · next hst =>
        have hst : (t.band q).st = .incomplete := eq_of_beq (Bool.and_eq_true_iff.1 hst).1
        have hr : Spares r a (t.reclaim [q]) := ht.reclaimOne (ht.ne_of_used hfree (by simp [hst]))
        split
        · exact hr.freeCtx _
        · exact hr
      · exact ht

/-- A held transfer goes on in a FILLING record, so it leaves a FREE one alone. -/
theorem Spares.fillBand (h : Spares r a s) (n : Nat) : Spares r a (s.fillBand n) := by
  unfold State.fillBand
  extract_lets c
  split
  · next q d _ _ =>
    extract_lets b all full stream ready es fits begun written going
    split
    · split
      · exact (h.endDesc ..).abandonBand hfree n
      · exact h
    · split
      · split
        · exact (h.leaveLane n).endDesc ..
        · exact h
      · next hst =>
        have hfill : (s.band q).st = .filling := by simpa [b] using hst
        have hq : r ≠ q := h.ne_of_used hfree (by simp [hfill])
        split
        · exact (h.endDesc ..).abandonBand hfree n
        · have hw : Spares r a written := ((h.setBand hq _).writeStream ..).wr ..
          split
          · exact (hw.holdFor n).wr ..
          · have hg : Spares r a going := ((hw.of_loam rfl rfl : Spares r a (written.unhold n)).wr ..).wr ..
            split
            · exact hg.closeBand hq ..
            · exact hg
  · split
    · exact (h.leaveLane n).endDesc ..
    · exact h
  · exact h

theorem Spares.retryHeld (h : Spares r a s) : Spares r a s.retryHeld := by
  refine h.foldl (fun t n ht => ?_) _
  split
  · exact ht.fillBand hfree n
  · exact ht

end Spares

/-- The first record of the reclaim queue is FREE again, before held transfers try again. -/
def State.freed (s : State) (r : Nat) (rest : List Nat) : State :=
  ({ s with loam := { s.loam with reclaim := rest } } : State).setBand r {}

theorem exec_bandReclaimDone {s : State} (hm : s.up .mem = true) {r : Nat} {rest : List Nat} (h : s.loam.reclaim = r :: rest) :
    exec .bandReclaimDone s = .next (s.freed r rest).retryHeld := by
  show Host.Outcome.next (bandReclaimDone s) = _
  simp only [bandReclaimDone, hm, h]
  rfl

theorem exec_bandReclaimDone_none {s : State} (h : s.loam.reclaim = []) : exec .bandReclaimDone s = .next s := by
  show Host.Outcome.next (bandReclaimDone s) = _
  simp [bandReclaimDone, h]

theorem State.freed_retryHeld_spec (s : State) (r : Nat) (rest : List Nat) :
    (s.freed r rest).retryHeld.band r = {} ∧ rest <+: (s.freed r rest).retryHeld.loam.reclaim := by
  have hb : (s.freed r rest).band r = {} := State.band_setBand_same ..
  obtain ⟨hband, hrest⟩ := (Spares.refl r (s.freed r rest)).retryHeld (by rw [hb])
  exact ⟨hband.trans hb, hrest⟩

theorem State.retryHeld_of_none {s : State} (h : s.loam.held = []) : s.retryHeld = s := by
  rw [State.retryHeld, h]; rfl

/-- Settles O21: the scrub by its bursts, a band by the outcome of its checks, and space by what a held transfer may touch. -/
theorem storeIsChecked : Obligations.StoreIsChecked := by
  refine ⟨fun s => ⟨fun ups hu hm he => ⟨_, exec_scrubTick hu, (scrubTick_keeps (.refl s) ups).bytes rfl, ?_⟩, fun hm he hecc => ?_,
    fun ups hu h => ?_, fun b h => State.scrubBurst_single_spec h, fun b h => State.scrubBurst_of_none h⟩,
    fun s r hr => ⟨fun cause hm hst hcause => ?_, fun h => ?_⟩,
    fun s hm => ⟨fun ch hch hheld hl => ?_, fun ch e hch he hl => ?_, fun ch hch hheld => ?_, fun r rest h => ?_,
      fun h => exec_bandReclaimDone_none h⟩⟩
  · rw [scrubTick_on hm he]; rfl
  · rw [exec_scrubTick rfl, scrubTick_on hm he, show s.upset [] = s from rfl, State.scrubGroup_of_no_marks hecc]; rfl
  · rw [exec_scrubTick hu, scrubTick_off h]
  · rw [exec_bandVerified hr]
    have hc : s.checkCause (s.band r) = cause := hcause
    have hv := s.sameButRegs_verdict (s.band r)
    have hbytes : (bandVerified r s).loam.bytes = s.loam.bytes := (bandVerified_keeps (.refl s) r).bytes rfl
    refine ⟨fun h0 => ⟨_, rfl, ?_, hbytes, fun hx => ?_⟩, fun h0 => ⟨_, rfl, ?_⟩⟩
    · rw [bandVerified_fails hm hst (hc ▸ h0)]
      exact State.band_bandBad ..
    · have hctx := State.ctx_bandBad (s := (s.verdict (s.band r)).2) (r := r) .failed cause
        (by rw [hv.band, hst]; decide) (by rw [hv.band, hv.ctx]; exact hx)
      rw [hv.band, hv.ctx] at hctx
      rw [bandVerified_fails hm hst (hc ▸ h0), hc, hctx]
      exact ⟨rfl, rfl, fun hf => by rw [Ctx.fault_of_not_faulted hf]; exact ⟨rfl, rfl⟩⟩
    · obtain ⟨hband, hver, hst'⟩ := (s.verdict (s.band r)).2.bandGood_spec r (leAt (s.stored (s.band r)) ((s.band r).storedLen - 4) 4)
      rw [hv.band, hv.ctx] at hver hst'
      rw [← bandVerified_passes hm hst (hc ▸ h0)] at hband hver hst'
      exact ⟨hband, hbytes, hver, hst'⟩
  · rw [exec_bandVerified hr, bandVerified_idle h]
  · have hl' : (s.loam.ctxs.any fun e => e.2.live) = false := List.any_eq_false.2 fun e he => by simp [hl e he]
    rw [exec_loamDeadlockTimeout hch, loamDeadlock, hm, hheld, hl']; rfl
  · have hl' : (s.loam.ctxs.any fun e => e.2.live) = true := List.any_eq_true.2 ⟨e, he, hl⟩
    rw [exec_loamDeadlockTimeout hch, loamDeadlock, hl', if_neg (by simp)]
  · rw [exec_loamDeadlockTimeout hch, loamDeadlock, hheld, if_neg (by simp)]
  · obtain ⟨hband, hrest⟩ := s.freed_retryHeld_spec r rest
    refine ⟨_, exec_bandReclaimDone hm h, hband, hrest, fun hheld => ?_⟩
    rw [State.retryHeld_of_none (s := s.freed r rest) hheld]
    exact ⟨rfl, fun q hq => (State.band_setBand ..).trans (if_neg hq), rfl, rfl⟩

/-! ### The gate's conditions (O22: R85 to R87) -/

section GateRefusal

variable {s : State}

theorem State.gateRefusal_of_closed (h : (s.ldr.st != .armed || s.recordAt 3 || s.cores.haltedA || s.cores.haltedB) = true) :
    s.gateRefusal = 1 := if_pos h

theorem State.gateRefusal_of_not_armed (h : s.ldr.st ≠ .armed) : s.gateRefusal = 1 :=
  State.gateRefusal_of_closed (by simp [h])

variable (hopen : s.gateRefusal ≠ 1)

include hopen

theorem State.gate_open_of_gateRefusal : s.ldr.st = .armed ∧ s.recordAt 3 = false := by
  have h : ¬(s.ldr.st != .armed || s.recordAt 3 || s.cores.haltedA || s.cores.haltedB) = true := fun h =>
    hopen (State.gateRefusal_of_closed h)
  simp only [Bool.or_eq_true, not_or, bne_iff_ne, not_not, Bool.not_eq_true] at h
  obtain ⟨⟨⟨ha, hr⟩, -⟩, -⟩ := h
  exact ⟨ha, hr⟩

theorem State.gateRefusal_of_no_head (hh : s.head = none) : s.gateRefusal = 6 := by
  have h := fun h => hopen (State.gateRefusal_of_closed h)
  rw [State.gateRefusal, if_neg h, hh]

/-- With a head the conditions of R85, R86 and R87 follow in the order of ADM_REFUSE. -/
theorem State.gateRefusal_of_head {c : Nat} (hh : s.head = some c) :
    s.gateRefusal = if (s.ctx c).st ≠ .ready then 5 else if (s.decPlan (s.ctx c)).isNone then 2
      else if s.rd (.pgs .loamBudget) * 512000000 < s.memDemand512 (some (s.ctx c)) then 3 else 0 := by
  have h := fun h => hopen (State.gateRefusal_of_closed h)
  rw [State.gateRefusal, if_neg h, hh]
  simp [State.memFits]

end GateRefusal

/-- What the gate has seen when it passes. -/
theorem State.gate_passed {s : State} (h : s.gateRefusal = 0) :
    ∃ c, s.head = some c ∧ s.ldr.st = .armed ∧ s.recordAt 3 = false ∧ (s.ctx c).st = .ready ∧
      (s.decPlan (s.ctx c)).isSome = true ∧ s.memDemand512 (some (s.ctx c)) ≤ s.rd (.pgs .loamBudget) * 512000000 := by
  have hopen : s.gateRefusal ≠ 1 := by omega
  obtain ⟨ha, hr⟩ := State.gate_open_of_gateRefusal hopen
  cases hh : s.head with
  | none => exact absurd (State.gateRefusal_of_no_head hopen hh) (by omega)
  | some c =>
    rw [State.gateRefusal_of_head hopen hh] at h
    refine ⟨c, rfl, ha, hr, ?_⟩
    split at h
    · cases h
    · next hst =>
      split at h
      · cases h
      · next hp =>
        split at h
        · cases h
        · next hm => exact ⟨not_not.1 hst, by simpa [Option.isSome_iff_ne_none] using hp, Nat.not_lt.1 hm⟩

/-! ### What the gate does (O22: R82, R85, R88, R90) -/

theorem State.rd_settleGate (s : State) {f : Fld} (h1 : f ≠ .pgs .decAssign) (h2 : f ≠ .pgs .reservedBw) (i : Nat) :
    s.settleGate.rd f i = s.rd f i := by
  refine (State.rd_wr_ne _ (fun h => h2 (congrArg Prod.fst h)) _).trans ?_
  refine foldl_unchanged (g := fun t => t.rd f i) (fun t k => ?_) _ s
  split
  · rfl
  · exact t.rd_wr_ne (fun h => h1 (congrArg Prod.fst h)) _

theorem State.toState_exposed (s : State) (c : Nat) : s.toState c .exposed = s.setCtx c { s.ctx c with st := .exposed } := rfl

/-- An admission answers the request, and ADM_REFUSE says that the gate has passed (R85, R88). -/
theorem State.admitCtx_answers (s : State) (c : Nat) :
    (s.admitCtx c).loam.request = false ∧ (s.admitCtx c).rd (.pgs .admRefuse) = 0 := by
  unfold State.admitCtx
  extract_lets x plan assigned admitted queued l passed closed w framed exposed
  have hc : closed.loam.request = false ∧ closed.rd (.pgs .admRefuse) = 0 :=
    ⟨congrArg Loam.request (State.loam_refuse passed 0), State.rd_refuse passed (code := 0) (by decide)⟩
  have hf : framed.loam.request = closed.loam.request ∧ framed.rd (.pgs .admRefuse) = closed.rd (.pgs .admRefuse) := by
    unfold framed
    split <;> exact ⟨rfl, rfl⟩
  have he : exposed.loam.request = framed.loam.request ∧ exposed.rd (.pgs .admRefuse) = framed.rd (.pgs .admRefuse) := by
    unfold exposed
    split
    · rw [State.toState_exposed]
      exact ⟨State.setCtx_loam_request .., State.rd_setCtx ..⟩
    · exact ⟨rfl, rfl⟩
  rw [exposed.sameButRegs_settleGate.loam, exposed.rd_settleGate (by decide) (by decide), he.1, he.2, hf.1, hf.2]
  exact hc

/-- A post that finds a route and room enters its pair. -/
theorem State.post_of_room {s : State} {kind p : Nat} (hr : s.routeOf kind = some p) (hl : (s.posts p).length < 32) (unit : Nat)
    (data : List Nat) : s.post kind unit data = s.enqueue p kind unit data := by
  simp [State.post, hr, hl]

/-- The head has been withheld, or may be posted (again). -/
def State.setWithheld (s : State) (w : Bool) : State := { s with loam := { s.loam with withheld := w } }

/-- The state in which ADMISSION_GATE_EVALUATE looks at the gate: in web mode the request stands, so that a head which was withheld
may be posted again (log 23). -/
def State.asked (s : State) : State := if s.web && s.loam.request then s.setWithheld false else s

theorem admissionGateEvaluate_eq {s : State} (hm : s.up .mem = true) : admissionGateEvaluate s = s.asked.gate := by
  unfold admissionGateEvaluate State.asked
  rw [hm, apply_ite State.gate]
  rfl

theorem State.asked_eq (s : State) : ∃ w, s.asked = s.setWithheld w := by
  unfold State.asked
  split
  · exact ⟨false, rfl⟩
  · exact ⟨_, rfl⟩

theorem State.asked_of_sheets {s : State} (h : s.web = false) : s.asked = s := by simp [State.asked, h]

theorem State.asked_postable {s : State} (hq : s.loam.request = true) (h : s.loam.withheld = false ∨ s.web = true) :
    s.asked = s.setWithheld false := by
  by_cases hw : s.web = true
  · simp [State.asked, hw, hq]
  · rw [State.asked_of_sheets (by simpa using hw), State.setWithheld, ← h.resolve_right hw]

section Gate

variable {s : State}

theorem State.gate_unasked (h : s.loam.request = false) : s.gate = s := by simp [State.gate, h]

variable (hq : s.loam.request = true)

include hq

theorem State.gate_refuses (h : s.gateRefusal ≠ 0) : s.gate = s.refuse s.gateRefusal := by simp [State.gate, hq, h]

variable {c : Nat} (h0 : s.gateRefusal = 0) (hh : s.head = some c)

include h0 hh

theorem State.gate_passes (h : s.on (.pgs .admMode) = false ∨ s.loam.hostOk = some c) : s.gate = s.passGate c := by
  obtain h | h := h <;> simp [State.gate, hq, h0, hh, h]

theorem State.gate_asks_host (hm : s.on (.pgs .admMode) = true) (hn : s.loam.hostOk ≠ some c) :
    s.gate = if s.loam.withheld || s.decisionOpen 1 c then s else s.post 1 c (s.ctx c).admitData := by
  simp [State.gate, hq, h0, hh, hm, hn]

end Gate

theorem State.passGate_of_no_master {s : State} (h : s.cslRole ≠ 1) (c : Nat) : s.passGate c = s.admitCtx c := if_neg h

theorem exec_admissionGateEvaluate {s : State} (hm : s.up .mem = true) : exec .admissionGateEvaluate s = .next s.asked.gate := by
  rw [← admissionGateEvaluate_eq hm]; rfl

/-- Settles O22: the outcomes of `gate` for the state in which the gate is asked, and its conditions in their order. -/
theorem gateEvaluates : Obligations.GateEvaluates := by
  refine ⟨fun s hm => ?_, fun s => ⟨State.gate_passed, State.gateRefusal_of_not_armed, State.gateRefusal_of_no_head,
    fun c hopen hh => ?_⟩⟩
  · rw [exec_admissionGateEvaluate hm]
    obtain ⟨w, hw⟩ := s.asked_eq
    refine ⟨fun hq => ?_, fun hq hr => ⟨_, rfl, ?_⟩, fun c hq h0 hh hp hrole => ⟨_, rfl, ?_⟩,
      fun c p hq h0 hh hmode hok hwh hopen hroute hlen => ?_, fun c hweb hq h0 hh hmode hok hwh => ?_⟩
    · have ha : s.asked = s := by simp [State.asked, hq]
      rw [ha, State.gate_unasked hq]
    · rw [hw, State.gate_refuses (s := s.setWithheld w) hq hr]
      exact ⟨State.rd_refuse _ s.gateRefusal_lt, by rw [State.loam_refuse]; rfl, fun f i hne => State.rd_wr_ne _ hne _⟩
    · rw [hw, State.gate_passes (s := s.setWithheld w) hq h0 hh hp, State.passGate_of_no_master (s := s.setWithheld w) hrole]
      obtain ⟨hx, -⟩ := (s.setWithheld w).admitCtx_spec c
      obtain ⟨hreq, href⟩ := (s.setWithheld w).admitCtx_answers c
      exact ⟨by rw [hx], by rw [hx]; rfl, by rw [hx]; rfl, hreq, href⟩
    · have hpost : s.asked.gate = (s.setWithheld false).enqueue p 1 c (s.ctx c).admitData := by
        rw [State.asked_postable hq hwh, State.gate_asks_host (s := s.setWithheld false) hq h0 hh hmode hok, if_neg]
        · exact State.post_of_room (s := s.setWithheld false) hroute hlen ..
        · show ¬(false || s.decisionOpen 1 c) = true
          simp [hopen]
      refine ⟨_, (s.setWithheld false).nextPost p 1 c (s.ctx c).admitData, congrArg _ hpost, ?_⟩
      rw [State.posts_enqueue, if_pos rfl, State.loam_enqueue]
      exact ⟨rfl, rfl, rfl, rfl, rfl⟩
    · rw [State.asked_of_sheets hweb, State.gate_asks_host hq h0 hh hmode hok, if_pos (by simpa using hwh)]
  · have h := State.gateRefusal_of_head hopen hh
    refine ⟨fun hst => by rw [h, if_pos hst], fun hst hp => ?_, fun hst hp hm => ?_⟩
    · rw [h, if_neg (not_not.2 hst), if_pos (by rw [hp]; rfl)]
    · rw [h, if_neg (not_not.2 hst), if_neg (by simpa [Option.isSome_iff_ne_none] using hp), if_pos hm]

/-! ### Spoiling a sheet (O23: R82, R92, R290) -/

/-- A context out of IMAGING stays as it is when its planes are settled. -/
theorem State.ctx_settleCtx {s : State} {c : Nat} (h : (s.ctx c).st ≠ .imaging) : (s.settleCtx c).ctx c = s.ctx c := by
  unfold State.settleCtx
  dsimp only
  split
  · split
    · next hi => exact absurd hi h
    · rw [(State.sameButRegs_settleGate _).ctx]
      exact State.ctx_reclaim ..
    · rw [(State.sameButRegs_settleGate _).ctx]
  · rw [(State.sameButRegs_settleGate _).ctx]

theorem State.ctx_spoilHere (s : State) (c cause : Nat) :
    (s.spoilHere c cause).ctx c = { s.ctx c with cause := cause, st := .spoiled } := by
  unfold State.spoilHere
  extract_lets x spoiled closed noted posted
  have hx : spoiled.ctx c = { x with cause := cause, st := .spoiled } := by rw [State.ctx_toState, State.ctx_setCtx_same]
  have hn : noted.loam = closed.loam := by
    unfold noted
    split
    · exact State.ev_loam ..
    · rfl
  have hp : posted.loam = noted.loam := by
    unfold posted
    split
    · rw [State.loam_post, State.wr_loam]
    · rfl
  have hc : posted.ctx c = { x with cause := cause, st := .spoiled } := (State.ctx_of_loam (hp.trans hn) c).trans hx
  rw [State.ctx_settleCtx (by rw [hc]; simp), hc]

theorem State.ctx_spoil {s : State} {c : Nat} (h : (s.ctx c).spoilable = true) (cause : Nat) :
    (s.spoil c cause).ctx c = { s.ctx c with cause := cause, st := .spoiled } := by
  have hl : (s.spoil c cause).loam = (s.spoilHere c cause).loam := by
    unfold State.spoil
    rw [if_pos h]
    dsimp only
    split
    · rfl
    · exact State.loam_broadcast ..
    · rfl
  rw [State.ctx_of_loam hl, State.ctx_spoilHere]

/-! ### Stalling a frame (O23: R82, R92) -/

theorem State.loam_stall {s : State} {c : Nat} (h : (s.ctx c).st = .admitted ∨ (s.ctx c).st = .imaging) :
    (s.stall c).loam = ((s.setCtx c { s.ctx c with stalledImaging := (s.ctx c).st == .imaging }).toState c .stalled).loam := by
  unfold State.stall
  dsimp only
  rw [if_pos (by simpa using h), State.loam_webStop]
  split <;> rfl

/-- A band that fails changes the notes and the count of its context, and the state of no context. -/
theorem State.st_failRecord (s : State) (r c : Nat) : ((s.failRecord r).ctx c).st = (s.ctx c).st := by
  unfold State.failRecord
  extract_lets b x y
  have hy : y.st = x.st := by
    unfold y
    split <;> rfl
  rw [State.ctx_setBand, State.ctx_setCtx]
  split
  · next h => rw [Ctx.st_fault, hy, h]
  · rfl

theorem State.band_failRecord (s : State) (r : Nat) : ((s.failRecord r).band r).st = .failed :=
  congrArg Band.st (State.band_setBand_same ..)

/-! ### Late data (O23: R92) -/

/-- CAUSE of each way in which data is late (R92). -/
def Late.cause : Late → Nat
  | .readError => 5
  | .decodeError => 6
  | .trailer => 4

theorem State.st_darken (s : State) (c p n : Nat) : ((s.darken c p n).ctx c).st = (s.ctx c).st := by
  rw [State.darken, State.ctx_setCtx_same]; rfl

section Late

variable {s : State} {c : Nat} (hc : (s.ctx c).st = .admitted ∨ (s.ctx c).st = .imaging) (w : Late) (p r n : Nat)

include hc

/-- Outside web mode, and where the trailer does not match, the sheet is SPOILED. -/
theorem State.late_spoils (h : s.web = false ∨ w = .trailer) :
    ((s.late w c p r n).ctx c).cause = w.cause ∧ ((s.late w c p r n).ctx c).st = .spoiled := by
  have hl : s.late w c p r n = (s.darken c p n).spoil c w.cause := by
    have hd : (s.darken c p n).web = s.web := rfl
    unfold State.late
    dsimp only
    rw [hd, if_neg (by obtain h | h := h <;> simp [h])]
    cases w <;> rfl
  have hs : ((s.darken c p n).ctx c).spoilable = true := by
    obtain h | h := hc <;> simp [Ctx.spoilable, State.st_darken, h]
  rw [hl, State.ctx_spoil hs]
  exact ⟨rfl, rfl⟩

/-- In web mode another error makes the frame STALLED and the band FAILED. -/
theorem State.late_stalls (hweb : s.web = true) (hw : w ≠ .trailer) :
    ((s.late w c p r n).ctx c).cause = w.cause ∧ ((s.late w c p r n).ctx c).st = .stalled ∧
      ((s.late w c p r n).band r).st = .failed := by
  obtain ⟨u, hu⟩ : ∃ u, u = (s.darken c p n).failRecord r := ⟨_, rfl⟩
  have hst : (u.ctx c).st = (s.ctx c).st := by rw [hu, State.st_failRecord, State.st_darken]
  have hl : s.late w c p r n = (u.setCtx c { u.ctx c with cause := w.cause }).stall c := by
    have hd : (s.darken c p n).web = true := hweb
    unfold State.late
    dsimp only
    rw [if_pos (by simpa [hd] using hw), if_pos (by rw [State.st_darken]; obtain h | h := hc <;> simp [h]), ← hu]
    cases w <;> rfl
  have hlive : ((u.setCtx c { u.ctx c with cause := w.cause }).ctx c).st = .admitted ∨
      ((u.setCtx c { u.ctx c with cause := w.cause }).ctx c).st = .imaging := by
    rw [State.ctx_setCtx_same]
    exact hst.symm ▸ hc
  rw [hl, State.ctx_of_loam (State.loam_stall hlive), State.band_of_loam (State.loam_stall hlive), State.ctx_toState,
    State.ctx_setCtx_same, State.ctx_setCtx_same, State.band_toState, State.band_setCtx, State.band_setCtx, hu]
  exact ⟨rfl, rfl, State.band_failRecord ..⟩

end Late

/-! ### The imaging decompressor's reads (O23: R123, R125) -/

/-- How data is late when the stream of a band ends with error `code` at stream byte `pos` (R125). -/
def Band.lateBy (b : Band) (code pos : Nat) : Late :=
  if code = 14 then .readError
  else if code = 9 ∨ code = 10 ∨ (code = 11 ∧ pos < b.storedLen) then .trailer
  else .decodeError

theorem Band.cause_lateBy (b : Band) (code pos : Nat) : (b.lateBy code pos).cause =
    if code = 14 then 5 else if code = 9 ∨ code = 10 ∨ (code = 11 ∧ pos < b.storedLen) then 4 else 6 := by
  unfold Band.lateBy
  split
  · rfl
  · split <;> rfl

theorem Late.eq_trailer_iff (w : Late) : w = .trailer ↔ w.cause = 4 := by cases w <;> decide

section ImagingRead

variable {s : State} {k c r o code pos : Nat} (he : (s.imagingEnd r o).1 = (code, pos))

include he

theorem State.imagingRead_of_no_error (h : code = 0) : s.imagingRead k c r o = s := by
  unfold State.imagingRead
  dsimp only
  rw [he, if_pos h]

/-- A read that ends with an error counts what it met, shows the error, and handles the data as late. -/
theorem State.imagingRead_of_error (h : code ≠ 0) :
    ∃ t n, s.SameButStatus t ∧ s.imagingRead k c r o = t.late ((s.band r).lateBy code pos) c k r n := by
  unfold State.imagingRead
  extract_lets b d counted met
  have hc : s.SameButStatus counted := s.sameButStatus_wr (f := .pgs .eccCe) (by decide) ..
  have hm : counted.SameButStatus met := by
    unfold met
    split
    · exact counted.sameButStatus_ueHit _
    · exact ⟨.refl _, rfl⟩
  have hd : d.1 = (code, pos) := he
  have hb : met.band r = s.band r := (hc.trans hm).1.band r
  rw [hd, if_neg h, ← hb]
  exact ⟨_, _, (hc.trans hm).trans (met.sameButStatus_engineError ..), rfl⟩

/-- What becomes of the sheet or frame whose stream ends with an error. -/
theorem State.imagingRead_late (h : code ≠ 0) (hc : (s.ctx c).st = .admitted ∨ (s.ctx c).st = .imaging) :
    ((s.imagingRead k c r o).ctx c).cause = ((s.band r).lateBy code pos).cause ∧
      (s.web = false ∨ ((s.band r).lateBy code pos).cause = 4 → ((s.imagingRead k c r o).ctx c).st = .spoiled) ∧
      (s.web = true → ((s.band r).lateBy code pos).cause ≠ 4 →
        ((s.imagingRead k c r o).ctx c).st = .stalled ∧ ((s.imagingRead k c r o).band r).st = .failed) := by
  obtain ⟨t, n, ⟨ht, hweb⟩, e⟩ := State.imagingRead_of_error (k := k) (c := c) he h
  rw [← ht.ctx] at hc
  rw [e, ← hweb, ← Late.eq_trailer_iff, ne_eq, ← Late.eq_trailer_iff]
  by_cases hs : t.web = false ∨ (s.band r).lateBy code pos = .trailer
  · obtain ⟨hca, hst⟩ := State.late_spoils hc _ k r n hs
    exact ⟨hca, fun _ => hst, fun h1 h2 => absurd hs (by simp [h1, h2])⟩
  · obtain ⟨h1, h2⟩ : t.web = true ∧ (s.band r).lateBy code pos ≠ .trailer := by simpa using hs
    obtain ⟨hca, hst⟩ := State.late_stalls hc _ k r n h1 h2
    exact ⟨hca, fun h => absurd h hs, fun _ _ => hst⟩

end ImagingRead

/-! ### IMAGING_READ_UE and IMAGING_DECODE_ERROR (O23: R92, R125) -/

section Imaging

variable {s : State} {k band c r : Nat} (hk : k < 8) (hb : band < 4096) (hu : s.up .cmp = true) (hv : s.vidUp k = true)
  (hr : s.readingCtx k band = some (c, r))

include hk hb hu hv hr

/-- The read that meets an uncorrectable burst: the burst keeps its error while MEM answers. -/
theorem exec_imagingReadUe {off : Nat} (ho : off < 2097151) (hl : off < (s.band r).storedLen) :
    exec (.imagingReadUe k band off) s = .next
      ((if s.up .mem then s.setEcc ((s.band r).burst off) .bad else s).imagingRead k c r (off / 64 * 64)) := by
  have he : exec (.imagingReadUe k band off) s = .next (imagingReadUe k band off s) := by
    show guardWF (decide (k < 8) && decide (band < 4096) && decide (off < 2097151)) _ = _
    rw [decide_eq_true hk, decide_eq_true hb, decide_eq_true ho]; rfl
  rw [he, imagingReadUe, if_neg (by simp [hu, hv])]
  simp only [hr, if_neg (Nat.not_le.2 hl)]

theorem exec_imagingDecodeError (bus : Bool) :
    exec (.imagingDecodeError k band bus) s = .next (if bus then
      (s.fresh 15).2.imagingRead k c r (64 * ((s.fresh 15).1 % (((s.band r).storedLen + 63) / 64)))
      else s.imagingRead k c r (s.band r).storedLen) := by
  have he : exec (.imagingDecodeError k band bus) s = .next (imagingDecodeError k band bus s) := by
    show guardWF (decide (k < 8) && decide (band < 4096)) _ = _
    rw [decide_eq_true hk, decide_eq_true hb]; rfl
  rw [he, imagingDecodeError, if_neg (by simp [hu, hv])]
  simp only [hr]

/-- Each of the two commands is a read by the imaging decompressor, of a state with the same sheets and bands. -/
theorem exec_imaging_reads {i : Instr} {code pos : Nat}
    (h : (∃ off, i = .imagingReadUe k band off ∧ off < 2097151 ∧ off < (s.band r).storedLen ∧
        ((if s.up .mem then s.setEcc ((s.band r).burst off) .bad else s).imagingEnd r (off / 64 * 64)).1 = (code, pos)) ∨
      (i = .imagingDecodeError k band false ∧ (s.imagingEnd r (s.band r).storedLen).1 = (code, pos)) ∨
      (i = .imagingDecodeError k band true ∧
        (s.imagingEnd r (64 * ((s.fresh 15).1 % (((s.band r).storedLen + 63) / 64)))).1 = (code, pos))) :
    ∃ (t : State) (o : Nat), exec i s = .next (t.imagingRead k c r o) ∧ (t.imagingEnd r o).1 = (code, pos) ∧
      t.ctx c = s.ctx c ∧ t.band r = s.band r ∧ t.web = s.web ∧ t.loam.bytes = s.loam.bytes := by
  obtain ⟨off, rfl, ho, hl, he⟩ | ⟨rfl, he⟩ | ⟨rfl, he⟩ := h
  · refine ⟨_, _, exec_imagingReadUe hk hb hu hv hr ho hl, he, ?_⟩
    split <;> exact ⟨rfl, rfl, rfl, rfl⟩
  · exact ⟨s, _, exec_imagingDecodeError hk hb hu hv hr false, he, rfl, rfl, rfl, rfl⟩
  · exact ⟨(s.fresh 15).2, _, exec_imagingDecodeError hk hb hu hv hr true, he, rfl, rfl, rfl, rfl⟩

end Imaging

/-- Settles O23: both commands are reads by the imaging decompressor, whose error code tells how the data is late. -/
theorem lateDataStopsThePage : Obligations.LateDataStopsThePage := by
  intro s k band c r hk hb hu hv hr hc i code pos hi
  refine ⟨fun h0 cause hcause => ?_, fun h0 hif => ?_⟩
  · obtain ⟨t, o, e, he, hctx, hband, hweb, hbytes⟩ := exec_imaging_reads hk hb hu hv hr hi
    obtain ⟨hca, hst⟩ := State.imagingRead_late (k := k) he h0 (hctx.symm ▸ hc)
    rw [hband, Band.cause_lateBy, hcause, hweb] at hst
    rw [hband, Band.cause_lateBy, hcause] at hca
    exact ⟨_, e, hca, ((State.imagingRead_keeps (.refl t) ..).bytes rfl).trans hbytes, hst⟩
  · subst hif
    obtain ⟨_, h, -⟩ | ⟨-, he⟩ | ⟨h, -⟩ := hi
    · cases h
    · rw [exec_imagingDecodeError hk hb hu hv hr, if_neg Bool.false_ne_true, State.imagingRead_of_no_error he h0]
    · cases h

/-! ### DESCRIPTOR_FETCH (O25: R326, R330, R339) -/

/-- Channel `n` has a descriptor to fetch (R326). -/
def State.fetchDue (s : State) (n : Nat) : Bool :=
  s.up .host && s.chanState n == 1 && (s.chan n).desc.isNone && s.rd (.dma .head) n != s.rd (.dma .tail) n % 2 ^ (s.chan n).log

theorem State.fetchDue_iff (s : State) (n : Nat) : s.fetchDue n = true ↔ s.up .host = true ∧ s.chanState n = 1 ∧
    (s.chan n).desc = none ∧ s.rd (.dma .head) n ≠ s.rd (.dma .tail) n % 2 ^ (s.chan n).log := by
  simp [State.fetchDue, and_assoc]

theorem State.fetchDue_eq_false {s : State} {n : Nat} (h : s.up .host = false ∨ s.chanState n ≠ 1 ∨ (s.chan n).desc.isSome = true ∨
    s.rd (.dma .head) n = s.rd (.dma .tail) n % 2 ^ (s.chan n).log) : s.fetchDue n = false := by
  rw [← Bool.not_eq_true, State.fetchDue_iff]
  rintro ⟨hh, hst, hd, hne⟩
  rw [hh, hd] at h
  simp [hst, hne] at h

/-- Channel `n` holds descriptor `d` and has not begun it. -/
def State.fetched (s : State) (n : Nat) (d : Desc) : State :=
  s.setChan n { base := (s.chan n).base, log := (s.chan n).log, desc := some d }

theorem exec_descriptorFetch_error {n : Nat} (hn : n < 32) (s : State) :
    exec (.descriptorFetch n none) s = .next (descriptorFetch n none s) := by
  show guardWF (decide (n < 32) && true) _ = _
  rw [decide_eq_true hn]; rfl

theorem exec_descriptorFetch_bytes {n : Nat} (hn : n < 32) {l : List Byte} (hl : l.length = 32) (s : State) :
    exec (.descriptorFetch n (some l)) s = .next (descriptorFetch n (some l) s) := by
  show guardWF (decide (n < 32) && l.length == 32) _ = _
  rw [decide_eq_true hn, hl]; rfl

/-- A fetched descriptor that passes the checks waits for its lane or its peripheral, or is ready to move data (R328 to R330). -/
def State.startDesc (s : State) (n : Nat) (d : Desc) : State :=
  match s.descCheck n d with
  | some cause => s.endDesc n { bad := true, cause := cause }
  | none =>
    if d.isBand then
      match s.laneOf n with
      | some e => (s.setLane e { s.lane e with queue := (s.lane e).queue ++ [n] }).wr (.dma .wait) n 1
      | none => s
    else if d.kind = 4 then s.wr (.dma .wait) n 3
    else s

theorem descriptorFetch_not_due {s : State} {n : Nat} (h : s.fetchDue n = false) (b : Option (List Byte)) :
    descriptorFetch n b s = s := if_pos (by rw [← State.fetchDue, h]; rfl)

theorem descriptorFetch_error {s : State} {n : Nat} (h : s.fetchDue n = true) :
    descriptorFetch n none s = (s.wr (.dma .fetchErr) n 1).wr (.dma .state) n 4 := if_neg (by rw [← State.fetchDue, h]; decide)

theorem descriptorFetch_bytes {s : State} {n : Nat} (h : s.fetchDue n = true) (l : List Byte) :
    descriptorFetch n (some l) s = (s.fetched n (parseDesc l)).startDesc n (parseDesc l) :=
  if_neg (by rw [← State.fetchDue, h]; decide)

section StartDesc

variable {s : State} {n : Nat} {d : Desc}

theorem State.startDesc_bad {cause : Nat} (hc : s.descCheck n d = some cause) :
    s.startDesc n d = s.endDesc n { bad := true, cause := cause } := by simp only [State.startDesc, hc]

variable (hc : s.descCheck n d = none)

include hc

theorem State.startDesc_copy (hk : d.kind = 0 ∨ d.kind = 1) : s.startDesc n d = s := by
  obtain hk | hk := hk <;> simp [State.startDesc, hc, Desc.isBand, hk]

theorem State.startDesc_periph (hk : d.kind = 4) : s.startDesc n d = s.wr (.dma .wait) n 3 := by
  simp [State.startDesc, hc, Desc.isBand, hk]

theorem State.startDesc_band (hk : d.kind = 2 ∨ d.kind = 3) {e : Nat} (he : s.laneOf n = some e) :
    s.startDesc n d = (s.setLane e { s.lane e with queue := (s.lane e).queue ++ [n] }).wr (.dma .wait) n 1 := by
  obtain hk | hk := hk <;> simp [State.startDesc, hc, Desc.isBand, hk, he]

end StartDesc

/-! ### How a descriptor ends or waits (O25: R79, R326) -/

theorem State.ended_endDesc (s : State) (n : Nat) (e : Ending) : ((s.endDesc n e).chan n).ended = some e := by
  rw [State.endDesc, State.chan_wr, State.chan_setChan_same]

@[simp] theorem State.lane_endDesc (s : State) (n : Nat) (e : Ending) (l : Nat) : (s.endDesc n e).lane l = s.lane l :=
  State.lane_wr ..

/-! ### LANE_ACCEPT_BAND (O25: R79, R93, R330) -/

/-- The record that a REPAIR replaces is given back, and no channel feeds it any more (R93). -/
def State.replaced (s : State) (d : Desc) : State :=
  match s.findBand d.ctx d.plane d.bandNo with
  | some o => (s.reclaim [o]).detach o
  | none => s

/-- The record of the band that lane `l` takes. -/
def State.newBand (s : State) (l : Nat) (d : Desc) : Band :=
  { st := .filling, ctx := d.ctx, plane := d.plane, band := d.bandNo, hostcomp := d.kind == 3,
    repaired := (s.findBand d.ctx d.plane d.bandNo).isSome, rawLen := d.rawLen, check := d.check, lane := l }

/-- Lane `l` takes the band of channel `n` into record `r`, and its compressor runs. -/
def State.laneTakes (s : State) (l n r : Nat) (rest : List Nat) (b : Band) : State :=
  (((((s.setBand r b).setLane l { queue := rest, cur := some n }).unhold n).wr (.cmp .bandRec) l r).wr
    (.cmp .bandRecValid) l 1).wr (.cmp .jState) l 1

theorem exec_laneAcceptBand {l : Nat} (hl : l < 8) (s : State) : exec (.laneAcceptBand l) s = .next (laneAcceptBand l s) := by
  show guardWF (decide (l < 8)) _ = _
  rw [decide_eq_true hl]; rfl

section Accept

variable {s : State} {l n : Nat} {rest : List Nat} {d : Desc} (hs : s.laneInService l = true) (hh : s.up .host = true)
  (hcur : (s.lane l).cur = none) (hq : (s.lane l).queue = n :: rest) (hd : (s.chan n).desc = some d)

include hs hh hcur hq hd

theorem laneAcceptBand_refused (ha : s.bandAccept d = false) :
    laneAcceptBand l s = (s.setLane l { queue := rest }).endDesc n { bad := true, cause := 1 } := by
  simp [laneAcceptBand, hcur, hq, hs, hh, hd, ha]

theorem laneAcceptBand_held (ha : s.bandAccept d = true) (hf : s.freeRecord = none) : laneAcceptBand l s = s.holdFor n := by
  simp [laneAcceptBand, hcur, hq, hs, hh, hd, ha, hf]

theorem laneAcceptBand_taken (ha : s.bandAccept d = true) {r : Nat} (hf : s.freeRecord = some r) :
    laneAcceptBand l s = (((s.replaced d).laneTakes l n r rest (s.newBand l d)).setChan n
      { s.chan n with recNo := some r, begun := true }).wr (.dma .wait) n 0 := by
  simp only [laneAcceptBand, hcur, hq, hs, hh, hd, ha, hf]
  rfl

end Accept

theorem lowestFree_free {bs : Store Nat Band} {fuel r q : Nat} (h : lowestFree bs fuel r = some q) :
    (Store.get ({} : Band) q bs).st = .free := by
  induction fuel generalizing r with
  | zero => cases h
  | succ fuel ih =>
    rw [lowestFree] at h
    split at h
    · next hf => exact Option.some.inj h ▸ hf
    · exact ih h

/-- The record that `freeRecord` finds is FREE. -/
theorem State.freeRecord_free {s : State} {r : Nat} (h : s.freeRecord = some r) : (s.band r).st = .free := lowestFree_free h

/-- A band that is accepted although one exists replaces a FAILED one (R93). -/
theorem State.failed_of_bandAccept {s : State} {d : Desc} (ha : s.bandAccept d = true) {o : Nat}
    (ho : s.findBand d.ctx d.plane d.bandNo = some o) : (s.band o).st = .failed := by
  unfold State.bandAccept at ha
  simp only [ho] at ha
  split at ha
  · simp only [Bool.and_eq_true, beq_iff_eq] at ha
    exact ha.2
  · simp at ha

theorem State.reclaim_singleton_spec (s : State) (o : Nat) :
    ((s.reclaim [o]).band o).st = .reclaiming ∧ (s.reclaim [o]).loam.reclaim = s.loam.reclaim ++ [o] := by
  have hl := s.loam_reclaimOne o
  rw [State.reclaim_eq, List.foldl_cons, List.foldl_nil, State.band_reclaimOne, if_pos rfl, hl]
  exact ⟨rfl, rfl⟩

theorem State.replaced_of_some {s : State} {d : Desc} {o : Nat} (ho : s.findBand d.ctx d.plane d.bandNo = some o) :
    s.replaced d = (s.reclaim [o]).detach o := by simp only [State.replaced, ho]

theorem State.bytes_replaced (s : State) (d : Desc) : (s.replaced d).loam.bytes = s.loam.bytes := by
  unfold State.replaced
  split
  · exact (State.reclaim_keeps (.refl s) _).bytes rfl
  · rfl

theorem State.loam_laneTakes (s : State) (l n r : Nat) (rest : List Nat) (b : Band) :
    (s.laneTakes l n r rest b).loam = { (s.setBand r b).loam with held := s.loam.held.filter (· != n) } := by
  simp only [State.laneTakes, State.wr_loam]
  rfl

theorem State.band_laneTakes (s : State) (l n r : Nat) (rest : List Nat) (b : Band) (q : Nat) :
    (s.laneTakes l n r rest b).band q = if q = r then b else s.band q := by
  simp only [State.laneTakes, State.band_wr]
  exact s.band_setBand r q b

theorem State.lane_laneTakes (s : State) (l n r : Nat) (rest : List Nat) (b : Band) :
    (s.laneTakes l n r rest b).lane l = { queue := rest, cur := some n } := by
  simp only [State.laneTakes, State.lane_wr]
  exact State.lane_setLane_same ..

/-- Settles O25: a fetch by the outcome of the checks, and a lane's acceptance by that of Loam. -/
theorem descriptorsAreFetched : Obligations.DescriptorsAreFetched := by
  refine ⟨fun s n hn hh hst hdn hne => ?_, fun s n hn h => ?_, fun s l n rest d hl hh hs hcur hq hd => ?_⟩
  · have hdue : s.fetchDue n = true := (s.fetchDue_iff n).2 ⟨hh, hst, hdn, hne⟩
    refine ⟨by rw [exec_descriptorFetch_error hn, descriptorFetch_error hdue], fun b hb => ?_⟩
    rw [exec_descriptorFetch_bytes hn hb, descriptorFetch_bytes hdue, ← State.fetched]
    have hdesc : ((s.fetched n (parseDesc b)).chan n).desc = some (parseDesc b) := by rw [State.fetched, State.chan_setChan_same]
    refine ⟨fun hc => ⟨fun hk => ?_, fun hk => ⟨_, rfl, ?_⟩, fun e hk he => ⟨_, rfl, ?_⟩⟩, fun cause hc => ⟨_, rfl, ?_⟩⟩
    · rw [State.startDesc_copy hc hk]
    · rw [State.startDesc_periph hc hk, State.chan_wr]
      exact ⟨State.rd_wait _ n (by decide), hdesc⟩
    · rw [State.startDesc_band hc hk he, State.lane_wr, State.lane_setLane_same, State.chan_wr, State.chan_setLane]
      exact ⟨State.rd_wait _ n (by decide), rfl, hdesc⟩
    · rw [State.startDesc_bad hc, State.loam_endDesc]
      exact ⟨State.ended_endDesc .., rfl, rfl, rfl⟩
  · rw [exec_descriptorFetch_error hn, descriptorFetch_not_due (State.fetchDue_eq_false h)]
  · rw [exec_laneAcceptBand hl]
    refine ⟨fun r ha hf => ⟨_, rfl, ?_⟩, fun ha hf => ⟨_, rfl, ?_⟩, fun ha => ⟨_, rfl, ?_⟩⟩
    · rw [laneAcceptBand_taken hs hh hcur hq hd ha hf]
      simp only [State.band_wr, State.band_setChan, State.band_laneTakes, if_pos, State.chan_wr, State.chan_setChan_same,
        State.lane_wr, State.lane_setChan, State.lane_laneTakes, State.wr_loam, State.setChan_loam, State.loam_laneTakes,
        State.setBand_loam_bytes, State.setBand_loam_reclaim, State.bytes_replaced]
      refine ⟨rfl, rfl, rfl, rfl, rfl, trivial, trivial, trivial, State.rd_wait _ n (by decide), trivial, fun o ho => ?_⟩
      have hne : o ≠ r := by
        rintro rfl
        exact absurd ((State.failed_of_bandAccept ha ho).symm.trans (State.freeRecord_free hf)) (by decide)
      rw [if_neg hne, State.replaced_of_some ho]
      exact s.reclaim_singleton_spec o
    · rw [laneAcceptBand_held hs hh hcur hq hd ha hf]
      obtain ⟨hw, hm, h, he⟩ := s.holdFor_spec n
      exact ⟨hw, hm, by rw [he], by rw [he]⟩
    · rw [laneAcceptBand_refused hs hh hcur hq hd ha, State.lane_endDesc, State.lane_setLane_same, State.loam_endDesc]
      exact ⟨State.ended_endDesc .., rfl, rfl, rfl⟩

end Sys2Proof.Machine

/-! PROOFS. The statement on buffer jobs: START, RESUME, STOP and ABORT, and where a running job halts. -/

namespace Sys2Proof.Machine

open Sys2Proof

/-! ### The fields of an engine (R138) -/

/-- The fields of the CMP block that each populated engine has. -/
def CmpF.ofEngine (f : CmpF) : Bool := decide (f ∉ [CmpF.mode, .chmap, .vfail, .emode])

theorem populated_ofEngine (h : Hardware) {f : CmpF} (hf : CmpF.ofEngine f = true) (n : Nat) : populated h (.cmp f) n = h.engine n := by
  cases f <;> cases hf <;> exact congrArg h.engine (Nat.div_one n)

/-- A field of a populated engine reads what was last written to it; the engine's other fields are unchanged. -/
theorem State.rd_wr_engine {s : State} {n : Nat} (he : s.hw.engine n = true) {f : CmpF} (hf : CmpF.ofEngine f = true) (g : CmpF) (v : Nat) :
    (s.wr (.cmp f) n v).rd (.cmp g) n = if g = f then v % 2 ^ f.row.width else s.rd (.cmp g) n := by
  split
  · next hg =>
    subst hg
    exact State.rd_wr_same s ((populated_ofEngine s.hw hf n).trans he) v
  · next hg => exact State.rd_wr_ne s (fun h => hg (Fld.cmp.inj (congrArg Prod.fst h))) v

theorem State.SameButRegs.job {s t : State} (h : s.SameButRegs t) (n : Nat) : t.job n = s.job n := by obtain ⟨r, rfl⟩ := h; rfl
theorem State.SameButRegs.hw {s t : State} (h : s.SameButRegs t) : t.hw = s.hw := by obtain ⟨r, rfl⟩ := h; rfl

/-! ### What the steps of a job change (R123, R127, R134) -/

@[simp] theorem State.jobClear_hw (s : State) (n : Nat) : (s.jobClear n).hw = s.hw := by simp [State.jobClear, State.clr_eq]
@[simp] theorem State.jobClear_loam (s : State) (n : Nat) : (s.jobClear n).loam = s.loam := by simp [State.jobClear, State.clr_eq]
@[simp] theorem State.job_jobClear (s : State) (n m : Nat) : (s.jobClear n).job m = s.job m := by simp [State.jobClear, State.clr_eq]

theorem State.rd_holding_jobClear (s : State) (n : Nat) : (s.jobClear n).rd (.cmp .holding) n = 0 := by
  simp [State.jobClear, State.rd_clr]

/-- A field that shows nothing of what an engine holds is unchanged. -/
theorem State.rd_jobClear (s : State) (n : Nat) {f : CmpF}
    (hf : f ∉ [CmpF.residue, .resBits, .holding, .remain, .holdKind, .holddist]) :
    (s.jobClear n).rd (.cmp f) n = s.rd (.cmp f) n := by
  simp only [List.mem_cons, List.not_mem_nil, or_false, not_or] at hf
  obtain ⟨h1, h2, h3, h4, h5, h6⟩ := hf
  simp [State.jobClear, State.rd_clr, h1, h2, h3, h4, h5, h6]

theorem State.loam_engineError (s : State) (n code pos : Nat) : (s.engineError n code pos).loam = s.loam :=
  (s.sameButStatus_engineError n code pos).1.loam

theorem State.job_engineError (s : State) (n code pos m : Nat) : (s.engineError n code pos).job m = s.job m :=
  (s.sameButStatus_engineError n code pos).1.job m

theorem State.rd_engineError {s : State} {n : Nat} (he : s.hw.engine n = true) (code pos : Nat) :
    (s.engineError n code pos).rd (.cmp .jState) n = 6 ∧ (s.engineError n code pos).rd (.cmp .jErr) n = code % 16 ∧
      (s.engineError n code pos).rd (.cmp .errEv) n = 1 := by
  simp [State.engineError, State.ev_eq, State.rd_wr_engine, he, CmpF.ofEngine, CmpF.row]

theorem State.sameButRegs_regionRead (s : State) (a n : Nat) : s.SameButRegs (s.regionRead a n).2.2 := by
  unfold State.regionRead
  extract_lets hits bad got ones
  split
  · exact s.sameButRegs_wr (.pgs .eccCe) 0 _
  · exact .refl s

@[simp] theorem State.hw_writeLoam (s : State) (a : Nat) (l : List Byte) : (s.writeLoam a l).hw = s.hw :=
  (State.writeLoam_keeps (.refl s) a l).hw

theorem State.hw_jobShow (s : State) (n st : Nat) (x : Stand) : (s.jobShow n st x).hw = s.hw := (State.jobShow_keeps (.refl s) n st x).hw

/-- The engine halts in job state `st`, with its event. -/
def State.jobHalted (s : State) (n st : Nat) (x : Stand) (f : CmpF) : State := (s.jobShow n st x).ev (.cmp f) n

/-- A halt shows where the engine stands (R126, R128). -/
theorem State.rd_jobHalted {s : State} {n : Nat} (he : s.hw.engine n = true) (st : Nat) (x : Stand) {f : CmpF}
    (hf : f = .stopEv ∨ f = .doneEv) : (s.jobHalted n st x f).rd (.cmp .jState) n = st % 8 ∧
      (s.jobHalted n st x f).rd (.cmp f) n = 1 ∧ (s.jobHalted n st x f).rd (.cmp .outProduced) n = x.produced % 2 ^ 32 ∧
      (s.jobHalted n st x f).rd (.cmp .inConsumed) n = x.consumed % 2 ^ 32 ∧
      (s.jobHalted n st x f).rd (.cmp .crc) n = x.crc % 2 ^ 32 := by
  obtain rfl | rfl := hf <;>
    simp [State.jobHalted, State.jobShow, State.ev_eq, State.wrB_eq, State.rd_wr_engine, he, CmpF.ofEngine, CmpF.row]

/-! ### START (R133, R134) -/

section Begin

variable {s : State} {n : Nat} (hb : s.buffers n = true)

/-- The job that START makes of the engine's registers. -/
def State.startJob (s : State) (n : Nat) : Job :=
  let q := s.regionRead (s.rd (.cmp .inAddr) n) (s.rd (.cmp .inLen) n)
  { lineBytes := s.rd (.cmp .jLineBytes) n, lines := s.rd (.cmp .jLinesM1) n + 1, band := s.rd (.cmp .jBand) n, input := q.1,
    bad := q.2.1, inAddr := s.rd (.cmp .inAddr) n, inLen := s.rd (.cmp .inLen) n, outAddr := s.rd (.cmp .outAddr) n,
    outLen := s.rd (.cmp .outLen) n }

/-- The engine has the job of its registers, and has consumed and produced nothing. -/
def State.jobStarted (s : State) (n : Nat) : State :=
  let t := ((s.regionRead (s.rd (.cmp .inAddr) n) (s.rd (.cmp .inLen) n)).2.2.setJob n (s.startJob n))
  let t := ((t.clr (.cmp .inConsumed) n).clr (.cmp .outProduced) n).jobClear n
  ((t.clr (.cmp .jErr) n).clr (.cmp .crc) n).wr (.cmp .jState) n 1

theorem State.jobStarted_hw (s : State) (n : Nat) : (s.jobStarted n).hw = s.hw := by
  simp [State.jobStarted, State.clr_eq, (s.sameButRegs_regionRead ..).hw]

theorem State.loam_jobStarted (s : State) (n : Nat) : (s.jobStarted n).loam = s.loam := by
  simp [State.jobStarted, State.clr_eq, (s.sameButRegs_regionRead ..).loam]

theorem State.job_jobStarted (s : State) (n : Nat) : (s.jobStarted n).job n = s.startJob n := by
  simp [State.jobStarted, State.clr_eq]

theorem State.rd_jobStarted (he : s.hw.engine n = true) : (s.jobStarted n).rd (.cmp .jState) n = 1 ∧
    (s.jobStarted n).rd (.cmp .inConsumed) n = 0 ∧ (s.jobStarted n).rd (.cmp .outProduced) n = 0 ∧
    (s.jobStarted n).rd (.cmp .jErr) n = 0 ∧ (s.jobStarted n).rd (.cmp .crc) n = 0 ∧ (s.jobStarted n).rd (.cmp .holding) n = 0 := by
  simp [State.jobStarted, State.clr_eq, State.rd_wr_engine, State.rd_jobClear, State.rd_holding_jobClear,
    (s.sameButRegs_regionRead ..).hw, he, CmpF.ofEngine, CmpF.row]

/-- The engine has no job and is in ERROR: a region is refused (R132). -/
def State.jobRefused (s : State) (n : Nat) : State := ((s.setJob n {}).jobClear n).engineError n 13 0

theorem State.jobRefused_spec (he : s.hw.engine n = true) : (s.jobRefused n).rd (.cmp .jState) n = 6 ∧
    (s.jobRefused n).rd (.cmp .jErr) n = 13 ∧ (s.jobRefused n).job n = {} ∧ (s.jobRefused n).loam = s.loam := by
  obtain ⟨hj, herr, -⟩ := State.rd_engineError (s := (s.setJob n {}).jobClear n) (by simpa using he) 13 0
  exact ⟨hj, herr, by simp [State.jobRefused, State.job_engineError], by simp [State.jobRefused, State.loam_engineError]⟩

include hb

theorem State.engine_of_buffers : s.hw.engine n = true := by
  simp only [State.buffers, Bool.and_eq_true] at hb
  exact hb.1.1.2

theorem State.engineUp_of_buffers : s.engineUp n = true := by
  simp only [State.buffers, Bool.and_eq_true] at hb
  simp [State.engineUp, hb.1.1.2, hb.1.2]

theorem State.jobBegin_ignored (h : s.rd (.cmp .jState) n = 1 ∨ s.rd (.cmp .jState) n = 7) :
    s.jobBegin n = s.wr (.cmp .cmdIgnored) n 1 := by
  unfold State.jobBegin
  exact if_pos (by obtain h | h := h <;> simp [hb, h])

variable (h1 : s.rd (.cmp .jState) n ≠ 1) (h7 : s.rd (.cmp .jState) n ≠ 7)

include h1 h7

theorem State.jobBegin_taken (hi : s.regionOk (s.rd (.cmp .inAddr) n) (s.rd (.cmp .inLen) n) = true)
    (ho : s.regionOk (s.rd (.cmp .outAddr) n) (s.rd (.cmp .outLen) n) = true) :
    s.jobBegin n = if s.up .mem then (s.jobStarted n).retryHeld else ((s.jobStarted n).engineError n 14 0).retryHeld := by
  unfold State.jobBegin
  dsimp only
  rw [if_neg (by simp [hb, h1, h7]), if_pos (by rw [hi, ho]; rfl)]
  rfl

theorem State.jobBegin_refused (h : s.regionOk (s.rd (.cmp .inAddr) n) (s.rd (.cmp .inLen) n) = false ∨
    s.regionOk (s.rd (.cmp .outAddr) n) (s.rd (.cmp .outLen) n) = false) : s.jobBegin n = (s.jobRefused n).retryHeld := by
  unfold State.jobBegin
  dsimp only
  rw [if_neg (by simp [hb, h1, h7]), if_neg (by obtain h | h := h <;> simp [h])]
  rfl

end Begin

/-! ### RESUME (R127, R133, R134) -/

section Again

variable {s : State} {n : Nat} (newIn newOut : Bool)

/-- What RESUME reads: the new input region, unless an uncorrectable burst has ended the input before it. -/
def State.resumeRead (s : State) (n : Nat) (newIn : Bool) : List Byte × Option (Nat × Nat) × State :=
  if newIn && (s.job n).bad.isNone then s.regionRead (s.rd (.cmp .inAddr) n) (s.rd (.cmp .inLen) n) else ([], none, s)

/-- A job that goes on with a new input region, behind the ones before. -/
def State.withNewIn (s : State) (n : Nat) (j : Job) : Job :=
  let q := s.resumeRead n true
  { j with input := j.input ++ q.1, inBase := j.inBase + j.inLen, inAddr := s.rd (.cmp .inAddr) n, inLen := s.rd (.cmp .inLen) n,
           bad := j.bad.or (q.2.1.map fun p => (j.inBase + j.inLen + p.1, p.2)) }

/-- A job that goes on with a new output region. -/
def State.withNewOut (s : State) (n : Nat) (j : Job) : Job :=
  { j with outAddr := s.rd (.cmp .outAddr) n, outLen := s.rd (.cmp .outLen) n, outBase := j.produced }

/-- The job with which RESUME goes on. -/
def State.resumeJob (s : State) (n : Nat) (newIn newOut : Bool) : Job :=
  let j := if newIn then s.withNewIn n (s.job n) else s.job n
  if newOut then s.withNewOut n j else j

/-- The engine goes on with its job. -/
def State.jobResumed (s : State) (n : Nat) (newIn newOut : Bool) : State :=
  ((s.resumeRead n newIn).2.2.setJob n (s.resumeJob n newIn newOut)).wr (.cmp .jState) n 1

theorem State.sameButRegs_resumeRead (s : State) (n : Nat) : s.SameButRegs (s.resumeRead n newIn).2.2 := by
  unfold State.resumeRead
  split
  · exact s.sameButRegs_regionRead ..
  · exact .refl s

/-- The engine runs its job again, and nothing is stored by that. -/
theorem State.jobResumed_spec (he : s.hw.engine n = true) : (s.jobResumed n newIn newOut).rd (.cmp .jState) n = 1 ∧
    (s.jobResumed n newIn newOut).loam = s.loam ∧ (s.jobResumed n newIn newOut).job n = s.resumeJob n newIn newOut := by
  have hsame := s.sameButRegs_resumeRead newIn n
  simp [State.jobResumed, State.rd_wr_engine, hsame.hw, hsame.loam, he, CmpF.ofEngine, CmpF.row]

theorem State.resumeJob_input (hbad : (s.job n).bad = none) : (s.resumeJob n true newOut).input =
    (s.job n).input ++ (s.regionRead (s.rd (.cmp .inAddr) n) (s.rd (.cmp .inLen) n)).1 := by
  cases newOut <;> simp [State.resumeJob, State.withNewOut, State.withNewIn, State.resumeRead, hbad]

theorem State.resumeJob_output (s : State) (n : Nat) : (s.resumeJob n newIn true).outAddr = s.rd (.cmp .outAddr) n ∧
    (s.resumeJob n newIn true).outLen = s.rd (.cmp .outLen) n ∧ (s.resumeJob n newIn true).outBase = (s.job n).produced := by
  cases newIn <;> exact ⟨rfl, rfl, rfl⟩

/-- A new region that RESUME names is refused. -/
def State.refusesNew (s : State) (n : Nat) (newIn newOut : Bool) : Bool :=
  (newIn && !s.regionOk (s.rd (.cmp .inAddr) n) (s.rd (.cmp .inLen) n)) ||
    (newOut && !s.regionOk (s.rd (.cmp .outAddr) n) (s.rd (.cmp .outLen) n))

variable {newIn newOut} in
theorem State.refusesNew_eq_false_iff : s.refusesNew n newIn newOut = false ↔
    (newIn = false ∨ s.regionOk (s.rd (.cmp .inAddr) n) (s.rd (.cmp .inLen) n) = true) ∧
      (newOut = false ∨ s.regionOk (s.rd (.cmp .outAddr) n) (s.rd (.cmp .outLen) n) = true) := by
  cases newIn <;> cases newOut <;> simp [State.refusesNew]

variable {newIn newOut} in
theorem State.refusesNew_iff : s.refusesNew n newIn newOut = true ↔
    newIn = true ∧ s.regionOk (s.rd (.cmp .inAddr) n) (s.rd (.cmp .inLen) n) = false ∨
      newOut = true ∧ s.regionOk (s.rd (.cmp .outAddr) n) (s.rd (.cmp .outLen) n) = false := by
  simp [State.refusesNew]

/-- A job that has halted can be resumed: OUT_FULL, NEED_INPUT or STOPPED (R134). -/
def State.resumable (s : State) (n : Nat) : Prop :=
  s.rd (.cmp .jState) n = 2 ∨ s.rd (.cmp .jState) n = 3 ∨ s.rd (.cmp .jState) n = 4

theorem State.jobAgain_ignored (h : ¬s.resumable n) : s.jobAgain n newIn newOut = s.wr (.cmp .cmdIgnored) n 1 := by
  simp only [State.resumable, not_or] at h
  unfold State.jobAgain
  exact if_pos (by simp [h])

theorem State.jobAgain_eq (hb : s.buffers n = true) (hst : s.resumable n) : s.jobAgain n newIn newOut =
    if s.refusesNew n newIn newOut then (s.engineError n 13 0).retryHeld
    else if s.up .mem then (s.jobResumed n newIn newOut).retryHeld
    else ((s.jobResumed n newIn newOut).engineError n 14 (s.rd (.cmp .inConsumed) n)).retryHeld := by
  unfold State.jobAgain
  extract_lets st ia il oa ol j q j' j'' t
  rw [if_neg (by obtain h | h | h := hst <;> simp [hb, st, h])]
  cases newIn <;> rfl

end Again

/-! ### STOP and ABORT (R134) -/

section Stop

variable {s : State} {n : Nat}

theorem State.jobHalt_ignored (h : s.rd (.cmp .jState) n ≠ 1) (u : Nat) : s.jobHalt n u = s.wr (.cmp .cmdIgnored) n 1 := by
  unfold State.jobHalt
  exact if_pos (by simp [h])

/-- STOP shows the engine STOPPED between two units, or OUT_FULL where its run halts. -/
theorem State.jobHalt_cases (hb : s.buffers n = true) (h : s.rd (.cmp .jState) n = 1) (u : Nat) :
    (∃ y, s.jobHalt n u = s.jobHalted n 4 y .stopEv) ∨ s.jobHalt n u = s.jobHalted n 2 (s.jobRun n) .stopEv := by
  unfold State.jobHalt
  dsimp only
  rw [if_neg (by simp [hb, h])]
  split
  · next y _ => exact .inl ⟨y, rfl⟩
  · exact .inr rfl

theorem State.jobDrop_ignored (h : s.rd (.cmp .jState) n = 7) : s.jobDrop n = s.wr (.cmp .cmdIgnored) n 1 := by
  unfold State.jobDrop
  exact if_pos (by simp [h])

/-- ABORT leaves the engine without a job, and lets transfers that wait try again. -/
theorem State.jobDrop_taken (hb : s.buffers n = true) (h : s.rd (.cmp .jState) n ≠ 7) :
    s.jobDrop n = (s.jobForget n 0).retryHeld := by
  unfold State.jobDrop
  exact if_neg (by simp [hb, h])

theorem State.jobForget_spec (he : s.hw.engine n = true) (st : Nat) :
    (s.jobForget n st).rd (.cmp .jState) n = st % 8 ∧ (s.jobForget n st).job n = {} ∧ (s.jobForget n st).loam = s.loam := by
  simp [State.jobForget, State.rd_wr_engine, he, CmpF.ofEngine, CmpF.row]

end Stop

/-! ### The commands as host writes (R133) -/

/-- START alone among the command bits. -/
theorem State.jctl_start (s : State) (n : Nat) {v : Nat} (hv : v % 16 = 1) : s.jctl n v = s.jobBegin n := by
  have h0 : v / 2 ^ 0 % 2 = 1 := by omega
  have h1 : v / 2 ^ 1 % 2 = 0 := by omega
  have h2 : v / 2 ^ 2 % 2 = 0 := by omega
  have h3 : v / 2 ^ 3 % 2 = 0 := by omega
  simp only [State.jctl, h0, h1, h2, h3]
  rfl

/-- RESUME alone among the command bits, with NEW_IN and NEW_OUT. -/
theorem State.jctl_resume (s : State) (n : Nat) {v : Nat} (hv : v % 16 = 2) :
    s.jctl n v = s.jobAgain n (v / 2 ^ 4 % 2 == 1) (v / 2 ^ 5 % 2 == 1) := by
  have h0 : v / 2 ^ 0 % 2 = 0 := by omega
  have h1 : v / 2 ^ 1 % 2 = 1 := by omega
  have h2 : v / 2 ^ 2 % 2 = 0 := by omega
  have h3 : v / 2 ^ 3 % 2 = 0 := by omega
  simp only [State.jctl, h0, h1, h2, h3]
  rfl

section Commands

variable {s : State} {n : Nat} (hn : n < 16) (hr : s.Reaches .cmp 0) (hb : s.buffers n = true)

include hn hr hb

theorem exec_jobStart {v : Word} (hv : v.toNat % 16 = 1) : exec (.jobStart n v) s = .next (s.jobBegin n) := by
  have hw : (decide (n < 24) && v.getLsbD 0) = true := by
    simp [BitVec.getLsbD, Nat.testBit_eq_decide_div_mod_eq]
    omega
  show guardWF _ (s.hostWrite .cmp 0 _) = _
  rw [hw, State.hostWrite_of_reaches hr, if_pos (State.engineUp_of_buffers hb), s.jctl_start n hv, guardWF_true]

theorem exec_jobResume {v : Word} (hv : v.toNat % 16 = 2) :
    exec (.jobResume n v) s = .next (s.jobAgain n (v.getLsbD 4) (v.getLsbD 5)) := by
  have hw : (decide (n < 24) && v.getLsbD 1 && !v.getLsbD 0) = true := by
    simp [BitVec.getLsbD, Nat.testBit_eq_decide_div_mod_eq]
    omega
  show guardWF _ (s.hostWrite .cmp 0 _) = _
  rw [hw, State.hostWrite_of_reaches hr, if_pos (State.engineUp_of_buffers hb), s.jctl_resume n hv, guardWF_true]
  simp only [BitVec.getLsbD, Nat.testBit_eq_decide_div_mod_eq]
  rfl

theorem exec_jobResume_runs {v : Word} (hv : v.toNat % 16 = 2) (hst : s.resumable n)
    (h : s.refusesNew n (v.getLsbD 4) (v.getLsbD 5) = false) (hm : s.up .mem = true) :
    exec (.jobResume n v) s = .next (s.jobResumed n (v.getLsbD 4) (v.getLsbD 5)).retryHeld := by
  rw [exec_jobResume hn hr hb hv, State.jobAgain_eq _ _ hb hst, h, if_neg Bool.false_ne_true, if_pos hm]

theorem exec_jobResume_refused {v : Word} (hv : v.toNat % 16 = 2) (hst : s.resumable n)
    (h : s.refusesNew n (v.getLsbD 4) (v.getLsbD 5) = true) : exec (.jobResume n v) s = .next (s.engineError n 13 0).retryHeld := by
  rw [exec_jobResume hn hr hb hv, State.jobAgain_eq _ _ hb hst, if_pos h]

theorem exec_jobStop (u : Nat) : exec (.jobStop n u) s = .next (s.jobHalt n u) := by
  show guardWF (decide (n < 24)) (s.hostWrite .cmp 0 _) = _
  rw [decide_eq_true (by omega), State.hostWrite_of_reaches hr, if_pos (State.engineUp_of_buffers hb), guardWF_true]

theorem exec_jobAbort : exec (.jobAbort n) s = .next (s.jobDrop n) := by
  show guardWF (decide (n < 24)) (s.hostWrite .cmp 0 _) = _
  rw [decide_eq_true (by omega), State.hostWrite_of_reaches hr, if_pos (State.engineUp_of_buffers hb), guardWF_true]

end Commands

/-! ### Where a running job halts (R134) -/

theorem exec_jobOutFull {n : Nat} (hn : n < 24) (s : State) : exec (.jobOutFull n) s = .next (s.jobReach n 2 .full .stopEv) := by
  show guardWF (decide (n < 24)) _ = _
  rw [decide_eq_true hn, guardWF_true]

theorem exec_jobNeedInput {n : Nat} (hn : n < 24) (s : State) : exec (.jobNeedInput n) s = .next (s.jobReach n 3 .need .stopEv) := by
  show guardWF (decide (n < 24)) _ = _
  rw [decide_eq_true hn, guardWF_true]

theorem exec_jobDone {n : Nat} (hn : n < 24) (s : State) : exec (.jobDone n) s = .next (s.jobReach n 5 .done .doneEv).retryHeld := by
  show guardWF (decide (n < 24)) _ = _
  rw [decide_eq_true hn, guardWF_true]

theorem exec_jobError {n : Nat} (hn : n < 24) (bus : Bool) (s : State) : exec (.jobError n bus) s = .next (jobFails n bus s) := by
  show guardWF (decide (n < 24)) _ = _
  rw [decide_eq_true hn, guardWF_true]

/-- The state of a job that ends with error code `c`: an uncorrectable burst is counted. -/
def State.errorMet (s : State) (n c : Nat) : State :=
  match (s.job n).bad with
  | some b => if c = 14 then s.ueHit b.2 else s
  | none => s

/-- The state of a job that ends with error code `c`: what its run has produced is stored. -/
def State.errorShown (s : State) (n c : Nat) (x : Stand) : State :=
  if (s.job n).produced ≤ x.produced then (s.errorMet n c).jobShow n 6 x else s.errorMet n c

theorem State.hw_errorMet (s : State) (n c : Nat) : (s.errorMet n c).hw = s.hw := by
  unfold State.errorMet
  split
  · split
    · exact (s.sameButRegs_ueHit _).hw
    · rfl
  · rfl

theorem State.hw_errorShown (s : State) (n c : Nat) (x : Stand) : (s.errorShown n c x).hw = s.hw := by
  unfold State.errorShown
  split
  · exact (State.hw_jobShow ..).trans (s.hw_errorMet n c)
  · exact s.hw_errorMet n c

theorem State.jobStopAt_error (s : State) (n : Nat) {x : Stand} {c p : Nat} (hx : x.halt = .err c p) :
    s.jobStopAt n x = ((s.errorShown n c x).engineError n c p).retryHeld := by
  unfold State.jobStopAt
  simp only [hx]
  rfl

/-- An error response ends a run at `p`, unless the run meets an error of its own before. -/
def Stand.failed (x : Stand) (p : Nat) : Stand :=
  match x.halt with
  | .err _ _ => x
  | _ => { x with halt := .err 14 p }

theorem Stand.halt_failed (x : Stand) (p : Nat) : ∃ c q, (Stand.failed x p).halt = .err c q := by
  unfold Stand.failed
  split
  · next c q h => exact ⟨c, q, h⟩
  · exact ⟨14, p, rfl⟩

section Halts

variable {s : State} {n : Nat} (hb : s.buffers n = true) (hst : s.rd (.cmp .jState) n = 1)

include hb hst

theorem State.jobReach_halted (hm : s.up .mem = true) {h : Halt} (hh : (s.jobRun n).halt = h) (st : Nat) (f : CmpF) :
    s.jobReach n st h f = s.jobHalted n st (s.jobRun n) f := by
  simp [State.jobReach, State.jobHalted, hb, hm, hst, hh]

theorem jobFails_run : jobFails n false s = s.jobStopAt n (s.jobRun n) := by
  simp [jobFails, hb, hst]

/-- An error response that no stored error explains ends the job with an error of the run that its input up to there gives. -/
theorem jobFails_bus (hbad : (s.job n).bad = none) :
    ∃ (t : State) (c p : Nat), jobFails n true s = (t.engineError n c p).retryHeld ∧ t.hw = s.hw := by
  unfold jobFails
  rw [if_pos (by simp [hb, hst])]
  extract_lets j q a p t x
  rw [if_pos (by simp [j, hbad])]
  obtain ⟨c, pos, hx⟩ := Stand.halt_failed x p
  exact ⟨_, c, pos, t.jobStopAt_error n hx, t.hw_errorShown n c _⟩

end Halts

/-- Settles O27: each command is one of the operations START, RESUME, STOP and ABORT, or a run that halts, and each of these shows where
it leaves the engine. -/
theorem jobCommandsRun : Obligations.JobCommandsRun := by
  refine ⟨fun s n hn hr hb => ?_, fun s n hn hb hst => ?_⟩
  · have he := State.engine_of_buffers hb
    refine ⟨fun v hv h1 h7 => ⟨fun hi ho hm => ?_, fun hi ho hm => ?_, fun h => ?_⟩, fun v hv h => ?_, fun v hv hst => ?_,
      fun v hv h2 h3 h4 => ?_, fun hst u => ?_, fun hst u => ?_, fun hst => ?_, fun hst => ?_⟩
    · rw [exec_jobStart hn hr hb hv, State.jobBegin_taken hb h1 h7 hi ho, if_pos hm]
      obtain ⟨hj, hin, hout, herr, hcrc, hhold⟩ := State.rd_jobStarted he
      exact ⟨_, rfl, hj, hin, hout, herr, hcrc, hhold, congrArg Job.input (s.job_jobStarted n), s.loam_jobStarted n⟩
    · rw [exec_jobStart hn hr hb hv, State.jobBegin_taken hb h1 h7 hi ho, if_neg (by simp [hm])]
      obtain ⟨hj, herr, -⟩ := State.rd_engineError (s := s.jobStarted n) (by rwa [State.jobStarted_hw]) 14 0
      exact ⟨_, rfl, hj, herr, (State.loam_engineError ..).trans (s.loam_jobStarted n)⟩
    · rw [exec_jobStart hn hr hb hv, State.jobBegin_refused hb h1 h7 h]
      exact ⟨_, rfl, State.jobRefused_spec he⟩
    · rw [exec_jobStart hn hr hb hv, State.jobBegin_ignored hb h]
    · obtain ⟨hj, hl, hjob⟩ := State.jobResumed_spec (v.getLsbD 4) (v.getLsbD 5) he
      refine ⟨fun h4 h5 hm => ?_, fun h4 hbad hi ho hm => ?_, fun h5 ho hi hm => ?_, fun h => ?_⟩
      · rw [exec_jobResume_runs hn hr hb hv hst (State.refusesNew_eq_false_iff.2 ⟨.inl h4, .inl h5⟩) hm]
        exact ⟨_, rfl, hj, by rw [hjob, h4, h5]; rfl, hl⟩
      · rw [exec_jobResume_runs hn hr hb hv hst (State.refusesNew_eq_false_iff.2 ⟨.inr hi, ho⟩) hm]
        exact ⟨_, rfl, hj, hl, by rw [hjob, h4, State.resumeJob_input _ hbad]⟩
      · rw [exec_jobResume_runs hn hr hb hv hst (State.refusesNew_eq_false_iff.2 ⟨hi, .inr ho⟩) hm]
        refine ⟨_, rfl, hj, hl, ?_⟩
        rw [hjob, h5]
        exact State.resumeJob_output _ s n
      · rw [exec_jobResume_refused hn hr hb hv hst (State.refusesNew_iff.2 h)]
        obtain ⟨hj, herr, -⟩ := State.rd_engineError he 13 0
        exact ⟨_, rfl, hj, herr, State.loam_engineError ..⟩
    · rw [exec_jobResume hn hr hb hv, State.jobAgain_ignored _ _ (by simp [State.resumable, h2, h3, h4])]
    · rw [exec_jobStop hn hr hb]
      obtain ⟨y, h⟩ | h := State.jobHalt_cases hb hst u
      · obtain ⟨hj, hev, -⟩ := State.rd_jobHalted he 4 y (.inl rfl)
        exact ⟨_, congrArg _ h, .inl hj, hev⟩
      · obtain ⟨hj, hev, hout, -⟩ := State.rd_jobHalted he 2 (s.jobRun n) (.inl rfl)
        exact ⟨_, congrArg _ h, .inr ⟨hj, hout⟩, hev⟩
    · rw [exec_jobStop hn hr hb, State.jobHalt_ignored hst]
    · rw [exec_jobAbort hn hr hb, State.jobDrop_taken hb hst]
      exact ⟨_, rfl, State.jobForget_spec he 0⟩
    · rw [exec_jobAbort hn hr hb, State.jobDrop_ignored hst]
  · have he := State.engine_of_buffers hb
    have hn' : n < 24 := by omega
    refine ⟨fun h hm => ⟨_, exec_jobOutFull hn' s, ?_⟩, fun h hm => ⟨_, exec_jobNeedInput hn' s, ?_⟩,
      fun h hm => ⟨_, exec_jobDone hn' s, ?_⟩, fun c p h => ?_, fun hbad => ?_⟩
    · rw [State.jobReach_halted hb hst hm h]
      obtain ⟨hj, hev, hout, -⟩ := State.rd_jobHalted he 2 (s.jobRun n) (.inl rfl)
      exact ⟨hj, hev, hout⟩
    · rw [State.jobReach_halted hb hst hm h]
      obtain ⟨hj, hev, -, hin, -⟩ := State.rd_jobHalted he 3 (s.jobRun n) (.inl rfl)
      exact ⟨hj, hev, hin⟩
    · rw [State.jobReach_halted hb hst hm h]
      obtain ⟨hj, hev, -, -, hcrc⟩ := State.rd_jobHalted he 5 (s.jobRun n) (.inr rfl)
      exact ⟨hj, hev, hcrc⟩
    · rw [exec_jobError hn', jobFails_run hb hst, State.jobStopAt_error s n h]
      exact ⟨_, rfl, State.rd_engineError (by rwa [State.hw_errorShown]) c p⟩
    · obtain ⟨t, c, p, ht, hw⟩ := jobFails_bus hb hst hbad
      obtain ⟨hj, -, hev⟩ := State.rd_engineError (s := t) (hw ▸ he) c p
      exact ⟨_, (exec_jobError hn' true s).trans (congrArg _ ht), hj, hev⟩

end Sys2Proof.Machine

/-! PROOFS. The statements on scan timing: starts of scan, facet lock and its end, the synthesiser's lock and the timing sets. -/

namespace Sys2Proof.Machine

open Sys2Proof

/-! ### The lock of a station stays in the operations that a scan is made of (R161, R175) -/

/-- The fields that tell whether a station is locked and what ended its lock (R165). -/
def isLock : Fld → Bool
  | .btu .flock | .btu .flockArb | .btu .ready | .btu .synLock | .btu .sosLost => true
  | _ => false

/-- The lock fields of every station read in `s` as in `a`. -/
structure KeepsLock (a s : State) : Prop where
  rd (f : Fld) (i : Nat) : isLock f = true → s.rd f i = a.rd f i

theorem KeepsLock.refl (s : State) : KeepsLock s s := ⟨fun _ _ _ => rfl⟩

section KeepsLock

variable {a s : State} (h : KeepsLock a s)

include h

/-- An update that leaves the register fields. -/
theorem KeepsLock.upd {t : State} (hr : t.regs = s.regs) (hw : t.hw = s.hw) : KeepsLock a t :=
  ⟨fun f i hf => by rw [← h.rd f i hf, State.rd, State.rd, hr, hw]⟩

theorem KeepsLock.wr {f : Fld} {i v : Nat} (hf : isLock f = false) : KeepsLock a (s.wr f i v) :=
  ⟨fun g j hg => (s.rd_wr_ne (fun e => by simp_all) v).trans (h.rd g j hg)⟩

theorem KeepsLock.setStn (k : Nat) (x : Stn) : KeepsLock a (s.setStn k x) := h.upd rfl rfl

theorem KeepsLock.setLnk (k : Nat) (x : Lnk) : KeepsLock a (s.setLnk k x) := h.upd rfl rfl

theorem KeepsLock.setCtx (c : Nat) (x : Ctx) : KeepsLock a (s.setCtx c x) := h.upd rfl rfl

theorem KeepsLock.emit (o : Out) : KeepsLock a (s.emit o) := h.upd rfl rfl

theorem KeepsLock.ite {t : State} {p : Prop} [Decidable p] (g : KeepsLock a t) : KeepsLock a (if p then s else t) := by
  split <;> assumption

theorem KeepsLock.foldl {α : Type} {f : State → α → State} {l : List α} (hf : ∀ t x, KeepsLock a t → KeepsLock a (f t x)) :
    KeepsLock a (l.foldl f s) :=
  List.foldlRecOn (motive := KeepsLock a) l f h fun t ht x _ => hf t x ht

/-- A fold that carries a value along with the state. -/
theorem KeepsLock.foldlFst {α β : Type} {f : State × β → α → State × β} {l : List α} {b : β}
    (hf : ∀ t x, KeepsLock a t.1 → KeepsLock a (f t x).1) : KeepsLock a (l.foldl f (s, b)).1 :=
  List.foldlRecOn (motive := fun t => KeepsLock a t.1) l f h fun t ht x _ => hf t x ht

/-! #### Sheets (R82 to R93) -/

theorem KeepsLock.enqueue (p kind unit : Nat) (data : List Nat) : KeepsLock a (s.enqueue p kind unit data) := by
  obtain ⟨o, pc, tk, ds, e⟩ := s.enqueue_eq p kind unit data
  exact e ▸ h.upd rfl rfl

theorem KeepsLock.post (kind unit : Nat) (data : List Nat) : KeepsLock a (s.post kind unit data) := by
  unfold State.post
  dsimp only
  split
  · exact h.ite (h.upd rfl rfl)
  · exact (h.enqueue ..).ite ((h.wr rfl).ite (h.upd rfl rfl))

theorem KeepsLock.broadcast (kind : Nat) (data : List Int) : KeepsLock a (s.broadcast kind data) := by
  obtain ⟨o, e⟩ := s.broadcast_eq kind data
  exact e ▸ h.upd rfl rfl

theorem KeepsLock.upward (kind : Nat) (data : List Int) : KeepsLock a (s.upward kind data) := h.emit _

theorem KeepsLock.toState (c : Nat) (st : CtxState) : KeepsLock a (s.toState c st) :=
  ((h.setCtx c _).wr rfl).ite (h.setCtx c _)

theorem KeepsLock.verifyIdle (b : Band) : KeepsLock a (s.verifyIdle b) := ((h.wr rfl).wr rfl).ite h

theorem KeepsLock.reclaimCtx (c : Nat) : KeepsLock a (s.reclaimCtx c) :=
  h.foldl fun t r ht => (ht.verifyIdle (t.band r)).upd rfl rfl

theorem KeepsLock.settleGate : KeepsLock a s.settleGate := (h.foldl fun _ _ ht => ht.ite (ht.wr rfl)).wr rfl

theorem KeepsLock.settleCtx (c : Nat) : KeepsLock a (s.settleCtx c) := by
  unfold State.settleCtx
  dsimp only
  split
  · split
    · exact ((h.toState c .exposed).reclaimCtx c).settleGate
    · exact (h.reclaimCtx c).settleGate
    · exact h.settleGate
  · exact h.settleGate

theorem KeepsLock.spoilHere (c cause : Nat) : KeepsLock a (s.spoilHere c cause) := by
  unfold State.spoilHere
  extract_lets x spoiled closed noted posed
  have hs : KeepsLock a spoiled := (h.setCtx c _).toState c .spoiled
  have hc : KeepsLock a closed := hs.upd rfl rfl
  have hn : KeepsLock a noted := (hc.wr rfl).ite hc
  exact (((hn.wr rfl).post 7 c _).ite hn : KeepsLock a posed).settleCtx c

theorem KeepsLock.spoil (c cause : Nat) : KeepsLock a (s.spoil c cause) := by
  unfold State.spoil
  dsimp only
  have hs := h.spoilHere c cause
  split
  · split
    · exact hs
    · exact hs.broadcast ..
    · exact hs.upward ..
  · exact h

theorem KeepsLock.darken (c p n : Nat) : KeepsLock a (s.darken c p n) := h.upd rfl rfl

theorem KeepsLock.darkenAll (c : Nat) : KeepsLock a (s.darkenAll c) := h.foldl fun _ p ht => ht.darken c p 0

theorem KeepsLock.spoilStation (k cause : Nat) : KeepsLock a (s.spoilStation k cause) :=
  KeepsLock.foldl (h.foldl fun _ c ht => ht.darken c k 0) fun _ c ht => ht.spoil c cause

theorem KeepsLock.endStation (k : Nat) : KeepsLock a (s.endStation k) := by
  unfold State.endStation
  extract_lets cs ended left emptied
  have he : KeepsLock a ended := h.foldl fun _ _ ht => ht.setCtx ..
  exact (he.setStn k _ : KeepsLock a emptied).foldl fun _ c ht => ht.settleCtx c

theorem KeepsLock.webStop (cause : Nat) : KeepsLock a (s.webStop cause) := by
  unfold State.webStop
  split
  · exact ((h.wr (f := .pth .stopCause) (i := 0) (v := cause) rfl).wr (f := .pth .wstate) (i := 0) (v := 2) rfl).upd rfl rfl
  · exact h.upd rfl rfl
  · exact h

theorem KeepsLock.stall (c : Nat) : KeepsLock a (s.stall c) := by
  unfold State.stall
  dsimp only
  have hs := (h.setCtx c { s.ctx c with stalledImaging := (s.ctx c).st == .imaging }).toState c .stalled
  exact (((hs.upward 16 _).ite hs).webStop 1).ite (h.webStop 1)

theorem KeepsLock.failRecord (r : Nat) : KeepsLock a (s.failRecord r) := h.upd rfl rfl

theorem KeepsLock.late (w : Late) (c p r n : Nat) : KeepsLock a (s.late w c p r n) := by
  unfold State.late
  extract_lets cause dark x
  have hd : KeepsLock a dark := h.darken c p n
  exact ((((hd.failRecord r).setCtx ..).stall c).ite hd).ite (hd.spoil c cause)

/-! #### Silt (R101, R159, R160) -/

theorem KeepsLock.countSingles (b : Band) (n : Nat) : KeepsLock a (s.countSingles b n) := h.wr (f := .pgs .eccCe) rfl

theorem KeepsLock.ueHit (b : Nat) : KeepsLock a (s.ueHit b) :=
  ((h.wr (f := .pgs .eccUe) rfl).wr (f := .pgs .eccAddr) rfl).wr (f := .pgs .ueEvent) rfl

theorem KeepsLock.imagingStop (k c r code pos produced : Nat) : KeepsLock a (s.imagingStop k c r code pos produced) :=
  KeepsLock.late ((((h.wr rfl).wr rfl).wr rfl).wr rfl : KeepsLock a (s.engineError _ code pos)) ..

theorem KeepsLock.imagingRead (k c r o : Nat) : KeepsLock a (s.imagingRead k c r o) := by
  unfold State.imagingRead
  extract_lets b d counted met
  have hc : KeepsLock a counted := h.countSingles ..
  have hm : KeepsLock a met := (hc.ueHit _).ite hc
  exact h.ite (hm.imagingStop ..)

theorem KeepsLock.siltBand (k c avail i : Nat) : KeepsLock a (s.siltBand k c avail i) := by
  unfold State.siltBand
  extract_lets x q first stop dark
  split
  · exact h
  · split
    · exact h
    · exact (h.late ..).ite (((h.imagingStop ..).ite h).ite (h.ite
        (((h.countSingles ..).ite h).ite ((h.imagingRead ..).ite h))))

theorem KeepsLock.siltAdvance (k c avail : Nat) : KeepsLock a (s.siltAdvance k c avail) :=
  (h.foldl fun _ _ ht => ht.siltBand ..).setCtx ..

theorem KeepsLock.siltMiss (k : Nat) (im : Imaging) (n : Nat) : KeepsLock a (s.siltMiss k im n) := by
  unfold State.siltMiss
  extract_lets x band missed
  have hm : KeepsLock a missed := h.wr rfl
  split
  · next r _ => exact (hm.failRecord r).late ..
  · exact (hm.darken ..).spoil ..

theorem KeepsLock.siltCheck (k j : Nat) (drain : Bool) (decoded : Nat) : KeepsLock a (s.siltCheck k j drain decoded) := by
  refine h.foldlFst fun t im ht => ?_
  have ha := ht.siltAdvance k im.ctx t.2
  dsimp only
  split
  · exact ha.siltMiss ..
  · exact ha

/-! #### Beams and the link (R163, R175, R182) -/

theorem KeepsLock.setBeamSt (k b st cause : Nat) : KeepsLock a (s.setBeamSt k b st cause) :=
  (h.wr (f := .blk .beamState) rfl).wr (f := .blk .beamCause) rfl

theorem KeepsLock.beamTakeOut (k b : Nat) : KeepsLock a (s.beamTakeOut k b) := by
  unfold State.beamTakeOut
  extract_lets was x commanded p out
  have hc : KeepsLock a commanded := h.setLnk ..
  have ho : KeepsLock a out := hc.setBeamSt ..
  exact hc.ite (((ho.setLnk ..).setLnk ..).ite (ho.ite ((ho.setBeamSt ..).ite (ho.setLnk ..))))

theorem KeepsLock.closeTakeover (k b : Nat) : KeepsLock a (s.closeTakeover k b) := h.upd rfl rfl

theorem KeepsLock.boundaryBeam (k b : Nat) : KeepsLock a (s.boundaryBeam k b) := by
  unfold State.boundaryBeam
  extract_lets p out x answered back alone
  have ho : KeepsLock a out := (h.beamTakeOut k b).ite h
  have ha : KeepsLock a answered := KeepsLock.ite (ho.setLnk ..) ho
  have hb : KeepsLock a back := (ha.setBeamSt ..).setLnk ..
  have hl : KeepsLock a alone := (hb.setBeamSt ..).ite hb
  exact (hl.closeTakeover k b).ite ha

theorem KeepsLock.stationBoundary (k : Nat) : KeepsLock a (s.stationBoundary k) := by
  unfold State.stationBoundary
  extract_lets released beams l
  have hr : KeepsLock a released := h.upd rfl rfl
  have hb : KeepsLock a beams := hr.foldl fun _ e ht => ht.boundaryBeam k e.1
  exact (hb.setLnk ..).setStn ..

theorem KeepsLock.toLink (k st : Nat) : KeepsLock a (s.toLink k st) :=
  KeepsLock.ite ((h.wr (f := .blk .lstate) rfl).spoilStation k 7) (h.wr rfl)

theorem KeepsLock.linkStandby (k : Nat) : KeepsLock a (s.linkStandby k) := by
  unfold State.linkStandby
  extract_lets left x begun dark
  have hl : KeepsLock a left := (h.toLink k 4).emit _
  have hb : KeepsLock a begun := hl.setLnk ..
  have hd : KeepsLock a dark := hb.foldl fun _ _ ht => ((ht.wr (f := .blk .driveN) rfl).wr (f := .blk .driveF) rfl).setLnk ..
  exact hd.ite ((hd.wr (f := .blk .lstate) rfl).emit _)

theorem KeepsLock.tryActive (k : Nat) : KeepsLock a (s.tryActive k) := KeepsLock.ite ((h.wr (f := .blk .lstate) rfl).emit _) h

theorem KeepsLock.sends {α : Type} {k ty : Nat} {w : α → List Nat} {l : List α} :
    KeepsLock a (l.foldl (fun t x => t.send k ty (w x)) s) := h.foldl fun _ _ ht => ht.emit _

theorem KeepsLock.hostDrive (k b : Nat) (x d : BlkF) (lv : Nat) : KeepsLock a (s.hostDrive k b x d lv) :=
  h.ite ((h.wr (f := .blk d) rfl).setLnk ..)

theorem KeepsLock.sendDrives (k : Nat) : KeepsLock a (s.sendDrives k) := by
  have hd : KeepsLock a (s.hostDrives k) := KeepsLock.ite (h.foldl fun _ b ht => (ht.hostDrive ..).hostDrive ..) h
  exact KeepsLock.sends (hd.setLnk ..)

theorem KeepsLock.apcCommand (k j f : Nat) (c : Clock) (skip : Bool) : KeepsLock a (s.apcCommand k j f c skip).1 := by
  unfold State.apcCommand
  extract_lets l begun es
  have hb : KeepsLock a begun := by
    unfold begun
    split
    · exact h.setLnk ..
    · exact h
  split
  · exact hb
  · split
    · exact hb.wr rfl
    · exact hb.setLnk ..

/-! #### One scan (R175) -/

theorem KeepsLock.drainStep (k : Nat) : KeepsLock a (s.drainStep k) := (h.setStn ..).ite (h.setStn ..)

theorem KeepsLock.finishContexts (k j : Nat) : KeepsLock a (s.finishContexts k j) := by
  unfold State.finishContexts
  extract_lets x ended left
  exact (h.setStn .. : KeepsLock a left).foldl fun _ _ ht => (ht.setCtx ..).settleCtx _

theorem KeepsLock.halfStart (k : Nat) : KeepsLock a (s.halfStart k) := by
  unfold State.halfStart
  extract_lets x
  split
  · exact h.ite (((h.setStn ..).wr (f := .blk .halflines) rfl).setLnk ..)
  · exact h

theorem KeepsLock.setClock (k : Nat) (c : Clock) : KeepsLock a (s.setClock k c) := by
  unfold State.setClock
  extract_lets shown r x clamped
  have hs : KeepsLock a shown := h.wr rfl
  have hc : KeepsLock a clamped := KeepsLock.ite ((hs.wr (f := .btu .trackClamp) rfl).setStn ..) hs
  exact (hc.wr rfl).ite hc

theorem KeepsLock.placeAll (k j : Nat) (c : Clock) (tj : Int) : KeepsLock a (s.placeAll k j c tj) := by
  refine KeepsLock.setStn (h.foldlFst fun r im ht => ?_) k _
  extract_lets t last show_
  have hshow (t : State) (o : Nat) (res : Option Int) (ht : KeepsLock a t) : KeepsLock a (show_ t o res) := by
    unfold show_
    split
    · exact ((ht.wr rfl).wr rfl).wr rfl
    · exact (ht.wr rfl).wr rfl
  clear_value show_
  split
  · exact ht
  · split
    · exact hshow _ _ _ (ht.setStn ..)
    · split
      · exact hshow _ _ _ (ht.setStn ..)
      · exact ht
    · exact ht

theorem KeepsLock.startImaging (c : Nat) : KeepsLock a (s.startImaging c) := by
  unfold State.startImaging
  extract_lets x begun
  have hb : KeepsLock a begun := h.toState c .imaging
  exact KeepsLock.ite ((((hb.setCtx ..).darkenAll c).spoil c 7).ite hb) h

theorem KeepsLock.scanPhase (k j : Nat) : KeepsLock a (s.scanPhase k j) := by
  unfold State.scanPhase
  split
  · exact h
  · extract_lets e shown x
    have hs : KeepsLock a shown := h.wr rfl
    exact KeepsLock.ite ((hs.wr (f := .btu .phaseEv) rfl).setStn ..) hs

theorem KeepsLock.lateScan (k : Nat) (act : List Imaging) : KeepsLock a (s.lateScan k act) :=
  (h.wr (f := .blk .setLate) rfl).foldl fun _ im ht => (ht.darken ..).spoil im.ctx 7

theorem KeepsLock.sendScan (k j f : Nat) (c : Clock) (start : Int) (skip : Bool) (gen : Nat) (en : List (Nat × Imaging × Int))
    (seen : List Imaging) : KeepsLock a (s.sendScan k j f c start skip gen en seen) := by
  unfold State.sendScan
  extract_lets driven lit w origin q full asked said beaten told l
  have hq : KeepsLock a q.1 := by
    unfold q
    split
    · exact (h.sendDrives k).apcCommand ..
    · exact h.sendDrives k
  have hs : KeepsLock a said := hq.emit _
  have hb : KeepsLock a beaten := hs.foldl fun _ _ ht => ht.emit _
  have ht : KeepsLock a told := KeepsLock.ite (hb.emit _) hb
  exact ht.setLnk ..

theorem KeepsLock.performScan (k T mark decoded : Nat) (bridged : Bool) :
    KeepsLock a (s.performScan k T mark decoded bridged) := by
  unfold State.performScan
  extract_lets j f drained ended finished bounded halved c clocked fix placed marked drain room checked act late gen l noted set live en
    seen begun phased filled sent
  have hf : KeepsLock a finished := (h.drainStep k).finishContexts k j
  have hb : KeepsLock a bounded := (hf.stationBoundary k).ite hf
  have hc : KeepsLock a clocked := (hb.halfStart k).setClock k c
  have hp : KeepsLock a placed := hc.ite (hc.placeAll ..)
  have hm : KeepsLock a marked := hp.setStn ..
  have hn : KeepsLock a noted := (hm.siltCheck k j drain room).setLnk ..
  have hs : KeepsLock a set := (hn.lateScan k act).ite hn
  have hg : KeepsLock a begun := hs.foldl fun _ im ht => (ht.startImaging im.ctx).setCtx ..
  have hw : KeepsLock a filled := (hg.scanPhase k j).wr rfl
  have ht : KeepsLock a sent := (hw.sendScan ..).ite hw
  exact (ht.setStn k _).wr rfl

end KeepsLock

theorem KeepsLock.on {a s : State} (h : KeepsLock a s) {f : Fld} (hf : isLock f = true) (i : Nat) : s.on f i = a.on f i := by
  rw [State.on_eq, State.on_eq, h.rd f i hf]

/-! ### The fields of a station (R2, R165) -/

theorem State.stations_of_vidUp {s : State} {k : Nat} (h : s.vidUp k = true) : k < s.hw.stations := by
  simp_all [State.vidUp]

/-- A field that a station has once is populated on every station of the module. -/
theorem populated_station {hw : Hardware} {k : Nat} (h : k < hw.stations) {f : BtuF}
    (hf : (Fld.btu f).row.n2 * (Fld.btu f).row.n3 = 1) : populated hw (.btu f) k = true := by
  show decide ((Fld.btu f).outer k < hw.stations) = true
  rw [Fld.outer, hf, Nat.div_one, decide_eq_true h]

theorem State.rd_eq_zero_of_off {s : State} {f : Fld} {i : Nat} (h : s.on f i = false) : s.rd f i = 0 := by
  simpa [State.on_eq] using h

theorem State.sameButRegs_writeFper (s : State) (k : Nat) : s.SameButRegs (s.writeFper k) :=
  State.SameButRegs.foldl (fun t _ => t.sameButRegs_wr ..) _ s

theorem State.rd_writeFper (s : State) (k : Nat) {f : Fld} (hf : f ≠ .btu .fper) (i : Nat) : (s.writeFper k).rd f i = s.rd f i :=
  foldl_unchanged (g := fun t => t.rd f i) (fun t _ => t.rd_wr_ne (fun e => hf (congrArg Prod.fst e)) _) _ s

/-- The periods that the facet in hand leaves are shown (R151). -/
def State.periodsShown (s : State) (k : Nat) : State := (s.writeFper k).writeRevper k

theorem State.sameButRegs_periodsShown (s : State) (k : Nat) : s.SameButRegs (s.periodsShown k) :=
  (s.sameButRegs_writeFper k).trans (State.sameButRegs_wr ..)

theorem State.rd_periodsShown (s : State) (k : Nat) {f : Fld} (h1 : f ≠ .btu .fper) (h2 : f ≠ .btu .revper) (i : Nat) :
    (s.periodsShown k).rd f i = s.rd f i :=
  (State.rd_wr_ne _ (fun e => h2 (congrArg Prod.fst e)) _).trans (s.rd_writeFper k h1 i)

theorem State.SameButRegs.stn {s t : State} (h : s.SameButRegs t) (k : Nat) : t.stn k = s.stn k := by obtain ⟨r, rfl⟩ := h; rfl

theorem KeepsLock.periodsShown {a s : State} (h : KeepsLock a s) (k : Nat) : KeepsLock a (s.periodsShown k) :=
  KeepsLock.wr (h.foldl fun _ _ ht => ht.wr rfl) rfl

/-! ### A scan is counted (R140, R175) -/

theorem State.performScan_counts {s : State} {k : Nat} (hk : k < s.hw.stations) (T mark decoded : Nat) (bridged : Bool) :
    ((s.performScan k T mark decoded bridged).stn k).j = (s.stn k).j + 1 ∧
      (s.performScan k T mark decoded bridged).rd (.btu .scancnt) k = ((s.stn k).j + 1) % 2 ^ 32 := by
  obtain ⟨u, x, hx, hu⟩ : ∃ (u : State) (x : Stn), x.j = (s.stn k).j + 1 ∧
      s.performScan k T mark decoded bridged = (u.setStn k x).wr (.btu .scancnt) k ((s.stn k).j + 1) := ⟨_, _, rfl, rfl⟩
  have hw : u.hw = s.hw := by
    have := (State.performScan_keeps (b₀ := true) (.refl s) k T mark decoded bridged).hw
    rwa [hu, State.wr_hw, State.setStn_hw] at this
  rw [hu, State.stn_wr, State.stn_setStn_same]
  exact ⟨hx, State.rd_wr_same (u.setStn k x) (populated_station (hw ▸ hk : k < u.hw.stations) rfl) _⟩

/-! ### Facet lock and its end (R150, R161) -/

theorem State.tryActive_frame (s : State) (k : Nat) :
    (s.tryActive k).stn k = s.stn k ∧ ∀ f i, f ≠ .blk .lstate → (s.tryActive k).rd f i = s.rd f i := by
  unfold State.tryActive
  split
  · exact ⟨State.stn_wr .., fun f i hf => State.rd_wr_ne s (fun e => hf (congrArg Prod.fst e)) _⟩
  · exact ⟨rfl, fun _ _ _ => rfl⟩

theorem State.rd_settleReady (s : State) (k : Nat) {f : Fld} (hf : f ≠ .btu .ready) (i : Nat) : (s.settleReady k).rd f i = s.rd f i :=
  s.rd_wr_ne (fun e => hf (congrArg Prod.fst e)) _

/-- The station as facet lock is told, before its periods, READY and its link follow. -/
def State.lockTold (s : State) (k : Nat) (arb : Bool) : State :=
  let t := s.setStn k { s.stn k with j := 0, sinceLock := 0, record := [], misses := 0 }
  ((t.wr (.btu .flock) k 1).wrB (.btu .flockArb) k arb).wr (.btu .scancnt) k 0

/-- The fields that facet lock writes. -/
def lockWrites : List Fld := [.btu .flock, .btu .flockArb, .btu .scancnt, .btu .fper, .btu .ready, .blk .lstate]

theorem State.rd_lockTold (s : State) (k : Nat) (arb : Bool) {f : Fld} (hf : f ∉ lockWrites) (i : Nat) :
    (s.lockTold k arb).rd f i = s.rd f i := by
  simp only [lockWrites, List.mem_cons, List.not_mem_nil, or_false, not_or] at hf
  simp [State.lockTold, State.wrB_eq, State.rd_wr, hf]

theorem State.lockFacet_frame (s : State) (k : Nat) (arb : Bool) :
    (s.lockFacet k arb).stn k = (s.lockTold k arb).stn k ∧
      ∀ f i, f ∉ [Fld.btu .fper, .btu .ready, .blk .lstate] → (s.lockFacet k arb).rd f i = (s.lockTold k arb).rd f i := by
  obtain ⟨hs, hrd⟩ := (((s.lockTold k arb).writeFper k).settleReady k).tryActive_frame k
  refine ⟨hs.trans ((State.stn_wr ..).trans (((s.lockTold k arb).sameButRegs_writeFper k).stn k)), fun f i hf => ?_⟩
  simp only [List.mem_cons, List.not_mem_nil, or_false, not_or] at hf
  obtain ⟨h1, h2, h3⟩ := hf
  exact ((hrd f i h3).trans (State.rd_settleReady _ k h2 i)).trans (State.rd_writeFper _ k h1 i)

theorem State.rd_lockFacet (s : State) (k : Nat) (arb : Bool) {f : Fld} (hf : f ∉ lockWrites) (i : Nat) :
    (s.lockFacet k arb).rd f i = s.rd f i :=
  ((s.lockFacet_frame k arb).2 f i fun h => hf (List.mem_of_mem_drop (i := 3) h)).trans (s.rd_lockTold k arb hf i)

/-- A station that gains facet lock is told to be locked, and counts its scans from 0. -/
theorem State.lockFacet_spec {s : State} {k : Nat} (hk : k < s.hw.stations) (arb : Bool) :
    (s.lockFacet k arb).rd (.btu .flock) k = 1 ∧ (s.lockFacet k arb).rd (.btu .flockArb) k = bit arb ∧
      (s.lockFacet k arb).rd (.btu .scancnt) k = 0 ∧
      (s.lockFacet k arb).stn k = { s.stn k with j := 0, sinceLock := 0, record := [], misses := 0 } := by
  obtain ⟨hs, hrd⟩ := s.lockFacet_frame k arb
  rw [hs, hrd _ _ (by decide), hrd _ _ (by decide), hrd _ _ (by decide)]
  have hb : bit arb % 2 ^ (Fld.btu .flockArb).row.width = bit arb := by cases arb <;> rfl
  have hw : (Fld.btu .flock).row.width = 1 := rfl
  simp [State.lockTold, State.wrB_eq, State.rd_wr, hb, hw, populated_station hk (f := .flock) rfl,
    populated_station hk (f := .flockArb) rfl, populated_station hk (f := .scancnt) rfl]

/-- The lock bits of a station as the end of facet lock leaves them. -/
def State.unlocked (s : State) (k : Nat) : State := ((s.clr (.btu .flock) k).clr (.btu .flockArb) k).clr (.btu .ready) k

theorem State.keepsLock_loseLock (s : State) (k : Nat) : KeepsLock (s.unlocked k) (s.loseLock k) := by
  unfold State.loseLock
  extract_lets unlocked still spoiled ended x dark
  have hs : KeepsLock (s.unlocked k) still := (KeepsLock.refl (s.unlocked k)).wr rfl
  have he : KeepsLock (s.unlocked k) ended := (hs.spoilStation k 7).endStation k
  have hd : KeepsLock (s.unlocked k) dark := he.setStn ..
  exact (hd.linkStandby k).ite hd

/-- Facet lock and READY end; what ended them, and the synthesiser's lock, stay to be read. -/
theorem State.rd_loseLock (s : State) (k : Nat) :
    (s.loseLock k).rd (.btu .flock) k = 0 ∧ (s.loseLock k).rd (.btu .ready) k = 0 ∧
      (s.loseLock k).rd (.btu .sosLost) k = s.rd (.btu .sosLost) k ∧ (s.loseLock k).rd (.btu .synLock) k = s.rd (.btu .synLock) k := by
  have h := s.keepsLock_loseLock k
  refine ⟨(h.rd _ k rfl).trans ?_, (h.rd _ k rfl).trans ?_, (h.rd _ k rfl).trans ?_, (h.rd _ k rfl).trans ?_⟩ <;>
    simp [State.unlocked, State.rd_clr]

/-! ### SCAN_START (R149, R150, R372) -/

theorem exec_scanStart {k fine : Nat} (hk : k < 8) (hf : fine < 500) (sos mark decoded : Nat) (s : State) :
    exec (.scanStart k sos fine mark decoded) s = .next (scanStart k sos fine mark decoded s) := by
  show guardWF (decide (k < 8) && decide (fine < 500)) _ = _
  rw [decide_eq_true hk, decide_eq_true hf, Bool.and_true, guardWF_true]

theorem State.takeSos_stn (s : State) (k T : Nat) :
    ((s.takeSos k T).stn k).j = (s.stn k).j ∧ ((s.takeSos k T).stn k).sos = some T ∧
      ((s.stn k).sos = none → ((s.takeSos k T).stn k).facet = 0) := by
  unfold State.takeSos
  extract_lets x n locked facet x'
  rw [State.stn_setStn_same]
  unfold x'
  split
  · next hs => exact ⟨rfl, rfl, fun _ => if_pos (.inr (Option.isNone_iff_eq_none.2 hs))⟩
  · next last hs => exact ⟨rfl, rfl, fun h => nomatch hs.symm.trans h⟩

/-- An edge that is no glitch is taken over, and recorded unless the station recalibrates (R148, R372). -/
def State.edgeRecorded (s : State) (k sos fine : Nat) : State :=
  let t := s.takeSos k (s.sosTime k sos fine)
  (if (s.stn k).recal then t else (t.wr (.btu .sos) k sos).wr (.btu .fine) k (s.sosFine k fine)).clr (.btu .bridged) k

/-- With an edge taken the misses in a row start over (R161). -/
def State.edgeTaken (s : State) (k sos fine : Nat) : State :=
  (s.edgeRecorded k sos fine).setStn k { (s.edgeRecorded k sos fine).stn k with misses := 0 }

/-- What the edge does to facet lock, on a station that was `locked` before it (R150). -/
def State.edgeLocks (s : State) (k : Nat) (locked byIndex : Bool) : State :=
  if locked || s.busy k then s
  else if byIndex then s.lockFacet k false
  else if !s.on (.btu .indexSrc) k && s.noSignature k then s.lockFacet k true
  else s

/-- The station after an edge, before the scan that it may start. -/
def State.edgeShown (s : State) (k sos fine : Nat) : State :=
  let t := (s.edgeTaken k sos fine).edgeLocks k (s.on (.btu .flock) k) (s.indexSos k)
  (t.wr (.btu .facet) k (t.stn k).facet).periodsShown k

/-- A station that is locked, with its synthesiser, runs the scan. -/
def State.scanIfLocked (s : State) (k T mark decoded : Nat) : State :=
  if s.on (.btu .flock) k && s.on (.btu .synLock) k then s.performScan k T mark decoded false else s

section ScanStart

variable {s : State} {k sos fine mark decoded last : Nat} (hv : s.vidUp k = true)

include hv

theorem scanStart_glitch (hs : (s.stn k).sos = some last) (hg : s.sosTime k sos fine < last + 10640000 ∨
    s.on (.btu .flock) k = true ∧ s.inWindow k last (s.sosTime k sos fine) = false) :
    scanStart k sos fine mark decoded s = s.wr (.btu .cntGlitch) k (satInc 32 (s.rd (.btu .cntGlitch) k)) := by
  unfold scanStart
  rw [if_neg (by simp [hv])]
  extract_lets x T fineNow locked glitch
  have hgl : glitch = true := by
    unfold glitch
    rw [show x.sos = some last from hs]
    simpa [locked, T] using hg
  rw [if_pos hgl]
  rfl

theorem scanStart_taken (hg : ∀ last, (s.stn k).sos = some last → last + 10640000 ≤ s.sosTime k sos fine ∧
    (s.on (.btu .flock) k = true → s.inWindow k last (s.sosTime k sos fine) = true)) :
    scanStart k sos fine mark decoded s = (s.edgeShown k sos fine).scanIfLocked k (s.sosTime k sos fine) mark decoded := by
  unfold scanStart
  rw [if_neg (by simp [hv])]
  extract_lets x T fineNow locked glitch
  have hgl : glitch = false := by
    unfold glitch
    split
    · rfl
    · next last hs =>
      obtain ⟨h1, h2⟩ := hg last hs
      cases hl : locked
      · simpa [T] using h1
      · simpa [T, h2 hl] using h1
  rw [if_neg (by simp [hgl])]
  rfl

end ScanStart

/-! ### The station after an edge -/

theorem State.sameButRegs_edgeRecorded (s : State) (k sos fine : Nat) :
    (s.takeSos k (s.sosTime k sos fine)).SameButRegs (s.edgeRecorded k sos fine) := by
  refine State.SameButRegs.trans ?_ (State.sameButRegs_wr ..)
  split
  · exact .refl _
  · exact (State.sameButRegs_wr ..).trans (State.sameButRegs_wr ..)

theorem State.edgeTaken_stn (s : State) (k sos fine : Nat) :
    ((s.edgeTaken k sos fine).stn k).j = (s.stn k).j ∧ ((s.edgeTaken k sos fine).stn k).sos = some (s.sosTime k sos fine) ∧
      ((s.stn k).sos = none → ((s.edgeTaken k sos fine).stn k).facet = 0) := by
  rw [State.edgeTaken, State.stn_setStn_same, (s.sameButRegs_edgeRecorded k sos fine).stn]
  exact s.takeSos_stn k _

/-- The fields that record an edge. -/
def edgeWrites : List Fld := [.btu .sos, .btu .fine, .btu .bridged]

theorem State.rd_edgeTaken (s : State) (k sos fine : Nat) {f : Fld} (hf : f ∉ edgeWrites) (i : Nat) :
    (s.edgeTaken k sos fine).rd f i = s.rd f i := by
  simp only [edgeWrites, List.mem_cons, List.not_mem_nil, or_false, not_or] at hf
  rw [State.edgeTaken, State.rd_setStn, State.edgeRecorded, State.rd_clr, if_neg (hf.2.2 ·.1)]
  split
  · rfl
  · rw [State.rd_wr, if_neg (hf.2.1 ·.1), State.rd_wr, if_neg (hf.1 ·.1)]
    rfl

theorem State.on_edgeTaken (s : State) (k sos fine : Nat) {f : Fld} (hf : f ∉ edgeWrites) (i : Nat) :
    (s.edgeTaken k sos fine).on f i = s.on f i := by rw [State.on_eq, s.rd_edgeTaken k sos fine hf i]; rfl

theorem State.hw_edgeTaken (s : State) (k sos fine : Nat) : (s.edgeTaken k sos fine).hw = s.hw :=
  (s.sameButRegs_edgeRecorded k sos fine).hw

theorem State.loam_edgeTaken (s : State) (k sos fine : Nat) : (s.edgeTaken k sos fine).loam = s.loam :=
  (s.sameButRegs_edgeRecorded k sos fine).loam

theorem State.busy_edgeTaken (s : State) (k sos fine : Nat) : (s.edgeTaken k sos fine).busy k = s.busy k := by
  rw [State.busy, State.loam_edgeTaken]; rfl

theorem State.noSignature_edgeTaken (s : State) (k sos fine : Nat) : (s.edgeTaken k sos fine).noSignature k = s.noSignature k := by
  simp only [State.noSignature, State.facets, s.rd_edgeTaken k sos fine (f := .btu .facets) (by decide),
    s.rd_edgeTaken k sos fine (f := .btu .fref) (by decide)]

/-- An edge that is taken on a station that does not recalibrate is shown (R148). -/
theorem State.rd_sos_edgeTaken {s : State} {k : Nat} (hk : k < s.hw.stations) (hr : (s.stn k).recal = false) (sos fine : Nat) :
    (s.edgeTaken k sos fine).rd (.btu .sos) k = sos % 2 ^ 64 := by
  have hp : populated (s.takeSos k (s.sosTime k sos fine)).hw (.btu .sos) k = true := populated_station hk rfl
  rw [State.edgeTaken, State.rd_setStn, State.edgeRecorded, if_neg (by simp [hr]), State.rd_clr, if_neg (by simp),
    State.rd_wr, if_neg (by simp), State.rd_wr_same _ hp]
  rfl

/-- What follows the lock decision shows the facet and its periods only. -/
theorem State.edgeShown_frame {s t : State} {k sos fine : Nat}
    (ht : (s.edgeTaken k sos fine).edgeLocks k (s.on (.btu .flock) k) (s.indexSos k) = t) :
    (s.edgeShown k sos fine).stn k = t.stn k ∧ (s.edgeShown k sos fine).hw = t.hw ∧ (s.edgeShown k sos fine).loam = t.loam ∧
      ∀ f i, f ∉ [Fld.btu .facet, .btu .fper, .btu .revper] → (s.edgeShown k sos fine).rd f i = t.rd f i := by
  subst ht
  unfold State.edgeShown
  extract_lets t
  have h := (t.sameButRegs_wr (.btu .facet) k (t.stn k).facet).trans (State.sameButRegs_periodsShown _ k)
  refine ⟨h.stn k, h.hw, h.loam, fun f i hf => ?_⟩
  simp only [List.mem_cons, List.not_mem_nil, or_false, not_or] at hf
  obtain ⟨h1, h2, h3⟩ := hf
  rw [State.rd_periodsShown _ k h2 h3, State.rd_wr, if_neg fun e => h1 e.1]

theorem State.edgeLocks_of_locked (s : State) (k : Nat) (byIndex : Bool) : s.edgeLocks k true byIndex = s := rfl

theorem State.scanIfLocked_locked {s : State} {k : Nat} (hl : s.on (.btu .flock) k = true) (hy : s.on (.btu .synLock) k = true)
    (T mark decoded : Nat) : s.scanIfLocked k T mark decoded = s.performScan k T mark decoded false :=
  if_pos (by rw [hl, hy]; rfl)

theorem State.scanIfLocked_unlocked {s : State} {k : Nat} (h : s.on (.btu .flock) k = false ∨ s.on (.btu .synLock) k = false)
    (T mark decoded : Nat) : s.scanIfLocked k T mark decoded = s := by
  rcases h with h | h <;> simp [State.scanIfLocked, h]

theorem State.keepsLock_scanIfLocked (s : State) (k T mark decoded : Nat) : KeepsLock s (s.scanIfLocked k T mark decoded) :=
  ((KeepsLock.refl s).performScan ..).ite (.refl s)

section Edges

variable {s : State} {k sos fine mark decoded last : Nat} (hv : s.vidUp k = true)

include hv

/-- On a locked station an edge in its window runs the next scan. -/
theorem scanStart_scans (hs : (s.stn k).sos = some last) (hl : s.on (.btu .flock) k = true) (hy : s.on (.btu .synLock) k = true)
    (hT : last + 10640000 ≤ s.sosTime k sos fine) (hw : s.inWindow k last (s.sosTime k sos fine) = true) :
    ((scanStart k sos fine mark decoded s).stn k).j = (s.stn k).j + 1 ∧
      (scanStart k sos fine mark decoded s).rd (.btu .scancnt) k = ((s.stn k).j + 1) % 2 ^ 32 := by
  have hk : k < s.hw.stations := State.stations_of_vidUp hv
  obtain ⟨hstn, hhw, -, hrd⟩ := State.edgeShown_frame (s := s) (k := k) (sos := sos) (fine := fine) (t := s.edgeTaken k sos fine)
    (by rw [hl, State.edgeLocks_of_locked])
  have hon (f : BtuF) (h1 : Fld.btu f ∉ [Fld.btu .facet, .btu .fper, .btu .revper]) (h2 : Fld.btu f ∉ edgeWrites) :
      (s.edgeShown k sos fine).on (.btu f) k = s.on (.btu f) k := by
    rw [State.on_eq, hrd _ k h1, s.rd_edgeTaken k sos fine h2]; rfl
  rw [scanStart_taken hv fun l h => by cases hs.symm.trans h; exact ⟨hT, fun _ => hw⟩,
    State.scanIfLocked_locked ((hon .flock (by decide) (by decide)).trans hl) ((hon .synLock (by decide) (by decide)).trans hy)]
  have hc := State.performScan_counts (s := s.edgeShown k sos fine) (by rwa [hhw, State.hw_edgeTaken]) (s.sosTime k sos fine) mark
    decoded false
  rwa [hstn, (s.edgeTaken_stn k sos fine).1] at hc

/-- A station without a signature to match gains an arbitrary lock at its next edge. -/
theorem scanStart_locks (hs : (s.stn k).sos = some last) (hl : s.on (.btu .flock) k = false) (hb : s.busy k = false)
    (hi : s.on (.btu .indexSrc) k = false) (hn : s.noSignature k = true) (hT : last + 10640000 ≤ s.sosTime k sos fine) :
    (scanStart k sos fine mark decoded s).rd (.btu .flock) k = 1 ∧ (scanStart k sos fine mark decoded s).rd (.btu .flockArb) k = 1 ∧
      (s.on (.btu .synLock) k = false → ((scanStart k sos fine mark decoded s).stn k).j = 0 ∧
        (scanStart k sos fine mark decoded s).rd (.btu .scancnt) k = 0 ∧
        ((s.stn k).recal = false → (scanStart k sos fine mark decoded s).rd (.btu .sos) k = sos % 2 ^ 64)) := by
  have hk : k < s.hw.stations := State.stations_of_vidUp hv
  have hit : (s.edgeTaken k sos fine).on (.btu .indexSrc) k = false := (s.on_edgeTaken k sos fine (by decide) k).trans hi
  have hlock : (s.edgeTaken k sos fine).edgeLocks k (s.on (.btu .flock) k) (s.indexSos k) = (s.edgeTaken k sos fine).lockFacet k true := by
    simp [State.edgeLocks, State.busy_edgeTaken, State.noSignature_edgeTaken, State.indexSos, hl, hb, hi, hit, hn]
  obtain ⟨hstn, -, -, hrd⟩ := State.edgeShown_frame hlock
  obtain ⟨hf, ha, hc, hx⟩ := State.lockFacet_spec (s := s.edgeTaken k sos fine) (k := k) (by rwa [State.hw_edgeTaken]) true
  have hkeeps := (s.edgeShown k sos fine).keepsLock_scanIfLocked k (s.sosTime k sos fine) mark decoded
  rw [scanStart_taken hv fun l h => by cases hs.symm.trans h; exact ⟨hT, fun h => by simp [hl] at h⟩]
  refine ⟨(hkeeps.rd _ k rfl).trans ((hrd _ k (by decide)).trans hf), (hkeeps.rd _ k rfl).trans ((hrd _ k (by decide)).trans ha),
    fun hy => ?_⟩
  have hyt : (s.edgeShown k sos fine).on (.btu .synLock) k = false := by
    rw [State.on_eq, hrd _ k (by decide), State.rd_lockFacet _ k true (by decide), s.rd_edgeTaken k sos fine (by decide)]
    exact hy
  rw [State.scanIfLocked_unlocked (.inr hyt), hstn, hx]
  refine ⟨rfl, (hrd _ k (by decide)).trans hc, fun hr => ?_⟩
  rw [hrd _ k (by decide), State.rd_lockFacet _ k true (by decide)]
  exact State.rd_sos_edgeTaken hk hr sos fine

/-- The first edge only starts the count where a signature or an index pulse has yet to number the facets. -/
theorem scanStart_first (hs : (s.stn k).sos = none) (hl : s.on (.btu .flock) k = false)
    (hn : s.on (.btu .indexSrc) k = true ∨ s.noSignature k = false) (hx : (s.stn k).index = false) :
    scanStart k sos fine mark decoded s = s.edgeShown k sos fine ∧ ((s.edgeShown k sos fine).stn k).sos = some (s.sosTime k sos fine) ∧
      ((s.edgeShown k sos fine).stn k).facet = 0 ∧ (s.edgeShown k sos fine).rd (.btu .flock) k = 0 ∧
      (s.edgeShown k sos fine).loam = s.loam := by
  have hindex : s.indexSos k = false := by simp [State.indexSos, hx]
  have hnot : (!(s.edgeTaken k sos fine).on (.btu .indexSrc) k && (s.edgeTaken k sos fine).noSignature k) = false := by
    rw [State.noSignature_edgeTaken, s.on_edgeTaken k sos fine (by decide)]
    rcases hn with hn | hn <;> simp [hn]
  have hstays : (s.edgeTaken k sos fine).edgeLocks k (s.on (.btu .flock) k) (s.indexSos k) = s.edgeTaken k sos fine := by
    simp [State.edgeLocks, hindex, hnot]
  obtain ⟨hstn, -, hloam, hrd⟩ := State.edgeShown_frame hstays
  obtain ⟨-, hsos, hfacet⟩ := s.edgeTaken_stn k sos fine
  have hfl : (s.edgeShown k sos fine).rd (.btu .flock) k = 0 := by
    rw [hrd _ k (by decide), s.rd_edgeTaken k sos fine (by decide)]
    exact State.rd_eq_zero_of_off hl
  have hon : (s.edgeShown k sos fine).on (.btu .flock) k = false := by simp [State.on_eq, hfl]
  rw [scanStart_taken hv (fun l h => nomatch hs.symm.trans h), State.scanIfLocked_unlocked (.inl hon), hstn, hloam]
  exact ⟨rfl, hsos, hfacet hs, hfl, s.loam_edgeTaken k sos fine⟩

end Edges

/-! ### SOS_WINDOW_MISS and SOS_GLITCH (R149, R161) -/

theorem exec_sosWindowMiss {k : Nat} (hk : k < 8) (mark decoded : Nat) (s : State) :
    exec (.sosWindowMiss k mark decoded) s = .next (sosWindowMiss k mark decoded s) := by
  show guardWF (decide (k < 8)) _ = _
  rw [decide_eq_true hk, guardWF_true]

/-- A bridged start of scan at `T`: the expected time takes the edge's place. -/
def State.missBridged (s : State) (k T : Nat) : State :=
  let t := s.takeSos k T
  let t := t.setStn k { t.stn k with misses := (s.stn k).misses + 1, sinceLock := (s.stn k).sinceLock }
  ((t.wr (.btu .bridged) k 1).count (.btu .cntMiss) k).periodsShown k

theorem State.missBridged_frame (s : State) (k T : Nat) :
    ((s.missBridged k T).stn k).j = (s.stn k).j ∧ (s.missBridged k T).hw = s.hw ∧ KeepsLock s (s.missBridged k T) := by
  unfold State.missBridged
  extract_lets t x u
  have h := ((u.sameButRegs_wr (.btu .bridged) k 1).trans (State.sameButRegs_count _ (.btu .cntMiss) k)).trans
    (State.sameButRegs_periodsShown _ k)
  have hk : KeepsLock s u := ((KeepsLock.refl s).setStn .. : KeepsLock s t).setStn ..
  refine ⟨?_, h.hw, KeepsLock.periodsShown ((hk.wr (f := .btu .bridged) rfl).wr (f := .btu .cntMiss) rfl) k⟩
  rw [h.stn k, State.stn_setStn_same]
  exact (s.takeSos_stn k T).1

section Miss

variable {s : State} {k mark decoded last : Nat} (hv : s.vidUp k = true) (hs : (s.stn k).sos = some last)
  (hl : s.on (.btu .flock) k = true)

include hv hs hl

theorem sosWindowMiss_bridged (hm : (s.stn k).misses < s.rd (.btu .fly) k) (hy : s.on (.btu .synLock) k = true) :
    ∃ T, sosWindowMiss k mark decoded s = (s.missBridged k T).performScan k T mark decoded true := by
  refine ⟨last + (25 * s.rd (.btu .fper) (16 * k + (s.stn k).facet) + 4) / 8, ?_⟩
  unfold sosWindowMiss
  simp only [hs, hv, hl, hm, Bool.and_self, Bool.not_true, Bool.false_eq_true, if_false, if_true]
  exact if_pos (((s.missBridged_frame k _).2.2.on rfl k).trans hy)

theorem sosWindowMiss_loses (hm : s.rd (.btu .fly) k ≤ (s.stn k).misses) :
    sosWindowMiss k mark decoded s = (s.ev (.btu .sosLost) k).loseLock k := by
  unfold sosWindowMiss
  simp [hs, hv, hl, Nat.not_lt.2 hm]

end Miss

theorem exec_sosGlitch {k : Nat} (hk : k < 8) {s : State} (hv : s.vidUp k = true) :
    exec (.sosGlitch k) s = .next (s.wr (.btu .cntGlitch) k (satInc 32 (s.rd (.btu .cntGlitch) k))) := by
  show guardWF (decide (k < 8)) (if s.vidUp k then _ else _) = _
  rw [decide_eq_true hk, guardWF_true, if_pos hv]
  rfl

/-- Settles O28: an edge is a glitch or is taken, and then it locks, scans or only starts the count; a missed one is bridged or ends the
lock. -/
theorem startsOfScanRun : Obligations.StartsOfScanRun := by
  refine ⟨fun s k sos fine mark decoded last hk hf hv hs => ?_, fun s k sos fine mark decoded hk hf hv hs hl hn hx => ?_,
    fun s k mark decoded last hk hv => ⟨fun hs hl => ?_, exec_sosGlitch hk hv⟩⟩
  · rw [exec_scanStart hk hf]
    refine ⟨fun hl hy hT hw => ?_, fun hT => ?_, fun hl hw => ?_, fun hl hb hi hn hT => ?_⟩
    · obtain ⟨hj, hc⟩ := scanStart_scans hv hs hl hy hT hw
      exact ⟨_, rfl, hj, hc, (scanStart_keeps (.refl s) k sos fine mark decoded).bytes rfl⟩
    · rw [scanStart_glitch hv hs (.inl hT)]
    · rw [scanStart_glitch hv hs (.inr ⟨hl, hw⟩)]
    · exact ⟨_, rfl, scanStart_locks hv hs hl hb hi hn hT⟩
  · obtain ⟨he, hsos, hfacet, hlock, hloam⟩ := scanStart_first (mark := mark) (decoded := decoded) hv hs hl hn hx
    exact ⟨_, (exec_scanStart hk hf ..).trans (congrArg _ he), hsos, hfacet, hlock, hloam⟩
  · rw [exec_sosWindowMiss hk]
    refine ⟨fun hm hy => ?_, fun hm => ?_⟩
    · obtain ⟨T, he⟩ := sosWindowMiss_bridged hv hs hl hm hy
      obtain ⟨hj, hhw, -⟩ := s.missBridged_frame k T
      have hc := State.performScan_counts (s := s.missBridged k T) (hhw ▸ State.stations_of_vidUp hv) T mark decoded true
      rw [hj] at hc
      exact ⟨_, congrArg _ he, hc⟩
    · obtain ⟨hlock, hready, hlost, -⟩ := (s.ev (.btu .sosLost) k).rd_loseLock k
      refine ⟨_, congrArg _ (sosWindowMiss_loses hv hs hl hm), hlost.trans ?_, hlock, hready⟩
      exact State.rd_wr_same s (populated_station (f := .sosLost) (State.stations_of_vidUp hv) rfl) 1

/-! ### INDEX_PULSE and FACET_SIGNATURE_EVAL (R150, R164) -/

section Signature

variable {s : State} {k : Nat} (hk : k < 8) (hv : s.vidUp k = true)

include hk

theorem exec_indexPulse (s : State) : exec (.indexPulse k) s =
    .next (if s.vidUp k && s.on (.btu .indexSrc) k && !s.busy k then s.setStn k { s.stn k with index := true } else s) := by
  show guardWF (decide (k < 8)) _ = _
  rw [decide_eq_true hk, guardWF_true]

theorem exec_facetSignatureEval (s : State) : exec (.facetSignatureEval k) s = .next (facetSignatureEval k s) := by
  show guardWF (decide (k < 8)) _ = _
  rw [decide_eq_true hk, guardWF_true]

omit hk

/-- The rotation that the recorded revolutions match, if they match one clearly. -/
def State.matched (s : State) (k : Nat) : Option Nat :=
  bestRotation (s.facets k) (rotationError (s.facets k) (deviations (s.facets k) (s.stn k).record)
    fun i => s.rdS (.btu .fref) (16 * k + i))

include hv

variable (hl : s.on (.btu .flock) k = false) (hi : s.on (.btu .indexSrc) k = false) (hb : s.busy k = false)
  (hr : 16 * s.facets k ≤ (s.stn k).record.length)

include hl hi hb hr

theorem facetSignatureEval_due : facetSignatureEval k s = match s.matched k with
    | some r => (s.setStn k { s.stn k with facet := ((s.stn k).facet + s.facets k - r) % s.facets k }).lockFacet k false
    | none => (s.ev (.btu .lockAmbig) k).setStn k { s.stn k with record := [] } := by
  unfold facetSignatureEval
  extract_lets n x
  rw [if_pos (by simp [hv, hl, hi, hb, x, n, hr])]
  rfl

end Signature

/-! ### The synthesiser's lock and the timing sets (R161, R176) -/

theorem exec_synLockLoss {k : Nat} (hk : k < 8) {s : State} (hv : s.vidUp k = true) :
    exec (.synLockLoss k) s = .next ((s.clr (.btu .synLock) k).loseLock k) := by
  show guardWF (decide (k < 8)) (if s.vidUp k then _ else _) = _
  rw [decide_eq_true hk, guardWF_true, if_pos hv]

/-- The station as the synthesiser locks, before READY follows. -/
def State.synLocked (s : State) (k : Nat) : State := (s.setStn k { s.stn k with synSeen := true }).wr (.btu .synLock) k 1

theorem exec_synLockGain {k : Nat} (hk : k < 8) {s : State} (hv : s.vidUp k = true) :
    exec (.synLockGain k) s = .next ((s.synLocked k).settleReady k) := by
  show guardWF (decide (k < 8)) (if s.vidUp k then _ else _) = _
  rw [decide_eq_true hk, guardWF_true, if_pos hv]
  rfl

theorem State.synLocked_spec {s : State} {k : Nat} (hk : k < s.hw.stations) :
    ((s.synLocked k).settleReady k).rd (.btu .synLock) k = 1 ∧ (((s.synLocked k).settleReady k).stn k).synSeen = true ∧
      ((s.synLocked k).settleReady k).rd (.btu .ready) k =
        bit (s.on (.btu .flock) k && !(s.stn k).recal && !s.cal.bad.contains k) := by
  have hy : (s.synLocked k).rd (.btu .synLock) k = 1 :=
    State.rd_wr_same (s.setStn k _) (populated_station (f := .synLock) hk rfl) 1
  have hon : (s.synLocked k).on (.btu .synLock) k = true := by rw [State.on_eq, hy]; rfl
  have hs : (s.synLocked k).stn k = { s.stn k with synSeen := true } := (State.stn_wr ..).trans (State.stn_setStn_same ..)
  have hp : populated (s.synLocked k).hw (.btu .ready) k = true := by
    rw [State.synLocked, State.wr_hw]
    exact populated_station hk rfl
  have hf : (s.synLocked k).on (.btu .flock) k = s.on (.btu .flock) k := by
    rw [State.on_eq, State.synLocked, State.rd_wr, if_neg (by simp), State.rd_setStn]
    rfl
  have hc : (s.synLocked k).cal = s.cal := State.wr_cal ..
  refine ⟨((s.synLocked k).rd_settleReady k (by decide) k).trans hy, ?_, ?_⟩
  · rw [State.settleReady, State.wrB_eq, State.stn_wr, hs]
  · rw [State.settleReady, State.rd_wrB_same _ hp (by decide), hf, hon, hc, hs, Bool.and_true]
    rfl

theorem exec_timingSetSend {k : Nat} (hk : k < 8) (s : State) : exec (.timingSetSend k) s = .next (timingSetSend k s) := by
  show guardWF (decide (k < 8)) _ = _
  rw [decide_eq_true hk, guardWF_true]

/-- Words that are sent one after the other add to the output, and change nothing else. -/
theorem State.sends_frame {α : Type} (k ty : Nat) (w : α → List Nat) (l : List α) (s : State) :
    ∃ o, l.foldl (fun t x => t.send k ty (w x)) s = { s with out := o } ∧ o.length = s.out.length + l.length := by
  induction l generalizing s with
  | nil => exact ⟨s.out, rfl, rfl⟩
  | cons x l ih =>
    obtain ⟨o, h, hl⟩ := ih (s.send k ty (w x))
    exact ⟨o, h, hl.trans (by simp only [State.send, State.emit_out, List.length_cons]; omega)⟩

/-- A set goes out under the next GEN, a word for each of its pages. -/
theorem State.sendSet_spec (s : State) (k : Nat) (pages : List (List Nat)) :
    (s.sendSet k pages).lnk k = { s.lnk k with gen := ((s.lnk k).gen + 1) % 256 } ∧
      (s.sendSet k pages).out.length = s.out.length + pages.length ∧ (s.sendSet k pages).regs = s.regs := by
  unfold State.sendSet
  extract_lets l g t
  obtain ⟨o, h, hl⟩ := State.sends_frame k 0x03 (fun x : List Nat × Nat => x.2 :: g :: x.1) pages.zipIdx t
  rw [h]
  exact ⟨State.lnk_setLnk_same .., hl.trans (by rw [List.length_zipIdx]; rfl), rfl⟩

theorem timingSetSend_none {s : State} {k : Nat} (h : (s.lnk k).sets = []) : timingSetSend k s = s := by
  unfold timingSetSend
  simp only [h]

theorem timingSetSend_next {s : State} {k : Nat} (hv : s.vidUp k = true) {p : List (List Nat)} {rest : List (List (List Nat))}
    (h : (s.lnk k).sets = p :: rest) : timingSetSend k s = (s.setLnk k { s.lnk k with sets := rest }).sendSet k p := by
  unfold timingSetSend
  simp only [h, hv, if_true]

/-- Settles O29: each event by its guard; the signature by the rotation that the recorded revolutions match. -/
theorem scanClocksLock : Obligations.ScanClocksLock := by
  refine ⟨fun s k hk hv => ⟨fun hi hb => ?_, fun h => ?_, fun hl hi hb hr => ⟨fun r hm => ?_, fun hm => ?_⟩⟩,
    fun s k hk hv => ⟨?_, ⟨_, exec_synLockGain hk hv, State.synLocked_spec (State.stations_of_vidUp hv)⟩, fun p rest h => ?_,
      fun h => ?_⟩⟩
  · rw [exec_indexPulse hk, if_pos (by simp [hv, hi, hb])]
  · rw [exec_indexPulse hk, if_neg (by rcases h with h | h <;> simp [h])]
  · have hd := facetSignatureEval_due hv hl hi hb hr
    rw [show s.matched k = some r from hm] at hd
    obtain ⟨hf, ha, -, hx⟩ := State.lockFacet_spec
      (s := s.setStn k { s.stn k with facet := ((s.stn k).facet + s.facets k - r) % s.facets k }) (State.stations_of_vidUp hv) false
    refine ⟨_, (exec_facetSignatureEval hk s).trans (congrArg _ hd), hf, ha, ?_⟩
    rw [hx, State.stn_setStn_same]
    exact ⟨rfl, rfl⟩
  · have hd := facetSignatureEval_due hv hl hi hb hr
    rw [show s.matched k = none from hm] at hd
    exact (exec_facetSignatureEval hk s).trans (congrArg _ hd)
  · obtain ⟨hf, hr, -, hy⟩ := (s.clr (.btu .synLock) k).rd_loseLock k
    exact ⟨_, exec_synLockLoss hk hv, hy.trans (by simp [State.rd_clr]), hf, hr⟩
  · obtain ⟨hl, ho, hr⟩ := (s.setLnk k { s.lnk k with sets := rest }).sendSet_spec k p
    rw [State.lnk_setLnk_same] at hl
    exact ⟨_, (exec_timingSetSend hk s).trans (congrArg _ (timingSetSend_next hv h)), by rw [hl], by rw [hl], ho, hr⟩
  · rw [exec_timingSetSend hk, timingSetSend_none h]

end Sys2Proof.Machine

/-! PROOFS. The statements on the beam link: how a link follows its head, and its laser enable, beams and temperature. -/

namespace Sys2Proof.Machine

open Sys2Proof

theorem State.rd_wr_blk_ne (s : State) {f g : BlkF} (h : g ≠ f) (i j v : Nat) :
    (s.wr (.blk f) i v).rd (.blk g) j = s.rd (.blk g) j :=
  s.rd_wr_ne (fun e => h (Fld.blk.inj (Prod.mk.inj e).1)) v

/-! ### What the spoiling of sheets cannot be seen in (R82, R161, R290) -/

/-- An observation of a state that looks past outputs, interrupts, mailboxes and the page store, and past every field
outside BLK. -/
structure SheetBlind {β : Type} (g : State → β) : Prop where
  upd (s : State) (o : List Out) (p : Pcie) (l : Loam) (m : Mbx) :
    g { s with out := o, pcie := p, loam := l, mbx := m } = g s
  wr (s : State) (f : Fld) (i v : Nat) : f.block ≠ .blk → g (s.wr f i v) = g s

section SheetBlind

variable {β : Type} {g : State → β} (h : SheetBlind g) (s : State)

include h

theorem SheetBlind.emit (o : Out) : g (s.emit o) = g s := h.upd s (o :: s.out) s.pcie s.loam s.mbx

/-- A refused host write shows in GLB alone (R7). -/
theorem SheetBlind.deny : g s.deny = g s := by
  obtain ⟨o, pc, e⟩ := (s.ev (.glb .accessDenied)).globalIrq_eq .irqAccess
  rw [State.deny, e]
  exact (h.upd (s.ev (.glb .accessDenied)) o pc _ _).trans (h.wr s _ _ _ (by decide))

theorem SheetBlind.enqueue (p kind unit : Nat) (data : List Nat) : g (s.enqueue p kind unit data) = g s := by
  obtain ⟨o, pc, tk, ds, e⟩ := s.enqueue_eq p kind unit data
  rw [e]
  exact h.upd s o pc s.loam _

theorem SheetBlind.post (kind unit : Nat) (data : List Nat) : g (s.post kind unit data) = g s := by
  unfold State.post
  dsimp only
  split
  · split
    · rfl
    · exact h.upd s s.out s.pcie s.loam _
  · split
    · exact h.enqueue ..
    · split
      · exact h.wr _ _ _ _ (by decide)
      · exact h.upd s s.out s.pcie s.loam _

theorem SheetBlind.broadcast (kind : Nat) (data : List Int) : g (s.broadcast kind data) = g s := by
  obtain ⟨o, e⟩ := s.broadcast_eq kind data
  rw [e]
  exact h.upd s o s.pcie s.loam s.mbx

theorem SheetBlind.closeDecision (kind unit : Nat) : g (s.closeDecision kind unit) = g s := h.upd s s.out s.pcie s.loam _

theorem SheetBlind.closeTakeover (k b : Nat) : g (s.closeTakeover k b) = g s := h.upd s s.out s.pcie s.loam _

theorem SheetBlind.setCtx (c : Nat) (x : Ctx) : g (s.setCtx c x) = g s := h.upd s s.out s.pcie _ s.mbx

theorem SheetBlind.setBand (r : Nat) (b : Band) : g (s.setBand r b) = g s := h.upd s s.out s.pcie _ s.mbx

theorem SheetBlind.toState (c : Nat) (st : CtxState) : g (s.toState c st) = g s := by
  unfold State.toState
  dsimp only
  split
  · exact (h.wr _ _ _ _ (by decide)).trans (h.setCtx ..)
  · exact h.setCtx ..

theorem SheetBlind.verifyIdle (b : Band) : g (s.verifyIdle b) = g s := by
  unfold State.verifyIdle
  split
  · exact (h.wr _ _ _ _ (by decide)).trans (h.wr _ _ _ _ (by decide))
  · rfl

theorem SheetBlind.reclaimCtx (c : Nat) : g (s.reclaimCtx c) = g s := by
  refine foldl_unchanged (fun t r => ?_) _ s
  exact (h.upd _ _ _ _ _).trans ((h.setBand ..).trans (h.verifyIdle t (t.band r)))

theorem SheetBlind.settleGate : g s.settleGate = g s :=
  (h.wr _ _ _ _ (by decide)).trans <| foldl_unchanged (fun t k => by
    split
    · rfl
    · exact h.wr _ _ _ _ (by decide)) _ s

theorem SheetBlind.settleCtx (c : Nat) : g (s.settleCtx c) = g s := by
  unfold State.settleCtx
  dsimp only
  split
  · split
    · rw [h.settleGate, h.reclaimCtx, h.toState]
    · rw [h.settleGate, h.reclaimCtx]
    · exact h.settleGate s
  · exact h.settleGate s

theorem SheetBlind.spoilHere (c cause : Nat) : g (s.spoilHere c cause) = g s := by
  unfold State.spoilHere
  extract_lets x spoiled closed noted posed
  have hc : g closed = g s := (h.closeDecision ..).trans ((h.toState ..).trans (h.setCtx ..))
  have hn : g noted = g s := by
    unfold noted
    split
    · exact (h.wr _ _ _ _ (by decide)).trans hc
    · exact hc
  refine (h.settleCtx ..).trans ?_
  unfold posed
  split
  · exact (h.post ..).trans ((h.wr _ _ _ _ (by decide)).trans hn)
  · exact hn

theorem SheetBlind.spoil (c cause : Nat) : g (s.spoil c cause) = g s := by
  unfold State.spoil
  dsimp only
  split
  · split
    · exact h.spoilHere ..
    · exact (h.broadcast ..).trans (h.spoilHere ..)
    · exact (h.emit ..).trans (h.spoilHere ..)
  · rfl

theorem SheetBlind.spoils (cause : Nat) (cs : List Nat) : g (cs.foldl (fun t c => t.spoil c cause) s) = g s :=
  foldl_unchanged (fun t c => h.spoil t c cause) cs s

theorem SheetBlind.spoilStation (k cause : Nat) : g (s.spoilStation k cause) = g s :=
  (h.spoils ..).trans (foldl_unchanged (fun t c => h.setCtx t c _) _ s)

/-- A link that leaves a state shows its new one; leaving ACTIVE spoils sheets besides (R182). -/
theorem SheetBlind.toLink (k st : Nat) : g (s.toLink k st) = g (s.wr (.blk .lstate) k st) := by
  unfold State.toLink
  dsimp only
  split
  · exact h.spoilStation ..
  · rfl

end SheetBlind

theorem sheetBlind_rd (f : BlkF) (i : Nat) : SheetBlind fun s => s.rd (.blk f) i where
  upd _ _ _ _ _ := rfl
  wr s f' j v hf := s.rd_wr_ne (by rintro ⟨⟩; exact hf rfl) v

theorem sheetBlind_lnk (k : Nat) : SheetBlind fun s => s.lnk k := ⟨fun _ _ _ _ _ => rfl, fun s f i v _ => s.lnk_wr f i v k⟩

theorem sheetBlind_hw : SheetBlind State.hw := ⟨fun _ _ _ _ _ => rfl, fun s f i v _ => s.wr_hw f i v⟩

/-! ### What the failing of beams cannot be seen in (R189 to R197) -/

@[simp] theorem State.rd_setBeam (s : State) (k b : Nat) (x : Beam) (f : Fld) (i : Nat) :
    (s.setBeam k b x).rd f i = s.rd f i := rfl

@[simp] theorem State.setBeam_hw (s : State) (k b : Nat) (x : Beam) : (s.setBeam k b x).hw = s.hw := rfl

theorem State.lnk_setBeam (s : State) (k b : Nat) (x : Beam) (j : Nat) :
    (s.setBeam k b x).lnk j = if j = k then (s.lnk k).setBeam b x else s.lnk j := s.lnk_setLnk ..

/-- The fields of BLK that beams write, and the lost scans of a head. -/
def beamFields : List BlkF := [.beamState, .beamCause, .uncovered, .tkoEv, .halflines, .lostScan]

/-- An observation that looks past sheets, past the fields that beams write, and past the beams of the links. -/
structure BeamBlind {β : Type} (g : State → β) : Prop extends SheetBlind g where
  wrBeam (s : State) (f : BlkF) (i v : Nat) : f ∈ beamFields → g (s.wr (.blk f) i v) = g s
  setBeam (s : State) (k b : Nat) (x : Beam) : g (s.setBeam k b x) = g s

section BeamBlind

variable {β : Type} {g : State → β} (h : BeamBlind g) (s : State)

include h

theorem BeamBlind.setBeamSt (k b st cause : Nat) : g (s.setBeamSt k b st cause) = g s :=
  (h.wrBeam _ .beamCause _ _ (by decide)).trans (h.wrBeam s .beamState _ _ (by decide))

theorem BeamBlind.uncover (k b : Nat) : g (s.uncover k b) = g s :=
  (h.spoils ..).trans ((h.wrBeam _ .uncovered _ _ (by decide)).trans (h.setBeam ..))

theorem BeamBlind.halfLines (k b cause : Nat) : g (s.halfLines k b cause) = g s := by
  unfold State.halfLines
  extract_lets counted lim
  have hc : g counted = g s := h.wrBeam s .halflines _ _ (by decide)
  split
  · split
    · exact (h.spoils ..).trans hc
    · exact hc
  · rfl

theorem BeamBlind.coverOrNot (k b cause : Nat) (wasCover : Bool) : g (s.coverOrNot k b cause wasCover) = g s := by
  unfold State.coverOrNot
  extract_lets p taken
  have ht : g taken = g s := (h.halfLines ..).trans ((h.wrBeam _ .tkoEv _ _ (by decide)).trans (h.setBeamSt ..))
  split
  · split
    · exact (h.post ..).trans ht
    · exact ht
  · split
    · exact (h.uncover ..).trans (h.uncover ..)
    · exact h.uncover ..

theorem BeamBlind.failBeams (k : Nat) (l : List (Nat × Nat)) : g (s.failBeams k l) = g s := by
  unfold State.failBeams
  extract_lets was out
  have ho : g out = g s := by
    refine foldl_unchanged (fun t x => ?_) l s
    exact (h.setBeam ..).trans (h.setBeamSt t k x.1 2 x.2)
  exact (foldl_unchanged (fun t x => h.coverOrNot t k x.1 x.2.1 x.2.2) was out).trans ho

theorem BeamBlind.statusScan (k : Nat) (l : Lnk) (w : List Byte) : g (s.statusScan k l w) = g s := by
  unfold State.statusScan
  split
  · split
    · exact (h.spoils ..).trans (h.wrBeam s .lostScan _ _ (by decide))
    · rfl
  · rfl

end BeamBlind

theorem beamBlind_rd {f : BlkF} (hf : f ∉ beamFields) (i : Nat) : BeamBlind fun s => s.rd (.blk f) i where
  toSheetBlind := sheetBlind_rd f i
  wrBeam s f' j v h := s.rd_wr_blk_ne (by rintro rfl; exact hf h) ..
  setBeam _ _ _ _ := rfl

theorem beamBlind_hw : BeamBlind State.hw := ⟨sheetBlind_hw, fun s f i v _ => s.wr_hw (.blk f) i v, fun _ _ _ _ => rfl⟩

/-- What a link holds beside its beams. -/
theorem beamBlind_lnk {β : Type} {g : Lnk → β} (hg : ∀ l b, g { l with beams := b } = g l) (k : Nat) :
    BeamBlind fun s => g (s.lnk k) where
  upd _ _ _ _ _ := rfl
  wr s f i v _ := congrArg g (s.lnk_wr f i v k)
  wrBeam s f i v _ := congrArg g (s.lnk_wr (.blk f) i v k)
  setBeam s j b x := by
    rw [State.lnk_setBeam]
    split
    · next e => exact e ▸ hg _ _
    · rfl

/-! ### The fields of a station in BLK (R203) -/

/-- A field that a station has once. -/
def BlkF.ofStation (f : BlkF) : Bool := f.row.n2 * f.row.n3 == 1

theorem populated_link {hw : Hardware} {k : Nat} (h : k < hw.stations) {f : BlkF} (hf : BlkF.ofStation f = true) :
    populated hw (.blk f) k = true := by
  have hf : (Fld.blk f).row.n2 * (Fld.blk f).row.n3 = 1 := eq_of_beq hf
  show decide ((Fld.blk f).outer k < hw.stations) = true
  rw [Fld.outer, hf, Nat.div_one, decide_eq_true h]

/-- A field of a populated station reads what was last written to it; the station's other fields are unchanged. -/
theorem State.rd_wr_link {s : State} {k : Nat} (hk : k < s.hw.stations) {f : BlkF} (hf : BlkF.ofStation f = true)
    (g : BlkF) (v : Nat) :
    (s.wr (.blk f) k v).rd (.blk g) k = if g = f then v % 2 ^ f.row.width else s.rd (.blk g) k := by
  split
  · next hg => exact hg ▸ State.rd_wr_same s (populated_link hk hf) v
  · next hg => exact s.rd_wr_blk_ne hg ..

@[simp] theorem State.rd_idle (s : State) (k st : Nat) (f : Fld) (i : Nat) : (s.idle k st).rd f i = s.rd f i := rfl
@[simp] theorem State.lnk_idle (s : State) (k st j : Nat) : (s.idle k st).lnk j = s.lnk j := rfl
@[simp] theorem State.idle_hw (s : State) (k st : Nat) : (s.idle k st).hw = s.hw := rfl

/-- Words that are sent one after the other change the output alone. -/
theorem State.sends_eq {α : Type} (s : State) (k ty : Nat) (w : α → List Nat) (l : List α) :
    ∃ o, l.foldl (fun t x => t.send k ty (w x)) s = { s with out := o } :=
  let ⟨o, e, _⟩ := State.sends_frame k ty w l s
  ⟨o, e⟩

/-! ### OFF, TRAIN, IDENT and FAULT (R182, R183) -/

theorem State.linkFault_of_not_active {s : State} {k : Nat} (h : s.rd (.blk .lstate) k ≠ 5) (cause : Nat) :
    s.linkFault k cause = ((s.wr (.blk .lstate) k 8).wr (.blk .fcause) k cause).idle k 0 := by
  simp [State.linkFault, State.toLink, h]

/-- FAULT shows itself and its cause; the station's other fields stay but for what sheets and beams write. -/
theorem State.rd_linkFault {s : State} {k : Nat} (hk : k < s.hw.stations) (cause : Nat) (f : BlkF) :
    (s.linkFault k cause).rd (.blk f) k =
      if f = .fcause then cause % 16 else if f = .lstate then 8 else s.rd (.blk f) k := by
  have hw : (s.toLink k 8).hw = s.hw := (sheetBlind_hw.toLink ..).trans (State.wr_hw ..)
  rw [State.linkFault, State.rd_idle, State.rd_wr_link (hw ▸ hk) rfl, (sheetBlind_rd f k).toLink s, State.rd_wr_link hk rfl]
  rfl

theorem exec_hpresQualified {k hid : Nat} (hk : k < 8) (hh : hid < 16) (s : State) :
    exec (.hpresQualified k hid) s = .next (hpresQualified k hid s) := by
  show guardWF (decide (k < 8) && decide (hid < 16)) _ = _
  rw [decide_eq_true hk, decide_eq_true hh, Bool.and_true, guardWF_true]

/-- A head is present, with its HID. -/
def State.headPresent (s : State) (k hid : Nat) : State := (s.wr (.blk .hpres) k 1).wr (.blk .hid) k hid

theorem State.rd_lstate_headPresent (s : State) (k hid : Nat) :
    (s.headPresent k hid).rd (.blk .lstate) k = s.rd (.blk .lstate) k :=
  (State.rd_wr_ne _ (by simp) _).trans (s.rd_wr_ne (by simp) _)

theorem State.stationConfigured_headPresent (s : State) (k hid j : Nat) :
    (s.headPresent k hid).stationConfigured j = s.stationConfigured j := by
  simp [State.headPresent, State.stationConfigured]

section Head

variable {s : State} {k : Nat} (hv : s.vidUp k = true)

include hv

theorem hpresQualified_stays (hid : Nat) (h : s.rd (.blk .lstate) k ≠ 0 ∨ s.stationConfigured k = false) :
    hpresQualified k hid s = s.headPresent k hid := by
  unfold hpresQualified
  rw [if_neg (by simp [hv])]
  refine if_neg fun hc => ?_
  rw [← State.headPresent, State.rd_lstate_headPresent, State.stationConfigured_headPresent] at hc
  exact h.elim (· hc.1) fun h => by simp [h] at hc

/-- A configured station in OFF trains, or faults at once where the head has no identity. -/
theorem hpresQualified_trains (hid : Nat) (h : s.rd (.blk .lstate) k = 0) (hc : s.stationConfigured k = true) :
    hpresQualified k hid s =
      if hid = 0 ∨ hid = 15 then (((s.headPresent k hid).wr (.blk .lstate) k 1).idle k 0).linkFault k 2
      else ((s.headPresent k hid).wr (.blk .lstate) k 1).idle k 0 := by
  unfold hpresQualified
  rw [if_neg (by simp [hv])]
  refine if_pos ?_
  rw [← State.headPresent, State.rd_lstate_headPresent, State.stationConfigured_headPresent]
  exact ⟨h, hc⟩

omit hv in
theorem State.linkDrop_of_off (h : s.rd (.blk .lstate) k = 0) (cause : Nat) : s.linkDrop k cause = s := by
  simp [State.linkDrop, h]

theorem State.linkDrop_of_on (h : s.rd (.blk .lstate) k ≠ 0) (cause : Nat) : s.linkDrop k cause = s.linkFault k cause := by
  simp [State.linkDrop, h, hv]

omit hv in
theorem State.vidUp_wr (s : State) (f : Fld) (i v k : Nat) : (s.wr f i v).vidUp k = s.vidUp k := by simp [State.vidUp]

end Head

theorem exec_hpresLoss {s : State} {k : Nat} (hk : k < 8) (hv : s.vidUp k = true) :
    exec (.hpresLoss k) s = .next ((s.clr (.blk .hpres) k).linkDrop k 8) := by
  show guardWF (decide (k < 8)) (if s.vidUp k then _ else _) = _
  rw [decide_eq_true hk, guardWF_true, if_pos hv]

theorem exec_rxLockLoss {k : Nat} (hk : k < 8) (s : State) : exec (.rxLockLoss k) s = .next (s.linkDrop k 9) := by
  show guardWF (decide (k < 8)) _ = _
  rw [decide_eq_true hk, guardWF_true]

theorem exec_statusTimeout {k : Nat} (hk : k < 8) (s : State) : exec (.statusTimeout k) s = .next (s.linkDrop k 7) := by
  show guardWF (decide (k < 8)) _ = _
  rw [decide_eq_true hk, guardWF_true]

theorem exec_linkTrainTimeout {s : State} {k : Nat} (hk : k < 8) (hv : s.vidUp k = true) (h : s.rd (.blk .lstate) k = 1) :
    exec (.linkTrainTimeout k) s = .next (s.linkFault k 1) := by
  show guardWF (decide (k < 8)) (if s.vidUp k && s.rd (.blk .lstate) k == 1 then _ else _) = _
  rw [decide_eq_true hk, guardWF_true, hv, h]
  rfl

theorem exec_identTimeout {s : State} {k : Nat} (hk : k < 8) (hv : s.vidUp k = true) (h : s.rd (.blk .lstate) k = 2) :
    exec (.identTimeout k) s = .next (s.linkFault k 7) := by
  show guardWF (decide (k < 8)) (if s.vidUp k && s.rd (.blk .lstate) k == 2 then _ else _) = _
  rw [decide_eq_true hk, guardWF_true, hv, h]
  rfl

/-- The tag of the next ECHO (R185). -/
def State.nextTag (s : State) (k : Nat) : Nat := ((s.lnk k).echoTag + 1) % 65536

/-- IDENT is entered: what is known of the head is forgotten, and ECHO and ID_REQ go out (R182). -/
theorem exec_linkRxLocked {s : State} {k : Nat} (hk : k < 8) (hv : s.vidUp k = true) (h : s.rd (.blk .lstate) k = 1) :
    exec (.linkRxLocked k) s = .next
      ((((s.setLnk k { s.lnk k with echoTag := s.nextTag k, turn := none, roundTrip := none }).wr (.blk .lstate) k 2).send k
        0x06 (leBytes (s.nextTag k) 2)).send k 0x07 []) := by
  show guardWF (decide (k < 8)) (linkRxLocked k s) = _
  rw [decide_eq_true hk, guardWF_true, linkRxLocked, hv, h]
  rfl

/-! ### RX_IDENT (R184, R185) -/

theorem exec_rxIdent {k : Nat} {w : List Byte} (hk : k < 8) (hw : w.length = 56) (s : State) :
    exec (.rxIdent k w) s = .next (rxIdent k w s) := by
  show guardWF (decide (k < 8) && w.length == 56) _ = _
  rw [decide_eq_true hk, hw]
  rfl

/-- The length of the cable that a round trip and a TURN show (R185). -/
def cableLength (rt turn : Nat) : Nat := min 65535 ((rt - 100 * turn) / 2)

theorem State.cableShow_known {s : State} {k rt turn : Nat} (hr : (s.lnk k).roundTrip = some rt)
    (ht : (s.lnk k).turn = some turn) :
    s.cableShow k =
      if s.rd (.blk .cable) k + 20 < cableLength rt turn ∨ cableLength rt turn + 20 < s.rd (.blk .cable) k then
        (s.wr (.blk .cableMeas) k (cableLength rt turn)).wr (.blk .cableMismatch) k 1
      else s.wr (.blk .cableMeas) k (cableLength rt turn) := by
  unfold State.cableShow
  rw [hr, ht]
  rfl

theorem State.cableShow_unknown {s : State} {k : Nat} (h : (s.lnk k).roundTrip = none ∨ (s.lnk k).turn = none) :
    s.cableShow k = s := by
  unfold State.cableShow
  split
  · next hr ht => simp [hr, ht] at h
  · rfl

theorem State.sameButRegs_cableShow (s : State) (k : Nat) : s.SameButRegs (s.cableShow k) := by
  unfold State.cableShow
  split
  · dsimp only
    split
    · exact (s.sameButRegs_wr ..).trans (State.sameButRegs_wr ..)
    · exact s.sameButRegs_wr ..
  · exact .refl s

theorem State.rd_cableShow (s : State) (k : Nat) {f : BlkF} (hf : f ∉ [BlkF.cableMeas, .cableMismatch]) (i : Nat) :
    (s.cableShow k).rd (.blk f) i = s.rd (.blk f) i := by
  simp only [List.mem_cons, List.not_mem_nil, or_false, not_or] at hf
  unfold State.cableShow
  split
  · dsimp only
    split <;> simp [State.ev_eq, State.rd_wr, hf]
  · rfl

theorem State.cableShow_spec {s : State} {k rt turn : Nat} (hk : k < s.hw.stations) (hr : (s.lnk k).roundTrip = some rt)
    (ht : (s.lnk k).turn = some turn) :
    (s.cableShow k).rd (.blk .cableMeas) k = cableLength rt turn ∧
      (s.cableShow k).rd (.blk .cableMismatch) k =
        if s.rd (.blk .cable) k + 20 < cableLength rt turn ∨ cableLength rt turn + 20 < s.rd (.blk .cable) k then 1
        else s.rd (.blk .cableMismatch) k := by
  have hm : cableLength rt turn < 65536 := Nat.lt_succ_of_le (Nat.min_le_left ..)
  rw [State.cableShow_known hr ht]
  split <;> simp [State.rd_wr_link, hk, BlkF.ofStation, BlkF.row] <;> exact hm

theorem State.SameButRegs.lnk {s t : State} (h : s.SameButRegs t) (k : Nat) :
    t.lnk k = s.lnk k := by
  obtain ⟨r, rfl⟩ := h
  rfl

/-- The words of IDENT are shown. -/
def State.identShown (s : State) (k : Nat) (w : List Byte) : State :=
  (List.range 4).foldl (fun t i => t.wr (.blk .ident) (4 * k + i) (leAt w (2 + 4 * i) 4)) s

/-- IDENT as it is recorded, before its checks. -/
def State.identNoted (s : State) (k : Nat) (w : List Byte) : State :=
  let t := s.identShown k w
  t.setLnk k { t.lnk k with dmax := leAt w 16 2, turn := some (leAt w 18 2), sets := [] }

theorem State.sameButRegs_identShown (s : State) (k : Nat) (w : List Byte) : s.SameButRegs (s.identShown k w) :=
  .foldl (fun u _ => u.sameButRegs_wr ..) _ s

theorem State.identNoted_frame (s : State) (k : Nat) (w : List Byte) :
    (s.identNoted k w).hw = s.hw ∧
      (s.identNoted k w).lnk k = { s.lnk k with dmax := leAt w 16 2, turn := some (leAt w 18 2), sets := [] } ∧
      ∀ f i, f ≠ .blk .ident → (s.identNoted k w).rd f i = s.rd f i := by
  have h := s.sameButRegs_identShown k w
  refine ⟨(State.setLnk_hw ..).trans h.hw, ?_, fun f i hf => ?_⟩
  · simp only [State.identNoted, State.lnk_setLnk_same, h.lnk]
  · rw [State.identNoted, State.rd_setLnk, State.identShown]
    refine foldl_unchanged (g := fun u => u.rd f i) (fun u j => ?_) (List.range 4) s
    exact u.rd_wr_ne (fun e => hf (congrArg Prod.fst e)) _

theorem State.rd_sendSet (s : State) (k : Nat) (pages : List (List Nat)) (f : Fld) (i : Nat) :
    (s.sendSet k pages).rd f i = s.rd f i := by
  unfold State.sendSet
  extract_lets l g t
  obtain ⟨o, e⟩ := t.sends_eq k 0x03 (fun x : List Nat × Nat => x.2 :: g :: x.1) pages.zipIdx
  rw [e]
  rfl

/-- SETUP is entered, and the timing set of the new head is on its way. -/
def State.setupSent (s : State) (k : Nat) : State :=
  let t := s.wr (.blk .lstate) k 3
  let t := t.sendSet k (t.setupPages k)
  t.setLnk k { t.lnk k with used := (t.lnk k).gen, scanGen := (t.lnk k).gen }

theorem State.rd_setupSent (s : State) (k : Nat) (f : Fld) (i : Nat) :
    (s.setupSent k).rd f i = (s.wr (.blk .lstate) k 3).rd f i := by
  unfold State.setupSent
  exact (State.rd_setLnk ..).trans (State.rd_sendSet ..)

theorem State.lnk_setupSent (s : State) (k : Nat) : (s.setupSent k).lnk k =
    { s.lnk k with
      gen := ((s.lnk k).gen + 1) % 256, used := ((s.lnk k).gen + 1) % 256, scanGen := ((s.lnk k).gen + 1) % 256 } := by
  simp only [State.setupSent, State.lnk_setLnk_same, (State.sendSet_spec ..).1, State.lnk_wr]

/-- Every drive value of a station is 0. -/
def State.drivesDark (s : State) (k : Nat) : State :=
  (List.range 128).foldl (fun t b => (t.wr (.blk .driveN) (bix k b) 0).wr (.blk .driveF) (bix k b) 0) s

theorem State.sameButRegs_drivesDark (s : State) (k : Nat) : s.SameButRegs (s.drivesDark k) :=
  .foldl (fun u _ => (u.sameButRegs_wr ..).trans (State.sameButRegs_wr ..)) _ s

theorem State.rd_drivesDark (s : State) (k : Nat) {f : BlkF} (hf : f ∉ [BlkF.driveN, .driveF]) (i : Nat) :
    (s.drivesDark k).rd (.blk f) i = s.rd (.blk f) i := by
  simp only [List.mem_cons, List.not_mem_nil, or_false, not_or] at hf
  unfold State.drivesDark
  refine foldl_unchanged (g := fun u => u.rd (.blk f) i) (fun u b => ?_) (List.range 128) s
  simp [State.rd_wr, hf]

/-- The station after a good IDENT: SETUP, with the timing set and the drive values 0 on their way. -/
def State.identAccepted (s : State) (k : Nat) : State :=
  ((s.setupSent k).drivesDark k).sendDriveList k ((List.range 256).map fun i => (i / 2, i % 2, 0))

theorem State.sendDriveList_eq (s : State) (k : Nat) (l : List (Nat × Nat × Nat)) :
    ∃ o, s.sendDriveList k l = { s with out := o } :=
  s.sends_eq k 0x05 id (driveWords 22 l)

theorem State.rd_sendDriveList (s : State) (k : Nat) (l : List (Nat × Nat × Nat)) (f : Fld) (i : Nat) :
    (s.sendDriveList k l).rd f i = s.rd f i := by
  obtain ⟨o, e⟩ := s.sendDriveList_eq k l
  rw [e]
  rfl

theorem State.lnk_sendDriveList (s : State) (k : Nat) (l : List (Nat × Nat × Nat)) (j : Nat) :
    (s.sendDriveList k l).lnk j = s.lnk j := by
  obtain ⟨o, e⟩ := s.sendDriveList_eq k l
  rw [e]
  rfl

theorem State.identAccepted_spec (s : State) (k : Nat) :
    ((s.identAccepted k).lnk k).dmax = (s.lnk k).dmax ∧ ((s.identAccepted k).lnk k).turn = (s.lnk k).turn ∧
      ((s.identAccepted k).lnk k).gen = ((s.lnk k).gen + 1) % 256 ∧
      ∀ f i, f ∉ [BlkF.driveN, .driveF] → (s.identAccepted k).rd (.blk f) i = (s.wr (.blk .lstate) k 3).rd (.blk f) i := by
  rw [State.identAccepted, State.lnk_sendDriveList, ((s.setupSent k).sameButRegs_drivesDark k).lnk, State.lnk_setupSent]
  refine ⟨rfl, rfl, rfl, fun f i hf => ?_⟩
  rw [State.rd_sendDriveList, State.rd_drivesDark _ k hf, State.rd_setupSent]

/-- IDENT is checked once it is noted and the cable is shown; neither touches what the checks read (R184). -/
theorem rxIdent_eq {s : State} {k : Nat} {w : List Byte} (hv : s.vidUp k = true) (hw : wordOk w 0x83 = true)
    (h : s.rd (.blk .lstate) k = 2) :
    rxIdent k w s = if s.identCheck k w ≠ 0 then ((s.identNoted k w).cableShow k).linkFault k (s.identCheck k w)
      else ((s.identNoted k w).cableShow k).identAccepted k := by
  have hrd (f : BlkF) (h1 : f ∉ [BlkF.cableMeas, .cableMismatch]) (h2 : f ≠ .ident) :
      ((s.identNoted k w).cableShow k).rd (.blk f) k = s.rd (.blk f) k :=
    (State.rd_cableShow _ k h1 k).trans ((s.identNoted_frame k w).2.2 _ k fun e => h2 (Fld.blk.inj e))
  have hc : ((s.identNoted k w).cableShow k).identCheck k w = s.identCheck k w := by
    simp only [State.identCheck, State.on_eq, hrd .hid (by decide) (by decide), hrd .chkPos (by decide) (by decide),
      hrd .model (by decide) (by decide), hrd .chkSerial (by decide) (by decide), hrd .expSerial (by decide) (by decide)]
    rfl
  rw [← hc]
  unfold rxIdent
  rw [if_neg (by simp [hv, hw, h])]
  rfl

theorem State.identCheck_lt (s : State) (k : Nat) (w : List Byte) : s.identCheck k w < 16 := by
  unfold State.identCheck
  repeat' split
  all_goals decide

/-! ### RX_ECHO_RESP (R185) -/

theorem exec_rxEchoResp {k : Nat} {w : List Byte} (hk : k < 8) (hw : w.length = 56) (rt : Nat) (s : State) :
    exec (.rxEchoResp k w rt) s = .next (rxEchoResp k w rt s) := by
  show guardWF (decide (k < 8) && w.length == 56) _ = _
  rw [decide_eq_true hk, hw]
  rfl

theorem rxEchoResp_answers {s : State} {k : Nat} {w : List Byte} (hv : s.vidUp k = true) (hw : wordOk w 0x84 = true)
    (ht : leAt w 1 2 = (s.lnk k).echoTag) (h : s.rd (.blk .lstate) k ≠ 0) (rt : Nat) :
    rxEchoResp k w rt s = (s.setLnk k { s.lnk k with roundTrip := some rt }).cableShow k := by
  unfold rxEchoResp
  exact if_pos (by simp [hv, hw, ht, h])

theorem rxEchoResp_ignored {s : State} {k : Nat} {w : List Byte}
    (h : wordOk w 0x84 = false ∨ leAt w 1 2 ≠ (s.lnk k).echoTag)
    (rt : Nat) : rxEchoResp k w rt s = s := by
  unfold rxEchoResp
  exact if_neg (by rcases h with h | h <;> simp [h])

/-! ### RX_STATUS (R181, R198) -/

theorem exec_rxStatus {k : Nat} {w : List Byte} (hk : k < 8) (hw : w.length = 56) (s : State) :
    exec (.rxStatus k w) s = .next (rxStatus k w s) := by
  show guardWF (decide (k < 8) && w.length == 56) _ = _
  rw [decide_eq_true hk, hw]
  rfl

/-- Every drive value of a station is 0, and the initial APC has yet to find a beam good (R187). -/
def State.beamsDark (s : State) (k : Nat) : State :=
  (List.range 128).foldl (fun t b =>
    let t := (t.wr (.blk .driveN) (bix k b) 0).wr (.blk .driveF) (bix k b) 0
    t.setBeam k b { t.lnk k |>.beam b with okN := 0, okF := 0, weak := 0, cause := 2 }) s

theorem BeamBlind.beamsDark {β : Type} {g : State → β} (h : BeamBlind g)
    (hd : ∀ s f i v, f ∈ [BlkF.driveN, .driveF] → g (s.wr (.blk f) i v) = g s) (s : State) (k : Nat) :
    g (s.beamsDark k) = g s := by
  unfold State.beamsDark
  refine foldl_unchanged (fun t b => ?_) (List.range 128) s
  exact (h.setBeam ..).trans ((hd _ .driveF _ _ (by decide)).trans (hd t .driveN _ _ (by decide)))

/-- STANDBY is entered, and the initial APC is due (R187). -/
def State.apcBegun (s : State) (k : Nat) : State :=
  let t := (s.toLink k 4).idle k 1
  t.setLnk k { t.lnk k with apc := some 0, apcDone := false, drives := t.zeroDrives k, recent := [] }

theorem State.linkStandby_eq (s : State) (k : Nat) : s.linkStandby k =
    if ((s.apcBegun k).beamsDark k).on (.blk .lden) k then (s.apcBegun k).beamsDark k
    else (((s.apcBegun k).beamsDark k).wr (.blk .lstate) k 6).idle k 0 := rfl

theorem State.rd_apcBegun (s : State) (k : Nat) (f : BlkF) (i : Nat) :
    (s.apcBegun k).rd (.blk f) i = (s.wr (.blk .lstate) k 4).rd (.blk f) i := by
  unfold State.apcBegun
  exact (State.rd_setLnk ..).trans ((sheetBlind_rd f i).toLink s k 4)

theorem State.lnk_apcBegun (s : State) (k : Nat) :
    ∃ d, (s.apcBegun k).lnk k = { s.lnk k with apc := some 0, apcDone := false, drives := d, recent := [] } := by
  refine ⟨((s.toLink k 4).idle k 1).zeroDrives k, ?_⟩
  have ht : (s.toLink k 4).lnk k = s.lnk k := ((sheetBlind_lnk k).toLink s k 4).trans (State.lnk_wr ..)
  simp only [State.apcBegun, State.lnk_setLnk_same, State.lnk_idle, ht]

theorem State.hw_apcBegun (s : State) (k : Nat) : (s.apcBegun k).hw = s.hw := by
  unfold State.apcBegun
  exact (State.setLnk_hw ..).trans ((sheetBlind_hw.toLink s k 4).trans (State.wr_hw ..))

theorem State.rd_dark (s : State) (k : Nat) {f : BlkF} (hf : f ∉ .driveN :: .driveF :: beamFields) :
    ((s.apcBegun k).beamsDark k).rd (.blk f) k = (s.wr (.blk .lstate) k 4).rd (.blk f) k := by
  obtain ⟨hd, hf, hb⟩ : f ≠ .driveN ∧ f ≠ .driveF ∧ f ∉ beamFields := by simpa using hf
  refine ((beamBlind_rd hb k).beamsDark (fun t f' i v h => ?_) _ k).trans (s.rd_apcBegun k f k)
  exact t.rd_wr_blk_ne (by rintro rfl; simp_all) ..

/-- STANDBY leaves the link's other fields, but for the drive values. -/
theorem State.rd_linkStandby (s : State) (k : Nat) {f : BlkF} (hf : f ∉ .lstate :: .driveN :: .driveF :: beamFields) :
    (s.linkStandby k).rd (.blk f) k = s.rd (.blk f) k := by
  obtain ⟨hl, hf⟩ := not_or.1 (List.mem_cons.not.1 hf)
  have hd : ((s.apcBegun k).beamsDark k).rd (.blk f) k = s.rd (.blk f) k := (s.rd_dark k hf).trans (s.rd_wr_blk_ne hl ..)
  rw [State.linkStandby_eq]
  split
  · exact hd
  · rw [State.rd_idle, State.rd_wr_blk_ne _ hl, hd]

/-- STANDBY shows itself, or INTERLOCKED while LDEN is low (R182). -/
theorem State.lstate_linkStandby {s : State} {k : Nat} (hk : k < s.hw.stations) :
    (s.linkStandby k).rd (.blk .lstate) k = if s.on (.blk .lden) k then 4 else 6 := by
  have hon : ((s.apcBegun k).beamsDark k).on (.blk .lden) k = s.on (.blk .lden) k := by
    rw [State.on_eq, s.rd_dark k (by decide), State.rd_wr_blk_ne s (by decide), ← State.on_eq]
  have hp : k < ((s.apcBegun k).beamsDark k).hw.stations := by
    rwa [beamBlind_hw.beamsDark (fun s f i v _ => s.wr_hw (.blk f) i v), State.hw_apcBegun]
  rw [State.linkStandby_eq, hon]
  split
  · rw [s.rd_dark k (by decide), State.rd_wr_link hk rfl]
    rfl
  · rw [State.rd_idle, State.rd_wr_link hp rfl]
    rfl

theorem Lnk.eq_with_beams {l l' : Lnk} (h : { l with beams := [] } = { l' with beams := [] }) :
    l = { l' with beams := l.beams } := by
  cases l
  cases l'
  simp_all

/-- What a link holds beside its beams, as STANDBY leaves it. -/
theorem State.lnk_linkStandby (s : State) (k : Nat) : ∃ d b, (s.linkStandby k).lnk k =
    { s.lnk k with apc := some 0, apcDone := false, drives := d, recent := [], beams := b } := by
  obtain ⟨d, hd⟩ := s.lnk_apcBegun k
  have hb : { ((s.apcBegun k).beamsDark k).lnk k with beams := [] } = { (s.apcBegun k).lnk k with beams := [] } :=
    (beamBlind_lnk (g := fun l => { l with beams := [] }) (fun _ _ => rfl) k).beamsDark
      (fun t f i v _ => by rw [State.lnk_wr]) _ k
  have hl : (s.linkStandby k).lnk k = ((s.apcBegun k).beamsDark k).lnk k := by
    rw [State.linkStandby_eq]
    split
    · rfl
    · rw [State.lnk_idle, State.lnk_wr]
  exact ⟨d, _, hl.trans ((Lnk.eq_with_beams hb).trans (by rw [hd]))⟩

/-! ### What IDENT leads to (R184) -/

section Ident

variable {s : State} {k : Nat} {w : List Byte} (hv : s.vidUp k = true) (hw : wordOk w 0x83 = true)
  (hl : s.rd (.blk .lstate) k = 2)

include hv hw hl

theorem rxIdent_bad (hc : s.identCheck k w ≠ 0) : (rxIdent k w s).rd (.blk .lstate) k = 8 ∧
    (rxIdent k w s).rd (.blk .fcause) k = s.identCheck k w := by
  have hp : k < ((s.identNoted k w).cableShow k).hw.stations := by
    rw [(State.sameButRegs_cableShow ..).hw, (s.identNoted_frame k w).1]
    exact State.stations_of_vidUp hv
  rw [rxIdent_eq hv hw hl, if_pos hc]
  exact ⟨State.rd_linkFault hp _ .lstate,
    (State.rd_linkFault hp _ .fcause).trans (Nat.mod_eq_of_lt (s.identCheck_lt k w))⟩

/-- A good IDENT leads to SETUP with the head's DMAX and TURN and the next GEN, and shows the cable where a round trip is
known. -/
theorem rxIdent_good (hc : s.identCheck k w = 0) : (rxIdent k w s).rd (.blk .lstate) k = 3 ∧
    ((rxIdent k w s).lnk k).dmax = leAt w 16 2 ∧ ((rxIdent k w s).lnk k).turn = some (leAt w 18 2) ∧
    ((rxIdent k w s).lnk k).gen = ((s.lnk k).gen + 1) % 256 ∧
    ∀ rt, (s.lnk k).roundTrip = some rt → (rxIdent k w s).rd (.blk .cableMeas) k = cableLength rt (leAt w 18 2) := by
  obtain ⟨hhw, hlnk, -⟩ := s.identNoted_frame k w
  have hsame := (s.identNoted k w).sameButRegs_cableShow k
  have hp : k < (s.identNoted k w).hw.stations := hhw ▸ State.stations_of_vidUp hv
  obtain ⟨hd, ht, hg, hrd⟩ := ((s.identNoted k w).cableShow k).identAccepted_spec k
  rw [hsame.lnk, hlnk] at hd ht hg
  rw [rxIdent_eq hv hw hl, if_neg (not_not.2 hc)]
  refine ⟨?_, hd, ht, hg, fun rt hrt => ?_⟩
  · have hp : k < ((s.identNoted k w).cableShow k).hw.stations := by rwa [hsame.hw]
    exact (hrd .lstate k (by decide)).trans (State.rd_wr_link hp rfl .lstate 3)
  · rw [hrd .cableMeas k (by decide), State.rd_wr_blk_ne _ (by decide)]
    exact (State.cableShow_spec hp (by rw [hlnk]; exact hrt) (by rw [hlnk])).1

end Ident

/-! ### STATUS (R181, R198) -/

/-- STATUS ends with the head's temperature; what comes before it is not seen by what looks past scans, beams and
STANDBY. -/
theorem rxStatus_eq {s : State} {k : Nat} {w : List Byte} (hv : s.vidUp k = true) (hw : wordOk w 0x81 = true)
    (h : s.rd (.blk .lstate) k ≠ 0) :
    ∃ (t : State) (fault : Bool), rxStatus k w s = t.headTemp k (leAt w 6 2) fault ∧
      ∀ {β : Type} {g : State → β}, BeamBlind g → (∀ u j x, g (u.setLnk j x) = g u) →
        (∀ u v, g (u.wr (.blk .discards) k v) = g u) → (∀ u, g (u.linkStandby k) = g u) → g t = g s := by
  unfold rxStatus
  rw [if_neg (by simp [hv, hw, h])]
  extract_lets flags l counted noted scanned entered mask marked dead failed x seen back done
  refine ⟨done, _, rfl, fun {β g} hb hl hd hs => ?_⟩
  have h1 : g noted = g s := (hl ..).trans (hd ..)
  have h2 : g scanned = g s := (hb.statusScan ..).trans h1
  have h3 : g entered = g s := by
    unfold entered
    split
    · exact (hs ..).trans h2
    · exact h2
  have h4 : g marked = g s := (foldl_unchanged (fun t b => hb.setBeam t k b _) _ _).trans h3
  have h5 : g seen = g s := (hl ..).trans ((hb.failBeams ..).trans h4)
  exact (foldl_unchanged (fun t b => (hb.setBeam _ k b _).trans (hb.setBeamSt t k b 2 1)) _ _).trans h5

/-- The head's temperature is shown, and trips the link at TRIP. -/
theorem State.headTemp_spec {s : State} {k : Nat} (hk : k < s.hw.stations) (raw : Nat) (fault : Bool) :
    (s.headTemp k raw fault).rd (.blk .headtemp) k = raw % 2 ^ 16 ∧
      (s.rdS (.blk .trip) k ≤ toSigned 16 raw → (s.headTemp k raw fault).rd (.blk .tempTrip) k = 1) := by
  unfold State.headTemp
  extract_lets t bad warn trip shown l noted warned tripped st spoiled
  have hn : noted.rd (.blk .headtemp) k = raw % 2 ^ 16 := State.rd_wr_same s (populated_link hk rfl) raw
  have hw : warned.rd (.blk .headtemp) k = raw % 2 ^ 16 ∧ warned.hw = s.hw := by
    unfold warned
    have hh : noted.hw = s.hw := State.wr_hw ..
    split
    · exact ⟨(State.rd_wr_blk_ne noted (by decide) ..).trans hn, (State.wr_hw ..).trans hh⟩
    · split
      · exact ⟨(State.rd_wr_blk_ne noted (by decide) ..).trans hn, (State.wr_hw ..).trans hh⟩
      · exact ⟨hn, hh⟩
  have ht : tripped.rd (.blk .headtemp) k = raw % 2 ^ 16 := (State.rd_wr_blk_ne warned (by decide) ..).trans hw.1
  have hp : tripped.rd (.blk .tempTrip) k = 1 := State.rd_wr_same warned (populated_link (hw.2 ▸ hk) rfl) 1
  have hkeep {f : BlkF} (hf : f ≠ .lstate) : ((spoiled.toLink k 7).idle k 0).rd (.blk f) k = tripped.rd (.blk f) k := by
    rw [State.rd_idle, (sheetBlind_rd f k).toLink spoiled, State.rd_wr_blk_ne _ hf]
    exact (sheetBlind_rd f k).spoilStation ..
  split
  · split
    · exact ⟨(hkeep (by decide)).trans ht, fun _ => (hkeep (by decide)).trans hp⟩
    · exact ⟨ht, fun _ => hp⟩
  · next hnot => exact ⟨hw.1, fun h => absurd (.inr h) hnot⟩

theorem rxStatus_spec {s : State} {k : Nat} {w : List Byte} (hv : s.vidUp k = true) (hw : wordOk w 0x81 = true)
    (h : s.rd (.blk .lstate) k ≠ 0) : (rxStatus k w s).rd (.blk .headtemp) k = leAt w 6 2 % 2 ^ 16 ∧
      (s.rdS (.blk .trip) k ≤ toSigned 16 (leAt w 6 2) → (rxStatus k w s).rd (.blk .tempTrip) k = 1) := by
  obtain ⟨t, fault, e, ht⟩ := rxStatus_eq hv hw h
  have hhw : t.hw = s.hw := ht beamBlind_hw (fun _ _ _ => rfl) (fun _ _ => State.wr_hw ..) fun u =>
    (State.linkStandby_keeps (b₀ := true) (.refl u) k).hw
  have htrip : t.rd (.blk .trip) k = s.rd (.blk .trip) k :=
    ht (beamBlind_rd (by decide) k) (fun _ _ _ => rfl)
      (fun u v => u.rd_wr_blk_ne (by decide) ..) fun u => u.rd_linkStandby k (by decide)
  rw [e, State.rdS, ← htrip]
  exact State.headTemp_spec (hhw ▸ State.stations_of_vidUp hv) _ fault

/-! ### APC_RESP and the initial APC (R187, R188) -/

theorem exec_rxApcResp {k : Nat} {w : List Byte} (hk : k < 8) (hw : w.length = 56) (s : State) :
    exec (.rxApcResp k w) s = .next (rxApcResp k w s) := by
  show guardWF (decide (k < 8) && w.length == 56) _ = _
  rw [decide_eq_true hk, hw]
  rfl

/-- What was asked is answered once. -/
theorem asked_rxApcResp {s : State} {k : Nat} {w : List Byte} (hv : s.vidUp k = true) (hw : wordOk w 0x82 = true) :
    ((rxApcResp k w s).lnk k).asked = [] := by
  unfold rxApcResp
  rw [if_neg (by simp [hv, hw])]
  extract_lets j es lit r failed l answered
  have ha : (answered.lnk k).asked = [] := by rw [State.lnk_setLnk_same]
  split
  · exact (congrArg Lnk.asked ((sheetBlind_lnk k).post ..)).trans ha
  · exact ha

theorem exec_initialApcEnd {k : Nat} (hk : k < 8) (s : State) : exec (.initialApcEnd k) s = .next (initialApcEnd k s) := by
  show guardWF (decide (k < 8)) _ = _
  rw [decide_eq_true hk, guardWF_true]

theorem State.lnk_tryActive (s : State) (k j : Nat) : (s.tryActive k).lnk j = s.lnk j := by
  unfold State.tryActive
  split
  · rw [State.lnk_idle, State.lnk_wr]
  · rfl

/-- The initial APC has ended, whatever its beams are found to be. -/
theorem initialApcEnd_spec {s : State} {k n : Nat} (hv : s.vidUp k = true) (ha : (s.lnk k).apc = some n) (hn : 128 ≤ n)
    (h : s.rd (.blk .lstate) k = 4) :
    ((initialApcEnd k s).lnk k).apc = none ∧ ((initialApcEnd k s).lnk k).apcDone = true := by
  unfold initialApcEnd
  split
  case h_2 hnone => exact nomatch hnone.symm.trans ha
  case h_1 m hm =>
  cases hm.symm.trans ha
  rw [if_pos (by simp [hv, hn, h])]
  extract_lets l ended good bad cause found failed
  have hb : BeamBlind fun t => ((t.lnk k).apc, (t.lnk k).apcDone) :=
    beamBlind_lnk (g := fun l => (l.apc, l.apcDone)) (fun _ _ => rfl) k
  have he : ((ended.lnk k).apc, (ended.lnk k).apcDone) = (none, true) := by rw [State.lnk_setLnk_same]
  have hf : ((found.lnk k).apc, (found.lnk k).apcDone) = (none, true) := by
    refine (foldl_unchanged (g := fun t : State => ((t.lnk k).apc, (t.lnk k).apcDone)) (fun t b => ?_) _ ended).trans he
    dsimp only
    split
    · exact (hb.closeTakeover ..).trans ((hb.setBeam ..).trans (hb.setBeamSt ..))
    · exact hb.setBeamSt ..
  rw [State.lnk_tryActive]
  exact Prod.mk.inj ((hb.failBeams found k _).trans hf)

/-- A field that a station has for each beam. -/
theorem populated_beam {hw : Hardware} {k b : Nat} (hk : k < hw.stations) (hb : b < 128) {f : BlkF}
    (hf : f.row.n2 * f.row.n3 = 128) :
    populated hw (.blk f) (bix k b) = true := by
  have hf : (Fld.blk f).row.n2 * (Fld.blk f).row.n3 = 128 := hf
  show decide ((Fld.blk f).outer (bix k b) < hw.stations) = true
  rw [Fld.outer, hf, bix, decide_eq_true_eq]
  omega

theorem toNat_clampInt_le (z : Int) (n : Nat) : (clampInt z 0 n).toNat ≤ n := by
  unfold clampInt
  omega

/-- Regulation leaves a drive value between 0 and DMAX (R188). -/
theorem State.regulate_le_dmax {s : State} {k : Nat} (hk : k < s.hw.stations) {x : Meas} (hx : x.beam < 128) :
    (s.regulate k x).rd (.blk (if x.full then .driveF else .driveN)) (bix k x.beam) ≤ (s.lnk k).dmax := by
  have hp : populated s.hw (.blk (if x.full then .driveF else .driveN)) (bix k x.beam) = true :=
    populated_beam hk hx (by split <;> rfl)
  unfold State.regulate
  extract_lets f t d raw ds step d' written l
  rw [State.rd_setLnk, State.rd_wr_same s hp]
  exact (Nat.mod_le ..).trans (toNat_clampInt_le ..)

/-- Settles O30: the link's moves by their guards, IDENT and ECHO by the cable they show, STATUS by its temperature, and
the drives by the bound of regulation. -/
theorem linksFollowTheirHeads : Obligations.LinksFollowTheirHeads := by
  refine ⟨fun s k hk hv => ⟨fun hid hh => ⟨fun h0 h15 hl hc => ?_, fun hid0 hl hc => ?_, fun h => ?_⟩,
      fun hl => ⟨?_, ?_⟩, fun hl => ?_, fun hl => ?_, fun hl => ?_⟩,
    fun s k w hk hv hw => ⟨fun hok hl => ⟨fun hc => ?_, fun hc => ?_⟩,
      fun rt hok ht hl => ⟨fun turn htn => ?_, fun htn => ?_⟩, fun h rt => ?_⟩,
    fun s k hk hv => ⟨fun w hw hok hl => ⟨_, exec_rxStatus hk hw s, rxStatus_spec hv hok hl⟩,
      fun w hw hok => ⟨_, exec_rxApcResp hk hw s, asked_rxApcResp hv hok⟩,
      fun n ha hn hl => ⟨_, exec_initialApcEnd hk s, initialApcEnd_spec hv ha hn hl⟩,
      fun x hx => State.regulate_le_dmax (State.stations_of_vidUp hv) hx⟩⟩
  all_goals have hp := State.stations_of_vidUp hv
  · rw [exec_hpresQualified hk hh, hpresQualified_trains hv hid hl hc, if_neg (not_or.2 ⟨h0, h15⟩)]
    rfl
  · rw [exec_hpresQualified hk hh, hpresQualified_trains hv hid hl hc, if_pos hid0]
    have hp : k < (((s.headPresent k hid).wr (.blk .lstate) k 1).idle k 0).hw.stations := by
      simpa [State.headPresent] using hp
    exact ⟨_, rfl, State.rd_linkFault hp 2 .lstate, State.rd_linkFault hp 2 .fcause⟩
  · rw [exec_hpresQualified hk hh, hpresQualified_stays hv hid h]
    rfl
  · refine ⟨_, exec_linkRxLocked hk hv hl, State.rd_wr_same (s.setLnk k _) (populated_link hp rfl) 2, ?_⟩
    simp only [State.send, State.emit_out, State.wr_out, State.setLnk_out]
    rfl
  · rw [exec_linkTrainTimeout hk hv hl, State.linkFault_of_not_active (by simp [hl])]
    rfl
  · rw [exec_identTimeout hk hv hl, State.linkFault_of_not_active (by simp [hl])]
    rfl
  · have hlc : (s.clr (.blk .hpres) k).rd (.blk .lstate) k ≠ 0 := by simpa [State.rd_clr] using hl
    rw [exec_hpresLoss hk hv, exec_rxLockLoss hk, exec_statusTimeout hk, State.linkDrop_of_on hv hl,
      State.linkDrop_of_on hv hl, State.linkDrop_of_on (s := s.clr (.blk .hpres) k) ((s.vidUp_wr ..).trans hv) hlc]
    have hpc : k < (s.clr (.blk .hpres) k).hw.stations := by rwa [State.clr_eq, State.wr_hw]
    refine ⟨⟨_, rfl, State.rd_linkFault hpc 8 .lstate, State.rd_linkFault hpc 8 .fcause, ?_⟩,
      ⟨_, rfl, State.rd_linkFault hp 9 .lstate, State.rd_linkFault hp 9 .fcause⟩,
      _, rfl, State.rd_linkFault hp 7 .lstate, State.rd_linkFault hp 7 .fcause⟩
    exact (State.rd_linkFault hpc 8 .hpres).trans (by simp [State.rd_clr])
  · have hlc : (s.clr (.blk .hpres) k).rd (.blk .lstate) k = 0 := by simpa [State.rd_clr] using hl
    rw [exec_hpresLoss hk hv, exec_rxLockLoss hk, exec_statusTimeout hk, State.linkDrop_of_off hl, State.linkDrop_of_off hl,
      State.linkDrop_of_off hlc]
    exact ⟨rfl, rfl, rfl⟩
  · exact ⟨_, exec_rxIdent hk hw s, rxIdent_good hv hok hl hc⟩
  · exact ⟨_, exec_rxIdent hk hw s, rxIdent_bad hv hok hl hc⟩
  · rw [exec_rxEchoResp hk hw, rxEchoResp_answers hv hok ht hl]
    exact ⟨_, rfl, State.cableShow_spec (s := s.setLnk k { s.lnk k with roundTrip := some rt }) hp
      (by rw [State.lnk_setLnk_same]) (by rw [State.lnk_setLnk_same]; exact htn)⟩
  · rw [exec_rxEchoResp hk hw, rxEchoResp_answers hv hok ht hl, State.cableShow_unknown]
    exact .inr (by rw [State.lnk_setLnk_same]; exact htn)
  · rw [exec_rxEchoResp hk hw, rxEchoResp_ignored h]

/-! ### LDEN (R199, R200) -/

/-- The request ends with LDEN; LDEN that falls is an event, and interlocks a link in STANDBY or ACTIVE. -/
theorem State.rd_ldenLow {s : State} {k : Nat} (hp : k < s.hw.stations) (f : BlkF) :
    (s.ldenLow k).rd (.blk f) k =
      if f = .ldReq ∨ f = .lden then 0
      else if s.on (.blk .lden) k = true ∧ f = .ilkEv then 1
      else if s.on (.blk .lden) k = true ∧ f = .lstate ∧ (s.rd (.blk .lstate) k = 4 ∨ s.rd (.blk .lstate) k = 5) then 6
      else s.rd (.blk f) k := by
  unfold State.ldenLow
  extract_lets x released dropped fallen st
  have hd : dropped.hw = s.hw := (State.wr_hw ..).trans (State.setLnk_hw ..)
  have hrd (g : BlkF) : dropped.rd (.blk g) k = if g = .ldReq then 0 else s.rd (.blk g) k :=
    State.rd_wr_link (s := released) hp rfl g 0
  have hon : dropped.on (.blk .lden) k = s.on (.blk .lden) k := by rw [State.on_eq, hrd, if_neg (by decide), State.on_eq]
  have hrf (g : BlkF) :
      fallen.rd (.blk g) k = if g = .ilkEv then 1 else if g = .lden then 0 else dropped.rd (.blk g) k := by
    have h1 : k < (dropped.clr (.blk .lden) k).hw.stations := by rwa [State.clr_eq, State.wr_hw, hd]
    refine ((sheetBlind_rd g k).spoilStation ..).trans ?_
    rw [State.ev_eq, State.rd_wr_link h1 rfl, State.clr_eq, State.rd_wr_link (hd ▸ hp) rfl]
    rfl
  have hf : k < fallen.hw.stations := by
    rw [show fallen.hw = s.hw from
      (sheetBlind_hw.spoilStation ..).trans ((State.wr_hw ..).trans ((State.wr_hw ..).trans hd))]
    exact hp
  have hst : st = s.rd (.blk .lstate) k := by simp [st, hrf, hrd]
  rw [hon]
  by_cases hl : s.on (.blk .lden) k = true
  · rw [if_pos hl, hst]
    by_cases h45 : s.rd (.blk .lstate) k = 4 ∨ s.rd (.blk .lstate) k = 5
    · rw [if_pos h45, State.rd_idle, State.rd_wr_link hf rfl, hrf, hrd]
      cases f <;> simp [hl, h45, BlkF.row]
    · rw [if_neg h45, hrf, hrd]
      cases f <;> simp [hl, h45]
  · have h0 : s.rd (.blk .lden) k = 0 := State.rd_eq_zero_of_off (by simpa using hl)
    rw [if_neg hl, hrd]
    cases f <;> simp [hl, h0]

theorem State.request_ldenLow (s : State) (k : Nat) : ((s.ldenLow k).lnk k).request = false := by
  unfold State.ldenLow
  extract_lets x released dropped fallen st
  have hd : (dropped.lnk k).request = false := by simp [dropped, released, State.clr_eq]
  have hf : (fallen.lnk k).request = false := by
    refine (congrArg Lnk.request ((sheetBlind_lnk k).spoilStation ..)).trans ?_
    rw [State.ev_eq, State.lnk_wr, State.clr_eq, State.lnk_wr]
    exact hd
  split
  · split
    · rw [State.lnk_idle, State.lnk_wr]
      exact hf
    · exact hf
  · exact hd

theorem State.tryActive_of_apc {s : State} {k : Nat} (h : (s.lnk k).apcDone = false) : s.tryActive k = s :=
  if_neg (by simp [h])

/-- LDEN in INTERLOCKED enters STANDBY again; the initial APC has yet to run. -/
theorem State.ldenHigh_of_interlocked {s : State} {k : Nat} (h : s.rd (.blk .lstate) k = 6) :
    s.ldenHigh k = (s.wr (.blk .lden) k 1).linkStandby k := by
  obtain ⟨d, b, hl⟩ := (s.wr (.blk .lden) k 1).lnk_linkStandby k
  have h6 : (s.wr (.blk .lden) k 1).rd (.blk .lstate) k = 6 := (s.rd_wr_blk_ne (by decide) ..).trans h
  unfold State.ldenHigh
  extract_lets risen begun
  rw [show begun = (s.wr (.blk .lden) k 1).linkStandby k from if_pos h6]
  exact State.tryActive_of_apc (by rw [hl])

theorem State.ldenHigh_of_not_interlocked {s : State} {k : Nat} (h : s.rd (.blk .lstate) k ≠ 6) :
    s.ldenHigh k = (s.wr (.blk .lden) k 1).tryActive k := by
  have h6 : (s.wr (.blk .lden) k 1).rd (.blk .lstate) k ≠ 6 := by rwa [State.rd_wr_blk_ne s (by decide)]
  unfold State.ldenHigh
  extract_lets risen begun
  rw [show begun = s.wr (.blk .lden) k 1 from if_neg h6]

/-- LDEN that rises is shown; beside it the state, drives and beams of the link may change. -/
theorem State.rd_ldenHigh {s : State} {k : Nat} (hp : k < s.hw.stations) {f : BlkF}
    (hf : f ∉ .lstate :: .driveN :: .driveF :: beamFields) :
    (s.ldenHigh k).rd (.blk f) k = if f = .lden then 1 else s.rd (.blk f) k := by
  refine Eq.trans ?_ (State.rd_wr_link hp rfl f 1)
  by_cases h : s.rd (.blk .lstate) k = 6
  · rw [State.ldenHigh_of_interlocked h, State.rd_linkStandby _ k hf]
  · rw [State.ldenHigh_of_not_interlocked h]
    exact (State.tryActive_frame _ k).2 _ _ fun e => hf (by simp [Fld.blk.inj e])

theorem State.request_ldenHigh (s : State) (k : Nat) : ((s.ldenHigh k).lnk k).request = (s.lnk k).request := by
  by_cases h : s.rd (.blk .lstate) k = 6
  · obtain ⟨d, b, hl⟩ := (s.wr (.blk .lden) k 1).lnk_linkStandby k
    rw [State.ldenHigh_of_interlocked h, hl, State.lnk_wr]
  · rw [State.ldenHigh_of_not_interlocked h, State.lnk_tryActive, State.lnk_wr]

theorem State.lstate_ldenHigh {s : State} {k : Nat} (hp : k < s.hw.stations) (h : s.rd (.blk .lstate) k = 6) :
    (s.ldenHigh k).rd (.blk .lstate) k = 4 := by
  have hon : (s.wr (.blk .lden) k 1).on (.blk .lden) k = true := by
    rw [State.on_eq, State.rd_wr_link hp rfl]
    rfl
  rw [State.ldenHigh_of_interlocked h, State.lstate_linkStandby (by rwa [State.wr_hw]), hon]
  rfl

/-- A link that is neither in STANDBY nor interlocked stays in its state. -/
theorem State.ldenHigh_of_off {s : State} {k : Nat} (h : s.rd (.blk .lstate) k = 0) :
    s.ldenHigh k = s.wr (.blk .lden) k 1 := by
  rw [State.ldenHigh_of_not_interlocked (by simp [h])]
  exact if_neg (by simp [State.rd_wr_blk_ne, h])

theorem exec_ldenFall {s : State} {k : Nat} (hk : k < 8) (hv : s.vidUp k = true) :
    exec (.ldenFall k) s = .next ((s.clr (.blk .ilkClosed) k).ldenLow k) := by
  show guardWF (decide (k < 8)) (if s.vidUp k then _ else _) = _
  rw [decide_eq_true hk, guardWF_true, if_pos hv]

theorem exec_ilkLoopClose {s : State} {k : Nat} (hk : k < 8) (hv : s.vidUp k = true) :
    exec (.ilkLoopClose k) s = .next
      (if (s.lnk k).request then (s.wr (.blk .ilkClosed) k 1).ldenHigh k else s.wr (.blk .ilkClosed) k 1) := by
  show guardWF (decide (k < 8)) (if s.vidUp k then _ else _) = _
  rw [decide_eq_true hk, guardWF_true, if_pos hv]
  dsimp only
  rw [State.lnk_wr]

/-! ### Writes of BLK_CTL and BLK_STATUS (R7, R203) -/

/-- The fields of BLK_CTL and of BLK_STATUS, as a write judges them. -/
def blkCtlFields : List BlkF := [.ldReq, .apcMode, .tkoMode, .tkoEn]
def blkStatusFields : List BlkF :=
  [.lstate, .lden, .ilkClosed, .hpres, .tempWarn, .tempTrip, .ilkEv, .lostScan, .tkoEv, .uncovered, .setLate, .cableMismatch,
    .cmdErr, .fcause]

/-- The slices of a word of station `k` that holds these fields. -/
def linkSlices (fs : List BlkF) (k : Nat) : List Slice := fs.map fun f => ⟨.blk f, k, f.row.lsb⟩

theorem slicesAt_blkCtl : ∀ k < 8, slicesAt ((Fld.blk .ldReq).addr k) = linkSlices blkCtlFields k := by decide

theorem slicesAt_blkStatus : ∀ k < 8, slicesAt ((Fld.blk .lstate).addr k) = linkSlices blkStatusFields k := by decide

/-- A field that a plain write may change: no status, and not TEMP_TRIP, which has a condition of its own (R198). -/
def BlkF.takes (f : BlkF) : Bool := f.row.acc != .ro && f != .tempTrip

/-- A field whose write is not bounded and comes into force at once. -/
def BlkF.plain (f : BlkF) : Bool := f.row.latch == .direct && f.row.acc != .rwx && decide (f.row.width ≤ 32)

theorem State.accept_plain {f : BlkF} (hf : BlkF.plain f = true) (s : State) (i v : Nat) :
    s.accept (.blk f) i v = s.wr (.blk f) i v := by
  cases f
  case tgt => cases hf
  all_goals rfl

/-- A plain field is left, or takes a value if it takes any. -/
theorem State.judgeField_plain (s : State) {f : BlkF} (hf : BlkF.plain f = true) (k lsb w : Nat) :
    (s.judgeField ⟨.blk f, k, lsb⟩ w).1 = s ∨
      BlkF.takes f = true ∧ ∃ v, (s.judgeField ⟨.blk f, k, lsb⟩ w).1 = s.wr (.blk f) k v := by
  obtain ⟨⟨-, hx⟩, -⟩ : (f.row.latch = .direct ∧ f.row.acc ≠ .rwx) ∧ f.row.width ≤ 32 := by simpa [BlkF.plain] using hf
  have htake (h1 : f.row.acc ≠ .ro) (h2 : f ≠ .tempTrip) : BlkF.takes f = true := by simp [BlkF.takes, h1, h2]
  unfold State.judgeField
  dsimp only
  split
  · exact .inl rfl
  · split
    · exact .inl rfl
    · next ha =>
      split
      · next hv => exact .inr ⟨htake (by simp [show f.row.acc = _ from ha]) (fun e => hv.2 (congrArg Fld.blk e)), 0, rfl⟩
      · exact .inl rfl
    · next h1 h2 =>
      split
      · rw [s.limited_of_not_rwx (k := ((.blk f, k), 0)) hx]
        refine .inr ⟨htake h1 ?_, _, State.accept_plain hf ..⟩
        rintro rfl
        exact h2 rfl
      · exact .inl rfl

/-- The slices of a word, judged one after the other: the state after them, and whether one was refused. -/
def judgeSlices (r : State × Bool) (sls : List Slice) (word : Nat) : State × Bool :=
  sls.foldl (fun a sl =>
    let b := a.1.judgeField sl word
    (b.1, a.2 || b.2)) r

/-- What the write of plain fields cannot be seen in: whatever looks past those of them that take something. -/
theorem judgeSlices_unchanged {β : Type} {g : State → β} {fs : List BlkF} {k : Nat} (hfs : ∀ f ∈ fs, BlkF.plain f = true)
    (hg : ∀ f ∈ fs, BlkF.takes f = true → ∀ t v, g (t.wr (.blk f) k v) = g t) (r : State × Bool) (word : Nat) :
    g (judgeSlices r (linkSlices fs k) word).1 = g r.1 := by
  refine List.foldlRecOn (motive := fun a : State × Bool => g a.1 = g r.1) _ _ rfl fun a e sl hsl => ?_
  obtain ⟨f, hf, rfl⟩ := List.mem_map.1 hsl
  obtain hs | ⟨ht, v, hs⟩ := a.1.judgeField_plain (hfs f hf) k f.row.lsb word
  · exact (congrArg g hs).trans e
  · exact (congrArg g hs).trans ((hg f hf ht ..).trans e)

theorem State.judgeWord_plain (s : State) {addr k : Nat} {fs : List BlkF} (ha : slicesAt addr = linkSlices fs k)
    (hfs : ∀ f ∈ fs, BlkF.plain f = true) (word : Nat) :
    s.judgeWord addr word =
      if (judgeSlices (s, false) (linkSlices fs k) word).2 then (judgeSlices (s, false) (linkSlices fs k) word).1.deny
      else (judgeSlices (s, false) (linkSlices fs k) word).1 := by
  have hplain {sl : Slice} (h : sl ∈ linkSlices fs k) :
      (sl.fld.row.latch = .direct ∧ sl.fld.row.acc ≠ .rwx) ∧ sl.fld.row.width ≤ 32 := by
    obtain ⟨f, hf, rfl⟩ := List.mem_map.1 h
    simpa [BlkF.plain, Fld.row] using hfs f hf
  have hw : (linkSlices fs k).filter (fun sl => decide (sl.fld.row.width ≤ 32)) = linkSlices fs k :=
    List.filter_eq_self.2 fun sl h => decide_eq_true (hplain h).2
  have hb : (linkSlices fs k).find? (Slice.boundary s) = none :=
    List.find?_eq_none.2 fun sl h => by simp [Slice.boundary, (hplain h).1.1]
  unfold State.judgeWord
  rw [ha, hw]
  dsimp only
  rw [hb]
  rfl

theorem SheetBlind.judgeWord {β : Type} {g : State → β} (h : SheetBlind g) (s : State) {addr k : Nat} {fs : List BlkF}
    (ha : slicesAt addr = linkSlices fs k) (hfs : ∀ f ∈ fs, BlkF.plain f = true) (word : Nat) :
    g (s.judgeWord addr word) = g (judgeSlices (s, false) (linkSlices fs k) word).1 := by
  rw [s.judgeWord_plain ha hfs]
  split
  · exact h.deny _
  · rfl

theorem blkCtlFields_plain : ∀ f ∈ blkCtlFields, BlkF.plain f = true := by decide

theorem blkStatusFields_plain : ∀ f ∈ blkStatusFields, BlkF.plain f = true := by decide

/-- A write of BLK_CTL is seen in its own fields alone. -/
theorem SheetBlind.judgeCtl {β : Type} {g : State → β} (h : SheetBlind g) {k : Nat} (hk : k < 8)
    (hg : ∀ f ∈ blkCtlFields, ∀ t v, g (t.wr (.blk f) k v) = g t) (s : State) (word : Nat) :
    g (s.judgeWord ((Fld.blk .ldReq).addr k) word) = g s :=
  (h.judgeWord s (slicesAt_blkCtl k hk) blkCtlFields_plain word).trans
    (judgeSlices_unchanged blkCtlFields_plain (fun f hf _ => hg f hf) (s, false) word)

/-- A write of BLK_STATUS is seen in its events alone, and not in TEMP_TRIP. -/
theorem SheetBlind.judgeStatus {β : Type} {g : State → β} (h : SheetBlind g) {k : Nat} (hk : k < 8)
    (hg : ∀ f ∈ blkStatusFields, BlkF.takes f = true → ∀ t v, g (t.wr (.blk f) k v) = g t) (s : State) (word : Nat) :
    g (s.judgeWord ((Fld.blk .lstate).addr k) word) = g s :=
  (h.judgeWord s (slicesAt_blkStatus k hk) blkStatusFields_plain word).trans
    (judgeSlices_unchanged blkStatusFields_plain hg (s, false) word)

/-- LD_REQ takes the bit written (R199). -/
theorem State.rd_ldReq_judgeWord {s : State} {k : Nat} (hk : k < 8) (hp : k < s.hw.stations) (word : Nat) :
    (s.judgeWord ((Fld.blk .ldReq).addr k) word).rd (.blk .ldReq) k = word % 2 := by
  have hfirst : s.judgeField ⟨.blk .ldReq, k, 0⟩ word = (s.wr (.blk .ldReq) k (bitField word 0 1), false) :=
    State.judgeField_rw (sl := ⟨.blk .ldReq, k, 0⟩) (populated_link hp rfl) rfl rfl
  have hrest : judgeSlices (s, false) (linkSlices blkCtlFields k) word =
      judgeSlices (s.wr (.blk .ldReq) k (bitField word 0 1), false) (linkSlices [.apcMode, .tkoMode, .tkoEn] k) word := by
    show judgeSlices (s.judgeField ⟨.blk .ldReq, k, 0⟩ word) _ word = _
    rw [hfirst]
    rfl
  rw [(sheetBlind_rd .ldReq k).judgeWord s (slicesAt_blkCtl k hk) blkCtlFields_plain, hrest,
    judgeSlices_unchanged (g := fun t => t.rd (.blk .ldReq) k) (by decide)
      (fun f hf _ t v => t.rd_wr_blk_ne (by rintro rfl; revert hf; decide) ..),
    State.rd_wr_link hp rfl]
  simp [bitField, BlkF.row]

/-! ### LINK_RESTART and LD_REQUEST (R182, R199) -/

theorem bitField_bit (v : Word) (i : Nat) : bitField v.toNat i 1 = bit (v.getLsbD i) := by
  rw [BitVec.getLsbD, Nat.testBit_eq_decide_div_mod_eq, bitField, pow_one, bit]
  split <;> simp_all

/-- BLK_CTL is judged, and RESTART has acted. -/
def State.ctlTaken (s : State) (k : Nat) (v : Word) : State :=
  let t := s.judgeWord ((Fld.blk .ldReq).addr k) v.toNat
  if v.getLsbD 4 then t.linkRestart k else t

/-- RESTART is seen in the link's state, its cause and its initial APC alone (R182). -/
theorem SheetBlind.linkRestart {β : Type} {g : State → β} (h : SheetBlind g) {k : Nat}
    (hw : ∀ f ∈ [BlkF.lstate, .fcause], ∀ t v, g (t.wr (.blk f) k v) = g t)
    (hl : ∀ t : State, g (t.setLnk k { t.lnk k with apc := none, apcDone := false }) = g t) (s : State) :
    g (s.linkRestart k) = g s := by
  unfold State.linkRestart
  split
  · exact (h.emit ..).trans ((hw .fcause (by decide) ..).trans ((hw .lstate (by decide) ..).trans (hl s)))
  · rfl

/-- What BLK_CTL takes is seen in its fields and in what RESTART writes. -/
theorem SheetBlind.ctlTaken {β : Type} {g : State → β} (h : SheetBlind g) {k : Nat} (hk : k < 8)
    (hw : ∀ f ∈ BlkF.lstate :: .fcause :: blkCtlFields, ∀ t v, g (t.wr (.blk f) k v) = g t)
    (hl : ∀ t : State, g (t.setLnk k { t.lnk k with apc := none, apcDone := false }) = g t) (s : State) (v : Word) :
    g (s.ctlTaken k v) = g s := by
  have hj := h.judgeCtl hk (fun f hf => hw f (List.mem_append_right [BlkF.lstate, .fcause] hf)) s v.toNat
  unfold State.ctlTaken
  dsimp only
  split
  · exact (h.linkRestart (fun f hf => hw f (List.mem_append_left blkCtlFields hf)) hl _).trans hj
  · exact hj

theorem sheetBlind_ldr : SheetBlind State.ldr := ⟨fun _ _ _ _ _ => rfl, fun s f i v _ => s.wr_ldr f i v⟩

section Ctl

variable {s : State} {k : Nat} (hk : k < 8) (v : Word)

include hk

theorem State.hw_ctlTaken : (s.ctlTaken k v).hw = s.hw :=
  sheetBlind_hw.ctlTaken hk (fun _ _ t _ => t.wr_hw ..) (fun _ => rfl) s v

theorem State.ldr_ctlTaken : (s.ctlTaken k v).ldr = s.ldr :=
  sheetBlind_ldr.ctlTaken hk (fun _ _ t _ => t.wr_ldr ..) (fun _ => rfl) s v

theorem State.request_ctlTaken : ((s.ctlTaken k v).lnk k).request = (s.lnk k).request :=
  SheetBlind.ctlTaken (g := fun t => (t.lnk k).request) ⟨fun _ _ _ _ _ => rfl, fun t f i w _ => by rw [State.lnk_wr]⟩ hk
    (fun f _ t w => by rw [State.lnk_wr]) (fun t => by rw [State.lnk_setLnk_same]) s v

theorem State.rd_ctlTaken {f : BlkF} (hf : f ∉ BlkF.lstate :: .fcause :: blkCtlFields) :
    (s.ctlTaken k v).rd (.blk f) k = s.rd (.blk f) k :=
  (sheetBlind_rd f k).ctlTaken hk (fun f' hf' t w => t.rd_wr_blk_ne (by rintro rfl; exact hf hf') ..) (fun _ => rfl) s v

theorem State.rd_ldReq_ctlTaken (hp : k < s.hw.stations) (h : v.getLsbD 0 = true) :
    (s.ctlTaken k v).rd (.blk .ldReq) k = 1 := by
  have hj : (s.judgeWord ((Fld.blk .ldReq).addr k) v.toNat).rd (.blk .ldReq) k = 1 := by
    have hb := bitField_bit v 0
    rw [h, bitField, pow_zero, Nat.div_one] at hb
    exact (State.rd_ldReq_judgeWord hk hp v.toNat).trans hb
  unfold State.ctlTaken
  dsimp only
  split
  · exact ((sheetBlind_rd .ldReq k).linkRestart (fun f hf t w => t.rd_wr_blk_ne (by rintro rfl; revert hf; decide) ..)
      (fun _ => rfl) _).trans hj
  · exact hj

/-- RESTART takes a link out of FAULT (R182). -/
theorem State.ctlTaken_restarts (hp : k < s.hw.stations) (h4 : v.getLsbD 4 = true) (h8 : s.rd (.blk .lstate) k = 8) :
    (s.ctlTaken k v).rd (.blk .lstate) k = 0 ∧ (s.ctlTaken k v).rd (.blk .fcause) k = 0 := by
  have hj : (s.judgeWord ((Fld.blk .ldReq).addr k) v.toNat).rd (.blk .lstate) k = 8 :=
    ((sheetBlind_rd .lstate k).judgeCtl hk
      (fun f hf t w => t.rd_wr_blk_ne (by rintro rfl; revert hf; decide) ..) s _).trans h8
  have hhw : (s.judgeWord ((Fld.blk .ldReq).addr k) v.toNat).hw = s.hw :=
    sheetBlind_hw.judgeCtl hk (fun _ _ t _ => t.wr_hw ..) s _
  unfold State.ctlTaken
  dsimp only
  rw [if_pos h4, State.linkRestart, if_pos hj]
  constructor
  · simp [State.rd_clr, State.rd_wr_link, hhw, hp, BlkF.ofStation, BlkF.row]
  · simp [State.rd_clr]

theorem State.blkCtl_eq (hp : k < s.hw.stations) : s.blkCtl k v.toNat =
    (s.ctlTaken k v).ldReq k (s.on (.blk .ldReq) k) (v.getLsbD 0) := by
  have hhw : (s.judgeWord ((Fld.blk .ldReq).addr k) v.toNat).hw = s.hw :=
    sheetBlind_hw.judgeCtl hk (fun _ _ t _ => t.wr_hw ..) s _
  have hb (b : Bool) : (bit b == 1) = b := by cases b <;> rfl
  have hb' (b : Bool) : bit b = 1 ↔ b = true := by cases b <;> decide
  unfold State.blkCtl
  dsimp only
  rw [hhw, decide_eq_false (Nat.not_le.2 hp), if_neg Bool.false_ne_true, bitField_bit, bitField_bit, hb]
  simp only [hb']
  rfl

end Ctl

theorem exec_linkRestart {s : State} {k : Nat} (hk : k < 8) (hr : s.Reaches .blk k) {v : Word} (h : v.getLsbD 4 = true) :
    exec (.linkRestart k v) s = .next (s.blkCtl k v.toNat) := by
  show guardWF (decide (k < 8) && v.getLsbD 4) (s.hostWrite .blk k _) = _
  rw [decide_eq_true hk, h, State.hostWrite_of_reaches hr]
  rfl

theorem exec_ldRequest {s : State} {k : Nat} (hk : k < 8) (hr : s.Reaches .blk k) {v : Word} (h : v.getLsbD 0 = true) :
    exec (.ldRequest k v) s = .next (s.blkCtl k v.toNat) := by
  show guardWF (decide (k < 8) && v.getLsbD 0) (s.hostWrite .blk k _) = _
  rw [decide_eq_true hk, h, State.hostWrite_of_reaches hr]
  rfl

/-- The request is told to the link. -/
def State.requested (s : State) (k : Nat) : State := s.setLnk k { s.lnk k with request := true }

theorem State.ldReq_rises {s : State} (h : s.imageRuns = true) (k : Nat) : s.ldReq k false true =
    if s.on (.blk .ilkClosed) k then (s.requested k).ldenHigh k else s.requested k := by
  unfold State.ldReq
  exact if_pos (by simp [h])

theorem State.ldReq_stays {s : State} {was : Bool} (h : was = true ∨ s.imageRuns = false) (k : Nat) :
    s.ldReq k was true = s := by
  unfold State.ldReq
  rw [if_neg (by rcases h with h | h <;> simp [h]), if_neg (by simp)]

/-- A change of LD_REQ leaves a link in OFF there, and its cause. -/
theorem State.ldReq_of_off {s : State} {k : Nat} (hp : k < s.hw.stations) (h : s.rd (.blk .lstate) k = 0) (was now : Bool) :
    (s.ldReq k was now).rd (.blk .lstate) k = 0 ∧ (s.ldReq k was now).rd (.blk .fcause) k = s.rd (.blk .fcause) k := by
  unfold State.ldReq
  split
  · dsimp only
    split
    · rw [← State.requested, State.ldenHigh_of_off (s := s.requested k) h, State.rd_wr_blk_ne _ (by decide),
        State.rd_wr_blk_ne _ (by decide)]
      exact ⟨h, rfl⟩
    · exact ⟨h, rfl⟩
  · split
    · simp [State.rd_ldenLow hp, h]
    · exact ⟨h, rfl⟩

section Request

variable {s : State} {k : Nat} (hk : k < 8) (hp : k < s.hw.stations) {v : Word} (hv : v.getLsbD 0 = true)

include hk hp hv

theorem State.blkCtl_requests (h0 : s.rd (.blk .ldReq) k = 0) (hi : s.imageRuns = true) :
    ((s.blkCtl k v.toNat).lnk k).request = true ∧ (s.blkCtl k v.toNat).rd (.blk .ldReq) k = 1 ∧
      (s.blkCtl k v.toNat).rd (.blk .lden) k = if s.on (.blk .ilkClosed) k then 1 else s.rd (.blk .lden) k := by
  have hit : (s.ctlTaken k v).imageRuns = true := by
    rw [← hi]
    simp only [State.imageRuns, State.imageSt, s.ldr_ctlTaken hk v]
  have hon : (s.ctlTaken k v).on (.blk .ilkClosed) k = s.on (.blk .ilkClosed) k := by
    rw [State.on_eq, s.rd_ctlTaken hk v (by decide), State.on_eq]
  have hpt : k < ((s.ctlTaken k v).requested k).hw.stations := by rwa [State.requested, State.setLnk_hw, s.hw_ctlTaken hk v]
  have hreq : (((s.ctlTaken k v).requested k).lnk k).request = true := by rw [State.requested, State.lnk_setLnk_same]
  have hld : ((s.ctlTaken k v).requested k).rd (.blk .ldReq) k = 1 := s.rd_ldReq_ctlTaken hk v hp hv
  rw [s.blkCtl_eq hk v hp, hv, show s.on (.blk .ldReq) k = false by rw [State.on_eq, h0]; rfl, State.ldReq_rises hit, hon]
  split
  · rw [State.request_ldenHigh, State.rd_ldenHigh hpt (by decide), State.rd_ldenHigh hpt (by decide)]
    exact ⟨hreq, hld, rfl⟩
  · exact ⟨hreq, hld, s.rd_ctlTaken hk v (by decide)⟩

/-- A request that was up before, or meets no image, is only shown. -/
theorem State.blkCtl_shows (h : s.rd (.blk .ldReq) k ≠ 0 ∨ s.imageRuns = false) :
    ((s.blkCtl k v.toNat).lnk k).request = (s.lnk k).request ∧ (s.blkCtl k v.toNat).rd (.blk .ldReq) k = 1 ∧
      (s.blkCtl k v.toNat).rd (.blk .lden) k = s.rd (.blk .lden) k := by
  have hi : (s.ctlTaken k v).imageRuns = s.imageRuns := by simp only [State.imageRuns, State.imageSt, s.ldr_ctlTaken hk v]
  rw [s.blkCtl_eq hk v hp, hv, State.ldReq_stays (by rw [hi]; exact h.imp_left fun h => by simpa [State.on_eq] using h)]
  exact ⟨s.request_ctlTaken hk v, s.rd_ldReq_ctlTaken hk v hp hv, s.rd_ctlTaken hk v (by decide)⟩

end Request

/-! ### BEAM_OUT and BEAM_RETURN (R196, R197) -/

section Beams

variable {s : State} {k b : Nat} (hk : k < 8) (hb : b < 128) (hr : s.Reaches .blk k) (hv : s.vidUp k = true)

include hk hb hr hv

theorem exec_beamOut : exec (.beamOut k b) s = .next
    (if s.busy k && !s.canCover k (partner b) then s.ev (.blk .cmdErr) k
     else s.setBeam k b { (s.lnk k).beam b with outPend := true }) := by
  show guardWF (decide (k < 8) && decide (b < 128)) (s.hostWrite .blk k _) = _
  rw [decide_eq_true hk, decide_eq_true hb, State.hostWrite_of_reaches hr, Bool.and_true, guardWF_true, beamOut, hv]
  rfl

/-- A beam that returns, with its counts of good measurements at 0. -/
def State.beamReturning (s : State) (k b : Nat) : State :=
  (s.setBeamSt k b 3 0).setBeam k b { (s.lnk k).beam b with okN := 0, okF := 0, weak := 0, returnReady := false }

theorem exec_beamReturn : exec (.beamReturn k b) s = .next
    (if s.beamSt k b ≠ 2 ∨ ((s.lnk k).beam b).drv = true then s.ev (.blk .cmdErr) k else s.beamReturning k b) := by
  show guardWF (decide (k < 8) && decide (b < 128)) (s.hostWrite .blk k _) = _
  rw [decide_eq_true hk, decide_eq_true hb, State.hostWrite_of_reaches hr, Bool.and_true, guardWF_true, beamReturn, hv,
    Bool.not_true, if_neg Bool.false_ne_true]
  rfl

end Beams

theorem Lnk.beam_setBeam (l : Lnk) (b : Nat) (x : Beam) : (l.setBeam b x).beam b = x := Store.get_set_same ..

/-- The state of a beam reads what was last set; the other beams of the station keep theirs. -/
theorem State.beamSt_setBeamSt {s : State} {k b : Nat} (hp : k < s.hw.stations) (hb : b < 128) (st cause c : Nat) :
    (s.setBeamSt k b st cause).beamSt k c = if c = b then st % 4 else s.beamSt k c := by
  rw [State.beamSt, State.setBeamSt, State.rd_wr_blk_ne _ (by decide), State.rd_wr]
  have hpop : populated s.hw (.blk .beamState) (bix k b) = true := populated_beam hp hb rfl
  by_cases h : c = b
  · rw [if_pos ⟨rfl, by rw [h], hpop⟩, if_pos h]
    rfl
  · rw [if_neg (fun e => h (Nat.add_left_cancel e.2.1)), if_neg h]
    rfl

theorem State.beamReturning_spec {s : State} {k b : Nat} (hp : k < s.hw.stations) (hb : b < 128) :
    (s.beamReturning k b).beamSt k b = 3 ∧ (((s.beamReturning k b).lnk k).beam b).returnReady = false ∧
      (((s.beamReturning k b).lnk k).beam b).okN = 0 ∧ (((s.beamReturning k b).lnk k).beam b).okF = 0 ∧
      ∀ c, c < 128 → c ≠ b → (s.beamReturning k b).beamSt k c = s.beamSt k c := by
  have hbeam : ((s.beamReturning k b).lnk k).beam b =
      { (s.lnk k).beam b with okN := 0, okF := 0, weak := 0, returnReady := false } := by
    rw [State.beamReturning, State.lnk_setBeam, if_pos rfl, Lnk.beam_setBeam]
  rw [hbeam]
  have hst (c : Nat) : (s.beamReturning k b).beamSt k c = (s.setBeamSt k b 3 0).beamSt k c := State.rd_setBeam ..
  exact ⟨(hst b).trans <| (State.beamSt_setBeamSt hp hb 3 0 b).trans (if_pos rfl), rfl, rfl, rfl,
    fun c _ hc => (hst c).trans <| (State.beamSt_setBeamSt hp hb 3 0 c).trans (if_neg hc)⟩

/-! ### TEMP_TRIP_CLEAR (R198) -/

theorem exec_tempTripClear {s : State} {k : Nat} (hk : k < 8) (hr : s.Reaches .blk k) {v : Word} (h : v.getLsbD 9 = true) :
    exec (.tempTripClear k v) s = .next (s.blkStatus k v.toNat) := by
  show guardWF (decide (k < 8) && v.getLsbD 9) (s.hostWrite .blk k _) = _
  rw [decide_eq_true hk, h, State.hostWrite_of_reaches hr]
  rfl

section Trip

variable {s : State} {k : Nat} (hk : k < 8) (v : Word)

include hk

/-- The word as it is judged leaves every status of the link, and TEMP_TRIP. -/
theorem State.rd_judgeStatus {f : BlkF} (hf : BlkF.takes f = false) :
    (s.judgeWord ((Fld.blk .lstate).addr k) v.toNat).rd (.blk f) k = s.rd (.blk f) k :=
  (sheetBlind_rd f k).judgeStatus hk (fun f' _ ht t w => t.rd_wr_blk_ne (by rintro rfl; simp_all) ..) s _

theorem State.blkStatus_clears (h9 : v.getLsbD 9 = true) (ht : s.rd (.blk .tempTrip) k = 1) :
    s.blkStatus k v.toNat = (s.judgeWord ((Fld.blk .lstate).addr k) v.toNat).clearTrip k := by
  have h : bitField v.toNat 9 1 = 1 := by rw [bitField_bit, h9]; rfl
  unfold State.blkStatus
  exact if_pos ⟨h, by rw [State.on_eq, State.rd_judgeStatus hk v rfl, ht]; rfl⟩

theorem State.hot_judgeStatus : ((s.judgeWord ((Fld.blk .lstate).addr k) v.toNat).lnk k).hot = (s.lnk k).hot :=
  congrArg Lnk.hot ((sheetBlind_lnk k).judgeStatus hk (fun _ _ _ t _ => t.lnk_wr ..) s _)

end Trip

theorem State.clearTrip_hot {s : State} {k : Nat} (h : (s.lnk k).hot = true) : s.clearTrip k = s := if_pos h

/-- A head that has cooled lets the trip go; TRIPPED becomes STANDBY, or INTERLOCKED while LDEN is low. -/
theorem State.clearTrip_cooled {s : State} {k : Nat} (hp : k < s.hw.stations) (h : (s.lnk k).hot = false) :
    (s.clearTrip k).rd (.blk .tempTrip) k = 0 ∧ (s.clearTrip k).rd (.blk .lstate) k =
      if s.rd (.blk .lstate) k = 7 then (if s.on (.blk .lden) k then 4 else 6) else s.rd (.blk .lstate) k := by
  have hpc : k < (s.clr (.blk .tempTrip) k).hw.stations := by rwa [State.clr_eq, State.wr_hw]
  have h0 : (s.clr (.blk .tempTrip) k).rd (.blk .tempTrip) k = 0 := by simp [State.rd_clr]
  have hl : (s.clr (.blk .tempTrip) k).rd (.blk .lstate) k = s.rd (.blk .lstate) k := s.rd_wr_blk_ne (by decide) ..
  have hon : (s.clr (.blk .tempTrip) k).on (.blk .lden) k = s.on (.blk .lden) k := by simp [State.on_eq, State.rd_clr]
  unfold State.clearTrip
  rw [if_neg (by simp [h])]
  dsimp only
  rw [hl]
  split
  · exact ⟨(State.rd_linkStandby _ k (by decide)).trans h0, by rw [State.lstate_linkStandby hpc, hon]⟩
  · exact ⟨h0, hl⟩

/-- Settles O31: writes of BLK_CTL by their change of LD_REQ, LDEN by its rise and fall, beams by their guards, and
TEMP_TRIP by the head's temperature. -/
theorem laserEnable : Obligations.LaserEnable := by
  refine ⟨fun s k hk hv => ⟨fun v h4 hr h8 => ?_, fun v h0 hr => ⟨fun hq hi => ?_, fun h => ?_⟩,
      ?_, fun hq => ?_, fun hq => ?_⟩,
    fun s k b hk hb hv hr => ⟨fun h => ?_, fun hbusy hc => ?_, fun h2 hd => ?_, fun h => ?_,
      fun v h9 ht => ⟨fun hh => ?_, fun hh => ?_⟩⟩⟩
  all_goals have hp := State.stations_of_vidUp hv
  · obtain ⟨hl, hf⟩ := State.ctlTaken_restarts hk v hp h4 h8
    have hpt : k < (s.ctlTaken k v).hw.stations := by rwa [s.hw_ctlTaken hk v]
    obtain ⟨hl', hf'⟩ := State.ldReq_of_off hpt hl (s.on (.blk .ldReq) k) (v.getLsbD 0)
    exact ⟨_, (exec_linkRestart hk hr h4).trans (congrArg _ (s.blkCtl_eq hk v hp)), hl', hf'.trans hf⟩
  · exact ⟨_, exec_ldRequest hk hr h0, State.blkCtl_requests hk hp h0 hq hi⟩
  · exact ⟨_, exec_ldRequest hk hr h0, State.blkCtl_shows hk hp h0 h⟩
  · have hpc : k < (s.clr (.blk .ilkClosed) k).hw.stations := by rwa [State.clr_eq, State.wr_hw]
    have hst : (s.clr (.blk .ilkClosed) k).rd (.blk .lstate) k = s.rd (.blk .lstate) k := s.rd_wr_blk_ne (by decide) ..
    refine ⟨_, exec_ldenFall hk hv, by simp [State.rd_ldenLow hpc], ?_, by simp [State.rd_ldenLow hpc],
      State.request_ldenLow .., fun hl => ?_⟩
    · simp [State.rd_ldenLow hpc, State.rd_clr]
    · have hon : (s.clr (.blk .ilkClosed) k).on (.blk .lden) k = true := by simp [State.on_eq, State.rd_clr, hl]
      refine ⟨by simp [State.rd_ldenLow hpc, hon], fun h45 => ?_⟩
      simp [State.rd_ldenLow hpc, hon, hst, h45]
  · have hpc : k < (s.wr (.blk .ilkClosed) k 1).hw.stations := by rwa [State.wr_hw]
    rw [exec_ilkLoopClose hk hv, if_pos hq]
    refine ⟨_, rfl, State.rd_ldenHigh hpc (by decide),
      (State.rd_ldenHigh hpc (by decide)).trans (State.rd_wr_link hp rfl _ 1),
      fun h6 => State.lstate_ldenHigh hpc ((s.rd_wr_blk_ne (by decide) ..).trans h6)⟩
  · rw [exec_ilkLoopClose hk hv, if_neg (by simp [hq])]
  · rw [exec_beamOut hk hb hr hv, if_neg (by rcases h with h | h <;> simp [h])]
  · rw [exec_beamOut hk hb hr hv, if_pos (by simp [hbusy, hc])]
    rfl
  · rw [exec_beamReturn hk hb hr hv, if_neg (by simp [h2, hd])]
    exact ⟨_, rfl, State.beamReturning_spec hp hb⟩
  · rw [exec_beamReturn hk hb hr hv, if_pos h]
    rfl
  · rw [exec_tempTripClear hk hr h9, State.blkStatus_clears hk v h9 ht,
      State.clearTrip_hot ((State.hot_judgeStatus hk v).trans hh)]
    exact ⟨_, rfl, (State.rd_judgeStatus hk v rfl).trans ht, State.rd_judgeStatus hk v rfl⟩
  · have hhw : (s.judgeWord ((Fld.blk .lstate).addr k) v.toNat).hw = s.hw :=
      sheetBlind_hw.judgeStatus hk (fun _ _ _ t _ => t.wr_hw ..) s _
    obtain ⟨ht', hl'⟩ := State.clearTrip_cooled (hhw ▸ hp) ((State.hot_judgeStatus hk v).trans hh)
    rw [State.on_eq, State.rd_judgeStatus hk v rfl, State.rd_judgeStatus hk v rfl, ← State.on_eq] at hl'
    exact ⟨_, (exec_tempTripClear hk hr h9).trans (congrArg _ (State.blkStatus_clears hk v h9 ht)), ht', hl'⟩

end Sys2Proof.Machine

/-! PROOFS. The statements on motion axes: how motions start and stop, what a command to an axis leaves alone, and what the inputs of
an axis do. -/

namespace Sys2Proof.Machine

open Sys2Proof

/-! ### Signed fields (R205) -/

theorem ofSigned_lt (w : Nat) (z : Int) : ofSigned w z < 2 ^ w := by
  have h : (0 : Int) < 2 ^ w := by positivity
  have := Int.emod_lt_of_pos z h
  have := Int.emod_nonneg z h.ne'
  unfold ofSigned
  zify
  omega

theorem toSigned_bounds {w : Nat} (hw : 0 < w) (n : Nat) : -2 ^ (w - 1) ≤ toSigned w n ∧ toSigned w n < 2 ^ (w - 1) := by
  obtain ⟨m, rfl⟩ := Nat.exists_eq_succ_of_ne_zero hw.ne'
  have hp := pow_succ 2 m
  have := Nat.mod_lt n (Nat.two_pow_pos (m + 1))
  unfold toSigned
  rw [Nat.succ_eq_add_one, Nat.add_sub_cancel, show ((2 : Int) ^ (m + 1)) = ((2 ^ (m + 1) : Nat) : Int) by push_cast; rfl,
    show ((2 : Int) ^ m) = ((2 ^ m : Nat) : Int) by push_cast; rfl]
  split <;> omega

/-- A signed field holds every integer of its range. -/
theorem toSigned_ofSigned {w : Nat} (hw : 0 < w) {z : Int} (h1 : -2 ^ (w - 1) ≤ z) (h2 : z < 2 ^ (w - 1)) :
    toSigned w (ofSigned w z) = z := by
  obtain ⟨m, rfl⟩ := Nat.exists_eq_succ_of_ne_zero hw.ne'
  rw [Nat.succ_eq_add_one, Nat.add_sub_cancel] at *
  have hp := pow_succ 2 m
  have hpi := pow_succ (2 : Int) m
  have hcast : (ofSigned (m + 1) z : Int) = z % 2 ^ (m + 1) := Int.toNat_of_nonneg (Int.emod_nonneg z (by positivity))
  have hmod : z % 2 ^ (m + 1) = if 0 ≤ z then z else z + 2 ^ (m + 1) := by
    split
    · exact Int.emod_eq_of_lt (by assumption) (by omega)
    · rw [← Int.add_emod_right]
      exact Int.emod_eq_of_lt (by omega) (by omega)
  have hm : ((2 ^ m : Nat) : Int) = 2 ^ m := by push_cast; rfl
  unfold toSigned
  rw [Nat.mod_eq_of_lt (ofSigned_lt ..), Nat.add_sub_cancel, hcast, Int.emod_emod, hmod]
  split <;> split <;> omega

/-- Every value of a signed field is within its range. -/
theorem toSigned_ofSigned_toSigned {w : Nat} (hw : 0 < w) (n : Nat) : toSigned w (ofSigned w (toSigned w n)) = toSigned w n :=
  toSigned_ofSigned hw (toSigned_bounds hw n).1 (toSigned_bounds hw n).2

theorem satInc_lt (w n : Nat) : satInc w n < 2 ^ w := by
  have := Nat.two_pow_pos w
  unfold satInc
  split <;> omega

/-! ### The fields of an axis (R2, R205, R230) -/

/-- A field that an axis has once. -/
def MotF.ofAxis (f : MotF) : Bool := f.row.n2 * f.row.n3 == 1

theorem outer_axis {f : MotF} (hf : MotF.ofAxis f = true) (k : Nat) : (Fld.mot f).outer k = k := by
  have hf : (Fld.mot f).row.n2 * (Fld.mot f).row.n3 = 1 := eq_of_beq hf
  rw [Fld.outer, hf, Nat.div_one]

/-- The fields of an axis's two latches. -/
theorem outer_latch {f : MotF} (hf : f.row.n2 * f.row.n3 = 2) (k : Nat) {i : Nat} (hi : i < 2) : (Fld.mot f).outer (2 * k + i) = k := by
  have hf : (Fld.mot f).row.n2 * (Fld.mot f).row.n3 = 2 := hf
  rw [Fld.outer, hf]
  omega

/-- The fields of a populated axis are populated. -/
theorem populated_mot {hw : Hardware} {f : MotF} {i : Nat} (h : (Fld.mot f).outer i < hw.axes) : populated hw (.mot f) i = true := by
  cases f with
  | planOvr => rfl
  | _ => exact decide_eq_true h

theorem State.rd_wr_mot_ne (s : State) {f g : MotF} (h : g ≠ f) (i j v : Nat) :
    (s.wr (.mot f) i v).rd (.mot g) j = s.rd (.mot g) j :=
  s.rd_wr_ne (fun e => h (Fld.mot.inj (Prod.mk.inj e).1)) v

theorem State.rd_wr_mot_same {s : State} {f : MotF} {i : Nat} (hi : (Fld.mot f).outer i < s.hw.axes) (v : Nat) :
    (s.wr (.mot f) i v).rd (.mot f) i = v % 2 ^ f.row.width := State.rd_wr_same s (populated_mot hi) v

/-- A field of a populated axis reads what was last written to it; the axis's other fields are unchanged. -/
theorem State.rd_wr_axis {s : State} {k : Nat} (hk : k < s.hw.axes) {f : MotF} (hf : MotF.ofAxis f = true) (g : MotF) (v : Nat) :
    (s.wr (.mot f) k v).rd (.mot g) k = if g = f then v % 2 ^ f.row.width else s.rd (.mot g) k := by
  split
  · next hg => exact hg ▸ State.rd_wr_mot_same (by rwa [hg, outer_axis hf]) v
  · next hg => exact s.rd_wr_mot_ne hg ..

/-- A signed field of a populated axis reads what was last written to it, in its width. -/
theorem State.rdS_wrS_mot {s : State} {f : MotF} {i w : Nat} (hi : (Fld.mot f).outer i < s.hw.axes) (hw : f.row.width = w) (z : Int) :
    (s.wrS (.mot f) i z).rdS (.mot f) i = toSigned w (ofSigned w z) := by
  subst hw
  rw [State.wrS_eq, State.rdS, State.rd_wr_mot_same hi]
  exact congrArg _ (Nat.mod_eq_of_lt (ofSigned_lt ..))

theorem State.rdS_wrS_axis {s : State} {k : Nat} (hk : k < s.hw.axes) {f : MotF} (hf : MotF.ofAxis f = true) {w : Nat}
    (hw : f.row.width = w) (z : Int) : (s.wrS (.mot f) k z).rdS (.mot f) k = toSigned w (ofSigned w z) :=
  State.rdS_wrS_mot (by rwa [outer_axis hf]) hw z

theorem State.rd_count_axis {s : State} {k : Nat} (hk : k < s.hw.axes) {f : MotF} (hf : MotF.ofAxis f = true) :
    (s.count (.mot f) k).rd (.mot f) k = satInc f.row.width (s.rd (.mot f) k) := by
  rw [State.count_eq, State.rd_wr_axis hk hf, if_pos rfl]
  exact Nat.mod_eq_of_lt (satInc_lt ..)

theorem State.rdS_wr_mot_ne (s : State) {f g : MotF} (h : g ≠ f) (i j v : Nat) :
    (s.wr (.mot f) i v).rdS (.mot g) j = s.rdS (.mot g) j := congrArg (toSigned _) (s.rd_wr_mot_ne h ..)

theorem State.rdS_wrS_mot_ne (s : State) {f g : MotF} (h : g ≠ f) (i j : Nat) (z : Int) :
    (s.wrS (.mot f) i z).rdS (.mot g) j = s.rdS (.mot g) j := congrArg (toSigned _) (s.rd_wr_mot_ne h ..)

@[simp] theorem State.wrS_hw (s : State) (f : Fld) (i : Nat) (z : Int) : (s.wrS f i z).hw = s.hw := State.wr_hw ..

theorem State.cmdpos_wr_ne (s : State) {f : MotF} (h : .cmdpos ≠ f) (i v k : Nat) : (s.wr (.mot f) i v).cmdpos k = s.cmdpos k :=
  congrArg (toSigned 48) (s.rd_wr_mot_ne h ..)

@[simp] theorem State.rdS_setAxis (s : State) (n : Nat) (x : Axis) (f : Fld) (i : Nat) : (s.setAxis n x).rdS f i = s.rdS f i := rfl

@[simp] theorem State.cmdpos_setAxis (s : State) (n k : Nat) (x : Axis) : (s.setAxis n x).cmdpos k = s.cmdpos k := rfl

@[simp] theorem State.axSt_setAxis (s : State) (n k : Nat) (x : Axis) : (s.setAxis n x).axSt k = s.axSt k := rfl

/-! ### What no sheet and no web touches: the axes (R82, R298) -/

/-- The axes as registers and planner hold them, on their module. -/
def State.motion (s : State) : Hardware × Store Nat Axis × (MotF → Nat → Nat) := (s.hw, s.axes, fun f i => s.rd (.mot f) i)

theorem State.motion_eq_iff {s t : State} :
    t.motion = s.motion ↔ t.hw = s.hw ∧ t.axes = s.axes ∧ ∀ f i, t.rd (.mot f) i = s.rd (.mot f) i := by
  simp [State.motion, funext_iff]

theorem State.motion_wr (s : State) {f : Fld} (hf : f.block ≠ .mot) (i v : Nat) : (s.wr f i v).motion = s.motion :=
  State.motion_eq_iff.2 ⟨s.wr_hw .., s.wr_axes .., fun _ _ => s.rd_wr_ne (fun e => hf (congrArg Fld.block (Prod.mk.inj e).1).symm) v⟩

section Sheets

variable (s : State)

theorem State.motion_post (kind unit : Nat) (data : List Nat) : (s.post kind unit data).motion = s.motion := by
  unfold State.post
  dsimp only
  split
  · split <;> rfl
  · split
    · obtain ⟨o, pc, tk, ds, e⟩ := s.enqueue_eq _ kind unit data
      rw [e]
      rfl
    · split
      · exact s.motion_wr (by decide) ..
      · rfl

theorem State.motion_broadcast (kind : Nat) (data : List Int) : (s.broadcast kind data).motion = s.motion := by
  obtain ⟨o, e⟩ := s.broadcast_eq kind data
  rw [e]
  rfl

theorem State.motion_toState (c : Nat) (st : CtxState) : (s.toState c st).motion = s.motion := by
  unfold State.toState
  dsimp only
  split
  · exact State.motion_wr _ (by decide) ..
  · rfl

theorem State.motion_verifyIdle (b : Band) : (s.verifyIdle b).motion = s.motion := by
  unfold State.verifyIdle
  split
  · exact (State.motion_wr _ (by decide) ..).trans (s.motion_wr (by decide) ..)
  · rfl

theorem State.motion_reclaimCtx (c : Nat) : (s.reclaimCtx c).motion = s.motion := by
  refine foldl_unchanged (fun t r => ?_) _ s
  extract_lets b u
  have hu : u.motion = t.motion := t.motion_verifyIdle (t.band r)
  clear_value u
  exact Eq.trans rfl hu

theorem State.motion_settleGate : s.settleGate.motion = s.motion :=
  (State.motion_wr _ (by decide) ..).trans <| foldl_unchanged (fun t k => by
    split
    · rfl
    · exact t.motion_wr (by decide) ..) _ s

theorem State.motion_settleCtx (c : Nat) : (s.settleCtx c).motion = s.motion := by
  unfold State.settleCtx
  dsimp only
  split
  · split
    · rw [State.motion_settleGate, State.motion_reclaimCtx, State.motion_toState]
    · rw [State.motion_settleGate, State.motion_reclaimCtx]
    · exact s.motion_settleGate
  · exact s.motion_settleGate

theorem State.motion_spoilHere (c cause : Nat) : (s.spoilHere c cause).motion = s.motion := by
  unfold State.spoilHere
  extract_lets x spoiled closed noted posed
  have hc : closed.motion = s.motion := State.motion_toState ..
  have hn : noted.motion = s.motion := by
    unfold noted
    split
    · exact (closed.motion_wr (by decide) ..).trans hc
    · exact hc
  refine (State.motion_settleCtx ..).trans ?_
  unfold posed
  split
  · exact (State.motion_post ..).trans ((noted.motion_wr (by decide) ..).trans hn)
  · exact hn

theorem State.motion_spoil (c cause : Nat) : (s.spoil c cause).motion = s.motion := by
  unfold State.spoil
  dsimp only
  split
  · split
    · exact s.motion_spoilHere ..
    · exact (State.motion_broadcast ..).trans (s.motion_spoilHere ..)
    · exact s.motion_spoilHere c cause
  · rfl

theorem State.motion_setCtx (c : Nat) (x : Ctx) : (s.setCtx c x).motion = s.motion := rfl

theorem State.motion_setStn (k : Nat) (x : Stn) : (s.setStn k x).motion = s.motion := rfl

theorem State.motion_darken (c p n : Nat) : (s.darken c p n).motion = s.motion := rfl

theorem State.motion_darkenAll (c : Nat) : (s.darkenAll c).motion = s.motion :=
  foldl_unchanged (fun t p => State.motion_darken t c p 0) _ s

theorem State.motion_pathSpoil (c pcause : Nat) : (s.pathSpoil c pcause).motion = s.motion := by
  unfold State.pathSpoil
  dsimp only
  split
  case h_2 | h_3 | h_4 => exact (State.motion_spoil ..).trans (State.motion_darkenAll ..)
  all_goals rfl

theorem State.motion_finishAll (c : Nat) : (s.finishAll c).motion = s.motion := by
  unfold State.finishAll
  extract_lets x done emptied
  have he : emptied.motion = done.motion := foldl_unchanged (fun t k => State.motion_setStn t k _) _ done
  clear_value emptied
  exact (emptied.motion_settleCtx c).trans (he.trans (s.motion_setCtx c _))

theorem State.motion_webForget : s.webForget.motion = s.motion := by
  unfold State.webForget
  extract_lets emptied
  have he : emptied.motion = s.motion := foldl_unchanged (fun t k => State.motion_setStn t k _) _ s
  clear_value emptied
  exact Eq.trans rfl he

/-- The end of the web sequence with its process axis shows in no axis (R298). -/
theorem State.motion_webAxisStopped (k : Nat) : (s.webAxisStopped k).motion = s.motion := by
  unfold State.webAxisStopped
  dsimp only
  split
  · rw [State.motion_webForget, foldl_unchanged (g := State.motion) State.motion_finishAll,
      foldl_unchanged (g := State.motion) fun t c => State.motion_pathSpoil t c 8]
    exact (State.motion_wr _ (by decide) ..).trans (s.motion_wr (by decide) ..)
  · rfl

end Sheets

@[simp] theorem State.axis_webAxisStopped (s : State) (k j : Nat) : (s.webAxisStopped k).axis j = s.axis j :=
  congrArg (Store.get ({} : Axis) j) (State.motion_eq_iff.1 (s.motion_webAxisStopped k)).2.1

@[simp] theorem State.rd_webAxisStopped (s : State) (k : Nat) (f : MotF) (i : Nat) :
    (s.webAxisStopped k).rd (.mot f) i = s.rd (.mot f) i :=
  (State.motion_eq_iff.1 (s.motion_webAxisStopped k)).2.2 f i

@[simp] theorem State.axSt_webAxisStopped (s : State) (k j : Nat) : (s.webAxisStopped k).axSt j = s.axSt j :=
  s.rd_webAxisStopped k .state j

@[simp] theorem State.cmdpos_webAxisStopped (s : State) (k j : Nat) : (s.webAxisStopped k).cmdpos j = s.cmdpos j :=
  congrArg (toSigned 48) (s.rd_webAxisStopped k .cmdpos j)

/-! ### Commands that reach an axis (R226, R298) -/

theorem Hardware.axes_le (h : Hardware) : h.axes ≤ 48 := by unfold Hardware.axes; split <;> decide

theorem State.axUp_of_up {s : State} {k : Nat} (hu : s.up .mot = true) (hk : k < s.hw.axes) : s.axUp k = true := by
  simp [State.axUp, hu, hk]

section Open

variable {s : State} {k : Nat} (h : s.AxisOpen k)

include h

/-- An open axis is off for no command, in service, and not held by the web. -/
theorem State.AxisOpen.axCommand (pass : Bool) (f : State → State) : s.axCommand k pass f = f s := by
  have hup : s.axUp k = true := State.axUp_of_up (h.reaches.up (by decide) (by decide)) h.axis
  have htype : s.rd (.mot .axtype) k ≠ 3 := by
    have := h.planned
    simp only [State.planned, Bool.and_eq_true, decide_eq_true_eq] at this
    omega
  simp [State.axCommand, hup, htype, h.service, h.web]

theorem State.AxisOpen.exec_axCommand (pass : Bool) (f : State → State) :
    guardWF (decide (k < 48)) (s.hostWrite .mot 0 fun t => t.axCommand k pass f) = .next (f s) := by
  rw [decide_eq_true (Nat.lt_of_lt_of_le h.axis s.hw.axes_le), guardWF_true, State.hostWrite_of_reaches h.reaches, h.axCommand]

theorem State.AxisOpen.exec_move : exec (.move k) s = .next
    (if !s.canMove k true then s.axRefuse k 1
     else if s.intoLimit k (s.rdS (.mot .target) k - s.cmdpos k) then s.axRefuse k 2
     else if s.on (.mot .homeReq) k && !s.on (.mot .homed) k then s.axRefuse k 3
     else if s.on (.mot .slimEn) k && s.on (.mot .homed) k &&
         (decide (s.rdS (.mot .target) k < s.rdS (.mot .slimn) k) || decide (s.rdS (.mot .slimp) k < s.rdS (.mot .target) k))
       then s.axRefuse k 4
     else s.startMove k (s.rdS (.mot .target) k)) := h.exec_axCommand false _

theorem State.AxisOpen.exec_jog : exec (.jog k) s = .next
    (if !s.canMove k true then s.axRefuse k 1
     else if s.intoLimit k (s.rdS (.mot .jogvel) k) then s.axRefuse k 2 else s.startVelocity k .jog) :=
  h.exec_axCommand false _

theorem State.AxisOpen.exec_gear : exec (.gear k) s = .next
    (if !s.canMove k false then s.axRefuse k 1
     else if s.intoLimit k (s.gearTarget k) then s.axRefuse k 2 else s.startVelocity k .gear) :=
  h.exec_axCommand false _

theorem State.AxisOpen.exec_stop : exec (.stop k) s = .next
    (if s.axSt k = 2 ∨ s.axSt k = 3 then s.axStop k .stop else s.axRefuse k 1) := h.exec_axCommand false _

theorem State.AxisOpen.exec_qstop : exec (.qstop k) s = .next
    (if s.axSt k = 2 ∨ s.axSt k = 3 then (s.axStop k .quick).webAxisStopped k else s.axRefuse k 1) := h.exec_axCommand true _

theorem State.AxisOpen.exec_halt : exec (.halt k) s = .next
    (if s.axSt k ≠ 0 then ((s.axHalt k).setAxSt k 1).webAxisStopped k else s.axRefuse k 1) := h.exec_axCommand true _

theorem State.AxisOpen.exec_home : exec (.home k) s = .next
    (if s.axSt k ≠ 1 ∨ (s.rd (.mot .method) k ≠ 6 ∧ !s.planned k) then s.axRefuse k 1
     else if s.rd (.mot .method) k = 0 ∨
         ((s.rd (.mot .method) k = 2 ∨ s.rd (.mot .method) k = 3 ∨ s.rd (.mot .method) k = 5) ∧ !s.on (.mot .encEn) k)
       then s.axRefuse k 5
     else s.homeStart k) := h.exec_axCommand false _

theorem State.AxisOpen.exec_setpos : exec (.setpos k) s = .next
    (if s.axSt k = 1 then (s.setPosition k (s.rdS (.mot .setpos) k)).ev (.mot .homed) k else s.axRefuse k 1) :=
  h.exec_axCommand false _

theorem State.AxisOpen.exec_enable : exec (.enable k) s = .next
    (if s.axSt k = 0 then (s.ev (.mot .enOut) k).setAxSt k 1 else s.axRefuse k 1) := h.exec_axCommand false _

theorem State.AxisOpen.exec_disable : exec (.disable k) s = .next
    (if s.axSt k = 0 then s.axRefuse k 1
     else (((s.axHalt k).clr (.mot .enOut) k).setAxSt k 0).webAxisStopped k) := h.exec_axCommand true _

theorem State.AxisOpen.exec_axisClear : exec (.axisClear k) s = .next
    (if s.axSt k = 5 ∧ !(axisEvents.any fun f => s.on (.mot f) k) then s.setAxSt k 1 else s.axRefuse k 1) :=
  h.exec_axCommand false _

theorem State.AxisOpen.exec_segmentPush (v : Word) : exec (.segmentPush k v) s = .next
    (if !s.planned k ∨ !s.on (.mot .mode) k ∨ (s.axSt k ≠ 1 ∧ s.axSt k ≠ 2) ∨ 16 ≤ (s.axis k).segs.length then s.axRefuse k 1
     else if v.toNat % 65536 = 0 then s
     else (s.setAxis k { s.axis k with
       segs := (s.axis k).segs ++ [((s.axis k).segj, v.toNat % 65536)], plan := .seg }).setAxSt k 2) :=
  h.exec_axCommand false _

/-- What MOVE, JOG and GEAR ask of a planned axis. -/
theorem State.AxisOpen.canMove_iff (needImage : Bool) : s.canMove k needImage = true ↔
    (s.axSt k = 1 ∨ s.axSt k = 2) ∧ s.on (.mot .mode) k = false ∧ (needImage = true → s.imageRuns = true) := by
  cases needImage <;> simp [State.canMove, h.planned, and_assoc]

end Open

theorem State.axRefuse_eq (s : State) (k cause : Nat) : s.axRefuse k cause = (s.wr (.mot .cmdErr) k 1).wr (.mot .cmdCause) k cause := rfl

/-! ### Motions that start (O32: R218, R225, R226) -/

section Starts

variable {s : State} {k : Nat} (hk : k < s.hw.axes)

include hk

theorem State.axSt_setAxSt (st : Nat) : (s.setAxSt k st).axSt k = st % 8 :=
  (State.rd_wr_axis hk rfl ..).trans (if_pos rfl)

theorem State.startMove_spec (g : Int) : (s.startMove k g).axSt k = 2 ∧ ((s.startMove k g).axis k).plan = .move ∧
    ((s.startMove k g).axis k).goal = g ∧ (s.startMove k g).rd (.mot .atTarget) k = 0 ∧ (s.startMove k g).cmdpos k = s.cmdpos k := by
  refine ⟨State.axSt_setAxSt (by simpa [State.planMove, State.clr_eq]) 2, ?_⟩
  simp [State.startMove, State.planMove, State.setAxSt, State.cmdpos, State.rdS, State.rd_wr_mot_ne, State.rd_clr]

theorem State.startVelocity_spec (p : Plan) : (s.startVelocity k p).axSt k = 2 ∧ ((s.startVelocity k p).axis k).plan = p ∧
    (s.startVelocity k p).rd (.mot .atTarget) k = 0 := by
  refine ⟨State.axSt_setAxSt (by simpa [State.setPlan, State.clr_eq]) 2, ?_⟩
  simp [State.startVelocity, State.setPlan, State.setAxSt, State.rd_wr_mot_ne, State.rd_clr]

end Starts

/-- Settles O32: each command is its chain of refusals, and what is left starts a motion. -/
theorem motionsStart : Obligations.MotionsStart := by
  refine ⟨fun s k h hst hm => ?_, fun s k h => ⟨fun hno => ?_, fun hst hm hi => ?_⟩⟩
  · have hgear : s.canMove k false = true := (h.canMove_iff false).2 ⟨hst, hm, nofun⟩
    have hcan (hi : s.imageRuns = true) : s.canMove k true = true := (h.canMove_iff true).2 ⟨hst, hm, fun _ => hi⟩
    refine ⟨fun hi hl hh hs => ?_, fun hi hl => ?_, fun hl => ?_, fun hl => ?_, fun hi => ?_⟩
    · have hin : ¬((s.on (.mot .slimEn) k = true ∧ s.on (.mot .homed) k = true) ∧
          (s.rdS (.mot .target) k < s.rdS (.mot .slimn) k ∨ s.rdS (.mot .slimp) k < s.rdS (.mot .target) k)) := by
        rintro ⟨⟨he, hd⟩, ho⟩
        have := hs he hd
        omega
      refine ⟨_, h.exec_move.trans (congrArg _ ?_), State.startMove_spec h.axis _⟩
      rw [hcan hi, hl, if_neg (by simp), if_neg (by simp), if_neg (by simpa using hh), if_neg (by simpa using hin)]
    · refine ⟨_, h.exec_jog.trans (congrArg _ ?_), State.startVelocity_spec h.axis _⟩
      simp [hcan hi, hl]
    · refine ⟨_, h.exec_gear.trans (congrArg _ ?_), State.startVelocity_spec h.axis _⟩
      simp [hgear, hl]
    · simp [h.exec_gear, hgear, hl, State.axRefuse_eq]
    · have hcannot : s.canMove k true = false := by simp [State.canMove, hi]
      exact ⟨by simp [h.exec_move, hcannot, State.axRefuse_eq], by simp [h.exec_jog, hcannot, State.axRefuse_eq]⟩
  · have hcannot (b : Bool) : s.canMove k b = false := by
      rw [Bool.eq_false_iff, ne_eq, h.canMove_iff]
      rintro ⟨hst, hm, -⟩
      simp_all
    exact ⟨by simp [h.exec_move, hcannot, State.axRefuse_eq], by simp [h.exec_jog, hcannot, State.axRefuse_eq],
      by simp [h.exec_gear, hcannot, State.axRefuse_eq]⟩
  · have hcan : s.canMove k true = true := (h.canMove_iff true).2 ⟨hst, hm, fun _ => hi⟩
    refine ⟨fun hl => ?_, fun hl => ?_, fun hl hr hd => ?_, fun hl he hd ho => ?_⟩
    · simp [h.exec_jog, hcan, hl, State.axRefuse_eq]
    · simp [h.exec_move, hcan, hl, State.axRefuse_eq]
    · simp [h.exec_move, hcan, hl, hr, hd, State.axRefuse_eq]
    · simp [h.exec_move, hcan, hl, he, hd, ho.symm, State.axRefuse_eq]

/-! ### Positions that are set and latched (O33: R214, R215, R220) -/

@[simp] theorem Axis.track_encSub (x : Axis) (pos hyst : Int) : (x.track pos hyst).encSub = x.encSub := by
  unfold Axis.track
  split_ifs <;> rfl

section Positions

variable (s : State) (k : Nat)

@[simp] theorem State.setActpos_hw (p : Int) : (s.setActpos k p).hw = s.hw := State.wr_hw ..

theorem State.rd_setActpos (p : Int) {f : MotF} (hf : f ≠ .actpos) (i : Nat) :
    (s.setActpos k p).rd (.mot f) i = s.rd (.mot f) i := s.rd_wr_mot_ne hf ..

theorem State.encSub_setActpos (p : Int) : ((s.setActpos k p).axis k).encSub = (s.axis k).encSub := by
  simp [State.setActpos, State.wrS_eq]

theorem State.rd_homeLatch (c a : Int) {f : MotF} (h1 : f ≠ .hlatch) (h2 : f ≠ .hlatcha) (i : Nat) :
    (s.homeLatch k c a).rd (.mot f) i = s.rd (.mot f) i := by
  rw [State.homeLatch, State.wrS_eq, State.rd_wr_mot_ne _ h2, State.wrS_eq, State.rd_wr_mot_ne _ h1]

@[simp] theorem State.homeLatch_hw (c a : Int) : (s.homeLatch k c a).hw = s.hw := (State.wrS_hw ..).trans (s.wrS_hw ..)

/-- The fields that a new commanded position shows in (R215). -/
def positionFields : List MotF := [.cmdpos, .actpos, .dev]

@[simp] theorem State.setPosition_hw (p : Int) : (s.setPosition k p).hw = s.hw := by simp [State.setPosition, State.wrS_eq]

theorem State.rd_setPosition (p : Int) {f : MotF} (hf : f ∉ positionFields) (i : Nat) :
    (s.setPosition k p).rd (.mot f) i = s.rd (.mot f) i := by
  simp only [positionFields, List.mem_cons, List.not_mem_nil, or_false, not_or] at hf
  obtain ⟨hc, ha, hd⟩ := hf
  simp only [State.setPosition, State.wrS_eq, State.rd_wr_mot_ne _ hd, State.rd_setAxis, State.rd_setActpos _ _ _ ha,
    State.rd_wr_mot_ne _ hc]

variable {s k} (hk : k < s.hw.axes)

include hk

theorem State.actpos_setActpos (p : Int) : (s.setActpos k p).actpos k = toSigned 48 (ofSigned 48 p) :=
  State.rdS_wrS_axis hk (f := .actpos) rfl rfl p

theorem State.setPosition_spec (p : Int) :
    (s.setPosition k p).cmdpos k = toSigned 48 (ofSigned 48 p) ∧ (s.setPosition k p).rd (.mot .dev) k = 0 := by
  unfold State.setPosition
  extract_lets was placed aligned x moved
  have hp : placed.cmdpos k = toSigned 48 (ofSigned 48 p) := State.rdS_wrS_axis hk rfl rfl p
  have hw : aligned.hw = s.hw := (placed.setActpos_hw k _).trans (s.wrS_hw ..)
  have hc : aligned.cmdpos k = placed.cmdpos k := congrArg (toSigned 48) (placed.rd_setActpos k _ (by decide) k)
  clear_value aligned placed
  have hm : moved.hw = s.hw := hw
  have hcm : moved.cmdpos k = aligned.cmdpos k := rfl
  clear_value moved
  exact ⟨(moved.rdS_wrS_mot_ne (by decide) ..).trans (hcm.trans (hc.trans hp)),
    (State.rd_wr_axis (hm ▸ hk) (f := .dev) rfl .dev 0).trans (if_pos rfl)⟩

/-- The position that a homing latches is that of the axis, in the width of the registers (R220). -/
theorem State.homeLatch_spec (c a : Int) :
    (s.homeLatch k c a).rdS (.mot .hlatch) k = toSigned 48 (ofSigned 48 c) ∧
      (s.homeLatch k c a).rdS (.mot .hlatcha) k = toSigned 48 (ofSigned 48 a) := by
  have hk' : k < (s.wrS (.mot .hlatch) k c).hw.axes := by rwa [State.wrS_hw]
  exact ⟨(State.rdS_wrS_mot_ne _ (by decide) ..).trans (State.rdS_wrS_axis hk rfl rfl c), State.rdS_wrS_axis hk' rfl rfl a⟩

end Positions

/-! ### Motions that stop (O33: R222, R226) -/

section Stops

variable (s : State) (k : Nat)

@[simp] theorem State.homeFail_hw (cause : Nat) : (s.homeFail k cause).hw = s.hw := (State.wr_hw ..).trans (State.wr_hw ..)

@[simp] theorem State.axis_homeFail (cause j : Nat) : (s.homeFail k cause).axis j = s.axis j :=
  (State.axis_wr ..).trans (State.axis_wr ..)

/-- A homing that fails shows in its state and cause alone (R222). -/
theorem State.rd_homeFail_ne (cause : Nat) {f : MotF} (h1 : f ≠ .hstate) (h2 : f ≠ .hcause) (i : Nat) :
    (s.homeFail k cause).rd (.mot f) i = s.rd (.mot f) i := (State.rd_wr_mot_ne _ h2 ..).trans (s.rd_wr_mot_ne h1 ..)

/-- A homing that a stop meets has failed (R222). -/
def State.homeStopped : State := if s.homingNow k then s.homeFail k 3 else s

@[simp] theorem State.homeStopped_hw : (s.homeStopped k).hw = s.hw := by unfold State.homeStopped; split <;> simp

@[simp] theorem State.axis_homeStopped (j : Nat) : (s.homeStopped k).axis j = s.axis j := by
  unfold State.homeStopped; split <;> simp

theorem State.rd_homeStopped_ne {f : MotF} (h1 : f ≠ .hstate) (h2 : f ≠ .hcause) (i : Nat) :
    (s.homeStopped k).rd (.mot f) i = s.rd (.mot f) i := by
  unfold State.homeStopped
  split
  · exact s.rd_homeFail_ne k 3 h1 h2 i
  · rfl

theorem State.axStop_eq (p : Plan) : s.axStop k p = ((s.homeStopped k).setAxSt k 4).setAxis k
    { s.axis k with plan := p, creeping := false, segs := [], seg := none } := by
  have h : ((s.homeStopped k).setAxSt k 4).axis k = s.axis k := by simp [State.setAxSt]
  rw [← h]
  rfl

/-- An axis that is halted at a hard limit shows it (R217). -/
def State.haltShown : State :=
  if (s.axis k).limStop then (s.homeStopped k).ev (.mot .limEv) k else s.homeStopped k

@[simp] theorem State.haltShown_hw : (s.haltShown k).hw = s.hw := by unfold State.haltShown; split <;> simp [State.ev_eq]

theorem State.cmdpos_haltShown : (s.haltShown k).cmdpos k = s.cmdpos k := by
  have h : (s.homeStopped k).cmdpos k = s.cmdpos k :=
    congrArg (toSigned 48) (s.rd_homeStopped_ne k (by decide) (by decide) k)
  unfold State.haltShown
  split
  · exact (State.cmdpos_wr_ne _ (by decide) ..).trans h
  · exact h

theorem State.axHalt_eq : s.axHalt k = (((s.haltShown k).setAxis k (s.axis k).halted).clr (.mot .vel) k).clr (.mot .acc) k := by
  have h : (s.haltShown k).axis k = s.axis k := by unfold State.haltShown; split <;> simp [State.ev_eq]
  rw [← h, State.haltShown, ← s.axis_homeStopped k k]
  rfl

theorem State.axHalt_hw : (s.axHalt k).hw = s.hw := by simp [State.axHalt_eq, State.clr_eq]

theorem State.axis_axHalt : (s.axHalt k).axis k = (s.axis k).halted := by simp [State.axHalt_eq, State.clr_eq]

theorem State.cmdpos_axHalt : (s.axHalt k).cmdpos k = s.cmdpos k := by
  rw [State.axHalt_eq, State.clr_eq, State.clr_eq, State.cmdpos_wr_ne _ (by decide), State.cmdpos_wr_ne _ (by decide)]
  exact s.cmdpos_haltShown k

variable {s k} (hk : k < s.hw.axes)

include hk

theorem State.axStop_spec (p : Plan) : (s.axStop k p).axSt k = 4 ∧ ((s.axStop k p).axis k).plan = p ∧
    ((s.axStop k p).axis k).v = (s.axis k).v := by
  have hs : k < (s.homeStopped k).hw.axes := by rwa [State.homeStopped_hw]
  rw [State.axStop_eq, State.axis_setAxis_same, State.axSt_setAxis]
  exact ⟨State.axSt_setAxSt hs 4, rfl, rfl⟩

end Stops

/-! ### HOME (O33: R221, R222) -/

section Home

variable (s : State) (k : Nat)

/-- The active level of the limit in the direction of the search (R223). -/
def State.searchLimit : Bool := s.on (.mot (if s.on (.mot .hdir) k then .limN else .limP)) k

/-- The fields that a new homing clears (R222). -/
def homeFields : List MotF := [.hcause, .hedges, .hchatter, .homed]

/-- The fields that a new homing clears, cleared. -/
def State.homeCleared : State :=
  (((s.clr (.mot .hcause) k).clr (.mot .hedges) k).clr (.mot .hchatter) k).clr (.mot .homed) k

/-- A homing before it seeks or latches. -/
def State.homeBegun : State :=
  (s.homeCleared k).setAxis k { (s.homeCleared k).axis k with
    cand := none, committed := false, homeFrom := (s.homeCleared k).cmdpos k, limRaw := (s.homeCleared k).searchLimit k }

@[simp] theorem State.homeBegun_hw : (s.homeBegun k).hw = s.hw := by simp [State.homeBegun, State.homeCleared, State.clr_eq]

theorem State.rd_homeBegun {f : MotF} (i : Nat) :
    (s.homeBegun k).rd (.mot f) i = if f ∈ homeFields ∧ i = k then 0 else s.rd (.mot f) i := by
  simp only [State.homeBegun, State.homeCleared, State.rd_setAxis, State.rd_clr, homeFields, List.mem_cons, List.not_mem_nil, Fld.mot.injEq]
  split_ifs <;> simp_all

theorem State.rd_homeBegun_of_kept {f : MotF} (hf : f ∉ homeFields) (i : Nat) :
    (s.homeBegun k).rd (.mot f) i = s.rd (.mot f) i := by rw [State.rd_homeBegun, if_neg fun h => hf h.1]

/-- A homing by method 6 with its positions latched. -/
def State.homeLatched : State := (s.homeBegun k).homeLatch k (s.cmdpos k) (s.actpos k)

@[simp] theorem State.homeLatched_hw : (s.homeLatched k).hw = s.hw := by simp [State.homeLatched]

theorem State.rd_homeLatched {f : MotF} (hf : f ∉ homeFields) (h1 : f ≠ .hlatch) (h2 : f ≠ .hlatcha) (i : Nat) :
    (s.homeLatched k).rd (.mot f) i = s.rd (.mot f) i :=
  (State.rd_homeLatch _ k _ _ h1 h2 i).trans (s.rd_homeBegun_of_kept k hf i)

/-- HOME by method 6 sets the present position and latches it (R222). -/
theorem State.homeStart_present (h6 : s.rd (.mot .method) k = 6) : s.homeStart k =
    (((s.homeLatched k).setPosition k (s.rdS (.mot .hpos) k)).ev (.mot .homed) k).wr (.mot .hstate) k 6 := by
  have hm : (s.homeBegun k).rd (.mot .method) k = 6 := (s.rd_homeBegun_of_kept k (by decide) k).trans h6
  have hc : (s.homeBegun k).cmdpos k = s.cmdpos k := congrArg (toSigned 48) (s.rd_homeBegun_of_kept k (by decide) k)
  have ha : (s.homeBegun k).actpos k = s.actpos k := congrArg (toSigned 48) (s.rd_homeBegun_of_kept k (by decide) k)
  have hp : (s.homeLatched k).rdS (.mot .hpos) k = s.rdS (.mot .hpos) k :=
    congrArg (toSigned 48) (s.rd_homeLatched k (by decide) (by decide) (by decide) k)
  rw [← hp, State.homeLatched, ← hc, ← ha]
  exact if_pos hm

/-- HOME by another method seeks its reference, after it has cleared it (R222). -/
theorem State.homeStart_seeks (h6 : s.rd (.mot .method) k ≠ 6) : ∃ st, (st = 1 ∨ st = 2) ∧
    s.homeStart k = (((s.homeBegun k).setAxSt k 3).wr (.mot .hstate) k st).setPlan k .seek := by
  have hm : (s.homeBegun k).rd (.mot .method) k ≠ 6 := by rwa [s.rd_homeBegun_of_kept k (by decide) k]
  exact ⟨_, ite_eq_or_eq _ 1 2, if_neg hm⟩

variable {s k} (hk : k < s.hw.axes)

include hk

theorem State.homeStart_present_spec (h6 : s.rd (.mot .method) k = 6) :
    (s.homeStart k).cmdpos k = s.rdS (.mot .hpos) k ∧ (s.homeStart k).rd (.mot .homed) k = 1 ∧
      (s.homeStart k).rd (.mot .hstate) k = 6 ∧ (s.homeStart k).rdS (.mot .hlatch) k = s.cmdpos k ∧
      (s.homeStart k).rdS (.mot .hlatcha) k = s.actpos k ∧ (s.homeStart k).axSt k = s.axSt k := by
  have hb : k < (s.homeBegun k).hw.axes := by rwa [State.homeBegun_hw]
  have hl : k < (s.homeLatched k).hw.axes := by rwa [State.homeLatched_hw]
  have hu : k < ((s.homeLatched k).setPosition k (s.rdS (.mot .hpos) k)).hw.axes := by rwa [State.setPosition_hw]
  obtain ⟨hlc, hla⟩ := State.homeLatch_spec hb (s.cmdpos k) (s.actpos k)
  have hpos := (State.setPosition_spec hl (s.rdS (.mot .hpos) k)).1
  have hrd (f : MotF) (hf : f ∉ positionFields) := (s.homeLatched k).rd_setPosition k (s.rdS (.mot .hpos) k) hf k
  have hst := s.rd_homeLatched k (f := .state) (by decide) (by decide) (by decide) k
  rw [State.homeStart_present s k h6]
  generalize (s.homeLatched k).setPosition k (s.rdS (.mot .hpos) k) = u at hpos hu hrd ⊢
  have hu1 : k < (u.ev (.mot .homed) k).hw.axes := by rwa [State.ev_eq, State.wr_hw]
  have ht (f : MotF) : ((u.ev (.mot .homed) k).wr (.mot .hstate) k 6).rd (.mot f) k =
      if f = .hstate then 6 else if f = .homed then 1 else u.rd (.mot f) k := by
    rw [State.rd_wr_axis hu1 rfl, State.ev_eq, State.rd_wr_axis hu rfl]
    rfl
  refine ⟨?_, ht .homed, ht .hstate, ?_, ?_, (ht .state).trans ((hrd .state (by decide)).trans hst)⟩
  · rw [State.cmdpos, State.rdS, ht]
    exact hpos.trans (toSigned_ofSigned_toSigned (by decide) _)
  · rw [State.rdS, ht, if_neg (by decide), if_neg (by decide), hrd .hlatch (by decide)]
    exact hlc.trans (toSigned_ofSigned_toSigned (by decide) _)
  · rw [State.rdS, ht, if_neg (by decide), if_neg (by decide), hrd .hlatcha (by decide)]
    exact hla.trans (toSigned_ofSigned_toSigned (by decide) _)

theorem State.homeStart_seeks_spec (h6 : s.rd (.mot .method) k ≠ 6) :
    (s.homeStart k).axSt k = 3 ∧ (s.homeStart k).rd (.mot .homed) k = 0 ∧ ((s.homeStart k).axis k).plan = .seek ∧
      ((s.homeStart k).rd (.mot .hstate) k = 1 ∨ (s.homeStart k).rd (.mot .hstate) k = 2) := by
  obtain ⟨st, hst, heq⟩ := s.homeStart_seeks k h6
  have hb : k < (s.homeBegun k).hw.axes := by rwa [State.homeBegun_hw]
  have hb3 : k < ((s.homeBegun k).setAxSt k 3).hw.axes := by rwa [State.setAxSt, State.wr_hw]
  have ht (f : MotF) : (s.homeStart k).rd (.mot f) k =
      if f = .hstate then st % 16 else if f = .state then 3 else (s.homeBegun k).rd (.mot f) k := by
    rw [heq, State.setPlan, State.rd_setAxis, State.rd_wr_axis hb3 rfl, State.setAxSt, State.rd_wr_axis hb rfl]
    rfl
  refine ⟨ht .state, ?_, by rw [heq, State.setPlan, State.axis_setAxis_same], ?_⟩
  · rw [ht, if_neg (by decide), if_neg (by decide), State.rd_homeBegun, if_pos ⟨by decide, rfl⟩]
  · rw [ht, if_pos rfl]
    omega

end Home

/-- Settles O33: each command is its refusals, and what is left is the stop, the set position, the homing or the segment. -/
theorem motionsStop : Obligations.MotionsStop := by
  refine ⟨fun s k h => ⟨fun h23 => ⟨?_, ?_⟩, fun h2 h3 i hi => ?_, fun h0 => ?_, fun h0 => ?_, fun h0 => ?_, fun h0 i hi => ?_,
      fun h0 => ?_, fun h5 hev => ?_, fun h5 f hf hon => ?_⟩,
    fun s k h => ⟨fun h1 => ?_, fun h1 h6 => ?_, fun h1 hm => ?_, fun h1 hm => ?_, fun v hmode hst hlen => ?_,
      fun v hno => ?_⟩⟩
  · rw [h.exec_stop, if_pos h23]
    exact ⟨_, rfl, State.axStop_spec h.axis .stop⟩
  · rw [h.exec_qstop, if_pos h23]
    refine ⟨_, rfl, ?_⟩
    rw [State.axSt_webAxisStopped, State.axis_webAxisStopped]
    exact State.axStop_spec h.axis .quick
  · have h23 : ¬(s.axSt k = 2 ∨ s.axSt k = 3) := by simp [h2, h3]
    simp only [List.mem_cons, List.not_mem_nil, or_false] at hi
    obtain rfl | rfl := hi
    · rw [h.exec_stop, if_neg h23, State.axRefuse_eq]
    · rw [h.exec_qstop, if_neg h23, State.axRefuse_eq]
  · have hh : k < (s.axHalt k).hw.axes := by rw [State.axHalt_hw]; exact h.axis
    rw [h.exec_halt, if_pos h0]
    refine ⟨_, rfl, ?_⟩
    rw [State.axSt_webAxisStopped, State.axis_webAxisStopped, State.cmdpos_webAxisStopped, State.axSt_setAxSt hh, State.setAxSt,
      State.axis_wr, State.axis_axHalt, State.cmdpos_wr_ne _ (by decide), State.cmdpos_axHalt]
    exact ⟨rfl, rfl, rfl, rfl, rfl⟩
  · rw [h.exec_enable, if_pos h0]
    rfl
  · have hh : k < ((s.axHalt k).clr (.mot .enOut) k).hw.axes := by rw [State.clr_eq, State.wr_hw, State.axHalt_hw]; exact h.axis
    rw [h.exec_disable, if_neg h0]
    refine ⟨_, rfl, ?_⟩
    rw [State.axSt_webAxisStopped, State.axis_webAxisStopped, State.rd_webAxisStopped, State.axSt_setAxSt hh, State.setAxSt,
      State.axis_wr, State.rd_wr_mot_ne _ (by decide), State.rd_clr, State.clr_eq, State.axis_wr, State.axis_axHalt]
    exact ⟨rfl, if_pos ⟨rfl, rfl⟩, rfl⟩
  · simp only [List.mem_cons, List.not_mem_nil, or_false] at hi
    obtain rfl | rfl | rfl | rfl | rfl := hi
    · simp [h.exec_halt, h0, State.axRefuse_eq]
    · simp [h.exec_disable, h0, State.axRefuse_eq]
    · simp [h.exec_axisClear, h0, State.axRefuse_eq]
    · simp [h.exec_home, h0, State.axRefuse_eq]
    · simp [h.exec_setpos, h0, State.axRefuse_eq]
  · rw [h.exec_enable, if_neg h0, State.axRefuse_eq]
  · have hnone : (axisEvents.any fun f => s.on (.mot f) k) = false := by simpa using hev
    simp [h.exec_axisClear, h5, hnone, State.setAxSt]
  · have hsome : (axisEvents.any fun f => s.on (.mot f) k) = true := List.any_eq_true.2 ⟨f, hf, hon⟩
    simp [h.exec_axisClear, hsome, State.axRefuse_eq]
  · have hp : k < (s.setPosition k (s.rdS (.mot .setpos) k)).hw.axes := by rw [State.setPosition_hw]; exact h.axis
    obtain ⟨hc, hd⟩ := State.setPosition_spec h.axis (s.rdS (.mot .setpos) k)
    rw [h.exec_setpos, if_pos h1]
    refine ⟨_, rfl, ?_⟩
    rw [State.ev_eq, State.cmdpos_wr_ne _ (by decide), State.rd_wr_axis hp rfl, State.rd_wr_mot_ne _ (by decide), hc, hd]
    exact ⟨toSigned_ofSigned_toSigned (by decide) _, rfl, rfl⟩
  · have hnot : ¬(s.axSt k ≠ 1 ∨ s.rd (.mot .method) k ≠ 6 ∧ (!s.planned k) = true) := by simp [h1, h6]
    have hspec := State.homeStart_present_spec h.axis h6
    rw [h1] at hspec
    rw [h.exec_home, if_neg hnot, if_neg (by simp [h6])]
    exact ⟨_, rfl, hspec⟩
  · have henc : ¬(s.rd (.mot .method) k = 0 ∨
        ((s.rd (.mot .method) k = 2 ∨ s.rd (.mot .method) k = 3 ∨ s.rd (.mot .method) k = 5) ∧ (!s.on (.mot .encEn) k) = true)) := by
      rintro (h0 | ⟨henc, hoff⟩)
      · omega
      · rcases hm with hm | hm | ⟨-, hon⟩
        · omega
        · omega
        · simp [hon] at hoff
    rw [h.exec_home, if_neg (by simp [h1, h.planned]), if_neg henc]
    exact ⟨_, rfl, State.homeStart_seeks_spec h.axis (by omega)⟩
  · rw [h.exec_home, if_neg (by simp [h1, h.planned]), if_pos (by simpa using hm), State.axRefuse_eq]
  · have hopen : ¬((!s.planned k) = true ∨ (!s.on (.mot .mode) k) = true ∨ (s.axSt k ≠ 1 ∧ s.axSt k ≠ 2) ∨
        16 ≤ (s.axis k).segs.length) := by
      rintro (hp | hp | hp | hp)
      · simp [h.planned] at hp
      · simp [hmode] at hp
      · omega
      · omega
    rw [h.exec_segmentPush, if_neg hopen]
    refine ⟨fun hn => ?_, fun hn => by rw [if_pos hn]⟩
    rw [if_neg hn]
    refine ⟨_, rfl, ?_⟩
    rw [State.axSt_setAxSt (by rw [State.setAxis_hw]; exact h.axis), State.setAxSt, State.axis_wr, State.axis_setAxis_same]
    exact ⟨rfl, rfl, rfl⟩
  · have hshut : (!s.planned k) = true ∨ (!s.on (.mot .mode) k) = true ∨ (s.axSt k ≠ 1 ∧ s.axSt k ≠ 2) ∨
        16 ≤ (s.axis k).segs.length := .inr (by simpa using hno)
    rw [h.exec_segmentPush, if_pos hshut, State.axRefuse_eq]

/-! ### One axis (O34: R205, R226) -/

/-- The configuration that LATCH_ARM writes to latch `i` of axis `k` (R219). -/
def State.latchSet (s : State) (k : Nat) (v : Word) (i : Nat) : State :=
  ((s.wr (.mot .latchSrc) (2 * k + i) (v.toNat / 2 ^ (8 * i) % 4)).wr (.mot .latchEdge) (2 * k + i)
    (v.toNat / 2 ^ (8 * i) / 4 % 2)).wr (.mot .latchActual) (2 * k + i) (v.toNat / 2 ^ (8 * i) / 8 % 2)

/-- LATCH_ARM for one of an axis's two latches (R219). -/
def State.armLatch (s : State) (k : Nat) (v : Word) (i : Nat) : State :=
  if v.toNat / 2 ^ (8 * i) / 16 % 2 = 1 then
    ((s.latchSet k v i).clr (.mot .latchValid) (2 * k + i)).setAxis k
      { (s.latchSet k v i).axis k with armed := i :: ((s.latchSet k v i).axis k).armed.filter (· != i) }
  else s.latchSet k v i

theorem latchArm_eq (k : Nat) (v : Word) (s : State) :
    latchArm k v s = if !s.axUp k then s else (s.armLatch k v 0).armLatch k v 1 := rfl

/-- Every axis but `k`, its registers, the page store, the slots, the stations and the fuser are in `s` as in `a`. -/
structure OneAxis (k : Nat) (a s : State) : Prop where
  axis (j : Nat) : j ≠ k → s.axis j = a.axis j
  rd (f : MotF) (i : Nat) : (Fld.mot f).outer i ≠ k → s.rd (.mot f) i = a.rd (.mot f) i
  loam : s.loam = a.loam
  slots : s.slots = a.slots
  stns : s.stns = a.stns
  fhv : s.fhv = a.fhv

theorem OneAxis.refl (k : Nat) (s : State) : OneAxis k s s := ⟨fun _ _ => rfl, fun _ _ _ => rfl, rfl, rfl, rfl, rfl⟩

section OneAxis

variable {k : Nat} {a s : State} (h : OneAxis k a s)

include h

/-- A write of a register of the axis. -/
theorem OneAxis.wr {f : MotF} {i : Nat} (hi : (Fld.mot f).outer i = k) (v : Nat) : OneAxis k a (s.wr (.mot f) i v) where
  axis j hj := (s.axis_wr ..).trans (h.axis j hj)
  rd g n hn := by
    have hne : ((.mot g, n) : Fld × Nat) ≠ (.mot f, i) := by rintro ⟨⟩; exact hn hi
    exact (s.rd_wr_ne hne v).trans (h.rd g n hn)
  loam := (s.wr_loam ..).trans h.loam
  slots := (s.wr_slots ..).trans h.slots
  stns := (s.wr_stns ..).trans h.stns
  fhv := (s.wr_fhv ..).trans h.fhv

theorem OneAxis.wrAxis {f : MotF} (hf : MotF.ofAxis f = true) (v : Nat) : OneAxis k a (s.wr (.mot f) k v) := h.wr (outer_axis hf k) v

theorem OneAxis.setAxis (x : Axis) : OneAxis k a (s.setAxis k x) where
  axis j hj := by rw [State.axis_setAxis, if_neg hj, h.axis j hj]
  rd f i hi := h.rd f i hi
  loam := h.loam
  slots := h.slots
  stns := h.stns
  fhv := h.fhv

theorem OneAxis.ite {t : State} {p : Prop} [Decidable p] (g : OneAxis k a t) : OneAxis k a (if p then s else t) := by
  split <;> assumption

/-- An access that is refused shows in GLB alone (R7, R423). -/
theorem OneAxis.glb (f : GlbF) (en : GlbF) : OneAxis k a ((s.ev (.glb f)).globalIrq en) := by
  obtain ⟨o, pc, e⟩ := (s.ev (.glb f)).globalIrq_eq en
  rw [e]
  exact ⟨fun j hj => (s.axis_wr ..).trans (h.axis j hj), fun g n hn => (s.rd_wr_ne (by simp) _).trans (h.rd g n hn),
    (s.wr_loam ..).trans h.loam, (s.wr_slots ..).trans h.slots, (s.wr_stns ..).trans h.stns, (s.wr_fhv ..).trans h.fhv⟩

theorem OneAxis.hostWrite {f : State → State} (hf : ∀ t, OneAxis k a t → OneAxis k a (f t)) : OneAxis k a (s.hostWrite .mot 0 f) := by
  unfold State.hostWrite
  split
  · exact h
  · extract_lets shut judged
    have hj : OneAxis k a judged := OneAxis.ite (h.glb ..) h
    exact OneAxis.ite (hj.glb ..) (OneAxis.ite hj (hf _ hj))

theorem OneAxis.axRefuse (cause : Nat) : OneAxis k a (s.axRefuse k cause) := (h.wrAxis rfl 1).wrAxis rfl cause

theorem OneAxis.axCommand (pass : Bool) {f : State → State} (hf : OneAxis k a (f s)) : OneAxis k a (s.axCommand k pass f) := by
  unfold State.axCommand
  exact h.ite ((h.axRefuse 1).ite hf)

theorem OneAxis.setAxSt (st : Nat) : OneAxis k a (s.setAxSt k st) := h.wrAxis rfl st

theorem OneAxis.setPlan (p : Plan) : OneAxis k a (s.setPlan k p) := h.setAxis _

theorem OneAxis.startMove (g : Int) : OneAxis k a (s.startMove k g) := ((h.wrAxis (f := .atTarget) rfl 0).setAxis _).setAxSt 2

theorem OneAxis.startVelocity (p : Plan) : OneAxis k a (s.startVelocity k p) :=
  ((h.wrAxis (f := .atTarget) rfl 0).setPlan p).setAxSt 2

theorem OneAxis.homeFail (cause : Nat) : OneAxis k a (s.homeFail k cause) := (h.wrAxis rfl 7).wrAxis rfl cause

theorem OneAxis.axStop (p : Plan) : OneAxis k a (s.axStop k p) := ((OneAxis.ite (h.homeFail 3) h).setAxSt 4).setAxis _

theorem OneAxis.setPosition (p : Int) : OneAxis k a (s.setPosition k p) := by
  unfold State.setPosition
  extract_lets was placed aligned x moved
  have hp : OneAxis k a placed := h.wrAxis (f := .cmdpos) rfl _
  have ha : OneAxis k a aligned := (hp.wrAxis (f := .actpos) rfl _).setAxis _
  exact (ha.setAxis _ : OneAxis k a moved).wrAxis (f := .dev) rfl _

theorem OneAxis.homeLatch (c b : Int) : OneAxis k a (s.homeLatch k c b) :=
  (h.wrAxis (f := .hlatch) rfl _).wrAxis (f := .hlatcha) rfl _

theorem OneAxis.homeStart : OneAxis k a (s.homeStart k) := by
  have hb : OneAxis k a (s.homeBegun k) :=
    ((((h.wrAxis (f := .hcause) rfl 0).wrAxis (f := .hedges) rfl 0).wrAxis (f := .hchatter) rfl 0).wrAxis (f := .homed) rfl 0).setAxis _
  by_cases h6 : s.rd (.mot .method) k = 6
  · have hl : OneAxis k a (s.homeLatched k) := hb.homeLatch ..
    rw [State.homeStart_present s k h6]
    exact ((hl.setPosition _).wrAxis (f := .homed) rfl 1).wrAxis (f := .hstate) rfl 6
  · obtain ⟨st, -, e⟩ := s.homeStart_seeks k h6
    rw [e]
    exact ((hb.setAxSt 3).wrAxis (f := .hstate) rfl st).setPlan .seek

theorem OneAxis.moveCmd : OneAxis k a (moveCmd k s) :=
  h.axCommand false <| (h.axRefuse 1).ite <| (h.axRefuse 2).ite <| (h.axRefuse 3).ite <| (h.axRefuse 4).ite <| h.startMove _

theorem OneAxis.jogCmd : OneAxis k a (jogCmd k s) :=
  h.axCommand false <| (h.axRefuse 1).ite <| (h.axRefuse 2).ite <| h.startVelocity .jog

theorem OneAxis.gearCmd : OneAxis k a (gearCmd k s) :=
  h.axCommand false <| (h.axRefuse 1).ite <| (h.axRefuse 2).ite <| h.startVelocity .gear

theorem OneAxis.stopCmd : OneAxis k a (stopCmd k s) := h.axCommand false <| (h.axStop .stop).ite <| h.axRefuse 1

theorem OneAxis.homeCmd : OneAxis k a (homeCmd k s) :=
  h.axCommand false <| (h.axRefuse 1).ite <| (h.axRefuse 5).ite h.homeStart

theorem OneAxis.setposCmd : OneAxis k a (setposCmd k s) :=
  h.axCommand false <| ((h.setPosition _).wrAxis (f := .homed) rfl 1).ite <| h.axRefuse 1

theorem OneAxis.enableCmd : OneAxis k a (enableCmd k s) :=
  h.axCommand false <| ((h.wrAxis (f := .enOut) rfl 1).setAxSt 1).ite <| h.axRefuse 1

theorem OneAxis.clearCmd : OneAxis k a (clearCmd k s) := h.axCommand false <| (h.setAxSt 1).ite <| h.axRefuse 1

theorem OneAxis.segmentPush (v : Word) : OneAxis k a (segmentPush k v s) :=
  h.axCommand false <| (h.axRefuse 1).ite <| h.ite <| (h.setAxis _).setAxSt 2

theorem OneAxis.armLatch (v : Word) {i : Nat} (hi : i < 2) : OneAxis k a (s.armLatch k v i) := by
  have hs : OneAxis k a (s.latchSet k v i) :=
    ((h.wr (outer_latch (f := .latchSrc) rfl k hi) _).wr (outer_latch (f := .latchEdge) rfl k hi) _).wr
      (outer_latch (f := .latchActual) rfl k hi) _
  exact ((hs.wr (outer_latch (f := .latchValid) rfl k hi) 0).setAxis _).ite hs

theorem OneAxis.latchArm (v : Word) : OneAxis k a (latchArm k v s) :=
  h.ite <| (h.armLatch v (by decide)).armLatch v (by decide)

end OneAxis

/-- A write of MOT whose effect stays within one axis. -/
theorem OneAxis.of_exec {k : Nat} {s t : State} {p : Bool} {f : State → State} (hf : ∀ u, OneAxis k s u → OneAxis k s (f u))
    (e : guardWF p (s.hostWrite .mot 0 f) = .next t) : OneAxis k s t := by
  obtain ⟨-, rfl⟩ := guardWF_next e
  exact (OneAxis.refl k s).hostWrite hf

/-- Settles O34: each command writes registers of its axis alone, and refusals of the write itself show in GLB. -/
theorem axisCommandsTouchOneAxis : Obligations.AxisCommandsTouchOneAxis := by
  intro k v i s t hi e
  have h : OneAxis k s t := by
    simp only [List.mem_cons, List.not_mem_nil, or_false] at hi
    obtain rfl | rfl | rfl | rfl | rfl | rfl | rfl | rfl | rfl | rfl := hi
    · exact OneAxis.of_exec (fun _ => OneAxis.moveCmd) e
    · exact OneAxis.of_exec (fun _ => OneAxis.jogCmd) e
    · exact OneAxis.of_exec (fun _ => OneAxis.gearCmd) e
    · exact OneAxis.of_exec (fun _ => OneAxis.stopCmd) e
    · exact OneAxis.of_exec (fun _ => OneAxis.homeCmd) e
    · exact OneAxis.of_exec (fun _ => OneAxis.setposCmd) e
    · exact OneAxis.of_exec (fun _ => OneAxis.enableCmd) e
    · exact OneAxis.of_exec (fun _ => OneAxis.clearCmd) e
    · exact OneAxis.of_exec (fun _ hu => hu.segmentPush v) e
    · exact OneAxis.of_exec (fun _ hu => hu.latchArm v) e
  exact ⟨h.axis, fun f n hn _ => h.rd f n hn, h.loam, h.slots, h.stns, h.fhv⟩

/-! ### General latches (O35: R219) -/

theorem armBit_iff (v : Word) (i : Nat) : v.toNat / 2 ^ (8 * i) / 16 % 2 = 1 ↔ v.getLsbD (8 * i + 4) = true := by
  rw [BitVec.getLsbD, Nat.testBit_eq_decide_div_mod_eq, pow_add, ← Nat.div_div_eq_div_mul, decide_eq_true_eq]
  rfl

section Latches

variable (s : State) (k : Nat) (v : Word) {i : Nat}

theorem State.axis_latchSet (i j : Nat) : (s.latchSet k v i).axis j = s.axis j := by simp [State.latchSet]

theorem State.rd_latchValid_latchSet (i n : Nat) : (s.latchSet k v i).rd (.mot .latchValid) n = s.rd (.mot .latchValid) n := by
  simp [State.latchSet, State.rd_wr_mot_ne]

/-- A latch whose ARM bit is written waits for its edge. -/
theorem State.armLatch_arms (h : v.getLsbD (8 * i + 4) = true) :
    i ∈ ((s.armLatch k v i).axis k).armed ∧ (s.armLatch k v i).rd (.mot .latchValid) (2 * k + i) = 0 := by
  rw [State.armLatch, if_pos ((armBit_iff v i).2 h), State.axis_setAxis_same, State.rd_setAxis, State.rd_clr, if_pos ⟨rfl, rfl⟩]
  exact ⟨List.mem_cons_self .., rfl⟩

/-- The other latch of the axis stays as it is. -/
theorem State.armLatch_other {j : Nat} (hj : j ≠ i) (h : j ∈ (s.axis k).armed) : j ∈ ((s.armLatch k v i).axis k).armed := by
  unfold State.armLatch
  split
  · rw [State.axis_setAxis_same, State.axis_latchSet]
    exact List.mem_cons_of_mem _ (List.mem_filter.2 ⟨h, by simpa using hj⟩)
  · rwa [State.axis_latchSet]

theorem State.rd_armLatch_other {j : Nat} (hj : j ≠ i) :
    (s.armLatch k v i).rd (.mot .latchValid) (2 * k + j) = s.rd (.mot .latchValid) (2 * k + j) := by
  unfold State.armLatch
  split
  · rw [State.rd_setAxis, State.rd_clr, if_neg (by omega), State.rd_latchValid_latchSet]
  · exact s.rd_latchValid_latchSet ..

end Latches

section Inputs

variable {s : State} {k : Nat} (hk : k < s.hw.axes) (hu : s.up .mot = true)

include hk

theorem axis_lt : k < 48 := Nat.lt_of_lt_of_le hk s.hw.axes_le

theorem exec_encoderError : exec (.encoderError k) s = .next
    (if s.counts k && s.rd (.mot .encMode) k != 1 then
      (s.wr (.mot .encErr) k 1).wr (.mot .encErrCnt) k (satInc (Fld.mot .encErrCnt).row.width (s.rd (.mot .encErrCnt) k))
     else s) := by
  show guardWF (decide (k < 48)) (encoderError k s) = _
  rw [decide_eq_true (axis_lt hk), guardWF_true, encoderError, State.count_eq, State.ev_eq, State.rd_wr_mot_ne _ (by decide)]

include hu

theorem exec_latchArm {v : Word} (hv : v.getLsbD 4 = true ∨ v.getLsbD 12 = true) (hr : s.Reaches .mot 0) :
    exec (.latchArm k v) s = .next ((s.armLatch k v 0).armLatch k v 1) := by
  show guardWF (decide (k < 48) && (v.getLsbD 4 || v.getLsbD 12)) (s.hostWrite .mot 0 _) = _
  rw [decide_eq_true (axis_lt hk), Bool.or_eq_true_iff.2 hv, State.hostWrite_of_reaches hr, latchArm_eq, State.axUp_of_up hu hk]
  rfl

theorem exec_latchEdge {i : Nat} (hi : i < 2) : exec (.latchEdge k i) s = .next
    (if (s.axis k).armed.contains i then
      ((s.setAxis k { s.axis k with armed := (s.axis k).armed.filter (· != i) }).wrS (.mot .latchPos) (2 * k + i)
        (if s.on (.mot .latchActual) (2 * k + i) then s.actpos k else s.cmdpos k)).wr (.mot .latchValid) (2 * k + i) 1
     else s) := by
  show guardWF (decide (k < 48) && decide (i < 2)) (latchEdge k i s) = _
  rw [decide_eq_true (axis_lt hk), decide_eq_true hi, latchEdge, State.axUp_of_up hu hk]
  rfl

/-! ### Encoders (O35: R213, R214) -/

theorem State.counts_iff : s.counts k = true ↔ s.on (.mot .encEn) k = true ∧ s.rd (.mot .axtype) k < 3 := by
  simp [State.counts, State.axUp_of_up hu hk]

theorem exec_encoderEdge (fwd : Bool) : exec (.encoderEdge k fwd) s = .next (encoderCount k fwd s).trackPosition := by
  show guardWF (decide (k < 48)) (if s.axUp k then (encoderCount k fwd s).trackPosition else s) = _
  rw [decide_eq_true (axis_lt hk), guardWF_true, State.axUp_of_up hu hk, if_pos rfl]

end Inputs

theorem encoderStep_bounds (mode sub : Nat) (fwd : Bool) : -1 ≤ (encoderStep mode sub fwd).1 ∧ (encoderStep mode sub fwd).1 ≤ 1 := by
  unfold encoderStep
  split_ifs <;> simp

theorem State.motion_trackPosition (s : State) : s.trackPosition.motion = s.motion := by
  unfold State.trackPosition
  extract_lets k pos shown new
  have hs : shown.motion = s.motion := s.motion_wr (by decide) ..
  split <;> exact (shown.motion_wr (by decide) ..).trans hs

theorem State.actpos_trackPosition (s : State) (k : Nat) : s.trackPosition.actpos k = s.actpos k :=
  congrArg (toSigned 48) ((State.motion_eq_iff.1 s.motion_trackPosition).2.2 .actpos k)

theorem State.axis_trackPosition (s : State) (k : Nat) : s.trackPosition.axis k = s.axis k :=
  congrArg (Store.get ({} : Axis) k) (State.motion_eq_iff.1 s.motion_trackPosition).2.1

/-- An edge of an encoder that counts moves the actual position by what it counts, as long as the register holds it. -/
theorem encoderCount_spec {s : State} {k : Nat} (hk : k < s.hw.axes) (hc : s.counts k = true) (h1 : -140737488355328 < s.actpos k)
    (h2 : s.actpos k < 140737488355327) (fwd : Bool) :
    (encoderCount k fwd s).actpos k =
        s.actpos k + (encoderStep (s.rd (.mot .encMode) k) (s.axis k).encSub (fwd != s.on (.mot .encInv) k)).1 ∧
      ((encoderCount k fwd s).axis k).encSub =
        (encoderStep (s.rd (.mot .encMode) k) (s.axis k).encSub (fwd != s.on (.mot .encInv) k)).2 := by
  unfold encoderCount
  rw [if_pos hc]
  extract_lets x q stepped
  have hp : stepped.actpos k = s.actpos k := rfl
  have hx : (stepped.axis k).encSub = q.2 := by rw [State.axis_setAxis_same]
  have hw : k < stepped.hw.axes := hk
  have hq : -1 ≤ q.1 ∧ q.1 ≤ 1 := encoderStep_bounds ..
  clear_value stepped
  split
  · next h0 => exact ⟨by rw [hp, h0, add_zero], hx⟩
  · refine ⟨?_, (stepped.encSub_setActpos k _).trans hx⟩
    rw [State.actpos_setActpos hw, hp]
    exact toSigned_ofSigned (by decide) (by norm_num; omega) (by norm_num; omega)

/-! ### Limits (O35: R217, R222, R223) -/

/-- The field that shows the hard limit of a direction. -/
def limitField (pos : Bool) : MotF := if pos then .limP else .limN

theorem limitField_ofAxis (pos : Bool) : MotF.ofAxis (limitField pos) = true := by cases pos <;> rfl

/-- A hard limit shows active. -/
def State.limitShown (s : State) (k : Nat) (pos : Bool) : State := s.wr (.mot (limitField pos)) k 1

/-- A homing that meets a limit which is not its reference fails (R222). -/
def State.limitFails (s : State) (k : Nat) : State := if s.homingNow k then (s.homeFail k 1).setAxSt k 4 else s

/-- A limit in the direction of motion stops the axis at LIMDEC (R217). -/
def State.limitStop (s : State) (k : Nat) (x : Axis) : State :=
  let stopping := if s.axSt k = 2 ∨ s.axSt k = 3 then s.setAxSt k 4 else s
  let shown := if x.plan = .seg then stopping.ev (.mot .segClamp) k else stopping
  shown.setAxis k { x with plan := .limit, limStop := true, creeping := false, segs := [], seg := none }

section Limits

variable (s : State) (k : Nat) (pos : Bool)

@[simp] theorem State.limitShown_hw : (s.limitShown k pos).hw = s.hw := State.wr_hw ..

@[simp] theorem State.axis_limitShown (j : Nat) : (s.limitShown k pos).axis j = s.axis j := State.axis_wr ..

theorem State.rd_limitShown {f : MotF} (hp : f ≠ .limP) (hn : f ≠ .limN) (i : Nat) :
    (s.limitShown k pos).rd (.mot f) i = s.rd (.mot f) i :=
  s.rd_wr_mot_ne (by cases pos <;> assumption) ..

theorem State.axSt_limitShown : (s.limitShown k pos).axSt k = s.axSt k := s.rd_limitShown k pos (by decide) (by decide) k

theorem State.homingNow_limitShown : (s.limitShown k pos).homingNow k = s.homingNow k := by
  rw [State.homingNow, State.axSt_limitShown, State.hst, s.rd_limitShown k pos (by decide) (by decide)]
  rfl

theorem State.limitIsHome_limitShown (p : Bool) : (s.limitShown k pos).limitIsHome k p = s.limitIsHome k p := by
  simp [State.limitIsHome, State.homingNow_limitShown, State.hst, State.on_eq, State.rd_limitShown]

theorem State.planned_limitShown : (s.limitShown k pos).planned k = s.planned k := by
  simp [State.planned, State.rd_limitShown]

theorem State.limitFails_hw : (s.limitFails k).hw = s.hw := by unfold State.limitFails; split <;> simp [State.setAxSt]

theorem State.planned_limitFails : (s.limitFails k).planned k = s.planned k := by
  unfold State.limitFails
  split
  · simp [State.planned, State.setAxSt, State.rd_wr_mot_ne, State.rd_homeFail_ne]
  · rfl

/-- A homing that its limit fails shows cause 1 and stops (R222). -/
theorem State.rd_limitFails_of_homing {s : State} {k : Nat} (hk : k < s.hw.axes) (h : s.homingNow k = true) (f : MotF) :
    (s.limitFails k).rd (.mot f) k = if f = .state then 4 else if f = .hcause then 1 else if f = .hstate then 7 else s.rd (.mot f) k := by
  have h1 : k < (s.wr (.mot .hstate) k 7).hw.axes := by rwa [State.wr_hw]
  have h2 : k < (s.homeFail k 1).hw.axes := by rwa [State.homeFail_hw]
  rw [State.limitFails, if_pos h, State.setAxSt, State.rd_wr_axis h2 rfl, State.homeFail, State.rd_wr_axis h1 rfl, State.rd_wr_axis hk rfl]
  rfl

theorem State.limitStop_spec (x : Axis) {s : State} {k : Nat} (hk : k < s.hw.axes) :
    (s.limitStop k x).axSt k = (if s.axSt k = 2 ∨ s.axSt k = 3 then 4 else s.axSt k) ∧
      ((s.limitStop k x).axis k).plan = .limit ∧ ((s.limitStop k x).axis k).limStop = true ∧
      ∀ f, f ≠ .state → f ≠ .segClamp → (s.limitStop k x).rd (.mot f) k = s.rd (.mot f) k := by
  unfold State.limitStop
  extract_lets stopping shown
  have hst (f : MotF) : stopping.rd (.mot f) k = if f = .state ∧ (s.axSt k = 2 ∨ s.axSt k = 3) then 4 else s.rd (.mot f) k := by
    unfold stopping
    split
    · next h =>
      rw [State.setAxSt, State.rd_wr_axis hk rfl]
      simp [h, MotF.row]
    · next h => simp [h]
  have hsh (f : MotF) (hf : f ≠ .segClamp) : shown.rd (.mot f) k = stopping.rd (.mot f) k := by
    unfold shown
    split
    · exact stopping.rd_wr_mot_ne hf ..
    · rfl
  clear_value shown stopping
  rw [State.axis_setAxis_same, State.axSt_setAxis]
  refine ⟨(hsh .state (by decide)).trans ((hst .state).trans ?_), rfl, rfl, fun f h1 h2 => ?_⟩
  · exact if_congr (by simp) rfl rfl
  · rw [State.rd_setAxis, hsh f h2, hst, if_neg (fun h => h1 h.1)]

end Limits

section Inputs

variable {s : State} {k : Nat} (hk : k < s.hw.axes) (hu : s.up .mot = true)

include hk hu

/-- LIMIT_ACTIVE shows the limit; one that is no reference ends a homing, and one in the direction of motion stops the axis. -/
theorem exec_limitActive (pos : Bool) : exec (.limitActive k pos) s = .next
    (if s.limitIsHome k pos then s.limitShown k pos
     else if (if pos then 0 < (s.axis k).v else (s.axis k).v < 0) ∧ s.planned k then
       ((s.limitShown k pos).limitFails k).limitStop k (s.axis k)
     else if s.homingNow k then ((s.limitShown k pos).limitFails k).setPlan k .limit
     else (s.limitShown k pos).limitFails k) := by
  have hinto : (if pos then 0 < (s.axis k).v else (s.axis k).v < 0) ↔
      (if pos then decide (0 < (s.axis k).v) else decide ((s.axis k).v < 0)) = true := by cases pos <;> simp
  show guardWF (decide (k < 48)) (limitActive k pos s) = _
  rw [decide_eq_true (axis_lt hk), guardWF_true, limitActive, State.axUp_of_up hu hk]
  simp only [hinto]
  rw [← s.limitIsHome_limitShown k pos pos, ← s.homingNow_limitShown k pos, ← s.axis_limitShown k pos k,
    ← s.planned_limitShown k pos, ← (s.limitShown k pos).planned_limitFails k]
  rfl

theorem exec_limitInactive (pos : Bool) : exec (.limitInactive k pos) s = .next (s.wr (.mot (limitField pos)) k 0) := by
  show guardWF (decide (k < 48)) (if s.axUp k then s.clr (.mot (limitField pos)) k else s) = _
  rw [decide_eq_true (axis_lt hk), guardWF_true, State.axUp_of_up hu hk]
  rfl

end Inputs

/-! ### The homing reference (O35: R220 to R222) -/

/-- The axis with the raw level of its reference noted (R220). -/
def State.rawNoted (s : State) (k : Nat) (a : Bool) : Axis :=
  if s.refLimit k then { s.axis k with limRaw := a } else { s.axis k with homeRaw := a }

/-- HOME_QUALIFIED shows the home input's level (R220). -/
def State.homeShown (s : State) (k : Nat) : State := if s.refLimit k then s else s.wrB (.mot .homeSw) k (s.refRaw k)

/-- The reference position is latched and committed (R220). -/
def State.homeCommitted (s : State) (k : Nat) (c a : Int) : State :=
  ((s.homeShown k).homeLatch k c a).setAxis k
    { s.axis k with cand := none, committed := true, switchAt := (s.homeShown k).cmdpos k }

/-- A homing decelerates after its reference (R222). -/
def State.homeDecel (s : State) (k : Nat) : State := (s.wr (.mot .hstate) k 4).setPlan k .stop

section Reference

variable (s : State) (k : Nat)

theorem State.rawNoted_cases (a : Bool) :
    (s.rawNoted k a).committed = (s.axis k).committed ∧ (s.rawNoted k a).cand = (s.axis k).cand := by
  unfold State.rawNoted; split <;> exact ⟨rfl, rfl⟩

@[simp] theorem State.homeShown_hw : (s.homeShown k).hw = s.hw := by unfold State.homeShown; split <;> simp [State.wrB_eq]

theorem State.rd_homeShown {f : MotF} (hf : f ≠ .homeSw) (i : Nat) : (s.homeShown k).rd (.mot f) i = s.rd (.mot f) i := by
  unfold State.homeShown
  split
  · rfl
  · exact s.rd_wr_mot_ne hf ..

theorem State.homeCommitted_hw (c a : Int) : (s.homeCommitted k c a).hw = s.hw := by simp [State.homeCommitted]

theorem State.rd_homeCommitted (c a : Int) {f : MotF} (h1 : f ≠ .homeSw) (h2 : f ≠ .hlatch) (h3 : f ≠ .hlatcha) (i : Nat) :
    (s.homeCommitted k c a).rd (.mot f) i = s.rd (.mot f) i := by
  rw [State.homeCommitted, State.rd_setAxis, State.rd_homeLatch _ k c a h2 h3, s.rd_homeShown k h1]

theorem State.homeDecel_spec {s : State} {k : Nat} (hk : k < s.hw.axes) :
    (s.homeDecel k).rd (.mot .hstate) k = 4 ∧ ((s.homeDecel k).axis k).plan = .stop ∧
      ((s.homeDecel k).axis k).committed = (s.axis k).committed ∧
      ∀ f, f ≠ .hstate → (s.homeDecel k).rdS (.mot f) k = s.rdS (.mot f) k := by
  rw [State.homeDecel, State.setPlan, State.rd_setAxis, State.axis_setAxis_same, State.axis_wr]
  exact ⟨(State.rd_wr_axis hk (f := .hstate) rfl .hstate 4).trans (if_pos rfl), rfl, rfl,
    fun f hf => congrArg (toSigned _) (s.rd_wr_mot_ne hf ..)⟩

theorem State.homeCommitted_spec {s : State} {k : Nat} (hk : k < s.hw.axes) (c a : Int) :
    (s.homeCommitted k c a).rdS (.mot .hlatch) k = toSigned 48 (ofSigned 48 c) ∧
      (s.homeCommitted k c a).rdS (.mot .hlatcha) k = toSigned 48 (ofSigned 48 a) ∧
      ((s.homeCommitted k c a).axis k).committed = true := by
  obtain ⟨hc, ha⟩ := State.homeLatch_spec (s := s.homeShown k) (by rwa [State.homeShown_hw]) c a
  rw [State.homeCommitted, State.axis_setAxis_same, State.rdS_setAxis, State.rdS_setAxis]
  exact ⟨hc, ha, rfl⟩

end Reference

section Inputs

variable {s : State} {k : Nat} (hk : k < s.hw.axes) (hu : s.up .mot = true)

include hk hu

/-- A level that the reference shows already is no edge. In SEEK an edge of the wanted sense captures a candidate, and its return
discards it (R220). -/
theorem exec_homeRawEdge (hh : s.homingNow k = true) (hst : s.hst k = 2) (h3 : s.rd (.mot .method) k ≠ 3)
    (h5 : s.rd (.mot .method) k ≠ 5) (hc : (s.axis k).committed = false) {a : Bool} (ha : a ≠ s.refRaw k) :
    exec (.homeRawEdge k a) s = .next
      (if a != s.on (.mot .hedge) k then
        (s.setAxis k (s.rawNoted k a)).setAxis k { s.rawNoted k a with cand := some (s.cmdpos k, s.actpos k) }
      else if (s.rawNoted k a).cand.isSome then
        ((s.setAxis k (s.rawNoted k a)).setAxis k { s.rawNoted k a with cand := none }).count (.mot .hchatter) k
      else s.setAxis k (s.rawNoted k a)) := by
  have hedge : (s.refRaw k == a) = false := beq_eq_false_iff_ne.2 ha.symm
  have hcom : (s.homingNow k && (s.rawNoted k a).committed) = false := by rw [(s.rawNoted_cases k a).1, hc, Bool.and_false]
  have hseek : (s.homingNow k && s.hst k == 2 && s.rd (.mot .method) k != 3 && s.rd (.mot .method) k != 5) = true := by
    simp [hh, hst, h3, h5]
  show guardWF (decide (k < 48)) (homeRawEdge k a s) = _
  rw [decide_eq_true (axis_lt hk), guardWF_true, homeRawEdge, State.axUp_of_up hu hk, if_neg (by simp), hedge, if_neg (by simp)]
  refine congrArg _ ((if_neg ?_).trans (if_pos hseek))
  exact Bool.eq_false_iff.1 hcom

theorem exec_homeQualified (hh : s.homingNow k = true) (hst : s.hst k = 2) {c a : Int} (hc : (s.axis k).cand = some (c, a)) :
    exec (.homeQualified k) s = .next
      (if (s.homeCommitted k c a).rd (.mot .method) k = 2 then (s.homeCommitted k c a).wr (.mot .hstate) k 3
       else (s.homeCommitted k c a).homeDecel k) := by
  have hn : (s.homeShown k).homingNow k = true := by
    rw [← hh, State.homingNow, State.homingNow, State.axSt, State.axSt, State.hst, State.hst, s.rd_homeShown k (by decide),
      s.rd_homeShown k (by decide)]
  have h2 : (s.homeShown k).hst k = 2 := (s.rd_homeShown k (by decide) k).trans hst
  show guardWF (decide (k < 48)) (homeQualified k s) = _
  rw [decide_eq_true (axis_lt hk), guardWF_true, homeQualified, State.axUp_of_up hu hk, if_neg (by simp)]
  refine congrArg _ ?_
  refine (if_neg (c := (!(s.homeShown k).homingNow k) = true) (by simp [hn])).trans ((if_neg ?_).trans ?_)
  · show ¬((s.homeShown k).hst k = 1 ∧ _)
    omega
  · rw [hc]
    exact if_pos h2

theorem exec_indexEdge (he : s.on (.mot .encEn) k = true) (hh : s.homingNow k = true)
    (hst : s.hst k = 3 ∨ s.hst k = 2 ∧ s.rd (.mot .method) k = 3) : exec (.indexEdge k) s = .next
      (((s.homeLatch k (s.cmdpos k) (s.actpos k)).setAxis k { s.axis k with committed := true }).homeDecel k) := by
  have hon : (s.axUp k && s.on (.mot .encEn) k && s.homingNow k &&
      (s.hst k == 3 || (s.hst k == 2 && s.rd (.mot .method) k == 3))) = true := by
    simp [State.axUp_of_up hu hk, he, hh, hst]
  show guardWF (decide (k < 48)) (indexEdge k s) = _
  rw [decide_eq_true (axis_lt hk), guardWF_true, indexEdge, if_pos hon]
  rfl

end Inputs

/-! ### The inputs of an axis (O35) -/

section Inputs

variable {s : State} {k : Nat} (hk : k < s.hw.axes) (hu : s.up .mot = true)

include hk hu

theorem latchArm_runs {v : Word} (hv : v.getLsbD 4 = true ∨ v.getLsbD 12 = true) (hr : s.Reaches .mot 0) :
    ∃ t, exec (.latchArm k v) s = .next t ∧
      (v.getLsbD 4 = true → 0 ∈ (t.axis k).armed ∧ t.rd (.mot .latchValid) (2 * k) = 0) ∧
      (v.getLsbD 12 = true → 1 ∈ (t.axis k).armed ∧ t.rd (.mot .latchValid) (2 * k + 1) = 0) := by
  refine ⟨_, exec_latchArm hk hu hv hr, fun h4 => ?_, fun h12 => State.armLatch_arms (s.armLatch k v 0) k v (i := 1) h12⟩
  obtain ⟨harm, hval⟩ := s.armLatch_arms k v (i := 0) h4
  exact ⟨State.armLatch_other _ k v (by decide) harm, (State.rd_armLatch_other _ k v (j := 0) (by decide)).trans hval⟩

theorem latchEdge_runs {i : Nat} (hi : i < 2) (ha : (s.axis k).armed.contains i = true) :
    ∃ t, exec (.latchEdge k i) s = .next t ∧ t.rd (.mot .latchValid) (2 * k + i) = 1 ∧ i ∉ (t.axis k).armed ∧
      t.rdS (.mot .latchPos) (2 * k + i) = if s.on (.mot .latchActual) (2 * k + i) then s.actpos k else s.cmdpos k := by
  rw [exec_latchEdge hk hu hi, if_pos ha]
  refine ⟨_, rfl, ?_, ?_, ?_⟩
  · exact State.rd_wr_mot_same (by rwa [outer_latch rfl k hi, State.wrS_hw, State.setAxis_hw]) 1
  · rw [State.axis_wr, State.wrS_eq, State.axis_wr, State.axis_setAxis_same]
    simp
  · rw [State.rdS, State.rd_wr_mot_ne _ (by decide)]
    refine (State.rdS_wrS_mot (w := 48) (by rwa [outer_latch rfl k hi, State.setAxis_hw]) rfl _).trans ?_
    split <;> exact toSigned_ofSigned_toSigned (by decide) _

theorem encoderEdge_runs (he : s.on (.mot .encEn) k = true) (ht : s.rd (.mot .axtype) k < 3) (h1 : -140737488355328 < s.actpos k)
    (h2 : s.actpos k < 140737488355327) (fwd : Bool) : ∃ t, exec (.encoderEdge k fwd) s = .next t ∧
      t.actpos k = s.actpos k + (encoderStep (s.rd (.mot .encMode) k) (s.axis k).encSub (fwd != s.on (.mot .encInv) k)).1 ∧
      (t.axis k).encSub = (encoderStep (s.rd (.mot .encMode) k) (s.axis k).encSub (fwd != s.on (.mot .encInv) k)).2 := by
  refine ⟨_, exec_encoderEdge hk hu fwd, ?_⟩
  rw [State.actpos_trackPosition, State.axis_trackPosition]
  exact encoderCount_spec hk ((State.counts_iff hk hu).2 ⟨he, ht⟩) h1 h2 fwd

/-- A limit in the direction of motion, on an axis that does not home (R217). -/
theorem limitActive_stops {pos : Bool} (hp : s.planned k = true) (hh : s.homingNow k = false)
    (hinto : if pos then 0 < (s.axis k).v else (s.axis k).v < 0) :
    ∃ t, exec (.limitActive k pos) s = .next t ∧ t.rd (.mot (limitField pos)) k = 1 ∧
      t.axSt k = (if s.axSt k = 2 ∨ s.axSt k = 3 then 4 else s.axSt k) ∧ (t.axis k).plan = .limit ∧ (t.axis k).limStop = true := by
  have hhome : s.limitIsHome k pos = false := by simp [State.limitIsHome, hh]
  have hf : (s.limitShown k pos).limitFails k = s.limitShown k pos := by
    rw [State.limitFails, State.homingNow_limitShown, hh, if_neg (by simp)]
  have hw : k < (s.limitShown k pos).hw.axes := by rwa [State.limitShown_hw]
  obtain ⟨hst, hplan, hlim, hrd⟩ := State.limitStop_spec (s.axis k) hw
  rw [exec_limitActive hk hu, hhome, if_neg (by simp), if_pos ⟨hinto, hp⟩, hf]
  rw [State.axSt_limitShown] at hst
  refine ⟨_, rfl, (hrd _ ?_ ?_).trans ?_, hst, hplan, hlim⟩
  · cases pos <;> decide
  · cases pos <;> decide
  · rw [State.limitShown, State.rd_wr_axis hk (limitField_ofAxis pos), if_pos rfl]
    cases pos <;> rfl

theorem limitActive_shows {pos : Bool} (hh : s.homingNow k = false)
    (hinto : ¬if pos then 0 < (s.axis k).v else (s.axis k).v < 0) :
    exec (.limitActive k pos) s = .next (s.limitShown k pos) := by
  have hhome : s.limitIsHome k pos = false := by simp [State.limitIsHome, hh]
  have hf : (s.limitShown k pos).limitFails k = s.limitShown k pos := by
    rw [State.limitFails, State.homingNow_limitShown, hh, if_neg (by simp)]
  rw [exec_limitActive hk hu, hhome, if_neg (by simp), if_neg (fun h => hinto h.1), hh, if_neg (by simp), hf]

/-- A limit that is no reference ends a homing, whether or not it lies in the direction of motion (R222). -/
theorem limitActive_ends_homing {pos : Bool} (hh : s.homingNow k = true) (hhome : s.limitIsHome k pos = false) :
    ∃ t, exec (.limitActive k pos) s = .next t ∧ t.rd (.mot (limitField pos)) k = 1 ∧ t.axSt k = 4 ∧
      t.rd (.mot .hstate) k = 7 ∧ t.rd (.mot .hcause) k = 1 ∧ (t.axis k).plan = .limit := by
  have hw : k < (s.limitShown k pos).hw.axes := by rwa [State.limitShown_hw]
  have hf := State.rd_limitFails_of_homing hw ((s.homingNow_limitShown k pos).trans hh)
  have hfw : k < ((s.limitShown k pos).limitFails k).hw.axes := by rwa [State.limitFails_hw]
  have hshown : (s.limitShown k pos).rd (.mot (limitField pos)) k = 1 := by
    rw [State.limitShown, State.rd_wr_axis hk (limitField_ofAxis pos), if_pos rfl]
    cases pos <;> rfl
  have hlim : ((s.limitShown k pos).limitFails k).rd (.mot (limitField pos)) k = 1 := by
    rw [hf, hshown]
    cases pos <;> rfl
  have hst : ((s.limitShown k pos).limitFails k).axSt k = 4 := (hf .state).trans (if_pos rfl)
  rw [exec_limitActive hk hu, hhome, if_neg (by simp), if_pos hh]
  by_cases hgo : (if pos then 0 < (s.axis k).v else (s.axis k).v < 0) ∧ s.planned k = true
  · obtain ⟨hs, hplan, -, hrd⟩ := State.limitStop_spec (s.axis k) hfw
    rw [hst] at hs
    rw [if_pos hgo]
    refine ⟨_, rfl, (hrd _ ?_ ?_).trans hlim, hs, (hrd _ (by decide) (by decide)).trans (hf .hstate),
      (hrd _ (by decide) (by decide)).trans (hf .hcause), hplan⟩
    · cases pos <;> decide
    · cases pos <;> decide
  · rw [if_neg hgo]
    refine ⟨_, rfl, ?_⟩
    rw [State.setPlan, State.axis_setAxis_same, State.axSt_setAxis]
    simp only [State.rd_setAxis, and_true]
    exact ⟨hlim, hst, hf .hstate, hf .hcause⟩

theorem homeQualified_runs (hh : s.homingNow k = true) (h2 : s.hst k = 2) {c a : Int} (hc : (s.axis k).cand = some (c, a)) :
    ∃ t, exec (.homeQualified k) s = .next t ∧ t.rdS (.mot .hlatch) k = toSigned 48 (ofSigned 48 c) ∧
      t.rdS (.mot .hlatcha) k = toSigned 48 (ofSigned 48 a) ∧ (t.axis k).committed = true ∧
      (s.rd (.mot .method) k ≠ 2 → t.rd (.mot .hstate) k = 4 ∧ (t.axis k).plan = .stop) ∧
      (s.rd (.mot .method) k = 2 → t.rd (.mot .hstate) k = 3) := by
  have hw : k < (s.homeCommitted k c a).hw.axes := by rwa [State.homeCommitted_hw]
  obtain ⟨hlc, hla, hcom⟩ := State.homeCommitted_spec hk c a
  rw [exec_homeQualified hk hu hh h2 hc, s.rd_homeCommitted k c a (by decide) (by decide) (by decide)]
  by_cases hm : s.rd (.mot .method) k = 2
  · rw [if_pos hm]
    refine ⟨_, rfl, ?_⟩
    rw [State.rdS_wr_mot_ne _ (by decide), State.rdS_wr_mot_ne _ (by decide), State.axis_wr, State.rd_wr_axis hw rfl]
    exact ⟨hlc, hla, hcom, fun h => absurd hm h, fun _ => rfl⟩
  · obtain ⟨hst, hplan, hcom', hrd⟩ := State.homeDecel_spec hw
    rw [if_neg hm]
    exact ⟨_, rfl, (hrd .hlatch (by decide)).trans hlc, (hrd .hlatcha (by decide)).trans hla, hcom'.trans hcom,
      fun _ => ⟨hst, hplan⟩, fun h => absurd h hm⟩

theorem indexEdge_runs (he : s.on (.mot .encEn) k = true) (hh : s.homingNow k = true)
    (hst : s.hst k = 3 ∨ s.hst k = 2 ∧ s.rd (.mot .method) k = 3) :
    ∃ t, exec (.indexEdge k) s = .next t ∧ t.rdS (.mot .hlatch) k = s.cmdpos k ∧ t.rdS (.mot .hlatcha) k = s.actpos k ∧
      t.rd (.mot .hstate) k = 4 ∧ (t.axis k).plan = .stop := by
  obtain ⟨hlc, hla⟩ := State.homeLatch_spec hk (s.cmdpos k) (s.actpos k)
  have hw : k < ((s.homeLatch k (s.cmdpos k) (s.actpos k)).setAxis k { s.axis k with committed := true }).hw.axes := by
    rwa [State.setAxis_hw, State.homeLatch_hw]
  obtain ⟨hst', hplan, -, hrd⟩ := State.homeDecel_spec hw
  refine ⟨_, exec_indexEdge hk hu he hh hst, ?_⟩
  rw [hrd .hlatch (by decide), hrd .hlatcha (by decide), State.rdS_setAxis, State.rdS_setAxis, hlc, hla]
  exact ⟨toSigned_ofSigned_toSigned (by decide) _, toSigned_ofSigned_toSigned (by decide) _, hst', hplan⟩

end Inputs

/-- Settles O35: each input is the equation of its command, read field by field. -/
theorem axisInputsAct : Obligations.AxisInputsAct := by
  refine ⟨fun s k hk hu => ⟨fun v hv hr => latchArm_runs hk hu hv hr, fun i hi ha => latchEdge_runs hk hu hi ha, fun i hi ha => ?_,
      fun he ht hm => ?_, fun hno => ?_, fun he ht h1 h2 fwd => ⟨fun hm => ?_, encoderEdge_runs hk hu he ht h1 h2 fwd⟩,
      fun pos hp hh => ⟨limitActive_stops hk hu hp hh, limitActive_shows hk hu hh⟩,
      fun pos hh => ⟨limitActive_ends_homing hk hu hh, fun hhome => ?_⟩, exec_limitInactive hk hu⟩,
    fun s k hk hu hh => ⟨fun hst h3 h5 hc => ⟨fun a ha hedge => ?_, fun a ha hedge hcand => ?_,
      fun c a hcand => homeQualified_runs hk hu hh hst hcand⟩, fun hst he => indexEdge_runs hk hu he hh hst⟩⟩
  · rw [exec_latchEdge hk hu hi, ha]
    rfl
  · rw [exec_encoderError hk, (State.counts_iff hk hu).2 ⟨he, ht⟩, if_pos (by simpa using hm)]
  · have hnot : ¬(s.counts k && s.rd (.mot .encMode) k != 1) = true := by
      rw [Bool.and_eq_true, State.counts_iff hk hu]
      rintro ⟨⟨he, ht⟩, hm⟩
      rcases hno with h | h | h
      · simp [h] at he
      · omega
      · simp [h] at hm
    rw [exec_encoderError hk, if_neg hnot]
  · obtain ⟨t, ht', hpos, -⟩ := encoderEdge_runs hk hu he ht h1 h2 fwd
    refine ⟨t, ht', ?_⟩
    rw [hpos, encoderStep, if_pos hm]
  · rw [exec_limitActive hk hu, hhome, if_pos rfl]
    rfl
  · rw [exec_homeRawEdge hk hu hh hst h3 h5 hc ha, if_pos (by simpa using hedge)]
    exact ⟨_, rfl, by rw [State.axis_setAxis_same], by rw [State.setAxis_regs, State.setAxis_regs]⟩
  · rw [exec_homeRawEdge hk hu hh hst h3 h5 hc ha, if_neg (by simpa using hedge), (s.rawNoted_cases k a).2, if_pos hcand]
    refine ⟨_, rfl, by rw [State.count_eq, State.axis_wr, State.axis_setAxis_same], ?_⟩
    have hw : k < ((s.setAxis k (s.rawNoted k a)).setAxis k { s.rawNoted k a with cand := none }).hw.axes := hk
    rw [State.rd_count_axis hw rfl, State.rd_setAxis, State.rd_setAxis]
    rfl

end Sys2Proof.Machine

/-! PROOFS. The statements on the control engine: how the slot commands run, and what an execution of a slot leaves. -/

namespace Sys2Proof.Machine

open Sys2Proof

/-! ### The fields of a slot (R2, R232) -/

/-- A field that the control engine has once, or once for each slot. -/
def CleF.ofSlot (f : CleF) : Bool := f.row.n2 * f.row.n3 == 1

theorem Hardware.slots_le (h : Hardware) : h.slots ≤ 128 := by unfold Hardware.slots; split <;> decide

theorem populated_cle {hw : Hardware} {n : Nat} (hn : n < hw.slots) {f : CleF} (hf : CleF.ofSlot f = true) :
    populated hw (.cle f) n = true := by
  have hf : (Fld.cle f).row.n2 * (Fld.cle f).row.n3 = 1 := eq_of_beq hf
  have ho : (Fld.cle f).outer n = n := by rw [Fld.outer, hf, Nat.div_one]
  simp [populated, ho, hn]

theorem State.rd_wr_cle_ne (s : State) {f g : CleF} (h : g ≠ f) (i j v : Nat) :
    (s.wr (.cle f) i v).rd (.cle g) j = s.rd (.cle g) j :=
  s.rd_wr_ne (fun e => h (Fld.cle.inj (Prod.mk.inj e).1)) v

/-- A field of a populated slot reads what was last written to it; the slot's other fields are unchanged. -/
theorem State.rd_wr_slot {s : State} {n : Nat} (hn : n < s.hw.slots) {f : CleF} (hf : CleF.ofSlot f = true) (g : CleF) (v : Nat) :
    (s.wr (.cle f) n v).rd (.cle g) n = if g = f then v % 2 ^ f.row.width else s.rd (.cle g) n := by
  split
  · next hg => exact hg ▸ State.rd_wr_same s (populated_cle hn hf) v
  · next hg => exact s.rd_wr_cle_ne hg ..

theorem State.rd_ev_slot {s : State} {n : Nat} (hn : n < s.hw.slots) {f : CleF} (hf : CleF.ofSlot f = true) :
    (s.ev (.cle f) n).rd (.cle f) n = 1 % 2 ^ f.row.width := State.rd_wr_same s (populated_cle hn hf) 1

theorem State.rd_wrS_slot {s : State} {n : Nat} (hn : n < s.hw.slots) {f : CleF} (hf : CleF.ofSlot f = true) (z : Int) :
    (s.wrS (.cle f) n z).rd (.cle f) n = ofSigned f.row.width z :=
  (State.rd_wr_same s (populated_cle hn hf) _).trans (Nat.mod_eq_of_lt (ofSigned_lt ..))

@[simp] theorem State.slotSt_setSlot (s : State) (n m : Nat) (x : Slot) : (s.setSlot n x).slotSt m = s.slotSt m := rfl

@[simp] theorem State.decisionOpen_setSlot (s : State) (n kind unit : Nat) (x : Slot) :
    (s.setSlot n x).decisionOpen kind unit = s.decisionOpen kind unit := rfl

@[simp] theorem State.clr_hw (s : State) (f : Fld) (i : Nat) : (s.clr f i).hw = s.hw := s.wr_hw ..
@[simp] theorem State.slot_clr (s : State) (f : Fld) (i n : Nat) : (s.clr f i).slot n = s.slot n := s.slot_wr ..
@[simp] theorem State.slot_ev (s : State) (f : Fld) (i n : Nat) : (s.ev f i).slot n = s.slot n := s.slot_wr ..

/-! ### Heater gates that settle (R261, R267, R268) -/

section Gates

variable (s : State)

/-- The gates settle in their levels, their burst counts and the outputs alone. -/
theorem State.settleHeaters_unchanged {β : Type} {π : State → β} (hgate : ∀ (t : State) g v, π (t.wr (.fhv .gate) g v) = π t)
    (hemit : ∀ (t : State) o, π (t.emit o) = π t) (hheat : ∀ (t : State) g x, π (t.setHeater g x) = π t) :
    π s.settleHeaters = π s := by
  refine foldl_unchanged (fun t g => ?_) _ s
  split
  · rw [hheat, State.setGate]
    split
    · rfl
    · exact (hemit ..).trans (hgate ..)
  · rfl

@[simp] theorem State.settleHeaters_hw : s.settleHeaters.hw = s.hw :=
  s.settleHeaters_unchanged (π := State.hw) (fun _ _ _ => State.wr_hw ..) (fun _ _ => rfl) fun _ _ _ => rfl

@[simp] theorem State.settleHeaters_mbx : s.settleHeaters.mbx = s.mbx :=
  s.settleHeaters_unchanged (π := State.mbx) (fun _ _ _ => State.wr_mbx ..) (fun _ _ => rfl) fun _ _ _ => rfl

@[simp] theorem State.slot_settleHeaters (n : Nat) : s.settleHeaters.slot n = s.slot n :=
  s.settleHeaters_unchanged (π := (State.slot · n)) (fun _ _ _ => State.slot_wr ..) (fun _ _ => rfl) fun _ _ _ => rfl

@[simp] theorem State.rd_cle_settleHeaters (f : CleF) (i : Nat) : s.settleHeaters.rd (.cle f) i = s.rd (.cle f) i :=
  s.settleHeaters_unchanged (π := (State.rd · (.cle f) i)) (fun t _ v => t.rd_wr_ne (by simp) v) (fun _ _ => rfl) fun _ _ _ => rfl

end Gates

/-! ### Entering a state (R245, R250, R254) -/

section SlotState

variable (s : State) (n st : Nat)

@[simp] theorem State.setSlotSt_hw : (s.setSlotSt n st).hw = s.hw := by
  unfold State.setSlotSt
  rw [State.settleHeaters_hw]
  split <;> split <;> simp [State.closeDecision]

@[simp] theorem State.slot_setSlotSt (m : Nat) : (s.setSlotSt n st).slot m = s.slot m := by
  have hclose (t : State) : (t.closeDecision 4 n).slot m = t.slot m := rfl
  unfold State.setSlotSt
  rw [State.slot_settleHeaters]
  split <;> split <;> simp [hclose]

/-- Outside AUTO and MANUAL no injection runs, and outside FALLBACK no RESUME waits. -/
theorem State.rd_setSlotSt {s : State} {n : Nat} (hn : n < s.hw.slots) (f : CleF) :
    (s.setSlotSt n st).rd (.cle f) n =
      if f = .resumePend ∧ st ≠ 3 then 0
      else if f = .injAct ∧ ¬(st = 1 ∨ st = 2) then 0
      else if f = .state then st % 8 else s.rd (.cle f) n := by
  have hst : (s.wr (.cle .state) n st).rd (.cle f) n = if f = .state then st % 8 else s.rd (.cle f) n :=
    State.rd_wr_slot hn rfl f st
  unfold State.setSlotSt
  rw [State.rd_cle_settleHeaters, ← hst]
  by_cases hi : st = 1 ∨ st = 2
  · rcases hi with rfl | rfl <;> simp [State.rd_clr]
  · by_cases hf : st = 3 <;> simp [not_or.1 hi, hf, State.rd_clr]

theorem State.slotSt_setSlotSt {s : State} {n : Nat} (hn : n < s.hw.slots) : (s.setSlotSt n st).slotSt n = st % 8 :=
  (State.rd_setSlotSt st hn .state).trans (by simp)

/-- Outside FALLBACK no decision of the slot is open (R436). -/
theorem State.decisionOpen_setSlotSt (h : st ≠ 3) : (s.setSlotSt n st).decisionOpen 4 n = false := by
  unfold State.setSlotSt State.decisionOpen
  rw [State.settleHeaters_mbx, if_neg h]
  simp +contextual [State.closeDecision, or_iff_not_imp_left]

end SlotState

/-! ### Commands that reach a slot (R232, R245) -/

section Reached

variable {s : State} {n : Nat} (h : s.Reaches .cle 0)

include h

/-- A slot command reaches CLE as a host write, on a slot of any die. -/
theorem State.Reaches.exec_slotCommand (hn : n < 128) (f : State → State) :
    guardWF (decide (n < 128)) (s.hostWrite .cle 0 fun t => t.slotCommand n f) = .next (s.slotCommand n f) := by
  rw [decide_eq_true hn, guardWF_true, State.hostWrite_of_reaches h]

theorem State.Reaches.slotCommand (f : State → State) : s.slotCommand n f =
    if s.on (.cle .slotEn) n = false then s.slotRefuse n 2 else if s.imageRuns = false then s.slotRefuse n 5 else f s := by
  have hup : s.up .ctl = true := h.up (by decide) (by decide)
  unfold State.slotCommand
  rw [hup]
  cases s.on (.cle .slotEn) n <;> cases s.imageRuns <;> rfl

end Reached

/-- The slot commands of R245 to R254. -/
def slotCommands (n : Nat) : List Instr :=
  [.slotOff n, .slotManual n, .slotAuto n, .slotPreset n, .slotCommit n, .slotResume n, .slotClear n, .injStart n, .injStop n,
    .slotStay n, .slotStop n]

/-- Each of them passes the checks of `State.slotCommand`. -/
theorem exec_of_mem_slotCommands {i : Instr} {n : Nat} (hi : i ∈ slotCommands n) : ∃ f : State → State, ∀ s,
    exec i s = guardWF (decide (n < 128)) (s.hostWrite .cle 0 fun t => t.slotCommand n f) := by
  simp only [slotCommands, List.mem_cons, List.not_mem_nil, or_false] at hi
  rcases hi with rfl | rfl | rfl | rfl | rfl | rfl | rfl | rfl | rfl | rfl | rfl <;> exact ⟨_, fun _ => rfl⟩

section Open

variable {s : State} {n : Nat} (h : s.SlotOpen n)

include h

theorem State.SlotOpen.exec_slotCommand (f : State → State) :
    guardWF (decide (n < 128)) (s.hostWrite .cle 0 fun t => t.slotCommand n f) = .next (f s) := by
  rw [h.reaches.exec_slotCommand (Nat.lt_of_lt_of_le h.slot s.hw.slots_le), h.reaches.slotCommand, h.enabled, h.image]
  rfl

theorem State.SlotOpen.exec_slotOff : exec (.slotOff n) s = .next
    (if s.slotSt n ≤ 3 then ((s.setSlotSt n 0).clr (.cle .initPend) n).setSlot n
       { s.slot n with req := .none, preset := false, held := false, last := s.rdS (.cle .usafe) n }
     else s.slotRefuse n 1) := h.exec_slotCommand _

theorem State.SlotOpen.exec_slotManual : exec (.slotManual n) s = .next
    (if s.slotSt n = 0 then
       if s.initWaits n then (s.ev (.cle .initPend) n).setSlot n { s.slot n with req := .manual, bound := false }
       else (s.setSlotSt n 1).setSlot n
         { s.slot n with req := .none, returned := false, suspects := 0, last := s.rdS (.cle .usafe) n }
     else if s.slotSt n = 2 then
       ((s.wrS (.cle .uman) n (s.slot n).last).setSlotSt n 1).setSlot n { s.slot n with preset := false }
     else s.slotRefuse n 1) := by
  refine (h.exec_slotCommand _).trans (congrArg _ ?_)
  dsimp only
  split
  · next h0 => rw [if_pos h0]
  · next h2 => rw [if_neg (by omega), if_pos h2]
  · next h0 h2 => rw [if_neg h0, if_neg h2]

theorem State.SlotOpen.exec_slotAuto : exec (.slotAuto n) s = .next
    (if s.slotSt n = 0 ∨ s.slotSt n = 1 then
       let t := if s.slotSt n = 0 ∧ s.initWaits n then s.ev (.cle .initPend) n else s
       t.setSlot n { t.slot n with req := .auto, bound := false }
     else s.slotRefuse n 1) := h.exec_slotCommand _

theorem State.SlotOpen.exec_slotPreset : exec (.slotPreset n) s = .next
    (if s.slotSt n = 2 then s.setSlot n { s.slot n with preset := true } else s.slotRefuse n 1) := h.exec_slotCommand _

theorem State.SlotOpen.exec_slotCommit : exec (.slotCommit n) s = .next
    (if s.slotSt n = 5 then s.slotRefuse n 1
     else if s.rdS (.cle .umax) n < s.rdS (.cle .umin) n then s.slotRefuse n 6
     else s.setSlot n { s.slot n with commit := true }) := h.exec_slotCommand _

theorem State.SlotOpen.exec_slotResume : exec (.slotResume n) s = .next
    (if s.slotSt n ≠ 3 then s.slotRefuse n 1
     else if 2 * s.rd (.cle .pn) n ≤ (s.slot n).good ∧
         (s.rdS (.cle .yOut) n - s.rdS (.cle .ymOut) n).natAbs ≤ 4 * s.rd (.cle .plim) n * 32768 then
       (s.ev (.cle .resumePend) n).setSlot n { s.slot n with bound := false }
     else s.slotRefuse n 4) := h.exec_slotCommand _

theorem State.SlotOpen.exec_slotClear : exec (.slotClear n) s = .next
    (if s.slotSt n = 4 ∧ !s.on (.cle .pfailEv) n ∧ !s.on (.cle .fbtoEv) n ∧ !s.on (.cle .satEv) n then
       (s.setSlotSt n 0).setSlot n { s.slot n with held := false }
     else s.slotRefuse n 1) := h.exec_slotCommand _

theorem State.SlotOpen.exec_injStart : exec (.injStart n) s = .next
    (if s.ldr.st = .armed then s.slotRefuse n 3
     else if s.slotSt n = 2 ∨ (s.slotSt n = 1 ∧ s.rd (.cle .injPoint) n = 1) then
       (s.ev (.cle .injAct) n).setSlot n { s.slot n with injK := 0, lfsr := 32767 }
     else s.slotRefuse n 1) := h.exec_slotCommand _

theorem State.SlotOpen.exec_injStop : exec (.injStop n) s = .next (s.clr (.cle .injAct) n) := h.exec_slotCommand _

theorem State.SlotOpen.exec_slotStay : exec (.slotStay n) s = .next
    (if s.decisionPosted 4 n then s.closeDecision 4 n else s.slotRefuse n 1) := h.exec_slotCommand _

theorem State.SlotOpen.exec_slotStop : exec (.slotStop n) s = .next
    (if s.decisionPosted 4 n then (s.setSlotSt n 4).setSlot n { s.slot n with held := false } else s.slotRefuse n 1) :=
  h.exec_slotCommand _

end Open

/-! ### What the commands do (O37: R245 to R247, R250, R251, R254) -/

section Runs

variable {s : State} {n : Nat} (h : s.SlotOpen n)

include h

theorem State.SlotOpen.slotOff_runs (hst : s.slotSt n ≤ 3) : ∃ t, exec (.slotOff n) s = .next t ∧ t.slotSt n = 0 ∧
    (t.slot n).req = .none ∧ (t.slot n).last = s.rdS (.cle .usafe) n ∧ t.rd (.cle .injAct) n = 0 := by
  rw [h.exec_slotOff, if_pos hst]
  simp [State.slotSt, State.rd_clr, State.rd_setSlotSt _ h.slot]

theorem State.SlotOpen.slotManual_fromOff (h0 : s.slotSt n = 0) (hw : s.initWaits n = false) :
    ∃ t, exec (.slotManual n) s = .next t ∧ t.slotSt n = 1 ∧ (t.slot n).last = s.rdS (.cle .usafe) n := by
  rw [h.exec_slotManual, if_pos h0, hw]
  exact ⟨_, rfl, by simp [State.slotSt_setSlotSt 1 h.slot], by simp⟩

theorem State.SlotOpen.slotManual_waits (h0 : s.slotSt n = 0) (hw : s.initWaits n = true) :
    ∃ t, exec (.slotManual n) s = .next t ∧ t.slotSt n = 0 ∧ (t.slot n).req = .manual ∧ t.rd (.cle .initPend) n = 1 := by
  rw [h.exec_slotManual, if_pos h0, if_pos hw]
  exact ⟨_, rfl, (s.rd_wr_cle_ne (by decide) ..).trans h0, by simp, State.rd_ev_slot h.slot rfl⟩

theorem State.SlotOpen.slotManual_fromAuto (h2 : s.slotSt n = 2) : ∃ t, exec (.slotManual n) s = .next t ∧ t.slotSt n = 1 ∧
    t.rd (.cle .uman) n = ofSigned 32 (s.slot n).last ∧ (t.slot n).last = (s.slot n).last := by
  have hn : n < (s.wrS (.cle .uman) n (s.slot n).last).hw.slots := by simpa using h.slot
  rw [h.exec_slotManual, if_neg (by omega), if_pos h2]
  refine ⟨_, rfl, by simp [State.slotSt_setSlotSt 1 hn], ?_, by simp⟩
  rw [State.rd_setSlot, State.rd_setSlotSt 1 hn]
  exact State.rd_wrS_slot h.slot rfl _

theorem State.SlotOpen.slotAuto_waits (h01 : s.slotSt n = 0 ∨ s.slotSt n = 1) :
    ∃ t, exec (.slotAuto n) s = .next t ∧ (t.slot n).req = .auto ∧ t.slotSt n = s.slotSt n := by
  rw [h.exec_slotAuto, if_pos h01]
  refine ⟨_, rfl, by simp, ?_⟩
  dsimp only
  split
  · exact s.rd_wr_cle_ne (by decide) ..
  · rfl

theorem State.SlotOpen.slotClear_runs (h4 : s.slotSt n = 4) (hp : s.on (.cle .pfailEv) n = false) (hf : s.on (.cle .fbtoEv) n = false)
    (hs : s.on (.cle .satEv) n = false) : ∃ t, exec (.slotClear n) s = .next t ∧ t.slotSt n = 0 ∧ (t.slot n).held = false := by
  rw [h.exec_slotClear, if_pos (by simp [h4, hp, hf, hs])]
  exact ⟨_, rfl, by simp [State.slotSt_setSlotSt 0 h.slot], by simp⟩

theorem State.SlotOpen.injStart_runs (ha : s.ldr.st ≠ .armed) (hst : s.slotSt n = 2 ∨ s.slotSt n = 1 ∧ s.rd (.cle .injPoint) n = 1) :
    ∃ t, exec (.injStart n) s = .next t ∧ t.rd (.cle .injAct) n = 1 ∧ (t.slot n).injK = 0 ∧ (t.slot n).lfsr = 32767 := by
  rw [h.exec_injStart, if_neg ha, if_pos hst]
  exact ⟨_, rfl, State.rd_ev_slot h.slot rfl, by simp, by simp⟩

theorem State.SlotOpen.slotStop_runs (hd : s.decisionPosted 4 n = true) :
    ∃ t, exec (.slotStop n) s = .next t ∧ t.slotSt n = 4 ∧ t.decisionOpen 4 n = false := by
  rw [h.exec_slotStop, if_pos hd]
  exact ⟨_, rfl, by simp [State.slotSt_setSlotSt 4 h.slot], by simp [State.decisionOpen_setSlotSt]⟩

end Runs

theorem mem_ite_singletons {α : Type} {p q : Prop} [Decidable p] [Decidable q] {a b x : α} :
    x ∈ (if p then [a] else if q then [b] else []) ↔ p ∧ x = a ∨ ¬p ∧ q ∧ x = b := by
  split
  · next hp => simp [hp]
  · next hp => simp [hp, List.mem_ite_nil_right]

/-- Settles O37: each command is its chain of refusals, and what is left has its effect. -/
theorem slotCommandsRun : Obligations.SlotCommandsRun := by
  refine ⟨fun s n h => ⟨h.slotOff_runs, h.slotManual_fromOff, h.slotManual_waits, h.slotManual_fromAuto, h.slotAuto_waits,
      fun h2 => ?_, fun h5 hu => ?_, fun h3 hg hd => ?_, h.slotClear_runs, h.injStart_runs, h.exec_injStop,
      fun hd => ⟨?_, h.slotStop_runs hd⟩⟩,
    fun s n i cause h hi => ?_, fun s n i hr hn hi => ?_⟩
  · rw [h.exec_slotPreset, if_pos h2]
  · rw [h.exec_slotCommit, if_neg h5, if_neg (by omega)]
  · rw [h.exec_slotResume, if_neg (by omega), if_pos ⟨hg, hd⟩]
    rfl
  · rw [h.exec_slotStay, if_pos hd]
  · simp only [List.mem_append, mem_ite_singletons, List.mem_ite_nil_right, List.mem_cons, List.not_mem_nil, or_false,
      Prod.mk.injEq] at hi
    rcases hi with (((((((⟨h4, rfl, rfl⟩ | ⟨⟨h0, h2⟩, rfl, rfl⟩) | ⟨h2, rfl, rfl⟩) | ⟨h2, rfl, rfl⟩) |
      ⟨h5, rfl, rfl⟩ | ⟨h5, hu, rfl, rfl⟩) | ⟨h3, rfl, rfl⟩ | ⟨h3, hg, rfl, rfl⟩) | ⟨hc, rfl, rfl⟩) |
      ⟨ha, rfl, rfl⟩ | ⟨ha, hst, rfl, rfl⟩) | ⟨hd, ⟨rfl, rfl⟩ | ⟨rfl, rfl⟩⟩
    · rw [h.exec_slotOff, if_neg (by omega)]; rfl
    · rw [h.exec_slotManual, if_neg h0, if_neg h2]; rfl
    · rw [h.exec_slotAuto, if_neg (by omega)]; rfl
    · rw [h.exec_slotPreset, if_neg h2]; rfl
    · rw [h.exec_slotCommit, if_pos h5]; rfl
    · rw [h.exec_slotCommit, if_neg h5, if_pos hu]; rfl
    · rw [h.exec_slotResume, if_pos h3]; rfl
    · rw [h.exec_slotResume, if_neg h3, if_neg (by omega)]; rfl
    · rw [h.exec_slotClear, if_neg ?_]
      · rfl
      · rcases hc with h4 | he | he | he <;> simp [*]
    · rw [h.exec_injStart, if_pos ha]; rfl
    · rw [h.exec_injStart, if_neg ha, if_neg (by omega)]; rfl
    · rw [h.exec_slotStay, if_neg (by simp [hd])]; rfl
    · rw [h.exec_slotStop, if_neg (by simp [hd])]; rfl
  · obtain ⟨f, hf⟩ := exec_of_mem_slotCommands hi
    rw [hf, hr.exec_slotCommand hn, hr.slotCommand]
    exact ⟨fun he => by rw [if_pos he]; rfl, fun he hi => by rw [if_neg (by simp [he]), if_pos hi]; rfl⟩

/-! ### What most steps of an execution leave alone (R242) -/

/-- The fields of a slot by which an execution is told: its state, its limits and its output. -/
def toldFields : List CleF := [.state, .usafe, .umin, .umax, .uOut]

/-- `s` shows slot `n` as `a` does: its module, its told fields as written and in force, the command that waits, whether its output
is held, and the executions so far. -/
structure SlotKept (n : Nat) (a s : State) : Prop where
  hw : s.hw = a.hw
  live : s.live = a.live
  rd : ∀ f ∈ toldFields, s.rd (.cle f) n = a.rd (.cle f) n
  req : (s.slot n).req = (a.slot n).req
  commit : (s.slot n).commit = (a.slot n).commit
  held : (s.slot n).held = (a.slot n).held
  runs : (s.slot n).runs = (a.slot n).runs

theorem SlotKept.refl (n : Nat) (a : State) : SlotKept n a a := ⟨rfl, rfl, fun _ _ => rfl, rfl, rfl, rfl, rfl⟩

section Kept

variable {n : Nat} {a s : State} (h : SlotKept n a s)

include h

theorem SlotKept.trans {t : State} (g : SlotKept n s t) : SlotKept n a t where
  hw := g.hw.trans h.hw
  live := g.live.trans h.live
  rd f hf := (g.rd f hf).trans (h.rd f hf)
  req := g.req.trans h.req
  commit := g.commit.trans h.commit
  held := g.held.trans h.held
  runs := g.runs.trans h.runs

theorem SlotKept.slotSt : s.slotSt n = a.slotSt n := h.rd .state (by decide)

theorem SlotKept.rdS {f : CleF} (hf : f ∈ toldFields) : s.rdS (.cle f) n = a.rdS (.cle f) n := congrArg (toSigned _) (h.rd f hf)

theorem SlotKept.lvS {f : CleF} (hf : f ∈ toldFields) : s.lvS (.cle f) n = a.lvS (.cle f) n := by
  unfold State.lvS State.lv
  rw [h.live, h.rd f hf]

theorem SlotKept.ite {t : State} {p : Prop} [Decidable p] (g : SlotKept n a t) : SlotKept n a (if p then s else t) := by
  split
  · exact h
  · exact g

theorem SlotKept.wr {f : Fld} (hf : f ∉ toldFields.map Fld.cle) (i v : Nat) : SlotKept n a (s.wr f i v) where
  hw := (s.wr_hw ..).trans h.hw
  live := (s.wr_live ..).trans h.live
  rd g hg := (s.rd_wr_ne (fun e => hf (List.mem_map.2 ⟨g, hg, (Prod.mk.inj e).1⟩)) v).trans (h.rd g hg)
  req := by rw [State.slot_wr, h.req]
  commit := by rw [State.slot_wr, h.commit]
  held := by rw [State.slot_wr, h.held]
  runs := by rw [State.slot_wr, h.runs]

theorem SlotKept.setSlot {x : Slot} (hreq : x.req = (a.slot n).req) (hcommit : x.commit = (a.slot n).commit)
    (hheld : x.held = (a.slot n).held) (hruns : x.runs = (a.slot n).runs) : SlotKept n a (s.setSlot n x) where
  hw := h.hw
  live := h.live
  rd := h.rd
  req := by rw [State.slot_setSlot_same, hreq]
  commit := by rw [State.slot_setSlot_same, hcommit]
  held := by rw [State.slot_setSlot_same, hheld]
  runs := by rw [State.slot_setSlot_same, hruns]

theorem SlotKept.freshIf (need : Bool) (w : Nat) : SlotKept n a (s.freshIf need w).2 := by
  unfold State.freshIf
  split
  · exact ⟨h.hw, h.live, h.rd, h.req, h.commit, h.held, h.runs⟩
  · exact h

theorem SlotKept.notchIf (here : Bool) (x : Int) : SlotKept n a (s.notchIf here n x).2 := by
  unfold State.notchIf State.notch
  split
  · split
    · exact h
    · exact h.wr (by decide) ..
    · exact h.setSlot h.req h.commit h.held h.runs
  · exact h

theorem SlotKept.presetI (target rest : Int) : SlotKept n a (s.presetI n target rest) := by
  unfold State.presetI
  extract_lets want i t
  have ht : SlotKept n a t := h.wr (by decide) ..
  exact ht.ite (ht.wr (by decide) ..)

theorem SlotKept.post (kind unit : Nat) (data : List Nat) : SlotKept n a (s.post kind unit data) := by
  have hm (o : List Out) (p : Pcie) (m : Mbx) : SlotKept n a { s with out := o, pcie := p, mbx := m } :=
    ⟨h.hw, h.live, h.rd, h.req, h.commit, h.held, h.runs⟩
  unfold State.post
  extract_lets m wait
  have hw : SlotKept n a wait := hm ..
  split
  · exact h.ite hw
  · next p _ =>
    obtain ⟨o, pc, tk, ds, e⟩ := s.enqueue_eq p kind unit data
    rw [e]
    exact (hm ..).ite ((h.wr (by decide) ..).ite hw)

theorem SlotKept.pwmDrive (m : Nat) (duty : Int) : SlotKept n a (s.pwmDrive m duty) := by
  unfold State.pwmDrive
  split
  · exact ⟨h.hw, h.live, h.rd, h.req, h.commit, h.held, h.runs⟩
  · exact h

theorem SlotKept.captureDone : SlotKept n a s.captureDone :=
  (h.wr (f := .cle .cstate) (by decide) 0 3).wr (f := .cle .capDoneEv) (by decide) 0 1

theorem SlotKept.captureStep (trig : Bool) : SlotKept n a (s.captureStep trig) := by
  unfold State.captureStep
  extract_lets st c row idx now after c' sampled triggered pre
  have hs : SlotKept n a sampled := ⟨h.hw, h.live, h.rd, h.req, h.commit, h.held, h.runs⟩
  have ht : SlotKept n a triggered := (((hs.wr (by decide) ..).wr (by decide) ..).wr (by decide) ..).ite hs
  clear_value after
  refine SlotKept.ite ?_ h
  split
  · exact (ht.wr (by decide) ..).captureDone.ite (ht.wr (by decide) ..)
  · exact ht.wr (by decide) ..

end Kept

/-! ### The steps of an execution (R242) -/

section Steps

variable (s : State) (n : Nat)

/-- A COMMIT that waits takes effect (R247). -/
def State.shadowTaken (s : State) (n : Nat) : State :=
  if (s.slot n).commit then
    (s.release fun f i => isShadow f && i == n).setSlot n { s.slot n with notchNew := true }
  else s

theorem State.slotInput_kept (ain : Nat) : SlotKept n (s.shadowTaken n) (s.slotInput n ain).2 := by
  unfold State.slotInput
  extract_lets com x₀ t raw x age stale valid counted y0 taken q
  have ht : SlotKept n t t := .refl n t
  have hcounted : SlotKept n t counted := (((ht.wr (by decide) ..).wr (by decide) ..).wr (by decide) ..).ite ht
  have htaken : SlotKept n t taken := hcounted.setSlot rfl rfl rfl rfl
  exact htaken.notchIf ..

theorem State.slotAim_kept (q : SlotRead) : SlotKept n s (s.slotAim n q).2 := by
  unfold State.slotAim
  extract_lets st dur running inj0 ff2 goal x rate o t ramp r ff resid plim beyond entering suspect suspects counted judged injecting
    inj p final
  have ht : SlotKept n s t := (SlotKept.refl n s).freshIf ..
  have hcounted : SlotKept n s counted := (ht.wr (by decide) ..).ite ht
  exact ((hcounted.wr (by decide) ..).wr (by decide) ..).setSlot rfl rfl rfl rfl

/-- Only an AUTO that waits enters. -/
theorem State.slotAim_entering (q : SlotRead) (hreq : (s.slot n).req = .none) : (s.slotAim n q).1.entering = false := by
  have hkept : SlotKept n s (s.freshIf (decide (s.lvS (.cle .sprate) n < 0)) 32).2 := (SlotKept.refl n s).freshIf ..
  show State.slotEnters _ n = false
  simp [State.slotEnters, hkept.req, hreq]

/-- In OFF and MANUAL, with no command that waits, an execution changes no state. -/
theorem State.slotTurn_kept (q : SlotRead) {a : SlotAim} (hst : s.slotSt n ≤ 1) (hreq : (s.slot n).req = .none)
    (ha : a.entering = false) : SlotKept n s (s.slotTurn n q a).2 := by
  have h3 : (s.slotSt n == 3) = false := beq_false_of_ne (by omega)
  have h2 : (s.slotSt n == 2) = false := beq_false_of_ne (by omega)
  unfold State.slotTurn
  extract_lets x cleared back enter target fromOff _ noted p y passed _ _ _ _ entered _ _ waited failed fell _ _ _ _ _ turned
  have hcleared : cleared = s := if_neg (by simp [h3])
  have henter : enter = false := by simp [enter, back, State.slotResumes, hcleared, h3, ha]
  have hentered : entered = s := by simp [entered, passed, p, noted, henter, hcleared]
  have hwaited : waited = s := by simp [waited, hentered, x, hreq]
  have hfailed : SlotKept n s failed := by
    unfold failed
    rw [hwaited]
    exact (((SlotKept.refl n s).wr (by decide) ..).wr (by decide) ..).ite (.refl n s)
  have hfell : fell = false := by simp [fell, hfailed.slotSt, h2]
  have hturned : turned = failed := if_neg (by simp [hfell])
  show SlotKept n s turned
  exact hturned ▸ hfailed

theorem State.slotTurn_runs (q : SlotRead) (a : SlotAim) : ((s.slotTurn n q a).2.slot n).runs = (s.slot n).runs := by
  unfold State.slotTurn
  extract_lets x cleared back enter target fromOff w₁ noted p y passed _ _ auto w₂ entered manual w₃ waited failed fell lost fallback w₄
    fault w₅ turned
  have hcleared : (cleared.slot n).runs = (s.slot n).runs := by unfold cleared; split <;> simp
  have hnoted : (noted.slot n).runs = (cleared.slot n).runs := by unfold noted; split <;> simp [w₁]
  have hpassed : (passed.slot n).runs = (noted.slot n).runs := by
    unfold passed p
    split
    · exact ((SlotKept.refl n noted).notchIf ..).runs
    · rfl
  have hentered : (entered.slot n).runs = (passed.slot n).runs := by unfold entered; split <;> simp [w₂, auto]
  have hwaited : (waited.slot n).runs = (entered.slot n).runs := by unfold waited; split <;> simp [w₃, manual]
  have hfailed : (failed.slot n).runs = (waited.slot n).runs := by unfold failed; split <;> simp
  have hturned : (turned.slot n).runs = (failed.slot n).runs := by
    unfold turned
    split
    · split
      · simp [w₄, fallback, lost]
      · simp [w₅, fault, lost]
    · rfl
  exact hturned.trans (hfailed.trans (hwaited.trans (hentered.trans (hpassed.trans (hnoted.trans hcleared)))))

theorem State.slotLaw_kept (q : SlotRead) (a : SlotAim) (w : SlotTurn) : SlotKept n s (s.slotLaw n q a w).2 := by
  have hs := SlotKept.refl n s
  unfold State.slotLaw
  extract_lets x st umin umax e law yfNew yf rest fbRest byFb pre i₀ v₀ t i idle u0 p v u1 ur o t' u2 u
  have ht : SlotKept n s t := by
    refine (hs.presetI ..).ite <| (hs.presetI ..).ite <| (hs.presetI ..).ite <| (hs.presetI ..).ite <| SlotKept.ite ?_ hs
    exact hs.ite (hs.wr (by decide) ..)
  exact (ht.notchIf ..).freshIf ..

/-- In MANUAL the output is held within its limits in force. -/
theorem State.slotLaw_manual {q : SlotRead} (a : SlotAim) (w : SlotTurn) (h1 : s.slotSt n = 1) (hq : q.com = false) :
    ∃ z, (s.slotLaw n q a w).1.u = clampInt z (s.lvS (.cle .umin) n) (s.lvS (.cle .umax) n) := by
  unfold State.slotLaw
  extract_lets x st umin umax e law yfNew yf rest fbRest byFb pre i₀ v₀ t i idle u0 p v u1 ur o t' u2 u
  have hidle : idle = false := by simp [idle, st, h1]
  refine ⟨u2, ?_⟩
  show u = _
  simp [u, hidle, hq, umin, umax]

/-- In OFF the output is USAFE, unless it is held. -/
theorem State.slotLaw_off (q : SlotRead) (a : SlotAim) (w : SlotTurn) (h0 : s.slotSt n = 0) (hheld : (s.slot n).held = false) :
    (s.slotLaw n q a w).1.u = s.rdS (.cle .usafe) n := by
  rw [← (s.slotLaw_kept n q a w).rdS (f := .usafe) (by decide)]
  unfold State.slotLaw
  extract_lets x st umin umax e law yfNew yf rest fbRest byFb pre i₀ v₀ t i idle u0 p v u1 ur o t' u2 u
  have hidle : idle = true := by simp [idle, st, h0]
  show u = _
  simp [u, hidle, x, hheld, t']

/-- The last steps of an execution show its output and count it. -/
theorem State.slotFinish_shows {s : State} {n : Nat} (hn : n < s.hw.slots) (q : SlotRead) (a : SlotAim) (w : SlotTurn) (l : SlotLaw) :
    ∃ shown, SlotKept n shown (s.slotFinish n q a w l) ∧ (shown.slot n).runs = (s.slot n).runs + 1 ∧ shown.slotSt n = s.slotSt n ∧
      shown.rd (.cle .uOut) n = ofSigned 32 l.u := by
  unfold State.slotFinish
  extract_lets st ym atLim run satNow told judged x counted shown modelled posted timed driven
  have hjudged : SlotKept n s judged := (((SlotKept.refl n s).wr (by decide) ..).ite (.refl n s)).wr (by decide) ..
  have hruns : (counted.slot n).runs = (s.slot n).runs + 1 := by
    unfold counted
    rw [State.slot_setSlot_same, ← hjudged.runs]
  have hcounted : counted.hw = s.hw ∧ counted.slotSt n = s.slotSt n := ⟨hjudged.hw, hjudged.slotSt⟩
  clear_value counted
  have he : SlotKept n counted (((counted.wrS (.cle .yOut) n w.y).wrS (.cle .rOut) n a.r).wrS (.cle .eOut) n l.e) :=
    (((SlotKept.refl n counted).wr (by decide) ..).wr (by decide) ..).wr (by decide) ..
  have hshown : (shown.slot n).runs = (s.slot n).runs + 1 ∧ shown.slotSt n = s.slotSt n ∧
      shown.rd (.cle .uOut) n = ofSigned 32 l.u := by
    refine ⟨?_, ?_, State.rd_wrS_slot (he.hw ▸ hcounted.1 ▸ hn) rfl l.u⟩
    · exact (congrArg Slot.runs (State.slot_wr ..)).trans (he.runs.trans hruns)
    · exact (State.rd_wr_cle_ne _ (by decide) ..).trans (he.slotSt.trans hcounted.2)
  clear_value shown
  have hmodelled : SlotKept n shown modelled := ((SlotKept.refl n shown).wr (by decide) ..).wr (by decide) ..
  have hposted : SlotKept n shown posted := (hmodelled.post ..).ite hmodelled
  have htimed : SlotKept n shown timed := (hposted.wr (by decide) ..).ite hposted
  have hdriven : SlotKept n shown driven := htimed.pwmDrive ..
  exact ⟨shown, (hdriven.captureStep _).ite hdriven, hshown⟩

end Steps

/-! ### A whole execution (O38: R232, R242, R245) -/

section Execution

variable {s : State} {n : Nat} (hn : n < s.hw.slots) (ain : Nat)

theorem State.shadowTaken_runs (s : State) (n : Nat) : ((s.shadowTaken n).slot n).runs = (s.slot n).runs := by
  unfold State.shadowTaken
  split <;> simp

include hn

theorem slotRun_runs : ((slotRun n ain s).slot n).runs = (s.slot n).runs + 1 := by
  unfold slotRun
  extract_lets q a w l
  have hkeeps : Keeps true s l.2 :=
    State.slotLaw_keeps (State.slotTurn_keeps (State.slotAim_keeps (State.slotInput_keeps (.refl s) ..) ..) ..) ..
  obtain ⟨shown, hkept, hruns, -, -⟩ := State.slotFinish_shows (s := l.2) (by rwa [hkeeps.hw]) q.1 a.1 w.1 l.1
  calc ((l.2.slotFinish n q.1 a.1 w.1 l.1).slot n).runs = (l.2.slot n).runs + 1 := hkept.runs.trans hruns
    _ = (w.2.slot n).runs + 1 := by rw [(w.2.slotLaw_kept n q.1 a.1 w.1).runs]
    _ = (a.2.slot n).runs + 1 := by rw [a.2.slotTurn_runs]
    _ = (q.2.slot n).runs + 1 := by rw [(q.2.slotAim_kept n q.1).runs]
    _ = (s.slot n).runs + 1 := by rw [(s.slotInput_kept n ain).runs, s.shadowTaken_runs]

/-- With no command that waits, a slot in OFF or MANUAL stays there and puts out what its law gives. -/
theorem slotRun_resting (hst : s.slotSt n ≤ 1) (hreq : (s.slot n).req = .none) (hcom : (s.slot n).commit = false) :
    ∃ (t : State) (q : SlotRead) (a : SlotAim) (w : SlotTurn), SlotKept n s t ∧ q.com = false ∧
      (slotRun n ain s).slotSt n = s.slotSt n ∧ (slotRun n ain s).rd (.cle .uOut) n = ofSigned 32 (t.slotLaw n q a w).1.u := by
  unfold slotRun
  extract_lets q a w l
  have hshadow : s.shadowTaken n = s := if_neg (by simp [hcom])
  have hq : SlotKept n s q.2 := hshadow ▸ s.slotInput_kept n ain
  have ha : SlotKept n s a.2 := hq.trans (q.2.slotAim_kept n q.1)
  have hw : SlotKept n s w.2 := ha.trans (a.2.slotTurn_kept n q.1 (ha.slotSt.trans_le hst) (ha.req.trans hreq)
    (q.2.slotAim_entering n q.1 (hq.req.trans hreq)))
  have hl : SlotKept n s l.2 := hw.trans (w.2.slotLaw_kept n q.1 a.1 w.1)
  obtain ⟨shown, hkept, -, hstate, hout⟩ := State.slotFinish_shows (s := l.2) (by rwa [hl.hw]) q.1 a.1 w.1 l.1
  exact ⟨w.2, q.1, a.1, w.1, hw, hcom, hkept.slotSt.trans (hstate.trans hl.slotSt), (hkept.rd .uOut (by decide)).trans hout⟩

theorem slotRun_manual (h1 : s.slotSt n = 1) (hreq : (s.slot n).req = .none) (hcom : (s.slot n).commit = false)
    (hlim : s.lvS (.cle .umin) n ≤ s.lvS (.cle .umax) n) : (slotRun n ain s).slotSt n = 1 ∧
      s.lvS (.cle .umin) n ≤ (slotRun n ain s).rdS (.cle .uOut) n ∧ (slotRun n ain s).rdS (.cle .uOut) n ≤ s.lvS (.cle .umax) n := by
  obtain ⟨t, q, a, w, hkept, hq, hst, hout⟩ := slotRun_resting hn ain (by omega) hreq hcom
  obtain ⟨z, hz⟩ := t.slotLaw_manual n a w (hkept.slotSt.trans h1) hq
  have hmin : -2 ^ (32 - 1) ≤ s.lvS (.cle .umin) n := (toSigned_bounds (w := 32) (by decide) _).1
  have hmax : s.lvS (.cle .umax) n < 2 ^ (32 - 1) := (toSigned_bounds (w := 32) (by decide) _).2
  rw [hz, hkept.lvS (by decide), hkept.lvS (by decide)] at hout
  generalize s.lvS (.cle .umin) n = lo at *
  generalize s.lvS (.cle .umax) n = hi at *
  have hlo : lo ≤ clampInt z lo hi := by unfold clampInt; omega
  have hhi : clampInt z lo hi ≤ hi := by unfold clampInt; omega
  have hu : (slotRun n ain s).rdS (.cle .uOut) n = clampInt z lo hi :=
    (congrArg (toSigned 32) hout).trans (toSigned_ofSigned (by decide) (by omega) (by omega))
  exact ⟨hst.trans h1, hu ▸ hlo, hu ▸ hhi⟩

theorem slotRun_off (h0 : s.slotSt n = 0) (hreq : (s.slot n).req = .none) (hcom : (s.slot n).commit = false)
    (hheld : (s.slot n).held = false) : (slotRun n ain s).slotSt n = 0 ∧
      (slotRun n ain s).rdS (.cle .uOut) n = s.rdS (.cle .usafe) n := by
  obtain ⟨t, q, a, w, hkept, -, hst, hout⟩ := slotRun_resting hn ain (by omega) hreq hcom
  rw [t.slotLaw_off n q a w (hkept.slotSt.trans h0) (hkept.held.trans hheld), hkept.rdS (by decide)] at hout
  exact ⟨hst.trans h0, (congrArg (toSigned 32) hout).trans (toSigned_ofSigned_toSigned (by decide) _)⟩

end Execution

section Moments

variable (s : State) {n : Nat} (hn : n < 128)

include hn

theorem exec_slotExecution {ain : Nat} (hain : ain < 16384) : exec (.slotExecution n ain) s = .next
    (if s.up .ctl && s.on (.cle .slotEn) n && s.slotSt n != 5 && !s.unitOut (.slot n) then slotRun n ain s else s) := by
  show guardWF (decide (n < 128) && decide (ain < 16384)) _ = _
  rw [decide_eq_true hn, decide_eq_true hain]
  rfl

theorem exec_fallbackTimeout : exec (.fallbackTimeout n) s = .next
    (if s.up .ctl && s.slotSt n == 3 && !(s.slot n).fbTold then
      (s.wr (.cle .fbtoEv) n 1).setSlot n { s.slot n with fbTold := true } else s) := by
  show guardWF (decide (n < 128)) _ = _
  rw [decide_eq_true hn]
  rfl

end Moments

/-! ### The capture commands (O38: R255) -/

theorem getLsbD_iff_div_mod (v : Word) (i : Nat) : v.toNat / 2 ^ i % 2 = 1 ↔ v.getLsbD i = true := by
  rw [BitVec.getLsbD, Nat.testBit_eq_decide_div_mod_eq, decide_eq_true_eq]

section Capture

variable (s : State) (v : Word)

theorem State.rd_cstate_capConfig : (s.capConfig v).rd (.cle .cstate) = s.rd (.cle .cstate) := by
  simp [State.capConfig, State.rd_wr_cle_ne]

theorem State.capture_capConfig : (s.capConfig v).capture = s.capture := by simp [State.capConfig]

/-- The capture starts over in state `st`, with an empty ring. -/
def State.captureReset (s : State) (st : Nat) : State :=
  { ((s.wr (.cle .cstate) 0 st).clr (.cle .capCount)).clr (.cle .trigidx) with capture := {} }

theorem State.captureReset_spec (st : Nat) : (s.captureReset st).rd (.cle .cstate) = st % 4 ∧
    (s.captureReset st).rd (.cle .capCount) = 0 ∧ (s.captureReset st).capture = {} := by
  have hrd (f : Fld) : (s.captureReset st).rd f = (((s.wr (.cle .cstate) 0 st).clr (.cle .capCount)).clr (.cle .trigidx)).rd f := rfl
  refine ⟨?_, ?_, rfl⟩
  · rw [hrd, State.rd_clr, if_neg (by decide), State.rd_clr, if_neg (by decide)]
    exact State.rd_wr_same s rfl st
  · rw [hrd, State.rd_clr, if_neg (by decide), State.rd_clr, if_pos ⟨rfl, rfl⟩]

variable {s v} (h : s.Reaches .cle 0)

include h

theorem exec_captureArm (h0 : v.getLsbD 0 = true) : exec (.captureArm v) s = .next ((s.capConfig v).captureReset 1) := by
  have hup : s.up .ctl = true := h.up (by decide) (by decide)
  have hbit := (getLsbD_iff_div_mod v 0).2 h0
  show guardWF (v.getLsbD 0) (s.hostWrite .cle 0 fun s => captureArm v s) = _
  rw [h0, guardWF_true, State.hostWrite_of_reaches h, captureArm, hup]
  simp only [pow_zero, Nat.div_one] at hbit
  simp [hbit, State.captureReset]

theorem exec_captureForce (h1 : v.getLsbD 1 = true) (h0 : v.getLsbD 0 = false) : exec (.captureForce v) s = .next
    (if (s.capConfig v).rd (.cle .cstate) = 1 then
      { s.capConfig v with capture := { (s.capConfig v).capture with force := true } } else s.capConfig v) := by
  have hup : s.up .ctl = true := h.up (by decide) (by decide)
  have hbit := (getLsbD_iff_div_mod v 1).2 h1
  show guardWF (v.getLsbD 1 && !v.getLsbD 0) (s.hostWrite .cle 0 fun s => captureForce v s) = _
  rw [h0, h1, State.hostWrite_of_reaches h, captureForce, hup]
  simp only [pow_one] at hbit
  simp [hbit, guardWF]

theorem exec_captureAbort (h2 : v.getLsbD 2 = true) (h1 : v.getLsbD 1 = false) (h0 : v.getLsbD 0 = false) :
    exec (.captureAbort v) s = .next ((s.capConfig v).captureReset 0) := by
  have hup : s.up .ctl = true := h.up (by decide) (by decide)
  have hbit := (getLsbD_iff_div_mod v 2).2 h2
  show guardWF (v.getLsbD 2 && !v.getLsbD 1 && !v.getLsbD 0) (s.hostWrite .cle 0 fun s => captureAbort v s) = _
  rw [h0, h1, h2, State.hostWrite_of_reaches h, captureAbort, hup]
  simp only [show (2 : Nat) ^ 2 = 4 from rfl] at hbit
  simp [hbit, guardWF, State.captureReset]

end Capture

/-- Settles O38: an execution is followed step by step, and the other commands are their equations. -/
theorem slotsExecute : Obligations.SlotsExecute := by
  refine ⟨fun s n hn hup hen hout => ?_, fun s n hn => ⟨fun h3 => ?_, fun h ain hain => ?_⟩,
    fun s v hr => ⟨fun h0 => ?_, fun h1 h0 hc => ?_, fun h1 h0 hc => ?_, fun h2 h1 h0 => ?_⟩⟩
  · have hn' : n < 128 := Nat.lt_of_lt_of_le hn s.hw.slots_le
    refine ⟨fun ain hain h5 => ⟨_, ?_, slotRun_runs hn ain, slotRun_manual hn ain, slotRun_off hn ain⟩, fun h3 ht => ?_, fun h3 ht => ?_⟩
    · rw [exec_slotExecution s hn' hain, if_pos (by simp [hup, hen, h5, hout])]
    · rw [exec_fallbackTimeout s hn', if_pos (by simp [hup, h3, ht])]
    · rw [exec_fallbackTimeout s hn', if_neg (by simp [ht])]
  · rw [exec_fallbackTimeout s hn, if_neg (by simp [h3])]
  · rw [exec_slotExecution s hn hain, if_neg (by rcases h with h | h <;> simp [h])]
  · exact ⟨_, exec_captureArm hr h0, (s.capConfig v).captureReset_spec 1⟩
  · have hst := (s.rd_cstate_capConfig v).trans hc
    rw [exec_captureForce hr h1 h0, if_pos hst, s.capture_capConfig]
    exact ⟨_, rfl, rfl, hst⟩
  · have hst := s.rd_cstate_capConfig v
    rw [exec_captureForce hr h1 h0, if_neg (by omega)]
    exact ⟨_, rfl, s.capture_capConfig v, hst⟩
  · exact ⟨_, exec_captureAbort hr h2 h1 h0, (s.capConfig v).captureReset_spec 0⟩

end Sys2Proof.Machine

/-! PROOFS. The statements on the fuser and the high voltage: the mains, the heater gates, the comparators and temperature inputs, and the
references of the high-voltage channels. -/

namespace Sys2Proof.Machine

open Sys2Proof

/-! ### The fields of the fuser unit (R276) -/

/-- The fields of a populated high-voltage channel are populated, and so are those that every module has. -/
theorem populated_fhv {hw : Hardware} {c : Nat} (hc : c < hw.hvs) (f : FhvF) : populated hw (.fhv f) c = true := by
  cases f with
  | vramp | fbHi | fbT | vstate | hven | fbhiTrip | vref | vfb => exact decide_eq_true hc
  | _ => rfl

theorem State.rd_wr_fhv_ne (s : State) {f g : FhvF} (h : g ≠ f) (i j v : Nat) :
    (s.wr (.fhv f) i v).rd (.fhv g) j = s.rd (.fhv g) j :=
  s.rd_wr_ne (fun e => h (Fld.fhv.inj (Prod.mk.inj e).1)) v

/-- A field of a populated high-voltage channel reads what was last written to it; the channel's other fields are unchanged. -/
theorem State.rd_wr_hv {s : State} {c : Nat} (hc : c < s.hw.hvs) (f g : FhvF) (v : Nat) :
    (s.wr (.fhv f) c v).rd (.fhv g) c = if g = f then v % 2 ^ f.row.width else s.rd (.fhv g) c := by
  split
  · next hg => exact hg ▸ State.rd_wr_same s (populated_fhv hc f) v
  · next hg => exact s.rd_wr_fhv_ne hg ..

@[simp] theorem State.calPast_wr_fhv (s : State) (f : FhvF) (i v n : Nat) : (s.wr (.fhv f) i v).calPast n = s.calPast n := by
  unfold State.calPast State.on
  rw [s.rd_wr_ne (by simp), s.rd_wr_ne (by simp)]

/-! ### One place of a table in a pass over all of them -/

/-- A pass over a list without repetitions does to one place what the step at that place does to it. -/
theorem foldl_visits {σ α β : Type} {f : σ → α → σ} {π : σ → β} {x : α} (h : ∀ t y, y ≠ x → π (f t y) = π t) {l : List α}
    (hl : l.Nodup) (hx : x ∈ l) (s : σ) : ∃ t, π t = π s ∧ π (l.foldl f s) = π (f t x) := by
  induction l generalizing s with
  | nil => exact absurd hx List.not_mem_nil
  | cons y l ih =>
    obtain ⟨hy, hl⟩ := List.nodup_cons.1 hl
    rw [List.foldl_cons]
    by_cases hxy : y = x
    · subst hxy
      have hrest : ∀ (l : List α) (s : σ), y ∉ l → π (l.foldl f s) = π s := fun l => by
        induction l with
        | nil => exact fun _ _ => rfl
        | cons z l ih => exact fun s hz => (ih _ (List.not_mem_of_not_mem_cons hz)).trans (h s z (List.ne_of_not_mem_cons hz).symm)
      exact ⟨s, rfl, hrest l _ hy⟩
    · obtain ⟨t, ht, e⟩ := ih hl ((List.mem_cons.1 hx).resolve_left (Ne.symm hxy)) (f s y)
      exact ⟨t, ht.trans (h s y hxy), e⟩

/-! ### Gates (R268) -/

theorem State.rd_wr_gate (s : State) (g v : Nat) : (s.wr (.fhv .gate) g v).rd (.fhv .gate) g = v % 2 := State.rd_wr_same s rfl v

/-- A gate is at the level it was put at. -/
theorem State.on_setGate (s : State) (g : Nat) (high : Bool) : (s.setGate g high).on (.fhv .gate) g = high := by
  unfold State.setGate
  split
  · next h => exact eq_of_beq h
  · rw [State.on_eq, State.rd_emit, State.wrB_eq, State.rd_wr_gate]
    cases high <;> rfl

theorem State.rd_setGate_low (s : State) (g : Nat) : (s.setGate g false).rd (.fhv .gate) g = 0 := by
  simpa [State.on_eq] using s.on_setGate g false

/-! ### What no gate and no duty shows in -/

/-- A part of the state in which no heater channel's gate, duty or timing shows. -/
structure GateBlind {β : Type} (π : State → β) : Prop where
  wr (t : State) {f : FhvF} (hf : f = .gate ∨ f = .hduty) (i v : Nat) : π (t.wr (.fhv f) i v) = π t
  emit (t : State) (o : Out) : π (t.emit o) = π t
  setHeater (t : State) (g : Nat) (x : Heater) : π (t.setHeater g x) = π t

section Blind

variable {β : Type} {π : State → β} (h : GateBlind π)

include h

theorem GateBlind.setGate (s : State) (g : Nat) (high : Bool) : π (s.setGate g high) = π s := by
  unfold State.setGate
  split
  · rfl
  · exact (h.emit ..).trans (h.wr s (.inl rfl) g _)

theorem GateBlind.settleHeaters (s : State) : π s.settleHeaters = π s :=
  s.settleHeaters_unchanged (fun t g v => h.wr t (.inl rfl) g v) h.emit h.setHeater

theorem GateBlind.takeDuty (s : State) (g z late : Nat) (positive : Bool) : π (s.takeDuty g z late positive) = π s := by
  unfold State.takeDuty
  extract_lets x₀ met
  have hmet : π met = π s := h.setHeater ..
  split
  · exact hmet
  · split
    · exact hmet
    · extract_lets d shown x half fall
      have hshown : π shown = π s := (h.wr met (.inr rfl) g d).trans hmet
      split
      · exact (h.setGate ..).trans ((h.setHeater ..).trans hshown)
      · exact (h.setHeater ..).trans ((h.setGate ..).trans hshown)

theorem GateBlind.burstNext (s : State) (g : Nat) : π (s.burstNext g) = π s := by
  unfold State.burstNext
  extract_lets x
  split
  · rfl
  · exact h.setHeater ..

theorem GateBlind.gateCrossing (s : State) (z now : Nat) (positive : Bool) (g : Nat) : π (s.gateCrossing z now positive g) = π s := by
  unfold State.gateCrossing
  extract_lets met per p own sign
  have hmet : π met = π s := by
    unfold met
    split
    · exact h.takeDuty ..
    · rfl
  split
  · exact (h.takeDuty ..).trans hmet
  · exact (h.setHeater ..).trans hmet

end Blind

theorem gateBlind_up (d : Dom) : GateBlind (State.up · d) := ⟨fun t _ _ _ _ => t.up_wr .., fun _ _ => rfl, fun _ _ _ => rfl⟩

theorem gateBlind_ready : GateBlind fun s => s.fhv.ready := ⟨fun t _ _ _ _ => by rw [t.wr_fhv], fun _ _ => rfl, fun _ _ _ => rfl⟩

theorem gateBlind_rd {f : FhvF} (hg : f ≠ .gate) (hd : f ≠ .hduty) (i : Nat) : GateBlind (State.rd · (.fhv f) i) where
  wr t := by
    rintro _ (rfl | rfl) j v
    · exact t.rd_wr_fhv_ne hg ..
    · exact t.rd_wr_fhv_ne hd ..
  emit _ _ := rfl
  setHeater _ _ _ := rfl

section Applied

variable (s : State) (f : FhvF) (i v : Nat)

theorem State.rd_cle_wr_fhv (c : CleF) (n : Nat) : (s.wr (.fhv f) i v).rd (.cle c) n = s.rd (.cle c) n := s.rd_wr_ne (by simp) v

theorem State.driver_wr_fhv (kind g : Nat) : (s.wr (.fhv f) i v).driver kind g = s.driver kind g := by
  simp only [State.driver, State.on, State.rd_cle_wr_fhv, State.wr_hw]

theorem State.slotApplies_wr_fhv (n : Nat) : (s.wr (.fhv f) i v).slotApplies n = s.slotApplies n := by
  simp only [State.slotApplies, State.rd_cle_wr_fhv, State.slot_wr]

/-- What a channel applies is not seen from the registers of the fuser unit. -/
theorem State.applied_wr_fhv (kind g : Nat) : (s.wr (.fhv f) i v).applied kind g = s.applied kind g := by
  unfold State.applied
  rw [State.driver_wr_fhv]
  cases s.driver kind g with
  | none => rfl
  | some n => simp only [State.slotApplies_wr_fhv, State.rdS, State.rd_cle_wr_fhv]

end Applied

theorem gateBlind_heaterBlocked (g : Nat) : GateBlind (State.heaterBlocked · g) where
  wr t f hf i v := by
    have hrd {k : FhvF} (hk : k ≠ .gate ∧ k ≠ .hduty) (j : Nat) : (t.wr (.fhv f) i v).rd (.fhv k) j = t.rd (.fhv k) j :=
      (gateBlind_rd hk.1 hk.2 j).wr t hf i v
    simp only [State.heaterBlocked, State.heaterOn, State.on, State.applied_wr_fhv, State.up_wr]
    rw [hrd (by decide), hrd (by decide), hrd (by decide), hrd (by decide), hrd (by decide)]
  emit _ _ := rfl
  setHeater _ _ _ := rfl

/-! ### Gates that settle (R268) -/

theorem State.on_setGate_ne (s : State) {g j : Nat} (h : j ≠ g) (high : Bool) :
    (s.setGate g high).on (.fhv .gate) j = s.on (.fhv .gate) j := by
  unfold State.setGate
  split
  · rfl
  · exact congrArg (· != 0) (s.rd_wr_ne (by simp [h]) _)

/-- One gate settles. -/
def State.settleHeater (s : State) (g : Nat) : State := if s.heaterBlocked g then (s.setGate g false).setHeater g {} else s

theorem State.settleHeaters_eq (s : State) : s.settleHeaters = (List.range 8).foldl State.settleHeater s := rfl

/-- What a gate settles by, and its level. -/
def State.gateSeen (s : State) (g : Nat) : Bool × Bool := (s.heaterBlocked g, s.on (.fhv .gate) g)

theorem State.gateSeen_snd (s : State) (g : Nat) : (s.gateSeen g).2 = s.on (.fhv .gate) g := rfl

theorem State.gateSeen_settleHeater (s : State) {g j : Nat} (h : j ≠ g) : (s.settleHeater j).gateSeen g = s.gateSeen g := by
  unfold State.settleHeater
  split
  · exact Prod.ext ((gateBlind_heaterBlocked g).setGate s j false) (s.on_setGate_ne h.symm false)
  · rfl

/-- The gate of a blocked channel settles low. -/
theorem State.gate_settleHeaters {s : State} {g : Nat} (hg : g < 8) (hb : s.heaterBlocked g = true) :
    s.settleHeaters.rd (.fhv .gate) g = 0 := by
  obtain ⟨t, ht, e⟩ := foldl_visits (π := (State.gateSeen · g)) (fun t j hj => t.gateSeen_settleHeater hj) List.nodup_range
    (List.mem_range.2 hg) s
  have hbt : t.heaterBlocked g = true := (congrArg Prod.fst ht).trans hb
  have hlow : s.settleHeaters.on (.fhv .gate) g = false := by
    rw [← State.gateSeen_snd, State.settleHeaters_eq, e, State.settleHeater, if_pos hbt]
    exact t.on_setGate g false
  simpa [State.on_eq] using hlow

/-! ### The mains (O39: R262, R263) -/

/-- The record of the mains sense and of the inputs, without the heater channels. -/
def State.sense (s : State) : Fhv := { s.fhv with heaters := [] }

theorem State.sense_zc (s : State) : s.sense.zc = s.fhv.zc := rfl
theorem State.sense_ready (s : State) : s.sense.ready = s.fhv.ready := rfl

theorem gateBlind_sense : GateBlind State.sense :=
  ⟨fun t _ _ _ _ => by rw [State.sense, t.wr_fhv]; rfl, fun _ _ => rfl, fun _ _ _ => rfl⟩

/-! #### Mains lost (R263) -/

/-- MAINS_OK falls, and MAINS_LOST tells it. -/
def State.mainsFallen (s : State) : State := if s.on (.fhv .mainsOk) then (s.clr (.fhv .mainsOk)).ev (.fhv .mainsLost) else s

/-- The sense starts over. -/
def State.senseLost (s : State) : State :=
  { s with fhv := { s.fhv with zc := none, halves := [], bridged := 0, good := 0, badV := 0, ready := false } }

theorem State.mainsLost_eq (s : State) : s.mainsLost = s.mainsFallen.senseLost.settleHeaters := rfl

theorem State.rd_senseLost (s : State) (f : Fld) (i : Nat) : s.senseLost.rd f i = s.rd f i := rfl

theorem State.mainsOk_mainsFallen (s : State) : s.mainsFallen.rd (.fhv .mainsOk) = 0 := by
  unfold State.mainsFallen
  split
  · rw [State.ev_eq, State.rd_wr_fhv_ne _ (by decide), State.rd_clr, if_pos ⟨rfl, rfl⟩]
  · next h => simpa [State.on_eq] using h

theorem State.mainsLostTold_mainsFallen {s : State} (h : s.on (.fhv .mainsOk) = true) : s.mainsFallen.rd (.fhv .mainsLost) = 1 := by
  rw [State.mainsFallen, if_pos h]
  exact State.rd_wr_same _ rfl 1

/-- Without mains every heater channel is blocked (R268). -/
theorem State.heaterBlocked_of_mainsOk {s : State} (h : s.rd (.fhv .mainsOk) = 0) (g : Nat) : s.heaterBlocked g = true := by
  simp [State.heaterBlocked, State.on_eq, h]

/-- Mains lost takes MAINS_OK away, starts the sense over and takes every gate low. -/
theorem State.mainsLost_spec (s : State) : s.mainsLost.rd (.fhv .mainsOk) = 0 ∧ s.mainsLost.fhv.zc = none ∧
    s.mainsLost.fhv.ready = false ∧ (s.on (.fhv .mainsOk) = true → s.mainsLost.rd (.fhv .mainsLost) = 1) ∧
    ∀ g, g < 8 → s.mainsLost.rd (.fhv .gate) g = 0 := by
  have hsense : s.mainsLost.sense = s.mainsFallen.senseLost.sense := gateBlind_sense.settleHeaters _
  have hrd {f : FhvF} (hf : f ≠ .gate ∧ f ≠ .hduty) : s.mainsLost.rd (.fhv f) = s.mainsFallen.rd (.fhv f) :=
    (gateBlind_rd hf.1 hf.2 0).settleHeaters _
  refine ⟨(hrd (by decide)).trans s.mainsOk_mainsFallen, by rw [← State.sense_zc, hsense]; rfl,
    by rw [← State.sense_ready, hsense]; rfl, fun h => (hrd (by decide)).trans (State.mainsLostTold_mainsFallen h), fun g hg => ?_⟩
  rw [State.mainsLost_eq]
  exact State.gate_settleHeaters hg (State.heaterBlocked_of_mainsOk ((State.rd_senseLost ..).trans s.mainsOk_mainsFallen) g)

/-! #### A crossing, accepted or bridged (R262) -/

section Crossing

variable (s : State) (z now : Nat)

/-- The sense meets a crossing at `z`: the next half-cycle has the other sign. -/
def State.crossed : State :=
  { s.wr (.fhv .zc) 0 z with fhv := { (s.wr (.fhv .zc) 0 z).fhv with
    zc := some z, positive := !(s.wr (.fhv .zc) 0 z).fhv.positive, ready := (s.wr (.fhv .zc) 0 z).on (.fhv .mainsOk) } }

theorem State.crossing_eq : s.crossing z now = if (s.crossed z).fhv.ready then
    (List.range 8).foldl (fun t g => t.gateCrossing z now t.fhv.positive g) (s.crossed z) else s.crossed z := rfl

/-- The gates meet a crossing in what is theirs alone. -/
theorem GateBlind.crossing {β : Type} {π : State → β} (h : GateBlind π) : π (s.crossing z now) = π (s.crossed z) := by
  rw [State.crossing_eq]
  split
  · exact foldl_unchanged (fun t g => h.gateCrossing t z now t.fhv.positive g) _ _
  · rfl

theorem State.sense_crossing : (s.crossing z now).sense =
    { s.sense with zc := some z, positive := !s.fhv.positive, ready := s.on (.fhv .mainsOk) } := by
  rw [gateBlind_sense.crossing, State.sense, State.crossed, s.wr_fhv, State.on_eq, s.rd_wr_fhv_ne (by decide)]
  rfl

theorem State.halfper_crossing : (s.crossing z now).rd (.fhv .halfper) = s.rd (.fhv .halfper) :=
  ((gateBlind_rd (by decide) (by decide) 0).crossing s z now).trans (s.rd_wr_fhv_ne (by decide) ..)

end Crossing

/-! #### ZERO_CROSSING (R262, R263) -/

section Edge

variable (s : State) (t₀ z : Nat) (vrms : Option Nat)

/-- The crossing that a sense edge at engine time `t₀` stands for. -/
def State.edgeAt : Nat := ((t₀ : Int) + s.rdS (.fhv .zcOfs) * 1000).toNat

/-- A crossing at `z` is within 10 % of H around its expected time, where one is expected. -/
def State.zcInWindow : Bool :=
  match s.fhv.zc, s.fhv.halves with
  | some last, _ :: _ => decide (10 * (((z : Int) - last) - s.rd (.fhv .halfper)).natAbs ≤ s.rd (.fhv .halfper))
  | _, _ => true

/-- The last eight half-periods, with the one that a crossing at `z` ends. -/
def State.halvesAt : List Nat :=
  match s.fhv.zc with
  | some last => ((z - last) :: s.fhv.halves).take 8
  | none => s.fhv.halves

/-- Their mean, H. -/
def State.halfAt : Nat := if (s.halvesAt z).isEmpty then 0 else (s.halvesAt z).sum / (s.halvesAt z).length

/-- H is outside what 45 Hz to 65 Hz gives. -/
def State.halfBad : Bool :=
  !(s.halvesAt z).isEmpty && (decide (s.halfAt z * 130 < 1000000000) || decide (1000000000 < s.halfAt z * 90))

/-- Complete cycles in a row with VRMS out of range. -/
def State.badAt : Nat :=
  match vrms with
  | some v => if vrmsOk v then 0 else s.fhv.badV + 1
  | none => s.fhv.badV

/-- H and the frequency are shown. -/
def State.halfShown : State :=
  if (s.halvesAt z).isEmpty then s
  else (s.wr (.fhv .halfper) 0 (s.halfAt z)).wr (.fhv .freq) 0
    (if s.halfAt z = 0 then 0 else (2 * 5000000000 + s.halfAt z) / (2 * s.halfAt z))

/-- So is VRMS at the end of a complete cycle. -/
def State.vrmsShown : State :=
  match vrms with
  | some v => s.wr (.fhv .vrms) 0 v
  | none => s

/-- An accepted crossing is counted, and half-period and VRMS are measured. -/
def State.measured : State :=
  { (s.halfShown z).vrmsShown vrms with fhv := { ((s.halfShown z).vrmsShown vrms).fhv with
    halves := s.halvesAt z, bridged := 0, badV := ((s.halfShown z).vrmsShown vrms).badAt vrms,
    good := if vrmsOk (((s.halfShown z).vrmsShown vrms).rd (.fhv .vrms)) then ((s.halfShown z).vrmsShown vrms).fhv.good + 1 else 0 } }

/-- The gates meet an accepted crossing; after the sixteenth in a row with VRMS in range MAINS_OK returns. -/
def State.accepted : State :=
  if 16 ≤ s.fhv.good ∧ !(s.crossing z t₀).on (.fhv .mainsOk) then (s.crossing z t₀).wr (.fhv .mainsOk) 0 1 else s.crossing z t₀

theorem zeroCrossing_eq (hup : s.up .ctl = true) : zeroCrossing t₀ vrms s =
    if !s.zcInWindow (s.edgeAt t₀) then s.count (.fhv .zcGlitch)
    else if s.halfBad (s.edgeAt t₀) ∨ 4 ≤ (s.measured (s.edgeAt t₀) vrms).fhv.badV then (s.measured (s.edgeAt t₀) vrms).mainsLost
    else (s.measured (s.edgeAt t₀) vrms).accepted t₀ (s.edgeAt t₀) := by
  unfold zeroCrossing
  rw [hup, Bool.not_true, if_neg Bool.false_ne_true]
  rfl

theorem exec_zeroCrossing (hv : ∀ v, vrms = some v → v < 4096) : exec (.zeroCrossing t₀ vrms) s = .next (zeroCrossing t₀ vrms s) := by
  show execZeroCrossing t₀ vrms s = _
  unfold execZeroCrossing
  cases vrms with
  | none => rfl
  | some v => exact congrArg (guardWF · _) (decide_eq_true (hv v rfl))

theorem State.halfAt_eq : s.halfAt z = (s.halvesAt z).sum / (s.halvesAt z).length := by
  unfold State.halfAt
  split
  · next h => simp [List.isEmpty_iff.1 h]
  · rfl

theorem State.halfBad_iff : s.halfBad z = true ↔
    s.halvesAt z ≠ [] ∧ (s.halfAt z * 130 < 1000000000 ∨ 1000000000 < s.halfAt z * 90) := by
  simp [State.halfBad]

theorem State.badAt_eq : s.badAt vrms = match vrms with
    | some v => if 850 ≤ v ∧ v ≤ 2650 then 0 else s.fhv.badV + 1
    | none => s.fhv.badV := by
  cases vrms with
  | none => rfl
  | some v => simp [State.badAt, vrmsOk]

theorem State.zcInWindow_iff : s.zcInWindow z = true ↔ ∀ last, s.fhv.zc = some last → s.fhv.halves ≠ [] →
    10 * (((z : Int) - last) - s.rd (.fhv .halfper)).natAbs ≤ s.rd (.fhv .halfper) := by
  unfold State.zcInWindow
  split
  · next last h hs hz he => simp [hz, he]
  · next h =>
    refine ⟨fun _ last hz hne => ?_, fun _ => rfl⟩
    obtain ⟨x, l, he⟩ := List.exists_cons_of_ne_nil hne
    exact absurd he (h last x l hz)

@[simp] theorem State.halfShown_fhv : (s.halfShown z).fhv = s.fhv := by unfold State.halfShown; split <;> simp

@[simp] theorem State.vrmsShown_fhv : (s.vrmsShown vrms).fhv = s.fhv := by unfold State.vrmsShown; split <;> simp

theorem State.rd_vrmsShown {f : FhvF} (hf : f ≠ .vrms) (i : Nat) : (s.vrmsShown vrms).rd (.fhv f) i = s.rd (.fhv f) i := by
  unfold State.vrmsShown
  split
  · exact s.rd_wr_fhv_ne hf ..
  · rfl

theorem State.halfper_measured (h : s.halvesAt z ≠ []) :
    (s.measured z vrms).rd (.fhv .halfper) = s.halfAt z % 2 ^ 24 := by
  refine ((s.halfShown z).rd_vrmsShown vrms (by decide) 0).trans ?_
  rw [State.halfShown, if_neg (by simpa using h), State.rd_wr_fhv_ne _ (by decide)]
  exact State.rd_wr_same s rfl _

theorem State.mainsOk_measured : (s.measured z vrms).on (.fhv .mainsOk) = s.on (.fhv .mainsOk) := by
  refine congrArg (· != 0) (((s.halfShown z).rd_vrmsShown vrms (by decide) 0).trans ?_)
  unfold State.halfShown
  split
  · rfl
  · rw [State.rd_wr_fhv_ne _ (by decide), State.rd_wr_fhv_ne _ (by decide)]

theorem State.badV_measured : (s.measured z vrms).fhv.badV = s.badAt vrms := by
  simp [State.measured, State.badAt]

theorem State.positive_measured : (s.measured z vrms).fhv.positive = s.fhv.positive := by
  simp [State.measured]

theorem State.sense_accepted : (s.accepted t₀ z).sense = (s.crossing z t₀).sense := by
  unfold State.accepted
  split
  · rw [State.sense, State.wr_fhv]; rfl
  · rfl

theorem State.halfper_accepted : (s.accepted t₀ z).rd (.fhv .halfper) = s.rd (.fhv .halfper) := by
  unfold State.accepted
  split
  · exact (State.rd_wr_fhv_ne _ (by decide) ..).trans (s.halfper_crossing ..)
  · exact s.halfper_crossing ..

end Edge

section Tracked

variable {s : State} (hup : s.up .ctl = true)

include hup

/-- An edge outside its window is a glitch. -/
theorem zeroCrossing_glitch {t₀ : Nat} (vrms : Option Nat) (h : s.zcInWindow (s.edgeAt t₀) = false) :
    zeroCrossing t₀ vrms s = s.count (.fhv .zcGlitch) := by
  rw [zeroCrossing_eq s t₀ vrms hup, h]
  rfl

/-- A crossing inside its window with mains in range sets the half-period and flips the sign. -/
theorem zeroCrossing_tracks {t₀ : Nat} {vrms : Option Nat} (hw : s.zcInWindow (s.edgeAt t₀) = true) (hb : s.badAt vrms < 4)
    (hh : s.halfBad (s.edgeAt t₀) = false) :
    (zeroCrossing t₀ vrms s).fhv.zc = some (s.edgeAt t₀) ∧ (zeroCrossing t₀ vrms s).fhv.halves = s.halvesAt (s.edgeAt t₀) ∧
      (zeroCrossing t₀ vrms s).fhv.badV = s.badAt vrms ∧
      (s.halvesAt (s.edgeAt t₀) ≠ [] → (zeroCrossing t₀ vrms s).rd (.fhv .halfper) = s.halfAt (s.edgeAt t₀) % 2 ^ 24) ∧
      (zeroCrossing t₀ vrms s).fhv.positive = !s.fhv.positive ∧ (zeroCrossing t₀ vrms s).fhv.bridged = 0 := by
  have hbad : ¬(s.halfBad (s.edgeAt t₀) = true ∨ 4 ≤ (s.measured (s.edgeAt t₀) vrms).fhv.badV) := by
    simpa [hh, s.badV_measured] using hb
  have he : zeroCrossing t₀ vrms s = (s.measured (s.edgeAt t₀) vrms).accepted t₀ (s.edgeAt t₀) := by
    rw [zeroCrossing_eq s t₀ vrms hup, hw, Bool.not_true, if_neg Bool.false_ne_true, if_neg hbad]
  have hsense := (State.sense_accepted (s.measured (s.edgeAt t₀) vrms) t₀ (s.edgeAt t₀)).trans (State.sense_crossing ..)
  rw [he]
  refine ⟨congrArg Fhv.zc hsense, congrArg Fhv.halves hsense, (congrArg Fhv.badV hsense).trans (s.badV_measured ..), fun hne => ?_,
    (congrArg Fhv.positive hsense).trans (congrArg not (s.positive_measured ..)), congrArg Fhv.bridged hsense⟩
  rw [State.halfper_accepted, s.halfper_measured _ _ hne]

/-- A half-period out of range, or the fourth bad voltage, loses the mains. -/
theorem zeroCrossing_loses {t₀ : Nat} {vrms : Option Nat} (hw : s.zcInWindow (s.edgeAt t₀) = true)
    (h : s.halfBad (s.edgeAt t₀) = true ∨ 4 ≤ s.badAt vrms) :
    zeroCrossing t₀ vrms s = (s.measured (s.edgeAt t₀) vrms).mainsLost := by
  rw [← s.badV_measured (s.edgeAt t₀)] at h
  rw [zeroCrossing_eq s t₀ vrms hup, hw, Bool.not_true, if_neg Bool.false_ne_true, if_pos h]

/-! #### ZERO_CROSSING_MISS and ZC_GLITCH -/

/-- The first two misses in a row are bridged, at the expected time. -/
theorem exec_zeroCrossingMiss {last : Nat} (hz : s.fhv.zc = some last) : exec .zeroCrossingMiss s = .next
    (if 2 ≤ s.fhv.bridged then s.mainsLost
    else ({ s with fhv := { s.fhv with bridged := s.fhv.bridged + 1, good := 0 } } : State).crossing (last + s.rd (.fhv .halfper))
      (last + s.rd (.fhv .halfper) + s.rd (.fhv .halfper) / 10)) := by
  show guardWF true (zeroCrossingMiss s) = _
  rw [guardWF_true, zeroCrossingMiss, hz]
  dsimp only
  rw [hup]
  rfl

theorem exec_zcGlitch : exec .zcGlitch s = .next (s.count (.fhv .zcGlitch)) := by
  show guardWF true (if s.up .ctl then s.count (.fhv .zcGlitch) else s) = _
  rw [hup]
  rfl

end Tracked

/-- Settles O39: a crossing is a glitch, tracks the mains or loses it; a miss is bridged or loses it. -/
theorem mainsIsTracked : Obligations.MainsIsTracked := by
  refine fun s hup => ⟨fun t₀ vrms z h bad hs hv hz hwin hhs hh hbad => ?_, fun t₀ last vrms hv hz hne hout => ?_,
    fun last hz hb => ?_, fun last hz hb => ?_, fun hz => ?_, exec_zcGlitch hup⟩
  · have hz : z = s.edgeAt t₀ := hz
    have hhs : hs = s.halvesAt z := hhs.trans (by unfold State.halvesAt; cases s.fhv.zc <;> rfl)
    have hbad : bad = s.badAt vrms := hbad.trans (s.badAt_eq vrms).symm
    have hh : h = s.halfAt z := by rw [hh, hhs, s.halfAt_eq]
    have hw : s.zcInWindow z = true := (s.zcInWindow_iff z).2 hwin
    subst hh hbad hhs hz
    rw [exec_zeroCrossing s t₀ vrms hv]
    refine ⟨fun hb hr => ⟨_, rfl, zeroCrossing_tracks hup hw hb ?_⟩, fun hlost => ?_⟩
    · rw [Bool.eq_false_iff, ne_eq, s.halfBad_iff]
      rintro ⟨hne, hbad⟩
      have := hr.resolve_left hne
      omega
    · have hspec := (s.measured (s.edgeAt t₀) vrms).mainsLost_spec
      rw [s.mainsOk_measured] at hspec
      rw [zeroCrossing_loses hup hw (hlost.symm.imp_left (s.halfBad_iff _).2)]
      exact ⟨_, rfl, hspec⟩
  · have hw : s.zcInWindow (s.edgeAt t₀) = false := by
      rw [Bool.eq_false_iff, ne_eq, s.zcInWindow_iff]
      exact fun hwin => absurd (hwin last hz hne) (Nat.not_le.2 hout)
    rw [exec_zeroCrossing s t₀ vrms hv, zeroCrossing_glitch hup vrms hw, State.count_eq]
  · have hsense := State.sense_crossing { s with fhv := { s.fhv with bridged := s.fhv.bridged + 1, good := 0 } }
      (last + s.rd (.fhv .halfper)) (last + s.rd (.fhv .halfper) + s.rd (.fhv .halfper) / 10)
    rw [exec_zeroCrossingMiss hup hz, if_neg (by omega)]
    exact ⟨_, rfl, congrArg Fhv.zc hsense, congrArg Fhv.bridged hsense⟩
  · rw [exec_zeroCrossingMiss hup hz, if_pos hb]
    exact ⟨_, rfl, s.mainsLost_spec⟩
  · show guardWF true (zeroCrossingMiss s) = _
    rw [guardWF_true, zeroCrossingMiss, hz]

/-! ### HEATER_GATE_FIRE (O40: R264 to R268) -/

theorem burst_cross (x : Heater) (d : Nat) (dcBal positive : Bool) : (burst x d dcBal positive).1.cross = x.cross := by
  cases x
  unfold burst
  extract_lets acc step on
  split <;> rfl

/-- A channel that takes its duty has met its zero crossing. -/
theorem State.cross_takeDuty (s : State) (g z late : Nat) (positive : Bool) : ((s.takeDuty g z late positive).heater g).cross = none := by
  have hgate (t : State) (high : Bool) : (t.setGate g high).heater g = t.heater g := by
    unfold State.setGate
    split <;> simp [State.wrB_eq]
  unfold State.takeDuty
  extract_lets x₀ met
  have hmet : (met.heater g).cross = none := congrArg Heater.cross (State.heater_setHeater_same ..)
  split
  · exact hmet
  · split
    · exact hmet
    · extract_lets d shown x half fall r src fired low t
      have hx : x.cross = none := (congrArg Heater.cross (met.heater_wr ..)).trans hmet
      split
      · have hr : r.1.cross = none := by
          unfold r
          split
          · exact hx
          · exact (burst_cross ..).trans hx
        rw [hgate, State.heater_setHeater_same]
        exact hr
      · rw [State.heater_setHeater_same]
        exact hx

/-- The decision for the half-cycle to come is made once. -/
theorem State.burstNext_of_decided {s : State} {g : Nat} {b : Bool} (h : (s.heater g).next = some b) : s.burstNext g = s := by
  simp only [State.burstNext, h]

theorem State.heater_burstNext {s : State} {g : Nat} (h : (s.heater g).next = none) :
    (∃ b, ((s.burstNext g).heater g).next = some b) ∧ ((s.burstNext g).heater g).cross = (s.heater g).cross := by
  simp only [State.burstNext, h, State.heater_setHeater_same]
  exact ⟨⟨_, rfl⟩, burst_cross ..⟩

section Fire

variable (s : State) (g : Nat) (e : GateEdge)

/-- The gate may fire: its channel is not blocked, and a zero crossing has come since MAINS_OK. -/
def State.gateFree : Bool := !s.heaterBlocked g && s.fhv.ready

/-- A burst channel that knows its instants decides for the half-cycle to come. -/
def State.gateDecided : State :=
  if s.on (.fhv .hMode) g = true ∧ s.gateFree g = true ∧ (s.heater g).rise.isSome = true then s.burstNext g else s

/-- An instant of a gate is judged: `inBurst` and `free` say how it works and whether it may fire. -/
def State.gateJudged (inBurst free : Bool) : State :=
  match e with
  | .fall => if inBurst = true ∧ free = true ∧ (s.heater g).next = some true then s else s.setGate g false
  | .rise =>
    if free && (if inBurst then (s.heater g).next == some true else (s.heater g).rise.isSome) then s.setGate g true else s

theorem exec_heaterGateFire (hg : g < 8) : exec (.heaterGateFire g e) s = .next (heaterGateFire g e s) := by
  show guardWF (decide (g < 8)) _ = _
  rw [decide_eq_true hg]
  rfl

variable {s g}

/-- An instant after the gate's own zero crossing is judged when the gate has met that crossing. -/
theorem heaterGateFire_crossed (hup : s.up .ctl = true) {z : Nat} {p : Bool} (h : (s.heater g).cross = some (z, p)) :
    heaterGateFire g e s = heaterGateFire g e (s.takeDuty g z 0 p) := by
  have hup' : (s.takeDuty g z 0 p).up .ctl = true := ((gateBlind_up .ctl).takeDuty ..).trans hup
  unfold heaterGateFire
  rw [hup, hup', h, s.cross_takeDuty, Bool.not_true, if_neg Bool.false_ne_true, if_neg Bool.false_ne_true]

theorem heaterGateFire_met (hup : s.up .ctl = true) (h : (s.heater g).cross = none) :
    heaterGateFire g e s = (s.gateDecided g).gateJudged g e (s.on (.fhv .hMode) g) (s.gateFree g) := by
  unfold heaterGateFire
  rw [hup, h]
  rfl

theorem State.gateDecided_of_decided {b : Bool} (h : (s.heater g).next = some b) : s.gateDecided g = s := by
  rw [State.gateDecided, State.burstNext_of_decided h, ite_self]

/-- The decision alone does not fire a gate: the instant is judged by it. -/
theorem heaterGateFire_burstNext (hup : s.up .ctl = true) (h : (s.heater g).cross = none) (hm : s.on (.fhv .hMode) g = true)
    (hfree : s.gateFree g = true) (hn : (s.heater g).next = none) (hr : (s.heater g).rise ≠ none) :
    heaterGateFire g e s = heaterGateFire g e (s.burstNext g) := by
  obtain ⟨⟨b, hb⟩, hcross⟩ := State.heater_burstNext hn
  have hm' : (s.burstNext g).on (.fhv .hMode) g = s.on (.fhv .hMode) g :=
    congrArg (· != 0) ((gateBlind_rd (by decide) (by decide) g).burstNext s g)
  have hfree' : (s.burstNext g).gateFree g = s.gateFree g := by
    rw [State.gateFree, (gateBlind_heaterBlocked g).burstNext, gateBlind_ready.burstNext, State.gateFree]
  rw [heaterGateFire_met e hup h, heaterGateFire_met e (((gateBlind_up .ctl).burstNext s g).trans hup) (hcross.trans h),
    State.gateDecided_of_decided hb, hm', hfree', State.gateDecided, if_pos ⟨hm, hfree, Option.isSome_iff_ne_none.2 hr⟩]

end Fire

section Judged

variable {s : State} {g : Nat} (hup : s.up .ctl = true) (h : (s.heater g).cross = none)

include hup h

/-- A gate that may not fire does not rise, and falls. -/
theorem heaterGateFire_of_not_free (hf : s.gateFree g = false) :
    heaterGateFire g .rise s = s ∧ heaterGateFire g .fall s = s.setGate g false := by
  simp [heaterGateFire_met _ hup h, State.gateDecided, State.gateJudged, hf]

/-- In phase-angle mode a gate rises where the half-cycle has an instant for it, and falls (R266). -/
theorem heaterGateFire_of_phase (hf : s.gateFree g = true) (hm : s.on (.fhv .hMode) g = false) :
    heaterGateFire g .rise s = (if (s.heater g).rise = none then s else s.setGate g true) ∧
      heaterGateFire g .fall s = s.setGate g false := by
  cases hr : (s.heater g).rise <;> simp [heaterGateFire_met _ hup h, State.gateDecided, State.gateJudged, hf, hm, hr]

/-- In burst mode a gate rises for a half-cycle that is on and falls unless the next one is on too (R267). -/
theorem heaterGateFire_of_decided (hf : s.gateFree g = true) (hm : s.on (.fhv .hMode) g = true) {b : Bool}
    (hn : (s.heater g).next = some b) : heaterGateFire g .rise s = (if b then s.setGate g true else s) ∧
      heaterGateFire g .fall s = (if b then s else s.setGate g false) := by
  rw [heaterGateFire_met _ hup h, heaterGateFire_met _ hup h, State.gateDecided_of_decided hn]
  cases b <;> simp [State.gateJudged, hf, hm, hn]

/-- A burst channel without instants does not decide. -/
theorem heaterGateFire_of_undecided (hm : s.on (.fhv .hMode) g = true) (hn : (s.heater g).next = none)
    (hr : (s.heater g).rise = none) : heaterGateFire g .rise s = s ∧ heaterGateFire g .fall s = s.setGate g false := by
  simp [heaterGateFire_met _ hup h, State.gateDecided, State.gateJudged, hm, hn, hr]

end Judged

/-! ### The comparators (O40: R269) -/

/-- The latch of a comparator. -/
def otcLatch (c : Comparator) : FhvF :=
  match c with
  | .a => .otcA
  | .b => .otcB

theorem State.heaterBlocked_of_otcLatch {s : State} {g : Nat} (c : Comparator) (h : s.rd (.fhv (otcLatch c)) g = 1) :
    s.heaterBlocked g = true := by
  cases c with
  | a => simp [State.heaterBlocked, State.on_eq, show s.rd (.fhv .otcA) g = 1 from h]
  | b => simp [State.heaterBlocked, State.on_eq, show s.rd (.fhv .otcB) g = 1 from h]

section Comparators

variable {s : State} {g : Nat}

theorem exec_otcTrip (hg : g < 8) (hup : s.up .ctl = true) (c : Comparator) (code : Int) : exec (.otcTrip g c code) s = .next
    (if s.otcNow g c code then (s.ev (.fhv (otcLatch c)) g).settleHeaters else s) := by
  show guardWF (decide (g < 8)) (otcTrip g c code s) = _
  unfold otcTrip
  rw [decide_eq_true hg, guardWF_true, hup, Bool.true_and]
  cases c <;> rfl

/-- A trip latches, and its gate goes low. -/
theorem otcTrip_runs (hg : g < 8) (hup : s.up .ctl = true) (c : Comparator) {code : Int} (h : s.otcNow g c code = true) :
    ∃ t, exec (.otcTrip g c code) s = .next t ∧ t.rd (.fhv .gate) g = 0 ∧ t.rd (.fhv (otcLatch c)) g = 1 := by
  have hl : (s.ev (.fhv (otcLatch c)) g).rd (.fhv (otcLatch c)) g = 1 := by cases c <;> exact State.rd_wr_same s rfl 1
  refine ⟨_, by rw [exec_otcTrip hg hup, if_pos h], State.gate_settleHeaters hg (State.heaterBlocked_of_otcLatch c hl), ?_⟩
  exact ((gateBlind_rd (by cases c <;> decide) (by cases c <;> decide) g).settleHeaters _).trans hl

theorem exec_otcClear (hg : g < 8) (hr : s.Reaches .fhv 0) (v : Word) (a b : Int) :
    exec (.otcClear g v a b) s = .next (otcClear g v a b s) := by
  show execOtcClear g v a b s = _
  rw [execOtcClear, State.hostWrite_of_reaches hr, decide_eq_true hg, guardWF_true]

/-- A latch clears only once its condition has gone; neither condition is seen from the other latch. -/
theorem rd_otcClear (hup : s.up .ctl = true) (v : Word) (a b : Int) :
    (otcClear g v a b s).rd (.fhv .otcA) g = (if v.toNat / 4 % 2 = 1 ∧ s.otcNow g .a a = false then 0 else s.rd (.fhv .otcA) g) ∧
      (otcClear g v a b s).rd (.fhv .otcB) g =
        (if v.toNat / 8 % 2 = 1 ∧ s.otcNow g .b b = false then 0 else s.rd (.fhv .otcB) g) := by
  have hb : (s.clr (.fhv .otcA) g).otcNow g .b b = s.otcNow g .b b := by
    simp [State.otcNow, State.otcCond, State.on_eq, State.rd_clr]
  unfold otcClear
  rw [hup, Bool.not_true, if_neg Bool.false_ne_true]
  by_cases ha : v.toNat / 4 % 2 = 1 ∧ s.otcNow g .a a = false <;>
    by_cases hb' : v.toNat / 8 % 2 = 1 ∧ s.otcNow g .b b = false <;> simp [ha, hb, hb', State.rd_clr]

end Comparators

/-! ### Temperature inputs (O40: R270, R271) -/

theorem thermCode_le (rt : Nat) : thermCode rt ≤ 65535 := Nat.min_le_left ..

/-- A value between two entries of a table is within a signed 16-bit field, as they are. -/
theorem interpolate_bounds {a b : Int} {f : Nat} (ha : -32768 ≤ a ∧ a < 32768) (hb : -32768 ≤ b ∧ b < 32768) (hf : f < 2048) :
    -32768 ≤ (2 * (a * 2048 + (b - a) * f) + 2048) / 4096 ∧ (2 * (a * 2048 + (b - a) * f) + 2048) / 4096 < 32768 := by
  have hmix : a * 2048 + (b - a) * f = a * (2048 - f) + b * f := by ring
  have hlow := mul_le_mul_of_nonneg_right ha.1 (a := 2048 - (f : Int)) (by omega)
  have hhigh := mul_le_mul_of_nonneg_right (Int.le_sub_one_of_lt ha.2) (a := 2048 - (f : Int)) (by omega)
  have hlow' := mul_le_mul_of_nonneg_right hb.1 (a := (f : Int)) (by omega)
  have hhigh' := mul_le_mul_of_nonneg_right (Int.le_sub_one_of_lt hb.2) (a := (f : Int)) (by omega)
  rw [hmix]
  omega

theorem State.linearise_bounds (s : State) (t code : Nat) : -32768 ≤ s.linearise t code ∧ s.linearise t code < 32768 :=
  interpolate_bounds (toSigned_bounds (w := 16) (by decide) _) (toSigned_bounds (w := 16) (by decide) _) (Nat.mod_lt _ (by decide))

/-- A signed 16-bit field that every module has reads what was written to it. -/
theorem State.rdS_wrS_fhv (s : State) {f : FhvF} {i : Nat} (hp : populated s.hw (.fhv f) i = true) (hw : f.row.width = 16) {z : Int}
    (hz : -32768 ≤ z ∧ z < 32768) : (s.wrS (.fhv f) i z).rdS (.fhv f) i = z := by
  have hw : (Fld.fhv f).row.width = 16 := hw
  rw [State.wrS_eq, State.rdS, State.rd_wr_same s hp, Nat.mod_eq_of_lt (ofSigned_lt ..), hw]
  exact toSigned_ofSigned (by decide) hz.1 hz.2

section Inputs

variable {s : State}

theorem exec_thermistorConversion {i : Nat} (hi : i < 16) (rt : Nat) :
    exec (.thermistorConversion i rt) s = .next (thermistorConversion i rt s) := by
  show guardWF (decide (i < 16)) _ = _
  rw [decide_eq_true hi]
  rfl

theorem exec_thermopileConversion {i : Nat} (hi : i < 8) {code : Int} (h1 : -32768 ≤ code) (h2 : code ≤ 32767) :
    exec (.thermopileConversion i code) s = .next (thermopileConversion i code s) := by
  show guardWF (decide (i < 8) && decide (-32768 ≤ code) && decide (code ≤ 32767)) _ = _
  rw [decide_eq_true hi, decide_eq_true h1, decide_eq_true h2]
  rfl

/-- The readings of a thermistor's conversion: the code, its wiring faults and the temperature. -/
def State.thermShown (s : State) (i c : Nat) : State :=
  ((s.wr (.fhv .tCode) i c).wrB (.fhv .tOpen) i (decide (64880 ≤ c))).wrB (.fhv .tShort) i (decide (c ≤ 64))

theorem State.rd_thermShown (i c : Nat) (f : FhvF) (j : Nat) (hf : f ≠ .tCode ∧ f ≠ .tOpen ∧ f ≠ .tShort) :
    (s.thermShown i c).rd (.fhv f) j = s.rd (.fhv f) j := by
  rw [State.thermShown, State.wrB_eq, State.wrB_eq, State.rd_wr_fhv_ne _ hf.2.2, State.rd_wr_fhv_ne _ hf.2.1,
    State.rd_wr_fhv_ne _ hf.1]

theorem State.linearise_thermShown (i c t code : Nat) : (s.thermShown i c).linearise t code = s.linearise t code := by
  have hlin (j : Nat) : (s.thermShown i c).rdS (.fhv .lin) j = s.rdS (.fhv .lin) j :=
    congrArg (toSigned _) (s.rd_thermShown i c .lin j (by decide))
  simp only [State.linearise, hlin]

section Calibrated

variable (hup : s.up .ctl = true) (hcal : s.calPast 5 = true)

include hup hcal

theorem rd_thermistorConversion (i rt : Nat) (f : FhvF) (j : Nat) : (thermistorConversion i rt s).rd (.fhv f) j =
    ((s.thermShown i (thermCode rt)).wrS (.fhv .tval) i (s.linearise (s.rd (.fhv .tTable) i) (thermCode rt))).rd (.fhv f) j := by
  rw [← s.linearise_thermShown i (thermCode rt), ← s.rd_thermShown i (thermCode rt) .tTable i (by decide)]
  unfold thermistorConversion
  rw [hup, hcal]
  rfl

/-- A conversion shows the code, the wiring faults that the code tells and the temperature that the table gives (R270). -/
theorem thermistorConversion_spec (i rt : Nat) :
    (thermistorConversion i rt s).rd (.fhv .tCode) i = thermCode rt ∧
      (thermistorConversion i rt s).rdS (.fhv .tval) i = s.linearise (s.rd (.fhv .tTable) i) (thermCode rt) ∧
      (thermistorConversion i rt s).rd (.fhv .tOpen) i = (if 64880 ≤ thermCode rt then 1 else 0) ∧
      (thermistorConversion i rt s).rd (.fhv .tShort) i = (if thermCode rt ≤ 64 then 1 else 0) := by
  refine ⟨?_, ?_, ?_, ?_⟩
  · rw [rd_thermistorConversion hup hcal, State.wrS_eq, State.rd_wr_fhv_ne _ (by decide), State.thermShown, State.wrB_eq, State.wrB_eq,
      State.rd_wr_fhv_ne _ (by decide), State.rd_wr_fhv_ne _ (by decide), State.rd_wr_same s rfl]
    exact Nat.mod_eq_of_lt (Nat.lt_succ_of_le (thermCode_le rt))
  · exact (congrArg (toSigned _) (rd_thermistorConversion hup hcal i rt .tval i)).trans
      (State.rdS_wrS_fhv _ rfl rfl (s.linearise_bounds ..))
  · rw [rd_thermistorConversion hup hcal, State.wrS_eq, State.rd_wr_fhv_ne _ (by decide), State.thermShown, State.wrB_eq (b := decide (_ ≤ 64)),
      State.rd_wr_fhv_ne _ (by decide), State.rd_wrB_same _ rfl (by decide)]
    simp
  · rw [rd_thermistorConversion hup hcal, State.wrS_eq, State.rd_wr_fhv_ne _ (by decide), State.thermShown,
      State.rd_wrB_same _ rfl (by decide)]
    simp

/-- A conversion that is not the 64th shows its code. -/
theorem thermopileConversion_reads {i : Nat} {code : Int} (h1 : -32768 ≤ code) (h2 : code ≤ 32767)
    (hn : Store.get 0 i s.fhv.pConv ≠ 63) : (thermopileConversion i code s).rdS (.fhv .pCode) i = code ∧
      (thermopileConversion i code s).rd (.fhv .pOpen) i = s.rd (.fhv .pOpen) i := by
  have he (f : FhvF) : (thermopileConversion i code s).rd (.fhv f) i = (s.wrS (.fhv .pCode) i code).rd (.fhv f) i := by
    unfold thermopileConversion
    rw [hup, hcal, Bool.not_true, Bool.or_self, if_neg Bool.false_ne_true]
    dsimp only
    rw [if_neg (by omega)]
    rfl
  exact ⟨(congrArg (toSigned _) (he .pCode)).trans (s.rdS_wrS_fhv rfl rfl ⟨h1, by omega⟩),
    (he .pOpen).trans (s.rd_wr_fhv_ne (by decide) ..)⟩

/-- Every 64th conversion tests for an open circuit, and gives no value. -/
theorem thermopileConversion_tests {i : Nat} (code : Int) (hn : Store.get 0 i s.fhv.pConv = 63) :
    (thermopileConversion i code s).rd (.fhv .pOpen) i = (if 32767 ≤ code then 1 else 0) ∧
      (thermopileConversion i code s).rd (.fhv .pCode) i = s.rd (.fhv .pCode) i := by
  have he (f : FhvF) : (thermopileConversion i code s).rd (.fhv f) i = (s.wrB (.fhv .pOpen) i (decide (32767 ≤ code))).rd (.fhv f) i := by
    unfold thermopileConversion
    rw [hup, hcal, hn]
    rfl
  exact ⟨(he .pOpen).trans ((s.rd_wrB_same rfl (by decide) _).trans (by simp)), (he .pCode).trans (s.rd_wr_fhv_ne (by decide) ..)⟩

end Calibrated

end Inputs

/-- Settles O40: an instant of a gate is judged, a comparator trips or clears, and an input converts, as their equations say. -/
theorem heatersAreGuarded : Obligations.HeatersAreGuarded := by
  refine ⟨fun s g e hg hup => ?_, fun s g hg hup => ⟨fun c code h => ?_, fun c code h => ?_, fun v a b hr => ?_⟩,
    fun s hup => ⟨fun hcal => ⟨fun i rt hi => ?_, fun i code hi h1 h2 hn => ?_, fun i code hi h1 h2 hn => ?_⟩,
      fun hcal => ⟨fun i rt hi => ?_, fun i code hi h1 h2 => ?_⟩⟩⟩
  · have hlow : (s.setGate g false).rd (.fhv .gate) g = 0 := s.rd_setGate_low g
    have hhigh : (s.setGate g true).on (.fhv .gate) g = true := s.on_setGate g true
    simp only [exec_heaterGateFire _ _ _ hg]
    refine ⟨fun z p h => congrArg _ (heaterGateFire_crossed e hup h), fun hx => ⟨fun hb => ?_, fun hb hrdy hm => ⟨fun hr => ?_,
      fun hr => ?_, ?_⟩, fun hb hrdy hm => ⟨fun hn => ?_, fun hn => ?_, fun hn hr => ?_, fun hn hr => ?_⟩⟩⟩
    · obtain ⟨hrise, hfall⟩ := heaterGateFire_of_not_free hup hx (g := g) (by rcases hb with h | h <;> simp [State.gateFree, h])
      exact ⟨congrArg _ hrise, _, congrArg _ hfall, hlow⟩
    all_goals have hfree : s.gateFree g = true := by simp [State.gateFree, hb, hrdy]
    · exact ⟨_, congrArg _ ((heaterGateFire_of_phase hup hx hfree hm).1.trans (if_neg hr)), hhigh⟩
    · exact congrArg _ ((heaterGateFire_of_phase hup hx hfree hm).1.trans (if_pos hr))
    · exact ⟨_, congrArg _ (heaterGateFire_of_phase hup hx hfree hm).2, hlow⟩
    · obtain ⟨hrise, hfall⟩ := heaterGateFire_of_decided hup hx hfree hm hn
      exact ⟨congrArg _ hfall, _, congrArg _ hrise, hhigh⟩
    · obtain ⟨hrise, hfall⟩ := heaterGateFire_of_decided hup hx hfree hm hn
      exact ⟨congrArg _ hrise, _, congrArg _ hfall, hlow⟩
    · exact congrArg _ (heaterGateFire_burstNext e hup hx hm hfree hn hr)
    · obtain ⟨hrise, hfall⟩ := heaterGateFire_of_undecided hup hx hm hn hr
      exact ⟨congrArg _ hrise, _, congrArg _ hfall, hlow⟩
  · obtain ⟨t, ht, hgate, hlatch⟩ := otcTrip_runs hg hup c h
    refine ⟨t, ht, hgate, ?_⟩
    cases c <;> exact hlatch
  · rw [exec_otcTrip hg hup, h]
    rfl
  · exact ⟨_, exec_otcClear hg hr v a b, rd_otcClear hup v a b⟩
  · exact ⟨_, exec_thermistorConversion hi rt, thermistorConversion_spec hup hcal i rt⟩
  · exact ⟨_, exec_thermopileConversion hi h1 h2, thermopileConversion_reads hup hcal h1 h2 hn⟩
  · exact ⟨_, exec_thermopileConversion hi h1 h2, thermopileConversion_tests hup hcal code hn⟩
  · rw [exec_thermistorConversion hi, thermistorConversion, if_pos (by simp [hcal])]
  · rw [exec_thermopileConversion hi h1 h2, thermopileConversion, if_pos (by simp [hcal])]

/-! ### One frame of a high-voltage channel (O41: R272 to R274) -/

section Channel

variable (s : State) (c fb : Nat)

/-- FHV_VFB shows the feedback once step 6 of calibration has ended (R365). -/
def State.hvShown : State := if s.calPast 6 then s.wr (.fhv .vfb) c (min 4095 fb) else s

/-- Consecutive frames with feedback at or above FB_HI, this one included (R274). -/
def State.hvOver : Nat :=
  if s.calPast 6 ∧ (s.hvShown c fb).rd (.fhv .fbHi) c ≠ 0 ∧ (s.hvShown c fb).rd (.fhv .fbHi) c ≤ min 4095 fb then
    Store.get 0 c (s.hvShown c fb).fhv.high + 1 else 0

/-- The feedback of a frame is shown and judged. -/
def State.hvSensed : State :=
  { s.hvShown c fb with fhv := { (s.hvShown c fb).fhv with
    high := Store.set id 0 c (s.hvOver c fb) (s.hvShown c fb).fhv.high } }

/-- A frame of a channel that has not tripped: the state machine of R273, with REF moving under VRAMP. -/
def State.hvMoved (cal : Bool) : State :=
  let ref := s.rd (.fhv .vref) c
  let step := s.rd (.fhv .vramp) c
  match s.rd (.fhv .vstate) c, (s.applied 1 c).map fun v => if cal then v else 0 with
  | 0, some _ => ((s.wr (.fhv .vstate) c 1).wr (.fhv .hven) c 1).wr (.fhv .vref) c 0
  | 1, none => s.wr (.fhv .vstate) c 3
  | 2, some v => s.wr (.fhv .vref) c (rampRef ref (refTarget v) step)
  | 2, none => (s.wr (.fhv .vstate) c 3).wr (.fhv .vref) c (rampRef ref 0 step)
  | 3, some v => (s.wr (.fhv .vstate) c 2).wr (.fhv .vref) c (rampRef ref (refTarget v) step)
  | 3, none =>
    if rampRef ref 0 step = 0 then (s.wr (.fhv .vref) c (rampRef ref 0 step)).hvHardOff c
    else s.wr (.fhv .vref) c (rampRef ref 0 step)
  | _, _ => s

/-- A frame of a channel: the feedback is judged, and a channel that has not tripped moves. -/
theorem hvChannel_eq : hvChannel c fb s =
    if s.hvOver c fb ≠ 0 ∧ (s.hvSensed c fb).rd (.fhv .fbT) c ≤ s.hvOver c fb then
      ((s.hvSensed c fb).ev (.fhv .fbhiTrip) c).hvHardOff c
    else if (s.hvSensed c fb).on (.fhv .fbhiTrip) c then s.hvSensed c fb
    else (s.hvSensed c fb).hvMoved c (s.calPast 6) := rfl

end Channel

/-! #### What a frame of a channel leaves -/

section Unchanged

variable {β : Type} {π : State → β} {c : Nat} (hwr : ∀ (t : State) f v, π (t.wr (.fhv f) c v) = π t)

include hwr

theorem State.hvHardOff_unchanged (s : State) : π (s.hvHardOff c) = π s := (hwr ..).trans ((hwr ..).trans (hwr ..))

theorem State.hvMoved_unchanged (s : State) (cal : Bool) : π (s.hvMoved c cal) = π s := by
  unfold State.hvMoved
  extract_lets ref step
  split
  case h_1 => exact (hwr ..).trans ((hwr ..).trans (hwr ..))
  case h_2 | h_3 => exact hwr ..
  case h_4 | h_5 => exact (hwr ..).trans (hwr ..)
  case h_6 =>
    split
    · exact (State.hvHardOff_unchanged hwr _).trans (hwr ..)
    · exact hwr ..
  case h_7 => rfl

/-- A frame of a channel shows in the channel's registers and its count of frames alone. -/
theorem hvChannel_unchanged (hhigh : ∀ (t : State) n, π { t with fhv := { t.fhv with high := Store.set id 0 c n t.fhv.high } } = π t)
    (fb : Nat) (s : State) : π (hvChannel c fb s) = π s := by
  have hsensed : π (s.hvSensed c fb) = π s := by
    refine (hhigh ..).trans ?_
    unfold State.hvShown
    split
    · exact hwr ..
    · rfl
  rw [hvChannel_eq]
  split
  · exact (State.hvHardOff_unchanged hwr _).trans ((hwr ..).trans hsensed)
  · split
    · exact hsensed
    · exact (State.hvMoved_unchanged hwr ..).trans hsensed

end Unchanged

/-- What a channel's feedback is judged by: its registers, its count of frames, its module and its calibration. -/
def State.hvSeen (s : State) (c : Nat) : Hardware × Bool × Nat × (FhvF → Nat) :=
  (s.hw, s.calPast 6, Store.get 0 c s.fhv.high, fun f => s.rd (.fhv f) c)

theorem State.hvSeen_eq_iff {s t : State} {c : Nat} : t.hvSeen c = s.hvSeen c ↔ t.hw = s.hw ∧ t.calPast 6 = s.calPast 6 ∧
    Store.get 0 c t.fhv.high = Store.get 0 c s.fhv.high ∧ ∀ f, t.rd (.fhv f) c = s.rd (.fhv f) c := by
  simp [State.hvSeen, funext_iff]

/-- A frame of one channel is not seen by another. -/
theorem hvSeen_hvChannel {c j : Nat} (h : j ≠ c) (fb : Nat) (s : State) : (hvChannel j fb s).hvSeen c = s.hvSeen c := by
  refine hvChannel_unchanged (π := (State.hvSeen · c)) (fun t f v => ?_) (fun t n => ?_) fb s
  · refine State.hvSeen_eq_iff.2 ⟨t.wr_hw .., t.calPast_wr_fhv .., by rw [t.wr_fhv], fun g => t.rd_wr_ne ?_ v⟩
    exact fun e => h (Prod.mk.inj e).2.symm
  · exact State.hvSeen_eq_iff.2 ⟨rfl, rfl, Store.get_set_ne h.symm .., fun _ => rfl⟩

/-! #### What a frame of a channel does to it -/

section Sensed

variable (s : State) (c fb : Nat)

@[simp] theorem State.hvShown_hw : (s.hvShown c fb).hw = s.hw := by unfold State.hvShown; split <;> simp

@[simp] theorem State.hvSensed_hw : (s.hvSensed c fb).hw = s.hw := s.hvShown_hw c fb

theorem State.rd_hvShown {f : FhvF} (hf : f ≠ .vfb) (i : Nat) : (s.hvShown c fb).rd (.fhv f) i = s.rd (.fhv f) i := by
  unfold State.hvShown
  split
  · exact s.rd_wr_fhv_ne hf ..
  · rfl

theorem State.rd_hvSensed {f : FhvF} (hf : f ≠ .vfb) (i : Nat) : (s.hvSensed c fb).rd (.fhv f) i = s.rd (.fhv f) i :=
  s.rd_hvShown c fb hf i

theorem State.hvOver_eq : s.hvOver c fb =
    if s.calPast 6 ∧ s.rd (.fhv .fbHi) c ≠ 0 ∧ s.rd (.fhv .fbHi) c ≤ min 4095 fb then Store.get 0 c s.fhv.high + 1 else 0 := by
  have hhigh : (s.hvShown c fb).fhv = s.fhv := by unfold State.hvShown; split <;> simp
  rw [State.hvOver, s.rd_hvShown c fb (by decide), hhigh]

end Sensed

theorem rampRef_bounds {ref target : Nat} (hr : ref < 4096) (ht : target < 4096) (step : Nat) :
    rampRef ref target step < 4096 ∧ rampRef ref target step ≤ ref + step ∧ ref ≤ rampRef ref target step + step := by
  unfold rampRef
  split <;> omega

theorem refTarget_lt (u : Nat) : refTarget u < 4096 := by
  unfold refTarget
  omega

/-- A hard off takes HVEN low and REF to 0 (R273). -/
theorem State.rd_hvHardOff {s : State} {c : Nat} (hc : c < s.hw.hvs) (f : FhvF) : (s.hvHardOff c).rd (.fhv f) c =
    if f = .vref ∨ f = .hven ∨ f = .vstate then 0 else s.rd (.fhv f) c := by
  unfold State.hvHardOff
  rw [State.rd_wr_hv (by simpa using hc), State.rd_wr_hv (by simpa using hc), State.rd_wr_hv hc]
  split_ifs <;> simp_all

/-- REF moves by at most VRAMP while a channel is ON or in RAMPDOWN (R272, R273). -/
theorem State.vref_hvMoved {s : State} {c : Nat} (hc : c < s.hw.hvs) (hst : s.rd (.fhv .vstate) c = 2 ∨ s.rd (.fhv .vstate) c = 3)
    (href : s.rd (.fhv .vref) c < 4096) (cal : Bool) :
    (s.hvMoved c cal).rd (.fhv .vref) c ≤ s.rd (.fhv .vref) c + s.rd (.fhv .vramp) c ∧
      s.rd (.fhv .vref) c ≤ (s.hvMoved c cal).rd (.fhv .vref) c + s.rd (.fhv .vramp) c := by
  have hramp {t : State} (ht : c < t.hw.hvs) {target : Nat} (hg : target < 4096) (r : Nat)
      (hr : r = (t.wr (.fhv .vref) c (rampRef (s.rd (.fhv .vref) c) target (s.rd (.fhv .vramp) c))).rd (.fhv .vref) c) :
      r ≤ s.rd (.fhv .vref) c + s.rd (.fhv .vramp) c ∧ s.rd (.fhv .vref) c ≤ r + s.rd (.fhv .vramp) c := by
    obtain ⟨hlt, hup, hdown⟩ := rampRef_bounds href hg (s.rd (.fhv .vramp) c)
    rw [State.rd_wr_hv ht, if_pos rfl] at hr
    rw [hr.trans (Nat.mod_eq_of_lt hlt)]
    exact ⟨hup, hdown⟩
  have hwr (v : Nat) : c < (s.wr (.fhv .vstate) c v).hw.hvs := by simpa using hc
  unfold State.hvMoved
  extract_lets ref step
  split
  case h_1 h _ | h_2 h _ => omega
  case h_3 | h_5 => exact hramp (by simpa using hc) (refTarget_lt _) _ rfl
  case h_4 => exact hramp (hwr _) (by decide) _ rfl
  case h_6 =>
    split
    · next h0 =>
      refine hramp hc (target := 0) (by decide) _ ?_
      rw [State.rd_hvHardOff (by simpa using hc), if_pos (.inl rfl), State.rd_wr_hv hc, if_pos rfl, h0]
      rfl
    · exact hramp hc (by decide) _ rfl
  case h_7 => exact ⟨Nat.le_add_right .., Nat.le_add_right ..⟩

section Framed

variable {s : State} {c : Nat} (hc : c < s.hw.hvs)

include hc

/-- With FB_HI at 0 and no trip, a frame moves REF by at most VRAMP (R272, R274). -/
theorem hvChannel_ramps (hst : s.rd (.fhv .vstate) c = 2 ∨ s.rd (.fhv .vstate) c = 3) (htrip : s.on (.fhv .fbhiTrip) c = false)
    (hlim : s.rd (.fhv .fbHi) c = 0) (href : s.rd (.fhv .vref) c < 4096) (fb : Nat) :
    (hvChannel c fb s).rd (.fhv .vref) c ≤ s.rd (.fhv .vref) c + s.rd (.fhv .vramp) c ∧
      s.rd (.fhv .vref) c ≤ (hvChannel c fb s).rd (.fhv .vref) c + s.rd (.fhv .vramp) c := by
  have hseen {f : FhvF} (hf : f ≠ .vfb) : (s.hvSensed c fb).rd (.fhv f) c = s.rd (.fhv f) c := s.rd_hvSensed c fb hf c
  have hover : s.hvOver c fb = 0 := by rw [s.hvOver_eq, if_neg (by simp [hlim])]
  rw [hvChannel_eq, if_neg (by simp [hover]), if_neg (by rw [State.on_eq, hseen (by decide), ← State.on_eq, htrip]; decide),
    ← hseen (f := .vref) (by decide), ← hseen (f := .vramp) (by decide)]
  exact State.vref_hvMoved (by simpa using hc) (by rwa [hseen (by decide)]) (by rwa [hseen (by decide)]) _

/-- Feedback at or above FB_HI in the last of FB_T frames trips the channel and takes it off (R273, R274). -/
theorem hvChannel_trips {fb : Nat} (hcal : s.calPast 6 = true) (hlim : 0 < s.rd (.fhv .fbHi) c) (hfb : s.rd (.fhv .fbHi) c ≤ fb)
    (hlt : fb < 4096) (ht : s.rd (.fhv .fbT) c ≤ Store.get 0 c s.fhv.high + 1) :
    (hvChannel c fb s).rd (.fhv .fbhiTrip) c = 1 ∧ (hvChannel c fb s).rd (.fhv .vref) c = 0 ∧
      (hvChannel c fb s).rd (.fhv .hven) c = 0 := by
  have hover : s.hvOver c fb = Store.get 0 c s.fhv.high + 1 := by
    rw [s.hvOver_eq, if_pos ⟨hcal, hlim.ne', le_min (by omega) hfb⟩]
  have hs : c < (s.hvSensed c fb).hw.hvs := by simpa using hc
  have hv : c < ((s.hvSensed c fb).ev (.fhv .fbhiTrip) c).hw.hvs := by simpa [State.ev_eq] using hc
  rw [hvChannel_eq, hover, if_pos ⟨Nat.succ_ne_zero _, by rwa [s.rd_hvSensed c fb (by decide)]⟩]
  refine ⟨?_, ?_, ?_⟩ <;> rw [State.rd_hvHardOff hv]
  · rw [if_neg (by decide), State.ev_eq, State.rd_wr_hv hs, if_pos rfl]
    rfl
  · rfl
  · rfl

end Framed

/-! #### A frame of every channel -/

theorem rd_hvFrame {s : State} (hup : s.up .ctl = true) (fb : List Nat) (f : Fld) (i : Nat) : (hvFrame fb s).rd f i =
    ((List.range s.hw.hvs).foldl (fun t c => hvChannel c (fb.getD c 0) t) s).rd f i := by
  unfold hvFrame
  rw [hup, Bool.not_true, if_neg Bool.false_ne_true]
  extract_lets refs t
  split
  · rfl
  · exact t.rd_emit ..

/-- A frame does to each channel what its own feedback does to it. -/
theorem hvFrame_visits {s : State} (hup : s.up .ctl = true) {c : Nat} (hc : c < s.hw.hvs) (fb : List Nat) :
    ∃ t, t.hvSeen c = s.hvSeen c ∧ ∀ f, (hvFrame fb s).rd (.fhv f) c = (hvChannel c (fb.getD c 0) t).rd (.fhv f) c := by
  obtain ⟨t, ht, e⟩ := foldl_visits (π := (State.hvSeen · c)) (fun t j hj => hvSeen_hvChannel hj (fb.getD j 0) t)
    List.nodup_range (List.mem_range.2 hc) s
  exact ⟨t, ht, fun f => (rd_hvFrame hup fb _ _).trans ((State.hvSeen_eq_iff.1 e).2.2.2 f)⟩

theorem exec_hvFrame {fb : List Nat} (hlen : fb.length ≤ 48) (hfb : ∀ x ∈ fb, x < 4096) (s : State) :
    exec (.hvFrame fb) s = .next (hvFrame fb s) := by
  show guardWF (decide (fb.length ≤ 48) && fb.all fun x => decide (x < 4096)) _ = _
  rw [decide_eq_true hlen, List.all_eq_true.2 fun x hx => decide_eq_true (hfb x hx)]
  rfl

theorem exec_hvLeadEnd {s : State} (hup : s.up .ctl = true) {c : Nat} (hc : c < 48) : exec (.hvLeadEnd c) s = .next
    (if s.rd (.fhv .vstate) c = 1 then s.wr (.fhv .vstate) c 2 else s) := by
  show guardWF (decide (c < 48)) (if s.up .ctl && s.rd (.fhv .vstate) c == 1 then s.wr (.fhv .vstate) c 2 else s) = _
  simp [hup, hc, guardWF]

/-- A write that clears FBHI_TRIP is refused while feedback is at or above FB_HI (R274). -/
theorem exec_fbhiClear {s : State} (hup : s.up .ctl = true) (hr : s.Reaches .fhv 0) {c : Nat} (hc : c < 48) {v : Word}
    (hv : v.toNat / 8 % 2 = 1) : exec (.fbhiClear c v) s = .next
      (if s.rd (.fhv .fbHi) c ≠ 0 ∧ s.rd (.fhv .fbHi) c ≤ s.rd (.fhv .vfb) c then s else s.wr (.fhv .fbhiTrip) c 0) := by
  show execFbhiClear c v s = _
  rw [execFbhiClear, State.hostWrite_of_reaches hr, hup, hv, decide_eq_true hc, guardWF_true, State.clr_eq]
  by_cases h0 : s.rd (.fhv .fbHi) c = 0
  · simp [h0]
  · by_cases hle : s.rd (.fhv .fbHi) c ≤ s.rd (.fhv .vfb) c <;> simp [h0, hle]

/-- Settles O41: a frame does to each channel what its own feedback does to it, a bounded move or a trip; the other commands are their
equations. -/
theorem highVoltageIsBounded : Obligations.HighVoltageIsBounded := by
  refine fun s hup => ⟨fun fb hlen hfb => ⟨_, exec_hvFrame hlen hfb s, fun c hc hst htrip hlim _ href => ?_,
    fun c hc hcal hlim hle ht => ?_⟩, fun c hc h1 => ?_, fun c hc h1 => ?_, fun c v hc hv hr => ⟨fun h => ?_, fun h0 hle => ?_⟩⟩
  · obtain ⟨t, hseen, hrd⟩ := hvFrame_visits hup hc fb
    obtain ⟨hhw, -, -, hreg⟩ := State.hvSeen_eq_iff.1 hseen
    simp only [State.on_eq, ← hreg] at *
    rw [hrd]
    exact hvChannel_ramps (hhw ▸ hc) hst htrip hlim href _
  · obtain ⟨t, hseen, hrd⟩ := hvFrame_visits hup hc fb
    obtain ⟨hhw, hcal', hhigh, hreg⟩ := State.hvSeen_eq_iff.1 hseen
    have hlt : fb.getD c 0 < 4096 := by
      rw [List.getD_eq_getElem?_getD]
      cases h : fb[c]? with
      | none => decide
      | some x => exact hfb x (List.mem_of_getElem? h)
    simp only [hrd]
    rw [← hreg] at hlim hle ht
    exact hvChannel_trips (hhw ▸ hc) (hcal'.trans hcal) hlim hle hlt (hhigh ▸ ht)
  · rw [exec_hvLeadEnd hup hc, if_pos h1]
  · rw [exec_hvLeadEnd hup hc, if_neg h1]
  · rw [exec_fbhiClear hup hr hc hv, if_neg (by omega)]
  · rw [exec_fbhiClear hup hr hc hv, if_pos ⟨h0, hle⟩]

end Sys2Proof.Machine

/-! PROOFS. The statements on the paper path: how sheets are fed, how they reach their output, and the web sequence. -/

namespace Sys2Proof.Machine

open Sys2Proof

/-! ### The fields of the path (R305) -/

/-- Every field of PTH but STNPOS stands on every module: it reads what was last written to it (R2). -/
theorem State.rd_wr_pth (s : State) {f : PthF} (hf : f ≠ .stnpos) (g : PthF) (i j v : Nat) :
    (s.wr (.pth f) i v).rd (.pth g) j = if g = f ∧ j = i then v % 2 ^ f.row.width else s.rd (.pth g) j := by
  have hp : populated s.hw (.pth f) i = true := by
    cases f with
    | stnpos => exact absurd rfl hf
    | _ => rfl
  rw [State.rd_wr]
  simp [hp, Fld.row]

/-! ### What most operations leave of the path -/

/-- The path as its own commands leave it for each other: which domains are up, the sensors, the feed grid, and the fields of PTH but
DISP_LATE, which a spoiled sheet sets. -/
def State.pathView (s : State) : List Dom × List Island × Store Nat Sensor × Option Int × (PthF → Nat → Nat) :=
  (s.inReset, s.isolated, s.pth.sensors, s.pth.feedBase, fun f i => if f = .dispLate then 0 else s.rd (.pth f) i)

theorem State.pathView_eq_iff {s t : State} : t.pathView = s.pathView ↔ t.inReset = s.inReset ∧ t.isolated = s.isolated ∧
    t.pth.sensors = s.pth.sensors ∧ t.pth.feedBase = s.pth.feedBase ∧
      ∀ f ≠ .dispLate, ∀ i, t.rd (.pth f) i = s.rd (.pth f) i := by
  simp only [State.pathView, Prod.mk.injEq, funext_iff]
  refine and_congr_right fun _ => and_congr_right fun _ => and_congr_right fun _ => and_congr_right fun _ =>
    forall_congr' fun f => ?_
  by_cases hf : f = .dispLate <;> simp [hf]

section PathView

variable {s t : State} (h : t.pathView = s.pathView)

include h

theorem State.up_of_pathView (d : Dom) : t.up d = s.up d := by
  obtain ⟨hr, hi, -⟩ := State.pathView_eq_iff.1 h
  rw [State.up, hr, hi]; rfl

theorem State.sensor_of_pathView (i : Nat) : t.sensor i = s.sensor i := by
  obtain ⟨-, -, hs, -⟩ := State.pathView_eq_iff.1 h
  rw [State.sensor, hs]; rfl

theorem State.feedBase_of_pathView : t.pth.feedBase = s.pth.feedBase := by
  obtain ⟨-, -, -, hb, -⟩ := State.pathView_eq_iff.1 h
  exact hb

theorem State.rd_of_pathView {f : PthF} (hf : f ≠ .dispLate) (i : Nat) : t.rd (.pth f) i = s.rd (.pth f) i := by
  obtain ⟨-, -, -, -, hrd⟩ := State.pathView_eq_iff.1 h
  exact hrd f hf i

end PathView

section Leaves

variable (s : State)

theorem State.pathView_wr {f : Fld} (hf : f.block ≠ .pth) (i v : Nat) : (s.wr f i v).pathView = s.pathView :=
  State.pathView_eq_iff.2 ⟨s.wr_inReset .., s.wr_isolated .., by rw [s.wr_pth], by rw [s.wr_pth],
    fun _ _ _ => s.rd_wr_ne (fun e => hf (congrArg Fld.block (Prod.mk.inj e).1).symm) v⟩

theorem State.pathView_ev_dispLate : (s.ev (.pth .dispLate)).pathView = s.pathView :=
  State.pathView_eq_iff.2 ⟨s.wr_inReset .., s.wr_isolated .., by rw [State.ev_eq, s.wr_pth], by rw [State.ev_eq, s.wr_pth],
    fun _ hf _ => s.rd_wr_ne (fun e => hf (Fld.pth.inj (Prod.mk.inj e).1)) 1⟩

@[simp] theorem State.pathView_upward (kind : Nat) (data : List Int) : (s.upward kind data).pathView = s.pathView := rfl
@[simp] theorem State.pathView_closeDecision (kind unit : Nat) : (s.closeDecision kind unit).pathView = s.pathView := rfl
@[simp] theorem State.pathView_setCtx (c : Nat) (x : Ctx) : (s.setCtx c x).pathView = s.pathView := rfl
@[simp] theorem State.pathView_setStn (k : Nat) (x : Stn) : (s.setStn k x).pathView = s.pathView := rfl
@[simp] theorem State.pathView_setAxis (k : Nat) (x : Axis) : (s.setAxis k x).pathView = s.pathView := rfl
@[simp] theorem State.pathView_setSlot (n : Nat) (x : Slot) : (s.setSlot n x).pathView = s.pathView := rfl

@[simp] theorem State.pathView_broadcast (kind : Nat) (data : List Int) : (s.broadcast kind data).pathView = s.pathView := by
  obtain ⟨o, e⟩ := s.broadcast_eq kind data
  rw [e]; rfl

@[simp] theorem State.pathView_post (kind unit : Nat) (data : List Nat) : (s.post kind unit data).pathView = s.pathView := by
  unfold State.post
  dsimp only
  split
  · split <;> rfl
  · split
    · obtain ⟨o, pc, tk, ds, e⟩ := s.enqueue_eq _ kind unit data
      rw [e]; rfl
    · split
      · exact s.pathView_wr (by decide) ..
      · rfl

/-! #### Sheets (R82 to R92) -/

@[simp] theorem State.pathView_toState (c : Nat) (st : CtxState) : (s.toState c st).pathView = s.pathView := by
  unfold State.toState
  dsimp only
  split
  · exact State.pathView_wr _ (by decide) ..
  · rfl

@[simp] theorem State.pathView_settleGate : s.settleGate.pathView = s.pathView := by
  refine (State.pathView_wr _ (by decide) ..).trans (foldl_unchanged (fun t k => ?_) _ s)
  split
  · rfl
  · exact t.pathView_wr (by decide) ..

@[simp] theorem State.pathView_reclaimCtx (c : Nat) : (s.reclaimCtx c).pathView = s.pathView := by
  refine foldl_unchanged (f := State.reclaimOne) (fun t r => ?_) _ s
  have hidle : (t.verifyIdle (t.band r)).pathView = t.pathView := by
    unfold State.verifyIdle
    split
    · exact (State.pathView_wr _ (by decide) ..).trans (t.pathView_wr (by decide) ..)
    · rfl
  exact hidle

@[simp] theorem State.pathView_settleCtx (c : Nat) : (s.settleCtx c).pathView = s.pathView := by
  unfold State.settleCtx
  dsimp only
  split
  · split <;> simp
  · simp

@[simp] theorem State.pathView_spoilHere (c cause : Nat) : (s.spoilHere c cause).pathView = s.pathView := by
  unfold State.spoilHere
  extract_lets x spoiled closed noted posed
  have hnoted : noted.pathView = s.pathView := by
    unfold noted
    split
    · exact closed.pathView_ev_dispLate.trans (by simp [closed, spoiled])
    · simp [closed, spoiled]
  rw [State.pathView_settleCtx]
  unfold posed
  split
  · rw [State.pathView_post, noted.pathView_wr (by decide), hnoted]
  · exact hnoted

@[simp] theorem State.pathView_spoil (c cause : Nat) : (s.spoil c cause).pathView = s.pathView := by
  unfold State.spoil
  dsimp only
  split
  · split <;> simp
  · rfl

@[simp] theorem State.pathView_darkenAll (c : Nat) : (s.darkenAll c).pathView = s.pathView :=
  foldl_unchanged (fun t _ => t.pathView_setCtx c _) _ s

@[simp] theorem State.pathView_pathSpoil (c pcause : Nat) : (s.pathSpoil c pcause).pathView = s.pathView := by
  unfold State.pathSpoil
  dsimp only
  split <;> simp

/-! #### The admission gate (R85 to R90) -/

@[simp] theorem State.pathView_admitCtx (c : Nat) : (s.admitCtx c).pathView = s.pathView := by
  unfold State.admitCtx
  extract_lets x plan assigned admitted queued l passed closed w framed exposed
  have hassigned : assigned.pathView = s.pathView := foldl_unchanged (fun t e => t.pathView_wr (by decide) ..) _ s
  have hqueued : queued.pathView = s.pathView :=
    (foldl_unchanged (g := State.pathView) (fun t k => t.pathView_setStn k _) _ admitted).trans (by simp [admitted, hassigned])
  have hclosed : closed.pathView = s.pathView := (passed.pathView_wr (f := .pgs .admRefuse) (by decide) 0 0).trans hqueued
  have hframed : framed.pathView = s.pathView := by
    unfold framed
    split <;> exact hclosed
  rw [State.pathView_settleGate]
  unfold exposed
  split
  · rw [State.pathView_toState, hframed]
  · exact hframed

@[simp] theorem State.pathView_passGate (c : Nat) : (s.passGate c).pathView = s.pathView := by
  unfold State.passGate
  split
  · split
    · rfl
    · simp only [State.pathView_broadcast]; rfl
  · simp

@[simp] theorem State.pathView_requestGate : s.requestGate.pathView = s.pathView := by
  have hgate (t : State) : t.gate.pathView = t.pathView := by
    unfold State.gate
    dsimp only
    split
    · rfl
    · split
      · exact t.pathView_wr (f := .pgs .admRefuse) (by decide) ..
      · split
        · rfl
        · split
          · split <;> simp
          · simp
  exact hgate _

/-! #### Units in service again (R253, R359) -/

@[simp] theorem State.pathView_slotReturn (n : Nat) : (s.slotReturn n).pathView = s.pathView := by
  unfold State.slotReturn State.setSlotSt
  rw [State.pathView_setSlot, State.settleHeaters_unchanged _ (π := State.pathView) (fun t _ _ => t.pathView_wr (by decide) ..)
    (fun _ _ => rfl) fun _ _ _ => rfl]
  exact (State.pathView_wr _ (f := .cle .resumePend) (by decide) ..).trans ((State.pathView_wr _ (f := .cle .injAct) (by decide) ..).trans
    (s.pathView_wr (f := .cle .state) (by decide) ..))

@[simp] theorem State.pathView_slotBoundary : s.slotBoundary.pathView = s.pathView := by
  refine foldl_unchanged (fun t n => ?_) _ s
  split <;> rfl

@[simp] theorem State.pathView_unitService (u : UnitId) : (s.unitService u).pathView = s.pathView := by
  unfold State.unitService
  dsimp only
  cases u with
  | engine n =>
    dsimp only
    split
    · exact (State.pathView_wr _ (f := .cmp .jState) (by decide) ..)
    · rfl
  | axis k => rfl
  | slot n => exact State.pathView_slotReturn ..
  | station k => exact State.pathView_wr _ (f := .btu .ready) (by decide) ..

/-! #### The process axis (R226) -/

@[simp] theorem State.pathView_axStop (k : Nat) (p : Plan) : (s.axStop k p).pathView = s.pathView := by
  rw [State.axStop_eq, State.pathView_setAxis, State.setAxSt, State.pathView_wr _ (by decide), State.homeStopped]
  split
  · exact (State.pathView_wr _ (by decide) ..).trans (s.pathView_wr (by decide) ..)
  · rfl

@[simp] theorem State.pathView_startMove (k : Nat) (goal : Int) : (s.startMove k goal).pathView = s.pathView :=
  (State.pathView_wr _ (by decide) ..).trans (s.pathView_wr (by decide) ..)

end Leaves

/-! ### Feeding (O42: R283, R284) -/

theorem State.mem_out_broadcast {s : State} {o : Out} (h : o ∈ s.out) (kind : Nat) (data : List Int) :
    o ∈ (s.broadcast kind data).out := by
  unfold State.broadcast
  split
  · exact List.mem_cons_of_mem _ (List.mem_cons_of_mem _ h)
  · exact h

theorem exec_overspeedDetect {s : State} (hup : s.up .mot = true) : exec .overspeedDetect s = .next
    (if s.pth.fast = 3 then ({ s with pth := { s.pth with fast := 4 } } : State).ev (.pth .overspeed) else s) := by
  show guardWF true (overspeedDetect s) = _
  simp [overspeedDetect, hup, guardWF_true]

/-- A feed puts the context in STAGE 1, raises FEED, and tracks the sheet. -/
theorem State.feed_eq (s : State) (c : Nat) : ∃ o ts, Out.pin 0 true ∈ o ∧ s.feed c =
    { s.setStage c 1 with out := o, pth := { s.pth with tracks := ts, feedEnd := some (s.etime + feedPulse) } } := by
  unfold State.feed
  extract_lets staged p pulsed q fed
  obtain ⟨ts, hfed⟩ : ∃ ts, fed = { pulsed with pth := { pulsed.pth with tracks := ts } } := by
    unfold fed
    split <;> exact ⟨_, rfl⟩
  have hpin : Out.pin 0 true ∈ (fed.broadcast 6 [((fed.ctx c).tag : Int)]).out :=
    State.mem_out_broadcast (hfed ▸ List.mem_cons_self ..) ..
  obtain ⟨o, ho⟩ := fed.broadcast_eq 6 [((fed.ctx c).tag : Int)]
  rw [ho] at hpin ⊢
  exact ⟨o, ts, hpin, by rw [hfed]; rfl⟩

theorem State.feed_spec (s : State) (c : Nat) : (s.feed c).pth.feedBase = s.pth.feedBase ∧ ((s.feed c).ctx c).stage = 1 ∧
    Out.pin 0 true ∈ (s.feed c).out ∧ (s.feed c).pth.feedEnd = some (s.etime + 1000000) ∧
      (s.feed c).pth.refeed = s.pth.refeed := by
  obtain ⟨o, ts, hpin, e⟩ := s.feed_eq c
  rw [e]
  exact ⟨rfl, congrArg Ctx.stage (State.ctx_setCtx_same s c _), hpin, rfl, rfl⟩

@[simp] theorem State.pathView_feed (s : State) (c : Nat) : (s.feed c).pathView = s.pathView := by
  obtain ⟨o, ts, -, e⟩ := s.feed_eq c
  rw [e]; rfl

theorem State.skipFeed_spec (s : State) : s.skipFeed.pth = s.pth ∧ s.skipFeed.loam = s.loam ∧
    s.skipFeed.rd (.pth .feedHold) = s.rd (.pth .feedHold) ∧
      s.skipFeed.rd (.pth .skipcnt) = satInc (Fld.pth .skipcnt).row.width (s.rd (.pth .skipcnt)) := by
  refine ⟨s.wr_pth .., s.wr_loam .., s.rd_wr_ne (by decide) _, ?_⟩
  exact (s.rd_wr_same rfl _).trans (Nat.mod_eq_of_lt (satInc_lt ..))

/-- The feed grid has come to a feed point. -/
def State.atFeedPoint (s : State) (b : Int) : State := { s with pth := { s.pth with feedBase := some b } }

theorem exec_feedPoint_of_not_due {s : State} (hb : s.feedDue = none) : exec .feedPoint s = .next s := by
  show guardWF true (feedPoint s) = _
  simp [feedPoint, hb, guardWF_true]

section FeedPoint

variable {s : State} (hup : s.up .mot = true) (hweb : s.web = false) (hslave : s.isSlave = false)

include hup hweb hslave

theorem exec_feedPoint_of_due (hst : s.ldr.st = .armed ∨ s.ldr.st = .disarming) {b : Int} (hb : s.feedDue = some b) :
    exec .feedPoint s = .next (s.atFeedPoint b).feedAct := by
  show guardWF true (feedPoint s) = _
  have hst : (s.ldr.st == .armed || s.ldr.st == .disarming) = true := by simpa using hst
  simp only [feedPoint, hup, hweb, hslave, hst, hb]
  rfl

end FeedPoint

section FeedAct

variable {s : State}

/-- A context that waits for a REFEED is fed with it, and uses it up (R289); every other one is fed. -/
theorem State.feedAct_feeds {c : Nat} (hc : s.unfed = some c) (h : s.exhausted c = true → s.pth.refeed = true) :
    s.feedAct.pth.feedBase = s.pth.feedBase ∧ (s.feedAct.ctx c).stage = 1 ∧ Out.pin 0 true ∈ s.feedAct.out ∧
      s.feedAct.pth.feedEnd = some (s.etime + 1000000) ∧ (s.exhausted c = true → s.feedAct.pth.refeed = false) := by
  by_cases hx : s.exhausted c = true
  · have e : s.feedAct = ({ s with pth := { s.pth with refeed := false } } : State).feed c := by
      simp [State.feedAct, hc, hx, h hx]
    obtain ⟨hb, hstage, hpin, hend, hre⟩ := ({ s with pth := { s.pth with refeed := false } } : State).feed_spec c
    rw [e]
    exact ⟨hb, hstage, hpin, hend, fun _ => hre⟩
  · have e : s.feedAct = s.feed c := by simp [State.feedAct, hc, hx]
    obtain ⟨hb, hstage, hpin, hend, -⟩ := s.feed_spec c
    rw [e]
    exact ⟨hb, hstage, hpin, hend, fun h => absurd h hx⟩

theorem State.feedAct_skips {c : Nat} (hc : s.unfed = some c) (hx : s.exhausted c = true) (hre : s.pth.refeed = false) :
    s.feedAct = s.skipFeed := by
  simp [State.feedAct, hc, hx, hre]

theorem State.feedAct_holds (hc : s.unfed = none) (hready : s.feedReady = false) :
    s.feedAct = (s.wr (.pth .feedHold) 0 1).skipFeed := by
  simp [State.feedAct, hc, hready, State.wrB_eq, bit]

/-- With the path ready FEED_HOLD is off, whatever becomes of the request. -/
theorem State.feedAct_requests (hc : s.unfed = none) (hready : s.feedReady = true) :
    s.feedAct.pth.feedBase = s.pth.feedBase ∧ s.feedAct.rd (.pth .feedHold) = 0 := by
  obtain ⟨u, hu⟩ : ∃ u, u = (s.wr (.pth .feedHold) 0 0).requestGate := ⟨_, rfl⟩
  have hview : u.pathView = (s.wr (.pth .feedHold) 0 0).pathView := hu ▸ State.pathView_requestGate _
  have hbase : u.pth.feedBase = s.pth.feedBase := (State.feedBase_of_pathView hview).trans (by rw [State.wr_pth])
  have hhold : u.rd (.pth .feedHold) = 0 := (State.rd_of_pathView hview (by decide) 0).trans (s.rd_wr_same rfl 0)
  have e : s.feedAct = match u.unfed with
      | some c => u.feed c
      | none => if u.csl.query.isSome then u else u.skipFeed := by
    simp only [State.feedAct, hc, hready, State.wrB_eq, hu]
    rfl
  rw [e]
  split
  · next c _ =>
    have hfeed := u.pathView_feed c
    exact ⟨(State.feedBase_of_pathView hfeed).trans hbase, (State.rd_of_pathView hfeed (by decide) 0).trans hhold⟩
  · split
    · exact ⟨hbase, hhold⟩
    · obtain ⟨hpth, -, hrd, -⟩ := u.skipFeed_spec
      exact ⟨by rw [hpth, hbase], hrd.trans hhold⟩

end FeedAct

/-! ### Misfeeds (O42: R289) -/

theorem State.ctx_misfeed (s : State) (x : Track) (c : Nat) :
    (s.misfeed x).ctx c = if c = x.ctx then { s.ctx x.ctx with stage := 6, pcause := 1 } else s.ctx c := by
  rw [← State.ctx_setCtx]
  unfold State.misfeed
  dsimp only
  split
  · rw [State.ev_eq, State.ctx_wr]; rfl
  · rfl

theorem State.rd_misfeed (s : State) (x : Track) (f : PthF) : (s.misfeed x).rd (.pth f) =
    if f = .misfeed ∧ s.rd (.pth .retry) < x.misses + 1 then 1 else s.rd (.pth f) := by
  unfold State.misfeed
  extract_lets x₀ marked counted
  have hrd (g : PthF) : counted.rd (.pth g) = s.rd (.pth g) := rfl
  clear_value counted
  rw [hrd]
  split
  · next h =>
    rw [State.ev_eq, State.rd_wr_pth _ (by decide), hrd]
    simp [h, PthF.row]
  · next h => rw [hrd, if_neg fun h' => h h'.2]

/-- A misfed sheet is at STAGE 6 with PCAUSE 1, also after other sheets. -/
theorem State.ctx_misfeeds (l : List Track) (s : State) {x : Track} (hx : x ∈ l) :
    ((l.foldl State.misfeed s).ctx x.ctx).stage = 6 ∧ ((l.foldl State.misfeed s).ctx x.ctx).pcause = 1 := by
  have hkeeps (l : List Track) (s : State) (h : (s.ctx x.ctx).stage = 6 ∧ (s.ctx x.ctx).pcause = 1) :
      ((l.foldl State.misfeed s).ctx x.ctx).stage = 6 ∧ ((l.foldl State.misfeed s).ctx x.ctx).pcause = 1 :=
    List.foldlRecOn (motive := fun t : State => (t.ctx x.ctx).stage = 6 ∧ (t.ctx x.ctx).pcause = 1) l _ h fun t ht y _ => by
      rw [State.ctx_misfeed]
      split
      · exact ⟨rfl, rfl⟩
      · exact ht
  induction l generalizing s with
  | nil => exact absurd hx List.not_mem_nil
  | cons y l ih =>
    obtain rfl | hx := List.mem_cons.1 hx
    · exact hkeeps l _ (by rw [State.ctx_misfeed, if_pos rfl]; exact ⟨rfl, rfl⟩)
    · exact ih _ hx

/-- MISFEED is set by the sheets whose misfeeds are over RETRY. -/
theorem State.rd_misfeeds (l : List Track) (s : State) : (l.foldl State.misfeed s).rd (.pth .misfeed) =
    if ∃ x ∈ l, s.rd (.pth .retry) < x.misses + 1 then 1 else s.rd (.pth .misfeed) := by
  induction l generalizing s with
  | nil => simp
  | cons x l ih =>
    have hretry : (s.misfeed x).rd (.pth .retry) = s.rd (.pth .retry) := (s.rd_misfeed x .retry).trans (if_neg (by simp))
    rw [List.foldl_cons, ih, hretry, State.rd_misfeed]
    simp only [List.mem_cons, exists_eq_or_imp, true_and]
    by_cases hl : ∃ y ∈ l, s.rd (.pth .retry) < y.misses + 1
    · rw [if_pos hl, if_pos (.inr hl)]
    · simp only [hl, if_false, or_false]

theorem exec_refeed {s : State} (hup : s.up .mot = true) (hweb : s.web = false) (hslave : s.isSlave = false)
    (hr : s.Reaches .pth 0) : exec .refeed s = .next (match s.unfed with
      | some c => if s.exhausted c then { s with pth := { s.pth with refeed := true } } else s.wr (.pth .cmdErr) 0 1
      | none => s.wr (.pth .cmdErr) 0 1) := by
  show guardWF true (s.hostWrite .pth 0 fun t => refeed t) = _
  rw [State.hostWrite_of_reaches hr, guardWF_true, refeed, hup, hweb, hslave]
  cases s.unfed <;> rfl

/-- Settles O42: a due feed point by what `feedAct` does there, and the expiry of the feed window by what its misfeeds add up to. -/
theorem sheetsAreFed : Obligations.SheetsAreFed := by
  refine fun s hup hweb hslave => ⟨fun h => ?_, fun h => ?_, fun hst => ⟨fun b c hb hc hx => ?_, fun b c hb hc hx hre => ?_,
    fun b hb hc hready => ?_, fun b hb hc hready => ?_, exec_feedPoint_of_not_due⟩, fun l hl => ?_,
    fun hr => ⟨fun c hc hx => ?_, fun c hc hx => ?_, fun hc => ?_⟩⟩
  · refine ⟨_, (exec_overspeedDetect hup).trans (congrArg _ (if_pos h)), State.rd_wr_same _ rfl 1, ?_⟩
    rw [State.ev_eq, State.wr_pth]
  · rw [exec_overspeedDetect hup, if_neg h]
  · exact ⟨_, exec_feedPoint_of_due hup hweb hslave hst hb, State.feedAct_feeds (s := s.atFeedPoint b) hc hx⟩
  · refine ⟨_, exec_feedPoint_of_due hup hweb hslave hst hb, ?_⟩
    rw [State.feedAct_skips (s := s.atFeedPoint b) hc hx hre]
    obtain ⟨hpth, hloam, -, hskip⟩ := (s.atFeedPoint b).skipFeed_spec
    exact ⟨by rw [hpth]; rfl, State.ctx_of_loam hloam c, hskip⟩
  · refine ⟨_, exec_feedPoint_of_due hup hweb hslave hst hb, ?_⟩
    rw [State.feedAct_holds (s := s.atFeedPoint b) hc hready]
    obtain ⟨hpth, -, hhold, hskip⟩ := ((s.atFeedPoint b).wr (.pth .feedHold) 0 1).skipFeed_spec
    refine ⟨by rw [hpth, State.wr_pth]; rfl, hhold.trans (State.rd_wr_same _ rfl 1), hskip.trans ?_⟩
    rw [State.rd_wr_ne _ (by decide)]; rfl
  · exact ⟨_, exec_feedPoint_of_due hup hweb hslave hst hb, State.feedAct_requests (s := s.atFeedPoint b) hc hready⟩
  · have e : exec .feedWindowExpiry s = .next (l.foldl State.misfeed s) := by
      show guardWF true (feedWindowExpiry s) = _
      rw [feedWindowExpiry, hup, hweb, hslave, hl]; rfl
    refine ⟨_, e, fun x hx => State.ctx_misfeeds l s hx, fun h => ?_, fun h => ?_⟩
    · rw [State.rd_misfeeds, if_pos h]
    · rw [State.rd_misfeeds, if_neg]
      rintro ⟨x, hx, hlt⟩
      exact absurd (h x hx) (Nat.not_le.2 hlt)
  · simp [exec_refeed hup hweb hslave hr, hc, hx]
  · simp [exec_refeed hup hweb hslave hr, hc, hx]
  · simp [exec_refeed hup hweb hslave hr, hc]

/-! ### Tracked sheets (R305) -/

section Tracks

variable {s : State} {c : Nat} {x : Track}

theorem State.ctx_of_track (hx : s.track c = some x) : x.ctx = c := by
  rw [State.track] at hx
  simpa using List.find?_some hx

/-- A context has the track that was last set for it. -/
theorem State.track_setTrack (hx : s.track c = some x) {y : Track} (hy : y.ctx = c) : (s.setTrack y).track c = some y := by
  have hsame (u : Track) : ((if u.ctx = y.ctx then y else u).ctx == c) = (u.ctx == c) := by
    split
    · next h => rw [h]
    · rfl
  have hfind : s.pth.tracks.find? (fun u => (if u.ctx = y.ctx then y else u).ctx == c) = some x := by
    simp only [hsame]
    exact hx
  show (s.pth.tracks.map fun u => if u.ctx = y.ctx then y else u).find? (fun u => u.ctx == c) = some y
  rw [List.find?_map, Function.comp_def, hfind, Option.map_some, State.ctx_of_track hx, hy, if_pos rfl]

/-- Whether other sheets hold a diverter does not depend on the sheet's own track. -/
theorem State.diverterHeld_setTrack (s : State) (y : Track) (d : Nat) :
    (s.setTrack y).diverterHeld y.ctx d = s.diverterHeld y.ctx d := by
  show (s.pth.tracks.map fun u => if u.ctx = y.ctx then y else u).any _ = s.pth.tracks.any _
  rw [List.any_map]
  congr 1
  funext u
  by_cases h : u.ctx = y.ctx <;> simp [h]

end Tracks

/-! ### The time of line 0 (O44: R286) -/

section T0

variable {s : State} {c k : Nat} (hc : c < 256) (hk : k < 8) (hup : s.up .mot = true) (hvid : s.vidUp k = true)

/-- What T0_ISSUE gives the queue of a station. -/
def Stn.withT0 (x : Stn) (c t0 : Nat) : Stn :=
  { x with queue := x.queue.map fun y => if y.ctx = c then { y with t0 := some t0 } else y }

include hc hk hup hvid

theorem exec_t0Issue {im : Imaging} {m : Int} (him : s.awaitsT0 c k = some im) (hm : s.arrival c k im.base = some m)
    (hrate : s.rd (.pth .lrate) ≠ 0) :
    (m - s.mpos ≤ 256 * (s.rd (.pth .t0Lead) : Int) → ∃ t, exec (.t0Issue c k) s = .next t ∧ t.stn k = (s.stn k).withT0 c
      ((s.etime : Int) + (m - s.mpos) * 1000000000 / (256 * s.rd (.pth .lrate) : Nat)).toNat) ∧
    (256 * (s.rd (.pth .t0Lead) : Int) < m - s.mpos → exec (.t0Issue c k) s = .next s) := by
  have e : exec (.t0Issue c k) s = .next (t0Issue c k s) := by
    show guardWF (decide (c < 256) && decide (k < 8)) _ = _
    rw [decide_eq_true hc, decide_eq_true hk]; rfl
  refine ⟨fun hd => ⟨_, e, ?_⟩, fun hd => ?_⟩
  · simp only [t0Issue, hup, hvid, him, hm]
    rw [if_neg (by simp), if_pos ⟨hd, hrate⟩]
    split <;> exact State.stn_setStn_same s k _
  · rw [e]
    simp only [t0Issue, hup, hvid, him, hm]
    rw [if_neg (by simp), if_neg (by omega)]

end T0

/-! ### Commit and outputs (O44: R287, R291, R292) -/

section Sheet

variable {s : State} {c : Nat} {x : Track} (hc : c < 256) (hup : s.up .mot = true) (hx : s.track c = some x)

include hc hup hx

theorem exec_diverterRelease {d : Nat} {z : Int} (hd : x.output = some d) (hz : s.trailOf x = some z) (hdiv : x.diverter = true) :
    exec (.diverterRelease c) s = .next
      (if 256 * (s.rd (.pth .divPos) (d - 1) : Int) ≤ z then
        if s.diverterHeld c d then s.setTrack { x with diverter := false }
        else (s.setTrack { x with diverter := false }).emit (.pin d false)
      else s) := by
  show guardWF (decide (c < 256)) (diverterRelease c s) = _
  have hheld : (s.setTrack { x with diverter := false }).diverterHeld c d = s.diverterHeld c d := by
    rw [← State.ctx_of_track hx]
    exact s.diverterHeld_setTrack { x with diverter := false } d
  simp only [hd] at hheld
  rw [decide_eq_true hc, guardWF_true, diverterRelease, hup, hx]
  simp [hd, hz, hdiv, hheld]

variable (hweb : s.web = false)

include hweb

theorem exec_sheetDelivered : exec (.sheetDelivered c) s = .next
    (if s.deliverable c = true ∧ s.arrived x = true then (s.dropTrack c).deliver c (x.output.getD 0) else s) := by
  show guardWF (decide (c < 256)) (sheetDelivered c s) = _
  rw [decide_eq_true hc, guardWF_true, sheetDelivered, hup, hweb, hx]
  cases s.deliverable c <;> simp

variable (hslave : s.isSlave = false)

include hslave

theorem exec_sheetCommit : exec (.sheetCommit c) s = .next
    (if (s.ctx c).stage = 2 ∧ s.leadReached x (s.rd (.pth .regGate)) = true then (s.setStage c 3).broadcast 8 [] else s) := by
  show guardWF (decide (c < 256)) (sheetCommit c s) = _
  rw [decide_eq_true hc, guardWF_true, sheetCommit, hup, hweb, hslave, hx]
  rfl

theorem exec_diverterDecision {line : Int} (hline : s.firstDiverter = some line) : exec (.diverterDecision c) s = .next
    (if x.output.isNone = true ∧ 2 ≤ (s.ctx c).stage ∧ (s.ctx c).stage ≤ 3 ∧ s.leadReached x line = true then
      let d := if (s.ctx c).st == .spoiled then s.rd (.pgs .disp) c else 0
      (s.fixOutput x d).broadcast 10 [(d : Int)]
    else s) := by
  show guardWF (decide (c < 256)) (diverterDecision c s) = _
  rw [decide_eq_true hc, guardWF_true, diverterDecision, hup, hweb, hslave, hx, hline]
  rfl

theorem exec_sheetBoundary {z : Int} (hz : s.trailOf x = some z) : exec (.sheetBoundary c) s = .next
    (if x.bounded = false ∧ 256 * (s.rd (.pth .boundary) : Int) ≤ z then
      ((s.setTrack { x with bounded := true }).boundary).broadcast 9 [] else s) := by
  show guardWF (decide (c < 256)) (sheetBoundary c s) = _
  rw [decide_eq_true hc, guardWF_true, sheetBoundary, hup, hweb, hslave, hx]
  simp [hz]

end Sheet

/-- A sheet whose output is fixed is at STAGE 4, and the pin of its diverter is high (R291). -/
theorem State.fixOutput_spec {s : State} {c : Nat} {x : Track} (hx : s.track c = some x) (d : Nat) :
    ((s.fixOutput x d).ctx c).stage = 4 ∧ ((s.fixOutput x d).track c).map (·.output) = some (some d) ∧
      (d = 1 ∨ d = 2 → Out.pin d true ∈ (s.fixOutput x d).out) := by
  have hxc := State.ctx_of_track hx
  unfold State.fixOutput
  extract_lets fixed staged
  have hctx : (staged.ctx c).stage = 4 := by
    unfold staged State.setStage
    rw [hxc, State.ctx_setCtx_same]
  have htrack : (staged.track c).map (·.output) = some (some d) := congrArg (Option.map Track.output)
    (State.track_setTrack hx (y := { x with output := some d, diverter := d == 1 || d == 2 }) hxc)
  split
  · exact ⟨hctx, htrack, fun _ => List.mem_cons_self ..⟩
  · next h => exact ⟨hctx, htrack, fun h' => absurd h' h⟩

@[simp] theorem State.ctx_broadcast (s : State) (kind : Nat) (data : List Int) (c : Nat) : (s.broadcast kind data).ctx c = s.ctx c :=
  State.ctx_of_loam (s.loam_broadcast kind data) c

@[simp] theorem State.broadcast_pth (s : State) (kind : Nat) (data : List Int) : (s.broadcast kind data).pth = s.pth := by
  obtain ⟨o, e⟩ := s.broadcast_eq kind data
  rw [e]

@[simp] theorem State.broadcast_cmp (s : State) (kind : Nat) (data : List Int) : (s.broadcast kind data).cmp = s.cmp := by
  obtain ⟨o, e⟩ := s.broadcast_eq kind data
  rw [e]

@[simp] theorem State.rd_broadcast (s : State) (kind : Nat) (data : List Int) (f : Fld) (i : Nat) :
    (s.broadcast kind data).rd f i = s.rd f i := by
  obtain ⟨o, e⟩ := s.broadcast_eq kind data
  rw [e]; rfl

theorem State.track_broadcast (s : State) (kind : Nat) (data : List Int) (c : Nat) :
    (s.broadcast kind data).track c = s.track c := by rw [State.track, State.broadcast_pth]; rfl

/-- A delivered context is at STAGE 5, at its output (R292). -/
theorem State.deliver_spec (s : State) (c d : Nat) : ((s.deliver c d).ctx c).st = .delivered ∧ ((s.deliver c d).ctx c).stage = 5 ∧
    ((s.deliver c d).ctx c).output = some d := by
  unfold State.deliver
  rw [(State.sameButRegs_settleGate _).ctx, State.ctx_toState, State.ctx_setCtx_same]
  exact ⟨rfl, rfl, rfl⟩

/-! ### Boundaries (O44: R294, R295, R359) -/

/-- A boundary sets BOUNDARY_EV, and every decompressor that waited for one is in service again. -/
theorem State.boundary_spec (s : State) :
    s.boundary.rd (.pth .boundaryEv) = 1 ∧ (s.up .cmp = true → s.boundary.cmp.rejoin = []) := by
  unfold State.boundary
  extract_lets told served
  have hview : served.pathView = (s.ev (.pth .boundaryEv)).pathView :=
    (foldl_unchanged (fun t u => t.pathView_unitService u) _ told).trans (State.pathView_slotBoundary _)
  have hrd : served.rd (.pth .boundaryEv) = 1 := (State.rd_of_pathView hview (by decide) 0).trans (s.rd_wr_same rfl 1)
  have hup : served.up .cmp = s.up .cmp := (State.up_of_pathView hview .cmp).trans (s.up_wr ..)
  clear_value served
  split
  · exact ⟨hrd, fun _ => rfl⟩
  · next h => exact ⟨hrd, fun h' => absurd (hup.trans h') h⟩

/-! ### Dispositions (O44: R293) -/

theorem exec_dispAnswer {s : State} (hup : s.up .mot = true) (hr : s.Reaches .pth 0) (v : Word) :
    exec (.dispAnswer v) s = .next (s.takeDisp (v.toNat % 256) (v.toNat / 256 % 4)) := by
  show guardWF true (s.hostWrite .pth 0 _) = _
  rw [State.hostWrite_of_reaches hr, guardWF_true, hup]; rfl

theorem State.takeDisp_eq (s : State) (c d : Nat) : s.takeDisp c d =
    if s.dispAsked c = true ∧ 4 ≤ (s.ctx c).stage ∧ (s.ctx c).stage ≤ 5 then (s.wr (.pth .dispLate) 0 1).closeDecision 7 c
    else if s.decisionOpen 7 c = true ∧ d ≤ 2 then (s.wr (.pgs .disp) c d).closeDecision 7 c
    else s := by
  simp [State.takeDisp, State.ev_eq, and_assoc]

/-- Settles O44: each command is its equation on a sheet that is tracked, and the shared operations say what the sheet comes to. -/
theorem sheetsReachTheirOutput : Obligations.SheetsReachTheirOutput := by
  refine ⟨fun s c k im m hc hk hup hvid him hm hrate => ?_, fun s c x hc hup hweb hslave hx => ⟨fun hst hlead => ?_, fun h => ?_,
    fun line d hline hout h2 h3 hlead hd => ?_, fun line hline hlead => ?_, fun d z t hd hz hdiv ht => ⟨fun hpast hheld => ?_,
    fun hpast hheld => ?_, fun hpast => ?_⟩, fun hdel harr => ?_, fun h => ?_, fun z hz => ⟨fun hb hpast => ?_, fun h => ?_⟩⟩,
    fun s v c d hcv hdv hup hr => ⟨fun hask h4 h5 => ?_, fun hno => ⟨fun hopen hd => ?_, fun h => ?_⟩⟩⟩
  · obtain ⟨hnear, hfar⟩ := exec_t0Issue hc hk hup hvid him hm hrate
    refine ⟨fun hd => ?_, hfar⟩
    obtain ⟨t, ht, hstn⟩ := hnear hd
    exact ⟨t, ht, congrArg Stn.queue hstn⟩
  · refine ⟨_, (exec_sheetCommit hc hup hx hweb hslave).trans (congrArg _ (if_pos ⟨hst, hlead⟩)), ?_⟩
    rw [State.ctx_broadcast, State.setStage, State.ctx_setCtx_same]
  · rw [exec_sheetCommit hc hup hx hweb hslave, if_neg (by rintro ⟨h1, h2⟩; simp [h1, h2] at h)]
  · refine ⟨_, (exec_diverterDecision hc hup hx hweb hslave hline).trans
      (congrArg _ (if_pos ⟨by rw [hout]; rfl, h2, h3, hlead⟩)), ?_⟩
    simp only [beq_iff_eq, ← hd]
    obtain ⟨hstage, houtput, hpin⟩ := State.fixOutput_spec hx d
    rw [State.ctx_broadcast, State.track_broadcast]
    exact ⟨hstage, houtput, fun h => State.mem_out_broadcast (hpin h) ..⟩
  · rw [exec_diverterDecision hc hup hx hweb hslave hline, if_neg (by simp [hlead])]
  · rw [exec_diverterRelease hc hup hx hd hz hdiv, if_pos hpast, hheld, ht]; rfl
  · rw [exec_diverterRelease hc hup hx hd hz hdiv, if_pos hpast, hheld, ht]; rfl
  · rw [exec_diverterRelease hc hup hx hd hz hdiv, if_neg (by omega)]
  · exact ⟨_, (exec_sheetDelivered hc hup hx hweb).trans (congrArg _ (if_pos ⟨hdel, harr⟩)), State.deliver_spec ..⟩
  · rw [exec_sheetDelivered hc hup hx hweb, if_neg (by rintro ⟨h1, h2⟩; simp [h1, h2] at h)]
  · have e := (exec_sheetBoundary hc hup hx hweb hslave hz).trans (congrArg _ (if_pos ⟨hb, hpast⟩))
    obtain ⟨hev, hrejoin⟩ := (s.setTrack { x with bounded := true }).boundary_spec
    refine ⟨e, _, e, ?_⟩
    rw [State.rd_broadcast, State.broadcast_cmp]
    exact ⟨hev, hrejoin⟩
  · rw [exec_sheetBoundary hc hup hx hweb hslave hz, if_neg]
    rintro ⟨h1, h2⟩
    obtain h | h := h
    · simp [h1] at h
    · omega
  · rw [exec_dispAnswer hup hr, ← hcv, State.takeDisp_eq, if_pos ⟨hask, h4, h5⟩]
  · rw [exec_dispAnswer hup hr, ← hcv, ← hdv, State.takeDisp_eq, if_neg (by rintro ⟨h1, h2, h3⟩; simp [h1] at hno; omega),
      if_pos ⟨hopen, hd⟩]
  · rw [exec_dispAnswer hup hr, ← hcv, ← hdv, State.takeDisp_eq, if_neg (by rintro ⟨h1, h2, h3⟩; simp [h1] at hno; omega),
      if_neg]
    rintro ⟨h1, h2⟩
    obtain h | h := h
    · simp [h1] at h
    · omega

/-! ### The commands of the web sequence (O45: R296 to R303, R320) -/

section WebCommands

variable {s : State} (hup : s.up .mot = true)

include hup

theorem exec_webRunStart : exec .webRunStart s = .next
    (if s.web = true ∧ s.isSlave = false ∧ s.rd (.pth .wstate) = 0 ∧ s.firstFrame.isSome = true ∧
        0 < (s.axis s.procAxis).v * s.forwardDir ∧ (s.axis s.procAxis).a = 0 then
      (s.webRuns (s.mpos + 256 * ((s.rd (.pth .dlLead) : Int) - s.stnposMin))).broadcast 12
        [s.mpos + 256 * ((s.rd (.pth .dlLead) : Int) - s.stnposMin)]
    else s) := by
  show guardWF true (webRunStart s) = _
  simp [webRunStart, hup, guardWF_true, and_assoc]

theorem exec_frameDeadline : exec .frameDeadline s = .next
    (if s.web = true ∧ s.isSlave = false ∧ s.rd (.pth .wstate) ≠ 0 ∧ s.pth.w0Set = true ∧ s.ldr.st ≠ .disarming ∧
        s.rdS (.pth .w0) + 256 * (s.pth.nextLine + s.stnposMin - s.rd (.pth .dlLead)) ≤ s.mpos then
      (s.wr (.pth .deadline) 0 1).webStop 2
    else s) := by
  show guardWF true (frameDeadline s) = _
  simp [frameDeadline, hup, guardWF_true, and_assoc, State.ev_eq]

theorem exec_webDrainDone : exec .webDrainDone s = .next
    (if s.web = false then s
     else if s.isSlave = true then
       if s.rd (.pth .wstate) = 1 then s.wr (.pth .wstate) 0 2
       else if s.rd (.pth .wstate) = 2 ∧ s.drainEnded = true then s.showLast.reportDrain.wr (.pth .wstate) 0 5
       else s
     else if s.rd (.pth .wstate) = 2 ∧ s.drainEnded = true then (s.showLast.wr (.pth .wstate) 0 3).axStop s.procAxis .stop
     else s) := by
  show guardWF true (webDrainDone s) = _
  cases hweb : s.web with
  | false => simp [webDrainDone, hweb, guardWF_true]
  | true =>
    cases hslave : s.isSlave with
    | false => simp [webDrainDone, hup, hweb, hslave, guardWF_true]
    | true =>
      simp only [webDrainDone, hup, hweb, hslave, guardWF_true]
      generalize s.rd (.pth .wstate) = w
      obtain _ | _ | _ | w := w <;> simp

theorem exec_webBackupAtRest : exec .webBackupAtRest s = .next
    (if s.web = true ∧ s.isSlave = false ∧ s.rd (.pth .wstate) = 5 ∧ s.webAtRest = true then s.wr (.pth .wstate) 0 6 else s) := by
  show guardWF true (webBackupAtRest s) = _
  simp [webBackupAtRest, hup, guardWF_true, and_assoc]

theorem exec_webResume : exec .webResume s = .next
    (if s.web = true ∧ s.isSlave = false ∧ s.rd (.pth .wstate) = 6 ∧ s.mayResume = true then
      ((s.wrS (.mot .jogvel) s.procAxis s.pth.vsave).startVelocity s.procAxis .jog).wr (.pth .wstate) 0 7
    else s) := by
  show guardWF true (webResume s) = _
  simp [webResume, hup, guardWF_true, and_assoc]

theorem exec_webAtSpeed : exec .webAtSpeed s = .next
    (if s.web = false then s
     else if s.isSlave = true then if s.rd (.pth .wstate) = 5 then s.wr (.pth .wstate) 0 1 else s
     else if s.rd (.pth .wstate) = 7 ∧ (s.axis s.procAxis).a = 0 ∧ (s.axis s.procAxis).v = s.pth.vsave * 2 ^ 32 then
       if s.resumeFar = true then s.webRunAgain else (s.wr (.pth .bkShort) 0 1).wr (.pth .wstate) 0 2
     else s) := by
  show guardWF true (webAtSpeed s) = _
  simp [webAtSpeed, hup, guardWF_true, State.ev_eq]

/-- The web in DECIDE, before the host is asked. -/
def State.webDecides (s : State) : State :=
  (s.wr (.pth .bkdist) 0 (min (2 ^ 24 - 1) s.backupDistance)).wr (.pth .wstate) 0 4

theorem exec_webDecelAtRest : exec .webDecelAtRest s = .next
    (if s.web = true ∧ s.isSlave = false ∧ s.rd (.pth .wstate) = 3 ∧ s.webAtRest = true then
      if s.pth.toIdle = true ∨ s.rd (.pth .stopCause) = 4 then s.webIdle
      else if s.on (.pth .webMode) = true then
        s.webDecides.post 6 0xFFFF ([s.webDecides.rd (.pth .stopCause), 0, 0, 0] ++ leBytes s.backupDistance 4)
      else s.startBackup
    else s) := by
  show guardWF true (webDecelAtRest s) = _
  rw [guardWF_true, webDecelAtRest, hup]
  by_cases h : s.web = true ∧ s.isSlave = false ∧ s.rd (.pth .wstate) = 3 ∧ s.webAtRest = true
  · obtain ⟨hweb, hslave, hst, hrest⟩ := h
    simp [hweb, hslave, hst, hrest, State.webDecides]
  · have hno : (true && s.web && !s.isSlave && s.rd (.pth .wstate) == 3 && s.webAtRest) = false := by
      rw [Bool.eq_false_iff]
      simpa [and_assoc] using h
    rw [if_neg h, hno]; rfl

variable (hr : s.Reaches .pth 0)

include hr

theorem exec_webStop : exec .webStop s = .next
    (if s.web = true ∧ s.isSlave = false ∧ s.rd (.pth .wstate) ≠ 0 then s.webStop 3 else s.wr (.pth .cmdErr) 0 1) := by
  show guardWF true (s.hostWrite .pth 0 fun t => webStopCmd t) = _
  rw [State.hostWrite_of_reaches hr, guardWF_true]
  simp [webStopCmd, hup, State.pthRefuse, State.ev_eq, and_assoc]

theorem exec_webBackup : exec .webBackup s = .next
    (if s.web = true ∧ (s.rd (.pth .wstate) = 4 ∨ s.rd (.pth .wstate) = 8) then s.startBackup else s.wr (.pth .cmdErr) 0 1) := by
  show guardWF true (s.hostWrite .pth 0 fun t => webBackup t) = _
  rw [State.hostWrite_of_reaches hr, guardWF_true]
  simp [webBackup, hup, State.pthRefuse, State.ev_eq]

theorem exec_webHold : exec .webHold s = .next
    (if s.web = true ∧ s.rd (.pth .wstate) = 4 then (s.wr (.pth .wstate) 0 8).closeDecision 6 0xFFFF
     else s.wr (.pth .cmdErr) 0 1) := by
  show guardWF true (s.hostWrite .pth 0 fun t => webHold t) = _
  rw [State.hostWrite_of_reaches hr, guardWF_true]
  simp [webHold, hup, State.pthRefuse, State.ev_eq]

end WebCommands

/-! ### The start of the web (O45: R296, R298) -/

/-- The web runs, and its lines count from the first line of its first frame. -/
theorem State.webRuns_spec {s : State} {f : Frame} (hf : s.firstFrame = some f) (w : Int) :
    (s.webRuns w).rd (.pth .wstate) = 1 ∧ (s.webRuns w).rd (.pth .stopCause) = 0 ∧ (s.webRuns w).pth.w0Set = true ∧
      (s.webRuns w).pth.nextLine = s.pth.nextLine - f.first := by
  unfold State.webRuns
  extract_lets first told p frames
  have hwstate : told.rd (.pth .wstate) = 1 := (State.rd_wr_ne _ (by decide) 0).trans (State.rd_wr_same _ rfl 1)
  have hcause : told.rd (.pth .stopCause) = 0 := State.rd_wr_same _ rfl 0
  have hpth : told.pth = s.pth := (State.wr_pth ..).trans ((State.wr_pth ..).trans (State.wr_pth ..))
  have hfirst : first = f.first := by simp [first, hf]
  exact ⟨hwstate, hcause, rfl, by rw [← hfirst, ← hpth]⟩

theorem State.rd_wr_wstate (s : State) {v : Nat} (hv : v < 16) : (s.wr (.pth .wstate) 0 v).rd (.pth .wstate) = v :=
  (s.rd_wr_same rfl v).trans (Nat.mod_eq_of_lt hv)

/-! ### Triggers of the web stop (O45: R297, R298, R303) -/

/-- A trigger in RUN starts the drain and saves the jog velocity. -/
theorem State.webStop_of_run {s : State} (h : s.rd (.pth .wstate) = 1) (cause : Nat) :
    (s.webStop cause).rd (.pth .wstate) = 2 ∧ (s.webStop cause).rd (.pth .stopCause) = cause % 8 ∧
      (s.webStop cause).rd (.pth .deadline) = s.rd (.pth .deadline) ∧
      (s.webStop cause).pth.vsave = s.rdS (.mot .jogvel) s.procAxis ∧ (s.webStop cause).pth.toIdle = (cause == 3) ∧
      (s.webStop cause).pth.stopNext = none := by
  obtain ⟨t, ht⟩ : ∃ t, t = (s.wr (.pth .stopCause) 0 cause).wr (.pth .wstate) 0 2 := ⟨_, rfl⟩
  have he : s.webStop cause = { t with
      pth := { t.pth with
        vsave := t.rdS (.mot .jogvel) (t.rd (.pth .procAxis)), toIdle := cause == 3, stopNext := none }
      csl := { t.csl with drained := [] } } := by
    rw [State.webStop, h, ht]; rfl
  have hrd (f : PthF) : t.rd (.pth f) = if f = .wstate then 2 else if f = .stopCause then cause % 8 else s.rd (.pth f) := by
    simp [ht, State.rd_wr_pth, PthF.row]
  have hjog (k : Nat) : t.rdS (.mot .jogvel) k = s.rdS (.mot .jogvel) k := by
    rw [ht]
    exact congrArg (toSigned _) ((State.rd_wr_ne _ (by simp) 2).trans (State.rd_wr_ne _ (by simp) cause))
  rw [he]
  exact ⟨hrd .wstate, hrd .stopCause, hrd .deadline, (hjog _).trans (by rw [hrd .procAxis]; rfl), rfl, rfl⟩

/-- A trigger in ACCEL waits for RUN. -/
theorem State.webStop_of_accel {s : State} (h : s.rd (.pth .wstate) = 7) (cause : Nat) :
    s.webStop cause = { s with pth := { s.pth with stopNext := some (s.pth.stopNext.getD cause) } } := by
  rw [State.webStop, h]; rfl

/-- Elsewhere in the sequence a trigger changes nothing. -/
theorem State.webStop_of_later {s : State} (h1 : s.rd (.pth .wstate) ≠ 1) (h7 : s.rd (.pth .wstate) ≠ 7) (cause : Nat) :
    s.webStop cause = s := by
  unfold State.webStop
  split
  · next h => exact absurd h h1
  · next h => exact absurd h h7
  · rfl

/-- What a late frame's trigger does in each state of the sequence. -/
theorem State.deadlineStop_spec (s : State) :
    (s.rd (.pth .wstate) = 1 → ((s.wr (.pth .deadline) 0 1).webStop 2).rd (.pth .wstate) = 2 ∧
      ((s.wr (.pth .deadline) 0 1).webStop 2).rd (.pth .stopCause) = 2 ∧
      ((s.wr (.pth .deadline) 0 1).webStop 2).rd (.pth .deadline) = 1 ∧
      ((s.wr (.pth .deadline) 0 1).webStop 2).pth.vsave = s.rdS (.mot .jogvel) s.procAxis) ∧
    (s.rd (.pth .wstate) = 7 → ((s.wr (.pth .deadline) 0 1).webStop 2).rd (.pth .wstate) = 7 ∧
      ((s.wr (.pth .deadline) 0 1).webStop 2).rd (.pth .deadline) = 1 ∧
      ((s.wr (.pth .deadline) 0 1).webStop 2).pth.stopNext = some (s.pth.stopNext.getD 2)) ∧
    (s.rd (.pth .wstate) ≠ 1 → s.rd (.pth .wstate) ≠ 7 → (s.wr (.pth .deadline) 0 1).webStop 2 = s.wr (.pth .deadline) 0 1) := by
  obtain ⟨t, ht⟩ : ∃ t, t = s.wr (.pth .deadline) 0 1 := ⟨_, rfl⟩
  have hwstate : t.rd (.pth .wstate) = s.rd (.pth .wstate) := ht ▸ s.rd_wr_ne (by decide) 1
  have hdeadline : t.rd (.pth .deadline) = 1 := ht ▸ s.rd_wr_same rfl 1
  have hpth : t.pth = s.pth := ht ▸ s.wr_pth ..
  rw [← ht, ← hwstate, ← hpth]
  refine ⟨fun h => ?_, fun h => ?_, fun h1 h7 => State.webStop_of_later h1 h7 2⟩
  · obtain ⟨hst, hcause, hdl, hv, -⟩ := State.webStop_of_run h 2
    refine ⟨hst, hcause, hdl.trans hdeadline, hv.trans ?_⟩
    rw [ht, State.procAxis, s.rd_wr_ne (by decide)]
    exact congrArg (toSigned _) (s.rd_wr_ne (by simp) 1)
  · rw [State.webStop_of_accel h]
    exact ⟨h, hdeadline, rfl⟩

/-! ### Drain, backup and resume (O45: R298 to R301) -/

theorem State.rd_wstate_axStop (s : State) (k : Nat) (p : Plan) : (s.axStop k p).rd (.pth .wstate) = s.rd (.pth .wstate) :=
  State.rd_of_pathView (s.pathView_axStop k p) (by decide) 0

/-- A closed decision is neither posted nor waits to be. -/
theorem State.decisionOpen_closeDecision (s : State) (kind unit : Nat) : (s.closeDecision kind unit).decisionOpen kind unit = false := by
  simp +contextual [State.decisionOpen, State.closeDecision, or_iff_not_imp_left]

/-- A decision that is posted is open, in its pair or waiting for one (R433, R435). -/
theorem State.decisionOpen_post (s : State) {kind : Nat} (hk : kindAnswered kind = true) (unit : Nat) (data : List Nat) :
    (s.post kind unit data).decisionOpen kind unit = true := by
  have hk3 : kind ≠ 3 := by rintro rfl; cases hk
  have henqueue (p : Nat) : (s.enqueue p kind unit data).decisionOpen kind unit = true := by
    unfold State.enqueue
    extract_lets token post m queued posted
    have hposted : posted.decisionOpen kind unit = true := by simp [posted, queued, State.decisionOpen, hk]
    split
    · obtain ⟨o, pc, e⟩ := posted.msix_eq (posted.rd (.mbx .vector) p)
      rw [e]
      exact hposted
    · exact hposted
  unfold State.post
  extract_lets m waits
  have hwaits : waits.decisionOpen kind unit = true := by simp [waits, State.decisionOpen]
  split
  · rwa [if_neg hk3]
  · next p _ =>
    split
    · exact henqueue p
    · exact hwaits

/-- The backup begins, and the host decides no more. -/
theorem State.startBackup_spec (s : State) :
    s.startBackup.rd (.pth .wstate) = 5 ∧ s.startBackup.decisionOpen 6 0xFFFF = false := by
  unfold State.startBackup
  extract_lets k d r steps
  refine ⟨?_, State.decisionOpen_closeDecision ..⟩
  rw [State.rd_closeDecision, State.rd_of_pathView (State.pathView_startMove ..) (by decide)]
  exact State.rd_wr_wstate _ (by decide)

theorem State.webIdle_spec (s : State) : s.webIdle.rd (.pth .wstate) = 0 ∧ s.webIdle.pth.w0Set = false := by
  unfold State.webIdle State.webForget
  extract_lets emptied p
  have hrd : emptied.rd (.pth .wstate) = (s.wr (.pth .wstate) 0 0).rd (.pth .wstate) :=
    foldl_unchanged (g := fun t : State => t.rd (.pth .wstate)) (fun t k => t.rd_setStn k ..) _ _
  clear_value emptied
  exact ⟨hrd.trans (s.rd_wr_wstate (by decide)), rfl⟩

/-- In host-assisted mode the host is asked how the web goes on. -/
theorem State.webDecides_spec (s : State) (data : List Nat) :
    (s.webDecides.post 6 0xFFFF data).rd (.pth .wstate) = 4 ∧ (s.webDecides.post 6 0xFFFF data).decisionOpen 6 0xFFFF = true :=
  ⟨(State.rd_of_pathView (State.pathView_post ..) (by decide) 0).trans (State.rd_wr_wstate _ (by decide)),
    State.decisionOpen_post _ rfl ..⟩

/-- RUN, with no trigger waiting. -/
def State.webInRun (s : State) : State := { s.wr (.pth .wstate) 0 1 with pth := { s.pth with stopNext := none } }

theorem State.rd_wstate_webInRun (s : State) : s.webInRun.rd (.pth .wstate) = 1 := s.rd_wr_wstate (v := 1) (by decide)

theorem State.webRunAgain_of_none {s : State} (h : s.pth.stopNext = none) : s.webRunAgain = s.wr (.pth .wstate) 0 1 := by
  simp [State.webRunAgain, h]

/-- A trigger that came in ACCEL stops the web again, but for a stall whose frames all have gone on since. -/
theorem State.webRunAgain_of_some {s : State} {c : Nat} (h : s.pth.stopNext = some c) : s.webRunAgain =
    if c = 1 ∧ (s.loam.ctxs.any fun e => e.2.st == .stalled) = false then s.webInRun else s.webInRun.webStop c := by
  have hp : (s.wr (.pth .wstate) 0 1).pth = s.pth := s.wr_pth ..
  have hl : (s.wr (.pth .wstate) 0 1).loam = s.loam := s.wr_loam ..
  unfold State.webRunAgain State.webInRun
  dsimp only
  rw [hp, h]
  dsimp only
  rw [hl]
  by_cases hs : c = 1 ∧ (s.loam.ctxs.any fun e => e.2.st == .stalled) = false
  · rw [if_pos hs, if_pos (by simpa using hs)]
  · rw [if_neg hs, if_neg (by simpa using hs)]

/-! ### A break of the web (O45: R302) -/

theorem Store.mem_of_get_ne {κ ν : Type} [DecidableEq κ] {d : ν} {k : κ} {t : Store κ ν} (h : Store.get d k t ≠ d) :
    (k, Store.get d k t) ∈ t := by
  induction t with
  | nil => exact absurd rfl h
  | cons e t ih =>
    obtain ⟨j, v⟩ := e
    rw [Store.get] at h ⊢
    split
    · next hj => exact hj ▸ List.mem_cons_self ..
    · next hj => exact List.mem_cons_of_mem _ (ih (by rwa [if_neg hj] at h))

section OtherContexts

variable (s : State) {c d : Nat} (h : d ≠ c)

include h

theorem State.ctx_setCtx_ne (x : Ctx) : (s.setCtx c x).ctx d = s.ctx d := by rw [State.ctx_setCtx, if_neg h]

theorem State.ctx_toState_ne (st : CtxState) : (s.toState c st).ctx d = s.ctx d := by
  unfold State.toState
  dsimp only
  split
  · rw [State.ev_eq, State.ctx_wr, s.ctx_setCtx_ne h]
  · exact s.ctx_setCtx_ne h _

theorem State.ctx_settleCtx_ne : (s.settleCtx c).ctx d = s.ctx d := by
  unfold State.settleCtx
  dsimp only
  split
  · split
    · rw [(State.sameButRegs_settleGate _).ctx, State.reclaimCtx, State.ctx_reclaim, s.ctx_toState_ne h]
    · rw [(State.sameButRegs_settleGate _).ctx, State.reclaimCtx, State.ctx_reclaim]
    · exact s.sameButRegs_settleGate.ctx d
  · exact s.sameButRegs_settleGate.ctx d

theorem State.ctx_spoilHere_ne (cause : Nat) : (s.spoilHere c cause).ctx d = s.ctx d := by
  unfold State.spoilHere
  extract_lets x spoiled closed noted posed
  have hspoiled : spoiled.ctx d = s.ctx d := (State.ctx_toState_ne _ h _).trans (s.ctx_setCtx_ne h _)
  have hnoted : noted.ctx d = closed.ctx d := by
    unfold noted
    split
    · exact State.ctx_wr ..
    · rfl
  rw [State.ctx_settleCtx_ne _ h, ← hspoiled]
  unfold posed
  split
  · exact (State.ctx_of_loam ((State.loam_post ..).trans (State.wr_loam ..)) d).trans hnoted
  · exact hnoted

theorem State.ctx_spoil_ne (cause : Nat) : (s.spoil c cause).ctx d = s.ctx d := by
  unfold State.spoil
  dsimp only
  split
  · split
    · exact s.ctx_spoilHere_ne h cause
    · exact (State.ctx_broadcast ..).trans (s.ctx_spoilHere_ne h cause)
    · exact s.ctx_spoilHere_ne h cause
  · rfl

/-- A sheet that the path spoils leaves every other context. -/
theorem State.ctx_pathSpoil_ne (pcause : Nat) : (s.pathSpoil c pcause).ctx d = s.ctx d := by
  have hdark (t : State) : (t.darkenAll c).ctx d = t.ctx d :=
    foldl_unchanged (g := fun u : State => u.ctx d) (fun u _ => u.ctx_setCtx_ne h _) _ t
  unfold State.pathSpoil
  dsimp only
  split
  case h_2 | h_3 | h_4 => rw [State.ctx_spoil_ne _ h, hdark, s.ctx_setCtx_ne h]
  case h_6 => rfl
  all_goals exact s.ctx_setCtx_ne h _

end OtherContexts

/-- A sheet that the path spoils shows why. -/
theorem State.pcause_pathSpoil {s : State} {c pcause : Nat}
    (h : (s.ctx c).st = .imaging ∨ (s.ctx c).st = .exposed ∨ (s.ctx c).pcause = pcause) :
    ((s.pathSpoil c pcause).ctx c).pcause = pcause := by
  have hspoil {x : Ctx} (hx : x.spoilable = true) (hp : x.pcause = pcause) :
      ((((s.setCtx c x).darkenAll c).spoil c 7).ctx c).pcause = pcause := by
    have hdark : ((((s.setCtx c x).darkenAll c).ctx c).st, (((s.setCtx c x).darkenAll c).ctx c).pcause) = (x.st, x.pcause) := by
      refine (foldl_unchanged (g := fun t : State => ((t.ctx c).st, (t.ctx c).pcause)) (fun t p => ?_) _ _).trans
        (by rw [State.ctx_setCtx_same])
      rw [State.darken, State.ctx_setCtx_same]; rfl
    obtain ⟨hst, hpc⟩ := Prod.mk.inj hdark
    rw [State.ctx_spoil (by rw [Ctx.spoilable, hst]; exact hx)]
    exact hpc.trans hp
  unfold State.pathSpoil
  dsimp only
  split
  case h_2 hst | h_3 hst | h_4 hst => exact hspoil (by simp [Ctx.spoilable, hst]) rfl
  case h_6 => simp_all
  all_goals rw [State.ctx_setCtx_same]

/-- Of the frames that are spoiled in turn, each that was exposing or exposed shows PCAUSE. -/
theorem State.pcause_pathSpoils (l : List Nat) (s : State) {c pcause : Nat}
    (h : ((s.ctx c).st = .imaging ∨ (s.ctx c).st = .exposed) ∧ c ∈ l ∨ (s.ctx c).pcause = pcause) :
    ((l.foldl (fun t d => t.pathSpoil d pcause) s).ctx c).pcause = pcause := by
  induction l generalizing s with
  | nil => simpa using h
  | cons d l ih =>
    refine ih _ ?_
    by_cases hd : c = d
    · subst hd
      exact .inr (State.pcause_pathSpoil (by tauto))
    · rw [s.ctx_pathSpoil_ne hd]
      simpa [hd] using h

/-- The presence sensor of a web that breaks is low, and the break is shown. -/
def State.webBroken (s : State) (i : Nat) : State :=
  (((s.setSensor i { active := false, cand := none }).clr (.pth .sLevel) i).ev (.pth .webBreak)).pathUnit 40 i

/-- The contexts that expose or are exposed. -/
def State.begun (s : State) : List Nat := (s.loam.ctxs.filter fun e => e.2.st == .imaging || e.2.st == .exposed).map (·.1)

theorem State.mem_begun {s : State} {c : Nat} (h : (s.ctx c).st = .imaging ∨ (s.ctx c).st = .exposed) : c ∈ s.begun := by
  have hne : s.ctx c ≠ {} := by rintro e; simp [e] at h
  have hmem : (c, s.ctx c) ∈ s.loam.ctxs := Store.mem_of_get_ne hne
  exact List.mem_map.2 ⟨_, List.mem_filter.2 ⟨hmem, by simpa using h⟩, rfl⟩

theorem State.sensor_setSensor (s : State) (i : Nat) (x : Sensor) : (s.setSensor i x).sensor i = x := by
  unfold State.sensor State.setSensor
  exact Store.get_set_same ..

theorem State.webBroken_spec (s : State) (i : Nat) : (s.webBroken i).rd (.pth .webBreak) = 1 ∧ (s.webBroken i).rd (.pth .sLevel) i = 0 ∧
    (s.webBroken i).sensor i = { active := false, cand := none } ∧ (s.webBroken i).loam = s.loam := by
  obtain ⟨t, ht⟩ : ∃ t, t = (s.setSensor i { active := false, cand := none }).clr (.pth .sLevel) i := ⟨_, rfl⟩
  have hlevel : t.rd (.pth .sLevel) i = 0 := by rw [ht, State.rd_clr, if_pos ⟨rfl, rfl⟩]
  have hsensor : t.sensor i = { active := false, cand := none } := by
    rw [ht, State.sensor, State.clr_eq, State.wr_pth]
    exact s.sensor_setSensor i _
  have hloam : t.loam = s.loam := by rw [ht, State.clr_eq, State.wr_loam]; rfl
  have he : ∃ us, s.webBroken i = { t.ev (.pth .webBreak) with pth := { t.pth with units := us } } := by
    have hp : (t.ev (.pth .webBreak)).pth = t.pth := State.wr_pth ..
    rw [State.webBroken, ← ht, State.pathUnit, hp]
    split
    · exact ⟨_, by rw [← hp]⟩
    · exact ⟨_, rfl⟩
  obtain ⟨us, e⟩ := he
  rw [e]
  exact ⟨t.rd_wr_same rfl 1, (t.rd_wr_ne (by simp) 1).trans hlevel, hsensor, (State.wr_loam ..).trans hloam⟩

theorem exec_webBreak {s : State} (hup : s.up .mot = true) {i : Nat} (hi : i < 32) : exec (.webBreak i) s = .next
    (if s.web = true ∧ s.rd (.pth .role) i = 4 then s.begun.foldl (fun t c => t.pathSpoil c 7) (s.webBroken i) else s) := by
  show guardWF (decide (i < 32)) (webBreak i s) = _
  have hbegun : (s.webBroken i).begun = s.begun := by rw [State.begun, (s.webBroken_spec i).2.2.2]; rfl
  rw [decide_eq_true hi, guardWF_true, webBreak, hup, ← hbegun]
  simp [State.webBroken, State.begun]

/-! ### Frames (O45: R292, R294, R298) -/

section Frames

variable {s : State} {c : Nat} {f : Frame} (hc : c < 256) (hup : s.up .mot = true) (hweb : s.web = true) (hf : s.frameOf c = some f)

include hc hup hweb hf

theorem exec_sheetBoundary_frame (hslave : s.isSlave = false) (hb : f.bounded = false) (hw : s.pth.w0Set = true)
    (hpast : s.rdS (.pth .w0) + 256 * (f.first + (s.rd (.pth .boundary) : Int)) ≤ s.mpos) :
    ∃ t : State, exec (.sheetBoundary c) s = .next (t.boundary.broadcast 9 []) := by
  have e : exec (.sheetBoundary c) s = .next (sheetBoundary c s) := by
    show guardWF (decide (c < 256)) _ = _
    rw [decide_eq_true hc]; rfl
  simp only [e, sheetBoundary, hup, hweb, hslave, hf, hb, hw, decide_eq_true hpast, Bool.not_true, Bool.not_false, Bool.or_self,
    Bool.and_self, Bool.false_eq_true, if_true, if_false]
  exact ⟨_, rfl⟩

theorem exec_sheetDelivered_frame (hdel : s.deliverable c = true) (harr : s.frameArrived f = true) :
    ∃ (t : State) (d : Nat), exec (.sheetDelivered c) s = .next (t.deliver c d) := by
  have e : exec (.sheetDelivered c) s = .next (sheetDelivered c s) := by
    show guardWF (decide (c < 256)) _ = _
    rw [decide_eq_true hc]; rfl
  simp only [e, sheetDelivered, hup, hdel, hweb, hf, harr, Bool.not_true, Bool.or_self, Bool.false_eq_true, if_true, if_false]
  exact ⟨_, _, rfl⟩

end Frames

/-- What the break of a web comes to. -/
theorem State.webBreak_spec (s : State) (i : Nat) {t : State} (ht : t = s.begun.foldl (fun u c => u.pathSpoil c 7) (s.webBroken i)) :
    t.rd (.pth .webBreak) = 1 ∧ t.rd (.pth .sLevel) i = 0 ∧ t.sensor i = { active := false, cand := none } ∧
      ∀ c, (s.ctx c).st = .imaging ∨ (s.ctx c).st = .exposed → (t.ctx c).pcause = 7 := by
  obtain ⟨hbreak, hlevel, hsensor, hloam⟩ := s.webBroken_spec i
  have hview : t.pathView = (s.webBroken i).pathView := ht ▸ foldl_unchanged (fun u c => u.pathView_pathSpoil c 7) _ _
  refine ⟨(State.rd_of_pathView hview (by decide) 0).trans hbreak, (State.rd_of_pathView hview (by decide) i).trans hlevel,
    (State.sensor_of_pathView hview i).trans hsensor, fun c hc => ?_⟩
  rw [ht]
  exact State.pcause_pathSpoils _ _ (.inl ⟨by rwa [State.ctx_of_loam hloam], State.mem_begun hc⟩)

/-- Settles O45: each command is its equation, and the shared operations of the sequence say what state it comes to. -/
theorem theWebSequenceRuns : Obligations.TheWebSequenceRuns := by
  refine ⟨fun s hup hweb hslave => ⟨fun f w hf hst hv ha hw => ?_, fun h => ?_, fun hst hw0 hldr hpast => ?_, fun h => ?_,
    fun hr => ⟨fun hst => ?_, fun hst => ?_, fun hst => ?_, fun h0 h1 h7 => ?_, fun hst => ?_, fun h4 h8 => ?_, fun hst => ?_,
      fun hst => ?_⟩,
    fun hst hend => ?_, fun h => ?_, fun hst hrest => ?_, fun h => ?_, fun hst hrest => ?_, fun h => ?_, fun hst hmay => ?_,
    fun h => ?_, fun hst ha hv => ?_, fun h => ?_, fun i hi hrole => ?_, fun i hi hrole => ?_, fun c f hc hf => ?_⟩,
    fun s hup hweb => ?_, fun s hup hweb hslave => ⟨fun hst => ?_, fun hst hend => ?_, fun hst => ?_⟩⟩
  · have e : exec .webRunStart s = .next ((s.webRuns w).broadcast 12 [w]) := by
      rw [exec_webRunStart hup, if_pos ⟨hweb, hslave, hst, by rw [hf]; rfl, hv, ha⟩, hw]
    refine ⟨e, _, e, ?_⟩
    rw [State.rd_broadcast, State.rd_broadcast, State.broadcast_pth]
    exact State.webRuns_spec hf w
  · rw [exec_webRunStart hup, if_neg]
    rintro ⟨-, -, hst, hf, hv, ha⟩
    obtain h | h | h | h := h
    · exact h hst
    · simp [h] at hf
    · omega
    · exact h ha
  · have e := (exec_frameDeadline hup).trans (congrArg _ (if_pos ⟨hweb, hslave, hst, hw0, hldr, hpast⟩))
    obtain ⟨hrun, haccel, hlater⟩ := s.deadlineStop_spec
    exact ⟨fun h => ⟨_, e, hrun h⟩, fun h => ⟨_, e, haccel h⟩, fun h1 h7 => by rw [e, hlater h1 h7]⟩
  · rw [exec_frameDeadline hup, if_neg]
    rintro ⟨-, -, hst, hw0, hldr, hpast⟩
    obtain h | h | h | h := h
    · exact hst h
    · simp [h] at hw0
    · exact hldr h
    · omega
  · obtain ⟨hdrain, hcause, -, hvsave, hidle, -⟩ := State.webStop_of_run hst 3
    exact ⟨_, (exec_webStop hup hr).trans (congrArg _ (if_pos ⟨hweb, hslave, by omega⟩)), hdrain, hcause, hvsave, hidle⟩
  · rw [exec_webStop hup hr, if_neg (by simp [hst])]
  · rw [exec_webStop hup hr, if_pos ⟨hweb, hslave, by omega⟩, State.webStop_of_accel hst]
  · rw [exec_webStop hup hr, if_pos ⟨hweb, hslave, h0⟩, State.webStop_of_later h1 h7]
  · exact ⟨_, (exec_webBackup hup hr).trans (congrArg _ (if_pos ⟨hweb, hst⟩)), s.startBackup_spec⟩
  · rw [exec_webBackup hup hr, if_neg (by simp [h4, h8])]
  · rw [exec_webHold hup hr, if_pos ⟨hweb, hst⟩]
  · rw [exec_webHold hup hr, if_neg (by simp [hst])]
  · have e := exec_webDrainDone hup
    rw [if_neg (by simp [hweb]), if_neg (by simp [hslave]), if_pos ⟨hst, hend⟩] at e
    exact ⟨_, e, (State.rd_wstate_axStop ..).trans (State.rd_wr_wstate _ (by decide))⟩
  · rw [exec_webDrainDone hup, if_neg (by simp [hweb]), if_neg (by simp [hslave]), if_neg]
    rintro ⟨h1, h2⟩
    simp [h1, h2] at h
  · have e := (exec_webDecelAtRest hup).trans (congrArg _ (if_pos ⟨hweb, hslave, hst, hrest⟩))
    refine ⟨fun h => ⟨_, e.trans (congrArg _ (if_pos h)), s.webIdle_spec⟩, fun hidle hcause hmode => ?_, fun hidle hcause hmode => ?_⟩
    · rw [if_neg (by simp [hidle, hcause]), if_pos hmode] at e
      exact ⟨_, e, s.webDecides_spec _⟩
    · rw [if_neg (by simp [hidle, hcause]), if_neg (by simp [hmode])] at e
      exact ⟨_, e, s.startBackup_spec.1⟩
  · rw [exec_webDecelAtRest hup, if_neg]
    rintro ⟨-, -, h1, h2⟩
    simp [h1, h2] at h
  · rw [exec_webBackupAtRest hup, if_pos ⟨hweb, hslave, hst, hrest⟩]
  · rw [exec_webBackupAtRest hup, if_neg]
    rintro ⟨-, -, h1, h2⟩
    simp [h1, h2] at h
  · exact ⟨_, (exec_webResume hup).trans (congrArg _ (if_pos ⟨hweb, hslave, hst, hmay⟩)), State.rd_wr_wstate _ (by decide)⟩
  · rw [exec_webResume hup, if_neg]
    rintro ⟨-, -, h1, h2⟩
    simp [h1, h2] at h
  · have e : exec .webAtSpeed s = .next
        (if s.resumeFar = true then s.webRunAgain else (s.wr (.pth .bkShort) 0 1).wr (.pth .wstate) 0 2) := by
      rw [exec_webAtSpeed hup, if_neg (by simp [hweb]), if_neg (by simp [hslave]), if_pos ⟨hst, ha, hv⟩]
    refine ⟨fun hfar => ?_, fun hfar => by rw [e, if_neg (by simp [hfar])]⟩
    rw [if_pos hfar] at e
    refine ⟨fun hn => by rw [e, State.webRunAgain_of_none hn], fun c hc hstall => ?_, fun hc hstall => ?_⟩
    · rw [State.webRunAgain_of_some hc, if_neg (fun h => by simp [hstall h.1] at h)] at e
      obtain ⟨hdrain, -, -, -, -, hnext⟩ := State.webStop_of_run s.rd_wstate_webInRun c
      exact ⟨_, e, hdrain, hnext⟩
    · rw [State.webRunAgain_of_some hc, if_pos ⟨rfl, hstall⟩] at e
      exact ⟨_, e, s.rd_wstate_webInRun, rfl⟩
  · rw [exec_webAtSpeed hup, if_neg (by simp [hweb]), if_neg (by simp [hslave]), if_neg]
    rintro ⟨h1, h2, h3⟩
    simp [h1, h2, h3] at h
  · exact ⟨_, (exec_webBreak hup hi).trans (congrArg _ (if_pos ⟨hweb, hrole⟩)), s.webBreak_spec i rfl⟩
  · rw [exec_webBreak hup hi, if_neg (by simp [hrole])]
  · refine ⟨fun hb hw hpast => ?_, fun hdel harr => ?_⟩
    · obtain ⟨t, e⟩ := exec_sheetBoundary_frame hc hup hweb hf hslave hb hw hpast
      exact ⟨_, e, (State.rd_broadcast ..).trans t.boundary_spec.1⟩
    · obtain ⟨t, d, e⟩ := exec_sheetDelivered_frame hc hup hweb hf hdel harr
      obtain ⟨hst, hstage, -⟩ := t.deliver_spec c d
      exact ⟨_, e, hst, hstage⟩
  · have hno : ¬s.web = true := by simp [hweb]
    refine ⟨?_, ?_, ?_, ?_, ?_, ?_, ?_, fun i hi => ?_, fun hr => ⟨?_, ?_, ?_⟩⟩
    · rw [exec_webRunStart hup, if_neg fun h => hno h.1]
    · rw [exec_frameDeadline hup, if_neg fun h => hno h.1]
    · rw [exec_webDrainDone hup, if_pos hweb]
    · rw [exec_webDecelAtRest hup, if_neg fun h => hno h.1]
    · rw [exec_webBackupAtRest hup, if_neg fun h => hno h.1]
    · rw [exec_webResume hup, if_neg fun h => hno h.1]
    · rw [exec_webAtSpeed hup, if_pos hweb]
    · rw [exec_webBreak hup hi, if_neg fun h => hno h.1]
    · rw [exec_webStop hup hr, if_neg fun h => hno h.1]
    · rw [exec_webBackup hup hr, if_neg fun h => hno h.1]
    · rw [exec_webHold hup hr, if_neg fun h => hno h.1]
  · rw [exec_webDrainDone hup, if_neg (by simp [hweb]), if_pos hslave, if_pos hst]
  · have e := exec_webDrainDone hup
    rw [if_neg (by simp [hweb]), if_pos hslave, if_neg (by omega), if_pos ⟨hst, hend⟩] at e
    exact ⟨_, e, State.rd_wr_wstate _ (by decide)⟩
  · rw [exec_webAtSpeed hup, if_neg (by simp [hweb]), if_pos hslave, if_pos hst]

end Sys2Proof.Machine

/-! PROOFS. The statements on faults, calibration, power, resets, the cascade, DMA and the host, and what the work of pages and stations
leaves of the rest of the state. -/

namespace Sys2Proof.Machine

open Sys2Proof

/-! ### A step, a reset, a poisoned write (O1, O3, O12) -/

/-- Settles O1: a step on a queue takes its front. -/
theorem frontCommandRuns : Obligations.FrontCommandRuns := by
  intro s c rest
  unfold step
  rfl

/-- Settles O3: every list that soundness speaks of is empty at reset. -/
theorem resetIsSound : Obligations.ResetIsSound where
  bytes := ⟨.nil, fun _ h => nomatch h⟩
  regs := ⟨.nil, fun _ h => nomatch h⟩
  posts _ h := nomatch h
  report := Nat.zero_le _

theorem exec_poisonedWrite {s : State} {b : Bar} {a : Nat} (hb : s.barUp = true) (ha : a < barSize b) :
    exec (.poisonedWrite b a) s = .next (s.emit (.aerPoisoned a)) := by
  simp [exec, execPoisonedWrite, ha, hb, guardWF_true]

/-- Settles O12: the write leaves a record in the log of errors, which is no register field. -/
theorem poisonedWritesAreDropped : Obligations.PoisonedWritesAreDropped :=
  fun s _ a hb ha => ⟨exec_poisonedWrite hb ha, s.rd_emit (.aerPoisoned a) (.glb .accessDenied) 0⟩

/-! ### Pins (O49: R416, R449, R450) -/

section Pins

variable {s : State} {n : Nat} (hn : n < 256) (hup : s.up .mot = true)

include hn

theorem exec_wiringFault (f : WireFlag) (s : State) : exec (.wiringFault n f) s = .next (wiringFault n f s) := by
  simp [exec, execWiringFault, hn, guardWF_true]

theorem exec_overloadTrip (s : State) : exec (.overloadTrip n) s = .next (overloadTrip n s) := by
  simp [exec, execOverloadTrip, hn, guardWF_true]

include hup

theorem exec_wiringFaultEnd (f : WireFlag) : exec (.wiringFaultEnd n f) s = .next (s.wr (.eio (flagField f)) n 0) := by
  simp [exec, execWiringFaultEnd, hn, hup, State.clr_eq, guardWF_true]

theorem exec_overloadClear {v : Word} (hr : s.Reaches .eio 0) : exec (.overloadClear n v) s =
    .next (if v.toNat / 32 % 2 = 1 then s.wr (.eio .overload) n 0 else s) := by
  simp [exec, execOverloadClear, hn, hup, State.hostWrite_of_reaches hr, State.clr_eq, guardWF_true]

end Pins

theorem exec_tapExtest (b : List (Nat × Bool)) (s : State) : exec (.tapExtest b) s = .next (tapExtest b s) := rfl

/-- EXTEST puts levels on pins and keeps the boundary register; no register field changes (R416). -/
theorem tapExtest_spec {s : State} (h : s.fuses.testLocked = false) (b : List (Nat × Bool)) :
    (tapExtest b s).eio.boundary = b ∧ (tapExtest b s).regs = s.regs := by
  unfold tapExtest
  rw [h, if_neg Bool.false_ne_true]
  refine ⟨?_, ?_⟩
  · exact foldl_unchanged (f := fun (t : State) e => t.emit (.pin (eioOut e.1) e.2)) (g := fun t => t.eio.boundary)
      (fun _ _ => rfl) b _
  · exact foldl_unchanged (f := fun (t : State) e => t.emit (.pin (eioOut e.1) e.2)) (g := State.regs) (fun _ _ => rfl) b _

/-- Settles O49: each command by its guard; the pins of EXTEST are outputs. -/
theorem pinsAreChecked : Obligations.PinsAreChecked := by
  intro s n hn hup
  refine ⟨fun f hc hf => ?_, fun f h => ?_, exec_wiringFaultEnd hn hup, fun hc h4 ho => ?_, fun h => ?_,
    fun v hr => ⟨fun h => ?_, fun h => ?_⟩, fun b => ⟨fun h => ?_, fun h => ⟨_, exec_tapExtest b s, tapExtest_spec h b⟩⟩⟩
  · simp [exec_wiringFault hn, wiringFault, hup, hc, hf, State.ev_eq]
  · rcases h with h | h <;> simp [exec_wiringFault hn, wiringFault, h]
  · simp [exec_overloadTrip hn, overloadTrip, hup, hc, h4, ho, State.ev_eq]
  · rcases h with h | h | h <;> simp [exec_overloadTrip hn, overloadTrip, h]
  · rw [exec_overloadClear hn hup hr, if_pos h]
  · rw [exec_overloadClear hn hup hr, if_neg (by omega)]
  · rw [exec_tapExtest, tapExtest, h, if_pos rfl]


/-! ### What the end of the engine's work cannot be seen in -/

/-- The parts of a state that the engine's work changes through register fields and mailboxes only: time, islands, mailboxes,
Carabid, the supervisor, FRAM and the reset controller. -/
def State.spine (s : State) :=
  (s.hw, s.etime, s.regs, s.inReset, s.isolated, s.mbx, s.flt, s.pwr, s.fram, s.rst)

/-- The blocks of the engine's work. -/
def workBlock (b : Block) : Bool :=
  b == .btu || b == .blk || b == .cle || b == .cmp || b == .dma || b == .fhv || b == .mot || b == .pgs || b == .pth ||
    b == .cal || b == .eio

/-- An observation that looks past what work in progress consists of: the fields of its blocks, its running state, outputs, and
every post and decision but Carabid's own, of kind 5. -/
structure WorkBlind {β : Type} (g : State → β) : Prop where
  upd {s t : State} : t.spine = s.spine → g t = g s
  wr (s : State) (f : Fld) (i v : Nat) : workBlock f.block = true → g (s.wr f i v) = g s
  post (s : State) (kind unit : Nat) (data : List Nat) : kind ≠ 5 → g (s.post kind unit data) = g s
  closeDecision (s : State) (kind unit : Nat) : kind ≠ 5 → g (s.closeDecision kind unit) = g s

section WorkBlind

variable {β : Type} {g : State → β} (h : WorkBlind g) (s : State)

include h

/-! #### Outputs and fields -/

theorem WorkBlind.emit (o : Out) : g (s.emit o) = g s := h.upd rfl

theorem WorkBlind.count (f : Fld) (i : Nat) (hf : workBlock f.block = true) : g (s.count f i) = g s := h.wr s f i _ hf

theorem WorkBlind.broadcast (kind : Nat) (data : List Int) : g (s.broadcast kind data) = g s := by
  obtain ⟨o, e⟩ := s.broadcast_eq kind data
  rw [e]
  exact h.upd rfl

/-! #### Sheets (R82, R86, R87, R92, R290) -/

theorem WorkBlind.setCtx (c : Nat) (x : Ctx) : g (s.setCtx c x) = g s := h.upd rfl

theorem WorkBlind.setBand (r : Nat) (b : Band) : g (s.setBand r b) = g s := h.upd rfl

theorem WorkBlind.setStn (k : Nat) (x : Stn) : g (s.setStn k x) = g s := h.upd rfl

theorem WorkBlind.setLane (l : Nat) (x : Lane) : g (s.setLane l x) = g s := h.upd rfl

theorem WorkBlind.setChan (n : Nat) (x : Chan) : g (s.setChan n x) = g s := h.upd rfl

theorem WorkBlind.setJob (n : Nat) (x : Job) : g (s.setJob n x) = g s := h.upd rfl

theorem WorkBlind.setSlot (n : Nat) (x : Slot) : g (s.setSlot n x) = g s := h.upd rfl

theorem WorkBlind.setAxis (k : Nat) (x : Axis) : g (s.setAxis k x) = g s := h.upd rfl

theorem WorkBlind.setHeater (n : Nat) (x : Heater) : g (s.setHeater n x) = g s := h.upd rfl

theorem WorkBlind.unhold (n : Nat) : g (s.unhold n) = g s := h.upd rfl

theorem WorkBlind.setEcc (b : Nat) (e : EccMark) : g (s.setEcc b e) = g s := h.upd rfl

theorem WorkBlind.toState (c : Nat) (st : CtxState) : g (s.toState c st) = g s := by
  unfold State.toState
  dsimp only
  split
  · exact (h.wr _ _ _ _ rfl).trans (h.setCtx ..)
  · exact h.setCtx ..

theorem WorkBlind.verifyIdle (b : Band) : g (s.verifyIdle b) = g s := by
  unfold State.verifyIdle
  split
  · exact (h.wr _ _ _ _ rfl).trans (h.wr _ _ _ _ rfl)
  · rfl

theorem WorkBlind.reclaim (rs : List Nat) : g (s.reclaim rs) = g s := by
  refine foldl_unchanged (fun t r => ?_) rs s
  refine Eq.trans (h.upd ?_) ((h.setBand (t.verifyIdle (t.band r)) r { t.band r with st := .reclaiming, raw := [] }).trans
    (h.verifyIdle ..))
  rfl

theorem WorkBlind.settleGate : g s.settleGate = g s := by
  refine (h.wr _ _ _ _ rfl).trans (foldl_unchanged (fun t k => ?_) _ s)
  split
  · rfl
  · exact h.wr _ _ _ _ rfl

theorem WorkBlind.settleCtx (c : Nat) : g (s.settleCtx c) = g s := by
  unfold State.settleCtx State.reclaimCtx
  dsimp only
  split
  · split
    · rw [h.settleGate, h.reclaim, h.toState]
    · rw [h.settleGate, h.reclaim]
    · exact h.settleGate s
  · exact h.settleGate s

theorem WorkBlind.finishAll (c : Nat) : g (s.finishAll c) = g s := by
  unfold State.finishAll
  extract_lets x t u
  have hu : g u = g t := foldl_unchanged (fun t k => h.setStn t k _) _ t
  rw [h.settleCtx, hu]
  exact h.setCtx ..

theorem WorkBlind.spoilHere (c cause : Nat) : g (s.spoilHere c cause) = g s := by
  unfold State.spoilHere
  extract_lets x spoiled closed noted posed
  have hc : g closed = g s := (h.closeDecision _ _ _ (by decide)).trans ((h.toState ..).trans (h.setCtx ..))
  have hn : g noted = g s := by
    unfold noted
    split
    · exact (h.wr _ _ _ _ rfl).trans hc
    · exact hc
  refine (h.settleCtx ..).trans ?_
  unfold posed
  split
  · exact (h.post _ _ _ _ (by decide)).trans ((h.wr _ _ _ _ rfl).trans hn)
  · exact hn

theorem WorkBlind.spoil (c cause : Nat) : g (s.spoil c cause) = g s := by
  unfold State.spoil
  dsimp only
  split
  · split
    · exact h.spoilHere ..
    · exact (h.broadcast ..).trans (h.spoilHere ..)
    · exact (h.emit ..).trans (h.spoilHere ..)
  · rfl

theorem WorkBlind.darken (c p n : Nat) : g (s.darken c p n) = g s := h.setCtx ..

theorem WorkBlind.darkenAll (c : Nat) : g (s.darkenAll c) = g s := foldl_unchanged (fun t p => h.darken t c p 0) _ s

theorem WorkBlind.blankStation (k : Nat) : g (s.blankStation k) = g s := foldl_unchanged (fun t c => h.darken t c k 0) _ s

theorem WorkBlind.spoilStation (k cause : Nat) : g (s.spoilStation k cause) = g s :=
  (foldl_unchanged (fun t c => h.spoil t c cause) _ _).trans (h.blankStation s k)

theorem WorkBlind.endStation (k : Nat) : g (s.endStation k) = g s := by
  refine (foldl_unchanged (fun t c => h.settleCtx t c) _ _).trans ((h.setStn ..).trans ?_)
  exact foldl_unchanged (fun t c => h.setCtx t c _) _ s

theorem WorkBlind.webStop (cause : Nat) : g (s.webStop cause) = g s := by
  unfold State.webStop
  split
  · extract_lets t
    have ht : g t = g s := (h.wr _ _ _ _ rfl).trans (h.wr _ _ _ _ rfl)
    refine Eq.trans (h.upd ?_) ht
    rfl
  · exact h.upd rfl
  · rfl

theorem WorkBlind.stall (c : Nat) : g (s.stall c) = g s := by
  unfold State.stall
  dsimp only
  split
  · rw [h.webStop]
    split
    · exact (h.emit ..).trans ((h.toState ..).trans (h.setCtx ..))
    · exact (h.toState ..).trans (h.setCtx ..)
  · exact h.webStop ..

theorem WorkBlind.failRecord (r : Nat) : g (s.failRecord r) = g s := (h.setBand ..).trans (h.setCtx ..)

theorem WorkBlind.pathSpoil (c pcause : Nat) : g (s.pathSpoil c pcause) = g s := by
  unfold State.pathSpoil
  dsimp only
  split
  · exact h.setCtx ..
  · rw [h.spoil, h.darkenAll, h.setCtx]
  · rw [h.spoil, h.darkenAll, h.setCtx]
  · rw [h.spoil, h.darkenAll, h.setCtx]
  · exact h.setCtx ..
  · rfl

theorem WorkBlind.late (w : Late) (c p r n : Nat) : g (s.late w c p r n) = g s := by
  unfold State.late
  dsimp only
  split
  · split
    · rw [h.stall, h.setCtx, h.failRecord, h.darken]
    · exact h.darken ..
  · rw [h.spoil, h.darken]

theorem WorkBlind.block (c cause : Nat) : g (s.block c cause) = g s := (h.toState ..).trans (h.setCtx ..)

theorem WorkBlind.bandBad (r : Nat) (st : BandState) (cause : Nat) : g (s.bandBad r st cause) = g s := by
  unfold State.bandBad
  extract_lets b t
  have hb : g t = g s := (h.setBand ..).trans ((h.failRecord ..).trans (h.verifyIdle ..))
  split
  · exact (h.block ..).trans hb
  · exact (h.block ..).trans hb
  · exact (h.block ..).trans hb
  · exact hb

theorem WorkBlind.webForget : g s.webForget = g s := by
  unfold State.webForget
  extract_lets t
  have ht : g t = g s := foldl_unchanged (fun t k => h.setStn t k _) _ s
  clear_value t
  refine Eq.trans (h.upd ?_) ht
  rfl

/-! #### Channels, lanes and engines (R79, R137, R337, R340) -/

theorem WorkBlind.freeCtx (c : Nat) : g (s.freeCtx c) = g s := by
  refine (h.wr _ _ _ _ rfl).trans (Eq.trans ?_ (h.setCtx s c {}))
  unfold State.dropHostOk
  split
  · exact h.upd rfl
  · rfl

theorem WorkBlind.endDesc (n : Nat) (e : Ending) : g (s.endDesc n e) = g s :=
  (h.wr _ _ _ _ rfl).trans ((h.setChan ..).trans (h.unhold ..))

theorem WorkBlind.compressorIdle (l : Nat) : g (s.compressorIdle l) = g s := by
  unfold State.compressorIdle
  dsimp only
  split
  · exact (h.wr _ _ _ _ rfl).trans (h.wr _ _ _ _ rfl)
  · exact h.wr _ _ _ _ rfl

theorem WorkBlind.leaveLane (n : Nat) : g (s.leaveLane n) = g s := by
  refine foldl_unchanged (fun t e => ?_) _ s
  dsimp only
  rw [h.setLane]
  split
  · exact h.compressorIdle ..
  · rfl

theorem WorkBlind.abandonBand (n : Nat) : g (s.abandonBand n) = g s := by
  have hl : g ((s.leaveLane n).unhold n) = g s := (h.unhold ..).trans (h.leaveLane ..)
  unfold State.abandonBand
  dsimp only
  split
  · exact hl
  · split
    · exact (h.bandBad ..).trans hl
    · split
      · split
        · exact (h.freeCtx ..).trans ((h.reclaim ..).trans hl)
        · exact (h.reclaim ..).trans hl
      · exact hl

theorem WorkBlind.dmaStop (n : Nat) : g (Machine.dmaStop n s) = g s := by
  unfold Machine.dmaStop
  dsimp only
  split
  · split
    · exact h.wr _ _ _ _ rfl
    · rw [h.wr _ _ _ _ rfl, h.wr _ _ _ _ rfl, h.setChan, h.unhold]
      exact foldl_unchanged (fun t (e : Nat × Lane) => h.setLane t e.1 _) _ s
  · exact h.wr _ _ _ _ rfl

theorem WorkBlind.engineError (n code pos : Nat) : g (s.engineError n code pos) = g s := by
  unfold State.engineError
  rw [State.ev_eq, h.wr _ _ _ _ rfl, h.wr _ _ _ _ rfl, h.wr _ _ _ _ rfl, h.wr _ _ _ _ rfl]

theorem WorkBlind.jobForget (n st : Nat) : g (s.jobForget n st) = g s := by
  have hc : g ((s.setJob n {}).jobClear n) = g (s.setJob n {}) := by
    unfold State.jobClear
    simp only [State.clr_eq, h.wr _ (.cmp _) _ _ rfl]
  exact (h.wr _ _ _ _ rfl).trans (hc.trans (h.upd rfl))

/-! #### Storing a band (R72, R76, R79) -/

theorem WorkBlind.ueHit (b : Nat) : g (s.ueHit b) = g s := by
  unfold State.ueHit
  rw [State.ev_eq, h.wr _ _ _ _ rfl, h.wr _ _ _ _ rfl, State.count_eq, h.wr _ _ _ _ rfl]

theorem WorkBlind.writeBurst (a : Nat) (l : List Byte) : g (s.writeBurst a l) = g s := by
  have hb : g (s.setBytes a l) = g s := h.upd rfl
  unfold State.writeBurst
  dsimp only
  split
  · rw [h.setEcc, hb]
  · split
    · exact hb
    · rw [h.setEcc, State.count_eq, h.wr _ _ _ _ rfl, hb]
    · rw [h.ueHit, hb]

theorem WorkBlind.writeStream (es : List Nat) (o : Nat) (l : List Byte) : g (s.writeStream es o l) = g s := by
  refine foldl_unchanged (fun t x => ?_) _ s
  dsimp only
  split
  · exact foldl_unchanged (fun u (y : Nat × List Byte) => h.writeBurst u y.1 y.2) _ t
  · rfl

theorem WorkBlind.verifyStart (l r : Nat) : g (s.verifyStart l r) = g s := by
  unfold State.verifyStart
  split
  · exact h.bandBad ..
  · split
    · exact (h.wr _ _ _ _ rfl).trans ((h.wr _ _ _ _ rfl).trans (h.wr _ _ _ _ rfl))
    · rfl

theorem WorkBlind.holdFor (n : Nat) : g (s.holdFor n) = g s := by
  unfold State.holdFor
  extract_lets t
  have ht : g t = g s := h.wr _ _ _ _ rfl
  split
  · exact ht
  · refine Eq.trans (h.upd ?_) ht
    rfl

theorem WorkBlind.closeBand (n r : Nat) (data : List Byte) (cut : Bool) : g (s.closeBand n r data cut) = g s := by
  unfold State.closeBand
  dsimp only
  rw [h.endDesc, h.verifyStart, h.wr _ _ _ _ rfl, h.leaveLane, h.setCtx, h.setBand]

theorem WorkBlind.fillBand (n : Nat) : g (s.fillBand n) = g s := by
  unfold State.fillBand
  extract_lets c
  split
  · extract_lets b all full stream ready es fits s1 s2 s3
    have h2 : g s2 = g s := by
      unfold s2
      rw [h.wr _ _ _ _ rfl, h.writeStream]
      exact h.setBand ..
    have h3 : g s3 = g s := by
      unfold s3
      rw [h.wr _ _ _ _ rfl, h.wr _ _ _ _ rfl, h.unhold, h2]
    split
    · split
      · exact (h.abandonBand ..).trans (h.endDesc ..)
      · rfl
    · split
      · split
        · exact (h.endDesc ..).trans (h.leaveLane ..)
        · rfl
      · split
        · exact (h.abandonBand ..).trans (h.endDesc ..)
        · split
          · rw [h.wr _ _ _ _ rfl, h.holdFor, h2]
          · split
            · rw [h.closeBand, h3]
            · exact h3
  · split
    · exact (h.endDesc ..).trans (h.leaveLane ..)
    · rfl
  · rfl

theorem WorkBlind.retryHeld : g s.retryHeld = g s := by
  refine foldl_unchanged (fun t n => ?_) _ s
  split
  · exact h.fillBand ..
  · rfl

/-! #### Engines (R125, R137) -/

theorem WorkBlind.imagingStop (k c r code pos produced : Nat) : g (s.imagingStop k c r code pos produced) = g s :=
  (h.late ..).trans (h.engineError ..)

theorem WorkBlind.compressorLost (l : Nat) : g (s.compressorLost l) = g s := by
  unfold State.compressorLost
  split
  · split
    · exact (h.abandonBand ..).trans (h.endDesc ..)
    · rfl
  · rfl

theorem WorkBlind.verifierLost (l : Nat) : g (s.verifierLost l) = g s := by
  unfold State.verifierLost
  exact foldl_unchanged (fun t (e : Nat × Band) => h.bandBad t e.1 .failed 6) _ s

theorem WorkBlind.imagerLost (j : Nat) : g (s.imagerLost j) = g s := by
  refine foldl_unchanged (fun t k => ?_) _ s
  split
  · split
    · rfl
    · exact (h.imagingStop ..).trans (h.upd (s := t) rfl)
  · rfl

theorem WorkBlind.jobCut (n : Nat) : g (s.jobCut n) = g s := by
  unfold State.jobCut
  split
  · exact (h.retryHeld _).trans ((h.engineError ..).trans (h.upd (s := s) rfl))
  · rfl

theorem WorkBlind.engineLost (n st : Nat) : g (s.engineLost n st) = g s := by
  refine (h.jobForget ..).trans ?_
  split
  · exact h.compressorLost ..
  · split
    · exact h.imagerLost ..
    · exact h.verifierLost ..

theorem WorkBlind.idleChannels : g s.idleChannels = g s := by
  refine foldl_unchanged (fun t n => ?_) _ s
  rw [h.wr _ _ _ _ rfl, h.wr _ _ _ _ rfl, h.setChan, h.abandonBand]

theorem WorkBlind.endPages : g s.endPages = g s := by
  unfold State.endPages
  refine foldl_unchanged (fun t (e : Nat × Ctx) => ?_) _ s
  dsimp only
  rw [h.finishAll, h.spoil, h.darkenAll]

/-! #### Stations and laser enable (R199, R350, R375) -/

theorem WorkBlind.recalAbandon (k : Nat) : g (s.recalAbandon k) = g s := by
  unfold State.recalAbandon
  split
  · exact (h.setStn ..).trans ((h.wr _ _ _ _ rfl).trans (h.wr _ _ _ _ rfl))
  · rfl

theorem WorkBlind.idle (k st : Nat) : g (s.idle k st) = g s := h.emit ..

theorem WorkBlind.stationIsolate (k : Nat) : g (s.stationIsolate k) = g s := by
  unfold State.stationIsolate
  dsimp only
  rw [h.idle, h.wr _ _ _ _ rfl, h.setStn, State.clr_eq, State.clr_eq, State.clr_eq, h.wr _ _ _ _ rfl, h.wr _ _ _ _ rfl,
    h.wr _ _ _ _ rfl, h.endStation, h.spoilStation, h.recalAbandon]

theorem WorkBlind.ldenLow (k : Nat) : g (s.ldenLow k) = g s := by
  have h0 : g ((s.setLnk k { s.lnk k with request := false }).clr (.blk .ldReq) k) = g s :=
    (h.wr _ _ _ _ rfl).trans (h.upd rfl)
  have h1 (t : State) : g (((t.clr (.blk .lden) k).ev (.blk .ilkEv) k).spoilStation k 7) = g t :=
    (h.spoilStation ..).trans ((h.wr _ _ _ _ rfl).trans (h.wr _ _ _ _ rfl))
  unfold State.ldenLow
  dsimp only
  split
  · split
    · exact (h.idle ..).trans ((h.wr _ _ _ _ rfl).trans ((h1 _).trans h0))
    · exact (h1 _).trans h0
  · exact h0

/-! #### Pins, gates and high voltage (R264, R274, R414) -/

theorem WorkBlind.releaseWhere (p : Nat → Bool) : g (s.releaseWhere p) = g s := by
  refine foldl_unchanged (fun t n => ?_) _ s
  split
  · exact h.emit ..
  · rfl

theorem WorkBlind.setGate (n : Nat) (high : Bool) : g (s.setGate n high) = g s := by
  unfold State.setGate
  split
  · rfl
  · exact (h.emit ..).trans (h.wr _ _ _ _ rfl)

theorem WorkBlind.hvHardOff (c : Nat) : g (s.hvHardOff c) = g s :=
  (h.wr _ _ _ _ rfl).trans ((h.wr _ _ _ _ rfl).trans (h.wr _ _ _ _ rfl))

/-! #### Slots (R231, R253, R350) -/

theorem WorkBlind.settleHeaters : g s.settleHeaters = g s := by
  refine foldl_unchanged (fun t n => ?_) _ s
  split
  · exact (h.setHeater ..).trans (h.setGate ..)
  · rfl

theorem WorkBlind.setSlotSt (n st : Nat) : g (s.setSlotSt n st) = g s := by
  unfold State.setSlotSt
  dsimp only
  rw [h.settleHeaters]
  split <;> split <;> simp only [State.clr_eq, h.closeDecision _ 4 _ (by decide), h.wr _ (.cle _) _ _ rfl]

theorem WorkBlind.slotFault (n : Nat) (hold : Bool) : g (s.slotFault n hold) = g s := by
  unfold State.slotFault
  split
  · exact (h.setSlotSt ..).trans (h.upd rfl)
  · rfl

theorem WorkBlind.slotStopped (n : Nat) : g (s.slotStopped n) = g s := by
  unfold State.slotStopped
  split
  · exact (h.settleHeaters _).trans (h.upd rfl)
  · exact h.slotFault ..

theorem WorkBlind.slotsFault : g s.slotsFault = g s := foldl_unchanged (fun t n => h.slotFault t n false) _ s

theorem WorkBlind.pwmDrive (n : Nat) (duty : Int) : g (s.pwmDrive n duty) = g s := by
  unfold State.pwmDrive
  split
  · exact h.emit ..
  · rfl

theorem WorkBlind.captureDone : g s.captureDone = g s := (h.wr _ (.cle .capDoneEv) _ _ rfl).trans (h.wr _ (.cle .cstate) _ _ rfl)

theorem WorkBlind.slotIsolate (n : Nat) : g (s.slotIsolate n) = g s := by
  unfold State.slotIsolate
  extract_lets k i t1 x t2 t3 t4
  have h2 : g t2 = g s := (h.setSlot ..).trans (h.pwmDrive ..)
  clear_value t2
  have h3 : g t3 = g s := (h.setSlotSt ..).trans ((h.wr _ _ _ _ rfl).trans h2)
  clear_value t3
  have h4 : g t4 = g s := by
    unfold t4
    split
    · exact (h.hvHardOff ..).trans h3
    · exact h3
  clear_value t4
  split
  · exact (h.captureDone _).trans h4
  · exact h4

/-! #### Axes (R217, R226, R227, R298) -/

theorem WorkBlind.homeFail (k cause : Nat) : g (s.homeFail k cause) = g s := (h.wr _ _ _ _ rfl).trans (h.wr _ _ _ _ rfl)

theorem WorkBlind.setAxSt (k st : Nat) : g (s.setAxSt k st) = g s := h.wr _ _ _ _ rfl

theorem WorkBlind.axHalt (k : Nat) : g (s.axHalt k) = g s := by
  unfold State.axHalt
  dsimp only
  rw [State.clr_eq, State.clr_eq, h.wr _ _ _ _ rfl, h.wr _ _ _ _ rfl, h.setAxis]
  split <;> split <;> simp only [State.ev_eq, h.homeFail, h.wr _ (.mot _) _ _ rfl]

theorem WorkBlind.webAxisStopped (k : Nat) : g (s.webAxisStopped k) = g s := by
  unfold State.webAxisStopped
  dsimp only
  split
  · rw [h.webForget, foldl_unchanged (fun t c => h.finishAll t c), foldl_unchanged (fun t c => h.pathSpoil t c 8),
      h.wr _ _ _ _ rfl, h.wr _ _ _ _ rfl]
  · rfl

theorem WorkBlind.axisOut (k : Nat) : g (s.axisOut k) = g s := by
  unfold State.axisOut
  rw [h.webAxisStopped, h.setAxSt, State.clr_eq, State.clr_eq, h.wr _ _ _ _ rfl, h.wr _ _ _ _ rfl, h.axHalt]

theorem WorkBlind.axStop (k : Nat) (p : Plan) : g (s.axStop k p) = g s := by
  unfold State.axStop
  dsimp only
  rw [h.setAxis, h.setAxSt]
  split
  · exact h.homeFail ..
  · rfl

theorem WorkBlind.stopAxis (k : Nat) (p : Plan) : g (s.stopAxis k p) = g s := by
  unfold State.stopAxis
  split
  · rfl
  · exact h.webAxisStopped ..
  · split
    · rfl
    · exact h.setAxis ..
  · split
    · exact h.webAxisStopped ..
    · exact (h.webAxisStopped ..).trans (h.axStop ..)
  · exact (h.webAxisStopped ..).trans (h.axStop ..)

theorem WorkBlind.axisFault (k stop : Nat) : g (s.axisFault k stop) = g s := by
  unfold State.axisFault
  dsimp only
  split
  · rfl
  · split
    · exact h.setAxSt ..
    · rw [h.webAxisStopped, h.setAxSt]
      split <;> split <;> simp only [h.axHalt, h.setAxis, h.homeFail]

/-! #### Arming (R50, R63) -/

theorem WorkBlind.setLdr (st : LdrState) : g (s.setLdr st) = g s := by
  unfold State.setLdr
  dsimp only
  split
  · obtain ⟨o, pc, e⟩ := ({ s with ldr := { s.ldr with st := st } } : State).globalIrq_eq .irqArm
    rw [e]
    exact h.upd rfl
  · exact h.upd rfl

theorem WorkBlind.disarmNow : g s.disarmNow = g s := by
  unfold State.disarmNow
  split
  · exact (h.broadcast ..).trans (h.setLdr ..)
  · rfl

theorem WorkBlind.disarmEnd : g s.disarmEnd = g s := by
  unfold State.disarmEnd
  split
  · exact h.setLdr ..
  · rfl

end WorkBlind


/-! ### What the external sequence cannot be seen in (R383 to R387) -/

/-- The supervisor's state apart from the external sequence and the copy of the counters. -/
def Pwr.outer (p : Pwr) := (p.vinOk, p.onLatch, p.fault, p.qualified, p.logDone, p.log, p.cold, p.coldCmd)

/-- The fields that the external sequence writes. -/
def ofSequence (f : PwrF) : Bool := f == .estate || f == .estep || f == .allQual || f == .onLatch

/-- An observation that looks past outputs, the external sequence and its posts, of kind 9. -/
structure SequenceBlind {β : Type} (g : State → β) : Prop where
  upd (s : State) (o : List Out) (p : Pwr) : p.outer = s.pwr.outer → g { s with out := o, pwr := p } = g s
  wr (s : State) (f : PwrF) (i v : Nat) : ofSequence f = true → g (s.wr (.pwr f) i v) = g s
  closeKinds (s : State) : g (s.closeKinds [9]) = g s

theorem State.pwr_driveStep (s : State) (i : Nat) (high : Bool) : (s.driveStep i high).pwr = s.pwr := by
  refine foldl_unchanged (g := State.pwr) (fun t e => ?_) _ s
  split
  · rfl
  · rfl

section SequenceBlind

variable {β : Type} {g : State → β} (h : SequenceBlind g) (s : State)

include h

theorem SequenceBlind.setPwr (p : Pwr) (hp : p.outer = s.pwr.outer) : g (s.setPwr p) = g s := h.upd s s.out p hp

theorem SequenceBlind.broadcast (kind : Nat) (data : List Int) : g (s.broadcast kind data) = g s := by
  obtain ⟨o, e⟩ := s.broadcast_eq kind data
  rw [e]
  exact h.upd s o s.pwr rfl

theorem SequenceBlind.showLatch : g s.showLatch = g s := h.wr _ _ _ _ rfl

theorem SequenceBlind.toE (n : Nat) : g (s.toE n) = g s := (h.wr _ _ _ _ rfl).trans (h.wr _ _ _ _ rfl)

theorem SequenceBlind.driveStep (i : Nat) (high : Bool) : g (s.driveStep i high) = g s := by
  refine foldl_unchanged (fun t e => ?_) _ s
  split
  · exact h.upd t _ t.pwr rfl
  · rfl

theorem SequenceBlind.extOn : g s.extOn = g s := by
  unfold State.extOn
  dsimp only
  split
  · exact (h.broadcast ..).trans ((h.setPwr _ _ (by rfl)).trans (h.toE ..))
  · exact h.toE ..

theorem SequenceBlind.extStart : g s.extStart = g s := by
  unfold State.extStart
  extract_lets _ t
  have ht : g t = g s := (h.wr _ _ _ _ rfl).trans ((h.showLatch _).trans (h.setPwr s _ (by rfl)))
  split
  · exact (h.extOn _).trans ht
  · split
    · exact (h.toE ..).trans ht
    · exact (h.toE ..).trans ht

theorem SequenceBlind.extOffNow : g s.extOffNow = g s := by
  unfold State.extOffNow
  extract_lets t _ u
  have hu : g u = g s := (h.setPwr t _ (by rfl)).trans ((h.closeKinds _).trans ((h.wr _ _ _ _ rfl).trans (h.toE ..)))
  split
  · split
    · exact hu
    · exact (h.setPwr u _ (by rfl)).trans hu
  · split
    · exact (h.extStart _).trans hu
    · exact hu

theorem SequenceBlind.extLower : g s.extLower = g s := by
  unfold State.extLower
  split
  · exact h.extOffNow s
  · dsimp only
    refine (h.toE ..).trans ((h.wr _ _ _ _ rfl).trans ((h.setPwr _ _ ?_).trans (h.driveStep ..)))
    rw [State.pwr_driveStep]
    rfl

theorem SequenceBlind.extDown : g s.extDown = g s := by
  unfold State.extDown
  split
  · exact h.extOffNow s
  · split
    · rfl
    · rw [h.extLower, h.closeKinds]

/-- What does not see OFF_PEND either does not see the end of the wait for the engine (R385). -/
theorem SequenceBlind.offProceed (ho : ∀ t : State, g (t.clr (.pwr .offPend)) = g t) : g s.offProceed = g s :=
  (h.extDown _).trans (ho s)

theorem SequenceBlind.offWaited (ho : ∀ t : State, g (t.clr (.pwr .offPend)) = g t) : g s.offWaited = g s := by
  unfold State.offWaited
  split
  · exact h.offProceed s ho
  · rfl

end SequenceBlind

/-! ### Decisions of other kinds -/

/-- A decision of another kind that closes, or one that is posted, leaves the decision on (kind, unit). -/
theorem State.decisionOpen_closeDecision_ne (s : State) {kind k : Nat} (h : k ≠ kind) (unit u : Nat) :
    (s.closeDecision k u).decisionOpen kind unit = s.decisionOpen kind unit := by
  have hb (a b : Nat) : (!(a == k && b == u) && (a == kind && b == unit)) = (a == kind && b == unit) := by
    by_cases ha : a = kind
    · simp [ha, Ne.symm h]
    · simp [ha]
  simp only [State.decisionOpen, State.closeDecision, List.any_filter, hb]

theorem State.decisionOpen_closeKinds (s : State) {kind : Nat} {ks : List Nat} (h : kind ∉ ks) (unit : Nat) :
    (s.closeKinds ks).decisionOpen kind unit = s.decisionOpen kind unit := by
  have hb (a b : Nat) : (!ks.contains a && (a == kind && b == unit)) = (a == kind && b == unit) := by
    by_cases ha : a = kind
    · simp [ha, h]
    · simp [ha]
  simp only [State.decisionOpen, State.closeKinds, List.any_filter, hb]

theorem State.decisionOpen_wr (s : State) (f : Fld) (i v kind unit : Nat) :
    (s.wr f i v).decisionOpen kind unit = s.decisionOpen kind unit := by simp [State.decisionOpen]

theorem State.decisionOpen_enqueue_ne (s : State) {kind k : Nat} (h : k ≠ kind) (p unit u : Nat) (data : List Nat) :
    (s.enqueue p k u data).decisionOpen kind unit = s.decisionOpen kind unit := by
  have hk : (k == kind) = false := by simpa using h
  have hb (d : Decision) : (!d.about k u data && (d.kind == kind && d.unit == unit)) = (d.kind == kind && d.unit == unit) := by
    by_cases hd : d.kind = kind
    · simp [Decision.about, hd, Ne.symm h]
    · simp [hd]
  unfold State.enqueue
  extract_lets tok post m m' t
  have ht : t.decisionOpen kind unit = s.decisionOpen kind unit := by
    unfold t m' m State.decisionOpen
    dsimp only
    split
    · simp only [List.any_append, List.any_filter, hb, List.any_cons, List.any_nil, hk, Bool.false_and, Bool.or_false]
    · rfl
  clear_value t
  split
  · obtain ⟨o, pc, e⟩ := t.msix_eq (t.rd (.mbx .vector) p)
    rw [e]
    exact ht
  · exact ht

theorem State.decisionOpen_post_ne (s : State) {kind k : Nat} (h : k ≠ kind) (unit u : Nat) (data : List Nat) :
    (s.post k u data).decisionOpen kind unit = s.decisionOpen kind unit := by
  have hk : (k == kind) = false := by simpa using h
  have hw : State.decisionOpen { s with mbx := { s.mbx with
      waiting := s.mbx.waiting ++ [{ kind := k, unit := u, data := data }] } } kind unit = s.decisionOpen kind unit := by
    simp [State.decisionOpen, hk]
  unfold State.post
  extract_lets w
  split
  · split
    · rfl
    · exact hw
  · split
    · exact s.decisionOpen_enqueue_ne h ..
    · split
      · exact s.decisionOpen_wr ..
      · exact hw

/-! ### What reactions leave of Carabid's records (R349, R350) -/

/-- What reactions and unit actions leave: time, islands, active sources, bad reporters, records and their queue, the configuration
of sources, and whether the decision on record `r` is open. -/
def State.carabidView (r : Nat) (s : State) :=
  (s.hw, s.etime, s.inReset, s.isolated, s.flt.active, s.flt.badReporters, s.flt.records, s.flt.queue, s.decisionOpen 5 r)

theorem sheetBlind_flt : SheetBlind State.flt := ⟨fun _ _ _ _ _ => rfl, fun s f i v _ => s.wr_flt f i v⟩

theorem sheetBlind_islands : SheetBlind fun s => (s.hw, s.etime, s.inReset, s.isolated, s.flt) :=
  ⟨fun _ _ _ _ _ => rfl, fun s f i v _ => by simp⟩

theorem State.carabidView_wr (r : Nat) (s : State) (f : Fld) (i v : Nat) : (s.wr f i v).carabidView r = s.carabidView r := by
  simp [State.carabidView, State.decisionOpen]

/-- The view looks at few parts of a state. -/
theorem State.carabidView_congr {s t : State} (r : Nat) (h : t.spine = s.spine) : t.carabidView r = s.carabidView r := by
  simp only [State.spine, Prod.mk.injEq] at h
  obtain ⟨hhw, het, -, hir, hiso, hm, hf, -⟩ := h
  simp [State.carabidView, State.decisionOpen, hhw, het, hir, hiso, hm, hf]

/-- The same islands, the same records and the same decision make the same view. -/
theorem State.carabidView_of_islands {s t : State} {r : Nat}
    (h : (t.hw, t.etime, t.inReset, t.isolated, t.flt) = (s.hw, s.etime, s.inReset, s.isolated, s.flt))
    (hd : t.decisionOpen 5 r = s.decisionOpen 5 r) : t.carabidView r = s.carabidView r := by
  simp only [Prod.mk.injEq] at h
  obtain ⟨hhw, het, hir, hiso, hf⟩ := h
  simp [State.carabidView, hhw, het, hir, hiso, hf, hd]

theorem workBlind_carabidView (r : Nat) : WorkBlind (State.carabidView r) where
  upd := State.carabidView_congr r
  wr s f i v _ := s.carabidView_wr r f i v
  post s _ _ _ h := State.carabidView_of_islands (sheetBlind_islands.post s ..) (s.decisionOpen_post_ne h ..)
  closeDecision s _ _ h := State.carabidView_of_islands rfl (s.decisionOpen_closeDecision_ne h ..)

theorem sequenceBlind_carabidView (r : Nat) : SequenceBlind (State.carabidView r) where
  upd _ _ _ _ := rfl
  wr s f i v _ := s.carabidView_wr r _ i v
  closeKinds s := State.carabidView_of_islands rfl (s.decisionOpen_closeKinds (by decide) r)

section Reactions

variable (r : Nat) (s : State)

theorem State.carabidView_msix (v : Nat) : (s.msix v).carabidView r = s.carabidView r := by
  obtain ⟨o, pc, e⟩ := s.msix_eq v
  rw [e]
  rfl

theorem WorkBlind.engineIsolate {β : Type} {g : State → β} (h : WorkBlind g) (n : Nat) : g (s.engineIsolate n) = g s := by
  unfold State.engineIsolate
  extract_lets t
  have ht : g t = g s := h.engineLost ..
  clear_value t
  refine Eq.trans (h.upd ?_) ht
  rfl

theorem WorkBlind.axisIsolate {β : Type} {g : State → β} (h : WorkBlind g) (k : Nat) : g (s.axisIsolate k) = g s := by
  unfold State.axisIsolate
  extract_lets t
  have ht : g t = g s := h.axisOut ..
  clear_value t
  refine Eq.trans (h.upd ?_) ht
  rfl

theorem State.carabidView_isolateUnit (u : UnitId) : (s.isolateUnit u).carabidView r = s.carabidView r := by
  have h := workBlind_carabidView r
  unfold State.isolateUnit
  extract_lets f t
  have ht : t.carabidView r = s.carabidView r := rfl
  clear_value t
  split
  · exact (h.engineIsolate ..).trans ht
  · exact (h.axisIsolate ..).trans ht
  · exact (h.slotIsolate ..).trans ht
  · exact (h.stationIsolate ..).trans ht

theorem State.carabidView_unitAction (kind : UnitKind) (u act : Nat) :
    (s.unitAction kind u act).carabidView r = s.carabidView r := by
  have h := workBlind_carabidView r
  have hpin (t : State) (l : List Nat) : State.carabidView r { t with eio := { t.eio with off := l } } = t.carabidView r := rfl
  unfold State.unitAction
  split
  · rfl
  · split
    · rfl
    · split
      · exact h.axisFault ..
      · exact h.axisFault ..
      · exact s.carabidView_isolateUnit ..
      · exact h.axisFault ..
  · split
    · rfl
    · split
      · exact h.slotFault ..
      · exact s.carabidView_isolateUnit ..
      · exact h.slotStopped ..
  · split
    · rfl
    · split
      · rfl
      · exact s.carabidView_isolateUnit ..
      · exact h.spoilStation ..
  · split
    · rfl
    · exact s.carabidView_isolateUnit ..
  · split
    · rfl
    · exact h.setGate ..
  · split
    · rfl
    · exact h.hvHardOff ..
  · split
    · exact h.dmaStop ..
    · rfl
  · split
    · rfl
    · dsimp only
      rw [h.emit, hpin]
      split
      · exact (h.wr _ (.eio .hi) _ _ rfl).trans (h.wr _ (.eio .lo) _ _ rfl)
      · rfl
  · rfl

theorem State.carabidView_actOn (src act : Nat) (us : List Nat) : (s.actOn src act us).carabidView r = s.carabidView r :=
  foldl_unchanged (fun t u => t.carabidView_unitAction r _ u act) us s

theorem State.carabidView_sevStep (n : Nat) : (s.sevStep n).carabidView r = s.carabidView r := by
  have h := workBlind_carabidView r
  unfold State.sevStep
  split
  · exact h.disarmNow s
  · extract_lets t cs u
    have hu : u.carabidView r = s.carabidView r := by
      refine (foldl_unchanged (fun v c => ?_) _ _).trans (foldl_unchanged (fun v k => h.blankStation v k) _ s)
      dsimp only
      rw [h.spoil, h.setCtx, h.darkenAll]
    split
    · exact (h.stopAxis ..).trans hu
    · exact hu
  · dsimp only
    rw [foldl_unchanged (fun t c => h.hvHardOff t c), foldl_unchanged (fun t n => h.slotStopped t n),
      foldl_unchanged (fun t k => h.stopAxis t k .quick)]
  · dsimp only
    rw [(sequenceBlind_carabidView r).offWaited _ fun t => t.carabidView_wr r _ 0 0, h.disarmEnd, foldl_unchanged (fun t k => h.ldenLow t k)]
    refine foldl_unchanged (fun t k => ?_) _ s
    split
    · rfl
    · rw [h.webAxisStopped, h.setAxSt, State.clr_eq, h.wr _ _ _ _ rfl, h.axHalt]
  · rfl

theorem State.carabidView_sevRise (old new : Nat) : (s.sevRise old new).carabidView r = s.carabidView r :=
  foldl_unchanged (fun t n => t.carabidView_sevStep r n) _ s

theorem State.carabidView_rest : s.stopAll.restThenFault.carabidView r = s.carabidView r := by
  have h := workBlind_carabidView r
  have hs : s.stopAll.carabidView r = s.carabidView r := foldl_unchanged (fun t k => h.stopAxis t k .stop) _ s
  unfold State.restThenFault
  split
  · exact (h.slotsFault _).trans hs
  · exact hs

theorem State.carabidView_reactOn : s.reactOn.carabidView r = s.carabidView r := by
  unfold State.reactOn
  split
  · rfl
  · split
    · split
      · rfl
      · exact s.carabidView_rest r
    · split
      · split
        · exact s.carabidView_rest r
        · rfl
      · split
        · rfl
        · exact s.carabidView_rest r
    · rfl

theorem State.carabidView_fltMessage : s.fltMessage.carabidView r = s.carabidView r := s.carabidView_msix ..

theorem State.carabidView_returnCancelled (kind : UnitKind) (u : Nat) :
    (s.returnCancelled kind u).carabidView r = s.carabidView r := by
  unfold State.returnCancelled
  split
  · rfl
  · rfl

theorem State.carabidView_furtherUnits (src : Nat) (us : List Nat) : (s.furtherUnits src us).carabidView r = s.carabidView r := by
  unfold State.furtherUnits
  extract_lets new t u
  split
  · rfl
  · have hu : u.carabidView r = s.carabidView r := foldl_unchanged (fun t x => t.carabidView_returnCancelled r _ x) _ t
    split
    · exact hu
    · exact (State.carabidView_actOn ..).trans hu

theorem State.carabidView_trimMasks : s.trimMasks.carabidView r = s.carabidView r := by
  unfold State.trimMasks
  extract_lets keep _ t off _ u
  have hu : u.carabidView r = s.carabidView r := rfl
  clear_value u
  refine (foldl_unchanged (fun v k => ?_) _ u).trans hu
  split
  · rfl
  · rfl

end Reactions

/-- What an equal view gives. -/
theorem State.carabidView_eq_iff {s t : State} {r : Nat} : t.carabidView r = s.carabidView r ↔
    t.hw = s.hw ∧ t.etime = s.etime ∧ t.inReset = s.inReset ∧ t.isolated = s.isolated ∧ t.flt.active = s.flt.active ∧
      t.flt.badReporters = s.flt.badReporters ∧ t.flt.records = s.flt.records ∧ t.flt.queue = s.flt.queue ∧
        t.decisionOpen 5 r = s.decisionOpen 5 r := by
  simp [State.carabidView]


/-! ### Records (O53: R353, R355, R356) -/

section Records

variable {s t : State} {r : Nat}

/-- What a view of the records says of one record, the queue and the islands. -/
theorem State.fltRec_of_carabidView {q : Nat} (h : t.carabidView q = s.carabidView q) (r : Nat) : t.fltRec r = s.fltRec r := by
  obtain ⟨-, -, -, -, -, -, hr, -⟩ := State.carabidView_eq_iff.mp h
  simp [State.fltRec, hr]

theorem State.queue_of_carabidView {q : Nat} (h : t.carabidView q = s.carabidView q) : t.flt.queue = s.flt.queue :=
  let ⟨_, _, _, _, _, _, _, hq, _⟩ := State.carabidView_eq_iff.mp h
  hq

theorem State.up_of_carabidView {q : Nat} (h : t.carabidView q = s.carabidView q) (d : Dom) : t.up d = s.up d := by
  obtain ⟨-, -, hi, ho, -⟩ := State.carabidView_eq_iff.mp h
  simp [State.up, hi, ho]

@[simp] theorem State.fltRec_setRec (s : State) (r : Nat) (x : FltRec) : (s.setRec r x).fltRec r = x := by
  simp [State.fltRec, State.setRec, Store.get_set_same]

@[simp] theorem State.queue_setRec (s : State) (r : Nat) (x : FltRec) : (s.setRec r x).flt.queue = s.flt.queue := rfl

theorem exec_reactionComplete (hr : r < 32) (s : State) : exec (.reactionComplete r) s = .next (reactionComplete r s) := by
  simp [exec, execReactionComplete, hr, guardWF_true]

theorem exec_fltClear (hr : s.Reaches .flt 0) (v : Word) : exec (.fltClear v) s = .next (fltClear v s) := by
  simp [exec, execFltClear, State.hostWrite_of_reaches hr, guardWF_true]

theorem exec_fltAnswer (hr : s.Reaches .flt 0) (hup : s.up .ctl = true) (v : Word) : exec (.fltAnswer v) s =
    .next (s.answerRecord (v.toNat % 32) (bitField v.toNat 8 3) (bitField v.toNat 12 3)) := by
  simp [exec, execFltAnswer, State.hostWrite_of_reaches hr, hup, guardWF_true]

/-- A record that reacts is complete and queued, once its reaction is; its message follows (R353). -/
theorem reactionComplete_done (hup : s.up .ctl = true) (hst : (s.fltRec r).st = 1) (hd : s.reactOn.reactDone (s.fltRec r).sev = true) :
    (reactionComplete r s).fltRec r = { s.fltRec r with st := 3, tDone := s.etime } ∧
      (s.flt.queue.length < 64 → (reactionComplete r s).flt.queue = s.flt.queue ++ [{ s.fltRec r with st := 3, tDone := s.etime }]) ∧
      (64 ≤ s.flt.queue.length → (reactionComplete r s).flt.queue = s.flt.queue ∧
        (reactionComplete r s).rd (.flt .queueLost) = 1) := by
  have hv := s.carabidView_reactOn r
  have hrec := State.fltRec_of_carabidView hv r
  have hq := State.queue_of_carabidView hv
  obtain ⟨-, het, -⟩ := State.carabidView_eq_iff.mp hv
  have hup' : s.reactOn.up .ctl = true := (State.up_of_carabidView hv .ctl).trans hup
  generalize hx : { s.fltRec r with st := 3, tDone := s.etime } = x
  have e : reactionComplete r s = State.fltMessage
      (if s.flt.queue.length < 64 then
        { s.reactOn.setRec r x with flt := { (s.reactOn.setRec r x).flt with queue := s.flt.queue ++ [x] } }
      else (s.reactOn.setRec r x).ev (.flt .queueLost)) := by
    subst hx
    unfold reactionComplete
    simp only [hup, hup', if_true, hrec, hst, hd, het, BEq.rfl, Bool.and_self, State.queue_setRec, hq]
  have hm (t : State) : t.fltMessage.fltRec r = t.fltRec r ∧ t.fltMessage.flt.queue = t.flt.queue :=
    ⟨State.fltRec_of_carabidView (t.carabidView_fltMessage r) r, State.queue_of_carabidView (t.carabidView_fltMessage r)⟩
  rw [e, (hm _).1, (hm _).2]
  by_cases hl : s.flt.queue.length < 64
  · rw [if_pos hl]
    exact ⟨s.reactOn.fltRec_setRec r x, fun _ => rfl, fun h => absurd hl (Nat.not_lt.mpr h)⟩
  · rw [if_neg hl, State.ev_eq]
    refine ⟨?_, fun h => absurd h hl, fun _ => ⟨(congrArg Flt.queue (State.wr_flt ..)).trans hq, ?_⟩⟩
    · rw [State.fltRec, State.wr_flt]
      exact s.reactOn.fltRec_setRec r x
    · exact (State.rd_msix ..).trans (State.rd_wr_same _ rfl 1)

/-- A record that does not react, or whose reaction goes on, stays as it is (R353). -/
theorem reactionComplete_not_done (hup : s.up .ctl = true) (h : (s.fltRec r).st ≠ 1 ∨ s.reactOn.reactDone (s.fltRec r).sev = false) :
    reactionComplete r s = s.reactOn := by
  have hrec := State.fltRec_of_carabidView (s.carabidView_reactOn r) r
  unfold reactionComplete
  simp only [hup, if_true, hrec]
  refine if_neg fun hc => ?_
  simp only [Bool.and_eq_true, beq_iff_eq] at hc
  obtain ⟨⟨-, h1⟩, h2⟩ := hc
  exact h.elim (· h1) fun h => by simp [h] at h2

theorem fltClear_done (hup : s.up .ctl = true) {v : Word} (hst : (s.fltRec (v.toNat % 32)).st = 3)
    (hn : ∀ n ∈ (s.fltRec (v.toNat % 32)).srcs, n ∉ s.flt.active) : ((fltClear v s).fltRec (v.toNat % 32)).st = 0 := by
  have hc : ((s.fltRec (v.toNat % 32)).st == 3 &&
      !((s.fltRec (v.toNat % 32)).srcs.any fun n => s.flt.active.contains n)) = true := by simpa [hst] using hn
  unfold fltClear
  simp only [hup, hc, Bool.not_true, Bool.false_eq_true, if_false, if_true]
  rw [State.fltRec_of_carabidView (State.carabidView_trimMasks 0 _), State.fltRec_setRec]

theorem fltClear_refused (hup : s.up .ctl = true) {v : Word}
    (h : (s.fltRec (v.toNat % 32)).st ≠ 3 ∨ ∃ n ∈ (s.fltRec (v.toNat % 32)).srcs, n ∈ s.flt.active) :
    fltClear v s = s.wr (.flt .clrRefused) 0 1 := by
  have hc : ¬ ((s.fltRec (v.toNat % 32)).st == 3 &&
      !((s.fltRec (v.toNat % 32)).srcs.any fun n => s.flt.active.contains n)) = true := by
    simp only [Bool.and_eq_true, beq_iff_eq, Bool.not_eq_true', List.any_eq_false, List.contains_iff_mem, not_and]
    rintro h3 hn
    obtain h | ⟨n, hm, ha⟩ := h
    · exact h h3
    · exact hn n hm ha
  unfold fltClear
  simp only [hup, hc, Bool.not_true, Bool.false_eq_true, if_false, State.ev_eq]

/-- An answer puts its record in REACTING at the severity it is raised to; what follows leaves the record (R355). -/
theorem State.answerRecord_spec (hst : (s.fltRec r).st = 2) {sev act a : Nat}
    (ha : a = max (min sev (listMax (((s.fltRec r).srcs.filter s.srcHost).map fun n => (srcRow n).hi)))
      (listMax ((s.fltRec r).srcs.map fun n => if s.srcHost n then (srcRow n).lo else s.srcSev n))) :
    (s.answerRecord r sev act).fltRec r =
        { s.fltRec r with st := 1, sev := a, ansSev := sev, ansUact := act, answered := true, clamped := decide (sev < a) } ∧
      (s.answerRecord r sev act).decisionOpen 5 r = false := by
  unfold State.answerRecord
  rw [if_pos hst]
  extract_lets floor cap applied t u v
  have happ : applied = a := ha.symm
  have hv : v.reactOn.carabidView r = t.carabidView r := by
    refine (State.carabidView_reactOn ..).trans (Eq.trans (b := u.carabidView r) ?_ (t.carabidView_sevRise r _ _))
    refine foldl_unchanged (fun w n => ?_) _ _
    split
    · exact w.carabidView_actOn ..
    · rfl
  have hrec := State.fltRec_of_carabidView hv r
  obtain ⟨-, -, -, -, -, -, -, -, hd⟩ := State.carabidView_eq_iff.mp hv
  rw [hrec, hd, ← happ]
  exact ⟨State.fltRec_setRec .., State.decisionOpen_closeDecision ..⟩

theorem State.answerRecord_refused (h : (s.fltRec r).st ≠ 2) (sev act : Nat) : s.answerRecord r sev act = s.wr (.flt .ansRefused) 0 1 := by
  simp [State.answerRecord, h, State.ev_eq]

end Records

/-- Settles O53: what a reaction, its message and the trimmed masks do leaves every record and the queue. -/
theorem recordsRunTheirCourse : Obligations.RecordsRunTheirCourse := by
  intro s r hr hup
  refine ⟨fun hst hd => ⟨_, exec_reactionComplete hr s, reactionComplete_done hup hst hd⟩, fun h => ?_, fun v hv hreach => ?_⟩
  · rw [exec_reactionComplete hr, reactionComplete_not_done hup h]
  · subst hv
    refine ⟨fun hst hn => ⟨_, exec_fltClear hreach v, fltClear_done hup hst hn⟩, fun h => ?_, fun h => ?_, fun a hst ha => ?_⟩
    · rw [exec_fltClear hreach, fltClear_refused hup h]
    · rw [exec_fltAnswer hreach hup, State.answerRecord_refused h]
    · obtain ⟨hrec, hd⟩ := State.answerRecord_spec (act := bitField v.toNat 12 3) hst ha
      exact ⟨_, exec_fltAnswer hreach hup v, by rw [hrec], by rw [hrec], by rw [hrec], by rw [hrec], hd⟩


/-! ### Active sources (O52: R345, R346, R352, R353) -/

theorem mem_addSrc {n m : Nat} {l : List Nat} : n ∈ addSrc m l ↔ n = m ∨ n ∈ l := by
  induction l with
  | nil => simp [addSrc]
  | cons a l ih =>
    unfold addSrc
    split
    · simp
    · split
      · next h => simp [h]
      · simp [ih]; tauto

theorem mem_foldl_addSrc {α : Type} {f : α → Nat} {n : Nat} {l : List α} {a : List Nat} :
    n ∈ l.foldl (fun a e => addSrc (f e) a) a ↔ (∃ e ∈ l, f e = n) ∨ n ∈ a := by
  induction l generalizing a with
  | nil => simp
  | cons e l ih =>
    rw [List.foldl_cons, ih, mem_addSrc]
    simp [eq_comm (a := n), or_assoc, or_left_comm]

/-- The sources that an evaluation finds newly active, and the active ones after it (R352). -/
def newlyActive (was : List Nat) (l : List (Nat × Bool × List Nat)) : List (Nat × Bool × List Nat) :=
  l.filter fun e => e.2.1 && !was.contains e.1

def activeAfter (was : List Nat) (l : List (Nat × Bool × List Nat)) : List Nat :=
  (newlyActive was l).foldl (fun a e => addSrc e.1 a) (was.filter fun n => !((l.filter fun e => !e.2.1).map (·.1)).contains n)

/-- A source with one verdict is active as the verdict says. -/
theorem mem_activeAfter {was : List Nat} {l : List (Nat × Bool × List Nat)} {n : Nat} {b : Bool} {us : List Nat}
    (h : (n, b, us) ∈ l) (hl : ∀ e ∈ l, e.1 = n → e.2.1 = b) : n ∈ activeAfter was l ↔ b = true := by
  unfold activeAfter newlyActive
  simp only [mem_foldl_addSrc, List.mem_filter, Bool.and_eq_true, Bool.not_eq_true', List.contains_eq_mem, decide_eq_false_iff_not,
    List.mem_map]
  cases b with
  | true =>
    simp only [iff_true]
    by_cases hw : n ∈ was
    · refine .inr ⟨hw, ?_⟩
      rintro ⟨e, ⟨he, hf⟩, hn⟩
      exact Bool.noConfusion (hf.symm.trans (hl e he hn))
    · exact .inl ⟨_, ⟨h, rfl, hw⟩, rfl⟩
  | false =>
    simp only [Bool.false_eq_true, iff_false, not_or]
    refine ⟨?_, ?_⟩
    · rintro ⟨e, ⟨he, ht, -⟩, hn⟩
      exact Bool.noConfusion ((hl e he hn).symm.trans ht)
    · exact fun ⟨_, hn⟩ => hn ⟨_, ⟨h, rfl⟩, rfl⟩

/-- A source that no verdict names stays as it was. -/
theorem mem_activeAfter_of_unnamed {was : List Nat} {l : List (Nat × Bool × List Nat)} {n : Nat}
    (h : ∀ e ∈ l, e.1 ≠ n) : n ∈ activeAfter was l ↔ n ∈ was := by
  unfold activeAfter newlyActive
  simp only [mem_foldl_addSrc, List.mem_filter, Bool.and_eq_true, Bool.not_eq_true', List.contains_eq_mem, decide_eq_false_iff_not,
    List.mem_map]
  refine ⟨?_, fun hw => .inr ⟨hw, fun ⟨e, ⟨he, _⟩, hn⟩ => h e he hn⟩⟩
  rintro (⟨e, ⟨he, -⟩, hn⟩ | ⟨hw, -⟩)
  · exact absurd hn (h e he)
  · exact hw

section Evaluate

variable (s : State)

/-- The active sources and the bad reporters. -/
def State.sourceView (s : State) := (s.flt.active, s.flt.badReporters)

variable {s} in
theorem State.sourceView_of_carabidView {t : State} {r : Nat} (h : t.carabidView r = s.carabidView r) :
    t.sourceView = s.sourceView := by
  obtain ⟨-, -, -, -, ha, hb, -⟩ := State.carabidView_eq_iff.mp h
  simp [State.sourceView, ha, hb]

theorem State.sourceView_wr (f : Fld) (i v : Nat) : (s.wr f i v).sourceView = s.sourceView := by simp [State.sourceView]

theorem State.sourceView_mergeRec (r sev : Nat) (srcs : List Nat) : (s.mergeRec r sev srcs).sourceView = s.sourceView :=
  (State.sourceView_of_carabidView (State.carabidView_sevRise 0 _ _ _)).trans rfl

theorem State.sourceView_openRec (r sev : Nat) (await : Bool) (srcs : List Nat) :
    (s.openRec r sev await srcs).sourceView = s.sourceView := by
  unfold State.openRec
  extract_lets n _ t l u v
  have hv : v.sourceView = s.sourceView := (State.sourceView_of_carabidView (u.carabidView_sevRise 0 0 sev)).trans rfl
  split
  · exact (congrArg (fun f : Flt => (f.active, f.badReporters)) (sheetBlind_flt.post v 5 r _)).trans hv
  · exact hv

theorem State.sourceView_activation (srcs : List Nat) : (s.activation srcs).sourceView = s.sourceView := by
  unfold State.activation
  extract_lets t live host hw sev r x full u v
  have ht : t.sourceView = s.sourceView := foldl_unchanged (fun t n => t.sourceView_wr (.flt .srccnt) n _) srcs s
  split
  · exact ht
  · have hu : u.sourceView = s.sourceView := by
      unfold u
      split
      · exact (State.sourceView_mergeRec ..).trans ht
      · split
        · exact (State.sourceView_openRec ..).trans ht
        · exact (State.sourceView_mergeRec ..).trans (Eq.trans rfl ((t.sourceView_wr (.flt .overflow) 0 1).trans ht))
    clear_value u
    refine (State.sourceView_of_carabidView (State.carabidView_reactOn 0 _)).trans
      ((State.sourceView_of_carabidView (State.carabidView_fltMessage 0 _)).trans (Eq.trans ?_ hu))
    exact State.sourceView_of_carabidView (r := 0) (foldl_unchanged (fun t n => t.carabidView_actOn 0 n _ _) hw u)

/-- An evaluation leaves the sources active that it finds, and the bad reporters as they are (R352). -/
theorem State.sourceView_evaluate (l : List (Nat × Bool × List Nat)) :
    (s.evaluate l).sourceView = (activeAfter s.flt.active l, s.flt.badReporters) := by
  unfold State.evaluate
  extract_lets was started t ended active _ u v
  have ht : t.sourceView = s.sourceView :=
    State.sourceView_of_carabidView (r := 0) (foldl_unchanged (fun t e => t.carabidView_furtherUnits 0 e.1 e.2.2) _ s)
  simp only [State.sourceView, Prod.mk.injEq] at ht
  obtain ⟨hta, htb⟩ := ht
  have hu : u.sourceView = (activeAfter s.flt.active l, s.flt.badReporters) := by
    rw [← htb, ← hta]
    unfold u active started ended was State.sourceView activeAfter newlyActive
    rw [hta]
  have hv : v.sourceView = u.sourceView := by
    refine foldl_unchanged (fun t e => ?_) started u
    exact foldl_unchanged (g := State.sourceView)
      (fun t x => State.sourceView_of_carabidView (t.carabidView_returnCancelled 0 (srcUnitKind e.1) x)) _ _
  refine (State.sourceView_of_carabidView (State.carabidView_trimMasks 0 _)).trans (Eq.trans ?_ (hv.trans hu))
  split
  · rfl
  · exact State.sourceView_activation ..

end Evaluate

/-- The verdicts on the sources of a reporter, and the one on bad reporters, each name one source. -/
theorem mem_activeAfter_map {was names : List Nat} {f : Nat → Nat × Bool × List Nat} {w : Nat × Bool × List Nat}
    (hf : ∀ n, (f n).1 = n) (hw : w.1 = 50) (h50 : 50 ∉ names) :
    (∀ n ∈ names, n ∈ activeAfter was (names.map f ++ [w]) ↔ (f n).2.1 = true) ∧
      (∀ n, n ∉ names → n ≠ 50 → (n ∈ activeAfter was (names.map f ++ [w]) ↔ n ∈ was)) ∧
      (50 ∈ activeAfter was (names.map f ++ [w]) ↔ w.2.1 = true) := by
  have hcases {e : Nat × Bool × List Nat} (he : e ∈ names.map f ++ [w]) : (e.1 ∈ names ∧ e = f e.1) ∨ e = w := by
    simp only [List.mem_append, List.mem_map, List.mem_singleton] at he
    obtain ⟨n, hn, rfl⟩ | rfl := he
    · exact .inl (by rw [hf]; exact ⟨hn, rfl⟩)
    · exact .inr rfl
  refine ⟨fun n hn => ?_, fun n hn h => ?_, ?_⟩
  · refine mem_activeAfter (us := (f n).2.2) (List.mem_append_left _ (List.mem_map.mpr ⟨n, hn, ?_⟩)) fun e he hen => ?_
    · exact Prod.ext (hf n) rfl
    · obtain ⟨-, h⟩ | rfl := hcases he
      · rw [h, hen]
      · exact absurd (hen.symm.trans hw ▸ hn) h50
  · refine mem_activeAfter_of_unnamed fun e he hen => ?_
    obtain ⟨h', -⟩ | rfl := hcases he
    · exact hn (hen ▸ h')
    · exact h (hen.symm.trans hw)
  · refine mem_activeAfter (us := w.2.2) (List.mem_append_right _ (List.mem_singleton.mpr (Prod.ext hw.symm rfl))) fun e he hen => ?_
    obtain ⟨h', -⟩ | rfl := hcases he
    · exact absurd (hen ▸ h') h50
    · rfl

/-! #### Words of reporters -/

/-- The sources of a reporter, the one on bad reporters apart. -/
def State.sourcesOf (s : State) (r : Nat) : List Nat := s.sourceList.filter fun n => reporterOf n == r && n != 50

theorem State.mem_sourcesOf {s : State} {r n : Nat} : n ∈ s.sourcesOf r ↔ n ∈ s.sourceList ∧ reporterOf n = r ∧ n ≠ 50 := by
  simp [State.sourcesOf]

theorem State.not_mem_sourcesOf (s : State) (r : Nat) : 50 ∉ s.sourcesOf r := fun h => (State.mem_sourcesOf.mp h).2.2 rfl

/-- The verdict of a word on a source: its pair, or its condition where the word does not list it (R345). -/
def State.sourceVerdict (s : State) (pairs : List (Nat × Rails)) (n : Nat) : Nat × Bool × List Nat :=
  match pairs.find? fun e => e.1 == n with
  | some e => (n, e.2 != .r01, (s.sourceNow n).2)
  | none => (n, s.sourceNow n)

theorem State.sourceVerdict_fst (s : State) (pairs : List (Nat × Rails)) (n : Nat) : (s.sourceVerdict pairs n).1 = n := by
  unfold State.sourceVerdict
  split <;> rfl

/-- The state in which a word or a silence leaves the list of bad reporters. -/
def State.withBad (s : State) (l : List Nat) : State := { s with flt := { s.flt with badReporters := l } }

theorem State.sourceNow_withBad (s : State) (l : List Nat) {n : Nat} (h : n ≠ 50) : (s.withBad l).sourceNow n = s.sourceNow n := by
  unfold State.sourceNow
  split
  · rfl
  · split
    case h_39 => exact absurd rfl h
    all_goals rfl

theorem State.sourceVerdict_withBad (s : State) (l : List Nat) (pairs : List (Nat × Rails)) {n : Nat} (h : n ≠ 50) :
    (s.withBad l).sourceVerdict pairs n = s.sourceVerdict pairs n := by
  unfold State.sourceVerdict
  rw [s.sourceNow_withBad l h]

/-- The bad reporters after a word of reporter `r` (R346). -/
def State.badsAfter (s : State) (r : Nat) (pairs : List (Nat × Rails)) : List Nat :=
  if pairs.any fun e => e.2 == .r00 || e.2 == .r11 then addSrc r s.flt.badReporters else s.flt.badReporters.erase r

section Words

variable {s : State} {r : Nat} (hup : s.up .ctl = true) (hr : s.reports r = true)

include hup hr

theorem faultReportWord_eq (word : List (Nat × Rails)) {pairs : List (Nat × Rails)}
    (hp : pairs = word.filter fun e => reporterOf e.1 == r) : faultReportWord r word s =
      (s.withBad (s.badsAfter r pairs)).evaluate
        ((s.sourcesOf r).map ((s.withBad (s.badsAfter r pairs)).sourceVerdict pairs) ++ [(s.withBad (s.badsAfter r pairs)).wireSource]) := by
  subst hp
  unfold faultReportWord
  rw [if_neg (by simp [hup, hr])]
  rfl

theorem reporterTimeout_eq : reporterTimeout r s =
    (s.withBad (addSrc r s.flt.badReporters)).evaluate
      ((s.sourcesOf r).map (fun n => (n, true, ((s.withBad (addSrc r s.flt.badReporters)).sourceNow n).2)) ++
        [(s.withBad (addSrc r s.flt.badReporters)).wireSource]) := by
  unfold reporterTimeout
  rw [if_neg (by simp [hup, hr])]
  rfl

omit hup hr in
theorem State.wireSource_withBad (l : List Nat) : (s.withBad l).wireSource = (50, !l.isEmpty, l) := rfl

/-- What a word leaves active (R346, R352). -/
theorem active_faultReportWord (word : List (Nat × Rails)) :
    (∀ n ∈ s.sourcesOf r, n ∈ (faultReportWord r word s).flt.active ↔
      (s.sourceVerdict (word.filter fun e => reporterOf e.1 == r) n).2.1 = true) ∧
      (∀ n, n ∉ s.sourcesOf r → n ≠ 50 → (n ∈ (faultReportWord r word s).flt.active ↔ n ∈ s.flt.active)) ∧
      (50 ∈ (faultReportWord r word s).flt.active ↔ (faultReportWord r word s).flt.badReporters ≠ []) := by
  generalize hp : (word.filter fun e => reporterOf e.1 == r) = pairs
  have he := State.sourceView_evaluate (s.withBad (s.badsAfter r pairs))
    ((s.sourcesOf r).map ((s.withBad (s.badsAfter r pairs)).sourceVerdict pairs) ++ [(s.withBad (s.badsAfter r pairs)).wireSource])
  rw [← faultReportWord_eq hup hr word hp.symm] at he
  simp only [State.sourceView, Prod.mk.injEq] at he
  obtain ⟨ha, hb⟩ := he
  obtain ⟨h1, h2, h3⟩ := mem_activeAfter_map (was := s.flt.active) (names := s.sourcesOf r)
    ((s.withBad (s.badsAfter r pairs)).sourceVerdict_fst pairs)
    (w := (s.withBad (s.badsAfter r pairs)).wireSource) rfl (s.not_mem_sourcesOf r)
  rw [ha, hb]
  refine ⟨fun n hn => (h1 n hn).trans ?_, h2, h3.trans ?_⟩
  · rw [s.sourceVerdict_withBad _ _ (State.mem_sourcesOf.mp hn).2.2]
  · change (!(s.badsAfter r pairs).isEmpty) = true ↔ s.badsAfter r pairs ≠ []
    simp

/-- Every source of a silent reporter is active, and it is a bad one (R346). -/
theorem active_reporterTimeout : r ∈ (reporterTimeout r s).flt.badReporters ∧ 50 ∈ (reporterTimeout r s).flt.active ∧
    ∀ n ∈ s.sourcesOf r, n ∈ (reporterTimeout r s).flt.active := by
  have he := State.sourceView_evaluate (s.withBad (addSrc r s.flt.badReporters))
    ((s.sourcesOf r).map (fun n => (n, true, ((s.withBad (addSrc r s.flt.badReporters)).sourceNow n).2)) ++
      [(s.withBad (addSrc r s.flt.badReporters)).wireSource])
  rw [← reporterTimeout_eq hup hr] at he
  simp only [State.sourceView, Prod.mk.injEq] at he
  obtain ⟨ha, hb⟩ := he
  obtain ⟨h1, -, h3⟩ := mem_activeAfter_map (was := s.flt.active) (names := s.sourcesOf r)
    (f := fun n => (n, true, ((s.withBad (addSrc r s.flt.badReporters)).sourceNow n).2)) (fun _ => rfl)
    (w := (s.withBad (addSrc r s.flt.badReporters)).wireSource) rfl (s.not_mem_sourcesOf r)
  have hbad : r ∈ addSrc r s.flt.badReporters := mem_addSrc.mpr (.inl rfl)
  rw [ha, hb]
  refine ⟨hbad, h3.mpr ?_, fun n hn => (h1 n hn).mpr rfl⟩
  simpa [State.wireSource_withBad] using List.ne_nil_of_mem hbad

end Words

/-! #### A first activation -/

/-- A record that opens for one source (R352, R353). -/
def State.openedRec (s : State) (n sev : Nat) (await : Bool) : FltRec :=
  { st := if await then 2 else 1, sev := sev, first := n, cnt := 1, seq := s.flt.opened + 1, tFirst := s.etime, srcs := [n] }

theorem State.openRec_spec (s : State) (k n sev : Nat) (await : Bool) :
    (s.openRec k sev await [n]).fltRec k = s.openedRec n sev await ∧
      (await = true → (s.openRec k sev await [n]).decisionOpen 5 k = true) := by
  unfold State.openRec
  extract_lets m _ t l u v
  have hv : v.fltRec k = s.openedRec n sev await :=
    (State.fltRec_of_carabidView (u.carabidView_sevRise k 0 sev) k).trans (State.fltRec_setRec ..)
  cases await with
  | true =>
    refine ⟨?_, fun _ => v.decisionOpen_post (by decide) k _⟩
    exact (congrArg (fun f : Flt => Store.get ({} : FltRec) k f.records) (sheetBlind_flt.post v 5 k _)).trans hv
  | false => exact ⟨hv, Bool.noConfusion⟩

/-- With no record open or waiting, a source that becomes active opens the lowest free record (R352, R353). -/
theorem State.activation_opens {s : State} {n k : Nat} (hcur : s.curRec = none) (hfree : s.freeRec = some k) (hsev : s.srcSev n ≠ 0) :
    (s.activation [n]).carabidView k = ((s.count (.flt .srccnt) n).openRec k
      (if s.srcHost n then heldSev n else s.srcSev n) (s.srcHost n) [n]).carabidView k := by
  have hrd (f : FltF) (hf : f ≠ .srccnt) : (s.count (.flt .srccnt) n).rd (.flt f) n = s.rd (.flt f) n :=
    State.rd_wr_ne s (fun e => hf (Fld.flt.inj (congrArg Prod.fst e))) _
  have hs : (s.count (.flt .srccnt) n).srcSev n = s.srcSev n := hrd .sev (by decide)
  have hh : (s.count (.flt .srccnt) n).srcHost n = s.srcHost n := congrArg (· != 0) (hrd .mode (by decide))
  have hf : (s.count (.flt .srccnt) n).flt = s.flt := State.wr_flt ..
  have hcur' : (s.count (.flt .srccnt) n).curRec = none := by rw [State.curRec, hf]; exact hcur
  have hfree' : (s.count (.flt .srccnt) n).freeRec = some k := by
    rw [← hfree]
    simp only [State.freeRec, State.fltRec, hf]
  have htail (t : State) (l : List Nat) : (l.foldl (fun t m => t.actOn m (t.srcAct m) (t.unitMask m)) t).fltMessage.reactOn.carabidView k =
      t.carabidView k :=
    (State.carabidView_reactOn ..).trans ((State.carabidView_fltMessage ..).trans
      (foldl_unchanged (fun t m => t.carabidView_actOn k m _ _) l t))
  unfold State.activation
  cases hm : s.srcHost n with
  | true =>
    simp only [List.foldl_cons, List.foldl_nil, List.filter_cons, List.filter_nil, hs, hh, hm, hcur', hfree', bne_iff_ne, ne_eq, hsev,
      not_false_eq_true, if_true]
    simp only [Bool.not_true, Bool.false_eq_true, if_false, List.map_nil, List.map_cons, List.nil_append, listMax]
    exact htail _ []
  | false =>
    simp only [List.foldl_cons, List.foldl_nil, List.filter_cons, List.filter_nil, hs, hh, hm, hcur', hfree', bne_iff_ne, ne_eq, hsev,
      not_false_eq_true, if_true]
    simp only [Bool.not_false, Bool.false_eq_true, if_true, if_false, List.map_nil, List.map_cons, List.append_nil, listMax, hs]
    exact htail _ [n]

/-- With nothing active, one verdict that a source is active makes an activation of it; nothing else of its records changes. -/
theorem State.evaluate_first {s : State} (ha : s.flt.active = []) {l : List (Nat × Bool × List Nat)} {n : Nat} {us : List Nat}
    (hl : newlyActive [] l = [(n, true, us)]) (k : Nat) :
    ∃ t : State, (s.evaluate l).carabidView k = (t.activation [n]).carabidView k ∧ t.flt.records = s.flt.records ∧ t.etime = s.etime ∧
      t.regs = s.regs ∧ t.hw = s.hw := by
  have hnone : (l.filter fun e => e.2.1 && ([] : List Nat).contains e.1) = [] := by simp
  have hc (t : State) (kind : UnitKind) (us : List Nat) :
      let u := us.foldl (fun t u => t.returnCancelled kind u) t
      (u.flt.records, u.etime, u.regs, u.hw) = (t.flt.records, t.etime, t.regs, t.hw) := by
    refine foldl_unchanged (g := fun u : State => (u.flt.records, u.etime, u.regs, u.hw)) (fun t x => ?_) us t
    unfold State.returnCancelled
    split
    · rfl
    · rfl
  unfold State.evaluate
  extract_lets was started a ended active _ u v
  have ha' : a = s := by
    unfold a was
    rw [ha, hnone]
    rfl
  have hs : started = [(n, true, us)] := by
    unfold started was
    rw [ha]
    exact hl
  have hv : (v.flt.records, v.etime, v.regs, v.hw) = (s.flt.records, s.etime, s.regs, s.hw) := by
    rw [← ha']
    unfold v
    rw [hs]
    exact (hc ..).trans rfl
  simp only [Prod.mk.injEq] at hv
  refine ⟨v, (State.carabidView_trimMasks ..).trans ?_, hv⟩
  rw [hs]
  rfl

theorem State.nodup_sourceList (s : State) : s.sourceList.Nodup := by
  have hmem {i n : Nat} : (n ∈ if i % 16 ≤ 10 then some (64 + i) else none) → 64 + i = n := by
    split
    · simp
    · simp
  refine List.nodup_range.append (List.nodup_range.filterMap fun i j n hi hj => ?_) ?_
  · have := hmem hi
    have := hmem hj
    omega
  · simp only [List.disjoint_left, List.mem_range, List.mem_filterMap, not_exists, not_and]
    intro n hn i _ h
    have := hmem h
    omega

/-- A word with one active pair, on a module where nothing else is active, finds one source newly active. -/
theorem newlyActive_of_one {s : State} {r n : Nat} (hmem : n ∈ s.sourcesOf r)
    (hothers : ∀ m ∈ s.sourceList, reporterOf m = r → m ≠ n → (s.sourceNow m).1 = false) :
    newlyActive [] ((s.sourcesOf r).map (s.sourceVerdict [(n, .r10)]) ++ [(50, false, [])]) = [(n, true, (s.sourceNow n).2)] := by
  have hn : s.sourceVerdict [(n, .r10)] n = (n, true, (s.sourceNow n).2) := by simp [State.sourceVerdict]
  have hp : (s.sourcesOf r).filter ((fun e => e.2.1 && !([] : List Nat).contains e.1) ∘ s.sourceVerdict [(n, .r10)]) = [n] := by
    have hcount : (s.sourcesOf r).count n = 1 := List.count_eq_one_of_mem (s.nodup_sourceList.filter _) hmem
    refine Eq.trans (List.filter_congr (q := (· == n)) fun m hm => ?_) (by rw [List.filter_beq, hcount]; rfl)
    obtain ⟨hs, hrep, -⟩ := State.mem_sourcesOf.mp hm
    by_cases h : m = n
    · simp [h, hn]
    · simp [State.sourceVerdict, Ne.symm h, h, hothers m hs hrep h]
  unfold newlyActive
  rw [List.filter_append, List.filter_map, hp]
  simp [hn]

/-- The one active source, on a module without a record, opens record `k` (R352, R353). -/
theorem faultReportWord_first {s : State} {r n k : Nat} (hup : s.up .ctl = true) (hr : s.reports r = true) (hmem : n ∈ s.sourcesOf r)
    (ha : s.flt.active = []) (hbad : s.flt.badReporters = []) (hcur : s.curRec = none) (hfree : s.freeRec = some k)
    (hothers : ∀ m ∈ s.sourceList, reporterOf m = r → m ≠ n → (s.sourceNow m).1 = false) (hsev : s.srcSev n ≠ 0) :
    (faultReportWord r [(n, .r10)] s).flt.active = [n] ∧
      (∃ seq, (faultReportWord r [(n, .r10)] s).fltRec k =
        { st := if s.srcHost n then 2 else 1, sev := if s.srcHost n then heldSev n else s.srcSev n, first := n, cnt := 1,
          seq := seq, tFirst := s.etime, srcs := [n] }) ∧
      (s.srcHost n = true → (faultReportWord r [(n, .r10)] s).decisionOpen 5 k = true) := by
  have hpairs : [(n, Rails.r10)] = [(n, Rails.r10)].filter fun e => reporterOf e.1 == r := by
    simp [(State.mem_sourcesOf.mp hmem).2.1]
  have hs : s.withBad (s.badsAfter r [(n, .r10)]) = s := by
    have : s.badsAfter r [(n, .r10)] = s.flt.badReporters := by simp [State.badsAfter, hbad]
    rw [this]
    rfl
  have hwire : s.wireSource = (50, false, []) :=
    (show s.wireSource = (50, !s.flt.badReporters.isEmpty, s.flt.badReporters) from rfl).trans (by rw [hbad]; rfl)
  have hnew := newlyActive_of_one hmem hothers
  rw [faultReportWord_eq hup hr _ hpairs, hs, hwire]
  refine ⟨?_, ?_⟩
  · have he := s.sourceView_evaluate ((s.sourcesOf r).map (s.sourceVerdict [(n, .r10)]) ++ [(50, false, [])])
    simp only [State.sourceView, Prod.mk.injEq] at he
    rw [he.1, ha, activeAfter, hnew]
    rfl
  · obtain ⟨t, hv, hrecs, htime, hregs, hhw⟩ := State.evaluate_first ha hnew k
    have hrd (f : FltF) : t.rd (.flt f) n = s.rd (.flt f) n := by simp [State.rd, hregs, hhw]
    have hsev' : t.srcSev n = s.srcSev n := hrd .sev
    have hhost : t.srcHost n = s.srcHost n := congrArg (· != 0) (hrd .mode)
    have hv' := hv.trans (State.activation_opens (by rw [← hcur]; simp only [State.curRec, hrecs])
      (by rw [← hfree]; simp only [State.freeRec, State.fltRec, hrecs]) (hsev'.symm ▸ hsev))
    rw [hsev', hhost] at hv'
    obtain ⟨hrec, hd⟩ := (t.count (.flt .srccnt) n).openRec_spec k n (if s.srcHost n then heldSev n else s.srcSev n) (s.srcHost n)
    obtain ⟨-, -, -, -, -, -, -, -, hdv⟩ := State.carabidView_eq_iff.mp hv'
    refine ⟨⟨(t.count (.flt .srccnt) n).flt.opened + 1, ?_⟩, fun h => hdv.trans (hd h)⟩
    have het : (t.count (.flt .srccnt) n).etime = s.etime := (State.wr_etime ..).trans htime
    rw [State.fltRec_of_carabidView hv', hrec, State.openedRec, het]

/-- Settles O52: a word or a silence gives each source of its reporter one verdict, which decides whether it is active. -/
theorem sourcesBecomeActive : Obligations.SourcesBecomeActive := by
  intro s r hr h7 hup
  have h7 : (r != 7) = true := bne_iff_ne.mpr h7
  have hword (word : List (Nat × Rails)) : exec (.faultReportWord r word) s = .next (faultReportWord r word s) := by
    simp [exec, execFaultReportWord, hr, h7, guardWF_true]
  have hsilence : exec (.reporterTimeout r) s = .next (reporterTimeout r s) := by
    simp [exec, execReporterTimeout, hr, h7, guardWF_true]
  refine ⟨fun h => ⟨?_, fun word => ?_⟩, fun h => ⟨fun word => ⟨_, hword word, ?_⟩, ⟨_, hsilence, ?_⟩, ?_⟩⟩
  · rw [hsilence, reporterTimeout, if_pos (by simp [h])]
  · rw [hword, faultReportWord, if_pos (by simp [h])]
  · obtain ⟨h1, h2, h3⟩ := active_faultReportWord hup h word
    refine ⟨fun n hn hrep h50 => ?_, fun n hn hrep h50 => ?_, h3⟩
    · rw [h1 n (State.mem_sourcesOf.mpr ⟨hn, hrep, h50⟩), State.sourceVerdict, List.find?_filter]
      have hp : (fun e : Nat × Rails => decide ((reporterOf e.1 == r) = true ∧ (e.1 == n) = true)) = fun e => e.1 == n := by
        funext e
        by_cases he : e.1 = n
        · simp [he, hrep]
        · simp [he]
      rw [hp]
      cases word.find? fun e => e.1 == n with
      | some e => simp
      | none => rfl
    · exact h2 n (fun hm => hrep (State.mem_sourcesOf.mp hm).2.1) h50
  · obtain ⟨hb, h50, hall⟩ := active_reporterTimeout hup h
    exact ⟨hb, h50, fun n hn hrep hne => hall n (State.mem_sourcesOf.mpr ⟨hn, hrep, hne⟩)⟩
  · intro n k hn hrep h50 ha hbad hcur hfree hothers hsev
    have hmem := State.mem_sourcesOf.mpr ⟨hn, hrep, h50⟩
    obtain ⟨hact, ⟨seq, hrec⟩, hd⟩ := faultReportWord_first hup h hmem ha hbad hcur hfree hothers hsev
    refine ⟨_, hword _, hact, ?_⟩
    rw [hrec]
    refine ⟨rfl, rfl, rfl, rfl, fun hm => ?_, fun hm => ?_⟩
    · simp [hm]
    · simp [hm, hd hm]


/-! ### Units (O54: R358, R359, R408, R410) -/

section Units

variable (s : State)

theorem workBlind_flt : WorkBlind State.flt where
  upd h := by
    simp only [State.spine, Prod.mk.injEq] at h
    exact h.2.2.2.2.2.2.1
  wr s f i v _ := s.wr_flt f i v
  post s _ _ _ _ := sheetBlind_flt.post s ..
  closeDecision _ _ _ _ := rfl

theorem State.flt_isolateUnit (u : UnitId) : (s.isolateUnit u).flt = { s.flt with
    isolated := u :: s.flt.isolated.erase u
    retpend := s.flt.retpend.erase u
    resetting := s.flt.resetting.erase u
    checking := s.flt.checking.erase u } := by
  unfold State.isolateUnit
  extract_lets f t
  refine Eq.trans (b := t.flt) ?_ rfl
  clear_value t
  cases u with
  | engine n => exact workBlind_flt.engineIsolate ..
  | axis k => exact workBlind_flt.axisIsolate ..
  | slot n => exact workBlind_flt.slotIsolate ..
  | station k => exact workBlind_flt.stationIsolate ..

/-- The reset of a unit puts back its running state; Carabid and the islands stay (R410). -/
theorem State.unitReset_spec (u : UnitId) :
    (s.unitReset u).flt = s.flt ∧ (s.unitReset u).inReset = s.inReset ∧
      (∀ k, u = .axis k → (s.unitReset u).axis k = {}) ∧ (∀ n, u = .slot n → (s.unitReset u).slot n = {}) := by
  cases u with
  | engine n => exact ⟨State.wr_flt .., State.wr_inReset .., fun _ h => (nomatch h), fun _ h => (nomatch h)⟩
  | axis k =>
    refine ⟨rfl, rfl, fun j h => ?_, fun _ h => (nomatch h)⟩
    obtain rfl := UnitId.axis.inj h
    exact (show (s.unitReset (.axis k)).axis k = (s.setAxis k {}).axis k from rfl).trans (s.axis_setAxis_same k {})
  | slot n =>
    refine ⟨State.wr_flt .., State.wr_inReset .., fun _ h => (nomatch h), fun m h => ?_⟩
    obtain rfl := UnitId.slot.inj h
    exact (State.slot_wr ..).trans (s.slot_setSlot_same n {})
  | station k => exact ⟨rfl, rfl, fun _ h => (nomatch h), fun _ h => (nomatch h)⟩

theorem State.sameButRegs_showReset : s.SameButRegs s.showReset :=
  (s.sameButRegs_wr ..).trans ((State.sameButRegs_wr ..).trans ((State.sameButRegs_wr ..).trans (State.sameButRegs_wr ..)))

/-- Source 11, that of a unit, resets no domain (R401, R410). -/
theorem State.sourceAssert_unit : ∃ regs rst, s.sourceAssert 11 = { s with regs := regs, rst := rst } ∧ 11 ∈ rst.asserted := by
  have he : s.effReach 11 = 0 := rfl
  unfold State.sourceAssert
  simp only [he, show ¬ 2 ≤ 0 by decide, if_false, Nat.zero_ne_one, List.foldl_nil]
  split
  · obtain ⟨r, h⟩ := (State.sameButRegs_count _ _ _).trans (State.sameButRegs_showReset _)
    exact ⟨r, _, h, List.mem_cons_self ..⟩
  · obtain ⟨r, h⟩ := State.sameButRegs_showReset _
    exact ⟨r, _, h, List.mem_cons_self ..⟩

/-- Carabid and the page store, which a release, a restore and a measurement leave. -/
def State.unitView := (s.flt, s.loam)

theorem State.SameButRegs.unitView {s t : State} (h : s.SameButRegs t) : t.unitView = s.unitView := by
  obtain ⟨r, rfl⟩ := h
  rfl

theorem State.unitView_wr (f : Fld) (i v : Nat) : (s.wr f i v).unitView = s.unitView := (s.sameButRegs_wr f i v).unitView

theorem State.unitView_calStart : s.calStart.unitView = s.unitView :=
  ((s.sameButRegs_wr ..).trans ((State.sameButRegs_wr ..).trans (State.sameButRegs_wr ..))).unitView

theorem State.unitView_sourceDeassert (src : Nat) : (s.sourceDeassert src).unitView = s.unitView := by
  unfold State.sourceDeassert
  extract_lets r left list t
  split
  · rfl
  · have ht : t.unitView = s.unitView := (State.sameButRegs_showReset _).unitView
    clear_value t
    split
    · unfold State.episodeEnd
      extract_lets _ t'
      have ht' : t'.unitView = s.unitView := ht
      clear_value t'
      split
      · exact (t'.unitView_calStart).trans ht'
      · exact ht'
    · exact ht

theorem State.unitView_unitRestore (u : UnitId) : (s.unitRestore u).unitView = s.unitView := by
  unfold State.unitRestore
  split
  · refine foldl_unchanged (fun t e => ?_) _ s
    split
    · split
      · exact t.unitView_wr ..
      · rfl
    · rfl
  · rfl

theorem State.sameButRegs_settleReady (k : Nat) : s.SameButRegs (s.settleReady k) := s.sameButRegs_wr ..

theorem State.unitView_recalRequest (k : Nat) : (s.recalRequest k).unitView = s.unitView := by
  unfold State.recalRequest
  split
  · rfl
  · split
    · exact s.unitView_wr ..
    · unfold State.recalBegin
      extract_lets t
      have ht : t.unitView = s.unitView := ((s.sameButRegs_wr ..).trans (State.sameButRegs_wr ..)).unitView
      exact (State.sameButRegs_settleReady _ k).unitView.trans ht

theorem State.unitView_stationPass (k : Nat) : (s.stationPass k).unitView = s.unitView := by
  unfold State.stationPass
  extract_lets t u
  have ht : t.unitView = s.unitView := by
    unfold t
    split
    · exact s.unitView_wr ..
    · rfl
  exact Eq.trans rfl ((t.unitView_wr (.cal .need) k 0).trans ht)

theorem State.unitView_stationFail (k : Nat) : (s.stationFail k).unitView = s.unitView :=
  ((s.sameButRegs_wr (.cal .failStep) 0 8).trans ((State.sameButRegs_wr _ (.cal .failUnit) 0 k).trans
    (State.sameButRegs_wr _ (.cal .calFail) 0 1))).unitView

theorem unitView_recalDone (k : Nat) (ok : Bool) : (recalDone k ok s).unitView = s.unitView := by
  unfold recalDone
  split
  · refine (State.sameButRegs_settleReady _ k).unitView.trans ?_
    have hs : ((s.clr (.cal .busy) k).setStn k { (s.clr (.cal .busy) k).stn k with recal := false }).unitView = s.unitView :=
      Eq.trans rfl (s.unitView_wr (.cal .busy) k 0)
    split
    · exact (State.unitView_stationPass ..).trans hs
    · exact (State.unitView_stationFail ..).trans hs
  · rfl

end Units

section UnitCommands

variable {s : State} {v : Word} {u : UnitId}

theorem exec_isolate (h1 : bitField v.toNat 16 2 = 1) (hr : s.Reaches .flt 0) : exec (.isolate v) s = .next (isolateCmd v s) := by
  simp [exec, execIsolate, h1, State.hostWrite_of_reaches hr, guardWF_true]

theorem exec_returnUnit (h2 : bitField v.toNat 16 2 = 2) (hr : s.Reaches .flt 0) :
    exec (.returnUnit v) s = .next (returnCmd v s) := by
  simp [exec, execReturnUnit, h2, State.hostWrite_of_reaches hr, guardWF_true]

theorem exec_unitResetRelease (hu : unitOk u = true) (s : State) : exec (.unitResetRelease u) s = .next (unitResetRelease u s) := by
  simp [exec, execUnitResetRelease, hu, guardWF_true]

theorem exec_unitCheckDone (hu : unitOk u = true) (ok : Bool) (s : State) :
    exec (.unitCheckDone u ok) s = .next (unitCheckDone u ok s) := by
  simp [exec, execUnitCheckDone, hu, guardWF_true]

/-- An isolated unit is known as such to Carabid; an engine will rejoin, and an axis is out of the path (R358, R360). -/
theorem State.isolateUnit_spec (s : State) (u : UnitId) :
    u ∈ (s.isolateUnit u).flt.isolated ∧ (∀ n, u = .engine n → n ∈ (s.isolateUnit u).cmp.rejoin) ∧
      (∀ k, u = .axis k → k ∈ (s.isolateUnit u).pth.axesOut) := by
  refine ⟨?_, fun n h => ?_, fun k h => ?_⟩
  · rw [s.flt_isolateUnit u]
    exact List.mem_cons_self ..
  · subst h
    exact List.mem_cons_self ..
  · subst h
    exact List.mem_cons_self ..

/-- A return begins the reset of the unit, which stays isolated, and of nothing else (R359, R410). -/
theorem returnCmd_spec (hup : s.up .ctl = true) (hu : unitOf v = some u) (hi : s.flt.isolated.contains u = true)
    (hb : s.unitBlamed u = false) :
    u ∈ (returnCmd v s).flt.resetting ∧ u ∈ (returnCmd v s).flt.isolated ∧ 11 ∈ (returnCmd v s).rst.asserted ∧
      (returnCmd v s).inReset = s.inReset ∧ (∀ k, u = .axis k → (returnCmd v s).axis k = {}) ∧
      (∀ n, u = .slot n → (returnCmd v s).slot n = {}) := by
  unfold returnCmd
  rw [hu]
  simp only [hup, hi, hb, Bool.not_true, Bool.false_eq_true, Bool.or_self, if_false]
  generalize ht : ({ s with flt := { s.flt with
    resetting := u :: s.flt.resetting.erase u, checking := s.flt.checking.erase u,
    retpend := s.flt.retpend.erase u } } : State) = t
  obtain ⟨hf, hr, ha, hs⟩ := t.unitReset_spec u
  obtain ⟨regs, rst, e, h11⟩ := (t.unitReset u).sourceAssert_unit
  have hflt : (t.unitReset u).flt = { s.flt with
      resetting := u :: s.flt.resetting.erase u, checking := s.flt.checking.erase u, retpend := s.flt.retpend.erase u } := by
    rw [hf, ← ht]
  rw [e]
  refine ⟨?_, ?_, h11, hr.trans (by rw [← ht]), ha, hs⟩
  · rw [hflt]
    exact List.mem_cons_self ..
  · rw [hflt]
    simpa using hi

/-! #### Release and check -/

theorem State.flt_of_unitView {s t : State} (h : t.unitView = s.unitView) : t.flt = s.flt := congrArg Prod.fst h

theorem State.pageActive_of_unitView {s t : State} (h : t.unitView = s.unitView) : t.pageActive = s.pageActive := by
  have hl : t.loam = s.loam := congrArg Prod.snd h
  simp [State.pageActive, hl]

/-- While a page is active a return waits for a boundary; otherwise every moment is one (R359). -/
theorem State.returnPending_active (h : s.pageActive = true) (u : UnitId) :
    s.returnPending u = { s with flt := { s.flt with retpend := s.flt.retpend.erase u ++ [u] } } := if_pos h

theorem State.returnPending_idle (h : s.pageActive = false) (u : UnitId) : s.returnPending u =
    ({ s with flt := { s.flt with retpend := s.flt.retpend.erase u ++ [u] } } : State).unitService u :=
  if_neg fun ht => Bool.false_ne_true (h.symm.trans ht)

theorem State.isolated_unitService_axis (s : State) (k : Nat) :
    (s.unitService (.axis k)).flt.isolated = s.flt.isolated.erase (.axis k) := rfl

theorem State.unitService_engine (s : State) (n : Nat) :
    (s.unitService (.engine n)).flt.isolated = s.flt.isolated.erase (.engine n) ∧
      (s.unitService (.engine n)).cmp.rejoin = s.cmp.rejoin.erase n := by
  unfold State.unitService
  extract_lets f t
  have ht (c : Bool) : (if c then t.wr (.cmp .jState) n 0 else t).flt = t.flt ∧
      (if c then t.wr (.cmp .jState) n 0 else t).cmp = t.cmp := by
    cases c with
    | true => exact ⟨State.wr_flt .., State.wr_cmp ..⟩
    | false => exact ⟨rfl, rfl⟩
  dsimp only
  split
  · exact ⟨congrArg Flt.isolated (ht true).1, congrArg (fun c : Cmp => c.rejoin.erase n) (ht true).2⟩
  · exact ⟨rfl, rfl⟩

/-- Carabid with a unit's reset ended, and the unit after that reset (R408). -/
def State.resetEnded (s : State) (u : UnitId) : State := { s with flt := { s.flt with resetting := s.flt.resetting.erase u } }

def State.unitReleased (s : State) (u : UnitId) : State :=
  State.unitRestore (if (s.resetEnded u).flt.resetting.isEmpty then (s.resetEnded u).sourceDeassert 11 else s.resetEnded u) u

theorem State.unitView_unitReleased (s : State) (u : UnitId) : (s.unitReleased u).unitView = (s.resetEnded u).unitView := by
  unfold State.unitReleased
  rw [State.unitView_unitRestore]
  split
  · exact State.unitView_sourceDeassert ..
  · rfl

/-- A unit whose check begins (R410). -/
def State.checkBegun (s : State) (u : UnitId) : State := { s with flt := { s.flt with checking := u :: s.flt.checking } }

theorem unitResetRelease_eq (hup : s.up .ctl = true) (h : s.flt.resetting.contains u = true) : unitResetRelease u s =
    match u with
    | .engine _ => (s.unitReleased u).checkBegun u
    | .station k => ((s.unitReleased u).checkBegun u).recalRequest k
    | _ => (s.unitReleased u).returnPending u := by
  unfold unitResetRelease
  rw [if_pos (by simp only [hup, h, Bool.and_self])]
  cases u <;> rfl

/-- What the release of a unit's reset leads to (R408, R410). -/
theorem unitResetRelease_spec (hup : s.up .ctl = true) (h : s.flt.resetting.contains u = true) :
    (∀ n, u = .engine n → u ∈ (unitResetRelease u s).flt.checking) ∧ (∀ k, u = .station k → u ∈ (unitResetRelease u s).flt.checking) ∧
      (∀ k, u = .axis k → s.pageActive = true → u ∈ (unitResetRelease u s).flt.retpend) ∧
      (∀ k, u = .axis k → s.pageActive = false → (unitResetRelease u s).flt.isolated = s.flt.isolated.erase u) := by
  have hv := s.unitView_unitReleased u
  have hp : (s.unitReleased u).pageActive = s.pageActive :=
    (State.pageActive_of_unitView hv).trans (show (s.resetEnded u).pageActive = s.pageActive from rfl)
  rw [unitResetRelease_eq hup h]
  refine ⟨fun n hn => ?_, fun k hk => ?_, fun k hk ha => ?_, fun k hk ha => ?_⟩
  · subst hn
    exact List.mem_cons_self ..
  · subst hk
    dsimp only
    rw [State.flt_of_unitView (State.unitView_recalRequest _ k)]
    exact List.mem_cons_self ..
  · subst hk
    dsimp only
    rw [State.returnPending_active (hp.trans ha)]
    exact List.mem_append_right _ (List.mem_singleton_self _)
  · subst hk
    dsimp only
    rw [State.returnPending_idle (hp.trans ha), State.isolated_unitService_axis]
    have hi : (s.unitReleased (.axis k)).flt.isolated = s.flt.isolated := by
      rw [State.flt_of_unitView hv]
      rfl
    exact congrArg (List.erase · (.axis k)) hi

/-- Carabid with a unit's check ended. -/
def State.checkEnded (s : State) (u : UnitId) : State := { s with flt := { s.flt with checking := s.flt.checking.erase u } }

theorem unitCheckDone_engine {n : Nat} (hup : s.up .ctl = true) (h : s.flt.checking.contains (.engine n) = true) (ok : Bool) :
    unitCheckDone (.engine n) ok s = if ok then (s.checkEnded (.engine n)).returnPending (.engine n)
      else (s.checkEnded (.engine n)).wr (.cmp .errEv) n 1 := by
  unfold unitCheckDone
  rw [if_pos (by simp only [hup, h, Bool.and_self])]
  rfl

theorem unitCheckDone_station {k : Nat} (hup : s.up .ctl = true) (h : s.flt.checking.contains (.station k) = true) (ok : Bool) :
    unitCheckDone (.station k) ok s =
      if ok then (recalDone k ok (s.checkEnded (.station k))).returnPending (.station k) else recalDone k ok (s.checkEnded (.station k)) := by
  unfold unitCheckDone
  rw [if_pos (by simp only [hup, h, Bool.and_self])]
  rfl

/-- While a page is active a station that has been checked stays isolated, and its return waits (R359). -/
theorem unitCheckDone_station_active {k : Nat} (hup : s.up .ctl = true) (h : s.flt.checking.contains (.station k) = true)
    (ha : s.pageActive = true) (ok : Bool) : (unitCheckDone (.station k) ok s).flt.isolated = s.flt.isolated ∧
      (ok = true → .station k ∈ (unitCheckDone (.station k) ok s).flt.retpend) := by
  have hv := unitView_recalDone (s.checkEnded (.station k)) k ok
  have hp : (recalDone k ok (s.checkEnded (.station k))).pageActive = true := (State.pageActive_of_unitView hv).trans ha
  have hi : (recalDone k ok (s.checkEnded (.station k))).flt.isolated = s.flt.isolated := by
    rw [State.flt_of_unitView hv]
    rfl
  rw [unitCheckDone_station hup h]
  cases ok with
  | true =>
    rw [if_pos rfl, State.returnPending_active hp]
    exact ⟨hi, fun _ => List.mem_append_right _ (List.mem_singleton_self _)⟩
  | false => exact ⟨hi, Bool.noConfusion⟩

theorem unitResetRelease_of_not (h : s.flt.resetting.contains u = false) : unitResetRelease u s = s :=
  if_neg (by rw [h, Bool.and_false]; exact Bool.false_ne_true)

theorem unitCheckDone_of_not (h : s.flt.checking.contains u = false) (ok : Bool) : unitCheckDone u ok s = s :=
  if_neg (by rw [h, Bool.and_false]; exact Bool.false_ne_true)

end UnitCommands

/-- Settles O54: isolation and return act on Carabid's lists of units; a unit's reset, its restore and its check leave them. -/
theorem unitsLeaveAndReturn : Obligations.UnitsLeaveAndReturn := by
  intro s hup
  refine ⟨fun v u h1 hu hr => ?_, fun v h1 hu hr => ?_, fun v u h2 hu hr => ?_, fun v h2 hu hr => ?_, fun u hu => ?_⟩
  · rw [exec_isolate h1 hr, isolateCmd, hu]
    simp only [hup, Bool.not_true, Bool.false_eq_true, if_false]
    refine ⟨fun h => ?_, fun he hw hi => ?_, fun he hw hi => ⟨s.isolateUnit u, ?_, s.isolateUnit_spec u⟩⟩
    · rw [if_pos (by simpa using h)]
      rfl
    · simp [he, hw, List.contains_iff_mem.mp hi]
    · simp only [he, hw, hi, Bool.not_true, Bool.or_self, Bool.false_eq_true, if_false]
  · rw [exec_isolate h1 hr, isolateCmd, hu]
  · rw [exec_returnUnit h2 hr]
    refine ⟨fun h => ?_, fun hi hb => ⟨_, rfl, returnCmd_spec hup hu hi hb⟩⟩
    rw [returnCmd, hu]
    simp only [hup, Bool.not_true, Bool.false_eq_true, if_false]
    rw [if_pos (by simpa using h)]
    rfl
  · rw [exec_returnUnit h2 hr, returnCmd, hu]
  · refine ⟨fun h => ?_, fun h => ⟨_, exec_unitResetRelease hu s, unitResetRelease_spec hup h⟩, fun h ok => ?_,
      fun h => ⟨fun n hn => ?_, fun n hn ha => ?_, fun n hn ha => ?_, fun k ok hk ha => ?_⟩⟩
    · rw [exec_unitResetRelease hu, unitResetRelease_of_not h]
    · rw [exec_unitCheckDone hu, unitCheckDone_of_not h]
    · subst hn
      rw [exec_unitCheckDone hu, unitCheckDone_engine hup h]
      rfl
    · subst hn
      rw [exec_unitCheckDone hu, unitCheckDone_engine hup h, if_pos rfl,
        State.returnPending_active (s := s.checkEnded (.engine n)) ha]
      rfl
    · subst hn
      rw [exec_unitCheckDone hu, unitCheckDone_engine hup h, if_pos rfl,
        State.returnPending_idle (s := s.checkEnded (.engine n)) ha]
      exact ⟨_, rfl, State.unitService_engine _ n⟩
    · subst hk
      exact ⟨_, exec_unitCheckDone hu ok s, unitCheckDone_station_active hup h ha ok⟩


/-! ### The supervisor's fields (R396) -/

section PwrFields

variable (s : State)

/-- Every field of PWR stands on every module. -/
theorem State.rd_wr_pwr (f g : PwrF) (i j v : Nat) :
    (s.wr (.pwr f) i v).rd (.pwr g) j = if g = f ∧ j = i then v % 2 ^ f.row.width else s.rd (.pwr g) j := by
  rw [State.rd_wr]
  simp [populated, Fld.row]

theorem State.rd_wrB_pwr (f g : PwrF) (i j : Nat) (b : Bool) :
    (s.wrB (.pwr f) i b).rd (.pwr g) j = if g = f ∧ j = i then bit b % 2 ^ f.row.width else s.rd (.pwr g) j := s.rd_wr_pwr ..

@[simp] theorem State.rd_setPwr (p : Pwr) (f : Fld) (i : Nat) : (s.setPwr p).rd f i = s.rd f i := rfl
@[simp] theorem State.pwr_setPwr (p : Pwr) : (s.setPwr p).pwr = p := rfl
@[simp] theorem State.pwr_showLatch : s.showLatch.pwr = s.pwr := State.wr_pwr ..
@[simp] theorem State.pwr_toE (n : Nat) : (s.toE n).pwr = s.pwr := (State.wr_pwr ..).trans (State.wr_pwr ..)
@[simp] theorem State.pwr_toI (n : Nat) : (s.toI n).pwr = s.pwr := (State.wr_pwr ..).trans (State.wr_pwr ..)

/-- ALL_QUAL apart, a change of sequencer state shows in that state alone. -/
theorem State.rd_toE {f : PwrF} (hf : f ≠ .allQual) (n i : Nat) :
    (s.toE n).rd (.pwr f) i = if f = .estate ∧ i = 0 then n % 8 else s.rd (.pwr f) i := by
  rw [State.toE, State.showQual, State.rd_wrB_pwr, if_neg (fun h => hf h.1), State.rd_wr_pwr]
  rfl

theorem State.rd_toI {f : PwrF} (hf : f ≠ .allQual) (n i : Nat) :
    (s.toI n).rd (.pwr f) i = if f = .istate ∧ i = 0 then n % 8 else s.rd (.pwr f) i := by
  rw [State.toI, State.showQual, State.rd_wrB_pwr, if_neg (fun h => hf h.1), State.rd_wr_pwr]
  rfl

theorem State.rd_showLatch (f : PwrF) (i : Nat) : s.showLatch.rd (.pwr f) i =
    if f = .onLatch ∧ i = 0 then bit (s.pwr.onLatch || s.pwr.extLatch) else s.rd (.pwr f) i := by
  rw [State.showLatch, State.rd_wrB_pwr]
  congr 1
  cases s.pwr.onLatch <;> cases s.pwr.extLatch <;> rfl

@[simp] theorem State.istate_toI {n : Nat} (h : n < 8 := by decide) : (s.toI n).istate = n := by
  rw [State.istate, State.rd_toI _ (by decide), if_pos ⟨rfl, rfl⟩, Nat.mod_eq_of_lt h]

@[simp] theorem State.estate_toE {n : Nat} (h : n < 8 := by decide) : (s.toE n).estate = n := by
  rw [State.estate, State.rd_toE _ (by decide), if_pos ⟨rfl, rfl⟩, Nat.mod_eq_of_lt h]

@[simp] theorem State.rd_driveStep (i : Nat) (high : Bool) (f : Fld) (j : Nat) : (s.driveStep i high).rd f j = s.rd f j := by
  refine foldl_unchanged (g := fun t : State => t.rd f j) (fun t e => ?_) _ s
  split
  · exact t.rd_emit ..
  · rfl

end PwrFields

/-! ### What resets leave of the supervisor (R400, R404) -/

/-- The supervisor with its fields, and FRAM. -/
def State.supervisor (s : State) := (s.hw, s.pwr, s.fram, fun (f : PwrF) (i : Nat) => s.rd (.pwr f) i)

theorem State.supervisor_eq_iff {s t : State} : t.supervisor = s.supervisor ↔
    t.hw = s.hw ∧ t.pwr = s.pwr ∧ t.fram = s.fram ∧ ∀ f i, t.rd (.pwr f) i = s.rd (.pwr f) i := by
  simp only [State.supervisor, Prod.mk.injEq, funext_iff]

theorem State.supervisor_wr (s : State) {f : Fld} (hf : f.block ≠ .pwr) (i v : Nat) : (s.wr f i v).supervisor = s.supervisor := by
  refine State.supervisor_eq_iff.mpr ⟨State.wr_hw .., State.wr_pwr .., State.wr_fram .., fun g j => ?_⟩
  exact s.rd_wr_ne (fun e => hf (congrArg (fun p : Fld × Nat => p.1.block) e).symm) v

theorem State.supervisor_congr {s t : State} (h : t.spine = s.spine) : t.supervisor = s.supervisor := by
  simp only [State.spine, Prod.mk.injEq] at h
  obtain ⟨hhw, -, hregs, -, -, -, -, hp, hf, -⟩ := h
  exact State.supervisor_eq_iff.mpr ⟨hhw, hp, hf, fun g i => by simp [State.rd, hhw, hregs]⟩

theorem State.supervisor_enqueue (s : State) (p kind unit : Nat) (data : List Nat) :
    (s.enqueue p kind unit data).supervisor = s.supervisor := by
  obtain ⟨o, pc, tk, ds, e⟩ := s.enqueue_eq p kind unit data
  rw [e]
  rfl

theorem State.supervisor_post (s : State) (kind unit : Nat) (data : List Nat) : (s.post kind unit data).supervisor = s.supervisor := by
  unfold State.post
  extract_lets w
  split
  · split
    · rfl
    · rfl
  · split
    · exact s.supervisor_enqueue ..
    · split
      · exact s.supervisor_wr (by decide) ..
      · rfl

theorem workBlind_supervisor : WorkBlind State.supervisor where
  upd := State.supervisor_congr
  wr s f i v hf := s.supervisor_wr (fun e => by rw [e] at hf; exact absurd hf (by decide)) i v
  post s kind unit data _ := s.supervisor_post kind unit data
  closeDecision _ _ _ _ := rfl

section Resets

variable (s : State)

theorem State.supervisor_resetCtl : s.resetCtl.supervisor = s.supervisor := by
  have h := workBlind_supervisor
  unfold State.resetCtl
  extract_lets t u v f
  have hv : v.supervisor = s.supervisor := by
    refine (foldl_unchanged (fun w k => ?_) _ u).trans ((foldl_unchanged (fun w g => h.setGate w g false) _ t).trans
      ((h.releaseWhere ..).trans (Eq.trans rfl (h.endPages s))))
    exact Eq.trans rfl (h.setStn w k { w.stn k with recal := false })
  clear_value v
  exact Eq.trans rfl hv

theorem State.supervisor_resetMem : s.resetMem.supervisor = s.supervisor := by
  have h := workBlind_supervisor
  unfold State.resetMem
  extract_lets t u v w
  have ht : t.supervisor = s.supervisor := foldl_unchanged (fun w l => h.compressorLost w l) _ s
  clear_value t
  have hu : u.supervisor = s.supervisor := (foldl_unchanged (fun w (e : Nat × Band) => h.verifyIdle w e.2) _ t).trans ht
  clear_value u
  have hv : v.supervisor = s.supervisor := (foldl_unchanged (fun w n => h.jobCut w n) _ u).trans hu
  clear_value v
  have hw : w.supervisor = s.supervisor :=
    (foldl_unchanged (fun w k => h.setStn w k { w.stn k with queue := [], lastEnd := none }) _ (v.closeKinds [1, 7])).trans hv
  clear_value w
  exact Eq.trans rfl hw

theorem State.supervisor_resetHost : s.resetHost.supervisor = s.supervisor := by
  unfold State.resetHost
  extract_lets t m again
  have ht : t.supervisor = s.supervisor := workBlind_supervisor.idleChannels s
  clear_value t
  exact Eq.trans rfl ht

theorem State.supervisor_resetCmp : s.resetCmp.supervisor = s.supervisor := by
  unfold State.resetCmp
  extract_lets t
  have ht : t.supervisor = s.supervisor := foldl_unchanged (fun t n => workBlind_supervisor.engineLost t n 0) _ s
  clear_value t
  exact Eq.trans rfl ht

theorem State.supervisor_resetMot : s.resetMot.supervisor = s.supervisor := by
  unfold State.resetMot
  extract_lets t
  have ht : t.supervisor = s.supervisor := Eq.trans rfl (workBlind_supervisor.releaseWhere s _)
  clear_value t
  exact Eq.trans rfl ht

theorem State.supervisor_resetVid : s.resetVid.supervisor = s.supervisor := by
  have h := workBlind_supervisor
  unfold State.resetVid
  extract_lets t u v
  have hu : u.supervisor = s.supervisor :=
    (foldl_unchanged (fun w k => h.recalAbandon w k) _ t).trans (Eq.trans rfl (h.endPages s))
  clear_value u
  exact (foldl_unchanged (fun w k => h.idle w k 0) _ v).trans (Eq.trans rfl hu)

theorem State.supervisor_resetRunning (d : Dom) : (s.resetRunning d).supervisor = s.supervisor := by
  cases d with
  | aon => rfl
  | ctl => exact s.supervisor_resetCtl
  | seq => rfl
  | mem => exact s.supervisor_resetMem
  | host => exact s.supervisor_resetHost
  | cmp => exact s.supervisor_resetCmp
  | mot => exact s.supervisor_resetMot
  | csl => rfl
  | vid => exact s.supervisor_resetVid

/-- The fields that a reset puts back are not read by who looks at other ones. -/
theorem State.rd_resetFields {p : Fld → Nat → Bool} {f : Fld} {i : Nat} (h : p f i = false) :
    (s.resetFields p).rd f i = s.rd f i := by
  unfold State.rd State.resetFields
  rw [Store.get_filter (p := fun e : Fld × Nat => !p e.1 e.2) _ (by simp [h])]

/-- PWR belongs to the domain of AON. -/
theorem State.supervisor_domainReset {d : Dom} (hd : d ≠ .aon) {reach : Nat} (hr : 1 < reach) :
    (s.domainReset d reach).supervisor = s.supervisor := by
  unfold State.domainReset
  extract_lets t mine u
  have ht : t.supervisor = s.supervisor := Eq.trans rfl (s.supervisor_resetRunning d)
  have hu : u.supervisor = t.supervisor := by
    unfold u
    rw [if_neg (Nat.not_le.mpr hr)]
    refine State.supervisor_eq_iff.mpr ⟨rfl, rfl, rfl, fun f i => t.rd_resetFields ?_⟩
    simpa [mine, Fld.dom, Fld.block, Block.dom] using hd.symm
  clear_value u
  exact Eq.trans rfl (hu.trans ht)

theorem State.supervisor_dieReset {reach : Nat} : (s.dieReset reach).supervisor = s.supervisor := by
  have hd : ∀ d ∈ mainDoms, d ≠ .aon := by decide
  unfold State.dieReset
  extract_lets t
  have ht : t.supervisor = s.supervisor := by
    unfold t
    clear_value t
    generalize mainDoms = l at hd
    induction l generalizing s with
    | nil => rfl
    | cons d l ih =>
      exact (ih (s.domainReset d 2) fun e he => hd e (List.mem_cons_of_mem _ he)).trans
        (s.supervisor_domainReset (hd d (List.mem_cons_self ..)) (by decide))
  clear_value t
  split
  · exact Eq.trans rfl ht
  · exact ht

theorem State.supervisor_showReset : s.showReset.supervisor = s.supervisor :=
  (State.supervisor_wr _ (by decide) ..).trans ((State.supervisor_wr _ (by decide) ..).trans
    ((State.supervisor_wr _ (by decide) ..).trans (State.supervisor_wr _ (by decide) ..)))

/-- A source of reach 2 and more resets domains 1 to 8 and leaves the supervisor (R400, R404). -/
theorem State.supervisor_sourceAssert {src : Nat} (h : 2 ≤ s.effReach src) : (s.sourceAssert src).supervisor = s.supervisor := by
  unfold State.sourceAssert
  extract_lets eff cover r fresh reach doms last t u
  have hu : u.supervisor = s.supervisor := by
    unfold u
    split
    · exact (t.supervisor_wr (by decide) ..).trans rfl
    · rfl
  clear_value u
  rw [if_pos h]
  exact (State.supervisor_showReset _).trans ((State.supervisor_dieReset _).trans hu)

end Resets


/-! ### What the external sequence leaves of the on-module one (R383 to R387) -/

/-- The on-module sequence: the supervisor's state apart from the external one, FRAM, the page store and the fields of PWR that are not of
the external sequence. -/
def State.railView (s : State) :=
  (s.pwr.outer, s.fram, s.loam, fun (f : PwrF) (i : Nat) => if ofSequence f then 0 else s.rd (.pwr f) i)

theorem State.railView_eq_iff {s t : State} : t.railView = s.railView ↔ t.pwr.outer = s.pwr.outer ∧ t.fram = s.fram ∧ t.loam = s.loam ∧
    ∀ f i, ofSequence f = false → t.rd (.pwr f) i = s.rd (.pwr f) i := by
  simp only [State.railView, Prod.mk.injEq, funext_iff]
  refine and_congr_right fun _ => and_congr_right fun _ => and_congr_right fun _ => ⟨fun h f i hf => ?_, fun h f i => ?_⟩
  · simpa [hf] using h f i
  · cases hf : ofSequence f with
    | true => rfl
    | false => exact h f i hf

theorem sequenceBlind_railView : SequenceBlind State.railView where
  upd s o p hp := State.railView_eq_iff.mpr ⟨hp, rfl, rfl, fun _ _ _ => rfl⟩
  wr s f i v hf := by
    refine State.railView_eq_iff.mpr ⟨congrArg Pwr.outer (State.wr_pwr ..), State.wr_fram .., State.wr_loam .., fun g j hg => ?_⟩
    rw [State.rd_wr_pwr, if_neg]
    rintro ⟨rfl, -⟩
    exact Bool.noConfusion (hf.symm.trans hg)
  closeKinds _ := rfl

theorem State.rd_of_railView {s t : State} (h : t.railView = s.railView) {f : PwrF} (hf : ofSequence f = false) (i : Nat) :
    t.rd (.pwr f) i = s.rd (.pwr f) i := by
  obtain ⟨-, -, -, hr⟩ := State.railView_eq_iff.mp h
  exact hr f i hf

theorem State.istate_of_railView {s t : State} (h : t.railView = s.railView) : t.istate = s.istate := State.rd_of_railView h rfl 0

section ExternalSteps

variable (s : State)

/-- What an equal supervisor gives for its fields. -/
theorem State.rd_of_supervisor {s t : State} (h : t.supervisor = s.supervisor) (f : PwrF) (i : Nat) :
    t.rd (.pwr f) i = s.rd (.pwr f) i := by
  obtain ⟨-, -, -, hr⟩ := State.supervisor_eq_iff.mp h
  exact hr f i

theorem State.pwr_of_supervisor {s t : State} (h : t.supervisor = s.supervisor) : t.pwr = s.pwr := by
  obtain ⟨-, hp, -⟩ := State.supervisor_eq_iff.mp h
  exact hp

@[simp] theorem State.pwr_broadcast (kind : Nat) (data : List Int) : (s.broadcast kind data).pwr = s.pwr :=
  State.pwr_of_supervisor (workBlind_supervisor.broadcast s kind data)

@[simp] theorem State.estate_broadcast (kind : Nat) (data : List Int) : (s.broadcast kind data).estate = s.estate :=
  State.rd_of_supervisor (workBlind_supervisor.broadcast s kind data) .estate 0

@[simp] theorem State.estate_setPwr (p : Pwr) : (s.setPwr p).estate = s.estate := rfl
@[simp] theorem State.istate_setPwr (p : Pwr) : (s.setPwr p).istate = s.istate := rfl

/-- Lowering the top step (R386). -/
theorem State.extLower_succ {n : Nat} (h : s.pwr.raised = n + 1) :
    s.extLower.pwr.raised = n ∧ s.extLower.estate = 5 ∧ s.extLower.rd (.pwr .estep) = n % 32 := by
  unfold State.extLower
  rw [h]
  refine ⟨?_, State.estate_toE _, ?_⟩
  · simp [State.wr_pwr]
  · rw [State.rd_toE _ (by decide), if_neg (by simp), State.rd_wr_pwr, if_pos ⟨rfl, rfl⟩]
    rfl

/-- With the on-module sequence STOPPING, the end of the external one starts the copy of the counters, unless the engine is waited for (R385). -/
theorem State.extOffNow_stopping (h : s.istate = 3) :
    s.extOffNow.estate = 0 ∧ (s.on (.pwr .offPend) = false → s.extOffNow.pwr.copying = true) := by
  unfold State.extOffNow
  extract_lets t p u
  have hv : u.railView = s.railView := Eq.trans rfl ((sequenceBlind_railView.closeKinds _).trans
    ((sequenceBlind_railView.wr _ _ 0 0 rfl).trans (sequenceBlind_railView.toE s 0)))
  have hrd {f : PwrF} (hf : ofSequence f = false) : u.rd (.pwr f) = s.rd (.pwr f) := State.rd_of_railView hv hf 0
  have he : u.estate = 0 := by
    refine (State.rd_wr_pwr (s.toE 0) .estep .estate 0 0 0).trans ?_
    rw [if_neg (by simp)]
    exact s.estate_toE
  have hi : u.istate = 3 := (hrd rfl).trans h
  have ho : u.on (.pwr .offPend) = s.on (.pwr .offPend) := congrArg (· != 0) (hrd rfl)
  rw [if_pos hi, ho]
  cases s.on (.pwr .offPend) with
  | true => exact ⟨he, Bool.noConfusion⟩
  | false => exact ⟨he, fun _ => rfl⟩

end ExternalSteps

/-! ### The rails going down (R385, R386) -/

section Rails

variable (s : State)

/-- The rail that a power-down begins with. -/
def State.topRail : Nat := if s.istate = 1 then s.rd (.pwr .irail) else 11

/-- The state in which the rails go down, before source 2 takes the domains. -/
def State.downBegun : State := (((s.setPwr { s.pwr with copying := false }).railOff s.topRail).clr (.pwr .offPend)).toI 4

theorem State.supervisor_railsDown : s.railsDown.supervisor = s.downBegun.supervisor := by
  have he : s.downBegun.effReach 2 = 2 := rfl
  have h : (if s.downBegun.rst.asserted.contains 2 then s.downBegun else s.downBegun.sourceAssert 2).supervisor = s.downBegun.supervisor := by
    split
    · rfl
    · exact State.supervisor_sourceAssert _ he.ge
  exact Eq.trans rfl h

theorem State.loam_railsDown : s.railsDown.loam = {} := rfl

theorem State.istate_railsDown : s.railsDown.istate = 4 :=
  (State.rd_of_supervisor s.supervisor_railsDown .istate 0).trans (State.istate_toI _)

theorem State.pwr_railsDown : s.railsDown.pwr = { s.pwr with copying := false, qualified := s.pwr.qualified.erase s.topRail } := by
  rw [State.pwr_of_supervisor s.supervisor_railsDown]
  simp [State.downBegun, State.railOff, State.wr_pwr, State.clr_eq]

theorem State.fram_railsDown : s.railsDown.fram = s.fram := by
  obtain ⟨-, -, hf, -⟩ := State.supervisor_eq_iff.mp s.supervisor_railsDown
  rw [hf]
  simp [State.downBegun, State.railOff, State.toI, State.showQual, State.clr_eq, State.wrB_eq, State.setPwr]

/-- Fields that the power-down does not write. -/
theorem State.rd_railsDown {f : PwrF} (hf : f ≠ .istate ∧ f ≠ .irail ∧ f ≠ .offPend ∧ f ≠ .allQual) (i : Nat) :
    s.railsDown.rd (.pwr f) i = s.rd (.pwr f) i := by
  obtain ⟨h1, h2, h3, h4⟩ := hf
  rw [State.rd_of_supervisor s.supervisor_railsDown, State.downBegun, State.rd_toI _ h4, if_neg (fun h => h1 h.1), State.clr_eq,
    State.rd_wr_pwr, if_neg (fun h => h3 h.1), State.railOff, State.rd_wr_pwr, if_neg (fun h => h2 h.1)]
  rfl

end Rails


/-! ### The on-module sequence (O56: R378, R381 to R388) -/

section OnModule

variable {s : State}

/-- Under the conditions of R382 the first rail is enabled, and a latched request is taken. -/
theorem State.powerStart_runs (hi : s.istate = 0) (hv : s.pwr.vinOk = true) (hp : s.on (.pwr .pwrOn) = true) (hf : s.pwr.fault = false) :
    s.powerStart.istate = 1 ∧ s.powerStart.rd (.pwr .irail) = 9 ∧ s.powerStart.pwr.onLatch = false ∧
      s.powerStart.rd (.pwr .pwrOn) = s.rd (.pwr .pwrOn) := by
  unfold State.powerStart
  rw [if_pos ⟨hi, hv, hp, by simp [hf]⟩]
  dsimp only
  refine ⟨?_, ?_, ?_, ?_⟩
  · rw [State.istate, State.rd_showLatch, if_neg (by simp)]
    exact State.istate_toI _
  · rw [State.rd_showLatch, if_neg (by simp), State.rd_toI _ (by decide), if_neg (by simp), State.rd_wr_pwr, if_pos ⟨rfl, rfl⟩]
    rfl
  · simp [State.wr_pwr]
  · rw [State.rd_showLatch, if_neg (by simp), State.rd_toI _ (by decide), if_neg (by simp), State.rd_wr_pwr, if_neg (by simp)]
    rfl

theorem State.powerStart_waits (h : s.istate ≠ 0 ∨ s.on (.pwr .pwrOn) = false) : s.powerStart = s := by
  unfold State.powerStart
  rw [if_neg]
  rintro ⟨hi, -, hp, -⟩
  exact h.elim (· hi) fun h => Bool.noConfusion (h.symm.trans hp)

/-- DISARMING is armed too (R50). -/
theorem State.engineArmed_disarmNow (s : State) : s.disarmNow.engineArmed = s.engineArmed := by
  by_cases h : s.ldr.st = .armed
  · rw [State.engineArmed, (State.disarmNow_armed h).1, State.engineArmed, h]
    rfl
  · rw [State.disarmNow, if_neg h]

/-- An orderly off goes to STOPPING, disarms the engine, and waits for it where it is armed (R385). -/
theorem State.orderlyOff_spec (s : State) : s.orderlyOff.istate = 3 ∧ (s.ldr.st = .armed → s.orderlyOff.ldr.st = .disarming) ∧
    s.orderlyOff.on (.pwr .offPend) = s.engineArmed ∧ s.orderlyOff.pwr.outer = s.pwr.outer := by
  have hu := workBlind_supervisor.disarmNow (s.toI 3)
  have hi : (s.toI 3).disarmNow.istate = 3 := (State.rd_of_supervisor hu .istate 0).trans (s.istate_toI)
  have hp : (s.toI 3).disarmNow.pwr = s.pwr := (State.pwr_of_supervisor hu).trans (s.pwr_toI 3)
  have hl : (s.toI 3).ldr = s.ldr := (State.wrB_ldr ..).trans (State.wr_ldr ..)
  have ha : (s.toI 3).disarmNow.engineArmed = s.engineArmed := by
    rw [State.engineArmed_disarmNow, State.engineArmed, State.engineArmed, hl]
  have hd (h : s.ldr.st = .armed) : (s.toI 3).disarmNow.ldr.st = .disarming := by
    rw [(State.disarmNow_armed (by rw [hl]; exact h)).1]
  unfold State.orderlyOff
  dsimp only
  rw [ha]
  generalize (s.toI 3).disarmNow = t at hi hp hd
  cases he : s.engineArmed with
  | true =>
    rw [if_pos rfl, State.ev_eq]
    refine ⟨?_, fun h => ?_, ?_, ?_⟩
    · rw [State.istate, State.rd_wr_pwr, if_neg (by simp)]
      exact hi
    · rw [State.wr_ldr]
      exact hd h
    · rw [State.on, State.rd_wr_pwr, if_pos ⟨rfl, rfl⟩]
      rfl
    · rw [State.wr_pwr, hp]
  | false =>
    rw [if_neg Bool.false_ne_true]
    have hv : t.offProceed.railView = (t.clr (.pwr .offPend)).railView := sequenceBlind_railView.extDown _
    obtain ⟨ho, -⟩ := State.railView_eq_iff.mp hv
    refine ⟨?_, fun h => ?_, ?_, ?_⟩
    · rw [State.istate_of_railView hv, State.clr_eq, State.istate, State.rd_wr_pwr, if_neg (by simp)]
      exact hi
    · rw [State.offProceed_ldr]
      exact hd h
    · rw [State.on, State.rd_of_railView hv rfl, State.clr_eq, State.rd_wr_pwr, if_pos ⟨rfl, rfl⟩]
      rfl
    · rw [ho, State.clr_eq, State.wr_pwr, hp]

theorem exec_pwrOnChange (high : Bool) (s : State) : exec (.pwrOnChange high) s =
    .next (if high then (s.wrB (.pwr .pwrOn) 0 high).onRequest else (s.wrB (.pwr .pwrOn) 0 high).offRequest) := rfl

theorem State.rd_pwrOnShown (s : State) (high : Bool) {f : PwrF} (hf : f ≠ .pwrOn) (i : Nat) :
    (s.wrB (.pwr .pwrOn) 0 high).rd (.pwr f) i = s.rd (.pwr f) i := by
  rw [State.rd_wrB_pwr, if_neg fun h => hf h.1]

theorem State.pwrOn_shown (s : State) (high : Bool) : (s.wrB (.pwr .pwrOn) 0 high).rd (.pwr .pwrOn) = bit high := by
  rw [State.rd_wrB_pwr, if_pos ⟨rfl, rfl⟩]
  cases high <;> rfl

/-- An on request starts the sequence from OFF (R382, R387). -/
theorem pwrOnChange_starts (hi : s.istate = 0) (hv : s.pwr.vinOk = true) :
    ((s.wrB (.pwr .pwrOn) 0 true).onRequest).istate = 1 ∧ ((s.wrB (.pwr .pwrOn) 0 true).onRequest).rd (.pwr .irail) = 9 ∧
      ((s.wrB (.pwr .pwrOn) 0 true).onRequest).rd (.pwr .pwrOn) = 1 := by
  have hon := s.pwrOn_shown true
  have hi' : (s.wrB (.pwr .pwrOn) 0 true).istate = 0 := (s.rd_pwrOnShown true (by decide) 0).trans hi
  have hp : (s.wrB (.pwr .pwrOn) 0 true).pwr = s.pwr := State.wr_pwr ..
  generalize s.wrB (.pwr .pwrOn) 0 true = t at *
  unfold State.onRequest
  dsimp only
  rw [if_neg (by simp [hi'])]
  obtain ⟨h1, h2, -, h4⟩ := State.powerStart_runs (s := t.setPwr { t.pwr with fault := false }) hi' (by simp [hp, hv])
    (by simp [State.on, hon, bit]) rfl
  exact ⟨h1, h2, h4.trans hon⟩

/-- During power-down an on request is latched (R387). -/
theorem pwrOnChange_latches (hi : s.istate = 3 ∨ s.istate = 4) :
    ((s.wrB (.pwr .pwrOn) 0 true).onRequest).pwr.onLatch = true ∧ ((s.wrB (.pwr .pwrOn) 0 true).onRequest).rd (.pwr .onLatch) = 1 ∧
      ((s.wrB (.pwr .pwrOn) 0 true).onRequest).istate = s.istate := by
  have hi' : (s.wrB (.pwr .pwrOn) 0 true).istate = s.istate := s.rd_pwrOnShown true (by decide) 0
  generalize s.wrB (.pwr .pwrOn) 0 true = t at *
  unfold State.onRequest
  dsimp only
  rw [if_pos (by simpa [hi'] using hi)]
  refine ⟨by simp, ?_, ?_⟩
  · rw [State.rd_showLatch, if_pos ⟨rfl, rfl⟩]
    simp [bit]
  · rw [← hi', State.istate, State.rd_showLatch, if_neg (by simp)]
    rfl

/-! #### The first-failure log (R390) -/

theorem State.freshBytes_eq (s : State) (n : Nat) : ∃ k, (s.freshBytes n).2 = { s with free := k } := by
  induction n generalizing s with
  | zero => exact ⟨s.free, rfl⟩
  | succ n ih =>
    obtain ⟨k, h⟩ := ih (s.fresh 8).2
    exact ⟨k, h⟩

theorem State.vinBytes_eq (s : State) (vin : Option Nat) : ∃ k, (s.vinBytes vin).2 = { s with free := k } := by
  cases vin with
  | none => exact s.freshBytes_eq 2
  | some mv => exact ⟨s.free, rfl⟩

theorem State.logBody_eq (s : State) (cause rail : Nat) (vin : Option Nat) : ∃ k, (s.logBody cause rail vin).2 = { s with free := k } := by
  obtain ⟨k1, h1⟩ := s.vinBytes_eq vin
  obtain ⟨k2, h2⟩ := (s.vinBytes vin).2.freshBytes_eq 24
  obtain ⟨k3, h3⟩ := ((s.vinBytes vin).2.freshBytes 24).2.freshBytes_eq 4
  exact ⟨k3, h3.trans (by rw [h2, h1])⟩

/-- A failure is logged once in an episode; the entry takes open values, and its slot of FRAM is torn until it is committed. -/
theorem State.logFail_eq (s : State) (cause rail : Nat) (vin : Option Nat) : ∃ k fram log, s.logFail cause rail vin =
    { s with free := k, fram := fram, pwr := { s.pwr with logDone := true, log := log } } := by
  unfold State.logFail
  cases hd : s.pwr.logDone with
  | true =>
    rw [if_pos rfl]
    refine ⟨s.free, s.fram, s.pwr.log, ?_⟩
    rw [← hd]
  | false =>
    obtain ⟨k, h⟩ := s.logBody_eq cause rail vin
    rw [if_neg Bool.false_ne_true]
    dsimp only
    rw [h]
    exact ⟨k, _, _, rfl⟩

/-! #### Rails one by one (R382, R386, R388) -/

theorem State.supervisor_calStart (s : State) : s.calStart.supervisor = s.supervisor :=
  Eq.trans rfl ((State.supervisor_wr _ (f := .cal .puBad) (by decide) 0 0).trans
    ((State.supervisor_wr _ (f := .cal .puDone) (by decide) 0 0).trans (s.supervisor_wr (f := .cal .puStep) (by decide) 0 1)))

theorem State.supervisor_sourceDeassert (s : State) (src : Nat) : (s.sourceDeassert src).supervisor = s.supervisor := by
  unfold State.sourceDeassert
  extract_lets r left list t
  split
  · rfl
  · have ht : t.supervisor = s.supervisor := (State.supervisor_showReset _).trans rfl
    clear_value t
    split
    · unfold State.episodeEnd
      extract_lets _ t'
      have ht' : t'.supervisor = s.supervisor := Eq.trans rfl ht
      clear_value t'
      split
      · exact t'.supervisor_calStart.trans ht'
      · exact ht'
    · exact ht

theorem State.pwr_readOptions (s : State) : s.readOptions.pwr = s.pwr := by
  unfold State.readOptions
  extract_lets a b slot bytes t u v
  have ht : t.pwr = s.pwr := foldl_unchanged (g := State.pwr) (fun t w => State.wr_pwr ..) _ s
  clear_value t
  have hu : u.pwr = t.pwr := (State.wr_pwr ..).trans (State.wr_pwr ..)
  clear_value u
  exact Eq.trans rfl (hu.trans ht)

theorem State.pwr_vio33Up (s : State) : s.vio33Up.pwr = s.pwr := by
  unfold State.vio33Up
  extract_lets c t u
  have hu : u.pwr = s.pwr := (State.wr_pwr ..).trans (foldl_unchanged (g := State.pwr) (fun t w => State.wr_pwr ..) _ s)
  split
  · exact hu
  · exact u.pwr_readOptions.trans hu

theorem exec_railQualified {n : Nat} (hn : n ∈ railOrder) (s : State) : exec (.railQualified (.rail n)) s = .next (s.railQualified n) := by
  simp [exec, execRailQualified, hn, guardWF_true]

theorem exec_railTimeout {n : Nat} (hn : n ∈ railOrder) (s : State) :
    exec (.railTimeout (.rail n)) s = .next (railTimeout (.rail n) s) := by
  simp [exec, execRailTimeout, railIdOk, hn, guardWF_true]

theorem exec_railFallen {n : Nat} (hn : n ∈ railOrder) (s : State) : exec (.railFallen (.rail n)) s = .next (railFallen (.rail n) s) := by
  simp [exec, execRailFallen, railIdOk, hn, guardWF_true]

theorem exec_fallLate {n : Nat} (hn : n ∈ railOrder) (s : State) : exec (.fallLateTimeout (.rail n)) s = .next (fallLate (.rail n) s) := by
  simp [exec, execFallLateTimeout, railIdOk, hn, guardWF_true]

/-- Neighbours of a rail have four-bit numbers. -/
theorem nextRail_lt {n m : Nat} (hn : n ∈ railOrder) (h : nextRail n = some m) : m < 16 := by
  have hall : ∀ n ∈ railOrder, (nextRail n).all (· < 16) = true := by decide
  simpa [h] using hall n hn

theorem prevRail_lt {n m : Nat} (hn : n ∈ railOrder) (h : prevRail n = some m) : m < 16 := by
  have hall : ∀ n ∈ railOrder, (prevRail n).all (· < 16) = true := by decide
  simpa [h] using hall n hn

theorem State.rd_irail_wr (s : State) {m : Nat} (h : m < 16) : (s.wr (.pwr .irail) 0 m).rd (.pwr .irail) = m := by
  rw [State.rd_wr_pwr, if_pos ⟨rfl, rfl⟩]
  exact Nat.mod_eq_of_lt h

/-- A rail that qualifies hands on to the next one; after the last one the sequence is ON (R382). -/
theorem State.railQualified_spec {n : Nat} (hn : n ∈ railOrder) (hi : s.istate = 1) (hr : s.rd (.pwr .irail) = n) :
    n ∈ (s.railQualified n).pwr.qualified ∧ (∀ m, nextRail n = some m → (s.railQualified n).rd (.pwr .irail) = m) ∧
      (nextRail n = none → (s.railQualified n).istate = 2) := by
  unfold State.railQualified
  rw [if_pos ⟨hi, hr⟩]
  extract_lets p t u v
  have hv : n ∈ v.pwr.qualified := by
    have hu : u.pwr = t.pwr := State.wr_pwr ..
    have hvu : v.pwr = u.pwr := by
      unfold v
      split
      · exact u.pwr_vio33Up
      · rfl
    rw [hvu, hu]
    exact List.mem_cons_self ..
  clear_value v
  cases hnext : nextRail n with
  | none =>
    have hd := State.supervisor_sourceDeassert (v.toI 2) 2
    refine ⟨?_, fun m h => (nomatch h), fun _ => (State.rd_of_supervisor hd .istate 0).trans v.istate_toI⟩
    dsimp only
    rw [State.pwr_of_supervisor hd, State.pwr_toI]
    exact hv
  | some m =>
    refine ⟨?_, fun k h => ?_, fun h => (nomatch h)⟩
    · dsimp only
      rw [State.wr_pwr]
      exact hv
    · obtain rfl := Option.some.inj h
      exact v.rd_irail_wr (nextRail_lt hn hnext)

/-- A rail that does not qualify in time is counted and logged, and the rails go down with a fault (R388). -/
theorem railTimeout_spec {n : Nat} (hi : s.istate = 1) (hr : s.rd (.pwr .irail) = n) :
    (railTimeout (.rail n) s).istate = 4 ∧ (railTimeout (.rail n) s).pwr.fault = true ∧ (railTimeout (.rail n) s).loam = {} ∧
      (railTimeout (.rail n) s).pwr.logDone = true ∧
      (railTimeout (.rail n) s).rd (.pwr .rcnt) n = satInc (Fld.pwr .rcnt).row.width (s.rd (.pwr .rcnt) n) := by
  obtain ⟨k, fram, log, e⟩ := (s.rcount n).logFail_eq 2 n none
  unfold railTimeout
  dsimp only
  rw [if_pos ⟨hi, hr⟩, e]
  refine ⟨State.istate_railsDown _, ?_, State.loam_railsDown _, ?_, ?_⟩
  · rw [State.pwr_railsDown]
    rfl
  · rw [State.pwr_railsDown]
    rfl
  · rw [State.rd_railsDown _ (by decide)]
    refine (State.rd_wr_pwr s .rcnt .rcnt n n _).trans ?_
    rw [if_pos ⟨rfl, rfl⟩]
    exact Nat.mod_eq_of_lt (satInc_lt ..)

/-! #### The rails fall (R386, R387, R403) -/

/-- What the end of a cold reset leaves: no such reset, engine time 0, FRAM. -/
def State.coldView (s : State) := (s.pwr.cold, s.etime, s.fram)

theorem State.coldView_wr (s : State) (f : Fld) (i v : Nat) : (s.wr f i v).coldView = s.coldView := by simp [State.coldView]

theorem State.coldView_powerStart (s : State) : s.powerStart.coldView = s.coldView := by
  unfold State.powerStart
  split
  · refine (State.coldView_wr ..).trans ((State.coldView_wr ..).trans ((State.coldView_wr ..).trans ((State.coldView_wr ..).trans rfl)))
  · rfl

/-- AON comes back from its reset with what is held in FRAM (R400, R403). -/
theorem State.coldView_aonReset (s : State) : (s.aonReset false).coldView = (false, 0, s.fram) := by
  unfold State.aonReset
  extract_lets keep src last _ t
  have ht : t.coldView = (false, 0, s.fram) := rfl
  clear_value t
  refine Eq.trans ?_ ht
  exact (State.coldView_wr ..).trans ((State.coldView_wr ..).trans ((State.coldView_wr ..).trans ((State.coldView_wr ..).trans
    (State.coldView_wr ..))))

theorem State.moduleOff_cold (h : s.pwr.cold = true) : s.moduleOff.coldView = (false, 0, s.fram) := by
  unfold State.moduleOff
  extract_lets latch t u p v
  have hc : t.pwr.cold = true := by rw [State.pwr_toI, h]
  have hf : t.fram = s.fram := (State.wr_fram ..).trans (State.wr_fram ..)
  have hu : u.coldView = (false, 0, s.fram) := by
    unfold u
    rw [if_pos hc, State.coldView_aonReset, hf]
  clear_value u
  have hv : v.coldView = (false, 0, s.fram) := (State.coldView_wr ..).trans (Eq.trans rfl hu)
  split
  · exact v.coldView_powerStart.trans hv
  · exact hv

/-- The state OFF, before a latched request acts. -/
def State.offState (s : State) : State := ((s.toI 0).setPwr { (s.toI 0).pwr with onLatch := false }).showLatch

theorem State.moduleOff_warm (h : s.pwr.cold = false) : s.moduleOff = if s.pwr.onLatch then s.offState.powerStart else s.offState := by
  have hc : (s.toI 0).pwr.cold = false := by rw [State.pwr_toI, h]
  unfold State.moduleOff
  dsimp only
  rw [hc]
  rfl

theorem State.offState_spec (s : State) : s.offState.istate = 0 ∧ s.offState.pwr = { s.pwr with onLatch := false } ∧
    s.offState.rd (.pwr .pwrOn) = s.rd (.pwr .pwrOn) := by
  unfold State.offState
  refine ⟨?_, by simp, ?_⟩
  · rw [State.istate, State.rd_showLatch, if_neg (by simp)]
    exact s.istate_toI
  · rw [State.rd_showLatch, if_neg (by simp), State.rd_setPwr, State.rd_toI _ (by decide), if_neg (by simp)]

section Falling

variable {n : Nat} (hi : s.istate = 4) (hr : s.rd (.pwr .irail) = n)

include hi hr

theorem railFallen_some {m : Nat} (hn : n ∈ railOrder) (hm : prevRail n = some m) :
    (railFallen (.rail n) s).rd (.pwr .irail) = m ∧ (railFallen (.rail n) s).pwr.qualified = s.pwr.qualified.erase m := by
  have hb : (s.setBit (.pwr .railOk) n false).pwr = s.pwr := State.wr_pwr ..
  unfold railFallen
  simp only [if_pos (And.intro hi hr), hm, State.railOff]
  refine ⟨State.rd_irail_wr _ (prevRail_lt hn hm), ?_⟩
  rw [State.wr_pwr, State.pwr_setPwr, hb]

theorem railFallen_none (hm : prevRail n = none) : railFallen (.rail n) s = (s.setBit (.pwr .railOk) n false).moduleOff := by
  unfold railFallen
  simp only [if_pos (And.intro hi hr), hm]

theorem fallLate_spec : (fallLate (.rail n) s).rd (.pwr .fallLate) = 1 ∧ (fallLate (.rail n) s).pwr.logDone = true := by
  obtain ⟨k, fram, log, e⟩ := (s.ev (.pwr .fallLate)).logFail_eq 5 n none
  unfold fallLate
  simp only [if_pos (And.intro hi hr), e]
  refine ⟨(s.rd_wr_pwr .fallLate .fallLate 0 0 1).trans ?_, trivial⟩
  rw [if_pos ⟨rfl, rfl⟩]
  rfl

end Falling

end OnModule

/-- Settles O56: rails hand on in their order; what a power-down resets besides leaves the supervisor. -/
theorem railsFollowTheirOrder : Obligations.RailsFollowTheirOrder := by
  intro s
  refine ⟨fun hi hp => ?_, fun h => ?_, fun hi hv => ⟨_, exec_pwrOnChange true s, pwrOnChange_starts hi hv⟩,
    fun hi => ⟨_, exec_pwrOnChange true s, pwrOnChange_latches hi⟩, fun hi => ⟨_, exec_pwrOnChange false s, ?_⟩,
    fun hi => ⟨_, exec_pwrOnChange false s, ?_⟩, fun n hn hi hr => ?_, fun n hn hi hr => ⟨fun m hm => ?_, fun hm => ?_, ?_⟩,
    fun n hn => ⟨fun h => ?_, fun h => ?_⟩⟩
  · obtain ⟨h1, h2, -⟩ := State.powerStart_runs (s := s.setPwr { s.pwr with vinOk := true, fault := false }) hi rfl hp rfl
    exact ⟨_, rfl, h1, h2⟩
  · exact congrArg Host.Outcome.next (State.powerStart_waits (s := s.setPwr { s.pwr with vinOk := true, fault := false }) h)
  · have hi' : (s.wrB (.pwr .pwrOn) 0 false).istate = 1 := (s.rd_pwrOnShown false (by decide) 0).trans hi
    rw [if_neg Bool.false_ne_true, State.offRequest, hi']
    exact ⟨State.istate_railsDown _, State.loam_railsDown _⟩
  · have hi' : (s.wrB (.pwr .pwrOn) 0 false).istate = 2 := (s.rd_pwrOnShown false (by decide) 0).trans hi
    have hl : (s.wrB (.pwr .pwrOn) 0 false).ldr = s.ldr := State.wr_ldr ..
    obtain ⟨h1, h2, h3, -⟩ := (s.wrB (.pwr .pwrOn) 0 false).orderlyOff_spec
    rw [if_neg Bool.false_ne_true, State.offRequest, hi']
    refine ⟨h1, fun h => h2 (by rw [hl]; exact h), h3.trans ?_⟩
    rw [State.engineArmed, State.engineArmed, hl]
  · exact ⟨⟨_, exec_railQualified hn s, State.railQualified_spec hn hi hr⟩, ⟨_, exec_railTimeout hn s, railTimeout_spec hi hr⟩⟩
  · exact ⟨_, exec_railFallen hn s, railFallen_some hi hr hn hm⟩
  · have hb : (s.setBit (.pwr .railOk) n false).pwr = s.pwr := State.wr_pwr ..
    have hf : (s.setBit (.pwr .railOk) n false).fram = s.fram := State.wr_fram ..
    have hp : (s.setBit (.pwr .railOk) n false).rd (.pwr .pwrOn) = s.rd (.pwr .pwrOn) :=
      (State.rd_wr_pwr ..).trans (if_neg (by simp))
    rw [exec_railFallen hn, railFallen_none hi hr hm]
    generalize s.setBit (.pwr .railOk) n false = t at hb hf hp
    rw [← hb, ← hf]
    obtain ⟨h1, h2, h3⟩ := t.offState_spec
    refine ⟨fun hc hl => ⟨_, rfl, ?_⟩, fun hc hl hv hon hfault => ⟨_, rfl, ?_⟩, fun hc => ⟨_, rfl, ?_⟩⟩
    · rw [State.moduleOff_warm hc, hl]
      exact h1
    · rw [State.moduleOff_warm hc, hl, if_pos rfl]
      obtain ⟨g1, g2, g3, -⟩ := State.powerStart_runs h1 (by rw [h2]; exact hv) (by rw [State.on, h3, hp]; exact hon)
        (by rw [h2]; exact hfault)
      exact ⟨g1, g2, g3⟩
    · have hcold := State.moduleOff_cold hc
      simp only [State.coldView, Prod.mk.injEq] at hcold
      exact hcold
  · exact ⟨_, exec_fallLate hn s, fallLate_spec hi hr⟩
  · have hc : ¬ (s.istate = 1 ∧ s.rd (.pwr .irail) = n) := fun hc => h.elim (· hc.1) (· hc.2)
    rw [exec_railQualified hn, exec_railTimeout hn, State.railQualified, railTimeout]
    dsimp only
    rw [if_neg hc, if_neg hc]
    exact ⟨rfl, rfl⟩
  · have hc : ¬ (s.istate = 4 ∧ s.rd (.pwr .irail) = n) := fun hc => h.elim (· hc.1) (· hc.2)
    rw [exec_railFallen hn, exec_fallLate hn, railFallen, fallLate]
    dsimp only
    rw [if_neg hc, if_neg hc]
    exact ⟨rfl, rfl⟩


/-! ### Loss of power (O58: R385, R388 to R392) -/

section PowerLoss

variable {s : State}

theorem exec_pwrOff {v : Word} (h1 : pwrOp v = 1) (hr : s.Reaches .pwr 0) : exec (.pwrOff v) s =
    .next (if v.toNat / 65536 ≠ 0x5D0F then s else if s.istate = 2 then s.orderlyOff else s.pwrRefuse) := by
  simp [exec, execPwrOff, h1, State.hostWrite_of_reaches hr, guardWF_true]

theorem exec_offWaitTimeout (s : State) :
    exec .offWaitTimeout s = .next (if s.on (.pwr .offPend) then s.offProceed else s) := rfl

/-! #### The orderly off goes on (R385) -/

theorem State.rd_clr_offPend (s : State) {f : PwrF} (hf : f ≠ .offPend) (i : Nat) :
    (s.clr (.pwr .offPend)).rd (.pwr f) i = s.rd (.pwr f) i := by
  rw [State.clr_eq, State.rd_wr_pwr, if_neg fun h => hf h.1]

theorem State.rd_offPend_offProceed (s : State) : s.offProceed.rd (.pwr .offPend) = 0 := by
  refine (State.rd_of_railView (sequenceBlind_railView.extDown (s.clr (.pwr .offPend))) rfl 0).trans ?_
  rw [State.clr_eq, State.rd_wr_pwr, if_pos ⟨rfl, rfl⟩, Nat.zero_mod]

theorem State.offProceed_off (he : s.estate = 0) (hi : s.istate = 3) : s.offProceed.pwr.copying = true := by
  have he' : (s.clr (.pwr .offPend)).estate = 0 := (s.rd_clr_offPend (by decide) 0).trans he
  have hi' : (s.clr (.pwr .offPend)).istate = 3 := (s.rd_clr_offPend (by decide) 0).trans hi
  have ho : (s.clr (.pwr .offPend)).on (.pwr .offPend) = false := by
    rw [State.clr_eq, State.on, State.rd_wr_pwr, if_pos ⟨rfl, rfl⟩]
    rfl
  rw [State.offProceed, State.extDown, if_pos he']
  exact (State.extOffNow_stopping _ hi').2 ho

theorem State.offProceed_down (he : s.estate = 5) : s.offProceed = s.wr (.pwr .offPend) 0 0 := by
  have he' : (s.clr (.pwr .offPend)).estate = 5 := (s.rd_clr_offPend (by decide) 0).trans he
  rw [State.offProceed, State.extDown, he', if_neg (by decide), if_pos rfl, State.clr_eq]

/-- From a state in which steps are raised the external sequence lowers the top one (R386). -/
theorem State.extDown_raised {n : Nat} (h0 : s.estate ≠ 0) (h5 : s.estate ≠ 5) (hn : s.pwr.raised = n + 1) :
    s.extDown.pwr.raised = n ∧ s.extDown.estate = 5 := by
  rw [State.extDown, if_neg h0, if_neg h5]
  obtain ⟨h1, h2, -⟩ := State.extLower_succ (s.closeKinds [9]) hn
  exact ⟨h1, h2⟩

theorem State.offProceed_raised {n : Nat} (h0 : s.estate ≠ 0) (h5 : s.estate ≠ 5) (hn : s.pwr.raised = n + 1) :
    s.offProceed.estate = 5 ∧ s.offProceed.pwr.raised = n := by
  have he : (s.clr (.pwr .offPend)).estate = s.estate := s.rd_clr_offPend (by decide) 0
  obtain ⟨h1, h2⟩ := State.extDown_raised (s := s.clr (.pwr .offPend)) (he ▸ h0) (he ▸ h5) (by rw [State.clr_eq, State.wr_pwr, hn])
  exact ⟨h2, h1⟩

/-- The copied counters are in FRAM when the rails go down (R385, R392). -/
theorem counterCopyDone_spec (h : s.pwr.copying = true) : (counterCopyDone s).loam = {} ∧ (counterCopyDone s).istate = 4 ∧
    (counterCopyDone s).pwr.copying = false ∧ (counterCopyDone s).fram.counters = (List.range 28).map fun n => s.rd (.pwr .rcnt) n := by
  unfold counterCopyDone
  rw [if_pos h]
  refine ⟨State.loam_railsDown _, State.istate_railsDown _, ?_, ?_⟩
  · rw [State.pwr_railsDown]
  · rw [State.fram_railsDown]

/-! #### Supply faults and the collapse of the input (R388, R389) -/

theorem State.supervisor_releaseOutputs (s : State) : s.releaseOutputs.supervisor = s.supervisor := by
  have hd (t : State) (i : Nat) : (t.driveStep i false).supervisor = t.supervisor := by
    refine foldl_unchanged (fun u e => ?_) _ t
    split
    · rfl
    · rfl
  exact (workBlind_supervisor.releaseWhere _ _).trans (foldl_unchanged (fun t i => hd t i) _ s)

theorem State.regs_releaseOutputs (s : State) : s.releaseOutputs.regs = s.regs := by
  have hd (t : State) (i : Nat) : (t.driveStep i false).regs = t.regs := by
    refine foldl_unchanged (g := State.regs) (fun u e => ?_) _ t
    split
    · rfl
    · rfl
  have hp (t : State) : t.releasePins.regs = t.regs := by
    refine foldl_unchanged (g := State.regs) (fun u e => ?_) _ t
    split
    · rfl
    · rfl
  exact (hp _).trans (foldl_unchanged (g := State.regs) (fun t i => hd t i) _ s)

theorem exec_supplyFault {r : Nat} (hr : r ∈ railOrder) (s : State) : exec (.supplyFault r) s = .next (supplyFault r s) := by
  simp [exec, execSupplyFault, hr, guardWF_true]

/-- A supply fault powers down at once, while the sequence rises or is ON (R388). -/
theorem supplyFault_running {r : Nat} (hq : s.pwr.qualified.contains r = true) (hi : s.istate = 1 ∨ s.istate = 2) :
    (supplyFault r s).loam = {} ∧ (supplyFault r s).istate = 4 ∧ (supplyFault r s).pwr.fault = true ∧
      (supplyFault r s).pwr.logDone = true := by
  obtain ⟨k, fram, log, e⟩ := s.logFail_eq 1 r none
  have hi' : (s.logFail 1 r none).istate = 1 ∨ (s.logFail 1 r none).istate = 2 := by rwa [e]
  have hlog : (s.logFail 1 r none).releaseOutputs.extDown.pwr.logDone = true := by
    obtain ⟨ho, -⟩ := State.railView_eq_iff.mp (sequenceBlind_railView.extDown (s.logFail 1 r none).releaseOutputs)
    rw [State.pwr_of_supervisor (State.supervisor_releaseOutputs _)] at ho
    simp only [Pwr.outer, Prod.mk.injEq] at ho
    obtain ⟨-, -, -, -, hd, -⟩ := ho
    rw [hd, e]
  unfold supplyFault
  rw [hq]
  dsimp only
  rw [if_neg (by decide), if_pos hi']
  refine ⟨State.loam_railsDown _, State.istate_railsDown _, ?_, ?_⟩
  · rw [State.pwr_railsDown]
    rfl
  · rw [State.pwr_railsDown]
    exact hlog

/-- During power-down a supply fault is logged, and outputs fall (R388, R394). -/
theorem supplyFault_falling {r : Nat} (hq : s.pwr.qualified.contains r = true) (h1 : s.istate ≠ 1) (h2 : s.istate ≠ 2) :
    (supplyFault r s).pwr.logDone = true ∧ (supplyFault r s).regs = s.regs := by
  obtain ⟨k, fram, log, e⟩ := s.logFail_eq 1 r none
  have hi' : ¬ ((s.logFail 1 r none).istate = 1 ∨ (s.logFail 1 r none).istate = 2) := by
    rw [e]
    exact fun h => h.elim h1 h2
  unfold supplyFault
  rw [hq]
  dsimp only
  rw [if_neg (by decide), if_neg hi']
  refine ⟨?_, ?_⟩
  · rw [State.pwr_of_supervisor (State.supervisor_releaseOutputs _), e]
  · rw [State.regs_releaseOutputs, e]

theorem State.pwr_closeKinds (s : State) (ks : List Nat) : (s.closeKinds ks).pwr = s.pwr := rfl

theorem State.rd_railOff (s : State) (r : Nat) {f : PwrF} (hf : f ≠ .irail) (i : Nat) :
    (s.railOff r).rd (.pwr f) i = s.rd (.pwr f) i := by
  rw [State.railOff, State.rd_wr_pwr, if_neg fun h => hf h.1, State.rd_setPwr]

/-- The outputs and laser enables that a collapse of the input takes away are none of the supervisor's (R389). -/
theorem State.pwr_outputsTaken (s : State) :
    (((List.range 8).foldl (fun t k => t.ldenLow k) ((List.range 8).foldl (fun t g => t.setGate g false) s.releaseOutputs)).closeKinds
      [9]).pwr = s.pwr := by
  have h := workBlind_supervisor
  rw [State.pwr_closeKinds]
  refine State.pwr_of_supervisor ?_
  exact (foldl_unchanged (fun w k => h.ldenLow w k) _ _).trans ((foldl_unchanged (fun w g => h.setGate w g false) _ _).trans
    s.supervisor_releaseOutputs)

/-- The collapse of the input is a power-down that begins with the external sequence OFF and ends at rail 9 (R389). -/
theorem inputCollapse_spec (hi : s.istate ≠ 0) (mv : Nat) : (inputCollapse mv s).rd (.pwr .irail) = 9 ∧ (inputCollapse mv s).istate = 4 ∧
    (inputCollapse mv s).estate = 0 ∧ (inputCollapse mv s).pwr.vinOk = false ∧ (inputCollapse mv s).loam = {} := by
  unfold inputCollapse
  extract_lets _ begun logged gated closed _ marked shown _ ended down
  rw [if_neg (show ¬ begun.istate = 0 from hi)]
  have hlogged : logged.pwr.vinOk = false := by
    obtain ⟨k, fram, log, e⟩ := begun.logFail_eq 4 0xFF (some mv)
    unfold logged
    rw [e]
    rfl
  clear_value logged
  have hclosed : closed.pwr.vinOk = false := by
    rw [show closed.pwr = logged.pwr from logged.pwr_outputsTaken, hlogged]
  clear_value closed
  have hended : ended.pwr.vinOk = false := by
    have hshown : shown.pwr = marked.pwr := State.wr_pwr ..
    have hend : ended.pwr = shown.pwr := State.wr_pwr ..
    rw [hend, hshown]
    exact hclosed
  clear_value ended
  have hdown : down.istate = 4 ∧ down.estate = 0 ∧ down.pwr.vinOk = false ∧ down.loam = {} := by
    refine ⟨State.istate_railsDown _, ?_, ?_, State.loam_railsDown _⟩
    · exact (State.rd_railsDown _ (by decide) 0).trans (State.estate_toE _)
    · unfold down
      rw [State.pwr_railsDown, State.pwr_toE, hended]
  clear_value down
  obtain ⟨hdi, hde, hdv, hdl⟩ := hdown
  refine ⟨State.rd_irail_wr _ (by decide), ?_, ?_, ?_, ?_⟩
  · rw [State.istate, State.rd_railOff _ _ (by decide), State.rd_wr_pwr, if_neg (by simp)]
    exact hdi
  · rw [State.estate, State.rd_railOff _ _ (by decide), State.rd_wr_pwr, if_neg (by simp)]
    exact hde
  · rw [State.railOff, State.wr_pwr, State.pwr_setPwr]
    exact (congrArg Pwr.vinOk (State.wr_pwr ..)).trans hdv
  · rw [State.railOff, State.wr_loam]
    exact (State.wr_loam ..).trans hdl

/-! #### Windows (R391, R392) -/

/-- A bit of a mask reads as it was set, whatever the mask was. -/
theorem State.bitOn_setBit (s : State) (f : PwrF) {n : Nat} (hn : n < f.row.width) (b : Bool) :
    (s.setBit (.pwr f) n b).bitOn (.pwr f) n = b := by
  unfold State.bitOn State.setBit
  rw [State.rd_wr_pwr, if_pos ⟨rfl, rfl⟩]
  generalize s.rd (.pwr f) = v
  have hsum : v - v / 2 ^ n % 2 * 2 ^ n + bit b * 2 ^ n = v % 2 ^ n + 2 ^ n * (v / 2 ^ n - v / 2 ^ n % 2 + bit b) := by
    have hv := Nat.div_add_mod v (2 ^ n)
    have hle : v / 2 ^ n % 2 ≤ v / 2 ^ n := Nat.mod_le ..
    generalize v / 2 ^ n = q at hv hle
    generalize v % 2 ^ n = r at hv
    generalize q % 2 = p at hle
    subst hv
    obtain ⟨d, rfl⟩ := Nat.exists_eq_add_of_le hle
    rw [Nat.add_sub_cancel_left, Nat.mul_add, Nat.mul_add, Nat.mul_comm p, Nat.mul_comm (bit b)]
    omega
  have hbit : (v - v / 2 ^ n % 2 * 2 ^ n + bit b * 2 ^ n).testBit n = b := by
    rw [hsum, Nat.testBit_eq_decide_div_mod_eq, Nat.add_mul_div_left _ _ (Nat.two_pow_pos n), Nat.div_eq_of_lt (Nat.mod_lt _ (Nat.two_pow_pos n))]
    cases b <;> simp [bit] <;> omega
  have hmod := Nat.testBit_mod_two_pow (v - v / 2 ^ n % 2 * 2 ^ n + bit b * 2 ^ n) f.row.width n
  rw [hbit, Nat.testBit_eq_decide_div_mod_eq, decide_eq_true hn, Bool.true_and] at hmod
  exact hmod

theorem exec_railWindowChange {w : WindowId} (hw : windowOk w = true) (good : Bool) (s : State) :
    exec (.railWindowChange w good) s = .next (railWindowChange w good s) := by
  simp [exec, execRailWindowChange, hw, guardWF_true]

/-- A window is shown in its mask; an exit after qualification counts (R391, R392). -/
theorem railWindowChange_spec (f : PwrF) (hf : f ≠ .rcnt) {n : Nat} (hn : n < f.row.width) (k : Nat) (good left : Bool) :
    (if left then (s.setBit (.pwr f) n good).rcount k else s.setBit (.pwr f) n good).bitOn (.pwr f) n = good ∧
      (if left then (s.setBit (.pwr f) n good).rcount k else s.setBit (.pwr f) n good).rd (.pwr .rcnt) k =
        if left then satInc (Fld.pwr .rcnt).row.width (s.rd (.pwr .rcnt) k) else s.rd (.pwr .rcnt) k := by
  have hb := s.bitOn_setBit f hn good
  have hc : (s.setBit (.pwr f) n good).rd (.pwr .rcnt) k = s.rd (.pwr .rcnt) k := by
    rw [State.setBit, State.rd_wr_pwr, if_neg fun h => hf h.1.symm]
  cases left with
  | false => exact ⟨hb, hc⟩
  | true =>
    refine ⟨?_, ?_⟩
    · rw [if_pos rfl, State.bitOn, State.rcount, State.count_eq, State.rd_wr_pwr, if_neg fun h => hf h.1]
      exact hb
    · rw [if_pos rfl, if_pos rfl, State.rcount, State.count_eq, State.rd_wr_pwr, if_pos ⟨rfl, rfl⟩, hc]
      exact Nat.mod_eq_of_lt (satInc_lt ..)

theorem logCommit_true {n : Nat} {bytes : List Nat} (h : s.pwr.log = some (n, bytes)) : (logCommit true s).pwr.log = none ∧
    (if n = 0 then (logCommit true s).fram.log0 else (logCommit true s).fram.log1) = { bytes := bytes, torn := false } ∧
    (if n = 0 then (logCommit true s).fram.log1 = s.fram.log1 else (logCommit true s).fram.log0 = s.fram.log0) := by
  unfold logCommit
  rw [h]
  by_cases hn : n = 0
  · simp [hn]
  · simp [hn]

end PowerLoss

/-- Settles O58: each way to lose power ends in the same power-down, which leaves the log, the counters and the fault of the episode. -/
theorem powerIsLost : Obligations.PowerIsLost := by
  intro s
  refine ⟨fun v h1 hr => ⟨fun hk => ?_, fun hk hi => ?_, fun hk hi => ⟨s.orderlyOff, ?_, ?_⟩⟩, fun h => ?_,
    fun h => ⟨fun he hi => ⟨_, ?_, s.rd_offPend_offProceed, State.offProceed_off he hi⟩, fun he => ?_,
      fun n h0 h5 hn _ => ⟨_, ?_, s.rd_offPend_offProceed, State.offProceed_raised h0 h5 hn⟩⟩,
    fun h => ?_, fun h => ⟨_, rfl, counterCopyDone_spec h⟩,
    fun r hr => ⟨fun h => ?_, fun hq hi => ⟨_, exec_supplyFault hr s, supplyFault_running hq hi⟩,
      fun hq h1 h2 => ⟨_, exec_supplyFault hr s, supplyFault_falling hq h1 h2⟩⟩,
    fun mv => ⟨fun hi => ?_, fun hi => ⟨_, rfl, inputCollapse_spec hi mv⟩⟩, fun h c => ?_,
    fun n bytes h => ⟨?_, _, rfl, logCommit_true h⟩, fun r good hr => ?_, fun m good hm => ?_⟩
  · rw [exec_pwrOff h1 hr, if_pos hk]
  · rw [exec_pwrOff h1 hr, if_neg (not_not.mpr hk), if_neg hi]
    rfl
  · rw [exec_pwrOff h1 hr, if_neg (not_not.mpr hk), if_pos hi]
  · obtain ⟨hi3, hd, ho, -⟩ := s.orderlyOff_spec
    exact ⟨hi3, hd, ho⟩
  · rw [exec_offWaitTimeout, h, if_neg Bool.false_ne_true]
  · rw [exec_offWaitTimeout, if_pos h]
  · rw [exec_offWaitTimeout, if_pos h, State.offProceed_down he]
  · rw [exec_offWaitTimeout, if_pos h]
  · change Host.Outcome.next (counterCopyDone s) = _
    rw [counterCopyDone, h, if_neg Bool.false_ne_true]
  · rw [exec_supplyFault hr, supplyFault, h]
    rfl
  · change Host.Outcome.next (inputCollapse mv s) = _
    exact congrArg Host.Outcome.next (if_pos hi)
  · change Host.Outcome.next (logCommit c s) = _
    rw [logCommit, h]
  · change Host.Outcome.next (logCommit false s) = _
    rw [logCommit, h]
    rfl
  · obtain ⟨h1, h2⟩ := railWindowChange_spec (s := s) .railOk (by decide) hr r good
      (s.pwr.qualified.contains r && s.bitOn (.pwr .railOk) r && !good)
    refine ⟨_, exec_railWindowChange (w := .rail r) (decide_eq_true hr) good s, h1, h2.trans ?_⟩
    simp only [Bool.and_eq_true, Bool.not_eq_true', and_assoc]
  · obtain ⟨h1, h2⟩ := railWindowChange_spec (s := s) .monOk (by decide) hm (12 + m) good
      (s.pwr.monitors.contains m && s.bitOn (.pwr .monOk) m && !good)
    refine ⟨_, exec_railWindowChange (w := .monitor m) (decide_eq_true hm) good s, h1, h2.trans ?_⟩
    simp only [Bool.and_eq_true, Bool.not_eq_true', and_assoc]


/-! ### Commands of the reset controller (O60: R403, R409, R413) -/

section ResetCommands

variable {s : State} {v : Word}

/-- VID is the last domain that a reset of reach 2 and more takes (R404). -/
theorem State.up_vid_sourceAssert {src : Nat} (h : 2 ≤ s.effReach src) : (s.sourceAssert src).up .vid = false := by
  have hd (t : State) (reach : Nat) : Dom.vid ∈ (t.dieReset reach).inReset := by
    unfold State.dieReset
    extract_lets u
    have hu : Dom.vid ∈ u.inReset := State.mem_inReset_domainReset _ .vid 2
    clear_value u
    split
    · exact hu
    · exact hu
  refine State.up_of_mem_inReset ?_
  unfold State.sourceAssert
  dsimp only
  rw [if_pos h, State.inReset_showReset]
  exact hd ..

theorem exec_cmdDomain (h1 : rstcOp v = 1) (hr : s.Reaches .rstc 0) : exec (.cmdDomain v) s =
    .next (if rstcKey v then s.domainCmd (bitField v.toNat 4 4) else s) := by
  simp [exec, execCmdDomain, h1, State.hostWrite_of_reaches hr, guardWF_true]

theorem exec_cmdDie (h2 : rstcOp v = 2) (hr : s.Reaches .rstc 0) : exec (.cmdDie v) s = .next (if rstcKey v then s.dieCmd else s) := by
  simp [exec, execCmdDie, h2, State.hostWrite_of_reaches hr, guardWF_true]

theorem exec_cold (h3 : rstcOp v = 3) (hr : s.Reaches .rstc 0) : exec (.cold v) s = .next (if rstcKey v then s.coldCommand else s) := by
  simp [exec, execCold, h3, State.hostWrite_of_reaches hr, guardWF_true]

theorem exec_obWrite (h4 : rstcOp v = 4) (hr : s.Reaches .rstc 0) : exec (.obWrite v) s =
    .next (if rstcKey v then s.obWriteNow else s) := by
  simp [exec, execObWrite, h4, State.hostWrite_of_reaches hr, guardWF_true]

theorem State.domainCmd_refused {d : Nat} (h : s.engineArmed = true ∨ d = 0 ∨ 8 < d) : s.domainCmd d = s.wr (.rstc .cmdErr) 0 1 :=
  if_pos (by simpa [or_assoc] using h)

/-- A DOMAIN command takes the domain that it names out of service (R409). -/
theorem State.up_domainCmd {d : Nat} (ha : s.engineArmed = false) (h1 : 1 ≤ d) (h8 : d ≤ 8) (h2 : d ≠ 2) :
    (s.domainCmd d).up (mainDoms.getD (d - 1) .ctl) = false := by
  have hd : ¬ (s.engineArmed || d == 0 || decide (8 < d)) = true := by
    simp [ha]
    omega
  unfold State.domainCmd
  rw [if_neg hd, if_neg h2]
  exact State.up_sourceAssert_of_reach_one
    (s := { s with rst := { s.rst with named := mainDoms.getD (d - 1) .ctl } }) (src := 9) rfl

/-- A DOMAIN command on SEQ is one on the die (R409). -/
theorem State.up_domainCmd_seq (ha : s.engineArmed = false) : (s.domainCmd 2).up .vid = false := by
  unfold State.domainCmd
  rw [if_neg (by simp [ha]), if_pos rfl]
  exact State.up_vid_sourceAssert (src := 10) (show 2 ≤ 2 from le_rfl)

theorem State.up_dieCmd (ha : s.engineArmed = false) : s.dieCmd.up .vid = false := by
  rw [State.dieCmd, if_neg (by simp [ha])]
  exact State.up_vid_sourceAssert (src := 10) (show 2 ≤ 2 from le_rfl)

/-- The state in which a COLD command asks for the power-down (R403). -/
def State.coldAsked (s : State) : State := (s.setPwr { s.pwr with cold := true, coldCmd := true, onLatch := true }).showLatch

theorem State.coldAsked_spec (s : State) : s.coldAsked.pwr.cold = true ∧ s.coldAsked.pwr.onLatch = true ∧
    s.coldAsked.rd (.pwr .onLatch) = 1 ∧ s.coldAsked.istate = s.istate ∧ s.coldAsked.engineArmed = s.engineArmed := by
  unfold State.coldAsked
  refine ⟨by simp, by simp, ?_, ?_, ?_⟩
  · rw [State.rd_showLatch, if_pos ⟨rfl, rfl⟩]
    rfl
  · rw [State.istate, State.rd_showLatch, if_neg (by simp)]
    rfl
  · rw [State.engineArmed, State.showLatch_ldr]
    rfl

theorem State.coldCommand_rising (hi : s.istate = 1) : s.coldCommand.istate = 4 ∧ s.coldCommand.pwr.cold = true ∧
    s.coldCommand.pwr.onLatch = true ∧ s.coldCommand.loam = {} := by
  obtain ⟨hc, hl, -, hi', -⟩ := s.coldAsked_spec
  have e : s.coldCommand = s.coldAsked.railsDown := by
    change s.coldAsked.offRequest = _
    rw [State.offRequest, hi', hi]
    rfl
  rw [e, State.pwr_railsDown]
  exact ⟨State.istate_railsDown _, hc, hl, State.loam_railsDown _⟩

theorem State.coldCommand_on (hi : s.istate = 2) : s.coldCommand.istate = 3 ∧ s.coldCommand.pwr.cold = true ∧
    s.coldCommand.pwr.onLatch = true ∧ s.coldCommand.on (.pwr .offPend) = s.engineArmed := by
  obtain ⟨hc, hl, -, hi', ha⟩ := s.coldAsked_spec
  obtain ⟨h3, -, ho, hp⟩ := s.coldAsked.orderlyOff_spec
  have e : s.coldCommand = s.coldAsked.orderlyOff := by
    change s.coldAsked.offRequest = _
    rw [State.offRequest, hi', hi]
    rfl
  simp only [Pwr.outer, Prod.mk.injEq] at hp
  obtain ⟨-, hpl, -, -, -, -, hpc, -⟩ := hp
  rw [e]
  exact ⟨h3, hpc.trans hc, hpl.trans hl, ho.trans ha⟩

theorem State.coldCommand_off (hi : s.istate = 0 ∨ s.istate = 3 ∨ s.istate = 4) : s.coldCommand.pwr.cold = true ∧
    s.coldCommand.pwr.onLatch = true ∧ s.coldCommand.rd (.pwr .onLatch) = 1 := by
  obtain ⟨hc, hl, hr, hi', -⟩ := s.coldAsked_spec
  have e : s.coldCommand = s.coldAsked := by
    change s.coldAsked.offRequest = _
    rw [State.offRequest, hi']
    obtain h | h | h := hi
    · rw [h]; rfl
    · rw [h]; rfl
    · rw [h]; rfl
  rw [e]
  exact ⟨hc, hl, hr⟩

theorem State.obWriteNow_refused (h : s.on (.rstc .obBusy) = true) : s.obWriteNow = s.wr (.rstc .cmdErr) 0 1 := if_pos h

/-- An option byte write goes to the copy that is not in force (R413). -/
theorem State.obWriteNow_spec (h : s.on (.rstc .obBusy) = false) : s.obWriteNow.rd (.rstc .obBusy) = 1 ∧
    s.obWriteNow.rst.obWrite.map Prod.fst = some (otherSlot (obSeqno s.fram.ob0) (obSeqno s.fram.ob1)) := by
  unfold State.obWriteNow
  rw [h, if_neg Bool.false_ne_true]
  exact ⟨State.rd_wr_same s (f := .rstc .obBusy) rfl 1, rfl⟩

variable {n : Nat} {bytes : List Nat}

theorem obWriteDone_true (h : s.rst.obWrite = some (n, bytes)) : (obWriteDone true s).rd (.rstc .obBusy) = 0 ∧
    (obWriteDone true s).rst.obWrite = none ∧
    (if n = 0 then (obWriteDone true s).fram.ob0 else (obWriteDone true s).fram.ob1) = bytes := by
  unfold obWriteDone
  rw [h]
  refine ⟨State.rd_wr_same s (f := .rstc .obBusy) rfl 0, rfl, ?_⟩
  by_cases hn : n = 0
  · simp [hn]
  · simp [hn]

theorem obWriteDone_false (h : s.rst.obWrite = some (n, bytes)) : (obWriteDone false s).rd (.rstc .obBusy) = 0 ∧
    (obWriteDone false s).rst.obWrite = none ∧ (obWriteDone false s).rd (.rstc .obFail) = 1 ∧ (obWriteDone false s).fram = s.fram := by
  unfold obWriteDone
  rw [h]
  dsimp only
  rw [if_neg Bool.false_ne_true, State.ev_eq]
  refine ⟨?_, ?_, ?_, ?_⟩
  · rw [State.rd_wr_ne _ (by decide)]
    exact State.rd_wr_same s (f := .rstc .obBusy) rfl 0
  · rw [State.wr_rst]
  · exact State.rd_wr_same _ rfl 1
  · rw [State.wr_fram]
    rfl

end ResetCommands

/-- Settles O60: a reset by command is that of its source; COLD asks for the power-down of PWR_OFF with an on request latched. -/
theorem resetCommandsRun : Obligations.ResetCommandsRun := by
  intro s v hr
  have hfalse {b : Bool} (h : b = false) : ¬ b = true := by simp [h]
  refine ⟨fun h1 => ⟨fun hk => ?_, fun hk h => ?_, fun d hk ha hd h0 h8 => ⟨fun h2 => ⟨s.domainCmd d, ?_, ?_⟩, fun h2 => ⟨s.domainCmd d, ?_, ?_⟩⟩⟩,
    fun h2 => ⟨fun hk => ?_, fun hk ha => ?_, fun hk ha => ⟨s.dieCmd, ?_, State.up_dieCmd ha⟩⟩,
    fun h3 => ⟨fun hk => ?_, fun hk hi => ⟨s.coldCommand, ?_, State.coldCommand_rising hi⟩,
      fun hk hi => ⟨s.coldCommand, ?_, State.coldCommand_on hi⟩, fun hk hi => ⟨s.coldCommand, ?_, State.coldCommand_off hi⟩⟩,
    fun h4 => ⟨fun hk => ?_, fun hk hb => ?_, fun hk hb => ⟨s.obWriteNow, ?_, State.obWriteNow_spec hb⟩⟩,
    fun n bytes h => ⟨⟨_, rfl, obWriteDone_true h⟩, ⟨_, rfl, obWriteDone_false h⟩⟩⟩
  · rw [exec_cmdDomain h1 hr, if_neg (hfalse hk)]
  · rw [exec_cmdDomain h1 hr, if_pos hk, State.domainCmd_refused h]
  · rw [exec_cmdDomain h1 hr, if_pos hk, hd]
  · exact State.up_domainCmd ha h0 h8 h2
  · rw [exec_cmdDomain h1 hr, if_pos hk, hd]
  · subst h2
    exact State.up_domainCmd_seq ha
  · rw [exec_cmdDie h2 hr, if_neg (hfalse hk)]
  · rw [exec_cmdDie h2 hr, if_pos hk, State.dieCmd, if_pos ha]
    rfl
  · rw [exec_cmdDie h2 hr, if_pos hk]
  · rw [exec_cold h3 hr, if_neg (hfalse hk)]
  · rw [exec_cold h3 hr, if_pos hk]
  · rw [exec_cold h3 hr, if_pos hk]
  · rw [exec_cold h3 hr, if_pos hk]
  · rw [exec_obWrite h4 hr, if_neg (hfalse hk)]
  · rw [exec_obWrite h4 hr, if_pos hk, State.obWriteNow_refused hb]
  · rw [exec_obWrite h4 hr, if_pos hk]


/-! ### External steps (O57: R383 to R388) -/

/-- A state whose step number stands at 40 of 100 steps, with step 40 raised. PWR_ESTEP holds 5 bits, so no run reaches it; the
statement does not ask for a sound state. -/
def manySteps : State :=
  { State.reset with
    regs := [((.pwr .nsteps, 0), 100), ((.pwr .estate, 0), 2), ((.pwr .estep, 0), 40)]
    pwr := { raised := 41 } }

theorem estep_manySteps : manySteps.extQualified.rd (.pwr .estep) = 9 := by decide

/-- Refutes O57: where the step number has more than the 5 bits of PWR_ESTEP, the step that follows is not its successor. -/
theorem not_externalStepsFollowTheirOrder : ¬ Obligations.ExternalStepsFollowTheirOrder := by
  intro h
  obtain ⟨-, -, hq, -⟩ := h manySteps 40 rfl
  obtain ⟨hnext, -⟩ := hq rfl rfl
  obtain ⟨t, ht, hstep, -⟩ := hnext (by decide)
  obtain rfl : manySteps.extQualified = t := Host.Outcome.next.inj ht
  rw [estep_manySteps] at hstep
  exact absurd hstep (by decide)


/-! ### The host's reach (O11: R420, R423, R425, R427) -/

section HostReach

variable {s : State}

theorem exec_isolatedAccess {a : Nat} {b : Block} (ha : bar0Offset a = true) (hb : blockAt a = some b) (hbar : s.barUp = true)
    (hup : s.blockUp b (stationAt a) = false) (write : Bool) :
    exec (.isolatedAccess a write) s = .next (if write then s.isoAccess else s.isoAccess.emit (.readData 0xFFFFFFFF)) := by
  simp [exec, execIsolatedAccess, isolatedAccess, ha, hb, hbar, hup, guardWF_true]

/-- An access that meets nothing shows in ISO_ACCESS alone (R423). -/
theorem State.rd_isoAccess (s : State) : s.isoAccess.rd (.glb .isoAccess) = 1 ∧
    ∀ f i, (f, i) ≠ (.glb .isoAccess, 0) → s.isoAccess.rd f i = s.rd f i := by
  unfold State.isoAccess
  refine ⟨?_, fun f i h => ?_⟩
  · rw [State.rd_globalIrq, State.ev_eq]
    exact State.rd_wr_same s (f := .glb .isoAccess) rfl 1
  · rw [State.rd_globalIrq, State.ev_eq, State.rd_wr_ne s h]

/-! #### The link (R420, R425) -/

theorem sequenceBlind_inReset : SequenceBlind State.inReset where
  upd _ _ _ _ := rfl
  wr s _ _ _ _ := s.wr_inReset ..
  closeKinds _ := rfl

/-- The state in which the link has left DL_Active. -/
def State.linkLost (s : State) : State := { s with pcie := { s.pcie with linkUp := false } }

theorem exec_pcieLinkDown (h : s.pcie.linkUp = true) : exec .pcieLinkDown s = .next (s.linkLost.sourceAssert 5).offWaited :=
  congrArg Host.Outcome.next (if_pos h)

theorem State.inReset_offWaited (s : State) : s.offWaited.inReset = s.inReset :=
  sequenceBlind_inReset.offWaited s fun t => t.wr_inReset ..

/-- A domain that the loss of the link resets is down, also when the wait for the engine ends with it (R385, R425). -/
theorem State.up_offWaited {d : Dom} (h : s.up d = false) : s.offWaited.up d = false := by
  have hiso : SequenceBlind State.isolated := ⟨fun _ _ _ _ => rfl, fun s _ _ _ _ => s.wr_isolated .., fun _ => rfl⟩
  rw [← h, State.up, State.up, s.inReset_offWaited, hiso.offWaited s fun t => t.wr_isolated ..]

/-! #### MSI-X (R427) -/

/-- The vectors that go out when nothing masks them. -/
def Pcie.sendable (p : Pcie) : List Nat := (List.range 256).filter fun v => p.pendingBits.contains v && p.unmasked.contains v

theorem Pcie.mem_sendable {p : Pcie} {v : Nat} : v ∈ p.sendable ↔ v < 256 ∧ v ∈ p.pendingBits ∧ v ∈ p.unmasked := by
  simp [Pcie.sendable]

theorem foldl_emit_msix (l : List Nat) (s : State) :
    l.foldl (fun t v => t.emit (.msix v)) s = { s with out := (l.map Out.msix).reverse ++ s.out } := by
  induction l generalizing s with
  | nil => rfl
  | cons v l ih =>
    rw [List.foldl_cons, ih]
    simp [State.emit]

/-- While MSI-X is enabled every sendable vector sends its message, and is pending no more. -/
theorem State.sendPending_enabled (he : s.pcie.msixEnable = true) (hf : s.pcie.functionMask = false) :
    s.sendPending = { s with
      pcie := { s.pcie with pendingBits := s.pcie.pendingBits.filter fun v => !s.pcie.sendable.contains v }
      out := (s.pcie.sendable.map Out.msix).reverse ++ s.out } := by
  unfold State.sendPending
  rw [if_pos (by simp [he, hf])]
  exact foldl_emit_msix ..

theorem State.sendPending_disabled (h : s.pcie.msixEnable = false ∨ s.pcie.functionMask = true) : s.sendPending = s :=
  if_neg (by obtain h | h := h <;> simp [h])

/-- With nothing to send nothing changes. -/
theorem State.sendPending_none (h : s.pcie.sendable = []) : s.sendPending = s := by
  by_cases he : s.pcie.msixEnable = true ∧ s.pcie.functionMask = false
  · rw [State.sendPending_enabled he.1 he.2, h]
    simp
  · refine State.sendPending_disabled ?_
    cases hm : s.pcie.msixEnable with
    | false => exact .inl rfl
    | true => exact .inr (by simpa [hm] using he)

/-- The state after a change of a vector's mask bit, before anything is sent. -/
def State.maskSet (s : State) (v : Nat) (masked : Bool) : State :=
  { s with pcie := { s.pcie with unmasked := (s.pcie.unmasked.filter (· != v)) ++ if masked then [] else [v] } }

variable (hl : s.pcie.linkUp = true) (hup : s.up .host = true)

include hl hup

theorem exec_vectorMask {v : Nat} (hv : v < 256) (masked : Bool) :
    exec (.msixUnmask (.vectorMask v masked)) s = .next (s.maskSet v masked).sendPending := by
  simp [exec, execMsixUnmask, msixUnmask, hv, hl, hup, State.maskSet, guardWF_true]

theorem exec_functionMask : exec (.msixUnmask (.functionMask true)) s = .next { s with pcie := { s.pcie with functionMask := true } } := by
  refine congrArg Host.Outcome.next ((if_neg (by simp [hl, hup])).trans ?_)
  exact State.sendPending_disabled (.inr rfl)

theorem exec_msixDisable : exec (.msixUnmask (.enable false)) s = .next { s with pcie := { s.pcie with msixEnable := false } } := by
  refine congrArg Host.Outcome.next ((if_neg (by simp [hl, hup])).trans ?_)
  exact State.sendPending_disabled (.inl rfl)

end HostReach

section MaskBits

variable {s : State} {v : Nat}

theorem State.sendable_unmask (hv : v < 256) (hp : v ∈ s.pcie.pendingBits) (h : ∀ w ∈ s.pcie.pendingBits, w ∉ s.pcie.unmasked) :
    (s.maskSet v false).pcie.sendable = [v] := by
  unfold Pcie.sendable
  refine Eq.trans (List.filter_congr (q := (· == v)) fun w _ => ?_) ?_
  · by_cases hw : w = v
    · simp [State.maskSet, hw, hp]
    · by_cases hpw : w ∈ s.pcie.pendingBits
      · simp [State.maskSet, hw, hpw, h w hpw]
      · simp [State.maskSet, hw, hpw]
  · rw [List.filter_beq, List.count_eq_one_of_mem List.nodup_range (List.mem_range.mpr hv)]
    rfl

/-- A mask bit that frees no pending message leaves nothing to send. -/
theorem State.sendable_maskSet {masked : Bool} (hp : masked = false → v ∉ s.pcie.pendingBits)
    (h : ∀ w ∈ s.pcie.pendingBits, w ∉ s.pcie.unmasked) : (s.maskSet v masked).pcie.sendable = [] := by
  refine List.eq_nil_iff_forall_not_mem.mpr fun w hw => ?_
  obtain ⟨-, hpw, hu⟩ := Pcie.mem_sendable.mp hw
  simp only [State.maskSet, List.mem_append, List.mem_filter] at hu
  obtain ⟨hu, -⟩ | hu := hu
  · exact h w hpw hu
  · cases masked with
    | true => exact absurd hu (List.not_mem_nil)
    | false =>
      obtain rfl := List.mem_singleton.mp hu
      exact hp rfl hpw

theorem State.mem_unmasked_maskSet (s : State) (v : Nat) : v ∈ (s.maskSet v false).pcie.unmasked := by simp [State.maskSet]

theorem State.not_mem_unmasked_maskSet (s : State) (v : Nat) : v ∉ (s.maskSet v true).pcie.unmasked := by simp [State.maskSet]

end MaskBits

/-- Settles O11: what an access, the link and a mask bit reach, each by its guard. -/
theorem linkGatesAccess : Obligations.LinkGatesAccess := by
  refine ⟨fun s hbar a b ha hb hup => ⟨?_, ?_, s.rd_isoAccess⟩, fun s hup => ⟨fun sp w h1 h5 hw => ?_, fun hl => ?_⟩⟩
  · rw [exec_isolatedAccess ha hb hbar hup, if_pos rfl]
  · rw [exec_isolatedAccess ha hb hbar hup, if_neg Bool.false_ne_true]
  · have hwf : (decide (1 ≤ sp) && decide (sp ≤ 5) && [1, 2, 4, 8].contains w) = true := by simpa [h1, h5] using hw
    change execPcieLinkUp sp w s = _
    rw [execPcieLinkUp, hwf, guardWF_true, pcieLinkUp, if_pos hup]
  · refine ⟨?_, ?_, fun h => ⟨_, exec_pcieLinkDown hl, ?_⟩, fun h => ⟨_, exec_pcieLinkDown hl, ?_⟩, fun v hv he hf hp hm hall => ?_,
      fun v hv he hf hp => ?_, fun v hv hno hall => ?_, fun v hv hall => ?_, ⟨_, exec_functionMask hl hup, rfl, rfl⟩,
      ⟨_, exec_msixDisable hl hup, rfl, rfl⟩⟩
    · exact congrArg Host.Outcome.next (if_pos (by simp [hl, hup]))
    · simp [State.barUp]
    · exact State.up_offWaited (State.up_sourceAssert_of_reach_one (s := s.linkLost) (src := 5) h)
    · exact State.up_offWaited (State.up_vid_sourceAssert (s := s.linkLost) (src := 5) (show 2 ≤ s.effReach 5 from h.ge))
    · have hs := State.sendable_unmask hv hp hall
      refine ⟨_, exec_vectorMask hl hup hv false, ?_⟩
      rw [State.sendPending_enabled (s := s.maskSet v false) he hf, hs]
      exact ⟨rfl, by simp, rfl⟩
    · have hmem : v ∈ (s.maskSet v false).pcie.sendable := Pcie.mem_sendable.mpr ⟨hv, hp, s.mem_unmasked_maskSet v⟩
      refine ⟨_, exec_vectorMask hl hup hv false, ?_⟩
      rw [State.sendPending_enabled (s := s.maskSet v false) he hf]
      exact ⟨List.mem_append_left _ (by simpa using hmem), by simp [hmem], rfl⟩
    · have hs : (s.maskSet v false).sendPending = s.maskSet v false := by
        obtain h | h | h := hno
        · exact State.sendPending_disabled (.inl h)
        · exact State.sendPending_disabled (.inr h)
        · exact State.sendPending_none (State.sendable_maskSet (fun _ => h) hall)
      exact ⟨_, exec_vectorMask hl hup hv false, by rw [hs]; exact ⟨s.mem_unmasked_maskSet v, rfl, rfl, rfl⟩⟩
    · have hs : (s.maskSet v true).sendPending = s.maskSet v true :=
        State.sendPending_none (State.sendable_maskSet Bool.noConfusion hall)
      exact ⟨_, exec_vectorMask hl hup hv true, by rw [hs]; exact ⟨s.not_mem_unmasked_maskSet v, rfl, rfl, rfl⟩⟩


/-! ### Power-up calibration and Mayfly sensors (O50: R363, R364, R367 to R369) -/

section Calibration

variable {s : State}

theorem State.rd_wr_cal_ne (s : State) {f g : CalF} (h : g ≠ f) (i j v : Nat) : (s.wr (.cal f) i v).rd (.cal g) j = s.rd (.cal g) j :=
  s.rd_wr_ne (fun e => h (Fld.cal.inj (congrArg Prod.fst e))) v

/-- A post shows in no field outside the mailboxes. -/
theorem State.rd_post (s : State) {f : Fld} (hf : f.block ≠ .mbx) (kind unit : Nat) (data : List Nat) (i : Nat) :
    (s.post kind unit data).rd f i = s.rd f i := by
  unfold State.post
  extract_lets w
  split
  · split
    · rfl
    · rfl
  · split
    · obtain ⟨o, pc, tk, ds, e⟩ := s.enqueue_eq _ kind unit data
      rw [e]
      rfl
    · split
      · exact s.rd_wr_ne (fun e => hf (congrArg (fun p : Fld × Nat => p.1.block) e)) _
      · rfl

/-! #### The steps (R363, R364) -/

section Steps

variable (hup : s.up .ctl = true) (ok : Bool) (u : Nat) (temps : List Int)

include hup

theorem exec_calStepDone_idle (h : s.rd (.cal .puStep) = 0) : exec (.calStepDone ok u temps) s = .next s := by
  simp [exec, execCalStepDone, calStepDone, hup, h, guardWF_true]

theorem calStepDone_sensors (h : s.rd (.cal .puStep) = 1) : (calStepDone ok u temps s).rd (.cal .puStep) = 2 := by
  simp only [calStepDone, hup, h, Bool.not_true, Bool.false_eq_true, if_false]
  exact State.rd_wr_same _ rfl 2

/-- A step between: the next one runs, and a failure is kept (R364). -/
theorem calStepDone_between {n : Nat} (h : s.rd (.cal .puStep) = n) (h2 : 2 ≤ n) (h7 : n ≤ 7) :
    (calStepDone ok u temps s).rd (.cal .puStep) = n + 1 ∧
      (ok = false → (calStepDone ok u temps s).rd (.cal .puBad) = 1 ∧ (calStepDone ok u temps s).rd (.cal .calFail) = 1 ∧
        (calStepDone ok u temps s).rd (.cal .failStep) = n) ∧
      (ok = true → (calStepDone ok u temps s).rd (.cal .puBad) = s.rd (.cal .puBad)) := by
  have e : calStepDone ok u temps s =
      (if n = 7 then
        { if ok then s else s.calBad n u with
          cal := { (if ok then s else s.calBad n u).cal with scejoT := (if ok then s else s.calBad n u).sensorTemp 10 } }
      else if ok then s else s.calBad n u).wr (.cal .puStep) 0 (n + 1) := by
    unfold calStepDone
    rw [hup, if_neg (by decide)]
    split
    · omega
    · omega
    · omega
    · omega
    · rw [h]
  have hrd (f : CalF) : (if n = 7 then
        { if ok then s else s.calBad n u with
          cal := { (if ok then s else s.calBad n u).cal with scejoT := (if ok then s else s.calBad n u).sensorTemp 10 } }
      else if ok then s else s.calBad n u).rd (.cal f) = (if ok then s else s.calBad n u).rd (.cal f) := by
    split
    · rfl
    · rfl
  have hne {f : CalF} (hf : f ≠ .puStep) : (calStepDone ok u temps s).rd (.cal f) = (if ok then s else s.calBad n u).rd (.cal f) := by
    rw [e, State.rd_wr_cal_ne _ hf, hrd]
  refine ⟨?_, fun hok => ?_, fun hok => ?_⟩
  · rw [e]
    exact (State.rd_wr_same _ rfl _).trans (Nat.mod_eq_of_lt (show n + 1 < 16 by omega))
  · rw [hne (by decide), hne (by decide), hne (by decide), hok, if_neg Bool.false_ne_true]
    simp only [State.calBad, State.calFailure, State.ev_eq]
    refine ⟨State.rd_wr_same _ rfl 1, ?_, ?_⟩
    · rw [State.rd_wr_cal_ne _ (by decide)]
      exact State.rd_wr_same _ rfl 1
    · rw [State.rd_wr_cal_ne _ (by decide), State.rd_wr_cal_ne _ (by decide), State.rd_wr_cal_ne _ (by decide)]
      exact (State.rd_wr_same _ rfl _).trans (Nat.mod_eq_of_lt (show n < 16 by omega))
  · rw [hne (by decide), hok, if_pos rfl]

/-- Stations follow each other in step 8; the last one ends it (R363). -/
theorem calStepDone_stations (h : s.rd (.cal .puStep) = 8) :
    (s.cal.station < 7 → (calStepDone ok u temps s).cal.station = s.cal.station + 1) ∧
      (7 ≤ s.cal.station → (calStepDone ok u temps s).rd (.cal .puStep) = 9) := by
  simp only [calStepDone, hup, h, Bool.not_true, Bool.false_eq_true, if_false]
  refine ⟨fun h7 => ?_, fun h7 => ?_⟩
  · rw [if_pos h7]
  · rw [if_neg (Nat.not_lt.mpr h7)]
    exact State.rd_wr_same _ rfl 9

theorem calStepDone_last (h : s.rd (.cal .puStep) = 9) : (calStepDone ok u temps s).rd (.cal .puStep) = 0 ∧
    (calStepDone ok u temps s).rd (.cal .puDone) = 1 ∧ (ok = false → (calStepDone ok u temps s).rd (.cal .puBad) = 1) := by
  simp only [calStepDone, hup, h, Bool.not_true, Bool.false_eq_true, if_false, State.ev_eq]
  refine ⟨?_, State.rd_wr_same _ rfl 1, fun hok => ?_⟩
  · rw [State.rd_wr_cal_ne _ (by decide)]
    exact State.rd_wr_same _ rfl 0
  · rw [State.rd_wr_cal_ne _ (by decide), State.rd_wr_cal_ne _ (by decide), hok, if_neg Bool.false_ne_true]
    exact State.rd_wr_same (f := .cal .puBad) (i := 0) (s.calFailure 9 u) rfl 1

end Steps

/-! #### Conversions (R367 to R369) -/

/-- Requests mark their sensors busy, and leave the others. -/
theorem State.rd_requests (s : State) (p : Nat → Bool) (n i : Nat) :
    ((List.range n).foldl (fun t j => if p j then t.ev (.cal .mbusy) j else t) s).rd (.cal .mbusy) i =
      if i < n ∧ p i = true then 1 else s.rd (.cal .mbusy) i := by
  induction n with
  | zero => simp
  | succ n ih =>
    rw [List.range_succ, List.foldl_append, List.foldl_cons, List.foldl_nil]
    generalize (List.range n).foldl (fun t j => if p j then t.ev (.cal .mbusy) j else t) s = t at ih
    by_cases hin : i = n
    · subst hin
      cases hp : p i with
      | true =>
        rw [if_pos rfl, if_pos ⟨Nat.lt_succ_self _, rfl⟩]
        exact State.rd_wr_same t (f := .cal .mbusy) rfl 1
      | false => simp [ih]
    · have hrd : (if p n then t.ev (.cal .mbusy) n else t).rd (.cal .mbusy) i = t.rd (.cal .mbusy) i := by
        split
        · exact t.rd_wr_ne (fun e => hin (congrArg Prod.snd e)) 1
        · rfl
      have hlt : i < n + 1 ↔ i < n := by omega
      simp only [hrd, ih, hlt]

theorem exec_mayflySweep (h : (s.up .ctl && s.on (.cal .sweepEn)) = true) :
    exec .mayflySweep s = .next ((List.range 16).foldl (fun t i => if (fun _ : Nat => true) i then t.ev (.cal .mbusy) i else t) s) :=
  congrArg Host.Outcome.next (if_pos h)

theorem exec_mayflyRequest (hup : s.up .ctl = true) (hr : s.Reaches .cal 0) (v : Word) : exec (.mayflyRequest v) s =
    .next ((List.range 16).foldl (fun t i => if decide (v.toNat / 2 ^ i % 2 = 1) then t.ev (.cal .mbusy) i else t) s) := by
  simp [exec, execMayflyRequest, State.hostWrite_of_reaches hr, hup, guardWF_true]

/-- The fields that a drift check writes (R371). -/
def driftField (f : CalF) : Bool := f == .need || f == .busy || f == .pend

theorem State.rd_recalRequest (s : State) (k : Nat) {f : CalF} (hf : driftField f = false) (i : Nat) :
    (s.recalRequest k).rd (.cal f) i = s.rd (.cal f) i := by
  have hne {g : CalF} (hg : driftField g = true) : f ≠ g := fun e => Bool.noConfusion (hf.symm.trans (e ▸ hg))
  unfold State.recalRequest
  split
  · rfl
  · split
    · exact s.rd_wr_cal_ne (hne rfl) ..
    · unfold State.recalBegin State.settleReady
      dsimp only
      rw [State.wrB_eq, State.rd_wr_ne _ (by simp)]
      exact (State.rd_wr_cal_ne _ (hne rfl) ..).trans (s.rd_wr_cal_ne (hne rfl) ..)

theorem State.rd_driftCheck (s : State) (k : Nat) {f : CalF} (hf : driftField f = false) (i : Nat) :
    (s.driftCheck k).rd (.cal f) i = s.rd (.cal f) i := by
  have hne : f ≠ .need := fun e => by rw [e] at hf; exact absurd hf (by decide)
  unfold State.driftCheck
  split
  · rfl
  · dsimp only
    split
    · split
      · exact (State.rd_post _ (f := .cal f) (show Block.cal ≠ .mbx by decide) ..).trans (s.rd_wr_cal_ne hne ..)
      · exact (State.rd_recalRequest _ _ hf _).trans (s.rd_wr_cal_ne hne ..)
    · rfl

/-- The sensor's conversion is taken over before the drift check (R368). -/
def State.converted (s : State) (i : Nat) (temp : Option Int) : State :=
  let s := (s.clr (.cal .mbusy) i).count (.cal .conv) i
  if s.on (.cal .dead) i then s
  else
    match temp with
    | some t => if livingRange t then (s.wrS (.cal .temp) i t).rateCheck i t else s.sensorDies i
    | none => s.sensorDies i

theorem exec_mayflyConversionDone (hup : s.up .ctl = true) {i : Nat}
    (h : ((List.range 16).find? fun j => s.on (.cal .mbusy) j) = some i) (temp : Option Int) :
    exec (.mayflyConversionDone temp) s = .next (if i < 8 then (s.converted i temp).driftCheck i else s.converted i temp) := by
  change guardWF true (mayflyConversionDone temp s) = _
  unfold mayflyConversionDone
  rw [hup, h, if_neg (by decide), guardWF_true]
  rfl

/-- Fields that a drift check leaves, after a conversion. -/
theorem State.rd_afterConversion (s : State) (i : Nat) (temp : Option Int) {f : CalF} (hf : driftField f = false) (j : Nat) :
    (if i < 8 then (s.converted i temp).driftCheck i else s.converted i temp).rd (.cal f) j = (s.converted i temp).rd (.cal f) j := by
  split
  · exact State.rd_driftCheck _ _ hf j
  · rfl

theorem State.rd_setRef (s : State) (i : Nat) (t : Int) (f : Fld) (j : Nat) : (s.setRef i t).rd f j = s.rd f j := rfl

theorem State.rd_rateCheck (s : State) (i : Nat) (t : Int) {f : CalF} (hm : f ≠ .mrate) (he : f ≠ .riseEv) (j : Nat) :
    (s.rateCheck i t).rd (.cal f) j = s.rd (.cal f) j := by
  unfold State.rateCheck
  split
  · rfl
  · dsimp only
    split
    · rfl
    · rw [State.rd_setRef]
      split
      · exact (State.rd_wr_cal_ne _ he ..).trans (State.rd_wr_cal_ne _ hm ..)
      · exact State.rd_wr_cal_ne _ hm ..

/-- The state in which a conversion has been counted. -/
def State.counted (s : State) (i : Nat) : State := (s.clr (.cal .mbusy) i).count (.cal .conv) i

theorem State.rd_counted (s : State) (i : Nat) {f : CalF} (hm : f ≠ .mbusy) (hc : f ≠ .conv) (j : Nat) :
    (s.counted i).rd (.cal f) j = s.rd (.cal f) j := (State.rd_wr_cal_ne _ hc ..).trans (s.rd_wr_cal_ne hm ..)

theorem State.rd_mbusy_counted (s : State) (i : Nat) : (s.counted i).rd (.cal .mbusy) i = 0 :=
  (State.rd_wr_cal_ne _ (by decide) ..).trans (State.rd_wr_same s (f := .cal .mbusy) rfl 0)

theorem State.converted_dead {i : Nat} (h : s.on (.cal .dead) i = true) (temp : Option Int) : s.converted i temp = s.counted i := by
  have hd : (s.counted i).on (.cal .dead) i = true := by rw [State.on, s.rd_counted i (by decide) (by decide)]; exact h
  exact if_pos hd

theorem State.converted_none {i : Nat} (h : s.on (.cal .dead) i = false) : s.converted i none = (s.counted i).sensorDies i := by
  have hd : (s.counted i).on (.cal .dead) i = false := by rw [State.on, s.rd_counted i (by decide) (by decide)]; exact h
  exact if_neg fun ht => Bool.false_ne_true (hd.symm.trans ht)

theorem State.converted_some {i : Nat} (h : s.on (.cal .dead) i = false) {x : Int} (h1 : -550 ≤ x) (h2 : x ≤ 1500) :
    s.converted i (some x) = ((s.counted i).wrS (.cal .temp) i x).rateCheck i x := by
  have hd : (s.counted i).on (.cal .dead) i = false := by rw [State.on, s.rd_counted i (by decide) (by decide)]; exact h
  exact (if_neg fun ht => Bool.false_ne_true (hd.symm.trans ht)).trans (if_pos (by simp [livingRange, h1, h2]))

theorem State.rdS_temp_wrS (s : State) (i : Nat) {x : Int} (h1 : -32768 ≤ x) (h2 : x < 32768) :
    (s.wrS (.cal .temp) i x).rdS (.cal .temp) i = x := by
  have hr : (s.wrS (.cal .temp) i x).rd (.cal .temp) i = ofSigned 16 x :=
    (State.rd_wr_same s (f := .cal .temp) rfl _).trans (Nat.mod_eq_of_lt (by
      show (x % (2 ^ 16 : Int)).toNat < 2 ^ 16
      have := Int.emod_nonneg x (show (2 ^ 16 : Int) ≠ 0 by decide)
      have := Int.emod_lt_of_pos x (show (0 : Int) < 2 ^ 16 by decide)
      omega))
  exact (congrArg (toSigned 16) hr).trans (toSigned_ofSigned (by decide) (by simpa using h1) (by simpa using h2))

/-- A dead sensor reads 2,000 and raises the event of a rise (R368, R369). -/
theorem State.sensorDies_spec (s : State) (i : Nat) : (s.sensorDies i).rd (.cal .mbusy) i = s.rd (.cal .mbusy) i ∧
    (s.sensorDies i).rdS (.cal .temp) i = 2000 ∧ (s.sensorDies i).rd (.cal .dead) i = 1 ∧ (s.sensorDies i).rd (.cal .riseEv) i = 1 := by
  have ht := s.rdS_temp_wrS i (x := 2000) (by decide) (by decide)
  unfold State.sensorDies
  simp only [State.rdS, State.ev_eq] at ht ⊢
  refine ⟨?_, ?_, ?_, State.rd_wr_same _ rfl 1⟩
  · rw [State.rd_wr_cal_ne _ (by decide), State.rd_wr_cal_ne _ (by decide)]
    exact s.rd_wr_cal_ne (by decide) ..
  · rw [State.rd_wr_cal_ne _ (by decide), State.rd_wr_cal_ne _ (by decide)]
    exact ht
  · rw [State.rd_wr_cal_ne _ (by decide)]
    exact State.rd_wr_same _ rfl 1

end Calibration

/-- Settles O50: the running step, and the lowest pending sensor, each by their cases. -/
theorem calibrationSteps : Obligations.CalibrationSteps := by
  refine ⟨fun s ok u temps hup => ⟨exec_calStepDone_idle hup ok u temps, fun h => ⟨_, rfl, calStepDone_sensors hup ok u temps h⟩,
    fun h2 h7 => ⟨_, rfl, calStepDone_between hup ok u temps rfl h2 h7⟩, fun h h7 => ⟨_, rfl, (calStepDone_stations hup ok u temps h).1 h7⟩,
    fun h h7 => ⟨_, rfl, (calStepDone_stations hup ok u temps h).2 h7⟩, fun h => ⟨_, rfl, calStepDone_last hup ok u temps h⟩⟩,
    fun s hup => ⟨fun h => ?_, fun h => ?_, fun v hr => ?_, fun i x hi hd => ?_, fun i hi hd => ⟨?_, fun x h1 h2 => ?_⟩, fun h x => ?_⟩⟩
  · refine ⟨_, exec_mayflySweep (by simp [hup, h]), fun i hi => ?_⟩
    rw [State.rd_requests, if_pos ⟨hi, rfl⟩]
  · exact congrArg Host.Outcome.next (if_neg (by simp [h]))
  · refine ⟨_, exec_mayflyRequest hup hr v, fun i hi => ?_⟩
    have hbit : v.getLsbD i = decide (v.toNat / 2 ^ i % 2 = 1) := by
      rw [← BitVec.testBit_toNat, Nat.testBit_eq_decide_div_mod_eq]
    rw [State.on, State.rd_requests (p := fun i => decide (v.toNat / 2 ^ i % 2 = 1)), hbit]
    cases decide (v.toNat / 2 ^ i % 2 = 1) with
    | true => simp [hi]
    | false => simp [State.on]
  · refine ⟨_, exec_mayflyConversionDone hup hi x, ?_, ?_⟩
    · rw [State.rd_afterConversion _ _ _ rfl, State.converted_dead hd, State.rd_mbusy_counted]
    · rw [State.rd_afterConversion _ _ _ rfl, State.converted_dead hd, State.rd_counted _ _ (by decide) (by decide)]
  · obtain ⟨h1, h2, h3, h4⟩ := (s.counted i).sensorDies_spec i
    have hc {f : CalF} (hf : driftField f = false) : (if i < 8 then (s.converted i none).driftCheck i else s.converted i none).rd (.cal f) i =
        ((s.counted i).sensorDies i).rd (.cal f) i := by
      rw [State.rd_afterConversion _ _ _ hf, State.converted_none hd]
    exact ⟨_, exec_mayflyConversionDone hup hi none, (hc rfl).trans (h1.trans (s.rd_mbusy_counted i)),
      (congrArg (toSigned 16) (hc (f := .temp) rfl)).trans h2, (hc rfl).trans h3, (hc rfl).trans h4⟩
  · have hr {f : CalF} (hf : driftField f = false) (hm : f ≠ .mrate) (he : f ≠ .riseEv) :
        (if i < 8 then (s.converted i (some x)).driftCheck i else s.converted i (some x)).rd (.cal f) i =
          ((s.counted i).wrS (.cal .temp) i x).rd (.cal f) i := by
      rw [State.rd_afterConversion _ _ _ hf, State.converted_some hd h1 h2, State.rd_rateCheck _ _ _ hm he]
    refine ⟨_, exec_mayflyConversionDone hup hi (some x), (hr rfl (by decide) (by decide)).trans ?_,
      (congrArg (toSigned 16) (hr (f := .temp) rfl (by decide) (by decide))).trans
        ((s.counted i).rdS_temp_wrS i (by omega) (by omega)), (hr rfl (by decide) (by decide)).trans ?_⟩
    · exact (State.rd_wr_cal_ne _ (by decide) ..).trans (s.rd_mbusy_counted i)
    · refine (State.rd_wr_cal_ne _ (by decide) ..).trans ((s.rd_counted i (by decide) (by decide) i).trans ?_)
      simpa [State.on] using hd
  · have hnone : ((List.range 16).find? fun j => s.on (.cal .mbusy) j) = none := by
      simpa [List.find?_eq_none] using h
    simp [exec, execMayflyConversionDone, mayflyConversionDone, hnone, guardWF_true]


/-! ### Recalibration and the results set (O51: R364, R372 to R374) -/

section Recalibration

variable {s : State} {k : Nat}

theorem exec_recal {v : Word} (hup : s.up .ctl = true) (h1 : calOp v = 1) (hr : s.Reaches .cal 0) : exec (.recal v) s =
    .next (if s.recalRefused (calStation v) then s.calRefuse else s.recalRequest (calStation v)) := by
  simp [exec, execRecal, h1, State.hostWrite_of_reaches hr, hup, guardWF_true]

theorem State.recalRequest_of_not_refused (h : s.recalRefused k = false) :
    s.recalRequest k = if s.busy k then s.ev (.cal .pend) k else s.recalBegin k :=
  if_neg fun ht => Bool.false_ne_true (h.symm.trans ht)

/-- A station that may be recalibrated stands on the module (R373). -/
theorem State.lt_stations_of_not_refused (h : s.recalRefused k = false) : k < s.hw.stations := by
  simp only [State.recalRefused, State.stationConfigured, Bool.or_eq_false_iff, Bool.not_eq_false', Bool.and_eq_true,
    decide_eq_true_eq] at h
  exact h.1.1.2.1

theorem populated_need (hk : k < s.hw.stations) : populated s.hw (.cal .need) k = true := decide_eq_true hk
theorem populated_busy (hk : k < s.hw.stations) : populated s.hw (.cal .busy) k = true := decide_eq_true hk
theorem populated_pend (hk : k < s.hw.stations) : populated s.hw (.cal .pend) k = true := decide_eq_true hk

theorem State.rd_cal_settleReady (s : State) (k : Nat) (f : CalF) (i : Nat) :
    (s.settleReady k).rd (.cal f) i = s.rd (.cal f) i := by
  rw [State.settleReady, State.wrB_eq, State.rd_wr_ne _ (by simp)]

theorem State.recal_settleReady (s : State) (k : Nat) : ((s.settleReady k).stn k).recal = (s.stn k).recal := by
  rw [State.settleReady, State.wrB_eq, State.stn_wr]

/-- A recalibration that begins is no longer pending, and holds its station (R372). -/
theorem State.recalBegin_spec (hk : k < s.hw.stations) : (s.recalBegin k).rd (.cal .busy) k = 1 ∧
    (s.recalBegin k).rd (.cal .pend) k = 0 ∧ ((s.recalBegin k).stn k).recal = true := by
  unfold State.recalBegin
  dsimp only
  rw [State.rd_cal_settleReady, State.rd_cal_settleReady, State.recal_settleReady, State.rd_setStn, State.rd_setStn,
    State.stn_setStn_same]
  refine ⟨?_, ?_, rfl⟩
  · exact State.rd_wr_same _ (populated_busy (by rw [State.clr_eq, State.wr_hw]; exact hk)) 1
  · rw [State.ev_eq, State.rd_wr_cal_ne _ (by decide)]
    exact State.rd_wr_same _ (populated_pend hk) 0

theorem exec_recalStart (hk : k < 8) (hup : s.up .ctl = true) :
    exec (.recalStart k) s = .next (if s.on (.cal .pend) k && !s.busy k then s.recalBegin k else s) := by
  simp [exec, execRecalStart, hk, hup, guardWF_true]

theorem exec_recalDone (hk : k < 8) (ok : Bool) (s : State) : exec (.recalDone k ok) s = .next (recalDone k ok s) := by
  simp [exec, execRecalDone, hk, guardWF_true]

/-- The state of a station whose measurement has ended. -/
def State.measureEnded (s : State) (k : Nat) : State :=
  (s.clr (.cal .busy) k).setStn k { (s.clr (.cal .busy) k).stn k with recal := false }

theorem recalDone_eq (hup : s.up .ctl = true) (hb : s.on (.cal .busy) k = true) (ok : Bool) :
    recalDone k ok s = (if ok then (s.measureEnded k).stationPass k else (s.measureEnded k).stationFail k).settleReady k :=
  if_pos (by rw [hup, hb]; rfl)

/-- What a measurement, passed or failed, leaves of its station. -/
theorem State.stationPass_spec (hk : k < s.hw.stations) : (s.stationPass k).rd (.cal .busy) k = s.rd (.cal .busy) k ∧
    ((s.stationPass k).stn k).recal = (s.stn k).recal ∧ (s.stationPass k).rd (.cal .need) k = 0 ∧ k ∉ (s.stationPass k).cal.bad := by
  unfold State.stationPass
  extract_lets t u c kept
  have ht : t.hw = s.hw ∧ t.rd (.cal .busy) k = s.rd (.cal .busy) k ∧ (t.stn k).recal = (s.stn k).recal := by
    unfold t
    split
    · exact ⟨State.wr_hw .., s.rd_wr_cal_ne (by decide) .., congrArg Stn.recal (State.stn_wr ..)⟩
    · exact ⟨rfl, rfl, rfl⟩
  obtain ⟨hh, hb, hr⟩ := ht
  clear_value t
  refine ⟨?_, ?_, ?_, ?_⟩
  · exact (t.rd_wr_cal_ne (f := .need) (g := .busy) (by decide) k k 0).trans hb
  · exact (congrArg Stn.recal (t.stn_wr (.cal .need) k 0 k)).trans hr
  · exact State.rd_wr_same t (populated_need (hh ▸ hk)) 0
  · simp

theorem State.stationFail_spec (hk : k < 8) : (s.stationFail k).rd (.cal .busy) k = s.rd (.cal .busy) k ∧
    ((s.stationFail k).stn k).recal = (s.stn k).recal ∧ (s.stationFail k).rd (.cal .calFail) = 1 ∧
    (s.stationFail k).rd (.cal .failStep) = 8 ∧ (s.stationFail k).rd (.cal .failUnit) = k ∧ k ∈ (s.stationFail k).cal.bad := by
  have hf (f : CalF) (i : Nat) : (s.stationFail k).rd (.cal f) i = (s.calFailure 8 k).rd (.cal f) i := rfl
  simp only [hf]
  unfold State.calFailure
  simp only [State.ev_eq]
  refine ⟨?_, ?_, State.rd_wr_same _ rfl 1, ?_, ?_, List.mem_cons_self ..⟩
  · rw [State.rd_wr_cal_ne _ (by decide), State.rd_wr_cal_ne _ (by decide)]
    exact s.rd_wr_cal_ne (by decide) ..
  · exact congrArg Stn.recal ((State.stn_wr ..).trans ((State.stn_wr ..).trans (State.stn_wr ..)))
  · rw [State.rd_wr_cal_ne _ (by decide), State.rd_wr_cal_ne _ (by decide)]
    exact State.rd_wr_same s (f := .cal .failStep) rfl 8
  · rw [State.rd_wr_cal_ne _ (by decide)]
    exact (State.rd_wr_same _ rfl k).trans (Nat.mod_eq_of_lt (show k < 256 by omega))

theorem State.measureEnded_spec (hk : k < s.hw.stations) : (s.measureEnded k).hw = s.hw ∧ (s.measureEnded k).rd (.cal .busy) k = 0 ∧
    ((s.measureEnded k).stn k).recal = false := by
  refine ⟨State.wr_hw .., State.rd_wr_same s (populated_busy hk) 0, ?_⟩
  rw [State.measureEnded, State.stn_setStn_same]

/-- A measurement that ends frees its station; one that passes clears NEED (R364, R372). -/
theorem recalDone_spec (hup : s.up .ctl = true) (hk : k < s.hw.stations) (h8 : k < 8) (hb : s.on (.cal .busy) k = true) (ok : Bool) :
    (recalDone k ok s).rd (.cal .busy) k = 0 ∧ ((recalDone k ok s).stn k).recal = false ∧
      (ok = true → (recalDone k ok s).rd (.cal .need) k = 0 ∧ k ∉ (recalDone k ok s).cal.bad) ∧
      (ok = false → (recalDone k ok s).rd (.cal .calFail) = 1 ∧ (recalDone k ok s).rd (.cal .failStep) = 8 ∧
        (recalDone k ok s).rd (.cal .failUnit) = k ∧ k ∈ (recalDone k ok s).cal.bad) := by
  obtain ⟨hh, h0, hr⟩ := s.measureEnded_spec hk
  have hc (t : State) : (t.settleReady k).cal = t.cal := State.wr_cal ..
  rw [recalDone_eq hup hb]
  simp only [State.rd_cal_settleReady, State.recal_settleReady, hc]
  cases ok with
  | true =>
    obtain ⟨h1, h2, h3, h4⟩ := State.stationPass_spec (s := s.measureEnded k) (hh ▸ hk)
    exact ⟨h1.trans h0, h2.trans hr, fun _ => ⟨h3, h4⟩, Bool.noConfusion⟩
  | false =>
    obtain ⟨h1, h2, h3⟩ := State.stationFail_spec (s := s.measureEnded k) h8
    exact ⟨h1.trans h0, h2.trans hr, Bool.noConfusion, fun _ => h3⟩

/-! #### Snapshot and restore (R374) -/

/-- Words written one after the other from index `n` on read back, word by word. -/
theorem State.rd_snapshot (l : List Nat) (n i : Nat) (s : State) :
    ((l.zipIdx n).foldl (fun t e => t.wr (.cal .snapshot) e.2 e.1) s).rd (.cal .snapshot) i =
      if n ≤ i ∧ i < n + l.length then l.getD (i - n) 0 % 2 ^ 32 else s.rd (.cal .snapshot) i := by
  induction l generalizing n s with
  | nil => simp
  | cons w l ih =>
    rw [List.zipIdx_cons, List.foldl_cons, ih]
    by_cases hi : i = n
    · subst hi
      rw [if_neg (by omega), if_pos (by simp)]
      rw [Nat.sub_self, List.getD_cons_zero]
      exact State.rd_wr_same s (f := .cal .snapshot) (i := i) rfl w
    · have hrd : (s.wr (.cal .snapshot) n w).rd (.cal .snapshot) i = s.rd (.cal .snapshot) i :=
        s.rd_wr_ne (fun e => hi (congrArg Prod.snd e)) w
      rw [hrd]
      by_cases hlt : n ≤ i ∧ i < n + (w :: l).length
      · have hlen : i < n + (l.length + 1) := hlt.2
        obtain ⟨d, rfl⟩ : ∃ d, i = n + 1 + d := ⟨i - (n + 1), by omega⟩
        rw [if_pos (by omega), if_pos hlt, show n + 1 + d - (n + 1) = d by omega, show n + 1 + d - n = d + 1 by omega,
          List.getD_cons_succ]
      · rw [if_neg hlt, if_neg]
        simp only [List.length_cons] at hlt
        omega

theorem State.length_results (s : State) : s.results.length = 512 := by
  simp [State.results, State.resultBody]

theorem exec_snap {v : Word} (hup : s.up .ctl = true) (h2 : calOp v = 2) (hr : s.Reaches .cal 0) : exec (.snap v) s =
    .next (s.results.zipIdx.foldl (fun t e => t.wr (.cal .snapshot) e.2 e.1) s) := by
  simp [exec, execSnap, h2, State.hostWrite_of_reaches hr, hup, guardWF_true]

theorem exec_restore_refused {v : Word} (hup : s.up .ctl = true) (h3 : calOp v = 3) (hr : s.Reaches .cal 0) (h : s.restoreOk = false) :
    exec (.restore v) s = .next (s.wr (.cal .cmdErr) 0 1) := by
  simp [exec, execRestore, h3, State.hostWrite_of_reaches hr, hup, h, guardWF_true, State.calRefuse, State.ev_eq]

theorem exec_restore_taken {v : Word} (hup : s.up .ctl = true) (h3 : calOp v = 3) (hr : s.Reaches .cal 0) (h : s.restoreOk = true) :
    ∃ t, exec (.restore v) s = .next t ∧ t.rd (.cal .restored) = 1 := by
  have hwf : (calOp v == 3) = true := by simp [h3]
  change ∃ t, execRestore v s = .next t ∧ _
  rw [execRestore, hwf, guardWF_true, State.hostWrite_of_reaches hr, hup, h]
  refine ⟨_, congrArg Host.Outcome.next ((if_neg (by decide)).trans (if_neg (by decide))), ?_⟩
  exact State.rd_wr_same _ rfl 1

end Recalibration

/-- Settles O51: requests, measurements and the results set, each by its guard. -/
theorem stationsRecalibrate : Obligations.StationsRecalibrate := by
  intro s hup
  refine ⟨fun v k h1 hv hr => ?_, fun k hk h8 => ⟨fun hp hb => ⟨s.recalBegin k, ?_, State.recalBegin_spec hk⟩, fun h => ?_,
    fun hb ok => ⟨_, exec_recalDone h8 ok s, recalDone_spec hup hk h8 hb ok⟩, fun hb ok => ?_⟩,
    fun v h2 hr => ⟨_, exec_snap hup h2 hr, fun i hi => ?_⟩,
    fun v h3 hr => ⟨exec_restore_refused hup h3 hr, exec_restore_taken hup h3 hr⟩⟩
  · subst hv
    rw [exec_recal hup h1 hr]
    refine ⟨fun h => ?_, fun h hb => ?_, fun h hb => ⟨_, ?_, State.recalBegin_spec (State.lt_stations_of_not_refused h)⟩⟩
    · rw [if_pos h]
      rfl
    · rw [h, if_neg Bool.false_ne_true, State.recalRequest_of_not_refused h, if_pos hb]
      rfl
    · rw [h, if_neg Bool.false_ne_true, State.recalRequest_of_not_refused h, hb, if_neg Bool.false_ne_true]
  · rw [exec_recalStart h8 hup, if_pos (by simp [hp, hb])]
  · rw [exec_recalStart h8 hup, if_neg (by obtain h | h := h <;> simp [h])]
  · rw [exec_recalDone h8, recalDone, if_neg (by simp [hb])]
  · rw [State.rd_snapshot, s.length_results, if_pos (by omega), Nat.sub_zero]


/-! ### Joint admission (O48: R307, R315 to R320) -/

/-- A module of a ring of two that is out of reset: the master where `strap` is high, a slave where it is low. -/
def ringModule (strap : Strap) : State :=
  { State.reset.wr (.csl .nmod) 0 1 with
    inReset := []
    hw := { State.reset.hw with msel := strap }
    ldr := { st := .loaded, sections := [{ ty := 14, inst := 0, feature0 := true }] } }

/-- A master whose page store lists sheet context 255 twice: an entry of a free context hides the one that is being imaged under tag 7. No
run lists a context twice, but neither the statement nor `State.Sound` rules it out. -/
def hiddenImaging : State :=
  { ringModule .high with loam := { ctxs := [(255, {}), (255, { st := .imaging, tag := 7 })] } }

theorem byTag_hiddenImaging : hiddenImaging.byTag 7 = some 255 := by decide

theorem exec_spoiled_hiddenImaging :
    exec (.slaveReportRx 1 (.spoiled 7)) hiddenImaging = .next (slaveReportRx 1 (.spoiled 7) hiddenImaging) := rfl

theorem st_spoiled_hiddenImaging : ((slaveReportRx 1 (.spoiled 7) hiddenImaging).ctx 255).st = .free := by decide

/-- Refutes O48: the report SPOILED of a tag whose imaging entry is hidden by a free one of the same context spoils nothing. -/
theorem not_theRingAdmitsTogether : ¬ Obligations.TheRingAdmitsTogether := by
  intro h
  obtain ⟨-, hm⟩ := h hiddenImaging (by decide)
  obtain ⟨-, -, -, -, -, -, hspoil, -⟩ := hm (by decide)
  obtain ⟨t, ht, hst⟩ := hspoil 1 7 255 (by decide) (by decide) byTag_hiddenImaging
  obtain rfl : slaveReportRx 1 (.spoiled 7) hiddenImaging = t := Host.Outcome.next.inj (exec_spoiled_hiddenImaging.symm.trans ht)
  rw [st_spoiled_hiddenImaging] at hst
  exact absurd hst (by decide)

/-! ### Engine time (O47: R312, R313, R318, R321) -/

/-- A slave whose page store lists sheet context 254 twice: its second entry alone makes station 1 busy, and the first makes station 0 busy.
Context 255 is exposed and stands in the queue of station 1. -/
def hiddenBusy : State :=
  { ringModule .low with
    loam := { ctxs := [(254, { st := .imaging, planes := 1 }), (254, { st := .imaging, planes := 2 }), (255, { st := .exposed })] }
    stns := [(0, { queue := [{ ctx := 254 }] }), (1, { queue := [{ ctx := 255 }] })] }

theorem exec_positionTimeout_hiddenBusy : exec .positionTimeout hiddenBusy = .next (positionTimeout hiddenBusy) := rfl

theorem st_positionTimeout_hiddenBusy : ((positionTimeout hiddenBusy).ctx 255).st = .exposed := by decide

/-- Refutes O47: spoiling what station 0 images drops the second entry of its context, so station 1, busy before, is passed over. -/
theorem not_engineTimeIsShared : ¬ Obligations.EngineTimeIsShared := by
  intro h
  obtain ⟨-, -, hs, -⟩ := h hiddenBusy (by decide)
  obtain ⟨-, -, -, -, -, ⟨t, ht, -, hspoil⟩, -⟩ := hs (by decide)
  obtain rfl : positionTimeout hiddenBusy = t := Host.Outcome.next.inj (exec_positionTimeout_hiddenBusy.symm.trans ht)
  have hst := hspoil 1 255 (by decide) (by decide) (by decide) (by decide)
  rw [st_positionTimeout_hiddenBusy] at hst
  exact absurd hst (by decide)


/-! ### The ring (O46: R309, R311, R312, R321, R322) -/

theorem State.inRing_eq {s : State} (hup : s.up .csl = true) : s.inRing = (s.cslRole != 0) := by
  rw [State.inRing, hup, Bool.true_and]

/-- Which module a cascade makes of this one does not show in its fields but NMOD. -/
theorem State.cslRole_wr (s : State) {f : CslF} (hf : f ≠ .nmod) (i v : Nat) : (s.wr (.csl f) i v).cslRole = s.cslRole := by
  have hn : (s.wr (.csl f) i v).rd (.csl .nmod) = s.rd (.csl .nmod) := s.rd_wr_ne (by simp [Ne.symm hf]) v
  have ho : (s.wr (.csl f) i v).rd (.rstc .ob) = s.rd (.rstc .ob) := s.rd_wr_ne (by simp) v
  unfold State.cslRole State.masterStrap
  rw [hn, ho, State.wr_ldr, State.wr_hw]

/-- A cascade field reads what is written to it; the other ones are as before. -/
theorem State.rd_wr_csl (s : State) (f g : CslF) (i j v : Nat) :
    (s.wr (.csl f) i v).rd (.csl g) j = if g = f ∧ j = i then v % 2 ^ (Fld.csl f).row.width else s.rd (.csl g) j := by
  have hp : populated s.hw (.csl f) i = true := rfl
  simp [State.rd_wr, hp]

/-- Settling the upstream port writes its number, or nothing while no port that is up has a beacon. -/
theorem State.settleUpstream_cases (s : State) : s.settleUpstream = s ∨ ∃ v, s.settleUpstream = s.wr (.csl .upstream) 0 v := by
  unfold State.settleUpstream
  dsimp only
  split
  · exact .inr ⟨_, rfl⟩
  · exact .inr ⟨_, rfl⟩
  · exact .inr ⟨_, rfl⟩
  · exact .inl rfl

theorem State.csl_settleUpstream (s : State) : s.settleUpstream.csl = s.csl := by
  obtain h | ⟨v, h⟩ := s.settleUpstream_cases <;> rw [h]
  exact State.wr_csl ..

theorem State.out_settleUpstream (s : State) : s.settleUpstream.out = s.out := by
  obtain h | ⟨v, h⟩ := s.settleUpstream_cases <;> rw [h]
  exact State.wr_out ..

theorem State.rd_settleUpstream (s : State) {f : CslF} (hf : f ≠ .upstream) (i : Nat) :
    s.settleUpstream.rd (.csl f) i = s.rd (.csl f) i := by
  obtain h | ⟨v, h⟩ := s.settleUpstream_cases <;> rw [h]
  rw [State.rd_wr_csl, if_neg fun e => hf e.1]

/-! #### Beacons -/

theorem exec_beaconTx_master {s : State} (hup : s.up .csl = true) (hr : s.cslRole = 1) :
    exec .beaconTx s = .next ((s.emit (.scejo .a 1 [1])).emit (.scejo .b 1 [1])) := by
  have hm : s.isMaster = true := by rw [State.isMaster, hr]; rfl
  simp [exec, execBeaconTx, guardWF_true, s.inRing_eq hup, hr, hm, State.broadcast]

theorem exec_beaconTx_idle {s : State} (hr : s.cslRole ≠ 1) : exec .beaconTx s = .next s := by
  have hm : s.isMaster = false := by simp [State.isMaster, hr]
  simp [exec, execBeaconTx, guardWF_true, hm]

/-- A beacon's firmware version sets VER_ERR where it is not this module's. -/
def State.seenVersion (s : State) (ver : Nat) : State := if ver = s.rd (.ldr .fwMajor) then s else s.ev (.csl .verErr)

theorem State.seenVersion_same {s : State} {ver : Nat} (h : ver = s.rd (.ldr .fwMajor)) : s.seenVersion ver = s := if_pos h

theorem State.rd_seenVersion {s : State} {ver : Nat} (h : ver ≠ s.rd (.ldr .fwMajor)) :
    (s.seenVersion ver).rd (.csl .verErr) = 1 := by
  rw [State.seenVersion, if_neg h, State.ev_eq, State.rd_wr_csl, if_pos ⟨rfl, rfl⟩]
  rfl

theorem State.rd_seenVersion_ne (s : State) (ver : Nat) {f : CslF} (hf : f ≠ .verErr) (i : Nat) :
    (s.seenVersion ver).rd (.csl f) i = s.rd (.csl f) i := by
  unfold State.seenVersion
  split
  · rfl
  · rw [State.ev_eq, State.rd_wr_csl, if_neg fun e => hf e.1]

theorem State.cslRole_seenVersion (s : State) (ver : Nat) : (s.seenVersion ver).cslRole = s.cslRole := by
  unfold State.seenVersion
  split
  · rfl
  · exact s.cslRole_wr (by decide) ..

theorem State.hw_seenVersion (s : State) (ver : Nat) : (s.seenVersion ver).hw = s.hw := by
  unfold State.seenVersion
  split
  · rfl
  · exact State.wr_hw ..

theorem State.csl_seenVersion (s : State) (ver : Nat) : (s.seenVersion ver).csl = s.csl := by
  unfold State.seenVersion
  split
  · rfl
  · exact State.wr_csl ..

theorem State.out_seenVersion (s : State) (ver : Nat) : (s.seenVersion ver).out = s.out := by
  unfold State.seenVersion
  split
  · rfl
  · exact State.wr_out ..

/-- The master checks the version and the master's number (R309). -/
theorem beaconRx_master {s : State} (hup : s.up .csl = true) (hr : s.cslRole = 1) (p : Port) (hop m ver : Nat) :
    beaconRx p hop m ver s =
      if m = s.hw.serial then s.seenVersion ver else (s.seenVersion ver).ev (.csl .masterConflict) := by
  have hin : (!s.inRing) = false := by rw [s.inRing_eq hup, hr]; rfl
  have hm : (s.seenVersion ver).isMaster = true := by rw [State.isMaster, State.cslRole_seenVersion, hr]; rfl
  calc beaconRx p hop m ver s
      = if m = (s.seenVersion ver).hw.serial then s.seenVersion ver else (s.seenVersion ver).ev (.csl .masterConflict) :=
        (if_neg (by simp [hin])).trans (if_pos hm)
    _ = _ := by rw [State.hw_seenVersion]

theorem exec_beaconRx_single {s : State} (hr : s.cslRole = 0) (p : Port) (hop m ver : Nat) :
    exec (.beaconRx p hop m ver) s = .next s := by
  have hin : s.inRing = false := by simp [State.inRing, hr]
  exact congrArg Host.Outcome.next (if_pos (by rw [hin]; rfl))

/-- A port's beacon names another master than `m`. -/
def State.otherMaster (s : State) (m : Nat) (q : Port) : Bool :=
  match s.beaconAt q with
  | some b => b.master != m
  | none => false

/-- The beacons seen so far against a beacon of master `m` (R309). -/
def State.seenMaster (s : State) (m : Nat) : State :=
  if s.otherMaster m .a || s.otherMaster m .b then s.ev (.csl .masterConflict) else s

/-- The hop count that a module expects at a port (R309). -/
def State.wantHop (s : State) : Port → Nat
  | .a => s.rd (.csl .pos)
  | .b => s.rd (.csl .nmod) + 1 - s.rd (.csl .pos)

/-- The hop count of a beacon against the module's place (R309). -/
def State.seenHop (s : State) (p : Port) (hop : Nat) : State :=
  if hop = s.wantHop p ∨ !s.portUp? p then s else s.ev (.csl .posErr)

/-- A slave checks a beacon, keeps it and passes it on with one hop more (R309). -/
theorem beaconRx_slave {s : State} (hup : s.up .csl = true) (hr : s.cslRole = 2) (p : Port) (hop m ver : Nat) :
    beaconRx p hop m ver s =
      ((((((s.seenVersion ver).seenMaster m).seenHop p hop).setBeacon p (some { hop := hop, master := m })).settleUpstream).emit
        (.scejo (otherPort p) 1 [(hop : Int) + 1])) := by
  have hin : (!s.inRing) = false := by rw [s.inRing_eq hup, hr]; rfl
  have hm : (s.seenVersion ver).isMaster = false := by rw [State.isMaster, State.cslRole_seenVersion, hr]; rfl
  refine ((if_neg (by simp [hin])).trans (if_neg (show ¬ (s.seenVersion ver).isMaster = true by simp [hm]))).trans ?_
  cases p <;> rfl

/-- A check of a beacon leaves the state, or sets one flag of its own. -/
theorem State.seenMaster_cases (s : State) (m : Nat) : s.seenMaster m = s ∨ s.seenMaster m = s.wr (.csl .masterConflict) 0 1 := by
  unfold State.seenMaster
  split
  · exact .inr rfl
  · exact .inl rfl

theorem State.seenHop_cases (s : State) (p : Port) (hop : Nat) : s.seenHop p hop = s ∨ s.seenHop p hop = s.wr (.csl .posErr) 0 1 := by
  unfold State.seenHop
  split
  · exact .inl rfl
  · exact .inr rfl

theorem State.rd_seenMaster_ne (s : State) (m : Nat) {f : CslF} (hf : f ≠ .masterConflict) (i : Nat) :
    (s.seenMaster m).rd (.csl f) i = s.rd (.csl f) i := by
  obtain h | h := s.seenMaster_cases m <;> rw [h]
  rw [State.rd_wr_csl, if_neg fun e => hf e.1]

theorem State.rd_seenHop_ne (s : State) (p : Port) (hop : Nat) {f : CslF} (hf : f ≠ .posErr) (i : Nat) :
    (s.seenHop p hop).rd (.csl f) i = s.rd (.csl f) i := by
  obtain h | h := s.seenHop_cases p hop <;> rw [h]
  rw [State.rd_wr_csl, if_neg fun e => hf e.1]

theorem State.otherMaster_of_beacon {s : State} {q : Port} {b : Beacon} {m : Nat} (hb : s.beaconAt q = some b) (hm : b.master ≠ m) :
    s.otherMaster m q = true := by
  simp [State.otherMaster, hb, hm]

theorem State.rd_seenMaster {s : State} {q : Port} {b : Beacon} {m : Nat} (hb : s.beaconAt q = some b) (hm : b.master ≠ m) :
    (s.seenMaster m).rd (.csl .masterConflict) = 1 := by
  have ho := State.otherMaster_of_beacon hb hm
  have hor : (s.otherMaster m .a || s.otherMaster m .b) = true := by
    cases q <;> simp [ho]
  rw [State.seenMaster, if_pos hor, State.ev_eq, State.rd_wr_csl, if_pos ⟨rfl, rfl⟩]
  rfl

theorem State.rd_seenHop {s : State} {p : Port} {hop : Nat} (hp : s.portUp? p = true) (h : hop ≠ s.wantHop p) :
    (s.seenHop p hop).rd (.csl .posErr) = 1 := by
  rw [State.seenHop, if_neg (by simp [hp, h]), State.ev_eq, State.rd_wr_csl, if_pos ⟨rfl, rfl⟩]
  rfl

@[simp] theorem State.rd_setBeacon (s : State) (p : Port) (b : Option Beacon) (f : Fld) (i : Nat) :
    (s.setBeacon p b).rd f i = s.rd f i := by
  cases p <;> rfl

@[simp] theorem State.out_setBeacon (s : State) (p : Port) (b : Option Beacon) : (s.setBeacon p b).out = s.out := by
  cases p <;> rfl

theorem State.beaconAt_setBeacon (s : State) (p : Port) (b : Option Beacon) : (s.setBeacon p b).beaconAt p = b := by
  cases p <;> rfl

theorem State.beaconAt_congr {s t : State} (h : t.csl = s.csl) (p : Port) : t.beaconAt p = s.beaconAt p := by
  cases p <;> simp [State.beaconAt, h]

/-- The checks of a beacon. -/
def State.seenBeacon (s : State) (p : Port) (hop m ver : Nat) : State := ((s.seenVersion ver).seenMaster m).seenHop p hop

section BeaconChecks

variable (s : State) (p : Port) (hop m ver : Nat)

theorem State.out_seenBeacon : (s.seenBeacon p hop m ver).out = s.out := by
  unfold State.seenBeacon
  obtain h | h := ((s.seenVersion ver).seenMaster m).seenHop_cases p hop <;> rw [h] <;>
    obtain h | h := (s.seenVersion ver).seenMaster_cases m <;> rw [h] <;> simp [State.out_seenVersion]

theorem State.rd_seenBeacon_verErr (h : ver ≠ s.rd (.ldr .fwMajor)) : (s.seenBeacon p hop m ver).rd (.csl .verErr) = 1 := by
  rw [State.seenBeacon, State.rd_seenHop_ne _ _ _ (by decide), State.rd_seenMaster_ne _ _ (by decide), State.rd_seenVersion h]

theorem State.rd_seenBeacon_masterConflict {q : Port} {b : Beacon} (hb : s.beaconAt q = some b) (hm : b.master ≠ m) :
    (s.seenBeacon p hop m ver).rd (.csl .masterConflict) = 1 := by
  rw [State.seenBeacon, State.rd_seenHop_ne _ _ _ (by decide)]
  exact State.rd_seenMaster ((State.beaconAt_congr (s.csl_seenVersion ver) q).trans hb) hm

/-- The checks in front of the hop count leave what it is compared with. -/
theorem State.rd_checked {f : CslF} (hv : f ≠ .verErr) (hc : f ≠ .masterConflict) (i : Nat) :
    ((s.seenVersion ver).seenMaster m).rd (.csl f) i = s.rd (.csl f) i :=
  (State.rd_seenMaster_ne _ m hc i).trans (s.rd_seenVersion_ne ver hv i)

theorem State.rd_seenBeacon_posErr (hp : s.portUp? p = true) (h : hop ≠ s.wantHop p) :
    (s.seenBeacon p hop m ver).rd (.csl .posErr) = 1 := by
  refine State.rd_seenHop ?_ ?_
  · cases p <;> simpa [State.portUp?, State.on, State.rd_checked] using hp
  · cases p <;> simpa [State.wantHop, State.rd_checked] using h

end BeaconChecks

theorem slave_keeps_beacon {s : State} (hup : s.up .csl = true) (hr : s.cslRole = 2) (p : Port) (hop m ver : Nat) :
    ∃ t, exec (.beaconRx p hop m ver) s = .next t ∧ t.beaconAt p = some { hop := hop, master := m } ∧
      t.out = .scejo (otherPort p) 1 [(hop : Int) + 1] :: s.out ∧
      (ver ≠ s.rd (.ldr .fwMajor) → t.rd (.csl .verErr) = 1) ∧
      (∀ q b, s.beaconAt q = some b → b.master ≠ m → t.rd (.csl .masterConflict) = 1) ∧
      (s.portUp? p = true → hop ≠ (if p = .a then s.rd (.csl .pos) else s.rd (.csl .nmod) + 1 - s.rd (.csl .pos)) →
        t.rd (.csl .posErr) = 1) := by
  have hw : s.wantHop p = if p = .a then s.rd (.csl .pos) else s.rd (.csl .nmod) + 1 - s.rd (.csl .pos) := by cases p <;> rfl
  refine ⟨_, congrArg Host.Outcome.next (beaconRx_slave hup hr p hop m ver), ?_, ?_, fun h => ?_, fun q b hb hm => ?_, fun hp h => ?_⟩
  · exact (State.beaconAt_congr (State.csl_settleUpstream _) p).trans (State.beaconAt_setBeacon ..)
  · rw [State.emit, State.out_settleUpstream, State.out_setBeacon]
    exact congrArg _ (s.out_seenBeacon p hop m ver)
  · exact ((State.rd_settleUpstream _ (by decide) 0).trans (State.rd_setBeacon ..)).trans (s.rd_seenBeacon_verErr p hop m ver h)
  · exact ((State.rd_settleUpstream _ (by decide) 0).trans (State.rd_setBeacon ..)).trans
      (s.rd_seenBeacon_masterConflict p hop m ver hb hm)
  · exact ((State.rd_settleUpstream _ (by decide) 0).trans (State.rd_setBeacon ..)).trans
      (s.rd_seenBeacon_posErr p hop m ver hp (hw ▸ h))

/-! #### Ports and partition -/

theorem exec_ring_single {s : State} (hr : s.cslRole = 0) :
    (∀ p lost, exec (.portDown p lost) s = .next s) ∧ (∀ p delay, exec (.portUp p delay) s = .next s) ∧
      exec .partitionClear s = .next s := by
  have hin : s.inRing = false := by simp [State.inRing, hr]
  refine ⟨fun p lost => congrArg Host.Outcome.next (if_pos (by rw [hin]; rfl)),
    fun p delay => congrArg Host.Outcome.next (if_pos (by rw [hin]; rfl)), ?_⟩
  simp [exec, execPartitionClear, guardWF_true, hin]

theorem workBlind_rd_csl (f : CslF) (i : Nat) : WorkBlind fun s => s.rd (.csl f) i where
  upd e := by
    simp only [State.spine, Prod.mk.injEq] at e
    obtain ⟨hhw, -, hregs, -⟩ := e
    simp only [State.rd, hhw, hregs]
  wr s g j v hg := s.rd_wr_ne (by rintro ⟨⟩; exact absurd hg (by simp [workBlock, Fld.block])) v
  post s kind unit data _ := State.rd_post s (f := .csl f) (show Block.csl ≠ .mbx by decide) kind unit data i
  closeDecision s kind unit _ := s.rd_closeDecision kind unit (.csl f) i

theorem sheetBlind_csl : SheetBlind State.csl := ⟨fun _ _ _ _ _ => rfl, fun s f i v _ => s.wr_csl f i v⟩

theorem State.rd_partitionSheets (s : State) (f : CslF) (i : Nat) : s.partitionSheets.rd (.csl f) i = s.rd (.csl f) i := by
  unfold State.partitionSheets
  split
  · exact foldl_unchanged (g := fun t : State => t.rd (.csl f) i) (fun t x => (workBlind_rd_csl f i).spoil t ..) _ s
  · rfl

theorem State.csl_partitionSheets (s : State) : s.partitionSheets.csl = s.csl := by
  unfold State.partitionSheets
  split
  · exact foldl_unchanged (g := State.csl) (fun t x => sheetBlind_csl.spoil t ..) _ s
  · rfl

/-- A port's LINK_UP field. -/
def linkField : Port → CslF
  | .a => .linkaUp
  | .b => .linkbUp

theorem State.setPort_eq (s : State) (p : Port) (up : Bool) : s.setPort p up = s.wr (.csl (linkField p)) 0 (bit up) := by
  cases p <;> rfl

theorem State.portUp?_eq (s : State) (p : Port) : s.portUp? p = (s.rd (.csl (linkField p)) != 0) := by cases p <;> rfl

theorem State.rd_showRing (s : State) {f : CslF} (hf : f ≠ .ringDegraded) (i : Nat) : s.showRing.rd (.csl f) i = s.rd (.csl f) i := by
  rw [State.showRing, State.wrB_eq, State.rd_wr_csl, if_neg fun e => hf e.1]

theorem State.rd_showRing_down {s : State} {p : Port} (h : s.rd (.csl (linkField p)) = 0) : s.showRing.rd (.csl .ringDegraded) = 1 := by
  have hl : (s.on (.csl .linkaUp) && s.on (.csl .linkbUp)) = false := by
    cases p
    · exact congrArg (· && s.on (.csl .linkbUp)) (show s.on (.csl .linkaUp) = false by rw [State.on, show s.rd (.csl .linkaUp) = 0 from h]; rfl)
    · rw [State.on, State.on, show s.rd (.csl .linkbUp) = 0 from h, Bool.and_comm]
      rfl
  rw [State.showRing, hl, State.wrB_eq, State.rd_wr_csl, if_pos ⟨rfl, rfl⟩]
  rfl

theorem linkField_ne (p : Port) : linkField p ≠ .upstream ∧ linkField p ≠ .ringDegraded ∧ linkField p ≠ .partition ∧
    linkField p ≠ .peersPresent ∧ linkField p ≠ .peersArmed ∧ linkField p ≠ .peersGate := by cases p <;> decide

theorem State.rd_link_settled (s : State) (p : Port) (up : Bool) :
    (s.setPort p up).showRing.settleUpstream.rd (.csl (linkField p)) = bit up := by
  obtain ⟨hu, hd, -⟩ := linkField_ne p
  rw [State.rd_settleUpstream _ hu, State.rd_showRing _ hd, State.setPort_eq, State.rd_wr_csl, if_pos ⟨rfl, rfl⟩]
  cases up <;> cases p <;> rfl

/-- A peer's entries are taken out of the master's view (R321). -/
def State.forgetPeer (s : State) (n : Nat) : State :=
  if n < 4 then ((s.clr (.csl .peersPresent) n).clr (.csl .peersArmed) n).clr (.csl .peersGate) n else s

/-- The fields that hold one bit for each peer. -/
def peerField (f : CslF) : Bool := f == .peersPresent || f == .peersArmed || f == .peersGate

theorem State.rd_forgetPeer_ne (s : State) (n : Nat) {f : CslF} {i : Nat} (h : peerField f = false ∨ i ≠ n) :
    (s.forgetPeer n).rd (.csl f) i = s.rd (.csl f) i := by
  unfold State.forgetPeer
  split
  · simp only [State.clr_eq, State.rd_wr_csl]
    rw [if_neg, if_neg, if_neg] <;> rintro ⟨rfl, rfl⟩ <;> simp [peerField] at h
  · rfl

theorem State.rd_forgetPeer_same (s : State) {n : Nat} (hn : n < 4) {f : CslF} (hf : peerField f = true) :
    (s.forgetPeer n).rd (.csl f) n = 0 := by
  rw [State.forgetPeer, if_pos hn]
  simp only [State.clr_eq, State.rd_wr_csl, and_true, Nat.zero_mod]
  simp only [peerField, Bool.or_eq_true, beq_iff_eq] at hf
  obtain (rfl | rfl) | rfl := hf <;> simp

theorem State.csl_forgetPeer (s : State) (n : Nat) : (s.forgetPeer n).csl = s.csl := by
  unfold State.forgetPeer
  split
  · simp only [State.clr_eq, State.wr_csl]
  · rfl

/-- A peer stays forgotten. -/
theorem State.rd_forgetPeers_zero {f : CslF} {n : Nat} (hn : n < 4) (hf : peerField f = true) (l : List Nat) {s : State}
    (h : s.rd (.csl f) n = 0) : (l.foldl State.forgetPeer s).rd (.csl f) n = 0 := by
  induction l generalizing s with
  | nil => exact h
  | cons m l ih =>
    refine ih ?_
    by_cases hm : n = m
    · subst hm
      exact s.rd_forgetPeer_same hn hf
    · exact (s.rd_forgetPeer_ne m (.inr hm)).trans h

theorem State.rd_forgetPeers {f : CslF} {n : Nat} (hn : n < 4) (hf : peerField f = true) {l : List Nat} (hl : n ∈ l) (s : State) :
    (l.foldl State.forgetPeer s).rd (.csl f) n = 0 := by
  induction l generalizing s with
  | nil => exact absurd hl List.not_mem_nil
  | cons m l ih =>
    rcases List.mem_cons.1 hl with rfl | hl
    · exact State.rd_forgetPeers_zero hn hf l (s.rd_forgetPeer_same hn hf)
    · exact ih hl _

theorem State.rd_forgetPeers_ne (l : List Nat) (s : State) {f : CslF} (h : peerField f = false) (i : Nat) :
    (l.foldl State.forgetPeer s).rd (.csl f) i = s.rd (.csl f) i :=
  foldl_unchanged (g := fun t : State => t.rd (.csl f) i) (fun t n => t.rd_forgetPeer_ne n (.inl h)) l s

/-- The positions `lost` are cut off (R321). -/
def State.cutOff (s : State) (lost : List Nat) : State :=
  ((lost.foldl State.forgetPeer { s with csl := { s.csl with unreachable := lost } }).ev (.csl .partition)).partitionSheets

section CutOff

variable (s : State) (lost : List Nat)

theorem State.csl_cutOff : (s.cutOff lost).csl = { s.csl with unreachable := lost } := by
  rw [State.cutOff, State.csl_partitionSheets, State.ev_eq, State.wr_csl]
  exact foldl_unchanged (g := State.csl) (fun t n => t.csl_forgetPeer n) lost _

theorem State.rd_cutOff_ne {f : CslF} (hf : peerField f = false) (hp : f ≠ .partition) (i : Nat) :
    (s.cutOff lost).rd (.csl f) i = s.rd (.csl f) i := by
  rw [State.cutOff, State.rd_partitionSheets, State.ev_eq, State.rd_wr_csl, if_neg fun e => hp e.1, State.rd_forgetPeers_ne _ _ hf]
  rfl

theorem State.rd_cutOff_partition : (s.cutOff lost).rd (.csl .partition) = 1 := by
  rw [State.cutOff, State.rd_partitionSheets, State.ev_eq, State.rd_wr_csl, if_pos ⟨rfl, rfl⟩]
  rfl

theorem State.rd_cutOff_peer {n : Nat} (hl : n ∈ lost) (hn : n < 4) {f : CslF} (hf : peerField f = true) :
    (s.cutOff lost).rd (.csl f) n = 0 := by
  have hp : f ≠ .partition := by rintro rfl; exact absurd hf (by decide)
  rw [State.cutOff, State.rd_partitionSheets, State.ev_eq, State.rd_wr_csl, if_neg fun e => hp e.1]
  exact State.rd_forgetPeers hn hf hl _

end CutOff

/-- A port that goes down forgets its beacon and degrades the ring (R321). -/
def State.portLost (s : State) (p : Port) : State := (((s.setPort p false).setBeacon p none).showRing).settleUpstream

theorem portDown_eq {s : State} (hin : s.inRing = true) (p : Port) (lost : List Nat) :
    portDown p lost s = if lost.isEmpty then s.portLost p else (s.portLost p).cutOff lost :=
  if_neg (by simp [hin])

theorem State.rd_portLost (s : State) (p : Port) : (s.portLost p).rd (.csl (linkField p)) = 0 := by
  obtain ⟨hu, hd, -⟩ := linkField_ne p
  rw [State.portLost, State.rd_settleUpstream _ hu, State.rd_showRing _ hd, State.rd_setBeacon, State.setPort_eq, State.rd_wr_csl,
    if_pos ⟨rfl, rfl⟩]
  exact Nat.zero_mod _

theorem State.ringDegraded_portLost (s : State) (p : Port) : (s.portLost p).rd (.csl .ringDegraded) = 1 := by
  rw [State.portLost, State.rd_settleUpstream _ (by decide)]
  refine State.rd_showRing_down (p := p) ?_
  rw [State.rd_setBeacon, State.setPort_eq, State.rd_wr_csl, if_pos ⟨rfl, rfl⟩]
  exact Nat.zero_mod _

theorem State.beaconAt_portLost (s : State) (p : Port) : (s.portLost p).beaconAt p = none := by
  refine (State.beaconAt_congr ?_ p).trans (State.beaconAt_setBeacon (s.setPort p false) p none)
  exact (State.csl_settleUpstream _).trans (State.wr_csl ..)

theorem State.portUp?_of_rd {s : State} {p : Port} (h : s.rd (.csl (linkField p)) = 0) : s.portUp? p = false := by
  rw [State.portUp?_eq, h]
  rfl

theorem exec_portDown {s : State} (hin : s.inRing = true) (p : Port) (lost : List Nat) :
    ∃ t, exec (.portDown p lost) s = .next t ∧ t.portUp? p = false ∧ t.beaconAt p = none ∧ t.rd (.csl .ringDegraded) = 1 ∧
      (lost ≠ [] → t.csl.unreachable = lost ∧ t.rd (.csl .partition) = 1 ∧ ∀ n ∈ lost, n < 4 →
        t.rd (.csl .peersPresent) n = 0 ∧ t.rd (.csl .peersArmed) n = 0 ∧ t.rd (.csl .peersGate) n = 0) := by
  refine ⟨_, congrArg Host.Outcome.next (portDown_eq hin p lost), ?_⟩
  by_cases hl : lost = []
  · rw [if_pos (by simp [hl])]
    exact ⟨State.portUp?_of_rd (s.rd_portLost p), s.beaconAt_portLost p, s.ringDegraded_portLost p, fun h => absurd hl h⟩
  · rw [if_neg (by simp [hl])]
    have hcsl := (s.portLost p).csl_cutOff lost
    have hp : peerField (linkField p) = false := by cases p <;> rfl
    refine ⟨State.portUp?_of_rd ?_, ?_, ?_, fun _ => ⟨by rw [hcsl], State.rd_cutOff_partition .., fun n hn h4 => ⟨?_, ?_, ?_⟩⟩⟩
    · rw [State.rd_cutOff_ne _ _ hp (linkField_ne p).2.2.1, State.rd_portLost]
    · refine Eq.trans ?_ (s.beaconAt_portLost p)
      cases p <;> simp [State.beaconAt, hcsl]
    · rw [State.rd_cutOff_ne _ _ rfl (by decide), State.ringDegraded_portLost]
    · exact State.rd_cutOff_peer _ _ hn h4 rfl
    · exact State.rd_cutOff_peer _ _ hn h4 rfl
    · exact State.rd_cutOff_peer _ _ hn h4 rfl

/-- A port's measured delay (R312). -/
def State.withRound (s : State) (p : Port) (delay : Nat) : State :=
  { s with csl := match p with
    | .a => { s.csl with roundA := delay }
    | .b => { s.csl with roundB := delay } }

theorem portUpNow_eq {s : State} (hin : s.inRing = true) (p : Port) (delay : Nat) :
    portUpNow p delay s = (((s.withRound p delay).setPort p true).showRing).settleUpstream := by
  refine (if_neg (by simp [hin])).trans ?_
  cases p <;> rfl

theorem State.linkDelay_withRound (s : State) (p : Port) (delay : Nat) :
    (s.withRound p delay).linkDelay p = (clampInt ((delay : Int) + s.rdS (.csl .skewtrim)) 0 65535).toNat := by
  cases p <;> rfl

theorem State.linkDelay_congr {s t : State} (hc : t.csl = s.csl) (hr : t.rd (.csl .skewtrim) = s.rd (.csl .skewtrim)) (p : Port) :
    t.linkDelay p = s.linkDelay p := by
  cases p <;> simp [State.linkDelay, State.rdS, hc, hr]

theorem exec_portUp {s : State} (hin : s.inRing = true) (p : Port) (delay : Nat) :
    ∃ t, exec (.portUp p delay) s = .next t ∧ t.portUp? p = true ∧
      t.linkDelay p = (clampInt ((delay : Int) + s.rdS (.csl .skewtrim)) 0 65535).toNat := by
  refine ⟨_, congrArg Host.Outcome.next (portUpNow_eq hin p delay), ?_, ?_⟩
  · rw [State.portUp?_eq, State.rd_link_settled]
    rfl
  · refine (State.linkDelay_congr ?_ ?_ p).trans (s.linkDelay_withRound p delay)
    · rw [State.csl_settleUpstream, State.showRing, State.wrB_eq, State.wr_csl, State.setPort_eq, State.wr_csl]
    · have hf : CslF.skewtrim ≠ linkField p := by cases p <;> decide
      rw [State.rd_settleUpstream _ (by decide), State.rd_showRing _ (by decide), State.setPort_eq, State.rd_wr_csl,
        if_neg fun e => hf e.1]

theorem exec_partitionClear_idle {s : State}
    (h : (s.on (.csl .linkaUp) || s.on (.csl .linkbUp)) = false ∨ (s.isMaster || s.rd (.csl .tstate) == 3) = false) :
    exec .partitionClear s = .next s := by
  refine congrArg Host.Outcome.next (if_neg ?_)
  obtain h | h := h <;> simp [h]

theorem exec_partitionClear {s : State} (hin : s.inRing = true) (hl : s.on (.csl .linkaUp) = true ∨ s.on (.csl .linkbUp) = true)
    (ha : s.cslRole = 1 ∨ s.rd (.csl .tstate) = 3) :
    exec .partitionClear s = .next { s.wr (.csl .partition) 0 0 with csl := { s.csl with unreachable := [] } } := by
  have hl' : (s.on (.csl .linkaUp) || s.on (.csl .linkbUp)) = true := by simpa using hl
  have ha' : (s.isMaster || s.rd (.csl .tstate) == 3) = true := by simpa [State.isMaster] using ha
  exact congrArg Host.Outcome.next (if_pos (by rw [hin, hl', ha']; rfl))

/-! #### POWER_GO -/

theorem exec_powerGoRx_idle {s : State} (hr : s.cslRole ≠ 2) : exec .powerGoRx s = .next s :=
  congrArg Host.Outcome.next (if_neg (by simp [State.isSlave, hr]))

/-- A slave has seen POWER_GO and has passed it on. -/
def State.goneOn (s : State) : State := (s.emit (.scejo (otherPort s.upstream) 14 [])).wr (.csl .powerGoSeen) 0 1

theorem State.estate_goneOn (s : State) : s.goneOn.estate = s.estate := State.rd_wr_ne _ (by simp) _

theorem exec_powerGoRx {s : State} (hup : s.up .csl = true) (hr : s.cslRole = 2) :
    exec .powerGoRx s = .next (if s.goneOn.estate = 1 then s.goneOn.toE 2 else s.goneOn) :=
  congrArg Host.Outcome.next (if_pos (by simp [s.inRing_eq hup, State.isSlave, hr]))

theorem exec_powerGoRx_waiting {s : State} (hup : s.up .csl = true) (hr : s.cslRole = 2) (he : s.estate = 1) :
    ∃ t, exec .powerGoRx s = .next t ∧ t.estate = 2 ∧ t.rd (.csl .powerGoSeen) = 1 ∧
      t.out = .scejo (otherPort s.upstream) 14 [] :: s.out := by
  refine ⟨_, (exec_powerGoRx hup hr).trans (congrArg _ (if_pos (s.estate_goneOn.trans he))), State.estate_toE _, ?_, ?_⟩
  · rw [State.toE, State.showQual, State.wrB_eq, State.rd_wr_ne _ (by simp), State.rd_wr_ne _ (by simp), State.goneOn,
      State.rd_wr_csl, if_pos ⟨rfl, rfl⟩]
    rfl
  · rw [State.toE, State.showQual, State.wrB_eq, State.wr_out, State.wr_out, State.goneOn, State.wr_out]
    rfl

/-- Settles O46, the ring's commands by the module's role. -/
theorem theRingIsTracked : Obligations.TheRingIsTracked := by
  intro s hup
  refine ⟨fun hr => ⟨exec_beaconTx_master hup hr, ?_, ?_, ?_⟩, fun hr => ⟨exec_beaconTx_idle hr, exec_beaconRx_single⟩,
    slave_keeps_beacon hup, fun hr => ?_, exec_ring_single, fun hr => ⟨fun he => ?_, exec_powerGoRx_waiting hup hr⟩,
    exec_powerGoRx_idle⟩
  · intro p hop ver hv
    exact congrArg Host.Outcome.next (((beaconRx_master hup hr ..).trans (if_pos rfl)).trans (State.seenVersion_same hv))
  · intro p hop m ver hv hm
    refine congrArg Host.Outcome.next (((beaconRx_master hup hr ..).trans (if_neg hm)).trans ?_)
    rw [State.seenVersion_same hv]
    rfl
  · intro p hop m ver hv
    refine ⟨_, congrArg Host.Outcome.next (beaconRx_master hup hr p hop m ver), ?_, fun hm => ?_⟩
    · split
      · exact State.rd_seenVersion hv
      · rw [State.ev_eq, State.rd_wr_csl, if_neg (by simp), State.rd_seenVersion hv]
    · rw [if_neg hm, State.ev_eq, State.rd_wr_csl, if_pos ⟨rfl, rfl⟩]
      rfl
  · have hin : s.inRing = true := by simp [s.inRing_eq hup, hr]
    refine ⟨exec_portDown hin, exec_portUp hin, exec_partitionClear hin, fun ha hb => exec_partitionClear_idle (.inl ?_),
      fun hr ht => exec_partitionClear_idle (.inr ?_)⟩
    · rw [ha, hb]
      rfl
    · simp [State.isMaster, hr, ht]
  · exact (exec_powerGoRx hup hr).trans (congrArg _ (if_neg (by rwa [State.estate_goneOn])))


/-! ### Channel commands (O24: R335, R336, R341) -/

/-! #### A write of DMA_CTL (R7, R341) -/

/-- A DMA field reads what is written to it; the other ones are as before. -/
theorem State.rd_wr_dma (s : State) (f g : DmaF) (i j v : Nat) :
    (s.wr (.dma f) i v).rd (.dma g) j = if g = f ∧ j = i then v % 2 ^ (Fld.dma f).row.width else s.rd (.dma g) j := by
  have hp : populated s.hw (.dma f) i = true := rfl
  simp [State.rd_wr, hp]

/-- The fields that a write of DMA_CTL judges. -/
def dmaCtlFields : List DmaF := [.prio, .burst, .kinds, .vector]

theorem slicesAt_dmaCtl : ∀ n < 32, slicesAt ((Fld.dma .prio).addr n) =
    dmaCtlFields.map fun f => (⟨.dma f, n, f.row.lsb⟩ : Slice) := by decide

/-- DMA_CTL's fields take their bits of the word. -/
def State.dmaTaken (s : State) (n word : Nat) : State :=
  dmaCtlFields.foldl (fun t f => t.wr (.dma f) n (bitField word f.row.lsb f.row.width)) s

theorem State.rd_dmaTaken {s : State} {f : DmaF} (hf : f ∉ dmaCtlFields) (n word i : Nat) :
    (s.dmaTaken n word).rd (.dma f) i = s.rd (.dma f) i := by
  simp only [dmaCtlFields, List.mem_cons, List.not_mem_nil, or_false, not_or] at hf
  obtain ⟨h1, h2, h3, h4⟩ := hf
  simp [State.dmaTaken, dmaCtlFields, State.rd_wr_dma, h1, h2, h3, h4]

theorem State.kinds_dmaTaken (s : State) (n word : Nat) : (s.dmaTaken n word).rd (.dma .kinds) n = bitField word 8 5 := by
  simp only [State.dmaTaken, dmaCtlFields, List.foldl_cons, List.foldl_nil, State.rd_wr_dma]
  exact Nat.mod_eq_of_lt (bitField_lt ..)

theorem accept_dmaCtl {f : DmaF} (hf : f ∈ dmaCtlFields) (s : State) (i v : Nat) : s.accept (.dma f) i v = s.wr (.dma f) i v := by
  simp only [dmaCtlFields, List.mem_cons, List.not_mem_nil, or_false] at hf
  obtain rfl | rfl | rfl | rfl := hf <;> rfl

theorem row_dmaCtl : ∀ f ∈ dmaCtlFields, f.row.acc = .rwl ∧ f.row.latch = .direct ∧ f.row.width ≤ 32 := by decide

theorem judgeField_dmaCtl_open {s : State} (ha : s.engineArmed = false) {f : DmaF} (hf : f ∈ dmaCtlFields) (n word : Nat) :
    s.judgeField ⟨.dma f, n, f.row.lsb⟩ word = (s.wr (.dma f) n (bitField word f.row.lsb f.row.width), false) := by
  rw [State.judgeField_rwl (sl := ⟨.dma f, n, f.row.lsb⟩) rfl rfl (row_dmaCtl f hf).1 ha, accept_dmaCtl hf]
  rfl

theorem judgeField_dmaCtl_armed {s : State} (ha : s.engineArmed = true) {f : DmaF} (hf : f ∈ dmaCtlFields) (n word : Nat) :
    (s.judgeField ⟨.dma f, n, f.row.lsb⟩ word).1 = s := by
  rw [State.judgeField_rwl_armed (sl := ⟨.dma f, n, f.row.lsb⟩) rfl rfl (row_dmaCtl f hf).1 ha]

/-- The judging of DMA_CTL ends with a refusal or without one; its fields have no boundary. -/
theorem State.judgeWord_dmaCtl {n : Nat} (hn : n < 32) (s : State) (word : Nat) :
    s.judgeWord ((Fld.dma .prio).addr n) word =
      let r := judgeSlices (s, false) (dmaCtlFields.map fun f => (⟨.dma f, n, f.row.lsb⟩ : Slice)) word
      if r.2 then r.1.deny else r.1 := by
  unfold State.judgeWord
  rw [slicesAt_dmaCtl n hn]
  rfl

/-- Judged while the engine is not armed, the fields take the word. -/
theorem State.judgeWord_dmaCtl_open {s : State} (ha : s.engineArmed = false) {n : Nat} (hn : n < 32) (word : Nat) :
    s.judgeWord ((Fld.dma .prio).addr n) word = s.dmaTaken n word := by
  have harm (t : State) (h : t.ldr = s.ldr) : t.engineArmed = false := by rw [State.engineArmed, h]; exact ha
  have hfold (l : List DmaF) (hl : ∀ f ∈ l, f ∈ dmaCtlFields) (t : State) (ht : t.ldr = s.ldr) :
      judgeSlices (t, false) (l.map fun f => (⟨.dma f, n, f.row.lsb⟩ : Slice)) word =
        (l.foldl (fun t f => t.wr (.dma f) n (bitField word f.row.lsb f.row.width)) t, false) := by
    induction l generalizing t with
    | nil => rfl
    | cons f l ih =>
      have hj := judgeField_dmaCtl_open (harm t ht) (hl f List.mem_cons_self) n word
      refine Eq.trans ?_ (ih (fun g hg => hl g (List.mem_cons_of_mem f hg)) (t.wr (.dma f) n _) ((t.wr_ldr ..).trans ht))
      rw [List.map_cons, judgeSlices, List.foldl_cons, hj]
      rfl
  rw [State.judgeWord_dmaCtl hn, hfold _ (fun f h => h) s rfl]
  rfl

/-- Judged while the engine is armed, they leave the state, or the write is denied. -/
theorem State.judgeWord_dmaCtl_armed {s : State} (ha : s.engineArmed = true) {n : Nat} (hn : n < 32) (word : Nat) :
    s.judgeWord ((Fld.dma .prio).addr n) word = s ∨ s.judgeWord ((Fld.dma .prio).addr n) word = s.deny := by
  have hfold (l : List DmaF) (hl : ∀ f ∈ l, f ∈ dmaCtlFields) (b : Bool) :
      (judgeSlices (s, b) (l.map fun f => (⟨.dma f, n, f.row.lsb⟩ : Slice)) word).1 = s := by
    induction l generalizing b with
    | nil => rfl
    | cons f l ih =>
      have hj := judgeField_dmaCtl_armed ha (hl f List.mem_cons_self) n word
      have hcons : judgeSlices (s, b) ((f :: l).map fun f => (⟨.dma f, n, f.row.lsb⟩ : Slice)) word =
          judgeSlices ((s.judgeField ⟨.dma f, n, f.row.lsb⟩ word).1, b || (s.judgeField ⟨.dma f, n, f.row.lsb⟩ word).2)
            (l.map fun f => (⟨.dma f, n, f.row.lsb⟩ : Slice)) word := rfl
      rw [hcons, hj]
      exact ih (fun g hg => hl g (List.mem_cons_of_mem f hg)) _
  rw [State.judgeWord_dmaCtl hn]
  dsimp only
  rw [hfold _ (fun f h => h)]
  split
  · exact .inr rfl
  · exact .inl rfl

/-- What a command of channel `n` finds once the fields of its word are judged: the state's channels, its page store and its lanes, and
every field of the channel but those of DMA_CTL, of which KINDS is the one in force. -/
structure CtlJudged (s : State) (n word : Nat) (t : State) : Prop where
  dma : t.dma = s.dma
  loam : t.loam = s.loam
  rd : ∀ f, f ∉ dmaCtlFields → t.rd (.dma f) n = s.rd (.dma f) n
  kinds : t.rd (.dma .kinds) n = if s.engineArmed then s.rd (.dma .kinds) n else bitField word 8 5

theorem State.dma_deny (s : State) : s.deny.dma = s.dma := by
  obtain ⟨o, p, h⟩ := State.globalIrq_eq (s.ev (.glb .accessDenied)) .irqAccess
  rw [State.deny, h]
  exact State.wr_dma ..

theorem State.loam_deny (s : State) : s.deny.loam = s.loam := by
  obtain ⟨o, p, h⟩ := State.globalIrq_eq (s.ev (.glb .accessDenied)) .irqAccess
  rw [State.deny, h]
  exact State.wr_loam ..

theorem State.ctlJudged {n : Nat} (hn : n < 32) (s : State) (word : Nat) :
    CtlJudged s n word (s.judgeWord ((Fld.dma .prio).addr n) word) := by
  cases ha : s.engineArmed with
  | false =>
    rw [State.judgeWord_dmaCtl_open ha hn]
    refine ⟨foldl_unchanged (g := State.dma) (fun t _ => t.wr_dma ..) dmaCtlFields s,
      foldl_unchanged (g := State.loam) (fun t _ => t.wr_loam ..) dmaCtlFields s, fun f hf => State.rd_dmaTaken hf .., ?_⟩
    rw [State.kinds_dmaTaken, ha]
    rfl
  | true =>
    have hk : s.rd (.dma .kinds) n = if s.engineArmed then s.rd (.dma .kinds) n else bitField word 8 5 := by rw [ha]; rfl
    obtain h | h := State.judgeWord_dmaCtl_armed ha hn word
    · rw [h]
      exact ⟨rfl, rfl, fun _ _ => rfl, hk⟩
    · rw [h]
      exact ⟨s.dma_deny, s.loam_deny, fun f _ => by rw [State.rd_deny, if_neg (by simp)],
        (by rw [State.rd_deny, if_neg (by simp)] : s.deny.rd (.dma .kinds) n = s.rd (.dma .kinds) n).trans hk⟩

theorem State.chan_congr {s t : State} (h : t.dma = s.dma) (n : Nat) : t.chan n = s.chan n := by rw [State.chan, State.chan, h]

/-! #### START, STOP and RESET -/

theorem exec_dmaStart {s : State} {n : Nat} {v : Word} (hn : n < 32) (hr : s.Reaches .dma 0) (h0 : v.getLsbD 0 = true) :
    exec (.dmaStart n v) s = .next (dmaStart n (s.judgeWord ((Fld.dma .prio).addr n) v.toNat)) := by
  show guardWF (decide (n < 32) && v.getLsbD 0) _ = _
  rw [decide_eq_true hn, h0, State.hostWrite_of_reaches hr]
  exact congrArg Host.Outcome.next (if_pos (by rw [bitField_bit, h0]; rfl))

theorem exec_dmaStop {s : State} {n : Nat} {v : Word} (hn : n < 32) (hr : s.Reaches .dma 0) (h1 : v.getLsbD 1 = true)
    (h0 : v.getLsbD 0 = false) :
    exec (.dmaStop n v) s = .next (dmaStop n (s.judgeWord ((Fld.dma .prio).addr n) v.toNat)) := by
  show guardWF (decide (n < 32) && v.getLsbD 1 && !v.getLsbD 0) _ = _
  rw [decide_eq_true hn, h1, h0, State.hostWrite_of_reaches hr]
  exact congrArg Host.Outcome.next ((if_neg (by rw [bitField_bit, h0]; decide)).trans (if_pos (by rw [bitField_bit, h1]; rfl)))

theorem exec_dmaReset {s : State} {n : Nat} {v : Word} (hn : n < 32) (hr : s.Reaches .dma 0) (h2 : v.getLsbD 2 = true)
    (h1 : v.getLsbD 1 = false) (h0 : v.getLsbD 0 = false) :
    exec (.dmaReset n v) s = .next (dmaReset n (s.judgeWord ((Fld.dma .prio).addr n) v.toNat)) := by
  show guardWF (decide (n < 32) && v.getLsbD 2 && !v.getLsbD 1 && !v.getLsbD 0) _ = _
  rw [decide_eq_true hn, h2, h1, h0, State.hostWrite_of_reaches hr]
  exact congrArg Host.Outcome.next ((if_neg (by rw [bitField_bit, h0]; decide)).trans
    ((if_neg (by rw [bitField_bit, h1]; decide)).trans (if_pos (by rw [bitField_bit, h2]; rfl))))

theorem exec_dmaTailWrite {s : State} {n : Nat} (hn : n < 32) (hr : s.Reaches .dma 0) (v : Word) :
    exec (.dmaTailWrite n v) s = .next (s.wr (.dma .tail) n v.toNat) := by
  simp [exec, execDmaTailWrite, State.hostWrite_of_reaches hr, guardWF_true, hn]

/-- A command that a channel's state turns away sets CMD_ERR and no more (R341). -/
theorem cmdErr_spec (s : State) (n : Nat) : (s.ev (.dma .cmdErr) n).rd (.dma .cmdErr) n = 1 ∧
    (s.ev (.dma .cmdErr) n).rd (.dma .state) n = s.rd (.dma .state) n ∧ (s.ev (.dma .cmdErr) n).chan n = s.chan n := by
  rw [State.ev_eq]
  exact ⟨by rw [State.rd_wr_dma, if_pos ⟨rfl, rfl⟩]; rfl, by rw [State.rd_wr_dma, if_neg (by simp)], State.chan_wr ..⟩

section Start

variable {s : State} {n : Nat}

theorem dmaStart_idle (hk : s.rd (.dma .kinds) n ≠ 0) (h : s.chanState n = 0) : dmaStart n s =
    ((s.setChan n { base := s.rd (.dma .ring) n / 32 * 32, log := clampLog (s.rd (.dma .ringLog) n) }).wr (.dma .head) n 0).wr
      (.dma .state) n 1 := by simp [dmaStart, hk, h]

theorem dmaStart_stopped (hk : s.rd (.dma .kinds) n ≠ 0) (h : s.chanState n = 3) : dmaStart n s =
    (s.setChan n { s.chan n with base := s.rd (.dma .ring) n / 32 * 32, log := clampLog (s.rd (.dma .ringLog) n) }).wr
      (.dma .state) n 1 := by simp [dmaStart, hk, h]

theorem dmaStart_halted (hk : s.rd (.dma .kinds) n ≠ 0) (h : s.chanState n = 4) : dmaStart n s = s.wr (.dma .state) n 1 := by
  simp [dmaStart, hk, h]

theorem dmaStart_refused (h : s.chanState n = 1 ∨ s.chanState n = 2 ∨ s.rd (.dma .kinds) n = 0) :
    dmaStart n s = s.ev (.dma .cmdErr) n := by
  unfold dmaStart
  dsimp only
  split
  · rfl
  · next hk =>
    obtain h | h | h := h
    · simp [h]
    · simp [h]
    · exact absurd h hk

end Start

/-- The lanes let go of a channel that waits for one; its own transfer is not held. -/
def State.unqueue (s : State) (n : Nat) : State :=
  (s.cmp.lanes.foldl (fun t e => t.setLane e.1 { e.2 with queue := e.2.queue.filter (· != n) }) s).unhold n

theorem dmaStop_begun {s : State} {n : Nat} (h : s.chanState n = 1) (hb : (s.chan n).begun = true ∨ (s.chan n).ended.isSome = true) :
    dmaStop n s = s.wr (.dma .state) n 2 := by
  obtain hb | hb := hb <;> simp [dmaStop, h, hb]

theorem dmaStop_waiting {s : State} {n : Nat} (h : s.chanState n = 1) (hb : (s.chan n).begun = false) (he : (s.chan n).ended = none) :
    dmaStop n s = (((s.unqueue n).setChan n { base := (s.chan n).base, log := (s.chan n).log }).wr (.dma .wait) n 0).wr
      (.dma .state) n 3 := by
  simp [dmaStop, h, hb, he, State.unqueue]

theorem dmaStop_refused {s : State} {n : Nat} (h : s.chanState n ≠ 1) : dmaStop n s = s.ev (.dma .cmdErr) n := if_neg h

theorem dmaReset_taken {s : State} {n : Nat} (h : s.chanState n = 3 ∨ s.chanState n = 4) :
    dmaReset n s = (((s.setChan n {}).wr (.dma .head) n 0).wr (.dma .tail) n 0).wr (.dma .state) n 0 := if_pos h

theorem dmaReset_refused {s : State} {n : Nat} (h3 : s.chanState n ≠ 3) (h4 : s.chanState n ≠ 4) :
    dmaReset n s = s.ev (.dma .cmdErr) n := if_neg (by simp [h3, h4])

/-! #### Peripherals (R335, R336) -/

/-- Channel `n` takes the request of a peripheral with `fill` bytes (R335). -/
def State.takesRequest (s : State) (psel fill n : Nat) : Bool :=
  match (s.chan n).desc with
  | some d => decide (d.kind = 4 ∧ d.arg0 % 64 = psel ∧ (s.chan n).ended.isNone ∧ 0 < fill ∧
      (psel ≤ 0x10 ∨ min (burstBytes (s.rd (.dma .burst) n)) (d.length - (s.chan n).moved) ≤ fill))
  | none => false

/-- The request is raised to channel `n`. -/
def State.raiseTo (s : State) (psel fill n : Nat) : State :=
  if s.takesRequest psel fill n then (s.setChan n { s.chan n with request := true }).wr (.dma .wait) n 0 else s

theorem periphRequest_eq {s : State} (hh : s.up .host = true) (psel : Nat) :
    periphRequest psel s = (List.range 32).foldl (fun t n => t.raiseTo psel (s.periphFill psel) n) s := by
  refine (if_neg (by simp [hh])).trans (congrArg (fun f => List.foldl f s (List.range 32)) (funext fun t => funext fun n => ?_))
  unfold State.raiseTo State.takesRequest
  dsimp only
  cases hd : (t.chan n).desc with
  | some d => simp only [decide_eq_true_eq]
  | none => simp

theorem State.chan_raiseTo_ne (s : State) (psel fill : Nat) {m n : Nat} (h : n ≠ m) :
    (s.raiseTo psel fill m).chan n = s.chan n ∧ ∀ f, (s.raiseTo psel fill m).rd (.dma f) n = s.rd (.dma f) n := by
  unfold State.raiseTo
  split
  · refine ⟨by rw [State.chan_wr, State.chan_setChan, if_neg h], fun f => ?_⟩
    rw [State.rd_wr_dma, if_neg fun e => h e.2, State.rd_setChan]
  · exact ⟨rfl, fun _ => rfl⟩

/-- What is raised to the channels of a list that does not hold `n` leaves channel `n`. -/
theorem State.chan_raise_ne (psel fill : Nat) {n : Nat} {l : List Nat} (h : n ∉ l) (s : State) :
    (l.foldl (fun t m => t.raiseTo psel fill m) s).chan n = s.chan n ∧
      ∀ f, (l.foldl (fun t m => t.raiseTo psel fill m) s).rd (.dma f) n = s.rd (.dma f) n := by
  induction l generalizing s with
  | nil => exact ⟨rfl, fun _ => rfl⟩
  | cons m l ih =>
    obtain ⟨hm, hl⟩ := not_or.1 (mt List.mem_cons.2 h)
    obtain ⟨h1, h2⟩ := ih hl (s.raiseTo psel fill m)
    obtain ⟨e1, e2⟩ := s.chan_raiseTo_ne psel fill hm
    exact ⟨h1.trans e1, fun f => (h2 f).trans (e2 f)⟩

theorem range_32_split {n : Nat} (hn : n < 32) : ∃ a b, List.range 32 = a ++ n :: b ∧ n ∉ a ∧ n ∉ b := by
  obtain ⟨a, b, h⟩ := List.append_of_mem (List.mem_range.2 hn)
  have hd : (a ++ n :: b).Nodup := h ▸ List.nodup_range
  have ha := List.nodup_middle.1 hd
  rw [List.nodup_cons, List.mem_append, not_or] at ha
  exact ⟨a, b, h, ha.1.1, ha.1.2⟩

/-- A channel that takes a request has it once every channel was asked. -/
theorem periphRequest_spec {s : State} (hh : s.up .host = true) {psel n : Nat} (hn : n < 32)
    (ht : s.takesRequest psel (s.periphFill psel) n = true) :
    ((periphRequest psel s).chan n).request = true ∧ (periphRequest psel s).rd (.dma .wait) n = 0 := by
  obtain ⟨a, b, hab, hna, hnb⟩ := range_32_split hn
  rw [periphRequest_eq hh, hab, List.foldl_append, List.foldl_cons]
  obtain ⟨hc, hr⟩ := State.chan_raise_ne psel (s.periphFill psel) hna s
  generalize a.foldl (fun t m => t.raiseTo psel (s.periphFill psel) m) s = u at hc hr ⊢
  have hu : u.takesRequest psel (s.periphFill psel) n = true := by
    rw [State.takesRequest, hc, hr]
    exact ht
  obtain ⟨h1, h2⟩ := State.chan_raise_ne psel (s.periphFill psel) hnb (u.raiseTo psel (s.periphFill psel) n)
  rw [h1, h2, State.raiseTo, if_pos hu]
  exact ⟨by rw [State.chan_wr, State.chan_setChan_same], by rw [State.rd_wr_dma, if_pos ⟨rfl, rfl⟩, Nat.zero_mod]⟩

theorem exec_periphRequest {psel : Nat} (h : psel ≤ 0x11) (s : State) : exec (.periphRequest psel) s = .next (periphRequest psel s) := by
  show guardWF (decide (psel ≤ 0x11)) _ = _
  rw [decide_eq_true h]
  rfl

/-- What taking bytes from a peripheral leaves: the channels, the page store and the fields of DMA (R335, R435). -/
structure Taken (s t : State) : Prop where
  dma : t.dma = s.dma
  loam : t.loam = s.loam
  rd : ∀ f i, t.rd (.dma f) i = s.rd (.dma f) i

theorem Taken.refl (s : State) : Taken s s := ⟨rfl, rfl, fun _ _ => rfl⟩

theorem Taken.trans {s t u : State} (h : Taken s t) (k : Taken t u) : Taken s u :=
  ⟨k.dma.trans h.dma, k.loam.trans h.loam, fun f i => (k.rd f i).trans (h.rd f i)⟩

theorem taken_enqueue (s : State) (p kind unit : Nat) (data : List Nat) : Taken s (s.enqueue p kind unit data) := by
  unfold State.enqueue
  extract_lets tok post m m' u
  split
  · obtain ⟨o, pc, e⟩ := u.msix_eq (u.rd (.mbx .vector) p)
    rw [e]
    exact ⟨rfl, rfl, fun _ _ => rfl⟩
  · exact ⟨rfl, rfl, fun _ _ => rfl⟩

theorem taken_drainWaiting (s : State) : Taken s s.drainWaiting := by
  refine List.foldlRecOn (motive := fun t => Taken s t) s.mbx.waiting _ (Taken.refl s) fun t h w _ => ?_
  split
  · exact h
  · split
    · refine Taken.trans ?_ (taken_enqueue ..)
      exact ⟨h.dma, h.loam, h.rd⟩
    · exact h

theorem taken_periphTake (s : State) (psel m : Nat) : Taken s (s.periphTake psel m).2.2 := by
  unfold State.periphTake
  split
  · refine Taken.trans ?_ (taken_drainWaiting _)
    exact ⟨rfl, rfl, fun _ _ => rfl⟩
  · split
    · exact ⟨rfl, rfl, fun _ _ => rfl⟩
    · exact ⟨rfl, rfl, fun _ _ => rfl⟩

/-- A withdrawn burst runs as issued, and its descriptor ends SHORT (R336). -/
theorem periphWithdraw_eq {s : State} {n real : Nat} {d : Desc} (hh : s.up .host = true) (hd : (s.chan n).desc = some d)
    (hk : d.kind = 4) (hq : (s.chan n).request = true) (he : (s.chan n).ended = none) (hr : real ≤ s.nextBurst n) :
    ∃ o, periphWithdraw n real s = ((((s.periphTake (d.arg0 % 64) real).2.2.emit o).setChan n
      { s.chan n with moved := (s.chan n).moved + real, begun := true }).count (.dma .withdraw) n).endDesc n { short := true } := by
  refine ⟨.hostWrite (d.hostAddr + (s.chan n).moved) (swapBytes d.swap (((s.periphTake (d.arg0 % 64) real).1.take real) ++
    List.replicate (s.nextBurst n - ((s.periphTake (d.arg0 % 64) real).1.take real).length) 0)), ?_⟩
  unfold periphWithdraw
  dsimp only
  rw [hd]
  exact if_pos (by simp [hh, hk, hq, he, hr])

theorem exec_periphWithdraw {s : State} {n real : Nat} {d : Desc} (hn : n < 32) (hm : real ≤ 256) (hh : s.up .host = true)
    (hd : (s.chan n).desc = some d) (hk : d.kind = 4) (hq : (s.chan n).request = true) (he : (s.chan n).ended = none)
    (hr : real ≤ s.nextBurst n) :
    ∃ t, exec (.periphWithdraw n real) s = .next t ∧ (t.chan n).ended = some { short := true } ∧
      (t.chan n).moved = (s.chan n).moved + real ∧ t.rd (.dma .withdraw) n = satInc 16 (s.rd (.dma .withdraw) n) := by
  obtain ⟨o, e⟩ := periphWithdraw_eq hh hd hk hq he hr
  have hx : exec (.periphWithdraw n real) s = .next (periphWithdraw n real s) := by
    show guardWF (decide (n < 32) && decide (real ≤ 256)) _ = _
    rw [decide_eq_true hn, decide_eq_true hm]
    rfl
  refine ⟨_, hx.trans (congrArg Host.Outcome.next e), State.ended_endDesc .., ?_, ?_⟩
  · rw [State.endDesc, State.chan_wr, State.chan_setChan_same, State.count_eq, State.chan_wr, State.chan_setChan_same]
  · have htaken := (taken_periphTake s (d.arg0 % 64) real).rd .withdraw n
    rw [State.endDesc, State.rd_wr_dma, if_neg (by simp), State.rd_setChan, State.count_eq]
    exact (State.rd_wr_dma _ .withdraw .withdraw n n _).trans (by
      rw [if_pos ⟨rfl, rfl⟩, State.rd_setChan]
      exact (Nat.mod_eq_of_lt (satInc_lt ..)).trans (congrArg (satInc 16) htaken))

/-! #### The statement -/

section Commands

variable {s t : State} {n word : Nat} (j : CtlJudged s n word t)

include j

theorem CtlJudged.chanState : t.chanState n = s.chanState n := j.rd .state (by decide)

theorem CtlJudged.chan : t.chan n = s.chan n := State.chan_congr j.dma n

end Commands

/-- Settles O24: each command acts on what the judging of its word leaves. -/
theorem channelCommandsRun : Obligations.ChannelCommandsRun := by
  refine ⟨fun s n v hn hr => ?_, fun s n d hn hh hd hk he => ⟨fun hf hp => ?_, fun real hq hm h256 => ?_⟩⟩
  · have j := s.ctlJudged hn v.toNat
    have hs := j.chanState
    have hc := j.chan
    have hkinds := j.kinds
    generalize hu : s.judgeWord ((Fld.dma .prio).addr n) v.toNat = u at j hs hc hkinds
    have hring : u.rd (.dma .ring) n = s.rd (.dma .ring) n := j.rd .ring (by decide)
    have hlog : u.rd (.dma .ringLog) n = s.rd (.dma .ringLog) n := j.rd .ringLog (by decide)
    have hhead : u.rd (.dma .head) n = s.rd (.dma .head) n := j.rd .head (by decide)
    have hstate : u.rd (.dma .state) n = s.rd (.dma .state) n := hs
    have herr : (u.ev (.dma .cmdErr) n).rd (.dma .cmdErr) n = 1 ∧
        (u.ev (.dma .cmdErr) n).rd (.dma .state) n = s.rd (.dma .state) n ∧ (u.ev (.dma .cmdErr) n).chan n = s.chan n := by
      obtain ⟨h1, h2, h3⟩ := cmdErr_spec u n
      exact ⟨h1, h2.trans hs, h3.trans hc⟩
    rw [← hkinds, ← hs, ← hc, ← hstate, ← hhead, ← hring, ← hlog, ← j.loam]
    rw [← hstate, ← hc] at herr
    refine ⟨fun h0 hst hk => ⟨_, exec_dmaStart hn hr h0, ?_⟩, fun h0 hst hk => ⟨_, exec_dmaStart hn hr h0, ?_⟩,
      fun h0 hst hk => ⟨_, exec_dmaStart hn hr h0, ?_⟩, fun h0 h => ⟨_, exec_dmaStart hn hr h0, ?_⟩,
      fun h1 h0 hst hb => ⟨_, exec_dmaStop hn hr h1 h0, ?_⟩, fun h1 h0 hst hb he => ⟨_, exec_dmaStop hn hr h1 h0, ?_⟩,
      fun h1 h0 hst => ⟨_, exec_dmaStop hn hr h1 h0, ?_⟩, fun h2 h1 h0 hst => ⟨_, exec_dmaReset hn hr h2 h1 h0, ?_⟩,
      fun h2 h1 h0 h3 h4 => ⟨_, exec_dmaReset hn hr h2 h1 h0, ?_⟩, exec_dmaTailWrite hn hr v⟩
    · rw [hu, dmaStart_idle hk hst]
      simp [State.rd_wr_dma, Fld.row, DmaF.row]
    · rw [hu, dmaStart_stopped hk hst]
      simp [State.rd_wr_dma, Fld.row, DmaF.row]
    · rw [hu, dmaStart_halted hk hst]
      simp [State.rd_wr_dma, Fld.row, DmaF.row]
    · rw [hu, dmaStart_refused h]
      exact herr
    · rw [hu, dmaStop_begun hst hb]
      simp [State.rd_wr_dma, Fld.row, DmaF.row]
    · rw [hu, dmaStop_waiting hst hb he]
      simp [State.rd_wr_dma, Fld.row, DmaF.row]
    · rw [hu, dmaStop_refused hst]
      exact herr
    · rw [hu, dmaReset_taken hst]
      simp [State.rd_wr_dma, Fld.row, DmaF.row]
    · rw [hu, dmaReset_refused h3 h4]
      exact herr
  · have hsel : d.arg0 % 64 ≤ 0x11 := by omega
    refine ⟨_, exec_periphRequest hsel s, periphRequest_spec hh hn ?_⟩
    have hp' : d.arg0 % 64 ≤ 0x10 ∨
        min (burstBytes (s.rd (.dma .burst) n)) (d.length - (s.chan n).moved) ≤ s.periphFill (d.arg0 % 64) := by
      obtain h | ⟨h1, h2⟩ := hp
      · exact .inl h
      · exact .inr (h1 ▸ h2)
    unfold State.takesRequest
    rw [hd]
    exact decide_eq_true ⟨hk, rfl, by rw [he]; rfl, hf, hp'⟩
  · exact exec_periphWithdraw hn h256 hh hd hk hq he hm


/-! ### Bursts (O26: R326, R333 to R337) -/

/-! #### What leaves the channels -/

theorem sheetBlind_dma : SheetBlind State.dma := ⟨fun _ _ _ _ _ => rfl, fun s f i v _ => s.wr_dma f i v⟩

section ChannelsKept

variable (s : State)

theorem State.dma_compressorIdle (l : Nat) : (s.compressorIdle l).dma = s.dma := by
  unfold State.compressorIdle
  dsimp only
  split <;> simp [State.clr_eq]

theorem State.dma_leaveLane (n : Nat) : (s.leaveLane n).dma = s.dma := by
  refine foldl_unchanged (g := State.dma) (fun t e => ?_) s.cmp.lanes s
  dsimp only
  rw [State.setLane_dma]
  split
  · exact t.dma_compressorIdle e.1
  · rfl

theorem State.dma_bandBad (r : Nat) (st : BandState) (cause : Nat) : (s.bandBad r st cause).dma = s.dma := by
  have hm : (s.bandMarked r st).dma = s.dma := by
    refine (sheetBlind_dma.setBand ..).trans ?_
    exact ((sheetBlind_dma.setBand ..).trans (sheetBlind_dma.setCtx ..)).trans (sheetBlind_dma.verifyIdle ..)
  obtain h | ⟨h, -⟩ := s.bandBad_cases r st cause
  · rw [h]
    exact ((sheetBlind_dma.toState ..).trans (sheetBlind_dma.setCtx ..)).trans hm
  · rw [h, hm]

theorem State.dma_reclaimOne (r : Nat) : (s.reclaimOne r).dma = s.dma :=
  (sheetBlind_dma.setBand (s.verifyIdle (s.band r)) r { s.band r with st := .reclaiming, raw := [] }).trans
    (sheetBlind_dma.verifyIdle ..)

theorem State.dma_freeCtx (c : Nat) : (s.freeCtx c).dma = s.dma := by
  refine (State.wr_dma ..).trans ?_
  unfold State.dropHostOk
  split <;> rfl

/-- An abandoned band changes no channel. -/
theorem State.dma_abandonBand (n : Nat) : (s.abandonBand n).dma = s.dma := by
  unfold State.abandonBand
  extract_lets c t
  have ht : t.dma = s.dma := s.dma_leaveLane n
  clear_value t
  split
  · exact ht
  · next r _ =>
    dsimp only
    split
    · exact (t.dma_bandBad ..).trans ht
    · split
      · have hr : (t.reclaim [r]).dma = s.dma := (t.dma_reclaimOne r).trans ht
        split
        · exact (State.dma_freeCtx ..).trans hr
        · exact hr
      · exact ht

theorem State.dma_verifyStart (l r : Nat) : (s.verifyStart l r).dma = s.dma := by
  unfold State.verifyStart
  split
  · exact s.dma_bandBad ..
  · split
    · simp only [State.wr_dma]
    · rfl

end ChannelsKept

/-- Beside its ending, a channel that ends keeps what it holds. -/
theorem State.chan_endDesc (s : State) (n : Nat) (e : Ending) : (s.endDesc n e).chan n = { s.chan n with ended := some e } := by
  rw [State.endDesc, State.chan_wr, State.chan_setChan_same]

/-- A descriptor that ends and abandons its band keeps its channel but for the ending. -/
theorem State.chan_endAbandon (s : State) (n : Nat) (e : Ending) :
    ((s.endDesc n e).abandonBand n).chan n = { s.chan n with ended := some e } :=
  (State.chan_congr (State.dma_abandonBand ..) n).trans (s.chan_endDesc n e)

theorem State.bytes_endDesc (s : State) (n : Nat) (e : Ending) : (s.endDesc n e).loam.bytes = s.loam.bytes := by
  rw [State.loam_endDesc]

theorem State.bytes_endAbandon (s : State) (n : Nat) (e : Ending) :
    ((s.endDesc n e).abandonBand n).loam.bytes = s.loam.bytes :=
  ((State.abandonBand_keeps (.refl (s.endDesc n e)) n).bytes rfl).trans (s.bytes_endDesc n e)

/-! #### Writes into a band's extents (R72, R111) -/

section WriteStream

variable {β : Type} {g : State → β}

/-- The burst-wise write of bytes is not seen by what looks past the page store and the error registers. -/
theorem writeBurst_unseen (hl : ∀ (t : State) l, g { t with loam := l } = g t) (hw : ∀ (t : State) f i v, g (t.wr (.pgs f) i v) = g t)
    (s : State) (a : Nat) (l : List Byte) : g (s.writeBurst a l) = g s := by
  unfold State.writeBurst
  extract_lets b t
  have ht : g t = g s := hl s _
  split
  · exact (hl t _).trans ht
  · split
    · exact ht
    · exact ((hl (t.count (.pgs .eccCe)) _).trans (hw ..)).trans ht
    · rw [State.ueHit, State.ev_eq, hw, hw, State.count_eq, hw, ht]

theorem writeStream_unseen (hl : ∀ (t : State) l, g { t with loam := l } = g t) (hw : ∀ (t : State) f i v, g (t.wr (.pgs f) i v) = g t)
    (s : State) (es : List Nat) (o : Nat) (l : List Byte) : g (s.writeStream es o l) = g s := by
  refine foldl_unchanged (fun t x => ?_) es.zipIdx s
  dsimp only
  split
  · exact foldl_unchanged (fun u (b : Nat × List Byte) => writeBurst_unseen hl hw u b.1 b.2) _ t
  · rfl

end WriteStream

section InStream

variable (s : State) (es : List Nat) (o : Nat) (l : List Byte)

theorem State.dma_writeStream : (s.writeStream es o l).dma = s.dma :=
  writeStream_unseen (g := State.dma) (fun _ _ => rfl) (fun t f i v => t.wr_dma (.pgs f) i v) s es o l

theorem State.hw_writeStream : (s.writeStream es o l).hw = s.hw :=
  writeStream_unseen (g := State.hw) (fun _ _ => rfl) (fun t f i v => t.wr_hw (.pgs f) i v) s es o l

theorem State.rd_cmp_writeStream (f : CmpF) (i : Nat) : (s.writeStream es o l).rd (.cmp f) i = s.rd (.cmp f) i :=
  writeStream_unseen (g := fun t : State => t.rd (.cmp f) i) (fun _ _ => rfl) (fun t p j v => t.rd_wr_ne (by simp) v) s es o l

theorem State.bands_writeLoam (a : Nat) (d : List Byte) : (s.writeLoam a d).loam.bands = s.loam.bands := by
  refine foldl_unchanged (g := fun t : State => t.loam.bands) (fun t b => ?_) _ s
  obtain ⟨e, r, h⟩ := t.writeBurst_eq b.1 b.2
  rw [h]

theorem State.band_writeStream (r : Nat) : (s.writeStream es o l).band r = s.band r := by
  have hb : (s.writeStream es o l).loam.bands = s.loam.bands := by
    refine foldl_unchanged (g := fun t : State => t.loam.bands) (fun t x => ?_) es.zipIdx s
    dsimp only
    split
    · exact t.bands_writeLoam ..
    · rfl
  rw [State.band, hb]
  rfl

/-- A stream that is written into extents changes no byte outside them. -/
theorem State.byte_writeStream {a : Nat} (ha : ∀ e ∈ es, a < 63488 * e ∨ 63488 * e + 63488 ≤ a) :
    (s.writeStream es o l).byte a = s.byte a := by
  refine List.foldlRecOn (motive := fun t : State => t.byte a = s.byte a) es.zipIdx _ rfl fun t ht x hx => ?_
  have hout := ha x.1 (List.fst_mem_of_mem_zipIdx hx)
  dsimp only
  split
  · rw [State.byte_writeLoam, if_neg, ht]
    rw [List.length_take]
    omega
  · exact ht

end InStream

/-! #### A lane that goes on with its band (R76, R79, R111) -/

/-- What the lane has produced of a band and may store: whole bursts until the band's input has ended. -/
def State.readyStream (s : State) (n r : Nat) (all : Bool) : List Byte :=
  let stream := (s.bandStream (s.band r) (s.chan n).data).take 2097151
  if all then stream else stream.take (stream.length / 64 * 64)

/-- The band's extents with those that its stream takes in addition. -/
def State.feedExtents (s : State) (r : Nat) (ready : List Byte) : List Nat :=
  (s.band r).extents ++ s.allocate ((ready.length + 63487) / 63488 - (s.band r).extents.length)

/-- The stream `fits` of channel `n`'s band is stored in the extents `es`. -/
def State.feedStored (s : State) (n r : Nat) (es : List Nat) (fits : List Byte) : State :=
  ((s.setBand r { s.band r with storedLen := fits.length, extents := es }).writeStream es (s.band r).storedLen
    (fits.drop (s.band r).storedLen)).wr (.cmp .crc) (s.band r).lane (crc32c (s.chan n).data)

/-- The transfer of channel `n` waits for space no more, and the compressor of lane `l` runs. -/
def State.goesOn (s : State) (n l : Nat) : State := ((s.unhold n).wr (.dma .wait) n 0).wr (.cmp .jState) l 1

/-- The transfer of channel `n` waits for space, and the compressor of lane `l` with it. -/
def State.outFull (s : State) (n l : Nat) : State := (s.holdFor n).wr (.cmp .jState) l 2

section Filling

variable {s : State} {n r : Nat} {d : Desc} (hr : (s.chan n).recNo = some r) (hd : (s.chan n).desc = some d)

include hr hd

/-- The lane stores what its band's input has yielded (R76, R79, R111). -/
theorem State.fillBand_filling (hdis : (s.chan n).discard = false) (hst : (s.band r).st = .filling)
    (hl : s.laneRuns (s.band r).lane = true) :
    s.fillBand n =
      let all := (s.chan n).moved == d.length
      let ready := s.readyStream n r all
      let es := s.feedExtents r ready
      let fits := ready.take (63488 * es.length)
      let u := s.feedStored n r es fits
      if fits.length < ready.length then u.outFull n (s.band r).lane
      else if all then (u.goesOn n (s.band r).lane).closeBand n r (s.chan n).data
        (decide (2097151 < (s.bandStream (s.band r) (s.chan n).data).length))
      else u.goesOn n (s.band r).lane := by
  unfold State.fillBand
  simp only [hr, hd]
  refine (if_neg (by simp [hdis])).trans ((if_neg (by simp [hst])).trans ((if_neg (by simp [hl])).trans ?_))
  rfl

end Filling

section Steps

variable (s : State) (n r l : Nat) (es : List Nat) (fits : List Byte)

theorem State.dma_feedStored : (s.feedStored n r es fits).dma = s.dma := by
  rw [State.feedStored, State.wr_dma, State.dma_writeStream, State.setBand_dma]

theorem State.hw_feedStored : (s.feedStored n r es fits).hw = s.hw := by
  rw [State.feedStored, State.wr_hw, State.hw_writeStream, State.setBand_hw]

theorem State.band_feedStored :
    (s.feedStored n r es fits).band r = { s.band r with storedLen := fits.length, extents := es } := by
  rw [State.feedStored, State.band_wr, State.band_writeStream, State.band_setBand_same]

theorem State.byte_feedStored {a : Nat} (ha : ∀ e ∈ es, a < 63488 * e ∨ 63488 * e + 63488 ≤ a) :
    (s.feedStored n r es fits).byte a = s.byte a := by
  rw [State.feedStored, State.byte, State.wr_loam]
  exact State.byte_writeStream _ es _ _ ha

theorem State.jState_feedStored (i : Nat) : (s.feedStored n r es fits).rd (.cmp .jState) i = s.rd (.cmp .jState) i := by
  rw [State.feedStored, State.rd_wr_ne _ (by simp), State.rd_cmp_writeStream]
  rfl

theorem State.dma_holdFor : (s.holdFor n).dma = s.dma := by
  unfold State.holdFor
  dsimp only
  split
  · exact State.wr_dma ..
  · exact State.wr_dma s ..

theorem State.dma_outFull : (s.outFull n l).dma = s.dma := (State.wr_dma ..).trans (s.dma_holdFor n)

theorem State.loam_outFull : ∃ h, (s.outFull n l).loam = { s.loam with held := h } ∧ n ∈ h := by
  obtain ⟨-, hm, h, e⟩ := s.holdFor_spec n
  refine ⟨h, (State.wr_loam ..).trans e, ?_⟩
  rw [e] at hm
  exact hm

theorem State.wait_outFull : (s.outFull n l).rd (.dma .wait) n = 2 := by
  obtain ⟨hw, -⟩ := s.holdFor_spec n
  exact (State.rd_wr_ne _ (by simp) _).trans hw

theorem State.dma_goesOn : (s.goesOn n l).dma = s.dma := by
  rw [State.goesOn, State.wr_dma, State.wr_dma]
  rfl

theorem State.hw_goesOn : (s.goesOn n l).hw = s.hw := by
  rw [State.goesOn, State.wr_hw, State.wr_hw]
  rfl

theorem State.loam_goesOn : (s.goesOn n l).loam = { s.loam with held := s.loam.held.filter (· != n) } := by
  rw [State.goesOn, State.wr_loam, State.wr_loam]
  rfl

theorem State.jState_goesOn {i : Nat} (h : i ≠ l) : (s.goesOn n l).rd (.cmp .jState) i = s.rd (.cmp .jState) i := by
  rw [State.goesOn, State.rd_wr_ne _ (by simp [h]), State.rd_wr_ne _ (by simp)]
  rfl

end Steps

/-! #### A band whose input has ended (R76, R77, R331) -/

/-- An engine that is not isolated is not isolated when a lane lets a channel go. -/
theorem State.jState_leaveLane {s : State} {i : Nat} (h : s.rd (.cmp .jState) i ≠ 7) (n : Nat) :
    (s.leaveLane n).rd (.cmp .jState) i ≠ 7 := by
  have hidle (t : State) (l : Nat) (ht : t.rd (.cmp .jState) i ≠ 7) : (t.compressorIdle l).rd (.cmp .jState) i ≠ 7 := by
    have hclr : (t.clr (.cmp .bandRecValid) l).rd (.cmp .jState) i ≠ 7 := by
      rwa [State.clr_eq, State.rd_wr_ne _ (by simp)]
    unfold State.compressorIdle
    dsimp only
    split
    · rw [State.rd_wr]
      split
      · decide
      · exact hclr
    · exact hclr
  refine List.foldlRecOn (motive := fun t : State => t.rd (.cmp .jState) i ≠ 7) s.cmp.lanes _ h fun t ht e _ => ?_
  dsimp only
  rw [State.rd_setLane]
  split
  · exact hidle t e.1 ht
  · exact ht

theorem State.verifierOut_eq_false (s : State) (l : Nat) :
    s.verifierOut l = false ↔ s.hw.exL = false ∨ s.rd (.cmp .jState) (16 + l) ≠ 7 := by
  simp only [State.verifierOut, Bool.and_eq_false_iff, beq_eq_false_iff_ne]

theorem State.band_bandBad_eq (s : State) (r : Nat) (st : BandState) (cause : Nat) :
    (s.bandBad r st cause).band r = { s.band r with st := st, raw := [] } := by
  have hb : (s.bandMarked r st).band r = { s.band r with st := st, raw := [] } := State.band_setBand_same ..
  obtain h | ⟨h, -⟩ := s.bandBad_cases r st cause
  · rw [h, State.band_block, hb]
  · rw [h, hb]

theorem State.extents_verifyStart (s : State) (l r : Nat) : ((s.verifyStart l r).band r).extents = (s.band r).extents := by
  unfold State.verifyStart
  split
  · rw [State.band_bandBad_eq]
  · split
    · simp only [State.band_wr]
    · rfl

theorem State.band_verifyStart {s : State} {l : Nat} (h : s.verifierOut l = false) (r : Nat) : (s.verifyStart l r).band r = s.band r := by
  rw [State.verifyStart, if_neg (by simp [h])]
  split
  · simp only [State.band_wr]
  · rfl

/-- The band's record once all its data is stored. -/
def State.closedBand (s : State) (r : Nat) (data : List Byte) (cut : Bool) : Band :=
  { s.band r with st := .checking, crcIn := crc32c data, raw := if s.hw.exL && !(s.band r).hostcomp then data else [], cut := cut }

/-- The record is marked and its lane is left. -/
def State.markClosed (s : State) (n r : Nat) (data : List Byte) (cut : Bool) : State :=
  let t := s.setBand r (s.closedBand r data cut)
  ((t.setCtx (s.band r).ctx { t.ctx (s.band r).ctx with peak := max (t.ctx (s.band r).ctx).peak (s.band r).storedLen }).leaveLane n).wr
    (.cmp .jState) (s.band r).lane 5

section Close

variable (s : State) (n r : Nat) (data : List Byte) (cut : Bool)

theorem State.closeBand_eq :
    s.closeBand n r data cut = ((s.markClosed n r data cut).verifyStart (s.band r).lane r).endDesc n {} := rfl

theorem State.dma_markClosed : (s.markClosed n r data cut).dma = s.dma :=
  (State.wr_dma ..).trans ((State.dma_leaveLane ..).trans rfl)

theorem State.hw_markClosed : (s.markClosed n r data cut).hw = s.hw :=
  (State.wr_hw ..).trans ((State.leaveLane_keeps (b₀ := true) (.refl _) n).hw.trans rfl)

theorem State.band_markClosed : (s.markClosed n r data cut).band r = s.closedBand r data cut := by
  refine (State.band_wr ..).trans ((State.band_of_loam (State.loam_leaveLane ..) r).trans ?_)
  exact (State.band_setCtx ..).trans (State.band_setBand_same ..)

theorem State.chan_closeBand : (s.closeBand n r data cut).chan n = { s.chan n with ended := some {} } := by
  rw [State.closeBand_eq, State.chan_endDesc]
  rw [State.chan_congr ((State.dma_verifyStart ..).trans (s.dma_markClosed n r data cut)) n]

theorem State.band_endDesc (e : Ending) (q : Nat) : (s.endDesc n e).band q = s.band q := by
  rw [State.band, State.loam_endDesc]
  rfl

theorem State.extents_closeBand : ((s.closeBand n r data cut).band r).extents = (s.band r).extents := by
  rw [State.closeBand_eq, State.band_endDesc, State.extents_verifyStart, State.band_markClosed]
  rfl

theorem State.byte_closeBand (a : Nat) : (s.closeBand n r data cut).byte a = s.byte a := by
  rw [State.byte, (State.closeBand_keeps (.refl s) n r data cut).bytes rfl]
  rfl

/-- While the verifier is not isolated, the checks of the band begin. -/
theorem State.checking_closeBand (h : s.verifierOut (s.band r).lane = false) :
    ((s.closeBand n r data cut).band r).st = .checking := by
  have hv : (s.markClosed n r data cut).verifierOut (s.band r).lane = false := by
    rw [State.verifierOut_eq_false] at h ⊢
    refine h.imp (fun hx => by rwa [State.hw_markClosed]) fun hj => ?_
    rw [State.markClosed, State.rd_wr_ne _ (by simp)]
    refine State.jState_leaveLane ?_ n
    exact hj
  rw [State.closeBand_eq, State.band_endDesc, State.band_verifyStart hv, State.band_markClosed]
  rfl

end Close

/-- What a lane that goes on with its band does: it changes no byte outside the band's extents; the band stays FILLING before its input
has ended, and then its checks begin or its transfer is held (R76, R79, R331). -/
theorem State.fillBand_spec {s : State} {n r : Nat} {d : Desc} (hr : (s.chan n).recNo = some r) (hd : (s.chan n).desc = some d)
    (hdis : (s.chan n).discard = false) (hst : (s.band r).st = .filling) (hl : s.laneRuns (s.band r).lane = true) :
    (∀ a, (∀ e ∈ ((s.fillBand n).band r).extents, a < 63488 * e ∨ 63488 * e + 63488 ≤ a) → (s.fillBand n).byte a = s.byte a) ∧
      ((s.chan n).moved ≠ d.length → ((s.fillBand n).band r).st = .filling ∧ ((s.fillBand n).chan n).ended = (s.chan n).ended) ∧
      ((s.chan n).moved = d.length → s.verifierOut (s.band r).lane = false →
        ((s.fillBand n).band r).st = .checking ∧ ((s.fillBand n).chan n).ended = some {} ∨
          ((s.fillBand n).band r).st = .filling ∧ n ∈ (s.fillBand n).loam.held ∧ (s.fillBand n).rd (.dma .wait) n = 2) := by
  rw [State.fillBand_filling hr hd hdis hst hl]
  extract_lets all ready es fits u
  have hbyte (a : Nat) (ha : ∀ e ∈ es, a < 63488 * e ∨ 63488 * e + 63488 ≤ a) : u.byte a = s.byte a := s.byte_feedStored n r es fits ha
  have hband : u.band r = { s.band r with storedLen := fits.length, extents := es } := s.band_feedStored n r es fits
  have hdma : u.dma = s.dma := s.dma_feedStored n r es fits
  have hhw : u.hw = s.hw := s.hw_feedStored n r es fits
  have hj (i : Nat) : u.rd (.cmp .jState) i = s.rd (.cmp .jState) i := s.jState_feedStored n r es fits i
  clear_value u
  split
  · obtain ⟨h, hloam, hn⟩ := u.loam_outFull n (s.band r).lane
    have hb : (u.outFull n (s.band r).lane).band r = u.band r := by
      rw [State.band, hloam]
      rfl
    rw [hb, hband]
    refine ⟨fun a ha => ?_, fun _ => ⟨hst, ?_⟩, fun _ _ => .inr ⟨hst, ?_, State.wait_outFull ..⟩⟩
    · rw [State.byte, hloam]
      exact hbyte a ha
    · rw [State.chan_congr ((u.dma_outFull n _).trans hdma)]
    · rw [hloam]
      exact hn
  · have hg : (u.goesOn n (s.band r).lane).band r = u.band r := by
      rw [State.band, State.loam_goesOn]
      rfl
    have hgbyte (a : Nat) : (u.goesOn n (s.band r).lane).byte a = u.byte a := by
      rw [State.byte, State.loam_goesOn]
      rfl
    have hgdma : (u.goesOn n (s.band r).lane).dma = s.dma := (u.dma_goesOn n _).trans hdma
    split
    · next hall =>
      have hmoved : (s.chan n).moved = d.length := eq_of_beq hall
      refine ⟨fun a ha => ?_, fun h => absurd hmoved h, fun _ hv => .inl ⟨?_, ?_⟩⟩
      · rw [State.extents_closeBand, hg, hband] at ha
        rw [State.byte_closeBand, hgbyte, hbyte a ha]
      · refine State.checking_closeBand _ n r _ _ ?_
        rw [State.verifierOut_eq_false] at hv ⊢
        rw [hg, hband, State.hw_goesOn, hhw, State.jState_goesOn _ _ _ (show 16 + (s.band r).lane ≠ (s.band r).lane by omega), hj]
        exact hv
      · rw [State.chan_closeBand]
    · next hall =>
      rw [hg, hband]
      refine ⟨fun a ha => (hgbyte a).trans (hbyte a ha), fun _ => ⟨hst, ?_⟩, fun h => absurd (beq_iff_eq.2 h) hall⟩
      rw [State.chan_congr hgdma]

/-- What a channel has moved and holds of its band. -/
def State.progress (s : State) (n : Nat) : Nat × List Byte := ((s.chan n).moved, (s.chan n).data)

theorem State.progress_of_dma {s t : State} (h : t.dma = s.dma) (n : Nat) : t.progress n = s.progress n := by
  rw [State.progress, State.chan_congr h]
  rfl

theorem State.progress_endDesc (s : State) (n : Nat) (e : Ending) : (s.endDesc n e).progress n = s.progress n := by
  rw [State.progress, State.chan_endDesc]
  rfl

/-- A lane that goes on leaves what its channel has moved. -/
theorem State.progress_fillBand (s : State) (n : Nat) : (s.fillBand n).progress n = s.progress n := by
  have hab (e : Ending) : ((s.endDesc n e).abandonBand n).progress n = s.progress n :=
    (State.progress_of_dma (State.dma_abandonBand ..) n).trans (s.progress_endDesc n e)
  have hleave : ((s.leaveLane n).endDesc n {}).progress n = s.progress n :=
    (State.progress_endDesc ..).trans (State.progress_of_dma (s.dma_leaveLane n) n)
  unfold State.fillBand
  extract_lets c
  split
  · next r d _ _ =>
    extract_lets b all full stream ready es fits begun written going
    split
    · split
      · exact hab _
      · rfl
    · split
      · split
        · exact hleave
        · rfl
      · split
        · exact hab _
        · have hw : written.dma = s.dma := s.dma_feedStored n r es fits
          have hg : going.dma = s.dma := (written.dma_goesOn n b.lane).trans hw
          clear_value written going
          split
          · exact State.progress_of_dma ((written.dma_outFull n b.lane).trans hw) n
          · split
            · rw [State.progress, State.chan_closeBand]
              exact State.progress_of_dma hg n
            · exact State.progress_of_dma hg n
  · split
    · exact hleave
    · rfl
  · rfl


/-! #### The arbiter's burst (R333, R334) -/

theorem exec_burstIssue {s : State} {ups : List Upset} (h : s.hw.upsOk ups = true) (data : List Byte) :
    exec (.burstIssue data ups) s = .next (burstIssue data ups s) := by
  show guardWF (s.hw.upsOk ups) _ = _
  rw [h]
  rfl

/-- The arbiter has served channel `n` last (R334). -/
def State.served (s : State) (n : Nat) : State := { s with dma := { s.dma with last := n } }

theorem length_swapBytes (m : Nat) (l : List Byte) : (swapBytes m l).length = l.length := by
  induction m, l using swapBytes.induct with
  | case1 m a b c d t ih =>
    have hgroup : ∃ g : List Byte, g.length = 4 ∧ swapBytes m (a :: b :: c :: d :: t) = g ++ swapBytes m t := by
      conv => enter [1, g, 2, 1]; unfold swapBytes
      split <;> exact ⟨_, rfl, rfl⟩
    obtain ⟨g, hg, h⟩ := hgroup
    rw [h, List.length_append, ih, hg]
    simp only [List.length_cons]
    omega
  | case2 m l h => rw [swapBytes]; exact h

section Burst

variable {s : State} {n : Nat} {d : Desc} {data : List Byte} {ups : List Upset} (hh : s.up .host = true)
  (ha : s.arbitrate = some n) (hd : (s.chan n).desc = some d)

include hh ha hd

theorem burstIssue_band (hk : d.kind = 2 ∨ d.kind = 3) (hdata : s.nextBurst n ≤ data.length) (hl : s.laneRuns (s.curLane n) = true) :
    burstIssue data ups s = ((s.served n).setChan n
      { s.chan n with
        moved := (s.chan n).moved + s.nextBurst n
        data := (s.chan n).data ++ swapBytes d.swap (data.take (s.nextBurst n)) }).fillBand n := by
  have hb : d.isBand = true := by obtain h | h := hk <;> simp [Desc.isBand, h]
  refine (if_neg (by simp [hh])).trans ?_
  simp only [ha, hd]
  exact (if_neg (by simp [hdata])).trans ((if_pos hb).trans (if_neg (show ¬ (!s.laneRuns (s.curLane n)) = true by simp [hl])))

theorem burstIssue_band_out (hk : d.kind = 2 ∨ d.kind = 3) (hdata : s.nextBurst n ≤ data.length)
    (hl : s.laneRuns (s.curLane n) = false) :
    burstIssue data ups s = ((s.served n).endDesc n { bad := true, cause := 4 }).abandonBand n := by
  have hb : d.isBand = true := by obtain h | h := hk <;> simp [Desc.isBand, h]
  refine (if_neg (by simp [hh])).trans ?_
  simp only [ha, hd]
  exact (if_neg (by simp [hdata])).trans ((if_pos hb).trans (if_pos (show (!s.laneRuns (s.curLane n)) = true by simp [hl])))

theorem burstIssue_in (hk : d.kind = 0) (hm : s.up .mem = true) (hdata : s.nextBurst n ≤ data.length) :
    burstIssue data ups s =
      let u := (((s.served n).upset ups).writeLoam (d.loamAddr + (s.chan n).moved) (swapBytes d.swap (data.take (s.nextBurst n)))).setChan n
        { s.chan n with moved := (s.chan n).moved + s.nextBurst n, begun := true }
      if (s.chan n).moved + s.nextBurst n = d.length then u.endDesc n {} else u := by
  have hb : d.isBand = false := by simp [Desc.isBand, hk]
  refine (if_neg (by simp [hh])).trans ?_
  simp only [ha, hd]
  exact (if_neg (by simp [hdata])).trans ((if_neg (by simp [hb])).trans ((if_pos hk).trans (if_neg (show ¬ (!s.up .mem) = true by simp [hm]))))

theorem burstIssue_out (hk : d.kind = 1) (hm : s.up .mem = true) :
    burstIssue [] ups s =
      let q := ((s.served n).upset ups).readEcc (d.loamAddr + (s.chan n).moved) (s.nextBurst n)
      let v := q.2.setChan n { s.chan n with begun := true }
      if q.1 then v.endDesc n { bad := true, cause := 4 }
      else
        let u := (v.emit (.hostWrite (d.hostAddr + (s.chan n).moved)
          (swapBytes d.swap (v.bytes (d.loamAddr + (s.chan n).moved) (s.nextBurst n))))).setChan n
            { s.chan n with moved := (s.chan n).moved + s.nextBurst n, begun := true }
        if (s.chan n).moved + s.nextBurst n = d.length then u.endDesc n {} else u := by
  have hb : d.isBand = false := by simp [Desc.isBand, hk]
  have hi : d.inbound = false := by simp [Desc.inbound, hb, hk]
  refine (if_neg (by simp [hh])).trans ?_
  simp only [ha, hd]
  exact (if_neg (by simp [hi])).trans ((if_neg (by simp [hb])).trans ((if_neg (by simp [hk])).trans ((if_pos hk).trans
    (if_neg (show ¬ (!s.up .mem) = true by simp [hm])))))

theorem burstIssue_periph (hk : d.kind = 4) :
    burstIssue [] ups s =
      let q := (s.served n).periphTake (d.arg0 % 64) (s.nextBurst n)
      let u := (q.2.2.emit (.hostWrite (d.hostAddr + (s.chan n).moved) (swapBytes d.swap q.1))).setChan n
        { s.chan n with moved := (s.chan n).moved + s.nextBurst n, begun := true, request := false }
      if q.2.1 then u.endDesc n { short := true }
      else if (s.chan n).moved + s.nextBurst n = d.length then u.endDesc n {}
      else u.wr (.dma .wait) n 3 := by
  have hb : d.isBand = false := by simp [Desc.isBand, hk]
  have hi : d.inbound = false := by simp [Desc.inbound, hb, hk]
  refine (if_neg (by simp [hh])).trans ?_
  simp only [ha, hd]
  exact (if_neg (by simp [hi])).trans ((if_neg (by simp [hb])).trans ((if_neg (by simp [hk])).trans (if_neg (by simp [hk]))))

end Burst

/-! #### Copies (R333, R337) -/

theorem State.chan_endIf {c : Prop} [Decidable c] (s : State) (n : Nat) (e : Ending) :
    ((if c then s.endDesc n e else s).chan n) = if c then { s.chan n with ended := some e } else s.chan n := by
  split
  · exact s.chan_endDesc n e
  · rfl

theorem State.bytes_endIf {c : Prop} [Decidable c] (s : State) (n : Nat) (e : Ending) :
    (if c then s.endDesc n e else s).loam.bytes = s.loam.bytes := by
  split
  · exact s.bytes_endDesc n e
  · rfl

theorem State.out_endDesc (s : State) (n : Nat) (e : Ending) : (s.endDesc n e).out = s.out := State.wr_out ..

theorem State.byte_upset (s : State) (ups : List Upset) (a : Nat) : (s.upset ups).byte a = s.byte a := by
  obtain ⟨e, h⟩ := s.upset_eq ups
  rw [h]
  rfl

section CopyIn

variable {s : State} {n : Nat} {d : Desc} {data : List Byte} {ups : List Upset} (hh : s.up .host = true)
  (ha : s.arbitrate = some n) (hd : (s.chan n).desc = some d) (hk : d.kind = 0) (hm : s.up .mem = true)
  (hdata : s.nextBurst n ≤ data.length)

include hh ha hd hk hm hdata

theorem chan_burstIssue_in : (burstIssue data ups s).chan n =
    if (s.chan n).moved + s.nextBurst n = d.length then
      { s.chan n with moved := (s.chan n).moved + s.nextBurst n, begun := true, ended := some {} }
    else { s.chan n with moved := (s.chan n).moved + s.nextBurst n, begun := true } := by
  rw [burstIssue_in hh ha hd hk hm hdata]
  dsimp only
  rw [State.chan_endIf, State.chan_setChan_same]

/-- A burst of a copy in stores its bytes and no other ones. -/
theorem byte_burstIssue_in (a : Nat) : (burstIssue data ups s).byte a =
    if d.loamAddr + (s.chan n).moved ≤ a ∧ a < d.loamAddr + (s.chan n).moved + s.nextBurst n then
      (swapBytes d.swap (data.take (s.nextBurst n))).getD (a - (d.loamAddr + (s.chan n).moved)) 0
    else s.byte a := by
  have hlen : (swapBytes d.swap (data.take (s.nextBurst n))).length = s.nextBurst n := by
    rw [length_swapBytes, List.length_take, Nat.min_eq_left hdata]
  rw [burstIssue_in hh ha hd hk hm hdata]
  dsimp only
  rw [State.byte, State.bytes_endIf]
  refine (State.byte_writeLoam _ _ _ a).trans ?_
  rw [hlen, State.byte_upset]
  rfl

end CopyIn

/-- The errors that are read are those that were marked. -/
theorem fst_eccReads (bs : List Nat) (r : Bool × State) :
    (bs.foldl eccRead r).1 = (r.1 || bs.any fun b => r.2.ecc b == .bad) := by
  induction bs generalizing r with
  | nil => simp
  | cons b bs ih =>
    have hecc (c : Nat) : (eccRead r b).2.ecc c = r.2.ecc c := by
      rw [State.ecc, (sameButRegs_eccRead r b).loam]
      rfl
    have hfst : (eccRead r b).1 = (r.1 || r.2.ecc b == .bad) := by
      unfold eccRead
      cases h : r.2.ecc b <;> simp
    rw [List.foldl_cons, ih, hfst, List.any_cons, Bool.or_assoc]
    simp only [hecc]

/-- Whether a read meets an uncorrectable error shows in the page store's marks alone. -/
theorem State.readEcc_congr {s t : State} (h : t.loam = s.loam) (a n : Nat) : (t.readEcc a n).1 = (s.readEcc a n).1 := by
  have he (b : Nat) : t.ecc b = s.ecc b := by
    rw [State.ecc, h]
    rfl
  rw [State.readEcc_eq, State.readEcc_eq, fst_eccReads, fst_eccReads, State.hitBursts, h]
  simp only [he]
  rfl

theorem State.upset_congr {s t : State} (h : t.loam = s.loam) (ups : List Upset) : (t.upset ups).loam = (s.upset ups).loam := by
  unfold State.upset
  induction ups generalizing s t with
  | nil => exact h
  | cons u ups ih =>
    have he : t.ecc u.burst = s.ecc u.burst := by
      rw [State.ecc, h]
      rfl
    have hs (e : EccMark) : (t.setEcc u.burst e).loam = (s.setEcc u.burst e).loam := by
      rw [State.setEcc, h]
      rfl
    rw [List.foldl_cons, List.foldl_cons]
    refine ih ?_
    rw [he]
    split
    · exact hs _
    · exact hs _

section CopyOut

variable {s : State} {n : Nat} {d : Desc} {ups : List Upset} (hh : s.up .host = true)
  (ha : s.arbitrate = some n) (hd : (s.chan n).desc = some d) (hk : d.kind = 1) (hm : s.up .mem = true)

include hh ha hd hk hm

/-- A burst of a copy out that meets no uncorrectable error sends the stored bytes. -/
theorem burstIssue_sends (he : ((s.upset ups).readEcc (d.loamAddr + (s.chan n).moved) (s.nextBurst n)).1 = false) :
    ((burstIssue [] ups s).chan n).moved = (s.chan n).moved + s.nextBurst n ∧
      (burstIssue [] ups s).out = .hostWrite (d.hostAddr + (s.chan n).moved)
        (swapBytes d.swap (s.bytes (d.loamAddr + (s.chan n).moved) (s.nextBurst n))) :: s.out ∧
      (burstIssue [] ups s).loam.bytes = s.loam.bytes := by
  have he' := (State.readEcc_congr (State.upset_congr (s := s) (t := s.served n) rfl ups)
    (d.loamAddr + (s.chan n).moved) (s.nextBurst n)).trans he
  obtain ⟨e, hu⟩ := (s.served n).upset_eq ups
  obtain ⟨r, hq⟩ := ((s.served n).upset ups).sameButRegs_readEcc (d.loamAddr + (s.chan n).moved) (s.nextBurst n)
  rw [burstIssue_out hh ha hd hk hm]
  dsimp only
  rw [he', if_neg Bool.false_ne_true, hq, hu]
  refine ⟨?_, ?_, ?_⟩
  · rw [State.chan_endIf, State.chan_setChan_same]
    split <;> rfl
  · split
    · exact (State.out_endDesc ..).trans rfl
    · rfl
  · exact (State.bytes_endIf ..).trans rfl

/-- One that meets one ends BAD. -/
theorem burstIssue_poisoned (he : ((s.upset ups).readEcc (d.loamAddr + (s.chan n).moved) (s.nextBurst n)).1 = true) :
    ((burstIssue [] ups s).chan n).ended = some { bad := true, cause := 4 } ∧ (burstIssue [] ups s).out = s.out ∧
      (burstIssue [] ups s).loam.bytes = s.loam.bytes := by
  have he' := (State.readEcc_congr (State.upset_congr (s := s) (t := s.served n) rfl ups)
    (d.loamAddr + (s.chan n).moved) (s.nextBurst n)).trans he
  obtain ⟨e, hu⟩ := (s.served n).upset_eq ups
  obtain ⟨r, hq⟩ := ((s.served n).upset ups).sameButRegs_readEcc (d.loamAddr + (s.chan n).moved) (s.nextBurst n)
  rw [burstIssue_out hh ha hd hk hm]
  dsimp only
  rw [he', if_pos rfl, hq, hu]
  exact ⟨State.ended_endDesc .., (State.out_endDesc ..).trans rfl, (State.bytes_endDesc ..).trans rfl⟩

end CopyOut

/-! #### Peripherals and host errors (R335 to R338) -/

/-- The bytes that a peripheral hands over do not depend on the channels. -/
theorem periphTake_served (s : State) (n psel m : Nat) : ((s.served n).periphTake psel m).1 = (s.periphTake psel m).1 := by
  unfold State.periphTake
  split
  · rfl
  · split <;> rfl

theorem burstIssue_hands {s : State} {n : Nat} {d : Desc} {ups : List Upset} (hh : s.up .host = true)
    (ha : s.arbitrate = some n) (hd : (s.chan n).desc = some d) (hk : d.kind = 4) :
    ((burstIssue [] ups s).chan n).moved = (s.chan n).moved + s.nextBurst n ∧ ((burstIssue [] ups s).chan n).request = false ∧
      .hostWrite (d.hostAddr + (s.chan n).moved) (swapBytes d.swap (s.periphTake (d.arg0 % 64) (s.nextBurst n)).1) ∈
        (burstIssue [] ups s).out ∧
      (burstIssue [] ups s).loam.bytes = s.loam.bytes := by
  have hbytes : ((s.served n).periphTake (d.arg0 % 64) (s.nextBurst n)).2.2.loam = s.loam := (taken_periphTake (s.served n) _ _).loam
  rw [burstIssue_periph hh ha hd hk, ← periphTake_served s n]
  extract_lets q _ u
  have hchan : u.chan n = { s.chan n with moved := (s.chan n).moved + s.nextBurst n, begun := true, request := false } :=
    State.chan_setChan_same ..
  have hout : .hostWrite (d.hostAddr + (s.chan n).moved) (swapBytes d.swap q.1) ∈ u.out := List.mem_cons_self
  have hloam : u.loam.bytes = s.loam.bytes := congrArg Loam.bytes hbytes
  have hend (e : Ending) : ((u.endDesc n e).chan n).moved = (s.chan n).moved + s.nextBurst n ∧
      ((u.endDesc n e).chan n).request = false ∧ .hostWrite (d.hostAddr + (s.chan n).moved) (swapBytes d.swap q.1) ∈ (u.endDesc n e).out ∧
      (u.endDesc n e).loam.bytes = s.loam.bytes := by
    rw [State.chan_endDesc, State.out_endDesc, State.bytes_endDesc, hchan]
    exact ⟨rfl, rfl, hout, hloam⟩
  clear_value u
  split
  · exact hend _
  · split
    · exact hend _
    · rw [State.chan_wr, State.wr_out, State.wr_loam, hchan]
      exact ⟨rfl, rfl, hout, hloam⟩

/-- A channel with a burst to move is neither ended nor held (R333). -/
theorem State.nextBurst_ne_zero {s : State} {n : Nat} (h : s.nextBurst n ≠ 0) :
    (s.chan n).ended = none ∧ s.loam.held.contains n = false := by
  unfold State.nextBurst at h
  dsimp only at h
  split at h
  · exact absurd rfl h
  · split at h
    · exact absurd rfl h
    · next hne => simpa using hne

theorem burstError_eq {s : State} {n : Nat} {d : Desc} (hh : s.up .host = true) (hd : (s.chan n).desc = some d)
    (hb : s.nextBurst n ≠ 0) (h : Bool) :
    burstError n h s = (s.endDesc n { bad := true, cause := if h then 3 else 4 }).abandonBand n := by
  obtain ⟨he, -⟩ := State.nextBurst_ne_zero hb
  exact if_pos (by simp [hh, hd, he, Nat.pos_of_ne_zero hb])

/-- What becomes of the band that an ended transfer has fed (R338). -/
theorem State.abandonBand_filling {s : State} {n r : Nat} (hr : (s.chan n).recNo = some r) (hst : (s.band r).st = .filling) :
    ((s.abandonBand n).band r).st = .incomplete := by
  have hb : ((s.leaveLane n).unhold n).band r = s.band r := State.band_of_loam (s.loam_leaveLane n) r
  unfold State.abandonBand
  extract_lets c t
  have ht : t.band r = s.band r := hb
  rw [show c.recNo = some r from hr]
  dsimp only
  rw [if_pos (by rw [ht, hst]; rfl)]
  exact State.band_bandBad ..

theorem State.loam_abandonBand_none {s : State} {n : Nat} (hr : (s.chan n).recNo = none) :
    (s.abandonBand n).loam = { s.loam with held := s.loam.held.filter (· != n) } := by
  unfold State.abandonBand
  extract_lets c t
  rw [show c.recNo = none from hr]
  show { (s.leaveLane n).loam with held := (s.leaveLane n).loam.held.filter (· != n) } = _
  rw [s.loam_leaveLane n]

theorem filter_ne_of_not_contains {l : List Nat} {n : Nat} (h : l.contains n = false) : l.filter (· != n) = l := by
  refine List.filter_eq_self.2 fun m hm => bne_iff_ne.2 ?_
  rintro rfl
  rw [List.contains_iff_mem.2 hm] at h
  cases h

theorem exec_burstError {s : State} {n : Nat} {d : Desc} (hh : s.up .host = true) (hd : (s.chan n).desc = some d)
    (hb : s.nextBurst n ≠ 0) (hn : n < 32) (h : Bool) :
    ∃ t, exec (.burstError n h) s = .next t ∧ (t.chan n).ended = some { bad := true, cause := if h then 3 else 4 } ∧
      t.loam.bytes = s.loam.bytes ∧
      (∀ r, (s.chan n).recNo = some r → (s.band r).st = .filling → (t.band r).st = .incomplete) ∧
      ((s.chan n).recNo = none → t.loam = s.loam) := by
  have hx : exec (.burstError n h) s = .next (burstError n h s) := by
    show guardWF (decide (n < 32)) _ = _
    rw [decide_eq_true hn]
    rfl
  have hheld := filter_ne_of_not_contains (State.nextBurst_ne_zero hb).2
  have hrec (e : Ending) : ((s.endDesc n e).chan n).recNo = (s.chan n).recNo := by rw [State.chan_endDesc]
  refine ⟨_, hx.trans (congrArg Host.Outcome.next (burstError_eq hh hd hb h)), ?_, State.bytes_endAbandon .., fun r hr hst => ?_,
    fun hr => ?_⟩
  · rw [State.chan_endAbandon]
  · exact State.abandonBand_filling ((hrec _).trans hr) (by rwa [State.band_endDesc])
  · rw [State.loam_abandonBand_none ((hrec _).trans hr), State.loam_endDesc]
    simp only [hheld]


/-! #### DESCRIPTOR_COMPLETE (R326) -/

/-- How a descriptor has ended is counted (R326). -/
def State.endCounted (s : State) (n : Nat) (e : Ending) : State :=
  if e.bad then ((s.count (.dma .cntBad) n).ev (.dma .badEv) n).wr (.dma .lastCause) n e.cause else s.count (.dma .cntDone) n

/-- SHORT_EV and DESC_EV (R326). -/
def State.endFlagged (s : State) (n : Nat) (e : Ending) (irq : Bool) : State :=
  let t := if e.short then s.ev (.dma .shortEv) n else s
  if irq then t.ev (.dma .descEv) n else t

/-- A STOP takes effect (R341). -/
def State.endStopped (s : State) (n : Nat) : State := if s.chanState n = 2 then s.wr (.dma .state) n 3 else s

/-- The write of a descriptor's status word (R326, R327). -/
def State.statusWrite (s : State) (n : Nat) (e : Ending) : Out :=
  .hostWrite ((s.chan n).base + 32 * s.rd (.dma .head) n + 0x1C) ((leBytes (statusWord (s.chan n).moved e) 4).map (BitVec.ofNat 8))

/-- The status word is written, and HEAD goes on. -/
def State.headMoved (s : State) (n : Nat) (e : Ending) : State :=
  (s.emit (s.statusWrite n e)).wr (.dma .head) n (ringNext (s.chan n).log (s.rd (.dma .head) n))

/-- The state behind the write-back of channel `n`'s descriptor, before its message. -/
def State.writtenBack (s : State) (n : Nat) (d : Desc) (e : Ending) : State :=
  ((((s.headMoved n e).endCounted n e).endFlagged n e d.irq).setChan n
    { base := (s.chan n).base, log := (s.chan n).log }).endStopped n

theorem descriptorComplete_eq {s : State} {n : Nat} {d : Desc} {e : Ending} (hh : s.up .host = true) (hd : (s.chan n).desc = some d)
    (he : (s.chan n).ended = some e) :
    descriptorComplete n s = if d.irq || e.bad || e.short then
      (s.writtenBack n d e).msix ((s.writtenBack n d e).rd (.dma .vector) n) else s.writtenBack n d e := by
  refine (if_neg (by simp [hh])).trans ?_
  simp only [he, hd]
  rfl

section WriteBack

variable (s : State) (n : Nat) (d : Desc) (e : Ending)

theorem State.rd_endCounted {f : DmaF} (h1 : f ≠ .cntBad) (h2 : f ≠ .badEv) (h3 : f ≠ .lastCause) (h4 : f ≠ .cntDone) :
    (s.endCounted n e).rd (.dma f) n = s.rd (.dma f) n := by
  unfold State.endCounted
  split <;> simp [State.count_eq, State.ev_eq, State.rd_wr_dma, h1, h2, h3, h4]

theorem State.rd_endCounted_done (h : e.bad = false) :
    (s.endCounted n e).rd (.dma .cntDone) n = satInc 16 (s.rd (.dma .cntDone) n) ∧
      (s.endCounted n e).rd (.dma .cntBad) n = s.rd (.dma .cntBad) n := by
  rw [State.endCounted, if_neg (by simp [h]), State.count_eq, State.rd_wr_dma, State.rd_wr_dma, if_pos ⟨rfl, rfl⟩, if_neg (by simp)]
  exact ⟨Nat.mod_eq_of_lt (satInc_lt ..), rfl⟩

theorem State.rd_endCounted_bad (h : e.bad = true) :
    (s.endCounted n e).rd (.dma .cntBad) n = satInc 16 (s.rd (.dma .cntBad) n) ∧
      (s.endCounted n e).rd (.dma .lastCause) n = e.cause % 16 := by
  have hlt : satInc 16 (s.rd (.dma .cntBad) n) < 65536 := satInc_lt 16 _
  simpa [State.endCounted, h, State.ev_eq, State.count_eq, State.rd_wr_dma, Fld.row, DmaF.row] using hlt

theorem State.rd_endFlagged {f : DmaF} (h1 : f ≠ .shortEv) (h2 : f ≠ .descEv) (irq : Bool) :
    (s.endFlagged n e irq).rd (.dma f) n = s.rd (.dma f) n := by
  unfold State.endFlagged
  cases irq <;> cases e.short <;> simp [State.ev_eq, State.rd_wr_dma, h1, h2]

theorem State.rd_endStopped {f : DmaF} (h : f ≠ .state) : (s.endStopped n).rd (.dma f) n = s.rd (.dma f) n := by
  unfold State.endStopped
  split
  · rw [State.rd_wr_dma, if_neg fun e => h e.1]
  · rfl

theorem State.state_endStopped :
    (s.endStopped n).rd (.dma .state) n = if s.chanState n = 2 then 3 else s.chanState n := by
  unfold State.endStopped
  split
  · rw [State.rd_wr_dma, if_pos ⟨rfl, rfl⟩]
    rfl
  · rfl

end WriteBack

/-- What a write-back leaves of a state but its DMA fields and its channels. -/
theorem sameButRegs_writeBack (s : State) (n : Nat) (e : Ending) (irq : Bool) :
    s.SameButRegs ((s.endCounted n e).endFlagged n e irq) := by
  have hc : s.SameButRegs (s.endCounted n e) := by
    unfold State.endCounted
    split
    · exact ((s.sameButRegs_count ..).trans (State.sameButRegs_wr ..)).trans (State.sameButRegs_wr ..)
    · exact s.sameButRegs_count ..
  refine hc.trans ?_
  unfold State.endFlagged
  generalize s.endCounted n e = t
  have hf : t.SameButRegs (if e.short then t.ev (.dma .shortEv) n else t) := by
    split
    · exact t.sameButRegs_wr ..
    · exact .refl t
  dsimp only
  split
  · exact hf.trans (State.sameButRegs_wr ..)
  · exact hf

theorem sameButRegs_endStopped (s : State) (n : Nat) : s.SameButRegs (s.endStopped n) := by
  unfold State.endStopped
  split
  · exact s.sameButRegs_wr ..
  · exact .refl s

section WrittenBack

variable (s : State) (n : Nat) (d : Desc) (e : Ending)

/-- A write-back changes a channel, sends the status word, and is in register fields beside that. -/
theorem State.writtenBack_eq : ∃ r, s.writtenBack n d e =
    { (s.setChan n { base := (s.chan n).base, log := (s.chan n).log }).emit (s.statusWrite n e) with regs := r } := by
  obtain ⟨r0, h0⟩ := (s.emit (s.statusWrite n e)).sameButRegs_wr (.dma .head) n (ringNext (s.chan n).log (s.rd (.dma .head) n))
  obtain ⟨r1, h1⟩ := sameButRegs_writeBack (s.headMoved n e) n e d.irq
  obtain ⟨r2, h2⟩ := sameButRegs_endStopped ((((s.headMoved n e).endCounted n e).endFlagged n e d.irq).setChan n
    { base := (s.chan n).base, log := (s.chan n).log }) n
  refine ⟨r2, ?_⟩
  rw [State.writtenBack, h2, h1, State.headMoved, h0]
  rfl

theorem State.chan_writtenBack : (s.writtenBack n d e).chan n = { base := (s.chan n).base, log := (s.chan n).log } := by
  obtain ⟨r, h⟩ := s.writtenBack_eq n d e
  rw [h]
  exact State.chan_setChan_same ..

theorem State.out_writtenBack : (s.writtenBack n d e).out = s.statusWrite n e :: s.out := by
  obtain ⟨r, h⟩ := s.writtenBack_eq n d e
  rw [h]
  rfl

theorem State.loam_writtenBack : (s.writtenBack n d e).loam = s.loam := by
  obtain ⟨r, h⟩ := s.writtenBack_eq n d e
  rw [h]
  rfl

theorem State.rd_headMoved {f : DmaF} (h : f ≠ .head) : (s.headMoved n e).rd (.dma f) n = s.rd (.dma f) n := by
  rw [State.headMoved, State.rd_wr_dma, if_neg fun e => h e.1]
  rfl

theorem State.head_headMoved :
    (s.headMoved n e).rd (.dma .head) n = ringNext (s.chan n).log (s.rd (.dma .head) n) % 2 ^ 16 := by
  rw [State.headMoved, State.rd_wr_dma, if_pos ⟨rfl, rfl⟩]
  rfl

/-- Behind its count, a write-back shows in the flags and in the channel's state. -/
theorem State.rd_writtenBack {f : DmaF} (h1 : f ≠ .shortEv) (h2 : f ≠ .descEv) (h3 : f ≠ .state) :
    (s.writtenBack n d e).rd (.dma f) n = ((s.headMoved n e).endCounted n e).rd (.dma f) n := by
  rw [State.writtenBack, State.rd_endStopped _ _ h3, State.rd_setChan, State.rd_endFlagged _ _ _ h1 h2]

theorem State.state_writtenBack :
    (s.writtenBack n d e).rd (.dma .state) n = if s.chanState n = 2 then 3 else s.chanState n := by
  have hs : ((((s.headMoved n e).endCounted n e).endFlagged n e d.irq).setChan n
      { base := (s.chan n).base, log := (s.chan n).log }).chanState n = s.chanState n := by
    rw [State.chanState, State.rd_setChan, State.rd_endFlagged _ _ _ (by decide) (by decide),
      State.rd_endCounted _ _ _ (by decide) (by decide) (by decide) (by decide), State.rd_headMoved _ _ _ (by decide)]
    rfl
  rw [State.writtenBack, State.state_endStopped, hs]

end WrittenBack

/-- What is seen of a write-back is seen with its message too. -/
structure WroteBack (s : State) (n : Nat) (e : Ending) (t : State) : Prop where
  head : t.rd (.dma .head) n = ringNext (s.chan n).log (s.rd (.dma .head) n) % 2 ^ 16
  out : s.statusWrite n e ∈ t.out
  chan : t.chan n = { base := (s.chan n).base, log := (s.chan n).log }
  state : t.rd (.dma .state) n = if s.chanState n = 2 then 3 else s.chanState n
  done : e.bad = false → t.rd (.dma .cntDone) n = satInc 16 (s.rd (.dma .cntDone) n) ∧ t.rd (.dma .cntBad) n = s.rd (.dma .cntBad) n
  bad : e.bad = true → t.rd (.dma .cntBad) n = satInc 16 (s.rd (.dma .cntBad) n) ∧ t.rd (.dma .lastCause) n = e.cause % 16
  loam : t.loam = s.loam

theorem wroteBack (s : State) (n : Nat) (d : Desc) (e : Ending) : WroteBack s n e (s.writtenBack n d e) where
  head := by
    rw [State.rd_writtenBack _ _ _ _ (by decide) (by decide) (by decide),
      State.rd_endCounted _ _ _ (by decide) (by decide) (by decide) (by decide), State.head_headMoved]
  out := by
    rw [State.out_writtenBack]
    exact List.mem_cons_self
  chan := s.chan_writtenBack n d e
  state := s.state_writtenBack n d e
  done h := by
    rw [State.rd_writtenBack _ _ _ _ (by decide) (by decide) (by decide), State.rd_writtenBack _ _ _ _ (by decide) (by decide) (by decide),
      ← State.rd_headMoved s n e (f := .cntDone) (by decide), ← State.rd_headMoved s n e (f := .cntBad) (by decide)]
    exact State.rd_endCounted_done _ n e h
  bad h := by
    rw [State.rd_writtenBack _ _ _ _ (by decide) (by decide) (by decide), State.rd_writtenBack _ _ _ _ (by decide) (by decide) (by decide),
      ← State.rd_headMoved s n e (f := .cntBad) (by decide)]
    exact State.rd_endCounted_bad _ n e h
  loam := s.loam_writtenBack n d e

theorem WroteBack.msix {s t : State} {n : Nat} {e : Ending} (h : WroteBack s n e t) (v : Nat) : WroteBack s n e (t.msix v) := by
  have hout : t.out <:+ (t.msix v).out := (State.msix_keeps (m := true) (.refl t) v).out
  obtain ⟨o, p, hm⟩ := t.msix_eq v
  have hchan : (t.msix v).chan n = t.chan n := by
    rw [hm]
    rfl
  have hloam : (t.msix v).loam = t.loam := by rw [hm]
  constructor
  · rw [State.rd_msix]
    exact h.head
  · exact hout.subset h.out
  · exact hchan.trans h.chan
  · rw [State.rd_msix]
    exact h.state
  · simp only [State.rd_msix]
    exact h.done
  · simp only [State.rd_msix]
    exact h.bad
  · exact hloam.trans h.loam

theorem exec_descriptorComplete {s : State} {n : Nat} {d : Desc} {e : Ending} (hn : n < 32) (hh : s.up .host = true)
    (hd : (s.chan n).desc = some d) (he : (s.chan n).ended = some e) :
    ∃ t, exec (.descriptorComplete n) s = .next t ∧ WroteBack s n e t := by
  have hx : exec (.descriptorComplete n) s = .next (descriptorComplete n s) := by
    show guardWF (decide (n < 32)) _ = _
    rw [decide_eq_true hn]
    rfl
  refine ⟨_, hx.trans (congrArg Host.Outcome.next (descriptorComplete_eq hh hd he)), ?_⟩
  split
  · exact (wroteBack s n d e).msix _
  · exact wroteBack s n d e

/-- Settles O26: a burst by the kind of its descriptor, and the write-back of one that has ended. -/
theorem burstsMove : Obligations.BurstsMove := by
  refine ⟨fun s n d ups hh hd hb hups => ⟨fun data ha hk hdata => ⟨fun hl => ?_, fun hl => ?_⟩, fun data ha hk hm hdata _ => ?_,
    fun ha hk hm => ⟨fun he => ⟨_, exec_burstIssue hups [], burstIssue_sends hh ha hd hk hm he⟩,
      fun he => ⟨_, exec_burstIssue hups [], burstIssue_poisoned hh ha hd hk hm he⟩⟩,
    fun ha hk => ⟨_, exec_burstIssue hups [], burstIssue_hands hh ha hd hk⟩, exec_burstError hh hd hb⟩,
    fun s n d e hn hh hd he => ?_⟩
  · refine ⟨_, exec_burstIssue hups data, ?_⟩
    rw [burstIssue_band hh ha hd hk hdata hl]
    generalize hu : (s.served n).setChan n _ = u
    have hchan : u.chan n = { s.chan n with
        moved := (s.chan n).moved + s.nextBurst n
        data := (s.chan n).data ++ swapBytes d.swap (data.take (s.nextBurst n)) } := by
      rw [← hu, State.chan_setChan_same]
    have hprog := Prod.mk.inj (u.progress_fillBand n)
    rw [hchan] at hprog
    refine ⟨hprog.1, hprog.2, fun r hr hst hlr hdis => ?_⟩
    have hband : u.band r = s.band r := by
      rw [← hu]
      rfl
    have hbyte (a : Nat) : u.byte a = s.byte a := by
      rw [← hu]
      rfl
    have hruns : u.laneRuns (s.band r).lane = true := by
      rw [← hu]
      exact hlr
    have hout : u.verifierOut (s.band r).lane = s.verifierOut (s.band r).lane := by
      rw [← hu]
      rfl
    obtain ⟨hf, hmid, hend⟩ := State.fillBand_spec (s := u) (r := r) (d := d) (by rw [hchan]; exact hr) (by rw [hchan]; exact hd)
      (by rw [hchan]; exact hdis) (by rw [hband]; exact hst) (by rw [hband]; exact hruns)
    rw [hchan] at hmid hend
    rw [hband, hout] at hend
    exact ⟨fun a hx => (hf a hx).trans (hbyte a), fun h => hmid h.ne, hend⟩
  · refine ⟨_, exec_burstIssue hups data, ?_⟩
    rw [burstIssue_band_out hh ha hd hk hdata hl, State.chan_endAbandon, State.bytes_endAbandon]
    exact ⟨rfl, rfl⟩
  · refine ⟨_, exec_burstIssue hups data, ?_, fun i hi => ?_, fun a hx => ?_, fun hall => ?_⟩
    · rw [chan_burstIssue_in hh ha hd hk hm hdata]
      split <;> rfl
    · rw [byte_burstIssue_in hh ha hd hk hm hdata, if_pos (by omega), Nat.add_sub_cancel_left]
    · rw [byte_burstIssue_in hh ha hd hk hm hdata, if_neg (by omega)]
    · rw [chan_burstIssue_in hh ha hd hk hm hdata, if_pos hall]
  · obtain ⟨t, ht, hhead, hout, hchan, hstate, hdone, hbad, hloam⟩ := exec_descriptorComplete hn hh hd he
    exact ⟨t, ht, hhead, hout, hchan, hstate, hdone, hbad, hloam⟩


end Sys2Proof.Machine
